-- ==== Sys2Proof/Word.lean ====
section
/-!
DEFINITION. The machine's words: 32-bit register and sample words, bytes, and the plainest arithmetic on them.
-/
namespace Sys2Proof

/-- A 32-bit register or sample word (R51, R82). -/
abbrev Word := BitVec 32

/-- A byte of memory. -/
abbrev Byte := BitVec 8

end Sys2Proof
end

