-- ==== Sys2Proof/Machine/Bits.lean ====
section
/-!
DEFINITION. Bit-field, sign, byte-order and table helpers that the meanings share.
-/
namespace Sys2Proof.Machine

/-- The field of `w` bits at bit `lo` of `v`. -/
def fld (v lo w : Nat) : Nat := v / 2 ^ lo % 2 ^ w

/-- `v` with the field of `w` bits at bit `lo` replaced by `x`. -/
def fldSet (v lo w x : Nat) : Nat :=
  v - fld v lo w * 2 ^ lo + (x % 2 ^ w) * 2 ^ lo

/-- Bit `i` of `v`. -/
def bit (v i : Nat) : Bool := v / 2 ^ i % 2 == 1

/-- The number 1 or 0 of a truth value. -/
def b2n (b : Bool) : Nat := if b then 1 else 0

/-- `v` with bit `i` set or cleared. -/
def bitSet (v i : Nat) (b : Bool) : Nat := fldSet v i 1 (b2n b)

/-- The two's complement value of the low `w` bits of `v`. -/
def sgn (w v : Nat) : Int :=
  let x := v % 2 ^ w
  if x < 2 ^ (w - 1) then (x : Int) else (x : Int) - (2 ^ w : Nat)

/-- The low `w` bits of an integer, two's complement. -/
def wrapN (w : Nat) (x : Int) : Nat := (x % ((2 ^ w : Nat) : Int)).toNat

/-- `x` brought within `lo` and `hi`. -/
def clampI (lo hi x : Int) : Int := min (max x lo) hi

/-- `x` brought within `lo` and `hi`. -/
def clampN (lo hi x : Nat) : Nat := min (max x lo) hi

/-- Floor division by a power of two. -/
def shrI (x : Int) (n : Nat) : Int := x / ((2 ^ n : Nat) : Int)

/-- floor(x / y + 1/2) for a positive `y`. -/
def roundDiv (x : Int) (y : Nat) : Int := (2 * x + y) / ((2 * y : Nat) : Int)

/-- Bytes to a number, least significant byte first. -/
def leNat : List Byte → Nat
  | [] => 0
  | b :: bs => b.toNat + 256 * leNat bs

/-- Bytes to a number, most significant byte first. -/
def beNat (bs : List Byte) : Nat := bs.foldl (fun a b => a * 256 + b.toNat) 0

/-- `n` bytes of `v`, least significant first. -/
def leBytes : Nat → Nat → List Byte
  | 0, _ => []
  | n + 1, v => BitVec.ofNat 8 v :: leBytes n (v / 256)

/-- `n` bytes of `v`, most significant first. -/
def beBytes (n v : Nat) : List Byte := (leBytes n v).reverse

/-- `n` items of `l` from item `i`. -/
def slice {α : Type} (l : List α) (i n : Nat) : List α := (l.drop i).take n

/-- The field of `n` bytes at byte `i`, least significant byte first. -/
def le (l : List Byte) (i n : Nat) : Nat := leNat (slice l i n)

/-- The field of `n` bytes at byte `i`, most significant byte first. -/
def be (l : List Byte) (i n : Nat) : Nat := beNat (slice l i n)

/-- The value held for key `k` in a table of pairs. -/
def tabGet {α : Type} : List (Nat × α) → Nat → Option α
  | [], _ => none
  | (k, v) :: t, x => if k = x then some v else tabGet t x

/-- The table without key `k`. -/
def tabDel {α : Type} : List (Nat × α) → Nat → List (Nat × α)
  | [], _ => []
  | (k, v) :: t, x => if k = x then tabDel t x else (k, v) :: tabDel t x

/-- The table with `v` at key `x`, keys rising. -/
def tabSet {α : Type} : List (Nat × α) → Nat → α → List (Nat × α)
  | [], x, v => [(x, v)]
  | (k, w) :: t, x, v =>
    if x < k then (x, v) :: (k, w) :: t
    else if k = x then (x, v) :: t
    else (k, w) :: tabSet t x v

/-- `f` applied to item `i` of `l`. -/
def updAt {α : Type} : List α → Nat → (α → α) → List α
  | [], _, _ => []
  | x :: t, 0, f => f x :: t
  | x :: t, i + 1, f => x :: updAt t i f

/-- `f` applied to every number below `n` in rising order, folding the state. -/
def forN {σ : Type} : Nat → (Nat → σ → σ) → σ → σ
  | 0, _, s => s
  | n + 1, f, s => f n (forN n f s)

/-- The state folded over a list in order. -/
def each {σ α : Type} : List α → (α → σ → σ) → σ → σ
  | [], _, s => s
  | x :: t, f, s => each t f (f x s)

/-- Insertion by a key, after equal keys. -/
def insBy {α : Type} (key : α → Nat) (x : α) : List α → List α
  | [] => [x]
  | y :: t => if key x < key y then x :: y :: t else y :: insBy key x t

/-- A stable sort by a key, lowest first. -/
def sortBy {α : Type} (key : α → Nat) (l : List α) : List α :=
  l.foldl (fun acc x => insBy key x acc) []

/-- The sum of a list. -/
def sumN (l : List Nat) : Nat := l.foldl (· + ·) 0

/-- The greatest of a list, 0 for none. -/
def maxN (l : List Nat) : Nat := l.foldl max 0

/-- The numbers `a`, `a + 1`, … of which there are `n`. -/
def rangeFrom (a n : Nat) : List Nat := (List.range n).map (a + ·)

/-- Bits set in the low `n` bits of `v`, lowest first. -/
def bitsOn (n v : Nat) : List Nat := (List.range n).filter (bit v)

/-- The least power of two at or above `n`, counted up from 1 in at most 17 doublings (R89). -/
def pow2Ge : Nat → Nat → Nat → Nat
  | 0, b, _ => b
  | f + 1, b, n => if b < n then pow2Ge f (2 * b) n else b

end Sys2Proof.Machine
end

