-- ==== Sys2Proof/Machine/RegMap.lean ====
section
/-!
DEFINITION. The register map of the 31 blocks (R10, R11), written out from the register and field tables of the
chapters: for every register its offset within the block, its array dimensions, its reset value, and one mask per access
code (R7) and per take-effect class (R8), with the mask of its critical bits (R31).  Registers of 64 bits read low word
first are rows of kind `wideRC` (R6) and `wideRO`.  `R.*` are the BAR0 offsets.
-/
namespace Sys2Proof.Machine

/-- How a register row is held: a 32-bit register, a 64-bit counter that clears on read (R6), a 64-bit status value. -/
inductive RegKind where
  | plain
  | wideRC
  | wideRO
deriving DecidableEq, Repr

/-- One row of a block's register table (R7, R8).  `n1`,`s1` and `n2`,`s2` are counts and strides of its array indices. -/
structure RegRow where
  base   : Nat
  n1     : Nat := 1
  s1     : Nat := 0
  n2     : Nat := 1
  s2     : Nat := 0
  kind   : RegKind := .plain
  reset  : Nat := 0
  rw     : Nat := 0
  w1c    : Nat := 0
  ws     : Nat := 0
  wo     : Nat := 0
  rc     : Nat := 0
  tick   : Nat := 0
  frame  : Nat := 0
  commit : Nat := 0
  stop   : Nat := 0
  crit   : Nat := 0
deriving DecidableEq, Repr

/-- Block identifiers (R10, R11). -/

abbrev Blk.sys : Nat := 0
abbrev Blk.pwr : Nat := 1
abbrev Blk.tick : Nat := 2
abbrev Blk.eng : Nat := 3
abbrev Blk.load : Nat := 4
abbrev Blk.cmd : Nat := 5
abbrev Blk.key : Nat := 6
abbrev Blk.clk : Nat := 7
abbrev Blk.syn : Nat := 8
abbrev Blk.time : Nat := 9
abbrev Blk.mac0 : Nat := 10
abbrev Blk.mac1 : Nat := 11
abbrev Blk.macm : Nat := 12
abbrev Blk.mact : Nat := 13
abbrev Blk.strm : Nat := 14
abbrev Blk.tdm : Nat := 15
abbrev Blk.pdm : Nat := 16
abbrev Blk.dec : Nat := 17
abbrev Blk.mod : Nat := 18
abbrev Blk.sns : Nat := 19
abbrev Blk.pair : Nat := 20
abbrev Blk.mir : Nat := 21
abbrev Blk.cvu : Nat := 22
abbrev Blk.bbx : Nat := 23
abbrev Blk.evt : Nat := 24
abbrev Blk.bmx : Nat := 25
abbrev Blk.ddr : Nat := 26
abbrev Blk.gln : Nat := 27
abbrev Blk.thm : Nat := 28
abbrev Blk.pcie : Nat := 29
abbrev Blk.gpio : Nat := 30

/-- The registers of SYS. -/
def regRowsSys : List RegRow := [
  { base := 0x0, reset := 0x24481110 },
  { base := 0x4 },
  { base := 0x8 },
  { base := 0xC, reset := 0x1, w1c := 0x1F },
  { base := 0x10, rw := 0x1FFFF },
  { base := 0x14, wo := 0xFFFFFFFF },
  { base := 0x18 },
  { base := 0x20, w1c := 0x1 },
  { base := 0x24 },
  { base := 0x28, reset := 0x4, rw := 0x7 },
  { base := 0x2C, reset := 0x1, rw := 0x1 }]

/-- The registers of PWR. -/
def regRowsPwr : List RegRow := [
  { base := 0x0, reset := 0xFFF, rw := 0x6B8, tick := 0x6B8, crit := 0x6B8 },
  { base := 0x4, reset := 0xFFF, w1c := 0xFFF0000 },
  { base := 0x8, ws := 0x3 },
  { base := 0xC, ws := 0x1, tick := 0x1, crit := 0x1 },
  { base := 0x10, ws := 0x100, tick := 0x100, crit := 0x100 },
  { base := 0x40, n1 := 2, s1 := 8, kind := .wideRC },
  { base := 0x20, w1c := 0xF },
  { base := 0x24 },
  { base := 0x28, reset := 0x1102, rw := 0x7777 },
  { base := 0x2C, reset := 0xF, rw := 0xF },
  { base := 0xFFF0, ws := 0xFFFF, tick := 0xFFFF },
  { base := 0xFFF4 },
  { base := 0xFFF8, w1c := 0xF, rc := 0xFFFF0000 },
  { base := 0xFFFC }]

/-- The registers of TICK. -/
def regRowsTick : List RegRow := [
  { base := 0x0, kind := .wideRO },
  { base := 0x8 },
  { base := 0x10, rc := 0x1FF0000 },
  { base := 0x14, kind := .wideRO },
  { base := 0x100, n1 := 8, s1 := 16, kind := .wideRO },
  { base := 0x108, n1 := 8, s1 := 16, kind := .wideRO }]

/-- The registers of ENG. -/
def regRowsEng : List RegRow := [
  { base := 0x0, reset := 0x7, rw := 0x7, stop := 0x7, crit := 0x7 },
  { base := 0x4 },
  { base := 0x8, ws := 0x7, tick := 0x7, crit := 0x7 },
  { base := 0x10 },
  { base := 0x14, rc := 0x3F3FFF },
  { base := 0x20 },
  { base := 0x24 },
  { base := 0x28, rc := 0xFF000000 },
  { base := 0x50, kind := .wideRC },
  { base := 0x58, kind := .wideRC },
  { base := 0x60, kind := .wideRC },
  { base := 0x100, n1 := 48, s1 := 4 },
  { base := 0x30, w1c := 0xFFF },
  { base := 0x34 },
  { base := 0x38, reset := 0x10224444, rw := 0x77777777 },
  { base := 0x3C, reset := 0x1112, rw := 0x7777 },
  { base := 0x40, reset := 0xFFF, rw := 0xFFF },
  { base := 0xFFF0, ws := 0xFFFF, tick := 0xFFFF, crit := 0xFFFF },
  { base := 0xFFF4 },
  { base := 0xFFF8, w1c := 0xF, rc := 0xFFFF0000 },
  { base := 0xFFFC }]

/-- The registers of LOAD. -/
def regRowsLoad : List RegRow := [
  { base := 0x0 },
  { base := 0x4 },
  { base := 0x8 },
  { base := 0xC },
  { base := 0x10 },
  { base := 0x14 },
  { base := 0x18 },
  { base := 0x1C },
  { base := 0x20 },
  { base := 0x24 },
  { base := 0x28, kind := .wideRO },
  { base := 0x30, kind := .wideRO },
  { base := 0x38, kind := .wideRO },
  { base := 0x40, n1 := 8, s1 := 4 },
  { base := 0x60, n1 := 8, s1 := 4 },
  { base := 0x90, kind := .wideRC },
  { base := 0x98, kind := .wideRC },
  { base := 0xA0, kind := .wideRC },
  { base := 0x80, w1c := 0x3F },
  { base := 0x84 },
  { base := 0x88, reset := 0x122122, rw := 0x777777 },
  { base := 0x8C, reset := 0x3F, rw := 0x3F }]

/-- The registers of CMD. -/
def regRowsCmd : List RegRow := [
  { base := 0x0, reset := 0x1, rw := 0x3 },
  { base := 0x4, reset := 0x4810, rw := 0xFFFF },
  { base := 0x8 },
  { base := 0xC },
  { base := 0x10 },
  { base := 0x20, n1 := 2, s1 := 32, rw := 0xFFFFFFC0 },
  { base := 0x24, n1 := 2, s1 := 32, rw := 0xFF },
  { base := 0x28, n1 := 2, s1 := 32, rw := 0x1FFF },
  { base := 0x2C, n1 := 2, s1 := 32 },
  { base := 0x30, n1 := 2, s1 := 32, rw := 0xFFF },
  { base := 0x60, n1 := 2, s1 := 32, rw := 0xFFFFFFC0 },
  { base := 0x64, n1 := 2, s1 := 32, rw := 0xFF },
  { base := 0x68, n1 := 2, s1 := 32, rw := 0x1FFF },
  { base := 0x6C, n1 := 2, s1 := 32 },
  { base := 0x70, n1 := 2, s1 := 32, rw := 0xFFF },
  { base := 0x100, n1 := 8, s1 := 8, kind := .wideRO },
  { base := 0x300, n1 := 6, s1 := 8, kind := .wideRC },
  { base := 0x200, w1c := 0x3F },
  { base := 0x204 },
  { base := 0x208, reset := 0x121110, rw := 0x777777 },
  { base := 0x20C, reset := 0x3F, rw := 0x3F }]

/-- The registers of KEY. -/
def regRowsKey : List RegRow := [
  { base := 0x0, n1 := 8, s1 := 4 },
  { base := 0x20 },
  { base := 0x24, w1c := 0x6 },
  { base := 0x100, n1 := 4, s1 := 32, n2 := 8, s2 := 4 },
  { base := 0x200, n1 := 4, s1 := 32, n2 := 8, s2 := 4 },
  { base := 0x300, w1c := 0x3F },
  { base := 0x304 },
  { base := 0x308, reset := 0x232121, rw := 0x777777 },
  { base := 0x30C, reset := 0x3F, rw := 0x3F }]

/-- The registers of CLK. -/
def regRowsClk_0 : List RegRow := [
  { base := 0x0, reset := 0x10, rw := 0x11F, tick := 0x11F, crit := 0x11F },
  { base := 0x4 },
  { base := 0x8, reset := 0x2, rw := 0x7, commit := 0x7, crit := 0x7 },
  { base := 0xC },
  { base := 0x10 },
  { base := 0x14 },
  { base := 0x18, rw := 0x3 },
  { base := 0x1C, reset := 0x3E8, rw := 0xFFFFFF },
  { base := 0x20 },
  { base := 0x24 },
  { base := 0x28, reset := 0x410, rw := 0x3FFF, tick := 0x3FFF, crit := 0x3FFF },
  { base := 0x2C, reset := 0x320407D0, rw := 0xFFFFFFFF, tick := 0xFFFFFFFF, crit := 0xFFFFFFFF },
  { base := 0x30, reset := 0x100064, rw := 0xFFFFFF, tick := 0xFFFFFF, crit := 0xFFFFFF },
  { base := 0x40, reset := 0x1, rw := 0x1F7, commit := 0x1F7, crit := 0x1F7 },
  { base := 0x60, reset := 0x11, rw := 0x1F7, commit := 0x1F7, crit := 0x1F7 },
  { base := 0x80, reset := 0x125, rw := 0x1F0, commit := 0x1F0, crit := 0x1F0 },
  { base := 0xA0, reset := 0x186, rw := 0x1F0, commit := 0x1F0, crit := 0x1F0 },
  { base := 0x44, n1 := 4, s1 := 32, reset := 0x13882710, rw := 0xFFFFFFFF, commit := 0xFFFFFFFF, crit := 0xFFFFFFFF },
  { base := 0x48, n1 := 4, s1 := 32, reset := 0xA001E, rw := 0xFF03FF, commit := 0xFF03FF, crit := 0xFF03FF },
  { base := 0x4C, n1 := 2, s1 := 32, reset := 0x400032, rw := 0xFFFFFF, commit := 0xFFFFFF, crit := 0xFFFFFF },
  { base := 0x8C, reset := 0x400064, rw := 0xFFFFFF, commit := 0xFFFFFF, crit := 0xFFFFFF },
  { base := 0xAC, reset := 0x400002, rw := 0xFFFFFF, commit := 0xFFFFFF, crit := 0xFFFFFF },
  { base := 0x50, n1 := 4, s1 := 32 },
  { base := 0x54, n1 := 4, s1 := 32 }]

def regRowsClk_1 : List RegRow := [
  { base := 0x58, n1 := 4, s1 := 32 },
  { base := 0x5C, n1 := 4, s1 := 32 },
  { base := 0xC0, rw := 0xF, tick := 0xF, crit := 0xF },
  { base := 0xF0, kind := .wideRC },
  { base := 0xF8, kind := .wideRC },
  { base := 0xD0, w1c := 0x7FF },
  { base := 0xD4 },
  { base := 0xD8, reset := 0x11222221, rw := 0x77777777 },
  { base := 0xDC, reset := 0x112, rw := 0x777 },
  { base := 0xE0, reset := 0x7FF, rw := 0x7FF },
  { base := 0xFFF0, ws := 0xFFFF, tick := 0xFFFF, crit := 0xFFFF },
  { base := 0xFFF4 },
  { base := 0xFFF8, w1c := 0xF, rc := 0xFFFF0000 },
  { base := 0xFFFC }]

@[inherit_doc regRowsClk_0]
def regRowsClk : List RegRow := regRowsClk_0 ++ regRowsClk_1

/-- The registers of SYN. -/
def regRowsSyn : List RegRow := [
  { base := 0x0 },
  { base := 0x10, n1 := 4, s1 := 16, reset := 0xA0, rw := 0x800FFFFF, commit := 0x800FFFFF, crit := 0x800FFFFF },
  { base := 0x14, n1 := 4, s1 := 16, rw := 0xFF0FFF, commit := 0xFF0FFF, crit := 0xFF0FFF },
  { base := 0x18, n1 := 4, s1 := 16 },
  { base := 0x70, kind := .wideRC },
  { base := 0x60, w1c := 0x3F },
  { base := 0x64 },
  { base := 0x68, reset := 0x113244, rw := 0x777777 },
  { base := 0x6C, reset := 0x3F, rw := 0x3F },
  { base := 0xFFF0, ws := 0xFFFF, tick := 0xFFFF, crit := 0xFFFF },
  { base := 0xFFF4 },
  { base := 0xFFF8, w1c := 0xF, rc := 0xFFFF0000 },
  { base := 0xFFFC }]

/-- The registers of TIME. -/
def regRowsTime_0 : List RegRow := [
  { base := 0x0, w1c := 0x8 },
  { base := 0x4, reset := 0x11AAAAAB, rw := 0xFFFFFFFF },
  { base := 0x8 },
  { base := 0xC },
  { base := 0x10 },
  { base := 0x14, kind := .wideRO },
  { base := 0x20, rw := 0xFFFFFFFF, tick := 0xFFFFFFFF, crit := 0xFFFFFFFF },
  { base := 0x24, rw := 0xFFFFFFFF, tick := 0xFFFFFFFF, crit := 0xFFFFFFFF },
  { base := 0x28, reset := 0x3002, rw := 0xFFFF, tick := 0xFFFF, crit := 0xFFFF },
  { base := 0x2C, w1c := 0x80000000 },
  { base := 0x30, kind := .wideRO },
  { base := 0x38, kind := .wideRO },
  { base := 0x40, kind := .wideRO },
  { base := 0x48 },
  { base := 0x50, kind := .wideRO },
  { base := 0x60, n1 := 3, s1 := 16, rw := 0xFFFFFFFF },
  { base := 0x64, n1 := 3, s1 := 16, rw := 0xFFFFFFFF },
  { base := 0x68, n1 := 3, s1 := 16, w1c := 0x100 },
  { base := 0x100, n1 := 3, s1 := 16, n2 := 4, s2 := 4 },
  { base := 0x200, n1 := 4, s1 := 16, rw := 0xFFFFFFFF },
  { base := 0x204, n1 := 4, s1 := 16, rw := 0xBFFFFFFF },
  { base := 0x208, n1 := 4, s1 := 16 },
  { base := 0x20C, n1 := 4, s1 := 16, w1c := 0xC000 },
  { base := 0x310, kind := .wideRC }]

def regRowsTime_1 : List RegRow := [
  { base := 0x318, kind := .wideRC },
  { base := 0x320, n1 := 3, s1 := 8, kind := .wideRC },
  { base := 0x300, w1c := 0xFF },
  { base := 0x304 },
  { base := 0x308, reset := 0x11211211, rw := 0x77777777 },
  { base := 0x30C, reset := 0xFF, rw := 0xFF },
  { base := 0xFFF0, ws := 0xFFFF, tick := 0xFFFF },
  { base := 0xFFF4 },
  { base := 0xFFF8, w1c := 0xF, rc := 0xFFFF0000 },
  { base := 0xFFFC }]

@[inherit_doc regRowsTime_0]
def regRowsTime : List RegRow := regRowsTime_0 ++ regRowsTime_1

/-- The registers of MAC0. -/
def regRowsMac0_0 : List RegRow := [
  { base := 0x0, rw := 0x3, tick := 0x3, crit := 0x3 },
  { base := 0x4, rw := 0x1F, stop := 0x1F, crit := 0x1F },
  { base := 0x8, reset := 0x5F2, rw := 0x3FFF, stop := 0x3FFF, crit := 0x3FFF },
  { base := 0xC },
  { base := 0x10, rw := 0xFFFFFFFF, commit := 0xFFFFFFFF },
  { base := 0x14, rw := 0xFFFF, commit := 0xFFFF },
  { base := 0x18, reset := 0x1F, rw := 0x7F, tick := 0x7F, crit := 0x5 },
  { base := 0x1C, rw := 0x1, tick := 0x1, crit := 0x1 },
  { base := 0x20 },
  { base := 0x24 },
  { base := 0x30, n1 := 32, s1 := 8, rw := 0xFFFFFFFF, tick := 0xFFFFFFFF, crit := 0xFFFFFFFF },
  { base := 0x34, n1 := 32, s1 := 8, rw := 0x8000FFFF, tick := 0x8000FFFF, crit := 0x8000FFFF },
  { base := 0x200, rw := 0xFFFFFFC0 },
  { base := 0x204, rw := 0xFF },
  { base := 0x208, rw := 0x1FFF },
  { base := 0x20C },
  { base := 0x210, rw := 0xFFF },
  { base := 0x220, n1 := 4, s1 := 32, rw := 0xFFFFFFC0 },
  { base := 0x224, n1 := 4, s1 := 32, rw := 0xFF },
  { base := 0x228, n1 := 4, s1 := 32, rw := 0x1FFF },
  { base := 0x22C, n1 := 4, s1 := 32 },
  { base := 0x230, n1 := 4, s1 := 32, rw := 0xFFF },
  { base := 0x300, rw := 0x3FFFF },
  { base := 0x500, n1 := 17, s1 := 8, kind := .wideRC }]

def regRowsMac0_1 : List RegRow := [
  { base := 0x400, w1c := 0x7FF },
  { base := 0x404 },
  { base := 0x408, reset := 0x10001112, rw := 0x77777777 },
  { base := 0x40C, reset := 0x111, rw := 0x777 },
  { base := 0x410, reset := 0x7FF, rw := 0x7FF },
  { base := 0xFFF0, ws := 0xFFFF, tick := 0xFFFF, crit := 0xFFFF },
  { base := 0xFFF4 },
  { base := 0xFFF8, w1c := 0xF, rc := 0xFFFF0000 },
  { base := 0xFFFC }]

@[inherit_doc regRowsMac0_0]
def regRowsMac0 : List RegRow := regRowsMac0_0 ++ regRowsMac0_1

/-- The registers of MAC1. -/
def regRowsMac1_0 : List RegRow := [
  { base := 0x0, rw := 0x3, tick := 0x3, crit := 0x3 },
  { base := 0x4, rw := 0x1F, stop := 0x1F, crit := 0x1F },
  { base := 0x8, reset := 0x5F2, rw := 0x3FFF, stop := 0x3FFF, crit := 0x3FFF },
  { base := 0xC },
  { base := 0x10, rw := 0xFFFFFFFF, commit := 0xFFFFFFFF },
  { base := 0x14, rw := 0xFFFF, commit := 0xFFFF },
  { base := 0x18, reset := 0x1F, rw := 0x7F, tick := 0x7F, crit := 0x5 },
  { base := 0x1C, rw := 0x1, tick := 0x1, crit := 0x1 },
  { base := 0x20 },
  { base := 0x24 },
  { base := 0x30, n1 := 32, s1 := 8, rw := 0xFFFFFFFF, tick := 0xFFFFFFFF, crit := 0xFFFFFFFF },
  { base := 0x34, n1 := 32, s1 := 8, rw := 0x8000FFFF, tick := 0x8000FFFF, crit := 0x8000FFFF },
  { base := 0x200, rw := 0xFFFFFFC0 },
  { base := 0x204, rw := 0xFF },
  { base := 0x208, rw := 0x1FFF },
  { base := 0x20C },
  { base := 0x210, rw := 0xFFF },
  { base := 0x220, n1 := 4, s1 := 32, rw := 0xFFFFFFC0 },
  { base := 0x224, n1 := 4, s1 := 32, rw := 0xFF },
  { base := 0x228, n1 := 4, s1 := 32, rw := 0x1FFF },
  { base := 0x22C, n1 := 4, s1 := 32 },
  { base := 0x230, n1 := 4, s1 := 32, rw := 0xFFF },
  { base := 0x300, rw := 0x3FFFF },
  { base := 0x500, n1 := 17, s1 := 8, kind := .wideRC }]

def regRowsMac1_1 : List RegRow := [
  { base := 0x400, w1c := 0x7FF },
  { base := 0x404 },
  { base := 0x408, reset := 0x10001112, rw := 0x77777777 },
  { base := 0x40C, reset := 0x111, rw := 0x777 },
  { base := 0x410, reset := 0x7FF, rw := 0x7FF },
  { base := 0xFFF0, ws := 0xFFFF, tick := 0xFFFF, crit := 0xFFFF },
  { base := 0xFFF4 },
  { base := 0xFFF8, w1c := 0xF, rc := 0xFFFF0000 },
  { base := 0xFFFC }]

@[inherit_doc regRowsMac1_0]
def regRowsMac1 : List RegRow := regRowsMac1_0 ++ regRowsMac1_1

/-- The registers of MACM. -/
def regRowsMacm_0 : List RegRow := [
  { base := 0x0, rw := 0x3, tick := 0x3 },
  { base := 0x4, reset := 0x3, rw := 0x18, stop := 0x18 },
  { base := 0x8, reset := 0x5F2, rw := 0x3FFF, stop := 0x3FFF },
  { base := 0xC },
  { base := 0x10, rw := 0xFFFFFFFF, commit := 0xFFFFFFFF },
  { base := 0x14, rw := 0xFFFF, commit := 0xFFFF },
  { base := 0x18, reset := 0x3F, rw := 0x7F, tick := 0x7F },
  { base := 0x1C },
  { base := 0x20 },
  { base := 0x24 },
  { base := 0x30, n1 := 32, s1 := 8, rw := 0xFFFFFFFF, tick := 0xFFFFFFFF },
  { base := 0x34, n1 := 32, s1 := 8, rw := 0x8000FFFF, tick := 0x8000FFFF },
  { base := 0x200, rw := 0xFFFFFFC0 },
  { base := 0x204, rw := 0xFF },
  { base := 0x208, rw := 0x1FFF },
  { base := 0x20C },
  { base := 0x210, rw := 0xFFF },
  { base := 0x220, n1 := 4, s1 := 32, rw := 0xFFFFFFC0 },
  { base := 0x224, n1 := 4, s1 := 32, rw := 0xFF },
  { base := 0x228, n1 := 4, s1 := 32, rw := 0x1FFF },
  { base := 0x22C, n1 := 4, s1 := 32 },
  { base := 0x230, n1 := 4, s1 := 32, rw := 0xFFF },
  { base := 0x300, rw := 0x3FFFF },
  { base := 0x500, n1 := 17, s1 := 8, kind := .wideRC }]

def regRowsMacm_1 : List RegRow := [
  { base := 0x600, rw := 0x3 },
  { base := 0x604, rw := 0x7FFCFFFF, ws := 0x80000000 },
  { base := 0x608 },
  { base := 0x400, w1c := 0x7FF },
  { base := 0x404 },
  { base := 0x408, reset := 0x10001112, rw := 0x77777777 },
  { base := 0x40C, reset := 0x111, rw := 0x777 },
  { base := 0x410, reset := 0x7FF, rw := 0x7FF },
  { base := 0xFFF0, ws := 0xFFFF, tick := 0xFFFF },
  { base := 0xFFF4 },
  { base := 0xFFF8, w1c := 0xF, rc := 0xFFFF0000 },
  { base := 0xFFFC }]

@[inherit_doc regRowsMacm_0]
def regRowsMacm : List RegRow := regRowsMacm_0 ++ regRowsMacm_1

/-- The registers of MACT. -/
def regRowsMact_0 : List RegRow := [
  { base := 0x0, rw := 0x3, tick := 0x3 },
  { base := 0x4, rw := 0x1, stop := 0x1 },
  { base := 0x8, reset := 0x5F2, rw := 0x3FFF, stop := 0x3FFF },
  { base := 0xC },
  { base := 0x10, rw := 0xFFFFFFFF, commit := 0xFFFFFFFF },
  { base := 0x14, rw := 0xFFFF, commit := 0xFFFF },
  { base := 0x18, reset := 0x20, rw := 0x60, tick := 0x60 },
  { base := 0x20 },
  { base := 0x24 },
  { base := 0x30, n1 := 32, s1 := 8, rw := 0xFFFFFFFF, tick := 0xFFFFFFFF },
  { base := 0x34, n1 := 32, s1 := 8, rw := 0x8000FFFF, tick := 0x8000FFFF },
  { base := 0x200, rw := 0xFFFFFFC0 },
  { base := 0x204, rw := 0xFF },
  { base := 0x208, rw := 0x1FFF },
  { base := 0x20C },
  { base := 0x210, rw := 0xFFF },
  { base := 0x220, rw := 0xFFFFFFC0 },
  { base := 0x224, rw := 0xFF },
  { base := 0x228, rw := 0x1FFF },
  { base := 0x22C },
  { base := 0x230, rw := 0xFFF },
  { base := 0x500, n1 := 13, s1 := 8, kind := .wideRC },
  { base := 0x578, n1 := 8, s1 := 8, kind := .wideRC },
  { base := 0x700, reset := 0x2001FF, rw := 0xFFFFFFFF, stop := 0xFFFFFFFF }]

def regRowsMact_1 : List RegRow := [
  { base := 0x704, reset := 0x80, rw := 0xFF, stop := 0xFF },
  { base := 0x708 },
  { base := 0x400, w1c := 0x7FF },
  { base := 0x404 },
  { base := 0x408, reset := 0x10011212, rw := 0x77777777 },
  { base := 0x40C, reset := 0x111, rw := 0x777 },
  { base := 0x410, reset := 0x7FF, rw := 0x7FF },
  { base := 0xFFF0, ws := 0xFFFF, tick := 0xFFFF },
  { base := 0xFFF4 },
  { base := 0xFFF8, w1c := 0xF, rc := 0xFFFF0000 },
  { base := 0xFFFC }]

@[inherit_doc regRowsMact_0]
def regRowsMact : List RegRow := regRowsMact_0 ++ regRowsMact_1

/-- The registers of STRM. -/
def regRowsStrm_0 : List RegRow := [
  { base := 0x0 },
  { base := 0x100, n1 := 10, s1 := 8, kind := .wideRC },
  { base := 0x1000, n1 := 512, s1 := 16, rw := 0xFCFFF0FF, tick := 0x80000000, stop := 0x7CFFF0FF, crit := 0xFCFFF0FF },
  { base := 0x1004, n1 := 512, s1 := 16, rw := 0xFFFFFFFF, stop := 0xFFFFFFFF, crit := 0xFFFFFFFF },
  { base := 0x1008, n1 := 512, s1 := 16, rw := 0xFFFFFFFF, stop := 0xFFFFFFFF, crit := 0xFFFFFFFF },
  { base := 0x100C, n1 := 512, s1 := 16, rw := 0xFFFF, stop := 0xFFFF, crit := 0xFFFF },
  { base := 0x3000, n1 := 256, s1 := 64, reset := 0x100001, rw := 0xFFFF007F, tick := 0x80000000, stop := 0x7FFF007F, crit := 0xFFFF007F },
  { base := 0x3004, n1 := 256, s1 := 64, reset := 0x42018, rw := 0xFF71FF, tick := 0xFF01FF, stop := 0x7000, crit := 0xFF71FF },
  { base := 0x3008, n1 := 256, s1 := 64, rw := 0xFFFFFFFF, stop := 0xFFFFFFFF, crit := 0xFFFFFFFF },
  { base := 0x300C, n1 := 256, s1 := 64, rw := 0xFFFFFFFF, stop := 0xFFFFFFFF, crit := 0xFFFFFFFF },
  { base := 0x3010, n1 := 256, s1 := 64, rw := 0xFFF, stop := 0xFFF, crit := 0xFFF },
  { base := 0x3014, n1 := 256, s1 := 64, rw := 0xFFFFFFFF, stop := 0xFFFFFFFF, crit := 0xFFFFFFFF },
  { base := 0x3018, n1 := 256, s1 := 64, rw := 0xFFFFFFFF, stop := 0xFFFFFFFF, crit := 0xFFFFFFFF },
  { base := 0x301C, n1 := 256, s1 := 64, reset := 0x14, rw := 0xFFFF, tick := 0xFFFF, crit := 0xFFFF },
  { base := 0x3020, n1 := 256, s1 := 64, w1c := 0xC0 },
  { base := 0x3024, n1 := 256, s1 := 64 },
  { base := 0x3028, n1 := 256, s1 := 64 },
  { base := 0x302C, n1 := 256, s1 := 64 },
  { base := 0x7000, n1 := 256, s1 := 56, n2 := 7, s2 := 8, kind := .wideRC },
  { base := 0xA800, n1 := 256, s1 := 64, reset := 0x10080001, rw := 0xFFFFF07F, tick := 0x80000000, stop := 0x7FFFF07F, crit := 0xFFFFF07F },
  { base := 0xA804, n1 := 256, s1 := 64, rw := 0xFFF7FF, stop := 0xFFF7FF, crit := 0xFFF7FF },
  { base := 0xA808, n1 := 256, s1 := 64, rw := 0xFFFFFFFF, stop := 0xFFFFFFFF, crit := 0xFFFFFFFF },
  { base := 0xA80C, n1 := 256, s1 := 64, rw := 0xFFFFFFFF, stop := 0xFFFFFFFF, crit := 0xFFFFFFFF },
  { base := 0xA810, n1 := 256, s1 := 64, rw := 0xFFFFFFFF, stop := 0xFFFFFFFF, crit := 0xFFFFFFFF }]

def regRowsStrm_1 : List RegRow := [
  { base := 0xA814, n1 := 256, s1 := 64, rw := 0xFFFFFFFF, stop := 0xFFFFFFFF, crit := 0xFFFFFFFF },
  { base := 0xA818, n1 := 256, s1 := 64, reset := 0x22400000, rw := 0x3FFFFFFF, stop := 0x3FFFFFFF, crit := 0x3FFFFFFF },
  { base := 0xA81C, n1 := 256, s1 := 64, rw := 0xFFFFFFFF, stop := 0xFFFFFFFF, crit := 0xFFFFFFFF },
  { base := 0xA820, n1 := 256, s1 := 64, rw := 0xFFFFFFFF, stop := 0xFFFFFFFF, crit := 0xFFFFFFFF },
  { base := 0xA824, n1 := 256, s1 := 64, rw := 0xFFFF, stop := 0xFFFF, crit := 0xFFFF },
  { base := 0xA828, n1 := 256, s1 := 64 },
  { base := 0xA82C, n1 := 256, s1 := 64, rw := 0xFFFFFFFF, stop := 0xFFFFFFFF, crit := 0xFFFFFFFF },
  { base := 0xA830, n1 := 256, s1 := 64, rw := 0xFFFFFFFF, stop := 0xFFFFFFFF, crit := 0xFFFFFFFF },
  { base := 0xE800, n1 := 256, s1 := 16, n2 := 2, s2 := 8, kind := .wideRC },
  { base := 0x20, w1c := 0x3FFF },
  { base := 0x24 },
  { base := 0x28, reset := 0x22012211, rw := 0x77777777 },
  { base := 0x2C, reset := 0x111222, rw := 0x777777 },
  { base := 0x30, reset := 0x3FFF, rw := 0x3FFF },
  { base := 0xFFF0, ws := 0xFFFF, tick := 0xFFFF, crit := 0xFFFF },
  { base := 0xFFF4 },
  { base := 0xFFF8, w1c := 0xF, rc := 0xFFFF0000 },
  { base := 0xFFFC }]

@[inherit_doc regRowsStrm_0]
def regRowsStrm : List RegRow := regRowsStrm_0 ++ regRowsStrm_1

/-- The registers of TDM. -/
def regRowsTdm : List RegRow := [
  { base := 0x0, n1 := 8, s1 := 256, reset := 0x200000, rw := 0xFE700001, tick := 0x80000000, stop := 0x7E700001, crit := 0xFE700001 },
  { base := 0x4, n1 := 8, s1 := 256, reset := 0x4070000, rw := 0xFE1F0000, stop := 0xFE1F0000, crit := 0xFE1F0000 },
  { base := 0x8, n1 := 8, s1 := 256, rw := 0xFFFFFFFF, frame := 0xFFFFFFFF, crit := 0xFFFFFFFF },
  { base := 0xC, n1 := 8, s1 := 256, rw := 0xFFFFFFFF, frame := 0xFFFFFFFF, crit := 0xFFFFFFFF },
  { base := 0x10, n1 := 8, s1 := 256, n2 := 4, s2 := 4, reset := 0x11111111, rw := 0x77777777, tick := 0x77777777, crit := 0x77777777 },
  { base := 0x20, n1 := 8, s1 := 256 },
  { base := 0x24, n1 := 8, s1 := 256 },
  { base := 0x28, n1 := 8, s1 := 256 },
  { base := 0x40, n1 := 8, s1 := 256, n2 := 8, s2 := 8, kind := .wideRC },
  { base := 0x800, n1 := 2, s1 := 4, rw := 0x80000003, tick := 0x80000003, crit := 0x80000003 },
  { base := 0x810, w1c := 0xFF },
  { base := 0x814 },
  { base := 0x818, reset := 0x11121201, rw := 0x77777777 },
  { base := 0x81C, reset := 0xFF, rw := 0xFF },
  { base := 0xFFF0, ws := 0xFFFF, tick := 0xFFFF, crit := 0xFFFF },
  { base := 0xFFF4 },
  { base := 0xFFF8, w1c := 0xF, rc := 0xFFFF0000 },
  { base := 0xFFFC }]

/-- The registers of PDM. -/
def regRowsPdm : List RegRow := [
  { base := 0x0, n1 := 4, s1 := 4, rw := 0x80000001, stop := 0x80000001, crit := 0x80000001 },
  { base := 0x10, rw := 0xFFFF, stop := 0xFFFF, crit := 0xFFFF },
  { base := 0x14, w1c := 0xFFFFFFFF },
  { base := 0x20, w1c := 0x7 },
  { base := 0x24 },
  { base := 0x28, reset := 0x112, rw := 0x777 },
  { base := 0x2C, reset := 0x7, rw := 0x7 },
  { base := 0xFFF0, ws := 0xFFFF, tick := 0xFFFF, crit := 0xFFFF },
  { base := 0xFFF4 },
  { base := 0xFFF8, w1c := 0xF, rc := 0xFFFF0000 },
  { base := 0xFFFC }]

/-- The registers of DEC. -/
def regRowsDec : List RegRow := [
  { base := 0x0, n1 := 32, s1 := 4, reset := 0x1, rw := 0xFFC00007, tick := 0x80000007, stop := 0x7FC00000, crit := 0xFFC00007 },
  { base := 0x100, n1 := 32, s1 := 4 },
  { base := 0x200, n1 := 4, s1 := 4, rw := 0xE00001FF, stop := 0xE00001FF, crit := 0xE00001FF },
  { base := 0x210, n1 := 2, s1 := 4, rw := 0x80000000, stop := 0x80000000, crit := 0x80000000 },
  { base := 0x220 },
  { base := 0x224 },
  { base := 0x300, kind := .wideRC },
  { base := 0x308, kind := .wideRC },
  { base := 0x1000, n1 := 4, s1 := 1024, n2 := 256, s2 := 4, rw := 0xFFFFFF, stop := 0xFFFFFF, crit := 0xFFFFFF },
  { base := 0x2000, n1 := 2, s1 := 64, n2 := 8, s2 := 4, rw := 0xFFFFFF, stop := 0xFFFFFF, crit := 0xFFFFFF },
  { base := 0x400, w1c := 0x1F },
  { base := 0x404 },
  { base := 0x408, reset := 0x11102, rw := 0x77777 },
  { base := 0x40C, reset := 0x1F, rw := 0x1F },
  { base := 0xFFF0, ws := 0xFFFF, tick := 0xFFFF, crit := 0xFFFF },
  { base := 0xFFF4 },
  { base := 0xFFF8, w1c := 0xF, rc := 0xFFFF0000 },
  { base := 0xFFFC }]

/-- The registers of MOD. -/
def regRowsMod : List RegRow := [
  { base := 0x0, n1 := 6, s1 := 4, rw := 0x80000000, tick := 0x80000000, crit := 0x80000000 },
  { base := 0x20 },
  { base := 0x24, reset := 0x400020, rw := 0xFFF0FFF, tick := 0xFFF0FFF, crit := 0xFFF0FFF },
  { base := 0x28, reset := 0x177003C0, rw := 0xFFFFFFFF, tick := 0xFFFFFFFF, crit := 0xFFFFFFFF },
  { base := 0x30, rw := 0xFFFFFFFF, tick := 0xFFFFFFFF, crit := 0xFFFFFFFF },
  { base := 0x34, rw := 0xFFFF, tick := 0xFFFF, crit := 0xFFFF },
  { base := 0x38, ws := 0xFFFFFFFF, tick := 0xFFFFFFFF, crit := 0xFFFFFFFF },
  { base := 0x3C, ws := 0xFFFF, tick := 0xFFFF, crit := 0xFFFF },
  { base := 0x100, n1 := 48, s1 := 4, reset := 0xC0000000, rw := 0xFFFF1FFF, tick := 0xFFFF0000, stop := 0x1FFF, crit := 0xFFFF1FFF },
  { base := 0x200, n1 := 48, s1 := 4 },
  { base := 0x400, n1 := 6, s1 := 64, reset := 0x20000000, rw := 0xFFFFFFFF, commit := 0xFFFFFFFF, crit := 0xFFFFFFFF },
  { base := 0x404, n1 := 6, s1 := 64, n2 := 10, s2 := 4, rw := 0xFFFFFFFF, commit := 0xFFFFFFFF, crit := 0xFFFFFFFF },
  { base := 0x900, n1 := 5, s1 := 8, kind := .wideRC },
  { base := 0x800, w1c := 0x3FFF },
  { base := 0x804 },
  { base := 0x808, reset := 0x11332130, rw := 0x77777777 },
  { base := 0x80C, reset := 0x111223, rw := 0x777777 },
  { base := 0x810, reset := 0x3FFF, rw := 0x3FFF },
  { base := 0xFFF0, ws := 0xFFFF, tick := 0xFFFF, crit := 0xFFFF },
  { base := 0xFFF4 },
  { base := 0xFFF8, w1c := 0xF, rc := 0xFFFF0000 },
  { base := 0xFFFC }]

/-- The registers of SNS. -/
def regRowsSns : List RegRow := [
  { base := 0x0, rw := 0x1, stop := 0x1, crit := 0x1 },
  { base := 0x10, n1 := 6, s1 := 4, reset := 0x1, rw := 0x80000007, tick := 0x80000000, stop := 0x7, crit := 0x80000007 },
  { base := 0x30, n1 := 6, s1 := 4 },
  { base := 0x50, n1 := 6, s1 := 4 },
  { base := 0x70, rw := 0xFFFFFF, tick := 0xFFFFFF, crit := 0xFFFFFF },
  { base := 0x100, n1 := 6, s1 := 24, n2 := 3, s2 := 8, kind := .wideRC },
  { base := 0x80, w1c := 0xFF },
  { base := 0x84 },
  { base := 0x88, reset := 0x11211210, rw := 0x77777777 },
  { base := 0x8C, reset := 0xFF, rw := 0xFF },
  { base := 0xFFF0, ws := 0xFFFF, tick := 0xFFFF, crit := 0xFFFF },
  { base := 0xFFF4 },
  { base := 0xFFF8, w1c := 0xF, rc := 0xFFFF0000 },
  { base := 0xFFFC }]

/-- The registers of PAIR. -/
def regRowsPair : List RegRow := [
  { base := 0x0, reset := 0x110, rw := 0x1FF, tick := 0x1FF, crit := 0x1FF },
  { base := 0x4 },
  { base := 0x8 },
  { base := 0xC },
  { base := 0x10, kind := .wideRO },
  { base := 0x18, kind := .wideRO },
  { base := 0x20 },
  { base := 0x24 },
  { base := 0x28, n1 := 4, s1 := 8, kind := .wideRO },
  { base := 0x48 },
  { base := 0x50, rw := 0x1, ws := 0x6, tick := 0x7, crit := 0x7 },
  { base := 0x80, n1 := 6, s1 := 8, kind := .wideRC },
  { base := 0x60, w1c := 0x3FFF },
  { base := 0x64 },
  { base := 0x68, reset := 0x12231222, rw := 0x77777777 },
  { base := 0x6C, reset := 0x122211, rw := 0x777777 },
  { base := 0x70, reset := 0x3FFF, rw := 0x3FFF },
  { base := 0xFFF0, ws := 0xFFFF, tick := 0xFFFF },
  { base := 0xFFF4 },
  { base := 0xFFF8, w1c := 0xF, rc := 0xFFFF0000 },
  { base := 0xFFFC }]

/-- The registers of MIR. -/
def regRowsMir : List RegRow := [
  { base := 0x0, reset := 0x3, rw := 0x3, stop := 0x3, crit := 0x3 },
  { base := 0x4 },
  { base := 0x8 },
  { base := 0xC, rw := 0xFFFF, tick := 0xFFFF, crit := 0xFFFF },
  { base := 0x10, reset := 0xA, rw := 0xF },
  { base := 0x14, rc := 0xFFFF0000 },
  { base := 0x40, n1 := 6, s1 := 8, kind := .wideRC },
  { base := 0x20, w1c := 0x1FF },
  { base := 0x24 },
  { base := 0x28, reset := 0x12201212, rw := 0x77777777 },
  { base := 0x2C, reset := 0x1, rw := 0x7 },
  { base := 0x30, reset := 0x1FF, rw := 0x1FF },
  { base := 0xFFF0, ws := 0xFFFF, tick := 0xFFFF },
  { base := 0xFFF4 },
  { base := 0xFFF8, w1c := 0xF, rc := 0xFFFF0000 },
  { base := 0xFFFC }]

/-- The registers of CVU. -/
def regRowsCvu_0 : List RegRow := [
  { base := 0x0, reset := 0x80030020 },
  { base := 0x40, reset := 0x81000008 },
  { base := 0x80, reset := 0x82030020 },
  { base := 0xC0, reset := 0x83030020 },
  { base := 0x100, reset := 0x84030040 },
  { base := 0x140, reset := 0x85030040 },
  { base := 0x180, reset := 0x86030020 },
  { base := 0x1C0, n1 := 9, s1 := 64, reset := 0x20, rw := 0xCF03007F, tick := 0x80000000, stop := 0x4F03007F },
  { base := 0x4, reset := 0x4C11DB7 },
  { base := 0x44, reset := 0x7 },
  { base := 0x84, n1 := 2, s1 := 64, reset := 0x1EDC6F41 },
  { base := 0x104, reset := 0xA9EA3693 },
  { base := 0x144, reset := 0x1B },
  { base := 0x184, reset := 0x1EDC6F41 },
  { base := 0x1C4, n1 := 9, s1 := 64, rw := 0xFFFFFFFF, stop := 0xFFFFFFFF },
  { base := 0x8, n1 := 4, s1 := 64 },
  { base := 0x108, reset := 0x42F0E1EB },
  { base := 0x148, n1 := 2, s1 := 64 },
  { base := 0x1C8, n1 := 9, s1 := 64, rw := 0xFFFFFFFF, stop := 0xFFFFFFFF },
  { base := 0xC, reset := 0xFFFFFFFF },
  { base := 0x4C, reset := 0xFF },
  { base := 0x8C, n1 := 5, s1 := 64, reset := 0xFFFFFFFF },
  { base := 0x1CC, n1 := 9, s1 := 64, rw := 0xFFFFFFFF, stop := 0xFFFFFFFF },
  { base := 0x10, n1 := 4, s1 := 64 }]

def regRowsCvu_1 : List RegRow := [
  { base := 0x110, n1 := 2, s1 := 64, reset := 0xFFFFFFFF },
  { base := 0x190 },
  { base := 0x1D0, n1 := 9, s1 := 64, rw := 0xFFFFFFFF, stop := 0xFFFFFFFF },
  { base := 0x14, reset := 0xFFFFFFFF },
  { base := 0x54 },
  { base := 0x94, n1 := 5, s1 := 64, reset := 0xFFFFFFFF },
  { base := 0x1D4, n1 := 9, s1 := 64, rw := 0xFFFFFFFF, stop := 0xFFFFFFFF },
  { base := 0x18, n1 := 4, s1 := 64 },
  { base := 0x118, n1 := 2, s1 := 64, reset := 0xFFFFFFFF },
  { base := 0x198 },
  { base := 0x1D8, n1 := 9, s1 := 64, rw := 0xFFFFFFFF, stop := 0xFFFFFFFF },
  { base := 0x1C, n1 := 16, s1 := 64, kind := .wideRO },
  { base := 0x24, n1 := 16, s1 := 64, rw := 0xFFFFFFFF },
  { base := 0x28, n1 := 16, s1 := 64, rw := 0xFFFFFFFF },
  { base := 0x2C, n1 := 16, s1 := 64, w1c := 0x20000 },
  { base := 0x30, n1 := 16, s1 := 64, kind := .wideRC },
  { base := 0x38, n1 := 16, s1 := 64, kind := .wideRC },
  { base := 0x400, w1c := 0x3 },
  { base := 0x404 },
  { base := 0x408, reset := 0x11, rw := 0x77 },
  { base := 0x40C, reset := 0x3, rw := 0x3 },
  { base := 0xFFF0, ws := 0xFFFF, tick := 0xFFFF, crit := 0xFFFF },
  { base := 0xFFF4 },
  { base := 0xFFF8, w1c := 0xF, rc := 0xFFFF0000 }]

def regRowsCvu_2 : List RegRow := [
  { base := 0xFFFC }]

@[inherit_doc regRowsCvu_0]
def regRowsCvu : List RegRow := regRowsCvu_0 ++ regRowsCvu_1 ++ regRowsCvu_2

/-- The registers of BBX. -/
def regRowsBbx : List RegRow := [
  { base := 0x0, reset := 0x2, rw := 0x2, ws := 0x80000000 },
  { base := 0x4 },
  { base := 0x8 },
  { base := 0xC },
  { base := 0x10, reset := 0x80000, rw := 0x3FFFFF },
  { base := 0x14 },
  { base := 0x18, reset := 0x3E8, rw := 0x8000FFFF },
  { base := 0x1C, ws := 0x1 },
  { base := 0x20, ws := 0x100, tick := 0x100, crit := 0x100 },
  { base := 0x40, n1 := 2, s1 := 8, kind := .wideRC },
  { base := 0x30, w1c := 0x3 },
  { base := 0x34 },
  { base := 0x38, reset := 0x12, rw := 0x77 },
  { base := 0x3C, reset := 0x3, rw := 0x3 },
  { base := 0xFFF0, ws := 0xFFFF, tick := 0xFFFF },
  { base := 0xFFF4 },
  { base := 0xFFF8, w1c := 0xF, rc := 0xFFFF0000 },
  { base := 0xFFFC }]

/-- The registers of EVT. -/
def regRowsEvt_0 : List RegRow := [
  { base := 0x0, reset := 0x1, rw := 0x1 },
  { base := 0x4, rc := 0x3FF0000 },
  { base := 0x8 },
  { base := 0xC, reset := 0x640020, rw := 0xFFFF00FF },
  { base := 0x10, reset := 0x60, rw := 0xFFFF },
  { base := 0x18, rw := 0xFFFFFFC0 },
  { base := 0x1C, rw := 0xFF },
  { base := 0x20, rw := 0x1FFFF },
  { base := 0x24 },
  { base := 0x28, rw := 0xFFFF },
  { base := 0x2C, reset := 0x1, rw := 0xFFFF },
  { base := 0x30 },
  { base := 0x34, ws := 0xFFFFFFFF },
  { base := 0x80, reset := 0x100, rw := 0x31F },
  { base := 0x84, reset := 0x101, rw := 0x31F },
  { base := 0x88, reset := 0x102, rw := 0x31F },
  { base := 0x8C, reset := 0x103, rw := 0x31F },
  { base := 0x90, reset := 0x104, rw := 0x31F },
  { base := 0x94, reset := 0x105, rw := 0x31F },
  { base := 0x98, reset := 0x106, rw := 0x31F },
  { base := 0x9C, reset := 0x107, rw := 0x31F },
  { base := 0xA0, reset := 0x108, rw := 0x31F },
  { base := 0xA4, reset := 0x109, rw := 0x31F },
  { base := 0xA8, reset := 0x10A, rw := 0x31F }]

def regRowsEvt_1 : List RegRow := [
  { base := 0xAC, reset := 0x10B, rw := 0x31F },
  { base := 0xB0, reset := 0x10C, rw := 0x31F },
  { base := 0xB4, reset := 0x10D, rw := 0x31F },
  { base := 0xB8, reset := 0x10E, rw := 0x31F },
  { base := 0xBC, reset := 0x10F, rw := 0x31F },
  { base := 0xC0, reset := 0x110, rw := 0x31F },
  { base := 0xC4, reset := 0x111, rw := 0x31F },
  { base := 0xC8, reset := 0x112, rw := 0x31F },
  { base := 0xCC, reset := 0x113, rw := 0x31F },
  { base := 0xD0, reset := 0x114, rw := 0x31F },
  { base := 0xD4, reset := 0x115, rw := 0x31F },
  { base := 0xD8, reset := 0x116, rw := 0x31F },
  { base := 0xDC, reset := 0x117, rw := 0x31F },
  { base := 0xE0, reset := 0x118, rw := 0x31F },
  { base := 0xE4, reset := 0x119, rw := 0x31F },
  { base := 0xE8, reset := 0x11A, rw := 0x31F },
  { base := 0xEC, reset := 0x11B, rw := 0x31F },
  { base := 0xF0, reset := 0x11C, rw := 0x31F },
  { base := 0xF4, reset := 0x11D, rw := 0x31F },
  { base := 0xF8, reset := 0x11E, rw := 0x31F },
  { base := 0xFC, reset := 0x21F, rw := 0x31F },
  { base := 0x200, n1 := 6, s1 := 8, kind := .wideRC },
  { base := 0x100, w1c := 0x7 },
  { base := 0x104 }]

def regRowsEvt_2 : List RegRow := [
  { base := 0x108, reset := 0x121, rw := 0xFFF },
  { base := 0x10C, reset := 0x7, rw := 0x7 }]

@[inherit_doc regRowsEvt_0]
def regRowsEvt : List RegRow := regRowsEvt_0 ++ regRowsEvt_1 ++ regRowsEvt_2

/-- The registers of BMX. -/
def regRowsBmx_0 : List RegRow := [
  { base := 0x0, rw := 0xFFF },
  { base := 0x10, reset := 0x4896ADDF, rw := 0xFFFFFFF0, tick := 0xFFFFFFF0, crit := 0xFFFFFFF0 },
  { base := 0x18, reset := 0x4000A00F, rw := 0xF000F000, tick := 0xF000F000, crit := 0xF000F000 },
  { base := 0x20, reset := 0x4008A000, rw := 0xF00FF000, tick := 0xF00FF000, crit := 0xF00FF000 },
  { base := 0x28, reset := 0x40000000, rw := 0xF0000000, tick := 0xF0000000, crit := 0xF0000000 },
  { base := 0x30, reset := 0x4A000000, rw := 0xFF000000, tick := 0xFF000000, crit := 0xFF000000 },
  { base := 0x38, reset := 0xACC0, rw := 0xFFF0, tick := 0xFFF0, crit := 0xFFF0 },
  { base := 0x14, reset := 0x75, rw := 0xFF, tick := 0xFF, crit := 0xFF },
  { base := 0x1C },
  { base := 0x24 },
  { base := 0x2C, reset := 0x80, rw := 0xF0, tick := 0xF0, crit := 0xF0 },
  { base := 0x34 },
  { base := 0x3C, reset := 0x76, rw := 0xFF, tick := 0xFF, crit := 0xFF },
  { base := 0x40, rw := 0xF, tick := 0xF, crit := 0xF },
  { base := 0x44, rw := 0xF, tick := 0xF, crit := 0xF },
  { base := 0x48, reset := 0x4, rw := 0xF, tick := 0xF, crit := 0xF },
  { base := 0x4C, reset := 0x9, rw := 0xF, tick := 0xF, crit := 0xF },
  { base := 0x50, reset := 0x6, rw := 0xF, tick := 0xF, crit := 0xF },
  { base := 0x54, reset := 0x1, rw := 0xF, tick := 0xF, crit := 0xF },
  { base := 0x60 },
  { base := 0x64, kind := .wideRO },
  { base := 0x100, n1 := 2, s1 := 8, kind := .wideRC },
  { base := 0x80, w1c := 0x3 },
  { base := 0x84 }]

def regRowsBmx_1 : List RegRow := [
  { base := 0x88, reset := 0x11, rw := 0xFF },
  { base := 0x8C, reset := 0x3, rw := 0x3 },
  { base := 0xFFF0, ws := 0xFFFF, tick := 0xFFFF },
  { base := 0xFFF4 },
  { base := 0xFFF8, w1c := 0xF, rc := 0xFFFF0000 },
  { base := 0xFFFC }]

@[inherit_doc regRowsBmx_0]
def regRowsBmx : List RegRow := regRowsBmx_0 ++ regRowsBmx_1

/-- The registers of DDR. -/
def regRowsDdr : List RegRow := [
  { base := 0x0, rw := 0x11, stop := 0x11, crit := 0x11 },
  { base := 0x4 },
  { base := 0x8 },
  { base := 0xC, rw := 0xF1, tick := 0xF1, crit := 0xF1 },
  { base := 0x10 },
  { base := 0x14, kind := .wideRO },
  { base := 0x100, n1 := 4, s1 := 8, kind := .wideRC },
  { base := 0x40, w1c := 0xFF },
  { base := 0x44 },
  { base := 0x48, reset := 0x11142040, rw := 0x77777777 },
  { base := 0x4C, reset := 0xFF, rw := 0xFF },
  { base := 0xFFF0, ws := 0xFFFF, tick := 0xFFFF, crit := 0xFFFF },
  { base := 0xFFF4 },
  { base := 0xFFF8, w1c := 0xF, rc := 0xFFFF0000 },
  { base := 0xFFFC }]

/-- The registers of GLN. -/
def regRowsGln : List RegRow := [
  { base := 0x0, rw := 0x80000000, tick := 0x80000000 },
  { base := 0x4, reset := 0x100, rw := 0x3FF, stop := 0x3FF },
  { base := 0x8 },
  { base := 0x10, kind := .wideRO },
  { base := 0x18, kind := .wideRO },
  { base := 0x20, kind := .wideRO },
  { base := 0x28, kind := .wideRO },
  { base := 0x30, rw := 0x1FFFFF },
  { base := 0x34, rw := 0xFFFF, ws := 0x80000000 },
  { base := 0x38 },
  { base := 0x3C, reset := 0xFFFFFFFF },
  { base := 0x100, n1 := 2, s1 := 8, kind := .wideRC },
  { base := 0x1000, n1 := 512, s1 := 4, rw := 0x20FF0FFF, stop := 0x20FF0FFF },
  { base := 0x80, w1c := 0x7 },
  { base := 0x84 },
  { base := 0x88, reset := 0x122, rw := 0x777 },
  { base := 0x8C, reset := 0x7, rw := 0x7 },
  { base := 0xFFF0, ws := 0xFFFF, tick := 0xFFFF, crit := 0xFFFF },
  { base := 0xFFF4 },
  { base := 0xFFF8, w1c := 0xF, rc := 0xFFFF0000 },
  { base := 0xFFFC }]

/-- The registers of THM. -/
def regRowsThm : List RegRow := [
  { base := 0x0, reset := 0x91, rw := 0xFF },
  { base := 0x4 },
  { base := 0x8 },
  { base := 0xC, rc := 0xFFFF },
  { base := 0x10, n1 := 6, s1 := 4 },
  { base := 0x30, w1c := 0xF },
  { base := 0x34 },
  { base := 0x38, reset := 0x2342, rw := 0x7777 },
  { base := 0x3C, reset := 0xF, rw := 0xF }]

/-- The registers of PCIE. -/
def regRowsPcie : List RegRow := [
  { base := 0x0 },
  { base := 0x4 },
  { base := 0x8 },
  { base := 0x40, n1 := 5, s1 := 8, kind := .wideRC },
  { base := 0x10, w1c := 0x3F },
  { base := 0x14 },
  { base := 0x18, reset := 0x112012, rw := 0x777777 },
  { base := 0x1C, reset := 0x3F, rw := 0x3F }]

/-- The registers of GPIO. -/
def regRowsGpio : List RegRow := [
  { base := 0x0, rw := 0xFF },
  { base := 0x4, rw := 0xFF },
  { base := 0x8, rw := 0xFF },
  { base := 0xC },
  { base := 0x10, rw := 0xFFFF },
  { base := 0x14, rw := 0xFF },
  { base := 0x18, reset := 0x3E8, rw := 0xFFFF },
  { base := 0x1C, w1c := 0xFF },
  { base := 0x40, n1 := 8, s1 := 4 },
  { base := 0x80, w1c := 0x1 },
  { base := 0x84 },
  { base := 0x88, reset := 0x2, rw := 0x7 },
  { base := 0x8C, reset := 0x1, rw := 0x1 }]

/-- The register table of the block with identifier `b` (R11). -/
def regRows (b : Nat) : List RegRow :=
  match b with
  | 0 => regRowsSys
  | 1 => regRowsPwr
  | 2 => regRowsTick
  | 3 => regRowsEng
  | 4 => regRowsLoad
  | 5 => regRowsCmd
  | 6 => regRowsKey
  | 7 => regRowsClk
  | 8 => regRowsSyn
  | 9 => regRowsTime
  | 10 => regRowsMac0
  | 11 => regRowsMac1
  | 12 => regRowsMacm
  | 13 => regRowsMact
  | 14 => regRowsStrm
  | 15 => regRowsTdm
  | 16 => regRowsPdm
  | 17 => regRowsDec
  | 18 => regRowsMod
  | 19 => regRowsSns
  | 20 => regRowsPair
  | 21 => regRowsMir
  | 22 => regRowsCvu
  | 23 => regRowsBbx
  | 24 => regRowsEvt
  | 25 => regRowsBmx
  | 26 => regRowsDdr
  | 27 => regRowsGln
  | 28 => regRowsThm
  | 29 => regRowsPcie
  | 30 => regRowsGpio
  | _ => []

/-- One fault source of a block: its default and its least severity (R358 to R360 and the source tables). -/
structure FaultSrc where
  dflt : Nat
  min : Nat
deriving DecidableEq, Repr

/-- The source table of the block with identifier `b`. -/
def faultSrcs (b : Nat) : List FaultSrc :=
  match b with
  | 0 => [⟨4, 2⟩]
  | 1 => [⟨2, 1⟩, ⟨0, 0⟩, ⟨1, 0⟩, ⟨1, 0⟩]
  | 3 => [⟨4, 4⟩, ⟨4, 4⟩, ⟨4, 4⟩, ⟨4, 4⟩, ⟨2, 1⟩, ⟨2, 1⟩, ⟨0, 0⟩, ⟨1, 0⟩, ⟨2, 1⟩, ⟨1, 0⟩, ⟨1, 0⟩, ⟨1, 0⟩]
  | 4 => [⟨2, 1⟩, ⟨2, 1⟩, ⟨1, 0⟩, ⟨2, 2⟩, ⟨2, 1⟩, ⟨1, 0⟩]
  | 5 => [⟨0, 0⟩, ⟨1, 0⟩, ⟨1, 0⟩, ⟨1, 0⟩, ⟨2, 1⟩, ⟨1, 1⟩]
  | 6 => [⟨1, 0⟩, ⟨2, 1⟩, ⟨1, 1⟩, ⟨2, 2⟩, ⟨3, 3⟩, ⟨2, 2⟩]
  | 7 => [⟨1, 0⟩, ⟨2, 1⟩, ⟨2, 0⟩, ⟨2, 1⟩, ⟨2, 2⟩, ⟨2, 1⟩, ⟨1, 0⟩, ⟨1, 0⟩, ⟨2, 1⟩, ⟨1, 0⟩, ⟨1, 0⟩]
  | 8 => [⟨4, 4⟩, ⟨4, 4⟩, ⟨2, 2⟩, ⟨3, 3⟩, ⟨1, 0⟩, ⟨1, 0⟩]
  | 9 => [⟨1, 0⟩, ⟨1, 0⟩, ⟨2, 1⟩, ⟨1, 0⟩, ⟨1, 0⟩, ⟨2, 2⟩, ⟨1, 0⟩, ⟨1, 0⟩]
  | 10 => [⟨2, 1⟩, ⟨1, 0⟩, ⟨1, 0⟩, ⟨1, 0⟩, ⟨0, 0⟩, ⟨0, 0⟩, ⟨0, 0⟩, ⟨1, 0⟩, ⟨1, 0⟩, ⟨1, 0⟩, ⟨1, 0⟩]
  | 11 => [⟨2, 1⟩, ⟨1, 0⟩, ⟨1, 0⟩, ⟨1, 0⟩, ⟨0, 0⟩, ⟨0, 0⟩, ⟨0, 0⟩, ⟨1, 0⟩, ⟨1, 0⟩, ⟨1, 0⟩, ⟨1, 0⟩]
  | 12 => [⟨2, 1⟩, ⟨1, 0⟩, ⟨1, 0⟩, ⟨1, 0⟩, ⟨0, 0⟩, ⟨0, 0⟩, ⟨0, 0⟩, ⟨1, 0⟩, ⟨1, 0⟩, ⟨1, 0⟩, ⟨1, 0⟩]
  | 13 => [⟨2, 1⟩, ⟨1, 0⟩, ⟨2, 1⟩, ⟨1, 0⟩, ⟨1, 0⟩, ⟨0, 0⟩, ⟨0, 0⟩, ⟨1, 0⟩, ⟨1, 0⟩, ⟨1, 0⟩, ⟨1, 0⟩]
  | 14 => [⟨1, 0⟩, ⟨1, 0⟩, ⟨2, 1⟩, ⟨2, 1⟩, ⟨1, 0⟩, ⟨0, 0⟩, ⟨2, 1⟩, ⟨2, 2⟩, ⟨2, 1⟩, ⟨2, 1⟩, ⟨2, 2⟩, ⟨1, 0⟩, ⟨1, 0⟩, ⟨1, 0⟩]
  | 15 => [⟨1, 0⟩, ⟨0, 0⟩, ⟨2, 1⟩, ⟨1, 0⟩, ⟨2, 1⟩, ⟨1, 0⟩, ⟨1, 0⟩, ⟨1, 0⟩]
  | 16 => [⟨2, 1⟩, ⟨1, 0⟩, ⟨1, 0⟩]
  | 17 => [⟨2, 1⟩, ⟨0, 0⟩, ⟨1, 0⟩, ⟨1, 0⟩, ⟨1, 0⟩]
  | 18 => [⟨0, 0⟩, ⟨3, 3⟩, ⟨1, 0⟩, ⟨2, 2⟩, ⟨3, 3⟩, ⟨3, 3⟩, ⟨1, 0⟩, ⟨1, 0⟩, ⟨3, 3⟩, ⟨2, 2⟩, ⟨2, 2⟩, ⟨1, 0⟩, ⟨1, 0⟩, ⟨1, 0⟩]
  | 19 => [⟨0, 0⟩, ⟨1, 0⟩, ⟨2, 1⟩, ⟨1, 0⟩, ⟨1, 0⟩, ⟨2, 1⟩, ⟨1, 0⟩, ⟨1, 0⟩]
  | 20 => [⟨2, 1⟩, ⟨2, 1⟩, ⟨2, 2⟩, ⟨1, 0⟩, ⟨3, 3⟩, ⟨2, 2⟩, ⟨2, 2⟩, ⟨1, 0⟩, ⟨1, 0⟩, ⟨1, 0⟩, ⟨2, 1⟩, ⟨2, 2⟩, ⟨2, 2⟩, ⟨1, 0⟩]
  | 21 => [⟨2, 1⟩, ⟨1, 0⟩, ⟨2, 2⟩, ⟨1, 0⟩, ⟨0, 0⟩, ⟨2, 1⟩, ⟨2, 2⟩, ⟨1, 0⟩, ⟨1, 0⟩]
  | 22 => [⟨1, 0⟩, ⟨1, 0⟩]
  | 23 => [⟨2, 1⟩, ⟨1, 0⟩]
  | 24 => [⟨1, 0⟩, ⟨2, 1⟩, ⟨1, 0⟩]
  | 25 => [⟨1, 0⟩, ⟨1, 0⟩]
  | 26 => [⟨0, 0⟩, ⟨4, 3⟩, ⟨0, 0⟩, ⟨2, 2⟩, ⟨4, 3⟩, ⟨1, 0⟩, ⟨1, 0⟩, ⟨1, 0⟩]
  | 27 => [⟨2, 2⟩, ⟨2, 1⟩, ⟨1, 0⟩]
  | 28 => [⟨2, 1⟩, ⟨4, 4⟩, ⟨3, 3⟩, ⟨2, 2⟩]
  | 29 => [⟨2, 1⟩, ⟨1, 0⟩, ⟨0, 0⟩, ⟨2, 1⟩, ⟨1, 0⟩, ⟨1, 0⟩]
  | 30 => [⟨2, 0⟩]
  | _ => []

/-- Offset of FLTSTAT in the block `b`; FLTFIRST, FLTSEV0 (and FLTSEV1 where the block has more than eight sources) and
IRQEN follow it in consecutive words (R358). -/
def fltOff (b : Nat) : Nat :=
  match b with
  | 0 => 0x20
  | 1 => 0x20
  | 3 => 0x30
  | 4 => 0x80
  | 5 => 0x200
  | 6 => 0x300
  | 7 => 0xD0
  | 8 => 0x60
  | 9 => 0x300
  | 10 => 0x400
  | 11 => 0x400
  | 12 => 0x400
  | 13 => 0x400
  | 14 => 0x20
  | 15 => 0x810
  | 16 => 0x20
  | 17 => 0x400
  | 18 => 0x800
  | 19 => 0x80
  | 20 => 0x60
  | 21 => 0x20
  | 22 => 0x400
  | 23 => 0x30
  | 24 => 0x100
  | 25 => 0x80
  | 26 => 0x40
  | 27 => 0x80
  | 28 => 0x30
  | 29 => 0x10
  | 30 => 0x80
  | _ => 0

/-- The number of source CFG_STOP in the block `b` (R44). -/
def srcCfgStop (b : Nat) : Option Nat :=
  match b with
  | 3 => some 9
  | 10 => some 8
  | 11 => some 8
  | 12 => some 8
  | 13 => some 8
  | 14 => some 12
  | 15 => some 6
  | 16 => some 1
  | 17 => some 3
  | 18 => some 11
  | 19 => some 6
  | 21 => some 7
  | 22 => some 1
  | 26 => some 6
  | 27 => some 2
  | _ => none

/-- The number of source CFG_BUSY in the block `b` (R44). -/
def srcCfgBusy (b : Nat) : Option Nat :=
  match b with
  | 3 => some 10
  | 7 => some 9
  | 8 => some 4
  | 10 => some 9
  | 11 => some 9
  | 12 => some 9
  | 13 => some 9
  | 18 => some 12
  | _ => none

/-- The number of source CFG_CRIT in the block `b` (R44). -/
def srcCfgCrit (b : Nat) : Option Nat :=
  match b with
  | 1 => some 3
  | 3 => some 11
  | 7 => some 10
  | 8 => some 5
  | 9 => some 7
  | 10 => some 10
  | 11 => some 10
  | 12 => some 10
  | 13 => some 10
  | 14 => some 13
  | 15 => some 7
  | 16 => some 2
  | 17 => some 4
  | 18 => some 13
  | 19 => some 7
  | 20 => some 13
  | 21 => some 8
  | 23 => some 1
  | 25 => some 1
  | 26 => some 7
  | _ => none

/-- The commit groups of the block `b`, as a mask of COMMIT.GO (R37). -/
def commitGroups (b : Nat) : Nat :=
  match b with
  | 7 => 0x1F
  | 8 => 0xF
  | 10 => 0x1
  | 11 => 0x1
  | 12 => 0x1
  | 13 => 0x1
  | 18 => 0x3F
  | _ => 0

/-- The blocks that carry the common configuration registers of R43. -/
def hasCommon (b : Nat) : Bool :=
  [1, 3, 7, 8, 9, 10, 11, 12, 13, 14, 15, 16, 17, 18, 19, 20, 21, 22, 23, 25, 26, 27].contains b

/-! The fault sources by name, `Src.<block><source>`, the numbers of the source tables. -/
abbrev Src.engOverrun : Nat := 0
abbrev Src.engLaneErr : Nat := 1
abbrev Src.engXbarOwn : Nat := 2
abbrev Src.engStageLate : Nat := 3
abbrev Src.engDeclExceed : Nat := 4
abbrev Src.engPairCeil : Nat := 5
abbrev Src.engEccCorr : Nat := 6
abbrev Src.engWrCollide : Nat := 7
abbrev Src.engLoadRefused : Nat := 8
abbrev Src.loadLoadRefused : Nat := 0
abbrev Src.loadSwapRefused : Nat := 1
abbrev Src.loadSwapDone : Nat := 2
abbrev Src.loadStoreEcc : Nat := 3
abbrev Src.loadPeerCopy : Nat := 4
abbrev Src.loadCellRefused : Nat := 5
abbrev Src.clkRefLos : Nat := 0
abbrev Src.clkRefDisq : Nat := 1
abbrev Src.clkRefSoft : Nat := 2
abbrev Src.clkRefDisagree : Nat := 3
abbrev Src.clkHoldover : Nat := 4
abbrev Src.clkHoldLimit : Nat := 5
abbrev Src.clkSwitch : Nat := 6
abbrev Src.clkRestored : Nat := 7
abbrev Src.clkLockLost : Nat := 8
abbrev Src.synXoLoss : Nat := 0
abbrev Src.synMdllUnlock : Nat := 1
abbrev Src.synStepLimit : Nat := 2
abbrev Src.synThermShut : Nat := 3
abbrev Src.timeTsqOvf : Nat := 0
abbrev Src.timeIncClamp : Nat := 1
abbrev Src.timeMapDisc : Nat := 2
abbrev Src.timeMapCreep : Nat := 3
abbrev Src.timeCmpFire : Nat := 4
abbrev Src.timeTpllUnlock : Nat := 5
abbrev Src.timeStepDone : Nat := 6
abbrev Src.macLinkDown : Nat := 0
abbrev Src.macLinkUp : Nat := 1
abbrev Src.macFecUncorr : Nat := 2
abbrev Src.macRxRingFull : Nat := 3
abbrev Src.macPauseRx : Nat := 4
abbrev Src.macStranger : Nat := 5
abbrev Src.macRuntFrag : Nat := 6
abbrev Src.macTxErr : Nat := 7
abbrev Src.mactPlcaLost : Nat := 0
abbrev Src.mactPlcaUp : Nat := 1
abbrev Src.mactForeignCoord : Nat := 2
abbrev Src.mactRxRingFull : Nat := 3
abbrev Src.mactLateColl : Nat := 4
abbrev Src.mactStranger : Nat := 5
abbrev Src.mactRuntFrag : Nat := 6
abbrev Src.mactTxErr : Nat := 7
abbrev Src.strmRxLate : Nat := 0
abbrev Src.strmRxConceal : Nat := 1
abbrev Src.strmRxReanchor : Nat := 2
abbrev Src.strmRxArrjump : Nat := 3
abbrev Src.strmRxLegdown : Nat := 4
abbrev Src.strmRxLegup : Nat := 5
abbrev Src.strmRxNoregion : Nat := 6
abbrev Src.strmRxCapacity : Nat := 7
abbrev Src.strmBufFull : Nat := 8
abbrev Src.strmTxLate : Nat := 9
abbrev Src.strmTxCapacity : Nat := 10
abbrev Src.strmSeqMismatch : Nat := 11
abbrev Src.tdmFrameErr : Nat := 0
abbrev Src.tdmSlip : Nat := 1
abbrev Src.tdmFade : Nat := 2
abbrev Src.tdmRampback : Nat := 3
abbrev Src.tdmAlign : Nat := 4
abbrev Src.tdmGangRejoin : Nat := 5
abbrev Src.pdmStuck : Nat := 0
abbrev Src.decStartRefused : Nat := 0
abbrev Src.decSettled : Nat := 1
abbrev Src.decClip : Nat := 2
abbrev Src.modLimit : Nat := 0
abbrev Src.modShortLatch : Nat := 1
abbrev Src.modRetry : Nat := 2
abbrev Src.modRetryExhausted : Nat := 3
abbrev Src.modDrvFault : Nat := 4
abbrev Src.modSenseMute : Nat := 5
abbrev Src.modClip : Nat := 6
abbrev Src.modNodata : Nat := 7
abbrev Src.modThermShut : Nat := 8
abbrev Src.modModDiverge : Nat := 9
abbrev Src.modFwdMissing : Nat := 10
abbrev Src.snsCrcErr : Nat := 0
abbrev Src.snsSyncErr : Nat := 1
abbrev Src.snsLaneDown : Nat := 2
abbrev Src.snsLaneUp : Nat := 3
abbrev Src.snsFeStatus : Nat := 4
abbrev Src.snsAlign : Nat := 5
abbrev Src.pairTakeover : Nat := 0
abbrev Src.pairRelease : Nat := 1
abbrev Src.pairBridge : Nat := 2
abbrev Src.pairCheckOnly : Nat := 3
abbrev Src.pairDiverge : Nat := 4
abbrev Src.pairJointYield : Nat := 5
abbrev Src.pairFwdMiss : Nat := 6
abbrev Src.pairCmdPeer : Nat := 7
abbrev Src.pairTxHandover : Nat := 8
abbrev Src.pairResync : Nat := 9
abbrev Src.pairResyncAbort : Nat := 10
abbrev Src.pairEpochConflict : Nat := 11
abbrev Src.pairPartnerMismatch : Nat := 12
abbrev Src.mirLaneDown : Nat := 0
abbrev Src.mirLaneUp : Nat := 1
abbrev Src.mirLinkDown : Nat := 2
abbrev Src.mirLinkUp : Nat := 3
abbrev Src.mirCheckFail : Nat := 4
abbrev Src.mirFrameLate : Nat := 5
abbrev Src.mirRtOverload : Nat := 6
abbrev Src.cmdBadframe : Nat := 0
abbrev Src.cmdTagFail : Nat := 1
abbrev Src.cmdCounter : Nat := 2
abbrev Src.cmdRefused : Nat := 3
abbrev Src.cmdRingFull : Nat := 4
abbrev Src.cmdUnackDiscard : Nat := 5
abbrev Src.keyKeyLoaded : Nat := 0
abbrev Src.keyKeyRefused : Nat := 1
abbrev Src.keyKeyRetired : Nat := 2
abbrev Src.keySignRevoked : Nat := 3
abbrev Src.keyTrngHealth : Nat := 4
abbrev Src.keyOtpErr : Nat := 5
abbrev Src.cvuMonMismatch : Nat := 0
abbrev Src.evtHostRingFull : Nat := 0
abbrev Src.evtShedding : Nat := 1
abbrev Src.evtStatusDrop : Nat := 2
abbrev Src.bbxWdogExpired : Nat := 0
abbrev Src.thmThermWarn : Nat := 0
abbrev Src.thmThermYield : Nat := 1
abbrev Src.thmThermShut : Nat := 2
abbrev Src.thmSensorFail : Nat := 3
abbrev Src.pcieLinkDown : Nat := 0
abbrev Src.pcieLinkUp : Nat := 1
abbrev Src.pcieErrCorr : Nat := 2
abbrev Src.pcieErrUncorr : Nat := 3
abbrev Src.pcieFlr : Nat := 4
abbrev Src.pcieDstate : Nat := 5
abbrev Src.bmxDecerr : Nat := 0
abbrev Src.ddrCorr : Nat := 0
abbrev Src.ddrUncorr : Nat := 1
abbrev Src.ddrLinkCorr : Nat := 2
abbrev Src.ddrRefreshThin : Nat := 3
abbrev Src.ddrDramHot : Nat := 4
abbrev Src.ddrClassChange : Nat := 5
abbrev Src.glnOverrun : Nat := 0
abbrev Src.glnRbFail : Nat := 1
abbrev Src.pwrDomRefused : Nat := 0
abbrev Src.pwrDomWrite : Nat := 1
abbrev Src.pwrThermClr : Nat := 2
abbrev Src.sysBootFail : Nat := 0
abbrev Src.gpioEdge : Nat := 0

/-! The BAR0 offsets of the registers (R11). -/
abbrev R.sysId : Nat := 0x0
abbrev R.sysBootcfg : Nat := 0x4
abbrev R.sysBootstat : Nat := 0x8
abbrev R.sysRstcause : Nat := 0xC
abbrev R.sysBootlen : Nat := 0x10
abbrev R.sysBootdata : Nat := 0x14
abbrev R.sysBoottick : Nat := 0x18
abbrev R.pwrDomctl : Nat := 0x10000
abbrev R.pwrDomstat : Nat := 0x10004
abbrev R.pwrRst : Nat := 0x10008
abbrev R.pwrSleep : Nat := 0x1000C
abbrev R.pwrTherm : Nat := 0x10010
abbrev R.pwrCnt (i : Nat) : Nat := 0x10040 + 8 * i
abbrev R.tickNum : Nat := 0x20000
abbrev R.tickCycle : Nat := 0x20008
abbrev R.tickAgenda : Nat := 0x20010
abbrev R.tickAgnext : Nat := 0x20014
abbrev R.tickSlotcnt (i : Nat) : Nat := 0x20100 + 16 * i
abbrev R.tickSlottgt (i : Nat) : Nat := 0x20108 + 16 * i
abbrev R.engCtrl : Nat := 0x30000
abbrev R.engStat : Nat := 0x30004
abbrev R.engForce : Nat := 0x30008
abbrev R.engTickcyc : Nat := 0x30010
abbrev R.engMaxcyc : Nat := 0x30014
abbrev R.engOvrlane0 : Nat := 0x30020
abbrev R.engOvrlane1 : Nat := 0x30024
abbrev R.engSubst : Nat := 0x30028
abbrev R.engOvrcnt : Nat := 0x30050
abbrev R.engStallcnt : Nat := 0x30058
abbrev R.engEcccnt : Nat := 0x30060
abbrev R.engLanestat (i : Nat) : Nat := 0x30100 + 4 * i
abbrev R.loadStat : Nat := 0x40000
abbrev R.loadFailinfo0 : Nat := 0x40004
abbrev R.loadFailinfo1 : Nat := 0x40008
abbrev R.loadFailinfo2 : Nat := 0x4000C
abbrev R.loadSrcoff : Nat := 0x40010
abbrev R.loadSrclen : Nat := 0x40014
abbrev R.loadProgress : Nat := 0x40018
abbrev R.loadActid : Nat := 0x4001C
abbrev R.loadPendid : Nat := 0x40020
abbrev R.loadClass : Nat := 0x40024
abbrev R.loadSwaptgt : Nat := 0x40028
abbrev R.loadLastswap : Nat := 0x40030
abbrev R.loadTransend : Nat := 0x40038
abbrev R.loadActhash (i : Nat) : Nat := 0x40040 + 4 * i
abbrev R.loadPendhash (i : Nat) : Nat := 0x40060 + 4 * i
abbrev R.loadLoadcnt : Nat := 0x40090
abbrev R.loadRefusecnt : Nat := 0x40098
abbrev R.loadSwapcnt : Nat := 0x400A0
abbrev R.cmdPolicy : Nat := 0x50000
abbrev R.cmdUdpcfg : Nat := 0x50004
abbrev R.cmdStat : Nat := 0x50008
abbrev R.cmdNoncelo : Nat := 0x5000C
abbrev R.cmdNoncehi : Nat := 0x50010
abbrev R.cmdCbaselo (i : Nat) : Nat := 0x50020 + 32 * i
abbrev R.cmdCbasehi (i : Nat) : Nat := 0x50024 + 32 * i
abbrev R.cmdCsize (i : Nat) : Nat := 0x50028 + 32 * i
abbrev R.cmdChead (i : Nat) : Nat := 0x5002C + 32 * i
abbrev R.cmdCtail (i : Nat) : Nat := 0x50030 + 32 * i
abbrev R.cmdRbaselo (i : Nat) : Nat := 0x50060 + 32 * i
abbrev R.cmdRbasehi (i : Nat) : Nat := 0x50064 + 32 * i
abbrev R.cmdRsize (i : Nat) : Nat := 0x50068 + 32 * i
abbrev R.cmdRhead (i : Nat) : Nat := 0x5006C + 32 * i
abbrev R.cmdRtail (i : Nat) : Nat := 0x50070 + 32 * i
abbrev R.cmdSeen (i : Nat) : Nat := 0x50100 + 8 * i
abbrev R.cmdCnt (i : Nat) : Nat := 0x50300 + 8 * i
abbrev R.keySlotstat (i : Nat) : Nat := 0x60000 + 4 * i
abbrev R.keyOtpstat : Nat := 0x60020
abbrev R.keyTrngstat : Nat := 0x60024
abbrev R.keyShash (i : Nat) (j : Nat) : Nat := 0x60100 + 32 * i + 4 * j
abbrev R.keyBhash (i : Nat) (j : Nat) : Nat := 0x60200 + 32 * i + 4 * j
abbrev R.clkCtrl : Nat := 0x70000
abbrev R.clkStat : Nat := 0x70004
abbrev R.clkDpll : Nat := 0x70008
abbrev R.clkFreq : Nat := 0x7000C
abbrev R.clkHoldfreq : Nat := 0x70010
abbrev R.clkPherr : Nat := 0x70014
abbrev R.clkXoclass : Nat := 0x70018
abbrev R.clkHoldlim : Nat := 0x7001C
abbrev R.clkHoldpred : Nat := 0x70020
abbrev R.clkHoldtime : Nat := 0x70024
abbrev R.clkHist : Nat := 0x70028
abbrev R.clkDisag : Nat := 0x7002C
abbrev R.clkDrift : Nat := 0x70030
abbrev R.clkRefcfg (i : Nat) : Nat := 0x70040 + 32 * i
abbrev R.clkRefwin (i : Nat) : Nat := 0x70044 + 32 * i
abbrev R.clkReftim (i : Nat) : Nat := 0x70048 + 32 * i
abbrev R.clkReflock (i : Nat) : Nat := 0x7004C + 32 * i
abbrev R.clkRefstat (i : Nat) : Nat := 0x70050 + 32 * i
abbrev R.clkReffreq (i : Nat) : Nat := 0x70054 + 32 * i
abbrev R.clkRefphoff (i : Nat) : Nat := 0x70058 + 32 * i
abbrev R.clkRefwtr (i : Nat) : Nat := 0x7005C + 32 * i
abbrev R.clkForce : Nat := 0x700C0
abbrev R.clkSwitchcnt : Nat := 0x700F0
abbrev R.clkHoldcnt : Nat := 0x700F8
abbrev R.synStat : Nat := 0x80000
abbrev R.synOutcfg (i : Nat) : Nat := 0x80010 + 16 * i
abbrev R.synOutdly (i : Nat) : Nat := 0x80014 + 16 * i
abbrev R.synOutstat (i : Nat) : Nat := 0x80018 + 16 * i
abbrev R.synLimitcnt : Nat := 0x80070
abbrev R.timeStat : Nat := 0x90000
abbrev R.timeInc : Nat := 0x90004
abbrev R.timeNowlo : Nat := 0x90008
abbrev R.timeNowhi : Nat := 0x9000C
abbrev R.timeNowfrac : Nat := 0x90010
abbrev R.timeStepacc : Nat := 0x90014
abbrev R.timeMapofflo : Nat := 0x90020
abbrev R.timeMapoffhi : Nat := 0x90024
abbrev R.timeMapcfg : Nat := 0x90028
abbrev R.timeMapstat : Nat := 0x9002C
abbrev R.timeMaptick : Nat := 0x90030
abbrev R.timeCap : Nat := 0x90038
abbrev R.timeMapd : Nat := 0x90040
abbrev R.timeMapphase : Nat := 0x90048
abbrev R.timeDisctick : Nat := 0x90050
abbrev R.timeAsym (i : Nat) : Nat := 0x90060 + 16 * i
abbrev R.timePortlat (i : Nat) : Nat := 0x90064 + 16 * i
abbrev R.timeTsqstat (i : Nat) : Nat := 0x90068 + 16 * i
abbrev R.timeTsq (i : Nat) (j : Nat) : Nat := 0x90100 + 16 * i + 4 * j
abbrev R.timeCmptgt (i : Nat) : Nat := 0x90200 + 16 * i
abbrev R.timeCmpcfg (i : Nat) : Nat := 0x90204 + 16 * i
abbrev R.timeCmptick (i : Nat) : Nat := 0x90208 + 16 * i
abbrev R.timeCmpstat (i : Nat) : Nat := 0x9020C + 16 * i
abbrev R.timeDisccnt : Nat := 0x90310
abbrev R.timeCreepcnt : Nat := 0x90318
abbrev R.timeTsqdrop (i : Nat) : Nat := 0x90320 + 8 * i
abbrev R.macCtrl (b : Nat) : Nat := b * 0x10000 + 0x0
abbrev R.macMode (b : Nat) : Nat := b * 0x10000 + 0x4
abbrev R.macMaxlen (b : Nat) : Nat := b * 0x10000 + 0x8
abbrev R.macStat (b : Nat) : Nat := b * 0x10000 + 0xC
abbrev R.macAddrlo (b : Nat) : Nat := b * 0x10000 + 0x10
abbrev R.macAddrhi (b : Nat) : Nat := b * 0x10000 + 0x14
abbrev R.macHostclass (b : Nat) : Nat := b * 0x10000 + 0x18
abbrev R.macForce (b : Nat) : Nat := b * 0x10000 + 0x1C
abbrev R.macStrcap0 (b : Nat) : Nat := b * 0x10000 + 0x20
abbrev R.macStrcap1 (b : Nat) : Nat := b * 0x10000 + 0x24
abbrev R.macMcastlo (b : Nat) (i : Nat) : Nat := b * 0x10000 + 0x30 + 8 * i
abbrev R.macMcasthi (b : Nat) (i : Nat) : Nat := b * 0x10000 + 0x34 + 8 * i
abbrev R.macRxbaselo (b : Nat) : Nat := b * 0x10000 + 0x200
abbrev R.macRxbasehi (b : Nat) : Nat := b * 0x10000 + 0x204
abbrev R.macRxsize (b : Nat) : Nat := b * 0x10000 + 0x208
abbrev R.macRxhead (b : Nat) : Nat := b * 0x10000 + 0x20C
abbrev R.macRxtail (b : Nat) : Nat := b * 0x10000 + 0x210
abbrev R.macTxbaselo (b : Nat) (i : Nat) : Nat := b * 0x10000 + 0x220 + 32 * i
abbrev R.macTxbasehi (b : Nat) (i : Nat) : Nat := b * 0x10000 + 0x224 + 32 * i
abbrev R.macTxsize (b : Nat) (i : Nat) : Nat := b * 0x10000 + 0x228 + 32 * i
abbrev R.macTxhead (b : Nat) (i : Nat) : Nat := b * 0x10000 + 0x22C + 32 * i
abbrev R.macTxtail (b : Nat) (i : Nat) : Nat := b * 0x10000 + 0x230 + 32 * i
abbrev R.macPcpmap (b : Nat) : Nat := b * 0x10000 + 0x300
abbrev R.macCnt (b : Nat) (i : Nat) : Nat := b * 0x10000 + 0x500 + 8 * i
abbrev R.macMdiocfg (b : Nat) : Nat := b * 0x10000 + 0x600
abbrev R.macMdiocmd (b : Nat) : Nat := b * 0x10000 + 0x604
abbrev R.macMdiodata (b : Nat) : Nat := b * 0x10000 + 0x608
abbrev R.strmStat : Nat := 0xE0000
abbrev R.strmCnt (i : Nat) : Nat := 0xE0100 + 8 * i
abbrev R.strmFctl (i : Nat) : Nat := 0xE1000 + 16 * i
abbrev R.strmFdstip (i : Nat) : Nat := 0xE1004 + 16 * i
abbrev R.strmFsrcip (i : Nat) : Nat := 0xE1008 + 16 * i
abbrev R.strmFport (i : Nat) : Nat := 0xE100C + 16 * i
abbrev R.strmRxctl (i : Nat) : Nat := 0xE3000 + 64 * i
abbrev R.strmRxbuf (i : Nat) : Nat := 0xE3004 + 64 * i
abbrev R.strmRxrkeylo (i : Nat) : Nat := 0xE3008 + 64 * i
abbrev R.strmRxrkeyhi (i : Nat) : Nat := 0xE300C + 64 * i
abbrev R.strmRxdch (i : Nat) : Nat := 0xE3010 + 64 * i
abbrev R.strmRxrtpoff (i : Nat) : Nat := 0xE3014 + 64 * i
abbrev R.strmRxssrc (i : Nat) : Nat := 0xE3018 + 64 * i
abbrev R.strmRxarr (i : Nat) : Nat := 0xE301C + 64 * i
abbrev R.strmRxstat (i : Nat) : Nat := 0xE3020 + 64 * i
abbrev R.strmRxanchor (i : Nat) : Nat := 0xE3024 + 64 * i
abbrev R.strmRxmargin (i : Nat) : Nat := 0xE3028 + 64 * i
abbrev R.strmRxskew (i : Nat) : Nat := 0xE302C + 64 * i
abbrev R.strmRxcnt (i : Nat) (j : Nat) : Nat := 0xE7000 + 56 * i + 8 * j
abbrev R.strmTxctl (i : Nat) : Nat := 0xEA800 + 64 * i
abbrev R.strmTxch (i : Nat) : Nat := 0xEA804 + 64 * i
abbrev R.strmTxdstip (i : Nat) : Nat := 0xEA808 + 64 * i
abbrev R.strmTxsrcip (i : Nat) : Nat := 0xEA80C + 64 * i
abbrev R.strmTxports (i : Nat) : Nat := 0xEA810 + 64 * i
abbrev R.strmTxdmaclo (i : Nat) : Nat := 0xEA814 + 64 * i
abbrev R.strmTxdmachi (i : Nat) : Nat := 0xEA818 + 64 * i
abbrev R.strmTxssrc (i : Nat) : Nat := 0xEA81C + 64 * i
abbrev R.strmTxrtpoff (i : Nat) : Nat := 0xEA820 + 64 * i
abbrev R.strmTxseq (i : Nat) : Nat := 0xEA824 + 64 * i
abbrev R.strmTxstat (i : Nat) : Nat := 0xEA828 + 64 * i
abbrev R.strmTxdstipb (i : Nat) : Nat := 0xEA82C + 64 * i
abbrev R.strmTxsrcipb (i : Nat) : Nat := 0xEA830 + 64 * i
abbrev R.strmTxcnt (i : Nat) (j : Nat) : Nat := 0xEE800 + 16 * i + 8 * j
abbrev R.tdmCtrl (i : Nat) : Nat := 0xF0000 + 256 * i
abbrev R.tdmFmt (i : Nat) : Nat := 0xF0004 + 256 * i
abbrev R.tdmRxmask (i : Nat) : Nat := 0xF0008 + 256 * i
abbrev R.tdmSlotmask (i : Nat) : Nat := 0xF000C + 256 * i
abbrev R.tdmHpf (i : Nat) (j : Nat) : Nat := 0xF0010 + 256 * i + 4 * j
abbrev R.tdmStat (i : Nat) : Nat := 0xF0020 + 256 * i
abbrev R.tdmFcnt (i : Nat) : Nat := 0xF0024 + 256 * i
abbrev R.tdmFsoff (i : Nat) : Nat := 0xF0028 + 256 * i
abbrev R.tdmCnt (i : Nat) (j : Nat) : Nat := 0xF0040 + 256 * i + 8 * j
abbrev R.tdmMclkcfg (i : Nat) : Nat := 0xF0800 + 4 * i
abbrev R.pdmClkcfg (i : Nat) : Nat := 0x100000 + 4 * i
abbrev R.pdmSwap : Nat := 0x100010
abbrev R.pdmStuck : Nat := 0x100014
abbrev R.decCtrl (i : Nat) : Nat := 0x110000 + 4 * i
abbrev R.decStat (i : Nat) : Nat := 0x110100 + 4 * i
abbrev R.decSetcfg (i : Nat) : Nat := 0x110200 + 4 * i
abbrev R.decCompcfg (i : Nat) : Nat := 0x110210 + 4 * i
abbrev R.decRunmask : Nat := 0x110220
abbrev R.decSettledmask : Nat := 0x110224
abbrev R.decClipcnt : Nat := 0x110300
abbrev R.decStartcnt : Nat := 0x110308
abbrev R.decSetcoef (i : Nat) (j : Nat) : Nat := 0x111000 + 1024 * i + 4 * j
abbrev R.decCompcoef (i : Nat) (j : Nat) : Nat := 0x112000 + 64 * i + 4 * j
abbrev R.modGrpctl (i : Nat) : Nat := 0x120000 + 4 * i
abbrev R.modGrpstat : Nat := 0x120020
abbrev R.modLimcfg : Nat := 0x120024
abbrev R.modRetry : Nat := 0x120028
abbrev R.modForce0 : Nat := 0x120030
abbrev R.modForce1 : Nat := 0x120034
abbrev R.modClear0 : Nat := 0x120038
abbrev R.modClear1 : Nat := 0x12003C
abbrev R.modChcfg (i : Nat) : Nat := 0x120100 + 4 * i
abbrev R.modChstat (i : Nat) : Nat := 0x120200 + 4 * i
abbrev R.modLoopv (i : Nat) : Nat := 0x120400 + 64 * i
abbrev R.modLoopc (i : Nat) (j : Nat) : Nat := 0x120404 + 64 * i + 4 * j
abbrev R.modCnt (i : Nat) : Nat := 0x120900 + 8 * i
abbrev R.snsClkcfg : Nat := 0x130000
abbrev R.snsLanectl (i : Nat) : Nat := 0x130010 + 4 * i
abbrev R.snsLanestat (i : Nat) : Nat := 0x130030 + 4 * i
abbrev R.snsFestat (i : Nat) : Nat := 0x130050 + 4 * i
abbrev R.snsForce : Nat := 0x130070
abbrev R.snsCnt (i : Nat) (j : Nat) : Nat := 0x130100 + 24 * i + 8 * j
abbrev R.pairCtrl : Nat := 0x140000
abbrev R.pairStat : Nat := 0x140004
abbrev R.pairEpoch : Nat := 0x140008
abbrev R.pairLease : Nat := 0x14000C
abbrev R.pairSnap : Nat := 0x140010
abbrev R.pairReplay : Nat := 0x140018
abbrev R.pairRsstat : Nat := 0x140020
abbrev R.pairDigtick : Nat := 0x140024
abbrev R.pairDig (i : Nat) : Nat := 0x140028 + 8 * i
abbrev R.pairRecmax : Nat := 0x140048
abbrev R.pairForce : Nat := 0x140050
abbrev R.pairCnt (i : Nat) : Nat := 0x140080 + 8 * i
abbrev R.mirCtrl : Nat := 0x150000
abbrev R.mirStat : Nat := 0x150004
abbrev R.mirDelay : Nat := 0x150008
abbrev R.mirDelayadj : Nat := 0x15000C
abbrev R.mirBulk : Nat := 0x150010
abbrev R.mirRtload : Nat := 0x150014
abbrev R.mirCnt (i : Nat) : Nat := 0x150040 + 8 * i
abbrev R.cvuCfg (i : Nat) : Nat := 0x160000 + 64 * i
abbrev R.cvuPolylo (i : Nat) : Nat := 0x160004 + 64 * i
abbrev R.cvuPolyhi (i : Nat) : Nat := 0x160008 + 64 * i
abbrev R.cvuInitlo (i : Nat) : Nat := 0x16000C + 64 * i
abbrev R.cvuInithi (i : Nat) : Nat := 0x160010 + 64 * i
abbrev R.cvuXorlo (i : Nat) : Nat := 0x160014 + 64 * i
abbrev R.cvuXorhi (i : Nat) : Nat := 0x160018 + 64 * i
abbrev R.cvuResult (i : Nat) : Nat := 0x16001C + 64 * i
abbrev R.cvuExpectlo (i : Nat) : Nat := 0x160024 + 64 * i
abbrev R.cvuExpecthi (i : Nat) : Nat := 0x160028 + 64 * i
abbrev R.cvuStat (i : Nat) : Nat := 0x16002C + 64 * i
abbrev R.cvuUnits (i : Nat) : Nat := 0x160030 + 64 * i
abbrev R.cvuFail (i : Nat) : Nat := 0x160038 + 64 * i
abbrev R.evtCtrl : Nat := 0x180000
abbrev R.evtStat : Nat := 0x180004
abbrev R.evtSeq : Nat := 0x180008
abbrev R.evtRate : Nat := 0x18000C
abbrev R.evtCoal : Nat := 0x180010
abbrev R.evtRbaselo : Nat := 0x180018
abbrev R.evtRbasehi : Nat := 0x18001C
abbrev R.evtRsize : Nat := 0x180020
abbrev R.evtWridx : Nat := 0x180024
abbrev R.evtRdidx : Nat := 0x180028
abbrev R.evtNotify : Nat := 0x18002C
abbrev R.evtVecpend : Nat := 0x180030
abbrev R.evtResend : Nat := 0x180034
abbrev R.evtIrqroute (i : Nat) : Nat := 0x180080 + 4 * i
abbrev R.evtNotifyroute : Nat := 0x1800FC
abbrev R.evtCnt (i : Nat) : Nat := 0x180200 + 8 * i
abbrev R.bbxCtrl : Nat := 0x170000
abbrev R.bbxStat : Nat := 0x170004
abbrev R.bbxTrig : Nat := 0x170008
abbrev R.bbxTrigseq : Nat := 0x17000C
abbrev R.bbxDcfg : Nat := 0x170010
abbrev R.bbxDstat : Nat := 0x170014
abbrev R.bbxWdcfg : Nat := 0x170018
abbrev R.bbxWdkick : Nat := 0x17001C
abbrev R.bbxFault : Nat := 0x170020
abbrev R.bbxCnt (i : Nat) : Nat := 0x170040 + 8 * i
abbrev R.thmCfg : Nat := 0x1C0000
abbrev R.thmStat : Nat := 0x1C0004
abbrev R.thmTj : Nat := 0x1C0008
abbrev R.thmTjmax : Nat := 0x1C000C
abbrev R.thmTemp (i : Nat) : Nat := 0x1C0010 + 4 * i
abbrev R.pcieStat : Nat := 0x1D0000
abbrev R.pcieIds : Nat := 0x1D0004
abbrev R.pcieSubids : Nat := 0x1D0008
abbrev R.pcieCnt (i : Nat) : Nat := 0x1D0040 + 8 * i
abbrev R.bmxBar2base : Nat := 0x190000
abbrev R.bmxPrilo (i : Nat) : Nat := 0x190010 + 8 * i
abbrev R.bmxPrihi (i : Nat) : Nat := 0x190014 + 8 * i
abbrev R.bmxPark (i : Nat) : Nat := 0x190040 + 4 * i
abbrev R.bmxDecerr : Nat := 0x190060
abbrev R.bmxDecaddr : Nat := 0x190064
abbrev R.bmxCnt (i : Nat) : Nat := 0x190100 + 8 * i
abbrev R.ddrCfg : Nat := 0x1A0000
abbrev R.ddrStat : Nat := 0x1A0004
abbrev R.ddrTemp : Nat := 0x1A0008
abbrev R.ddrForce : Nat := 0x1A000C
abbrev R.ddrErrinfo : Nat := 0x1A0010
abbrev R.ddrErraddr : Nat := 0x1A0014
abbrev R.ddrCnt (i : Nat) : Nat := 0x1A0100 + 8 * i
abbrev R.glnCtrl : Nat := 0x1B0000
abbrev R.glnCfg : Nat := 0x1B0004
abbrev R.glnStat : Nat := 0x1B0008
abbrev R.glnStart : Nat := 0x1B0010
abbrev R.glnWmark : Nat := 0x1B0018
abbrev R.glnOldest : Nat := 0x1B0020
abbrev R.glnBseq : Nat := 0x1B0028
abbrev R.glnRbblock : Nat := 0x1B0030
abbrev R.glnRbctl : Nat := 0x1B0034
abbrev R.glnRbstat : Nat := 0x1B0038
abbrev R.glnRbfirst : Nat := 0x1B003C
abbrev R.glnCnt (i : Nat) : Nat := 0x1B0100 + 8 * i
abbrev R.glnSel (i : Nat) : Nat := 0x1B1000 + 4 * i
abbrev R.gpioDir : Nat := 0x1E0000
abbrev R.gpioOut : Nat := 0x1E0004
abbrev R.gpioOden : Nat := 0x1E0008
abbrev R.gpioIn : Nat := 0x1E000C
abbrev R.gpioEdgecfg : Nat := 0x1E0010
abbrev R.gpioDebounce : Nat := 0x1E0014
abbrev R.gpioDbtime : Nat := 0x1E0018
abbrev R.gpioEdge : Nat := 0x1E001C
abbrev R.gpioEdgetick (i : Nat) : Nat := 0x1E0040 + 4 * i
abbrev R.mactPlcacfg : Nat := 0xD0700
abbrev R.mactPlcaburst : Nat := 0xD0704
abbrev R.mactPlcastat : Nat := 0xD0708
abbrev R.commit (b : Nat) : Nat := b * 0x10000 + 0xFFF0
abbrev R.commitstat (b : Nat) : Nat := b * 0x10000 + 0xFFF4
abbrev R.cfgerr (b : Nat) : Nat := b * 0x10000 + 0xFFF8
abbrev R.cfgerraddr (b : Nat) : Nat := b * 0x10000 + 0xFFFC
abbrev R.fltstat (b : Nat) : Nat := b * 0x10000 + fltOff b
abbrev R.fltfirst (b : Nat) : Nat := b * 0x10000 + fltOff b + 4
abbrev R.fltsev0 (b : Nat) : Nat := b * 0x10000 + fltOff b + 8
abbrev R.fltsev1 (b : Nat) : Nat := b * 0x10000 + fltOff b + 12
/-- IRQEN follows the severities. -/
abbrev R.irqen (b : Nat) : Nat := b * 0x10000 + fltOff b + (if (faultSrcs b).length ≤ 8 then 12 else 16)

end Sys2Proof.Machine
end

