-- ==== Sys2Proof/Machine/Dev.lean ====
section
/-!
DEFINITION. The state of the device as plain data: the registers, the tick and its pending changes, the agenda, the
engine and its lanes, the loader, and the state each block holds beside its registers.  Every field has its value
after reset as its default.
-/
namespace Sys2Proof.Machine

/-! ## Registers and pending changes (R7, R8, R35 to R39) -/

/-- A masked write that takes effect at the boundary into tick `due` (R35). -/
structure PendWr where
  off  : Nat
  mask : Nat
  val  : Nat
  due  : Nat
deriving DecidableEq, Repr

/-- A masked FRAME-class write of serial port `port`, held for its first frame start at or after tick `due` (R36). -/
structure FrameWr where
  port : Nat
  off  : Nat
  mask : Nat
  val  : Nat
  due  : Nat
  cyc  : Nat
  cmd  : Bool
deriving DecidableEq, Repr

/-- One masked register write of a command: BAR0 offset, mask and data (R339). -/
structure RegWr where
  off  : Nat
  mask : Nat
  data : Nat
deriving DecidableEq, Repr

/-- Writes of an agenda entry to a commit group that was still pending, and whether the entry strobes it (R39). -/
structure HeldWr where
  blk    : Nat
  grp    : Nat
  writes : List RegWr
  strobe : Bool
deriving DecidableEq, Repr

/-! ## The agenda (R22 to R26) -/

/-- What an agenda entry does at its boundary. -/
inductive AgAct where
  | writes (ws : List RegWr)
  | swap
  | cell (key : Nat) (val : List Byte)
  | step (ofs : Int)
deriving DecidableEq, Repr

/-- An acknowledged or mirrored command with a future target tick (R22). -/
structure AgEntry where
  tgt  : Nat
  slot : Nat
  ctr  : Nat
  act  : AgAct
deriving DecidableEq, Repr

/-! ## Faults (R358 to R364) -/

/-- A reaction in progress: its severity, the last tick of its window, whether FLTFIRST records it (R362). -/
structure Reaction where
  sev   : Nat
  last  : Nat
  first : Bool
deriving DecidableEq, Repr

/-- A block's fault state beside its fault registers: the first fault's source, the FLTSTAT bits set at S2 or above
(R360), the reaction (R362), the yield line (R364), and the S3/S4 postings of the present tick (R371). -/
structure FltState where
  first  : Option Nat := none
  sev2   : Nat := 0
  react  : Option Reaction := none
  yieldL : Bool := false
  hot    : Nat := 0
deriving DecidableEq, Repr

/-- A posting on the one-way status path (R32, R368). -/
structure Posting where
  tick   : Nat
  cyc    : Nat
  blk    : Nat
  src    : Nat
  sev    : Nat
  merge  : Nat
  qual   : Nat
  yieldS : Bool
  approx : Bool
  d0     : Nat
  d1     : Nat
  d2     : Nat
  rep    : Nat := 0
  epoch  : Nat := 0
deriving DecidableEq, Repr

/-- An event record (R368). -/
structure EvRec where
  seq   : Nat
  tick  : Nat
  cyc   : Nat
  blk   : Nat
  src   : Nat
  sevm  : Nat
  epoch : Nat
  code  : Nat
  rep   : Nat
  d0    : Nat
  d1    : Nat
  d2    : Nat
deriving DecidableEq, Repr

/-- A record still open for folding, with its place in the black-box ring and the end of its window (R373). -/
structure OpenRec where
  recd : EvRec
  idx  : Option Nat
  upto : Nat
deriving DecidableEq, Repr

/-- Postings of a source lost since its last record, with the cause of the DROP record (R371, R372). -/
structure Lost where
  blk   : Nat
  src   : Nat
  cause : Nat
  count : Nat
deriving DecidableEq, Repr

/-- A token bucket, in units of 1/96,000 token, and the tick it was last brought up to date (R372). -/
structure Bucket where
  fill : Nat
  at_  : Nat
deriving DecidableEq, Repr

/-- EVT beside its registers: the status path, the intake, the losses, the buckets, the open records, the records
numbered and not yet on the host ring with whether each is closed, the records EVT and BBX have made that are not numbered yet, the gap
being skipped, the interrupt levels, whether a record of S2 or above lies unread on the ring, the tick after that of the last SHEDDING; whether an
attributing event has been logged since the last STATUS (R309, R313), whether MOD has lost or differed from the forwarded block in
the tick, and the blocks that have yielded in the tick and in the window of the next STATUS (R33, R459). -/
structure Evt where
  path    : List Posting := []
  intake  : List Posting := []
  lost    : List Lost := []
  buckets : List (Nat × Bucket) := []
  opens   : List OpenRec := []
  queue   : List (EvRec × Bool) := []
  made    : List EvRec := []
  gapN    : Nat := 0
  gap1    : Nat := 0
  gapMgmt : Bool := false
  vecs    : Nat := 0
  notify  : Bool := false
  high    : Bool := false
  shedT   : Nat := 0
  errT    : Bool := false
  errR    : Bool := false
  modBad  : Bool := false
  yieldT  : List Nat := []
  yieldW  : List Nat := []
deriving DecidableEq, Repr

/-- BBX beside its registers: the records counted from the trigger record (none before it is numbered), the records the extension
still takes, the ticks the watchdog has counted (96 to the millisecond), whether the watchdog has triggered since the last rearm, FAULT_N, the
conditions of R164 that hold it, and whether a clear is due at the next boundary. -/
structure Bbx where
  post    : Option Nat := none
  dpost   : Option Nat := none
  wdMs    : Nat := 0
  wdFired : Bool := false
  faultN  : Bool := false
  clkCond : Bool := false
  clrReq  : Bool := false
deriving DecidableEq, Repr

/-- THM beside its registers: THERM_WARN raised and not rearmed, the last conversion at 155 °C or above (R382). -/
structure Thm where
  warned : Bool := false
  hot    : Bool := false
deriving DecidableEq, Repr

/-! ## Lanes (R48 to R52, R75 to R81) -/

/-- The destination of a pending result. -/
inductive Dst where
  | d (i : Nat)
  | a (i : Nat)
  | p (i : Nat)
  | ml (i : Nat)
  | mh (i : Nat)
deriving DecidableEq, Repr

/-- A result not yet visible: it is read from issue `due` on; `iss` and `rank` are its issue and its slot rank (R78,
R81). -/
structure Pend where
  due  : Nat
  dst  : Dst
  val  : Nat
  iss  : Nat
  rank : Nat
deriving DecidableEq, Repr

/-- The chain value of one accumulator (R80): the latest value, the value before its issue, that issue and its rank. -/
structure Chain where
  cur  : BitVec 72 := 0
  prev : BitVec 72 := 0
  iss  : Option Nat := none
  rank : Nat := 0
deriving DecidableEq, Repr

/-- An active REP: first bundle of its body, last bundle, and passes left after the present one (R91). -/
structure Loop where
  first : Nat
  last  : Nat
  left  : Nat
deriving DecidableEq, Repr

/-- A lane: its register files as programs see them, its pending results, its chains, its program counter and loops, the buses
its present bundle has used with the slot rank of a T-bus write, whether that bundle executes as a four-slot NOP (R101), and how
its tick has ended (R48, R77). -/
structure Lane where
  d     : List Word := List.replicate 16 0
  a     : List (BitVec 72) := List.replicate 4 0
  p     : List (BitVec 16) := List.replicate 8 0
  m     : List Word := List.replicate 4 0
  l     : List (BitVec 16) := List.replicate 2 0
  pend  : List Pend := []
  chain : List Chain := List.replicate 4 {}
  pc    : Nat := 0
  iss   : Nat := 0
  loops : List Loop := []
  sBusy : Bool := false
  cBusy : Bool := false
  trBusy : Bool := false
  tw    : Option Nat := none
  void  : Bool := false
  endC  : Option Nat := none
  err   : Bool := false
deriving DecidableEq, Repr

/-- An S-bus request of the present issue: lane, bank, row, and whether it writes (R55). -/
structure SReq where
  lane : Nat
  bank : Nat
  row  : Nat
  wr   : Bool
deriving DecidableEq, Repr

/-- A store of the present issue, made when the issue closes so that loads of it read the old word (R51): the lane, the
internal byte address, the word, and the S-bus region and pointer when it goes to sample memory. -/
structure StoreReq where
  lane : Nat
  addr : Nat
  val  : Word
  sptr : Option (Nat × Nat)
deriving DecidableEq, Repr

/-! ## Sheaves (R103 to R115) -/

/-- A block of BLOCKS (R107). -/
structure SBlock where
  key     : Nat
  lane    : Nat
  mem     : Nat
  addr    : Nat
  count   : Nat
  dataOff : Nat
deriving DecidableEq, Repr

/-- A placement of a parameter cell (R109). -/
structure Placement where
  lane  : Nat
  caddr : Nat
deriving DecidableEq, Repr

/-- A parameter cell (R109). -/
structure SCell where
  key    : Nat
  kind   : Nat
  nwords : Nat
  maxT   : Nat
  places : List Placement
deriving DecidableEq, Repr

/-- A delay region (R110). -/
structure Region where
  key   : Nat
  base  : Nat
  depth : Nat
  ch    : Nat
  rate  : Nat
  chase : Nat
deriving DecidableEq, Repr

/-- A staging descriptor (R111). -/
structure StageDesc where
  region : Nat
  ch0    : Nat
  nch    : Nat
  dreg   : Nat
  owner  : Nat
  dptr   : Nat
  par    : Nat
  tap    : Nat
deriving DecidableEq, Repr

/-- A drain descriptor (R112). -/
structure DrainDesc where
  sreg  : Nat
  kind  : Nat
  sptr  : Nat
  count : Nat
  didx  : Nat
  dch   : Nat
  owner : Nat
  par   : Nat
deriving DecidableEq, Repr

/-- The tables the loader keeps of a sheaf (R116). -/
structure Sheaf where
  id       : Nat := 0
  pair     : Bool := false
  trans    : Bool := false
  refClass : Nat := 0
  laneMask : Nat := 0
  dramCfg  : Nat := 0
  blocks   : List SBlock := []
  cells    : List SCell := []
  regions  : List Region := []
  stage    : List StageDesc := []
  drain    : List DrainDesc := []
  decl     : List Nat := []
  fence    : List Nat := []
  tslot    : Nat := 0
  refresh  : List (List Nat) := []
  transDur : Nat := 0
  hash     : Nat := 0
  signer   : Nat := 0
deriving DecidableEq, Repr

/-- The engine beside its registers (R48 to R70): the lanes, the issue in progress with its requests and stores, the
regions' write pointers, the armed staging plan with the descriptors that run last (R216) and the armed drain plan, the
hold buffer by descriptor, the lanes that overran, the parity request, the words with a double-bit error, the address and value
words of the tick's digests (R351), and the bytes that the external ports have replaced in a cycle, as they were, with that cycle (R51). -/
structure Eng where
  lanes    : List Lane := List.replicate 48 {}
  issue    : Nat := 0
  stalls   : Nat := 0
  sreqs    : List SReq := []
  stores   : List StoreReq := []
  wps      : List (Nat × Nat) := []
  stage    : List StageDesc := []
  stageR   : List Region := []
  drain    : List DrainDesc := []
  drainR   : List Region := []
  hold     : List (Nat × List Word) := []
  stageLast : List Nat := []
  ovr      : List Nat := []
  parReq   : Nat := 0
  ecc2     : List Nat := []
  digS     : List (Nat × Nat) := []
  digT     : List (Nat × Nat) := []
  olds     : List (Nat × Byte) := []
  oldC     : Nat := 0
deriving DecidableEq, Repr

/-- A load in progress: whether the partner is awaited, the tables of an image that has passed every check of this unit, and whether its
range lies outside what R102 allows (R116, R120). -/
structure LoadJob where
  peerCopy : Bool
  own      : Option Sheaf := none
  bad      : Bool := false
deriving DecidableEq, Repr

/-- The loader beside its registers: the active sheaf, the pending sheaf, the plan switch of a swap, the load in
progress (R116 to R124). -/
structure Ldr where
  act     : Option Sheaf := none
  pend    : Option Sheaf := none
  job     : Option LoadJob := none
  swap    : Nat := 0
deriving DecidableEq, Repr

/-! ## The PCI Express endpoint -/

/-- PCIE beside its registers: Memory Space Enable, Bus Master Enable and PME_En of configuration space, MSI-X enable, mask and pending
bits, the address and data words of the MSI-X table by offset, the messages sent by vector, the PM_PME messages sent, and whether CLKREQ_N is
driven low (R380, R396 to R398). -/
structure Pcie where
  memEn    : Bool := false
  busEn    : Bool := false
  pmeEn    : Bool := false
  msixEn   : Bool := false
  msixMask : Nat := 0xFFFFFFFF
  msixPend : Nat := 0
  table    : List (Nat × Word) := []
  sent     : List Nat := []
  pmeMsgs  : Nat := 0
  clkreq   : Bool := false
deriving DecidableEq, Repr

/-! ## Local inputs (R133, R235 to R262) -/

/-- The state of one channel's input high-pass filter: the code in use, the DC-block section, the wind section (R133,
R134). -/
structure Hpf where
  code : Nat := 1
  dc   : BitVec 40 := 0
  wind : List (BitVec 40) := []
deriving DecidableEq, Repr

/-- A frame in a slip buffer: its number in its gang's count and the receive mask in force at its start, both of received frames only, and its
words (R242, R245, R247). -/
structure SlipFrame where
  n     : Nat := 0
  mask  : Nat := 0
  words : List Nat
deriving DecidableEq, Repr

/-- One direction of a serial port: its slip buffer, the gain position q, whether it fades and why, the frames since its
last slip, the held words with their mask, and the tick of the last access of the tick side (R242, R243). -/
structure SlipDir where
  buf    : List SlipFrame := []
  q      : Nat := 32
  fading : Bool := false
  underrun : Bool := false
  overrun : Bool := false
  since  : Nat := 64
  held   : List Nat := List.replicate 32 0
  heldM  : Nat := 0
  acc    : Option Nat := none
deriving DecidableEq, Repr

/-- What a port drives in the frame it sent last (R235): whether BCLK's edges are inverted, the level of FS in each BCLK period (none of a slave,
which drives no FS), the bits of DO in the order of the BCLK periods (none: high impedance). -/
structure TdmWire where
  inv  : Bool := false
  fs   : List Bool := []
  bits : List (Option Bool) := []
deriving DecidableEq, Repr

/-- A serial port beside its registers: whether it has started or was refused, whether its next frame is the first after a
start or a missing frame, the filters of its slots, the receive mask of the frame in progress, the last captured words,
both directions, good frames in a row, whether it is out of service after a missing frame, the transmit words with whether each is new, the frame taken
for transmission with which of its words were new and the boundary it was taken for, the frame last sent with its boundary, its waveform and its last
bit, whether the captured words wait for the boundary, the instants of the last receive and transmit frame starts, and the frames whose slip decision
is still to come from the lease holder, by tick (R235 to R248). -/
structure TdmPort where
  started : Bool := false
  refused : Bool := false
  fresh   : Bool := true
  hpf     : List Hpf := List.replicate 32 {}
  rxmF    : Nat := 0
  last    : List Nat := List.replicate 32 0
  rx      : SlipDir := {}
  tx      : SlipDir := {}
  good    : Nat := 0
  out     : Bool := false
  slots   : List (Nat × Bool) := List.replicate 32 (0, false)
  frame   : List Nat := List.replicate 32 0
  taken   : Nat := 0
  sent    : List Nat := List.replicate 32 0
  new     : List Bool := List.replicate 32 false
  sentB   : Option Nat := none
  wire    : TdmWire := {}
  tail    : Option Bool := some false
  hold    : Bool := false
  rxAt    : Nat := 0
  txAt    : Nat := 0
  undec   : List (Nat × List Nat) := []
deriving DecidableEq, Repr

/-- A decimator channel beside its registers: whether it runs, its integrators, combs and clock phase, the CIC outputs and
the rank outputs, newest first, the outputs since its start, the delivered word with its marks, the word capture writes
with its marks, the run of equal bits with whether it has been noticed as stuck, and a run noticed but not yet raised, by its bit (R253 to
R262). -/
structure DecCh where
  runs   : Bool := false
  integ  : List Nat := List.replicate 5 0
  comb   : List Nat := List.replicate 5 0
  phase  : Nat := 0
  cic    : List Int := []
  hist   : List Int := []
  k      : Nat := 0
  hpf    : Hpf := {}
  word   : Nat := 0
  runB   : Bool := false
  setB   : Bool := false
  capW   : Nat := 0
  capRun : Bool := false
  capSet : Bool := false
  lastB  : Bool := false
  same   : Nat := 0
  stuck  : Bool := false
  hit    : Option Bool := none
deriving DecidableEq, Repr

/-! ## Modulators and sense lanes (R267 to R290) -/

/-- A ramp of the gain g = n / RAMPT: its first tick, the n before it, and its direction, +1 or -1 (R282).  The n before a ramp that begins in a
tick whose duties are latched already lies one step back, so that the tick after it takes the first step. -/
structure Ramp where
  t0  : Nat
  n0  : Int
  dir : Int
deriving DecidableEq, Repr

/-- What the lease holder forwards of a channel (R287): interpolator words s(d), s(d - 1), the references of the periods
two ticks ahead back to the tick before, the ramp gains (Q1.31) applied in the next, the present and the last tick, both loop
sections' states x1 x2 y1 y2, the quantiser remainder in units of 2^-31 step, the ramp, and the retry state. -/
structure ModCore where
  s0      : Int := 0
  s1      : Int := 0
  refs    : List (List Int) := List.replicate 4 [0, 0, 0, 0]
  gs      : List Int := [0, 0, 0]
  sec     : List Int := List.replicate 8 0
  rem     : Int := 0
  ramp    : Option Ramp := none
  retries : Nat := 0
  retryAt : Nat := 0
deriving DecidableEq, Repr

/-- A modulator channel: its state (0 off, 1 running, 4 latched, 5 waiting for a retry, 6 sense-muted, 7 driver off), its
core and the copy taken after the last loop computation, whether a drain word has come this tick, the high times of this
tick's and the next tick's periods, the period in progress with the parity of the tick it started in, its start in timer steps
after the boundary into that tick (R269) and whether it is limited, what the limiter forces, the pulse on the pin in steps from the
period's start (none: static low), the limited flags by tick parity with the run before period 0 of each, and the run of limited
periods. -/
structure ModCh where
  st      : Nat := 0
  core    : ModCore := {}
  kept    : ModCore := {}
  got     : Bool := false
  duty    : List Nat := [2560, 2560, 2560, 2560]
  next    : List Nat := [2560, 2560, 2560, 2560]
  latchd  : List Nat := [2560, 2560, 2560, 2560]
  per     : Nat := 0
  perPar  : Nat := 0
  beg     : Nat := 0
  limited : Bool := false
  force   : Option Bool := none
  pulse   : Option (Nat × Nat) := none
  flags   : List (List Bool) := List.replicate 2 [false, false, false, false]
  runAt   : List Nat := [0, 0]
  run     : Nat := 0
deriving DecidableEq, Repr

/-- A modulator group: whether it runs, its start boundary, whether AMP_EN is high and since when, whether it is stopping,
the boundary at which AMP_EN fell, DRVOFF, and the ramp of its channels (R282, R283). -/
structure ModGrp where
  run_  : Bool := false
  start : Nat := 0
  amp   : Bool := false
  stop  : Bool := false
  fell  : Option Nat := none
  drv   : Bool := false
  ramp  : Option Ramp := none
deriving DecidableEq, Repr

/-- The MOD block of a tick (R287): voltages, verdicts, limited flags, the channels' cores, and the group and latch state: each group, each
channel's state with its run of limited periods and its ramp. -/
structure ModBlk where
  tick  : Nat
  volts : List (List Int)
  verd  : List (List (Option Bool))
  flags : List (List Bool)
  cores : List ModCore
  grps  : List ModGrp
  sts   : List (Nat × Nat × Option Ramp)
deriving DecidableEq, Repr

/-- MOD beside its registers: groups, channels, whether the drain has delivered words (R284), the shutdown, the block
received for this tick, the reconciliation due at the next boundary, and what a unit that has just become SHADOW has still to take over of
its lease holder's state (R320): 2 the state itself, 1 the boundary at which its pins follow, 0 nothing. -/
structure Mod where
  grp   : List ModGrp := List.replicate 6 {}
  ch    : List ModCh := List.replicate 48 {}
  fed   : Bool := false
  shut  : Bool := false
  blk   : Option ModBlk := none
  recon : Option ModBlk := none
  join  : Nat := 0
deriving DecidableEq, Repr

/-- The state of a sense lane's run: LANESTAT.STATE, consecutive bad and good superframes (R276). -/
structure LaneRun where
  state : Nat := 0
  bad   : Nat := 0
  good  : Nat := 0
deriving DecidableEq, Repr

/-- A sense lane: its run, the same before superframe 0 of the last two ticks by parity, the data of the last good superframe (1,
-1, or 0 before one), the bit histories of its 16 streams newest first, the rank histories of its 8 channels, the fast
currents after the rank filter, the loop voltages and the verdicts (none: not received yet) by tick parity, and whether FE_STATUS was raised this
tick (R274 to R277). -/
structure SnsLane where
  run   : LaneRun := {}
  runAt : List LaneRun := [{}, {}]
  data  : List Int := List.replicate 128 0
  hist  : List (List Int) := List.replicate 16 []
  rank  : List (List Int) := List.replicate 8 []
  fast  : List Int := List.replicate 8 0
  volts : List (List (List Int)) := List.replicate 2 (List.replicate 8 [0, 0, 0, 0])
  verd  : List (List (Option Bool)) := List.replicate 2 (List.replicate 8 none)
  feT   : Bool := false
deriving DecidableEq, Repr

/-! ## Clocks and time (R146 to R188) -/

/-- A reference beside its registers: the TYPE and EN last in effect, its one-second offsets newest first, and the
consecutive offsets within the hard window (R154, R155). -/
structure ClkRef where
  typ  : Nat := 0
  en   : Bool := false
  offs : List Int := []
  good : Nat := 0
deriving DecidableEq, Repr

/-- The NCO and the step limiter of SYN (R149, R150): the fractional remainder in 10^-12 step, the last 24 step-clock cycles newest first (true: a
step was issued), the step-clock cycles counted in the present tick, the net steps issued since reset, the steps refused in the present tick. -/
structure Syn where
  frac    : Int := 0
  win     : List Bool := List.replicate 24 false
  done    : Nat := 0
  steps   : Int := 0
  refused : Nat := 0
deriving DecidableEq, Repr

/-- A running clock output (R165): its divider, its coarse delay in VCO periods and its fine delay in interpolator steps, all as they were when it
started, how many VCO periods after the present boundary its output period in progress ends (or, before its first, begins), and whether it stops
there. -/
structure ClkOut where
  div  : Nat
  del  : Nat
  fine : Nat
  next : Nat
  last : Bool
deriving DecidableEq, Repr

/-- CLK and SYN beside their registers: the references, the history ring newest first with the tick of each record (R161), the words since the last
record with their count, comparisons inside and outside the lock windows, the build-out still to be taken, E0 and whether 4 × Y0
applies (R162), the consecutive seconds of each disagreeing pair with whether it is flagged (R157), whether the role followed PARTNER (R159), why the
selected reference left QUALIFIED and whether a second's measurement awaits the evaluation of R156, whether a phase error is being pulled in (R163),
the loop's own frequency (R160), the MAPOFF with which the PTP virtual reference was selected (R181), the NCO, and the clock outputs. -/
structure Clk where
  refs    : List ClkRef := List.replicate 4 {}
  ring    : List (Nat × Int) := []
  sum     : Int := 0
  num     : Nat := 0
  inside  : Nat := 0
  outside : Nat := 0
  takeOff : Bool := false
  e0      : Nat := 0
  short   : Bool := false
  disag   : List (Nat × Nat × Bool) := []
  follow  : Bool := false
  why     : Nat := 0
  meas    : Bool := false
  pull    : Bool := false
  loopF   : Int := 0
  offSel  : Int := 0
  syn     : Syn := {}
  outs    : List (Option ClkOut) := List.replicate 4 none
deriving DecidableEq, Repr

/-- An entry of a transmit time-stamp queue, as its four words (R187). -/
structure TsEntry where
  w0 : Nat
  w1 : Nat
  w2 : Nat
  w3 : Nat
deriving DecidableEq, Repr

/-- TIME beside its registers: the 96-bit counter, the counter cycles counted in the present tick, whether the next map
update is a first capture, whether a step was applied for the next boundary, the MAPOFF last in effect, MAPDELTA of this
unit, the MAPDELTA and indications STRM uses (discontinuity cause, creep), the time-stamp queues and the latched entries,
and the compare units armed late (R168 to R187); STEPACC at the last capture (R181), the counter cycles since the last measurement of the PTP virtual reference, and what the
increments of those cycles come to (R152). -/
structure TimeS where
  cnt    : Nat := 0
  done   : Nat := 0
  first  : Bool := true
  step   : Bool := false
  off    : Int := 0
  delta  : Int := 0
  useD   : Int := 0
  useDisc : Nat := 0
  useCreep : Int := 0
  fwd    : Option (Nat × Int × Nat × Int) := none
  tsq    : List (List TsEntry) := [[], [], []]
  late   : Nat := 0
  acc    : Int := 0
  cyc    : Nat := 0
  adv    : Nat := 0
deriving DecidableEq, Repr

/-! ## DRAM and glean (R400 to R413) -/

/-- DDR beside its registers: reads in a row at a lower class, that class, and whether REFRESH_THIN has been raised since the last change of class
(R403, R405). -/
structure Ddr where
  below : Nat := 0
  low   : Nat := 0
  thin  : Bool := false
deriving DecidableEq, Repr

/-- GLN beside its registers: whether EN was in effect, whether a start is due, the frames taken, the bytes that have not yet filled a block, blocks
formed that await their write responses (BSEQ, bytes, first frame that begins in it), the blocks formed, whether it stops at the end of the
period, and the values written in the tick (LOC words by number, channel c of context x by 0x10000 + 64 x + c) (R407 to R410). -/
structure Gln where
  on      : Bool := false
  arm     : Bool := false
  frames  : Nat := 0
  part    : List Byte := []
  pend    : List (Nat × List Byte × Nat) := []
  next    : Nat := 0
  stopAt  : Bool := false
  vals    : List (Nat × Nat) := []
deriving DecidableEq, Repr

/-! ## Ethernet ports and streams (R189 to R234) -/

/-- An Ethernet port beside its registers: the state of its line (of the PHY's activity on the array bus), whether a frame
has been delivered to its receive ring since RX_RING_FULL was last raised (R201), the rings whose stop at the descriptor
at their head has been reported (0 to 3 transmit, 4 receive; R200), the instant the pause timer was loaded with its quanta
(R196), the collisions of the frame at the head of the ring (R206), and the uncorrectable FEC blocks of the second. -/
structure MacPort where
  line    : Bool := false
  fresh   : Bool := false
  stops   : List Nat := []
  pauseAt : Nat := 0
  pauseQ  : Nat := 0
  tries   : Nat := 0
  fecSec  : Nat := 0
deriving DecidableEq, Repr

/-- MACT's reconciliation sublayer beside its registers, in cycles since tick 0: the last BEACON received or sent, the frames
sent in the present transmit opportunity, the end of the last of them, the end of a backoff (R206), and the BEACONs sent
(R205). -/
structure ArrayBus where
  beacon  : Nat := 0
  used    : Nat := 0
  endAt   : Nat := 0
  backoff : Nat := 0
  beacons : Nat := 0
deriving DecidableEq, Repr

/-- A received packet that STRM holds: sequence number, timestamp, instant of arrival, first release tick (R218), payload,
whether a sample of it has been released, and whether it lies in the spill area. -/
structure RxPkt where
  seq  : Nat
  ts   : Nat
  arr  : Nat
  t0   : Int
  pay  : List Byte
  used : Bool := false
  spill : Bool := false
deriving DecidableEq, Repr

/-- A fade on the old anchor (R221, R223, R225): its cause, the anchor offset and the B to follow. -/
structure Fade where
  cause : Nat
  dA    : Nat
  b     : Nat
deriving DecidableEq, Repr

/-- A receive context beside its registers: in service or without capacity, held packets, the released sequence numbers
newest first with the last one from which skips count, the packet present at the cutoff, anchor offset and B in effect, gain position and held values, the fade and
the re-anchor asked for, the run of late packets with its largest lateness, the least margins of the present and the last window in cycles,
recent arrivals (sequence number, leg, instant), the last arrival on each leg or the enable, the legs marked down, the media index last
released, whether a sample has been released since enable, and the cause of NOREGION (R210 to R227). -/
structure RxCtx where
  on      : Bool := false
  nocap   : Bool := false
  pkts    : List RxPkt := []
  rel     : List Nat := []
  last    : Option Nat := none
  cut     : Option Nat := none
  dA      : Nat := 0
  b       : Nat := 24
  q       : Nat := 0
  h       : List Int := []
  fade    : Option Fade := none
  ask     : Option (Nat × Nat) := none
  lateRun : Nat := 0
  lateMax : Nat := 0
  win     : Option Nat := none
  winPrev : Option Nat := none
  arrs    : List (Nat × Nat × Nat) := []
  legT    : List Nat := [0, 0]
  legDn   : List Bool := [false, false]
  lastU   : Option Int := none
  begun   : Bool := false
  noreg   : Nat := 0
deriving DecidableEq, Repr

/-- A transmit context beside its registers: in service or without capacity, its first tick, packets formed, the media
index of the first sample of the packet being filled, its samples in order of channels within sample periods, whether its marker is due, and the marker of the packet being filled (R228 to R230). -/
structure TxCtx where
  on    : Bool := false
  nocap : Bool := false
  te    : Nat := 0
  k     : Nat := 0
  u0    : Int := 0
  words : List Nat := []
  mark  : Bool := true
  markP : Bool := false
deriving DecidableEq, Repr

/-- A formed packet for one port: context, sequence number, queue tick, the tick by whose boundary it must have started,
and the frame without its FCS (R231, R314). -/
structure TxPkt where
  ctx   : Nat
  port  : Nat
  seq   : Nat
  qt    : Nat
  limit : Nat
  frame : List Byte
deriving DecidableEq, Repr

/-- A presence frame (R306): its tick, the packets due by context and sequence number, the re-anchors that begin (context, cause,
new anchor offset), and the margin registers with ARRJ of the contexts (R226). -/
structure PresMap where
  tick    : Nat
  due     : List (Nat × Nat)
  anchors : List (Nat × Nat × Nat)
  margins : List (Nat × Nat × Nat)
deriving DecidableEq, Repr

/-- STRM beside its registers: contexts, the words drained in the tick by index, the stream queue of each port, the packets a SHADOW
holds, the acknowledgements not yet sent, the partner's map of this tick, the re-anchors that begin in this release, and the packets a
CATCHUP unit holds by context. -/
structure Strm where
  rx     : List RxCtx := List.replicate 256 {}
  tx     : List TxCtx := List.replicate 256 {}
  words  : List (Nat × Nat) := []
  queue  : List (List TxPkt) := [[], []]
  held   : List TxPkt := []
  acks   : List (Nat × Nat × Nat) := []
  peer   : Option PresMap := none
  starts : List (Nat × Nat × Nat) := []
  inbox  : List (Nat × RxPkt) := []
deriving DecidableEq, Repr

/-- A STATUS frame (R295, R308, R323, R459): tick, epoch, role, the heartbeat, the release with its cause and its next
epoch, the yielding blocks, the digests, ERRMARK, TICKADOPT, and MAPDELTA of the next tick with its discontinuity cause and creep (R180). -/
structure StatusF where
  tick    : Nat
  epoch   : Nat
  role    : Nat
  hb      : Bool
  release : Option (Nat × Nat)
  yields  : List Nat
  ds      : Nat
  dt      : Nat
  errmark : Bool
  adopt   : Bool
  mapD    : Int
  disc    : Nat
  creep   : Int
deriving DecidableEq, Repr

/-- A DATA command as it is mirrored (R307): slot, counter, target tick, whether it is immediate, and what it does. -/
structure MirCmd where
  slot : Nat
  ctr  : Nat
  tgt  : Nat
  imm  : Bool
  act  : AgAct
deriving DecidableEq, Repr

/-- The block state of the image (R316): agenda, counter records by slot, held group writes, write pointers with the armed plans and
the hold buffer, the loader's record with its registers, streams, serial-port state, and the active bank. -/
structure BlockState where
  agenda : List AgEntry
  held   : List HeldWr
  slots  : List (Nat × Nat)
  eng    : Eng
  ldr    : Ldr
  regs   : List (Nat × Word)
  wide   : List (Nat × BitVec 64)
  strm   : Strm
  tdm    : List TdmPort
  bank   : Nat
deriving DecidableEq, Repr

/-- A tick record of the replay ring (R318): forwarded words and decisions, map values, anchor changes, digests with ERRMARK, the agreed
packets that become due in the tick. -/
structure TickRec where
  tick    : Nat
  words   : List (Nat × Nat) := []
  decs    : List (Nat × Nat × Nat) := []
  map     : Option (Int × Nat × Int) := none
  anchors : List (Nat × Nat × Nat) := []
  digest  : Option (Nat × Nat × Bool) := none
  pkts    : List (Nat × RxPkt) := []
deriving DecidableEq, Repr

/-- A record of the replay ring; a mirrored command's with its size. -/
inductive RingRec where
  | tick (r : TickRec)
  | cmd (m : MirCmd) (size : Nat)
deriving DecidableEq, Repr

/-- A region being copied (R317): its place, the frame after its write pointer at T, the bytes of the present frame sent, frames
left behind, and the frames that displacement has sent. -/
structure CopyReg where
  key   : Nat
  base  : Nat
  depth : Nat
  ch    : Nat
  first : Nat
  idx   : Nat
  off   : Nat
  gone  : List Nat
deriving DecidableEq, Repr

/-- Memory: bytes by address of the internal address map (R391), addresses rising, none equal to what an unlisted
address reads as (0). -/
abbrev Memory := List Host.Cell

/-- A resynchronisation (R315 to R321).  In the lease holder: whether a command asked for one, the tick of the next attempt, the frozen
image and block state, the bytes of the image sent, the regions still to copy, the record sizes counted with the packet bytes of the present tick.
In the partner: whether the whole copy is held, the image bytes and the delay bytes received, the block state, the replay ring with its occupancy, and the stretch of consecutive clean ticks. -/
structure Resync where
  asked  : Bool := false
  retry  : Nat := 0
  snap   : Memory := []
  blk    : Option BlockState := none
  sent   : Nat := 0
  copy   : List CopyReg := []
  recs   : List (Nat × Nat) := []
  recNow : Nat := 0
  held   : Bool := false
  imgRx  : Nat := 0
  delRx  : Nat := 0
  ring   : List RingRec := []
  used   : Nat := 0
deriving DecidableEq, Repr

/-- The digests of a tick with the ERRMARK of its STATUS (R308, R309), and whether a force corrupted them (R366). -/
structure DigRec where
  tick : Nat
  ds   : Nat
  dt   : Nat
  err  : Bool
  forced : Bool := false
deriving DecidableEq, Repr

/-- What a unit sends its partner on the mirror, by TYPE (R458); a retransmission request names the first of the frames asked for and
their number. -/
inductive MirMsg where
  | status (f : StatusF)
  | locals (dest : Nat) (words : List (Nat × Nat)) (decs : List (Nat × Nat × Nat))
  | presence (p : PresMap)
  | packet (tick ctx seq ts : Nat) (pay : List Byte)
  | modBlock (b : ModBlk)
  | command (m : MirCmd)
  | confirm (slot ctr reason role : Nat)
  | cancel (slot ctr : Nat)
  | sentAck (acks : List (Nat × Nat × Nat))
  | retrans (seq count : Nat)
  | sheafCopy (off : Nat) (bytes : List Byte) (load : Option (Nat × Nat))
  | resync (kind tick : Nat)
  | image (off : Nat) (bytes : List Byte)
  | imageState (b : BlockState)
  | delay (parts : List (Nat × List Byte))
  | displaced (addr : Nat) (bytes : List Byte)
  | identity (sysid dram : Nat)
deriving DecidableEq, Repr

/-- A mirror frame that has left (R322): whether FLAGS marks it as sent again, SEQ, LEN, the tick, and its payload, which names its TYPE; a
message of more than 4,096 bytes stands as one, under the SEQ of its first frame. -/
structure MirFrame where
  again : Bool
  seq   : Nat
  len   : Nat
  tick  : Nat
  msg   : MirMsg
deriving DecidableEq, Repr

/-- What is known of a mirror frame that arrives, beside its TYPE and payload (R322): the cycle, SEQ, and bit 0 of FLAGS. -/
structure MirHdr where
  c     : Nat
  seq   : Nat
  again : Bool := false
deriving DecidableEq, Repr

/-- PAIR and MIR beside their registers: the last STATUS received and the tick it came in, whether the STATUS of the last tick came by its
deadline, the tick of the last heartbeat, the
release received (tick, next epoch, cause), the release sent that is still to be settled, the release to be sent next by cause, the role to be taken at
the next boundary (5: standalone; 6, 7 and 8 the commands PAIR_ENABLE and TAKE) with whether it leaves by a release (R298), the tick from which OWN_OUT is driven high again after a joint yield (R301), the end of the pins' SHADOW behaviour, the tick of
the last renewal, whether the partner's lease has lapsed, whether the bridge ends at the next boundary, a takeover's cause still to be settled, the tick number to adopt, both units' digests, the ticks of CHECK_ONLY, missing comparisons in a row, ticks in a
row with the MOD block missing or different, forwarded words buffered by destination, the destination and words landed, the partner's identity, the
resynchronisation, the SEQ of the next mirror frame sent and of the next one expected, the real-time bytes sent and asked for in the tick with
whether its local inputs are counted, the messages that wait for the next tick's cap, the tick of the last marker sent (R322, R323). -/
structure Pair where
  peer    : Option StatusF := none
  peerAt  : Nat := 0
  inTime  : Bool := false
  lastHb  : Option Nat := none
  relRx   : Option (Nat × Nat × Nat) := none
  ownRel  : Option Nat := none
  askRel  : Option Nat := none
  ownYield : Bool := false
  toRole  : Option (Nat × Bool) := none
  ownHigh : Option Nat := none
  pinsUntil : Nat := 0
  renew   : Nat := 0
  lapsed  : Bool := false
  bridgeEnd : Bool := false
  joint   : Bool := false
  adopt   : Option Nat := none
  digs    : List DigRec := []
  peerDigs : List DigRec := []
  checks  : List Nat := []
  miss    : Nat := 0
  modRun  : Nat := 0
  fwdBuf  : List (Nat × List (Nat × Nat)) := []
  landT   : Nat := 0
  landed  : List Nat := []
  ident   : Option (Nat × Nat) := none
  rs      : Resync := {}
  seq     : Nat := 0
  rxSeq   : Option Nat := none
  rtSent  : Nat := 0
  rtAsked : Nat := 0
  rtLoc   : Bool := false
  queued  : List MirMsg := []
  marker  : Option Nat := none
deriving DecidableEq, Repr

/-! ## Commands and keys (R327 to R349) -/

/-- A key slot's contents (R341, R342). -/
structure KeySlot where
  key  : Nat
  priv : Nat
  gen  : Nat
deriving DecidableEq, Repr

/-- Where a command over UDP came from: hardware address, IPv4 address, port; and the IPv4 address it was sent to. -/
structure UdpFrom where
  mac  : Nat
  ip   : Nat
  port : Nat
  dst  : Nat := 0
deriving DecidableEq, Repr

/-- A command as a source delivers it: source (0, 1 the rings, 2 UDP), its bytes, where a datagram came from, its place in the order in
which CMD took commands, and the key it was verified under. -/
structure CmdIn where
  src   : Nat
  bytes : List Byte
  from_ : Option UdpFrom
  num   : Nat := 0
  key   : Nat := 0
deriving DecidableEq, Repr

/-- The answer owed to a command: its place in the order of taking, its source, where a datagram came from, and the reply once it is made
(replies leave each source in the order of acceptance, R335). -/
structure Answer where
  num   : Nat
  src   : Nat
  from_ : Option UdpFrom
  reply : Option (List Byte)
deriving DecidableEq, Repr

/-- An immediate command that waits for its boundary: target tick, slot, counter, its writes, the command to answer (none in the partner), and
whether the partner's CONFIRM is still awaited (R330, R337). -/
structure ImmCmd where
  tgt    : Nat
  slot   : Nat
  ctr    : Nat
  writes : List RegWr
  cmd    : Option CmdIn
  wait   : Bool
deriving DecidableEq, Repr

/-- An agenda command that awaits the partner's CONFIRM: slot, counter, target, the instant it was mirrored, the command (R337),
and whether its target was assigned as ASAP (R330). -/
structure Await where
  slot : Nat
  ctr  : Nat
  tgt  : Nat
  at_  : Nat
  cmd  : CmdIn
  asap : Bool := false
deriving DecidableEq, Repr

/-- CMD and KEY beside their registers: commands waiting by order of arrival, the source whose turn is next, the commands taken and the
answers owed, immediate commands, commands awaiting CONFIRM, the slots, a fuse operation in progress, HELLO commands answered in the present second by source, sources whose full
reply ring has been raised, the resets whose nonce is still to be drawn (0 cold, 1 warm, 2 control plane), the counter records before a mirrored entry (R337), which TRNG tests fail now, and the
replies over UDP that wait for a pause of the management port to end (R327). -/
structure Cmd where
  wait  : List CmdIn := []
  turn  : Nat := 0
  taken : Nat := 0
  owed  : List Answer := []
  imm   : List ImmCmd := []
  await : List Await := []
  slots : List (Option KeySlot) := List.replicate 8 none
  fuse  : Bool := false
  hello : List Nat := [0, 0, 0]
  full  : List Nat := []
  draw  : List Nat := []
  prev  : List (Nat × Nat × Nat × Nat) := []
  fails : Nat := 0
  frames : List (List Byte) := []
deriving DecidableEq, Repr

/-- The boot sequencer beside its registers: the bytes of a PCIe image received, and whether the boot sheaf is swapped in when it is READY
(R425 to R428). -/
structure Boot where
  image    : List Byte := []
  autoswap : Bool := false
deriving DecidableEq, Repr

/-- What the device has sent, in order: serial-port frames by port (a high-impedance slot is none), Ethernet
frames by port with their FCS, MDIO frames as the MDIOCMD word that started each, mirror frames, replies by source with the place a datagram
came from. -/
structure Outs where
  tdm : List (Nat × List (Option Nat)) := []
  eth : List (Nat × List Byte) := []
  mdio : List Nat := []
  mir : List MirFrame := []
  replies : List (Nat × Option UdpFrom × List Byte) := []
deriving DecidableEq, Repr

/-! ## The device -/

/-- What an unlisted address reads as (DESIGN CHOICE, log entry 2: the spec gives no contents after power-on). -/
def Memory.blank : Byte := 0

/-- The canonical form of memory: addresses strictly rising, no blank byte listed. -/
def Memory.wf : Memory → Bool
  | [] => true
  | [(_, b)] => b != Memory.blank
  | (a, b) :: (a', b') :: t => b != Memory.blank && decide (a < a') && Memory.wf ((a', b') :: t)

/-- The device beside its memories and its fuses: the tick and its cycle; registers by value last written, by value in use where that
differs, 64-bit ones, latched words, the data of register reads; changes that wait; the blocks; the ticks at which a plane reset ends, whether
RESET_N holds the device in reset; the tick being replayed, the saturated decimator channels of the boundary (R266), the divider of each MCLK output that runs (R249), the outputs that have been enabled since the
last reset or switch-on of their domain (R422), the spare check-value units attached (R356), and the partner's slip decisions by the
tick they are destined for, port, pushes and gain position (R248). -/
structure Dev where
  tick    : Nat := 0
  cycle   : Nat := 0
  regs    : List (Nat × Word) := []
  live    : List (Nat × Word) := []
  wide    : List (Nat × BitVec 64) := []
  latch   : List (Nat × Word) := []
  rdata   : List Nat := []
  pendTick : List PendWr := []
  frameWr : List FrameWr := []
  capGrp  : List (Nat × Nat) := []
  held    : List HeldWr := []
  agenda  : List AgEntry := []
  flt     : List FltState := List.replicate 31 {}
  evt     : Evt := {}
  bbx     : Bbx := {}
  thm     : Thm := {}
  ctrlRst : Option Nat := none
  mgmtRst : Option Nat := none
  inReset : Bool := false
  eng     : Eng := {}
  ldr     : Ldr := {}
  pcie    : Pcie := {}
  testMode : Bool := false
  cvuSeen : Nat := 0
  tdm     : List TdmPort := List.replicate 8 {}
  dec     : List DecCh := List.replicate 32 {}
  pdmOn   : Nat := 0
  clipM   : Nat := 0
  mclk    : List (Option Nat) := [none, none]
  mod     : Mod := {}
  sns     : List SnsLane := List.replicate 6 {}
  snsOn   : Bool := false
  clk     : Clk := {}
  time    : TimeS := {}
  mac     : List MacPort := List.replicate 4 {}
  bus     : ArrayBus := {}
  mdioRd  : Bool := false
  strm    : Strm := {}
  ddr     : Ddr := {}
  gln     : Gln := {}
  outsZ   : Bool := false
  begun   : Nat := 0
  cvuOn   : Nat := 0
  free    : Nat := 0
  pair    : Pair := {}
  cmd     : Cmd := {}
  boot    : Boot := {}
  replayT : Option Nat := none
  peerDec : List (Nat × Nat × Nat × Nat) := []
  out     : Outs := {}
deriving DecidableEq, Repr

/-! ## Roles -/

/-- Pair role codes of PAIR.STAT.ROLE. -/
inductive Role where
  | active
  | shadow
  | catchup
  | fallow
  | isolated
deriving DecidableEq, Repr

/-- The role a code names. -/
def roleOf : Nat → Role
  | 0 => .active
  | 1 => .shadow
  | 2 => .catchup
  | 3 => .fallow
  | _ => .isolated

/-- The code of a role. -/
def Role.code : Role → Nat
  | .active => 0
  | .shadow => 1
  | .catchup => 2
  | .fallow => 3
  | .isolated => 4

/-! ## The system: the device, its memory and its fuses -/

/-- The one-time-programmable fuses (R341 to R346): the root key, the key floors, the signing-key hashes with their
valid and revoked bits, and the PCIe subsystem identifiers. -/
structure Otp where
  root    : Nat := 0
  rootV   : Bool := false
  floors  : List Nat := List.replicate 8 0
  shash   : List Nat := List.replicate 4 0
  svalid  : Nat := 0
  srev    : Nat := 0
  bhash   : List Nat := List.replicate 4 0
  bvalid  : Nat := 0
  brev    : Nat := 0

  ssid    : Nat := 0
deriving DecidableEq, Repr

/-- Everything but the queue of waiting commands. -/
structure Sys where
  dev : Dev := {}
  mem : Memory := []
  otp : Otp := {}
deriving DecidableEq, Repr

end Sys2Proof.Machine
end

