-- ==== Sys2Proof/Syntax.lean ====
section
/-!
DEFINITION. The commands: one constructor of `Instr` per row of the table of operations and events, and the structures
of their operands.
-/
namespace Sys2Proof

/-! ## Operands of the Tilth operations (R73 to R98) -/

/-- Where a Tilth operation issues: lane (0 to 47) and issue index within the tick (R73, R75). -/
structure Issue where
  lane : Nat
  k    : Nat
deriving DecidableEq, Repr

/-- The slots of a bundle (R73). -/
inductive Slot where
  | l
  | m
  | n
  | x
deriving DecidableEq, Repr

/-- One access of an LDX: enable, destination pair, region (S only), pointer, modifier (R86). -/
structure LdxAcc where
  en  : Bool := false
  pr  : Nat := 0
  reg : Nat := 0
  ptr : Nat := 0
  md  : Nat := 0
deriving DecidableEq, Repr

/-- The fields of LD and ST (R88). -/
structure LdSt where
  wide : Bool
  d    : Nat
  bus  : Nat
  reg  : Nat
  p    : Nat
  mode : Nat
  imm  : Nat
deriving DecidableEq, Repr

/-- The MAC format (R94). -/
structure MacF where
  ap   : Nat
  xp   : Nat
  yp   : Nat
  form : Nat
  en   : Nat
deriving DecidableEq, Repr

/-! ## Operands of the other commands -/

/-- The frame of a command (R329): its source (0 and 1 the rings, 2 UDP), key slot, counter, target tick, request tag, authentication tag, where a
datagram came from, and the cycle at which it has arrived whole. -/
structure CmdFrame where
  src    : Nat
  slot   : Nat
  ctr    : Nat
  tgt    : Nat
  reqtag : Nat
  tag    : Nat
  from_  : Option Machine.UdpFrom
  c      : Nat
deriving DecidableEq, Repr

/-- How a register is written: by a command for the next boundary, or directly by the host at cycle `c` (R31, R347). -/
structure RegVia where
  cmd : Bool
  c   : Nat
deriving DecidableEq, Repr

/-- A memory under SECDED ECC (R65). -/
inductive EccMem where
  | coef
  | state
  | instr
  | sample
deriving DecidableEq, Repr

/-- The way a request comes: at an internal address, or through a BAR at an offset in it. -/
inductive BusVia where
  | internal
  | bar0
  | bar2
  | bar4
deriving DecidableEq, Repr

/-- A request (R386, R396, R398): its master, its way, address or offset, write or read, the bytes with their enables (a read's data are
ignored), the error that its DRAM read meets (0 none, 1 corrected, 2 uncorrectable, 3 corrected on the link of a channel), whether it is
poisoned or of a type the function does not support, the correctable error (an AER status bit mask) met in receiving it; the other masters that
request the same target at the time and the one it granted last. -/
structure BusReq where
  master : Nat
  via    : BusVia
  addr   : Nat
  write  : Bool
  bytes  : List (Option Byte)
  ecc    : Nat := 0
  poison : Bool := false
  unsup  : Bool := false
  corr   : Nat := 0
  rivals : List Nat := []
  last   : Nat := 0
deriving DecidableEq, Repr

/-- What the partner answered in a paired load (R120): nothing yet, its checks passed with a hash, or a cause of R117. -/
inductive PeerAns where
  | none
  | ready (hash : Nat)
  | fail (cause : Nat)
deriving DecidableEq, Repr

/-- What comes in from outside at a boundary: the bits the PDM pins delivered in the tick that ends, the time counter's cycles in it, the filtered
levels of HOLD_IN and PARTNER_OWN_IN, the FEC blocks corrected and uncorrectable by port, the round trip of the mirror link in ps where it was
measured (R304). -/
structure TickIn where
  pdm  : List (Nat × Nat)
  time : Nat
  hold : Bool
  own  : Bool
  fec  : List (Nat × Nat × Nat)
  rtt  : Option Nat := none
deriving DecidableEq, Repr

/-! ## The commands -/

/-- A command or an event of the table, in its order; each constructor's row is named by the same words. `c` is the cycle of the tick at which an event
with no fixed cycle occurs. -/
inductive Instr where
  /-- TICK_BOUNDARY (R15): The tick count wraps from cycle 10,239 to cycle 0 of the next tick, and every change captured for this boundary goes live. -/
  | tickBoundary (i : TickIn)
  /-- CAPTURE_POINT (R17): At cycle 9,984 the program window closes, the overrun check is made and TICK-class writes, commit strobes and agenda entries are captured for the next boundary. -/
  | capturePoint
  /-- AGENDA_APPLY (R17): At cycle 10,048, captured commit groups are copied, then agenda entries for the next tick are applied in acceptance order. -/
  | agendaApply
  /-- HALF_ROTATE (R17): At cycle 10,176 the sample-memory halves rotate, staging and drain descriptors are armed and every program counter is set to bundle 0. -/
  | halfRotate (late : Nat)
  /-- IMMEDIATE_EXECUTE (R330): An immediate command executes at the earliest open boundary, with its STOP check, and is acknowledged there. -/
  | immediateExecute
  /-- HELLO (R457): The unit answers with its nonce, identity, role, epoch, tick and per-slot counter records. -/
  | hello (f : CmdFrame)
  /-- READ (R338): The command returns 1 to 256 register words from a given offset. -/
  | read (f : CmdFrame) (off n : Nat)
  /-- WRITE (R339): The command places masked register writes on the agenda or executes them immediately. -/
  | write (f : CmdFrame) (ws : List Machine.RegWr)
  /-- STORE_WRITE (R340): The command writes data into the sheaf store at a byte offset. -/
  | storeWrite (f : CmdFrame) (off : Nat) (data : List Byte)
  /-- LOAD (R116): The command starts verification and loading of a sheaf image from the sheaf store. -/
  | load (f : CmdFrame) (off len : Nat)
  /-- ABORT (R121): The command ends a load in progress or discards a READY pending sheaf according to LOAD state. -/
  | abort (f : CmdFrame)
  /-- SWAP (R122): The command places a swap to the pending sheaf on the agenda for an even target tick. -/
  | swap (f : CmdFrame)
  /-- CELL (R126): The command places a parameter-cell write on the agenda after resolving its key. -/
  | cell (f : CmdFrame) (key : Nat) (val : List Byte)
  /-- STEP (R172): The command places a signed nanosecond step of the time counter on the agenda. -/
  | step (f : CmdFrame) (ofs : Int)
  /-- BBX_TRIGGER (R375): The command triggers the black box with a TRIGGER record. -/
  | bbxTrigger (f : CmdFrame) (reason : Nat)
  /-- KEY_LOAD (R342): The command unwraps a key blob under the root key and installs it in a slot. -/
  | keyLoad (f : CmdFrame) (blob : List Byte)
  /-- KEY_RETIRE (R344): The command empties a key slot and optionally burns fuses to raise its floor. -/
  | keyRetire (f : CmdFrame) (k perm : Nat)
  /-- SIGN_REVOKE (R346): The command burns the revocation fuse of a sheaf or boot signing-key hash. -/
  | signRevoke (f : CmdFrame) (kind idx : Nat) (first : List Byte)
  /-- PAIR_ENABLE (R302): The command enables pair mode as LEAD (ACTIVE) or FOLLOW (FALLOW). -/
  | pairEnable (f : CmdFrame) (arg : Nat)
  /-- PAIR_DISABLE (R302): The command returns an ISOLATED unit to standalone. -/
  | pairDisable (f : CmdFrame)
  /-- TAKE (R302): The command makes a FALLOW unit ACTIVE when the lease has lapsed and HOLD_IN is inactive. -/
  | take (f : CmdFrame)
  /-- HANDOVER (R302): The command releases the lease to a SHADOW partner without a fault. -/
  | handover (f : CmdFrame)
  /-- ISOLATE (R302): The command moves a non-holding unit to ISOLATED. -/
  | isolate (f : CmdFrame)
  /-- REJOIN (R302): The command moves an ISOLATED unit to FALLOW. -/
  | rejoin (f : CmdFrame)
  /-- RESYNC (R315): The command asks the lease holder to resynchronise a FALLOW partner. -/
  | resync (f : CmdFrame)
  /-- CTRL_PLANE_RESET (R28): A write of PWR.RST.CTRL resets the control plane for 8 ticks, discarding unacknowledged commands and drawing a new nonce. -/
  | ctrlPlaneReset (c : Nat)
  /-- MGMT_PLANE_RESET (R29): A write of PWR.RST.MGMT resets the management plane for 8 ticks, stopping heartbeats and host-ring writing. -/
  | mgmtPlaneReset (c : Nat)
  /-- COMMIT_STROBE (R37): A write of COMMIT.GO sets a group's pending bit for capture, or is ignored if already pending. -/
  | commitStrobe (v : RegVia) (blk groups : Nat)
  /-- REGISTER_WRITE (R31): A direct or commanded write to a register without a row of its own is applied under its class or refused. -/
  | registerWrite (v : RegVia) (off mask data : Nat)
  /-- FAULT_STATUS_CLEAR (R358): A W1C of a FLTSTAT bit clears it and empties FLTFIRST if that source was first. -/
  | faultStatusClear (v : RegVia) (blk mask : Nat)
  /-- COUNTER_READ (R6): A low-word read of a 64-bit counter returns it, latches the high word and clears the counter. -/
  | counterRead (off c : Nat)
  /-- HIGH_WATER_READ (R456): A read of a highest-value RC field returns it and restarts it from the present level or from zero. -/
  | highWaterRead (off c : Nat)
  /-- LATCHING_READ (R11): A low-word read of a multi-word status value latches its high word and companions from the same instant. -/
  | latchingRead (off c : Nat)
  /-- TSQ_READ (R187): A read of word 0 of a transmit time-stamp queue moves its oldest entry into the latch. -/
  | tsqRead (p c : Nat)
  /-- RING_TAIL_WRITE (R200): A host write of a ring's TAIL hands descriptors with OWN set to the device. -/
  | ringTailWrite (off idx c : Nat)
  /-- FORCE_LANE_PARITY (R366): ENG.FORCE.PAR injects one parity error in the lowest lane of a cluster at the next running tick. -/
  | forceLaneParity (v : RegVia) (par : Nat)
  /-- FORCE_REF_LOS (R366): CLK.FORCE.LOS holds a reference in LOS while set. -/
  | forceRefLos (v : RegVia) (los : Nat)
  /-- FORCE_HB_SUPPRESS (R366): PAIR.FORCE.HBSUP suppresses sent heartbeats while set. -/
  | forceHbSuppress (v : RegVia) (on : Bool)
  /-- FORCE_DIGEST (R366): PAIR.FORCE.DIG corrupts the next sent DS, DT or both digests. -/
  | forceDigest (v : RegVia) (dig : Nat)
  /-- FORCE_MOD_OVERCURRENT (R279): MOD.FORCE sets a channel's fast current beyond ILIM in every superframe while set. -/
  | forceModOvercurrent (v : RegVia) (oc : Nat)
  /-- MOD_CLEAR (R280): MOD.CLEAR restarts a latched channel and zeroes its retry count. -/
  | modClear (v : RegVia) (ch : Nat)
  /-- FORCE_SNS_CRC (R366): SNS.FORCE makes a lane's next superframes fail their CRC. -/
  | forceSnsCrc (v : RegVia) (crc : Nat)
  /-- FORCE_DRAM_ERROR (R406): DDR.FORCE.ARM makes the named master's next 64-byte read uncorrectable. -/
  | forceDramError (v : RegVia) (master : Nat)
  /-- FORCE_LINK_DOWN (R203): MAC FORCE.LINKDOWN holds an audio port's transmitter idle and treats its link as down. -/
  | forceLinkDown (v : RegVia) (p : Nat) (on : Bool)
  /-- FAULT_CLEAR (R365): BBX.FAULT.CLR clears FAULT_N at its target boundary unless a yield, clock loss or thermal yield holds it. -/
  | faultClear (v : RegVia)
  /-- BBX_REARM (R377): BBX.CTRL.REARM clears FROZEN and the trigger fields and resumes writing the ring. -/
  | bbxRearm (v : RegVia)
  /-- WDOG_KICK (R379): A write of BBX.WDKICK restarts the watchdog. -/
  | wdogKick (v : RegVia)
  /-- VECTOR_RESEND (R380): EVT.RESEND sends the named MSI-X vectors again if their lines are still asserted. -/
  | vectorResend (v : RegVia) (vec : Nat)
  /-- READBACK_GO (R409): GLN.RBCTL.GO starts a readback that recomputes glean block CRCs. -/
  | readbackGo (v : RegVia) (count : Nat)
  /-- MDIO_GO (R190): MDIOCMD.GO starts one Clause 22 or Clause 45 MDIO transaction. -/
  | mdioGo (v : RegVia) (word : Nat)
  /-- SLEEP (R416): PWR.SLEEP.EN stops the engine and ports, puts DRAM in self-refresh and switches off all but AO. -/
  | sleep (v : RegVia)
  /-- THERM_CLEAR (R430): PWR.THERM.CLR clears the thermal shutdown latch if TJ is below 150 °C and restarts enabled groups and clocks. -/
  | thermClear (v : RegVia)
  /-- DOMAIN_SWITCH (R415): PWR.DOMCTL switches a permitted power domain on or off at its target boundary, or refuses the switch-off. -/
  | domainSwitch (v : RegVia) (on : Nat)
  /-- STEPACC_CLEAR (R181): A commanded write of TIME.STEPACC clears it and reselects the PTP virtual reference in its return mode. -/
  | stepaccClear (v : RegVia)
  /-- TIME_INC_WRITE (R170): A write of TIME.INC sets the counter increment fraction, clamped to ±200 ppm. -/
  | timeIncWrite (v : RegVia) (frac : Nat)
  /-- COMPARE_ARM (R175): A write of CMPCFG.EN arms a time compare unit. -/
  | compareArm (v : RegVia) (k period : Nat)
  /-- LOCKNC_SET (R347): Setting CMD.POLICY.LOCKNC makes every direct data-plane write refused as critical until reset. -/
  | lockncSet (v : RegVia)
  /-- BOOT_DATA_WRITE (R428): A write of SYS.BOOTDATA appends one word of a PCIe boot image, and the last word starts checking. -/
  | bootDataWrite (word : Nat) (train : Bool) (c : Nat)
  /-- D_STATE_CHANGE (R397): A configuration write moves the PCIe function between D0 and D3hot. -/
  | dStateChange (ds : Nat) (pmeEn clear : Bool) (c : Nat)
  /-- FUNCTION_LEVEL_RESET (R398): A Function Level Reset resets PCIE configuration space and the command and reply ring registers. -/
  | functionLevelReset (c : Nat)
  /-- LDX (R86): The stream load makes up to one S-bus read, one C-bus read and one T-bus access with post-modify. -/
  | ldx (i : Issue) (sa ca ta : LdxAcc) (tdir : Bool)
  /-- LD (R88): Loads one word or pair from S, C or T with the selected addressing mode. -/
  | ld (i : Issue) (f : LdSt)
  /-- ST (R88): Stores one word or pair to S or T memory in the issue cycle. -/
  | st (i : Issue) (f : LdSt)
  /-- PSET (R87): Sets a P register to an immediate. -/
  | pset (i : Issue) (p imm : Nat)
  /-- PADD (R87): Adds an immediate to a P register modulo 2^16. -/
  | padd (i : Issue) (p imm : Nat)
  /-- MSETL (R87): Sets the low half of an M register. -/
  | msetl (i : Issue) (m imm : Nat)
  /-- MSETH (R87): Sets the high half of an M register. -/
  | mseth (i : Issue) (m imm : Nat)
  /-- REP (R91): Repeats the following len bundles count times from the repeat cache. -/
  | rep (i : Issue) (count len : Nat)
  /-- EOT (R92): Ends the lane's program for the tick and fixes its end cycle. -/
  | eot (i : Issue)
  /-- NOP (R74): A slot of opcode 0 does nothing. -/
  | nop (i : Issue) (s : Slot)
  /-- MAC (R93): Adds the selected products to the enabled accumulators. -/
  | mac (i : Issue) (s : Slot) (f : MacF)
  /-- MSU (R93): Subtracts the selected products from the enabled accumulators. -/
  | msu (i : Issue) (s : Slot) (f : MacF)
  /-- MPY (R93): Sets the enabled accumulators to the selected products. -/
  | mpy (i : Issue) (s : Slot) (f : MacF)
  /-- MPYN (R93): Sets the enabled accumulators to the negated products. -/
  | mpyn (i : Issue) (s : Slot) (f : MacF)
  /-- ACLR (R93): Clears the accumulators named in the mask. -/
  | aclr (i : Issue) (s : Slot) (mask : Nat)
  /-- AADD (R93): Adds or subtracts one accumulator into another. -/
  | aadd (i : Issue) (s : Slot) (a b : Nat) (sub : Bool)
  /-- ALD (R93): Loads a shifted D register value into an accumulator. -/
  | ald (i : Issue) (s : Slot) (a d sh : Nat)
  /-- EXT (R84): Converts an accumulator to a D value with shift, round half up and optional saturation. -/
  | ext (i : Issue) (s : Slot) (a d sh : Nat) (sat : Bool)
  /-- ADD (R97): Adds two D registers, saturated or wrapped. -/
  | add (i : Issue) (d s t : Nat) (sat : Bool)
  /-- SUB (R97): Subtracts two D registers, saturated or wrapped. -/
  | sub (i : Issue) (d s t : Nat) (sat : Bool)
  /-- NEG (R97): Negates a D register. -/
  | neg (i : Issue) (d s : Nat) (sat : Bool)
  /-- ABS (R97): Takes the absolute value of a D register. -/
  | abs (i : Issue) (d s : Nat) (sat : Bool)
  /-- AND (R96): Bitwise AND of two D registers. -/
  | and (i : Issue) (d s t : Nat)
  /-- OR (R96): Bitwise OR of two D registers. -/
  | or (i : Issue) (d s t : Nat)
  /-- XOR (R96): Bitwise XOR of two D registers. -/
  | xor (i : Issue) (d s t : Nat)
  /-- MOV (R96): Copies one D register to another. -/
  | mov (i : Issue) (d s : Nat)
  /-- MOVIL (R96): Loads a sign-extended 14-bit immediate. -/
  | movil (i : Issue) (d imm : Nat)
  /-- MOVIH (R96): Loads a 14-bit immediate shifted left by 18. -/
  | movih (i : Issue) (d imm : Nat)
  /-- SHL (R97): Shifts left by n, saturated or wrapped. -/
  | shl (i : Issue) (d s n : Nat) (sat : Bool)
  /-- SHR (R96): Arithmetic shift right by n. -/
  | shr (i : Issue) (d s n : Nat)
  /-- SHRL (R96): Logical shift right by n. -/
  | shrl (i : Issue) (d s n : Nat)
  /-- SHE (R97): Shifts by the signed count held in a D register. -/
  | she (i : Issue) (d s t : Nat) (sat : Bool)
  /-- NORM (R97): Normalises a value by its redundant sign bits. -/
  | norm (i : Issue) (d s : Nat)
  /-- EXPO (R97): Counts the redundant sign bits of a value. -/
  | expo (i : Issue) (d s : Nat)
  /-- RND (R97): Rounds a value to a multiple of 2^k. -/
  | rnd (i : Issue) (d s k : Nat) (sat : Bool)
  /-- MIN (R96): Takes the smaller of two D registers. -/
  | min (i : Issue) (d s t : Nat)
  /-- MAX (R96): Takes the larger of two D registers. -/
  | max (i : Issue) (d s t : Nat)
  /-- CLAMP (R97): Clamps a value between a pair of bounds. -/
  | clamp (i : Issue) (d s p : Nat)
  /-- SEL (R97): Selects one of two registers by a condition on a third. -/
  | sel (i : Issue) (d s t c cond : Nat)
  /-- GSTEP (R100): Steps a gain cell towards its target on a zero crossing or timeout. -/
  | gstep (i : Issue) (gp cp s : Nat)
  /-- STX (R98): Stores a D pair to state memory with optional pointer modify. -/
  | stx (i : Issue) (q p m : Nat) (u : Bool)
  /-- ECC_SCRUB (R65): The scrubber reads a memory word when its port is idle and corrects a single-bit error. -/
  | eccScrub (m : EccMem) (lane word : Nat) (dbl : Bool) (c : Nat)
  /-- LOAD_COMPLETE (R117): A sheaf load finishes its checks and reaches READY or REFUSED with a reason. -/
  | loadComplete (ecc : Option Nat) (peer : PeerAns) (c : Nat)
  /-- STATUS_SEND (R295): At cycle 10,048 each paired unit sends its STATUS frame with heartbeat, epoch, yields, digests and map values. -/
  | statusSend
  /-- STATUS_RECEIVE (R296): A STATUS frame from the partner is taken for heartbeat, release, yield, epoch and digest use. -/
  | statusReceive (f : Machine.StatusF) (h : Machine.MirHdr)
  /-- TICK_ADOPT (R304): A FALLOW unit locked to PARTNER adopts the partner's tick number at the next boundary. -/
  | tickAdopt (c : Nat)
  /-- LEASE_KEEPER_EXPIRE (R29): The AO lease keeper deasserts HOLD_OUT and OWN_OUT after 3 ticks without a renewal. -/
  | leaseKeeperExpire (c : Nat)
  /-- LEASE_LAPSE (R296): Three ticks without a valid heartbeat end the partner's lease at the boundary into N + 4. -/
  | leaseLapse
  /-- TAKEOVER (R297): At cycle 256 a SHADOW takes an ended lease if HOLD_IN stayed inactive, or goes FALLOW if it did not. -/
  | takeover (hold : Bool)
  /-- BRIDGE (R299): Unit A drives OWN_OUT when HOLD_IN and PARTNER_OWN_IN have been inactive for 64 cycles without a release. -/
  | bridge (c : Nat)
  /-- BRIDGE_END (R299): The bridge ends when A takes the lease or HOLD_IN is active again with heartbeats. -/
  | bridgeEnd (c : Nat)
  /-- LOCAL_INPUT_RECEIVE (R305): A partner buffers forwarded local inputs and writes them into the forward landing half. -/
  | localInputReceive (dest : Nat) (words : List (Nat × Nat)) (decs : List (Nat × Nat × Nat)) (h : Machine.MirHdr)
  /-- FORWARD_LANDING_FILL (R305): At cycle 1,023 words not landed are filled from the unit's own local section and FWD_MISS is raised. -/
  | forwardLandingFill
  /-- PRESENCE_MAP_RECEIVE (R306): A partner's presence map is taken, presence is agreed and lacking packets are forwarded. -/
  | presenceMapReceive (p : Machine.PresMap) (h : Machine.MirHdr)
  /-- FORWARDED_PACKET_RECEIVE (R306): A stream packet forwarded by the partner is held for the release. -/
  | forwardedPacketReceive (tick ctx seq ts : Nat) (pay : List Byte) (h : Machine.MirHdr)
  /-- MOD_BLOCK_SEND (R287): At cycle 2,560 the lease holder sends the MOD block of the previous tick. -/
  | modBlockSend
  /-- MOD_BLOCK_RECEIVE (R287): A SHADOW takes the forwarded MOD block, compares it with its own state and raises MOD_DIVERGE on a difference. -/
  | modBlockReceive (b : Machine.ModBlk) (h : Machine.MirHdr)
  /-- FWD_MISSING (R287): A MOD block not landed by cycle 3,840 leaves the SHADOW on its own data. -/
  | fwdMissing
  /-- MIRRORED_COMMAND_RECEIVE (R307): A partner checks a mirrored command against its agenda and returns CONFIRM, records it for replay, or refuses it. -/
  | mirroredCommandReceive (m : Machine.MirCmd) (h : Machine.MirHdr)
  /-- CONFIRM_RECEIVE (R337): A CONFIRM or refusal from the partner acknowledges or removes the held command. -/
  | confirmReceive (slot ctr reason : Nat) (h : Machine.MirHdr)
  /-- CONFIRM_TIMEOUT (R307): No CONFIRM within 2 ticks refuses the command with PEER and sends CANCEL. -/
  | confirmTimeout (slot ctr c : Nat)
  /-- COMMAND_RESOLVE_DEADLINE (R337): A command still unresolved at cycle 9,856 of the tick before its target is cancelled with PEER. -/
  | commandResolveDeadline
  /-- CANCEL_RECEIVE (R337): A CANCEL removes an unacknowledged entry from the partner's agenda. -/
  | cancelReceive (slot ctr : Nat) (h : Machine.MirHdr)
  /-- SENT_ACK_SEND (R314): Every 1,024 cycles the lease holder sends batched sent-acknowledgements. -/
  | sentAckSend (c : Nat)
  /-- SENT_ACK_RECEIVE (R314): A SHADOW drops the held packets that the sent-acknowledgements cover. -/
  | sentAckReceive (acks : List (Nat × Nat × Nat)) (h : Machine.MirHdr)
  /-- TX_HANDOVER (R314): At cycle 0 of q + 3 a SHADOW queues held packets whose acknowledgement is overdue. -/
  | txHandover
  /-- RETRANSMISSION_REQUEST (R322): A retransmission request from the partner makes the unit resend the named frame. -/
  | retransmissionRequest (ty seq : Nat) (h : Machine.MirHdr)
  /-- SHEAF_COPY_RECEIVE (R120): A sheaf-store copy frame is written at the same offset of the partner's store. -/
  | sheafCopyReceive (off : Nat) (bytes : List Byte) (load : Option (Nat × Nat)) (h : Machine.MirHdr)
  /-- RESYNC_CONTROL_RECEIVE (R315): A resynchronisation control frame delivers the snapshot tick, start or abort. -/
  | resyncControlReceive (kind tick : Nat) (h : Machine.MirHdr)
  /-- IMAGE_BULK_RECEIVE (R318): An image bulk frame is stored and installed through the load ports. -/
  | imageBulkReceive (off : Nat) (bytes : List Byte) (blk : Option Machine.BlockState) (h : Machine.MirHdr)
  /-- DELAY_BULK_RECEIVE (R317): A delay-region bulk frame is written to its DRAM address. -/
  | delayBulkReceive (parts : List (Nat × List Byte)) (h : Machine.MirHdr)
  /-- DISPLACED_FRAME_RECEIVE (R317): A displaced frame holding contents as at T is written to its DRAM address. -/
  | displacedFrameReceive (addr : Nat) (bytes : List Byte) (h : Machine.MirHdr)
  /-- UNIT_IDENTITY_RECEIVE (R14): The partner's SYS.ID and DRAM configuration are compared, and a mismatch isolates the non-holding unit. -/
  | unitIdentityReceive (sysid dram : Nat) (h : Machine.MirHdr)
  /-- UNKNOWN_TYPE_FRAME (R458): A mirror frame of unknown TYPE is dropped and counted as a check failure. -/
  | unknownTypeFrame (ty seq lane c : Nat)
  /-- FRAME_LATE (R322): A real-time mirror frame that misses its deadline is dropped and its class rule applies. -/
  | frameLate (ty seq c : Nat)
  /-- MIR_LANE_DOWN (R324): A mirror lane without a valid block for 1,024 cycles goes down. -/
  | mirLaneDown (n c : Nat)
  /-- MIR_LINK_DOWN (R324): With no valid block on either lane for 1,024 cycles the link goes down and PARTNER enters LOS. -/
  | mirLinkDown (c : Nat)
  /-- MIR_LANE_UP (R324): A lane with 64 ticks of error-free blocks comes up. -/
  | mirLaneUp (n ps c : Nat)
  /-- RESYNC_START (R315): The lease holder starts a resynchronisation once its conditions hold, or aborts with cause 6 and re-evaluates 96,000 ticks later. -/
  | resyncStart (c : Nat)
  /-- RESYNC_FREEZE (R316): At the boundary into T the image is frozen by copy-on-write and the partner enters CATCHUP. -/
  | resyncFreeze
  /-- IMAGE_SENT (R316): The image has been sent and the freeze ends. -/
  | imageSent (c : Nat)
  /-- DELAY_COPY_DONE (R317): The last delay frame is held and replay can begin. -/
  | delayCopyDone (c : Nat)
  /-- REPLAY_TICK (R319): A CATCHUP unit replays one recorded tick, applying commands and comparing digests. -/
  | replayTick (c : Nat)
  /-- BECOME_SHADOW (R320): After 96,000 consecutive clean compared ticks the unit becomes SHADOW. -/
  | becomeShadow
  /-- XO_LOSS (R164): No XO edge for 200 ns forces outputs high-impedance, drops the lease pins and asserts FAULT_N. -/
  | xoLoss (c : Nat)
  /-- MDLL_UNLOCK (R164): Loss of MDLL lock has the same forced reaction as XO loss. -/
  | mdllUnlock (c : Nat)
  /-- REF_LOS_DETECT (R152): A reference without an edge for its timeout enters LOS, possibly entering holdover or switching. -/
  | refLosDetect (n c : Nat)
  /-- REF_ACTIVITY (R154): Activity resuming on a LOS reference moves it to QUALIFYING. -/
  | refActivity (n c : Nat)
  /-- REF_MEASURE (R156): Each second the offsets are measured and windows, drift, disagreement and selection are evaluated in order. -/
  | refMeasure (offs : List (Option Int)) (c : Nat)
  /-- WTR_EXPIRE (R154): A reference's wait-to-restore count reaches zero and it becomes QUALIFIED. -/
  | wtrExpire (n c : Nat)
  /-- DPLL_COMPARE (R160): At each comparison the phase detector updates the frequency word and lock state. -/
  | dpllCompare (n : Nat) (ph : Int) (c : Nat)
  /-- HISTORY_RECORD (R161): While LOCKED, the second's mean frequency word is recorded in the history ring. -/
  | historyRecord (c : Nat)
  /-- HOLDOVER_PREDICT (R162): Each second of holdover P(t) is computed and HOLD_LIMIT raised once when it exceeds the limit. -/
  | holdoverPredict (c : Nat)
  /-- COMPARE_FIRE (R175): A compare unit reaches its target short time, records tick and cycle and re-arms or disarms. -/
  | compareFire (k c : Nat)
  /-- TPLL_UNLOCK (R173): The time PLL loses lock and the counter holds its value. -/
  | tpllUnlock (c : Nat)
  /-- TPLL_RELOCK (R173): The time PLL relocks and the counter resumes, with the next map update a discontinuity. -/
  | tpllRelock (c : Nat)
  /-- FRAME_RECEIVE (R193): A received Ethernet frame is checked by length and FCS, time-stamped if PTP, and classified. -/
  | frameReceive (p : Nat) (bytes : List Byte) (rxer : Bool) (c : Nat)
  /-- PAUSE_FRAME (R196): A PAUSE frame is counted and, with PAUSEEN, loads or stops the pause timer. -/
  | pauseFrame (p quanta c : Nat)
  /-- PAUSE_EXPIRE (R196): The pause timer ends and frames may start again. -/
  | pauseExpire (p c : Nat)
  /-- HOST_FRAME_TRANSMIT (R198): A host frame at the head of its queue is sent, or completed with an error status. -/
  | hostFrameTransmit (p c : Nat)
  /-- LINK_DOWN (R208): An Ethernet port's link goes down. -/
  | linkDown (p c : Nat)
  /-- LINK_UP (R208): An Ethernet port's link comes up. -/
  | linkUp (p speed : Nat) (an : Bool) (c : Nat)
  /-- MDIO_DONE (R190): An MDIO transaction completes and its read data is latched. -/
  | mdioDone (data c : Nat)
  /-- PLCA_BEACON (R205): A PLCA BEACON is received, restoring status or flagging a foreign coordinator. -/
  | plcaBeacon (c : Nat)
  /-- PLCA_LOST (R205): No valid BEACON for 4,000 bit times makes MACT fall back to CSMA/CD. -/
  | plcaLost (c : Nat)
  /-- COLLISION (R206): A collision on the array bus causes backoff, or abandons the frame after 16 attempts or late. -/
  | collision (bytes c : Nat)
  /-- STREAM_CUTOFF (R216): At cycle 2,048 of a release tick the presence of each due sample is fixed. -/
  | streamCutoff
  /-- STREAM_RELEASE (R217): From cycle 4,096 each receive context writes its frame into its region, concealing absent samples. -/
  | streamRelease
  /-- ARRIVAL_WINDOW (R224): At the end of each 9,600-tick window the minimum margin is compared and RX_ARRJUMP raised on a jump. -/
  | arrivalWindow
  /-- LEG_DOWN (R227): A 2022-7 leg without a packet for 960 ticks is marked down. -/
  | legDown (ctx leg c : Nat)
  /-- STREAM_PACKET_QUEUE (R229): Every P ticks a transmit context forms a packet and queues it. -/
  | streamPacketQueue (ctx : Nat)
  /-- STREAM_PACKET_SEND (R231): A queued stream packet starts on the line and is acknowledged to the partner. -/
  | streamPacketSend (p c : Nat)
  /-- STREAM_TX_LATE (R231): A packet not started before the boundary into q + 2 is dropped as TX_LATE. -/
  | streamTxLate (p : Nat)
  /-- TDM_FRAME_RX (R239): A received serial-port frame is filtered and captured into the local section. -/
  | tdmFrameRx (p : Nat) (words : List Nat) (bclks : Nat) (off : Int) (near : Bool) (c : Nat)
  /-- TDM_FRAME_TX (R240): A transmit frame sends the drained words of its slots, repeating stale ones. -/
  | tdmFrameTx (p c : Nat)
  /-- MISSING_FRAME (R244): A slave frame with a wrong BCLK count or no FS for 1.5 periods starts a fade. -/
  | missingFrame (p bclks c : Nat)
  /-- SLIP_ACCESS (R242): The tick side reads or writes a foreign-clock slip buffer, repeating, dropping or fading. -/
  | slipAccess (p dir c : Nat)
  /-- ALIGN_RETURN (R241): After 16 frames inside the window a synchronous slave returns to service. -/
  | alignReturn (p c : Nat)
  /-- GANG_REJOIN (R246): After 16 aligned frames a gang member rejoins at the leader's frame count. -/
  | gangRejoin (p c : Nat)
  /-- PDM_STUCK (R253): A channel delivering one bit value for 4,096 clock periods is flagged stuck. -/
  | pdmStuck (ch c : Nat)
  /-- DEC_SETTLED (R262): A decimator channel reaches output U and delivers settled outputs. -/
  | decSettled (ch c : Nat)
  /-- SUPERFRAME (R274): A sense superframe is received, checked, used or replaced, and the lane state updated. -/
  | superframe (g sf bits arr c : Nat)
  /-- SHORT_LATCH (R280): LATCHN consecutive limited periods latch the channel off. -/
  | shortLatch (ch c : Nat)
  /-- RETRY (R280): RETRYT ticks after a latch the channel restarts with a ramp. -/
  | retry (ch : Nat)
  /-- CARRIER_PERIOD (R270): A channel's carrier period starts with its quantised high time centred in the period. -/
  | carrierPeriod (ch j c : Nat)
  /-- LOOP_COMPUTE (R278): From cycle 4,096 the loop computes the modulation values of the next tick's periods. -/
  | loopCompute
  /-- AMP_EN_RISE (R282): At the first boundary 16 ticks after start with the lane UP, AMP_EN rises. -/
  | ampEnRise (g : Nat)
  /-- GROUP_STOP (R282): 16 ticks after AMP_EN falls every PWM_OUT of the group is static low and RUN clears. -/
  | groupStop (g : Nat)
  /-- DRV_FAULT (R283): AMP_FLT_N low for 64 cycles drops AMP_EN and puts the group in DRVOFF. -/
  | drvFault (g c : Nat)
  /-- THERM_SHUT (R285): The 160 °C comparator drives PWM_OUT and AMP_EN low, shuts down CLKOUT and latches. -/
  | thermShut (c : Nat)
  /-- THM_CONVERSION (R382): Every millisecond the sensors are converted and the warning and yield thresholds checked. -/
  | thmConversion (rd : List Int) (c : Nat)
  /-- EVENT_POSTING (R32): A block's posting reaches the EVT intake, or is dropped or shed and counted. -/
  | eventPosting (drop : Bool)
  /-- EVT_NUMBERING (R370): EVT numbers the postings of the previous tick into records and writes them to the black box. -/
  | evtNumbering (c : Nat)
  /-- COALESCE_CLOSE (R373): An open record's coalescing window ends and the record closes. -/
  | coalesceClose (c : Nat)
  /-- HOST_RING_WRITE (R374): EVT writes the next closed record to the host ring, or skips it, covering gaps with a DROP record. -/
  | hostRingWrite (c : Nat)
  /-- WDOG_EXPIRE (R379): The watchdog times out, raises WDOG_EXPIRED and on its first expiry triggers the black box. -/
  | wdogExpire (c : Nat)
  /-- BUS_REQUEST (R387): A master's request is arbitrated at its target and served, or answered as a decode error. -/
  | busRequest (q : BusReq) (c : Nat)
  /-- HELD_REQUEST_RELEASE (R389): A request held for ordering or credit is issued once it can proceed. -/
  | heldRequestRelease (n c : Nat)
  /-- REFRESH_SLOT (R403): At a planned slot the controller issues a per-bank refresh, plus extras when the plan is thin. -/
  | refreshSlot (ch c : Nat)
  /-- MR4_READ (R403): At TSLOT of each even tick the refresh rate is read and DRAMCLASS updated. -/
  | mr4Read (v0 k0 v1 k1 : Nat)
  /-- GLEAN_SAMPLE (R407): In the odd tick of a period GLN takes each source's value into a frame. -/
  | gleanSample (c : Nat)
  /-- GLEAN_BLOCK_DONE (R409): Write responses for a block and its check entry raise the watermark. -/
  | gleanBlockDone (c : Nat)
  /-- READBACK_DONE (R409): A readback finishes comparing block CRCs with the check table. -/
  | readbackDone (c : Nat)
  /-- POWER_ON_RESET (R418): POR_N resets everything, AO included, and boot follows its release. -/
  | powerOnReset (bootsel : Nat) (pairId testmode : Bool)
  /-- WARM_RESET (R420): RESET_N forces outputs high-impedance, puts DRAM in self-refresh and resets all domains but AO. -/
  | warmReset (bootsel : Nat) (pairId testmode : Bool)
  /-- BOOT (R425): The boot sequencer reads, checks and applies a signed boot image and may load a sheaf. -/
  | boot (slot0 slot1 : Option (List Byte)) (sheaf : List Byte) (train : Bool) (c : Nat)
  /-- MDLL_LOCK (R425): The MDLL first locks and tick 0 begins. -/
  | mdllLock
  /-- BOOT_PCIE_TIMEOUT (R428): No complete PCIe boot image within 10 s fails the boot step with CODE 1. -/
  | bootPcieTimeout (c : Nat)
  /-- NONCE_DRAW (R332): A session nonce is drawn from TRNG output that has passed its health tests. -/
  | nonceDraw (nonce c : Nat)
  /-- TRNG_HEALTH (R332): A TRNG health test fails and the next nonce draw waits. -/
  | trngHealth (test c : Nat)
  /-- FUSE_DONE (R346): An OTP fuse operation completes and CMD resumes taking commands. -/
  | fuseDone (err : Option Nat) (c : Nat)
  /-- DOMAIN_READY (R415): A domain switched on becomes usable and DOMSTAT.ON is set. -/
  | domainReady (k c : Nat)
  /-- PERST (R418): PERST_N resets the PCIe endpoint and command-ring registers. -/
  | perst (low : Bool) (c : Nat)
  /-- PCIE_LINK_UP (R394): The PCIe link trains to a width and speed. -/
  | pcieLinkUp (width speed c : Nat)
  /-- PCIE_LINK_DOWN (R399): The PCIe link goes down and host loss applies. -/
  | pcieLinkDown (c : Nat)
  /-- GPIO_EDGE (R434): A detected (debounced) edge on a GPIO pin sets EDGE, records its tick and raises EDGE. -/
  | gpioEdge (pins c : Nat)
  /-- XO_EDGES_RETURN (R420): XO edges return after a loss, SYN.STAT.XOOK is set, and a device held in reset by the missing XO leaves reset and starts boot. -/
  | xoEdgesReturn
  /-- PLANE_RESET_END (R418): The 8-tick control-plane or management-plane reset ends: the plane resumes, CMD and the host-ring writer restart, and a paired unit enters FALLOW after a management-plane reset. -/
  | planeResetEnd (c : Nat)
  /-- MALFORMED_COMMAND (R333): A command whose frame fails step 1 or whose opcode is unknown is taken and answered with a refusal, with UNAUTH set where it failed before step 6. -/
  | malformedCommand (src : Nat) (bytes : List Byte) (from_ : Option Machine.UdpFrom) (c : Nat)
  /-- TRNG_SOURCE_PASSES_AGAIN (R332): The TRNG source passes its health tests again and KEY.TRNGSTAT.HEALTHY returns to 1. -/
  | trngSourcePassesAgain (c : Nat)
  /-- FACTORY_TEST_UNLOCK (R367): An unlock word written through JTAG, with TESTMODE high at POR_N release, enters factory test mode, holding the power and pair outputs low and FAULT_N asserted. -/
  | factoryTestUnlock (c : Nat)
  /-- MSIX_UNMASK (R398): An unmask of an MSI-X table entry, or setting Bus Master Enable, sends the messages held pending in the pending-bit array. -/
  | msixUnmask (mem bus en : Bool) (mask c : Nat)
deriving DecidableEq, Repr

end Sys2Proof
end

