-- ==== Sys2Proof/Machine/Crypto.lean ====
section
/-!
DEFINITION. Check values (R350), and the published algorithms the spec names: SHA-256 and ECDSA over P-256 (R115), AES-128
with its CMAC and key unwrap (R331, R342).  The algorithms themselves are taken from their standards (PRESUMED, log 4).
-/
namespace Sys2Proof.Machine

/-! ## Check values (R350) -/

/-- The low `w` bits of `v` in reverse order. -/
def reflectN : Nat → Nat → Nat
  | 0, _ => 0
  | w + 1, v => (v % 2) * 2 ^ w + reflectN w (v / 2)

/-- The parameters of a check-value unit (R350). -/
structure CrcPar where
  w      : Nat
  poly   : Nat
  init   : Nat
  xorout : Nat
  refin  : Bool
  refout : Bool
deriving DecidableEq, Repr

/-- One bit of data into the register, from bit `i` of the byte down (R350). -/
def crcBits (p : CrcPar) (b : Nat) : Nat → Nat → Nat
  | 0, reg => reg
  | i + 1, reg =>
    let top := xor (bit reg (p.w - 1)) (bit b i)
    let r := reg * 2 % 2 ^ p.w
    if top then crcBits p b i (r ^^^ p.poly) else crcBits p b i r

/-- One byte of data into the register (R350). -/
def crcByte (p : CrcPar) (reg : Nat) (b : Byte) : Nat :=
  crcBits p (if p.refin then reflectN 8 b.toNat else b.toNat) 8 reg

/-- The check value of a unit of data (R350). -/
def crcVal (p : CrcPar) (bs : List Byte) : Nat :=
  let reg := bs.foldl (crcByte p) p.init
  (if p.refout then reflectN p.w reg else reg) ^^^ p.xorout

/-! ## SHA-256 -/

/-- The first 32 bits of the fractional parts of the cube roots of the first 64 primes, in four parts. -/
def shaK0 : List Nat :=
  [0x428a2f98, 0x71374491, 0xb5c0fbcf, 0xe9b5dba5, 0x3956c25b, 0x59f111f1, 0x923f82a4, 0xab1c5ed5,
   0xd807aa98, 0x12835b01, 0x243185be, 0x550c7dc3, 0x72be5d74, 0x80deb1fe, 0x9bdc06a7, 0xc19bf174]
@[inherit_doc shaK0] def shaK1 : List Nat :=
  [0xe49b69c1, 0xefbe4786, 0x0fc19dc6, 0x240ca1cc, 0x2de92c6f, 0x4a7484aa, 0x5cb0a9dc, 0x76f988da,
   0x983e5152, 0xa831c66d, 0xb00327c8, 0xbf597fc7, 0xc6e00bf3, 0xd5a79147, 0x06ca6351, 0x14292967]
@[inherit_doc shaK0] def shaK2 : List Nat :=
  [0x27b70a85, 0x2e1b2138, 0x4d2c6dfc, 0x53380d13, 0x650a7354, 0x766a0abb, 0x81c2c92e, 0x92722c85,
   0xa2bfe8a1, 0xa81a664b, 0xc24b8b70, 0xc76c51a3, 0xd192e819, 0xd6990624, 0xf40e3585, 0x106aa070]
@[inherit_doc shaK0] def shaK3 : List Nat :=
  [0x19a4c116, 0x1e376c08, 0x2748774c, 0x34b0bcb5, 0x391c0cb3, 0x4ed8aa4a, 0x5b9cca4f, 0x682e6ff3,
   0x748f82ee, 0x78a5636f, 0x84c87814, 0x8cc70208, 0x90befffa, 0xa4506ceb, 0xbef9a3f7, 0xc67178f2]

/-- The round constants. -/
def shaK : List Nat := shaK0 ++ shaK1 ++ shaK2 ++ shaK3

/-- Rotation of a 32-bit word to the right. -/
def rotr (x n : Nat) : Nat := (x / 2 ^ n + x * 2 ^ (32 - n)) % 2 ^ 32

/-- The message schedule, newest word first, extended by `n` words. -/
def shaSched : Nat → List Nat → List Nat
  | 0, w => w
  | n + 1, w =>
    let w2 := w.getD 1 0
    let w15 := w.getD 14 0
    let s0 := rotr w15 7 ^^^ rotr w15 18 ^^^ (w15 / 8)
    let s1 := rotr w2 17 ^^^ rotr w2 19 ^^^ (w2 / 1024)
    shaSched n ((s1 + w.getD 6 0 + s0 + w.getD 15 0) % 2 ^ 32 :: w)

/-- The rounds of one block over the working variables a to h. -/
def shaRounds : List (Nat × Nat) → List Nat → List Nat
  | (k, w) :: t, [a, b, c, d, e, f, g, h] =>
    let s1 := rotr e 6 ^^^ rotr e 11 ^^^ rotr e 25
    let ch := (e &&& f) ^^^ ((2 ^ 32 - 1 - e) &&& g)
    let t1 := h + s1 + ch + k + w
    let s0 := rotr a 2 ^^^ rotr a 13 ^^^ rotr a 22
    let mj := (a &&& b) ^^^ (a &&& c) ^^^ (b &&& c)
    shaRounds t [(t1 + s0 + mj) % 2 ^ 32, a, b, c, (d + t1) % 2 ^ 32, e, f, g]
  | _, v => v

/-- Bytes to 32-bit words, most significant byte first, `n` of them. -/
def beWords : Nat → List Byte → List Nat
  | 0, _ => []
  | n + 1, bs => beNat (bs.take 4) :: beWords n (bs.drop 4)

/-- The compression of `n` blocks. -/
def shaBlocks : Nat → List Nat → List Byte → List Nat
  | 0, h, _ => h
  | n + 1, h, bs =>
    let w := (shaSched 48 (beWords 16 bs).reverse).reverse
    let v := shaRounds (shaK.zip w) h
    shaBlocks n (List.zipWith (fun a b => (a + b) % 2 ^ 32) h v) (bs.drop 64)

/-- SHA-256 of a message as a 256-bit number, first byte most significant. -/
def sha256 (m : List Byte) : Nat :=
  let z := (119 - m.length % 64) % 64
  let pad := m ++ (0x80 : Byte) :: List.replicate z 0 ++ beBytes 8 (8 * m.length)
  let h := shaBlocks (pad.length / 64)
    [0x6a09e667, 0xbb67ae85, 0x3c6ef372, 0xa54ff53a, 0x510e527f, 0x9b05688c, 0x1f83d9ab, 0x5be0cd19] pad
  h.foldl (fun a x => a * 2 ^ 32 + x) 0

/-! ## ECDSA over P-256 -/

/-- The field prime. -/
def ecP : Nat := 0xffffffff00000001000000000000000000000000ffffffffffffffffffffffff
/-- The order of the base point. -/
def ecN : Nat := 0xffffffff00000000ffffffffffffffffbce6faada7179e84f3b9cac2fc632551
/-- The constant b of the curve. -/
def ecB : Nat := 0x5ac635d8aa3a93e7b3ebbd55769886bc651d06b0cc53b0f63bce3c3e27d2604b
/-- The base point. -/
def ecG : Nat × Nat :=
  (0x6b17d1f2e12c4247f8bce6e563a440f277037d812deb33a0f4a13945d898c296,
   0x4fe342e2fe1a7f9b8ee7eb4a7c0f9e162bce33576b315ececbb6406837bf51f5)

/-- x to the power e modulo m, over the low `n` bits of `e`. -/
def powMod (m : Nat) : Nat → Nat → Nat → Nat
  | 0, _, _ => 1 % m
  | n + 1, x, e =>
    let r := powMod m n (x * x % m) (e / 2)
    if e % 2 = 1 then r * x % m else r

/-- The inverse modulo a prime of 256 bits. -/
def invMod (m x : Nat) : Nat := powMod m 256 (x % m) (m - 2)

/-- A point of the curve in three numbers of the field: its coordinates are x / z^2 and y / z^3, and z = 0 is the point at infinity. -/
structure EcPt where
  x : Nat
  y : Nat
  z : Nat

/-- A point with given coordinates. -/
def ecPoint (x y : Nat) : EcPt := { x := x, y := y, z := 1 }

/-- Twice a point. -/
def ecDbl (p : EcPt) : EcPt :=
  let yy := p.y * p.y % ecP
  let s := 4 * p.x * yy % ecP
  let zz := p.z * p.z % ecP
  let m := 3 * (p.x + zz) * (p.x + (ecP - zz)) % ecP
  let x := (m * m + 2 * (ecP - s)) % ecP
  { x := x, y := (m * (s + (ecP - x)) + 8 * yy * (ecP - yy)) % ecP, z := 2 * p.y * p.z % ecP }

/-- The sum of two points. -/
def ecAdd (p q : EcPt) : EcPt :=
  if p.z = 0 then q
  else if q.z = 0 then p
  else
    let zz := q.z * q.z % ecP
    let ww := p.z * p.z % ecP
    let u := p.x * zz % ecP
    let s := p.y * (zz * q.z % ecP) % ecP
    let h := (q.x * ww + (ecP - u)) % ecP
    let r := (q.y * (ww * p.z % ecP) + (ecP - s)) % ecP
    if h = 0 then (if r = 0 then ecDbl p else { x := 1, y := 1, z := 0 })
    else
      let hh := h * h % ecP
      let k := h * hh % ecP
      let v := u * hh % ecP
      let x := (r * r + (ecP - k) + 2 * (ecP - v)) % ecP
      { x := x, y := (r * (v + (ecP - x)) + s * (ecP - k)) % ecP, z := h * (p.z * q.z) % ecP }

/-- A multiple of a point over the low `n` bits of `k`. -/
def ecMul : Nat → Nat → EcPt → EcPt
  | 0, _, _ => { x := 1, y := 1, z := 0 }
  | n + 1, k, p =>
    let r := ecMul n (k / 2) (ecDbl p)
    if k % 2 = 1 then ecAdd r p else r

/-- Whether (r, s) signs the hash `e` under the public key (x, y). -/
def ecdsaOk (x y r s e : Nat) : Bool :=
  decide (x < ecP ∧ y < ecP ∧ (y * y) % ecP = (x * x * x + (ecP - 3) * x + ecB) % ecP ∧
    1 ≤ r ∧ r < ecN ∧ 1 ≤ s ∧ s < ecN) &&
  (let w := invMod ecN s
   let q := ecAdd (ecMul 256 (e * w % ecN) (ecPoint ecG.1 ecG.2)) (ecMul 256 (r * w % ecN) (ecPoint x y))
   let i := invMod ecP q.z
   q.z != 0 && q.x * (i * i % ecP) % ecP % ecN == r)

/-! ## AES-128 -/

/-- Multiplication by x in the field of AES. -/
def xtime (a : Nat) : Nat := if 128 ≤ a then (2 * a) % 256 ^^^ 0x1b else 2 * a

/-- The product in the field of AES, over the low `n` bits of `b`. -/
def gmul : Nat → Nat → Nat → Nat
  | 0, _, _ => 0
  | n + 1, a, b => (if b % 2 = 1 then a else 0) ^^^ gmul n (xtime a) (b / 2)

/-- The S-box, 32 values a row, the first in the lowest byte. -/
def sboxTab : List Nat :=
  [0xc072a49cafa2d4adf04759fa7dc982ca76abd7fe2b670130c56f6bf27b777c63,
   0x75b227ebe28012079a059618c323c7041531d871f1e5a534ccf73f362693fdb7,
   0xcf584c4a39becb6a5bb1fc20ed00d153842fe329b3d63b52a05a6e1b1a2c8309,
   0xd2f3ff1021dab6bcf5389d928f40a351a89f3c507f02f94585334d43fbaaefd0,
   0xdb0b5ede14b8ee4688902a22dc4f816073195d643d7ea7c41744975fec130ccd,
   0x08ae7a65eaf4566ca94ed58d6d37c8e779e4959162acd3c25c2406490a3a32e0,
   0x9e1dc186b95735610ef6034866b53e708a8bbd4b1f74dde8c6b4a61c2e2578ba,
   0x16bb54b00f2d99416842e6bf0d89a18cdf2855cee9871e9b948ed9691198f8e1]

/-- The inverse S-box in the same form. -/
def sboxInvTab : List Nat :=
  [0xcbe9dec444438e3487ff2f9b8239e37cfbd7f3819ea340bf38a53630d56a0952,
   0x25d18b6d49a25b76b224d92866a12e084ec3fa420b954cee3d23c2a632947b54,
   0x849d8da75746155edab9edfd5048706c92b6655dcc5ca4d41698688664f6f872,
   0x6b8a130103bdafc1020f3fca8f1e2cd00645b3b80558e4f70ad3bc8c00abd890,
   0x6edf751ce837f9e28535ade72274ac9673e6b4f0cecff297eadc674f4111913a,
   0xf45acd78fec0db9a2079d2c64b3e56fc1bbe18aa0e62b76f89c5291d711af147,
   0xef9cc9939f7ae52d0d4ab519a97f51605fec8027591012b131c7078833a8dd1f,
   0x7d0c2155631469e126d677ba7e042b17619953833cbbebc8b0f52aae4d3be0a0]

/-- The S-box. -/
def sbox (a : Nat) : Nat := (sboxTab.getD (a / 32) 0) / 2 ^ (8 * (a % 32)) % 256

/-- The inverse S-box. -/
def sboxInv (b : Nat) : Nat := (sboxInvTab.getD (b / 32) 0) / 2 ^ (8 * (b % 32)) % 256

/-- The next round key. -/
def nextKey (rcon : Nat) (k : List Nat) : List Nat :=
  let t0 := sbox (k.getD 13 0) ^^^ rcon
  let t := [t0, sbox (k.getD 14 0), sbox (k.getD 15 0), sbox (k.getD 12 0)]
  let w0 := List.zipWith (· ^^^ ·) (k.take 4) t
  let w1 := List.zipWith (· ^^^ ·) (slice k 4 4) w0
  let w2 := List.zipWith (· ^^^ ·) (slice k 8 4) w1
  let w3 := List.zipWith (· ^^^ ·) (slice k 12 4) w2
  w0 ++ w1 ++ w2 ++ w3

/-- The round keys, the key itself first. -/
def roundKeys : Nat → Nat → List Nat → List (List Nat)
  | 0, _, k => [k]
  | n + 1, rc, k => k :: roundKeys n (xtime rc) (nextKey rc k)

/-- The rows shifted by `c` times the row number (c = 1 to the left, 3 to the right). -/
def shiftRows (c : Nat) (s : List Nat) : List Nat :=
  (List.range 16).map (fun i => s.getD ((4 * (i / 4 + c * (i % 4)) + i % 4) % 16) 0)

/-- One column through a circulant matrix. -/
def mixCol (m : List Nat) (s : List Nat) : List Nat :=
  (List.range 4).map (fun r => (List.range 4).foldl (fun a j => a ^^^ gmul 4 (s.getD j 0) (m.getD ((j + 4 - r) % 4) 0)) 0)

/-- The columns mixed. -/
def mixCols (m : List Nat) (s : List Nat) : List Nat :=
  mixCol m (s.take 4) ++ mixCol m (slice s 4 4) ++ mixCol m (slice s 8 4) ++ mixCol m (slice s 12 4)

/-- The rounds of encryption over the remaining round keys. -/
def aesEncGo : List (List Nat) → List Nat → List Nat
  | [], s => s
  | [k], s => List.zipWith (· ^^^ ·) (shiftRows 1 (s.map sbox)) k
  | k :: t, s => aesEncGo t (List.zipWith (· ^^^ ·) (mixCols [2, 3, 1, 1] (shiftRows 1 (s.map sbox))) k)

/-- The rounds of decryption over the remaining round keys, last first. -/
def aesDecGo : List (List Nat) → List Nat → List Nat
  | [], s => s
  | [k], s => List.zipWith (· ^^^ ·) ((shiftRows 3 s).map sboxInv) k
  | k :: t, s => aesDecGo t (mixCols [14, 11, 13, 9] (List.zipWith (· ^^^ ·) ((shiftRows 3 s).map sboxInv) k))

/-- A 128-bit number as 16 byte values, most significant first. -/
def blk16 (v : Nat) : List Nat := (beBytes 16 v).map (·.toNat)

/-- Byte values as a number. -/
def unblk (l : List Nat) : Nat := l.foldl (fun a b => a * 256 + b) 0

/-- AES-128 encryption of a block. -/
def aesEnc (key v : Nat) : Nat :=
  match roundKeys 10 1 (blk16 key) with
  | k0 :: t => unblk (aesEncGo t (List.zipWith (· ^^^ ·) (blk16 v) k0))
  | [] => 0

/-- AES-128 decryption of a block. -/
def aesDec (key v : Nat) : Nat :=
  match (roundKeys 10 1 (blk16 key)).reverse with
  | k0 :: t => unblk (aesDecGo t (List.zipWith (· ^^^ ·) (blk16 v) k0))
  | [] => 0

/-! ## CMAC and key unwrap -/

/-- Doubling in the field of CMAC. -/
def cmacDbl (v : Nat) : Nat := (2 * v) % 2 ^ 128 ^^^ (if 2 ^ 127 ≤ v then 0x87 else 0)

/-- The chaining of CMAC over `n` full blocks. -/
def cmacGo (key : Nat) : Nat → Nat → List Byte → Nat
  | 0, x, _ => x
  | n + 1, x, bs => cmacGo key n (aesEnc key (x ^^^ beNat (bs.take 16))) (bs.drop 16)

/-- AES-128 CMAC of a message, 128 bits. -/
def cmac (key : Nat) (m : List Byte) : Nat :=
  let k1 := cmacDbl (aesEnc key 0)
  let k2 := cmacDbl k1
  let n := (m.length - 1) / 16
  let x := cmacGo key n 0 m
  let last := m.drop (16 * n)
  let v := if last.length = 16 then beNat last ^^^ k1
    else beNat (last ++ (0x80 : Byte) :: List.replicate (15 - last.length) 0) ^^^ k2
  aesEnc key (x ^^^ v)

/-- One step of key unwrap: register `a` and the words `r`, step number `t` from the last down. -/
def kwStep (kek : Nat) (n : Nat) : Nat → Nat → List Nat → Nat × List Nat
  | 0, a, r => (a, r)
  | t + 1, a, r =>
    let i := t % n
    let b := aesDec kek ((a ^^^ (t + 1)) * 2 ^ 64 + r.getD i 0)
    kwStep kek n t (b / 2 ^ 64) (updAt r i (fun _ => b % 2 ^ 64))

/-- Key unwrap of `n` words of 64 bits after the integrity word; none when the integrity check fails. -/
def keyUnwrap (kek : Nat) (c : List Nat) : Option (List Nat) :=
  match c with
  | [] => none
  | a :: r =>
    let q := kwStep kek r.length (6 * r.length) a r
    if q.1 = 0xA6A6A6A6A6A6A6A6 then some q.2 else none

end Sys2Proof.Machine
end

