-- ==== Sys2Proof/Config.lean ====
section
/-!
DEFINITION. What the spec leaves open: free values, each a constant without a body, so that nothing can be proved of its
value, and what one implementation fixes.
-/
namespace Sys2Proof.Config

/-- A free value, drawn by the number of the draw (log entry 5). -/
opaque free : Nat → BitVec 64

/-- The frequency of the DPLL's loop in ppt after a comparison, by the bandwidth code in force, the phase error in ps, the frequency before it and a
fresh draw: the spec gives the loop's bandwidth and not its filter (log entry 5). -/
opaque dpllLoop : Nat → Int → Int → BitVec 64 → Int

/-- What a pull-in adds to the loop's frequency in ppt, before its bound: by that bound and the phase error (R163, log entry 5). -/
opaque dpllPull : Int → Int → Int

/-- The DC-block section of R133 on one sample: the sample rate (0: 48 kHz, 1: 96 kHz), the section's 40-bit state and the
input give the new state and the section's 40-bit output.  The spec gives no coefficients (log entry 6). -/
opaque dcStep : Nat → BitVec 40 → Word → BitVec 40 × BitVec 40

/-- A wind section of R133 on one sample, by its code and the sample rate, from its state words and the 40-bit input (log
entry 6). -/
opaque windStep : Nat → Nat → List (BitVec 40) → BitVec 40 → List (BitVec 40) × BitVec 40

/-- Where the binary point of the 40-bit internal words of R133 lies: the spec does not place it; modulo 9 it is the number of fraction bits beyond
those of Q1.31 (log entry 6). -/
opaque hpfFrac : Nat

/-- The PCI Express vendor identifier in ROM (PCIE.IDS.VID; log entry 7). -/
opaque vendorId : BitVec 16

end Sys2Proof.Config
end

