-- ==== Sys2Proof/Machine/Ops.lean ====
section
/-!
DEFINITION. The named operations over memory and registers: bytes and words of the internal address map, registers with
their value last written and their value in use (R35 to R37), 64-bit counters (R6), latches, and time within a tick.
-/
namespace Sys2Proof.Machine

/-! ## Memory -/

/-- The byte at address `a`. -/
def Memory.get : Memory → Nat → Byte
  | [], _ => Memory.blank
  | (k, v) :: t, a => if k = a then v else if a < k then Memory.blank else Memory.get t a

/-- Memory with byte `b` at address `a`, in canonical form. -/
def Memory.put : Memory → Nat → Byte → Memory
  | [], a, b => if b = Memory.blank then [] else [(a, b)]
  | (k, v) :: t, a, b =>
    if k < a then (k, v) :: Memory.put t a b
    else if k = a then (if b = Memory.blank then t else (a, b) :: t)
    else if b = Memory.blank then (k, v) :: t else (a, b) :: (k, v) :: t

/-- `n` bytes from address `a`. -/
def Memory.bytes (m : Memory) (a : Nat) : Nat → List Byte
  | 0 => []
  | n + 1 => m.get a :: Memory.bytes m (a + 1) n

/-- Memory with the bytes `bs` from address `a`. -/
def Memory.putBytes (m : Memory) (a : Nat) : List Byte → Memory
  | [] => m
  | b :: bs => (m.put a b).putBytes (a + 1) bs

/-- The 32-bit word at byte address `a`, least significant byte first (the byte order of R51 and R391; DEDUCED, log 3). -/
def Memory.word (m : Memory) (a : Nat) : Word := BitVec.ofNat 32 (leNat (m.bytes a 4))

/-- Memory with the 32-bit word `w` at byte address `a`. -/
def Memory.putWord (m : Memory) (a : Nat) (w : Word) : Memory := m.putBytes a (leBytes 4 w.toNat)

/-- Memory with `n` zero bytes from address `a`. -/
def Memory.zero (m : Memory) (a : Nat) : Nat → Memory
  | 0 => m
  | n + 1 => (m.put a 0).zero (a + 1) n

/-! ## The internal address map (R53, R391) -/

/-- Base of sample memory. -/
def sampleBase : Nat := 0x8000000000
/-- Base of the packet buffers. -/
def packetBase : Nat := 0x8000600000
/-- Base of the retained SRAM. -/
def retainedBase : Nat := 0x8000700000
/-- Base of lane `n`'s coefficient memory. -/
def coefBase (n : Nat) : Nat := 0x8001000000 + 0x20000 * n
/-- Base of lane `n`'s state memory. -/
def stateBase (n : Nat) : Nat := 0x8002000000 + 0x10000 * n
/-- Base of bank `b` (0 A, 1 B) of lane `n`'s instruction memory. -/
def instrBase (n b : Nat) : Nat := 0x8003000000 + 0x40000 * n + 0x20000 * b
/-- Base of the registers. -/
def regBase : Nat := 0xF000000000
/-- Inbound half `h` (R53). -/
def inHalf (h : Nat) : Nat := sampleBase + 0x80000 * h
/-- Outbound half `h` (R53). -/
def outHalf (h : Nat) : Nat := sampleBase + 0x100000 + 0x80000 * h
/-- Local section `h` (R53). -/
def locSect (h : Nat) : Nat := inHalf h + 0x7C000
/-- The exchange area (R53). -/
def exBase : Nat := sampleBase + 0x200000
/-- Forward landing half `h` (R53). -/
def fwdLand (h : Nat) : Nat := sampleBase + 0x3F8000 + 0x4000 * h

/-! ## The register table (R7 to R11) -/

/-- The array indices at which a row of the register table holds the block offset `x`, for a 64-bit row also at its
high word. -/
def RegRow.at? (r : RegRow) (x : Nat) : Option (Nat × Nat) :=
  if x < r.base then none
  else
    let o := x - r.base
    let i := if r.n1 ≤ 1 then 0 else o / r.s1
    let o1 := o - i * r.s1
    let j := if r.n2 ≤ 1 then 0 else o1 / r.s2
    let o2 := o1 - j * r.s2
    if i < max r.n1 1 ∧ j < max r.n2 1 ∧ (o2 = 0 ∨ (r.kind ≠ .plain ∧ o2 = 4)) then some (i, j) else none

/-- The first row of a list that holds block offset `x`. -/
def findRow : List RegRow → Nat → Option RegRow
  | [], _ => none
  | r :: t, x => if (r.at? x).isSome then some r else findRow t x

/-- No block lies at a BAR0 offset (R11). -/
def noBlock (off : Nat) : Bool := decide (0x1F0000 ≤ off)

/-- The row of the register table for a BAR0 offset (R10, R11). -/
def rowAt (off : Nat) : Option RegRow := findRow (regRows (off / 0x10000)) (off % 0x10000)

/-- The reset value of the 32-bit register at a BAR0 offset. -/
def resetVal (off : Nat) : Nat :=
  match rowAt off with
  | some r => r.reset
  | none => 0

/-! ## Registers: the value last written, and the value in use -/

/-- The stored value of a 32-bit register: the value last written, or kept by the block. -/
def Dev.reg (d : Dev) (off : Nat) : Nat :=
  match tabGet d.regs off with
  | some v => v.toNat
  | none => resetVal off

/-- The value of a 32-bit register that the block uses (R35 to R37). -/
def Dev.lv (d : Dev) (off : Nat) : Nat :=
  match tabGet d.live off with
  | some v => v.toNat
  | none => d.reg off

/-- The table `t` with `v` at `off`, canonical: a value equal to `dflt` is not listed. -/
def tabPut (t : List (Nat × Word)) (off v dflt : Nat) : List (Nat × Word) :=
  if v % 2 ^ 32 = dflt then tabDel t off else tabSet t off (BitVec.ofNat 32 v)

/-- The block keeps `v` in a register of its own (status): stored and in use. -/
def Dev.setReg (d : Dev) (off v : Nat) : Dev :=
  { d with regs := tabPut d.regs off v (resetVal off), live := tabDel d.live off }

/-- The register's stored value becomes `v` and its value in use becomes `u`. -/
def Dev.setBoth (d : Dev) (off v u : Nat) : Dev :=
  { d with regs := tabPut d.regs off v (resetVal off), live := tabPut d.live off u (v % 2 ^ 32) }

/-- The field of `w` bits at bit `lo` of a status register, set by the block. -/
def Dev.setFld (d : Dev) (off lo w x : Nat) : Dev :=
  let v := fldSet (d.reg off) lo w x
  let u := fldSet (d.lv off) lo w x
  d.setBoth off v u

/-- A field of the value in use. -/
def Dev.lf (d : Dev) (off lo w : Nat) : Nat := fld (d.lv off) lo w

/-- A field of the stored value. -/
def Dev.rf (d : Dev) (off lo w : Nat) : Nat := fld (d.reg off) lo w

/-- The 64-bit register at `off`. -/
def Dev.w64 (d : Dev) (off : Nat) : Nat :=
  match tabGet d.wide off with
  | some v => v.toNat
  | none => 0

/-- The 64-bit register at `off` set to `v`. -/
def Dev.setW (d : Dev) (off v : Nat) : Dev :=
  { d with wide := if v % 2 ^ 64 = 0 then tabDel d.wide off else tabSet d.wide off (BitVec.ofNat 64 v) }

/-- A 64-bit counter counts `n` more (R6). -/
def Dev.bump (d : Dev) (off n : Nat) : Dev := d.setW off (d.w64 off + n)

/-- A latched word. -/
def Dev.latched (d : Dev) (off : Nat) : Nat :=
  match tabGet d.latch off with
  | some v => v.toNat
  | none => 0

/-- A word is latched for a later read. -/
def Dev.setLatch (d : Dev) (off v : Nat) : Dev := { d with latch := tabPut d.latch off v 0 }

/-- Replace the bits `mask` of `old` by those of `v`. -/
def mergeBits (old mask v : Nat) : Nat := old - (old &&& mask) + (v &&& mask)

/-- A pending change goes live (R35). -/
def Dev.pendLive (d : Dev) (p : PendWr) : Dev :=
  match rowAt p.off with
  | none => d
  | some r => d.setBoth p.off (d.reg p.off) (mergeBits (d.lv p.off) (p.mask &&& r.rw) p.val)

/-! ## Free values -/

/-- A free value drawn (log entry 5): the draw's counter moves on. -/
def Dev.draw (d : Dev) : Dev × BitVec 64 := ({ d with free := d.free + 1 }, Config.free d.free)

/-! ## Time within the tick (R15 to R17) -/

/-- The first cycle of the headland (R16). -/
def windowEnd : Nat := 9984
/-- The tick the engine runs: the present one, or in a replay the tick replayed (R319). -/
def Dev.engTick (d : Dev) : Nat := d.replayT.getD d.tick
/-- The parity h of the tick the engine runs (R18). -/
def Dev.half (d : Dev) : Nat := d.engTick % 2
/-- The device at cycle `c` of its tick. -/
def Dev.atC (d : Dev) (c : Nat) : Dev := { d with cycle := c }
/-- The tick from which a TICK-class write that reaches its register now is in effect (R35). -/
def Dev.nextDue (d : Dev) : Nat := if d.cycle < windowEnd then d.tick + 1 else d.tick + 2
/-- Low word of the tick number, as event data carry it. -/
def Dev.tickLo (d : Dev) : Nat := d.tick % 2 ^ 32
/-- Upper bits of the tick number, as event data carry them. -/
def Dev.tickHi (d : Dev) : Nat := d.tick / 2 ^ 32 % 2 ^ 16

/-- TICK.AGENDA.HIGH follows the occupancy of the agenda (R456). -/
def Dev.agendaHigh (d : Dev) : Dev :=
  if d.rf R.tickAgenda 16 9 < d.agenda.length then d.setFld R.tickAgenda 16 9 d.agenda.length else d

/-! ## Roles and modes -/

/-- The unit's role (PAIR.STAT.ROLE). -/
def Dev.role (d : Dev) : Role := roleOf (d.rf R.pairStat 0 3)
/-- Pair mode is enabled (PAIR.CTRL.PAIREN). -/
def Dev.paired (d : Dev) : Bool := d.rf R.pairCtrl 31 1 == 1

/-- The phase of a resynchronisation (PAIR.RSSTAT.PHASE). -/
def Dev.phase (d : Dev) : Nat := d.rf R.pairRsstat 0 3
/-- A CATCHUP unit that has not joined runs its engine only in replay (R318, R319). -/
def Dev.engHeld (d : Dev) : Bool := d.paired && d.role == .catchup && d.phase != 5 && d.replayT.isNone
/-- The unit follows the lease holder tick by tick: a SHADOW, or a CATCHUP unit that has joined (R305, R319). -/
def Dev.lockstep (d : Dev) : Bool := d.paired && (d.role == .shadow || (d.role == .catchup && d.phase == 5))

/-! ## Places in DRAM (R402) -/

/-- The 8 GiB configuration (DDR.CFG.SIZE). -/
def Dev.dram8 (d : Dev) : Bool := d.lf R.ddrCfg 0 1 == 1
/-- The sheaf store. -/
def Dev.storeBase (d : Dev) : Nat := if d.dram8 then 0x1B0000000 else 0xD0000000
/-- The size of the sheaf store. -/
def storeSize : Nat := 0x8000000
/-- The end of the delay area named by DRAMCFG. -/
def delayEnd (cfg : Nat) : Nat := if cfg = 1 then 0x80000000 else 0x60000000
/-- The black-box extension. -/
def Dev.bbxExtBase (d : Dev) : Nat := if d.dram8 then 0x1B8000000 else 0xD8000000
/-- The host rings. -/
def Dev.ringBase (d : Dev) : Nat := if d.dram8 then 0x1BC000000 else 0xDC000000
/-- The size of the host-rings region. -/
def ringSize : Nat := 0x2000000
/-- The packet-spill area. -/
def Dev.spillBase (d : Dev) : Nat := if d.dram8 then 0x1BE000000 else 0xDE000000
/-- The replay-and-snapshot region. -/
def Dev.replayBase (d : Dev) : Nat := if d.dram8 then 0x1A0000000 else 0xC0000000
/-- The glean data blocks. -/
def Dev.gleanBase (d : Dev) : Nat := if d.dram8 then 0x80000000 else 0x60000000
/-- The glean check table. -/
def Dev.gleanTable (d : Dev) : Nat := if d.dram8 then 0x19EE00000 else 0xBFA00000

/-! ## Write pointers (R67, R216) -/

/-- The write pointer of a region in the tick the engine runs. -/
def Dev.wpOf (d : Dev) (r : Region) : Nat := (tabGet d.eng.wps r.key).getD 0
/-- The write pointer advances at the boundary into tick `t`: every tick at 96 kHz, into even ticks at 48 kHz. -/
def Region.steps (r : Region) (t : Nat) : Bool := r.rate == 0 || t % 2 == 0
/-- The frame that staging of this tick reads at delay `tap`: the pointer of the next tick less the delay. -/
def Dev.tapFrame (d : Dev) (r : Region) (tap : Nat) : Nat :=
  (d.wpOf r + b2n (r.steps (d.engTick + 1)) + r.depth - tap % max 1 r.depth) % max 1 r.depth

/-! ## Words with a double-bit error (R65) -/

/-- The bytes under one code: a bundle of instruction memory, elsewhere a word. -/
def eccSpan (a : Nat) : Nat := if instrBase 0 0 ≤ a ∧ a < instrBase 48 0 then 12 else 4

/-- `n` bytes from address `a` are written anew: a word written whole has a correct code again. -/
def Dev.eccClean (d : Dev) (a n : Nat) : Dev :=
  { d with eng := { d.eng with ecc2 := d.eng.ecc2.filter (fun w => !decide (a ≤ w ∧ w + eccSpan w ≤ a + n)) } }

/-! ## Changes of a part of the system -/

/-- A change of the device alone. -/
def Sys.onDev (s : Sys) (f : Dev → Dev) : Sys := { s with dev := f s.dev }

/-- A change of memory alone. -/
def Sys.onMem (s : Sys) (f : Memory → Memory) : Sys := { s with mem := f s.mem }

/-- The bytes `bs` written from address `a`. -/
def Sys.store (s : Sys) (a : Nat) (bs : List Byte) : Sys :=
  { s with mem := s.mem.putBytes a bs, dev := s.dev.eccClean a bs.length }

/-- Words written at byte addresses. -/
def Sys.storeWords (s : Sys) (ws : List (Nat × Nat)) : Sys :=
  { s with
      mem := ws.foldl (fun m w => m.putWord w.1 (BitVec.ofNat 32 w.2)) s.mem
      dev := ws.foldl (fun d w => d.eccClean w.1 4) s.dev }

/-- Memory as a reader sees it at cycle `c`: what an external port replaces in that cycle is read as it was (R51). -/
def Sys.memSeen (s : Sys) (c : Nat) : Memory :=
  if s.dev.eng.oldC = c then s.dev.eng.olds.foldl (fun m p => m.put p.1 p.2) s.mem else s.mem

/-- An external port writes bytes, some of them enabled, from address `a` at the present cycle (R51). -/
def Sys.portStore (s : Sys) (a : Nat) (bs : List (Option Byte)) : Sys :=
  let e := s.dev.eng
  let c := s.dev.cycle
  let olds := if e.oldC = c then e.olds else []
  let ws := ((List.range bs.length).zip bs).filterMap (fun p => p.2.map (fun b => (a + p.1, b)))
  let new := (ws.filter (fun p => !olds.any (fun q => q.1 == p.1))).map (fun p => (p.1, s.mem.get p.1))
  let d : Dev := { s.dev with eng := { e with
    olds := olds ++ new
    oldC := c } }
  { s with
      mem := ws.foldl (fun m p => m.put p.1 p.2) s.mem
      dev := if bs.all (fun b => b.isSome) then d.eccClean a bs.length else d }

end Sys2Proof.Machine
end

