-- ==== Sys2Proof/Machine/Flags.lean ====
section
/-!
DEFINITION. Fault flags and status: detecting a fault (FLTSTAT, FLTFIRST, merging, escalation, the yield line and the
posting), clearing it, and the interrupt lines, pins and MSI-X messages that follow (R358 to R364, R368, R371, R380).
-/
namespace Sys2Proof.Machine

/-- Identifiers of the blocks of the data plane (the table of planes of "Scope and Device Overview"). -/
def dataPlane : List Nat :=
  [Blk.tick, Blk.eng, Blk.strm, Blk.mac0, Blk.mac1, Blk.tdm, Blk.pdm, Blk.dec, Blk.mod, Blk.sns, Blk.ddr, Blk.gln,
   Blk.cvu, Blk.syn, Blk.clk]

/-- The severity in force for source `src` of block `b` (R359). -/
def Dev.severity (d : Dev) (b src : Nat) : Nat :=
  if src < 8 then d.rf (R.fltsev0 b) (4 * src) 3 else d.rf (R.fltsev1 b) (4 * (src - 8)) 3

/-- The fault state of a block. -/
def Dev.fltOf (d : Dev) (b : Nat) : FltState := d.flt.getD b {}

/-- A change of a block's fault state. -/
def Dev.onFlt (d : Dev) (b : Nat) (f : FltState → FltState) : Dev := { d with flt := updAt d.flt b f }

/-- A change of EVT alone. -/
def Dev.onEvt (d : Dev) (f : Evt → Evt) : Dev := { d with evt := f d.evt }

/-- A change of the PCI Express endpoint alone. -/
def Dev.onPcie (d : Dev) (f : Pcie → Pcie) : Dev := { d with pcie := f d.pcie }

/-- A block's interrupt line (R360). -/
def Dev.irqLine (d : Dev) (b : Nat) : Bool :=
  (d.reg (R.fltstat b) &&& (d.fltOf b).sev2 &&& d.reg (R.irqen b)) != 0

/-- The vector and pin selection of a routing register (R380). -/
def Dev.routeVec (d : Dev) (off : Nat) : Nat := d.rf off 0 5

/-- EVT.VECPEND: bit v is set while a line routed to vector v is asserted (R380). -/
def Dev.vecLines (d : Dev) : Nat :=
  let m := (List.range 31).foldl (fun acc b => if d.irqLine b then bitSet acc (d.routeVec (R.evtIrqroute b)) true else acc) 0
  if d.evt.notify then bitSet m (d.routeVec R.evtNotifyroute) true else m

/-- INT_N[k] is driven low while a line routed to it is asserted (R380). -/
def Dev.intLow (d : Dev) (k : Nat) : Bool :=
  (List.range 31).any (fun b => d.irqLine b && bit (d.reg (R.evtIrqroute b)) (8 + k)) ||
    (d.evt.notify && bit (d.reg R.evtNotifyroute) (8 + k))

/-- A message of vector `v` can leave: MSI-X and Bus Master Enable set, the vector not masked, the link up, state D0 (R397, R398). -/
def Dev.msixGo (d : Dev) (v : Nat) : Bool :=
  d.pcie.msixEn && d.pcie.busEn && !bit d.pcie.msixMask v && d.rf R.pcieStat 0 1 == 1 && d.rf R.pcieStat 8 2 == 0

/-- A vector's message: sent, or held in the pending-bit array (R380, R398). -/
def Dev.msix (d : Dev) (v : Nat) : Dev :=
  let go := d.msixGo v
  d.onPcie (fun p => if go then { p with sent := p.sent ++ [v] } else { p with msixPend := bitSet p.msixPend v true })

/-- The messages held pending that can leave now are sent (R398). -/
def Dev.msixFlush (d : Dev) : Dev :=
  (bitsOn 32 d.pcie.msixPend).foldl (fun d v =>
    if d.msixGo v then
      let p := { d.pcie with msixPend := bitSet d.pcie.msixPend v false, sent := d.pcie.sent ++ [v] }
      { d with pcie := p }
    else d) d

/-- PME: in D3hot with PME_En set, PME_Status is set and, with the link up, a PM_PME message sent (R397). -/
def Dev.pme (d : Dev) : Dev :=
  if d.pcie.pmeEn && d.rf R.pcieStat 8 2 == 3 then
    ({ d with pcie := { d.pcie with pmeMsgs := d.pcie.pmeMsgs + d.rf R.pcieStat 0 1 } } : Dev).setFld R.pcieStat 1 1 1
  else d

/-- After any change of a line or a route: each vector whose OR of lines has risen sends one message (R380). -/
def Dev.irqUpdate (d : Dev) : Dev :=
  let now := d.vecLines
  let new := (bitsOn 32 now).filter (fun v => !bit d.evt.vecs v)
  (new.foldl (fun d v => d.msix v) d).onEvt (fun e => { e with vecs := now })

/-- A fault is an attributing event (R309, R313): of S2 or above in one of the named blocks, an ECC correction or error of
ENG or DDR, FWD_MISS, and in a SHADOW MOD_DIVERGE and FWD_MISSING. -/
def Dev.attributing (d : Dev) (b src : Nat) : Bool :=
  ([Blk.tick, Blk.eng, Blk.strm, Blk.tdm, Blk.pdm, Blk.dec, Blk.mod, Blk.sns, Blk.ddr, Blk.clk, Blk.syn].contains b &&
      decide (2 ≤ d.severity b src)) ||
    (b == Blk.eng && src == Src.engEccCorr) || (b == Blk.ddr && (src == Src.ddrCorr || src == Src.ddrUncorr || src == Src.ddrLinkCorr)) ||
    (b == Blk.pair && src == Src.pairFwdMiss) ||
    (d.role == .shadow && b == Blk.mod && (src == Src.modModDiverge || src == Src.modFwdMissing))

/-- A fault of source `src` in block `b`, with its three data words, detected at the device's present tick and cycle;
`forced` says that a force is in effect at its site (R366).  FLTSTAT, FLTFIRST and the reaction follow R358 and R362;
a fault of S1 or above is posted towards EVT (R368), at most four of S3 or S4 per tick (R371). -/
def Dev.raiseF (d : Dev) (b src : Nat) (forced : Bool) (d0 d1 d2 : Nat) : Dev :=
  let sev := d.severity b src
  let f := d.fltOf b
  let stat := bitSet (d.reg (R.fltstat b)) src true
  let isFirst := f.first.isNone
  let inWin := match f.react with
    | some r => decide (d.tick ≤ r.last) && decide (1 ≤ sev)
    | none => false
  let recd := match f.react with
    | some r => r.first && inWin
    | none => false
  let oldSev := match f.react with
    | some r => if inWin then r.sev else 0
    | none => 0
  let escal := inWin && decide (oldSev < sev)
  let ff := d.reg (R.fltfirst b)
  let ff1 :=
    if isFirst then src % 16 + sev * 128
    else if recd then fldSet (bitSet ff 10 true) 11 5 (min 31 (fld ff 11 5 + 1))
    else ff
  let react' := if sev = 0 then f.react
    else if inWin then
      match f.react with
      | some r => some { r with sev := max r.sev sev }
      | none => none
    else some { sev := sev, last := d.tick + 1, first := isFirst }
  let yl := decide (sev = 4) && (!inWin || escal)
  let hotN := if 3 ≤ sev then f.hot + 1 else f.hot
  let f1 : FltState :=
    { first := if isFirst then some src else f.first,
      sev2 := if 2 ≤ sev then bitSet f.sev2 src true else f.sev2,
      react := react', yieldL := f.yieldL || yl, hot := hotN }
  let att := d.attributing b src
  let p : Posting :=
    { tick := d.tick, cyc := d.cycle, blk := b, src := src, sev := sev,
      merge := if isFirst then 0 else fld ff1 11 5,
      qual := b2n isFirst + 2 * b2n inWin + 4 * b2n escal + 8 * b2n (forced || d.testMode),
      yieldS := yl, approx := !(dataPlane.contains b),
      epoch := if d.paired then d.reg R.pairEpoch % 256 else 0, d0 := d0 % 2 ^ 32, d1 := d1 % 2 ^ 32, d2 := d2 % 2 ^ 32 }
  let post := fun (e : Evt) =>
    if sev = 0 then e
    else if 3 ≤ sev ∧ 4 < hotN then
      -- folded into the REPEAT of the block's fourth S3 or S4 posting of the tick (R371)
      { e with
          path := foldLast b e.path
          intake := if (e.path.any (fun q => q.blk == b && decide (3 ≤ q.sev))) then e.intake else foldLast b e.intake }
    else { e with path := e.path ++ [p] }
  let mark := fun (e : Evt) => { e with
    errT := e.errT || att
    errR := e.errR || att
    modBad := e.modBad || (b == Blk.mod && (src == Src.modModDiverge || src == Src.modFwdMissing))
    yieldT := if yl then e.yieldT ++ [b] else e.yieldT
    yieldW := if yl then e.yieldW ++ [b] else e.yieldW }
  ((((d.setReg (R.fltstat b) stat).setReg (R.fltfirst b) ff1).onFlt b (fun _ => f1)).onEvt (fun e => post (mark e))).irqUpdate
where
  /-- One more occurrence in the REPEAT of the last S3 or S4 posting of block `b`. -/
  foldLast (b : Nat) (l : List Posting) : List Posting :=
    match l.reverse.findIdx? (fun q => q.blk == b && decide (3 ≤ q.sev)) with
    | some i => updAt l (l.length - 1 - i) (fun q => { q with rep := min 65535 (q.rep + 1) })
    | none => l

/-- A fault with no force at its site. -/
def Dev.raise (d : Dev) (b src d0 d1 d2 : Nat) : Dev := d.raiseF b src false d0 d1 d2

/-- A fault with its data words. -/
structure Flt where
  src : Nat
  d0  : Nat
  d1  : Nat
  d2  : Nat
deriving DecidableEq, Repr

/-- Faults of one block detected in one cycle: higher severity first, then lower source first (R361). -/
def Dev.raiseAll (d : Dev) (b : Nat) (fs : List Flt) : Dev :=
  (sortBy (fun f => (4 - d.severity b f.src) * 16 + f.src) fs).foldl (fun d f => d.raise b f.src f.d0 f.d1 f.d2) d

/-- A W1C of FLTSTAT bits: they clear, and FLTFIRST empties if its source is among them (R358). -/
def Dev.clearFlt (d : Dev) (b mask : Nat) : Dev :=
  let d1 := d.setReg (R.fltstat b) (d.reg (R.fltstat b) - (d.reg (R.fltstat b) &&& mask))
  let f := d.fltOf b
  let d2 := match f.first with
    | some src =>
      if bit mask src then
        (d1.setReg (R.fltfirst b) 0).onFlt b (fun f => { f with
          first := none
          sev2 := f.sev2 - (f.sev2 &&& mask)
          react := f.react.map (fun (r : Reaction) => { r with first := false }) })
      else d1.onFlt b (fun f => { f with sev2 := f.sev2 - (f.sev2 &&& mask) })
    | none => d1.onFlt b (fun f => { f with sev2 := f.sev2 - (f.sev2 &&& mask) })
  d2.irqUpdate

/-- The end of a tick for every block's fault state: yield lines are released, windows that end with the tick end, the
count of S3 and S4 postings restarts (R362, R364, R371). -/
def FltState.endTick (n : Nat) (f : FltState) : FltState :=
  { f with
      yieldL := false
      hot := 0
      react := match f.react with
             | some r => if r.last ≤ n then none else some r
             | none => none }

/-- The blocks whose yield line is asserted, lowest first (R364). -/
def Dev.yields (d : Dev) : List Nat := (List.range 31).filter (fun b => (d.fltOf b).yieldL)

end Sys2Proof.Machine
end

