-- ==== Sys2Proof/Machine/Cvu.lean ====
section
/-!
DEFINITION. The check-value units at their snoop points (R350 to R357).
-/
namespace Sys2Proof.Machine

/-- The parameters of unit `k` (R350, R352). -/
def Dev.crcPar (d : Dev) (k : Nat) : CrcPar :=
  let c := d.lv (R.cvuCfg k)
  { w := fld c 0 7
    poly := d.lv (R.cvuPolylo k) + 2 ^ 32 * d.lv (R.cvuPolyhi k)
    init := d.lv (R.cvuInitlo k) + 2 ^ 32 * d.lv (R.cvuInithi k)
    xorout := d.lv (R.cvuXorlo k) + 2 ^ 32 * d.lv (R.cvuXorhi k)
    refin := bit c 16
    refout := bit c 17 }

/-- The check value unit `k` computes over bytes. -/
def Dev.cvuValue (d : Dev) (k : Nat) (bs : List Byte) : Nat := crcVal (d.crcPar k) bs

/-- A unit's value latched and counted (R355). -/
def Dev.cvuLatch (d : Dev) (k stream v : Nat) : Dev :=
  (((d.setW (R.cvuResult k) v).setFld (R.cvuStat k) 16 1 1).setFld (R.cvuStat k) 0 4 stream).bump (R.cvuUnits k) 1

/-- A spare unit's comparison with EXPECTk (R355); MON_MISMATCH at most once per tick per unit (R357). -/
def Dev.cvuCompare (d : Dev) (k stream v : Nat) : Dev :=
  let e := d.reg (R.cvuExpectlo k) + 2 ^ 32 * d.reg (R.cvuExpecthi k)
  if d.lf (R.cvuCfg k) 30 1 = 1 ∧ v ≠ e then
    let d1 := (d.setFld (R.cvuStat k) 17 1 1).bump (R.cvuFail k) 1
    if bit d1.cvuSeen k then d1
    else ({ d1 with cvuSeen := bitSet d1.cvuSeen k true } : Dev).raise Blk.cvu Src.cvuMonMismatch k (v % 2 ^ 32) stream
  else d

/-- One unit of data at snoop point `code`: the bound unit and every attached spare unit compute over it (R351, R353,
R355). -/
def Dev.cvuSnoop (d : Dev) (code stream : Nat) (bs : List Byte) : Dev :=
  let d1 := d.cvuLatch code stream (d.cvuValue code bs)
  (rangeFrom 7 9).foldl (fun d k =>
    if d.lf (R.cvuCfg k) 31 1 = 1 ∧ d.lf (R.cvuCfg k) 24 4 = code then
      let v := d.cvuValue k bs
      (d.cvuLatch k stream v).cvuCompare k stream v
    else d) d1

/-- At a boundary: STAT.VALID of a spare unit that is newly attached is cleared (R356, STATk.VALID). -/
def Dev.cvuAttach (d : Dev) : Dev :=
  let on := (rangeFrom 7 9).foldl (fun m k => bitSet m k (d.lf (R.cvuCfg k) 31 1 == 1)) 0
  let new := (rangeFrom 7 9).filter (fun k => bit on k && !bit d.cvuOn k)
  { each new (fun k d => d.setFld (R.cvuStat k) 16 1 0) d with cvuOn := on }

/-- A failed check of a bound unit's site (R354). -/
def Dev.cvuFail (d : Dev) (k : Nat) : Dev := d.bump (R.cvuFail k) 1

end Sys2Proof.Machine
end

