-- ==== Sys2Proof/Machine/Arith.lean ====
section
/-!
DEFINITION. The arithmetic of Tilth (R82 to R85, R93, R94, R97, R99, R100): values are converted to integers, computed
exactly, and narrowed at the end.
-/
namespace Sys2Proof.Machine

/-- A D register as a Q1.31 integer (R82). -/
def dInt (x : Word) : Int := x.toInt

/-- The low 32 bits of an exact result (R85, sat = 0). -/
def wrap32 (r : Int) : Word := BitVec.ofInt 32 r

/-- Saturation or wrapping of an exact result by the sat bit (R85). -/
def satWrap (sat : Bool) (r : Int) : Word :=
  if sat then wrap32 (clampI (-2147483648) 2147483647 r) else wrap32 r

/-- A stage's result brought to Q1.31 with saturation: the value and whether it saturated (R84). -/
def satQ31 (x : Int) : Int × Bool :=
  let y := clampI (-2147483648) 2147483647 x
  (y, y != x)

/-- The exact product of two D registers, sign-extended onto the accumulator (R82, R83). -/
def mulAcc (x y : Word) : BitVec 72 := BitVec.ofInt 72 (dInt x * dInt y)

/-- EXT: an accumulator to a D value with shift `sh`, rounding half up (R84). -/
def extAcc (a : BitVec 72) (sh : Int) (sat : Bool) : Word :=
  let v := a.toInt * ((2 ^ (sh + 8).toNat : Nat) : Int)
  satWrap sat (roundDiv v (2 ^ 39))

/-- ALD: a D value onto the accumulator grid (R93). -/
def aldAcc (x : Word) (sh : Int) : BitVec 72 :=
  BitVec.ofInt 72 (dInt x * ((2 ^ (31 + sh).toNat : Nat) : Int))

/-- The number of bits below bit 31 that equal bit 31, from bit 30 down to the first that differs (R97). -/
def expoGo (v : Nat) (top : Bool) : Nat → Nat
  | 0 => 0
  | n + 1 => if bit v n == top then 1 + expoGo v top n else 0

/-- expo(x) of R97. -/
def expo (x : Word) : Nat := expoGo x.toNat (bit x.toNat 31) 31

/-- SHE: the signed shift count in Dt[5:0], with −32 treated as −31 (R97). -/
def sheCount (t : Word) : Int := max (sgn 6 t.toNat) (-31)

/-- SHE of R97. -/
def sheVal (s t : Word) (sat : Bool) : Word :=
  let a := sheCount t
  if a ≥ 0 then satWrap sat (dInt s * ((2 ^ a.toNat : Nat) : Int))
  else wrap32 (shrI (dInt s) (-a).toNat)

/-- RND k of R97. -/
def rndVal (s : Word) (k : Nat) (sat : Bool) : Word :=
  let r := roundDiv (dInt s) (2 ^ k) * ((2 ^ k : Nat) : Int)
  if r > 2147483647 then (if sat then wrap32 (2147483648 - ((2 ^ k : Nat) : Int)) else wrap32 r)
  else wrap32 r

/-- CLAMP of R97. -/
def clampVal (s lo hi : Word) : Word := wrap32 (min (max (dInt s) (dInt lo)) (dInt hi))

/-- The condition of SEL (R97). -/
def selCond (cond : Nat) (c : Word) : Bool :=
  match cond with
  | 0 => dInt c < 0
  | 1 => dInt c ≥ 0
  | 2 => c == 0
  | _ => c != 0

/-- FLOOR of R100. -/
def gainFloor : Int := 0x80

/-- The gain after one due step towards a different target (R100). -/
def gainMove (g t : Int) (d : Nat) : Int :=
  let st := shrI (g * (d : Int)) 16
  if g < t then
    if g < gainFloor then min gainFloor t else min (g + st) t
  else
    if g - st < gainFloor ∧ t < gainFloor then t else max (g - st) t

/-- GSTEP of R100: the new low and high words of the gain pair from the gain pair, the coefficient pair and the sample.
The countdown is the 16-bit field of R99, so a decrement of 0 gives 0xFFFF. -/
def gstepVal (g0 g1 c0 c1 x : Word) : Word × Word :=
  let g := dInt g0
  let cnt := fld g1.toNat 0 16
  let ps := bit g1.toNat 16
  let t := max (dInt c0) 0
  let d := fld c1.toNat 0 16
  let reload := fld c1.toNat 16 16
  let sx := bit x.toNat 31
  let cross := x == 0 || sx != ps
  let due := cross || (reload != 0 && decide (cnt ≤ 1))
  let r : Int × Nat :=
    if g = t then (g, reload)
    else if due then (gainMove g t d, reload)
    else (g, (cnt + 65535) % 65536)
  (wrap32 r.1, BitVec.ofNat 32 (b2n sx * 65536 + r.2))

/-- modify(p, m) of R89. -/
def modifyPtr (p : BitVec 16) (m : Word) : BitVec 16 :=
  let step := sgn 16 m.toNat
  let len := fld m.toNat 16 16
  if len = 0 then BitVec.ofInt 16 ((p.toNat : Int) + step)
  else
    let b := pow2Ge 17 1 len
    let base := p.toNat - p.toNat % b
    BitVec.ofNat 16 (base + ((((p.toNat % b : Nat) : Int) + step) % (len : Int)).toNat)

end Sys2Proof.Machine
end

