-- ==== Sys2Proof/Machine/Operands.lean ====
section
/-!
DEFINITION. Operand forms of Tilth: registers and their pending results (R77 to R81), the three operand buses with their
address checks (R50 to R54, R59 to R61), addressing modes (R88, R89), the issue sequence with its loops (R91, R92), and
the close of an issue cycle with stalls, stores and write collisions (R51, R55, R56).
-/
namespace Sys2Proof.Machine

/-! ## Pending results -/

/-- A result written to its register. -/
def Lane.apply (l : Lane) (p : Pend) : Lane :=
  match p.dst with
  | .d i => { l with d := updAt l.d i (fun _ => BitVec.ofNat 32 p.val) }
  | .a i => { l with a := updAt l.a i (fun _ => BitVec.ofNat 72 p.val) }
  | .p i => { l with p := updAt l.p i (fun _ => BitVec.ofNat 16 p.val) }
  | .ml i => { l with m := updAt l.m i (fun w => BitVec.ofNat 32 (fldSet w.toNat 0 16 p.val)) }
  | .mh i => { l with m := updAt l.m i (fun w => BitVec.ofNat 32 (fldSet w.toNat 16 16 p.val)) }

/-- Every result due by issue `k` made visible, earliest first (R78, R79). -/
def Lane.settle (l : Lane) (k : Nat) : Lane :=
  let due := sortBy (fun p => p.due) (l.pend.filter (fun p => decide (p.due ≤ k)))
  due.foldl Lane.apply { l with pend := l.pend.filter (fun p => decide (k < p.due)) }

/-- Whether result `p` is kept over result `q` of the same register and instant (R81): the later issue, then the rank of
its slot. -/
def Pend.beats (p q : Pend) : Bool := decide (q.iss < p.iss) || (p.iss == q.iss && decide (q.rank ≤ p.rank))

/-- A result added to the pending ones, with whether it collides with another (R81). -/
def Lane.push (l : Lane) (p : Pend) : Lane × Bool :=
  match l.pend.find? (fun q => q.due == p.due && decide (q.dst = p.dst)) with
  | none => ({ l with pend := l.pend ++ [p] }, false)
  | some q =>
    if p.beats q then
      ({ l with pend := l.pend.filter (fun x => !(x.due == p.due && decide (x.dst = p.dst))) ++ [p] }, true)
    else (l, true)

/-! ## The issue sequence -/

/-- The program counter after bundle `pc`, through the active loops, inner first (R91). -/
def nextPc : List Loop → Nat → List Loop × Nat
  | [], pc => ([], pc + 1)
  | lp :: t, pc =>
    if pc = lp.last then
      (if 0 < lp.left then ({ lp with left := lp.left - 1 } :: t, lp.first) else nextPc t pc)
    else (lp :: t, pc + 1)

/-- L0 and L1: the passes that remain of the outer and the inner REP (R77); the pass in progress is counted among them
(DESIGN CHOICE, log entry 123: the spec does not say, and no instruction reads them). -/
def loopRegs (ls : List Loop) : List (BitVec 16) :=
  match ls.reverse with
  | [] => [0, 0]
  | [o] => [BitVec.ofNat 16 (o.left + 1), 0]
  | o :: i :: _ => [BitVec.ofNat 16 (o.left + 1), BitVec.ofNat 16 (i.left + 1)]

/-- The lane at its next bundle. -/
def Lane.next (l : Lane) : Lane :=
  let r := nextPc l.loops l.pc
  { l with
    loops := r.1
    l := loopRegs r.1
    pc := r.2
    iss := l.iss + 1
    sBusy := false
    cBusy := false
    trBusy := false
    tw := none
    void := false }

/-- The lane moved on by `n` issues; it stops at EOT and at bundle 8,191 (R49, R92). -/
def Lane.advance : Nat → Lane → Lane
  | 0, l => l
  | n + 1, l => if l.endC.isSome || l.pc == 8191 then l else Lane.advance n l.next

/-- The bundles that a lane issues in `n` issues from where it stands, each with its issue, up to bundle 8,191. -/
def Lane.path : Nat → Lane → List (Nat × Nat)
  | 0, _ => []
  | n + 1, l =>
    if l.endC.isSome then []
    else (l.iss, l.pc) :: (if l.pc == 8191 then [] else Lane.path n l.next)

/-- The issue before `k` at which a lane without EOT issues bundle 8,191 (R92). -/
def Lane.outAt (l : Lane) (k : Nat) : Option Nat :=
  if l.endC.isSome then none
  else if l.loops.isEmpty then
    (if l.iss + (8191 - l.pc) < k then some (l.iss + (8191 - l.pc)) else none)
  else ((l.path (k - l.iss)).find? (fun p => p.2 == 8191)).map (·.1)

/-- The bundle of issue `k` undone: its results and chain operations, its REP, its EOT. -/
def Lane.unissue (l : Lane) (k : Nat) : Lane :=
  let ls := match l.loops with
    | o :: t => if o.first = l.pc + 1 then t else l.loops
    | [] => []
  { l with
    pend := l.pend.filter (fun p => p.iss != k)
    chain := l.chain.map (fun c => if c.iss = some k then { cur := c.prev, prev := c.prev } else c)
    loops := ls
    l := loopRegs ls
    endC := none
    sBusy := false
    cBusy := false
    trBusy := false
    tw := none }

/-! ## The lane context -/

/-- One lane at one issue, with memory as loads of the issue see it. -/
structure LaneCtx where
  n   : Nat
  k   : Nat
  mem : Memory
  ln  : Lane
  dev : Dev

/-- LANE_ERR of a kind (R71, R101). -/
def LaneCtx.err (x : LaneCtx) (kind : Nat) : LaneCtx :=
  { x with ln := { x.ln with err := true }, dev := x.dev.raise Blk.eng Src.engLaneErr x.n kind x.ln.pc }

/-- The bundle executes as a four-slot NOP, with LANE_ERR of a kind: what its other slots have done is undone, and the slots still to come do
nothing (R101).  A REP or an EOT that breaks R91 makes its bundle an invalid one (DEDUCED, log entry 124). -/
def LaneCtx.void (x : LaneCtx) (kind : Nat) : LaneCtx :=
  let e := x.dev.eng
  let d : Dev := { x.dev with eng := { e with
    stores := e.stores.filter (fun r => r.lane != x.n)
    sreqs := e.sreqs.filter (fun r => r.lane != x.n) } }
  let ln : Lane := { x.ln.unissue x.k with void := true }
  ({ x with ln := ln, dev := d } : LaneCtx).err kind

/-- A pending result of latency `lat` with a slot rank, LANE_ERR kind 3 on a collision (R78, R81).  Where the two results were issued in different
bundles, the record names the bundle and the cycle of the later one, whose issue makes the collision (DESIGN CHOICE, log entry 125). -/
def LaneCtx.res (x : LaneCtx) (dst : Dst) (lat val rank : Nat) : LaneCtx :=
  let r := x.ln.push { due := x.k + lat, dst := dst, val := val, iss := x.k, rank := rank }
  let y := { x with ln := r.1 }
  if r.2 then y.err 3 else y

/-- Slot ranks of R81, and within the L slot the order S, C, T of an LDX. -/
def rankM : Nat := 6
/-- N slot. -/
def rankN : Nat := 5
/-- X slot. -/
def rankX : Nat := 4
/-- L slot, T-bus. -/
def rankT : Nat := 3
/-- L slot, C-bus. -/
def rankC : Nat := 2
/-- L slot, S-bus. -/
def rankS : Nat := 1

/-- D register `i` as operations of the present issue read it (R79). -/
def LaneCtx.d (x : LaneCtx) (i : Nat) : Word := x.ln.d.getD i 0
/-- P register `i`. -/
def LaneCtx.p (x : LaneCtx) (i : Nat) : BitVec 16 := x.ln.p.getD i 0
/-- M register `i`. -/
def LaneCtx.m (x : LaneCtx) (i : Nat) : Word := x.ln.m.getD i 0
/-- Accumulator `i` as its readers see it (R80). -/
def LaneCtx.a (x : LaneCtx) (i : Nat) : BitVec 72 := x.ln.a.getD i 0

/-- The value with which a chain operation of the present issue combines (R80). -/
def Chain.base (c : Chain) (k : Nat) : BitVec 72 := if c.iss = some k then c.prev else c.cur

/-- A chain operation: accumulator `i` becomes `f` of its latest chain value (R80); a second one of the same issue is a
collision, decided by rank (R81). -/
def LaneCtx.chain (x : LaneCtx) (i rank : Nat) (f : BitVec 72 → BitVec 72) : LaneCtx :=
  let c := x.ln.chain.getD i {}
  let b := c.base x.k
  let v := f b
  let c' : Chain :=
    if c.iss = some x.k then (if c.rank ≤ rank then { c with cur := v, rank := rank } else c)
    else { cur := v, prev := b, iss := some x.k, rank := rank }
  ({ x with ln := { x.ln with chain := updAt x.ln.chain i (fun _ => c') } }).res (.a i) 3 v.toNat rank

/-! ## The buses -/

/-- The internal byte address of word pointer `ptr` of S-bus region `reg` in the present tick, and whether reads and
writes of it are allowed (R54, R59). -/
def Dev.sRegion (d : Dev) (reg ptr : Nat) : Option (Nat × Bool) :=
  let h := d.half
  if reg = 0 then (if ptr ≤ 0xFFFF then some (inHalf h + 4 * ptr, false) else none)
  else if reg = 1 then (if ptr ≤ 0xEFFF then some (inHalf h + 0x40000 + 4 * ptr, false) else none)
  else if reg = 2 then (if ptr ≤ 0xFFFF then some (outHalf h + 4 * ptr, true) else none)
  else if reg = 3 then (if ptr ≤ 0xFFFF then some (outHalf h + 0x40000 + 4 * ptr, true) else none)
  else if reg = 4 then
    (if ptr ≤ 0x0FFF then some ((if d.lf R.engStat 6 1 = 1 then fwdLand h else locSect h) + 4 * ptr, false) else none)
  else if reg ≤ 11 then (if ptr ≤ 0xFFFF then some (exBase + 0x40000 * (reg - 5) + 4 * ptr, true) else none)
  else if reg = 12 then (if ptr ≤ 0xDFFF then some (exBase + 0x1C0000 + 4 * ptr, true) else none)
  else none

/-- The outcome of checking an access: its internal byte address, or the kind of LANE_ERR. -/
abbrev Access := Except Nat Nat

/-- The S-bus check of an access by its region, pointer, width and direction at cycle `c` (R51, R54, R60).  A LOC read that is both inside the
fence and in breach of R54 is reported as kind 4 (DESIGN CHOICE, log entry 126: the spec names no order of the kinds). -/
def Dev.sCheck (d : Dev) (reg ptr : Nat) (wide wr : Bool) (c : Nat) : Access :=
  match d.sRegion reg ptr with
  | none => .error 4
  | some (a, canWr) =>
    if wr && !canWr then .error 4
    else if wide && ptr % 2 == 1 then .error 4
    else if reg = 4 ∧ d.paired ∧ c < 1024 then .error 5
    else .ok a

/-- The C-bus check (R51, R61). -/
def cCheck (n ptr : Nat) (wide : Bool) : Access :=
  if ptr ≥ 32768 ∨ (wide ∧ ptr % 2 = 1) then .error 4 else .ok (coefBase n + 4 * ptr)

/-- The T-bus check (R51, R61). -/
def tCheck (n ptr : Nat) (wide : Bool) : Access :=
  if ptr ≥ 16384 ∨ (wide ∧ ptr % 2 = 1) then .error 4 else .ok (stateBase n + 4 * ptr)

/-- The word at address `a`, LANE_ERR kind 1 when it holds a double-bit error (R65, R101). -/
def LaneCtx.readWord (x : LaneCtx) (a : Nat) : LaneCtx × Word :=
  ((if x.dev.eng.ecc2.contains a then x.err 1 else x), x.mem.word a)

/-- The words of an access of one or two words; an access in error is suppressed and reads zero (R101). -/
def LaneCtx.readAt (x : LaneCtx) (acc : Access) (wide : Bool) : LaneCtx × Word × Word :=
  match acc with
  | .error kind => (x.err kind, 0, 0)
  | .ok a =>
    let r := x.readWord a
    if wide then
      let q := r.1.readWord (a + 4)
      (q.1, r.2, q.2)
    else (r.1, r.2, 0)

/-- Stores of the present issue (R51, R88, R98). -/
def LaneCtx.storeAt (x : LaneCtx) (acc : Access) (wide : Bool) (w0 w1 : Word) (sptr : Option (Nat × Nat)) : LaneCtx :=
  match acc with
  | .error kind => x.err kind
  | .ok a =>
    let st : List StoreReq := { lane := x.n, addr := a, val := w0, sptr := sptr } ::
      (if wide then [{ lane := x.n, addr := a + 4, val := w1, sptr := sptr.map (fun q => (q.1, q.2 + 1)) }] else [])
    { x with dev := { x.dev with eng := { x.dev.eng with stores := x.dev.eng.stores ++ st } } }

/-- An S-bus request noted for the crossbar (R55). -/
def LaneCtx.sNote (x : LaneCtx) (acc : Access) (ptr : Nat) (wr : Bool) : LaneCtx :=
  match acc with
  | .error _ => x
  | .ok a =>
    { x with dev := { x.dev with eng := { x.dev.eng with
        sreqs := x.dev.eng.sreqs ++ [{ lane := x.n, bank := ptr / 2 % 64, row := a / 8, wr := wr }] } } }

/-- The cycle of the present issue. -/
def LaneCtx.cyc (x : LaneCtx) : Nat := x.k + x.dev.eng.stalls

/-- An S-bus read; a second access of the bus in one bundle is a bus collision (R90). -/
def LaneCtx.sRead (x : LaneCtx) (reg ptr : Nat) (wide : Bool) : LaneCtx × Word × Word :=
  if x.ln.sBusy then (x.err 3, 0, 0)
  else
    let acc := x.dev.sCheck reg ptr wide false x.cyc
    let y : LaneCtx := { x with ln := { x.ln with sBusy := true } }
    (y.sNote acc ptr false).readAt acc wide

/-- A C-bus read (R61, R90). -/
def LaneCtx.cRead (x : LaneCtx) (ptr : Nat) (wide : Bool) : LaneCtx × Word × Word :=
  if x.ln.cBusy then (x.err 3, 0, 0)
  else ({ x with ln := { x.ln with cBusy := true } } : LaneCtx).readAt (cCheck x.n ptr wide) wide

/-- A T-bus read (R61, R90). -/
def LaneCtx.tRead (x : LaneCtx) (ptr : Nat) (wide : Bool) : LaneCtx × Word × Word :=
  if x.ln.trBusy then (x.err 3, 0, 0)
  else ({ x with ln := { x.ln with trBusy := true } } : LaneCtx).readAt (tCheck x.n ptr wide) wide

/-- An S-bus write (R54, R90). -/
def LaneCtx.sWrite (x : LaneCtx) (reg ptr : Nat) (wide : Bool) (w0 w1 : Word) : LaneCtx :=
  if x.ln.sBusy then x.err 3
  else
    let acc := x.dev.sCheck reg ptr wide true x.cyc
    let y : LaneCtx := { x with ln := { x.ln with sBusy := true } }
    (y.sNote acc ptr true).storeAt acc wide w0 w1 (some (reg, ptr))

/-- A T-bus write of a slot (R61, R90); of two in one bundle the one whose slot ranks higher is made (R81). -/
def LaneCtx.tWrite (x : LaneCtx) (ptr : Nat) (wide : Bool) (w0 w1 : Word) (rank : Nat) : LaneCtx :=
  let put := fun (y : LaneCtx) =>
    ({ y with ln := { y.ln with tw := some rank } } : LaneCtx).storeAt (tCheck x.n ptr wide) wide w0 w1 none
  match x.ln.tw with
  | none => put x
  | some r =>
    if rank ≤ r then x.err 3
    else
      let e := x.dev.eng
      put (({ x with dev := { x.dev with eng := { e with
        stores := e.stores.filter (fun q => !(q.lane == x.n && q.sptr.isNone)) } } } : LaneCtx).err 3)

/-- A loaded word or pair written to its D registers with latency 2 (R78). -/
def LaneCtx.loadD (x : LaneCtx) (i : Nat) (wide : Bool) (w0 w1 : Word) (rank : Nat) : LaneCtx :=
  let y := x.res (.d i) 2 w0.toNat rank
  if wide then y.res (.d (i + 1)) 2 w1.toNat rank else y

/-- The post-modify of P register `i` by M register `j` (R89), latency 1. -/
def LaneCtx.postMod (x : LaneCtx) (i j rank : Nat) : LaneCtx :=
  x.res (.p i) 1 (modifyPtr (x.p i) (x.m j)).toNat rank

/-- The addressing modes of LD and ST (R88): the pointer used, and the pointer afterwards if it changes. -/
def LaneCtx.mode (x : LaneCtx) (p mode imm : Nat) : Nat × Option Nat :=
  let pv := x.p p
  let off := (BitVec.ofInt 16 ((pv.toNat : Int) + sgn 8 imm)).toNat
  match mode with
  | 0 => (pv.toNat, none)
  | 1 => (pv.toNat, some off)
  | 2 => (pv.toNat, some (modifyPtr pv (x.m (fld imm 0 2))).toNat)
  | _ => (off, none)

/-! ## The close of an issue cycle -/

/-- Distinct accesses of one bank: every write, and one for each row read (R55). -/
def bankLoad (l : List SReq) : Nat :=
  (l.filter (·.wr)).length + ((l.filter (fun r => !r.wr)).map (·.row)).eraseDups.length

/-- The stall cycles of an issue: k − 1 for the most heavily requested bank (R55). -/
def stallsOf (l : List SReq) : Nat :=
  maxN ((List.range 64).map (fun b => bankLoad (l.filter (fun r => r.bank == b)))) - 1

/-- The pairs of lanes that store to one word in one issue, with the pointer (R56). -/
def collisions : List StoreReq → List (Nat × Nat × Nat)
  | [] => []
  | s :: t =>
    match t.find? (fun q => q.addr == s.addr && q.lane != s.lane) with
    | some q => (s.lane, q.lane, (s.sptr.getD (0, 0)).2) :: collisions t
    | none => collisions t

/-- The address word of a digest (R351): lane in [25:20], region code in [19:16], word pointer in [15:0]. -/
def digWord (lane reg ptr : Nat) : Nat := lane * 2 ^ 20 + reg * 2 ^ 16 + ptr

/-- The digest words of the stores to the outbound half (R308, R351). -/
def digSOf (l : List StoreReq) : List (Nat × Nat) :=
  l.filterMap (fun r => match r.sptr with
    | some (reg, ptr) => if reg = 2 ∨ reg = 3 then some (digWord r.lane reg ptr, r.val.toNat) else none
    | none => none)

/-- The digest words of the stores to state memory (R308, R351). -/
def digTOf (l : List StoreReq) : List (Nat × Nat) :=
  l.filterMap (fun r => match r.sptr with
    | some _ => none
    | none => some (digWord r.lane 0 ((r.addr - stateBase r.lane) / 4), r.val.toNat))

/-- The issue cycle closes: its stores are made in ascending lane order, write collisions are raised, and the stall
cycles are counted (R51, R55, R56). -/
def Sys.closeIssue (s : Sys) : Sys :=
  let e := s.dev.eng
  let sts := sortBy (fun r => r.lane) e.stores
  let mem := sts.foldl (fun m r => m.putWord r.addr r.val) s.mem
  let k := stallsOf e.sreqs
  let d0 := { s.dev with cycle := max s.dev.cycle (e.issue + e.stalls) }
  let d1 := (collisions sts).foldl (fun d c => d.raise Blk.eng Src.engWrCollide c.1 c.2.1 c.2.2) d0
  let d2 := sts.foldl (fun d r => d.eccClean r.addr 4) d1
  let e2 := { d2.eng with
    stores := []
    sreqs := []
    stalls := e.stalls + k
    digS := e.digS ++ digSOf sts
    digT := e.digT ++ digTOf sts }
  { s with mem := mem, dev := ({ d2 with eng := e2 } : Dev).bump R.engStallcnt k }

/-- A lane runs: its cluster's bit of ENG.STAT.CLRUN is set and the engine runs (R48). -/
def Dev.laneRuns (d : Dev) (n : Nat) : Bool :=
  decide (n < 48) && bit (d.reg R.engStat) 4 && bit (d.reg R.engStat) (n / 16)

/-- The S2 sources of an end cycle: above the declared count, and above 6,400 in pair mode (R58). -/
def Dev.endFaults (d : Dev) (n c : Nat) : List Flt :=
  let decl := match d.ldr.act with
    | some sh => sh.decl.getD n 0
    | none => 9984
  (if decl < c then [{ src := Src.engDeclExceed, d0 := n, d1 := c, d2 := decl }] else []) ++
  (if d.paired ∧ 6400 < c then [{ src := Src.engPairCeil, d0 := n, d1 := c, d2 := 0 }] else [])

/-- LANE_ERR of lane `n` at cycle `c`; after the close of the window LANESTAT takes it as well (R71). -/
def Dev.laneErr (d : Dev) (n kind bundle c : Nat) : Dev :=
  let d1 := ((d.atC c).raise Blk.eng Src.engLaneErr n kind bundle).atC d.cycle
  let d2 := if windowEnd ≤ c then d1.setFld (R.engLanestat n) 18 1 1 else d1
  { d2 with eng := { d2.eng with lanes := updAt d2.eng.lanes n (fun l => { l with err := true }) } }

/-- Bundles of lane `n`'s active bank that hold a double-bit error (R65). -/
def Dev.badBundles (d : Dev) (n : Nat) : List Nat :=
  let b := instrBase n (d.rf R.engStat 5 1)
  (d.eng.ecc2.filter (fun a => decide (b ≤ a ∧ a < b + 0x20000))).map (fun a => (a - b) / 16)

/-- A lane that has issued bundle 8,191 at issue `j`, cycle `c`, without EOT stops after it: LANE_ERR kind 3, and that cycle is its end cycle
(R58, R92). -/
def Dev.laneOut (d : Dev) (n j c : Nat) : Dev :=
  let d1 := d.laneErr n 3 8191 c
  let d2 := ((d1.atC c).raiseAll Blk.eng (d1.endFaults n c)).atC d.cycle
  { d2 with eng := { d2.eng with lanes := updAt d2.eng.lanes n (fun l =>
      { (l.advance (j - l.iss)) with endC := some c }) } }

/-- Lane `n` passes the issues from `i0`, which has closed and began when `st` stall cycles were counted, to before issue `k`: an instruction
word with a double-bit error is met (LANE_ERR kind 1, a four-slot NOP; at every pass of a loop: DESIGN CHOICE, log entry 127), and bundle 8,191 stops
the lane. -/
def Dev.lanePass (d : Dev) (i0 st k n : Nat) : Dev :=
  let l := d.eng.lanes.getD n {}
  let cyc := fun (j : Nat) => j + (if j ≤ i0 then st else d.eng.stalls)
  let bad := d.badBundles n
  let d1 := if bad.isEmpty then d else
    each ((l.path (k - l.iss)).filter (fun p => decide (i0 ≤ p.1) && bad.contains p.2 && !(p.1 == l.iss && l.void)))
      (fun p d => d.laneErr n 1 p.2 (cyc p.1)) d
  match l.outAt k with
  | some j => d1.laneOut n j (cyc j)
  | none => d1

/-- The issue in progress closes, and the issues up to `k s` pass, `s` being the system with its stores made. -/
def Sys.passTo (s : Sys) (k : Sys → Nat) : Sys :=
  let s1 := s.closeIssue
  s1.onDev (fun d =>
    let d1 := each ((List.range 48).filter d.laneRuns) (fun n d => d.lanePass s.dev.eng.issue s.dev.eng.stalls (k s1) n) d
    { d1 with eng := { d1.eng with issue := k s1 } })

/-- The engine at issue `k`: earlier issues close. -/
def Sys.toIssue (s : Sys) (k : Nat) : Sys := if s.dev.eng.issue < k then s.passTo (fun _ => k) else s

/-- The issue in progress closes when another agent acts at a later cycle `c` (R51). -/
def Sys.toCycle (s : Sys) (c : Nat) : Sys :=
  let e := s.dev.eng
  if (e.stores.isEmpty && e.sreqs.isEmpty) || decide (c ≤ e.issue + e.stalls) then s else s.toIssue (e.issue + 1)

/-- The lane of a context put back. -/
def LaneCtx.back (x : LaneCtx) (s : Sys) : Sys :=
  { s with dev := { x.dev with eng := { x.dev.eng with lanes := updAt x.dev.eng.lanes x.n (fun _ => x.ln) } } }

/-- Lane `n` at issue `k` of the tick (R73 to R81): the system with earlier issues closed, and the lane's context if it executes there.  A lane
that does not run, has ended before that issue, or whose issue lies behind the engine's or beyond the program window executes nothing (R16, R48,
R49); nor does a bundle that executes as a four-slot NOP, among them one whose instruction word holds a double-bit error (R65, R101). -/
def Sys.laneAt (s : Sys) (n k : Nat) : Sys × Option LaneCtx :=
  if !s.dev.laneRuns n || decide (k < s.dev.eng.issue) then (s, none)
  else
    let s1 := s.toIssue k
    let c := k + s1.dev.eng.stalls
    if windowEnd ≤ c then (s1, none)
    else
      let l := s1.dev.eng.lanes.getD n {}
      let r := l.advance (k - l.iss)
      let d1 := { s1.dev with cycle := c }
      let x : LaneCtx := { n := n, k := k, mem := s1.memSeen c, ln := r.settle k, dev := d1 }
      if r.iss ≠ k ∨ r.void = true then (s1, none)
      else if (s1.dev.badBundles n).contains r.pc then ((x.void 1).back s1, none)
      else (s1, some x)

/-- One operation of lane `n` in issue `k`. -/
def Sys.laneOp (s : Sys) (n k : Nat) (f : LaneCtx → LaneCtx) : Sys :=
  match (s.laneAt n k).2 with
  | some x => (f x).back (s.laneAt n k).1
  | none => (s.laneAt n k).1

end Sys2Proof.Machine
end

