-- ==== Sys2Proof/Machine/Tilth.lean ====
section
/-!
DEFINITION. The Tilth operations on one lane at one issue (R86 to R100), what each operation of a slot does, and their decoding from a bundle
(R73, R86 to R98, R100).
-/
namespace Sys2Proof.Machine

/-! ## The L slot -/

/-- The checks of an LDX encoding: some access enabled; the fields of a disabled access zero; S pointers P0 to P3; region
codes in range are checked with the access (R86). -/
def ldxOk (sa ca ta : LdxAcc) (tdir : Bool) : Bool :=
  (sa.en || ca.en || ta.en) &&
  (sa.en || decide (sa.pr = 0 ∧ sa.reg = 0 ∧ sa.ptr = 0 ∧ sa.md = 0)) &&
  (ca.en || decide (ca.pr = 0 ∧ ca.ptr = 0 ∧ ca.md = 0)) &&
  (ta.en || (decide (ta.pr = 0 ∧ ta.ptr = 0 ∧ ta.md = 0) && !tdir)) &&
  decide (sa.pr < 8 ∧ ca.pr < 8 ∧ ta.pr < 8 ∧ sa.ptr < 4 ∧ ca.ptr < 8 ∧ ta.ptr < 8 ∧ sa.md < 4 ∧ ca.md < 4 ∧ ta.md < 4
    ∧ sa.reg < 16)

/-- LDX (R86): up to three 64-bit accesses, each with its post-modify. -/
def tLdx (sa ca ta : LdxAcc) (tdir : Bool) (x : LaneCtx) : LaneCtx :=
  if !ldxOk sa ca ta tdir then x.void 3
  else
    let x1 := if sa.en then
        let r := x.sRead sa.reg (x.p sa.ptr).toNat true
        (r.1.loadD (2 * sa.pr) true r.2.1 r.2.2 rankS).postMod sa.ptr sa.md rankS
      else x
    let x2 := if ca.en then
        let r := x1.cRead (x.p ca.ptr).toNat true
        (r.1.loadD (2 * ca.pr) true r.2.1 r.2.2 rankC).postMod ca.ptr ca.md rankC
      else x1
    if ta.en then
      if tdir then
        (x2.tWrite (x.p ta.ptr).toNat true (x.d (2 * ta.pr)) (x.d (2 * ta.pr + 1)) rankT).postMod ta.ptr ta.md rankT
      else
        let r := x2.tRead (x.p ta.ptr).toNat true
        (r.1.loadD (2 * ta.pr) true r.2.1 r.2.2 rankT).postMod ta.ptr ta.md rankT
    else x2

/-- The checks of an LD or ST encoding (R88). -/
def ldStOk (f : LdSt) (store : Bool) : Bool :=
  decide (f.d < 16 ∧ f.bus < 3 ∧ f.reg < 16 ∧ f.p < 8 ∧ f.mode < 4 ∧ f.imm < 256) &&
  (!f.wide || f.d % 2 == 0) && (!store || f.bus != 1) && (f.bus == 0 || f.reg == 0) &&
  (f.mode != 0 || f.imm == 0) && (f.mode != 2 || decide (f.imm < 4))

/-- The P register after the access (R88). -/
def LaneCtx.modeAfter (x : LaneCtx) (p : Nat) (q : Option Nat) (rank : Nat) : LaneCtx :=
  match q with
  | some v => x.res (.p p) 1 v rank
  | none => x

/-- LD (R88). -/
def tLd (f : LdSt) (x : LaneCtx) : LaneCtx :=
  if !ldStOk f false then x.void 3
  else
    let m := x.mode f.p f.mode f.imm
    let r := if f.bus = 0 then x.sRead f.reg m.1 f.wide
      else if f.bus = 1 then x.cRead m.1 f.wide
      else x.tRead m.1 f.wide
    (r.1.loadD f.d f.wide r.2.1 r.2.2 rankT).modeAfter f.p m.2 rankT

/-- ST (R88). -/
def tSt (f : LdSt) (x : LaneCtx) : LaneCtx :=
  if !ldStOk f true then x.void 3
  else
    let m := x.mode f.p f.mode f.imm
    let y := if f.bus = 0 then x.sWrite f.reg m.1 f.wide (x.d f.d) (x.d (f.d + 1))
      else x.tWrite m.1 f.wide (x.d f.d) (x.d (f.d + 1)) rankT
    y.modeAfter f.p m.2 rankT

/-- PSET (R87). -/
def tPset (p imm : Nat) (x : LaneCtx) : LaneCtx :=
  if p < 8 ∧ imm < 65536 then x.res (.p p) 1 imm rankT else x.void 3

/-- PADD (R87). -/
def tPadd (p imm : Nat) (x : LaneCtx) : LaneCtx :=
  if p < 8 ∧ imm < 65536 then x.res (.p p) 1 (((x.p p).toNat + imm) % 65536) rankT else x.void 3

/-- MSETL (R87). -/
def tMsetl (m imm : Nat) (x : LaneCtx) : LaneCtx :=
  if m < 4 ∧ imm < 65536 then x.res (.ml m) 1 imm rankT else x.void 3

/-- MSETH (R87). -/
def tMseth (m imm : Nat) (x : LaneCtx) : LaneCtx :=
  if m < 4 ∧ imm < 65536 then x.res (.mh m) 1 imm rankT else x.void 3

/-- REP (R64, R91): refused with kind 3 when its count or length is out of range, when two loops are active, or when its
body leaves the outer body or the two bodies do not fit the repeat cache. -/
def tRep (count len : Nat) (x : LaneCtx) : LaneCtx :=
  let lp : Loop := { first := x.ln.pc + 1, last := x.ln.pc + len, left := count - 1 }
  if count = 0 ∨ 65535 < count ∨ len = 0 ∨ 32 < len then x.void 3
  else match x.ln.loops with
    | [] => { x with ln := { x.ln with loops := [lp], l := loopRegs [lp] } }
    | [o] =>
      if lp.last ≤ o.last then { x with ln := { x.ln with loops := [lp, o], l := loopRegs [lp, o] } }
      else x.void 3
    | _ => x.void 3

/-- EOT (R92): the lane's program ends; an EOT inside a REP body is kind 3 (R91). -/
def tEot (x : LaneCtx) : LaneCtx :=
  if !x.ln.loops.isEmpty then x.void 3
  else
    let y : LaneCtx := { x with ln := { x.ln with endC := some x.cyc } }
    { y with dev := y.dev.raiseAll Blk.eng (y.dev.endFaults x.n x.cyc) }

/-! ## The M and N slots -/

/-- The rank of an M or N slot. -/
def slotRank (s : Slot) : Nat :=
  match s with
  | .m => rankM
  | .n => rankN
  | .x => rankX
  | .l => rankT

/-- An M or N slot. -/
def isMN (s : Slot) : Bool := s == .m || s == .n

/-- The operand routing of a MAC form: the products into E and O (R94). -/
def macProducts (f : MacF) (x : LaneCtx) : BitVec 72 × BitVec 72 :=
  let x0 := x.d (2 * f.xp)
  let x1 := x.d (2 * f.xp + 1)
  let y0 := x.d (2 * f.yp)
  let y1 := x.d (2 * f.yp + 1)
  match f.form with
  | 0 => (mulAcc x0 y0, mulAcc x1 y1)
  | 1 => (mulAcc x0 y1, mulAcc x1 y0)
  | 2 => (mulAcc x0 y0, mulAcc x0 y1)
  | _ => (mulAcc x1 y0, mulAcc x1 y1)

/-- The checks of a MAC format (R94). -/
def macOk (s : Slot) (f : MacF) : Bool :=
  isMN s && decide (f.ap < 2 ∧ f.xp < 8 ∧ f.yp < 8 ∧ f.form < 4 ∧ 1 ≤ f.en ∧ f.en ≤ 3)

/-- A MAC-class operation: each enabled accumulator becomes `g` of its chain value and its product (R93, R94). -/
def tMacOp (s : Slot) (f : MacF) (g : BitVec 72 → BitVec 72 → BitVec 72) (x : LaneCtx) : LaneCtx :=
  if !macOk s f then x.void 3
  else
    let pr := macProducts f x
    let x1 := if bit f.en 0 then x.chain (2 * f.ap) (slotRank s) (fun a => g a pr.1) else x
    if bit f.en 1 then x1.chain (2 * f.ap + 1) (slotRank s) (fun a => g a pr.2) else x1

/-- MAC (R93). -/
def tMac (s : Slot) (f : MacF) (x : LaneCtx) : LaneCtx := tMacOp s f (fun a p => a + p) x
/-- MSU (R93). -/
def tMsu (s : Slot) (f : MacF) (x : LaneCtx) : LaneCtx := tMacOp s f (fun a p => a - p) x
/-- MPY (R93). -/
def tMpy (s : Slot) (f : MacF) (x : LaneCtx) : LaneCtx := tMacOp s f (fun _ p => p) x
/-- MPYN (R93). -/
def tMpyn (s : Slot) (f : MacF) (x : LaneCtx) : LaneCtx := tMacOp s f (fun _ p => -p) x

/-- ACLR (R93). -/
def tAclr (s : Slot) (mask : Nat) (x : LaneCtx) : LaneCtx :=
  if !(isMN s && decide (mask < 16)) then x.void 3
  else (bitsOn 4 mask).foldl (fun x i => x.chain i (slotRank s) (fun _ => 0)) x

/-- AADD (R93): the destination is a chain operand, the source a reader (R80, R95). -/
def tAadd (s : Slot) (a b : Nat) (sub : Bool) (x : LaneCtx) : LaneCtx :=
  if !(isMN s && decide (a < 4 ∧ b < 4 ∧ a ≠ b)) then x.void 3
  else
    let v := x.a b
    x.chain a (slotRank s) (fun c => if sub then c - v else c + v)

/-- A shift field of ALD and EXT: four bits, two's complement (R93). -/
def shVal (sh : Nat) : Int := sgn 4 sh

/-- ALD (R93). -/
def tAld (s : Slot) (a d sh : Nat) (x : LaneCtx) : LaneCtx :=
  if !(isMN s && decide (a < 4 ∧ d < 16 ∧ sh < 16)) then x.void 3
  else
    let v := aldAcc (x.d d) (shVal sh)
    x.chain a (slotRank s) (fun _ => v)

/-- EXT (R84, R93). -/
def tExt (s : Slot) (a d sh : Nat) (sat : Bool) (x : LaneCtx) : LaneCtx :=
  if !(isMN s && decide (a < 4 ∧ d < 16 ∧ sh < 16)) then x.void 3
  else x.res (.d d) 1 (extAcc (x.a a) (shVal sh) sat).toNat (slotRank s)

/-! ## The X slot -/

/-- An X-slot result: `v` into D register `d` with latency 1 (R96). -/
def tX (ok : Bool) (d : Nat) (v : Word) (x : LaneCtx) : LaneCtx :=
  if ok && decide (d < 16) then x.res (.d d) 1 v.toNat rankX else x.void 3

/-- ADD. -/
def tAdd (d s t : Nat) (sat : Bool) (x : LaneCtx) : LaneCtx :=
  tX (decide (s < 16 ∧ t < 16)) d (satWrap sat (dInt (x.d s) + dInt (x.d t))) x
/-- SUB. -/
def tSub (d s t : Nat) (sat : Bool) (x : LaneCtx) : LaneCtx :=
  tX (decide (s < 16 ∧ t < 16)) d (satWrap sat (dInt (x.d s) - dInt (x.d t))) x
/-- NEG. -/
def tNeg (d s : Nat) (sat : Bool) (x : LaneCtx) : LaneCtx :=
  tX (decide (s < 16)) d (satWrap sat (-(dInt (x.d s)))) x
/-- ABS. -/
def tAbs (d s : Nat) (sat : Bool) (x : LaneCtx) : LaneCtx :=
  tX (decide (s < 16)) d (satWrap sat (dInt (x.d s)).natAbs) x
/-- AND. -/
def tAnd (d s t : Nat) (x : LaneCtx) : LaneCtx := tX (decide (s < 16 ∧ t < 16)) d (x.d s &&& x.d t) x
/-- OR. -/
def tOr (d s t : Nat) (x : LaneCtx) : LaneCtx := tX (decide (s < 16 ∧ t < 16)) d (x.d s ||| x.d t) x
/-- XOR. -/
def tXor (d s t : Nat) (x : LaneCtx) : LaneCtx := tX (decide (s < 16 ∧ t < 16)) d (x.d s ^^^ x.d t) x
/-- MOV. -/
def tMov (d s : Nat) (x : LaneCtx) : LaneCtx := tX (decide (s < 16)) d (x.d s) x
/-- MOVIL: the sign-extended 14-bit immediate. -/
def tMovil (d imm : Nat) (x : LaneCtx) : LaneCtx := tX (decide (imm < 16384)) d (wrap32 (sgn 14 imm)) x
/-- MOVIH: the 14-bit immediate times 2^18. -/
def tMovih (d imm : Nat) (x : LaneCtx) : LaneCtx := tX (decide (imm < 16384)) d (BitVec.ofNat 32 (imm * 262144)) x
/-- SHL. -/
def tShl (d s n : Nat) (sat : Bool) (x : LaneCtx) : LaneCtx :=
  tX (decide (s < 16 ∧ n < 32)) d (satWrap sat (dInt (x.d s) * ((2 ^ n : Nat) : Int))) x
/-- SHR. -/
def tShr (d s n : Nat) (x : LaneCtx) : LaneCtx :=
  tX (decide (s < 16 ∧ n < 32)) d (wrap32 (shrI (dInt (x.d s)) n)) x
/-- SHRL. -/
def tShrl (d s n : Nat) (x : LaneCtx) : LaneCtx :=
  tX (decide (s < 16 ∧ n < 32)) d ((x.d s) >>> n) x
/-- SHE. -/
def tShe (d s t : Nat) (sat : Bool) (x : LaneCtx) : LaneCtx :=
  tX (decide (s < 16 ∧ t < 16)) d (sheVal (x.d s) (x.d t) sat) x
/-- NORM. -/
def tNorm (d s : Nat) (x : LaneCtx) : LaneCtx :=
  tX (decide (s < 16)) d (wrap32 (dInt (x.d s) * ((2 ^ expo (x.d s) : Nat) : Int))) x
/-- EXPO. -/
def tExpo (d s : Nat) (x : LaneCtx) : LaneCtx :=
  tX (decide (s < 16)) d (BitVec.ofNat 32 (expo (x.d s))) x
/-- RND. -/
def tRnd (d s k : Nat) (sat : Bool) (x : LaneCtx) : LaneCtx :=
  tX (decide (s < 16 ∧ k < 32)) d (rndVal (x.d s) k sat) x
/-- MIN. -/
def tMin (d s t : Nat) (x : LaneCtx) : LaneCtx :=
  tX (decide (s < 16 ∧ t < 16)) d (wrap32 (min (dInt (x.d s)) (dInt (x.d t)))) x
/-- MAX. -/
def tMax (d s t : Nat) (x : LaneCtx) : LaneCtx :=
  tX (decide (s < 16 ∧ t < 16)) d (wrap32 (max (dInt (x.d s)) (dInt (x.d t)))) x
/-- CLAMP. -/
def tClamp (d s p : Nat) (x : LaneCtx) : LaneCtx :=
  tX (decide (s < 16 ∧ p < 8)) d (clampVal (x.d s) (x.d (2 * p)) (x.d (2 * p + 1))) x
/-- SEL. -/
def tSel (d s t c cond : Nat) (x : LaneCtx) : LaneCtx :=
  tX (decide (s < 16 ∧ t < 16 ∧ c < 16 ∧ cond < 4)) d (if selCond cond (x.d c) then x.d s else x.d t) x

/-- GSTEP (R100): both registers of the gain pair, latency 2. -/
def tGstep (gp cp s : Nat) (x : LaneCtx) : LaneCtx :=
  if gp < 8 ∧ cp < 8 ∧ s < 16 ∧ gp ≠ cp then
    let v := gstepVal (x.d (2 * gp)) (x.d (2 * gp + 1)) (x.d (2 * cp)) (x.d (2 * cp + 1)) (x.d s)
    (x.res (.d (2 * gp)) 2 v.1.toNat rankX).res (.d (2 * gp + 1)) 2 v.2.toNat rankX
  else x.void 3

/-- STX (R98). -/
def tStx (q p m : Nat) (u : Bool) (x : LaneCtx) : LaneCtx :=
  if q < 8 ∧ p < 8 ∧ m < 4 ∧ (u ∨ m = 0) then
    let y := x.tWrite (x.p p).toNat true (x.d (2 * q)) (x.d (2 * q + 1)) rankX
    if u then y.postMod p m rankX else y
  else x.void 3

/-! ## Decoding a bundle (R73, R86 to R98, R100) -/

/-- The operation of a slot, with every field its encoding carries. -/
inductive TOp where
  | nop
  | ldx (sa ca ta : LdxAcc) (tdir : Bool)
  | ld (f : LdSt)
  | st (f : LdSt)
  | pset (p imm : Nat)
  | padd (p imm : Nat)
  | msetl (m imm : Nat)
  | mseth (m imm : Nat)
  | rep (count len : Nat)
  | eot
  | mac (f : MacF)
  | msu (f : MacF)
  | mpy (f : MacF)
  | mpyn (f : MacF)
  | aclr (mask : Nat)
  | aadd (a b : Nat) (sub : Bool)
  | ald (a d sh : Nat)
  | ext (a d sh : Nat) (sat : Bool)
  | add (d s t : Nat) (sat : Bool)
  | sub (d s t : Nat) (sat : Bool)
  | neg (d s : Nat) (sat : Bool)
  | abs (d s : Nat) (sat : Bool)
  | and (d s t : Nat)
  | or (d s t : Nat)
  | xor (d s t : Nat)
  | mov (d s : Nat)
  | movil (d imm : Nat)
  | movih (d imm : Nat)
  | shl (d s n : Nat) (sat : Bool)
  | shr (d s n : Nat)
  | shrl (d s n : Nat)
  | she (d s t : Nat) (sat : Bool)
  | norm (d s : Nat)
  | expo (d s : Nat)
  | rnd (d s k : Nat) (sat : Bool)
  | min (d s t : Nat)
  | max (d s t : Nat)
  | clamp (d s p : Nat)
  | sel (d s t c cond : Nat)
  | gstep (gp cp s : Nat)
  | stx (q p m : Nat) (u : Bool)
deriving DecidableEq, Repr

/-- What the operation of slot `sl` does on a lane at an issue. -/
def TOp.run (sl : Slot) (op : TOp) : LaneCtx → LaneCtx :=
  match op with
  | .nop => id
  | .ldx sa ca ta tdir => tLdx sa ca ta tdir
  | .ld f => tLd f
  | .st f => tSt f
  | .pset p imm => tPset p imm
  | .padd p imm => tPadd p imm
  | .msetl m imm => tMsetl m imm
  | .mseth m imm => tMseth m imm
  | .rep count len => tRep count len
  | .eot => tEot
  | .mac f => tMac sl f
  | .msu f => tMsu sl f
  | .mpy f => tMpy sl f
  | .mpyn f => tMpyn sl f
  | .aclr mask => tAclr sl mask
  | .aadd a b sb => tAadd sl a b sb
  | .ald a d sh => tAld sl a d sh
  | .ext a d sh sat => tExt sl a d sh sat
  | .add d s t sat => tAdd d s t sat
  | .sub d s t sat => tSub d s t sat
  | .neg d s sat => tNeg d s sat
  | .abs d s sat => tAbs d s sat
  | .and d s t => tAnd d s t
  | .or d s t => tOr d s t
  | .xor d s t => tXor d s t
  | .mov d s => tMov d s
  | .movil d imm => tMovil d imm
  | .movih d imm => tMovih d imm
  | .shl d s n sat => tShl d s n sat
  | .shr d s n => tShr d s n
  | .shrl d s n => tShrl d s n
  | .she d s t sat => tShe d s t sat
  | .norm d s => tNorm d s
  | .expo d s => tExpo d s
  | .rnd d s k sat => tRnd d s k sat
  | .min d s t => tMin d s t
  | .max d s t => tMax d s t
  | .clamp d s p => tClamp d s p
  | .sel d s t c cond => tSel d s t c cond
  | .gstep gp cp s => tGstep gp cp s
  | .stx q p m u => tStx q p m u

/-- The D register that an X-slot operation of latency 1 writes. -/
def TOp.xDst (op : TOp) : Option Nat :=
  match op with
  | .add d _ _ _ | .sub d _ _ _ | .neg d _ _ | .abs d _ _ | .and d _ _ | .or d _ _ | .xor d _ _ | .mov d _ | .movil d _ | .movih d _
  | .shl d _ _ _ | .shr d _ _ | .shrl d _ _ | .she d _ _ _ | .norm d _ | .expo d _ | .rnd d _ _ _ | .min d _ _ | .max d _ _
  | .clamp d _ _ | .sel d _ _ _ _ => some d
  | _ => none

/-- The L slot, none for an invalid encoding (R86 to R88). -/
def decodeL (v : Nat) : Option TOp :=
  if bit v 31 then
    let sa : LdxAcc := { en := bit v 30, pr := fld v 27 3, reg := fld v 23 4, ptr := fld v 21 2, md := fld v 19 2 }
    let ca : LdxAcc := { en := bit v 18, pr := fld v 15 3, ptr := fld v 12 3, md := fld v 10 2 }
    let ta : LdxAcc := { en := bit v 9, pr := fld v 5 3, ptr := fld v 2 3, md := fld v 0 2 }
    if ldxOk sa ca ta (bit v 8) then some (.ldx sa ca ta (bit v 8)) else none
  else
    let f : LdSt := { wide := bit v 25, d := fld v 21 4, bus := fld v 19 2, reg := fld v 15 4, p := fld v 12 3,
                      mode := fld v 10 2, imm := fld v 2 8 }
    match fld v 26 5 with
    | 0x00 => if v = 0 then some .nop else none
    | 0x01 => if ldStOk f false && fld v 0 2 == 0 then some (.ld f) else none
    | 0x02 => if ldStOk f true && fld v 0 2 == 0 then some (.st f) else none
    | 0x03 => if fld v 0 7 = 0 then some (.pset (fld v 23 3) (fld v 7 16)) else none
    | 0x04 => if fld v 0 7 = 0 then some (.padd (fld v 23 3) (fld v 7 16)) else none
    | 0x05 => if fld v 0 8 = 0 then some (.msetl (fld v 24 2) (fld v 8 16)) else none
    | 0x06 => if fld v 0 8 = 0 then some (.mseth (fld v 24 2) (fld v 8 16)) else none
    | 0x08 => if fld v 0 5 = 0 ∧ fld v 10 16 ≠ 0 then some (.rep (fld v 10 16) (fld v 5 5 + 1)) else none
    | 0x0F => if fld v 0 26 = 0 then some .eot else none
    | _ => none

/-- An M or N slot (R93, R94). -/
def decodeMN (v : Nat) : Option TOp :=
  let f : MacF := { ap := fld v 14 1, xp := fld v 11 3, yp := fld v 8 3, form := fld v 6 2, en := fld v 4 2 }
  let mac := fun (o : TOp) => if fld v 0 4 = 0 ∧ f.en ≠ 0 then some o else none
  let a := fld v 13 2
  match fld v 15 5 with
  | 0x00 => if v = 0 then some .nop else none
  | 0x01 => mac (.mac f)
  | 0x02 => mac (.msu f)
  | 0x03 => mac (.mpy f)
  | 0x04 => mac (.mpyn f)
  | 0x08 => if fld v 0 11 = 0 then some (.aclr (fld v 11 4)) else none
  | 0x09 => if fld v 0 10 = 0 ∧ a ≠ fld v 11 2 then some (.aadd a (fld v 11 2) (bit v 10)) else none
  | 0x0A => if fld v 0 5 = 0 then some (.ald a (fld v 9 4) (fld v 5 4)) else none
  | 0x0C => if fld v 0 4 = 0 then some (.ext a (fld v 9 4) (fld v 5 4) (bit v 4)) else none
  | _ => none

/-- The X slot (R96, R98, R100): the layouts' reserved fields, and which operations have a sat bit or a second source. -/
def decodeX (v : Nat) : Option TOp :=
  let d := fld v 14 4
  let s := fld v 10 4
  let t := fld v 6 4
  let n := fld v 5 5
  let xa := fun (hasT hasSat : Bool) (o : TOp) =>
    if fld v 0 5 = 0 ∧ (hasT ∨ t = 0) ∧ (hasSat ∨ fld v 5 1 = 0) then some o else none
  let xi := fun (hasSat : Bool) (o : TOp) => if fld v 0 4 = 0 ∧ (hasSat ∨ fld v 4 1 = 0) then some o else none
  match fld v 18 6 with
  | 0x00 => if v = 0 then some .nop else none
  | 0x01 => xa true true (.add d s t (bit v 5))
  | 0x02 => xa true true (.sub d s t (bit v 5))
  | 0x03 => xa false true (.neg d s (bit v 5))
  | 0x04 => xa false true (.abs d s (bit v 5))
  | 0x05 => xa true false (.and d s t)
  | 0x06 => xa true false (.or d s t)
  | 0x07 => xa true false (.xor d s t)
  | 0x08 => xa false false (.mov d s)
  | 0x09 => some (.movil d (fld v 0 14))
  | 0x0A => some (.movih d (fld v 0 14))
  | 0x10 => xi true (.shl d s n (bit v 4))
  | 0x11 => xi false (.shr d s n)
  | 0x12 => xi false (.shrl d s n)
  | 0x13 => xa true true (.she d s t (bit v 5))
  | 0x14 => xa false false (.norm d s)
  | 0x15 => xa false false (.expo d s)
  | 0x16 => xi true (.rnd d s n (bit v 4))
  | 0x18 => xa true false (.min d s t)
  | 0x19 => xa true false (.max d s t)
  | 0x1A => if fld v 0 7 = 0 then some (.clamp d s (fld v 7 3)) else none
  | 0x1B => some (.sel d s t (fld v 2 4) (fld v 0 2))
  | 0x20 => if fld v 0 8 = 0 ∧ fld v 15 3 ≠ fld v 12 3 then some (.gstep (fld v 15 3) (fld v 12 3) (fld v 8 4)) else none
  | 0x30 =>
    if fld v 0 9 = 0 ∧ (bit v 9 ∨ fld v 10 2 = 0) then
      some (.stx (fld v 15 3) (fld v 12 3) (fld v 10 2) (bit v 9)) else none
  | _ => none

/-- A decoded bundle. -/
structure Bundle where
  l : TOp
  m : TOp
  n : TOp
  x : TOp
deriving DecidableEq, Repr

/-- A 96-bit bundle, or the slot that does not decode: 0 L, 1 M, 2 N, 3 X (R73, R117). -/
def decodeBundle (v : Nat) : Except Nat Bundle :=
  match decodeL (fld v 64 32), decodeMN (fld v 44 20), decodeMN (fld v 24 20), decodeX (fld v 0 24) with
  | none, _, _, _ => .error 0
  | _, none, _, _ => .error 1
  | _, _, none, _ => .error 2
  | _, _, _, none => .error 3
  | some l, some m, some n, some x => .ok { l := l, m := m, n := n, x := x }

end Sys2Proof.Machine
end

