-- ==== Sys2Proof/Machine/SheafFormat.lean ====
section
/-!
DEFINITION. The binary layout of a sheaf (R102 to R115): its header, directory and sections read into the loader's
tables, with the FORMAT checks of R117.
-/
namespace Sys2Proof.Machine

/-- A refusal of a load: REASON and the three detail words (R117). -/
structure LoadFail where
  reason : Nat
  i0     : Nat := 0
  i1     : Nat := 0
  i2     : Nat := 0
deriving DecidableEq, Repr

/-- A FORMAT refusal at a byte offset, in a section type.  The offset is that of the header field, or of the start of the section or the table
entry in which the failing byte lies, and of reserved header bytes the first of them (DESIGN CHOICE, log entry 128: R117 says only that it is a byte
offset). -/
def fmtFail {α : Type} (off ty : Nat) : Except LoadFail α := .error { reason := 0x01, i0 := off, i1 := ty }

/-- A FORMAT check. -/
def fmtCheck (ok : Bool) (off ty : Nat) : Except LoadFail Unit := if ok then .ok () else fmtFail off ty

/-- A list of checks, the first failing one reported. -/
def checkAll {α : Type} (f : α → Except LoadFail Unit) : List α → Except LoadFail Unit
  | [] => .ok ()
  | x :: t => match f x with
    | .ok _ => checkAll f t
    | .error e => .error e

/-- A directory entry (R104). -/
structure DirEnt where
  ty    : Nat
  sfl   : Nat
  off   : Nat
  len   : Nat
  check : Nat
deriving DecidableEq, Repr

/-- An image as the loader reads it. -/
structure Image where
  bs      : List Byte
  totlen  : Nat
  revMin  : Nat
  revMax  : Nat
  dir     : List DirEnt
  sheaf   : Sheaf
  progs   : List (Nat × List Nat)
  data    : List Byte

/-- The directory entries. -/
def readDir (bs : List Byte) : Nat → Nat → List DirEnt
  | 0, _ => []
  | n + 1, o => { ty := le bs o 2, sfl := le bs (o + 2) 2, off := le bs (o + 4) 4, len := le bs (o + 8) 4,
                  check := le bs (o + 12) 4 } :: readDir bs n (o + 16)

/-- The bytes of a section. -/
def secBytes (bs : List Byte) (e : DirEnt) : List Byte := slice bs e.off e.len

/-- Whether every byte is zero. -/
def allZero (bs : List Byte) : Bool := bs.all (· == 0)

/-- The header checks of R103. -/
def checkHeader (bs : List Byte) (len : Nat) : Except LoadFail Unit := do
  fmtCheck (256 + 16 + 160 ≤ bs.length) 0 0
  fmtCheck (le bs 0 4 == 0x46535647) 0 0
  fmtCheck (le bs 4 2 == 0x0100) 4 0
  fmtCheck (le bs 6 2 == 0x0100) 6 0
  fmtCheck (le bs 8 4 == len && len % 16 == 0 && decide (len ≤ 2 ^ 24)) 8 0
  fmtCheck (fld (le bs 0x12 2) 4 12 == 0 && fld (le bs 0x12 2) 2 2 != 3) 0x12 0
  fmtCheck (decide (1 ≤ le bs 0x1E 2 ∧ le bs 0x1E 2 ≤ 64)) 0x1E 0
  fmtCheck (decide (le bs 0x20 1 ≤ 1)) 0x20 0
  fmtCheck (allZero (slice bs 0x21 (0x100 - 0x21))) 0x21 0

/-- Whether two half-open ranges overlap. -/
def overlaps (a n b m : Nat) : Bool := decide (a < b + m ∧ b < a + n)

/-- Whether any two of a list are related. -/
def anyPair {α : Type} (r : α → α → Bool) : List α → Bool
  | [] => false
  | x :: t => t.any (r x) || anyPair r t

/-- The directory checks of R104 and R105. -/
def checkDir (len : Nat) (dir : List DirEnt) (mask : Nat) (trans : Bool) : Except LoadFail Unit := do
  let n := dir.length
  checkAll (fun (p : Nat × DirEnt) =>
    let e := p.2
    let o := 0x100 + 16 * p.1
    fmtCheck (decide (1 ≤ e.ty ∧ e.ty ≤ 9) &&
      (if e.ty = 1 then decide (fld e.sfl 6 10 = 0 ∧ fld e.sfl 0 6 < 48) && bit mask (fld e.sfl 0 6) else e.sfl == 0) &&
      decide (e.off % 16 = 0 ∧ 0x100 + 16 * n ≤ e.off ∧ e.off + e.len ≤ len - 160)) o e.ty)
    ((List.range n).zip dir)
  fmtCheck (!anyPair (fun a b => overlaps a.off a.len b.off b.len) dir) 0x100 0
  let cnt := fun ty => (dir.filter (fun e => e.ty == ty)).length
  checkAll (fun ty => fmtCheck (cnt ty == 1) 0x100 ty) [2, 3, 4, 5, 6, 7, 8]
  fmtCheck (cnt 9 == b2n trans) 0x100 9
  checkAll (fun l => fmtCheck ((dir.filter (fun e => e.ty == 1 && fld e.sfl 0 6 == l)).length == b2n (bit mask l)) 0x100 1)
    (List.range 48)

/-- The first section of a type. -/
def secOf (dir : List DirEnt) (ty : Nat) : DirEnt :=
  (dir.find? (fun e => e.ty == ty)).getD { ty := ty, sfl := 0, off := 0, len := 0, check := 0 }

/-- `n` bundles of 12 bytes (R106). -/
def readBundles : Nat → List Byte → List Nat
  | 0, _ => []
  | n + 1, bs => leNat (bs.take 12) :: readBundles n (bs.drop 12)

/-- The PROG sections (R106). -/
def readProgs (bs : List Byte) : List DirEnt → Except LoadFail (List (Nat × List Nat))
  | [] => .ok []
  | e :: t => do
    if e.ty = 1 then
      let s := secBytes bs e
      let n := le s 0 4
      fmtCheck (decide (1 ≤ n ∧ n ≤ 8192) && s.length == 4 + 12 * n) e.off 1
      let r ← readProgs bs t
      .ok ((fld e.sfl 0 6, readBundles n (s.drop 4)) :: r)
    else readProgs bs t

/-- The block table (R107, R108). -/
def readBlocks (s : List Byte) (off dataLen : Nat) : Nat → Nat → Except LoadFail (List SBlock)
  | 0, _ => .ok []
  | n + 1, i => do
    let o := 4 + 24 * i
    let b : SBlock := { key := le s o 8, lane := le s (o + 8) 1, mem := le s (o + 9) 1, addr := le s (o + 12) 4,
                        count := le s (o + 16) 4, dataOff := le s (o + 20) 4 }
    fmtCheck (le s (o + 10) 2 == 0 && decide (1 ≤ b.count) &&
      (if b.mem = 2 then b.lane == 0xFF && b.dataOff == 0xFFFFFFFF
       else decide (b.mem ≤ 1 ∧ b.lane < 48) &&
        (if b.dataOff = 0xFFFFFFFF then b.mem == 1 else decide (b.dataOff + 4 * b.count ≤ dataLen)))) (off + o) 2
    let r ← readBlocks s off dataLen n (i + 1)
    .ok (b :: r)

/-- The placements of a cell (R109). -/
def readPlaces (s : List Byte) (o : Nat) : Nat → List Placement
  | 0 => []
  | n + 1 => { lane := le s o 1, caddr := le s (o + 2) 2 } :: readPlaces s (o + 4) n

/-- The parameter-cell table (R109).  A repeated CKEY is refused with FORMAT (DESIGN CHOICE, log entry 129: R117 names no reason). -/
def readCells (s : List Byte) (off : Nat) : Nat → Nat → Except LoadFail (List SCell)
  | 0, o => do
    fmtCheck (o == s.length) (off + o) 4
    .ok []
  | n + 1, o => do
    let kind := le s (o + 4) 1
    let nw := le s (o + 5) 1
    let np := le s (o + 6) 1
    let mt := le s (o + 8) 4
    let c : SCell := { key := le s o 4, kind := kind, nwords := nw, maxT := mt, places := readPlaces s (o + 12) np }
    fmtCheck (decide (o + 12 + 4 * np ≤ s.length ∧ kind ≤ 1 ∧ 1 ≤ np ∧ np ≤ 48) && le s (o + 7) 1 == 0 &&
      (if kind = 1 then nw == 2 && decide (mt ≤ 0x7FFFFFFF) && c.places.all (fun p => p.caddr % 2 == 0)
       else decide (1 ≤ nw ∧ nw ≤ 16) && mt == 0) &&
      (List.range np).all (fun i => le s (o + 13 + 4 * i) 1 == 0) && c.places.all (fun p => decide (p.lane < 48))) (off + o) 4
    let r ← readCells s off n (o + 12 + 4 * np)
    .ok (c :: r)

/-- The region entries of the DRAM plan (R110). -/
def readRegions (s : List Byte) : Nat → Nat → List Region
  | 0, _ => []
  | n + 1, o => { key := le s o 8, base := le s (o + 8) 8, depth := le s (o + 16) 4, ch := le s (o + 20) 2,
                  rate := le s (o + 22) 1, chase := le s (o + 23) 1 } :: readRegions s n (o + 32)

/-- The staging descriptors (R111). -/
def readStage (s : List Byte) : Nat → Nat → List StageDesc
  | 0, _ => []
  | n + 1, o => { region := le s o 2, ch0 := le s (o + 2) 2, nch := le s (o + 4) 2, dreg := le s (o + 6) 1,
                  owner := le s (o + 7) 1, dptr := le s (o + 8) 2, par := le s (o + 10) 1,
                  tap := le s (o + 12) 4 } :: readStage s n (o + 16)

/-- The drain descriptors (R112). -/
def readDrain (s : List Byte) : Nat → Nat → List DrainDesc
  | 0, _ => []
  | n + 1, o => { sreg := le s o 1, kind := le s (o + 1) 1, sptr := le s (o + 2) 2, count := le s (o + 4) 2,
                  didx := le s (o + 6) 2, dch := le s (o + 8) 2, owner := le s (o + 10) 1,
                  par := le s (o + 11) 1 } :: readDrain s n (o + 16)

/-- `n` 16-bit numbers. -/
def readHalves (s : List Byte) : Nat → Nat → List Nat
  | 0, _ => []
  | n + 1, o => le s o 2 :: readHalves s n (o + 2)

/-- Whether a list rises strictly. -/
def rising : List Nat → Bool
  | [] => true
  | [_] => true
  | a :: b :: t => decide (a < b) && rising (b :: t)

/-- The refresh pattern (R113): TSLOT and the four slot lists. -/
def readRefresh (s : List Byte) (off : Nat) : Except LoadFail (Nat × List (List Nat)) := do
  let n0 := le s 2 2
  let n1 := le s 4 2
  let n2 := le s 6 2
  let n3 := le s 8 2
  fmtCheck (decide (16 ≤ s.length) && allZero (slice s 10 6) && s.length == 16 + 2 * (n0 + n1 + n2 + n3) &&
    decide (le s 0 2 < 10240)) off 6
  let ls := [readHalves s n0 16, readHalves s n1 (16 + 2 * n0), readHalves s n2 (16 + 2 * (n0 + n1)),
             readHalves s n3 (16 + 2 * (n0 + n1 + n2))]
  fmtCheck (ls.all (fun l => rising l && l.all (fun c => decide (c < 10240)))) (off + 16) 6
  .ok (le s 0 2, ls)

/-- The transition descriptors (R114): the greatest DUR. -/
def readTrans (s : List Byte) (off : Nat) : Except LoadFail Nat := do
  let n := le s 0 4
  fmtCheck (decide (1 ≤ n ∧ n ≤ 64) && s.length == 4 + 16 * n) off 9
  checkAll (fun i =>
    let o := 4 + 16 * i
    fmtCheck (decide (le s (o + 2) 1 ≤ 2) && le s (o + 3) 1 == 0 && le s (o + 4) 4 % 2 == 0 &&
      decide (2 ≤ le s (o + 4) 4 ∧ le s (o + 4) 4 ≤ 65534) && allZero (slice s (o + 8) 8)) (off + o) 9) (List.range n)
  .ok (maxN ((List.range n).map (fun i => le s (4 + 16 * i + 4) 4)))

/-- An image read into the loader's tables, or a FORMAT refusal (R117). -/
def readImage (bs : List Byte) : Except LoadFail Image := do
  let len := bs.length
  checkHeader bs len
  let flags := le bs 0x12 2
  let mask := le bs 0x18 6
  let dir := readDir bs (le bs 0x1E 2) 0x100
  checkDir len dir mask (bit flags 1)
  let progs ← readProgs bs dir
  let eB := secOf dir 2
  let eI := secOf dir 3
  let eC := secOf dir 4
  let eP := secOf dir 5
  let eR := secOf dir 6
  let eD := secOf dir 7
  let eF := secOf dir 8
  let sB := secBytes bs eB
  fmtCheck (decide (le sB 0 4 ≤ 16384) && sB.length == 4 + 24 * le sB 0 4) eB.off 2
  let blocks ← readBlocks sB eB.off eI.len (le sB 0 4) 0
  let sC := secBytes bs eC
  fmtCheck (decide (le sC 0 4 ≤ 4096 ∧ 4 ≤ sC.length)) eC.off 4
  let cells ← readCells sC eC.off (le sC 0 4) 4
  fmtCheck (!anyPair (fun a b => a.key == b.key) cells) eC.off 4
  let sP := secBytes bs eP
  let nr := le sP 0 4
  let ns := le sP 4 4
  let nd := le sP 8 4
  fmtCheck (decide (nr ≤ 1024 ∧ ns ≤ 8192 ∧ nd ≤ 8192) && le sP 12 4 == 0 &&
    sP.length == 16 + 32 * nr + 16 * ns + 16 * nd) eP.off 5
  let rf ← readRefresh (secBytes bs eR) eR.off
  fmtCheck (eD.len == 96) eD.off 7
  fmtCheck (eF.len == 96) eF.off 8
  let dur ← if bit flags 1 then readTrans (secBytes bs (secOf dir 9)) (secOf dir 9).off else .ok 0
  .ok
    { bs := bs, totlen := len, revMin := le bs 0x10 1, revMax := le bs 0x11 1, dir := dir, progs := progs,
      data := secBytes bs eI,
      sheaf :=
        { id := le bs 0x0C 4, pair := bit flags 0, trans := bit flags 1, refClass := fld flags 2 2, laneMask := mask,
          dramCfg := le bs 0x20 1, blocks := blocks, cells := cells, regions := readRegions sP nr 16,
          stage := readStage sP ns (16 + 32 * nr), drain := readDrain sP nd (16 + 32 * nr + 16 * ns),
          decl := readHalves (secBytes bs eD) 48 0, fence := readHalves (secBytes bs eF) 48 0,
          tslot := rf.1, refresh := rf.2, transDur := dur, hash := be bs (len - 160) 32 } }

end Sys2Proof.Machine
end

