-- ==== Sys2Proof/Machine/Walk.lean ====
section
/-!
DEFINITION. The loader's walk (R101, R118): all 48 lanes issued together, with pointers, modifiers, loops and crossbar
stalls, for each lane's end cycle, earliest LOC read, and the first ENCODING and LAYOUT violation.
-/
namespace Sys2Proof.Machine

/-- A lane in the walk: its program, its program counter and loops, its P and M registers, the results still to become
visible, its end cycle and its first LOC read. -/
structure WLane where
  n     : Nat
  prog  : List Nat
  pc    : Nat := 0
  loops : List Loop := []
  p     : List Nat := List.replicate 8 0
  m     : List Nat := List.replicate 4 0
  upd   : List (Dst × Nat) := []
  due   : List (Nat × Dst) := []
  done  : Option Nat := none
  loc   : Option Nat := none
deriving DecidableEq, Repr

/-- The walk as it goes: lanes, stall cycles, and the first violations of R101. -/
structure Walk where
  lanes  : List WLane
  stalls : Nat := 0
  enc    : Option LoadFail := none
  lay    : Option LoadFail := none
deriving DecidableEq, Repr

/-- One access of a bundle: 0 coefficient, 1 state, 2 sample memory; region; pointer; width; direction (R117). -/
structure WAcc where
  mem : Nat
  reg : Nat
  ptr : Nat
  wide : Bool
  wr  : Bool
deriving DecidableEq, Repr

/-- The pointer modified by an M register, as numbers. -/
def modPtr (p m : Nat) : Nat := (modifyPtr (BitVec.ofNat 16 p) (BitVec.ofNat 32 m)).toNat

/-- The L-slot accesses with the pointer updates (R86, R88). -/
def WLane.accL (w : WLane) (op : TOp) : List WAcc × List (Dst × Nat) :=
  let pv := fun i => w.p.getD i 0
  let mv := fun i => w.m.getD i 0
  match op with
  | .ldx sa ca ta tdir =>
    ((if sa.en then [{ mem := 2, reg := sa.reg, ptr := pv sa.ptr, wide := true, wr := false }] else []) ++
     (if ca.en then [{ mem := 0, reg := 0, ptr := pv ca.ptr, wide := true, wr := false }] else []) ++
     (if ta.en then [{ mem := 1, reg := 0, ptr := pv ta.ptr, wide := true, wr := tdir }] else []),
     (if sa.en then [(.p sa.ptr, modPtr (pv sa.ptr) (mv sa.md))] else []) ++
     (if ca.en then [(.p ca.ptr, modPtr (pv ca.ptr) (mv ca.md))] else []) ++
     (if ta.en then [(.p ta.ptr, modPtr (pv ta.ptr) (mv ta.md))] else []))
  | .ld f => acc1 f false
  | .st f => acc1 f true
  | .pset p imm => ([], [(.p p, imm)])
  | .padd p imm => ([], [(.p p, (pv p + imm) % 65536)])
  | .msetl m imm => ([], [(.ml m, imm)])
  | .mseth m imm => ([], [(.mh m, imm)])
  | _ => ([], [])
where
  /-- The single access of LD or ST. -/
  acc1 (f : LdSt) (wr : Bool) : List WAcc × List (Dst × Nat) :=
    let pv := w.p.getD f.p 0
    let off := (BitVec.ofInt 16 ((pv : Int) + sgn 8 f.imm)).toNat
    let a := if f.mode = 3 then off else pv
    let u := if f.mode = 1 then [(Dst.p f.p, off)]
      else if f.mode = 2 then [(Dst.p f.p, modPtr pv (w.m.getD (f.imm % 4) 0))] else []
    ([{ mem := if f.bus = 0 then 2 else if f.bus = 1 then 0 else 1, reg := f.reg, ptr := a, wide := f.wide, wr := wr }], u)

/-- The X-slot store's access with its pointer update (R98). -/
def WLane.accX (w : WLane) (op : TOp) : List WAcc × List (Dst × Nat) :=
  match op with
  | .stx _ p m u =>
    let pv := w.p.getD p 0
    ([{ mem := 1, reg := 0, ptr := pv, wide := true, wr := true }],
     if u then [(.p p, modPtr pv (w.m.getD m 0))] else [])
  | _ => ([], [])

/-- The register results of an operation with their latencies (R78). -/
def opResults (op : TOp) : List (Nat × Dst) :=
  match op with
  | .ldx sa ca ta tdir =>
    (if sa.en then [(2, .d (2 * sa.pr)), (2, .d (2 * sa.pr + 1))] else []) ++
    (if ca.en then [(2, .d (2 * ca.pr)), (2, .d (2 * ca.pr + 1))] else []) ++
    (if ta.en && !tdir then [(2, .d (2 * ta.pr)), (2, .d (2 * ta.pr + 1))] else [])
  | .ld f => (2, .d f.d) :: (if f.wide then [(2, .d (f.d + 1))] else [])
  | .mac f | .msu f | .mpy f | .mpyn f => (if bit f.en 0 then [(3, .a (2 * f.ap))] else []) ++ (if bit f.en 1 then [(3, .a (2 * f.ap + 1))] else [])
  | .aclr mask => (bitsOn 4 mask).map (fun i => (3, .a i))
  | .aadd a _ _ => [(3, .a a)]
  | .ald a _ _ => [(3, .a a)]
  | .ext _ d _ _ => [(1, .d d)]
  | .gstep gp _ _ => [(2, .d (2 * gp)), (2, .d (2 * gp + 1))]
  | _ => (op.xDst.map (fun d => (1, Dst.d d))).toList

/-- Whether a list of destinations names one twice. -/
def dupDst (l : List (Nat × Dst)) : Bool := anyPair (fun a b => decide (a = b)) l

/-- Whether the words of an access lie within blocks of a lane and memory (R101, R117). -/
def inBlocks (bs : List SBlock) (lane mem ptr n : Nat) : Bool :=
  (rangeFrom ptr n).all (fun a => bs.any (fun b => b.lane == lane && b.mem == mem && decide (b.addr ≤ a ∧ a < b.addr + b.count)))

/-- The LAYOUT check of one access (R54, R61, R101). -/
def accOk (bs : List SBlock) (lane : Nat) (a : WAcc) : Bool :=
  let n := if a.wide then 2 else 1
  (!a.wide || a.ptr % 2 == 0) &&
  (if a.mem = 2 then
    match ({} : Dev).sRegion a.reg a.ptr with
    | none => false
    | some (_, canWr) => (!a.wr || canWr) && (decide (a.reg < 5) || inBlocks bs 0xFF 2 (65536 * (a.reg - 5) + a.ptr) n)
   else inBlocks bs lane a.mem a.ptr n)

/-- The T-bus writes of a bundle (R90). -/
def tWrites (b : Bundle) : Nat :=
  (match b.l with
   | .ldx _ _ ta tdir => b2n (ta.en && tdir)
   | .st f => b2n (f.bus == 2)
   | _ => 0) + (match b.x with
   | .stx _ _ _ _ => 1
   | _ => 0)

/-- The lane's loops after a REP at bundle `pc` (R91), none when it is refused. -/
def repLoops (loops : List Loop) (pc count len : Nat) : Option (List Loop) :=
  let lp : Loop := { first := pc + 1, last := pc + len, left := count - 1 }
  match loops with
  | [] => some [lp]
  | [o] => if lp.last ≤ o.last then some [lp, o] else none
  | _ => none

/-- An ENCODING refusal (R117). -/
def encFail (lane pc slot : Nat) : LoadFail := { reason := 0x06, i0 := lane, i1 := pc, i2 := slot }

/-- A P or M register updated. -/
def WLane.upd1 (w : WLane) (u : Dst × Nat) : WLane :=
  match u.1 with
  | .p i => { w with p := updAt w.p i (fun _ => u.2) }
  | .ml i => { w with m := updAt w.m i (fun v => fldSet v 0 16 u.2) }
  | .mh i => { w with m := updAt w.m i (fun v => fldSet v 16 16 u.2) }
  | _ => w

/-- One bundle of one lane at issue `k`, cycle `c`: the lane after it, its S-bus requests, and its violations. -/
def WLane.step (bs : List SBlock) (w0 : WLane) (k c : Nat) : WLane × List SReq × Option LoadFail × Option LoadFail :=
  if w0.done.isSome then (w0, [], none, none)
  else
    let w := { w0.upd.foldl WLane.upd1 w0 with upd := [] }
    match decodeBundle (w.prog.getD w.pc 0) with
    | .error slot => (w, [], some (encFail w.n w.pc slot), none)
    | .ok b =>
      let al := w.accL b.l
      let ax := w.accX b.x
      let accs := al.1 ++ ax.1
      let upds := al.2 ++ ax.2
      let res := ((opResults b.l ++ opResults b.m ++ opResults b.n ++ opResults b.x).map (fun r => (k + r.1, r.2)))
      let due := w.due.filter (fun r => decide (k < r.1)) ++ res
      let loops? := match b.l with
        | .rep count len => repLoops w.loops w.pc count len
        | _ => some w.loops
      let isEot := decide (b.l = .eot)
      let bad := decide (1 < tWrites b) || dupDst due || anyPair (fun a b => decide (a.1 = b.1)) upds ||
        loops?.isNone || (isEot && !w.loops.isEmpty) || (w.pc == 8191 && !isEot)
      let reqs := accs.filterMap (fun a =>
        if a.mem = 2 then
          (({} : Dev).sRegion a.reg a.ptr).map (fun r => { lane := w.n, bank := a.ptr / 2 % 64, row := r.1 / 8, wr := a.wr })
        else none)
      let lay := (accs.find? (fun a => !accOk bs w.n a)).map (fun a =>
        { reason := 0x0F, i0 := w.n, i1 := a.mem, i2 := (if a.mem = 2 then 65536 * a.reg else 0) + a.ptr : LoadFail })
      let loc := if w.loc.isNone && accs.any (fun a => a.mem == 2 && a.reg == 4) then some c else w.loc
      let nx := nextPc (loops?.getD []) w.pc
      let w1 := { w with
        loops := nx.1
        pc := nx.2
        upd := upds
        due := due
        loc := loc
        done := if isEot then some c else none }
      (w1, reqs, if bad then some (encFail w.n w.pc 4) else none, lay)

/-- One issue of every lane in ascending order. -/
def Walk.issue (bs : List SBlock) (k : Nat) (w : Walk) : Walk :=
  let c := k + w.stalls
  let rs := w.lanes.map (fun l => l.step bs k c)
  { lanes := rs.map (·.1)
    stalls := w.stalls + stallsOf (rs.flatMap (fun r => r.2.1))
    enc := match w.enc with
      | some e => some e
      | none => (rs.filterMap (fun r => r.2.2.1)).head?
    lay := match w.lay with
      | some e => some e
      | none => (rs.filterMap (fun r => r.2.2.2)).head? }

/-- The walk of `n` issues from issue `k`, ended early when every lane has ended or a bundle is in error. -/
def Walk.run (bs : List SBlock) : Nat → Nat → Walk → Walk
  | 0, _, w => w
  | n + 1, k, w =>
    if w.enc.isSome || w.lanes.all (fun l => l.done.isSome) then w else Walk.run bs n (k + 1) (w.issue bs k)

/-- The walk of a sheaf: beyond 10,240 issues every budget is exceeded. -/
def walkOf (img : Image) : Walk :=
  Walk.run img.sheaf.blocks 10240 0
    { lanes := img.progs.map (fun p => { n := p.1, prog := p.2 : WLane }) }

/-- The computed end cycle of lane `n`: 0 without a program (R106), past every limit when the walk did not end. -/
def Walk.endOf (w : Walk) (n : Nat) : Nat :=
  match w.lanes.find? (fun l => l.n == n) with
  | some l => l.done.getD 10240
  | none => 0

/-- The computed earliest LOC read of lane `n` (R117): 0xFFFF when it has none. -/
def Walk.locOf (w : Walk) (n : Nat) : Nat :=
  match w.lanes.find? (fun l => l.n == n) with
  | some l => l.loc.getD 0xFFFF
  | none => 0xFFFF

end Sys2Proof.Machine
end

