-- ==== Sys2Proof/Machine/Loader.lean ====
section
/-!
DEFINITION. The sheaf loader: its checks in the order of R117, its writes (R106, R107, R119), and the states of R121.
-/
namespace Sys2Proof.Machine

/-! ## Checks after the format (R117) -/

/-- A check with its refusal. -/
def lchk (ok : Bool) (f : LoadFail) : Except LoadFail Unit := if ok then .ok () else .error f

/-- The silicon revision lies within the header's range (R13). -/
def checkRevision (rev : Nat) (img : Image) : Except LoadFail Unit :=
  lchk (decide (img.revMin ≤ rev ∧ rev ≤ img.revMax)) { reason := 0x02, i0 := rev, i1 := img.revMin, i2 := img.revMax }

/-- Every section's CHECK matches (R104). -/
def checkSections (d : Dev) (img : Image) : Except LoadFail Unit :=
  checkAll (fun (e : DirEnt) =>
    let v := d.cvuValue 0 (secBytes img.bs e)
    lchk (v == e.check) { reason := 0x03, i0 := e.ty, i1 := e.off, i2 := v }) img.dir

/-- HASH equals the computed SHA-256 (R115). -/
def checkHash (img : Image) : Except LoadFail Unit :=
  lchk (sha256 (img.bs.take (img.totlen - 160)) == img.sheaf.hash) { reason := 0x04 }

/-- The index of the OTP hash that a public key has, programmed and unrevoked (R115, R345). -/
def keyIndex (hashes : List Nat) (valid rev h : Nat) : Option Nat :=
  (List.range 4).find? (fun i => hashes.getD i 0 == h && bit valid i && !bit rev i)

/-- The signature checks (R115): 1 the key, 2 the signature. -/
def checkSignature (o : Otp) (img : Image) : Except LoadFail Nat :=
  let t := img.totlen - 160
  match keyIndex o.shash o.svalid o.srev (sha256 (slice img.bs (t + 32) 64)) with
  | none => .error { reason := 0x05, i0 := 1 }
  | some i =>
    if ecdsaOk (be img.bs (t + 32) 32) (be img.bs (t + 64) 32) (be img.bs (t + 96) 32) (be img.bs (t + 128) 32) img.sheaf.hash
    then .ok i else .error { reason := 0x05, i0 := 2 }

/-- Every bundle decodes (R101). -/
def checkBundles (img : Image) : Except LoadFail Unit :=
  checkAll (fun (p : Nat × List Nat) =>
    checkAll (fun (q : Nat × Nat) =>
      match decodeBundle q.2 with
      | .ok b => lchk (decide (tWrites b ≤ 1)) (encFail p.1 q.1 4)
      | .error slot => .error (encFail p.1 q.1 slot)) ((List.range p.2.length).zip p.2)) img.progs

/-- The walk met no violation of R101. -/
def checkWalk (w : Walk) : Except LoadFail Unit :=
  match w.enc with
  | some e => .error e
  | none => .ok ()

/-- BUDGET: computed end cycle ≤ DECL ≤ 9,984. -/
def checkBudget (sh : Sheaf) (w : Walk) : Except LoadFail Unit :=
  checkAll (fun n => lchk (decide (w.endOf n ≤ sh.decl.getD n 0 ∧ sh.decl.getD n 0 ≤ windowEnd))
    { reason := 0x07, i0 := n, i1 := w.endOf n, i2 := sh.decl.getD n 0 }) (List.range 48)

/-- PAIRCEIL. -/
def checkCeil (sh : Sheaf) : Except LoadFail Unit :=
  checkAll (fun n => lchk (!sh.pair || decide (sh.decl.getD n 0 ≤ 6400)) { reason := 0x08, i0 := n, i1 := sh.decl.getD n 0 })
    (List.range 48)

/-- FENCE. -/
def checkFence (sh : Sheaf) (w : Walk) : Except LoadFail Unit :=
  checkAll (fun n => lchk (decide (sh.fence.getD n 0 ≤ w.locOf n) && (!sh.pair || decide (1024 ≤ sh.fence.getD n 0)))
    { reason := 0x09, i0 := n, i1 := w.locOf n, i2 := sh.fence.getD n 0 }) (List.range 48)

/-- A PLAN refusal. -/
def planFail (i kind det : Nat) : LoadFail := { reason := 0x0A, i0 := i, i1 := kind, i2 := det }

/-- The bytes a region occupies, rounded up to 64 (R110). -/
def Region.size (r : Region) : Nat := (r.depth * r.ch * 4 + 63) / 64 * 64

/-- The first failing field of a list of (offset, holds). -/
def firstBad : List (Nat × Bool) → Option Nat
  | [] => none
  | (o, ok) :: t => if ok then firstBad t else some o

/-- The fields of entry `i` of a kind, the first failing one reported (R117, reason 0x0A). -/
def planEntry (i kind : Nat) (fs : List (Nat × Bool)) : Except LoadFail Unit :=
  match firstBad fs with
  | some o => .error (planFail i kind o)
  | none => .ok ()

/-- The totals of a plan in ticks of parity `par`: staging descriptors and words, drain descriptors and words (R66). -/
def planTotals (sh : Sheaf) (par : Nat) : List Nat :=
  let st := sh.stage.filter (fun x => bit x.par par)
  let dr := sh.drain.filter (fun x => bit x.par par)
  [st.length, sumN (st.map (·.nch)), dr.length, sumN (dr.map (·.count))]

/-- PLAN: R110 to R112, and the limits of R66 per parity.  A repeated RKEY is refused at the later region, detail 0 (DESIGN CHOICE, log entry 129); a
drain descriptor of KIND 1 is accepted with any PAR of R112, since the checks that R117 lists do not take in R131 (DESIGN CHOICE, log entry 130). -/
def checkPlan (img : Image) : Except LoadFail Unit := do
  let sh := img.sheaf
  let sP := secBytes img.bs (secOf img.dir 5)
  let nr := sh.regions.length
  let ns := sh.stage.length
  let regs := (List.range nr).zip sh.regions
  checkAll (fun (p : Nat × Region) =>
    let r := p.2
    planEntry p.1 1 [
      (0, !(sh.regions.take p.1).any (fun q => q.key == r.key)),
      (8, decide (r.base % 64 = 0 ∧ r.base + r.size ≤ delayEnd sh.dramCfg) &&
          !(sh.regions.take p.1).any (fun q => overlaps q.base q.size r.base r.size)),
      (16, decide (4 ≤ r.depth)), (20, decide (1 ≤ r.ch ∧ r.ch ≤ 4096)), (22, decide (r.rate ≤ 1)),
      (24, allZero (slice sP (16 + 32 * p.1 + 24) 8))]) regs
  checkAll (fun (p : Nat × StageDesc) =>
    let x := p.2
    let r := sh.regions.getD x.region { key := 0, base := 0, depth := 0, ch := 0, rate := 0, chase := 0 }
    let top := if x.dreg = 0 then 0x10000 else 0xF000
    planEntry p.1 2 [
      (0, decide (x.region < nr)), (2, decide (x.ch0 + x.nch ≤ r.ch)), (4, decide (1 ≤ x.nch)),
      (6, decide (x.dreg ≤ 1)), (7, decide (x.owner < 48) && bit sh.laneMask x.owner), (8, decide (x.dptr + x.nch ≤ top)),
      (10, decide (1 ≤ x.par ∧ x.par ≤ 3)), (11, allZero (slice sP (16 + 32 * nr + 16 * p.1 + 11) 1)),
      (12, decide ((if r.rate = 0 then 3 else 2) ≤ x.tap ∧ x.tap < r.depth))]) ((List.range ns).zip sh.stage)
  checkAll (fun (p : Nat × DrainDesc) =>
    let x := p.2
    let r := sh.regions.getD x.didx { key := 0, base := 0, depth := 0, ch := 0, rate := 0, chase := 0 }
    planEntry p.1 3 [
      (0, x.sreg == 2 || x.sreg == 3), (1, decide (x.kind ≤ 3)), (2, decide (x.sptr + x.count ≤ 0x10000)),
      (4, decide (1 ≤ x.count)),
      (6, if x.kind = 0 then decide (x.didx < nr) else if x.kind = 1 then decide (x.didx + x.count ≤ 48)
          else if x.kind = 2 then decide (x.didx + x.count ≤ 256) else decide (x.didx + x.count ≤ 2048)),
      (8, if x.kind = 0 then decide (x.dch + x.count ≤ r.ch) else x.dch == 0),
      (10, decide (x.owner < 48) && bit sh.laneMask x.owner), (11, decide (1 ≤ x.par ∧ x.par ≤ 3)),
      (12, allZero (slice sP (16 + 32 * nr + 16 * ns + 16 * p.1 + 12) 4))]) ((List.range sh.drain.length).zip sh.drain)
  checkAll (fun par =>
    let t := planTotals sh par
    checkAll (fun (q : Nat × Nat) => lchk (decide (t.getD q.1 0 ≤ q.2)) (planFail par 4 ((q.1 + 1) * 2 ^ 28 + t.getD q.1 0)))
      [(0, 4096), (1, 32768), (2, 4096), (3, 8192)]) [0, 1]

/-- The least per-bank refreshes per channel per two ticks (R113). -/
def refreshMin (cls : Nat) : Nat := if cls = 0 then 43 else if cls = 1 then 86 else 171

/-- REFRESH: the minima for the declared class. -/
def checkRefresh (sh : Sheaf) : Except LoadFail Unit :=
  checkAll (fun ch =>
    let n := (sh.refresh.getD (2 * ch) []).length + (sh.refresh.getD (2 * ch + 1) []).length
    lchk (decide (refreshMin sh.refClass ≤ n)) { reason := 0x0B, i0 := ch, i1 := n, i2 := refreshMin sh.refClass }) [0, 1]

/-- Whether two blocks agree in placement (R119). -/
def SBlock.same (a b : SBlock) : Bool := a.lane == b.lane && a.mem == b.mem && a.addr == b.addr && a.count == b.count

/-- Whether two regions agree (R119). -/
def Region.same (a b : Region) : Bool := a.base == b.base && a.depth == b.depth && a.ch == b.ch && a.rate == b.rate

/-- Whether two cells have the same placement set (R119). -/
def SCell.same (a b : SCell) : Bool :=
  a.kind == b.kind && a.nwords == b.nwords && a.places.all (fun p => b.places.contains p) &&
    b.places.all (fun p => a.places.contains p)

/-- A refusal that names a key (R117, 0x0C and 0x0D). -/
def keyFail (reason key kind : Nat) : LoadFail := { reason := reason, i0 := key % 2 ^ 32, i1 := key / 2 ^ 32, i2 := kind }

/-- CONTINUITY: keys in both sheaves agree in placement (R119). -/
def checkContinuity (act : Option Sheaf) (sh : Sheaf) : Except LoadFail Unit :=
  match act with
  | none => .ok ()
  | some a => do
    checkAll (fun (b : SBlock) => match a.blocks.find? (fun x => x.key == b.key) with
      | some x => lchk (x.same b) (keyFail 0x0C b.key 1)
      | none => .ok ()) sh.blocks
    checkAll (fun (r : Region) => match a.regions.find? (fun x => x.key == r.key) with
      | some x => lchk (x.same r) (keyFail 0x0C r.key 2)
      | none => .ok ()) sh.regions
    checkAll (fun (c : SCell) => match a.cells.find? (fun x => x.key == c.key) with
      | some x => lchk (x.same c) (keyFail 0x0C c.key 3)
      | none => .ok ()) sh.cells

/-- The blocks only in the pending sheaf (R119). -/
def newBlocks (act : Option Sheaf) (sh : Sheaf) : List SBlock :=
  match act with
  | none => sh.blocks
  | some a => sh.blocks.filter (fun b => !a.blocks.any (fun x => x.key == b.key))

/-- The regions only in the pending plan (R119). -/
def newRegions (act : Option Sheaf) (sh : Sheaf) : List Region :=
  match act with
  | none => sh.regions
  | some a => sh.regions.filter (fun r => !a.regions.any (fun x => x.key == r.key))

/-- NOSPACE: new blocks and regions lie in words and DRAM that the active sheaf does not use (R119). -/
def checkSpace (act : Option Sheaf) (sh : Sheaf) : Except LoadFail Unit :=
  match act with
  | none => .ok ()
  | some a => do
    checkAll (fun (b : SBlock) => lchk (!a.blocks.any (fun x => x.lane == b.lane && x.mem == b.mem &&
      overlaps x.addr x.count b.addr b.count)) (keyFail 0x0D b.key 1)) (newBlocks act sh)
    checkAll (fun (r : Region) => lchk (!a.regions.any (fun x => overlaps x.base x.size r.base r.size))
      (keyFail 0x0D r.key 2)) (newRegions act sh)

/-- CLUSTER: every lane with a program lies in an enabled cluster. -/
def checkCluster (d : Dev) (sh : Sheaf) : Except LoadFail Unit :=
  let clen := d.lf R.engCtrl 0 3
  checkAll (fun n => lchk (!bit sh.laneMask n || bit clen (n / 16)) { reason := 0x0E, i0 := n, i1 := clen }) (List.range 48)

/-- The words a memory holds: coefficient, state, exchange area (R53, R61). -/
def memWords (mem : Nat) : Nat := if mem = 0 then 32768 else if mem = 1 then 16384 else 516096

/-- A LAYOUT refusal at a word; a word of the exchange area is named by its S-bus region code, from 5, and its pointer (R54, R117). -/
def layFail (lane mem word : Nat) : LoadFail :=
  { reason := 0x0F, i0 := lane, i1 := mem, i2 := if mem = 2 then 5 * 2 ^ 16 + word else word }

/-- LAYOUT: blocks and cells lie within their memories and do not overlap, block keys are unique (with this reason: DESIGN CHOICE, log entry
129), and the walk's accesses hold (R101, R107 to R109). -/
def checkLayout (sh : Sheaf) (w : Walk) : Except LoadFail Unit := do
  checkAll (fun (p : Nat × SBlock) =>
    let b := p.2
    let before := sh.blocks.take p.1
    lchk (decide (b.addr + b.count ≤ memWords b.mem) && !before.any (fun x => x.key == b.key ||
      (x.lane == b.lane && x.mem == b.mem && overlaps x.addr x.count b.addr b.count))) (layFail b.lane b.mem b.addr))
    ((List.range sh.blocks.length).zip sh.blocks)
  checkAll (fun (p : Nat × SCell) =>
    let c := p.2
    checkAll (fun (q : Placement) =>
      lchk (sh.blocks.any (fun b => b.lane == q.lane && b.mem == 0 && decide (b.addr ≤ q.caddr ∧ q.caddr + c.nwords ≤ b.addr + b.count)) &&
        (c.places.filter (fun x => x.lane == q.lane)).length == 1 &&
        !(sh.cells.take p.1).any (fun x => x.places.any (fun y => y.lane == q.lane && overlaps y.caddr x.nwords q.caddr c.nwords)))
        (layFail q.lane 0 q.caddr)) c.places)
    ((List.range sh.cells.length).zip sh.cells)
  match w.lay with
  | some e => .error e
  | none => .ok ()

/-- Every check the unit makes on its own image, in the order of R117, ending with the sheaf and its signing key. -/
def loadChecks (s : Sys) (bs : List Byte) (ecc : Option Nat) : Except LoadFail Image := do
  let img ← readImage bs
  checkRevision (fld (s.dev.reg R.sysId) 8 8) img
  checkSections s.dev img
  checkHash img
  let key ← checkSignature s.otp img
  checkBundles img
  let w := walkOf img
  checkWalk w
  checkBudget img.sheaf w
  checkCeil img.sheaf
  checkFence img.sheaf w
  checkPlan img
  checkRefresh img.sheaf
  checkContinuity s.dev.ldr.act img.sheaf
  checkSpace s.dev.ldr.act img.sheaf
  checkCluster s.dev img.sheaf
  checkLayout img.sheaf w
  match ecc with
  | some a => .error { reason := 0x10, i0 := a % 2 ^ 32, i1 := a / 2 ^ 32 }
  | none => .ok ()
  lchk (img.sheaf.dramCfg == 0 || s.dev.dram8) { reason := 0x13, i0 := 4 }
  .ok { img with sheaf := { img.sheaf with signer := key } }

/-! ## The loader's writes -/

/-- A bank of a lane filled: the bundles from bundle 0, the rest zero (R106). -/
def fillBank (m : Memory) (n b : Nat) (prog : List Nat) : Memory :=
  let m0 := m.filter (fun c => !(decide (instrBase n b ≤ c.1 ∧ c.1 < instrBase n b + 0x20000)))
  ((List.range prog.length).zip prog).foldl (fun m p => m.putBytes (instrBase n b + 16 * p.1) (leBytes 12 p.2)) m0

/-- The EOT bundle of a lane without a program (R106). -/
def eotBundle : Nat := 0x3C000000 * 2 ^ 64

/-- A word of a lane memory that the blocks of a sheaf use (R62). -/
def Sheaf.uses (sh : Sheaf) (lane mem w : Nat) : Bool :=
  sh.blocks.any (fun b => b.lane == lane && b.mem == mem && decide (b.addr ≤ w ∧ w < b.addr + b.count))

/-- The words of a block that its memory has. -/
def SBlock.words (b : SBlock) : Nat := min b.count (memWords b.mem - b.addr)

/-- The initial data of a block (R107): zero when it carries none.  A word that the active sheaf uses is not written (R62), nor one past the end of
the block's memory. -/
def initBlock (act : Option Sheaf) (data : List Byte) (m : Memory) (b : SBlock) : Memory :=
  let a := (if b.mem = 0 then coefBase b.lane else stateBase b.lane) + 4 * b.addr
  let bs := if b.dataOff = 0xFFFFFFFF then List.replicate (4 * b.words) 0 else slice data b.dataOff (4 * b.words)
  if b.mem = 2 then m
  else match act with
    | none => m.putBytes a bs
    | some sh =>
      each ((List.range bs.length).zip bs) (fun p m => if sh.uses b.lane b.mem (b.addr + p.1 / 4) then m else m.put (a + p.1) p.2) m

/-- A region filled with zeros (R119). -/
def zeroRegion (m : Memory) (r : Region) : Memory := m.filter (fun c => !(decide (r.base ≤ c.1 ∧ c.1 < r.base + r.size)))

/-- The single pass writes the pending bank and the new blocks, whatever the checks then find (R106, R107, R116). -/
def Sys.passWrites (s : Sys) (img : Image) : Sys :=
  let b := 1 - s.dev.rf R.engStat 5 1
  let prog := fun n => match img.progs.find? (fun p => p.1 == n) with
    | some p => p.2
    | none => [eotBundle]
  let new := newBlocks s.dev.ldr.act img.sheaf
  let m1 := (List.range 48).foldl (fun m n => fillBank m n b (prog n)) s.mem
  let d1 := each (List.range 48) (fun n d => d.eccClean (instrBase n b) 0x20000) s.dev
  { s with
      mem := new.foldl (initBlock s.dev.ldr.act img.data) m1
      dev := each (new.filter (fun x => x.mem != 2)) (fun x d =>
        d.eccClean ((if x.mem = 0 then coefBase x.lane else stateBase x.lane) + 4 * x.addr) (4 * x.words)) d1 }

/-- The new regions filled with zeros (R119). -/
def Sys.zeroFill (s : Sys) (sh : Sheaf) : Sys := s.onMem (fun m => (newRegions s.dev.ldr.act sh).foldl zeroRegion m)

/-! ## States of a load (R121) -/

/-- LOAD.STAT.STATE. -/
def Dev.loadState (d : Dev) : Nat := d.rf R.loadStat 0 3

/-- A 256-bit hash in the eight words of a register array, digest byte 4i in bits [31:24] of word i. -/
def Dev.putHash (d : Dev) (reg : Nat → Nat) (h : Nat) : Dev :=
  (List.range 8).foldl (fun d i => d.setReg (reg i) (fld h (32 * (7 - i)) 32)) d

/-- A refusal: STATE, REASON and the detail words, the count, and the fault (R117, R130). -/
def Dev.loadRefuse (d : Dev) (f : LoadFail) : Dev :=
  let d1 := (((d.setReg R.loadStat (4 + 256 * f.reason)).setReg R.loadFailinfo0 f.i0).setReg R.loadFailinfo1 f.i1).setReg
    R.loadFailinfo2 f.i2
  let d2 := ({ d1 with ldr := { d1.ldr with job := none, pend := none } } : Dev).bump R.loadRefusecnt 1
  let d3 := if f.reason = 0x10 then d2.raise Blk.load Src.loadStoreEcc f.i0 f.i1 0 else d2
  let d4 := if f.reason = 0x11 then d3.raise Blk.load Src.loadPeerCopy f.i0 0 0 else d3
  d4.raise Blk.load Src.loadLoadRefused f.reason f.i0 f.i1

/-- READY: the pending sheaf held with its identifier, class and hash (R121). -/
def Dev.loadReady (d : Dev) (sh : Sheaf) : Dev :=
  let d1 := d.setReg R.loadStat (2 + 65536 * b2n sh.pair)
  let d2 := ((d1.setReg R.loadPendid sh.id).setFld R.loadClass 2 2 sh.refClass).putHash R.loadPendhash sh.hash
  { d2 with ldr := { d2.ldr with pend := some sh, job := none } }

/-- EMPTY: the pending sheaf discarded. -/
def Dev.loadEmpty (d : Dev) : Dev :=
  let d1 := ((d.setReg R.loadStat 0).setReg R.loadPendid 0).setFld R.loadClass 2 2 0
  let d2 := d1.putHash R.loadPendhash 0
  { d2 with ldr := { d2.ldr with pend := none, job := none } }

/-- Whether a load command's offset and length are such that its image lies in the store (R102). -/
def storeFits (off len : Nat) : Bool :=
  decide (off % 4096 = 0 ∧ off + len ≤ storeSize ∧ len ≤ 2 ^ 24 ∧ 0 < len)

/-- A load begins (R116, R120): SRCOFF and SRCLEN, and whether the partner's copy and checks are awaited. -/
def Dev.loadBegin (d : Dev) (off len : Nat) (peer : Bool) : Dev :=
  let bad := !storeFits off len
  let peer := peer && !bad
  let d1 := ((((d.setReg R.loadStat (1 + 16 * (if peer then 1 else 2))).setReg R.loadSrcoff (off % 2 ^ 27)).setReg R.loadSrclen
    (len % 2 ^ 25)).setReg R.loadProgress 0)
  let d2 := ((d1.setReg R.loadFailinfo0 0).setReg R.loadFailinfo1 0).setReg R.loadFailinfo2 0
  ({ d2 with ldr := { d2.ldr with job := some { peerCopy := peer, bad := bad }, pend := none } } : Dev).bump
    R.loadLoadcnt 1

/-- The loader snoop point sees every section of the image (R351). -/
def Dev.snoopSections (d : Dev) (bs : List Byte) : Dev :=
  match readImage bs with
  | .error _ => d
  | .ok img => img.dir.foldl (fun d e =>
      let x := secBytes bs e
      let d1 := d.cvuSnoop 0 0 x
      if d1.cvuValue 0 x = e.check then d1 else d1.cvuFail 0) d

/-- The unit's own pass over its image in the store (R116): the sections snooped, what the pass writes of an image whose format it can read (one it
cannot read leaves memory alone: DESIGN CHOICE, log entry 131), and the checks. -/
def Sys.ownPass (s : Sys) (job : LoadJob) (ecc : Option Nat) : Sys × Except LoadFail Sheaf :=
  let off := s.dev.reg R.loadSrcoff
  let len := s.dev.reg R.loadSrclen
  if storeFits off len && !job.bad then
    let bs := s.mem.bytes (s.dev.storeBase + off) len
    let s1 := s.onDev (fun d => d.snoopSections bs)
    match readImage bs with
    | .error f => (s1, .error f)
    | .ok img => (s1.passWrites img, match loadChecks s1 bs ecc with
      | .error f => .error f
      | .ok img => .ok img.sheaf)
  else (s, .error { reason := 0x01, i0 := 0, i1 := 0 })

/-- A sheaf that has passed every check becomes READY, its new regions filled with zeros (R119, R121). -/
def Sys.loadDone (s : Sys) (sh : Sheaf) : Sys := (s.zeroFill sh).onDev (fun d => d.loadReady sh)

/-- A load that has made its pass, with the tables that pass left in the loader: READY, or of a paired load what the partner answers (R117,
R120). -/
def Sys.loadJoin (s : Sys) (job : LoadJob) (sh : Sheaf) (peer : PeerAns) : Sys :=
  if !job.peerCopy then s.loadDone sh
  else match peer with
    | .none => s.onDev (fun d => { d with ldr := { d.ldr with job := some { job with own := some sh } } })
    | .fail c => s.onDev (fun d => d.loadRefuse { reason := 0x11, i0 := c })
    | .ready h => if h = sh.hash then s.loadDone sh else s.onDev (fun d => d.loadRefuse { reason := 0x11, i0 := 0x80 })

/-- A load finishes its checks (R116, R117, R120, R121): REFUSED with the first that fails, or READY once the partner of a paired load
has passed too. -/
def Sys.loadFinish (s : Sys) (ecc : Option Nat) (peer : PeerAns) : Sys :=
  match s.dev.ldr.job with
  | none => s
  | some job =>
    if s.dev.loadState ≠ 1 then s
    else match job.own with
      | some sh => s.loadJoin job sh peer
      | none =>
        let r := s.ownPass job ecc
        match r.2 with
        | .error f => r.1.onDev (fun d => d.loadRefuse f)
        | .ok sh => r.1.loadJoin job sh peer

/-- ABORT by state (R121); none where it is refused with STATE. -/
def Dev.loadAbort (d : Dev) (cause : Nat) : Option Dev :=
  match d.loadState with
  | 1 => some (d.loadRefuse { reason := 0x12, i0 := cause })
  | 2 => some d.loadEmpty
  | 3 => none
  | _ => some d

end Sys2Proof.Machine
end

