-- ==== Sys2Proof/Machine/Dram.lean ====
section
/-!
DEFINITION. The DRAM controller: the forced uncorrectable read (R401, R406), the temperature class (R403) and the refresh
slots (R404, R405).
-/
namespace Sys2Proof.Machine

/-! ## Uncorrectable reads (R401, R406) -/

/-- An uncorrectable read by master `m` at line address `a`: ERRINFO, ERRADDR, the counter and UNCORR. -/
def Dev.dramUncorr (d : Dev) (m a : Nat) (forced : Bool) : Dev :=
  let l := a / 64 * 64
  let d1 := ((d.setReg R.ddrErrinfo (16 * m + b2n forced)).setW R.ddrErraddr l).bump (R.ddrCnt 1) 1
  d1.raiseF Blk.ddr Src.ddrUncorr forced m (l % 2 ^ 32) (l / 2 ^ 32)

/-- A 64-byte read by master `m` at address `a` is forced to fail: FORCE.ARM is in effect for that master; it clears
(R406). -/
def Dev.dramForced (d : Dev) (m a : Nat) : Dev × Bool :=
  if d.lf R.ddrForce 0 1 = 1 ∧ d.lf R.ddrForce 4 4 = m then ((d.setFld R.ddrForce 0 1 0).dramUncorr m a true, true)
  else (d, false)

/-- A single-bit error corrected in the read of master `m` at address `a` (R401). -/
def Dev.dramCorr (d : Dev) (m a : Nat) : Dev :=
  let l := a / 64 * 64
  (d.bump (R.ddrCnt 0) 1).raise Blk.ddr Src.ddrCorr m (l % 2 ^ 32) (l / 2 ^ 32)

/-! ## Temperature and refresh (R403 to R405) -/

/-- The sheaf whose refresh pattern runs in this tick: from tick T − 1 of a swap the new one (R404). -/
def Dev.refreshSheaf (d : Dev) : Option Sheaf :=
  match d.agenda.find? (fun e => e.act == .swap && e.tgt == d.tick + 1) with
  | some _ => d.ldr.pend
  | none => d.ldr.act

/-- DRAMCLASS. -/
def Dev.dramClass (d : Dev) : Nat := d.rf R.ddrTemp 16 2

/-- A change of class (R403, R405). -/
def Dev.setClass (d : Dev) (k : Nat) : Dev :=
  if k = d.dramClass then d
  else
    let old := d.dramClass
    let d1 := ((d.setFld R.ddrTemp 16 2 k).setFld R.ddrTemp 18 1 (b2n (k == 3))).setFld R.loadClass 4 2 k
    let d2 : Dev := { d1 with ddr := { d1.ddr with thin := false, below := 0 } }
    let d3 := d2.raise Blk.ddr Src.ddrClassChange old k d.tickLo
    if k = 3 then d3.raise Blk.ddr Src.ddrDramHot (d3.rf R.ddrTemp 0 8) (d3.rf R.ddrTemp 8 8) d.tickLo else d3

/-- The read of mode register 4 at TSLOT of an even tick: the two values and the classes their refresh rates name
(R403). -/
def Dev.mr4Read (v0 k0 v1 k1 : Nat) (d0 : Dev) : Dev :=
  match d0.refreshSheaf with
  | none => d0
  | some sh =>
    if d0.tick % 2 = 1 then d0
    else
      let d := d0.atC sh.tslot
      let d1 := (d.setFld R.ddrTemp 0 8 v0).setFld R.ddrTemp 8 8 v1
      let k := min 3 (max k0 k1)
      if d.dramClass < k then d1.setClass k
      else if k < d.dramClass then
        if d.ddr.low = k ∧ 63 ≤ d.ddr.below then d1.setClass k
        else { d1 with ddr := { d1.ddr with below := if d.ddr.low = k then d1.ddr.below + 1 else 1, low := k } }
      else { d1 with ddr := { d1.ddr with below := 0 } }

/-- The refresh rate of a class, relative to ×1; beyond ×4 none is given. -/
def classRate (k : Nat) : Option Nat := if k = 0 then some 1 else if k = 1 then some 2 else if k = 2 then some 4 else none

/-- A planned refresh slot of channel `ch` at cycle `c` (R403, R405). -/
def Dev.refreshSlot (ch c : Nat) (d0 : Dev) : Dev :=
  match d0.refreshSheaf with
  | none => d0
  | some sh =>
    if !(sh.refresh.getD (2 * ch + d0.tick % 2) []).contains c || decide (1 < ch) then d0
    else
      let d := d0.atC c
      let act := d.rf R.loadClass 0 2
      if d.dramClass ≤ act then d
      else
        -- the number of extra refreshes at a class beyond ×4 is not given: a free value
        let x := match classRate d.dramClass, classRate act with
          | some a, some b => (d, a / b - 1)
          | _, _ => (d.draw.1, d.draw.2.toNat % 256)
        let d1 := x.1.bump (R.ddrCnt 3) x.2
        if d1.ddr.thin then d1
        else
          let d2 : Dev := { d1 with ddr := { d1.ddr with thin := true } }
          d2.raise Blk.ddr Src.ddrRefreshThin d.dramClass act d.tickLo

end Sys2Proof.Machine
end

