-- ==== Sys2Proof/Machine/LocalIn.lean ====
section
/-!
DEFINITION. Local inputs: the input high-pass filters (R133, R134), the write of a captured word into the local section
of the half that fills (R18, R238), and its forwarding to the partner (R305).
-/
namespace Sys2Proof.Machine

/-- The filter code in effect: reserved codes act as 0b001 (R133). -/
def hpfCode (c : Nat) : Nat := if 5 ≤ c then 1 else c

/-- The filter with code `c` selected: a section that stays selected keeps its state, one that becomes selected starts
from zero (R134). -/
def Hpf.select (h : Hpf) (c : Nat) : Hpf :=
  { code := c
    dc := if h.code = 0 ∨ c = 0 then 0 else h.dc
    wind := if h.code = c then h.wind else [] }

/-- An internal word rounded to Q1.31, half up, with saturation (R84, R133), and whether it saturated. -/
def hpfOut (v : BitVec 40) : Int × Bool := satQ31 (roundDiv v.toInt (2 ^ (Config.hpfFrac % 9)))

/-- One sample through a channel's filter, at 96 kHz if `r96`; the flag says whether the result saturated (R133; the sections' coefficients are
open, log entry 6). -/
def Hpf.step (h0 : Hpf) (sel : Nat) (r96 : Bool) (x : Nat) : Hpf × Nat × Bool :=
  let h := h0.select (hpfCode sel)
  if h.code = 0 then (h, x, false)
  else
    let a := Config.dcStep (b2n r96) h.dc (BitVec.ofNat 32 x)
    let b := if h.code = 1 then (h.wind, a.2) else Config.windStep h.code (b2n r96) h.wind a.2
    let y := hpfOut b.2
    ({ h with dc := a.1, wind := b.1 }, wrapN 32 y.1, y.2)

/-- The partner's role, as its last STATUS gave it. -/
def Dev.peerRole (d : Dev) : Option Role := d.pair.peer.map (fun (f : StatusF) => roleOf f.role)

/-- The unit forwards its local inputs: it holds the lease and its partner follows, or will from the next tick, a snapshot's (R305, R315). -/
def Dev.forwards (d : Dev) : Bool :=
  d.paired && d.role == .active && (d.peerRole == some .shadow || d.peerRole == some .catchup ||
    (d.phase != 0 && decide (d.w64 R.pairSnap ≤ d.tick + 1)))

/-- The TYPE of a message (R458). -/
def MirMsg.type : MirMsg → Nat
  | .status _ => 0x01
  | .locals _ _ _ => 0x02
  | .presence _ => 0x03
  | .packet _ _ _ _ _ => 0x04
  | .modBlock _ => 0x05
  | .command _ => 0x06
  | .confirm _ _ _ _ => 0x07
  | .cancel _ _ => 0x08
  | .sentAck _ => 0x09
  | .retrans _ _ => 0x0A
  | .sheafCopy _ _ _ => 0x0B
  | .resync _ _ => 0x0C
  | .image _ _ | .imageState _ => 0x0D
  | .delay _ => 0x0E
  | .displaced _ _ => 0x0F
  | .identity _ _ => 0x10

/-- A message is bulk, not real-time traffic (R323). -/
def MirMsg.bulk : MirMsg → Bool
  | .sheafCopy _ _ _ | .image _ _ | .imageState _ | .delay _ | .displaced _ _ => true
  | _ => false

/-- The bytes of a bulk message. -/
def MirMsg.bulkBytes : MirMsg → Nat
  | .sheafCopy _ bs _ | .image _ bs | .displaced _ bs => bs.length
  | .delay ps => sumN (ps.map (fun p => p.2.length))
  | _ => 0

/-- The LEN of a message, payload without header and check value: given for STATUS, the MOD block and bulk; elsewhere the spec gives no layout and
the length is a free value, within the bound of R323 or of LEN (log entry 133). -/
def Dev.msgLen (d : Dev) (m : MirMsg) : Dev × Nat :=
  let upTo := fun (n : Nat) => (d.draw.1, d.draw.2.toNat % (n + 1))
  match m with
  | .status _ => (d, 128)
  | .modBlock _ => (d, 6144)
  | .locals _ _ _ => upTo 1280
  | .presence _ => upTo 2048
  | m => if m.bulk then (d, m.bulkBytes) else upTo 4096

/-- Unit `k` and every spare unit at snoop point `k` (2, 3) compute over a mirror frame.  The bytes of a frame's payload are
not given, so the values are free (R351, R355; log entry 22). -/
def Dev.mirSnoop (d : Dev) (k : Nat) : Dev :=
  let r := d.draw
  let d1 := r.1.cvuLatch k 0 (r.2.toNat % 2 ^ 32)
  (rangeFrom 7 9).foldl (fun d j =>
    if d.lf (R.cvuCfg j) 31 1 = 1 ∧ d.lf (R.cvuCfg j) 24 4 = k then
      let q := d.draw
      let v := q.2.toNat % 2 ^ d.lf (R.cvuCfg j) 0 7
      (q.1.cvuLatch j 0 v).cvuCompare j 0 v
    else d) d1

/-- A mirror frame leaves: counted, and seen at the snoop point (R322, R351). -/
def Dev.mirPut (d : Dev) (f : MirFrame) : Dev :=
  let n := max 1 ((f.len + 4095) / 4096)
  let d1 := ((d.bump (R.mirCnt 0) n).bump (R.mirCnt 5) f.msg.bulkBytes).mirSnoop 2
  { d1 with
    out := { d1.out with mir := d1.out.mir ++ [f] }
    pair := { d1.pair with seq := if f.again then d1.pair.seq else (d1.pair.seq + n) % 65536 } }

/-- The cap of real-time traffic: bytes per tick and direction (R323). -/
def rtCap : Nat := 20480

/-- A frame with payload `m` of `n` bytes leaves if the cap of its tick allows; the local inputs of a tick count once, with all the bytes R323
gives them.  Past the cap a message waits for the next tick (log entry 132). -/
def Dev.mirFrame (d : Dev) (again : Bool) (seq n : Nat) (m : MirMsg) : Dev :=
  let loc := m.type == 2
  let rt := if m.bulk then 0 else if loc then (if d.pair.rtLoc then 0 else 1280) else n
  let d1 : Dev := { d with pair := { d.pair with
    rtAsked := d.pair.rtAsked + rt
    rtLoc := d.pair.rtLoc || loc } }
  if rtCap < d.pair.rtSent + rt then { d1 with pair := { d1.pair with queued := d1.pair.queued ++ [m] } }
  else
    ({ d1 with pair := { d1.pair with rtSent := d1.pair.rtSent + rt } } : Dev).mirPut
      { again := again, seq := seq, len := n, tick := d.tick, msg := m }

/-- A message to the partner leaves on the mirror, while the link is up and no reset of the management plane holds the traffic (R29, R322). -/
def Dev.mirSend (d : Dev) (m : MirMsg) : Dev :=
  if d.rf R.mirStat 0 1 = 0 ∨ d.mgmtRst.isSome then d
  else
    let z := d.msgLen m
    z.1.mirFrame false z.1.pair.seq z.2 m

/-- Values that glean may take in this tick (R407). -/
def Dev.gleanSee (d : Dev) (vals : List (Nat × Nat)) : Dev :=
  if d.rf R.glnStat 0 2 = 1 then { d with gln := { d.gln with vals := vals ++ d.gln.vals } } else d

/-- Capture writes words of the local section of the half that lanes read in the next tick, and a lease holder forwards
them with the slip decisions of their frames (R238, R248, R305). -/
def Sys.locWrite (s : Sys) (words : List (Nat × Nat)) (decs : List (Nat × Nat × Nat)) : Sys :=
  let base := locSect ((s.dev.tick + 1) % 2)
  let s0 := s.storeWords (words.map (fun w => (base + 4 * w.1, w.2)))
  let s1 := s0.onDev (fun d => d.gleanSee words)
  if s.dev.forwards then s1.onDev (fun d => d.mirSend (.locals (d.tick + 1) words decs)) else s1

end Sys2Proof.Machine
end

