-- ==== Sys2Proof/Machine/Mod.lean ====
section
/-!
DEFINITION. The amplifier modulators and the sense lanes: superframes, decimation, limiter (R273 to R279), the loop, the
quantiser and the carrier (R269 to R271, R278), latch, retry, mute, enables and faults (R280 to R285), and the forwarded
MOD block of a pair (R286 to R288).
-/
namespace Sys2Proof.Machine

/-! ## Access -/

/-- A channel. -/
def Dev.modC (d : Dev) (c : Nat) : ModCh := d.mod.ch.getD c {}
/-- A group. -/
def Dev.modG (d : Dev) (g : Nat) : ModGrp := d.mod.grp.getD g {}
/-- A sense lane. -/
def Dev.snsL (d : Dev) (g : Nat) : SnsLane := d.sns.getD g {}
/-- A change of a channel. -/
def Dev.onCh (d : Dev) (c : Nat) (f : ModCh → ModCh) : Dev := { d with mod := { d.mod with ch := updAt d.mod.ch c f } }
/-- A change of a group. -/
def Dev.onGrp (d : Dev) (g : Nat) (f : ModGrp → ModGrp) : Dev := { d with mod := { d.mod with grp := updAt d.mod.grp g f } }
/-- A change of a sense lane. -/
def Dev.onSns (d : Dev) (g : Nat) (f : SnsLane → SnsLane) : Dev := { d with sns := updAt d.sns g f }
/-- The channels of a group (R267). -/
def chansOf (g : Nat) : List Nat := rangeFrom (8 * g) 8
/-- RAMPT; 0 acts as 1. -/
def Dev.rampT (d : Dev) : Nat := max 1 (d.lf R.modRetry 0 12)
/-- RETRYT; 0 acts as 1. -/
def Dev.retryT (d : Dev) : Nat := max 1 (d.lf R.modRetry 12 20)
/-- RETRYMAX. -/
def Dev.retryMax (d : Dev) : Nat := d.lf R.modLimcfg 8 4
/-- LATCHN; 0 acts as 1. -/
def Dev.latchN (d : Dev) : Nat := max 1 (d.lf R.modLimcfg 0 8)
/-- HMIN. -/
def Dev.hmin (d : Dev) : Nat := d.lf R.modLimcfg 16 12
/-- The over-current force of a channel (R279). -/
def Dev.ocForce (d : Dev) (c : Nat) : Bool := if c < 32 then bit (d.lv R.modForce0) c else bit (d.lv R.modForce1) (c - 32)
/-- A ramp's step n in tick `t`. -/
def Ramp.n (r : Ramp) (rampt t : Nat) : Nat :=
  if t < r.t0 then r.n0.toNat else (clampI 0 rampt (r.n0 + r.dir * ((t : Int) - r.t0 + 1))).toNat
/-- The step of an optional ramp: 0 before a ramp has begun. -/
def rampN (r : Option Ramp) (rampt t : Nat) : Nat := ((r.map (fun x => Ramp.n x rampt t)).getD 0)
/-- The gain g = n / RAMPT of step n in Q1.31, rounded by R84; 1 from n = RAMPT on (R282). -/
def rampGain (n rampt : Nat) : Int := if rampt ≤ n then 2 ^ 31 else roundDiv ((n : Int) * 2 ^ 31) rampt
/-- The first timer step of carrier period `j` of channel `c` in its tick: STAG + 5,120 j (R269). -/
def Dev.periodStart (d : Dev) (c j : Nat) : Nat := d.lf (R.modChcfg c) 0 13 + 5120 * j
/-- The unit's MOD computes and drives its pins: not in a CATCHUP, FALLOW or ISOLATED unit, a releasing unit excepted until
its new role's behaviour begins (R286, R298), and not in factory test mode (R367). -/
def Dev.modLive (d : Dev) : Bool :=
  !d.testMode && (!d.paired || d.role == .active || d.role == .shadow || decide (d.tick < d.pair.pinsUntil))

/-! ## Status registers -/

/-- CHSTATc.STATE (R280 to R283). -/
def Dev.chState (d : Dev) (c : Nat) : Nat :=
  let x := d.modC c
  if x.st = 1 then
    match x.core.ramp with
    | none => 1
    | some r => if r.n d.rampT d.tick < d.rampT then (if d.tick < r.t0 ∧ r.n0 = 0 then 1 else 2) else 3
  else x.st

/-- The limited periods that started in the last completed tick. -/
def ModCh.limT (x : ModCh) (par : Nat) : Nat := ((x.flags.getD par []).filter (fun b => b)).length

/-- CHSTATc, from the channel's state. -/
def Dev.chStat (d : Dev) (c : Nat) : Dev :=
  let x := d.modC c
  d.setReg (R.modChstat c) (d.chState c + 2 ^ 16 * x.limT ((d.tick + 1) % 2) + 2 ^ 20 * min 255 x.run
    + 2 ^ 28 * min 15 x.core.retries)

/-- CHSTATc of every channel. -/
def Dev.chStats (d : Dev) : Dev := forN 48 (fun c d => d.chStat c) d

/-- GRPSTAT, from the groups. -/
def Dev.grpStat (d : Dev) : Dev :=
  let m := fun (f : ModGrp → Bool) => d.mod.grp.zipIdx.foldl (fun acc x => bitSet acc x.2 (f x.1)) 0
  d.setReg R.modGrpstat (m (fun g => g.amp) + 2 ^ 8 * m (fun g => g.run_) + 2 ^ 16 * m (fun g => g.drv)
    + 2 ^ 24 * b2n d.mod.shut)

/-! ## Sense superframes (R273 to R277) -/

/-- The weights of a second-order CIC of ratio 8 (R277). -/
def cic2w : List Nat := (List.range 15).map (fun i => min i (14 - i) + 1)

/-- The weights of a third-order CIC of ratio 16: how many triples of numbers below 16 have each sum (R277). -/
def cic3w : List Nat :=
  (List.range 46).map (fun s => sumN ((List.range 31).map (fun t =>
    if t ≤ s ∧ s - t < 16 then min t (30 - t) + 1 else 0)))

/-- A weighted sum of a history, newest first. -/
def wsum (w : List Nat) (h : List Int) : Int :=
  (w.zip h).foldl (fun (acc : Int) p => acc + (p.1 : Int) * p.2) 0

/-- Saturation to Q1.31. -/
def sat31 (x : Int) : Int := clampI (-2147483648) 2147483647 x

/-- A lane's run after a superframe (R276). -/
def LaneRun.next (r : LaneRun) (good : Bool) : LaneRun :=
  let bad := if good then 0 else min 15 (r.bad + 1)
  match r.state with
  | 1 => if good then (if 3 ≤ r.good then { state := 2 } else { r with good := r.good + 1, bad := 0 })
         else { r with good := 0, bad := bad }
  | 2 => if good then { state := 2 } else { state := 3, bad := bad }
  | 3 => if good then { state := 2 } else if 9 ≤ bad then { state := 4, bad := bad } else { state := 3, bad := bad }
  | 4 => if good then (if 15 ≤ r.good then { state := 2 } else { state := 4, good := r.good + 1 })
         else { state := 4, bad := bad }
  | _ => r

/-- The bytes of a superframe for its check value: bits 8 to 151, the first bit sent in bit 7 of byte 0 (R351). -/
def sfBytes (bits : Nat) : List Byte :=
  (List.range 18).map (fun k => BitVec.ofNat 8 (beBits ((List.range 8).map (fun i => bit bits (8 + 8 * k + i)))))
where
  /-- Bits to a number, most significant first. -/
  beBits (l : List Bool) : Nat := l.foldl (fun a b => 2 * a + b2n b) 0

/-- `n` bits of a superframe from bit `i`, the first sent most significant. -/
def sfField (bits i n : Nat) : Nat := ((List.range n).map (fun k => bit bits (i + k))).foldl (fun a b => 2 * a + b2n b) 0

/-- The limiter on channel `c` with fast current `f` (R279): the rest of its carrier period is forced, and the period is a
limited one. -/
def Dev.limiter (d : Dev) (c : Nat) (f : Int) : Dev :=
  let x := d.modC c
  let ilim : Int := d.lf (R.modChcfg c) 16 16 * 2 ^ 15
  let hi := decide (ilim < f) || d.ocForce c
  let lo := decide (f < -ilim) && !d.ocForce c
  if x.st = 1 ∧ (hi || lo) = true then
    let d1 := d.onCh c (fun x => { x with force := some lo })
    if x.limited then d1
    else
      ((d1.onCh c (fun x => { x with
        limited := true
        run := min 255 (x.run + 1)
        flags := updAt x.flags x.perPar (fun fl => updAt fl x.per (fun _ => true)) })).bump (R.modCnt 0) 1).raise
          Blk.mod Src.modLimit c d.tickLo x.per
  else d

/-- The running channels of a group are sense-muted (R281). -/
def Dev.senseMute (d : Dev) (g : Nat) : Dev :=
  let hit := (chansOf g).filter (fun c => (d.modC c).st == 1)
  if hit = [] then d
  else (hit.foldl (fun d c => d.onCh c (fun x => { x with st := 6, limited := false })) d).raise
    Blk.mod Src.modSenseMute g d.tickLo 0

/-- Channels of a group that have just begun to run while its lane is DOWN are sense-muted (R281). -/
def Dev.muteDown (d : Dev) (g : Nat) : Dev := if (d.snsL g).run.state = 4 then d.senseMute g else d

/-- A superframe of lane `g`: its number in the tick, its 160 bits (bit i sent i-th), the arrival of its first bit in
cycles after its window's end, received by cycle `c` (R273 to R279). -/
def Dev.superframe (g sf bits arr c : Nat) (d0 : Dev) : Dev :=
  let d := d0.atC c
  let l := d.snsL g
  if 6 ≤ g ∨ 8 ≤ sf ∨ l.run.state = 0 then d
  else
    let tk := if 1280 * (sf + 1) ≤ c then d.tick else d.tick - 1
    let par := tk % 2
    let want := sf + 8 * par
    let frc := d.lf R.snsForce (4 * g) 4
    let dA := if 0 < frc then
        let v := if d.rf R.snsForce (4 * g) 4 = frc then fldSet (d.reg R.snsForce) (4 * g) 4 (frc - 1) else d.reg R.snsForce
        d.setBoth R.snsForce v (fldSet (d.lv R.snsForce) (4 * g) 4 (frc - 1))
      else d
    let dB := dA.cvuSnoop 1 g (sfBytes bits)
    let crcBad := decide (0 < frc) || d.cvuValue 1 (sfBytes bits) != sfField bits 152 8
    let sfc := sfField bits 144 4
    let synBad := sfField bits 0 8 != 0b11100010 || sfc != want
    let arrBad := decide (1152 < arr)
    let good := !(crcBad || synBad || arrBad)
    let acq := l.run.state == 1
    let dC := if crcBad then dB.cvuFail 1 else dB
    let dD := if good then dC.bump (R.snsCnt g 0) 1
      else if acq then dC
      else
        let e1 := if crcBad then (dC.bump (R.snsCnt g 1) 1).raiseF Blk.sns Src.snsCrcErr (decide (0 < frc)) g want d.tickLo else dC
        let e2 := if synBad || arrBad then e1.bump (R.snsCnt g 2) 1 else e1
        let e3 := if synBad then e2.raiseF Blk.sns Src.snsSyncErr (decide (0 < frc)) g sfc d.tickLo else e2
        if arrBad then e3.raiseF Blk.sns Src.snsAlign (decide (0 < frc)) g arr 0 else e3
    -- the lane's state (R276)
    let run' := l.run.next good
    let data := if good then (List.range 128).map (fun i => if bit bits (8 + i) then (1 : Int) else -1) else l.data
    let dE := dD.onSns g (fun l => { l with
      run := run'
      data := data
      runAt := if sf = 0 then updAt l.runAt par (fun _ => l.run) else l.runAt
      verd := updAt l.verd par (fun v => updAt v sf (fun _ => some good)) })
    let dF := ((dE.setFld (R.snsLanestat g) 20 12 (min 4095 arr)).setFld (R.snsLanestat g) 8 4 run'.bad).setFld
      (R.snsLanestat g) 0 3 run'.state
    let dG := if l.run.state != 4 && run'.state == 4 then (dF.raiseF Blk.sns Src.snsLaneDown (decide (0 < frc)) g d.tickLo 0).senseMute g
      else if l.run.state == 4 && run'.state == 2 then dF.raise Blk.sns Src.snsLaneUp g d.tickLo 0
      else dF
    -- the status bits (R274)
    let st := sfField bits 136 16
    let old := d.reg (R.snsFestat g)
    let news := (fld old 8 8 == 0 && fld st 8 8 != 0) || fld old 2 2 != fld st 2 2
    let dH := if !good then dG
      else
        let e := dG.setReg (R.snsFestat g) st
        if news && !l.feT then (e.onSns g (fun l => { l with feT := true })).raise Blk.sns Src.snsFeStatus g st d.tickLo else e
    -- decimation (R277)
    let m := match min 2 (d.lf (R.snsLanectl g) 0 3) with
      | 0 => 1
      | 1 => 3
      | _ => 5
    let strm := fun (s : Nat) => (List.range 8).reverse.map (fun r => data.getD (16 * r + s) 0)
    let hist := (List.range 16).map (fun s => (strm s ++ l.hist.getD s []).take 46)
    let pair := (List.range 8).map (fun i =>
      let f := sat31 (wsum cic2w (hist.getD (2 * i + 1) []) * 2 ^ 25)
      (f :: l.rank.getD i []).take 5)
    let fast := pair.map (fun h => medianOf m h)
    let volts := if sf % 2 = 1 then
        updAt l.volts par (fun vs => vs.zipIdx.map (fun (x : List Int × Nat) =>
          updAt x.1 (sf / 2) (fun _ => sat31 (wsum cic3w (hist.getD (2 * x.2) []) * 2 ^ 19))))
      else l.volts
    let dI := dH.onSns g (fun l => { l with hist := hist, rank := pair, fast := fast, volts := volts })
    let dJ := if run'.state = 4 then dI
      else (List.range 8).foldl (fun d i => d.limiter (8 * g + i) (fast.getD i 0)) dI
    (chansOf g).foldl (fun d c => d.chStat c) dJ
where
  /-- The median of the newest `m` values, zeros before them. -/
  medianOf (m : Nat) (h : List Int) : Int :=
    (sortBy (fun (x : Int) => (x + 2147483648).toNat) ((List.range m).map (fun i => h.getD i 0))).getD ((m - 1) / 2) 0

/-- Lanes are enabled and disabled at a boundary, the clock starts at an even one (R273, R276). -/
def Dev.snsBoundary (d : Dev) : Dev :=
  let d1 := forN 6 (fun g d =>
    let en := d.lf (R.snsLanectl g) 31 1 == 1
    let st := (d.snsL g).run.state
    if en && st == 0 then
      ((d.onSns g (fun _ => { run := { state := 1 } })).setReg (R.snsFestat g) 0).setReg (R.snsLanestat g) 1
    else if !en && st != 0 then (d.onSns g (fun _ => {})).setReg (R.snsLanestat g) 0
    else d.onSns g (fun l => { l with feT := false, verd := updAt l.verd (d.tick % 2) (fun _ => List.replicate 8 none) })) d
  let en := d1.lf R.snsClkcfg 0 1 == 1
  { d1 with snsOn := if !en then false else if d1.tick % 2 = 0 then true else d1.snsOn }

/-! ## The loop and the quantiser (R270, R278) -/

/-- g × r, rounded by R84; a gain of 1 leaves r as it is (R278, R282). -/
def rampMul (g r : Int) : Int := sat31 (roundDiv (g * r) (2 ^ 31))

/-- A Q3.29 coefficient. -/
def coef29 (v : Nat) : Int := sgn 32 v

/-- One biquad section (R278): its coefficients b0 b1 b2 a1 a2, its states x1 x2 y1 y2, and the input. -/
def biquad (k : List Int) (st : List Int) (x : Int) : List Int × Int :=
  let g := fun i => k.getD i 0
  let z := fun i => st.getD i 0
  let y := sat31 (roundDiv (g 0 * x + g 1 * z 0 + g 2 * z 1 - g 3 * z 2 - g 4 * z 3) (2 ^ 29))
  ([x, z 0, y, z 2], y)

/-- The quantiser of one period: the high time, the remainder, and whether it clipped (R270). -/
def quantise (hmin : Nat) (m rem : Int) : Nat × Int × Bool :=
  let y := 2560 * 2 ^ 31 + 2560 * m + rem
  let h := roundDiv y (2 ^ 31)
  if h < hmin then (hmin, 0, true)
  else if 5120 - (hmin : Int) < h then (5120 - hmin, 0, true)
  else (h.toNat, y - h * 2 ^ 31, false)

/-- The loop of one channel over the four periods of the next tick, from its core, the loop voltages of the last tick, and
whether the errors enter as zero (R278): the new core, the high times, the clips. -/
def Dev.loopCh (d : Dev) (c : Nat) (k : ModCore) (volts : List Int) (zeroE : Bool) : ModCore × List Nat × Nat :=
  let g := c / 8
  let vs := coef29 (d.lv (R.modLoopv g))
  let cf := fun o => (List.range 5).map (fun w => coef29 (d.lv (R.modLoopc g (o + w))))
  let c0 := cf 0
  let c1 := cf 5
  let gn := rampGain (rampN k.ramp d.rampT (d.tick + 1)) d.rampT
  let g8 := k.gs.getD 1 0
  let k1 := { k with gs := gn :: k.gs.take 2 }
  (List.range 4).foldl (fun (acc : ModCore × List Nat × Nat) j =>
    let k := acc.1
    let r := (k.refs.getD 1 []).getD j 0
    let r8 := (k.refs.getD 3 []).getD j 0
    let e := if zeroE then 0
      else sat31 (rampMul g8 r8 - sat31 (roundDiv (vs * volts.getD j 0) (2 ^ 29)))
    let a := biquad c0 (k.sec.take 4) e
    let b := biquad c1 (k.sec.drop 4) a.2
    let m := sat31 (rampMul gn r + b.2)
    let q := quantise d.hmin m k.rem
    ({ k with sec := a.1 ++ b.1, rem := q.2.1 }, acc.2.1 ++ [q.1], acc.2.2 + b2n q.2.2)) (k1, [], 0)

/-- References of the four periods three ticks after the newer word (R271). -/
def interp (s1 s0 : Int) : List Int :=
  (List.range 4).map (fun j => sat31 (roundDiv (8 * s1 + (2 * (j : Int) + 1) * (s0 - s1)) 8))

/-- A SHADOW takes the forwarded loop, interpolator, remainder and ramp state of tick n - 1, brought through the boundary
into n with its own drain word (R287). -/
def ModCh.adopt (x : ModCh) (k : ModCore) (tick : Nat) : ModCh :=
  let own := x.core
  let startedNow := match own.ramp with
    | some r => decide (r.t0 = tick)
    | none => k.ramp.isSome && x.st != 1
  { x with core := { own with
      s1 := k.s0
      refs := interp k.s1 k.s0 :: k.refs.take 3
      gs := k.gs
      sec := k.sec
      rem := k.rem
      ramp := if startedNow then own.ramp else k.ramp } }

/-- A unit that has just become SHADOW takes over its lease holder's groups, latches, mutes and channels as they are forwarded, in place of the
state it has not computed itself (R286, R287, R320). -/
def Dev.modTakeOver (d : Dev) (b : ModBlk) : Dev :=
  let par := b.tick % 2
  let take := fun (p : ModCh × Nat) =>
    let x := p.1
    let k := b.cores.getD p.2 {}
    let h := b.sts.getD p.2 (0, 0, none)
    { x.adopt k d.tick with
      st := h.1
      run := h.2.1
      flags := updAt x.flags par (fun _ => b.flags.getD p.2 [])
      core := { (x.adopt k d.tick).core with ramp := h.2.2, retries := k.retries, retryAt := k.retryAt } }
  ({ d with mod := { d.mod with
    join := 1
    blk := none
    recon := none
    grp := (List.range 6).map (fun g => b.grps.getD g {})
    ch := d.mod.ch.zipIdx.map take } } : Dev).grpStat.chStats

/-- The loop computation of a tick (R268, R278, R287): every channel's high times of the next tick's periods. -/
def Dev.loopCompute (d0 : Dev) : Dev :=
  let d := d0.atC 4096
  if !d.modLive then d
  else
    let par := (d.tick + 1) % 2
    let blk := if d.role == .shadow && d.paired then d.mod.blk else none
    let dA := match blk with
      | some b => if d.mod.join = 2 then d.modTakeOver b else
        -- the SHADOW compares first, then takes the forwarded state (R287)
        let diff := (List.range 48).find? (fun c => decide ((d.modC c).kept ≠ b.cores.getD c {}))
        let fdiff := (List.range 48).find? (fun c => (d.modC c).flags.getD par [] != b.flags.getD c [])
        let vdiff := (List.range 6).find? (fun g => (d.snsL g).verd.getD par [] != b.verd.getD g [])
        let e1 := match diff with
          | some c => (d.bump (R.modCnt 4) 1).raise Blk.mod Src.modModDiverge c d.tickLo 1
          | none => d
        let e2 := match fdiff with
          | some c => (e1.bump (R.modCnt 4) 1).raise Blk.mod Src.modModDiverge c d.tickLo 2
          | none => match vdiff with
            | some g => (e1.bump (R.modCnt 4) 1).raise Blk.mod Src.modModDiverge (8 * g) d.tickLo 2
            | none => e1
        let e3 := forN 48 (fun c d => d.onCh c (fun x => x.adopt (b.cores.getD c {}) d.tick)) e2
        let rdiff := (List.range 48).any (fun c =>
          (d.modC c).kept.retries != (b.cores.getD c {}).retries || (d.modC c).kept.retryAt != (b.cores.getD c {}).retryAt)
        { e3 with mod := { e3.mod with
            blk := none
            recon := if fdiff.isSome || vdiff.isSome || rdiff then some b else none } }
      | none => d
    let r := (List.range 48).foldl (fun (acc : Dev × List Nat × Nat) c =>
      let d := acc.1
      let x := d.modC c
      if x.st = 1 then
        let volts := match blk with
          | some b => b.volts.getD c []
          | none => ((d.snsL (c / 8)).volts.getD par []).getD (c % 8) []
        let fl := x.flags.getD par []
        let o := d.loopCh c x.core volts (fl.any (fun b => b))
        (d.onCh c (fun x => { x with core := o.1, kept := o.1, next := o.2.1 }),
          if 0 < o.2.2 then acc.2.1 ++ [c] else acc.2.1, acc.2.2 + o.2.2)
      else (d.onCh c (fun x => { x with
          next := [2560, 2560, 2560, 2560]
          core := { x.core with gs := 0 :: x.core.gs.take 2 }
          kept := { x.core with gs := 0 :: x.core.gs.take 2 } }), acc.2.1, acc.2.2)) (dA, [], 0)
    let dB := r.1
    if r.2.2 = 0 then dB
    else
      let mask := r.2.1.foldl (fun m c => bitSet m c true) 0
      (dB.bump (R.modCnt 2) r.2.2).raise Blk.mod Src.modClip mask (mask / 2 ^ 32) dB.tickLo

/-- Cycle 9,984: the duties computed for the next tick's periods are latched for the carrier timer (R268). -/
def Dev.dutyLatch (d : Dev) : Dev := { d with mod := { d.mod with ch := d.mod.ch.map (fun x => { x with latchd := x.next }) } }

/-! ## The carrier (R269, R270) -/

/-- Carrier period `j` of channel `ch` starts, at the cycle in which its first timer step falls and at no other (R269, R270, R280, R281): a period
without a limit action has reset the run; a latched channel is static low, a muted one at half. -/
def Dev.carrierPeriod (ch j c : Nat) (d0 : Dev) : Dev :=
  let d := d0.atC c
  let x := d.modC ch
  if 48 ≤ ch ∨ 4 ≤ j ∨ c ≠ d.periodStart ch j / 2 then d
  else if !d.modLive || d.mod.shut || d.mod.join != 0 || !(d.modG (ch / 8)).run_ || (d.modG (ch / 8)).drv then
    d.onCh ch (fun x => { x with pulse := none, force := none, limited := false })
  else
    let h := if x.st = 6 then 2560 else x.duty.getD j 2560
    let rise := (5120 - h) / 2
    let stat := x.st = 4 ∨ x.st = 5 ∨ x.st = 0
    let run := if x.limited then x.run else 0
    (d.onCh ch (fun x => { x with
      per := j
      perPar := d.tick % 2
      beg := d.periodStart ch j
      run := run
      runAt := if j = 0 then updAt x.runAt (d.tick % 2) (fun _ => run) else x.runAt
      limited := false
      force := none
      flags := updAt x.flags (d.tick % 2) (fun fl => updAt fl j (fun _ => false))
      pulse := if stat then none else some (rise, rise + h) })).chStat ch

/-! ## Latch and retry (R280) -/

/-- A channel latches at the start of its next carrier period once its run of limited periods has reached LATCHN. -/
def Dev.shortLatch (ch c : Nat) (d0 : Dev) : Dev :=
  let d := d0.atC c
  let x := d.modC ch
  match (List.range 4).find? (fun j => c == d.periodStart ch j / 2) with
  | none => d
  | some per =>
  if x.st = 1 ∧ d.latchN ≤ x.run then
    let again := decide (x.core.retries < d.retryMax)
    let d1 := d.onCh ch (fun x => { x with
      st := if again then 5 else 4
      pulse := none
      force := none
      limited := false
      next := [2560, 2560, 2560, 2560]
      core := { x.core with
        sec := List.replicate 8 0
        rem := 0
        ramp := none
        retryAt := d.tick + d.retryT } })
    let d2 := (d1.bump (R.modCnt 1) 1).raiseF Blk.mod Src.modShortLatch (d.ocForce ch) ch d.tickLo per
    (if again then d2 else d2.raiseF Blk.mod Src.modRetryExhausted (d.ocForce ch) ch x.core.retries d.tickLo).chStat ch
  else d

/-- The ramp of a channel that begins to run at the present boundary: its group's while that has not begun, else its own from 0, whose first step
falls in the next tick because the duties of this one are latched; in a group that is stopping g stays 0 (R268, R280 to R282). -/
def Dev.chRamp (d : Dev) (g : Nat) : Option Ramp :=
  let x := d.modG g
  match x.ramp with
  | none => none
  | some r => if d.tick < r.t0 then some r
    else some { t0 := d.tick, n0 := if x.stop then 0 else -1, dir := if x.stop then -1 else 1 }

/-- A channel restarts at the present boundary, with zero loop state and g rising from 0; muted while its lane is DOWN (R280, R281). -/
def Dev.chRestart (d : Dev) (ch : Nat) (retries : Nat) : Dev :=
  Dev.muteDown (g := ch / 8) <| d.onCh ch (fun x => { x with
    st := 1
    run := 0
    limited := false
    duty := [2560, 2560, 2560, 2560]
    core := { x.core with
      sec := List.replicate 8 0
      rem := 0
      retries := retries
      ramp := d.chRamp (ch / 8) } })

/-- The retry of a waiting channel whose group runs (R280). -/
def Dev.retry (ch : Nat) (d0 : Dev) : Dev :=
  let d := d0.atC 0
  let x := d.modC ch
  let g := d.modG (ch / 8)
  if x.st = 5 ∧ x.core.retryAt ≤ d.tick ∧ (g.run_ && g.fell.isNone && !g.drv && d.modLive) = true then
    ((d.chRestart ch (x.core.retries + 1)).raiseF Blk.mod Src.modRetry (d.ocForce ch) ch (x.core.retries + 1) d.tickLo).chStat ch
  else d

/-- MOD.CLEAR takes effect for the channels of a mask: a latched one restarts, its retry count zeroed; in a stopped group
it starts with its group (R280). -/
def Dev.modClear (d : Dev) (mask : Nat) : Dev :=
  (bitsOn 48 mask).foldl (fun d ch =>
    let x := d.modC ch
    if x.st = 4 ∨ x.st = 5 then
      let g := d.modG (ch / 8)
      if g.run_ && g.fell.isNone && !g.drv then (d.chRestart ch 0).chStat ch
      else (d.onCh ch (fun x => { x with st := 0, core := { x.core with retries := 0 } })).chStat ch
    else d) d

/-! ## Groups (R282 to R285) -/

/-- A group starts at the present boundary: its channels at half with g = 0 (R282 step 1); a waiting channel whose time has
passed starts with it (R280). -/
def Dev.grpStart (d : Dev) (g : Nat) : Dev :=
  let d1 := d.onGrp g (fun x => { x with run_ := true, start := d.tick, amp := false, stop := false, fell := none, drv := false, ramp := none })
  Dev.muteDown (g := g) <| (chansOf g).foldl (fun d c =>
    let x := d.modC c
    let go := fun (d : Dev) (n : Nat) => d.onCh c (fun x => { x with
      st := 1
      run := 0
      limited := false
      duty := [2560, 2560, 2560, 2560]
      core := { x.core with
        sec := List.replicate 8 0
        rem := 0
        ramp := none
        retries := n } })
    if x.st = 4 then d
    else if x.st = 5 then
      if x.core.retryAt ≤ d.tick then
        (go d (x.core.retries + 1)).raiseF Blk.mod Src.modRetry (d.ocForce c) c (x.core.retries + 1) d.tickLo
      else d
    else go d x.core.retries) d1

/-- A group's ramps turn at the present boundary, from their values: the duties of this tick are latched, so the first step the other way falls in
the next (R268, R282). -/
def Dev.grpTurn (d : Dev) (g : Nat) (dir : Int) : Dev :=
  let turn := fun (r : Option Ramp) =>
    r.map (fun (r : Ramp) => if d.tick < r.t0 then { r with dir := dir }
      else ({ t0 := d.tick, n0 := r.n d.rampT d.tick - dir, dir := dir } : Ramp))
  let d1 := d.onGrp g (fun x => { x with stop := decide (dir < 0), ramp := turn x.ramp })
  (chansOf g).foldl (fun d c =>
    if (d.modC c).st = 1 then d.onCh c (fun x => { x with core := { x.core with ramp := turn x.core.ramp } }) else d) d1

/-- A group and its channels at rest: static low (R282 step 3, R286). -/
def Dev.grpRest (d : Dev) (g : Nat) : Dev :=
  let d1 := d.onGrp g (fun x => { drv := x.drv, stop := x.drv && x.stop })
  (chansOf g).foldl (fun d c => d.onCh c (fun x => { x with
    st := if x.st = 4 ∨ x.st = 5 ∨ x.st = 7 then x.st else 0
    pulse := none
    force := none
    limited := false })) d1

/-- One group at a boundary (R282): start, stop, restart while stopping, the fall of AMP_EN. -/
def Dev.grpBoundary (d : Dev) (g : Nat) : Dev :=
  let x := d.modG g
  let en := d.lf (R.modGrpctl g) 31 1 == 1
  if d.mod.shut then d
  else if !x.run_ then
    (if x.drv && !en then d.onGrp g (fun x => { x with stop := true })
     else if en && (!x.drv || x.stop) then d.grpStart g else d)
  else if x.drv then
    (if en then (if x.stop then d.grpStart g else d)
     else d.onGrp g (fun x => { x with stop := true, fell := some (x.fell.getD d.tick) }))
  else if x.fell.isSome then (if en then d.grpStart g else d)
  else
    let d1 := if !en && !x.stop then d.grpTurn g (-1) else if en && x.stop then d.grpTurn g 1 else d
    let zero := rampN x.ramp d.rampT (d.tick - 1) == 0 &&
      (chansOf g).all (fun c => (d.modC c).st != 1 || rampN (d.modC c).core.ramp d.rampT (d.tick - 1) == 0)
    if !en && x.stop && zero then d1.onGrp g (fun x => { x with amp := false, fell := some d.tick }) else d1

/-- A muted channel whose lane is UP again ramps in (R281). -/
def Dev.unmute (d : Dev) (c : Nat) : Dev :=
  if (d.modC c).st = 6 ∧ (d.snsL (c / 8)).run.state = 2 then
    d.onCh c (fun x => { x with
      st := 1
      run := 0
      duty := [2560, 2560, 2560, 2560]
      core := { x.core with
        sec := List.replicate 8 0
        ramp := d.chRamp (c / 8) } })
  else d

/-- The SHADOW reconciles its counts, latches, mutes and retries with the forwarded record of tick n - 1 at the boundary
into n + 1 (R288). -/
def Dev.reconcile (d : Dev) : Dev :=
  match d.mod.recon with
  | none => d
  | some b =>
    let p0 := b.tick % 2
    let p1 := (b.tick + 1) % 2
    let d1 := forN 48 (fun c d =>
      let x := d.modC c
      -- a staggered period 3 is still in progress: unlimited so far, it leaves the count as it is
      let fl := (b.flags.getD c []).map (fun l => (l, false)) ++
        (x.flags.getD p1 []).zipIdx.map (fun l => (l.1, l.2 == 3 && decide (20480 < d.periodStart c 4)))
      let r : Nat × Bool := fl.foldl (fun (a : Nat × Bool) l =>
        let n := if l.1 then a.1 + 1 else if l.2 then a.1 else 0
        (n, a.2 || decide (d.latchN ≤ n))) (x.runAt.getD p0 0, false)
      let k := b.cores.getD c {}
      let h := b.sts.getD c (0, 0, none)
      -- the verdicts received; superframes 6 and 7 of the tick that ends may still be on their way
      let lane := ((b.verd.getD (c / 8) [] ++ (d.snsL (c / 8)).verd.getD p1 []).filterMap id).foldl LaneRun.next
        ((d.snsL (c / 8)).runAt.getD p0 {})
      let st :=
        if x.st = 0 ∨ x.st = 7 then x.st
        else if r.2 || h.1 == 4 || h.1 == 5 then
          (if k.retries < d.retryMax then 5 else 4)
        else if lane.state = 4 then 6
        else 1
      (d.onCh c (fun x => { x with
        st := st
        run := min 255 r.1
        core := { x.core with
          retries := k.retries
          retryAt := k.retryAt
          ramp := if st = 1 ∧ x.st ≠ 1 then h.2.2 else x.core.ramp } })).chStat c) d
    { d1 with mod := { d1.mod with recon := none } }

/-- The boundary into a tick (R268, R271, R282, R284): drain words of the tick that ends move into the interpolator, missing
words are counted, groups and ramps move, the latched duties go to the timer. -/
def Dev.modBoundary (d : Dev) : Dev :=
  let live := d.modLive
  let miss := (List.range 48).filter (fun c => d.mod.fed && live && !(d.modC c).got)
  let move := fun (x : ModCh) => { x with
    got := false
    duty := x.latchd
    flags := updAt x.flags (d.tick % 2) (fun _ => [false, false, false, false])
    core := { x.core with
      s1 := x.core.s0
      refs := interp x.core.s1 x.core.s0 :: x.core.refs.take 3 } }
  let d1 := { d with mod := { d.mod with ch := d.mod.ch.map move } }
  let d2 := if miss = [] then d1
    else
      let mask := miss.foldl (fun m c => bitSet m c true) 0
      (d1.bump (R.modCnt 3) miss.length).raise Blk.mod Src.modNodata mask (mask / 2 ^ 32) d.tickLo
  let d3 := d2.reconcile
  let d4 := if live && d.mod.join != 2 then forN 48 (fun c d => d.unmute c) (forN 6 (fun g d => d.grpBoundary g) d3)
    else forN 6 (fun g d => if (d.modG g).run_ then d.grpRest g else d) d3
  let d5 : Dev := { d4 with mod := { d4.mod with join := if live && d.mod.join == 2 then 2 else 0 } }
  d5.grpStat.chStats

/-- A drain descriptor delivers a word to MOD channel `c` (R112, R131). -/
def Dev.modDeliver (d : Dev) (c w : Nat) : Dev :=
  d.onCh c (fun x => { x with got := true, core := { x.core with s0 := sgn 32 w } })

/-- The drain delivers words in this tick, to MOD or to others: from now on a missing word counts (R284). -/
def Dev.modFed (d : Dev) : Dev := { d with mod := { d.mod with fed := true } }

/-- AMP_EN of a group rises at the first boundary 16 ticks after its start at which its lane is UP; 16 ticks later g begins
to ramp (R282 steps 2 and 3). -/
def Dev.ampEnRise (g : Nat) (d0 : Dev) : Dev :=
  let d := d0.atC 0
  let x := d.modG g
  if x.run_ && !x.amp && !x.stop && x.fell.isNone && !x.drv && !d.mod.shut && d.modLive
      && decide (x.start + 16 ≤ d.tick) && (d.snsL g).run.state == 2 then
    let r : Ramp := { t0 := d.tick + 16, n0 := 0, dir := 1 }
    let d1 := d.onGrp g (fun x => { x with amp := true, ramp := some r })
    let d2 := (chansOf g).foldl (fun d c =>
      if (d.modC c).st = 1 ∧ (d.modC c).core.ramp = none then
        d.onCh c (fun x => { x with core := { x.core with ramp := some r } })
      else d) d1
    d2.grpStat.chStats
  else d

/-- 16 ticks after AMP_EN fell every PWM_OUT of the group is static low and RUN clears (R282). -/
def Dev.groupStop (g : Nat) (d0 : Dev) : Dev :=
  let d := d0.atC 0
  match (d.modG g).fell with
  | some t => if t + 16 ≤ d.tick ∧ d.lf (R.modGrpctl g) 31 1 = 0 then (d.grpRest g).grpStat.chStats else d
  | none => d

/-- AMP_FLT_N low for 64 cycles while AMP_EN is high (R283). -/
def Dev.drvFault (g c : Nat) (d0 : Dev) : Dev :=
  let d := d0.atC c
  if (d.modG g).amp then
    let d1 := d.onGrp g (fun x => { x with amp := false, drv := true, stop := false, fell := none })
    let d2 := (chansOf g).foldl (fun d c => d.onCh c (fun x => { x with
      st := if x.st = 4 ∨ x.st = 5 then x.st else 7
      pulse := none
      force := none
      limited := false })) d1
    (d2.raise Blk.mod Src.modDrvFault g d.tickLo 0).grpStat.chStats
  else d

/-- The shutdown of R285: every PWM_OUT and AMP_EN low. -/
def Dev.modShut (d : Dev) : Dev :=
  let d1 := forN 6 (fun g d => if (d.modG g).run_ then d.grpRest g else d) d
  let d2 := { d1 with mod := { d1.mod with shut := true } }
  (d2.raise Blk.mod Src.modThermShut d.tickLo d.tickHi 0).grpStat.chStats

/-! ## The MOD block (R287) -/

/-- The MOD block of the last tick. -/
def Dev.modBlk (d : Dev) : ModBlk :=
  let par := (d.tick + 1) % 2
  { tick := d.tick - 1
    volts := (List.range 48).map (fun c => ((d.snsL (c / 8)).volts.getD par []).getD (c % 8) [])
    verd := (List.range 6).map (fun g => (d.snsL g).verd.getD par [])
    flags := (List.range 48).map (fun c => (d.modC c).flags.getD par [])
    cores := (List.range 48).map (fun c => (d.modC c).kept)
    grps := d.mod.grp
    sts := (List.range 48).map (fun c => ((d.modC c).st, (d.modC c).run, (d.modC c).core.ramp)) }

/-- At cycle 2,560 the lease holder sends the block. -/
def Dev.modBlockSend (d0 : Dev) : Dev :=
  let d := d0.atC 2560
  if d.paired && d.role == .active then d.mirSend (.modBlock d.modBlk) else d

/-- A SHADOW takes the block that lands by cycle 3,839. -/
def Dev.modBlockRecv (b : ModBlk) (c : Nat) (d0 : Dev) : Dev :=
  let d := d0.atC c
  if d.paired && d.role == .shadow && decide (c < 3840) && b.tick + 1 == d.tick then
    { d with mod := { d.mod with blk := some b } }
  else d

/-- No block by cycle 3,840: the SHADOW stays on its own data for the tick (R287). -/
def Dev.fwdMissing (d0 : Dev) : Dev :=
  let d := d0.atC 3840
  if d.paired && d.role == .shadow && d.mod.blk.isNone then d.raise Blk.mod Src.modFwdMissing d.tickLo d.tickHi 0 else d

end Sys2Proof.Machine
end

