-- ==== Sys2Proof/Machine/Tdm.lean ====
section
/-!
DEFINITION. The serial audio ports: frames, capture and transmission (R235 to R240), synchronous and foreign clocks with
the slip buffers and the predictive fade (R241 to R244), gangs (R245, R246), masks (R36, R247), and the forwarded
decisions of a pair (R248).
-/
namespace Sys2Proof.Machine

/-! ## Configuration in use -/

/-- CLKMODE of a port; 3 acts as 2. -/
def Dev.tdmMode (d : Dev) (p : Nat) : Nat := min 2 (d.lf (R.tdmCtrl p) 29 2)
/-- 96 kHz. -/
def Dev.tdmHi (d : Dev) (p : Nat) : Bool := d.lf (R.tdmFmt p) 29 1 == 1
/-- F = 2^(3 + FADE); 6 and 7 act as 5 (R243). -/
def Dev.tdmF (d : Dev) (p : Nat) : Nat := 2 ^ (3 + min 5 (d.lf (R.tdmCtrl p) 20 3))
/-- Slots of a frame (R235, R236). -/
def Dev.tdmSlots (d : Dev) (p : Nat) : Nat :=
  if 2 ≤ d.lf (R.tdmFmt p) 30 2 then 2 else d.lf (R.tdmFmt p) 16 5 + 1
/-- BCLK periods of a slot (R235). -/
def Dev.tdmWidth (d : Dev) (p : Nat) : Nat := if d.lf (R.tdmFmt p) 25 1 = 1 then 16 else 32
/-- BCLK periods of a frame. -/
def Dev.tdmBits (d : Dev) (p : Nat) : Nat := d.tdmSlots p * d.tdmWidth p
/-- Cycles of a frame period. -/
def Dev.tdmPeriod (d : Dev) (p : Nat) : Nat := if d.tdmHi p then 10240 else 20480
/-- The port is a gang member (R245). -/
def Dev.tdmGanged (d : Dev) (p : Nat) : Bool := d.lf (R.tdmCtrl p) 28 1 == 1
/-- The leader of a port; a port outside a gang leads itself. -/
def Dev.tdmLeader (d : Dev) (p : Nat) : Nat := if d.tdmGanged p then d.lf (R.tdmCtrl p) 25 3 else p
/-- The port's own state. -/
def Dev.tdmP (d : Dev) (p : Nat) : TdmPort := d.tdm.getD p {}
/-- The started ports of a gang, the leader among them. -/
def Dev.tdmGang (d : Dev) (p : Nat) : List Nat :=
  (List.range 8).filter (fun m => (d.tdmP m).started && (m == p || (d.tdmGanged m && d.tdmLeader m == p)))
/-- A change of a port. -/
def Dev.onTdm (d : Dev) (p : Nat) (f : TdmPort → TdmPort) : Dev := { d with tdm := updAt d.tdm p f }
/-- The high-pass selection of a slot (HPFp_j). -/
def Dev.tdmHpfSel (d : Dev) (p sl : Nat) : Nat := d.lf (R.tdmHpf p (sl / 8)) (4 * (sl % 8)) 3
/-- The tick begins a frame of the port's rate (R237). -/
def Dev.tdmDue (d : Dev) (p : Nat) : Bool := d.tdmHi p || d.tick % 2 == 0
/-- Whether a port agrees with its leader (R245). -/
def Dev.tdmAgrees (d : Dev) (p : Nat) : Bool :=
  let l := d.tdmLeader p
  !d.tdmGanged p || (d.tdmGanged l && d.tdmLeader l == l && d.tdmMode l == d.tdmMode p && d.tdmHi l == d.tdmHi p)

/-! ## Gain and status -/

/-- round(x * q / F) with the rounding of R84 (R219, R243). -/
def gainScale (x q f : Nat) : Nat := if f ≤ q then x else wrapN 32 (roundDiv (sgn 32 x * q) f)

/-- A frame at gain position q. -/
def frameScale (fr : List Nat) (q f : Nat) : List Nat := fr.map (fun x => gainScale x q f)

/-- STATp: state, occupancies and JOINED, from the port's own state (R243). -/
def Dev.tdmStat (d : Dev) (p : Nat) : Dev :=
  let t := d.tdmP p
  let f := d.tdmF p
  let fad := t.rx.fading || t.tx.fading
  let q := min t.rx.q t.tx.q
  let st := if !t.started then 0 else if fad then (if q = 0 then 3 else 2) else if q < f then 4 else 1
  let d1 := d.setFld (R.tdmStat p) 0 3 st
  let d2 := (d1.setFld (R.tdmStat p) 4 4 t.rx.buf.length).setFld (R.tdmStat p) 8 4 t.tx.buf.length
  d2.setFld (R.tdmStat p) 12 1 (b2n (t.started && d.tdmGanged p && !t.out))

/-- A counter of a port. -/
def Dev.tdmCount (d : Dev) (p k n : Nat) : Dev := if n = 0 then d else d.bump (R.tdmCnt p k) n

/-! ## FRAME-class writes (R36, R247) -/

/-- The present instant in cycles. -/
def Dev.instant (d : Dev) : Nat := d.tick * 10240 + d.cycle

/-- Whether a held write takes effect at a frame start at instant `now`: it has arrived, and unless an agenda entry made
it, not within the last 2 BCLK periods before the frame start. -/
def Dev.frameReady (d : Dev) (now : Nat) (w : FrameWr) : Bool :=
  let arr := w.due * 10240 + w.cyc
  decide (arr ≤ now) && (w.cmd || decide (2 * d.tdmPeriod w.port < (now - arr) * d.tdmBits w.port))

/-- The held writes of register `off` of port `p` that are ready at a frame start at instant `now` take effect, in
order. -/
def Dev.frameApply (d : Dev) (p off now : Nat) : Dev :=
  let mine := fun (w : FrameWr) => w.port == p && w.off == off && d.frameReady now w
  let v := (d.frameWr.filter mine).foldl (fun v w => mergeBits v w.mask w.val) (d.lv off)
  let d1 := { d with frameWr := d.frameWr.filter (fun w => !mine w) }
  d1.setBoth off (d1.reg off) v

/-! ## Starting and stopping (R245) -/

/-- At a boundary every port whose EN has become 1 starts, or is refused if it disagrees with its leader; a port whose EN
is 0 is stopped.  The filters of its slots keep their state from one start to the next: the spec names no other end of it than the selection's
(DESIGN CHOICE, log entry 136). -/
def Dev.tdmStart (d : Dev) : Dev :=
  forN 8 (fun p d =>
    let t := d.tdmP p
    if d.lf (R.tdmCtrl p) 31 1 = 0 then
      if t.started || t.refused then (d.onTdm p (fun t => { t with started := false, refused := false })).tdmStat p else d
    else if t.started || t.refused then d
    else if d.tdmAgrees p then
      let l := d.tdmLeader p
      let n := d.reg (R.tdmFcnt l)
      let b : List SlipFrame := if d.tdmMode p = 2 then
          (List.range 4).map (fun i => { n := (n + 2 ^ 32 - 3 + i) % 2 ^ 32, words := List.replicate 32 0 })
        else []
      ((d.setReg (R.tdmFcnt p) n).onTdm p (fun t => { t with
        started := true
        fresh := true
        rx := { buf := b, q := d.tdmF p }
        tx := { buf := b, q := d.tdmF p }
        good := 0
        out := false
        sentB := none
        hold := false
        tail := some false
        undec := [] })).tdmStat p
    else (d.onTdm p (fun t => { t with refused := true })).raise Blk.tdm Src.tdmFrameErr p 0 (d.reg (R.tdmFcnt p))) d

/-! ## Capture (R133, R238, R239) -/

/-- The slots of a frame through their filters and the receive mask; the port then holds the filtered words. -/
def Dev.tdmFilter (d : Dev) (p mask : Nat) (fr : List Nat) : Dev :=
  let n := d.tdmSlots p
  let step := fun (sl : Nat) (t : TdmPort) =>
    if sl < n && bit mask sl then
      let r := (t.hpf.getD sl {}).step (d.tdmHpfSel p sl) (d.tdmHi p) (fr.getD sl 0)
      { t with hpf := updAt t.hpf sl (fun _ => r.1), last := updAt t.last sl (fun _ => r.2.1) }
    else { t with last := updAt t.last sl (fun _ => 0) }
  d.onTdm p (forN 32 step)

/-- The high-pass selections of HPFp_j change at a tick boundary (R134). -/
def Dev.tdmHpfLive (d : Dev) (p j : Nat) : Dev :=
  d.onTdm p (forN 8 (fun i t => { t with hpf := updAt t.hpf (8 * j + i) (fun h => h.select (hpfCode (d.tdmHpfSel p (8 * j + i)))) }))

/-- The port's words written into the local section. -/
def Sys.tdmWrite (s : Sys) (p : Nat) (decs : List (Nat × Nat × Nat)) : Sys :=
  s.locWrite ((s.dev.tdmP p).last.zipIdx.map (fun (w : Nat × Nat) => (p * 32 + w.2, w.1))) decs

/-! ## Fades (R243, R244) -/

/-- A fade starts in direction `dir` with its cause. -/
def Dev.tdmFadeStart (d : Dev) (p dir cause : Nat) : Dev :=
  let d1 := d.onTdm p (fun t =>
    let go := fun (x : SlipDir) => { x with fading := true, underrun := cause != 1, overrun := cause == 1 }
    if dir = 0 then { t with rx := go t.rx } else { t with tx := go t.tx })
  ((d1.tdmCount p 6 1).raise Blk.tdm Src.tdmFade p dir cause).tdmStat p

/-- A fade has ended: the port ramps back (R243). -/
def Dev.tdmBack (d : Dev) (p dir : Nat) : Dev := d.raise Blk.tdm Src.tdmRampback p dir (d.reg (R.tdmFcnt p))

/-- A missing frame of a slave (R244): counted, raised, and the start of a fade; of a gang's leader, for every member
(R246). -/
def Dev.tdmMissing (d : Dev) (p bclks : Nat) : Dev :=
  let d1 := (d.tdmCount p 1 1).raise Blk.tdm Src.tdmFrameErr p bclks (d.reg (R.tdmFcnt p))
  let hit := if d.tdmLeader p = p then d.tdmGang p else [p]
  each hit (fun m d =>
    let t := d.tdmP m
    -- a port without a buffer, and a member that missed its own frame, stay out of service until their return
    let d2 := d.onTdm m (fun t => { t with
      good := if m = p ∨ d.tdmMode m = 1 then 0 else t.good
      fresh := t.fresh || m == p
      out := t.out || d.tdmMode m == 1 || (m == p && d.tdmLeader m != m) })
    if t.rx.fading then (d2.onTdm m (fun t => { t with rx := { t.rx with underrun := true } })).tdmStat m
    else d2.tdmFadeStart m 0 2) d1

/-- One access of a port that fades without a buffer (CLKMODE 1): the held words at a falling gain (R243, R244). -/
def Dev.tdmFadeStep (d : Dev) (p : Nat) : Dev :=
  let t := d.tdmP p
  let q := t.rx.q - 1
  let d1 := (d.onTdm p (fun t => { t with rx := { t.rx with q := q } })).tdmCount p 2 1
  (d1.tdmFilter p t.rxmF (frameScale t.rx.held q (d.tdmF p))).tdmStat p

/-! ## Waveforms (R235, R248) -/

/-- One-bit data delay of a port: I²S acts as 1, left-justified as 0. -/
def Dev.tdmDelay (d : Dev) (p : Nat) : Bool :=
  match d.lf (R.tdmFmt p) 30 2 with
  | 2 => true
  | 3 => false
  | _ => d.lf (R.tdmFmt p) 26 1 == 1

/-- The level of FS in BCLK period `i` of a frame: active for a period, or for slot 0; I²S is low, the others high while active; FSPOL inverts. -/
def Dev.tdmFs (d : Dev) (p i : Nat) : Bool :=
  let fmt := d.lf (R.tdmFmt p) 30 2
  let active := decide (i < if fmt = 0 then 1 else d.tdmWidth p)
  (active != (fmt == 2)) != (d.lf (R.tdmFmt p) 28 1 == 1)

/-- The bits of a frame's slots, MSB first. -/
def Dev.tdmBitsOf (d : Dev) (p : Nat) (ws : List (Option Nat)) : List (Option Bool) :=
  let w := d.tdmWidth p
  ws.flatMap (fun x => (List.range w).map (fun i => x.map (fun v => bit v (w - 1 - i))))

/-- The pins of a port through a frame: with the delay, each bit one BCLK period later, behind the last one of the frame before. -/
def Dev.tdmPins (d : Dev) (p : Nat) (ws : List (Option Nat)) : Dev :=
  let bits := d.tdmBitsOf p ws
  d.onTdm p (fun t => { t with
    wire := {
      inv := d.lf (R.tdmFmt p) 27 1 == 1
      fs := if d.tdmMode p = 0 then (List.range (d.tdmBits p)).map (d.tdmFs p) else []
      bits := if d.tdmDelay p then t.tail :: bits.dropLast else bits }
    tail := bits.getLastD none })

/-! ## The commands -/

/-- The last cycle by which capture has written a master port's frame (R239). -/
def capBy : Nat := 512

/-- The boundary that a frame of a slave starts by, nearest to cycle `c`, is one of the port's rate (R241). -/
def Dev.tdmNear (d : Dev) (p c : Nat) : Bool := d.tdmHi p || (if c ≤ 5120 then d.tick else d.tick + 1) % 2 == 0

/-- The instant at which the frame after the one received at the present cycle starts: `off` from its boundary; of a member of a gang, where the
gang's counter has it (R239, R247). -/
def Dev.tdmRxNext (d : Dev) (p : Nat) (off : Int) : Nat :=
  if d.tdmLeader p ≠ p then (d.tdmP (d.tdmLeader p)).rxAt
  else if d.tdmMode p = 2 then d.instant
  else (((if d.cycle ≤ 5120 then d.tick else d.tick + 1) * 10240 : Nat) + off).toNat

/-- A frame that has come whole: counted, in the gang's count if it is the leader's; the RXMASK writes that take effect at its start and at the
next one's.  Answered with the mask in force in the frame (R245, R247). -/
def Dev.tdmFrameIn (d : Dev) (p : Nat) (off : Int) : Dev × Nat :=
  let t := d.tdmP p
  let d1 := if d.tdmLeader p = p then
      let n := d.reg (R.tdmFcnt p) + 1
      (d.tdmGang p).foldl (fun d m => d.setReg (R.tdmFcnt m) n) d
    else d
  let d2 := d1.tdmCount p 0 1
  let next := d2.tdmRxNext p off
  let d3 := if t.fresh then d2.frameApply p (R.tdmRxmask p) (next - d.tdmPeriod p) else d2
  let mask := if t.fresh then d3.lv (R.tdmRxmask p) else t.rxmF
  let d4 := d3.frameApply p (R.tdmRxmask p) next
  (d4.onTdm p (fun t => { t with rxmF := d4.lv (R.tdmRxmask p), fresh := false, rxAt := next }), mask)

/-- A received frame: its words, its BCLK count, its frame start minus the nearest boundary in cycles, and whether it started within a quarter of a
frame period of its leader's frame, whose row comes before its members' (R237 to R241, R245).  A master's frame ends at a boundary of its rate, and
capture has 512 cycles.  The words of a synchronous slave's frame that ends ahead of its boundary are written at the boundary. -/
def Sys.tdmRx (p : Nat) (words : List Nat) (bclks : Nat) (off : Int) (near : Bool) (c : Nat) (s0 : Sys) : Sys :=
  let s := s0.onDev (fun d => d.atC c)
  let d := s.dev
  let t := d.tdmP p
  let mode := d.tdmMode p
  if !t.started || (mode == 0 && !(decide (c ≤ capBy) && d.tdmDue p)) then s
  else
    let start := if mode = 0 then 0 else off
    let bad := mode == 1 && (decide (2048 < start) || decide (start < -2048))
    let dA := d.setReg (R.tdmFsoff p) (wrapN 16 (clampI (-32768) 32767 start))
    let dB := if mode = 1 then dA.setFld (R.tdmStat p) 3 1 (b2n bad) else dA
    if bad || (mode != 0 && bclks != d.tdmBits p) then
      let dM := dB.tdmMissing p bclks
      { s with dev := if bad then dM.raise Blk.tdm Src.tdmAlign p (wrapN 32 start) 0 else dM }
    else if mode = 1 ∧ d.tdmNear p c = false then s
    else
      let fr := (List.range 32).map (fun i =>
        if d.tdmWidth p = 16 then words.getD i 0 % 65536 * 65536 else words.getD i 0 % 2 ^ 32)
      let r := dB.tdmFrameIn p start
      let aligned := near || mode == 0 || d.tdmLeader p == p
      let good := if aligned then t.good + 1 else 0
      if mode = 2 then
        -- into the slip buffer, which keeps the 8 newest frames (R242), under the number of the leader's frame (R245)
        let g : SlipFrame := { n := r.1.reg (R.tdmFcnt (d.tdmLeader p)), mask := r.2, words := fr }
        let push := fun (x : SlipDir) =>
          let b := x.buf ++ [g]
          { x with buf := b.drop (b.length - 8) }
        { s with dev := (r.1.onTdm p (fun t => { t with rx := if aligned then push t.rx else t.rx, good := good })).tdmStat p }
      else if t.out || !aligned then { s with dev := r.1.onTdm p (fun t => { t with good := good }) }
      else
        let f := d.tdmF p
        let q := min (t.rx.q + 1) f
        let late := decide (5120 < c)
        let dG := r.1.onTdm p (fun t => { t with good := good, hold := late, rx := { t.rx with q := q, held := fr } })
        let s1 : Sys := { s with dev := (dG.tdmFilter p r.2 (frameScale fr q f)).tdmStat p }
        if late then s1 else s1.tdmWrite p []

/-- NODATA of a frame: its unmasked slots whose words were not new (R240). -/
def Dev.tdmStale (d : Dev) (p : Nat) : Dev :=
  let t := d.tdmP p
  let mask := d.lv (R.tdmSlotmask p)
  d.tdmCount p 7 ((List.range (d.tdmSlots p)).filter (fun sl => bit mask sl && !t.new.getD sl false)).length

/-- The words of a port's slots are taken for the frame of boundary `b`; a stale unmasked slot repeats its word (R240). -/
def Dev.tdmTake (d : Dev) (p b : Nat) : Dev :=
  let t := d.tdmP p
  if t.taken = b ∧ b ≠ 0 then d
  else
    let d1 := d.onTdm p (fun t => { t with
      taken := b
      frame := t.slots.map Prod.fst
      new := t.slots.map Prod.snd
      slots := t.slots.map (fun w => (w.1, false)) })
    if d.tdmMode p = 2 then d1.tdmStale p else d1

/-- What a port drives for a frame of words: masked slots zero or high-impedance, 16-bit slots the upper half (R240). -/
def Dev.tdmDrive (d : Dev) (p : Nat) (fr : List Nat) : List (Option Nat) :=
  let mask := d.lv (R.tdmSlotmask p)
  (List.range (d.tdmSlots p)).map (fun sl =>
    if bit mask sl then some (if d.tdmWidth p = 16 then fr.getD sl 0 / 65536 else fr.getD sl 0)
    else if d.lf (R.tdmCtrl p) 0 1 = 1 then none else some 0)

/-- The boundary of the frame that starts at cycle `c`. -/
def Dev.tdmBoundaryOf (d : Dev) (c : Nat) : Nat := if c ≤ 5120 then d.tick else d.tick + 1

/-- A frame may start at cycle `c`: of a master at a boundary of its rate, of a synchronous slave within the window around one, once each (R237,
R241). -/
def Dev.tdmMayStart (d : Dev) (p c : Nat) : Bool :=
  match d.tdmMode p with
  | 0 => c == 0 && d.tdmDue p && (d.tdmP p).sentB != some d.tick
  | 1 => (decide (c ≤ 2048) || decide (8192 ≤ c)) && d.tdmNear p c && (d.tdmP p).sentB != some (d.tdmBoundaryOf c)
  | _ => true

/-- A frame is sent: the SLOTMASK writes held for it take effect, of a gang's member at the start in the gang's counter, and the port sends the words
taken for its boundary, or on a foreign clock the next frame of its transmit buffer (R36, R240, R242, R247). -/
def Dev.tdmTx (p c : Nat) (d0 : Dev) : Dev :=
  let d := d0.atC c
  if !(d.tdmP p).started || !d.tdmMayStart p c then d
  else
    let at_ := if d.tdmLeader p = p then d.instant else (d.tdmP (d.tdmLeader p)).txAt
    let d1 := (d.onTdm p (fun t => { t with txAt := at_ })).frameApply p (R.tdmSlotmask p) at_
    let d2 := if d.tdmMode p = 2 then
        d1.onTdm p (fun t =>
          match t.tx.buf with
          | [] => t
          | fr :: rest => { t with tx := { t.tx with buf := rest }, sent := fr.words })
      else
        let b := d.tdmBoundaryOf c
        ((d1.tdmTake p b).onTdm p (fun t => { t with sent := t.frame, sentB := some b })).tdmStale p
    let ws := d2.tdmDrive p (d2.tdmP p).sent
    (({ d2 with out := { d2.out with tdm := d2.out.tdm ++ [(p, ws)] } } : Dev).tdmPins p ws).tdmStat p

/-- FS missing for 1.5 frame periods (R244). -/
def Dev.tdmMissingFrame (p bclks c : Nat) (d0 : Dev) : Dev :=
  let d := d0.atC c
  if (d.tdmP p).started ∧ d.tdmMode p ≠ 0 then d.tdmMissing p bclks else d

/-! ## Slip buffers (R242, R243) -/

/-- What an access finds: whether a fade starts (its cause), and a slip (0 repeat, 1 drop), from the occupancy and the
frames since the last slip. -/
def slipCheck (fading : Bool) (n since : Nat) : Option Nat × Option Nat :=
  if fading then (none, none)
  else if n ≤ 1 then (some 0, none)
  else if 7 ≤ n then (some 1, none)
  else if n ≤ 2 ∧ 64 ≤ since then (none, some 0)
  else if 6 ≤ n ∧ 64 ≤ since then (none, some 1)
  else (none, none)

/-- What a receive access does, decided on the leader's buffer (R243, R245): the frame taken, none where the held words are used again, the frame then
first in the buffer, frames dropped, whether it was a slip, and whether the fade goes on. -/
structure SlipDec where
  num    : Option Nat
  front  : Option Nat
  drop   : Nat
  slip   : Bool
  fading : Bool

/-- One receive access decided. -/
def slipDecide (slip : Option Nat) (x : SlipDir) : SlipDec :=
  let first := fun (b : List SlipFrame) => b.head?.map (fun g => g.n)
  if x.fading then
    let q := x.q - 1
    let num := if x.underrun && q == 0 then none else first x.buf
    let b := if num.isSome then x.buf.drop 1 else x.buf
    let cut := if q = 0 ∧ x.overrun = true then b.length - 4 else 0
    let b1 := b.drop cut
    { num := num, front := first b1, drop := cut, slip := false, fading := !(q == 0 && decide (4 ≤ b1.length)) }
  else
    let b := if slip = some 1 then x.buf.drop 1 else x.buf
    let num := if slip = some 0 then none else first b
    { num := num, front := first (if num.isSome then b.drop 1 else b), drop := b2n (slip == some 1), slip := slip.isSome, fading := false }

/-- The result of one access: the direction after it, the frame it gives with its mask, repeats counted. -/
structure SlipRes where
  dir  : SlipDir
  out  : List Nat
  rep  : Nat

/-- A decision applied to a port's own buffer: the frame of the number taken, or the held words again; the frames up to the one that the decision
leaves first are gone (R243, R245). -/
def SlipDir.read (f : Nat) (dec : SlipDec) (x : SlipDir) : SlipRes :=
  let q := if x.fading then x.q - 1 else min (x.q + 1) f
  let from_ := fun (k : Nat) (b : List SlipFrame) => b.dropWhile (fun g => g.n != k)
  let r : SlipDir × Nat := match dec.num.map (fun k => from_ k x.buf) with
    | some (g :: rest) => ({ x with buf := rest, held := g.words, heldM := g.mask }, 0)
    | _ => (x, 1)
  let b := match dec.front with
    | some k => if r.1.buf.any (fun g => g.n == k) then from_ k r.1.buf else r.1.buf
    | none => r.1.buf
  { dir := { r.1 with
      q := q
      buf := b
      since := if dec.slip then 0 else min 64 (x.since + 1)
      fading := dec.fading }
    out := frameScale r.1.held q f
    rep := r.2 }

/-- The pushes and the gain position of one transmit access (R243, with the tick side writing; log entry 20). -/
def slipWrite (f : Nat) (slip : Option Nat) (x : SlipDir) : Nat × Nat :=
  let n := x.buf.length
  if x.fading then
    let q := x.q - 1
    if q = 0 ∧ x.underrun = true then (max 1 (4 - n), q)
    else if q = 0 ∧ x.overrun = true ∧ 4 < n then (0, q)
    else (1, q)
  else
    let q := min (x.q + 1) f
    if slip = some 0 then (2, q) else if slip = some 1 then (0, q) else (1, q)

/-- A transmit direction after a frame `fr` written with a decision (pushes, gain position). -/
def SlipDir.write (x : SlipDir) (f : Nat) (fr : List Nat) (dec : Nat × Nat) : SlipDir :=
  let prev := frameScale x.held dec.2 f
  let new : List SlipFrame := if dec.1 = 0 then [] else (List.replicate (dec.1 - 1) prev ++ [frameScale fr dec.2 f]).map (fun w => { words := w })
  { x with buf := (x.buf ++ new).take 8, q := dec.2, held := if dec.1 = 0 then x.held else fr }

/-- The events of an access. -/
def Dev.slipEvents (d : Dev) (p dir : Nat) (slip : Option Nat) (rep drop : Nat) (back : Bool) : Dev :=
  let d1 := (d.tdmCount p (if dir = 0 then 2 else 4) rep).tdmCount p (if dir = 0 then 3 else 5) drop
  let d2 := match slip with
    | some k => d1.raise Blk.tdm Src.tdmSlip p dir k
    | none => d1
  (if back then d2.tdmBack p dir else d2).tdmStat p

/-- The tick side reads port `p`'s receive buffer, and with the same decision those of its gang, and capture writes the words (R239, R242, R245). A
member out of service fades on its own until it rejoins (R246). -/
def Sys.slipRx (p c : Nat) (s0 : Sys) : Sys :=
  let s := s0.onDev (fun d => d.atC c)
  let d := s.dev
  let gang := d.tdmGang p
  let lead := (d.tdmP p).rx
  let chk := slipCheck lead.fading lead.buf.length lead.since
  let s1 := s.onDev (fun d => match chk.1 with
    | some cause => each gang (fun m d => if (d.tdmP m).out || (d.tdmP m).rx.fading then d else d.tdmFadeStart m 0 cause) d
    | none => d)
  let dec := slipDecide chk.2 (s1.dev.tdmP p).rx
  each gang (fun m s =>
    let d1 := s.dev
    let own := (d1.tdmP m).out
    let x := (d1.tdmP m).rx
    let mine : SlipDec := if own then { slipDecide none { x with fading := true } with fading := true } else dec
    let r := x.read (d1.tdmF m) mine
    let d2 := d1.onTdm m (fun t => { t with rx := { r.dir with acc := some d.tick } })
    let d3 := d2.tdmFilter m r.dir.heldM r.out
    let d4 := d3.slipEvents m 0 (if own then none else chk.2) r.rep mine.drop (x.fading && !mine.fading)
    ({ s with dev := d4 } : Sys).tdmWrite m []) s1

/-- A frame of a SHADOW or CATCHUP unit is written with a decision of the lease holder (R248). -/
def Dev.slipApply (d : Dev) (m : Nat) (fr : List Nat) (dec : Nat × Nat) : Dev :=
  (d.onTdm m (fun t => { t with tx := { t.tx.write (d.tdmF m) fr dec with fading := decide (dec.2 < d.tdmF m) && t.tx.fading } })).tdmStat m

/-- A frame whose decision never came: the unit decides on its own buffer (log entry 137). -/
def Dev.slipAlone (d : Dev) (m : Nat) (fr : List Nat) : Dev :=
  let x := (d.tdmP m).tx
  d.slipApply m fr (slipWrite (d.tdmF m) (slipCheck x.fading x.buf.length x.since).2 x)

/-- Decisions of the lease holder destined for tick `dest` arrive, made in the tick before: each is applied to the frame that waits for it, or kept for
the access (R248). -/
def Dev.decsIn (d : Dev) (dest : Nat) (decs : List (Nat × Nat × Nat)) : Dev :=
  let d0 : Dev := { d with peerDec := d.peerDec.filter (fun x => decide (d.tick ≤ x.1)) }
  each decs (fun y d =>
    match (d.tdmP y.1).undec.find? (fun u => u.1 + 1 == dest) with
    | some u => (d.onTdm y.1 (fun t => { t with undec := t.undec.filter (fun v => v.1 != u.1) })).slipApply y.1 u.2 y.2
    | none => { d with peerDec := d.peerDec ++ [(dest, y)] }) d0

/-- The write of a member's transmit buffer in a unit that follows the lease holder: with the decision for this tick, or waiting for it. -/
def Dev.slipFollow (d : Dev) (m : Nat) : Dev :=
  let old := (d.tdmP m).undec
  let d1 := each old (fun u d => d.slipAlone m u.2) (d.onTdm m (fun t => { t with undec := [] }))
  let fr := (d1.tdmP m).frame
  match d1.peerDec.find? (fun x => x.1 == d.tick + 1 && x.2.1 == m) with
  | some x => ({ d1 with peerDec := d1.peerDec.erase x } : Dev).slipApply m fr x.2.2
  | none => d1.onTdm m (fun t => { t with undec := [(d.tick, fr)] })

/-- The tick side writes port `p`'s transmit buffer, and with the leader's decision those of its gang; the lease holder forwards the decisions, which a
SHADOW or CATCHUP unit applies in the same frames (R242, R245, R248). -/
def Dev.slipTx (p c : Nat) (d0 : Dev) : Dev :=
  let d := d0.atC c
  let gang := d.tdmGang p
  let mark := fun (d : Dev) => each gang (fun m d => d.onTdm m (fun t => { t with tx := { t.tx with acc := some d.tick } })) d
  if d.role == .shadow || d.role == .catchup then mark (each gang (fun m d => d.slipFollow m) d)
  else
    let lead := (d.tdmP p).tx
    let chk := slipCheck lead.fading lead.buf.length lead.since
    let d1 := match chk.1 with
      | some cause => each gang (fun m d => if (d.tdmP m).tx.fading then d else d.tdmFadeStart m 1 cause) d
      | none => d
    let x := (d1.tdmP p).tx
    let push := (slipWrite (d1.tdmF p) chk.2 x).1
    let after := (x.write (d1.tdmF p) (d1.tdmP p).frame (push, 0)).buf.length
    let over_ := x.fading && x.q - 1 == 0 && decide (4 ≤ after)
    mark (each gang (fun m d =>
      let y := (d.tdmP m).tx
      let dec := (push, if y.fading then y.q - 1 else min (y.q + 1) (d.tdmF m))
      let z := y.write (d.tdmF m) (d.tdmP m).frame dec
      let d2 := d.onTdm m (fun t => { t with tx := { z with
        fading := y.fading && !over_
        since := if chk.2.isSome then 0 else min 64 (y.since + 1) } })
      let d3 := d2.slipEvents m 1 chk.2 (push - 1) (b2n (push == 0)) (y.fading && over_)
      if d3.forwards then d3.mirSend (.locals (d3.tick + 1) [] [(m, dec.1, dec.2)]) else d3) d1)

/-- A tick-side access of a foreign-clock port (direction 0 receive, 1 transmit), once per frame of its rate, at the instants of a master port; members
are accessed with their leader. -/
def Sys.slipAccess (p dir c : Nat) (s : Sys) : Sys :=
  let d := s.dev
  let x := if dir = 0 then (d.tdmP p).rx else (d.tdmP p).tx
  if (d.tdmP p).started && d.tdmMode p == 2 && d.tdmLeader p == p && d.tdmDue p && decide (c ≤ capBy) && x.acc != some d.tick then
    if dir = 0 then s.slipRx p c else s.onDev (Dev.slipTx p c)
  else s.onDev (fun d => d.atC c)

/-- After 16 frames inside the window a synchronous slave returns to service (R241). -/
def Dev.tdmAlignReturn (p c : Nat) (d0 : Dev) : Dev :=
  let d := d0.atC c
  let t := d.tdmP p
  if t.started && d.tdmMode p == 1 && t.out && decide (16 ≤ t.good) then
    ((d.onTdm p (fun t => { t with out := false, rx := { t.rx with fading := false } })).tdmBack p 0).tdmStat p
  else d

/-- After 16 aligned frames a member rejoins at its leader's frame count, discarding the frames it holds from before
(R246). -/
def Dev.tdmGangRejoin (p c : Nat) (d0 : Dev) : Dev :=
  let d := d0.atC c
  let t := d.tdmP p
  let l := d.tdmLeader p
  if t.started && d.tdmGanged p && l != p && t.out && decide (16 ≤ t.good) then
    let lead := (d.tdmP l).rx
    let d1 := d.onTdm p (fun t => { t with
      out := false
      rx := { t.rx with fading := lead.fading, buf := t.rx.buf.filter (fun g => lead.buf.any (fun k => k.n == g.n)) } })
    let d2 := (d1.setReg (R.tdmFcnt p) (d1.reg (R.tdmFcnt l))).raise Blk.tdm Src.tdmGangRejoin p l (d1.reg (R.tdmFcnt l))
    (d2.tdmBack p 0).tdmStat p
  else d

/-! ## At the boundary -/

/-- The clock outputs MCLK_OUT: each period is a whole fraction of the tick, so that an enable, a disable or a new divider at a boundary takes effect at
the end of a whole period, and a rising edge falls at every boundary (R249). -/
def Dev.mclkBoundary (d : Dev) : Dev :=
  { d with mclk := (List.range 2).map (fun m =>
      if d.lf (R.tdmMclkcfg m) 31 1 = 0 then none
      else some (160 * 2 ^ min 2 (d.lf (R.tdmMclkcfg m) 0 2))) }

/-- The rising edges of MCLK_OUT[m] within a tick, in VCO periods of which a tick has 40,960; none of an output that is low (R249). -/
def Dev.mclkEdges (d : Dev) (m : Nat) : List Nat :=
  match d.mclk.getD m none with
  | none => []
  | some k => (List.range (40960 / k)).map (fun i => k * i)

/-- At the boundary into a tick: the frames of that boundary are taken before the tick's drain (R240), ports start and stop,
ports out of service fade by a step (R244), captured words that wait are written, and 48 kHz words again (R239). -/
def Sys.tdmBoundary (s : Sys) : Sys :=
  let dA := forN 8 (fun p d => if (d.tdmP p).started && d.tdmDue p then d.tdmTake p d.tick else d) s.dev
  let s1 : Sys := { s with dev := dA.tdmStart.mclkBoundary }
  forN 8 (fun p s =>
    let d := s.dev
    let t := d.tdmP p
    if !t.started then s
    else
      let s2 := if d.tdmMode p = 1 ∧ t.out = true ∧ d.tdmDue p = true then s.onDev (fun d => d.tdmFadeStep p) else s
      if !d.tdmHi p || t.hold || (d.tdmMode p == 1 && t.out) then
        (s2.onDev (fun d => d.onTdm p (fun t => { t with hold := false }))).tdmWrite p []
      else s2) s1

/-- A drain descriptor delivers a word to transmit slot `idx` = 32 p + s (R112, R240). -/
def Dev.tdmDeliver (d : Dev) (idx w : Nat) : Dev :=
  d.onTdm (idx / 32) (fun t => { t with slots := updAt t.slots (idx % 32) (fun _ => (w % 2 ^ 32, true)) })

end Sys2Proof.Machine
end

