-- ==== Sys2Proof/Machine/Clk.lean ====
section
/-!
DEFINITION. Reference qualification and selection, the DPLL, holdover, and the clock outputs (R146 to R165).
-/
namespace Sys2Proof.Machine

/-! ## Access -/

/-- A reference. -/
def Dev.refS (d : Dev) (n : Nat) : ClkRef := d.clk.refs.getD n {}
/-- A change of a reference. -/
def Dev.onRef (d : Dev) (n : Nat) (f : ClkRef → ClkRef) : Dev := { d with clk := { d.clk with refs := updAt d.clk.refs n f } }
/-- REFSTATn.STATE: 0 OFF, 1 LOS, 2 QUALIFYING, 3 QUALIFIED, 4 DISQUALIFIED, 5 WTR. -/
def Dev.refState (d : Dev) (n : Nat) : Nat := d.rf (R.clkRefstat n) 0 3
/-- REFSTATn.STATE set. -/
def Dev.setRefState (d : Dev) (n st : Nat) : Dev := d.setFld (R.clkRefstat n) 0 3 st
/-- CLK.STAT.MODE: 0 FREERUN, 1 ACQUIRE, 2 LOCKED, 3 HOLDOVER. -/
def Dev.clkMode (d : Dev) : Nat := d.rf R.clkStat 0 2
/-- The selected reference. -/
def Dev.clkSel (d : Dev) : Option Nat := if d.rf R.clkStat 6 1 = 1 then some (d.rf R.clkStat 4 2) else none
/-- A signed 32-bit register value. -/
def Dev.sreg (d : Dev) (off : Nat) : Int := sgn 32 (d.reg off)
/-- A signed value written to a 32-bit status register, saturated. -/
def Dev.setS (d : Dev) (off : Nat) (x : Int) : Dev := d.setReg off (wrapN 32 (clampI (-2147483648) 2147483647 x))
/-- RANK, MODE and the windows of a reference in use. -/
def Dev.refRank (d : Dev) (n : Nat) : Nat := d.lf (R.clkRefcfg n) 4 3
/-- Return mode 1 is pull-in (R163). -/
def Dev.refPull (d : Dev) (n : Nat) : Bool := d.lf (R.clkRefcfg n) 8 1 == 1
/-- The role selects PARTNER whenever it is QUALIFIED (R159). -/
def Dev.clkFollows (d : Dev) : Bool :=
  d.paired && (d.role == .shadow || d.role == .catchup || d.role == .fallow)

/-! ## The time counter and its 96 kHz grid (R168 to R173, R181) -/

/-- The increment of one counter cycle in 2^-32 ns (R169). -/
def Dev.timeInc (d : Dev) : Nat := 4 * 2 ^ 32 + d.reg R.timeInc
/-- The counter runs (R173). -/
def Dev.timeValid (d : Dev) : Bool := d.rf R.timeStat 0 1 == 1
/-- The counter brought forward to `n` counter cycles of the present tick. -/
def Dev.timeTo (d : Dev) (n : Nat) : Dev :=
  if d.timeValid then
    { d with time := { d.time with
        cnt := (d.time.cnt + (n - d.time.done) * d.timeInc) % 2 ^ 96
        cyc := d.time.cyc + (n - d.time.done)
        adv := d.time.adv + (n - d.time.done) * d.timeInc
        done := max n d.time.done } }
  else { d with time := { d.time with done := max n d.time.done } }
/-- The counter brought forward to the present cycle: four ECLK cycles for one of its own (R148, R168). -/
def Dev.timeNow (d : Dev) : Dev := d.timeTo (d.cycle / 4)
/-- The whole nanoseconds of the counter. -/
def Dev.timeNs (d : Dev) : Nat := d.time.cnt / 2 ^ 32
/-- MAPOFF in use. -/
def Dev.mapOff (d : Dev) : Int := sgn 64 (d.lv R.timeMapofflo + 2 ^ 32 * d.lv R.timeMapoffhi)

/-- The frequency offset of the PTP virtual reference against the XO since its last measurement, in ppt: the counter's own clock is the XO's,
with 4 + 53/768 ns to the cycle (R152, R169); none where the counter has not run. -/
def Dev.ptpOffset (d : Dev) : Option Int :=
  if d.time.cyc = 0 then none
  else some (roundDiv (((d.time.adv : Int) * 768 - d.time.cyc * (2 ^ 32 * 3125)) * 10 ^ 12) (d.time.cyc * (2 ^ 32 * 3125)))

/-- The phase of the PTP virtual reference against the tick, in ps: the nearest point of the 96 kHz grid of C(N) + MAPOFF - STEPACC, later than the
boundary counted positive (R181; log entry 144). -/
def Dev.ptpPhase (d : Dev) : Int :=
  let y := 12 * ((d.w64 R.timeCap : Int) + d.clk.offSel - d.time.acc)
  roundDiv ((125000 * roundDiv y 125000 - y) * 250) 3

/-- The phase of a reference against the tick, `ph` as the detector or the link measures it: the PTP virtual reference's comes from the counter, and a
PARTNER marker is dated half a round trip before its arrival, plus the trim (R152, R181, R304). -/
def Dev.refPhase (d : Dev) (n : Nat) (ph : Int) : Int :=
  if n = 2 then d.ptpPhase
  else if n = 3 then ph - d.rf R.mirDelay 0 24 + sgn 16 (d.lf R.mirDelayadj 0 16)
  else ph

/-! ## Holdover (R161, R162) -/

/-- The history frequency from the ring's entries that end `guard` seconds before tick `now`, whatever lies between: the mean and the entries used. -/
def histFreq (ring : List (Nat × Int)) (now guard avg : Nat) : Option (Int × Nat) :=
  let l := ((ring.filter (fun e => decide (e.1 + 96000 * guard ≤ now))).take avg).map (fun e => e.2)
  if l = [] then none else some (roundDiv (l.foldl (· + ·) 0) l.length, l.length)

/-- HOLDAVG; 0 acts as 1. -/
def Dev.holdAvg (d : Dev) : Nat := max 1 (d.lf R.clkHist 0 8)
/-- DRIFTWIN, even, 4 to 64. -/
def Dev.driftWin (d : Dev) : Nat := clampN 4 64 (d.lf R.clkDrift 16 8) / 2 * 2

/-- One step-clock cycle (VCO / 5) at word `w`: the NCO adds it to its remainder, a whole step is issued unless the last 25 cycles would then hold
more than 8 (R149, R150). -/
def synStep (w : Int) (y : Syn) : Syn :=
  let a := y.frac + w * 1280
  let dir : Int := if 10 ^ 12 ≤ a then 1 else if a < 0 then -1 else 0
  let may := decide ((y.win.filter (fun b => b)).length < 8)
  let go := decide (dir ≠ 0) && may
  { frac := a - dir * 10 ^ 12
    win := (go :: y.win).take 24
    done := y.done + 1
    steps := y.steps + (if go then dir else 0)
    refused := y.refused + b2n (decide (dir ≠ 0) && !may) }

/-- SYN brought forward to step-clock cycle `k` of the present tick; steps refused are counted (R149, R150). -/
def Dev.synTo (d : Dev) (k : Nat) : Dev :=
  let n := k - d.clk.syn.done
  let w := d.sreg R.clkFreq
  let y := if w = 0 then { d.clk.syn with win := (List.replicate (min n 24) false ++ d.clk.syn.win).take 24, done := max k d.clk.syn.done }
    else forN n (fun _ y => synStep w y) d.clk.syn
  let d1 : Dev := { d with clk := { d.clk with syn := y } }
  if y.refused = d.clk.syn.refused then d1 else d1.bump R.synLimitcnt (y.refused - d.clk.syn.refused)

/-- The frequency word changes in the present cycle; the steps so far followed the old one. -/
def Dev.setFreq (d : Dev) (w : Int) : Dev := (d.synTo (4 * d.cycle / 5)).setS R.clkFreq w

/-- The tick of 8,192 step-clock cycles that ends: SYN.STAT.LIMIT and STEP_LIMIT tell of steps refused in it (R150, R167). -/
def Dev.synEnd (d : Dev) : Dev :=
  let d1 := d.synTo 8192
  let n := d1.clk.syn.refused
  let d2 : Dev := { d1 with clk := { d1.clk with syn := { d1.clk.syn with done := 0, refused := 0 } } }
  let d3 := d2.setFld R.synStat 2 1 (min 1 n)
  if n = 0 then d3 else d3.raise Blk.syn Src.synStepLimit n (d3.reg R.clkFreq) 0

/-- Holdover is entered with its cause, or FREERUN for want of history (R160, R161). -/
def Dev.holdEnter (d : Dev) (cause : Nat) : Dev :=
  let guard := if cause = 2 then d.driftWin else d.lf R.clkHist 8 6
  let base := ((d.setFld R.clkStat 6 1 0).setFld R.clkStat 8 1 0).setReg R.clkHoldtime 0
  match histFreq d.clk.ring d.tick guard d.holdAvg with
  | none => (base.setFld R.clkStat 0 2 0).setFreq 0
  | some (f, n) =>
    let short := decide (n < d.holdAvg)
    let d1 := (((base.setFld R.clkStat 0 2 3).setFld R.clkStat 7 1 (b2n short)).setS R.clkHoldfreq f).setFreq f
    let d2 := { d1 with clk := { d1.clk with e0 := (d.sreg R.clkPherr).natAbs, short := short } }
    (d2.bump R.clkHoldcnt 1).raise Blk.clk Src.clkHoldover cause (wrapN 32 f) n

/-! ## Selection (R158, R159, R163) -/

/-- The reference R158 and R159 choose: the candidate of lowest rank, the one selected kept among equals. -/
def Dev.clkChoice (d : Dev) : Option Nat :=
  let follow := d.clkFollows
  let ok := fun (n : Nat) => d.refState n == 3
  if follow && ok 3 then some 3
  else if d.lf R.clkCtrl 3 1 = 1 then none
  else
    let cand := (List.range 3).filter ok
    let cand := if d.lf R.clkCtrl 2 1 = 1 then cand.filter (fun n => n == d.lf R.clkCtrl 0 2) else cand
    let keep := match d.clkSel with
      | some n => cand.contains n
      | none => false
    if keep && d.lf R.clkCtrl 4 1 == 0 then d.clkSel
    else
      let key := fun (n : Nat) => d.refRank n * 8 + (if d.clkSel = some n then 0 else 1 + n)
      (sortBy key cand).head?

/-- A reference becomes the selected one: a switch, with build-out or pull-in; a holdover ends, its limit's status and source with it (R160, R162,
R163, R181). -/
def Dev.clkTake (d : Dev) (n : Nat) (build : Bool) : Dev :=
  let old := d.clkSel.getD 0xFF
  let b := build || !d.refPull n
  let d1 := (((d.setFld R.clkStat 6 1 1).setFld R.clkStat 4 2 n).setFld R.clkStat 0 2 1).setFld R.clkStat 7 2 0
  let d2 := ((d1.setReg R.clkHoldtime 0).setReg (R.clkRefphoff n) 0).bump R.clkSwitchcnt 1
  let d3 := { d2 with clk := { d2.clk with
    inside := 0
    outside := 0
    takeOff := b
    pull := !b
    offSel := if n = 2 then d.mapOff else d2.clk.offSel } }
  let d4 := if d.clkMode = 3 then d3.clearFlt Blk.clk (2 ^ Src.clkHoldLimit) else d3
  d4.raise Blk.clk Src.clkSwitch old n (b2n (!b))

/-- Selection (R158): `cause` is the holdover cause if no candidate remains. -/
def Dev.clkSelect (d : Dev) (cause : Nat) (build : Bool) : Dev :=
  let c := d.clkChoice
  if c = d.clkSel then
    (if c.isNone ∧ d.clkMode = 0 ∧ d.lf R.clkCtrl 3 1 = 1 ∧ d.clk.ring ≠ [] then d.holdEnter 5 else d)
  else
    match c with
    | some n => d.clkTake n build
    | none => d.holdEnter (if d.lf R.clkCtrl 3 1 = 1 then 5 else cause)

/-- The selected reference leaves QUALIFIED: the first cause in an interval is the one that counts (R156, R166). -/
def Dev.clkWhy (d : Dev) (n cause : Nat) : Dev :=
  if d.clkSel = some n ∧ d.clk.why = 0 then { d with clk := { d.clk with why := cause } } else d

/-! ## Reference events (R152 to R157) -/

/-- A reference loses its signal (R152, R154). -/
def Dev.refLose (d : Dev) (n : Nat) : Dev :=
  let st := d.refState n
  if st = 0 ∨ st = 1 then d
  else
    let d1 := ((d.setReg (R.clkRefstat n) 1).setReg (R.clkRefwtr n) 0).onRef n (fun r => { r with offs := [], good := 0 })
    (d1.raiseF Blk.clk Src.clkRefLos (bit (d.lv R.clkForce) n) n st 0).clkWhy n 1

/-- No edge for the timeout; for the PTP virtual reference, PTPOK = 0 (R152). -/
def Dev.refLosDetect (n c : Nat) (d0 : Dev) : Dev :=
  let d := d0.atC c
  if 4 ≤ n ∨ (n = 2 ∧ d.lf R.clkCtrl 8 1 = 1) then d else d.refLose n

/-- Activity on a reference in LOS that no force holds there (R154, R366). -/
def Dev.refActivity (n c : Nat) (d0 : Dev) : Dev :=
  let d := d0.atC c
  if n < 4 ∧ d.refState n = 1 ∧ bit (d.lv R.clkForce) n = false ∧ ¬(n = 2 ∧ d.lf R.clkCtrl 8 1 = 0)
      ∧ ¬(n = 3 ∧ d.rf R.mirStat 0 1 = 0) then
    (d.setRefState n 2).onRef n (fun r => { r with good := 0 })
  else d

/-- A reference fails a check (R155). -/
def Dev.refDisq (d : Dev) (n cause : Nat) (off : Int) : Dev :=
  let d1 := (d.setRefState n 4).setFld (R.clkRefstat n) 5 1 (b2n (cause == 2))
  let d2 := (d1.setReg (R.clkRefwtr n) 0).onRef n (fun r => { r with good := 0 })
  (d2.raise Blk.clk Src.clkRefDisq n cause (wrapN 32 (off / 1000))).clkWhy n (if cause = 1 then 1 else cause)

/-- The drift check of R155 over a reference's offsets. -/
def driftFails (offs : List Int) (win : Nat) (lim : Nat) : Bool :=
  let h := win / 2
  let a := (offs.take h).foldl (· + ·) 0
  let b := ((offs.drop h).take h).foldl (· + ·) 0
  decide (win ≤ offs.length) && decide ((lim : Int) * 1000 * ((h : Int) * h) < ((a - b).natAbs : Int))

/-- The checks of one second on one reference, and the change of state they make (R154, R155). -/
def Dev.refCheck (d : Dev) (n : Nat) (off : Int) : Dev :=
  let st := d.refState n
  let offs := (off :: (d.refS n).offs).take 64
  let d1 := (d.setS (R.clkReffreq n) off).onRef n (fun r => { r with offs := offs })
  let soft := decide ((d.lf (R.clkRefwin n) 16 16 : Int) * 1000 < (off.natAbs : Int))
  let d2 := d1.setFld (R.clkRefstat n) 3 1 (b2n soft)
  let d3 := if soft then d2.raise Blk.clk Src.clkRefSoft n (wrapN 32 (off / 1000)) 0 else d2
  let hard := decide ((d.lf (R.clkRefwin n) 0 16 : Int) * 1000 < (off.natAbs : Int))
  let drift := driftFails offs d.driftWin (d.lf R.clkDrift 0 16)
  match st with
  | 2 =>
    if hard then d3.onRef n (fun r => { r with good := 0 })
    else if 1 ≤ (d.refS n).good then
      ((d3.setRefState n 5).setReg (R.clkRefwtr n) (d.lf (R.clkReftim n) 0 10)).onRef n (fun r => { r with good := 0 })
    else d3.onRef n (fun r => { r with good := r.good + 1 })
  | 4 => if hard || drift then d3 else d3.setRefState n 2
  | 3 => if hard then d3.refDisq n 1 off else if drift then d3.refDisq n 2 off else d3
  | 5 =>
    if hard then d3.refDisq n 1 off else if drift then d3.refDisq n 2 off
    else d3.setReg (R.clkRefwtr n) (d3.reg (R.clkRefwtr n) - 1)
  | _ => d

/-- The pairs of references that may disagree. -/
def refPairs : List (Nat × Nat) := [(0, 1), (0, 2), (0, 3), (1, 2), (1, 3), (2, 3)]

/-- One second of disagreement of two references of equal rank (R157): while both are QUALIFIED it is counted, in the TIME-th second the pair is
flagged and the alarm raised, and of a flagged pair the farther from the history is disqualified, if the distances tell; without a history (log entry
150) neither is.  A flagged pair stays flagged until its offsets agree again or one of the two is no longer measured. -/
def Dev.refDisagree (d : Dev) (p : Nat × Nat) : Dev :=
  let (i, j) := p
  let key := 4 * i + j
  let oi := d.sreg (R.clkReffreq i)
  let oj := d.sreg (R.clkReffreq j)
  let old := (tabGet d.clk.disag key).getD (0, false)
  let put := fun (d : Dev) (v : Nat × Bool) => { d with clk := { d.clk with disag := if v = (0, false) then tabDel d.clk.disag key else tabSet d.clk.disag key v } }
  let differ := decide ((d.lf R.clkDisag 0 16 : Int) * 1000 < ((oi - oj).natAbs : Int)) && decide (2 ≤ d.refState i) && decide (2 ≤ d.refState j)
  if !differ then put d (0, false)
  else if ¬(d.refState i = 3 ∧ d.refState j = 3 ∧ d.refRank i = d.refRank j) then put d (0, old.2)
  else
    let cnt := min 255 (old.1 + 1)
    if cnt < max 1 (d.lf R.clkDisag 16 8) then put d (cnt, old.2)
    else
      let d1 := put d (cnt, true)
      let d2 := if old.2 then d1 else d1.raise Blk.clk Src.clkRefDisagree i j (wrapN 32 ((oi - oj).natAbs / 1000 : Nat))
      match histFreq d.clk.ring d.tick (d.lf R.clkHist 8 6) d.holdAvg with
      | none => d2
      | some (f, _) =>
        let di := ((oi - f).natAbs : Int)
        let dj := ((oj - f).natAbs : Int)
        if (d.lf R.clkDisag 24 8 : Int) * 10000 < ((di - dj).natAbs : Int) then
          d2.refDisq (if dj < di then i else j) 3 (if dj < di then oi else oj)
        else d2

/-- REFSTATn.DISAG follows the flagged pairs (R157). -/
def Dev.disagFlags (d : Dev) : Dev :=
  forN 4 (fun n d => d.setFld (R.clkRefstat n) 4 1
    (b2n (refPairs.any (fun p => (p.1 == n || p.2 == n) && ((tabGet d.clk.disag (4 * p.1 + p.2)).getD (0, false)).2)))) d

/-- The measurements of one second: each reference's offset with its window and drift checks (R155); the PTP virtual reference's own comes from the
counter.  What else the interval brings, the evaluation of R156 takes up in its order. -/
def Dev.refMeasure (offs : List (Option Int)) (c : Nat) (d0 : Dev) : Dev :=
  let d := (d0.atC c).timeNow
  let all := updAt offs 2 (fun _ => d.ptpOffset)
  let a := (List.range 4).foldl (fun (d : Dev) n =>
    match all.getD n none with
    | some o => if 2 ≤ d.refState n then d.refCheck n o else d
    | none => d) d
  { a with clk := { a.clk with meas := true }, time := { a.time with cyc := 0, adv := 0 } }

/-- A reference's wait-to-restore count has reached zero (R154). -/
def Dev.wtrDone (d : Dev) (n : Nat) : Dev :=
  if n < 4 ∧ d.refState n = 5 ∧ d.reg (R.clkRefwtr n) = 0 then (d.setRefState n 3).raise Blk.clk Src.clkRestored n 0 0 else d

/-- The same, in its cycle. -/
def Dev.wtrExpire (n c : Nat) (d0 : Dev) : Dev := (d0.atC c).wtrDone n

/-! ## The DPLL (R149, R150, R160) -/

/-- The loop bandwidth in force, as a code of DPLL.BW: 7 acts as 6, and 0 (0.1 Hz) while a 1PPS reference is selected (R160). -/
def Dev.dpllBw (d : Dev) (n : Nat) : Nat :=
  if n < 2 ∧ d.lf (R.clkRefcfg n) 0 3 = 2 then 0 else min 6 (d.lf R.clkDpll 0 3)

/-- What a pull-in adds to the loop's frequency: at most PULLSLOPE, in ppt (R163). -/
def Dev.pullTerm (d : Dev) (n : Nat) (err : Int) : Int :=
  let s : Int := max 1 (d.lf (R.clkReftim n) 16 8) * 1000000
  if d.clk.pull then clampI (-s) s (Config.dpllPull s err) else 0

/-- One comparison of reference `n` with the tick, `ph` its measured phase in ps; of a reference that is not the selected one the loop takes none.  The loop's frequency is a free value by its bandwidth
(log entry 5); the word is that frequency with the pull-in term, within the clamp of R149. -/
def Dev.dpllCompare (n : Nat) (ph : Int) (c : Nat) (d0 : Dev) : Dev :=
  let d := d0.atC c
  if d.clkSel = some n ∧ (d.clkMode = 1 ∨ d.clkMode = 2) ∧ d.refState n = 3 then
    let p := d.refPhase n ph
    let dA := if d.clk.takeOff then
        let e := d.setS (R.clkRefphoff n) p
        { e with clk := { e.clk with takeOff := false } }
      else d
    let err := p - dA.sreg (R.clkRefphoff n)
    let dr := dA.draw
    let loop := Config.dpllLoop (d.dpllBw n) err d.clk.loopF dr.2
    let word := clampI (-200000000) 200000000 (loop + d.pullTerm n err)
    let dB := (dr.1.setS R.clkPherr err).setFreq word
    let dC := { dB with clk := { dB.clk with loopF := loop, sum := dB.clk.sum + word, num := dB.clk.num + 1 } }
    let win : Int := d.lf (R.clkReflock n) 0 16 * 1000
    let lockN := max 1 (d.lf (R.clkReflock n) 16 8)
    let mag : Int := err.natAbs
    let inside : Nat := if mag ≤ win then dC.clk.inside + 1 else 0
    let outside : Nat := if 4 * win < mag then dC.clk.outside + 1 else 0
    let dD := { dC with clk := { dC.clk with inside := min 256 inside, outside := min 4 outside } }
    if d.clkMode = 1 ∧ lockN ≤ inside then
      let e := (dD.setFld R.clkStat 0 2 2).setReg R.clkHoldpred 0
      { e with clk := { e.clk with outside := 0, sum := 0, num := 0, pull := false } }
    else if d.clkMode = 2 ∧ 4 ≤ outside then
      let e := dD.setFld R.clkStat 0 2 1
      ({ e with clk := { e.clk with inside := 0, outside := 0 } } : Dev).raise Blk.clk Src.clkLockLost n (dD.reg R.clkPherr) 0
    else dD
  else d

/-- While LOCKED, the second's mean frequency word is recorded in the ring of 256 (R161). -/
def Dev.historyRecord (c : Nat) (d0 : Dev) : Dev :=
  let d := d0.atC c
  let clear := { d with clk := { d.clk with sum := 0, num := 0 } }
  if d.clkMode = 2 ∧ 0 < d.clk.num then
    { clear with clk := { clear.clk with ring := ((d.tick, roundDiv d.clk.sum d.clk.num) :: d.clk.ring).take 256 } }
  else clear

/-- Y0 and D of the declared class, in 10^-5 ns/s and 10^-5 ns/s² halved (R147). -/
def xoClass : Nat → Nat × Nat
  | 0 => (1000000, 5000)
  | 1 => (500000, 500)
  | 2 => (100000, 50)
  | _ => (10000, 5)

/-- One more second of holdover (R162): P(t) = E0 + Y0 t + D t² / 2. -/
def Dev.holdoverPredict (c : Nat) (d0 : Dev) : Dev :=
  let d := d0.atC c
  if d.clkMode = 3 then
    let t := min (2 ^ 32 - 1) (d.reg R.clkHoldtime + 1)
    let k := xoClass (d.lf R.clkXoclass 0 2)
    let y0 := if d.clk.short then 4 * k.1 else k.1
    let p5 := d.clk.e0 * 100 + y0 * t + k.2 * t * t
    let p := min (2 ^ 32 - 1) ((p5 + 50000) / 100000)
    let d1 := (d.setReg R.clkHoldtime t).setReg R.clkHoldpred p
    if d.lf R.clkHoldlim 0 24 * 100000 < p5 ∧ d.rf R.clkStat 8 1 = 0 then
      (d1.setFld R.clkStat 8 1 1).raise Blk.clk Src.clkHoldLimit p t 0
    else d1
  else d

/-! ## At the boundary (R159, R160, R165) -/

/-- Changes of a reference's configuration, forces and PTPOK take effect (R152, R153, R160, R366). -/
def Dev.refConfig (d : Dev) (n : Nat) : Dev :=
  let cfg := d.lv (R.clkRefcfg n)
  let en := bit cfg 7
  let typ := cfg % 8
  let old := d.refS n
  let d1 := d.onRef n (fun r => { r with en := en, typ := typ })
  if !en && d.refState n != 0 then
    (((d1.setReg (R.clkRefstat n) 0).setReg (R.clkRefwtr n) 0).onRef n (fun r => { r with offs := [], good := 0 })).clkWhy n 4
  else if en && d.refState n == 0 then d1.setReg (R.clkRefstat n) 1
  else if en && (bit (d.lv R.clkForce) n || (n == 2 && d.lf R.clkCtrl 8 1 == 0)) then d1.refLose n
  else if en && old.en && old.typ != typ && decide (2 ≤ d.refState n) then
    ((d1.setRefState n 2).onRef n (fun r => { r with offs := [], good := 0 })).clkWhy n 1
  else d1

/-- The role's treatment of PARTNER (R159), and whether the role has just changed from one that followed it, with PARTNER selected, to ACTIVE. -/
def Dev.clkRole (d : Dev) : Dev × Bool :=
  let now := d.clkFollows
  let d1 := d.setFld R.clkStat 9 1 (b2n now)
  ({ d1 with clk := { d1.clk with follow := now } }, d.clk.follow && !now && d.role == .active && d.clkSel == some 3)

/-- The evaluation of what an interval has brought, in the order of R156 from its third step on: wait-to-restore completions, disagreement after a
second's measurement, selection. -/
def Dev.clkEval (d : Dev) : Dev :=
  let d1 := forN 4 (fun n d => d.wtrDone n) d
  let d2 := if d1.clk.meas then (refPairs.foldl Dev.refDisagree d1).disagFlags else d1
  let r := d2.clkRole
  let d3 := r.1.clkSelect (if d2.clk.why = 0 then 5 else d2.clk.why) r.2
  { d3 with clk := { d3.clk with why := 0, meas := false } }

/-- CLK and the steps of SYN at a boundary. -/
def Dev.clkBoundary (d : Dev) : Dev := (forN 4 (fun n d => d.refConfig n) d.synEnd).clkEval

/-! ## Clock outputs (R165) -/

/-- The end, after the next boundary, of the output period then in progress. -/
def ClkOut.roll (o : ClkOut) : Nat :=
  o.next + (if 40960 ≤ o.next then 0 else (40960 - o.next + o.div - 1) / o.div * o.div) - 40960

/-- What the registers ask of output `k`: divider, coarse and fine delay; none while it is disabled or shut down. -/
def Dev.outWant (d : Dev) (k : Nat) : Option (Nat × Nat × Nat) :=
  if d.lf (R.synOutcfg k) 31 1 = 0 ∨ bit (d.reg (R.synOutstat k)) 1 = true then none
  else some (max 4 (d.lf (R.synOutcfg k) 0 20), d.lf (R.synOutdly k) 0 12, d.lf (R.synOutdly k) 16 8)

/-- One output at a boundary: it runs on while nothing else is asked of it; otherwise it ends with its period in progress.  An enabled one that does
not run starts at an even tick, so that its rising edge falls at the boundary, plus the delays (R165). -/
def Dev.outNext (d : Dev) (k : Nat) : Option ClkOut :=
  let want := d.outWant k
  let start := match want with
    | some w => if d.tick % 2 = 0 then some { div := w.1, del := w.2.1, fine := w.2.2, next := w.2.1, last := false } else none
    | none => none
  match d.clk.outs.getD k none with
  | none => start
  | some o =>
    if o.last then (if 40960 < o.next then some { o with next := o.next - 40960 } else start)
    else if want = some (o.div, o.del, o.fine) then some { o with next := o.roll }
    else if 0 < o.roll then some { o with next := o.roll, last := true } else start

/-- The edges of CLKOUT[k] in a tick whose output period in progress ends at `next`: each rising edge with the falling edge after it, in interpolator
steps after the boundary; the high time of an odd divider is a VCO period longer than its low time (R165). -/
def ClkOut.edges (o : ClkOut) : List (Int × Int) :=
  ((List.range (if o.last then 1 else 40960 / o.div + 2)).map (fun (i : Nat) =>
    let at_ : Int := (o.next : Int) + (i : Int) * o.div - o.div
    (at_ * 256 + o.fine, (at_ + ((o.div + 1) / 2 : Nat)) * 256 + o.fine))).filter (fun e => decide (e.1 < 40960 * 256))

/-- CLKOUTs at a boundary; RUN shows an output until the first boundary at or after the end of its last period (log entry 151). -/
def Dev.clkoutBoundary (d : Dev) : Dev :=
  let outs := (List.range 4).map (fun k => d.outNext k)
  forN 4 (fun k d => d.setFld (R.synOutstat k) 0 1 (b2n (outs.getD k none).isSome)) ({ d with clk := { d.clk with outs := outs } })

/-- The clock outputs shut down at 160 °C (R165). -/
def Dev.clkoutShut (d : Dev) : Dev :=
  let mask := (List.range 4).foldl (fun m k => bitSet m k (bit (d.reg (R.synOutstat k)) 0)) 0
  let d1 := forN 4 (fun k d => (d.setFld (R.synOutstat k) 0 1 0).setFld (R.synOutstat k) 1 1 1) d
  ({ d1 with clk := { d1.clk with outs := List.replicate 4 none } } : Dev).raise Blk.syn Src.synThermShut mask 0 0

end Sys2Proof.Machine
end

