-- ==== Sys2Proof/Machine/Time.lean ====
section
/-!
DEFINITION. The time counter, compare units, the tick-to-time map and the transmit time-stamp queues (R168 to R187).
-/
namespace Sys2Proof.Machine

/-! ## The counter (R168 to R173) -/

/-- Short time (R174). -/
def Dev.shortTime (d : Dev) : Nat := d.timeNs % 2 ^ 32
/-- d of compare unit `k` (R175). -/
def Dev.cmpDiff (d : Dev) (k : Nat) : Int := sgn 32 (d.reg (R.timeCmptgt k) + 2 ^ 32 - d.shortTime)

/-- TIME.INC as stored: the nearer bound outside ±200 ppm (R170). -/
def incStored (v : Nat) : Nat := clampN 292902230 299892736 v

/-- A write of TIME.INC (R170). -/
def Dev.writeInc (d : Dev) (v : Nat) : Dev :=
  let s := incStored v
  let d1 := d.timeNow.setReg R.timeInc s
  if s = v then d1 else (d1.setFld R.timeStat 3 1 1).raise Blk.time Src.timeIncClamp v s 0

/-- A step of the counter's nanoseconds, applied in the headland of tick T - 1, `t` = T (R172, R188). -/
def Dev.timeStep (d : Dev) (t : Nat) (ofs : Int) : Dev :=
  let d0 := d.timeNow
  let before := (List.range 4).map d0.cmpDiff
  let ns := wrapN 64 ((d0.timeNs : Int) + ofs)
  let d1 := { d0 with time := { d0.time with cnt := ns * 2 ^ 32 + d0.time.cnt % 2 ^ 32, step := true } }
  let lateM := (List.range 4).foldl (fun m k =>
    if 0 < before.getD k 0 ∧ d1.cmpDiff k ≤ 0 then bitSet m k true else m) d1.time.late
  let d2 := { d1 with time := { d1.time with late := lateM } }
  let d3 := (d2.setW R.timeStepacc (wrapN 64 (sgn 64 (d2.w64 R.timeStepacc) + ofs))).setFld R.timeStat 4 4 (d2.rf R.timeStat 4 4 + 1)
  d3.raise Blk.time Src.timeStepDone (wrapN 32 ofs) (wrapN 64 ofs / 2 ^ 32) (t % 2 ^ 32)

/-- The time PLL loses lock: the counter holds (R173). -/
def Dev.tpllUnlock (c : Nat) (d0 : Dev) : Dev :=
  let d := (d0.atC c).timeNow
  ((d.setFld R.timeStat 0 1 0).setFld R.timeStat 2 1 0).raise Blk.time Src.timeTpllUnlock d.tickLo d.tickHi 0

/-- The time PLL locks: the counter runs on from its value, the next map update a discontinuity (R173). -/
def Dev.tpllRelock (c : Nat) (d0 : Dev) : Dev :=
  let d := (d0.atC c).timeNow
  let d1 := (d.setFld R.timeStat 0 1 1).setFld R.timeStat 2 1 1
  { d1 with time := { d1.time with first := true } }

/-! ## Compare units (R175) -/

/-- A unit is armed, late if its target has passed. -/
def Dev.compareArm (d : Dev) (k : Nat) : Dev :=
  let d1 := d.timeNow
  { d1 with time := { d1.time with late := bitSet d1.time.late k (decide (d1.cmpDiff k ≤ 0)) } }

/-- An armed unit fires at the first counter cycle with d ≤ 0. -/
def Dev.compareFire (k c : Nat) (d0 : Dev) : Dev :=
  let d := (d0.atC c).timeNow
  if k < 4 ∧ d.rf (R.timeCmpcfg k) 31 1 = 1 ∧ d.cmpDiff k ≤ 0 then
    let late := bit d.time.late k
    let per := d.rf (R.timeCmpcfg k) 0 30
    let st := d.reg (R.timeCmpstat k)
    let st1 := bitSet (fldSet st 0 14 d.cycle) 15 true
    let d1 := (d.setReg (R.timeCmptick k) d.tickLo).setReg (R.timeCmpstat k) (if late then bitSet st1 14 true else st1)
    let d2 := if per = 0 then d1.setFld (R.timeCmpcfg k) 31 1 0
      else d1.setReg (R.timeCmptgt k) ((d1.reg (R.timeCmptgt k) + per) % 2 ^ 32)
    ({ d2 with time := { d2.time with late := bitSet d2.time.late k false } } : Dev).raise
      Blk.time Src.timeCmpFire k (b2n late) d.cycle
  else d

/-! ## The map (R176, R177) -/

/-- What a map update gives: MAPDELTA, the cause of a discontinuity (0 none), the creep, and 125,000 times φ. -/
structure MapUpd where
  delta : Int
  cause : Nat
  creep : Int
  phi   : Int

/-- The update at the boundary into tick `n` with captured nanoseconds `ns` (R176, R177). -/
def Dev.mapUpd (d : Dev) (n ns : Nat) : MapUpd :=
  let x : Int := 12 * ((ns : Int) + d.mapOff)
  let phi := x - 125000 * ((n : Int) + d.time.delta)
  let jump := max 2 (d.lf R.timeMapcfg 0 8)
  let hyst := d.lf R.timeMapcfg 8 8
  let fresh := roundDiv (x - 125000 * (n : Int)) 125000
  if d.time.first then { delta := fresh, cause := 4, creep := 0, phi := phi }
  else if d.time.step then { delta := fresh, cause := 1, creep := 0, phi := phi }
  else if d.mapOff ≠ d.time.off then { delta := fresh, cause := 2, creep := 0, phi := phi }
  else if (jump : Int) * 125000 ≤ (phi.natAbs : Int) then { delta := fresh, cause := 3, creep := 0, phi := phi }
  else if (hyst : Int) * 125000 < 64 * (phi.natAbs : Int) then
    { delta := d.time.delta + roundDiv phi 125000, cause := 0, creep := roundDiv phi 125000, phi := phi }
  else { delta := d.time.delta, cause := 0, creep := 0, phi := phi }

/-- STRM uses the lease holder's map in a SHADOW or CATCHUP unit (R180). -/
def Dev.mapForeign (d : Dev) : Bool := d.paired && (d.role == .shadow || d.role == .catchup)

/-- The boundary into a tick, `n` counter cycles after the last one: the capture and the map (R34, R173, R176, R177, R180). -/
def Dev.timeBoundary (d0 : Dev) (n : Nat) : Dev :=
  let d1 := d0.timeTo n
  let d := { d1 with time := { d1.time with done := 0 } }
  let dM :=
    if !d.timeValid then { d with time := { d.time with useDisc := 0, useCreep := 0 } }
    else
      let u := d.mapUpd d.tick d.timeNs
      let e := { d with time := { d.time with
        delta := u.delta
        first := false
        step := false
        off := d.mapOff
        acc := sgn 64 (d.w64 R.timeStepacc)
        useD := u.delta
        useDisc := u.cause
        useCreep := u.creep } }
      let ph := clampI (-2147483648) 2147483647 (roundDiv (u.phi * 65536) 125000)
      let e1 := (((e.setW R.timeMaptick d.tick).setW R.timeCap d.timeNs).setW R.timeMapd (wrapN 64 u.delta)).setReg
        R.timeMapphase (wrapN 32 ph)
      if u.cause ≠ 0 then
        let e2 := ((e1.setFld R.timeMapstat 31 1 1).setFld R.timeMapstat 0 3 u.cause).setW R.timeDisctick d.tick
        (e2.bump R.timeDisccnt 1).raise Blk.time Src.timeMapDisc d.tickLo (wrapN 32 (roundDiv u.phi 125000)) u.cause
      else if u.creep ≠ 0 then
        (e1.bump R.timeCreepcnt 1).raise Blk.time Src.timeMapCreep d.tickLo (wrapN 32 u.creep) 0
      else e1
  let dF := dM.setFld R.timeMapstat 30 1 (b2n d.mapForeign)
  if d.mapForeign then
    match d.time.fwd with
    | some (t, delta, disc, creep) =>
      if t = d.tick then { dF with time := { dF.time with useD := delta, useDisc := disc, useCreep := creep } }
      else { dF with time := { dF.time with useD := d.time.useD, useDisc := 0, useCreep := 0 } }
    | none => { dF with time := { dF.time with useD := d.time.useD, useDisc := 0, useCreep := 0 } }
  else dF

/-- The unit as MAPOFF and MAPCFG stand from the boundary into tick `t` on: their changes due by then are live (R178). -/
def Dev.mapLive (d : Dev) (t : Nat) : Dev :=
  each (d.pendTick.filter (fun p => decide (p.due ≤ t) && [R.timeMapofflo, R.timeMapoffhi, R.timeMapcfg].contains p.off)) (fun p d => d.pendLive p) d

/-- The map of the next tick, as the STATUS frame of this tick carries it: the counter at its nominal 2,560 cycles per tick
(R180, R306; log entry 21), MAPOFF and MAPCFG as they will stand at that boundary. -/
def Dev.mapNext (d : Dev) : MapUpd :=
  if !d.timeValid then { delta := d.time.delta, cause := 0, creep := 0, phi := 0 }
  else (d.mapLive (d.tick + 1)).mapUpd (d.tick + 1) (d.timeTo 2560).timeNs

/-- A commanded clear of STEPACC: a new selection of the PTP virtual reference in its return mode (R181). -/
def Dev.stepaccClear (d : Dev) : Dev :=
  let d1 := d.setW R.timeStepacc 0
  if d1.clkSel = some 2 then d1.clkTake 2 false else d1

/-! ## Time-stamps (R182 to R187) -/

/-- The stamp of a frame on port `p`, from the counter: nanoseconds and fraction in 2^-32 ns, less RXLAT and ASYM on
receive, plus TXLAT on transmit (R182, R183, R186). -/
def Dev.stamp (d : Dev) (p : Nat) (rx : Bool) : Nat :=
  let e := d.timeNow
  let lat : Int := if rx then -(d.rf (R.timePortlat p) 0 16 : Int) else (d.rf (R.timePortlat p) 16 16 : Int)
  let asym : Int := if rx then sgn 32 (d.reg (R.timeAsym p)) else 0
  wrapN 96 ((e.time.cnt : Int) + lat * 2 ^ 32 - asym * 2 ^ 28)

/-- A transmit stamp appended to its port's queue of 16, or dropped (R186, R187).  `ev`: PTP sequenceId and messageType of
an event message. -/
def Dev.tsqPush (d : Dev) (p ident : Nat) (ev : Option (Nat × Nat)) : Dev :=
  let q := d.time.tsq.getD p []
  if 16 ≤ q.length then
    ((d.setFld (R.timeTsqstat p) 8 1 1).bump (R.timeTsqdrop p) 1).raise Blk.time Src.timeTsqOvf p ident 0
  else
    let st := d.stamp p false
    let ns := st / 2 ^ 32
    let e : TsEntry :=
      { w0 := ns % 2 ^ 32
        w1 := ns / 2 ^ 32 % 2 ^ 32
        w2 := ident % 65536 * 65536 + (ev.map (fun x => x.1 % 65536)).getD 0
        w3 := 2 ^ 31 + (ev.map (fun x => x.2 % 16)).getD 15 * 2 ^ 27 + d.rf R.timeStat 4 2 * 2 ^ 22 + st / 2 ^ 16 % 65536 }
    let d1 := { d with time := { d.time with tsq := updAt d.time.tsq p (fun q => q ++ [e]) } }
    d1.setFld (R.timeTsqstat p) 0 5 (q.length + 1)

/-- A read of word 0 of a queue: its oldest entry moves into the latch, zero words where it is empty (R187). -/
def Dev.tsqRead (p : Nat) (d : Dev) : Dev :=
  match d.time.tsq.getD p [] with
  | e :: rest =>
    let d1 := { d with time := { d.time with tsq := updAt d.time.tsq p (fun _ => rest) } }
    let d2 := d1.setFld (R.timeTsqstat p) 0 5 rest.length
    (((d2.setLatch (R.timeTsq p 0) e.w0).setLatch (R.timeTsq p 1) e.w1).setLatch (R.timeTsq p 2) e.w2).setLatch (R.timeTsq p 3) e.w3
  | [] =>
    (((d.setLatch (R.timeTsq p 0) 0).setLatch (R.timeTsq p 1) 0).setLatch (R.timeTsq p 2) 0).setLatch (R.timeTsq p 3) 0

end Sys2Proof.Machine
end

