-- ==== Sys2Proof/Machine/Mac.lean ====
section
/-!
DEFINITION. The Ethernet ports (R189 to R209): the frame check sequence, the fields of a frame, the treatment by length
and FCS, host classes, host rings, PAUSE, links, MDIO and the array bus.  Port p is 0 ETH0, 1 ETH1, 2 management, 3 array
bus; its block is 10 + p.
-/
namespace Sys2Proof.Machine

/-- The block of port `p`. -/
def macBlk (p : Nat) : Nat := 10 + p
/-- The port's state beside its registers. -/
def Dev.macP (d : Dev) (p : Nat) : MacPort := d.mac.getD p {}
/-- A change of it. -/
def Dev.onMac (d : Dev) (p : Nat) (f : MacPort → MacPort) : Dev := { d with mac := updAt d.mac p f }
/-- A port counter counts. -/
def Dev.macCount (d : Dev) (p k n : Nat) : Dev := d.bump (R.macCnt (macBlk p) k) n

/-! ## Frames -/

/-- CRC-32 of IEEE 802.3, as the four FCS bytes in the order sent (PRESUMED from the standard R191 names, log 4). -/
def ethFcs (bs : List Byte) : List Byte :=
  leBytes 4 (crcVal { w := 32, poly := 0x04C11DB7, init := 0xFFFFFFFF, xorout := 0xFFFFFFFF, refin := true, refout := true } bs)

/-- The FCS at the end of a frame is right. -/
def fcsGood (bs : List Byte) : Bool := decide (4 ≤ bs.length) && decide (ethFcs (bs.take (bs.length - 4)) = bs.drop (bs.length - 4))

/-- Destination address. -/
def ethDst (f : List Byte) : Nat := be f 0 6
/-- A VLAN tag is present. -/
def ethTagged (f : List Byte) : Bool := be f 12 2 == 0x8100
/-- The tag control information. -/
def ethTci (f : List Byte) : Nat := be f 14 2
/-- The EtherType, after any tag. -/
def ethType (f : List Byte) : Nat := if ethTagged f then be f 16 2 else be f 12 2
/-- The payload, after any tag. -/
def ethPay (f : List Byte) : List Byte := f.drop (if ethTagged f then 18 else 14)
/-- The frame carries IPv4. -/
def isIp4 (f : List Byte) : Bool := ethType f == 0x0800
/-- The frame carries IPv6. -/
def isIp6 (f : List Byte) : Bool := ethType f == 0x86DD
/-- Length of an IPv4 header. -/
def ip4Len (ip : List Byte) : Nat := 4 * ((ip.getD 0 0).toNat % 16)

/-- The UDP datagram of a frame over IPv4 or IPv6: header and payload. -/
def udpOf (f : List Byte) : Option (List Byte) :=
  let ip := ethPay f
  if isIp4 f ∧ be ip 9 1 = 17 then some (ip.drop (ip4Len ip))
  else if isIp6 f ∧ be ip 6 1 = 17 then some (ip.drop 40)
  else none

/-- The PTP message of a frame: over Ethernet, or over UDP to port 319 or 320 (R182, R194). -/
def ptpOf (f : List Byte) : Option (List Byte) :=
  if ethType f = 0x88F7 then some (ethPay f)
  else match udpOf f with
    | some u => if be u 2 2 = 319 ∨ be u 2 2 = 320 then some (u.drop 8) else none
    | none => none

/-- A PTP event message: its sequenceId and messageType (R182). -/
def ptpEvent (f : List Byte) : Option (Nat × Nat) :=
  let ev := fun (m : List Byte) => if be m 0 1 % 16 ≤ 3 then some (be m 30 2, be m 0 1 % 16) else none
  if ethType f = 0x88F7 then ev (ethPay f)
  else match udpOf f with
    | some u => if be u 2 2 = 319 then ev (u.drop 8) else none
    | none => none

/-! ## Addresses and classes (R194, R195, R207) -/

/-- Broadcast. -/
def ethBcast : Nat := 0xFFFFFFFFFFFF
/-- The station address: the two words of a port's address registers. -/
def Dev.station (d : Dev) (p : Nat) : Nat := d.lv (R.macAddrhi (macBlk p)) % 65536 * 2 ^ 32 + d.lv (R.macAddrlo (macBlk p))
/-- A destination is the station address; an all-zero one accepts no unicast. -/
def Dev.toStation (d : Dev) (p da : Nat) : Bool := d.station p != 0 && da == d.station p
/-- A destination is in the multicast list. -/
def Dev.toMcast (d : Dev) (p da : Nat) : Bool :=
  (List.range 32).any (fun i =>
    let hi := d.lv (R.macMcasthi (macBlk p) i)
    bit hi 31 && (hi % 65536 * 2 ^ 32 + d.lv (R.macMcastlo (macBlk p) i)) == da)

/-- The host class of a frame, the first of R194 whose frames and addresses fit. -/
def Dev.hostClass (d : Dev) (p : Nat) (f : List Byte) : Option Nat :=
  let da := ethDst f
  let own := d.toStation p da || d.toMcast p da
  let et := ethType f
  let fits : Nat → Bool := fun k =>
    if k = 0 then (ptpOf f).isSome && (own || da == 0x011B19000000 || da == 0x0180C200000E)
    else if k = 1 then et == 0x0806 && (own || da == ethBcast)
    else if k = 2 then isIp4 f && (ptpOf f).isNone && own
    else if k = 3 then isIp6 f && (ptpOf f).isNone && own
    else if k = 4 then et == 0x88CC && (own || da == 0x0180C200000E)
    else true
  -- BCAST takes the broadcast frames that belong to no other class, whether that class is enabled or not
  let fits : Nat → Bool := fun k => if k = 5 then da == ethBcast && !(List.range 5).any fits else fits k
  if p = 3 then
    -- the array bus (R207)
    if d.toStation p da then some 7
    else if da = ethBcast ∨ d.toMcast p da then some 5
    else if bit (d.lv (R.macHostclass 13)) 6 then some 6
    else none
  else
    match (List.range 7).find? (fun k => bit (d.lv (R.macHostclass (macBlk p))) k && fits k) with
    | some k => some k
    | none => if p = 2 ∧ d.toStation p da then some 7 else none

/-! ## Host rings (R200, R201) -/

/-- A ring's base address. -/
def Dev.ringAt (d : Dev) (lo hi : Nat) : Nat := d.reg hi % 256 * 2 ^ 32 + d.reg lo
/-- A ring is usable: 16 to 4,096 entries, within the host-rings region. -/
def Dev.ringOk (d : Dev) (base size : Nat) : Bool :=
  decide (16 ≤ size ∧ size ≤ 4096 ∧ d.ringBase ≤ base ∧ base + 32 * size ≤ d.ringBase + ringSize)

/-- A descriptor read of the management or array-bus port by M8 that a force makes uncorrectable: the ring stops there (R401, R406). -/
def Dev.descForced (d : Dev) (p a : Nat) : Dev × Bool := if 2 ≤ p then d.dramForced 8 a else (d, false)

/-- A frame delivered to the port's receive ring, or dropped and counted (R201). -/
def Sys.rxDeliver (s0 : Sys) (p cls : Nat) (trunc : Bool) (f : List Byte) : Sys :=
  let b := macBlk p
  let base := s0.dev.ringAt (R.macRxbaselo b) (R.macRxbasehi b)
  let size := s0.dev.rf (R.macRxsize b) 0 13
  let head := s0.dev.rf (R.macRxhead b) 0 12
  let tail := s0.dev.rf (R.macRxtail b) 0 12
  let a := base + 32 * head
  let inUse := s0.dev.ringOk base size && head != tail
  let frc := if inUse then s0.dev.descForced p a else (s0.dev, false)
  let s : Sys := { s0 with dev := frc.1 }
  let d := s.dev
  let desc := s.mem.bytes a 32
  let own := bit (le desc 12 2) 0 && !frc.2
  let owned := inUse && own
  let stuck := inUse && !own
  if owned ∧ f.length ≤ le desc 8 2 then
    let ev := if p < 3 then ptpEvent f else none
    let st := d.stamp p true
    let flags := 2 * b2n trunc + 4 * b2n ev.isSome + 8 * b2n (ethTagged f) + 16 * cls
    let m1 := s.mem.putBytes (le desc 0 5) f
    let m2 := m1.putBytes (a + 10) (leBytes 2 f.length)
    let m3 := m2.putBytes (a + 12) (leBytes 2 flags ++ leBytes 1 p)
    let m4 := if ev.isSome then
        m3.putBytes (a + 16) (leBytes 8 (st / 2 ^ 32) ++ leBytes 2 (st / 2 ^ 16) ++ leBytes 1 (d.rf R.timeStat 4 2))
      else m3
    let d1 := (d.setReg (R.macRxhead b) ((head + 1) % size)).onMac p (fun x => { x with
      fresh := true
      stops := x.stops.filter (fun q => q != 4) })
    { s with mem := m4, dev := d1 }
  else
    let d1 := d.macCount p 11 1
    let d2 := if stuck && !(d.macP p).stops.contains 4 then
        -- of MACT the word is 0 (R209); of other ports the word that names the queue of a receive ring is not given: a free value
        let r := if p = 3 then (d1, 0) else (d1.draw.1, d1.draw.2.toNat)
        (r.1.onMac p (fun x => { x with stops := 4 :: x.stops })).raise b Src.macTxErr r.2 0xF head
      else d1
    let d3 := if !(d.macP p).fresh then d2
      else (d2.onMac p (fun x => { x with fresh := false })).raise b Src.macRxRingFull head tail 0
    { s with dev := d3 }

/-- A transmit descriptor completed with a status, and the ring's head moved on (R199, R200). -/
def Sys.txComplete (s : Sys) (p q status : Nat) : Sys :=
  let d := s.dev
  let b := macBlk p
  let size := d.rf (R.macTxsize b q) 0 13
  let head := d.rf (R.macTxhead b q) 0 12
  let a := d.ringAt (R.macTxbaselo b q) (R.macTxbasehi b q) + 32 * head
  let fl := le (s.mem.bytes a 32) 12 2
  let m1 := s.mem.putBytes (a + 12) (leBytes 2 (bitSet (fldSet fl 8 4 status) 0 false))
  let d1 := (d.setReg (R.macTxhead b q) ((head + 1) % size)).onMac p (fun x => { x with
    tries := 0
    stops := x.stops.filter (fun k => k != q) })
  let d2 := if status = 0 then d1 else (d1.macCount p 12 1).raise b Src.macTxErr (if p = 3 then 0 else q) status head
  { s with mem := m1, dev := d2 }

/-- The frame at the head of transmit ring `q`: its descriptor's address and bytes, if the ring holds one. -/
def Sys.txHead (s : Sys) (p q : Nat) : Option (Nat × List Byte) :=
  let d := s.dev
  let b := macBlk p
  let base := d.ringAt (R.macTxbaselo b q) (R.macTxbasehi b q)
  let size := d.rf (R.macTxsize b q) 0 13
  let head := d.rf (R.macTxhead b q) 0 12
  if d.ringOk base size ∧ head ≠ d.rf (R.macTxtail b q) 0 12 then some (base + 32 * head, s.mem.bytes (base + 32 * head) 32)
  else none

/-- The device owns the descriptor at the head of transmit ring `q`. -/
def Sys.txOwned (s : Sys) (p q : Nat) : Bool :=
  match s.txHead p q with
  | some h => bit (le h.2 12 2) 0
  | none => false

/-- A transmit ring that stops at a descriptor whose OWN is 0: RING_ERR, once for each stop (R200). -/
def Sys.txStop (p q : Nat) (s : Sys) : Sys :=
  if (s.txHead p q).isNone || s.txOwned p q || (s.dev.macP p).stops.contains q then s
  else s.onDev (fun d => (d.onMac p (fun x => { x with stops := q :: x.stops })).raise (macBlk p) Src.macTxErr
    (if p = 3 then 0 else q) 0xF (d.rf (R.macTxhead (macBlk p) q) 0 12))

/-- The transmit rings of a port. -/
def txRings (p : Nat) : List Nat := List.range (if p = 3 then 1 else 4)

/-- The frame a descriptor names. -/
def Sys.txFrame (s : Sys) (desc : List Byte) : List Byte := s.mem.bytes (le desc 0 5) (le desc 8 2)

/-- The priority of a host frame (R198): the queue that PCPMAP names for its PCP, or for untagged frames. -/
def Dev.txPrio (d : Dev) (p : Nat) (f : List Byte) : Nat :=
  let m := d.reg (R.macPcpmap (macBlk p))
  if ethTagged f then fld m (2 * (ethTci f / 8192)) 2 else fld m 16 2

/-- The ring whose head frame goes next, among those that have not stopped: strict priority, queue 3 first (R198). -/
def Sys.txNext (s : Sys) (p : Nat) : Option Nat :=
  let rings := (txRings p).filter (fun q => s.txOwned p q)
  let key := fun (q : Nat) => match s.txHead p q with
    | some h => 4 * (3 - (if p = 3 then 0 else s.dev.txPrio p (s.txFrame h.2))) + (3 - q)
    | none => 16
  (sortBy key rings).head?

/-- A frame starts on the line, padded to 60 bytes, with its FCS (R199). -/
def Dev.ethSend (d : Dev) (p : Nat) (f : List Byte) : Dev :=
  let g := f ++ List.replicate (60 - f.length) 0
  let w := g ++ ethFcs g
  let d1 := (d.macCount p 2 1).macCount p 3 w.length
  { d1 with out := { d1.out with eth := d1.out.eth ++ [(p, w)] } }

/-- The port is enabled. -/
def Dev.macEn (d : Dev) (p : Nat) : Bool := d.lf (R.macCtrl (macBlk p)) 0 1 == 1
/-- The port's link is up. -/
def Dev.macLink (d : Dev) (p : Nat) : Bool := d.rf (R.macStat (macBlk p)) 0 1 == 1
/-- The pause timer runs. -/
def Dev.macPaused (d : Dev) (p : Nat) : Bool := d.rf (R.macStat (macBlk p)) 3 1 == 1
/-- The greatest frame length. -/
def Dev.macMaxlen (d : Dev) (p : Nat) : Nat := d.lf (R.macMaxlen (macBlk p)) 0 14

/-! ### The array bus (R205, R206) -/

/-- NODEID of PLCACFG. -/
def Dev.nodeId (d : Dev) : Nat := d.lf R.mactPlcacfg 0 8
/-- PLCA runs (R205). -/
def Dev.plcaOn (d : Dev) : Bool := d.macEn 3 && d.lf (R.macMode 13) 0 1 == 1 && d.nodeId != 255
/-- PLCA status is good (R205). -/
def Dev.plcaGood (d : Dev) : Bool := d.rf R.mactPlcastat 0 1 == 1
/-- A change of the reconciliation sublayer's state. -/
def Dev.onBus (d : Dev) (f : ArrayBus → ArrayBus) : Dev := { d with bus := f d.bus }

/-- Cycles that `n` bit times of the array bus last, rounded up: one bit time is 98.304 cycles. -/
def busBits (n : Nat) : Nat := (n * 98304 + 999) / 1000
/-- Bit times of a frame of `n` bytes on the line with its preamble. -/
def frameBits (n : Nat) : Nat := 8 * (n + 8)

/-- A frame may start on the array bus.  Under PLCA it starts in the node's transmit opportunity, at the earliest NODEID × TOTMR bit
times after the BEACON, or as one of MAXBC more within BURSTTMR of the one before; under CSMA/CD while the bus is idle and
no backoff runs (R205, R206; the opportunity after Clause 148 of IEEE 802.3: PRESUMED, log 121). -/
def Dev.busMaySend (d : Dev) : Bool :=
  let x := d.bus
  if d.plcaOn && d.plcaGood then
    if x.used = 0 then decide (x.beacon + busBits (d.nodeId * d.lf R.mactPlcacfg 16 8) ≤ d.instant)
    else decide (x.used ≤ d.lf R.mactPlcacfg 24 8 ∧ d.instant ≤ x.endAt + busBits (d.lf R.mactPlcaburst 0 8))
  else !(d.macP 3).line && decide (x.backoff ≤ d.instant)

/-- A frame of `n` bytes passes on the array bus: the coordinator's cycle grows by it (log 121). -/
def Dev.busPasses (d : Dev) (n : Nat) : Dev :=
  if d.plcaOn && d.nodeId == 0 then d.onBus (fun x => { x with beacon := x.beacon + busBits (frameBits n) }) else d

/-- A frame of `n` bytes starts from this node. -/
def Dev.busSent (d : Dev) (n : Nat) : Dev :=
  (d.busPasses n).onBus (fun x => { x with
    used := x.used + 1
    endAt := d.instant + busBits (frameBits n)
    backoff := 0 })

/-- The line of port `p` can take a host frame: no obeyed PAUSE, no stream packet that goes first, the turn on the array bus (R196, R198,
R205, R206). -/
def Dev.lineFree (d : Dev) (p : Nat) : Bool :=
  !d.macPaused p && (p != 3 || d.busMaySend) && (decide (2 ≤ p) || (d.strm.queue.getD p []).isEmpty)

/-- Host frames of port `p` find its link down; the array bus has none, and sends by CSMA/CD without PLCA (R199, R205). -/
def Dev.hostLinkDown (d : Dev) (p : Nat) : Bool := p != 3 && !d.macLink p

/-- The frame that a descriptor names starts on the line (R199; R182, R186 for its stamp). -/
def Sys.hostSend (s : Sys) (p q : Nat) (desc : List Byte) : Sys :=
  let f := s.txFrame desc
  let s1 := s.onDev (fun d => if p = 3 then (d.ethSend p f).busSent (max 64 (f.length + 4)) else d.ethSend p f)
  let s2 := if p < 3 ∧ bit (le desc 12 2) 1 then s1.onDev (fun d => d.tsqPush p (le desc 10 2) (ptpEvent f)) else s1
  s2.txComplete p q 0

/-- The host frame whose turn it is on port `p` is sent, or completed with a status (R198 to R200). -/
def Sys.hostTransmit (p c : Nat) (s0 : Sys) : Sys :=
  let sA := s0.onDev (fun d => d.atC c)
  if 3 < p ∨ !sA.dev.macEn p then sA
  else
    let s := each (txRings p) (fun q s => s.txStop p q) sA
    let d := s.dev
    match s.txNext p with
    | none => s
    | some q =>
      match s.txHead p q with
      | none => s
      | some (a, desc) =>
        let frc := s.dev.descForced p a
        if frc.2 then
          let d1 := frc.1.raise (macBlk p) Src.macTxErr (if p = 3 then 0 else q) 0xF (d.rf (R.macTxhead (macBlk p) q) 0 12)
          { s with dev := d1 }
        else if d.macMaxlen p < le desc 8 2 + 4 then s.txComplete p q 1
        else if d.hostLinkDown p then s.txComplete p q 2
        else if !d.lineFree p then s
        else s.hostSend p q desc

/-! ## PAUSE (R196, R197) -/

/-- Bits per second of a port. -/
def Dev.macRate (d : Dev) (p : Nat) : Nat :=
  if p = 3 then 10000000
  else if p = 2 then (let sp := d.rf (R.macStat 12) 4 2; if sp = 0 then 10000000 else if sp = 1 then 100000000 else 1000000000)
  else (let r := d.lf (R.macMode (macBlk p)) 0 3; if r = 0 then 10000000000 else if r = 1 then 2500000000 else 1000000000)

/-- CMD's datagrams leave by the management port; a pause holds them, and without a link they are lost (R196, R327). -/
def Dev.replyFlush (d : Dev) : Dev :=
  if d.cmd.frames.isEmpty || (d.macEn 2 && d.macLink 2 && d.macPaused 2) then d
  else
    let d1 : Dev := { d with cmd := { d.cmd with frames := [] } }
    if d.macEn 2 && d.macLink 2 then each d.cmd.frames (fun f d => d.ethSend 2 f) d1 else d1

/-- A PAUSE frame with `quanta` (R196). -/
def Dev.macPause (d : Dev) (p quanta : Nat) : Dev :=
  let d1 := (d.macCount p 9 1)
  if d.lf (R.macCtrl (macBlk p)) 1 1 = 1 then
    let d2 := if p = 3 then d1 else d1.raise (macBlk p) Src.macPauseRx quanta 0 0
    ((d2.setFld (R.macStat (macBlk p)) 3 1 (if quanta = 0 then 0 else 1)).onMac p (fun x => { x with
      pauseAt := d.instant
      pauseQ := quanta })).replyFlush
  else d1

/-- The pause timer has run out: 512 bit times for each quantum, one bit lasting 983,040,000 / rate cycles (R196). -/
def Dev.pauseOver (d : Dev) (p : Nat) : Bool :=
  let x := d.macP p
  decide (x.pauseQ * 512 * 983040000 ≤ (d.instant - x.pauseAt) * d.macRate p)

/-- The pause timer ends (R196). -/
def Dev.pauseExpire (p c : Nat) (d0 : Dev) : Dev :=
  let d := d0.atC c
  if p ≤ 3 ∧ d.macPaused p ∧ d.pauseOver p then (d.setFld (R.macStat (macBlk p)) 3 1 0).replyFlush else d

/-- A MAC Control frame is consumed (R196, R197). -/
def Dev.macControl (d : Dev) (p : Nat) (f : List Byte) : Dev :=
  let pl := ethPay f
  if be pl 0 2 = 1 ∧ (ethDst f = 0x0180C2000001 ∨ d.toStation p (ethDst f)) then d.macPause p (be pl 2 2)
  else d.macCount p 10 1

/-- A stranger: dropped, counted and latched (R193). -/
def Dev.stranger (d : Dev) (p : Nat) (f : List Byte) : Dev :=
  let b := macBlk p
  let d1 := ((d.macCount p 8 1).setReg (R.macStrcap0 b) (ethDst f % 2 ^ 32)).setReg (R.macStrcap1 b)
    (ethType f * 65536 + ethDst f / 2 ^ 32)
  d1.raise b Src.macStranger (d1.reg (R.macStrcap0 b)) (d1.reg (R.macStrcap1 b)) 0

/-! ## Receive (R191) -/

/-- The treatment of a received frame by length and FCS: the device after its counters, and the frame without FCS for
classification with its TRUNC mark (R191). -/
def Dev.rxFilter (d : Dev) (p : Nat) (bs : List Byte) : Dev × Option (List Byte × Bool) :=
  let n := bs.length
  let good := fcsGood bs
  let mx := d.macMaxlen p
  if n < 64 then
    ((d.macCount p (if good then 4 else 5) 1).raise (macBlk p) Src.macRuntFrag n (b2n good) 0, none)
  else if !good then (d.macCount p 6 1, none)
  else if n ≤ mx then ((d.macCount p 0 1).macCount p 1 n, some (bs.take (n - 4), false))
  else (d.macCount p 7 1, some (bs.take (mx - 4), true))

/-- A port takes frames from its line: enabled, and its link up; the array bus has a link while a frame arrives. -/
def Dev.rxReady (d : Dev) (p : Nat) : Bool := d.macEn p && (d.macLink p || p == 3)

/-- A PAUSE frame of 64 bytes to 01-80-C2-00-00-01 arrives (R191, R196). -/
def Dev.pauseFrame (p quanta c : Nat) (d0 : Dev) : Dev :=
  let d := d0.atC c
  if p ≤ 3 ∧ d.rxReady p then ((d.macCount p 0 1).macCount p 1 64).macPause p quanta else d

/-! ## Links (R203, R204, R208) -/

/-- LINK goes down: counted, and logged with whether it was forced. -/
def Dev.linkLost (d : Dev) (p forced : Nat) : Dev :=
  let d1 := (d.setFld (R.macStat (macBlk p)) 0 1 0).macCount p 15 1
  if p = 3 then d1 else d1.raiseF (macBlk p) Src.macLinkDown (forced == 1) forced d.tickLo 0

/-- LINK comes up. -/
def Dev.linkMade (d : Dev) (p : Nat) : Dev :=
  let d1 := d.setFld (R.macStat (macBlk p)) 0 1 1
  if p = 3 then d1 else d1.raise (macBlk p) Src.macLinkUp (d.lf (R.macMode (macBlk p)) 0 3) d.tickLo 0

/-- Negotiation is done with `an` on port `p`: SGMII in-band status on the management port, Clause 37 auto-negotiation on an audio port in
1000BASE-X with AN set, none else (R189). -/
def Dev.anDone (d : Dev) (p : Nat) (an : Bool) : Bool :=
  an && (p == 2 || (d.lf (R.macMode (macBlk p)) 0 3 == 2 && d.lf (R.macMode (macBlk p)) 4 1 == 1))

/-- The line of port `p` is lost; on the array bus, activity ends. -/
def Dev.linkDown (p c : Nat) (d0 : Dev) : Dev :=
  let d := (d0.atC c)
  if 3 < p then d
  else
    let d1 := d.onMac p (fun x => { x with line := false })
    let d2 := if p = 3 then d1 else (d1.setFld (R.macStat (macBlk p)) 1 2 0)
    if d.macLink p && !(p == 3 && d.plcaGood) then d2.linkLost p 0 else d2

/-- The line of port `p` comes up, at SGMII speed `speed` on the management port (R189); a forced port's link stays down
(R203). -/
def Dev.linkUp (p speed : Nat) (an : Bool) (c : Nat) (d0 : Dev) : Dev :=
  let d := (d0.atC c)
  if 3 < p then d
  else
    let d1 := d.onMac p (fun x => { x with line := true })
    let d2 := if p = 3 then d1 else (d1.setFld (R.macStat (macBlk p)) 1 1 1).setFld (R.macStat (macBlk p)) 2 1 (b2n (d.anDone p an))
    let d3 := if p = 2 then d2.setFld (R.macStat 12) 4 2 (min 2 speed) else d2
    if d.macLink p || (p < 2 && d.rf (R.macStat (macBlk p)) 6 1 == 1) then d3 else d3.linkMade p

/-- At a boundary: the link-down force of the audio ports (R203). -/
def Dev.macForceAt (d : Dev) (p : Nat) : Dev :=
  let b := macBlk p
  let f := d.lf (R.macForce b) 0 1
  if f = d.rf (R.macStat b) 6 1 then d
  else
    let d1 := d.setFld (R.macStat b) 6 1 f
    if f = 1 then (if d.macLink p then d1.linkLost p 1 else d1)
    else if (d.macP p).line then d1.linkMade p else d1

/-- Clause 74 FEC runs on a port: an audio port in 10GBASE-R with MODE.FEC set (R189). -/
def Dev.fecOn (d : Dev) (p : Nat) : Bool :=
  decide (p < 2) && d.lf (R.macMode (macBlk p)) 0 3 == 0 && d.lf (R.macMode (macBlk p)) 3 1 == 1

/-- At a boundary: the force, and the FEC counts of the tick that ended, by port corrected and uncorrected blocks; at each
whole second FEC_UNCORR of the blocks of that second (R208). -/
def Dev.macBoundary (d : Dev) (fec : List (Nat × Nat × Nat)) : Dev :=
  let d1 := each fec (fun x d =>
    if d.fecOn x.1 then ((d.macCount x.1 13 x.2.1).macCount x.1 14 x.2.2).onMac x.1 (fun y => { y with fecSec := y.fecSec + x.2.2 })
    else d) d
  let d2 := if d1.tick % 96000 = 0 then
      each [0, 1] (fun p d =>
        let n := (d.macP p).fecSec
        if n = 0 then d else (d.onMac p (fun y => { y with fecSec := 0 })).raise (macBlk p) Src.macFecUncorr n 0 0) d1
    else d1
  (d2.macForceAt 0).macForceAt 1

/-! ## MDIO (R190) -/

/-- MDIOCMD.GO starts a transaction, ignored while one is in flight. -/
def Dev.mdioGo (d : Dev) : Dev :=
  if d.rf (R.macMdiodata 12) 31 1 = 1 then d
  else
    let w := d.reg (R.macMdiocmd 12)
    let op := fld w 28 2
    let rd := if bit w 30 then op == 3 else op == 2
    let d1 := d.setFld (R.macMdiodata 12) 31 1 1
    { d1 with mdioRd := rd, out := { d1.out with mdio := d1.out.mdio ++ [w] } }

/-- A transaction completes; `data` is what the PHY answered to a read. -/
def Dev.mdioDone (data c : Nat) (d0 : Dev) : Dev :=
  let d := d0.atC c
  if d.rf (R.macMdiodata 12) 31 1 = 1 then
    let d1 := d.setFld (R.macMdiodata 12) 31 1 0
    if d.mdioRd then d1.setFld (R.macMdiodata 12) 0 16 data else d1
  else d

/-! ## The array bus (R205, R206) -/

/-- A BEACON is received (R205); it begins the node's next transmit opportunity. -/
def Dev.plcaBeacon (c : Nat) (d0 : Dev) : Dev :=
  let d := d0.atC c
  if !d.plcaOn then d
  else if d.nodeId = 0 then (d.macCount 3 22 1).raise Blk.mact Src.mactForeignCoord d.tickLo 0 0
  else
    let d1 := d.onBus (fun x => { x with
      beacon := d.instant
      used := 0 })
    if d.plcaGood then d1
    else ((d1.setFld R.mactPlcastat 0 1 1).setFld (R.macStat 13) 0 1 1).raise Blk.mact Src.mactPlcaUp d.nodeId d.tickLo 0

/-- No valid BEACON for 4,000 bit times (R205). -/
def Dev.plcaLost (c : Nat) (d0 : Dev) : Dev :=
  let d := d0.atC c
  if !d.plcaOn || !d.plcaGood || d.nodeId == 0 || decide (d.instant < d.bus.beacon + busBits 4000) then d
  else
    let d1 := (d.setFld R.mactPlcastat 0 1 0).macCount 3 20 1
    let d2 := if (d.macP 3).line then d1 else d1.linkLost 3 0
    d2.raise Blk.mact Src.mactPlcaLost d.nodeId d.tickLo 0

/-- The coordinator's BEACONs of the tick that ended: the first as it begins, then one for each cycle of a BEACON of 20 bit times and NODECNT
opportunities of TOTMR bit times (Clause 148 of IEEE 802.3: PRESUMED, log 121). -/
def Dev.beaconSend (d : Dev) (first : Bool) : Dev :=
  let period := busBits (20 + max 1 (d.lf R.mactPlcacfg 8 8) * d.lf R.mactPlcacfg 16 8)
  let k := (d.instant - d.bus.beacon) / period
  d.onBus (fun x =>
    if first then { x with beacon := d.instant, used := 0, beacons := x.beacons + 1 }
    else { x with
      beacon := x.beacon + k * period
      used := if k = 0 then x.used else 0
      beacons := x.beacons + k })

/-- At a boundary: the coordinator's status and its BEACONs.  A coordinator makes its own beacons, so its PLCA status is good; an
inactive sublayer has none (R205). -/
def Dev.plcaBoundary (d : Dev) : Dev :=
  let coord := d.plcaOn && d.nodeId == 0
  let d1 := d.setFld R.mactPlcastat 1 1 (b2n coord)
  if coord then ((d1.setFld R.mactPlcastat 0 1 1).setFld (R.macStat 13) 0 1 1).beaconSend (d.rf R.mactPlcastat 1 1 == 0)
  else if d.plcaOn then d1
  else (d1.setFld R.mactPlcastat 0 1 0).setFld (R.macStat 13) 0 1 (b2n (d.macP 3).line)

/-- The wait after collision `n` of a frame: a random number of slot times of 512 bits, below 2^min(n, 10) (truncated binary exponential
backoff); the random number is a free value. -/
def Dev.backoffStart (d : Dev) (n : Nat) : Dev :=
  let r := d.draw
  r.1.onBus (fun x => { x with backoff := d.instant + busBits (512 * (r.2.toNat % 2 ^ min n 10)) })

/-- A collision of the frame at the head of the array bus's ring, after `bytes` of it (R206). -/
def Sys.collision (bytes c : Nat) (s0 : Sys) : Sys :=
  let s := s0.onDev (fun d => d.atC c)
  if !s.dev.macEn 3 || !s.txOwned 3 0 then s
  else
    let s1 := s.onDev (fun d => (d.macCount 3 17 1).onMac 3 (fun x => { x with tries := x.tries + 1 }))
    if 64 < bytes then
      let s2 := s1.onDev (fun d => (d.macCount 3 18 1).raise Blk.mact Src.mactLateColl (d.rf (R.macTxhead 13 0) 0 12) 0 0)
      s2.txComplete 3 0 4
    else if 16 ≤ (s1.dev.macP 3).tries then (s1.onDev (fun d => d.macCount 3 19 1)).txComplete 3 0 3
    else s1.onDev (fun d => d.backoffStart (d.macP 3).tries)

end Sys2Proof.Machine
end

