-- ==== Sys2Proof/Machine/Strm.lean ====
section
/-!
DEFINITION. Network audio streams (R210 to R234): the stream filter and the checks of a packet, holding, the cutoff, release
and concealment, re-anchoring, ST 2022-7 legs, and the transmit contexts with the stream queue of each port.
-/
namespace Sys2Proof.Machine

/-! ## Contexts and their fields (R210 to R212) -/

/-- Receive context `c`. -/
def Dev.rxC (d : Dev) (c : Nat) : RxCtx := d.strm.rx.getD c {}
/-- A change of it. -/
def Dev.onRx (d : Dev) (c : Nat) (f : RxCtx → RxCtx) : Dev := { d with strm := { d.strm with rx := updAt d.strm.rx c f } }
/-- Transmit context `c`. -/
def Dev.txC (d : Dev) (c : Nat) : TxCtx := d.strm.tx.getD c {}
/-- A change of it. -/
def Dev.onTx (d : Dev) (c : Nat) (f : TxCtx → TxCtx) : Dev := { d with strm := { d.strm with tx := updAt d.strm.tx c f } }

/-- Width in bytes of a format; 3 acts as 2 (R211). -/
def fmtWidth (f : Nat) : Nat := if f = 0 then 2 else if f = 1 then 3 else 4
/-- Samples per packet at 48 kHz; 5 to 7 act as 0 (R211). -/
def ptimeSpp (p : Nat) : Nat := if p = 1 then 12 else if p = 2 then 16 else if p = 3 then 48 else if p = 4 then 192 else 6

/-- CH of a receive context. -/
def Dev.rxCh (d : Dev) (c : Nat) : Nat := clampN 1 64 (d.lf (R.strmRxctl c) 0 7)
/-- A receive context at 96 kHz. -/
def Dev.rx96 (d : Dev) (c : Nat) : Bool := d.lf (R.strmRxctl c) 19 1 == 1
/-- r of R217. -/
def Dev.rxR (d : Dev) (c : Nat) : Nat := if d.rx96 c then 1 else 2
/-- Width of a sample. -/
def Dev.rxWidth (d : Dev) (c : Nat) : Nat := fmtWidth (d.lf (R.strmRxctl c) 20 2)
/-- SPP at the context's rate. -/
def Dev.rxSpp (d : Dev) (c : Nat) : Nat := ptimeSpp (d.lf (R.strmRxctl c) 16 3) * (if d.rx96 c then 2 else 1)
/-- A receive context is enabled. -/
def Dev.rxEn (d : Dev) (c : Nat) : Bool := d.lf (R.strmRxctl c) 31 1 == 1
/-- F of R219. -/
def Dev.rxF (d : Dev) (c : Nat) : Nat := 2 ^ (3 + min 5 (d.lf (R.strmRxbuf c) 12 3))
/-- B as the register holds it in use. -/
def Dev.rxB (d : Dev) (c : Nat) : Nat := d.lf (R.strmRxbuf c) 0 9
/-- The region key. -/
def Dev.rxKey (d : Dev) (c : Nat) : Nat := d.lv (R.strmRxrkeylo c) + 2 ^ 32 * d.lv (R.strmRxrkeyhi c)
/-- The context's part of the budget (R210). -/
def Dev.rxCost (d : Dev) (c : Nat) : Nat := d.rxCh c * (if d.rx96 c then 2 else 1)
/-- The context releases in the present tick (R216). -/
def Dev.rxDue (d : Dev) (c : Nat) : Bool := (d.rxC c).on && (d.rx96 c || d.engTick % 2 == 1)

/-- A status field of a receive context. -/
def Dev.rxStat (d : Dev) (c lo w x : Nat) : Dev := d.setFld (R.strmRxstat c) lo w x
/-- A counter of a receive context. -/
def Dev.rxCnt (d : Dev) (c k n : Nat) : Dev := if n = 0 then d else d.bump (R.strmRxcnt c k) n
/-- RXSTAT.STATE follows the context (R210, R215, R219, R223). -/
def Dev.rxState (d : Dev) (c : Nat) : Dev :=
  let x := d.rxC c
  let st := if x.nocap then 6 else if !x.on then 0 else if x.noreg ≠ 0 then 5 else if x.fade.isSome then 4
    else if !x.begun then 1 else if x.q = d.rxF c then 2 else 3
  d.rxStat c 0 3 st

/-! ## Media time (R217, R218) -/

/-- u of the tick `t`, by the map in use and the anchor `dA`. -/
def Dev.rxU (d : Dev) (c t : Nat) : Int :=
  let x := d.rxC c
  ((t : Int) - x.b + 1 + d.time.useD - x.dA) / (d.rxR c : Int)

/-- The RTP timestamp of media index `u`. -/
def Dev.rxTs (d : Dev) (c : Nat) (u : Int) : Nat := wrapN 32 (u + d.lv (R.strmRxrtpoff c))

/-- A packet holds timestamp `ts`: its sample period, or none. -/
def RxPkt.has (p : RxPkt) (ts spp : Nat) : Bool := decide ((ts + 2 ^ 32 - p.ts) % 2 ^ 32 < spp)

/-- The first release tick of a packet with timestamp `ts` that arrives in tick `n` (R218); a 48 kHz context releases in odd
ticks. -/
def Dev.rxT0 (d : Dev) (c ts n : Nat) : Int :=
  let x := d.rxC c
  let un := d.rxU c n
  let u0 := un + sgn 32 (ts + 2 ^ 32 - d.rxTs c un)
  let k0 := (d.rxR c : Int) * u0 - d.time.useD + x.dA
  let t0 := k0 + x.b - 1
  if d.rx96 c ∨ t0 % 2 = 1 then t0 else t0 + 1

/-! ## The filter and the checks (R213, R214) -/

/-- A frame matches filter entry `e` (R213). -/
def Dev.filterHit (d : Dev) (p : Nat) (f : List Byte) (e : Nat) : Bool :=
  let w := d.lv (R.strmFctl e)
  let ip := ethPay f
  let dst := d.lv (R.strmFdstip e)
  let da := ethDst f
  let vm := fld w 26 2
  bit w 31 && bit w (29 + p) && isIp4 f && be ip 9 1 == 17 && be ip 16 4 == dst &&
    be (ip.drop (ip4Len ip)) 2 2 == d.lf (R.strmFport e) 0 16 &&
    (d.toStation p da || da == 0x01005E000000 + dst % 2 ^ 23) &&
    (vm == 0 || vm == 3 || (vm == 1 && !ethTagged f) || (vm == 2 && ethTagged f && ethTci f % 4096 == fld w 12 12)) &&
    (!bit w 28 || be ip 12 4 == d.lv (R.strmFsrcip e))

/-- The lowest entry that a frame matches. -/
def Dev.filterOf (d : Dev) (p : Nat) (f : List Byte) : Option Nat := (List.range 512).find? (d.filterHit p f)

/-- The one's complement sum of 16-bit words. -/
def onesSum : List Byte → Nat → Nat
  | a :: b :: t, acc => onesSum t (let s := acc + a.toNat * 256 + b.toNat; s % 65536 + s / 65536)
  | [a], acc => (let s := acc + a.toNat * 256; s % 65536 + s / 65536)
  | [], acc => acc

/-- The IPv4 header check of R214. -/
def ip4Good (ip : List Byte) : Bool :=
  be ip 0 1 / 16 == 4 && onesSum (ip.take (ip4Len ip)) 0 == 0xFFFF && be ip 6 2 % 0x4000 == 0

/-- The UDP check of R214. -/
def udpGood (ip : List Byte) : Bool :=
  let n := be ip 2 2 - ip4Len ip
  let u := slice ip (ip4Len ip) n
  be u 4 2 == n && (be u 6 2 == 0 || onesSum (slice ip 12 8 ++ [0, 17] ++ beBytes 2 n ++ u) 0 == 0xFFFF)

/-- An RTP packet: header fields and the payload without extension and padding; none fails the RTP check of R214. -/
def rtpOf (u : List Byte) : Option (Nat × Nat × Nat × Nat × List Byte) :=
  let b0 := be u 0 1
  let ext := if bit b0 4 then 4 + 4 * be u 14 2 else 0
  let pad := if bit b0 5 then (u.getLast?.getD 0).toNat else 0
  if u.length < 12 ∨ b0 / 64 ≠ 2 ∨ b0 % 16 ≠ 0 ∨ (bit b0 4 ∧ u.length < 16) ∨ u.length < 12 + ext + pad then none
  else some (be u 1 1 % 128, be u 2 2, be u 4 4, be u 8 4, slice u (12 + ext) (u.length - 12 - ext - pad))

/-- Bytes of packets that STRM holds. -/
def Dev.heldBytes (d : Dev) : Nat :=
  sumN (d.strm.rx.map (fun x => sumN (x.pkts.map (fun p => p.pay.length)))) + sumN (d.strm.inbox.map (fun p => p.2.pay.length))

/-- The packet buffer and the spill area (R218, R402). -/
def holdRoom : Nat := 0x100000 + 0x2000000

/-- The arrival of a packet on a leg: up again if it was marked down (R227). -/
def Dev.legIn (d : Dev) (c leg : Nat) : Dev :=
  let d1 := (d.onRx c (fun x => { x with
    legT := updAt x.legT leg (fun _ => d.instant)
    legDn := updAt x.legDn leg (fun _ => false) })).rxStat c (4 + leg) 1 1
  if (d.rxC c).legDn.getD leg false then d1.raise Blk.strm Src.strmRxLegup c leg 0 else d1

/-- RXSKEW, for the latest packet received on both legs (R227). -/
def Dev.skewIn (d : Dev) (c leg seq : Nat) : Dev :=
  let x := d.rxC c
  let d1 := d.onRx c (fun x => { x with arrs := ((seq, leg, d.instant) :: x.arrs).take 1024 })
  match x.arrs.find? (fun a => a.1 == seq && a.2.1 != leg) with
  | some a =>
    let diff : Int := if leg = 1 then (d.instant : Int) - a.2.2 else (a.2.2 : Int) - d.instant
    d1.setReg (R.strmRxskew c) (wrapN 16 (shrI diff 6))
  | none => d1

/-- A unit whose dA the lease holder decides (R226). -/
def Dev.rxFollows (d : Dev) : Bool := d.paired && (d.role == .shadow || d.role == .catchup)

/-- The margin of an on-time packet enters the window's minimum (R224); the status of a unit that follows the lease holder is the holder's
(R226). -/
def Dev.marginIn (d : Dev) (c : Nat) (t0 : Int) : Dev :=
  let m : Int := t0 * 10240 + 2048 - d.instant
  if m < 0 then d
  else
    let n := match (d.rxC c).win with
      | some w => min w m.toNat
      | none => m.toNat
    let d1 := d.onRx c (fun x => { x with win := some n })
    if d.rxFollows then d1 else d1.setFld (R.strmRxmargin c) 0 16 (min 65535 (n / 64))

/-- The fate under R218 of a packet of `n` bytes that has passed R214, `held` being the packets its context holds: dropped and counted, or to
be held. -/
def Dev.rxAdmit (d : Dev) (c seq ts n : Nat) (held : List RxPkt) : Dev × Bool :=
  if (d.tick : Int) + 768 < d.rxT0 c ts d.tick then (d.bump (R.strmCnt 8) 1, false)
  else match held.find? (fun p => p.seq == seq) with
    | some p =>
      if p.ts = ts then (d.rxCnt c 4 1, false)
      else ((d.bump (R.strmCnt 9) 1).raise Blk.strm Src.strmSeqMismatch c seq ts, false)
    | none =>
      if (d.rxC c).rel.contains seq then (d.rxCnt c 4 1, false)
      else if holdRoom < d.heldBytes + n then ((d.bump (R.strmCnt 7) 1).raise Blk.strm Src.strmBufFull c seq 0, false)
      else (d, true)

/-- A packet that has passed R214 is held, or dropped, under R218. -/
def Dev.rxHold (d : Dev) (c leg seq ts : Nat) (pay : List Byte) : Dev :=
  let d0 := (d.legIn c leg).skewIn c leg seq
  let r := d0.rxAdmit c seq ts pay.length (d0.rxC c).pkts
  if !r.2 then r.1
  else
    let t0 := r.1.rxT0 c ts r.1.tick
    let pk : RxPkt := { seq := seq, ts := ts, arr := d0.instant, t0 := t0, pay := pay, spill := decide (0x100000 < d0.heldBytes + pay.length) }
    (r.1.marginIn c t0).onRx c (fun x => { x with pkts := x.pkts ++ [pk] })

/-- A CATCHUP unit whose contexts belong to its replay keeps the packet for the presence exchange, under the same checks (R218, R306,
R318). -/
def Dev.inboxHold (d : Dev) (c leg seq ts : Nat) (pay : List Byte) : Dev :=
  let d0 := (d.legIn c leg).skewIn c leg seq
  let r := d0.rxAdmit c seq ts pay.length ((d0.strm.inbox.filter (fun q => q.1 == c)).map (·.2))
  if !r.2 then r.1
  else { r.1 with strm := { r.1.strm with
      inbox := r.1.strm.inbox ++ [(c, { seq := seq, ts := ts, arr := d0.instant, t0 := 0, pay := pay })] } }

/-- A stream frame of filter entry `e` from port `p` (R214). -/
def Dev.streamFrame (d0 : Dev) (p e : Nat) (f : List Byte) (trunc : Bool) : Dev :=
  let c := d0.lf (R.strmFctl e) 0 8
  let ip := ethPay f
  let fail := fun k => d0.bump (R.strmCnt k) 1
  let w := d0.lv (R.strmRxctl c)
  if trunc then fail 1
  else if !ip4Good ip then fail 2
  else if !udpGood ip then fail 3
  else
    let n := be ip 2 2 - ip4Len ip
    match rtpOf ((slice ip (ip4Len ip) n).drop 8) with
    | none => fail 4
    | some (pt, seq, ts, ssrc, pay) =>
      let catchup := d0.paired && d0.role == .catchup && !d0.lockstep
      if !d0.rxEn c || (d0.rxC c).nocap then fail 6
      else if (bit w 29 ∧ pt ≠ fld w 22 7) ∨ (bit w 30 ∧ ssrc ≠ d0.lv (R.strmRxssrc c)) ∨
          pay.length ≠ d0.rxCh c * d0.rxSpp c * d0.rxWidth c then fail 5
      else
        let d1 := (d0.bump (R.strmCnt 0) 1).rxCnt c p 1
        if catchup then d1.inboxHold c p seq ts pay
        else if (d1.rxC c).on then d1.rxHold c p seq ts pay
        else d1

/-! ## The boundary: enable, capacity, map changes (R210, R221, R225) -/

/-- A context's service ends. -/
def Dev.rxOff (d : Dev) (c : Nat) : Dev :=
  if (d.rxC c).on || (d.rxC c).nocap then (((d.onRx c (fun _ => {})).setReg (R.strmRxanchor c) 0).rxStat c 4 2 0).rxState c else d

/-- The budget in use. -/
def Dev.rxUsed (d : Dev) : Nat := sumN ((List.range 256).map (fun c => if (d.rxC c).on then d.rxCost c else 0))

/-- Receive context `c`, enabled, at a boundary. -/
def Dev.rxAt (d : Dev) (c : Nat) : Dev :=
  let x := d.rxC c
  if !d.rxEn c then d
  else if !x.on then
    if d.rxUsed + d.rxCost c ≤ 2048 then
      (d.onRx c (fun _ => {
        on := true
        b := d.rxB c
        h := List.replicate (d.rxCh c) 0
        legT := [d.instant, d.instant] })).rxState c
    else if x.nocap then d
    else ((d.onRx c (fun x => { x with nocap := true })).rxState c).raise Blk.strm Src.strmRxCapacity c (d.rxCost c) d.rxUsed
  else
    let raiseRe := fun (cause nd : Nat) (d : Dev) => (d.rxStat c 7 1 1).raise Blk.strm Src.strmRxReanchor c cause nd
    let d1 := if d.time.useDisc ≠ 0 then
        raiseRe 2 0 (d.onRx c (fun x => { x with fade := some { cause := 2, dA := 0, b := d.rxB c }, ask := none, lastU := none }))
      else d
    let y := d1.rxC c
    let target := match y.fade with
      | some f => f.b
      | none => y.b
    if target = d.rxB c then d1.rxState c
    else
      -- a change of B is a re-anchor of its own, in a fade that runs too; a forced one stays forced (R221, R225)
      let f := match y.fade with
        | some f => f
        | none => { cause := 3, dA := y.dA, b := y.b }
      let nd := min f.dA (384 - d.rxB c)
      let g : Fade := { cause := if f.cause = 2 then 2 else 3, dA := nd, b := d.rxB c }
      (raiseRe 3 nd (d1.onRx c (fun x => { x with fade := some g }))).rxState c

/-! ## Regions (R215) -/

/-- The region of context `c` in the map that staging uses in this tick: the region, or the cause of NOREGION. -/
def Dev.rxRegion (d : Dev) (c : Nat) : Except Nat Region :=
  match d.eng.stageR.find? (fun r => r.key == d.rxKey c) with
  | none => .error 1
  | some r =>
    if (r.rate == 1) != d.rx96 c then .error 2
    else if r.ch < d.lf (R.strmRxdch c) 0 12 + d.rxCh c then .error 3
    else .ok r

/-- The key resolved for the present tick. -/
def Dev.rxResolve (d : Dev) (c : Nat) : Dev :=
  let x := d.rxC c
  if !x.on then d
  else
    let k := match d.rxRegion c with
      | .error k => k
      | .ok _ => 0
    if k = x.noreg then d
    else
      let d1 := (d.onRx c (fun x => { x with noreg := k, lastU := if k = 0 then x.lastU else none })).rxState c
      if k = 0 then d1 else d1.raise Blk.strm Src.strmRxNoregion c (d.lv (R.strmRxrkeylo c)) k

/-- The byte address of the frame that staging reads in this tick from region `r`: the write pointer less the TAP of the
region's staging descriptor that executes in a tick of this parity (R111, R216). -/
def Dev.rxFrameAt (d : Dev) (r : Region) : Option Nat :=
  match d.eng.stage.find? (fun x => bit x.par (d.engTick % 2) &&
      ((d.eng.stageR.getD x.region { key := r.key + 1, base := 0, depth := 0, ch := 0, rate := 0, chase := 0 }).key == r.key)) with
  | some x => some (r.base + 4 * (d.tapFrame r x.tap * r.ch))
  | none => none

/-- Words written to the context's channels of its region. -/
def Sys.rxWrite (s : Sys) (c : Nat) (words : List Int) : Sys :=
  match s.dev.rxRegion c with
  | .error _ => s
  | .ok r =>
    match s.dev.rxFrameAt r with
    | none => s
    | some a =>
      let s1 := s.onMem (fun m => each ((List.range words.length).zip words)
        (fun w m => m.putWord (a + 4 * (s.dev.lf (R.strmRxdch c) 0 12 + w.1)) (BitVec.ofNat 32 (wrapN 32 w.2))) m)
      s1.onDev (fun d => d.gleanSee (((List.range words.length).zip words).map (fun w => (0x10000 + 64 * c + w.1, wrapN 32 w.2))))

/-! ## Cutoff (R216, R221 to R223, R306) -/

/-- A context at the start of its release: an anchor whose fade is over takes effect, or a fade that was asked for begins. -/
def Dev.rxAnchor (d : Dev) (c : Nat) : Dev :=
  let x := d.rxC c
  match x.fade with
  | some f =>
    if x.q = 0 then
      let d1 := d.onRx c (fun x => { x with
        fade := none
        dA := f.dA
        b := f.b
        lastU := none
        last := none
        lateRun := 0
        lateMax := 0 })
      (d1.setReg (R.strmRxanchor c) f.dA).rxState c
    else d
  | none =>
    match x.ask with
    | some (cause, nd0) =>
      let nd := min nd0 (384 - x.b)
      let d1 := d.onRx c (fun x => { x with fade := some { cause := cause, dA := nd, b := x.b }, ask := none })
      let d2 := ((d1.rxStat c 7 1 1).rxState c).raise Blk.strm Src.strmRxReanchor c cause nd
      { d2 with strm := { d2.strm with starts := d2.strm.starts ++ [(c, cause, nd)] } }
    | none => d

/-- The packet of context `c` that is present for the release in tick `t`. -/
def Dev.rxPresent (d : Dev) (c t : Nat) : Option Nat :=
  let ts := d.rxTs c (d.rxU c t)
  ((d.rxC c).pkts.find? (fun p => p.has ts (d.rxSpp c))).map (·.seq)

/-- Cutoff of context `c`: its presence is fixed. -/
def Dev.rxCut (d : Dev) (c : Nat) : Dev :=
  if !d.rxDue c then d
  else
    let d1 := d.rxAnchor c
    d1.onRx c (fun x => { x with cut := d1.rxPresent c d1.engTick })

/-- The presence frame of this tick (R306). -/
def Dev.presence (d : Dev) : PresMap :=
  if d.role == .catchup then
    { tick := d.tick, due := d.strm.inbox.map (fun p => (p.1, p.2.seq)), anchors := [], margins := [] }
  else
    let act := (List.range 256).filter (fun c => d.rxDue c)
    { tick := d.tick
      due := act.filterMap (fun c => (d.rxC c).cut.map (fun q => (c, q)))
      anchors := d.strm.starts
      margins := act.map (fun c => (c, d.reg (R.strmRxmargin c), d.rf (R.strmRxstat c) 6 1)) }

/-- The partner takes part in the agreement on streams. -/
def Dev.strmPaired (d : Dev) : Bool :=
  d.paired && match d.role with
    | .active => d.peerRole == some .shadow || d.peerRole == some .catchup
    | .shadow | .catchup => true
    | _ => false

/-- The cutoff at cycle 2,048 (R216). -/
def Dev.streamCutoff (d0 : Dev) : Dev :=
  let d := d0.atC 2048
  let d1 := { d with strm := { d.strm with starts := [] } }
  let d2 := if d.engHeld then d1 else each (List.range 256) (fun c d => d.rxCut c) d1
  if d2.strmPaired then d2.mirSend (.presence d2.presence) else d2

/-- Packets of ours that the partner's map lacks are forwarded (R306). -/
def Dev.forwardPackets (d : Dev) (p : PresMap) : Dev :=
  if d.role == .catchup then d
  else each (List.range 256) (fun c d =>
    match (if d.rxDue c then (d.rxC c).cut else none) with
    | some q =>
      if p.due.contains (c, q) then d
      else match (d.rxC c).pkts.find? (fun k => k.seq == q) with
        | some k => d.mirSend (.packet d.tick c q k.ts k.pay)
        | none => d
    | none => d) d

/-- The partner's presence map is taken, by its deadline (R226, R306, R323). -/
def Dev.presenceReceive (p : PresMap) (c : Nat) (d0 : Dev) : Dev :=
  let d := d0.atC c
  if !d.strmPaired || p.tick != d.tick || 2200 < c then d
  else
    let d1 := { d with strm := { d.strm with peer := some p } }
    let d2 := if d1.lockstep then
        let e := each p.anchors (fun a d =>
          if (d.rxC a.1).fade.isSome then d
          else (((d.onRx a.1 (fun x => { x with fade := some { cause := a.2.1, dA := a.2.2, b := x.b }, ask := none })).rxStat
            a.1 7 1 1).rxState a.1).raise Blk.strm Src.strmRxReanchor a.1 a.2.1 a.2.2) d1
        each p.margins (fun m d => (d.setReg (R.strmRxmargin m.1) m.2.1).rxStat m.1 6 1 m.2.2) e
      else d1
    d2.forwardPackets p

/-- A forwarded packet arrives (R306). -/
def Dev.packetReceive (tick ctx seq ts : Nat) (pay : List Byte) (c : Nat) (d0 : Dev) : Dev :=
  let d := d0.atC c
  if !d.strmPaired || tick != d.tick || 4095 < c then d
  else if d.role == .catchup && d.phase != 5 then
    if d.strm.inbox.any (fun q => q.1 == ctx && q.2.seq == seq) then d
    else { d with strm := { d.strm with
      inbox := d.strm.inbox ++ [(ctx, { seq := seq, ts := ts, arr := d.instant, t0 := 0, pay := pay })] } }
  else if (d.rxC ctx).on && !(d.rxC ctx).pkts.any (fun p => p.seq == seq) then
    d.onRx ctx (fun x => { x with
      pkts := x.pkts ++ [{ seq := seq, ts := ts, arr := d.instant, t0 := d.rxT0 ctx ts d.tick, pay := pay }] })
  else d

/-! ## Release and concealment (R217 to R223) -/

/-- Sample `i` of a packet: one Q1.31 value per channel (R211). -/
def Dev.rxSample (d : Dev) (c i : Nat) (pay : List Byte) : List Int :=
  let w := d.rxWidth c
  let ch := d.rxCh c
  (List.range ch).map (fun j => sgn 32 (be pay ((i * ch + j) * w) w * 2 ^ (32 - 8 * w)))

/-- round(x · q / F) (R219). -/
def fadeVal (q f : Nat) (x : Int) : Int := if q = f then x else roundDiv (x * q) f

/-- The sequence numbers released, with `seq` the newest. -/
def relAdd (rel : List Nat) (seq : Nat) : List Nat :=
  seq :: rel.filter (fun x => x != seq && decide ((seq + 65536 - x) % 65536 < 32768))

/-- The lateness in ticks of a packet first released in tick `t`: it arrived after the cutoff of its first release tick, t0 of R218.  One held
by that cutoff is not late, though a change of the map or of B has moved its release (R220, R222). -/
def RxPkt.lateBy (p : RxPkt) (t : Nat) : Nat :=
  if p.t0 * 10240 + 2048 < (p.arr : Int) then ((t : Int) - p.t0).toNat else 0

/-- A lease holder counts the bytes of a packet in the tick record (R315). -/
def Dev.recCount (d : Dev) (n : Nat) : Dev :=
  if d.paired && d.role == .active then
    { d with pair := { d.pair with rs := { d.pair.rs with recNow := d.pair.rs.recNow + n } } }
  else d

/-- The counts of a packet whose first sample is released in tick `t`: LOST and LATE (R220), and the run of R222. -/
def Dev.rxBegin (d : Dev) (c t : Nat) (p : RxPkt) : Dev :=
  if p.used then d
  else
    let x := d.rxC c
    let d := d.recCount (32 + p.pay.length)
    let gap := match x.last with
      | some l => (p.seq + 65536 - l - 1) % 65536
      | none => 0
    let late := p.lateBy t
    let d1 := d.rxCnt c 3 (if gap < 32768 then gap else 0)
    let d2 := (d1.rxStat c 16 16 p.seq).onRx c (fun x => { x with
      rel := relAdd x.rel p.seq
      last := some p.seq
      pkts := x.pkts.map (fun (k : RxPkt) => if k.seq == p.seq then { k with used := true } else k) })
    if 0 < late then
      let d3 := (d2.rxCnt c 2 1).raise Blk.strm Src.strmRxLate c late p.seq
      d3.onRx c (fun x => { x with lateRun := x.lateRun + 1, lateMax := max x.lateMax late })
    else d2.onRx c (fun x => { x with lateRun := 0, lateMax := 0 })

/-- A new anchor offset within its limits: even for 48 kHz, at most 384 − B (R222). -/
def Dev.newAnchor (d : Dev) (c nd : Nat) : Nat :=
  min (384 - (d.rxC c).b) (if d.rx96 c then nd else nd + nd % 2)

/-- The late run of R222, decided by every unit but one that follows the lease holder (R226). -/
def Dev.rxLateRun (d : Dev) (c : Nat) : Dev :=
  let x := d.rxC c
  let n := max 1 (d.lf (R.strmRxbuf c) 16 8)
  if d.rxFollows || x.lateRun < n || x.fade.isSome || x.ask.isSome then d
  else
    let nd := d.newAnchor c (x.dA + x.lateMax + 2)
    if nd = x.dA then
      (d.onRx c (fun x => { x with lateRun := 0, lateMax := 0 })).raise Blk.strm Src.strmRxLate c x.lateMax ((x.last).getD 0)
    else d.onRx c (fun x => { x with lateRun := 0, lateMax := 0, ask := some (0, nd) })

/-- Packets whose last sample has been released, or lies before the release of tick `t`, are freed. -/
def Dev.rxFree (d : Dev) (c t : Nat) : Dev :=
  let ts := d.rxTs c (d.rxU c t)
  let spp := d.rxSpp c
  d.onRx c (fun x => { x with pkts := x.pkts.filter (fun p => decide (0 < sgn 32 (p.ts + spp - 1 + 2 ^ 32 - ts))) })

/-- The release of context `c` in the present tick, `p` the packet that is present (R217 to R221). -/
def Sys.rxRelease (s : Sys) (c : Nat) (pk : Option RxPkt) : Sys :=
  let d := s.dev
  let t := d.engTick
  let u := d.rxU c t
  let x := d.rxC c
  let f := d.rxF c
  -- a slip: the media index does not follow the last one by one (R221)
  let slip := match x.lastU with
    | some v => decide (u ≠ v + 1)
    | none => false
  let d0 := d.rxCnt c 6 (b2n slip)
  let forced := match x.fade with
    | some fd => fd.cause == 2
    | none => false
  match (if forced then none else pk) with
  | some p =>
    let d1 := d0.rxBegin c t p
    let xs := d1.rxSample c ((d1.rxTs c u + 2 ^ 32 - p.ts) % 2 ^ 32) p.pay
    let q := if x.fade.isSome then x.q - 1 else min (x.q + 1) f
    let d2 := d1.onRx c (fun x => { x with q := q, h := xs, lastU := some u, begun := true })
    let s1 := ({ s with dev := d2 } : Sys).rxWrite c (xs.map (fadeVal q f))
    s1.onDev (fun d => ((d.rxLateRun c).rxFree c t).rxState c)
  | none =>
    let q := x.q - 1
    let d1 := (d0.rxCnt c 5 1).onRx c (fun x => { x with q := q, lastU := some u })
    let d2 := if x.q = f then d1.raise Blk.strm Src.strmRxConceal c d.tickLo 0 else d1
    let s1 := ({ s with dev := d2 } : Sys).rxWrite c (x.h.map (fadeVal q f))
    s1.onDev (fun d => (d.rxFree c t).rxState c)

/-- The packet a context releases: its own at the cutoff, else one of the partner's map that has been forwarded (R306); and
whether an agreed packet is missing. -/
def Dev.rxAgreed (d : Dev) (c : Nat) : Option RxPkt × Bool :=
  let x := d.rxC c
  -- in a CATCHUP unit that has joined the lease holder's presence decides
  match (if d.role == .catchup && d.replayT.isNone then none else x.cut) with
  | some q => (x.pkts.find? (fun p => p.seq == q), false)
  | none =>
    let peers : List Nat := match d.strm.peer with
      | some m => if d.peerRole == some .catchup then [] else (m.due.filter (fun e => e.1 == c)).map (fun e => e.2)
      | none => []
    match peers with
    | [] => (none, false)
    | q :: _ =>
      match x.pkts.find? (fun p => p.seq == q) with
      | some p => (some p, false)
      | none => (none, true)

/-- The release at cycle 4,096 (R216): every context that releases in this tick writes one frame. -/
def Sys.streamRelease (s0 : Sys) : Sys :=
  let s := s0.onDev (fun d => d.atC 4096)
  if s.dev.engHeld then s
  else
    let r := each (List.range 256) (fun c (acc : Sys × Nat) =>
      let s := acc.1
      if (s.dev.rxC c).nocap then
        ((if s.dev.rx96 c || s.dev.engTick % 2 == 1 then s.rxWrite c (List.replicate (s.dev.rxCh c) 0) else s), acc.2)
      else if !s.dev.rxDue c then acc
      else if (s.dev.rxC c).noreg ≠ 0 then (s.onDev (fun d => d.rxFree c d.engTick), acc.2)
      else
        let a := s.dev.rxAgreed c
        match a.1 with
        | some p =>
          -- an uncorrectable read of the spill area frees the packet unreleased, counted LOST (R401)
          let f := if p.spill then s.dev.dramForced 1 s.dev.spillBase else (s.dev, false)
          if f.2 then
            let d1 := (f.1.rxCnt c 3 1).onRx c (fun x => { x with pkts := x.pkts.filter (fun k => k.seq != p.seq) })
            (({ s with dev := d1 } : Sys).rxRelease c none, acc.2)
          else (s.rxRelease c a.1, acc.2)
        | none => (s.rxRelease c none, acc.2 + b2n a.2)) (s, 0)
    if r.2 = 0 then r.1 else r.1.onDev (fun d => d.raise Blk.pair Src.pairFwdMiss 2 d.tickLo r.2)

/-! ## Windows and legs (R222, R224, R227) -/

/-- The window of context `c` ends (R222, R224). -/
def Dev.rxWindowEnd (d : Dev) (c : Nat) : Dev :=
  let x := d.rxC c
  if !x.on then d
  else
    let jump := match x.win, x.winPrev with
      | some a, some b => decide (d.lf (R.strmRxarr c) 0 16 * 98304 < (max a b - min a b) * 100)
      | _, _ => false
    let d1 := if jump && !d.rxFollows then
        (d.rxStat c 6 1 1).raise Blk.strm Src.strmRxArrjump c (x.winPrev.getD 0 / 64) (x.win.getD 0 / 64)
      else d
    let shrink := match x.win, x.winPrev with
      | some a, some b => decide (0 < x.dA ∧ (x.dA + 2) * 10240 ≤ min a b)
      | _, _ => false
    let m := min (x.win.getD 0) (x.winPrev.getD 0) / 10240
    let nd := d.newAnchor c (x.dA + 2 - m)
    let d2 := if shrink && !d.rxFollows && x.fade.isNone && x.ask.isNone then
        d1.onRx c (fun x => { x with ask := some (1, nd) })
      else d1
    if d.rxFollows then d2.onRx c (fun x => { x with winPrev := x.win, win := none })
    else
      -- CUR of a window in which no packet has come is not given: a free value
      let r := d2.draw
      let reg := r.1.rf (R.strmRxmargin c) 0 16 * 65536 + r.2.toNat % 65536
      (r.1.setReg (R.strmRxmargin c) reg).onRx c (fun x => { x with winPrev := x.win, win := none })

/-- The end of a window of 9,600 ticks (R224). -/
def Dev.arrivalWindow (d0 : Dev) : Dev :=
  let d := d0.atC 0
  if d.tick % 9600 = 0 then each (List.range 256) (fun c d => d.rxWindowEnd c) d else d

/-- A valid filter entry feeds a leg of context `c`: ETH0 leg A, ETH1 leg B (R213). -/
def Dev.legFed (d : Dev) (c leg : Nat) : Bool :=
  (List.range 512).any (fun e => let w := d.lv (R.strmFctl e)
    bit w 31 && bit w (29 + leg) && fld w 0 8 == c)

/-- A leg that is fed and has delivered no packet for 960 ticks, since the last one or since the context's enable, is marked down (R227). -/
def Dev.legDown (ctx leg c : Nat) (d0 : Dev) : Dev :=
  let d := d0.atC c
  let x := d.rxC ctx
  if ctx < 256 ∧ leg < 2 ∧ x.on ∧ d.legFed ctx leg ∧ x.legDn.getD leg false = false ∧ x.legT.getD leg 0 + 960 * 10240 ≤ d.instant then
    ((d.rxStat ctx (4 + leg) 1 0).onRx ctx (fun x => { x with legDn := updAt x.legDn leg (fun _ => true) })).raise Blk.strm
      Src.strmRxLegdown ctx leg 0
  else d

/-! ## Transmit (R228 to R233) -/

/-- A transmit context is enabled. -/
def Dev.txEn (d : Dev) (c : Nat) : Bool := d.lf (R.strmTxctl c) 31 1 == 1
/-- CH of a transmit context. -/
def Dev.txCh (d : Dev) (c : Nat) : Nat := clampN 1 64 (d.lf (R.strmTxctl c) 0 7)
/-- A transmit context at 96 kHz. -/
def Dev.tx96 (d : Dev) (c : Nat) : Bool := d.lf (R.strmTxctl c) 18 1 == 1
/-- P, ticks per packet. -/
def Dev.txP (d : Dev) (c : Nat) : Nat := 2 * ptimeSpp (d.lf (R.strmTxctl c) 15 3)
/-- Width of a sample. -/
def Dev.txWidth (d : Dev) (c : Nat) : Nat := fmtWidth (d.lf (R.strmTxctl c) 19 2)
/-- The ports of a context. -/
def Dev.txPorts (d : Dev) (c : Nat) : List Nat := bitsOn 2 (d.lf (R.strmTxctl c) 28 2)
/-- The context's part of the budget. -/
def Dev.txCost (d : Dev) (c : Nat) : Nat := d.txCh c * (if d.tx96 c then 2 else 1)
/-- The budget in use. -/
def Dev.txUsed (d : Dev) : Nat := sumN ((List.range 256).map (fun c => if (d.txC c).on then d.txCost c else 0))
/-- The length of a context's frames, FCS included. -/
def Dev.txLen (d : Dev) (c : Nat) : Nat :=
  let spp := ptimeSpp (d.lf (R.strmTxctl c) 15 3) * (if d.tx96 c then 2 else 1)
  14 + (if d.lf (R.strmTxctl c) 30 1 = 1 then 4 else 0) + 40 + d.txCh c * spp * d.txWidth c + 4
/-- The frames of a context fit its ports (R230). -/
def Dev.txFits (d : Dev) (c : Nat) : Bool := (d.txPorts c).all (fun p => decide (d.txLen c ≤ d.macMaxlen p))

/-- TXSTAT of a context: STATE, HOLD, NEXT. -/
def Dev.txStat (d : Dev) (c : Nat) : Dev :=
  let x := d.txC c
  let hold := x.on && d.paired && d.role == .shadow
  let d1 := (d.setFld (R.strmTxstat c) 0 2 (if x.nocap then 2 else if x.on then 1 else 0)).setFld (R.strmTxstat c) 2 1 (b2n hold)
  if x.on then d1.setFld (R.strmTxstat c) 16 16 ((d.lf (R.strmTxseq c) 0 16 + x.k) % 65536) else d1

/-- The parity on which a 48 kHz context takes its words: that of the KIND 3 descriptor that covers its first channel (R228);
even where there is none. -/
def Dev.txParity (d : Dev) (c : Nat) : Nat :=
  let i := d.lf (R.strmTxch c) 0 11
  match d.eng.drain.find? (fun x => x.kind == 3 && decide (x.didx ≤ i ∧ i < x.didx + x.count)) with
  | some x => if x.par = 2 then 1 else 0
  | none => 0

/-- A word drained to transmit index `i` in the present tick (R228). -/
def Dev.strmDeliver (d : Dev) (i w : Nat) : Dev := { d with strm := { d.strm with words := tabSet d.strm.words i w } }

/-- The word of a transmit index; an index to which no descriptor delivers holds a free value. -/
def Dev.txWord (d : Dev) (i : Nat) : Dev × Nat :=
  match tabGet d.strm.words i with
  | some w => (d, w)
  | none => (d.draw.1, d.draw.2.toNat % 2 ^ 32)

/-- The sample of the tick that ended joins the packet of context `c` (R229).  The present tick is the one after it, so the
map in use is MAPDELTA(d + 1). -/
def Dev.txTake (d : Dev) (c : Nat) : Dev :=
  let x := d.txC c
  let smp := d.engTick - 1
  if !x.on ∨ smp < x.te ∨ (!d.tx96 c ∧ smp % 2 ≠ d.txParity c) then d
  else
    let r : Int := if d.tx96 c then 1 else 2
    let u := ((d.engTick : Int) + d.time.useD) / r
    let i0 := d.lf (R.strmTxch c) 0 11
    let d0 := if x.words.isEmpty then
        d.onTx c (fun x => { x with u0 := u, markP := x.mark, mark := false })
      else d
    let z := each (List.range (d.txCh c)) (fun j (acc : Dev × List Nat) =>
      let w := acc.1.txWord (i0 + (if d.tx96 c then 2 * j else j))
      (w.1, acc.2 ++ [w.2])) (d0, [])
    z.1.onTx c (fun x => { x with words := x.words ++ z.2 })

/-- A transmit context's service ends. -/
def Dev.txOff (d : Dev) (c : Nat) : Dev :=
  if (d.txC c).on || (d.txC c).nocap then (d.onTx c (fun _ => {})).txStat c else d

/-- Transmit context `c` enters NOCAP; the packets it has formed keep their numbers (R210, R230, OP-6). -/
def Dev.txNocap (d : Dev) (c : Nat) : Dev :=
  ((d.onTx c (fun x => { nocap := true, k := x.k })).txStat c).raise Blk.strm Src.strmTxCapacity c
    (if d.txFits c then d.txCost c else d.txLen c) 0

/-- Transmit context `c`, enabled, at a boundary: start, capacity and frame length, the sample of the tick that ended, the marker after a
map discontinuity.  Its packet k is queued (k + 1)P ticks after te. -/
def Dev.txAt (d : Dev) (c : Nat) : Dev :=
  let x := d.txC c
  if !d.txEn c then d
  else if !x.on then
    if d.txUsed + d.txCost c ≤ 2048 ∧ d.txFits c then
      let te := if d.tx96 c then d.engTick else d.engTick + d.engTick % 2
      (d.onTx c (fun x => { on := true, te := te - x.k * d.txP c, k := x.k })).txStat c
    else if x.nocap then d
    else d.txNocap c
  else if !d.txFits c then d.txNocap c
  else
    let d1 := d.txTake c
    let d2 := if d.time.useDisc ≠ 0 then d1.onTx c (fun x => { x with mark := true }) else d1
    d2.txStat c

/-- The sample bytes of a word (R211). -/
def fmtBytes (w v : Nat) : List Byte := beBytes w (v / 2 ^ (32 - 8 * w))

/-- The IPv4 checksum that makes a header's sum all ones. -/
def ip4Sum (h : List Byte) : Nat := 0xFFFF - onesSum h 0

/-- The frame of a packet on port `p` (R230, R232). -/
def Dev.txFrameOf (d : Dev) (c p seq ts : Nat) (mark : Bool) (pay : List Byte) : List Byte :=
  let w := d.lv (R.strmTxctl c)
  let legB := p = 1 ∧ fld w 28 2 = 3
  let pick := fun (a b : Nat) => if legB ∧ d.lv b ≠ 0 then d.lv b else d.lv a
  let dst := pick (R.strmTxdstip c) (R.strmTxdstipb c)
  let src := pick (R.strmTxsrcip c) (R.strmTxsrcipb c)
  let hi := d.lv (R.strmTxdmachi c)
  let dmac := if dst / 2 ^ 28 = 14 then 0x01005E000000 + dst % 2 ^ 23 else hi % 65536 * 2 ^ 32 + d.lv (R.strmTxdmaclo c)
  let tag := if bit w 30 then beBytes 2 0x8100 ++ beBytes 2 (fld w 12 3 * 8192 + d.lf (R.strmTxch c) 12 12) else []
  let rtp := beBytes 1 0x80 ++ beBytes 1 (b2n mark * 128 + fld w 21 7) ++ beBytes 2 seq ++ beBytes 4 ts ++
    beBytes 4 (d.lv (R.strmTxssrc c)) ++ pay
  let ports := d.lv (R.strmTxports c)
  let udp := beBytes 2 (ports % 65536) ++ beBytes 2 (ports / 65536) ++ beBytes 2 (8 + rtp.length) ++ beBytes 2 0 ++ rtp
  let h1 := beBytes 1 0x45 ++ beBytes 1 (fld hi 24 6 * 4) ++ beBytes 2 (20 + udp.length) ++ beBytes 2 0 ++ beBytes 2 0x4000 ++
    beBytes 1 (fld hi 16 8) ++ beBytes 1 17
  let h2 := beBytes 4 src ++ beBytes 4 dst
  beBytes 6 dmac ++ beBytes 6 (d.station p) ++ tag ++ beBytes 2 0x0800 ++ h1 ++ beBytes 2 (ip4Sum (h1 ++ h2)) ++ h2 ++ udp

/-- A context forms its packet and queues it on its ports (R229, R231, R233): at the start of tick Te + (k + 1)P. -/
def Dev.packetQueue (c : Nat) (d0 : Dev) : Dev :=
  let d := d0.atC 0
  let x := d.txC c
  if 256 ≤ c ∨ !x.on ∨ d.engTick ≠ x.te + (x.k + 1) * d.txP c then d
  else
    let seq := (d.lf (R.strmTxseq c) 0 16 + x.k) % 65536
    let ts := wrapN 32 (x.u0 + d.lv (R.strmTxrtpoff c))
    let pay := x.words.flatMap (fmtBytes (d.txWidth c))
    let pks : List TxPkt := (d.txPorts c).map (fun p => {
      ctx := c
      port := p
      seq := seq
      qt := d.engTick
      limit := d.engTick + 2
      frame := d.txFrameOf c p seq ts x.markP pay })
    let d1 := (d.onTx c (fun x => { x with k := x.k + 1, words := [] })).txStat c
    if !d.paired || d.role == .active then
      let qs := each pks (fun k q => updAt q k.port (fun l => insBy (fun (z : TxPkt) => z.qt * 256 + z.ctx) k l)) d1.strm.queue
      { d1 with strm := { d1.strm with queue := qs } }
    else if d.role == .shadow then { d1 with strm := { d1.strm with held := d1.strm.held ++ pks } }
    else d1

/-- The partner follows as SHADOW, and takes acknowledgements (R314). -/
def Dev.acksGo (d : Dev) : Bool := d.paired && d.role == .active && d.peerRole == some .shadow

/-- The packet at the head of port `p`'s stream queue starts on the line (R231). -/
def Dev.packetSend (p c : Nat) (d0 : Dev) : Dev :=
  let d := d0.atC c
  match d.strm.queue.getD p [] with
  | [] => d
  | k :: rest =>
    if !d.macEn p || !d.macLink p || d.macPaused p || decide (k.limit ≤ d.tick) then d
    else
      let q := updAt d.strm.queue p (fun _ => rest)
      let d0 : Dev := { d with strm := { d.strm with queue := q } }
      let d1 := (d0.ethSend p k.frame).bump (R.strmTxcnt k.ctx 0) 1
      if d.acksGo then { d1 with strm := { d1.strm with acks := d1.strm.acks ++ [(k.ctx, p, k.seq)] } }
      else d1

/-- The packets of port `p` that have not started by the boundary into their limit are not sent (R231). -/
def Dev.txLate (p : Nat) (d0 : Dev) : Dev :=
  let d := d0.atC 0
  let q := d.strm.queue.getD p []
  let late := q.filter (fun k => decide (k.limit ≤ d.tick))
  let rest := updAt d.strm.queue p (fun l => l.filter (fun k => decide (d.tick < k.limit)))
  let d1 := { d with strm := { d.strm with queue := rest } }
  each late (fun k d => (d.bump (R.strmTxcnt k.ctx 1) 1).raise Blk.strm Src.strmTxLate k.ctx p k.seq) d1

/-- Batched acknowledgements leave, every 1,024 cycles (R314). -/
def Dev.sentAckSend (c : Nat) (d0 : Dev) : Dev :=
  let d := d0.atC (c / 1024 * 1024)
  let d1 : Dev := { d with strm := { d.strm with acks := [] } }
  if d.acksGo && !d.strm.acks.isEmpty then d1.mirSend (.sentAck d.strm.acks) else d

/-- Acknowledgements arrive: the packets they cover are dropped (R314). -/
def Dev.sentAckReceive (acks : List (Nat × Nat × Nat)) (c : Nat) (d0 : Dev) : Dev :=
  let d := d0.atC c
  if d.paired && d.role == .shadow then
    { d with strm := { d.strm with held := d.strm.held.filter (fun k => !acks.contains (k.ctx, k.port, k.seq)) } }
  else d

/-- At cycle 0: held packets queued in tick q whose acknowledgement has not come by the end of q + 2 join the head of the
unit's own queue (R314). -/
def Dev.txHandover (d0 : Dev) : Dev :=
  let d := d0.atC 0
  if !(d.paired && (d.role == .shadow || d.role == .active)) then d
  else
    let due := d.strm.held.filter (fun k => decide (k.qt + 3 ≤ d.tick))
    let d1 := { d with strm := { d.strm with
      held := d.strm.held.filter (fun k => decide (d.tick < k.qt + 3))
      queue := (List.range 2).map (fun p =>
        (due.filter (fun k => k.port == p)).map (fun (k : TxPkt) => { k with limit := d.tick + 1 }) ++ d.strm.queue.getD p []) } }
    each due (fun k d => (d.bump (R.pairCnt 3) 1).raise Blk.pair Src.pairTxHandover k.ctx k.seq k.port) d1

/-- The contexts disabled at a boundary free their part of the budgets. -/
def Dev.strmFree (d : Dev) : Dev :=
  each (List.range 256) (fun c d =>
    let d1 := if d.rxEn c then d else d.rxOff c
    if d1.txEn c then d1 else d1.txOff c) d

/-- STRM at a boundary: contexts in ascending order, the budgets in use, the words of the tick that ended dropped. -/
def Dev.strmBoundary (d : Dev) : Dev :=
  let d0 := ({ d with strm := { d.strm with peer := none } } : Dev).strmFree
  let d1 := each (List.range 256) (fun c d => (d.rxAt c).rxResolve c) d0
  let d2 := each (List.range 256) (fun c d => d.txAt c) d1
  let d3 := (d2.setFld R.strmStat 0 12 d2.rxUsed).setFld R.strmStat 16 12 d2.txUsed
  { d3 with strm := { d3.strm with words := [] } }

/-- What becomes of transmission when the unit ceases to hold the lease (R233, R298): a SHADOW holds the packets it has not sent, any
other role sends nothing. -/
def Dev.strmYield (d : Dev) (shadow : Bool) : Dev :=
  let rest := if shadow then d.strm.queue.flatMap (fun q => q) else []
  { d with strm := { d.strm with
    queue := [[], []]
    held := rest
    acks := [] } }

end Sys2Proof.Machine
end

