-- ==== Sys2Proof/Machine/Engine.lean ====
section
/-!
DEFINITION. The engine's tick beside the lanes' operations: the overrun check and the tick's status (R16, R58, R70), the
digests (R308), staging and the drain (R66 to R70), write pointers (R67), the steps of a swap (R123 to R125), and cell
writes (R126, R127).
-/
namespace Sys2Proof.Machine

/-! ## The close of the program window (R16, R58, R70) -/

/-- Clusters that run: the engine executes a sheaf, the domain is on, CLEN (R48). -/
def Dev.clusters (d : Dev) : Nat :=
  if d.rf R.engStat 4 1 = 1 then d.lf R.engCtrl 0 3 &&& d.rf R.pwrDomstat 3 3 else 0

/-- Lanes that run and have not issued EOT. -/
def Dev.overrunLanes (d : Dev) : List Nat :=
  (List.range 48).filter (fun n => d.laneRuns n && (d.eng.lanes.getD n {}).endC.isNone)

/-- The end cycle of lane `n`. -/
def Dev.endCycle (d : Dev) (n : Nat) : Nat := ((d.eng.lanes.getD n {}).endC).getD windowEnd

/-- LANESTATn of the tick that closes. -/
def Dev.laneStat (d : Dev) (ovr : List Nat) (n : Nat) : Dev :=
  if d.laneRuns n then
    d.setReg (R.engLanestat n) (d.endCycle n + 2 ^ 17 * b2n (ovr.contains n) + 2 ^ 18 * b2n (d.eng.lanes.getD n {}).err)
  else d.setReg (R.engLanestat n) (2 ^ 16 + 2 ^ 18 * b2n (d.eng.lanes.getD n {}).err)

/-- The tick's status of ENG: LANESTAT, TICKCYC, MAXCYC, OVRLANE, OVRCNT. -/
def Dev.engStatus (d : Dev) (ovr : List Nat) : Dev :=
  let run := (List.range 48).filter d.laneRuns
  let top := maxN (run.map d.endCycle)
  let d1 := forN 48 (fun n d => d.laneStat ovr n) d
  let d2 := d1.setReg R.engTickcyc (min 16383 d.eng.stalls * 65536 + top)
  let d3 := if d2.rf R.engMaxcyc 0 14 < top then
      d2.setReg R.engMaxcyc (((run.find? (fun n => d.endCycle n == top)).getD 0) * 65536 + top)
    else d2
  let mask := ovr.foldl (fun m n => bitSet m n true) 0
  ((d3.setReg R.engOvrlane0 (mask % 2 ^ 32)).setReg R.engOvrlane1 (mask / 2 ^ 32)).bump R.engOvrcnt ovr.length

/-- The program window closes: the issues that begin in it pass, lanes without EOT are stopped, the overrun and the S2 sources of
their end cycle are raised (R16, R58, R92, R361). -/
def Sys.engClose (s : Sys) : Sys :=
  let s1 := (s.passTo (fun s => windowEnd - s.dev.eng.stalls)).onDev (fun d => d.atC windowEnd)
  let d := s1.dev
  if d.rf R.engStat 4 1 = 0 then s1
  else
    let ovr := d.overrunLanes
    let mask := ovr.foldl (fun m n => bitSet m n true) 0
    let d1 := d.engStatus ovr
    let fs := (if ovr.isEmpty then [] else
        [({ src := Src.engOverrun, d0 := mask % 2 ^ 32, d1 := mask / 2 ^ 32, d2 := windowEnd } : Flt)]) ++
      ovr.flatMap (fun n => d.endFaults n windowEnd)
    let d2 := d1.raiseAll Blk.eng fs
    { s1 with dev := { d2 with eng := { d2.eng with ovr := ovr } } }

/-- The bytes of a digest (R351). -/
def digBytes (l : List (Nat × Nat)) : List Byte := l.flatMap (fun p => leBytes 4 p.1 ++ leBytes 4 p.2)

/-- The pair digests of the tick are closed at cycle 10,047 by CVU units 4 and 5 (R308, R351, R353): their values. -/
def Dev.digestClose (d : Dev) : Dev × Nat × Nat :=
  let bs := digBytes d.eng.digS
  let bt := digBytes d.eng.digT
  let ds := d.cvuValue 4 bs
  let dt := d.cvuValue 5 bt
  ((d.cvuSnoop 4 0 bs).cvuSnoop 5 0 bt, ds, dt)

/-! ## Plans (R123) -/

/-- A region of the plan that no drain descriptor writes: a receive region (R215). -/
def Sheaf.receives (sh : Sheaf) (i : Nat) : Bool := !sh.drain.any (fun x => x.kind == 0 && x.didx == i)

/-- Staging armed from a plan; descriptors that read receive regions execute after every other one (R216). -/
def Dev.armStage (d : Dev) (sh : Sheaf) : Dev :=
  { d with eng := { d.eng with
    stage := sh.stage
    stageR := sh.regions
    stageLast := (List.range sh.stage.length).filter (fun i =>
      match sh.stage[i]? with
      | some x => sh.receives x.region
      | none => false) } }

/-- The drain armed from a plan, its hold buffer empty (R69). -/
def Dev.armDrain (d : Dev) (sh : Sheaf) : Dev :=
  { d with eng := { d.eng with
    drain := sh.drain
    drainR := sh.regions
    hold := [] } }

/-! ## Staging (R66, R68, R111) -/

/-- `n` words copied from byte address `a` to `b`; the words whose flags say so are stored as zero (R401). -/
def Memory.copyWords (m : Memory) (a b : Nat) (zero : Nat → Bool) : Nat → Memory
  | 0 => m
  | n + 1 => Memory.copyWords (m.putWord (b + 4 * n) (if zero n then 0 else m.word (a + 4 * n))) a b zero n

/-- The source and destination of a staging descriptor in this tick. -/
def Dev.stageAt (d : Dev) (x : StageDesc) : Option (Nat × Nat) :=
  match d.eng.stageR[x.region]? with
  | none => none
  | some r =>
    some (r.base + 4 * (d.tapFrame r x.tap * r.ch + x.ch0),
      inHalf ((d.engTick + 1) % 2) + 0x40000 * x.dreg + 4 * x.dptr)

/-- One staging descriptor executes: words of a line whose read is uncorrectable are staged as zero (R401, R406). -/
def Sys.stageOne (s : Sys) (x : StageDesc) : Sys :=
  match s.dev.stageAt x with
  | none => s
  | some (a, b) =>
    let f := s.dev.dramForced 0 a
    let zero := fun (i : Nat) => f.2 && (a + 4 * i) / 64 == a / 64
    { s with dev := f.1.eccClean b (4 * x.nch), mem := s.mem.copyWords a b zero x.nch }

/-- Indices of the staging descriptors of this tick in the order they execute. -/
def Dev.stageOrder (d : Dev) : List Nat :=
  let due := (List.range d.eng.stage.length).filter (fun i =>
    match d.eng.stage[i]? with
    | some x => bit x.par (d.engTick % 2)
    | none => false)
  due.filter (fun i => !d.eng.stageLast.contains i) ++ due.filter (fun i => d.eng.stageLast.contains i)

/-- Staging for the next tick completes; the last `late` descriptors are unfinished at the rotation and abandoned (R68). -/
def Sys.staging (late : Nat) (s : Sys) : Sys :=
  let ord := s.dev.stageOrder
  let n := ord.length - late
  let s1 := each (ord.take n) (fun i s =>
    match s.dev.eng.stage[i]? with
    | some x => s.stageOne x
    | none => s) s
  match ord.drop n with
  | [] => s1
  | i :: t => s1.onDev (fun d => d.raise Blk.eng Src.engStageLate (t.length + 1) i 0)

/-! ## The drain (R69, R70, R112) -/

/-- The address in the outbound half that holds the outputs of the tick before (R18). -/
def Dev.drainFrom (d : Dev) (x : DrainDesc) : Nat :=
  outHalf ((d.engTick + 1) % 2) + (if x.sreg = 3 then 0x40000 else 0) + 4 * x.sptr

/-- The words a descriptor delivers, with whether a drain read failed: the hold-buffer copy where its owner overran, or of a word with a
double-bit error. -/
def Sys.drainWords (s : Sys) (i : Nat) (x : DrainDesc) : List Word × Bool :=
  let held := (tabGet s.dev.eng.hold i).getD []
  let a := s.dev.drainFrom x
  if s.dev.eng.ovr.contains x.owner then ((List.range x.count).map (fun j => held.getD j 0), false)
  else
    let bad := fun (j : Nat) => s.dev.eng.ecc2.contains (a + 4 * j)
    ((List.range x.count).map (fun j => if bad j then held.getD j 0 else s.mem.word (a + 4 * j)),
      (List.range x.count).any bad)

/-- A frame about to be overwritten while its region is being copied is sent first, once (R317). -/
def Sys.displace (s : Sys) (r : Region) (f : Nat) : Sys :=
  match s.dev.pair.rs.copy.find? (fun c => c.key == r.key) with
  | none => s
  | some c =>
    let j := (f + c.depth - c.first % max 1 c.depth) % max 1 c.depth
    if j < c.idx ∨ c.gone.contains j then s
    else
      let a := r.base + 4 * f * r.ch
      let bs := s.mem.bytes a (4 * r.ch)
      s.onDev (fun d =>
        let d1 := d.mirSend (.displaced a bs)
        let cs := d1.pair.rs.copy.map (fun (q : CopyReg) => if q.key == r.key then { q with gone := j :: q.gone } else q)
        { d1 with pair := { d1.pair with rs := { d1.pair.rs with copy := cs } } })

/-- One word delivered (R112). -/
def Sys.deliver (s : Sys) (x : DrainDesc) (j : Nat) (w : Word) : Sys :=
  if x.kind = 0 then
    match s.dev.eng.drainR[x.didx]? with
    | some r => s.onMem (fun m => m.putWord (r.base + 4 * (s.dev.wpOf r * r.ch + x.dch + j)) w)
    | none => s
  else if x.kind = 1 then s.onDev (fun d => d.modDeliver (x.didx + j) w.toNat)
  else if x.kind = 2 then s.onDev (fun d => d.tdmDeliver (x.didx + j) w.toNat)
  else s.onDev (fun d => d.strmDeliver (x.didx + j) w.toNat)

/-- One drain descriptor executes. -/
def Sys.drainOne (s : Sys) (i : Nat) (x : DrainDesc) : Sys :=
  let r := s.drainWords i x
  let s0 := if x.kind = 0 then
      match s.dev.eng.drainR[x.didx]? with
      | some g => s.displace g (s.dev.wpOf g)
      | none => s
    else s
  let s1 := each ((List.range r.1.length).zip r.1) (fun p s => s.deliver x p.1 p.2) s0
  let s2 := s1.onDev (fun d => { d with eng := { d.eng with hold := tabSet d.eng.hold i r.1 } })
  if r.2 then
    -- the bundle address of a drain-read error is not given: a free value
    s2.onDev (fun d => d.draw.1.laneErr x.owner 1 d.draw.2.toNat d.cycle)
  else s2

/-- The drain of the tick, descriptors of KIND 2 first, each group in sheaf order; a substitution is recorded in SUBST (R69,
R70). -/
def Sys.drain (s : Sys) : Sys :=
  let d := s.dev
  let all := (List.range d.eng.drain.length).zip d.eng.drain
  let due := all.filter (fun p => bit p.2.par (d.engTick % 2))
  let sF := if due.isEmpty then s else s.onDev Dev.modFed
  let s1 := each (due.filter (fun p => p.2.kind == 2) ++ due.filter (fun p => p.2.kind != 2)) (fun p s => s.drainOne p.1 p.2) sF
  let subst := due.any (fun p => d.eng.ovr.contains p.2.owner)
  s1.onDev (fun d =>
    let d1 := if subst then d.setReg R.engSubst (min 255 (d.rf R.engSubst 24 8 + 1) * 2 ^ 24 + (d.engTick + 2 ^ 24 - 1) % 2 ^ 24)
      else d
    { d1 with eng := { d1.eng with ovr := [] } })

/-- The write pointers of the active plan advance at the boundary into tick `t` (R67). -/
def Dev.wpAdvance (d : Dev) (t : Nat) : Dev :=
  match d.ldr.act with
  | none => d
  | some sh =>
    let w := each sh.regions (fun r w => if r.steps t then tabSet w r.key ((d.wpOf r + 1) % max 1 r.depth) else w) d.eng.wps
    { d with eng := { d.eng with wps := w } }

/-! ## The rotation (R17, R75) -/

/-- Every lane starts the next tick at bundle 0 with its registers zero. -/
def Dev.lanesReset (d : Dev) : Dev :=
  { d with eng := { d.eng with
    lanes := List.replicate 48 {}
    issue := 0
    stalls := 0
    sreqs := []
    stores := []
    digS := []
    digT := []
    olds := []
    oldC := 0 } }

/-! ## Swaps (R123 to R125) -/

/-- The swap with target tick `t` on the agenda. -/
def Dev.swapFor (d : Dev) (t : Nat) : Bool := d.agenda.any (fun e => e.act == .swap && e.tgt == t)

/-- T − 1, 10,048: the banks exchange roles, the pending maps become active, the pointers of new regions are zeroed
(R123). -/
def Dev.bankExchange (d : Dev) : Dev :=
  match d.ldr.pend with
  | none => d
  | some sh =>
    let w := each (newRegions d.ldr.act sh) (fun r w => tabSet w r.key 0) d.eng.wps
    let d1 := d.setFld R.engStat 5 1 (1 - d.rf R.engStat 5 1)
    { d1 with
      eng := { d1.eng with wps := w }
      ldr := { d1.ldr with act := some sh, swap := 1 } }

/-- The boundary into T: the records of the swap; the first swap starts the engine (R124, R125). -/
def Dev.swapDone (d : Dev) : Dev :=
  match d.ldr.swap, d.ldr.act with
  | 1, some sh =>
    let d1 := ((d.setReg R.loadActid sh.id).putHash R.loadActhash sh.hash).setFld R.loadClass 0 2 sh.refClass
    let d2 := (d1.setW R.loadLastswap d.engTick).setW R.loadTransend (d.engTick + (if sh.trans then sh.transDur else 0))
    let d3 := ((d2.setReg R.engMaxcyc 0).bump R.loadSwapcnt 1).setFld R.engStat 4 1 1
    let d4 : Dev := { d3 with ldr := { d3.ldr with swap := 2 } }
    d4.raise Blk.load Src.loadSwapDone (d.engTick % 2 ^ 32) (d.engTick / 2 ^ 32) sh.id
  | 3, _ => ({ d with ldr := { d.ldr with swap := 0 } } : Dev).loadEmpty
  | _, _ => d

/-- T, 10,176: the drain is armed from the new plan, and what only the old sheaf used is released (R123). -/
def Dev.swapDrain (d : Dev) : Dev :=
  match d.ldr.swap, d.ldr.act with
  | 2, some sh =>
    let d1 := d.armDrain sh
    { d1 with
      eng := { d1.eng with wps := d1.eng.wps.filter (fun w => sh.regions.any (fun r => r.key == w.1)) }
      ldr := { d1.ldr with swap := 3 } }
  | _, _ => d

/-- The rotation of the halves: staging completes, swap plans are armed, every lane returns to bundle 0 (R17, R68, R123). -/
def Sys.engRotate (late : Nat) (s : Sys) : Sys :=
  let s1 := s.staging late
  s1.onDev (fun d =>
    let d1 := if d.swapFor (d.engTick + 2) then
        match d.ldr.pend with
        | some sh => d.armStage sh
        | none => d
      else d
    d1.swapDrain.lanesReset)

/-! ## Cells (R126 to R129) -/

/-- A cell of a sheaf. -/
def Sheaf.cell (sh : Sheaf) (key : Nat) : Option SCell := sh.cells.find? (fun c => c.key == key)

/-- The sheaf that will be active at tick `t` for a command accepted now (R126). -/
def Dev.sheafFor (d : Dev) (t : Nat) : Option Sheaf :=
  if d.agenda.any (fun e => e.act == .swap && decide (e.tgt ≤ t)) then d.ldr.pend else d.ldr.act

/-- Coefficient rows of 64 bits that `n` words at word `a` touch (R128). -/
def cellRows (a n : Nat) : Nat := if n = 0 then 0 else (a + n - 1) / 2 - a / 2 + 1

/-- Rows that the agenda's cell writes for tick `t` touch in lane `n`, each resolved as at its acceptance. -/
def Dev.rowsUsed (d : Dev) (t n : Nat) : Nat :=
  (d.agenda.foldl (fun (acc : Nat × Bool) e =>
    match e.act with
    | .swap => (acc.1, acc.2 || decide (e.tgt ≤ t))
    | .cell key val =>
      if e.tgt = t then
        match (if acc.2 then d.ldr.pend else d.ldr.act).bind (fun sh => sh.cell key) with
        | some c => (acc.1 + sumN ((c.places.filter (fun p => p.lane == n)).map (fun p => cellRows p.caddr (val.length / 4))), acc.2)
        | none => acc
      else acc
    | _ => acc) (0, false)).1

/-- The refusal of a cell write (R461): the DETAIL of the first condition that fails, 0 for none.  `maxT` is MAXTARGET. -/
def Dev.cellRefusal (d : Dev) (t key : Nat) (val : List Byte) : Nat :=
  match (d.sheafFor t).bind (fun sh => sh.cell key) with
  | none => 1
  | some c =>
    let len := val.length
    if (c.kind = 0 ∧ len ≠ 4 * c.nwords) ∨ (c.kind ≠ 0 ∧ len ≠ 4 ∧ len ≠ 8) then 2
    else if c.kind ≠ 0 ∧ (2 ^ 31 ≤ le val 0 4 ∨ c.maxT < le val 0 4) then 3
    else if c.kind ≠ 0 ∧ len = 8 ∧ 0x7FFF < le val 4 4 % 65536 then 4
    else if c.places.any (fun p => decide (128 < d.rowsUsed t p.lane + cellRows p.caddr (len / 4))) then 5
    else 0

/-- A cell write applied to every placement together, under the maps in force (R126, R127, R129).  A key that the sheaf active now does not have
drops the write (DESIGN CHOICE, log entry 157). -/
def Sys.cellApply (s : Sys) (key : Nat) (val : List Byte) : Sys :=
  match s.dev.ldr.act.bind (fun sh => sh.cell key) with
  | none => s
  | some c => each c.places (fun p s => s.store (coefBase p.lane + 4 * p.caddr) val) s

/-! ## The start of a tick (R18, R69, R366) -/

/-- FORCE.PAR: one parity error in the lowest lane of each cluster named that runs a sheaf (R101, R366). -/
def Dev.parityForce (d : Dev) : Dev :=
  each [0, 1, 2] (fun k d =>
    if bit d.eng.parReq k && bit d.clusters k then
      let d1 : Dev := { d with eng := { d.eng with
        parReq := bitSet d.eng.parReq k false
        lanes := updAt d.eng.lanes (16 * k) (fun l => { l with err := true }) } }
      d1.raiseF Blk.eng Src.engLaneErr true (16 * k) 2 0
    else d) d

/-- A lane without a program in the active sheaf finds EOT in bundle 0, which the loader wrote (R106): it ends at cycle 0 (R49). -/
def Dev.idleLanes (d : Dev) : Dev :=
  match d.ldr.act with
  | some sh => { d with eng := { d.eng with
      lanes := ((List.range 48).zip d.eng.lanes).map (fun p => if bit sh.laneMask p.1 then p.2 else { p.2 with endC := some 0 }) } }
  | none => d

/-- The engine at the boundary into the tick it runs: the swap's records, the clusters that run, the drain, the write pointers, the
forced parity errors, the lanes without a program. -/
def Sys.engStart (s : Sys) : Sys :=
  let s1 := s.onDev (fun d =>
    let d1 := d.swapDone
    d1.setFld R.engStat 0 3 d1.clusters)
  let s2 := s1.drain
  s2.onDev (fun d => (d.wpAdvance d.engTick).parityForce.idleLanes)

end Sys2Proof.Machine
end

