-- ==== Sys2Proof/Machine/Evt.lean ====
section
/-!
DEFINITION. Events and the black box: the status path and EVT's intake (R32, R371), numbering and coalescing (R368 to R373), the
host ring (R374), the black box with its DRAM extension and watchdog (R375 to R379), FAULT_N (R365), the interrupt
messages (R380), THM (R381, R382) and GPIO's edges (R433, R434).
-/
namespace Sys2Proof.Machine

/-! ## Records -/

/-- The 32 bytes of a record (R368). -/
def EvRec.bytes (r : EvRec) : List Byte :=
  leBytes 4 r.seq ++ leBytes 6 r.tick ++ leBytes 2 r.cyc ++ leBytes 1 r.blk ++ leBytes 1 r.src ++ leBytes 1 r.sevm ++
    leBytes 1 r.epoch ++ leBytes 2 r.code ++ leBytes 2 r.rep ++ leBytes 4 r.d0 ++ leBytes 4 r.d1 ++ leBytes 4 r.d2

/-- The severity of a record. -/
def EvRec.sev (r : EvRec) : Nat := r.sevm % 8

/-- The EPOCH byte of a record made now. -/
def Dev.evEpoch (d : Dev) : Nat := if d.paired then d.reg R.pairEpoch % 256 else 0

/-- EVT or BBX makes a record of type `ty`; it is numbered after the postings of the present tick (R369, R370). -/
def Dev.makeRec (d : Dev) (b ty sev d0 d1 d2 : Nat) : Dev :=
  let r : EvRec :=
    { seq := 0
      tick := d.tick
      cyc := d.cycle
      blk := b
      src := 0xFF
      sevm := sev
      epoch := d.evEpoch
      code := ty * 256 + 8 * b2n d.testMode
      rep := 0
      d0 := d0 % 2 ^ 32
      d1 := d1 % 2 ^ 32
      d2 := d2 % 2 ^ 32 }
  { d with evt := { d.evt with made := d.evt.made ++ [r] } }

/-- The record of a posting. -/
def Posting.toRec (p : Posting) : EvRec :=
  { seq := 0
    tick := p.tick
    cyc := p.cyc + 2 ^ 14 * b2n p.yieldS + 2 ^ 15 * b2n p.approx
    blk := p.blk
    src := p.src
    sevm := p.sev + 8 * p.merge
    epoch := p.epoch
    code := p.qual
    rep := p.rep
    d0 := p.d0
    d1 := p.d1
    d2 := p.d2 }

/-! ## The status path and the intake (R32, R371) -/

/-- Postings of the present tick that the intake holds. -/
def Dev.intakeNow (d : Dev) : Nat := (d.evt.intake.filter (fun p => p.tick == d.tick)).length

/-- STAT.OCC and STAT.HIGH follow the intake. -/
def Dev.intakeStat (d : Dev) : Dev :=
  let n := d.intakeNow
  let d1 := d.setFld R.evtStat 0 10 n
  if d1.rf R.evtStat 16 10 < n then d1.setFld R.evtStat 16 10 n else d1

/-- One posting of a source is lost, for a cause of the DROP record (R369). -/
def Dev.lose (d : Dev) (b src cause : Nat) : Dev :=
  let l := d.evt.lost
  let hit := l.any (fun x => x.blk == b && x.src == src && x.cause == cause)
  let l1 := if hit then
      l.map (fun x => if x.blk == b && x.src == src && x.cause == cause then { x with count := x.count + 1 } else x)
    else l ++ [{ blk := b, src := src, cause := cause, count := 1 }]
  { d with evt := { d.evt with lost := l1 } }

/-- The places of the intake open to a severity (R371). -/
def intakeLimit (sev : Nat) : Nat := if sev ≤ 1 then 256 else if sev = 2 then 384 else 512

/-- The first posting of the status path reaches the intake and is admitted, or is shed and counted; SHEDDING is raised once a
tick (R371). -/
def Dev.postDeliver (d : Dev) : Dev :=
  match d.evt.path with
  | [] => d
  | p0 :: t =>
    let d1 : Dev := { d with evt := { d.evt with path := t } }
    let p := if p0.approx then { p0 with cyc := d.cycle } else p0
    if d1.intakeNow < intakeLimit p.sev then
      ({ d1 with evt := { d1.evt with intake := d1.evt.intake ++ [p] } } : Dev).intakeStat
    else
      let d2 := (d1.bump (R.evtCnt 1) 1).lose p.blk p.src 2
      if d2.evt.shedT = d2.tick + 1 then d2
      else ({ d2 with evt := { d2.evt with shedT := d2.tick + 1 } } : Dev).raise Blk.evt Src.evtShedding d2.tickLo d2.intakeNow 0

/-- The path is full: the first posting of S1 or S2 is dropped and counted (R32). -/
def Dev.postDrop (d : Dev) : Dev :=
  match d.evt.path.find? (fun p => decide (p.sev ≤ 2)) with
  | none => d
  | some p =>
    let d1 : Dev := { d with evt := { d.evt with path := d.evt.path.erase p } }
    let d2 := (d1.bump (R.evtCnt 5) 1).lose p.blk p.src 1
    let n := sumN ((d2.evt.lost.filter (fun x => x.blk == p.blk && x.src == p.src && x.cause == 1)).map (·.count))
    d2.raise Blk.evt Src.evtStatusDrop p.blk n 0

/-! ## The black box (R375 to R378) -/

/-- The DRAM extension takes a closed record (R378). -/
def Sys.extWrite (s : Sys) (r : EvRec) : Sys :=
  let d := s.dev
  if d.rf R.ddrStat 0 1 = 0 ∨ d.rf R.bbxDstat 30 1 = 1 then s
  else
    let i := d.rf R.bbxDstat 0 21
    let d1 := (d.setFld R.bbxDstat 0 21 ((i + 1) % 2097152)).setFld R.bbxDstat 31 1 1
    let d2 := if i + 1 = 2097152 then d1.setFld R.bbxDstat 29 1 1 else d1
    let later := (r.seq + 2 ^ 32 - d.reg R.bbxTrigseq) % 2 ^ 32
    let d3 := match d2.bbx.dpost with
      | some n =>
        if later = 0 ∨ 2 ^ 31 ≤ later then d2
        else
          let d4 : Dev := { d2 with bbx := { d2.bbx with dpost := some (n - 1) } }
          if n ≤ 1 then d4.setFld R.bbxDstat 30 1 1 else d4
      | none => d2
    { s with dev := d3, mem := s.mem.putBytes (d.bbxExtBase + 32 * i) r.bytes }

/-- A record closes: it may reach the host ring, and it goes to the extension (R373). -/
def Sys.closeRec (s : Sys) (seq : Nat) : Sys :=
  match s.dev.evt.queue.find? (fun x => x.1.seq == seq && !x.2) with
  | none => s
  | some x =>
    let s1 := s.onDev (fun d => { d with evt := { d.evt with
      queue := d.evt.queue.map (fun y => if y.1.seq == seq then (y.1, true) else y)
      opens := d.evt.opens.filter (fun o => o.recd.seq != seq) } })
    s1.extWrite x.1

/-- Every open record closes. -/
def Sys.closeAll (s : Sys) : Sys := each (s.dev.evt.opens.map (fun o => o.recd.seq)) (fun q s => s.closeRec q) s

/-- A trigger that finds the black box triggered is counted; while frozen it makes a TRIGGER record of cause 4 (R377). -/
def Dev.trigLost (d : Dev) (reason : Nat) : Dev :=
  let d1 := d.bump (R.bbxCnt 1) 1
  if d1.rf R.bbxStat 31 1 = 1 then d1.makeRec Blk.bbx 4 2 4 reason 0 else d1

/-- A trigger by the watchdog (cause 2) or a command (cause 3): a TRIGGER record is made for it (R375). -/
def Dev.bbxTrigger (d : Dev) (cause reason : Nat) : Dev :=
  if d.rf R.bbxStat 30 1 = 1 then d.trigLost reason
  else ((((d.setFld R.bbxStat 30 1 1).setFld R.bbxStat 26 3 cause).bump (R.bbxCnt 0) 1)).makeRec Blk.bbx 4 2 cause reason 0

/-- Whether a record numbered now is the trigger record: the first of S4 while armed, or the TRIGGER record a trigger has made. -/
def Dev.isTrigger (d : Dev) (r : EvRec) : Bool :=
  (decide (4 ≤ r.sev) && d.rf R.bbxStat 30 1 == 0) ||
    (r.code / 256 == 4 && r.src == 0xFF && (r.d0 == 2 || r.d0 == 3) && d.rf R.bbxStat 30 1 == 1 && d.bbx.post.isNone)

/-- A record of S4 triggers the black box, or is counted as lost when it is triggered (R375, R377). -/
def Dev.bbxS4 (d : Dev) (r : EvRec) : Dev :=
  if r.sev < 4 then d
  else if d.rf R.bbxStat 30 1 = 1 then d.trigLost 0
  else ((d.setFld R.bbxStat 30 1 1).setFld R.bbxStat 26 3 1).bump (R.bbxCnt 0) 1

/-- The ring takes a numbered record, unless it is frozen; the 2,048th from the trigger freezes it (R375). -/
def Sys.bbxStore (s : Sys) (r : EvRec) : Sys :=
  let trig := s.dev.isTrigger r
  let d := s.dev.bbxS4 r
  if d.rf R.bbxStat 31 1 = 1 then { s with dev := d }
  else
    let i := d.rf R.bbxStat 0 13
    let d1 := d.setFld R.bbxStat 0 13 ((i + 1) % 8192)
    let d2 := if i + 1 = 8192 then d1.setFld R.bbxStat 29 1 1 else d1
    let d3 := if trig then
        let e := (d2.setFld R.bbxTrig 0 13 i).setReg R.bbxTrigseq r.seq
        ({ e with bbx := { e.bbx with
          post := some 0
          dpost := if e.rf R.bbxCtrl 1 1 = 1 then some (e.rf R.bbxDcfg 0 22) else none } } : Dev)
      else d2
    let s1 : Sys := { s with dev := d3, mem := s.mem.putBytes (retainedBase + 32 * i) r.bytes }
    match d3.bbx.post with
    | none => s1
    | some n =>
      let s2 := s1.onDev (fun d => ({ d with bbx := { d.bbx with post := some (n + 1) } } : Dev).setFld R.bbxTrig 16 12 (n + 1))
      if n + 1 < 2048 then s2
      else
        let s3 := s2.onDev (fun d => d.setFld R.bbxStat 31 1 1)
        s3.onDev (fun d => d.makeRec Blk.bbx 5 1 (d.reg R.bbxTrigseq) (d.reg R.evtSeq) 0)

/-- BBX.CTRL.REARM (R377). -/
def Dev.bbxRearm (d : Dev) : Dev :=
  let d1 := ((d.setReg R.bbxStat (d.reg R.bbxStat % 2 ^ 26 + d.rf R.bbxStat 29 1 * 2 ^ 29)).setReg R.bbxTrig 0).setReg R.bbxTrigseq 0
  let d2 := d1.setFld R.bbxDstat 30 1 0
  { d2 with bbx := { d2.bbx with
    post := none
    dpost := none
    wdFired := false } }

/-! ## Numbering (R370, R372, R373) -/

/-- A record takes the next sequence number and goes to the black box; `upto` is the end of its window if it stays open. -/
def Sys.numberRec (s : Sys) (r0 : EvRec) (upto : Option Nat) : Sys :=
  let d := s.dev
  let r := { r0 with seq := d.reg R.evtSeq }
  let frozen := d.rf R.bbxStat 31 1 == 1
  let i := d.rf R.bbxStat 0 13
  let s1 := s.onDev (fun d => (d.setReg R.evtSeq ((r.seq + 1) % 2 ^ 32)).bump (R.evtCnt 0) 1)
  let s2 := s1.bbxStore r
  let s3 := s2.onDev (fun d => { d with evt := { d.evt with queue := d.evt.queue ++ [(r, false)] } })
  let froze := !frozen && s3.dev.rf R.bbxStat 31 1 == 1
  let s4 := match upto with
    | some t => s3.onDev (fun d => { d with evt := { d.evt with
        opens := d.evt.opens ++ [{ recd := r, idx := if frozen then none else some i, upto := t }] } })
    | none => s3.closeRec r.seq
  if froze then s4.closeAll else s4

/-- The token bucket of a source at the tick of a posting: full at first, PER / 96,000 tokens a tick; whether it gives a token (R372). -/
def Dev.token (d : Dev) (b src t : Nat) : Dev × Bool :=
  let per := max 1 (d.rf R.evtRate 16 16)
  let cap := max 1 (d.rf R.evtRate 0 8) * 96000
  let k := 256 * b + src
  let x := match tabGet d.evt.buckets k with
    | some x => x
    | none => { fill := cap, at_ := t }
  let fill := min cap (x.fill + (t - x.at_) * per)
  let ok := decide (96000 ≤ fill)
  let x1 : Bucket := { fill := if ok then fill - 96000 else fill, at_ := max t x.at_ }
  ({ d with evt := { d.evt with buckets := tabSet d.evt.buckets k x1 } }, ok)

/-- Ahead of a write of EVT.RATE: what the buckets have gained so far, they have gained at the old rate (R372). -/
def Dev.rateSettle (d : Dev) (off : Nat) : Dev :=
  if off ≠ R.evtRate then d
  else
    let per := max 1 (d.rf R.evtRate 16 16)
    let cap := max 1 (d.rf R.evtRate 0 8) * 96000
    d.onEvt (fun e => { e with buckets := e.buckets.map (fun x =>
      (x.1, { fill := min cap (x.2.fill + (d.tick - x.2.at_) * per), at_ := max d.tick x.2.at_ })) })

/-- The DROP records that precede the next record of a source (R371, R372). -/
def Sys.drops (s : Sys) (p : Posting) : Sys :=
  let mine := s.dev.evt.lost.filter (fun x => x.blk == p.blk && x.src == p.src)
  let s1 := s.onDev (fun d => { d with evt := { d.evt with
    lost := d.evt.lost.filter (fun x => !(x.blk == p.blk && x.src == p.src)) } })
  each (sortBy (fun (x : Lost) => x.cause) mine) (fun x s =>
    let r : EvRec :=
      { seq := 0
        tick := p.tick
        cyc := p.cyc
        blk := p.blk
        src := p.src
        sevm := 1
        epoch := p.epoch
        code := 0x100 + 8 * b2n s.dev.testMode
        rep := 0
        d0 := x.count % 2 ^ 32
        d1 := 0
        d2 := x.cause }
    s.numberRec r none) s1

/-- The open record of a source. -/
def Dev.openOf (d : Dev) (p : Posting) : Option OpenRec :=
  d.evt.opens.find? (fun o => o.recd.blk == p.blk && o.recd.src == p.src)

/-- A posting folds into an open record: same severity, same data, within its window (R373). -/
def OpenRec.folds (o : OpenRec) (p : Posting) : Bool :=
  o.recd.sev == p.sev && o.recd.d0 == p.d0 && o.recd.d1 == p.d1 && o.recd.d2 == p.d2 && decide (p.tick < o.upto)

/-- One more occurrence in an open record, also in the black box (R373). -/
def Sys.fold (s : Sys) (o : OpenRec) : Sys :=
  let r := { o.recd with rep := min 65535 (o.recd.rep + 1) }
  let s1 := s.onDev (fun d => ({ d with evt := { d.evt with
    opens := d.evt.opens.map (fun x => if x.recd.seq == r.seq then { x with recd := r } else x)
    queue := d.evt.queue.map (fun x => if x.1.seq == r.seq then (r, x.2) else x) } } : Dev).bump (R.evtCnt 3) 1)
  let s2 := match o.idx with
    | some i => if s1.dev.rf R.bbxStat 31 1 = 1 then s1 else s1.onMem (fun m => m.putBytes (retainedBase + 32 * i + 18) (leBytes 2 r.rep))
    | none => s1
  if r.rep = 65535 then s2.closeRec r.seq else s2

/-- A posting is numbered, folded or shed. -/
def Sys.numberPosting (s : Sys) (p : Posting) : Sys :=
  match s.dev.openOf p with
  | some o => if o.folds p then s.fold o else numberNew (s.closeRec o.recd.seq) p
  | none => numberNew s p
where
  /-- A posting that folds into no record. -/
  numberNew (s : Sys) (p : Posting) : Sys :=
    let low := decide (p.sev ≤ 2)
    let t := if low then s.dev.token p.blk p.src p.tick else (s.dev, true)
    let s1 : Sys := { s with dev := t.1 }
    if !t.2 then s1.onDev (fun d => (d.bump (R.evtCnt 2) 1).lose p.blk p.src 3)
    else
      let win := s1.dev.rf R.evtCoal 0 16
      (s1.drops p).numberRec p.toRec (if low && win != 0 then some (p.tick + win) else none)

/-- The postings of a tick in the order of R370. -/
def numberOrder (l : List Posting) : List Posting :=
  sortBy (fun p => ((p.cyc * 8 + (4 - p.sev)) * 32 + p.blk) * 256 + p.src) l

/-- A record that opens a session (R46). -/
def EvRec.session (r : EvRec) : Bool := r.src == 0xFF && r.code / 256 == 2

/-- EVT numbers what has been collected of tick `t`. -/
def Sys.numberTick (s : Sys) (t : Nat) : Sys :=
  let ps := numberOrder (s.dev.evt.intake.filter (fun p => p.tick == t))
  let ms := s.dev.evt.made.filter (fun r => r.tick == t)
  let s1 := s.onDev (fun d => { d with evt := { d.evt with
    intake := d.evt.intake.filter (fun p => p.tick != t)
    made := d.evt.made.filter (fun r => r.tick != t) } })
  each ms (fun r s => s.numberRec r none) (each ps (fun p s => s.numberPosting p) s1)

/-- Numbering waits for the SESSION record that begins the session of a cold reset (R46). -/
def Dev.numberHold (d : Dev) : Bool :=
  d.cmd.draw.contains 0 || d.evt.made.any (fun r => r.session && r.tick == d.tick)

/-- A SESSION record that is made and not numbered takes its number (R46). -/
def Sys.numberSession (s : Sys) : Sys :=
  each (s.dev.evt.made.filter EvRec.session) (fun r s => s.numberRec r none)
    (s.onDev (fun d => { d with evt := { d.evt with made := d.evt.made.filter (fun r => !r.session) } }))

/-- EVT numbers the postings and the records of earlier ticks, a SESSION record before all others (R46, R370). -/
def Sys.evtNumbering (s : Sys) : Sys :=
  if s.dev.numberHold then s
  else
    let s0 := s.numberSession
    let ts := (s0.dev.evt.intake.map (·.tick) ++ s0.dev.evt.made.map (·.tick)).filter (fun t => t != s0.dev.tick)
    let s1 := each (sortBy id ts).eraseDups (fun t s => s.numberTick t) s0
    s1.onDev (fun d => d.intakeStat)

/-- Records whose window has ended close (R373). -/
def Sys.coalesceClose (s : Sys) : Sys :=
  each ((s.dev.evt.opens.filter (fun o => decide (o.upto ≤ s.dev.tick))).map (fun o => o.recd.seq)) (fun q s => s.closeRec q) s

/-! ## The host event ring (R374, R380) -/

/-- The ring's entries lie outside the host-rings region, or its base is not aligned (STAT.BADRING). -/
def Dev.evtBadRing (d : Dev) : Bool :=
  let base := d.reg R.evtRbaselo / 64 * 64 + 2 ^ 32 * (d.reg R.evtRbasehi % 256)
  let n := d.rf R.evtRsize 0 17
  n != 0 && !(decide (d.ringBase ≤ base) && decide (base + 32 * n ≤ d.ringBase + ringSize))

/-- The ring is usable. -/
def Dev.evtRingOk (d : Dev) : Bool :=
  d.rf R.evtCtrl 0 1 == 1 && d.rf R.evtRsize 0 17 != 0 && !d.evtBadRing && d.mgmtRst.isNone

/-- Records the host has not read. -/
def Dev.evtUnread (d : Dev) : Nat :=
  let n := max 1 (d.rf R.evtRsize 0 17)
  (d.rf R.evtWridx 0 16 + n - d.rf R.evtRdidx 0 16 % n) % n

/-- The notification: NOTIFY or more unread records, or a record of S2 or above written and not all read. -/
def Dev.notifyUpdate (d : Dev) : Dev :=
  let u := d.evtUnread
  let high := d.evt.high && u != 0
  let on := decide (d.rf R.evtNotify 0 16 ≤ u) || high
  let d1 : Dev := { d with evt := { d.evt with high := high, notify := on } }
  let d2 := if on && !d.evt.notify then d1.pme else d1
  d2.irqUpdate

/-- A record is skipped: the gap grows (R374). -/
def Dev.ringSkip (d : Dev) (r : EvRec) : Dev :=
  let paused := d.mgmtRst.isSome
  let d1 := d.bump (R.evtCnt 4) 1
  let isNew := d.evt.gapN == 0
  let d2 : Dev := { d1 with evt := { d1.evt with
    gapN := d1.evt.gapN + 1
    gap1 := if isNew then r.seq else d1.evt.gap1
    gapMgmt := paused || (d1.evt.gapMgmt && !isNew) } }
  if isNew && d.evtRingOk then d2.raise Blk.evt Src.evtHostRingFull (d.rf R.evtWridx 0 16) (d.rf R.evtRdidx 0 16) r.seq else d2

/-- The DROP record that covers the gap takes the next sequence number (R374). -/
def Sys.ringDrop (s : Sys) : Sys :=
  let e := s.dev.evt
  let r : EvRec :=
    { seq := 0
      tick := s.dev.tick
      cyc := s.dev.cycle
      blk := Blk.evt
      src := 0xFF
      sevm := 1
      epoch := s.dev.evEpoch
      code := 0x100 + 8 * b2n s.dev.testMode
      rep := 0
      d0 := e.gapN % 2 ^ 32
      d1 := e.gap1
      d2 := if e.gapMgmt then 5 else 4 }
  (s.onDev (fun d => { d with evt := { d.evt with
    gapN := 0
    gap1 := 0
    gapMgmt := false } })).numberRec r none

/-- The next closed record goes to the host ring, or is skipped; a gap is first covered once two entries are free (R374). -/
def Sys.hostRingWrite (s0 : Sys) : Sys :=
  let n0 := s0.dev.rf R.evtRsize 0 17
  let s := if s0.dev.evt.gapN != 0 && s0.dev.evtRingOk && decide (s0.dev.evtUnread + 3 ≤ n0) then s0.ringDrop else s0
  let d := s.dev
  match d.evt.queue with
  | [] => s
  | (r, closed) :: t =>
    if !closed then s
    else
      let s1 := s.onDev (fun d => { d with evt := { d.evt with queue := t } })
      let n := d.rf R.evtRsize 0 17
      if d.evtRingOk && d.evt.gapN == 0 && decide (d.evtUnread + 2 ≤ n) then
        let base := d.reg R.evtRbaselo / 64 * 64 + 2 ^ 32 * (d.reg R.evtRbasehi % 256)
        let w := d.rf R.evtWridx 0 16 % n
        let s2 := s1.onMem (fun m => m.putBytes (base + 32 * w) r.bytes)
        s2.onDev (fun d =>
          let d1 := d.setReg R.evtWridx ((w + 1) % n)
          let d2 : Dev := { d1 with evt := { d1.evt with high := d1.evt.high || decide (2 ≤ r.sev) } }
          -- a record of S2 or above raises the notification anew
          let d3 : Dev := if 2 ≤ r.sev then
              let v := bitSet d2.evt.vecs (d2.routeVec R.evtNotifyroute)
                ((List.range 31).any (fun b => d2.irqLine b && d2.routeVec (R.evtIrqroute b) == d2.routeVec R.evtNotifyroute))
              { d2 with evt := { d2.evt with notify := false, vecs := v } }
            else d2
          d3.notifyUpdate)
      else s1.onDev (fun d => d.ringSkip r)

/-- EVT.RESEND: the named vectors' messages are sent again if their lines are still asserted (R380). -/
def Dev.vectorResend (d : Dev) (mask : Nat) : Dev :=
  (bitsOn 32 (mask &&& d.vecLines)).foldl (fun d v => d.msix v) d

/-! ## The watchdog (R379) -/

/-- The watchdog counts a tick. -/
def Dev.wdogTick (d : Dev) : Dev :=
  { d with bbx := { d.bbx with wdMs := if d.rf R.bbxWdcfg 31 1 = 1 then d.bbx.wdMs + 1 else 0 } }

/-- The watchdog times out: TIMEOUT milliseconds without a kick, or with the tick stopped at any time. -/
def Dev.wdogExpire (c : Nat) (d0 : Dev) : Dev :=
  let d := d0.atC c
  let t := max 1 (d.rf R.bbxWdcfg 0 16)
  if d.rf R.bbxWdcfg 31 1 = 1 ∧ (96 * t ≤ d.bbx.wdMs ∨ d.rf R.synStat 1 1 = 0) then
    let d1 : Dev := { d with bbx := { d.bbx with wdMs := 0 } }
    let d2 := d1.raise Blk.bbx Src.bbxWdogExpired t d.tickLo 0
    if d2.bbx.wdFired then d2
    else ({ d2 with bbx := { d2.bbx with wdFired := true } } : Dev).bbxTrigger 2 0
  else d0

/-- BBX.WDKICK. -/
def Dev.wdogKick (d : Dev) : Dev := { d with bbx := { d.bbx with wdMs := 0 } }

/-! ## FAULT_N (R33, R164, R365) -/

/-- FAULT_N is asserted by block `b`. -/
def Dev.faultAssert (d : Dev) (b : Nat) : Dev :=
  if d.bbx.faultN then d
  else
    let d1 := (d.setFld R.bbxFault 31 1 1).setFld R.bbxFault 0 5 b
    ({ d1 with bbx := { d1.bbx with faultN := true } } : Dev).pme

/-- A clear that is due at the present boundary takes effect or is ignored; `yields` says that a yield line was asserted in the tick that
ended (R365). -/
def Dev.faultClear (d : Dev) (yields : Bool) : Dev :=
  if !d.bbx.clrReq then d
  else
    let d1 : Dev := { d with bbx := { d.bbx with clrReq := false } }
    if yields || d1.bbx.clkCond || d1.rf R.thmStat 30 1 == 1 || d1.testMode then
      (if d1.bbx.faultN then d1.setFld R.bbxFault 30 1 1 else d1)
    else if d1.bbx.faultN then
      let b := d1.rf R.bbxFault 0 5
      let d2 : Dev := { d1 with bbx := { d1.bbx with faultN := false } }
      (d2.setReg R.bbxFault 0).makeRec Blk.bbx 6 1 b 0 0
    else d1

/-! ## THM (R381, R382) -/

/-- A temperature in quarter degrees, as a register holds it. -/
def tempWord (x : Int) : Nat := wrapN 16 x

/-- The median of a list of readings: the middle one, of an even number the lower middle one. -/
def medianI (l : List Int) : Int := (sortBy (fun x => (x + 32768).toNat) l).getD ((l.length - 1) / 2) 0

/-- The other sensors' readings. -/
def others (l : List Int) (i : Nat) : List Int := l.take i ++ l.drop (i + 1)

/-- Sensor `i` is excluded: outside −55 °C to 175 °C, or 15 °C or more from the median of the others (R381). -/
def sensorBad (l : List Int) (i : Nat) : Bool :=
  let x := l.getD i 0
  decide (x < -220) || decide (700 < x) || decide (60 ≤ (x - medianI (others l i)).natAbs)

/-- THERM_WARN and THERM_YIELD at a conversion with TJ = `tj` at sensor `hot` (R382). -/
def Dev.thmThresholds (d : Dev) (tj : Int) (hot : Nat) : Dev :=
  let warn : Int := 4 * (d.rf R.thmCfg 0 8 : Int)
  let above := decide (warn ≤ tj)
  let d1 := d.setFld R.thmStat 29 1 (b2n above)
  let d2 := if above && !d1.thm.warned then
      ({ d1 with thm := { d1.thm with warned := true } } : Dev).raise Blk.thm Src.thmThermWarn (tempWord tj) hot d1.tickLo
    else if tj ≤ warn - 20 then { d1 with thm := { d1.thm with warned := false } }
    else d1
  let isHot := decide ((620 : Int) ≤ tj)
  let d3 : Dev := { d2 with thm := { d2.thm with hot := isHot } }
  if isHot && d.thm.hot && d3.rf R.thmStat 30 1 == 0 then
    (d3.setFld R.thmStat 30 1 1).raise Blk.thm Src.thmThermYield (tempWord tj) hot d3.tickLo
  else if tj < 600 then d3.setFld R.thmStat 30 1 0
  else d3

/-- A conversion of the six sensors, readings in quarter degrees (R381, R382). -/
def Dev.thmConversion (rd : List Int) (c : Nat) (d0 : Dev) : Dev :=
  let l := (List.range 6).map (fun i => rd.getD i 0)
  let d := d0.atC c
  let bad := (List.range 6).filter (sensorBad l)
  let d1 := forN 6 (fun i d => d.setReg (R.thmTemp i) (tempWord (l.getD i 0))) d
  let d2 := d1.setFld R.thmStat 8 6 (bad.foldl (fun m i => bitSet m i true) 0)
  let d3 := each bad (fun i d => d.raise Blk.thm Src.thmSensorFail i (tempWord (l.getD i 0)) (tempWord (medianI (others l i)))) d2
  let good := (List.range 6).filter (fun i => !bad.contains i)
  match good with
  | [] => d3
  | i0 :: _ =>
    let hot := good.foldl (fun m i => if l.getD m 0 < l.getD i 0 then i else m) i0
    let tj := l.getD hot 0
    let d4 := (d3.setFld R.thmStat 0 3 hot).setReg R.thmTj (tempWord tj)
    let d5 := if sgn 16 (d4.reg R.thmTjmax) < tj then d4.setReg R.thmTjmax (tempWord tj) else d4
    d5.thmThresholds tj hot

/-! ## GPIO (R433, R434) -/

/-- The level of each pin when the board drives `ext`: a push-pull output gives its OUT bit, an open-drain output gives 0 for OUT = 0. -/
def Dev.gpioPins (d : Dev) (ext : Nat) : Nat :=
  (List.range 8).foldl (fun m p =>
    let o := bit (d.reg R.gpioOut) p
    let v := if bit (d.reg R.gpioDir) p then (if bit (d.reg R.gpioOden) p then o && bit ext p else o) else bit ext p
    bitSet m p v) 0

/-- The levels of the pins, stable for DBTIME where debounced, reach the edge detectors (R434). -/
def Dev.gpioEdge (ext c : Nat) (d0 : Dev) : Dev :=
  let d := d0.atC c
  let old := d.reg R.gpioIn
  let new := d.gpioPins ext
  let hit := (List.range 8).filter (fun p =>
    let m := d.rf R.gpioEdgecfg (2 * p) 2
    (!bit old p && bit new p && bit m 0) || (bit old p && !bit new p && bit m 1))
  let d1 := d.setReg R.gpioIn new
  let earlier := (List.range 8).filter (fun p => bit (d.reg R.gpioEdge) p && d.reg (R.gpioEdgetick p) == d.tickLo)
  let d2 := each hit (fun p d => (d.setFld R.gpioEdge p 1 1).setReg (R.gpioEdgetick p) d.tickLo) d1
  if hit.isEmpty then d2
  else d2.raise Blk.gpio Src.gpioEdge ((hit ++ earlier).foldl (fun m p => bitSet m p true) 0) new d.tickLo

end Sys2Proof.Machine
end

