-- ==== Sys2Proof/Machine/Pair.lean ====
section
/-!
DEFINITION. The redundant pair: pins and roles (R294 to R303), STATUS frames, the lease, its release, lapse and takeover (R295 to R301,
R459, R460), tick adoption (R304), forwarded local inputs (R305), digests and attribution (R308 to R313), and the mirror link
(R322 to R324).
-/
namespace Sys2Proof.Machine

/-- The unit takes part in mirror traffic: paired, not ISOLATED, its management plane not in reset (R29, R303). -/
def Dev.mirLive (d : Dev) : Bool := d.paired && d.role != .isolated && d.mgmtRst.isNone

/-- A mirror frame arrives at cycle `c`: counted and seen at the snoop point (R322, R351). -/
def Dev.mirIn (d0 : Dev) (c : Nat) : Dev := (((d0.atC c).bump (R.mirCnt 1) 1).mirSnoop 3)

/-- A change of PAIR's own state. -/
def Dev.onPair (d : Dev) (f : Pair → Pair) : Dev := { d with pair := f d.pair }

/-- A frame carries the SEQ expected, or is one sent again; before the first of a link any is. -/
def Dev.seqFits (d : Dev) (h : MirHdr) : Bool := h.again || d.pair.rxSeq == none || d.pair.rxSeq == some h.seq

/-- The SEQ of a frame that arrives: a gap is answered with a retransmission request for the frames in it (R322, log entry 134). -/
def Dev.seqIn (d : Dev) (h : MirHdr) : Dev :=
  let fits := d.seqFits h
  let n := d.pair.rxSeq.getD 0
  let d1 := if h.again then d else d.onPair (fun p => { p with rxSeq := some ((h.seq + 1) % 65536) })
  if fits then d1 else d1.mirSend (.retrans n ((h.seq + 65536 - n) % 65536))

/-- The header of a mirror frame that arrives: counted, seen at the snoop point, its SEQ followed (R322, R351). -/
def Dev.mirHead (h : MirHdr) (d : Dev) : Dev := if d.mirLive then (d.mirIn h.c).seqIn h else d

/-- The unit sends its identity (R14): the spec gives no instant; the model sends it as the link comes up, and as the unit becomes one that takes
part in mirror traffic (log entry 135). -/
def Dev.identitySend (d : Dev) : Dev := if d.mirLive then d.mirSend (.identity (d.reg R.sysId) (d.lv R.ddrCfg)) else d

/-- The partner's SYS.ID and DRAM configuration against the unit's own: a mismatch isolates the unit that does not hold the lease (R14, R302). -/
def Dev.identityCheck (d : Dev) : Dev :=
  match d.pair.ident with
  | none => d
  | some (sysid, dram) =>
    let own := d.reg R.sysId
    let kind : Nat := if sysid ≠ own then 1 else if dram % 2 ≠ d.lf R.ddrCfg 0 1 then 2 else 0
    if kind = 0 ∨ d.role == .active ∨ !d.mirLive then d
    else
      let d1 := if kind = 1 then d.raise Blk.pair Src.pairPartnerMismatch 1 own sysid
        else d.raise Blk.pair Src.pairPartnerMismatch 2 (d.lv R.ddrCfg) dram
      d1.onPair (fun p => { p with toRole := some (4, false) })

/-! ## Resynchronisation ends early (R321) -/

/-- The resynchronisation state of a unit that is not in one; the next attempt waits until tick `retry`. -/
def Resync.idle (r : Resync) (retry : Nat) : Resync := { retry := retry, recs := r.recs, recNow := r.recNow }

/-- The resynchronisation ends: the freeze ends, the partner of an aborted one returns to FALLOW (R321). -/
def Dev.resyncStop (d : Dev) : Dev :=
  let d1 := (d.setFld R.pairRsstat 0 3 0).setFld R.pairStat 13 1 0
  let d2 := d1.onPair (fun p => { p with
    rs := p.rs.idle (d.tick + 96000)
    toRole := if d.paired && d.role == .catchup then some (3, false) else p.toRole })
  { d2 with replayT := none }

/-- An abort for a cause of R325 (R321). -/
def Dev.resyncAbort (d : Dev) (cause : Nat) : Dev :=
  let d1 := (d.bump (R.pairCnt 5) 1).raise Blk.pair Src.pairResyncAbort cause d.tickLo 0
  (d1.mirSend (.resync 3 d.tick)).resyncStop

/-! ## Pins and roles (R294, R298, R302) -/

/-- OWN_OUT and HOLD_OUT, held low in factory test mode (R367). -/
def Dev.setPins (d : Dev) (own hold : Bool) : Dev :=
  (d.setFld R.pairStat 9 1 (b2n (own && !d.testMode))).setFld R.pairStat 8 1 (b2n (hold && !d.testMode))

/-- HOLD_OUT is driven high. -/
def Dev.holdOut (d : Dev) : Bool := d.rf R.pairStat 8 1 == 1

/-- A paired load that awaits the partner, after a change of either unit's role (R120): the unit that holds the lease continues alone, one that
stopped being SHADOW or stopped holding the lease refuses its load. -/
def Dev.loadRole (d : Dev) (was : Role) : Dev :=
  match d.ldr.job with
  | some j =>
    if !j.peerCopy || d.loadState != 1 then d
    else if d.role == .active then
      -- the copy, should it be under way, ends: the unit goes on with its own single pass
      let d1 : Dev := { d with ldr := { d.ldr with job := some { j with peerCopy := false } } }
      if d.rf R.loadStat 4 3 = 1 then (d1.setFld R.loadStat 4 3 2).setReg R.loadProgress 0 else d1
    else if d.role != .shadow || was == .active then d.loadRefuse { reason := 0x11, i0 := 0x83 }
    else d
  | none => d

/-- The unit enters role `r` (5: standalone) at the present boundary; an ACTIVE unit that leaves raises RELEASE with its cause, and its pins
continue as a SHADOW's through the tick (R298). -/
def Dev.enterRole (d : Dev) (r cause : Nat) : Dev :=
  let was := d.role
  if r = 5 then
    (((((d.setFld R.pairCtrl 31 1 0).setFld R.pairStat 0 3 0).setFld R.pairStat 12 1 0).setFld R.pairStat 10 1 0).setPins false false).onPair
      (fun p => { p with toRole := none, ownHigh := none, pinsUntil := 0, bridgeEnd := false })
  else if r = was.code then d
  else
    -- a resynchronisation that ISOLATE ends is over for both units
    let dA := if was == .catchup && r == 4 && d.phase != 0 then (d.mirSend (.resync 3 d.tick)).resyncStop else d
    let dB := (dA.setFld R.pairStat 0 3 r).setFld R.pairStat 12 1 0
    let d1 := if r = 4 then dB.setFld R.pairStat 10 1 0 else dB
    let d2 := if r = 0 then
        (d1.setPins true true).onPair (fun p => { p with
          toRole := none
          renew := d.tick
          pinsUntil := 0
          lapsed := false
          bridgeEnd := false })
      else if was == .active then
        let e := if cause = 0 then d1 else d1.raise Blk.pair Src.pairRelease cause (d1.reg R.pairEpoch) d1.tickLo
        let e1 := if e.phase = 0 then e else e.resyncAbort 4
        ((e1.strmYield (r == 1)).setPins false false).onPair (fun p => { p with
          lastHb := some d.tick
          lapsed := false
          ownHigh := none
          pinsUntil := if r = 1 then 0 else d.tick + 1 })
      else
        let e := (d1.setPins false false).onPair (fun p => { p with bridgeEnd := false, toRole := if r = 4 then none else p.toRole })
        if r = 1 then e else e.strmYield false
    let d3 := if r = 0 then d2 else d2.setReg R.pairRecmax 0
    let d4 := d3.loadRole was
    if was == .isolated then d4.identitySend.identityCheck else d4

/-- A change of role due at the next boundary; at a boundary itself it is made at once. -/
def Dev.roleNext (d : Dev) (r cause : Nat) : Dev :=
  if d.cycle = 0 then d.enterRole r cause else d.onPair (fun p => { p with toRole := some (r, false) })

/-- The unit takes the lease for a cause, with a new epoch (R297, R300, R302). -/
def Dev.takeLease (d : Dev) (cause epoch : Nat) : Dev :=
  let e := epoch % 2 ^ 32
  let d1 := (d.setReg R.pairEpoch e).enterRole 0 0
  (d1.bump (R.pairCnt 0) 1).raise Blk.pair Src.pairTakeover cause e d1.tickLo

/-- No heartbeat has come in the last 3 ticks (R296, R302). -/
def Dev.silent (d : Dev) : Bool :=
  match d.pair.lastHb with
  | some n => decide (n + 4 ≤ d.tick)
  | none => true

/-! ## STATUS (R295, R308, R459, R460) -/

/-- The digests of the tick are recorded when they close; four ticks are kept (R308, R309). -/
def Dev.digRecord (d : Dev) (ds dt : Nat) : Dev :=
  let r : DigRec := { tick := d.engTick, ds := ds, dt := dt, err := false }
  d.onPair (fun p => { p with digs := (p.digs ++ [r]).drop ((p.digs.length + 1) - 5) })

/-- The digests sent under PAIR.FORCE.DIG are inverted (R366). -/
def corrupt (on : Bool) (v : Nat) : Nat := if on then 2 ^ 64 - 1 - v else v

/-- The cause of the release that the STATUS of this tick carries, if it carries one: one asked for, else the unit's own yield. -/
def Dev.relCause (d : Dev) : Option Nat :=
  if d.role != .active then none
  else match d.pair.askRel with
    | some c => some c
    | none => if d.evt.yieldW.isEmpty then none else some 1

/-- A yield counts for the lease (R364). -/
def Dev.yieldsCount (d : Dev) : Bool := d.role == .active || d.role == .shadow || d.role == .catchup

/-- The STATUS frame of the tick, with its digests. -/
def Dev.statusFrame (d : Dev) (ds dt : Nat) : StatusF :=
  let f := d.lf R.pairForce 1 2
  let m := d.mapNext
  let rel := d.relCause
  { tick := d.tick
    epoch := d.reg R.pairEpoch
    role := d.role.code
    hb := d.role == .active && d.lf R.pairForce 0 1 == 0 && rel.isNone
    release := rel.map (fun c => (c, (d.reg R.pairEpoch + 1) % 2 ^ 32))
    yields := if d.yieldsCount then d.evt.yieldW else []
    ds := corrupt (bit f 0) ds
    dt := corrupt (bit f 1) dt
    errmark := d.evt.errT
    adopt := d.rf R.pairStat 10 1 == 1
    mapD := m.delta
    disc := m.cause
    creep := m.creep }

/-- The window of a STATUS ends: its yields and its ERRMARK are taken (R309, R459), and whether its digests are forced (R366). -/
def Dev.statusWindow (d : Dev) : Dev :=
  let e := d.evt.errT
  let forced := d.lf R.pairForce 1 2 != 0
  let d1 := d.onPair (fun p => { p with
    digs := p.digs.map (fun r => if r.tick == d.tick then { r with err := e, forced := forced } else r)
    ownYield := d.yieldsCount && !d.evt.yieldW.isEmpty })
  { d1 with evt := { d1.evt with errT := false, yieldW := [] } }

/-- At cycle 10,048 each paired unit sends its STATUS. -/
def Dev.statusSend (d0 : Dev) : Dev :=
  let d := d0.atC 10048
  if !d.mirLive then d
  else
    let x := match d.pair.digs.find? (fun r => r.tick == d.tick) with
      | some r => (r.ds, r.dt)
      | none => (0, 0)
    let f := d.statusFrame x.1 x.2
    let d1 := (d.statusWindow).onPair (fun p => { p with
      ownRel := d.relCause
      askRel := none })
    (d1.setFld R.pairForce 1 2 0).mirSend (.status f)

/-- A heartbeat that reaches a lease holder: EPOCH_CONFLICT, and the unit with the lower epoch, or B on a tie, leaves (R300). -/
def Dev.epochConflict (d : Dev) (f : StatusF) : Dev :=
  if d.role != .active then d
  else
    let own := d.reg R.pairEpoch
    let d1 := d.raise Blk.pair Src.pairEpochConflict own f.epoch 0
    if own < f.epoch ∨ (own = f.epoch ∧ d.rf R.pairStat 5 1 = 1) then
      d1.onPair (fun p => { p with toRole := some (3, true) })
    else d1

/-- What a timely STATUS says of the lease (R296). -/
def Dev.statusLease (d : Dev) (f : StatusF) : Dev :=
  let d1 := if f.hb then (d.onPair (fun p => { p with lastHb := some d.tick, lapsed := false })).epochConflict f else d
  match f.release with
  | some (cause, next) => d1.onPair (fun p => { p with relRx := some (f.tick, next, cause) })
  | none => d1

/-- The digests of a STATUS serve the comparison until cycle 0 of tick N + 2 (R308). -/
def Dev.statusDigest (d : Dev) (f : StatusF) : Dev :=
  if d.tick < f.tick + 2 ∧ f.role ≤ 1 then
    let r : DigRec := { tick := f.tick, ds := f.ds, dt := f.dt, err := f.errmark }
    d.onPair (fun p => { p with peerDigs := (p.peerDigs ++ [r]).drop ((p.peerDigs.length + 1) - 5) })
  else d

/-! ## The replay ring (R318) -/

/-- The bytes the replay ring holds. -/
def ringBytes : Nat := 224 * 2 ^ 20

/-- A unit that records for its replay: CATCHUP and not joined, or FALLOW and armed for the snapshot. -/
def Dev.recording (d : Dev) : Bool := d.paired && (d.role == .catchup || (d.role == .fallow && d.phase == 1)) && d.phase != 5

/-- The tick of a record of the ring, for a tick record. -/
def RingRec.tickOf : RingRec → Option Nat
  | .tick r => some r.tick
  | .cmd _ _ => none

/-- `add` bytes more in the ring; too little space aborts with cause 1. -/
def Dev.ringGrow (d : Dev) (add : Nat) : Dev :=
  let n := d.pair.rs.used + add
  if ringBytes < n then d.resyncAbort 1
  else (d.onPair (fun p => { p with rs := { p.rs with used := n } })).setFld R.pairRsstat 20 12 (n / 2 ^ 20)

/-- The tick record of tick `t` changed, made first where there is none yet; `add` bytes of packets come with the change. -/
def Dev.ringTick (d : Dev) (t add : Nat) (f : TickRec → TickRec) : Dev :=
  if !d.recording || decide (t < d.w64 R.pairSnap) then d
  else
    let hit := d.pair.rs.ring.any (fun r => r.tickOf == some t)
    let ring := if hit then
        d.pair.rs.ring.map (fun r => match r with
          | .tick x => if x.tick = t then .tick (f x) else .tick x
          | .cmd m n => .cmd m n)
      else d.pair.rs.ring ++ [.tick (f { tick := t })]
    (d.onPair (fun p => { p with rs := { p.rs with ring := ring } })).ringGrow (add + (if hit then 0 else 1472))

/-! ## STATUS arrives -/

/-- A SHADOW or CATCHUP partner stops being one: a paired load of the lease holder continues alone (R120), its resynchronisation is over. -/
def Dev.peerChanged (d : Dev) (f : StatusF) : Dev :=
  let d1 := if d.role == .active && f.role != 1 then d.loadRole .active else d
  if d1.role == .active && f.role == 1 && d1.phase != 0 then
    (d1.setFld R.pairRsstat 0 3 0).onPair (fun p => { p with rs := p.rs.idle 0 })
  else d1

/-- A STATUS frame arrives at cycle `c` (R296, R300, R308). -/
def Dev.statusReceive (f : StatusF) (c : Nat) (d0 : Dev) : Dev :=
  let timely := f.tick == d0.tick && decide (c ≤ 10175)
  if d0.mgmtRst.isSome then d0
  else if !d0.paired then
    (if f.hb && timely then d0.onPair (fun p => { p with lastHb := some d0.tick }) else d0)
  else if d0.role == .isolated then d0
  else
    let d := (d0.atC c).onPair (fun p => { p with
      peer := some f
      peerAt := d0.tick
      inTime := timely })
    let d1 := if timely then d.statusLease f else d
    let d2 := (d1.statusDigest f).peerChanged f
    let d3 : Dev := if timely then { d2 with time := { d2.time with fwd := some (f.tick + 1, f.mapD, f.disc, f.creep) } } else d2
    let d4 := d3.ringTick (f.tick + 1) 0 (fun r => { r with map := some (f.mapD, f.disc, f.creep) })
    d4.ringTick f.tick 0 (fun r => { r with digest := some (f.ds, f.dt, f.errmark) })

/-- TICK_ADOPT: a FALLOW unit whose CLK is LOCKED to PARTNER takes the partner's tick number at the next boundary, unless it has it already
(R304). -/
def Dev.tickAdopt (c : Nat) (d0 : Dev) : Dev :=
  let d := d0.atC c
  match d.pair.peer with
  | some f =>
    let t := f.tick + (d.tick - d.pair.peerAt)
    if d.paired && d.role == .fallow && d.clkMode == 2 && d.clkSel == some 3 && (d.rf R.pairStat 10 1 == 0 || t != d.tick) then
      (d.onPair (fun p => { p with adopt := some (t + 1) })).setFld R.pairStat 10 1 1
    else d
  | none => d

/-! ## The lease at its ends (R29, R296, R297, R299) -/

/-- The lease keeper in AO: 3 ticks without a renewal deassert both pins, and the lease is lost (R29, R295). -/
def Dev.leaseKeeper (c : Nat) (d0 : Dev) : Dev :=
  let d := d0.atC c
  let due := decide (d.pair.renew * 10240 + windowEnd + 30720 ≤ d.instant)
  if (d.holdOut || d.rf R.pairStat 9 1 == 1) && d.rf R.pairStat 12 1 == 0 && due then
    let d1 := d.setPins false false
    if d1.role == .active && d1.paired && d1.mgmtRst.isNone then d1.roleNext 3 5 else d1
  else d

/-- Three ticks without a heartbeat end the partner's lease (R296). -/
def Dev.leaseLapse (d0 : Dev) : Dev :=
  let d := d0.atC 0
  match d.pair.lastHb with
  | some n =>
    if d.paired && (d.role == .shadow || d.role == .catchup || d.role == .fallow) && decide (n + 4 ≤ d.tick) && !d.pair.lapsed then
      let d1 := d.onPair (fun p => { p with lapsed := true })
      if d1.role == .catchup then d1.resyncAbort 4 else d1
    else d
  | none => d

/-- The release that ends at the present boundary. -/
def Dev.relNow (d : Dev) : Option (Nat × Nat) :=
  match d.pair.relRx with
  | some (t, next, cause) => if t + 1 = d.tick then some (next, cause) else none
  | none => none

/-- At cycle 256 a SHADOW takes an ended lease if HOLD_IN has stayed inactive; after a lapse with HOLD_IN active it goes FALLOW (R297,
R301, R460). -/
def Dev.takeover (holdActive : Bool) (d0 : Dev) : Dev :=
  let d := d0.atC 256
  if !d.paired || d.role != .shadow || d.mgmtRst.isSome then d
  else match d.relNow with
    | some (next, cause) =>
      if (cause == 1 && d.pair.joint) || holdActive then d
      else
        let d1 := if d.pair.joint then d.raise Blk.pair Src.pairJointYield d.tickLo 0 0 else d
        d1.takeLease 1 next
    | none =>
      if !d.pair.lapsed then d
      else if holdActive then d.onPair (fun p => { p with toRole := some (3, false) })
      else d.takeLease 2 (d.reg R.pairEpoch + 1)

/-- Unit A as SHADOW bridges a silent loss of the lease holder (R299). -/
def Dev.bridge (c : Nat) (d0 : Dev) : Dev :=
  let d := ((d0.atC c).setFld R.pairStat 6 1 0).setFld R.pairStat 7 1 0
  if d.paired && d.role == .shadow && d.rf R.pairStat 5 1 == 0 && d.rf R.pairStat 12 1 == 0 && d.mgmtRst.isNone && d.relNow.isNone then
    ((d.setPins true false).setFld R.pairStat 12 1 1).raise Blk.pair Src.pairBridge d.tickLo 0 0
  else d

/-- HOLD_IN is active again for 64 cycles: with heartbeats arriving, the bridge ends at the next boundary (R299). -/
def Dev.bridgeOver (c : Nat) (d0 : Dev) : Dev :=
  let d := (d0.atC c).setFld R.pairStat 6 1 1
  if d.rf R.pairStat 12 1 == 1 && !d.silent then d.onPair (fun p => { p with bridgeEnd := true }) else d

/-! ## Forwarded local inputs (R305) -/

/-- Words of the landing half of tick `t` written. -/
def Sys.landWords (s : Sys) (t : Nat) (words : List (Nat × Nat)) : Sys :=
  let ws := words.filter (fun w => decide (w.1 ≤ 0x121))
  let s1 := s.storeWords (ws.map (fun w => (fwdLand (t % 2) + 4 * w.1, w.2)))
  s1.onDev (fun d => d.onPair (fun p => { p with
    landT := t
    landed := (if p.landT = t then p.landed else []) ++ ws.map (·.1) }))

/-- What has been buffered for tick `t` lands from cycle 9,984 of tick t − 1 on. -/
def Sys.landBuffered (s : Sys) (t : Nat) : Sys :=
  match tabGet s.dev.pair.fwdBuf t with
  | none => s
  | some ws =>
    (s.landWords t ws).onDev (fun d => d.onPair (fun p => { p with fwdBuf := p.fwdBuf.filter (fun x => decide (t < x.1)) }))

/-- Forwarded words and slip decisions destined for tick `dest` arrive. -/
def Sys.localsReceive (dest : Nat) (words : List (Nat × Nat)) (decs : List (Nat × Nat × Nat)) (c : Nat) (s0 : Sys) : Sys :=
  if !s0.dev.mirLive then s0
  else
    let s := s0.onDev (fun d => d.atC c)
    let d := s.dev
    if d.recording then
      s.onDev (fun d => d.ringTick dest 0 (fun r => { r with words := r.words ++ words, decs := r.decs ++ decs }))
    else if !d.lockstep then s
    else
      let s1 := s.onDev (fun d => d.decsIn dest decs)
      if (d.tick + 1 = dest ∧ windowEnd ≤ c) ∨ (d.tick = dest ∧ c < 1024) then s1.landWords dest words
      else if d.tick < dest then
        s1.onDev (fun d => d.onPair (fun p => { p with
          fwdBuf := tabSet p.fwdBuf dest ((tabGet p.fwdBuf dest).getD [] ++ words) }))
      else s1

/-- At cycle 1,023 words not landed are filled from the unit's own local section (R305). -/
def Sys.landingFill (s0 : Sys) : Sys :=
  let s := s0.onDev (fun d => d.atC 1023)
  let d := s.dev
  if !d.lockstep then s
  else
    let have_ : List Nat := if d.pair.landT = d.tick then d.pair.landed else []
    let miss := (List.range 0x122).filter (fun i => !have_.contains i)
    let h := d.tick % 2
    let s1 := s.storeWords (miss.map (fun i => (fwdLand h + 4 * i, (s.mem.word (locSect h + 4 * i)).toNat)))
    if miss.isEmpty then s1 else s1.onDev (fun d => d.raise Blk.pair Src.pairFwdMiss 1 d.tickLo miss.length)

/-! ## Digests (R310 to R313) -/

/-- The digests of tick `n` of a list. -/
def digOf (l : List DigRec) (n : Nat) : Option DigRec := l.find? (fun r => r.tick == n)

/-- ERRMARK within the window of tick `n`: ticks n − 2 to n (R309). -/
def errIn (l : List DigRec) (n : Nat) : Bool := l.any (fun r => r.err && decide (n ≤ r.tick + 2) && decide (r.tick ≤ n))

/-- The registers that show a comparison. -/
def Dev.digShow (d : Dev) (a b : DigRec) : Dev :=
  ((((d.setReg R.pairDigtick (a.tick % 2 ^ 32)).setW (R.pairDig 0) a.ds).setW (R.pairDig 1) a.dt).setW (R.pairDig 2) b.ds).setW
    (R.pairDig 3) b.dt

/-- A genuine divergence of tick `n` (R310): both marked or neither leaves the lease holder; else the marked unit gives way. -/
def Dev.diverge (d : Dev) (n : Nat) (ownErr peerErr forced : Bool) : Dev :=
  let attr := if ownErr && !peerErr then 1 else if peerErr && !ownErr then 2 else 0
  let d1 := (d.bump (R.pairCnt 2) 1).raiseF Blk.pair Src.pairDiverge forced (n % 2 ^ 32) attr 0
  let d2 := d1.setFld R.pairRsstat 3 17 0
  if d.role == .active then
    (if attr = 1 then d2.onPair (fun p => { p with askRel := some 2 }) else d2)
  else if d.role == .catchup then d2.resyncAbort 3
  else if attr = 2 then d2
  else d2.onPair (fun p => { p with toRole := some (3, false) })

/-- The comparison of two digests of a tick (R310, R311, R354). -/
def Dev.digCompare (d : Dev) (a b : DigRec) (ownErr peerErr : Bool) : Dev :=
  let x := a.ds != b.ds
  let y := a.dt != b.dt
  let d0 := d.digShow a b
  let d1 := if x then d0.cvuFail 4 else d0
  let d2 := if y then d1.cvuFail 5 else d1
  if !x && !y then d2.setFld R.pairRsstat 3 17 (min 131071 (d2.rf R.pairRsstat 3 17 + 1))
  else if x && y then d2.diverge a.tick ownErr peerErr a.forced
  else
    let d3 := (d2.setFld R.pairRsstat 3 17 0).onPair (fun p => { p with
      checks := p.checks.filter (fun t => decide (a.tick < t + 16)) ++ [a.tick] })
    if d2.pair.checks.any (fun t => decide (a.tick < t + 16)) then
      (d3.onPair (fun p => { p with checks := [] })).diverge a.tick ownErr peerErr a.forced
    else
      (d3.bump (R.pairCnt 1) 1).raiseF Blk.pair Src.pairCheckOnly a.forced (a.tick % 2 ^ 32) (if x then 1 else 2) 0

/-- At cycle 0 of tick N + 2 the digests of tick N are compared; two comparisons missing in a row move a SHADOW to FALLOW (R308, R310,
R312). -/
def Dev.digBoundary (d : Dev) : Dev :=
  if !(d.paired && (d.role == .active || d.lockstep)) then d.onPair (fun p => { p with miss := 0 })
  else
    let n := d.tick - 2
    match digOf d.pair.digs n with
    | none => d
    | some a =>
      match digOf d.pair.peerDigs n with
      | some b => (d.onPair (fun p => { p with miss := 0 })).digCompare a b (errIn d.pair.digs n) (errIn d.pair.peerDigs n)
      | none =>
        if d.role == .active then d
        else
          let k := d.pair.miss + 1
          let d1 := d.onPair (fun p => { p with miss := k })
          if 2 ≤ k ∧ d.role == .shadow then d1.onPair (fun p => { p with toRole := some (3, false) }) else d1

/-- Eight ticks in a row with MOD_DIVERGE or FWD_MISSING move a SHADOW to FALLOW (R313). -/
def Dev.modRule (d : Dev) : Dev :=
  let bad := d.evt.modBad && d.paired && d.role == .shadow
  let n := if bad then d.pair.modRun + 1 else 0
  let d1 := d.onPair (fun p => { p with
    modRun := if 8 ≤ n then 0 else n
    toRole := if 8 ≤ n then some (3, false) else p.toRole })
  { d1 with evt := { d1.evt with modBad := false } }

/-! ## The boundary (R33, R298, R301, R302, R460) -/

/-- A yield of the tick that ended (R33): a standalone unit asserts FAULT_N, an ACTIVE unit drops OWN_OUT. -/
def Dev.yieldEffect (d : Dev) (ys : List Nat) : Dev :=
  match ys with
  | [] => d
  | b :: _ =>
    if !d.paired then d.faultAssert b
    else if d.role == .active then d.setPins false d.holdOut
    else d

/-- The release sent in the tick that ended is settled (R301, R460). -/
def Dev.releaseSettle (d : Dev) : Dev :=
  match d.pair.ownRel with
  | none => d
  | some cause =>
    let d1 := d.onPair (fun p => { p with ownRel := none })
    if d1.role != .active then d1
    else
      let timely := d.pair.inTime && (match d.pair.peer with
        | some f => f.tick + 1 == d.tick
        | none => false)
      let peerY := match d.pair.peer with
        | some f => !f.yields.isEmpty
        | none => false
      if cause = 1 ∧ !(timely && !peerY) then
        let d2 := (d1.setPins false d1.holdOut).onPair (fun p => { p with ownHigh := some (d.tick + 1) })
        if timely && peerY then d2.raise Blk.pair Src.pairJointYield ((d.tick - 1) % 2 ^ 32) 0 0 else d2
      else d1.enterRole (if cause = 3 then 1 else 3) cause

/-- The unit's own yield as SHADOW or CATCHUP, no release having come (R301). -/
def Dev.ownYieldRole (d : Dev) : Dev :=
  let y := d.pair.ownYield
  let d1 := d.onPair (fun p => { p with ownYield := false, joint := y })
  if !y then d1
  else if d1.role == .catchup then
    -- R325 lists no cause for a yield: a free value
    (d1.draw.1.resyncAbort (d1.draw.2.toNat % 2 ^ 32)).enterRole 3 0
  else if d1.role == .shadow && d1.relNow.isNone then d1.enterRole 3 0
  else d1

/-- PAIR_ENABLE takes effect (R302): LEAD with epoch 1 and the lease, FOLLOW as FALLOW. -/
def Dev.pairEnable (d : Dev) (lead : Bool) : Dev :=
  let d1 := (d.setFld R.pairCtrl 31 1 1).setFld R.pairStat 10 1 0
  let d2 := if lead then
    ((((d1.setReg R.pairEpoch 1).setFld R.pairStat 0 3 0).setPins true true).onPair (fun p => { p with
      renew := d.tick
      pinsUntil := 0
      lapsed := false
      bridgeEnd := false }))
  else (d1.enterRole 3 0).onPair (fun p => { p with pinsUntil := 0 })
  d2.identitySend.identityCheck

/-- A role change that was waiting for this boundary; codes 6 and 7 stand for PAIR_ENABLE with LEAD and FOLLOW, 8 for TAKE. -/
def Dev.roleBoundary (d : Dev) : Dev :=
  match d.pair.toRole with
  | none => d
  | some (r, conflict) =>
    let d1 : Dev := d.onPair (fun p => { p with toRole := none })
    if r = 6 ∨ r = 7 then d1.pairEnable (r = 6)
    else if r = 8 then d1.takeLease 3 (d1.reg R.pairEpoch + 1)
    else d1.enterRole r (if d1.role == .active then (if conflict then 4 else 5) else 0)

/-- OWN_OUT at the end of a joint yield (R301) and of a bridge (R299). -/
def Dev.pinsBoundary (d : Dev) : Dev :=
  let d1 : Dev := match d.pair.ownHigh with
    | some t =>
      if t ≤ d.tick then
        let e : Dev := d.onPair (fun p => { p with ownHigh := none })
        if e.paired && e.role == .active then e.setPins true e.holdOut else e
      else d
    | none => d
  if d1.pair.bridgeEnd then
    ((d1.setPins false d1.holdOut).setFld R.pairStat 12 1 0).onPair (fun p => { p with bridgeEnd := false })
  else d1

/-- PAIR.LEASE, ENG.STAT.LOCSRC and PAIRMODE at the boundary (R59, R295). -/
def Dev.pairStatus (d : Dev) : Dev :=
  let age := fun (n : Nat) => min 255 (d.tick - n)
  let lap := match d.pair.lastHb with
    | some n => age n
    | none => 255
  let d1 := if d.paired then d.setReg R.pairLease (256 * age d.pair.renew + lap) else d
  let d2 := d1.setFld R.engStat 6 1 (b2n (d.paired && (d.role == .shadow || d.role == .catchup)))
  (d2.setFld R.engStat 7 1 (b2n d.paired)).setFld R.pairStat 11 1 (d.rf R.mirStat 0 1)

/-- MIR.RTLOAD of the tick that ended; RT_OVERLOAD where more than the cap was asked for, and what waited leaves now; the tick marker (R323). -/
def Dev.rtBoundary (d : Dev) : Dev :=
  let n := d.pair.rtSent
  let d1 := (d.setFld R.mirRtload 0 16 n)
  let d2 := if d1.rf R.mirRtload 16 16 < n then d1.setFld R.mirRtload 16 16 n else d1
  let d3 := if rtCap < d.pair.rtAsked then d2.raise Blk.mir Src.mirRtOverload d.pair.rtAsked d2.tickLo 0 else d2
  let d4 := d3.onPair (fun p => { p with
    rtSent := 0
    rtAsked := 0
    rtLoc := false
    queued := []
    marker := if d.mirLive && d.rf R.mirStat 0 1 == 1 then some d.tick else p.marker })
  each d.pair.queued (fun m d => d.mirSend m) d4

/-- The round trip of the link, measured continuously (R304). -/
def Dev.delayBoundary (d : Dev) (rtt : Option Nat) : Dev :=
  match rtt with
  | some ps => if d.rf R.mirStat 0 1 = 1 then d.setReg R.mirDelay (ps / 2 % 2 ^ 24) else d
  | none => d

/-- The bytes the tick record of the tick that ended would hold; RECMAX is the largest of the last 96,000 ticks (R315). -/
def Dev.recBoundary (d : Dev) : Dev :=
  if !(d.paired && d.role == .active) then d
  else
    let t := d.tick - 1
    let n := 1472 + d.pair.rs.recNow
    let l := (d.pair.rs.recs.filter (fun x => decide (t < x.1 + 96000) && decide (n < x.2))) ++ [(t, n)]
    (d.onPair (fun p => { p with rs := { p.rs with recs := l, recNow := 0 } })).setReg R.pairRecmax
      (min (2 ^ 24 - 1) (maxN (l.map (fun x => x.2))))

/-- PAIR and MIR at the boundary into the present tick: `ys` the yields of the tick that ended, `hold` and `own` the filtered levels of HOLD_IN
and PARTNER_OWN_IN, `rtt` the round trip of the link. -/
def Dev.pairBoundary (d : Dev) (ys : List Nat) (hold own : Bool) (rtt : Option Nat) : Dev :=
  let d0 := (d.setFld R.pairStat 6 1 (b2n hold)).setFld R.pairStat 7 1 (b2n own)
  let d1 := (((d0.yieldEffect ys).roleBoundary).releaseSettle).pinsBoundary
  let d2 := (d1.ownYieldRole).digBoundary
  (((d2.modRule).rtBoundary).recBoundary).delayBoundary rtt

/-! ## The mirror link (R322 to R324, R458) -/

/-- The link goes down in a paired load of the lease holder: a copy under way has failed, and past it the unit continues alone (R117, R120). -/
def Dev.loadLink (d : Dev) : Dev :=
  match d.ldr.job with
  | some j =>
    if !j.peerCopy || d.loadState != 1 || d.role != .active then d
    else if d.rf R.loadStat 4 3 = 1 then d.loadRefuse { reason := 0x11, i0 := 0x82 }
    else { d with ldr := { d.ldr with job := some { j with peerCopy := false } } }
  | none => d

/-- STAT.LINK and DEGRADED follow the lanes; a change of the link raises its fault. -/
def Dev.linkEval (d : Dev) (ps : Nat) : Dev :=
  let n := d.rf R.mirStat 4 1 + d.rf R.mirStat 5 1
  let was := d.rf R.mirStat 0 1
  let d1 := (d.setFld R.mirStat 0 1 (min 1 n)).setFld R.mirStat 1 1 (b2n (n == 1))
  let d2 := d1.setFld R.pairStat 11 1 (min 1 n)
  if was = 0 ∧ 0 < n then
    (d2.raise Blk.mir Src.mirLinkUp d2.tickLo ps 0).identitySend
  else if was = 1 ∧ n = 0 then
    let d3 := ((d2.onPair (fun p => { p with ident := none, rxSeq := none, queued := [] })).raise Blk.mir Src.mirLinkDown d2.tickLo d2.tickHi 0).loadLink
    if d3.refState 3 = 0 ∨ d3.refState 3 = 1 then d3 else d3.refLose 3
  else d2

/-- A lane without a valid block for 1,024 cycles (R324). -/
def Dev.mirLaneDown (n c : Nat) (d0 : Dev) : Dev :=
  let d := d0.atC c
  if n < 2 ∧ d.rf R.mirStat (4 + n) 1 = 1 then
    ((d.setFld R.mirStat (4 + n) 1 0).raise Blk.mir Src.mirLaneDown n d.tickLo 0).linkEval 0
  else d

/-- No valid block on either lane for 1,024 cycles. -/
def Dev.mirLinkDown (c : Nat) (d0 : Dev) : Dev := (d0.mirLaneDown 0 c).mirLaneDown 1 c

/-- A lane with 64 ticks of error-free blocks comes up, if it is enabled; `ps` is the measured round trip (R304, R324). -/
def Dev.mirLaneUp (n ps c : Nat) (d0 : Dev) : Dev :=
  let d := d0.atC c
  if n < 2 ∧ d.rf R.mirStat (4 + n) 1 = 0 ∧ bit (d.lv R.mirCtrl) n then
    let d1 := (d.setFld R.mirStat (4 + n) 1 1).setReg R.mirDelay (ps / 2 % 2 ^ 24)
    (d1.raise Blk.mir Src.mirLaneUp n d.tickLo 0).linkEval ps
  else d

/-- TYPE names a class of R458. -/
def listedType (ty : Nat) : Bool := decide (1 ≤ ty ∧ ty ≤ 0x10)

/-- A frame that is dropped and counted as a check failure: of a TYPE that R458 does not list, or, where its TYPE is a listed one, a frame that
failed its check, which is answered with a retransmission request (R322, R458; log entry 134). -/
def Dev.unknownFrame (ty seq lane c : Nat) (d0 : Dev) : Dev :=
  if !d0.mirLive then d0
  else
    let d := (((d0.mirIn c).bump (R.mirCnt 2) 1)).raise Blk.mir Src.mirCheckFail ty seq lane
    if listedType ty then d.mirSend (.retrans seq 1) else d

/-- A real-time frame past its deadline: dropped and counted; in a CATCHUP unit it ends the resynchronisation.  A bulk frame has no deadline: one
of the image or the delay regions lost for good is a check failure that retransmission did not repair (R321 to R323). -/
def Dev.frameLate (ty seq c : Nat) (d0 : Dev) : Dev :=
  if !d0.mirLive then d0
  else if 0x0D ≤ ty ∧ ty ≤ 0x0F then
    (if d0.role == .catchup && d0.phase != 0 then (d0.atC c).resyncAbort 5 else d0.atC c)
  else if ty = 0x0B then d0.atC c
  else
    let d := d0.atC c
    let d1 := (d.bump (R.mirCnt 4) 1).raise Blk.mir Src.mirFrameLate ty seq d.tickLo
    if d1.role == .catchup && d1.phase != 0 then d1.resyncAbort 2 else d1

/-- The frame last sent under a TYPE and a SEQ. -/
def Dev.sentFrame (d : Dev) (ty seq : Nat) : Option MirFrame := d.out.mir.reverse.find? (fun f => f.msg.type == ty && f.seq == seq)

/-- A retransmission request from the partner: the frame leaves again, marked so in its FLAGS (R322). -/
def Dev.retransmit (ty seq c : Nat) (d0 : Dev) : Dev :=
  if !d0.mirLive then d0
  else
    let d := d0.atC c
    match d.sentFrame ty seq with
    | none => d
    | some f => if d.rf R.mirStat 0 1 = 0 then d else (d.bump (R.mirCnt 3) 1).mirFrame true f.seq f.len f.msg

/-- The partner's SYS.ID and DRAM configuration arrive, before the unit is paired too (R14, R302). -/
def Dev.identityReceive (sysid dram c : Nat) (d0 : Dev) : Dev :=
  if d0.mgmtRst.isSome then d0
  else ((d0.atC c).onPair (fun p => { p with ident := some (sysid, dram) })).identityCheck

end Sys2Proof.Machine
end

