-- ==== Sys2Proof/Machine/Resync.lean ====
section
/-!
DEFINITION. Resynchronisation beside the replay: its start and its snapshot (R315, R316), the image and the delay regions as bulk frames
with the partner copy of a sheaf image (R120, R316 to R318), and what a CATCHUP unit records (R318).
-/
namespace Sys2Proof.Machine

/-! ## Start (R315) -/

/-- The image of R316 in bytes, block state included. -/
def imageBytes : Nat := 17022976

/-- The part of the image that is memory. -/
def imageMem : Nat := 16760832

/-- The bytes of the delay regions of a sheaf. -/
def Sheaf.delayBytes (sh : Sheaf) : Nat := sumN (sh.regions.map (fun r => 4 * r.depth * r.ch))

/-- Bulk frames per tick: MIR.BULK, at least 1, at most 10, at most 2 with one lane (R323). -/
def Dev.bulkFrames (d : Dev) : Nat :=
  let n := clampN 1 10 (d.rf R.mirBulk 0 4)
  if d.rf R.mirStat 0 1 = 0 then 0 else if d.rf R.mirStat 1 1 = 1 then min n 2 else n

/-- The backlog in ticks. -/
def Dev.backlog (d : Dev) : Nat :=
  let bytes := imageBytes + (match d.ldr.act with
    | some sh => sh.delayBytes
    | none => 0)
  let per := 4096 * max 1 d.bulkFrames
  (bytes + per - 1) / per

/-- The predicted peak use of the replay ring fits: 1.25 × RECMAX × backlog within 224 MiB. -/
def Dev.ringFits (d : Dev) : Bool := decide (5 * d.reg R.pairRecmax * d.backlog ≤ 4 * ringBytes)

/-- The conditions of a start, beside the prediction. -/
def Dev.resyncMay (d : Dev) : Bool :=
  let r := d.pair.rs
  d.mirLive && d.role == .active && d.phase == 0 && d.rf R.mirStat 0 1 == 1 &&
    (r.asked || (d.lf R.pairCtrl 8 1 == 1 && decide (r.retry ≤ d.tick))) &&
    (match d.pair.peer with
      | some f => f.role == 3 && f.adopt
      | none => false) &&
    d.pair.ident == some (d.reg R.sysId, d.lv R.ddrCfg) &&
    (d.loadState == 0 || d.loadState == 4) && decide (d.w64 R.loadTransend ≤ d.tick)

/-- The lease holder evaluates a start: it chooses T, or aborts with cause 6 and waits 96,000 ticks. -/
def Dev.resyncStart (c : Nat) (d0 : Dev) : Dev :=
  let d := d0.atC c
  if !d.resyncMay then d
  else if !d.ringFits then
    let d1 := (d.bump (R.pairCnt 5) 1).raise Blk.pair Src.pairResyncAbort 6 d.tickLo 0
    d1.onPair (fun p => { p with rs := { p.rs with asked := false, retry := d.tick + 96000 } })
  else
    let t := d.tick + max 16 (d.lf R.pairCtrl 0 8)
    let d1 := ((d.setW R.pairSnap t).setFld R.pairRsstat 0 3 1).bump (R.pairCnt 4) 1
    let d2 := d1.onPair (fun p => { p with rs := { p.rs with asked := false } })
    (d2.raise Blk.pair Src.pairResync 1 (t % 2 ^ 32) 0).mirSend (.resync 1 t)

/-- A control frame: 1 the snapshot tick, 2 start, 3 abort. -/
def Dev.resyncControl (kind t c : Nat) (d0 : Dev) : Dev :=
  if !d0.mirLive then d0
  else
    let d := d0.atC c
    if kind = 1 ∧ d.role == .fallow then
      ((d.setW R.pairSnap t).setFld R.pairRsstat 0 3 1).onPair (fun p => { p with rs := p.rs.idle 0 })
    else if kind = 3 ∧ d.phase ≠ 0 then d.resyncStop
    else d

/-! ## The snapshot (R316) -/

/-- The registers of blocks whose state the image carries: LOAD and STRM. -/
def inImage (off : Nat) : Bool := off / 0x10000 == Blk.load || off / 0x10000 == Blk.strm

/-- The block state at the boundary into T. -/
def Dev.blockState (d : Dev) : BlockState :=
  { agenda := d.agenda
    held := d.held
    slots := (List.range 8).map (fun i => (d.w64 (R.tickSlotcnt i), d.w64 (R.tickSlottgt i)))
    eng := d.eng
    ldr := d.ldr
    regs := d.regs.filter (fun r => inImage r.1)
    wide := d.wide.filter (fun r => inImage r.1)
    strm := d.strm
    tdm := d.tdm
    bank := d.rf R.engStat 5 1 }

/-- The delay regions of the active plan by ascending CHASE rank, each from the frame after its write pointer (R317). -/
def Dev.copyRegs (d : Dev) : List CopyReg :=
  match d.ldr.act with
  | none => []
  | some sh => (sortBy (fun (r : Region) => r.chase) sh.regions).map (fun r =>
      { key := r.key
        base := r.base
        depth := r.depth
        ch := r.ch
        first := (d.wpOf r + 1) % max 1 r.depth
        idx := 0
        off := 0
        gone := [] })

/-- At the boundary into T: the lease holder freezes the image; its partner enters CATCHUP and holds its engine (R316, R318). -/
def Sys.resyncFreeze (s0 : Sys) : Sys :=
  let s := s0.onDev (fun d => d.atC 0)
  let d := s.dev
  if !d.paired || d.phase != 1 || d.w64 R.pairSnap != d.tick then s
  else if d.role == .active then
    s.onDev (fun d => ((d.setFld R.pairStat 13 1 1).setFld R.pairRsstat 0 3 2).onPair (fun p => { p with rs := { p.rs with
      snap := s.mem
      blk := some d.blockState
      sent := 0
      copy := d.copyRegs } }))
  else if d.role == .fallow then
    s.onDev (fun d =>
      let d1 := ((d.setFld R.pairRsstat 0 3 2).setFld R.pairRsstat 3 17 0).setFld R.engStat 0 3 0
      (d1.enterRole 2 0).ringTick d.tick 0 id)
  else s

/-! ## Bulk frames (R120, R316, R317) -/

/-- The address of byte `o` of the image's memory, for the active bank and the parity of T (R316). -/
def imageAddr (bank h o : Nat) : Nat :=
  if o < 4718592 then
    let x := o % 98304
    instrBase (o / 98304) bank + 16 * (x / 12) + x % 12
  else if o < 11010048 then coefBase 0 + (o - 4718592)
  else if o < 14155776 then stateBase 0 + (o - 11010048)
  else if o < 16220160 then exBase + (o - 14155776)
  else if o < 16744448 then inHalf h + (o - 16220160)
  else fwdLand h + (o - 16744448)

/-- One bulk frame of the image. -/
def Dev.imageFrame (d : Dev) : Dev :=
  let r := d.pair.rs
  let o := r.sent
  let bank := match r.blk with
    | some b => b.bank
    | none => 0
  let d1 := d.onPair (fun p => { p with rs := { p.rs with sent := o + 4096 } })
  if o < imageMem then
    d1.mirSend (.image o ((List.range 4096).map (fun i => r.snap.get (imageAddr bank (d.w64 R.pairSnap % 2) (o + i)))))
  else if o = imageMem then
    match r.blk with
    | some b => d1.mirSend (.imageState b)
    | none => d1
  else if o < imageBytes then d1
  else d

/-- The address of frame `j` of a region being copied, counted from its oldest. -/
def CopyReg.addr (c : CopyReg) (j : Nat) : Nat := c.base + 4 * c.ch * ((c.first + j) % max 1 c.depth)

/-- One bulk frame of the delay regions: whole frames that fit in 4,096 bytes, or a part of one; a frame sent before it was overwritten is
passed over.  A forced uncorrectable read fails the copy (R321, R401). -/
def Sys.delayFrame (s : Sys) : Sys :=
  match s.dev.pair.rs.copy with
  | [] => s
  | c :: rest =>
    let fb := 4 * c.ch
    let put := fun (l : List CopyReg) (d : Dev) => d.onPair (fun p => { p with rs := { p.rs with copy := l } })
    if c.depth ≤ c.idx then s.onDev (put rest)
    else if fb ≤ 4096 then
      let k := min (4096 / max 1 fb) (c.depth - c.idx)
      let js := (rangeFrom c.idx k).filter (fun j => !c.gone.contains j)
      let f := s.dev.dramForced 3 (c.addr c.idx)
      if f.2 then s.onDev (fun _ => f.1.resyncAbort 5)
      else
        let d1 := put (if c.idx + k = c.depth then rest else { c with idx := c.idx + k } :: rest) f.1
        { s with dev := if js.isEmpty then d1 else d1.mirSend (.delay (js.map (fun j => (c.addr j, s.mem.bytes (c.addr j) fb)))) }
    else if c.gone.contains c.idx then s.onDev (put ({ c with idx := c.idx + 1, off := 0 } :: rest))
    else
      let n := min 4096 (fb - c.off)
      let c1 : CopyReg := if c.off + n = fb then { c with idx := c.idx + 1, off := 0 } else { c with off := c.off + n }
      let d1 := put (if c1.idx = c.depth then rest else c1 :: rest) s.dev
      { s with dev := d1.mirSend (.delay [(c.addr c.idx + c.off, s.mem.bytes (c.addr c.idx + c.off) n)]) }

/-- One bulk frame of the partner copy of a sheaf image; the last one carries the image's place, with which the partner begins its load
(R120). -/
def Sys.copyFrame (s : Sys) : Sys :=
  let d := s.dev
  let off := d.reg R.loadSrcoff
  let len := d.reg R.loadSrclen
  let o := d.reg R.loadProgress
  if len ≤ o then s
  else
    let n := min 4096 (len - o)
    let d1 := d.setReg R.loadProgress (o + n)
    let last := decide (o + n = len)
    -- PROGRESS counts the bytes of the phase (R130): the single pass begins
    let d2 := if last then (d1.setFld R.loadStat 4 3 2).setReg R.loadProgress 0 else d1
    { s with dev := d2.mirSend (.sheafCopy (off + o) (s.mem.bytes (d.storeBase + off + o) n) (if last then some (off, len) else none)) }

/-- The load in progress awaits the partner's copy. -/
def Dev.copying (d : Dev) : Bool :=
  d.paired && d.role == .active && d.loadState == 1 && d.rf R.loadStat 4 3 == 1 && (match d.ldr.job with
    | some j => j.peerCopy
    | none => false)

/-- The bulk frames of a tick (R323). -/
def Sys.bulkSend (s : Sys) : Sys :=
  if !s.dev.mirLive || s.dev.role != .active then s
  else forN s.dev.bulkFrames (fun _ s =>
    if s.dev.copying then s.copyFrame
    else if s.dev.phase = 2 then s.onDev (fun d => d.imageFrame)
    else if s.dev.phase = 3 then s.delayFrame
    else s) s

/-- The image has been sent: the freeze ends (R316). -/
def Dev.imageSent (c : Nat) (d0 : Dev) : Dev :=
  let d := d0.atC c
  if d.role == .active && d.paired && d.rf R.pairStat 13 1 == 1 && decide (imageBytes ≤ d.pair.rs.sent) then
    ((d.setFld R.pairStat 13 1 0).setFld R.pairRsstat 0 3 3).onPair (fun p => { p with rs := { p.rs with snap := [], blk := none } })
  else d

/-! ## What a partner receives -/

/-- A frame of the sheaf-store copy; with the last one the partner begins its own load (R120). -/
def Sys.sheafCopyReceive (off : Nat) (bs : List Byte) (load : Option (Nat × Nat)) (c : Nat) (s0 : Sys) : Sys :=
  if !s0.dev.mirLive then s0
  else
    let s := s0.onDev (fun d => d.atC c)
    let d := s.dev
    if d.role != .shadow || decide (storeSize < off + bs.length) then s
    else
      let s1 := s.onMem (fun m => m.putBytes (d.storeBase + off) bs)
      match load with
      | some (o, l) =>
        if d.loadState = 0 ∨ d.loadState = 4 then s1.onDev (fun d => (d.loadBegin o l true).setFld R.loadStat 4 3 2) else s1
      | none => s1

/-- A bulk frame of the image: stored in the replay-and-snapshot region and installed through the load ports (R318). -/
def Sys.imageReceive (off : Nat) (bs : List Byte) (blk : Option BlockState) (c : Nat) (s0 : Sys) : Sys :=
  if !s0.dev.mirLive then s0
  else
    let s := s0.onDev (fun d => d.atC c)
    let d := s.dev
    if d.role != .catchup || d.phase != 2 then s
    else
      -- the active program goes into the unit's own active bank
      let bank := d.rf R.engStat 5 1
      let h := d.w64 R.pairSnap % 2
      let ib := ((List.range bs.length).zip bs).filter (fun p => decide (off + p.1 < imageMem))
      let s1 := (s.onMem (fun m =>
        each ib (fun p m => m.put (imageAddr bank h (off + p.1)) p.2)
          (m.putBytes (d.replayBase + off) (bs.take (0x2000000 - off))))).onDev (fun d =>
        each (ib.filter (fun p => (off + p.1) % 4 == 0 && decide (p.1 + 4 ≤ bs.length)))
          (fun p d => d.eccClean (imageAddr bank h (off + p.1)) (if off + p.1 < 4718592 then 12 else 4)) d)
      let n := match blk with
        | some _ => imageBytes - imageMem
        | none => bs.length
      s1.onDev (fun d =>
        let d1 := d.onPair (fun p => { p with rs := { p.rs with
          imgRx := p.rs.imgRx + n
          blk := match blk with
            | some b => some b
            | none => p.rs.blk } })
        if imageBytes ≤ d1.pair.rs.imgRx then d1.setFld R.pairRsstat 0 3 3 else d1)

/-- Delay-region bytes arrive at their own DRAM addresses, as bulk or displaced frames (R317, R318). -/
def Sys.delayReceive (parts : List (Nat × List Byte)) (c : Nat) (s0 : Sys) : Sys :=
  if !s0.dev.mirLive then s0
  else
    let s := s0.onDev (fun d => d.atC c)
    if s.dev.role != .catchup then s
    else
      let ok := parts.filter (fun p => decide (p.1 + p.2.length ≤ delayEnd 1))
      let s1 := s.onMem (fun m => each ok (fun p m => m.putBytes p.1 p.2) m)
      s1.onDev (fun d => d.onPair (fun p => { p with rs := { p.rs with delRx := p.rs.delRx + sumN (ok.map (fun q => q.2.length)) } }))

/-! ## Streams while a CATCHUP unit records (R306, R318) -/

/-- A packet agreed for tick `t` goes to its tick record, once. -/
def Dev.recordPkt (d : Dev) (t c : Nat) (p : RxPkt) : Dev :=
  if p.used then d
  else
    let d1 : Dev := { d with strm := { d.strm with
      inbox := d.strm.inbox.map (fun q => if q.1 == c && q.2.seq == p.seq then (q.1, { q.2 with used := true }) else q) } }
    d1.ringTick t (32 + p.pay.length) (fun r => { r with pkts := r.pkts ++ [(c, p)] })

/-- The lease holder's presence map: the packets that the unit holds itself are recorded, and the anchor changes. -/
def Dev.presenceRecord (m : PresMap) (d : Dev) : Dev :=
  if !d.recording then d
  else
    let own := d.strm.inbox.filter (fun q => m.due.contains (q.1, q.2.seq))
    let d1 := each own (fun q d => d.recordPkt m.tick q.1 q.2) d
    if m.anchors.isEmpty then d1 else d1.ringTick m.tick 0 (fun r => { r with anchors := r.anchors ++ m.anchors })

/-- A forwarded packet is recorded. -/
def Dev.packetRecord (t c seq : Nat) (d : Dev) : Dev :=
  if !d.recording then d
  else match d.strm.inbox.find? (fun q => q.1 == c && q.2.seq == seq) with
    | some q => d.recordPkt t c q.2
    | none => d

/-- At a boundary a recording unit opens the record of the tick, and drops packets too old for any release. -/
def Dev.recordBoundary (d : Dev) : Dev :=
  let d1 : Dev := { d with strm := { d.strm with
    inbox := d.strm.inbox.filter (fun q => decide (d.instant < q.2.arr + 1024 * 10240)) } }
  if d1.role == .catchup then d1.ringTick d1.tick 0 id else d1

end Sys2Proof.Machine
end

