-- ==== Sys2Proof/Machine/Dec.lean ====
section
/-!
DEFINITION. PDM clocks, pins and edges, and the decimation chain: CIC, rank filter, FIR or compensator, high-pass filter,
delivery, start and settling (R251 to R262).
-/
namespace Sys2Proof.Machine

/-! ## Configuration in use -/

/-- A channel's own state. -/
def Dev.decC (d : Dev) (c : Nat) : DecCh := d.dec.getD c {}
/-- A change of a channel. -/
def Dev.onDec (d : Dev) (c : Nat) (f : DecCh → DecCh) : Dev := { d with dec := updAt d.dec c f }
/-- The clock that serves a channel's pin (R251, R252). -/
def pdmClkOf (c : Nat) : Nat := c / 8
/-- A clock runs at 6.144 MHz. -/
def Dev.pdmFast (d : Dev) (k : Nat) : Bool := d.lf (R.pdmClkcfg k) 0 1 == 1
/-- EN of a channel. -/
def Dev.decEn (d : Dev) (c : Nat) : Bool := d.lf (R.decCtrl c) 31 1 == 1
/-- A channel takes the low-latency path. -/
def Dev.decLow (d : Dev) (c : Nat) : Bool := d.lf (R.decCtrl c) 30 1 == 1
/-- A channel delivers at 96 kHz. -/
def Dev.decHi (d : Dev) (c : Nat) : Bool := d.lf (R.decCtrl c) 29 1 == 1
/-- M of the rank filter (R255); 1 without it. -/
def Dev.decM (d : Dev) (c : Nat) : Nat :=
  match min 4 (d.lf (R.decCtrl c) 25 3) with
  | 0 => 1
  | r => 2 * r + 1
/-- The FIR set of a channel. -/
def Dev.decSet (d : Dev) (c : Nat) : Nat := d.lf (R.decCtrl c) 23 2
/-- The compensator set of a channel. -/
def Dev.decComp (d : Dev) (c : Nat) : Nat := d.lf (R.decCtrl c) 22 1
/-- N of a FIR set. -/
def Dev.firN (d : Dev) (k : Nat) : Nat := min 256 (d.lf (R.decSetcfg k) 0 9)
/-- The decimation ratio R of the CIC (R254). -/
def Dev.cicR (d : Dev) (c : Nat) : Nat :=
  let base := if !d.decLow c then 16 else if d.decHi c then 32 else 64
  if d.pdmFast (pdmClkOf c) then 2 * base else base
/-- D of a channel (R256, R257). -/
def Dev.decD (d : Dev) (c : Nat) : Nat := if d.decLow c then 1 else if d.decHi c then 2 else 4
/-- N of a channel (R262). -/
def Dev.decN (d : Dev) (c : Nat) : Nat := if d.decLow c then 16 else d.firN (d.decSet c)
/-- U = ceil((M + N + 3) / D), the unsettled outputs (R262). -/
def Dev.decU (d : Dev) (c : Nat) : Nat := (d.decM c + d.decN c + 3 + d.decD c - 1) / d.decD c
/-- The tick's boundary is an output boundary of the channel (R259). -/
def Dev.decDue (d : Dev) (c : Nat) : Bool := d.decHi c || d.tick % 2 == 0

/-! ## The stages -/

/-- One bit through the five integrators of 40 bits, each adding the one before it (R254). -/
def integrate (b : Bool) (l : List Nat) : List Nat :=
  (l.foldl (fun (acc : List Nat × Nat) i =>
    let v := (i + acc.2) % 2 ^ 40
    (acc.1 ++ [v], v)) ([], wrapN 40 (if b then 1 else -1))).1

/-- One decimated value through the five combs of 40 bits (R254): the new comb states and the result. -/
def combs (x : Nat) (l : List Nat) : List Nat × Nat :=
  l.foldl (fun (acc : List Nat × Nat) prev => (acc.1 ++ [acc.2], (acc.2 + 2 ^ 40 - prev) % 2 ^ 40)) ([], x)

/-- The median of the newest `m` of a history that began with zeros (R255). -/
def median (m : Nat) (hist : List Int) : Int :=
  let l := (List.range m).map (fun i => hist.getD i 0)
  let sorted := sortBy (fun (x : Int) => (x + 2147483648).toNat) l
  sorted.getD ((m - 1) / 2) 0

/-- A Q1.23 coefficient word. -/
def coef23 (v : Nat) : Int := sgn 24 v

/-- The sum of taps over a history, exact, rounded to Q1.31 with saturation (R256). -/
def firSum (n : Nat) (coef : Nat → Nat) (hist : List Int) : Int × Bool :=
  let s := (List.range n).foldl (fun (acc : Int) i => acc + coef23 (coef i) * hist.getD i 0) 0
  satQ31 (roundDiv s (2 ^ 23))

/-- The final stage of a channel over its history (R256, R257). -/
def Dev.decFinal (d : Dev) (c : Nat) (hist : List Int) : Int × Bool :=
  if d.decLow c then firSum 16 (fun i => d.lv (R.decCompcoef (d.decComp c) (min i (15 - i)))) hist
  else
    let k := d.decSet c
    let n := d.firN k
    let lin := d.lf (R.decSetcfg k) 30 1 == 0
    firSum n (fun i => d.lv (R.decSetcoef k (if lin then min i (n - 1 - i) else i))) hist

/-- One bit of a channel that counts as running: a run of 4,096 equal bits is noticed once (R253). -/
def DecCh.bitSeen (x : DecCh) (b : Bool) : DecCh :=
  let same := if x.lastB = b then min 4096 (x.same + 1) else 1
  let stuck := if x.lastB = b then x.stuck else false
  let new := decide (4096 ≤ same) && !stuck
  { x with
    lastB := b
    same := same
    stuck := stuck || new
    hit := if new then some b else x.hit }

/-- One bit through the CIC, and at each R-th bit a CIC output through the rank filter; saturated outputs are counted. -/
def DecCh.bitIn (r m : Nat) (b : Bool) (acc : DecCh × Nat) : DecCh × Nat :=
  let x := acc.1
  let integ := integrate b x.integ
  let x1 := { x with integ := integ, phase := x.phase + 1 }
  if x1.phase < r then (x1, acc.2)
  else
    let co := combs (integ.getD 4 0) x1.comb
    let v := satQ31 (roundDiv (sgn 40 co.2 * 2 ^ 31) (r ^ 5))
    let cic := (v.1 :: x1.cic).take 9
    ({ x1 with
        phase := 0
        comb := co.1
        cic := cic
        hist := (median m cic :: x1.hist).take 256 }, acc.2 + b2n v.2)

/-! ## Start, settling, delivery (R259 to R262) -/

/-- The cause for which a channel's start is refused, 0 for none (R261). -/
def Dev.decRefusal (d : Dev) (c : Nat) : Nat :=
  let k := d.decSet c
  if d.lf (R.pdmClkcfg (pdmClkOf c)) 31 1 = 0 then 1
  else if !d.decLow c && (d.lf (R.decSetcfg k) 31 1 == 0 || d.firN k == 0) then 2
  else if !d.decLow c && d.lf (R.decSetcfg k) 29 1 != b2n (!d.decHi c) then 3
  else if d.decLow c && d.lf (R.decCompcfg (d.decComp c)) 31 1 == 0 then 4
  else 0

/-- STATc.STATE. -/
def Dev.decState (d : Dev) (c : Nat) : Nat := d.rf (R.decStat c) 0 3

/-- RUNMASK and SETTLEDMASK (R260). -/
def Dev.decMasks (d : Dev) : Dev :=
  let m := fun (f : DecCh → Bool) => d.dec.zipIdx.foldl (fun acc x => bitSet acc x.2 (f x.1)) 0
  (d.setReg R.decRunmask (m (fun x => x.runB))).setReg R.decSettledmask (m (fun x => x.setB))

/-- A running channel delivers its output at an output boundary (R259, R262), with the number of its stages that saturated. -/
def Dev.decDeliver (d : Dev) (c : Nat) : Dev × Nat :=
  let x := d.decC c
  let v := d.decFinal c x.hist
  let h := x.hpf.step (d.lf (R.decCtrl c) 0 3) (d.decHi c) (wrapN 32 v.1)
  let u := d.decU c
  let settled := decide (u ≤ x.k)
  let give := settled || d.lf (R.decCtrl c) 28 1 == 1
  let d1 := d.onDec c (fun x => { x with
    hpf := h.1
    word := if give then h.2.1 else 0
    runB := give
    setB := settled
    k := min (x.k + 1) (u + 1) })
  (d1.setFld (R.decStat c) 16 8 (u - x.k), b2n v.2 + b2n h.2.2)

/-- A channel stops: zero from the next write, its filter state discarded (R261). -/
def Dev.decStop (d : Dev) (c : Nat) : Dev :=
  (d.onDec c (fun x => { lastB := x.lastB, stuck := x.stuck, hit := x.hit })).setReg (R.decStat c) 0

/-- A channel whose EN is 1 at an output boundary starts from zero state, or is refused (R261). -/
def Dev.decStart (d : Dev) (c : Nat) : Dev :=
  let cause := d.decRefusal c
  let d1 := d.bump R.decStartcnt 1
  if cause = 0 then
    (d1.onDec c (fun x => {
      runs := true
      hpf := { code := hpfCode (d.lf (R.decCtrl c) 0 3) }
      lastB := x.lastB
      same := x.same
      stuck := x.stuck
      hit := x.hit })).setReg (R.decStat c) 1
  else (d1.setReg (R.decStat c) (3 + 16 * cause)).raise Blk.dec Src.decStartRefused c cause d.tickLo

/-- The bits of a channel in a tick, oldest first, from its pin's rising and falling edges (R252). -/
def Dev.pdmBits (d : Dev) (pins : List (Nat × Nat)) (c : Nat) : List Bool :=
  let pin := c / 2
  let e := pins.getD pin (0, 0)
  let rise := (c % 2 == 0) != bit (d.lv R.pdmSwap) pin
  (List.range (if d.pdmFast (pdmClkOf c) then 64 else 32)).map (bit (if rise then e.1 else e.2))

/-- The LOC words of the decimators (R260). -/
def Dev.decWords (d : Dev) : List (Nat × Nat) :=
  let m := fun (f : DecCh → Bool) => d.dec.zipIdx.foldl (fun acc x => bitSet acc x.2 (f x.1)) 0
  d.dec.zipIdx.map (fun (x : DecCh × Nat) => (0x100 + x.2, x.1.capW))
    ++ [(0x120, m (fun x => x.capRun)), (0x121, m (fun x => x.capSet))]

/-- At the boundary into a tick, given the bits the pins delivered in the tick that ends: channels whose EN has fallen
stop, capture writes the words delivered before, the bits go through the chain, channels start and deliver, and the clocks
start at an even tick (R251 to R262). -/
def Sys.decBoundary (s : Sys) (pins : List (Nat × Nat)) : Sys :=
  let d0 := s.dev
  let d1 := forN 32 (fun c d => if !d.decEn c && d.decState c != 0 then d.decStop c else d) d0
  let d2 := forN 32 (fun c d =>
    if (d.decC c).runs && d.decDue c then d.onDec c (fun x => { x with capW := x.word, capRun := x.runB, capSet := x.setB })
    else d) d1
  let s1 := ({ s with dev := d2 } : Sys).locWrite d2.decWords []
  let clips := (List.range 32).foldl (fun (acc : Dev × Nat) c =>
    let d := acc.1
    if d.decEn c && bit d.pdmOn (pdmClkOf c) then
      let bits := d.pdmBits pins c
      let x := bits.foldl DecCh.bitSeen (d.decC c)
      if x.runs then
        let r := d.cicR c
        let m := d.decM c
        let y := bits.foldl (fun a b => DecCh.bitIn r m b a) (x, 0)
        ((d.onDec c (fun _ => y.1)).bump R.decClipcnt y.2, if y.2 = 0 then acc.2 else bitSet acc.2 c true)
      else (d.onDec c (fun _ => x), acc.2)
    else acc) (s1.dev, s1.dev.clipM)
  -- the saturations of the tick that ended, those delivered at its start among them (R266)
  let dA := if clips.2 = 0 then clips.1 else clips.1.raise Blk.dec Src.decClip clips.2 ((clips.1.tick + 2 ^ 32 - 1) % 2 ^ 32) 0
  let outs := (List.range 32).foldl (fun (acc : Dev × Nat) c =>
    let d := acc.1
    if !d.decEn c || !d.decDue c then acc
    else
      let dS := if d.decState c = 0 then d.decStart c else d
      if (dS.decC c).runs then
        let r := dS.decDeliver c
        (r.1.bump R.decClipcnt r.2, if r.2 = 0 then acc.2 else bitSet acc.2 c true)
      else (dS, acc.2)) (dA, 0)
  let dC : Dev := { outs.1.decMasks with clipM := outs.2 }
  -- an enabled clock starts at an even boundary, a disabled one stops (R251)
  let on1 := (List.range 4).foldl (fun m k =>
    if dC.lf (R.pdmClkcfg k) 31 1 = 0 then bitSet m k false
    else if dC.tick % 2 = 0 then bitSet m k true else m) dC.pdmOn
  { s1 with dev := { dC with pdmOn := on1 } }

/-- A channel that reaches output U delivers settled outputs: RUN, and SETTLED once (R262). -/
def Dev.decSettled (c at_ : Nat) (d0 : Dev) : Dev :=
  let d := d0.atC at_
  if (d.decC c).runs && d.decState c == 1 && (d.decC c).setB then
    (d.setFld (R.decStat c) 0 3 2).raise Blk.dec Src.decSettled c d.tickLo 0
  else d

/-- A running channel has delivered one bit value for 4,096 clock periods, since the last time this was raised (R253). -/
def Dev.pdmStuckRow (c at_ : Nat) (d0 : Dev) : Dev :=
  let d := d0.atC at_
  match (d.decC c).hit with
  | some b =>
    ((d.onDec c (fun x => { x with hit := none })).setReg R.pdmStuck (bitSet (d.reg R.pdmStuck) c true)).raise
      Blk.pdm Src.pdmStuck c (b2n b) d.tickLo
  | none => d

/-- The high-pass selection of a channel changes at a tick boundary (R134). -/
def Dev.decHpfLive (d : Dev) (c : Nat) : Dev :=
  d.onDec c (fun x => { x with hpf := x.hpf.select (hpfCode (d.lf (R.decCtrl c) 0 3)) })

end Sys2Proof.Machine
end

