-- ==== Sys2Proof/Machine/Glean.lean ====
section
/-!
DEFINITION. The glean buffer: frames of gleaned samples, blocks with their check entries, the watermark, readback (R407 to R410).
-/
namespace Sys2Proof.Machine

/-- Blocks of the ring (R408). -/
def Dev.gleanB (d : Dev) : Nat := if d.dram8 then 1175040 else 391680
/-- Bytes of a frame (R408). -/
def Dev.gleanFs (d : Dev) : Nat := 3 * max 1 (d.lf R.glnCfg 0 10)
/-- A change of GLN's own state. -/
def Dev.onGln (d : Dev) (f : Gln → Gln) : Dev := { d with gln := f d.gln }
/-- STAT.STATE. -/
def Dev.gleanState (d : Dev) : Nat := d.rf R.glnStat 0 2
/-- Quotient of `a` by `b`, rounded up. -/
def ceilDiv (a b : Nat) : Nat := (a + b - 1) / max 1 b

/-- Bytes that the glean FIFO holds, and STAT.FIFO in KiB. -/
def Gln.bytes (g : Gln) : Nat := g.part.length + 4096 * g.pend.length
/-- STAT.FIFO follows the FIFO. -/
def Dev.gleanFifo (d : Dev) : Dev := d.setFld R.glnStat 16 16 (d.gln.bytes / 1024)

/-- The first frame that begins in block `n` among `frames` frames (R408). -/
def gleanFirst (fs n frames : Nat) : Nat :=
  let f := ceilDiv (4096 * n) fs
  if f * fs < 4096 * (n + 1) ∧ f < frames then f % 2 ^ 32 else 0xFFFFFFFF

/-- A block is formed: it overwrites the block a ring earlier, so OLDEST moves on (R409). -/
def Dev.gleanForm (d : Dev) (bs : List Byte) : Dev :=
  let n := d.gln.next
  let fs := d.gleanFs
  let d1 := d.onGln (fun g => { g with
    pend := g.pend ++ [(n, bs, gleanFirst fs n g.frames)]
    next := n + 1 })
  if d.gleanB ≤ n then d1.setW R.glnOldest (ceilDiv ((n - d.gleanB + 1) * 4096) fs) else d1

/-- Glean starts at the present even boundary (R410). -/
def Dev.gleanStart (d : Dev) : Dev :=
  let d1 := ((((d.setFld R.glnStat 0 2 1).setW R.glnStart (d.tick % 2 ^ 48)).setW R.glnWmark 0).setW R.glnOldest 0).setW R.glnBseq 0
  (d1.onGln (fun g => { on := true, vals := g.vals })).gleanFifo

/-- Glean stops at the end of a period: the partial block is padded and written (R410). -/
def Dev.gleanStop (d : Dev) : Dev :=
  let p := d.gln.part
  let d1 := if p.isEmpty then d
    else (d.onGln (fun g => { g with part := [] })).gleanForm (p ++ List.replicate (4096 - p.length) 0)
  ((d1.setFld R.glnStat 0 2 0).onGln (fun g => { g with stopAt := false })).gleanFifo

/-- GLN at the boundary into the present tick: EN set starts glean at the next even boundary, EN cleared ends it at the end of the period
(R410). -/
def Dev.gleanBoundary (d : Dev) : Dev :=
  let en := d.lf R.glnCtrl 31 1 == 1
  let even := d.tick % 2 == 0
  let d1 := d.onGln (fun g => { g with vals := [] })
  let d2 := if d1.gln.on && !en && d1.gleanState == 1 then d1.onGln (fun g => { g with stopAt := true }) else d1
  let d3 := if d2.gln.stopAt && even && d2.gleanState == 1 then d2.gleanStop else d2
  let d4 := if !en && d3.gleanState == 2 then d3.setFld R.glnStat 0 2 0 else d3
  let d5 := if d4.gln.arm && en && even && d4.gleanState == 0 then d4.gleanStart else d4
  d5.onGln (fun g => { g with
    arm := en && (!g.on || (g.arm && !even))
    on := en })

/-- The value of entry `i` in this tick, bits [31:8]: zero where the source was not written (R407). -/
def Dev.gleanValue (d : Dev) (i : Nat) : Nat :=
  let s := d.lv (R.glnSel i)
  let k := if bit s 29 then 0x10000 + 64 * fld s 16 8 + fld s 0 6 else fld s 0 12
  match d.gln.vals.find? (fun v => v.1 == k) with
  | some v => v.2 / 256 % 2 ^ 24
  | none => 0

/-- The odd tick of a period: a frame enters the FIFO, or glean stops on OVERRUN (R407, R410). -/
def Dev.gleanSample (c : Nat) (d0 : Dev) : Dev :=
  if d0.gleanState ≠ 1 ∨ d0.tick % 2 = 0 then d0
  else
    let d := d0.atC c
    let n := max 1 (d.lf R.glnCfg 0 10)
    let fr := (List.range n).flatMap (fun i => beBytes 3 (d.gleanValue i))
    if 0x40000 < d.gln.bytes + fr.length then
      ((d.setFld R.glnStat 0 2 2).raise Blk.gln Src.glnOverrun (d.w64 R.glnWmark) d.tickLo 0).onGln (fun g => { g with
        part := []
        stopAt := false })
    else
      let all := d.gln.part ++ fr
      let d1 := d.onGln (fun g => { g with
        part := all
        frames := g.frames + 1 })
      if all.length < 4096 then d1.gleanFifo
      else ((d1.onGln (fun g => { g with part := all.drop 4096 })).gleanForm (all.take 4096)).gleanFifo

/-- The oldest block and its check entry are written and their write responses have come: BSEQ, WMARK and the counter move on (R408,
R409). -/
def Sys.gleanBlockDone (c : Nat) (s0 : Sys) : Sys :=
  match s0.dev.gln.pend with
  | [] => s0
  | (n, bs, first) :: rest =>
    let d := s0.dev.atC c
    let j := n % d.gleanB
    let crc := d.cvuValue 6 bs
    let entry := leBytes 4 crc ++ leBytes 8 n ++ leBytes 4 first
    let mem := (s0.mem.putBytes (d.gleanBase + 4096 * j) bs).putBytes (d.gleanTable + 16 * j) entry
    let d1 := ((d.cvuSnoop 6 0 bs).bump (R.glnCnt 0) 1).setW R.glnBseq (n + 1)
    let w := min d1.gln.frames ((n + 1) * 4096 / d1.gleanFs)
    let d2 := (d1.setW R.glnWmark (max w (d1.w64 R.glnWmark))).onGln (fun g => { g with pend := rest })
    { s0 with mem := mem, dev := d2.gleanFifo }

/-- RBCTL.GO starts a readback; ignored while one runs (R409). -/
def Dev.readbackGo (d : Dev) : Dev :=
  if d.rf R.glnRbstat 31 1 = 1 then d else (d.setReg R.glnRbstat (2 ^ 31)).setReg R.glnRbfirst 0xFFFFFFFF

/-- One block of a readback compared with its entry (R354, R409): the device after its reads, and whether it fails. -/
def Sys.readbackBlock (s : Sys) (d : Dev) (j : Nat) : Dev × Bool :=
  let a := d.gleanBase + 4096 * j
  let r := d.dramForced 5 a
  let bs := s.mem.bytes a 4096
  let e := s.mem.bytes (d.gleanTable + 16 * j) 16
  let bad := r.2 || r.1.cvuValue 6 bs != le e 0 4
  (if bad then (r.1.bump (R.glnCnt 1) 1).bump (R.cvuFail 6) 1 else r.1, bad)

/-- A readback finishes: failures counted, the first recorded, RB_FAIL raised (R409). -/
def Sys.readbackDone (c : Nat) (s : Sys) : Sys :=
  if s.dev.rf R.glnRbstat 31 1 = 0 then s
  else
    let d := s.dev.atC c
    let n := max 1 (d.rf R.glnRbctl 0 16)
    let blks := (List.range n).map (fun i => (d.rf R.glnRbblock 0 21 + i) % d.gleanB)
    let r := blks.foldl (fun (x : Dev × List Nat) j =>
      let q := s.readbackBlock x.1 j
      (q.1, if q.2 then x.2 ++ [j] else x.2)) (d, [])
    let d1 := r.1.setReg R.glnRbstat (min 65535 r.2.length)
    match r.2 with
    | [] => { s with dev := d1 }
    | f :: _ => { s with dev := (d1.setReg R.glnRbfirst f).raise Blk.gln Src.glnRbFail f (min 65535 r.2.length) 0 }

end Sys2Proof.Machine
end

