-- ==== Sys2Proof/Machine/Write.lean ====
section
/-!
DEFINITION. Register writes under their access codes and take-effect classes (R7, R8, R31, R35 to R41, R43, R44, R347, R415), and
register reads with their latches and restarts (R6, R7, R11, R456).
-/
namespace Sys2Proof.Machine

/-- Where a write comes from: the host directly, the boot image's write list, an immediate command or an agenda entry with its target
tick. -/
inductive WSrc where
  | direct
  | boot
  | immediate (t : Nat)
  | agenda (t : Nat)
deriving DecidableEq, Repr

/-! ## Power domains of the blocks (R414, R415) -/

/-- The power domain of a block, as a bit of DOMCTL. -/
def blockDomain (b : Nat) : Nat :=
  if b = 0 ∨ b = 1 ∨ b = 23 ∨ b = 30 then 0
  else if b = 4 ∨ b = 5 ∨ b = 6 ∨ b = 25 ∨ b = 29 then 2
  else if b = 2 ∨ b = 3 ∨ b = 22 ∨ b = 27 then 6
  else if b = 10 ∨ b = 11 ∨ b = 14 then 7
  else if b = 26 then 8
  else if b = 15 ∨ b = 16 ∨ b = 17 then 9
  else if b = 18 ∨ b = 19 then 10
  else if b = 7 ∨ b = 8 then 11
  else 1
/-- A domain is on and usable. -/
def Dev.domOn (d : Dev) (k : Nat) : Bool := bit (d.reg R.pwrDomstat) k
/-- A block's domain is on. -/
def Dev.blockOn (d : Dev) (b : Nat) : Bool := d.domOn (blockDomain b)

/-! ## Refusals (R31, R38, R41, R43, R44) -/

/-- A refused write or an ignored strobe: bit `k` of CFGERR with its count, CFGERRADDR for the first, and the block's fault source. -/
def Dev.cfgErr (d : Dev) (off k : Nat) (src : Option Nat) : Dev :=
  let b := off / 0x10000
  if !hasCommon b then d
  else
    let e := d.reg (R.cfgerr b)
    let x := off % 0x10000 / 4 * 4
    let d1 := if e % 16 = 0 then d.setReg (R.cfgerraddr b) x else d
    let d2 := d1.setReg (R.cfgerr b) (bitSet (fldSet e 16 16 (min 65535 (fld e 16 16 + 1))) k true)
    match src with
    | some s => d2.raise b s x 0 0
    | none => d2
/-- A direct write to a critical field is refused. -/
def Dev.critRefuse (d : Dev) (off : Nat) : Dev := d.cfgErr off 3 (srcCfgCrit (off / 0x10000))
/-- A STOP-class write to a running block is refused. -/
def Dev.stopRefuse (d : Dev) (off : Nat) : Dev := d.cfgErr off 0 (srcCfgStop (off / 0x10000))
/-- A write to a pending commit group is refused. -/
def Dev.busyRefuse (d : Dev) (off : Nat) : Dev := d.cfgErr off 1 (srcCfgBusy (off / 0x10000))
/-- A strobe of a pending group is ignored. -/
def Dev.strobeRefuse (d : Dev) (off : Nat) : Dev := d.cfgErr off 2 (srcCfgBusy (off / 0x10000))

/-! ## STOP-class fields (R41 and the chapters' statements of what counts as stopped) -/

/-- All bits, or none. -/
def allIf (b : Bool) : Nat := if b then 0xFFFFFFFF else 0

/-- The STOP-class bits of a register whose block or part runs. -/
def Dev.stopBlocked (d : Dev) (off : Nat) : Nat :=
  let b := off / 0x10000
  let x := off % 0x10000
  let decAny := fun (p : Nat → Bool) => (List.range 32).any (fun c => d.decEn c && p c)
  if b = Blk.eng then allIf (bit (d.reg R.engStat) 4)
  else if b = Blk.mac0 ∨ b = Blk.mac1 ∨ b = Blk.macm ∨ b = Blk.mact then allIf (d.macEn (b - 10))
  else if b = Blk.strm then
    if x < 0x3000 then allIf (bit (d.lv (R.strmFctl ((x - 0x1000) / 16))) 31)
    else if x < 0x7000 then allIf (d.lf (R.strmRxctl ((x - 0x3000) / 64)) 31 1 == 1)
    else allIf (d.lf (R.strmTxctl ((x - 0xA800) / 64)) 31 1 == 1)
  else if b = Blk.tdm then allIf (d.lf (R.tdmCtrl (x / 256)) 31 1 == 1)
  else if b = Blk.pdm then
    if x < 0x10 then allIf (decAny (fun c => pdmClkOf c == x / 4))
    else (List.range 16).foldl (fun m p => bitSet m p (d.decEn (2 * p) || d.decEn (2 * p + 1))) 0
  else if b = Blk.dec then
    if x < 0x100 then allIf (d.decEn (x / 4))
    else if x < 0x210 then allIf (decAny (fun c => !d.decLow c && d.decSet c == (x - 0x200) / 4))
    else if x < 0x1000 then allIf (decAny (fun c => d.decLow c && d.decComp c == (x - 0x210) / 4))
    else if x < 0x2000 then allIf (decAny (fun c => !d.decLow c && d.decSet c == (x - 0x1000) / 1024))
    else allIf (decAny (fun c => d.decLow c && d.decComp c == (x - 0x2000) / 64))
  else if b = Blk.mod then allIf (d.modG ((x - 0x100) / 32)).run_
  else if b = Blk.sns then
    if x = 0 then allIf ((List.range 6).any (fun g => bit (d.lv (R.snsLanectl g)) 31))
    else allIf (bit (d.lv (R.snsLanectl ((x - 0x10) / 4))) 31)
  else if b = Blk.mir then allIf (d.paired && d.role != .isolated)
  else if b = Blk.cvu then allIf (bit (d.lv (R.cvuCfg (x / 64))) 31)
  else if b = Blk.ddr then allIf (bit (d.reg R.ddrStat) 0)
  else if b = Blk.gln then allIf (d.gleanState == 1)
  else 0

/-! ## Commit groups (R37) -/

/-- The commit group of a register with COMMIT-class fields. -/
def commitGrp (off : Nat) : Nat :=
  let b := off / 0x10000
  let x := off % 0x10000
  if b = Blk.clk then (if x < 0x40 then 4 else (x - 0x40) / 32)
  else if b = Blk.syn then (x - 0x10) / 16
  else if b = Blk.mod then (x - 0x400) / 64
  else 0

/-- The registers of a commit group. -/
def groupRegs (b g : Nat) : List Nat :=
  if b = Blk.clk then
    (if g = 4 then [R.clkDpll] else [R.clkRefcfg g, R.clkRefwin g, R.clkReftim g, R.clkReflock g])
  else if b = Blk.syn then [R.synOutcfg g, R.synOutdly g]
  else if b = Blk.mod then R.modLoopv g :: (List.range 10).map (R.modLoopc g)
  else [R.macAddrlo b, R.macAddrhi b]

/-- A group is pending. -/
def Dev.grpPend (d : Dev) (b g : Nat) : Bool := bit (d.reg (R.commitstat b)) g

/-- The shadow of a group is copied to its live fields at the boundary into tick `t` (R37). -/
def Dev.copyGroup (d : Dev) (b g t : Nat) : Dev :=
  (groupRegs b g).foldl (fun d off =>
    match rowAt off with
    | some r => { d with pendTick := d.pendTick ++ [{ off := off, mask := r.commit, val := d.reg off, due := t }] }
    | none => d) d

/-- The groups of block `b` that a write of COMMIT strobes. -/
def strobes (b v : Nat) : List Nat := bitsOn 16 (v &&& commitGroups b)

/-- Strobes of a direct or boot write: a group not pending becomes so, a pending one's strobe is ignored (R37, R38). -/
def Dev.strobe (d : Dev) (off v : Nat) : Dev :=
  (strobes (off / 0x10000) v).foldl (fun d g =>
    if d.grpPend (off / 0x10000) g then d.strobeRefuse off
    else d.setFld (R.commitstat (off / 0x10000)) g 1 1) d

/-- A change of a group's held writes (R39). -/
def Dev.onHeld (d : Dev) (b g : Nat) (f : HeldWr → HeldWr) : Dev :=
  if d.held.any (fun h => h.blk == b && h.grp == g) then
    { d with held := d.held.map (fun h => if h.blk == b && h.grp == g then f h else h) }
  else { d with held := d.held ++ [f { blk := b, grp := g, writes := [], strobe := false }] }

/-! ## Values as stored -/

/-- A field of a written register brought to the value that is stored. -/
def inFld (v wm lo w : Nat) (f : Nat → Nat) : Nat := if fld wm lo w = 0 then v else fldSet v lo w (f (fld v lo w))

/-- The severities of a block's sources from source `s0`: 5 to 7 act as 4, values below a minimum as the minimum (R359, R71). -/
def sevStored (b s0 v wm : Nat) : Nat :=
  forN 8 (fun i v =>
    match (faultSrcs b)[s0 + i]? with
    | some s => inFld v wm (4 * i) 3 (fun x => max s.min (min 4 x))
    | none => v) v

/-- FMTp as stored: at 96 kHz with 32-bit slots at most 16 slots, and on a master port a count of 2, 4, 8, 16 or 32, rounded up (R236). -/
def fmtStored (master : Bool) (v : Nat) : Nat :=
  let n := if bit v 29 && !bit v 25 then min 15 (fld v 16 5) else fld v 16 5
  fldSet v 16 5 (if master then ([1, 3, 7, 15, 31].find? (fun k => decide (n ≤ k))).getD 31 else n)

/-- A register's value after a write of the bits `wm`, as the field tables store it: within a field's bounds, or left unchanged. -/
def Dev.storedV (d : Dev) (off wm v : Nat) : Nat :=
  let b := off / 0x10000
  let x := off % 0x10000
  let old := d.reg off
  if (faultSrcs b).length ≠ 0 ∧ off = R.fltsev0 b then sevStored b 0 v wm
  else if 8 < (faultSrcs b).length ∧ off = R.fltsev1 b then sevStored b 8 v wm
  else if b = Blk.mod then
    if off = R.modLimcfg then inFld v wm 16 12 (clampN 16 1024)
    else if 0x100 ≤ x ∧ x < 0x1C0 then inFld (inFld v wm 16 16 (max 0x800)) wm 0 13 (min 5119)
    else v
  else if b = Blk.dec ∧ 0x200 ≤ x ∧ x < 0x210 then inFld v wm 0 9 (min 256)
  else if b = Blk.tdm ∧ x % 256 = 4 then
    fmtStored (d.lf (R.tdmCtrl (x / 256)) 29 2 == 0) v
  else if off = R.pairCtrl then inFld v wm 0 8 (max 16)
  else if off = R.mirBulk then inFld v wm 0 4 (min 10)
  else if b = Blk.cvu ∧ x < 0x400 then
    let k := x / 64
    let w := d.lf (R.cvuCfg k) 0 7
    let r := x % 64
    if r = 0 then inFld v wm 0 7 (clampN 1 64)
    else if r = 4 ∨ r = 0xC ∨ r = 0x14 then v % 2 ^ (min 32 w)
    else if r = 8 ∨ r = 0x10 ∨ r = 0x18 then v % 2 ^ (w - 32)
    else v
  else if off = R.bbxDcfg then inFld v wm 0 22 (clampN 1 2097151)
  else if off = R.thmCfg then inFld v wm 0 8 (clampN 100 145)
  else if 10 ≤ b ∧ b ≤ 13 ∧ x = 8 then inFld v wm 0 14 (clampN 1518 9216)
  else if (b = 10 ∨ b = 11) ∧ x = 4 then (if 3 ≤ fld v 0 3 then fldSet v 0 3 (fld old 0 3) else v)
  else if (off = R.clkRefcfg 0 ∨ off = R.clkRefcfg 1) then (if 5 ≤ fld v 0 3 then fldSet v 0 3 (fld old 0 3) else v)
  else if off = R.timeMapcfg then inFld v wm 8 8 (clampN 32 127)
  else if b = Blk.strm ∧ 0x3000 ≤ x ∧ x < 0x7000 then
    if x % 64 = 0 then inFld v wm 0 7 (clampN 1 64)
    else if x % 64 = 4 then
      inFld v wm 0 9 (fun n =>
        let n := clampN 1 384 n
        if !d.rx96 ((x - 0x3000) / 64) && n % 2 == 1 then n + 1 else n)
    else v
  else if off = R.glnCfg then inFld v wm 0 10 (clampN 1 (if d.dram8 then 512 else 256))
  else if b = Blk.bmx ∧ 0x10 ≤ x ∧ x < 0x40 then forN 8 (fun i v => inFld v wm (4 * i) 4 (clampN 1 14)) v
  else if off = R.cmdPolicy then v ||| (old &&& 2)
  else if off = R.sysBootlen then (if d.rf R.sysBootstat 0 4 = 9 then v else old)
  else v

/-! ## Actions of writes that take effect at once -/

/-- What the blocks do when a register of theirs has been written: `data` as written, under `mask`. -/
def Dev.writeSide (d : Dev) (off data : Nat) : Dev :=
  let b := off / 0x10000
  let x := off % 0x10000
  if ((faultSrcs b).length ≠ 0 ∧ off = R.irqen b) ∨ (b = Blk.evt ∧ 0x80 ≤ x ∧ x < 0x100) then d.irqUpdate
  else if b = Blk.evt ∧ 0x18 ≤ x ∧ x < 0x30 then d.notifyUpdate
  else if off = R.evtCtrl then d.notifyUpdate
  else if off = R.evtResend then d.vectorResend data
  else if off = R.bbxCtrl ∧ bit data 31 then d.bbxRearm
  else if off = R.bbxWdkick ∧ bit data 0 then d.wdogKick
  else if off = R.macMdiocmd 12 ∧ bit data 31 then d.mdioGo
  else if off = R.glnRbctl ∧ bit data 31 then d.readbackGo
  else if b = Blk.time ∧ 0x200 ≤ x ∧ x < 0x240 ∧ x % 16 = 4 ∧ bit data 31 then d.compareArm ((x - 0x200) / 16)
  else if (off = R.clkRefcfg 0 ∨ off = R.clkRefcfg 1) ∧ 5 ≤ fld data 0 3 then d.critRefuse off
  else if b = Blk.tdm ∧ x < 0x800 ∧ x % 256 = 0 then
    -- the slot count of a port that has become a master (R236)
    let f := R.tdmFmt (x / 256)
    if d.lf off 29 2 = 0 then d.setBoth f (fmtStored true (d.reg f)) (fmtStored true (d.lv f)) else d
  else if b = Blk.cvu ∧ x < 0x400 ∧ x % 64 = 0 then
    -- bits at or above a lowered WIDTH are stored as zero (R350)
    let w := d.lf off 0 7
    each [4, 12, 20] (fun k d => (d.setReg (off + k) (d.reg (off + k) % 2 ^ min 32 w)).setReg (off + k + 4) (d.reg (off + k + 4) % 2 ^ (w - 32))) d
  else d

/-! ## The write -/

/-- The tick at whose boundary a TICK-class write takes effect (R35, R339). -/
def Dev.dueOf (d : Dev) (w : WSrc) : Nat :=
  match w with
  | .immediate t => t
  | .agenda t => t
  | _ => d.nextDue

/-- The bits `wm` of a register are written: stored, and in use by their classes (R35 to R37). -/
def Dev.regStore (d : Dev) (w : WSrc) (r : RegRow) (off data wm : Nat) : Dev :=
  let plain := wm &&& (r.rw ||| r.wo)
  let v := d.storedV off plain (mergeBits (d.reg off) plain data)
  let w1 := wm &&& r.w1c &&& data
  let late := r.tick ||| r.frame ||| r.commit
  let now := plain - (plain &&& late)
  let u := mergeBits (d.lv off) now v
  let d1 := d.setBoth off (v - (v &&& w1)) (u - (u &&& w1))
  let tk := (plain &&& r.tick) ||| (wm &&& r.ws &&& r.tick &&& data)
  let d2 : Dev := if tk = 0 then d1
    else { d1 with pendTick := d1.pendTick ++ [{ off := off, mask := tk, val := v ||| (wm &&& r.ws &&& data), due := d.dueOf w }] }
  let fr := plain &&& r.frame
  let cmdT : Option Nat := match w with
    | .immediate t => some t
    | .agenda t => some t
    | _ => none
  let d3 : Dev := if fr = 0 then d2
    else
      let f : FrameWr := {
        port := off % 0x10000 / 256
        off := off
        mask := fr
        val := v
        due := cmdT.getD d.tick
        cyc := if cmdT.isSome then 0 else d.cycle
        cmd := cmdT.isSome }
      { d2 with frameWr := d2.frameWr ++ [f] }
  d3.writeSide off (data &&& wm)

/-- STEPACC is cleared at the boundary into its tick, by a command only (R181). -/
def isStepacc (off : Nat) : Bool := off == R.timeStepacc || off == R.timeStepacc + 4

/-- A register can be written, in some bit. -/
def RegRow.writable (r : RegRow) : Nat := r.rw ||| r.w1c ||| r.ws ||| r.wo

/-- A masked write of a register (R7, R31, R35 to R41, R347, R415).  COMMIT written by a command is `cmdWrites`' part. -/
def Dev.regWrite (w : WSrc) (off data mask : Nat) (d : Dev) : Dev :=
  match rowAt off with
  | none => d
  | some r =>
    let b := off / 0x10000
    let direct := w == .direct
    if !d.blockOn b then
      if direct then (d.bump (R.pwrCnt 0) 1).raise Blk.pwr Src.pwrDomWrite off 0 0 else d
    else if isStepacc off then
      if direct then d.critRefuse off
      else { d with pendTick := d.pendTick ++ [{ off := R.timeStepacc, mask := 0, val := 0, due := d.dueOf w }] }
    else
      let wm := r.writable &&& mask
      if wm = 0 then d
      else if direct && bit (d.reg R.cmdPolicy) 1 && dataPlane.contains b then d.critRefuse off
      else if (faultSrcs b).length ≠ 0 ∧ off = R.fltstat b then d.clearFlt b (data &&& wm)
      else if off = R.timeInc then d.writeInc (mergeBits (d.reg off) wm data)
      else
        let crit := if direct then wm &&& r.crit else 0
        let d1 := if crit = 0 then d else d.critRefuse off
        let wm1 := wm - crit
        let stp := wm1 &&& r.stop &&& d1.stopBlocked off
        let d2 := if stp = 0 then d1 else d1.stopRefuse off
        let wm2 := wm1 - stp
        if wm2 = 0 then d2
        else if hasCommon b ∧ off = R.commit b then d2.strobe off (data &&& wm2)
        else
          let com := wm2 &&& r.commit
          let g := commitGrp off
          let busy := com != 0 && d2.grpPend b g
          let d3 := if busy then
              (match w with
               | .agenda _ => d2.onHeld b g (fun h => { h with writes := h.writes ++ [{ off := off, mask := com, data := data }] })
               | _ => d2.busyRefuse off)
            else d2
          let wm3 := if busy then wm2 - com else wm2
          if wm3 = 0 then d3 else (d3.rateSettle off).regStore w r off data wm3

/-- The writes of an agenda entry or of an immediate command for the boundary into tick `t`, in listed order; a group that they strobe
is copied after them for that boundary, a group still pending has its strobe held with its writes (R39, R339). -/
def Dev.cmdWrites (w : WSrc) (t : Nat) (ws : List RegWr) (d : Dev) : Dev :=
  let r := ws.foldl (fun (acc : Dev × List (Nat × Nat)) x =>
    let b := x.off / 0x10000
    if hasCommon b ∧ x.off = R.commit b ∧ acc.1.blockOn b then
      (strobes b (x.data &&& x.mask)).foldl (fun (acc : Dev × List (Nat × Nat)) g =>
        if acc.1.grpPend b g then (acc.1.onHeld b g (fun h => { h with strobe := true }), acc.2)
        else (acc.1, acc.2 ++ [(b, g)])) acc
    else (acc.1.regWrite w x.off x.data x.mask, acc.2)) (d, [])
  r.2.eraseDups.foldl (fun d g => d.copyGroup g.1 g.2 t) r.1

/-- The groups captured at cycle 9,984 are copied for the boundary into tick `t`; the writes held for them then reach the shadow, and a
held strobe makes the group pending again (R37, R39). -/
def Dev.copyCaptured (t : Nat) (d : Dev) : Dev :=
  let d1 := d.capGrp.foldl (fun d q =>
    let b := q.1
    let g := q.2
    let d2 := (d.copyGroup b g t).setFld (R.commitstat b) g 1 0
    match d2.held.find? (fun h => h.blk == b && h.grp == g) with
    | none => d2
    | some h =>
      let d3 : Dev := { d2 with held := d2.held.filter (fun h => !(h.blk == b && h.grp == g)) }
      let d4 := h.writes.foldl (fun d x => d.regWrite (.agenda t) x.off x.data x.mask) d3
      if h.strobe then d4.setFld (R.commitstat b) g 1 1 else d4) d
  { d1 with capGrp := [] }

/-! ## Reads (R6, R7, R11, R187, R456) -/

/-- A 64-bit value that a low-word read returns and latches. -/
def Dev.wideView (d : Dev) (off : Nat) : Nat :=
  if off = R.tickNum then d.tick % 2 ^ 48
  else if off = R.tickAgnext then (d.agenda.map (fun e => e.tgt)).foldl (fun m t => if m = 0 then t else min m t) 0
  else d.w64 off

/-- A hash word: digest byte 4w in bits [31:24] (R345). -/
def hashWord (h w : Nat) : Nat := h / 2 ^ (224 - 32 * w) % 2 ^ 32

/-- A 32-bit register as a read finds it. -/
def Sys.view (s : Sys) (off : Nat) : Nat :=
  let d := s.dev
  let o := s.otp
  let x := off % 0x10000
  if off = R.tickCycle then d.cycle
  else if off = R.tickAgenda then fldSet (d.reg off) 0 9 d.agenda.length
  else if off = R.evtVecpend then d.vecLines
  else if off = R.evtStat then fldSet (d.intakeStat.reg off) 26 1 (b2n d.evtBadRing)
  else if off = R.loadStat then fldSet (d.reg off) 17 1 (b2n (decide (d.tick < d.w64 R.loadTransend)))
  else if off = R.pcieIds then 0x24480000 + Config.vendorId.toNat
  else if off = R.pcieSubids then o.ssid
  else if off = R.gpioIn then d.gpioPins (d.reg off)
  else if off = R.bbxFault then
    -- HELD: a clear was ignored, or a condition of R365 holds FAULT_N
    if d.bbx.faultN && (d.bbx.clkCond || d.rf R.thmStat 30 1 == 1 || d.testMode) then fldSet (d.reg off) 30 1 1 else d.reg off
  else if off = R.timeNowhi ∨ off = R.timeNowfrac then d.latched off
  else if off = R.timeMapphase ∨ (off / 0x10000 = Blk.time ∧ 0x100 ≤ x ∧ x < 0x130) then d.latched off
  else if off / 0x10000 = Blk.cvu ∧ x < 0x400 ∧ x % 64 = 0x2C then fldSet (d.reg off) 0 4 (d.latched off)
  else if off / 0x10000 = Blk.key ∧ x < 0x20 then fldSet (d.reg off) 16 4 (o.floors.getD (x / 4) 0)
  else if off = R.keyOtpstat then o.svalid + 16 * o.srev + 256 * o.bvalid + 4096 * o.brev + 65536 * b2n o.rootV
  else if off / 0x10000 = Blk.key ∧ 0x100 ≤ x ∧ x < 0x180 then hashWord (o.shash.getD ((x - 0x100) / 32) 0) (x / 4 % 8)
  else if off / 0x10000 = Blk.key ∧ 0x200 ≤ x ∧ x < 0x280 then hashWord (o.bhash.getD ((x - 0x200) / 32) 0) (x / 4 % 8)
  else d.reg off

/-- An RC register after a read: its RC fields clear, or restart from the present level (R456). -/
def Dev.restart (d : Dev) (r : RegRow) (off : Nat) : Dev :=
  if r.rc = 0 then d
  else if off = R.tickAgenda then d.setFld off 16 9 d.agenda.length
  else if off = R.evtStat then
    let d1 := d.intakeStat
    d1.setFld off 16 10 (d1.rf off 0 10)
  else if off = R.thmTjmax then d.setReg off (d.reg R.thmTj)
  else d.setReg off (d.reg off - (d.reg off &&& r.rc))

/-- What a low-word read latches beside its own high word. -/
def Dev.latchMore (d : Dev) (off : Nat) : Dev :=
  if off = R.timeMaptick then
    let c := d.w64 R.timeCap
    let m := d.w64 R.timeMapd
    ((((d.setLatch R.timeCap (c % 2 ^ 32)).setLatch (R.timeCap + 4) (c / 2 ^ 32)).setLatch R.timeMapd (m % 2 ^ 32)).setLatch
      (R.timeMapd + 4) (m / 2 ^ 32)).setLatch R.timeMapphase (d.reg R.timeMapphase)
  else if off / 0x10000 = Blk.cvu then d.setLatch (off + 0x10) (d.rf (off + 0x10) 0 4)
  else d

/-- A read of the 32-bit word at a BAR0 offset: the value, and what the read changes. -/
def Sys.regRead (s : Sys) (off : Nat) : Sys × Nat :=
  let d := s.dev
  match rowAt off with
  | none => (s, 0)
  | some r =>
    if !d.blockOn (off / 0x10000) then (s, 0)
    else
      match r.kind with
      | .plain =>
        if off = R.timeNowlo then
          let d1 := d.timeNow
          let ns := d1.timeNs
          let d2 := (d1.setLatch R.timeNowhi (ns / 2 ^ 32 % 2 ^ 32)).setLatch R.timeNowfrac (d1.time.cnt % 2 ^ 32)
          ({ s with dev := d2 }, ns % 2 ^ 32)
        else if off = R.timeTsq 0 0 ∨ off = R.timeTsq 1 0 ∨ off = R.timeTsq 2 0 then
          let d1 := d.tsqRead ((off - R.timeTsq 0 0) / 16)
          ({ s with dev := d1 }, d1.latched off)
        else
          let v := s.view off
          ({ s with dev := d.restart r off }, v - (v &&& (r.ws ||| r.wo)))
      | k =>
        let low := (off % 8 == r.base % 8)
        if !low then (s, d.latched off)
        else if k == .wideRO && (off == R.timeCap || off == R.timeMapd) then (s, d.latched off)
        else
          let v := d.wideView off
          let d1 := (d.setLatch (off + 4) (v / 2 ^ 32)).latchMore off
          let d2 := if k == .wideRC then d1.setW off 0 else d1
          ({ s with dev := d2 }, v % 2 ^ 32)

/-- The host reads a register: its data are the read's. -/
def Sys.hostRead (off : Nat) (s : Sys) : Sys :=
  let r := s.regRead (off / 4 * 4)
  r.1.onDev (fun d => { d with rdata := [r.2] })

end Sys2Proof.Machine
end

