-- ==== Sys2Proof/Machine/Bus.lean ====
section
/-!
DEFINITION. The PCI Express endpoint (R394 to R399) and the bus matrix: the internal address map, the paths of the masters and decode
errors (R386 to R393), accesses through the BARs (R396).
-/
namespace Sys2Proof.Machine

/-! ## The endpoint (R394 to R399) -/

/-- The command-ring and reply-ring registers of CMD at their reset values (R30, R398, R418). -/
def Dev.ringRegsReset (d : Dev) : Dev :=
  each [0, 1] (fun r d =>
    (((((((((d.setReg (R.cmdCbaselo r) 0).setReg (R.cmdCbasehi r) 0).setReg (R.cmdCsize r) 0).setReg (R.cmdChead r) 0).setReg
      (R.cmdCtail r) 0).setReg (R.cmdRbaselo r) 0).setReg (R.cmdRbasehi r) 0).setReg (R.cmdRsize r) 0).setReg (R.cmdRhead r) 0).setReg
      (R.cmdRtail r) 0) d

/-- Configuration space at its reset values; the messages sent stay sent (R398). -/
def Dev.pcieConfigReset (d : Dev) : Dev :=
  (((d.onPcie (fun p => { sent := p.sent, pmeMsgs := p.pmeMsgs, clkreq := p.clkreq })).setFld R.pcieStat 8 2 0).setFld R.pcieStat 1 1 0)

/-- The link trains (R394, R399): width 1 or 2, speed 1 to 3. -/
def Dev.pcieLinkUp (width speed c : Nat) (d0 : Dev) : Dev :=
  if d0.rf R.pcieStat 0 1 = 1 ∨ !d0.pcie.clkreq ∨ !(1 ≤ width ∧ width ≤ 2) ∨ !(1 ≤ speed ∧ speed ≤ 3) then d0
  else
    let d := d0.atC c
    let d1 := ((d.setFld R.pcieStat 0 1 1).setFld R.pcieStat 2 2 width).setFld R.pcieStat 4 2 speed
    (d1.raise Blk.pcie Src.pcieLinkUp width speed d.tickLo).msixFlush

/-- The link is lost: recorded and counted; host loss has no other effect (R30, R399). -/
def Dev.pcieLinkLost (d : Dev) : Dev :=
  if d.rf R.pcieStat 0 1 = 0 then d
  else
    let w := d.rf R.pcieStat 2 2
    let v := d.rf R.pcieStat 4 2
    let d1 := (((d.setFld R.pcieStat 0 1 0).setFld R.pcieStat 2 2 0).setFld R.pcieStat 4 2 0).bump (R.pcieCnt 4) 1
    d1.raise Blk.pcie Src.pcieLinkDown d.tickLo w v

/-- The link goes down. -/
def Dev.pcieLinkDown (c : Nat) (d0 : Dev) : Dev := (d0.atC c).pcieLinkLost

/-- PERST_N is asserted or released (R30, R397, R418). -/
def Dev.perst (low : Bool) (c : Nat) (d0 : Dev) : Dev :=
  let d := d0.atC c
  if low then
    ((((d.pcieLinkLost).pcieConfigReset).ringRegsReset).setFld R.sysRstcause 4 1 1).onPcie (fun p => { p with clkreq := false })
  else d.onPcie (fun p => { p with clkreq := true })

/-- A Function Level Reset (R398). -/
def Dev.flr (c : Nat) (d0 : Dev) : Dev :=
  let d := d0.atC c
  if d.rf R.pcieStat 0 1 = 0 then d0
  else (d.pcieConfigReset.ringRegsReset).raise Blk.pcie Src.pcieFlr d.tickLo 0 0

/-- A configuration write of the power state (0 D0, 3 D3hot) with PME_En; setting `clear` clears PME_Status (R397). -/
def Dev.dState (st : Nat) (pmeEn clear : Bool) (c : Nat) (d0 : Dev) : Dev :=
  if !(st = 0 ∨ st = 3) ∨ d0.rf R.pcieStat 0 1 = 0 then d0
  else
    let d := d0.atC c
    let old := d.rf R.pcieStat 8 2
    let d1 := (d.setFld R.pcieStat 8 2 st).onPcie (fun p => { p with pmeEn := pmeEn })
    let d2 := if clear then d1.setFld R.pcieStat 1 1 0 else d1
    if old = st then d2 else (d2.raise Blk.pcie Src.pcieDstate st d.tickLo 0).msixFlush

/-- A write of the command register, of MSI-X control and of the mask bits of the table: what can leave now leaves (R398). -/
def Dev.msixWrite (mem bus en : Bool) (mask c : Nat) (d0 : Dev) : Dev :=
  ((d0.atC c).onPcie (fun p => { p with
    memEn := mem
    busEn := bus
    msixEn := en
    msixMask := mask % 2 ^ 32 })).msixFlush

/-- WAKE_N is driven low (R397). -/
def Dev.wakeLow (d : Dev) : Bool := d.rf R.pcieStat 1 1 == 1 && d.rf R.pcieStat 0 1 == 0

/-- An uncorrectable error of the endpoint, by its AER status bit; the header words of the request are free values (R399). -/
def Dev.pcieUncorr (d : Dev) (aer : Nat) : Dev :=
  let a := d.draw
  let b := a.1.draw
  (b.1.bump (R.pcieCnt 1) 1).raise Blk.pcie Src.pcieErrUncorr aer a.2.toNat b.2.toNat
/-- A correctable error of the endpoint, by its AER status (R399). -/
def Dev.pcieCorr (d : Dev) (aer : Nat) : Dev := (d.bump (R.pcieCnt 0) 1).raise Blk.pcie Src.pcieErrCorr aer 0 0
/-- Completer Abort (R390, R398). -/
def Dev.completerAbort (d : Dev) : Dev := (d.bump (R.pcieCnt 2) 1).pcieUncorr 0x8000
/-- Unsupported Request (R397, R398). -/
def Dev.unsupported (d : Dev) : Dev := (d.bump (R.pcieCnt 3) 1).pcieUncorr 0x100000

/-! ## The internal address map (R391, R393, R402) -/

/-- The target of an address, 0xF where none is mapped. -/
def Dev.target (d : Dev) (a : Nat) : Nat :=
  if a < (if d.dram8 then 0x200000000 else 0x100000000) then 0
  else if sampleBase ≤ a ∧ a < sampleBase + 0x400000 then 1
  else if packetBase ≤ a ∧ a < packetBase + 0x100000 then 5
  else if retainedBase ≤ a ∧ a < retainedBase + 0x40000 then 4
  else if coefBase 0 ≤ a ∧ a < coefBase 48 then 2
  else if stateBase 0 ≤ a ∧ a < stateBase 48 then 2
  else if instrBase 0 0 ≤ a ∧ a < instrBase 48 0 then 2
  else if regBase ≤ a ∧ a < regBase + 0x400000 then 3
  else 0xF

/-- The targets a master has a path to (R386). -/
def masterPaths (m : Nat) : List Nat :=
  match m with
  | 0 => [0, 1]
  | 1 => [0, 5]
  | 2 => [0, 5]
  | 3 => [0, 1, 2, 5]
  | 4 => [0, 2]
  | 5 => [0]
  | 6 => [0, 4]
  | 7 => [0, 1, 2, 3, 4]
  | 8 => [0, 5]
  | 9 => [0, 3, 5]
  | _ => []

/-- The master that a target without a request parks on (R387). -/
def Dev.parked (d : Dev) (t : Nat) : Nat :=
  let m := d.lf (R.bmxPark t) 0 4
  if (masterPaths m).contains t then m
  else if t ≤ 1 then 0
  else ((List.range 10).find? (fun m => (masterPaths m).contains t)).getD 0

/-- The priority of a master at a target (R386). -/
def Dev.busPrio (d : Dev) (m t : Nat) : Nat :=
  if m < 8 then d.lf (R.bmxPrilo t) (4 * m) 4 else d.lf (R.bmxPrihi t) (4 * (m - 8)) 4

/-- The master granted at a target among those that request: the highest priority, among equals round-robin after the one last granted; no
request leaves the parked master (R387). -/
def Dev.busGrant (d : Dev) (t last : Nat) (req : List Nat) : Nat :=
  let ok := req.filter (fun m => (masterPaths m).contains t)
  (sortBy (fun m => (15 - d.busPrio m t) * 16 + (m + 15 - last) % 16) ok).headD (d.parked t)

/-- A range lies in [base, base + size). -/
def inRange (a n base size : Nat) : Bool := decide (base ≤ a ∧ a + n ≤ base + size)

/-- The exchange area is closed to the external port while the engine runs (R54). -/
def Dev.exClosed (d : Dev) (a n : Nat) : Bool := bit (d.reg R.engStat) 4 && decide (a < exBase + 0x1F8000 ∧ exBase < a + n)

/-- M7 may read `n` bytes at an address of memory (R393): of DRAM all regions but the packet spill and the ECC store. -/
def Dev.hostReads (d : Dev) (a n : Nat) : Bool :=
  inRange a n 0 d.spillBase ||
  (inRange a n sampleBase 0x400000 && !d.exClosed a n) ||
  inRange a n retainedBase 0x40000 || inRange a n (coefBase 0) 0x600000 || inRange a n (stateBase 0) 0x300000 ||
  (List.range 48).any (fun l => inRange a n (instrBase l (d.rf R.engStat 5 1)) 0x20000)

/-- M7 may write `n` bytes at an address of memory (R393). -/
def Dev.hostWrites (d : Dev) (a n : Nat) : Bool :=
  let img := d.storeBase + d.reg R.loadSrcoff
  (inRange a n d.storeBase storeSize && !(d.loadState == 1 && decide (a < img + d.reg R.loadSrclen ∧ img < a + n))) ||
  inRange a n d.ringBase ringSize

/-- A decode error (R390): master, target and address recorded, DECERR raised; for M7 a Completer Abort. -/
def Dev.decErr (d : Dev) (m a : Nat) (wr : Bool) : Dev :=
  let t := d.target a
  let d1 := ((d.setReg R.bmxDecerr (t * 256 + 16 * b2n wr + m)).setW R.bmxDecaddr (a % 2 ^ 40)).bump (R.bmxCnt 0) 1
  let d2 := d1.raise Blk.bmx Src.bmxDecerr (m + 16 * t) (a % 2 ^ 32) (a / 2 ^ 32 % 256)
  if m = 7 then d2.completerAbort else d2

/-! ## Requests -/

/-- The enabled bytes of a write. -/
def Memory.putEn (m : Memory) (a : Nat) : List (Option Byte) → Memory
  | [] => m
  | none :: t => m.putEn (a + 1) t
  | some b :: t => (m.put a b).putEn (a + 1) t

/-- The value of four bytes, a byte not enabled as 0. -/
def enWord (bs : List (Option Byte)) : Nat := leNat (bs.map (fun b => b.getD 0))

/-- What a DRAM read of master `m` at `a` meets (R400, R401, R406). -/
def Sys.dramRead (s : Sys) (m a ecc : Nat) : Sys :=
  let f := s.dev.dramForced m a
  let d := f.1
  let iecc := d.lf R.ddrCfg 4 1 == 1
  let d1 := if ecc = 3 then (d.bump (R.ddrCnt 2) 1).raise Blk.ddr Src.ddrLinkCorr (a / 32 % 2) 0 0
    else if ecc = 1 ∧ iecc then d.dramCorr m a
    else if ecc = 2 ∧ iecc then d.dramUncorr m a false
    else d
  let bad := f.2 || (ecc == 2 && iecc)
  { s with dev := if bad && m == 3 then d1.resyncAbort 5 else d1 }

/-- A register access: single, aligned, of 32 bits (R396). -/
def regAccess (a n : Nat) : Bool := a % 4 == 0 && n == 4

/-- A register access is served; `wr` is the host's write of a register. -/
def Sys.serveReg (s : Sys) (wr : Nat → Nat → Sys → Sys) (q : BusReq) (off : Nat) : Sys :=
  if q.write then
    if q.master = 9 then s.onDev (fun d => d.cmdWrites (.immediate d.nextDue) d.nextDue [{ off := off, mask := 0xFFFFFFFF, data := enWord q.bytes }])
    else wr off (enWord q.bytes) s
  else s.hostRead off

/-- The forward-landing writer owns a landing half at the present cycle: this tick's before cycle 1,024, the next tick's afterwards (R60). -/
def Dev.ownsLanding (d : Dev) (h : Nat) : Bool := if h = d.half then decide (d.cycle < 1024) else decide (1024 ≤ d.cycle)

/-- While the engine runs, an address of sample memory lies in a half that master `m` does not own in this tick, for a write or a read (R18,
R19, R60): staging writes the inbound half of the next tick and drain reads the outbound half of the tick before, both as M0; the forward-landing
writer, M3, writes the landing half; M7's reads are R393's. -/
def Dev.ownsNot (d : Dev) (m a : Nat) (wr : Bool) : Bool :=
  let o := a - sampleBase
  let other := 1 - d.half
  bit (d.reg R.engStat) 4 && m != 7 &&
    (if o < 0x200000 then !(m == 0 && (if wr then o / 0x80000 == other else o / 0x80000 == 2 + other))
     else decide (0x3F8000 ≤ o) && !(m == 3 && wr && d.ownsLanding ((o - 0x3F8000) / 0x4000)))

/-- The number that names a memory in a data word: 0 coefficient, 1 state (R107); for others none is given: a free value. -/
def Dev.memCode (d : Dev) (m : EccMem) : Dev × Nat :=
  match m with
  | .coef => (d, 0)
  | .state => (d, 1)
  | _ => (d.draw.1, d.draw.2.toNat)

/-- A word of lane memory that the load port may not write: lane, memory, word; of the active instruction bank the bundle (R62, R63). -/
def Dev.wordInUse (d : Dev) (a : Nat) : Option (Nat × EccMem × Nat) :=
  let used := fun (n mem w : Nat) => match d.ldr.act with
    | some sh => sh.uses n mem w
    | none => false
  if a < stateBase 0 then
    let n := (a - coefBase 0) / 0x20000
    let w := (a - coefBase n) / 4
    if used n 0 w then some (n, .coef, w) else none
  else if a < instrBase 0 0 then
    let n := (a - stateBase 0) / 0x10000
    let w := (a - stateBase n) / 4
    if used n 1 w then some (n, .state, w) else none
  else
    let n := (a - instrBase 0 0) / 0x40000
    let o := (a - instrBase n 0)
    if o / 0x20000 == d.rf R.engStat 5 1 then some (n, .instr, o % 0x20000 / 16) else none

/-- A write through the load port: words in use and bundles of the active bank keep their contents, each with LOAD_REFUSED (R62, R63). -/
def Sys.loadPort (s : Sys) (a : Nat) (bs : List (Option Byte)) : Sys :=
  let at_ := fun (i : Nat) => s.dev.wordInUse (a + i)
  let used := ((List.range bs.length).filterMap at_).eraseDups
  let ok := ((List.range bs.length).zip bs).map (fun p => if (at_ p.1).isSome then none else p.2)
  let s1 := if used.isEmpty then s.portStore a bs else s.portStore a ok
  s1.onDev (fun d => each used (fun x d => (d.memCode x.2.1).1.raise Blk.eng Src.engLoadRefused x.1 (d.memCode x.2.1).2 x.2.2) d)

/-- A request at an internal address is served, waits for a master granted before it, or is answered as a decode error (R387, R390, R391,
R393). -/
def Sys.serve (s : Sys) (wr : Nat → Nat → Sys → Sys) (q : BusReq) (a : Nat) : Sys :=
  let d := s.dev
  let n := q.bytes.length
  let t := d.target a
  let may :=
    if !(masterPaths q.master).contains t || n == 0 then false
    else if t = 3 then regAccess a n && !noBlock (a - regBase)
    else if q.master = 7 then (if q.write then d.hostWrites a n else d.hostReads a n)
    else d.target (a + n - 1) == t && !(t == 1 && d.exClosed a n)
  if !may then
    let s1 := s.onDev (fun d => d.decErr q.master a q.write)
    if q.write then s1 else s1.onDev (fun d => { d with rdata := List.replicate n 0 })
  else if d.busGrant t q.last (q.master :: q.rivals) ≠ q.master then s
  else if t = 3 then s.serveReg wr q (a - regBase)
  else if t = 1 ∧ (rangeFrom a n).any (fun x => d.ownsNot q.master x q.write) = true then
    s.onDev (fun d => d.raise Blk.eng Src.engXbarOwn q.master (a % 2 ^ 32) d.cycle)
  else if q.write then
    if t = 2 then s.loadPort a q.bytes else if t = 1 then s.portStore a q.bytes else s.onMem (fun m => m.putEn a q.bytes)
  else
    let s1 := if t = 0 then s.dramRead q.master a q.ecc else s
    s1.onDev (fun d => { d with rdata := ((s.memSeen d.cycle).bytes a n).map (fun b => b.toNat) })

/-- An access to the MSI-X table and the pending-bit array through BAR4 (R396): address and data words, masks in the control words. -/
def Sys.serveMsix (s : Sys) (q : BusReq) : Sys :=
  let o := q.addr
  let v := o / 16
  if o % 4 ≠ 0 ∨ q.bytes.length ≠ 4 then s.onDev (fun d => d.completerAbort)
  else if q.write then
    if o < 0x200 ∧ o % 16 = 12 then
      s.onDev (fun d => (d.onPcie (fun p => { p with msixMask := bitSet p.msixMask v (bit (enWord q.bytes) 0) })).msixFlush)
    else if o < 0x200 then s.onDev (fun d => d.onPcie (fun p => { p with table := tabPut p.table o (enWord q.bytes) 0 }))
    else s
  else
    let d := s.dev
    let x : Nat := if o < 0x200 ∧ o % 16 = 12 then b2n (bit d.pcie.msixMask v)
      else if o < 0x200 then ((tabGet d.pcie.table o).map (fun w => w.toNat)).getD 0
      else if o = 0x2000 then d.pcie.msixPend else 0
    { s with dev := { d with rdata := [x] } }

/-- A request of a master: for M7 through a BAR the endpoint's rules first (R392, R396 to R398). -/
def Sys.busRequest (wr : Nat → Nat → Sys → Sys) (q : BusReq) (c : Nat) (s0 : Sys) : Sys :=
  let sA := (s0.toCycle c).onDev (fun d => d.atC c)
  let s := if q.corr = 0 ∨ q.via = .internal ∨ sA.dev.rf R.pcieStat 0 1 = 0 then sA else sA.onDev (fun d => d.pcieCorr q.corr)
  let d := s.dev
  if q.via = .internal then (if q.master < 10 ∧ q.master ≠ 7 then s.serve wr q q.addr else s0)
  else if d.rf R.pcieStat 0 1 = 0 then s0
  else if q.unsup ∨ !d.pcie.memEn ∨ d.rf R.pcieStat 8 2 = 3 then s.onDev (fun d => d.unsupported)
  else if q.poison && q.write then s.onDev (fun d => d.pcieUncorr 0x1000)
  else
    let q7 : BusReq := { q with master := 7 }
    match q.via with
    | .bar0 => s.serve wr q7 (regBase + q.addr % 0x400000)
    | .bar2 => s.serve wr q7 (d.rf R.bmxBar2base 0 12 * 2 ^ 28 + q.addr % 2 ^ 28)
    | _ => s.serveMsix q7

/-- A request held back is issued after `n` held cycles (R389). -/
def Dev.heldRelease (n c : Nat) (d0 : Dev) : Dev := (d0.atC c).bump (R.bmxCnt 1) n

end Sys2Proof.Machine
end

