-- ==== Sys2Proof/Machine/Cmd.lean ====
section
/-!
DEFINITION. The command unit and the key store (chapter 14): frames, tags and replies (R329 to R335), the rings (R328), acceptance (R333),
the classes and opcodes (R336 to R340, R457), keys, fuses and the nonce (R332, R341 to R346), and mirrored commands (R307, R337).
-/
namespace Sys2Proof.Machine

/-- A change of CMD's own state. -/
def Dev.onCmd (d : Dev) (f : Cmd → Cmd) : Dev := { d with cmd := f d.cmd }

/-! ## Frames and tags (R329, R331, R335) -/

/-- Key slot of a command; a position beyond the end of the bytes reads zero. -/
def cmdSlot (bs : List Byte) : Nat := le bs 5 1 % 8
/-- Opcode. -/
def cmdOp (bs : List Byte) : Nat := le bs 6 2
/-- Counter. -/
def cmdCtr (bs : List Byte) : Nat := le bs 8 8
/-- Target tick. -/
def cmdTgt (bs : List Byte) : Nat := le bs 16 6
/-- Payload. -/
def cmdPay (bs : List Byte) : List Byte := slice bs 32 (le bs 22 2)
/-- TARGET of an ASAP command (R330). -/
def asap : Nat := 0xFFFFFFFFFFFF

/-- The frame is right: MAGIC, VERSION, reserved bytes, LENGTH, and the whole length (R329; step 1 of R333). -/
def frameOk (bs : List Byte) : Bool :=
  le bs 0 4 == 0x4D435647 && le bs 4 1 == 1 && decide (le bs 5 1 < 8) && le bs 28 4 == 0 &&
    decide (le bs 22 2 % 4 = 0 ∧ le bs 22 2 ≤ 4096 ∧ bs.length = 40 + le bs 22 2)

/-- The frame of a command, with its tag as a number, least significant byte first. -/
def cmdBytes (op slot ctr tgt reqtag : Nat) (pay : List Byte) (tag : Nat) : List Byte :=
  leBytes 4 0x4D435647 ++ leBytes 1 1 ++ leBytes 1 slot ++ leBytes 2 op ++ leBytes 8 ctr ++ leBytes 6 tgt ++ leBytes 2 pay.length ++
    leBytes 4 reqtag ++ leBytes 4 0 ++ pay ++ leBytes 8 tag

/-- The session nonce. -/
def Dev.nonce (d : Dev) : Nat := d.reg R.cmdNoncelo + 2 ^ 32 * d.reg R.cmdNoncehi
/-- A nonce is available. -/
def Dev.nonceOk (d : Dev) : Bool := d.rf R.cmdStat 0 1 == 1

/-- The tag of a message under a key and a nonce: the first 8 bytes of its CMAC (R331). -/
def frameTag (key nonce : Nat) (bs : List Byte) : List Byte := (beBytes 16 (cmac key (leBytes 8 nonce ++ bs))).take 8
/-- A command's tag is right under a key. -/
def Dev.tagOk (d : Dev) (key : Nat) (bs : List Byte) : Bool :=
  decide (frameTag key d.nonce (bs.take (bs.length - 8)) = bs.drop (bs.length - 8))

/-- Exactly `n` bytes, missing ones zero. -/
def padTo (n : Nat) (l : List Byte) : List Byte := l.take n ++ List.replicate (n - l.length) 0

/-- A reply: the echoed fields, TICK, LENGTH, STATUS, DETAIL, UNAUTH, the role, the payload, and a tag where a key is given (R335). -/
def Dev.replyTo (d : Dev) (bs : List Byte) (tick status detail : Nat) (pay : List Byte) (key : Option Nat) : List Byte :=
  let hd := leBytes 4 0x50525647 ++ padTo 12 (slice bs 4 12) ++ leBytes 6 tick ++ leBytes 2 pay.length ++ padTo 4 (slice bs 24 4) ++
    leBytes 1 status ++ leBytes 1 detail ++ leBytes 1 (b2n key.isNone) ++ leBytes 1 (d.rf R.pairStat 0 3)
  hd ++ pay ++ (match key with
    | some k => frameTag k d.nonce (hd ++ pay)
    | none => List.replicate 8 0)

/-! ## The rings (R328) -/

/-- A command or reply ring is usable: 16 to 4,096 entries of 16 bytes within the host-rings region. -/
def Dev.cmdRingOk (d : Dev) (base size : Nat) : Bool :=
  decide (16 ≤ size ∧ size ≤ 4096 ∧ d.ringBase ≤ base ∧ base + 16 * size ≤ d.ringBase + ringSize)

/-- Entries between a head and a tail of a ring. -/
def ringHeld (head tail size : Nat) : Nat := (tail + size - head % max 1 size) % max 1 size

/-- The descriptor `k` places after the head of reply ring `r`, if the device owns it. -/
def Sys.replyDesc (s : Sys) (r k : Nat) : Option Nat :=
  let d := s.dev
  let base := d.ringAt (R.cmdRbaselo r) (R.cmdRbasehi r)
  let size := d.rf (R.cmdRsize r) 0 13
  let head := d.rf (R.cmdRhead r) 0 12
  if d.cmdRingOk base size && decide (k < ringHeld head (d.rf (R.cmdRtail r) 0 12) size) then
    let a := base + 16 * ((head + k) % size)
    if bit (le (s.mem.bytes a 16) 10 2) 0 then some a else none
  else none

/-- The command at the head of command ring `r`: its descriptor's address and its bytes. -/
def Sys.ringPeek (s : Sys) (r : Nat) : Option (Nat × List Byte) :=
  let d := s.dev
  let base := d.ringAt (R.cmdCbaselo r) (R.cmdCbasehi r)
  let size := d.rf (R.cmdCsize r) 0 13
  let head := d.rf (R.cmdChead r) 0 12
  if d.cmdRingOk base size && d.rf (R.cmdCtail r) 0 12 != head then
    let a := base + 16 * head
    let desc := s.mem.bytes a 16
    if bit (le desc 10 2) 0 then some (a, s.mem.bytes (le desc 0 5) (le desc 8 2)) else none
  else none

/-- A descriptor's OWN cleared. -/
def Memory.clearOwn (m : Memory) (a : Nat) : Memory := m.putBytes (a + 10) (leBytes 2 (bitSet (le (m.bytes a 16) 10 2) 0 false))

/-- The command at the head of ring `r` is fetched; a descriptor read by M9 that a force makes uncorrectable stops the ring (R401). -/
def Sys.ringFetch (s : Sys) (r : Nat) : Sys × Option CmdIn :=
  match s.ringPeek r with
  | none => (s, none)
  | some (a, bs) =>
    let f := s.dev.dramForced 9 a
    if f.2 then ({ s with dev := f.1 }, none)
    else
      let size := s.dev.rf (R.cmdCsize r) 0 13
      let d1 := f.1.setReg (R.cmdChead r) ((s.dev.rf (R.cmdChead r) 0 12 + 1) % size)
      ({ s with mem := s.mem.clearOwn a, dev := d1 }, some { src := r, bytes := bs, from_ := none })

/-! ## Replies leave in order (R335) -/

/-- The Ethernet frame of a reply over UDP: from the station address, the command port and the address the command was sent to, to where it came from
(R327).  Type of service, identification, DF, time to live and whether the datagram bears a checksum are free (log entry 152). -/
def Dev.replyFrame (d : Dev) (u : UdpFrom) (free : BitVec 64) (bs : List Byte) : List Byte :=
  let x := free.toNat
  let port := beBytes 2 (d.rf R.cmdUdpcfg 0 16) ++ beBytes 2 u.port ++ beBytes 2 (8 + bs.length)
  let ends := beBytes 4 u.dst ++ beBytes 4 u.ip
  let sum := ip4Sum (ends ++ beBytes 2 17 ++ beBytes 2 (8 + bs.length) ++ port ++ [0, 0] ++ bs)
  let chk := if bit x 33 then (if sum = 0 then 0xFFFF else sum) else 0
  let h := beBytes 1 0x45 ++ beBytes 1 (fld x 0 8) ++ beBytes 2 (28 + bs.length) ++ beBytes 2 (fld x 8 16) ++ beBytes 2 (fld x 32 1 * 0x4000) ++
    beBytes 1 (fld x 24 8) ++ beBytes 1 17
  beBytes 6 u.mac ++ beBytes 6 (d.station 2) ++ beBytes 2 0x0800 ++ h ++ beBytes 2 (ip4Sum (h ++ ends)) ++ ends ++ port ++ beBytes 2 chk ++ bs

/-- A reply over UDP leaves by the management port. -/
def Dev.replyUdp (d : Dev) (u : UdpFrom) (bs : List Byte) : Dev :=
  let r := d.draw
  (r.1.onCmd (fun c => { c with frames := c.frames ++ [d.replyFrame u r.2 bs] })).replyFlush

/-- A reply leaves by its source: a datagram to where the command came from, or the next descriptor of the paired reply ring, with CMD's
interrupt (R328); none where the ring has no descriptor for it. -/
def Sys.replySend (s : Sys) (a : Answer) (bs : List Byte) : Option Sys :=
  let sent := fun (d : Dev) => { d with out := { d.out with replies := d.out.replies ++ [(a.src, a.from_, bs)] } }
  if 2 ≤ a.src then
    some (s.onDev (fun d => match a.from_ with
      | some u => (sent d).replyUdp u bs
      | none => sent d))
  else
    match s.replyDesc a.src 0 with
    | none => none
    | some p =>
      let size := s.dev.rf (R.cmdRsize a.src) 0 13
      let m := (s.mem.putBytes (le (s.mem.bytes p 16) 0 5) bs).clearOwn p
      let d1 := s.dev.setReg (R.cmdRhead a.src) ((s.dev.rf (R.cmdRhead a.src) 0 12 + 1) % size)
      some { s with mem := m, dev := (sent d1).msix (d1.routeVec (R.evtIrqroute Blk.cmd)) }

/-- Every reply that is made and that no earlier one of its source holds back leaves. -/
def Sys.flush (s : Sys) : Sys :=
  let r := s.dev.cmd.owed.foldl (fun (acc : Sys × List Answer) a =>
    if acc.2.any (fun b => b.src == a.src) then (acc.1, acc.2 ++ [a])
    else match a.reply with
      | none => (acc.1, acc.2 ++ [a])
      | some bs => match acc.1.replySend a bs with
        | some s1 => (s1, acc.2)
        | none => (acc.1, acc.2 ++ [a])) (s, [])
  r.1.onDev (fun d => d.onCmd (fun c => { c with owed := r.2 }))

/-- The reply to a command is made. -/
def Sys.answer (s : Sys) (c : CmdIn) (bs : List Byte) : Sys :=
  (s.onDev (fun d => d.onCmd (fun x => { x with
    owed := x.owed.map (fun a => if a.num == c.num then { a with reply := some bs } else a) }))).flush

/-- Refusal reasons of R335. -/
def rsBadframe : Nat := 0x01
@[inherit_doc rsBadframe] def rsSlotEmpty : Nat := 0x02
@[inherit_doc rsBadframe] def rsTag : Nat := 0x03
@[inherit_doc rsBadframe] def rsCounter : Nat := 0x04
@[inherit_doc rsBadframe] def rsPrivilege : Nat := 0x05
@[inherit_doc rsBadframe] def rsOpcode : Nat := 0x06
@[inherit_doc rsBadframe] def rsPayload : Nat := 0x07
@[inherit_doc rsBadframe] def rsLate : Nat := 0x08
@[inherit_doc rsBadframe] def rsOrder : Nat := 0x09
@[inherit_doc rsBadframe] def rsParity : Nat := 0x0A
@[inherit_doc rsBadframe] def rsFull : Nat := 0x0B
@[inherit_doc rsBadframe] def rsPeer : Nat := 0x0C
@[inherit_doc rsBadframe] def rsNotHolder : Nat := 0x0D
@[inherit_doc rsBadframe] def rsState : Nat := 0x0E
@[inherit_doc rsBadframe] def rsStop : Nat := 0x0F
@[inherit_doc rsBadframe] def rsResync : Nat := 0x10
@[inherit_doc rsBadframe] def rsEntropy : Nat := 0x11
@[inherit_doc rsBadframe] def rsDomain : Nat := 0x12
@[inherit_doc rsBadframe] def rsKey : Nat := 0x13
@[inherit_doc rsBadframe] def rsBusy : Nat := 0x14

/-- A refusal: its reason and its DETAIL. -/
abbrev Refused := Nat × Nat

/-- A refused command: counted and logged by its reason, and answered with the current tick (R335, R348). -/
def Sys.cmdRefuse (s : Sys) (c : CmdIn) (q : Refused) (key : Option Nat) : Sys :=
  let bs := c.bytes
  let slot := cmdSlot bs
  let lo := cmdCtr bs % 2 ^ 32
  let d := s.dev.bump (R.cmdCnt 1) 1
  let d1 :=
    if q.1 = rsBadframe then (d.bump (R.cmdCnt 3) 1).raise Blk.cmd Src.cmdBadframe c.src bs.length 0
    else if q.1 = rsTag then (d.bump (R.cmdCnt 2) 1).raise Blk.cmd Src.cmdTagFail c.src slot lo
    else if q.1 = rsCounter then d.raise Blk.cmd Src.cmdCounter slot lo (d.w64 (R.cmdSeen slot) % 2 ^ 32)
    else d.raise Blk.cmd Src.cmdRefused (cmdOp bs) q.1 q.2
  ({ s with dev := d1 } : Sys).answer c (d1.replyTo bs d1.tick q.1 q.2 [] key)

/-- An acknowledged command: counted, and answered with the tick at which it takes effect. -/
def Sys.cmdAck (s : Sys) (c : CmdIn) (tick : Nat) (pay : List Byte) (key : Option Nat) : Sys :=
  let d1 := s.dev.bump (R.cmdCnt 0) 1
  ({ s with dev := d1 } : Sys).answer c (d1.replyTo c.bytes tick 0 0 pay key)

/-! ## Key slots and fuses (R341 to R346) -/

/-- The key slot `k`. -/
def Dev.keySlot (d : Dev) (k : Nat) : Option KeySlot := (d.cmd.slots[k]?).bind id
/-- The contents of a key slot change, with SLOTSTAT. -/
def Dev.setSlot (d : Dev) (k : Nat) (x : Option KeySlot) : Dev :=
  let v := match x with
    | some y => 2 ^ 31 + 256 * (y.gen % 16) + y.priv % 256
    | none => 0
  (d.setReg (R.keySlotstat k) v).onCmd (fun c => { c with slots := updAt c.slots k (fun _ => x) })

/-- The contents of a key blob (R342): slot, privilege byte, generation, the five reserved bytes, and the key. -/
structure KeyBlob where
  key  : Nat
  slot : Nat
  priv : Nat
  gen  : Nat
  zero : Nat
deriving DecidableEq, Repr

/-- The blob unwrapped under the root key; none when there is no root key or its integrity check fails. -/
def unwrapBlob (o : Otp) (blob : List Byte) : Option KeyBlob :=
  if !o.rootV || blob.length != 32 then none
  else match keyUnwrap o.root [be blob 0 8, be blob 8 8, be blob 16 8, be blob 24 8] with
    | some [a, b, c] => some { key := a * 2 ^ 64 + b, slot := fld c 56 8, priv := fld c 48 8, gen := fld c 40 8, zero := fld c 0 40 }
    | _ => none

/-- The cause for which a KEY_LOAD is refused, or the blob it loads (R342). -/
def Sys.keyLoadCheck (s : Sys) (bs : List Byte) : Except Nat KeyBlob :=
  let slot := cmdSlot bs
  match unwrapBlob s.otp (cmdPay bs) with
  | none => .error 1
  | some b =>
    if b.slot ≠ slot then .error 2
    else if b.zero ≠ 0 then .error 6
    else if 15 < b.gen ∨ b.gen < s.otp.floors.getD slot 0 then .error 3
    else if !s.dev.tagOk b.key bs then .error 4
    else .ok b

/-- Steps 4 and 5 of R333: the key under which the command is authenticated. -/
def Sys.cmdKey (s : Sys) (bs : List Byte) : Except Refused Nat :=
  if cmdOp bs = 0x60 then
    match s.keyLoadCheck bs with
    | .error k => .error (rsKey, k)
    | .ok b => .ok b.key
  else match s.dev.keySlot (cmdSlot bs) with
    | none => .error (rsSlotEmpty, 0)
    | some k => if s.dev.tagOk k.key bs then .ok k.key else .error (rsTag, 0)

/-- A KEY_LOAD that has passed: the slot holds the key, and its counters continue (R342). -/
def Sys.keyLoad (s : Sys) (bs : List Byte) : Sys :=
  match s.keyLoadCheck bs with
  | .error _ => s
  | .ok b =>
    s.onDev (fun d => (d.setSlot (cmdSlot bs) (some { key := b.key, priv := b.priv, gen := b.gen })).raise Blk.key Src.keyKeyLoaded
      (cmdSlot bs) b.gen b.priv)

/-- KEY_RETIRE of slot `k` (R344): the slot is emptied, and a permanent retirement burns its floor up; refused where the floor would pass
15. -/
def Sys.keyRetire (s : Sys) (k : Nat) (perm : Bool) : Except Refused Sys :=
  let fl := s.otp.floors.getD k 0
  match s.dev.keySlot k, perm with
  | none, false => .ok s
  | x, _ =>
    let new := if perm then max fl (match x with
      | some y => y.gen + 1
      | none => fl + 1) else fl
    if 15 < new then .error (rsKey, 5)
    else
      let d1 := (s.dev.setSlot k none).raise Blk.key Src.keyKeyRetired k (b2n perm) new
      let d2 := d1.onCmd (fun c => { c with fuse := c.fuse || perm })
      .ok { s with dev := d2, otp := { s.otp with floors := updAt s.otp.floors k (fun _ => new) } }

/-- SIGN_REVOKE (R346): the revocation fuse of a hash is burned; a READY sheaf that its key signed is discarded. -/
def Sys.signRevoke (s : Sys) (kind i : Nat) (first : List Byte) : Except Refused Sys :=
  let o := s.otp
  let h := (if kind = 0 then o.shash else o.bhash).getD i 0
  let valid := if kind = 0 then o.svalid else o.bvalid
  let rev := if kind = 0 then o.srev else o.brev
  if !(bit valid i && decide (first = (beBytes 32 h).take 8)) then .error (rsKey, 0)
  else if bit rev i then .ok s
  else if !((List.range 4).any (fun j => j != i && bit valid j && !bit rev j)) then .error (rsKey, 0)
  else
    let o1 : Otp := if kind = 0 then { o with srev := bitSet o.srev i true } else { o with brev := bitSet o.brev i true }
    let d1 := s.dev.raise Blk.key Src.keySignRevoked kind i 0
    let d2 := match d1.ldr.pend with
      | some sh => if kind = 0 ∧ d1.loadState = 2 ∧ sh.signer = i then d1.loadEmpty else d1
      | none => d1
    .ok { s with dev := d2.onCmd (fun c => { c with fuse := true }), otp := o1 }

/-- A fuse operation completes; `err` names the fuse that did not burn (R346, R349). -/
def Dev.fuseDone (d : Dev) (err : Option Nat) : Dev :=
  if !d.cmd.fuse then d
  else
    let d1 := d.onCmd (fun c => { c with fuse := false })
    match err with
    | some a => d1.raise Blk.key Src.keyOtpErr a 0 0
    | none => d1

/-! ## The nonce (R332) -/

/-- A reset of a kind (0 cold, 1 warm, 2 control plane) calls for a new nonce: the present one ends. -/
def Dev.nonceDue (d : Dev) (kind : Nat) : Dev :=
  (((d.setReg R.cmdNoncelo 0).setReg R.cmdNoncehi 0).setFld R.cmdStat 0 1 0).onCmd (fun c => { c with draw := c.draw ++ [kind] })
/-- The record of a reset with the session's nonce: SESSION after a cold reset, else RESET with its kind (R369, R421). -/
def Dev.resetRec (d : Dev) (kind : Nat) : Dev :=
  let lo := d.reg R.cmdNoncelo
  let hi := d.reg R.cmdNoncehi
  if kind = 0 then d.makeRec Blk.evt 2 1 lo hi (d.reg R.sysId) else d.makeRec Blk.evt 3 1 kind lo hi
/-- A nonce that was called for is drawn while the source passes; the records of the resets that called for it follow. -/
def Dev.nonceDraw (d : Dev) (v : Nat) : Dev :=
  if d.cmd.draw.isEmpty || d.cmd.fails != 0 then d
  else
    let d1 := ((((d.setReg R.cmdNoncelo (v % 2 ^ 32)).setReg R.cmdNoncehi (v / 2 ^ 32 % 2 ^ 32)).setFld R.cmdStat 0 1 1).setFld R.keyTrngstat 0 1 1).onCmd
      (fun c => { c with draw := [] })
    each d.cmd.draw (fun k d => d.resetRec k) d1
/-- The source fails a test: 1 repetition count, 2 adaptive proportion. -/
def Dev.trngFail (d : Dev) (test : Nat) : Dev :=
  if !(test = 1 ∨ test = 2) then d
  else
    let d1 := ((d.setFld R.keyTrngstat test 1 1).setFld R.keyTrngstat 0 1 0).onCmd (fun c => { c with fails := bitSet c.fails test true })
    d1.raise Blk.key Src.keyTrngHealth (d1.reg R.keyTrngstat) d1.tickLo 0
/-- The source passes both tests again. -/
def Dev.trngPass (d : Dev) : Dev := (d.setFld R.keyTrngstat 0 1 1).onCmd (fun c => { c with fails := 0 })

/-! ## Opcodes, privileges and payloads (R338 to R342; step 7 of R333) -/

/-- The class of an opcode (R336): 0 UNIT, 1 DATA, 2 HOLDER, 3 PAIR; none for an unknown opcode. -/
def opClass (op : Nat) : Option Nat :=
  if op = 1 ∨ op = 2 ∨ op = 0x20 ∨ op = 0x40 ∨ op = 0x60 ∨ op = 0x61 ∨ op = 0x62 then some 0
  else if op = 0x10 ∨ op = 0x23 ∨ op = 0x24 ∨ op = 0x30 then some 1
  else if op = 0x21 ∨ op = 0x22 then some 2
  else if 0x70 ≤ op ∧ op ≤ 0x76 then some 3
  else none

/-- The privilege bit an opcode needs of its slot, where it needs one whatever its payload. -/
def opPriv (op : Nat) : Option Nat :=
  if op = 2 then some 0
  else if op = 0x23 ∨ op = 0x24 ∨ op = 0x30 then some 2
  else if op = 0x20 ∨ op = 0x21 ∨ op = 0x22 then some 3
  else if 0x70 ≤ op ∧ op ≤ 0x76 then some 4
  else if op = 0x62 then some 6
  else if op = 0x40 then some 7
  else none

/-- The payload length an opcode fixes. -/
def opSize (op : Nat) : Option Nat :=
  if op = 2 ∨ op = 0x21 ∨ op = 0x30 then some 8
  else if op = 0x40 ∨ op = 0x61 ∨ op = 0x70 then some 4
  else if op = 0x60 then some 32
  else if op = 0x62 then some 12
  else if op = 0x22 ∨ op = 0x23 ∨ (0x71 ≤ op ∧ op ≤ 0x76) then some 0
  else none

/-- The entries of a WRITE payload (R339). -/
def entriesOf : Nat → List Byte → List RegWr
  | 0, _ => []
  | n + 1, p => { off := le p 0 4, mask := le p 4 4, data := le p 8 4 } :: entriesOf n (p.drop 12)

/-- The force and clear registers (R339). -/
def forceRegs : List Nat :=
  [R.engForce, R.clkForce, R.macForce 10, R.macForce 11, R.modForce0, R.modForce1, R.modClear0, R.modClear1, R.snsForce, R.pairForce,
   R.ddrForce]

/-- The privilege bit a WRITE entry needs (R339). -/
def entryPriv (r : RegRow) (e : RegWr) : Nat :=
  if forceRegs.contains e.off then 5 else if r.crit &&& e.mask != 0 then 2 else 1

/-- A WRITE entry of index `i` is well formed and permitted: an existing offset that is not read-only, not PWR.RST (R419), no STOP-class field
unless immediate (R41). -/
def entryCheck (priv : Nat) (imm : Bool) (i : Nat) (e : RegWr) : Except Refused Unit :=
  match rowAt e.off with
  | none => .error (rsPayload, i)
  | some r =>
    if e.off % 4 ≠ 0 ∨ 0x400000 ≤ e.off ∨ (r.writable = 0 ∧ !isStepacc e.off) ∨ e.off = R.pwrRst then .error (rsPayload, i)
    else if !bit priv (entryPriv r e) then .error (rsPrivilege, i)
    else if !imm && r.stop &&& e.mask != 0 then .error (rsPayload, i)
    else .ok ()

/-- Checks over a list with the index of each item. -/
def checkFrom {α : Type} (f : Nat → α → Except Refused Unit) : Nat → List α → Except Refused Unit
  | _, [] => .ok ()
  | i, x :: t => match f i x with
    | .error e => .error e
    | .ok _ => checkFrom f (i + 1) t

/-- The payload's own conditions, its length and target being right. -/
def payloadCheck (op slot priv : Nat) (imm : Bool) (p : List Byte) : Except Refused Unit :=
  let ok := fun (b : Bool) => if b then (.ok () : Except Refused Unit) else .error (rsPayload, 0)
  if op = 0x10 then
    (if p.length % 12 ≠ 0 ∨ p.length = 0 ∨ 64 < p.length / 12 then .error (rsPayload, 0)
     else checkFrom (entryCheck priv imm) 0 (entriesOf (p.length / 12) p))
  else if op = 2 then ok (decide (le p 0 4 % 4 = 0 ∧ 1 ≤ le p 4 4 ∧ le p 4 4 ≤ 256))
  else if op = 0x20 then ok (decide (4 ≤ p.length))
  else if op = 0x24 then ok (decide (8 ≤ p.length ∧ p.length ≤ 68))
  else if op = 0x61 then
    (if 7 < le p 0 1 ∨ 1 < le p 1 1 ∨ le p 2 2 ≠ 0 then .error (rsPayload, 0)
     else if le p 0 1 ≠ slot ∧ !bit priv 6 then .error (rsPrivilege, 0)
     else .ok ())
  else if op = 0x62 then ok (decide (le p 0 1 ≤ 1 ∧ le p 1 1 ≤ 3 ∧ le p 2 2 = 0))
  else if op = 0x70 then ok (decide (le p 0 4 ≤ 1))
  else .ok ()

/-- Step 7 of R333: the opcode is known, the slot may use it, TARGET is of a kind that it admits, the payload is well formed. -/
def Dev.cmdForm (d : Dev) (bs : List Byte) : Except Refused Unit :=
  let op := cmdOp bs
  let p := cmdPay bs
  let tgt := cmdTgt bs
  let priv := match d.keySlot (cmdSlot bs) with
    | some k => k.priv
    | none => 0
  match opClass op with
  | none => .error (rsOpcode, 0)
  | some cls =>
    let may := match opPriv op with
      | some b => bit priv b
      | none => true
    let sized := match opSize op with
      | some n => p.length == n
      | none => true
    if !may then .error (rsPrivilege, 0)
    else if cls ≠ 1 ∧ tgt ≠ 0 then .error (rsPayload, 0)
    else if (op = 0x23 ∨ op = 0x24 ∨ op = 0x30) ∧ tgt = 0 then .error (rsPayload, 0)
    else if !sized then .error (rsPayload, 0)
    else payloadCheck op (cmdSlot bs) priv (tgt == 0) p

/-! ## Classes UNIT, HOLDER and PAIR: executed at once (R336) -/

/-- Loads, swaps and cell writes that a resynchronisation forbids (R315). -/
def Dev.resyncForbids (d : Dev) (frozen : Bool) : Bool :=
  d.paired && d.phase != 0 && decide (d.w64 R.pairSnap ≤ d.tick) && (!frozen || d.rf R.pairStat 13 1 == 1)

/-- READ (R338): words from `off` on, each as master M9's read of its register; a word at which no block lies is a decode error and reads
zero (R11, R390). -/
def Sys.cmdRead (s : Sys) (off : Nat) : Nat → Sys × List Byte
  | 0 => (s, [])
  | n + 1 =>
    let r := if noBlock off then (s.onDev (fun d => d.decErr 9 (regBase + off) false), 0) else s.regRead off
    let q := Sys.cmdRead r.1 (off + 4) n
    (q.1, leBytes 4 r.2 ++ q.2)

/-- STORE_WRITE (R340): data into the sheaf store at a byte offset. -/
def Sys.storeWrite (s : Sys) (off : Nat) (data : List Byte) : Except Refused Sys :=
  let d := s.dev
  let so := d.reg R.loadSrcoff
  if storeSize < off + data.length then .error (rsPayload, 0)
  else if d.loadState = 1 ∧ off < so + d.reg R.loadSrclen ∧ so < off + data.length then .error (rsState, 1)
  else .ok (s.onMem (fun m => m.putBytes (d.storeBase + off) data))

/-- The partner is a SHADOW that the mirror link reaches. -/
def Dev.hasShadow (d : Dev) : Bool :=
  d.paired && d.role == .active && d.rf R.mirStat 0 1 == 1 && d.peerRole == some .shadow

/-- DATA commands are mirrored: to a SHADOW, and to a CATCHUP unit, which records them (R307, R318). -/
def Dev.mirrors (d : Dev) : Bool := d.paired && (d.hasShadow || d.peerRole == some .catchup)

/-- LOAD (R102, R116, R120, R121). -/
def Dev.cmdLoad (d : Dev) (off len : Nat) : Except Refused Dev :=
  if d.resyncForbids false then .error (rsResync, 0)
  else if d.loadState = 0 ∨ d.loadState = 4 then .ok (d.loadBegin off len d.hasShadow)
  else .error (rsState, d.loadState)

/-- ABORT (R121). -/
def Dev.cmdAbort (d : Dev) : Except Refused Dev :=
  if d.resyncForbids false then .error (rsResync, 0)
  else match d.loadAbort 1 with
    | some d1 => .ok d1
    | none => .error (rsState, d.loadState)

/-- The DETAIL with which a pair command is refused (R302), 0 for none. -/
def Dev.pairRefusal (d : Dev) (op arg : Nat) : Nat :=
  let sheaf := match d.ldr.act with
    | some sh => if sh.pair then 0 else 4
    | none => 0
  let lease : Nat := if d.rf R.pairStat 6 1 = 1 then 2 else if !d.silent then 3 else 0
  if op = 0x70 then
    (if d.paired then 1 else if arg = 0 ∧ lease ≠ 0 then lease else sheaf)
  else if op = 0x71 ∨ op = 0x75 then (if d.paired && d.role == .isolated then 0 else 1)
  else if op = 0x72 then (if !(d.paired && d.role == .fallow) then 1 else lease)
  else if op = 0x73 then (if !(d.paired && d.role == .active) then 1 else if d.peerRole ≠ some .shadow then 5 else 0)
  else if op = 0x74 then (if d.paired && (d.role == .shadow || d.role == .catchup || d.role == .fallow) then 0 else 1)
  else 0

/-- What a pair command does (R302, R315): the role changes at the next boundary. -/
def Dev.pairCommand (d : Dev) (op arg : Nat) : Except Refused Dev :=
  let f := d.pairRefusal op arg
  let goRole := fun (r : Nat) => d.onPair (fun p => { p with toRole := some (r, false) })
  if f ≠ 0 then .error (rsState, f)
  else if op = 0x70 then .ok (goRole (6 + arg))
  else if op = 0x71 then .ok (goRole 5)
  else if op = 0x72 then .ok (goRole 8)
  else if op = 0x73 then .ok (d.onPair (fun p => { p with askRel := some 3 }))
  else if op = 0x74 then .ok (goRole 4)
  else if op = 0x75 then .ok (goRole 3)
  else .ok (d.onPair (fun p => { p with rs := { p.rs with asked := true } }))

/-- A command of class UNIT, HOLDER or PAIR executes: the system after it with the reply's payload, or a refusal. -/
def Sys.execNow (s : Sys) (bs : List Byte) : Except Refused (Sys × List Byte) :=
  let op := cmdOp bs
  let p := cmdPay bs
  let plain := fun (r : Except Refused Sys) => r.map (fun s => (s, ([] : List Byte)))
  let onD := fun (r : Except Refused Dev) => r.map (fun d => (({ s with dev := d } : Sys), ([] : List Byte)))
  if op = 2 then .ok (s.cmdRead (le p 0 4) (le p 4 4))
  else if op = 0x20 then plain (s.storeWrite (le p 0 4) (p.drop 4))
  else if op = 0x21 then onD (s.dev.cmdLoad (le p 0 4) (le p 4 4))
  else if op = 0x22 then onD s.dev.cmdAbort
  else if op = 0x40 then .ok (s.onDev (fun d => d.bbxTrigger 3 (le p 0 4)), [])
  else if op = 0x60 then .ok (s.keyLoad bs, [])
  else if op = 0x61 then plain (s.keyRetire (le p 0 1) (le p 1 1 == 1))
  else if op = 0x62 then plain (s.signRevoke (le p 0 1) (le p 1 1) (slice p 4 8))
  else onD (s.dev.pairCommand op (le p 0 4))

/-- Such a command is acknowledged when it executes, at once (R23). -/
def Sys.cmdNow (s : Sys) (c : CmdIn) : Sys :=
  match s.execNow c.bytes with
  | .error q =>
    let s1 := if q.1 = rsKey ∧ q.2 = 5 then s.onDev (fun d => d.raise Blk.key Src.keyKeyRefused (le (cmdPay c.bytes) 0 1) 5 0) else s
    s1.cmdRefuse c q (some c.key)
  | .ok r => r.1.cmdAck c r.1.dev.tick r.2 (some c.key)

/-! ## HELLO (R338, R457) -/

/-- The payload of the reply. -/
def Sys.helloPay (s : Sys) : List Byte :=
  let d := s.dev
  leBytes 8 d.nonce ++ leBytes 4 (s.view R.sysId) ++ leBytes 1 (d.rf R.pairStat 0 3) ++ leBytes 1 (b2n d.paired + 2 * b2n d.nonceOk) ++
    leBytes 2 0 ++ leBytes 4 (d.reg R.pairEpoch) ++ leBytes 6 d.tick ++ leBytes 2 0 ++
    (List.range 8).flatMap (fun k => leBytes 8 (d.w64 (R.cmdSeen k)) ++ leBytes 8 (d.w64 (R.tickSlotcnt k)) ++
      leBytes 6 (d.w64 (R.tickSlottgt k)) ++ leBytes 2 0 ++ leBytes 4 (s.view (R.keySlotstat k)) ++ leBytes 4 0)

/-- HELLO: answered without a tag, at most 1,000 in a second for each source. -/
def Sys.cmdHello (s : Sys) (c : CmdIn) : Sys :=
  let n := s.dev.cmd.hello.getD c.src 0
  if 1000 ≤ n then
    (s.onDev (fun d => (d.bump (R.cmdCnt 4) 1).onCmd (fun x => { x with owed := x.owed.filter (fun a => a.num != c.num) }))).flush
  else
    let s1 := s.onDev (fun d => d.onCmd (fun x => { x with hello := updAt x.hello c.src (fun k => k + 1) }))
    s1.cmdAck c s1.dev.tick s1.helloPay none

/-! ## Class DATA (R21 to R26, R122, R307, R330, R337) -/

/-- What a DATA command does at its boundary. -/
def actOf (op : Nat) (p : List Byte) : AgAct :=
  if op = 0x10 then .writes (entriesOf (p.length / 12) p)
  else if op = 0x23 then .swap
  else if op = 0x24 then .cell (le p 0 4) (p.drop 4)
  else .step (sgn 64 (le p 0 8))

/-- The tick whose boundary an action must be placed ahead of, counted from the present one: 2 for a swap, 1 for others. -/
def AgAct.lead : AgAct → Nat
  | .swap => 2
  | _ => 1
/-- Actions that take effect at boundaries into even ticks only (R21). -/
def AgAct.even : AgAct → Bool
  | .swap => true
  | .cell _ _ => true
  | _ => false

/-- The earliest tick whose agenda is open when acceptance completes (R21, R330).  With a SHADOW it completes with its CONFIRM, and the tick is
assigned with the margin that R337 gives for it, cycle 9,856 (DEDUCED, log 122). -/
def Dev.openTick (d : Dev) (a : AgAct) : Nat :=
  let close := if d.hasShadow then 9856 else windowEnd
  let t := d.tick + a.lead + (if d.cycle < close then 0 else 1)
  if a.even && t % 2 == 1 then t + 1 else t

/-- The agenda of a target tick is still open (R22; for a swap condition 3 of R122). -/
def Dev.agendaOpen (d : Dev) (a : AgAct) (t : Nat) : Bool :=
  decide (d.tick + a.lead < t) || (d.tick + a.lead == t && decide (d.cycle < windowEnd))

/-- The condition of R122 that a swap to tick `t` fails, 0 for none. -/
def Dev.swapRefusal (d : Dev) (t : Nat) : Nat :=
  match d.ldr.pend with
  | none => 1
  | some sh =>
    if d.loadState ≠ 2 then 1
    else if t % 2 = 1 then 2
    else if !d.agendaOpen .swap t then 3
    else if d.paired && !sh.pair then 4
    else if d.dramClass = 3 ∨ sh.refClass < d.dramClass then 5
    else if d.tick < d.w64 R.loadTransend ∧ t < d.w64 R.loadTransend then 6
    else if d.agenda.any (fun e => e.act == .swap) then 7
    else 0

/-- The blocks whose power domain is off among the entries of a WRITE: the index of the first (R335). -/
def Dev.domainOff (d : Dev) (a : AgAct) : Option Nat :=
  match a with
  | .writes ws => (List.range ws.length).find? (fun i => match ws[i]? with
      | some e => !d.blockOn (e.off / 0x10000)
      | none => false)
  | _ => none

/-- The entry of a WRITE that would put a paired unit to sleep, by its index (R416). -/
def Dev.sleepPaired (d : Dev) (a : AgAct) : Option Nat :=
  match a with
  | .writes ws => if d.paired then (List.range ws.length).find? (fun i => match ws[i]? with
      | some e => e.off == R.pwrSleep && bit (e.data &&& e.mask) 0
      | none => false) else none
  | _ => none

/-- Step 9 of R333 for a DATA command with target `t`, immediate or for the agenda, `last` being the latest target accepted on its slot: a
refusal, with the device after what it raises.  An immediate command takes no entry of the agenda (R22). -/
def Dev.dataCheck (d : Dev) (a : AgAct) (imm : Bool) (t last : Nat) : Dev × Option Refused :=
  let sw := if a = .swap then d.swapRefusal t else 0
  let ce := match a with
    | .cell key val => d.cellRefusal t key val
    | _ => 0
  if a.even && d.resyncForbids true then (d, some (rsResync, 0))
  else if a = .swap ∧ d.testMode = true then
    -- every swap is refused in factory test mode (R367); the condition is not given: a free value
    let r := d.draw
    (r.1.raise Blk.load Src.loadSwapRefused r.2.toNat (t % 2 ^ 32) (t / 2 ^ 32 % 65536), some (rsState, r.2.toNat % 256))
  else if sw ≠ 0 then
    (d.raise Blk.load Src.loadSwapRefused sw (t % 2 ^ 32) (t / 2 ^ 32 % 65536),
     some (if sw = 2 then rsParity else if sw = 3 then rsLate else rsState, sw))
  else if a.even && t % 2 == 1 then (d, some (rsParity, 0))
  else if !d.agendaOpen a t then (d, some (rsLate, 0))
  else if !imm && decide (256 ≤ d.agenda.length) then (d, some (rsFull, 0))
  else if t < last then (d, some (rsOrder, 0))
  else match d.domainOff a with
    | some i => (d, some (rsDomain, i))
    | none =>
      if (d.sleepPaired a).isSome then (d, some (rsState, (d.sleepPaired a).getD 0))
      else if ce ≠ 0 then
        (match a with
         | .cell key _ => (d.raise Blk.load Src.loadCellRefused key (t % 2 ^ 32) ce, some (rsState, ce))
         | _ => (d, none))
      else (d, none)

/-- An entry is placed on the agenda; a swap's arms the loader (R121). -/
def Dev.place (d : Dev) (e : AgEntry) : Dev :=
  let d1 := ({ d with agenda := d.agenda ++ [e] } : Dev).agendaHigh
  if e.act = .swap then (d1.setFld R.loadStat 0 3 3).setW R.loadSwaptgt e.tgt else d1

/-- An unacknowledged entry is removed; a swap's returns the loader to READY (R121, R337). -/
def Dev.unplace (d : Dev) (slot ctr : Nat) : Dev :=
  let mine := fun (e : AgEntry) => e.slot == slot && e.ctr == ctr
  let d1 : Dev := { d with agenda := d.agenda.filter (fun e => !mine e) }
  if d.agenda.any (fun e => mine e && e.act == .swap) && d.loadState == 3 then d1.setFld R.loadStat 0 3 2 else d1

/-- TICK records an acknowledged DATA command of a slot; the record never falls (R23, R24). -/
def Dev.slotRecord (d : Dev) (slot ctr tgt : Nat) : Dev :=
  if d.w64 (R.tickSlotcnt slot) < ctr then (d.setW (R.tickSlotcnt slot) ctr).setW (R.tickSlottgt slot) tgt else d

/-- The latest target on a slot: of its record, and of its commands that await their acknowledgement (R24). -/
def Dev.lastTarget (d : Dev) (slot : Nat) : Nat :=
  max (d.w64 (R.tickSlottgt slot))
    (max (maxN ((d.cmd.await.filter (fun a => a.slot == slot)).map (fun a => a.tgt)))
      (maxN ((d.cmd.imm.filter (fun a => a.slot == slot && a.cmd.isSome)).map (fun a => a.tgt))))

/-- Mirrored commands awaiting CONFIRM. -/
def Dev.inflight (d : Dev) : Nat :=
  d.cmd.await.length + (d.cmd.imm.filter (fun i => i.wait && i.cmd.isSome)).length
/-- CMD.STAT.INFLIGHT. -/
def Dev.inflightStat (d : Dev) : Dev := d.setFld R.cmdStat 1 5 (min 16 d.inflight)

/-- A command is resolved against the holder: its entry removed, CANCEL sent, PEER answered (cause 1 refused, 2 timeout). -/
def Sys.peerRefuse (s : Sys) (slot ctr cause : Nat) (c : CmdIn) : Sys :=
  let d1 := (s.dev.unplace slot ctr).mirSend (.cancel slot ctr)
  let d2 := d1.raise Blk.pair Src.pairCmdPeer slot (ctr % 2 ^ 32) cause
  let d3 := (d2.onCmd (fun x => { x with
    await := x.await.filter (fun a => !(a.slot == slot && a.ctr == ctr))
    imm := x.imm.filter (fun i => !(i.slot == slot && i.ctr == ctr)) })).inflightStat
  ({ s with dev := d3 } : Sys).cmdRefuse c (rsPeer, 0) (some c.key)

/-- A command of class DATA that has passed step 8: checked, placed, and mirrored (R307, R337); one for the next tick taken from cycle 9,856 on
can no longer be resolved, and is cancelled. -/
def Sys.cmdData (s : Sys) (c : CmdIn) : Sys :=
  let bs := c.bytes
  let d := s.dev
  let slot := cmdSlot bs
  let ctr := cmdCtr bs
  let a := actOf (cmdOp bs) (cmdPay bs)
  let imm := cmdTgt bs == 0
  let t := if imm || cmdTgt bs == asap then d.openTick a else cmdTgt bs
  match d.dataCheck a imm t (d.lastTarget slot) with
  | (d1, some q) => ({ s with dev := d1 } : Sys).cmdRefuse c q (some c.key)
  | (d1, none) =>
    let shadow := d1.hasShadow
    let d2 := if d1.mirrors then d1.mirSend (.command { slot := slot, ctr := ctr, tgt := t, imm := imm, act := a }) else d1
    if imm then
      let i : ImmCmd := { tgt := t, slot := slot, ctr := ctr, writes := entriesOf ((cmdPay bs).length / 12) (cmdPay bs), cmd := some c, wait := shadow }
      { s with dev := (d2.onCmd (fun x => { x with imm := x.imm ++ [i] })).inflightStat }
    else
      let d3 := d2.place { tgt := t, slot := slot, ctr := ctr, act := a }
      if shadow then
        let w : Await := { slot := slot, ctr := ctr, tgt := t, at_ := d3.instant, cmd := c, asap := cmdTgt bs == asap }
        let s1 : Sys := { s with dev := (d3.onCmd (fun x => { x with await := x.await ++ [w] })).inflightStat }
        if t = d.tick + 1 ∧ 9856 ≤ d.cycle then s1.peerRefuse slot ctr 2 c else s1
      else ({ s with dev := d3.slotRecord slot ctr t } : Sys).cmdAck c t [] (some c.key)

/-! ## Acceptance (R333) -/

/-- A command is taken and checked, step by step. -/
def Sys.cmdTake (s0 : Sys) (c0 : CmdIn) : Sys :=
  let num := s0.dev.cmd.taken
  let own : Answer := { num := num, src := c0.src, from_ := c0.from_, reply := none }
  let s := s0.onDev (fun d => d.onCmd (fun x => { x with taken := num + 1, owed := x.owed ++ [own] }))
  let c1 : CmdIn := { c0 with num := num }
  let bs := c0.bytes
  let slot := cmdSlot bs
  if !frameOk bs then s.cmdRefuse c1 (rsBadframe, 0) none
  else if cmdOp bs = 1 then s.cmdHello c1
  else if !s.dev.nonceOk then s.cmdRefuse c1 (rsEntropy, 0) none
  else match s.cmdKey bs with
    | .error q =>
      let s1 := if q.1 = rsKey then s.onDev (fun d => d.raise Blk.key Src.keyKeyRefused slot q.2 0) else s
      s1.cmdRefuse c1 q none
    | .ok key =>
      let c : CmdIn := { c1 with key := key }
      let cls := opClass (cmdOp bs)
      let ctr := cmdCtr bs
      if ctr ≤ s.dev.w64 (R.cmdSeen slot) ∨ ((cls.isNone ∨ cls = some 1) ∧ ctr ≤ s.dev.w64 (R.tickSlotcnt slot)) then
        s.cmdRefuse c (rsCounter, 0) (some key)
      else
        let s1 := s.onDev (fun d => d.setW (R.cmdSeen slot) ctr)
        match s1.dev.cmdForm bs with
        | .error q => s1.cmdRefuse c q (some key)
        | .ok _ =>
          if (cls = some 1 ∨ cls = some 2) ∧ s1.dev.role ≠ .active then s1.cmdRefuse c (rsNotHolder, 0) (some key)
          else if cls = some 1 then s1.cmdData c
          else s1.cmdNow c

/-! ## The rotation (R327, R328) -/

/-- The boot has ended, with success or without (R425). -/
def Dev.bootOver (d : Dev) : Bool := d.rf R.sysBootstat 0 4 == 8 || d.rf R.sysBootstat 0 4 == 15

/-- CMD takes no command: during a fuse operation, a reset of the control plane, before the boot has ended, with 16 mirrored commands
awaiting CONFIRM (R28, R337, R346, R425). -/
def Dev.cmdBlocked (d : Dev) : Bool :=
  d.cmd.fuse || d.ctrlRst.isSome || !d.bootOver || !d.blockOn Blk.cmd || decide (16 ≤ d.inflight)

/-- The next command of a source. -/
def Sys.srcPeek (s : Sys) (k : Nat) : Option (List Byte) :=
  match s.dev.cmd.wait.find? (fun c => c.src == k) with
  | some c => some c.bytes
  | none => if k < 2 then (s.ringPeek k).map (fun x => x.2) else none

/-- The next command of a source, taken from it. -/
def Sys.srcFetch (s : Sys) (k : Nat) : Sys × Option CmdIn :=
  match s.dev.cmd.wait.find? (fun c => c.src == k) with
  | some c => (s.onDev (fun d => d.onCmd (fun x => { x with wait := x.wait.erase c })), some c)
  | none => if k < 2 then s.ringFetch k else (s, none)

/-- A slot on which an immediate command awaits its boundary (R327). -/
def Dev.slotHeld (d : Dev) (slot : Nat) : Bool := d.cmd.imm.any (fun i => i.cmd.isSome && i.slot == slot)

/-- The reply ring of ring `k` has no descriptor for one more answer: RING_FULL once (R328). -/
def Dev.ringFull (d : Dev) (k : Nat) : Dev :=
  if d.cmd.full.contains k then d
  else (d.onCmd (fun x => { x with full := k :: x.full })).raise Blk.cmd Src.cmdRingFull k (d.rf (R.cmdRhead k) 0 12) (d.rf (R.cmdRtail k) 0 12)

/-- A command of source `k` is taken, if it has one that may be taken now. -/
def Sys.takeFrom (s : Sys) (k : Nat) : Sys × Bool :=
  match s.srcPeek k with
  | none => (s, false)
  | some bs =>
    let owes := (s.dev.cmd.owed.filter (fun a => a.src == k)).length
    if s.dev.slotHeld (cmdSlot bs) then (s, false)
    else if k < 2 ∧ (s.replyDesc k owes).isNone then (s.onDev (fun d => d.ringFull k), false)
    else match s.srcFetch k with
      | (s1, none) => (s1, false)
      | (s1, some c) =>
        ((s1.onDev (fun d => d.onCmd (fun x => { x with turn := (k + 1) % 3, full := x.full.filter (fun j => j != k) }))).cmdTake c, true)

/-- One command is taken, the sources in turn. -/
def Sys.takeOne (s : Sys) : Sys × Bool :=
  let t := s.dev.cmd.turn
  let a := s.takeFrom (t % 3)
  if a.2 then a
  else
    let b := a.1.takeFrom ((t + 1) % 3)
    if b.2 then b else b.1.takeFrom ((t + 2) % 3)

/-- Commands are taken until none can be, at most `n`. -/
def Sys.cmdRunN : Nat → Sys → Sys
  | 0, s => s
  | n + 1, s =>
    if s.dev.cmdBlocked then s
    else
      let r := s.takeOne
      if r.2 then Sys.cmdRunN n r.1 else r.1

/-- Commands that wait, in the queues and on the rings. -/
def Dev.cmdQueued (d : Dev) : Nat :=
  let ring := fun (r : Nat) => ringHeld (d.rf (R.cmdChead r) 0 12) (d.rf (R.cmdCtail r) 0 12) (d.rf (R.cmdCsize r) 0 13)
  d.cmd.wait.length + ring 0 + ring 1

/-- CMD takes what it can; replies held back by a full ring leave first. -/
def Sys.cmdRun (s : Sys) : Sys := s.flush.cmdRunN s.dev.cmdQueued

/-- A command arrives whole on a source at cycle `c`: 0 and 1 the rings, 2 UDP (R327, R347). -/
def Sys.cmdArrive (src : Nat) (bytes : List Byte) (from_ : Option UdpFrom) (c : Nat) (s0 : Sys) : Sys :=
  if 2 < src ∨ !s0.dev.blockOn Blk.cmd then s0
  else
    let s := s0.onDev (fun d => d.atC c)
    let d := s.dev
    if d.ctrlRst.isSome then s
    else if src = 2 ∧ (d.rf R.cmdPolicy 0 1 = 0 ∨ !d.bootOver) then s.onDev (fun d => d.bump (R.cmdCnt 5) 1)
    else (s.onDev (fun d => d.onCmd (fun x => { x with wait := x.wait ++ [{ src := src, bytes := bytes, from_ := from_ }] }))).cmdRun

/-! ## Immediate commands at their boundary (R23, R38, R41, R330) -/

/-- The first entry that names a STOP-class field of a running block, or that meets a pending commit group: its refusal, the reason and the
entry's index (R38, R41). -/
def Dev.immRefusal (d : Dev) (ws : List RegWr) : Dev × Option Refused :=
  let idx := (List.range ws.length).zip ws
  let stopped := fun (x : Nat × RegWr) => match rowAt x.2.off with
    | some r => (r.stop &&& x.2.mask &&& d.stopBlocked x.2.off) != 0
    | none => false
  let busy := fun (x : Nat × RegWr) => match rowAt x.2.off with
    | some r =>
      let b := x.2.off / 0x10000
      if hasCommon b ∧ x.2.off = R.commit b then (strobes b (x.2.data &&& x.2.mask)).any (fun g => d.grpPend b g)
      else (r.commit &&& x.2.mask) != 0 && d.grpPend b (commitGrp x.2.off)
    | none => false
  match idx.find? stopped with
  | some x => (d.stopRefuse x.2.off, some (rsStop, x.1))
  | none => match idx.find? busy with
    | some x => ((if x.2.off = R.commit (x.2.off / 0x10000) then d.strobeRefuse x.2.off else d.busyRefuse x.2.off), some (rsBusy, x.1))
    | none => (d, none)

/-- An immediate command executes for the boundary into its tick, or is refused whole. -/
def Sys.immOne (s : Sys) (i : ImmCmd) : Sys :=
  if i.wait then
    match i.cmd with
    | some c => (s.onDev (fun d => d.mirSend (.cancel i.slot i.ctr))).cmdRefuse c (rsPeer, 0) (some c.key)
    | none => s
  else
    let r := s.dev.immRefusal i.writes
    match r.2 with
    | some q => match i.cmd with
      | some c => ({ s with dev := r.1 } : Sys).cmdRefuse c q (some c.key)
      | none => { s with dev := r.1 }
    | none =>
      let s1 : Sys := { s with dev := (r.1.cmdWrites (.immediate i.tgt) i.tgt i.writes).slotRecord i.slot i.ctr i.tgt }
      match i.cmd with
      | some c => s1.cmdAck c i.tgt [] (some c.key)
      | none => s1

/-- The immediate commands for the boundary into the next tick execute in the order of their acceptance (R23, R330). -/
def Sys.immExecute (s0 : Sys) : Sys :=
  let s := s0.onDev (fun d => d.atC 10048)
  let t := s.dev.tick + 1
  let due := s.dev.cmd.imm.filter (fun i => decide (i.tgt ≤ t))
  if due.isEmpty then s
  else
    let s1 := s.onDev (fun d => (d.onCmd (fun x => { x with imm := x.imm.filter (fun i => !decide (i.tgt ≤ t)) })).inflightStat)
    (each due (fun i s => s.immOne i) s1).cmdRun

/-! ## The partner's answer (R307, R337) -/

/-- A command that the SHADOW found too late for the tick assigned to it is assigned anew, checked again and mirrored again: its acceptance has
not completed (R21, R330). -/
def Sys.reassign (s : Sys) (slot ctr : Nat) (c : CmdIn) : Sys :=
  let imm := cmdTgt c.bytes == 0
  let a := actOf (cmdOp c.bytes) (cmdPay c.bytes)
  let d := s.dev.unplace slot ctr
  let t := d.openTick a
  match d.dataCheck a imm t (d.w64 (R.tickSlottgt slot)) with
  | (d1, some q) =>
    let d2 := (d1.onCmd (fun x => { x with
      await := x.await.filter (fun w => !(w.slot == slot && w.ctr == ctr))
      imm := x.imm.filter (fun i => !(i.slot == slot && i.ctr == ctr)) })).inflightStat
    ({ s with dev := d2 } : Sys).cmdRefuse c q (some c.key)
  | (d1, none) =>
    let d2 := if imm then d1 else d1.place { tgt := t, slot := slot, ctr := ctr, act := a }
    let d3 := d2.mirSend (.command { slot := slot, ctr := ctr, tgt := t, imm := imm, act := a })
    { s with dev := d3.onCmd (fun x => { x with
        await := x.await.map (fun w => if w.slot == slot && w.ctr == ctr then { w with tgt := t, at_ := d.instant } else w)
        imm := x.imm.map (fun i => if i.slot == slot && i.ctr == ctr then { i with tgt := t } else i) }) }

/-- CONFIRM, or the partner's refusal with a reason, arrives. -/
def Sys.confirmReceive (slot ctr reason c : Nat) (s0 : Sys) : Sys :=
  if !s0.dev.mirLive then s0
  else
    let s := s0.onDev (fun d => d.atC c)
    match s.dev.cmd.await.find? (fun a => a.slot == slot && a.ctr == ctr) with
    | some a =>
      if reason = rsLate ∧ a.asap then (s.reassign slot ctr a.cmd).cmdRun
      else if reason ≠ 0 then (s.peerRefuse slot ctr 1 a.cmd).cmdRun
      else
        let s1 := s.onDev (fun d => ((d.onCmd (fun x => { x with await := x.await.erase a })).inflightStat).slotRecord slot ctr a.tgt)
        (s1.cmdAck a.cmd a.tgt [] (some a.cmd.key)).cmdRun
    | none => match s.dev.cmd.imm.find? (fun i => i.slot == slot && i.ctr == ctr && i.wait) with
      | some i => match i.cmd with
        | some q =>
          if reason = rsLate then (s.reassign slot ctr q).cmdRun
          else if reason ≠ 0 then (s.peerRefuse slot ctr 1 q).cmdRun
          else s.onDev (fun d => (d.onCmd (fun x => { x with
            imm := x.imm.map (fun j => if j == i then { j with wait := false } else j) })).inflightStat)
        | none => s
      | none => s

/-- Two ticks without CONFIRM. -/
def Sys.confirmTimeout (slot ctr c : Nat) (s0 : Sys) : Sys :=
  let s := s0.onDev (fun d => d.atC c)
  match s.dev.cmd.await.find? (fun a => a.slot == slot && a.ctr == ctr) with
  | some a => if a.at_ + 20480 ≤ s.dev.instant then (s.peerRefuse slot ctr 2 a.cmd).cmdRun else s
  | none => s

/-- At cycle 9,856 what is still unresolved for the next tick is cancelled. -/
def Sys.resolveDeadline (s0 : Sys) : Sys :=
  let s := s0.onDev (fun d => d.atC 9856)
  let t := s.dev.tick + 1
  let s1 := each (s.dev.cmd.await.filter (fun a => a.tgt == t)) (fun a s => s.peerRefuse a.slot a.ctr 2 a.cmd) s
  let s2 := each (s1.dev.cmd.imm.filter (fun i => i.tgt == t && i.wait)) (fun i s => match i.cmd with
    | some q => s.peerRefuse i.slot i.ctr 2 q
    | none => s) s1
  s2.cmdRun

/-! ## The partner's side (R307, R318, R337) -/

/-- A SHADOW checks a mirrored command against its own agenda and record, and places it. -/
def Dev.mirPlace (d : Dev) (m : MirCmd) : Dev :=
  let say := fun (d : Dev) (reason : Nat) => d.mirSend (.confirm m.slot m.ctr reason d.role.code)
  let cnt := d.w64 (R.tickSlotcnt m.slot)
  let tgt := d.w64 (R.tickSlottgt m.slot)
  if m.ctr ≤ cnt then say d rsCounter
  else match d.dataCheck m.act m.imm m.tgt tgt with
    | (d1, some q) => say d1 q.1
    | (d1, none) =>
      if m.imm then
        let ws := match m.act with
          | .writes ws => ws
          | _ => []
        let i : ImmCmd := { tgt := m.tgt, slot := m.slot, ctr := m.ctr, writes := ws, cmd := none, wait := false }
        say (d1.onCmd (fun x => { x with imm := x.imm ++ [i] })) 0
      else
        let d2 := d1.onCmd (fun x => { x with prev := x.prev ++ [(m.slot, m.ctr, cnt, tgt)] })
        say ((d2.place { tgt := m.tgt, slot := m.slot, ctr := m.ctr, act := m.act }).slotRecord m.slot m.ctr m.tgt) 0

/-- A mirrored command arrives: confirmed by a SHADOW, recorded by a CATCHUP unit, refused in any other role. The size of its record is not
given: a free value. -/
def Dev.mirroredReceive (m : MirCmd) (c : Nat) (d0 : Dev) : Dev :=
  if !d0.mirLive then d0
  else
    let d := d0.atC c
    if d.role == .shadow || (d.role == .catchup && d.phase == 5) then d.mirPlace m
    else if d.recording then
      let r := d.draw
      let n := r.2.toNat % 8192
      (r.1.onPair (fun p => { p with rs := { p.rs with ring := p.rs.ring ++ [.cmd m n] } })).ringGrow n
    else d.mirSend (.confirm m.slot m.ctr rsNotHolder d.role.code)

/-- CANCEL removes an entry that the holder has not acknowledged, and the record returns with it: to what it was before the entry, or, where a
later entry of the slot stands on it, that one's record before it does (R24). -/
def Dev.cancelReceive (slot ctr c : Nat) (d0 : Dev) : Dev :=
  if !d0.mirLive then d0
  else
    let d := d0.atC c
    let d1 := ((d.unplace slot ctr).onCmd (fun x => { x with imm := x.imm.filter (fun i => !(i.slot == slot && i.ctr == ctr && i.cmd.isNone)) })).onPair
      (fun p => { p with rs := { p.rs with ring := p.rs.ring.filter (fun r => match r with
        | .cmd m _ => !(m.slot == slot && m.ctr == ctr)
        | .tick _ => true) } })
    match d.cmd.prev.find? (fun q => q.1 == slot && q.2.1 == ctr) with
    | none => d1
    | some q =>
      let d2 := d1.onCmd (fun x => { x with prev := (x.prev.erase q).map (fun r =>
        if r.1 == slot && r.2.2.1 == ctr then (slot, r.2.1, q.2.2.1, q.2.2.2) else r) })
      if d2.w64 (R.tickSlotcnt slot) = ctr then (d2.setW (R.tickSlotcnt slot) q.2.2.1).setW (R.tickSlottgt slot) q.2.2.2 else d2

/-! ## A reset of the control plane, as CMD sees it (R28, R332, R334, R337) -/

/-- The registers of a block at their reset values, but for those that `keep` keeps. -/
def Dev.blockRegsReset (d : Dev) (b : Nat) (keep : Nat → Bool) : Dev :=
  let stay := fun (off : Nat) => off / 0x10000 != b || keep off
  let d1 : Dev := { d with
    regs := d.regs.filter (fun r => stay r.1)
    live := d.live.filter (fun r => stay r.1)
    wide := d.wide.filter (fun r => stay r.1)
    latch := d.latch.filter (fun r => stay r.1)
    pendTick := d.pendTick.filter (fun p => stay p.off)
    held := d.held.filter (fun h => h.blk != b || keep (R.commit b)) }
  if keep (R.fltstat b) then d1 else d1.onFlt b (fun _ => {})

/-- CANCEL goes to the partner for every command that was mirrored to it and is not acknowledged (R337). -/
def Dev.cancelUnresolved (d : Dev) : Dev :=
  let d1 := each d.cmd.await (fun a d => (d.unplace a.slot a.ctr).mirSend (.cancel a.slot a.ctr)) d
  each (d.cmd.imm.filter (fun i => i.cmd.isSome && d.mirrors)) (fun i d => d.mirSend (.cancel i.slot i.ctr)) d1

/-- Commands not acknowledged are discarded with their entries, replies not written are lost, CMD's registers reset but for SEEN and LOCKNC, and a
new nonce is due. -/
def Dev.cmdReset (d : Dev) : Dev :=
  let n := d.cmd.wait.length + d.cmd.await.length + (d.cmd.imm.filter (fun i => i.cmd.isSome)).length
  let k := d.cmd.await.length + (d.cmd.imm.filter (fun i => i.cmd.isSome)).length
  let d2 := d.cancelUnresolved
  let lock := bit (d.reg R.cmdPolicy) 1
  let d3 := d2.blockRegsReset Blk.cmd (fun off => decide (R.cmdSeen 0 ≤ off) && decide (off < R.cmdSeen 8))
  let d4 := if lock then d3.setReg R.cmdPolicy 3 else d3
  let d5 := d4.onCmd (fun x => {
    slots := x.slots
    taken := x.taken
    prev := x.prev
    draw := x.draw
    fails := x.fails
    fuse := x.fuse
    hello := x.hello
    imm := x.imm.filter (fun i => i.cmd.isNone) })
  let d6 := (d5.setFld R.keyTrngstat 1 2 0).nonceDue 2
  if n = 0 then d6 else d6.raise Blk.cmd Src.cmdUnackDiscard n k 0

end Sys2Proof.Machine
end

