-- ==== Sys2Proof/Machine/Power.lean ====
section
/-!
DEFINITION. Power domains and sleep (R414 to R416), the thermal shutdown (R430), the loss of the clock (R164), the resets of R418 to R421
with the plane resets of R28 and R29, and the boot sequence (R423 to R429).
-/
namespace Sys2Proof.Machine

/-! ## Domains (R414, R415) -/

/-- The blocks of a domain. -/
def blocksOf (k : Nat) : List Nat := (List.range 31).filter (fun b => blockDomain b == k)

/-- The domains that may be switched while the device runs. -/
def switchable : List Nat := [3, 4, 5, 7, 9, 10]

/-- The condition of R414 on which a domain may be switched off. -/
def Dev.domMay (d : Dev) (k : Nat) : Bool :=
  if k = 3 ∨ k = 4 ∨ k = 5 then !bit (d.lf R.engCtrl 0 3) (k - 3)
  else if k = 7 then
    !d.macEn 0 && !d.macEn 1 && !(List.range 512).any (fun e => bit (d.lv (R.strmFctl e)) 31) &&
      !(List.range 256).any (fun c => d.rxEn c || d.txEn c)
  else if k = 9 then
    !(List.range 8).any (fun p => d.lf (R.tdmCtrl p) 31 1 == 1) && !(List.range 4).any (fun c => d.lf (R.pdmClkcfg c) 31 1 == 1) &&
      !(List.range 32).any (fun c => d.decEn c)
  else if k = 10 then !(List.range 6).any (fun g => (d.modG g).run_) && d.lf R.snsClkcfg 0 1 == 0
  else false

/-- A domain's registers and state at their reset values: a switched-off domain retains nothing. -/
def Dev.domFresh (d : Dev) (k : Nat) : Dev :=
  let d1 := each (blocksOf k) (fun b d => d.blockRegsReset b (fun _ => false)) d
  if k = 7 then { (d1.onMac 0 (fun _ => {})).onMac 1 (fun _ => {}) with strm := {} }
  else if k = 9 then
    { d1 with
      tdm := List.replicate 8 {}
      dec := List.replicate 32 {}
      pdmOn := 0
      clipM := 0
      begun := d1.begun &&& 0x10000FFF
      mclk := [none, none]
      frameWr := [] }
  else if k = 10 then
    { d1 with
      mod := { shut := d1.mod.shut }
      sns := List.replicate 6 {}
      begun := d1.begun &&& 0x0FFFFF00
      snsOn := false }
  else d1

/-- Memory without the addresses from `a` on, `n` of them. -/
def Memory.drop (m : Memory) (a n : Nat) : Memory := m.filter (fun c => !(decide (a ≤ c.1 ∧ c.1 < a + n)))

/-- Memory without the lane memories of a cluster that is switched off. -/
def Memory.dropCluster (m : Memory) (k : Nat) : Memory :=
  if 3 ≤ k ∧ k ≤ 5 then
    let n := 16 * (k - 3)
    ((m.drop (coefBase n) (16 * 0x20000)).drop (stateBase n) (16 * 0x10000)).drop (instrBase n 0) (16 * 0x40000)
  else m

/-- Nor do the errors in those words remain. -/
def Dev.dropEcc (d : Dev) (k : Nat) : Dev :=
  if 3 ≤ k ∧ k ≤ 5 then
    let n := 16 * (k - 3)
    ((d.eccClean (coefBase n) (16 * 0x20000)).eccClean (stateBase n) (16 * 0x10000)).eccClean (instrBase n 0) (16 * 0x40000)
  else d

/-- DOMCTL.ON takes effect at a boundary: each change is made, or a switch-off is refused where its condition does not hold (R415). -/
def Sys.domSwitch (s : Sys) (want : Nat) : Sys :=
  let r := each switchable (fun k (acc : Sys × Nat) =>
    let s := acc.1
    let on := d_on s.dev k
    let to_ := bit want k
    if on == to_ then acc
    else if to_ then
      (s.onDev (fun d => setOn (d.bump (R.pwrCnt 1) 1) k true), acc.2)
    else if s.dev.domMay k then
      ((s.onDev (fun d => (((setOn (d.bump (R.pwrCnt 1) 1) k false).setFld R.pwrDomstat k 1 0).domFresh k).dropEcc k)).onMem (fun m => m.dropCluster k), acc.2)
    else (s.onDev (fun d => d.setFld R.pwrDomstat (16 + k) 1 1), bitSet acc.2 k true)) (s, 0)
  if r.2 = 0 then r.1 else r.1.onDev (fun d => d.raise Blk.pwr Src.pwrDomRefused r.2 d.tickLo 0)
where
  /-- The domain is switched on. -/
  d_on (d : Dev) (k : Nat) : Bool := bit (d.lv R.pwrDomctl) k
  /-- Its switch, the value last written being kept. -/
  setOn (d : Dev) (k : Nat) (b : Bool) : Dev := d.setBoth R.pwrDomctl (d.reg R.pwrDomctl) (bitSet (d.lv R.pwrDomctl) k b)

/-- A domain that has been switched on becomes usable (R415). -/
def Dev.domReady (k c : Nat) (d0 : Dev) : Dev :=
  if switchable.contains k && bit (d0.lv R.pwrDomctl) k && !d0.domOn k then (d0.atC c).setFld R.pwrDomstat k 1 1 else d0

/-! ## What the always-on domain keeps (R28, R414, R421) -/

/-- The blocks of AO. -/
def aoBlock (b : Nat) : Bool := b == 0 || b == 1 || b == 23 || b == 30

/-- A register of AO, or one of the values that AO keeps for another block: the event sequence counter, PAIREN, the epoch. -/
def aoReg (off : Nat) : Bool :=
  aoBlock (off / 0x10000) || off == R.evtSeq || off == R.pairEpoch

/-- GPIO.DIR, OUT and ODEN. -/
def gpioDrive (off : Nat) : Bool := off == R.gpioDir || off == R.gpioOut || off == R.gpioOden

/-- The device with nothing but the state of AO, every other domain at its reset values: the clock and the tick stopped at 0. -/
def Dev.aoKept (d : Dev) : Dev :=
  let shut := d.rf R.pwrTherm 0 1 == 1
  let n : Dev := {
    regs := d.regs.filter (fun r => aoReg r.1)
    wide := d.wide.filter (fun r => aoReg r.1)
    latch := d.latch.filter (fun r => aoReg r.1)
    flt := (List.range 31).map (fun b => if aoBlock b then { d.fltOf b with react := none, yieldL := false, hot := 0 } else {})
    -- a SESSION record without a number keeps its place as the first of its session (R46)
    evt := { made := d.evt.made.filter EvRec.session }
    bbx := { d.bbx with clkCond := false, clrReq := false }
    pcie := { sent := d.pcie.sent, pmeMsgs := d.pcie.pmeMsgs, clkreq := d.pcie.clkreq }
    testMode := d.testMode
    mod := { shut := shut }
    free := d.free
    cmd := { fuse := d.cmd.fuse, draw := d.cmd.draw, fails := d.cmd.fails }
    rdata := d.rdata
    out := d.out }
  let n1 := n.setReg R.pwrDomctl (d.lv R.pwrDomctl)
  let n2 := if d.paired then n1.setFld R.pairCtrl 31 1 1 else n1
  let n3 := (n2.setReg R.synStat (d.rf R.synStat 0 1)).setFld R.pairStat 5 1 (d.rf R.pairStat 5 1)
  let n4 := if shut then forN 4 (fun k d => d.setFld (R.synOutstat k) 1 1 1) (n3.setFld R.thmStat 31 1 1) else n3
  n4.setFld R.keyTrngstat 0 1 0

/-- Memory that keeps its contents while every domain but AO is reset or off: DRAM in self-refresh and the retained SRAM. -/
def Memory.aoKept (m : Memory) : Memory :=
  m.filter (fun c => decide (c.1 < 0x200000000) || (decide (retainedBase ≤ c.1) && decide (c.1 < retainedBase + 0x40000)))

/-! ## Sleep (R416) -/

/-- The device goes to sleep at the present boundary, unless pair mode is enabled. -/
def Sys.sleep (s : Sys) : Sys :=
  if s.dev.paired then s
  else { s with dev := s.dev.aoKept.setFld R.pwrDomstat 0 12 1, mem := s.mem.aoKept }

/-- The device is asleep: every domain but AO is off. -/
def Dev.asleep (d : Dev) : Bool := d.rf R.pwrDomstat 0 12 == 1

/-! ## Thermal shutdown (R165, R285, R382, R430) -/

/-- The 160 °C comparator shuts MOD and CLKOUT down, and latches. -/
def Dev.thermShut (c : Nat) (d0 : Dev) : Dev :=
  let d := d0.atC c
  if d.rf R.pwrTherm 0 1 = 1 then d0
  else
    let d1 := (d.setFld R.pwrTherm 0 1 1).setFld R.thmStat 31 1 1
    ((d1.modShut).clkoutShut).raise Blk.thm Src.thmThermShut d.tickLo d.tickHi 0

/-- A clear takes effect at the present boundary, or is ignored at 150 °C or above (R430). -/
def Dev.thermClear (d : Dev) : Dev :=
  let tj := d.reg R.thmTj
  if sgn 16 tj < 600 then
    let d1 := (d.setFld R.pwrTherm 0 1 0).setFld R.thmStat 31 1 0
    let d2 : Dev := { d1 with mod := { d1.mod with shut := false } }
    let d3 := forN 4 (fun k d => d.setFld (R.synOutstat k) 1 1 0) d2
    d3.raise Blk.pwr Src.pwrThermClr tj 1 d3.tickLo
  else d.raise Blk.pwr Src.pwrThermClr tj 0 d.tickLo

/-! ## Loss of the clock (R164, R173) -/

/-- The record that R164 makes is numbered at once, after the SESSION record where that still waits: EVT's tick has stopped.  Before the
session has its nonce it waits (R46). -/
def Sys.numberNow (s : Sys) : Sys :=
  match s.dev.evt.path.getLast? with
  | none => s
  | some p =>
    if s.dev.cmd.draw.contains 0 then s
    else ((s.onDev (fun d => { d with evt := { d.evt with path := d.evt.path.dropLast } })).numberSession).numberPosting p

/-- The forced reaction: PWM_OUT, AMP_EN and CLKOUT to high impedance, both lease pins low, FAULT_N, the S4 record; the tick stands still until a
warm reset. -/
def Sys.clockLost (src : Nat) (s : Sys) : Sys :=
  (s.onDev (fun d =>
    let d1 := ((d.setFld R.synStat 1 1 0).setPins false false).faultAssert Blk.syn
    let d2 : Dev := { d1 with outsZ := true, bbx := { d1.bbx with clkCond := true } }
    d2.raise Blk.syn src d2.tickLo d2.tickHi 0)).numberNow

/-- No XO edge for 200 ns. -/
def Sys.xoLoss (c : Nat) (s : Sys) : Sys :=
  if s.dev.rf R.synStat 0 1 = 0 then s
  else (s.onDev (fun d => ((d.atC c).tpllUnlock c).setFld R.synStat 0 1 0)).clockLost Src.synXoLoss

/-- The MDLL loses lock. -/
def Sys.mdllUnlock (c : Nat) (s : Sys) : Sys :=
  if s.dev.rf R.synStat 1 1 = 0 then s else (s.onDev (fun d => d.atC c)).clockLost Src.synMdllUnlock

/-- XO edges return; a device that the missing XO held in reset leaves it, and boots (R420). -/
def Dev.xoReturn (d0 : Dev) : Dev :=
  let d := d0.setFld R.synStat 0 1 1
  if d.inReset then ({ d with inReset := false } : Dev).setFld R.sysBootstat 0 4 1 else d

/-- The MDLL first locks after a reset: tick 0 begins (R425 step 1). -/
def Dev.mdllLock (d : Dev) : Dev :=
  if d.inReset || d.bbx.clkCond || d.rf R.synStat 1 1 == 1 || decide (1 < d.rf R.sysBootstat 0 4) || d.asleep then d
  else ({ (((d.setFld R.synStat 0 2 3).setFld R.sysBootstat 0 4 1)) with tick := 0, cycle := 0 })

/-! ## Cold and warm resets (R418, R420, R421, R423) -/

/-- The straps at the release of a reset. -/
def Dev.straps (d : Dev) (bootsel : Nat) (pairId testmode : Bool) : Dev :=
  ((d.setReg R.sysBootcfg (bootsel % 4 + 4 * b2n pairId + 8 * b2n testmode)).setFld R.pairStat 5 1 (b2n pairId)).setReg R.sysBootstat 1

/-- POR_N: everything is reset, AO included; DRAM's contents are undefined, and read as memory that nothing has written (log entry 2). -/
def Sys.powerOnReset (bootsel : Nat) (pairId testmode : Bool) (s : Sys) : Sys :=
  let o := s.dev
  let d : Dev := {
    testMode := o.testMode && testmode
    free := o.free
    cmd := { draw := [0], fails := o.cmd.fails }
    out := o.out }
  let d1 := d.straps bootsel pairId testmode
  { dev := if d1.testMode then d1.faultAssert (o.rf R.bbxFault 0 5) else d1, mem := [], otp := s.otp }

/-- RESET_N: every domain but AO is reset, with the DRAM in self-refresh; a holder first cancels the commands it has mirrored and not
completed (R337).  Without XO edges the device stays in reset (R420). -/
def Sys.warmReset (bootsel : Nat) (pairId testmode : Bool) (s : Sys) : Sys :=
  let k := s.dev.cancelUnresolved.aoKept
  let k1 : Dev := { k with
    regs := k.regs.filter (fun r => !gpioDrive r.1)
    inReset := k.rf R.synStat 0 1 == 0
    cmd := { k.cmd with draw := if k.cmd.draw.contains 0 then k.cmd.draw else k.cmd.draw ++ [1] } }
  let k2 := ((k1.straps bootsel pairId testmode).setFld R.sysRstcause 1 1 1).setFld R.pwrDomstat 0 12 (k1.lv R.pwrDomctl)
  let k3 := k2.setFld R.ddrStat 0 2 2
  { s with dev := if k3.paired then k3.setFld R.pairStat 0 3 3 else k3, mem := s.mem.aoKept }

/-! ## Plane resets (R28, R29) -/

/-- A reset of the control plane begins: a load in progress is discarded, commands not acknowledged are discarded, KEY's fault registers, the
PCIe link and the ring registers are reset. -/
def Dev.ctrlReset (d : Dev) : Dev :=
  let d1 : Dev := { d.setFld R.sysRstcause 2 1 1 with ctrlRst := some (d.tick + 8) }
  let d2 := if d1.loadState = 1 then d1.loadRefuse { reason := 0x12, i0 := 2 } else d1
  let d3 := d2.cmdReset
  let d4 := (d3.blockRegsReset Blk.key (fun off => decide (off < R.keyTrngstat + 4)))
  ((d4.pcieLinkLost).pcieConfigReset).ringRegsReset

/-- The host-ring registers of an audio port. -/
def hostRingReg (off : Nat) : Bool :=
  let b := off / 0x10000
  let x := off % 0x10000
  (b == 10 || b == 11) && decide (0x200 ≤ x) && decide (x < 0x300)

/-- The transmit time-stamp queues and the compare units. -/
def tsqCmpReg (off : Nat) : Bool :=
  off == R.timeTsqstat 0 || off == R.timeTsqstat 1 || off == R.timeTsqstat 2 ||
    (decide (R.timeTsq 0 0 ≤ off) && decide (off < R.timeCmptgt 0 + 64))

/-- Registers that satisfy `p` at their reset values. -/
def Dev.regsReset (d : Dev) (p : Nat → Bool) : Dev :=
  { d with
    regs := d.regs.filter (fun r => !p r.1)
    live := d.live.filter (fun r => !p r.1)
    latch := d.latch.filter (fun r => !p r.1) }

/-- PAIR's state after a reset of the management plane: the lease keeper's, in AO, is kept, and what the link, which stays up, has brought of the
partner's identity and of SEQ. -/
def Pair.mgmtReset (p : Pair) : Pair := { renew := p.renew, pinsUntil := p.pinsUntil, ident := p.ident, seq := p.seq }

/-- A reset of the management plane begins: the unit's heartbeat and mirror traffic stop, the lease and its pins stay in AO. -/
def Dev.mgmtReset (d : Dev) : Dev :=
  let d1 : Dev := { d.setFld R.sysRstcause 3 1 1 with mgmtRst := some (d.tick + 8) }
  let d2 := d1.resetRec 3
  let d3 := ((d2.blockRegsReset Blk.macm (fun _ => false)).blockRegsReset Blk.mact (fun _ => false)).regsReset
    (fun off => hostRingReg off || tsqCmpReg off)
  let d4 : Dev := { d3 with
    mac := (List.range 4).map (fun p => if 2 ≤ p then { line := (d3.macP p).line } else { d3.macP p with stops := [] })
    bus := {}
    mdioRd := false
    time := { d3.time with tsq := [[], [], []], late := 0 }
    evt := { d3.evt with gapMgmt := d3.evt.gapMgmt || d3.evt.gapN != 0 } }
  let stat := d4.reg R.pairStat
  let d5 := ((d4.blockRegsReset Blk.mir (fun off => off == R.mirStat)).blockRegsReset Blk.pair (fun off => off == R.pairEpoch)).onPair
    Pair.mgmtReset
  let d6 := (if d.paired then d5.setFld R.pairCtrl 31 1 1 else d5).setReg R.pairStat (stat &&& 0x1BE7)
  let d7 := (d6.blockRegsReset Blk.thm (fun off => off == R.thmStat)).setReg R.thmStat (d.reg R.thmStat &&& 0xC0000000)
  { d7 with
    thm := {}
    replayT := none
    peerDec := [] }

/-- A host write of PWR.RST (R419). -/
def Dev.planeReset (v : Nat) (d : Dev) : Dev :=
  let d1 := if bit v 0 then d.ctrlReset else d
  if bit v 1 then d1.mgmtReset else d1

/-- The 8 ticks of a plane reset have passed: a paired unit whose management plane was reset enters FALLOW (R29). -/
def Sys.planeResetEnd (c : Nat) (s0 : Sys) : Sys :=
  let s := s0.onDev (fun d => d.atC c)
  let over_ := fun (r : Option Nat) => match r with
    | some t => decide (t ≤ s.dev.tick)
    | none => false
  let s1 := if over_ s.dev.ctrlRst then s.onDev (fun d => { d with ctrlRst := none }) else s
  let s2 := if over_ s1.dev.mgmtRst then
      s1.onDev (fun d =>
        let d1 : Dev := { d with mgmtRst := none }
        if d1.paired && d1.role != .isolated then (d1.enterRole 3 5).identitySend else d1)
    else s1
  s2.cmdRun

/-! ## Boot (R423 to R429) -/

/-- SYS.BOOTSTAT.STATE. -/
def Dev.bootState (d : Dev) : Nat := d.rf R.sysBootstat 0 4

/-- The boot sequence stops with a CODE (R429); BOOT_FAIL names the step in which it failed. -/
def Dev.bootFail (d : Dev) (code detail : Nat) : Dev :=
  let st := d.bootState
  let d1 := (((d.setFld R.sysBootstat 0 4 15).setFld R.sysBootstat 4 4 code).setFld R.sysBootstat 8 12 detail)
  d1.raise Blk.sys Src.sysBootFail code detail st

/-- MAGIC of a boot image: "GVBI". -/
def bootMagic : Nat := 0x49425647

/-- The write list of a boot image. -/
def bootWrites (bs : List Byte) : List RegWr := entriesOf (le bs 0x0E 2) (bs.drop (le bs 0x14 4))

/-- The format of a boot image (R424): bytes that the layout does not list are zero. -/
def bootFormat (bs : List Byte) : Bool :=
  let tot := le bs 8 4
  let n := le bs 0x0E 2
  let w := le bs 0x14 4
  le bs 4 2 == 0x0100 && decide (le bs 6 2 < 8) && decide (tot ≤ 65536 ∧ tot % 16 = 0 ∧ 0x30 + 160 ≤ tot ∧ tot ≤ bs.length) &&
    decide (n ≤ 4096 ∧ w % 4 = 0) && decide (le bs 0x10 1 ≤ 3) && allZero (slice bs 0x11 3) &&
    (n == 0 || (decide (0x24 ≤ w) && decide (w + 12 * n ≤ tot - 160))) &&
    (let first := if n = 0 then tot - 160 else w
     allZero (slice bs 0x24 (first - 0x24)) && (n == 0 || allZero (slice bs (w + 12 * n) (tot - 160 - (w + 12 * n)))))

/-- HASH and signature of a boot image against the boot hashes (R115, R345): CODE 4, 5, or 0.  In factory test mode with no boot hash
programmed the key is not held against one (R425). -/
def bootSigned (o : Otp) (test : Bool) (bs : List Byte) : Nat :=
  let t := le bs 8 4 - 160
  let h := sha256 (bs.take t)
  if beNat (slice bs t 32) ≠ h then 4
  else if !(test && o.bvalid == 0) && (keyIndex o.bhash o.bvalid o.brev (sha256 (slice bs (t + 32) 64))).isNone then 5
  else if ecdsaOk (be bs (t + 32) 32) (be bs (t + 64) 32) (be bs (t + 96) 32) (be bs (t + 128) 32) h then 0 else 5

/-- Steps 2 to 4 on the bytes of a source: the CODE of the failure with the step it came in, or (0, 0). -/
def Sys.bootCheck (s : Sys) (src : Option (List Byte)) : Nat × Nat :=
  match src with
  | none => (8, 2)
  | some bs =>
    let rev := fld (s.dev.reg R.sysId) 8 8
    if le bs 0 4 ≠ bootMagic then (1, 2)
    else if !bootFormat bs then (2, 3)
    else if !(decide (le bs 0x0C 1 ≤ rev) && decide (rev ≤ le bs 0x0D 1)) then (3, 3)
    else
      let c := bootSigned s.otp s.dev.testMode bs
      if c = 0 then (0, 0) else (c, 4)

/-- A write-list entry that fails the step (R426). -/
def Dev.bootEntryBad (d : Dev) (e : RegWr) : Bool :=
  match rowAt e.off with
  | none => true
  | some r => decide (e.off % 4 ≠ 0) || decide (0x400000 ≤ e.off) || (r.writable == 0 && !isStepacc e.off) || e.off == R.pwrRst ||
      !d.blockOn (e.off / 0x10000)

/-- The write list applied in listed order: the device, or the index of the entry that fails. -/
def Dev.bootWriteList : Nat → List RegWr → Dev → Dev × Option Nat
  | _, [], d => (d, none)
  | i, e :: t, d =>
    if e.off = 0xFFFFFFF0 then Dev.bootWriteList (i + 1) t d
    else if d.bootEntryBad e then (d, some i)
    else Dev.bootWriteList (i + 1) t (d.regWrite .boot e.off e.data e.mask)

/-- The boot has ended (STATE 8): BOOTTICK, and CMD takes commands. -/
def Sys.bootDone (s : Sys) : Sys := (s.onDev (fun d => (d.setFld R.sysBootstat 0 4 8).setReg R.sysBoottick d.tickLo)).cmdRun

/-- Steps 5 to 8 with an image that has passed step 4: `train` says whether the DRAM comes up, `sheaf` are the bytes of the flash at SHOFF. -/
def Sys.bootApply (s : Sys) (bs : List Byte) (train : Bool) (sheaf : List Byte) : Sys :=
  let s1 := s.onDev (fun d => d.setFld R.sysBootstat 0 4 5)
  let fl := le bs 6 2
  if !train then (s1.onDev (fun d => d.bootFail 6 0)).cmdRun
  else
    let s2 := s1.onDev (fun d =>
      let d1 := (d.setFld R.ddrCfg 0 1 (fld fl 2 1)).setFld R.ddrCfg 4 1 (fld fl 1 1)
      (d1.setFld R.ddrStat 0 2 1).setFld R.sysBootstat 0 4 6)
    let w := s2.dev.bootWriteList 0 (bootWrites bs)
    match w.2 with
    | some i => ({ s2 with dev := w.1.bootFail 7 i } : Sys).cmdRun
    | none =>
      let s3 : Sys := { s2 with dev := { w.1 with boot := { w.1.boot with autoswap := bit fl 0 } } }
      if le bs 0x18 4 = 0 then s3.bootDone
      else
        let off := le bs 0x20 4
        let len := le bs 0x1C 4
        let s4 := if storeFits off len then s3.onMem (fun m => m.putBytes (s3.dev.storeBase + off) (sheaf.take len)) else s3
        s4.onDev (fun d => (d.setFld R.sysBootstat 0 4 7).loadBegin off len false)

/-- A PCIe boot image is awaited. -/
def Dev.bootWait (d : Dev) : Dev :=
  let d1 := (d.setFld R.sysBootstat 0 4 9).setFld R.sysBootstat 29 1 1
  { d1 with boot := {} }

/-- The boot sequencer runs from step 2, with what the flash holds in its two slots (none where its read fails), at SHOFF, and whether the
DRAM trains. -/
def Sys.boot (slot0 slot1 : Option (List Byte)) (sheaf : List Byte) (train : Bool) (c : Nat) (s0 : Sys) : Sys :=
  if s0.dev.inReset || s0.dev.bootState != 1 || s0.dev.rf R.synStat 1 1 == 0 then s0
  else
    let s := s0.onDev (fun d => (d.atC c).setFld R.sysBootstat 0 4 2)
    let sel := s.dev.rf R.sysBootcfg 0 2
    if sel = 1 then s.onDev (fun d => d.bootWait)
    else
      let a := s.bootCheck slot0
      if a.1 = 0 then s.bootApply (slot0.getD []) train sheaf
      else
        let b := s.bootCheck slot1
        if b.1 = 0 then (s.onDev (fun d => d.setFld R.sysBootstat 30 1 1)).bootApply (slot1.getD []) train sheaf
        else if sel = 2 ∧ 3 ≤ a.2 ∧ 3 ≤ b.2 then s.onDev (fun d => d.bootWait)
        else
          let x := if b.1 = 1 ∧ a.1 ≠ 1 then a else b
          (s.onDev (fun d => (d.setFld R.sysBootstat 0 4 x.2).bootFail x.1 0)).cmdRun

/-- A word of a PCIe boot image arrives; the last one begins the checks (R428). -/
def Sys.bootData (v : Nat) (train : Bool) (s : Sys) : Sys :=
  if s.dev.bootState ≠ 9 then s
  else
    let img := s.dev.boot.image ++ leBytes 4 v
    let n := s.dev.rf R.sysBootlen 0 17
    let s1 := s.onDev (fun d => { d with boot := { d.boot with image := img } })
    if img.length < n then s1
    else
      let bs := img.take n
      let r := s1.bootCheck (some bs)
      let x := if r.1 = 0 ∧ (le bs 8 4 ≠ n ∨ le bs 0x18 4 ≠ 0) then (2, 3) else r
      if x.1 = 0 then s1.bootApply bs train []
      else (s1.onDev (fun d => (d.setFld R.sysBootstat 0 4 x.2).bootFail x.1 0)).cmdRun

/-- No complete PCIe image within 10 s (R428). -/
def Sys.bootTimeout (c : Nat) (s0 : Sys) : Sys :=
  if s0.dev.bootState ≠ 9 then s0
  else ((s0.onDev (fun d => d.atC c)).onDev (fun d => d.bootFail 1 0)).cmdRun

/-- The boot sheaf's load has ended (R427): a swap under no key slot where it is asked for, or SHEAFERR. -/
def Sys.bootSheaf (s : Sys) : Sys :=
  let d := s.dev
  if d.bootState ≠ 7 ∨ d.loadState = 1 then s
  else if d.loadState = 2 then
    let t := d.tick + 16 + d.tick % 2
    let d1 := if d.boot.autoswap && !d.testMode then d.place { tgt := t, slot := 8, ctr := 0, act := .swap } else d
    ({ s with dev := d1 } : Sys).bootDone
  else (s.onDev (fun d => d.setFld R.sysBootstat 31 1 1)).bootDone

/-- A load finishes its checks (R117, R120, R121, R427).  While its partner copy is on the way it can only fail, with the partner's cause. -/
def Sys.loadComplete (ecc : Option Nat) (peer : PeerAns) (c : Nat) (s0 : Sys) : Sys :=
  let s := s0.onDev (fun d => d.atC c)
  if s0.dev.copying then
    match peer with
    | .fail k => s.onDev (fun d => d.loadRefuse { reason := 0x11, i0 := k })
    | _ => s0
  else (s.loadFinish ecc peer).bootSheaf

/-! ## Factory test mode (R367) -/

/-- The unlock word: entered only with TESTMODE high at the release of POR_N. The block that FAULT_N names is not given: a free value. -/
def Dev.factoryUnlock (c : Nat) (d0 : Dev) : Dev :=
  if d0.testMode || d0.rf R.sysBootcfg 3 1 == 0 then d0
  else
    let d := ({ d0.atC c with testMode := true } : Dev)
    let d1 := (forN 6 (fun g d => if (d.modG g).run_ then d.grpRest g else d) d).grpStat.chStats
    let r := (d1.setPins false false).draw
    r.1.faultAssert (r.2.toNat % 32)

end Sys2Proof.Machine
end

