-- ==== Sys2Proof/Machine/Tick.lean ====
section
/-!
DEFINITION. The tick (R15 to R18): its boundary with the changes that go live (R35, R37), the capture point, the application of the agenda and
of captured commit groups (R26, R39), the rotation of the halves.
-/
namespace Sys2Proof.Machine

/-- The tick runs: the MDLL is locked. -/
def Dev.ticking (d : Dev) : Bool := d.rf R.synStat 1 1 == 1

/-- The engine and the streams of a CATCHUP unit that has not joined belong to its replay (R318, R319). -/
def Dev.engOff (d : Dev) : Bool := d.paired && d.role == .catchup && d.phase != 5

/-! ## Changes that take effect at a boundary (R35, R37) -/

/-- The bits of a write-to-set field that a change sets. -/
def PendWr.sets (p : PendWr) : Nat :=
  match rowAt p.off with
  | none => 0
  | some r => p.mask &&& r.ws &&& p.val

/-- Actions ahead of the blocks' own boundary: changed high-pass selections (R134), the thermal clear, the clear of FAULT_N, the forces of ENG and of the digests, STEPACC. -/
def Dev.pendActs (d : Dev) (p : PendWr) : Dev :=
  let w := p.sets
  if p.off = R.timeStepacc then d.stepaccClear
  else if R.decCtrl 0 ≤ p.off ∧ p.off ≤ R.decCtrl 31 then d.decHpfLive ((p.off - R.decCtrl 0) / 4)
  else if p.off / 0x10000 = Blk.tdm ∧ p.off % 0x10000 < 0x800 ∧ 1 ≤ p.off % 0x100 / 16 ∧ p.off % 0x100 / 16 < 2 then
    d.tdmHpfLive (p.off % 0x10000 / 0x100) (p.off % 16 / 4)
  else if p.off = R.pwrTherm ∧ bit w 8 then d.thermClear
  else if p.off = R.bbxFault ∧ bit w 8 then { d with bbx := { d.bbx with clrReq := true } }
  else if p.off = R.engForce then { d with eng := { d.eng with parReq := d.eng.parReq ||| w } }
  else if p.off = R.pairForce ∧ w ≠ 0 then d.setBoth p.off (d.reg p.off) (d.lv p.off ||| w)
  else d

/-- Actions after it: MOD.CLEAR. -/
def Dev.pendClears (d : Dev) (p : PendWr) : Dev :=
  if p.off = R.modClear0 then d.modClear p.sets
  else if p.off = R.modClear1 then d.modClear (p.sets * 2 ^ 32)
  else d

/-- The pending changes of ticks up to `t`, oldest first, leave the list. -/
def Dev.pendTake (d : Dev) (t : Nat) : Dev × List PendWr :=
  ({ d with pendTick := d.pendTick.filter (fun p => decide (t < p.due)) }, d.pendTick.filter (fun p => decide (p.due ≤ t)))

/-- The changes due at the boundary into tick `t` go live; they are answered for the actions that come later. -/
def Dev.tickApply (d : Dev) (t : Nat) : Dev × List PendWr :=
  let r := d.pendTake t
  let d1 := each r.2 (fun p d => d.pendLive p) r.1
  (each r.2 (fun p d => d.pendActs p) d1, r.2)

/-- What the changes do after the blocks' own boundary: cleared latches, switched domains, sleep. -/
def Sys.tickActs (s : Sys) (ps : List PendWr) : Sys :=
  let s1 := s.onDev (fun d => each ps (fun p d => d.pendClears p) d)
  let s2 := each (ps.filter (fun p => p.off == R.pwrDomctl)) (fun p s => s.domSwitch (mergeBits (s.dev.lv p.off) (p.mask &&& 0x6B8) p.val)) s1
  if ps.any (fun p => p.off == R.pwrSleep && bit p.sets 0) then s2.sleep else s2

/-! ## The boundary (R15) -/

/-- A number moved by the change of the tick number. -/
def moveN (k : Int) (n : Nat) : Nat := ((n : Int) + k).toNat

/-- What is counted from the present tick follows an adopted tick number (R304). -/
def Dev.adoptShift (d : Dev) (k : Int) : Dev :=
  { d with
    pendTick := d.pendTick.map (fun p => { p with due := moveN k p.due })
    frameWr := d.frameWr.map (fun w => { w with due := moveN k w.due })
    ctrlRst := d.ctrlRst.map (moveN k)
    mgmtRst := d.mgmtRst.map (moveN k)
    flt := d.flt.map (fun f => { f with react := f.react.map (fun (r : Reaction) => { r with last := moveN k r.last }) })
    evt := { d.evt with opens := d.evt.opens.map (fun o => { o with upto := moveN k o.upto }) }
    mac := d.mac.map (fun m => { m with pauseAt := moveN (k * 10240) m.pauseAt })
    bus := { d.bus with
      beacon := moveN (k * 10240) d.bus.beacon
      endAt := moveN (k * 10240) d.bus.endAt
      backoff := moveN (k * 10240) d.bus.backoff }
    clk := { d.clk with ring := d.clk.ring.map (fun e => (moveN k e.1, e.2)) }
    pair := { d.pair with
      lastHb := d.pair.lastHb.map (moveN k)
      renew := moveN k d.pair.renew
      peerAt := moveN k d.pair.peerAt
      pinsUntil := moveN k d.pair.pinsUntil
      ownHigh := d.pair.ownHigh.map (moveN k)
      rs := { d.pair.rs with retry := moveN k d.pair.rs.retry } } }

/-- The tick number moves on, or to the one adopted; fault windows that end with the tick that ends have ended (R15, R304, R362). -/
def Dev.tickNext (d : Dev) : Dev :=
  let d1 : Dev := { d with flt := d.flt.map (FltState.endTick d.tick), evt := { d.evt with yieldT := [] }, cvuSeen := 0 }
  let n := (d.tick + 1) % 2 ^ 48
  match d.pair.adopt with
  | none => { d1 with tick := n, cycle := 0 }
  | some t =>
    let d2 := d1.adoptShift ((t : Int) - (n : Int))
    { d2 with
      tick := t % 2 ^ 48
      cycle := 0
      pair := { d2.pair with adopt := none } }

/-- The blocks outside the engine's path at a boundary. -/
def Sys.blocksBoundary (s : Sys) (i : TickIn) : Sys :=
  (s.decBoundary i.pdm).onDev (fun d =>
    ((((((d.snsBoundary).clkBoundary).clkoutBoundary).macBoundary i.fec).plcaBoundary).gleanBoundary))

/-- The outputs that run from the present boundary on are no longer in the state of R422: groups of MOD (bits 0 to 5), CLKOUT (8 to 11), MCLK_OUT
(12, 13), PDM_CLK (24 to 27), SNS_CLK (28). -/
def Dev.outsBegin (d : Dev) : Dev :=
  let set := fun (n base : Nat) (p : Nat → Bool) (m : Nat) => (List.range n).foldl (fun m k => bitSet m (base + k) (bit m (base + k) || p k)) m
  { d with begun := set 6 0 (fun g => (d.modG g).run_) (set 4 8 (fun k => (d.clk.outs.getD k none).isSome)
      (set 2 12 (fun m => (d.mclk.getD m none).isSome) (set 4 24 (fun k => bit d.pdmOn k) (set 1 28 (fun _ => d.snsOn) d.begun)))) }

/-- The last part of a boundary: CMD's and EVT's counts, FAULT_N, the pair's status, bulk traffic (R323, R338, R365, R379). -/
def Sys.boundaryEnd (s : Sys) (ys : List Nat) : Sys :=
  let s1 := s.onDev (fun d =>
    let d1 := ((d.faultClear (!ys.isEmpty)).recordBoundary).wdogTick
    let d2 : Dev := if d1.paired then d1 else { d1 with evt := { d1.evt with errT := false, yieldW := [] } }
    let d3 := if d2.tick % 96000 = 0 then d2.onCmd (fun c => { c with hello := [0, 0, 0] }) else d2
    d3.pairStatus.outsBegin.cvuAttach)
  s1.bulkSend

/-- The boundary into the next tick: the time map that the old role decides, then the roles, then what follows the new role. -/
def Sys.tickBoundary (i : TickIn) (s0 : Sys) : Sys :=
  if !s0.dev.ticking then s0
  else
    let ys := s0.dev.evt.yieldT
    let a := s0.dev.tickNext.tickApply s0.dev.tickNext.tick
    let s1 := (({ s0 with dev := a.1 } : Sys).tdmBoundary).onDev (fun d =>
      ((d.timeBoundary i.time).pairBoundary ys i.hold i.own i.rtt).modBoundary)
    let s2 := if s1.dev.engOff then s1 else (s1.onDev (fun d => d.strmBoundary)).engStart
    ((s2.blocksBoundary i).boundaryEnd ys).tickActs a.2

/-! ## The capture point (R16, R17, R35, R37, R295) -/

/-- The commit groups that are pending. -/
def Dev.pendingGroups (d : Dev) : List (Nat × Nat) :=
  ((List.range 31).filter hasCommon).flatMap (fun b => (bitsOn 16 (d.reg (R.commitstat b) &&& commitGroups b)).map (fun g => (b, g)))

/-- At cycle 9,984. -/
def Sys.capturePoint (s0 : Sys) : Sys :=
  if !s0.dev.ticking then s0
  else
    let s1 := if s0.dev.engOff then s0.onDev (fun d => d.atC windowEnd)
      else s0.engClose.onDev (fun d =>
        let r := d.digestClose
        if d.paired then r.1.digRecord r.2.1 r.2.2 else r.1)
    let s2 := s1.onDev (fun d =>
      let d1 : Dev := { d with capGrp := d.pendingGroups }
      let d2 := if d1.paired && d1.role == .active && d1.mgmtRst.isNone then d1.onPair (fun p => { p with renew := d1.tick }) else d1
      d2.dutyLatch)
    if s2.dev.lockstep then s2.landBuffered (s2.dev.tick + 1) else s2

/-! ## The agenda (R17, R26, R39) -/

/-- An entry of the agenda is applied. -/
def Sys.agendaOne (e : AgEntry) (s : Sys) : Sys :=
  match e.act with
  | .writes ws => s.onDev (fun d => d.cmdWrites (.agenda e.tgt) e.tgt ws)
  | .swap => s.onDev (fun d => d.bankExchange)
  | .cell k v => s.cellApply k v
  | .step o => s.onDev (fun d => d.timeStep e.tgt o)

/-- The entries for the boundary into tick `t` leave the agenda and are applied in the order of their acceptance. -/
def Sys.agendaTo (t : Nat) (s : Sys) : Sys :=
  let due := s.dev.agenda.filter (fun e => decide (e.tgt ≤ t))
  let s1 := each due Sys.agendaOne s
  s1.onDev (fun d =>
    let rest := d.agenda.filter (fun e => !decide (e.tgt ≤ t))
    let d1 : Dev := { d with agenda := rest }
    d1.onCmd (fun c => { c with prev := c.prev.filter (fun q => rest.any (fun e => e.slot == q.1 && e.ctr == q.2.1)) }))

/-- At cycle 10,048: captured commit groups are copied, then the agenda is applied. -/
def Sys.agendaApply (s0 : Sys) : Sys :=
  if !s0.dev.ticking then s0
  else
    let s1 := s0.onDev (fun d => (d.atC 10048).copyCaptured (d.tick + 1))
    let s2 := if s1.dev.engOff then s1 else s1.agendaTo (s1.dev.tick + 1)
    s2.cmdRun

/-- At cycle 10,048 the immediate commands for the next boundary execute (R23, R330). -/
def Sys.immediateExecute (s : Sys) : Sys := if s.dev.ticking then s.immExecute else s

/-! ## The rotation (R17, R18, R68) -/

/-- At cycle 10,176, with `late` staging descriptors unfinished. -/
def Sys.halfRotate (late : Nat) (s0 : Sys) : Sys :=
  if !s0.dev.ticking then s0
  else
    let s := s0.onDev (fun d => d.atC 10176)
    if s.dev.engOff then s else s.engRotate late

end Sys2Proof.Machine
end

