-- ==== Sys2Proof/Machine/Replay.lean ====
section
/-!
DEFINITION. The replay of a CATCHUP unit (R317 to R320): its start, its ticks, the join, and the return to SHADOW.
-/
namespace Sys2Proof.Machine

/-- The tick record of tick `t`. -/
def Dev.recordOf (d : Dev) (t : Nat) : TickRec :=
  (d.pair.rs.ring.findSome? (fun r => match r with
    | .tick x => if x.tick = t then some x else none
    | .cmd _ _ => none)).getD { tick := t }

/-- The bytes of a tick record (R318). -/
def TickRec.size (r : TickRec) : Nat := 1472 + sumN (r.pkts.map (fun p => 32 + p.2.pay.length))

/-- The bytes of a record. -/
def RingRec.size : RingRec → Nat
  | .tick r => r.size
  | .cmd _ n => n

/-- Records leave the ring, and its occupancy follows. -/
def Dev.ringDrop (d : Dev) (gone : RingRec → Bool) : Dev :=
  let n := d.pair.rs.used - sumN ((d.pair.rs.ring.filter gone).map RingRec.size)
  (d.onPair (fun p => { p with rs := { p.rs with
    ring := p.rs.ring.filter (fun r => !gone r)
    used := n } })).setFld R.pairRsstat 20 12 (n / 2 ^ 20)

/-- The records ahead of the tick record of tick `t`. -/
def ringBefore (t : Nat) (l : List RingRec) : List RingRec :=
  l.takeWhile (fun r => match r with
    | .tick x => x.tick != t
    | .cmd _ _ => true)

/-- A mirrored command of the ring is placed as the lease holder placed it. -/
def Dev.replayPlace (d : Dev) (m : MirCmd) : Dev :=
  let d1 := d.slotRecord m.slot m.ctr m.tgt
  if m.imm then
    match m.act with
    | .writes ws => d1.onCmd (fun c => { c with imm := c.imm ++ [{ tgt := m.tgt, slot := m.slot, ctr := m.ctr, writes := ws, cmd := none, wait := false }] })
    | _ => d1
  else d1.place { tgt := m.tgt, slot := m.slot, ctr := m.ctr, act := m.act }

/-- The commands that had arrived by the headland of tick `t` are placed, in the order of their arrival. -/
def Dev.replayCommands (d : Dev) (t : Nat) : Dev :=
  let cs := (ringBefore (t + 2) d.pair.rs.ring).filterMap (fun r => match r with
    | .cmd m _ => some m
    | .tick _ => none)
  let d1 := d.ringDrop (fun r => match r with
    | .cmd m _ => cs.contains m
    | .tick _ => false)
  each cs (fun m d => d.replayPlace m) d1

/-! ## A replayed tick -/

/-- A recorded packet is held by its context. -/
def Dev.replayPkt (d : Dev) (c : Nat) (p : RxPkt) : Dev :=
  if (d.rxC c).on && !(d.rxC c).pkts.any (fun q => q.seq == p.seq) then
    d.onRx c (fun x => { x with pkts := x.pkts ++ [{ p with t0 := d.rxT0 c p.ts d.engTick, used := false }] })
  else d

/-- An anchor change of the record begins. -/
def Dev.replayAnchor (d : Dev) (a : Nat × Nat × Nat) : Dev :=
  if (d.rxC a.1).fade.isSome then d
  else d.onRx a.1 (fun x => { x with fade := some { cause := a.2.1, dA := a.2.2, b := x.b }, ask := none })

/-- The forwarded words, decisions and map of the record of tick `t`. -/
def Sys.replayInputs (s : Sys) (t : Nat) : Sys :=
  let r := s.dev.recordOf t
  let s1 := s.landWords t r.words
  s1.onDev (fun d =>
    let d1 := d.decsIn t r.decs
    match r.map with
    | some (delta, disc, creep) => { d1 with time := { d1.time with useD := delta, useDisc := disc, useCreep := creep } }
    | none => d1)

/-- The lanes of replay tick `t` may run, with the streams of the record released. -/
def Sys.replayRun (s : Sys) (t : Nat) : Sys :=
  let r := s.dev.recordOf t
  let s1 := s.onDev (fun d =>
    let d1 := each r.pkts (fun p d => d.replayPkt p.1 p.2) (each r.anchors (fun a d => d.replayAnchor a) d)
    each (List.range 256) (fun c d => d.rxCut c) d1)
  s1.streamRelease

/-- Replay tick `t` starts: the change at its boundary, the streams, the drain, the packets formed. -/
def Sys.replayStart (s0 : Sys) (t : Nat) : Sys :=
  let s := s0.onDev (fun d => { d with replayT := some t })
  let a := s.dev.tickApply t
  let s1 := ({ s with dev := a.1 } : Sys).replayInputs t
  let s2 := (s1.onDev (fun d => d.strmBoundary)).engStart
  let s3 := s2.onDev (fun d => each (List.range 256) (fun c d => d.packetQueue c) d)
  (s3.replayRun t).tickActs a.2

/-- The unit joins in the present tick: its words, its packets not yet due, the lockstep start of the engine (R319). -/
def Sys.replayJoin (s0 : Sys) (t : Nat) : Sys :=
  let s := s0.onDev (fun d => ({ d with replayT := none } : Dev).setFld R.pairRsstat 0 3 5)
  let a := s.dev.tickApply t
  let s1 := ({ s with dev := a.1 } : Sys).replayInputs t
  let later := s1.dev.pair.rs.ring.filterMap (fun r => match r with
    | .tick x => if t < x.tick then some (x.tick, x.words) else none
    | .cmd _ _ => none)
  let s2 := s1.onDev (fun d =>
    let cs := d.pair.rs.ring.filterMap (fun r => match r with
      | .cmd m _ => some m
      | .tick _ => none)
    let d1 := each cs (fun m d => d.replayPlace m) d
    let d2 := d1.onPair (fun p => { p with
      fwdBuf := later.foldl (fun b w => tabSet b w.1 w.2) p.fwdBuf
      rs := { p.rs with ring := [], used := 0 } })
    let d3 := (d2.setFld R.pairRsstat 20 12 0).strmBoundary
    let d4 := each d3.strm.inbox (fun q d => d.replayPkt q.1 q.2) d3
    { d4 with strm := { d4.strm with inbox := [] } })
  (s2.engStart).tickActs a.2

/-- The last digests of a list with one more; those of the last eight comparisons stay. -/
def digPush (l : List DigRec) (r : DigRec) : List DigRec := (l ++ [r]).drop (l.length + 1 - 8)

/-- The digests of replay tick `t` are held against the recorded ones, with the window of R309 over the replayed ticks: the recorded ERRMARKs, and
the attributing events the unit logged while it replayed each tick (R309, R310, R319). -/
def Dev.replayCompare (d0 : Dev) (t ds dt : Nat) : Dev :=
  let own : DigRec := { tick := t, ds := ds, dt := dt, err := d0.evt.errR }
  let d : Dev := { d0.onPair (fun p => { p with digs := digPush p.digs own }) with evt := { d0.evt with errR := false } }
  match (d.recordOf t).digest with
  | none => d
  | some (a, b, err) =>
    let peer : DigRec := { tick := t, ds := a, dt := b, err := err }
    let d1 := d.onPair (fun p => { p with peerDigs := digPush p.peerDigs peer })
    d1.digCompare own peer (errIn d1.pair.digs t) (errIn d1.pair.peerDigs t)

/-- The replay tick in progress ends, and the next one starts, or the unit joins. -/
def Sys.replayTick (c : Nat) (s0 : Sys) : Sys :=
  match s0.dev.replayT with
  | none => s0
  | some t =>
    if s0.dev.role != .catchup || s0.dev.phase != 4 then s0
    else
      let s := (s0.onDev (fun d => d.atC c)).engClose
      let s1 := s.onDev (fun d =>
        let r := d.digestClose
        ((r.1.replayCompare t r.2.1 r.2.2).atC c))
      if s1.dev.replayT.isNone then s1
      else
        let s2 := s1.onDev (fun d => d.replayCommands t)
        let due := s2.dev.cmd.imm.filter (fun i => i.cmd.isNone && decide (i.tgt ≤ t + 1))
        let s3 := each due (fun i s => s.immOne i)
          (s2.onDev (fun d => d.onCmd (fun x => { x with imm := x.imm.filter (fun i => !(i.cmd.isNone && decide (i.tgt ≤ t + 1))) })))
        let s4 := (s3.agendaTo (t + 1)).engRotate 0
        let s5 := s4.onDev (fun d => (d.setW R.pairReplay t).ringDrop (fun r => match r with
          | .tick x => decide (x.tick ≤ t)
          | .cmd _ _ => false))
        if t + 1 < s5.dev.tick then s5.replayStart (t + 1) else s5.replayJoin s5.dev.tick

/-! ## The start of the replay (R317, R319) -/

/-- The registers of a block state put in place of the unit's own. -/
def Dev.installRegs (d : Dev) (b : BlockState) : Dev :=
  let d1 : Dev := { d with
    regs := d.regs.filter (fun r => !inImage r.1)
    live := d.live.filter (fun r => !inImage r.1)
    wide := d.wide.filter (fun r => !inImage r.1) }
  { d1 with
    regs := b.regs.foldl (fun t r => tabSet t r.1 r.2) d1.regs
    wide := b.wide.foldl (fun t r => tabSet t r.1 r.2) d1.wide }

/-- The agenda of the image becomes the unit's own; TICK.AGENDA.HIGH follows it (R456). -/
def Dev.agendaOf (d : Dev) (l : List AgEntry) : Dev := ({ d with agenda := l } : Dev).agendaHigh

/-- The block state of the image becomes the unit's own: agenda, records, the engine's pointers and plans, the loader's record, the streams,
the serial ports' transmit state (R316).  The active bank stays the unit's own, into which the active program has come. -/
def Dev.install (d : Dev) (b : BlockState) : Dev :=
  let d1 := d.installRegs b
  let d2 := each ((List.range 8).zip b.slots) (fun x d => (d.setW (R.tickSlotcnt x.1) x.2.1).setW (R.tickSlottgt x.1) x.2.2) d1
  let d3 := d2.setFld R.engStat 4 1 (b2n b.ldr.act.isSome)
  { d3.agendaOf b.agenda with
    held := b.held
    eng := b.eng
    ldr := b.ldr
    strm := { b.strm with inbox := d.strm.inbox, queue := [[], []], held := [], acks := [] }
    tdm := (d.tdm.zip b.tdm).map (fun x => { x.1 with tx := x.2.tx, slots := x.2.slots, frame := x.2.frame, taken := x.2.taken }) }

/-- The last delay frame is held: the lease holder's copy is done, and its partner may begin its replay. -/
def Sys.delayCopyDone (c : Nat) (s0 : Sys) : Sys :=
  let s := s0.onDev (fun d => d.atC c)
  let d := s.dev
  if !d.paired || d.phase != 3 then s0
  else if d.role == .active then
    (if d.pair.rs.copy.isEmpty then s.onDev (fun d => d.setFld R.pairRsstat 0 3 4) else s0)
  else if d.role == .catchup then
    match d.pair.rs.blk with
    | none => s0
    | some b =>
      let need := match b.ldr.act with
        | some sh => sh.delayBytes
        | none => 0
      if d.pair.rs.delRx < need then s0 else s.onDev (fun d => d.onPair (fun p => { p with rs := { p.rs with held := true } }))
  else s0

/-- At the first boundary after the last delay frame is held, the replay begins with tick T, whose drain and streams the image carries (R319). -/
def Sys.replayBegin (s : Sys) : Sys :=
  let d := s.dev
  if !(d.paired && d.role == .catchup && d.phase == 3 && d.pair.rs.held) then s
  else match d.pair.rs.blk with
    | none => s
    | some b =>
      let t := d.w64 R.pairSnap
      let s1 := s.onDev (fun d =>
        let d1 := (((d.install b).setFld R.pairRsstat 0 3 4).onPair (fun p => { p with rs := { p.rs with blk := none, held := false } }))
        let d2 : Dev := { d1 with replayT := some t, evt := { d1.evt with errR := false } }
        (d2.setFld R.engStat 0 3 d2.clusters).raise Blk.pair Src.pairResync 2 (t % 2 ^ 32) 0)
      (s1.replayInputs t).replayRun t

/-- After 96,000 clean ticks in a row, at or after joining, the unit is SHADOW (R320). -/
def Dev.becomeShadow (d0 : Dev) : Dev :=
  let d := d0.atC 0
  if d.paired && d.role == .catchup && d.phase == 5 && decide (96000 ≤ d.rf R.pairRsstat 3 17) then
    let t := d.w64 R.pairSnap
    let d0 := ((d.enterRole 1 0).setFld R.pairRsstat 0 3 0).onPair (fun p => { p with rs := p.rs.idle 0 })
    let d1 : Dev := { d0 with mod := { d0.mod with join := 2 } }
    d1.raise Blk.pair Src.pairResync 3 (t % 2 ^ 32) 0
  else d0

end Sys2Proof.Machine
end

