-- ==== Sys2Proof/Machine/Host.lean ====
section
/-!
DEFINITION. What comes to the device from outside as a command of the table gives it: register writes and reads of the host (R7, R31, R347),
commands in their frames (R329), received Ethernet frames (R191 to R195, R327), the scrubber (R65).
-/
namespace Sys2Proof.Machine

/-! ## Register writes and reads -/

/-- The host writes a register directly; some registers set their unit to work at once (R200, R328, R419, R428). -/
def Sys.hostWrite (off data : Nat) (s : Sys) : Sys :=
  if noBlock off then s.onDev (fun d => d.decErr 7 (regBase + off) true)
  else if off = R.sysBootdata then
    -- whether the DRAM trains, should this be the last word of the image, is not in the write: a free value
    let r := s.dev.draw
    ({ s with dev := r.1 } : Sys).bootData data (r.2.toNat % 2 == 1)
  else if off = R.pwrRst then (s.onDev (Dev.planeReset data)).bootSheaf
  else
    let s1 := s.onDev (Dev.regWrite .direct off data 0xFFFFFFFF)
    if off / 0x10000 = Blk.cmd then s1.cmdRun else s1

/-- A command's write of one register, for the boundary into the next tick: refused whole where it meets a running block or a pending group
(R38, R41, R339); PWR.RST takes no command (R419), and only the lease holder or a standalone unit executes one (R302, R333). -/
def Sys.cmdWrite (off mask data : Nat) (s : Sys) : Sys :=
  if off = R.pwrRst ∨ s.dev.role ≠ .active ∨ !s.dev.bootOver ∨ !s.dev.ticking then s
  else
    let e : RegWr := { off := off, mask := mask, data := data }
    let d := s.dev.atC 10048
    let r := d.immRefusal [e]
    if r.2.isSome || (d.domainOff (.writes [e])).isSome || (d.sleepPaired (.writes [e])).isSome then { s with dev := r.1 }
    else { s with dev := r.1.cmdWrites (.immediate (d.tick + 1)) (d.tick + 1) [e] }

/-- The word that a direct write of the bits `mask` puts on the bus: the RW fields outside `mask` as the register holds them, every other bit
outside it 0 (a direct write has no mask, R31). -/
def Dev.wordOf (d : Dev) (off mask data : Nat) : Nat :=
  match rowAt off with
  | some r => mergeBits (d.reg off &&& r.rw) mask data
  | none => data &&& mask

/-- A register write by the way it comes. -/
def Sys.regOp (v : RegVia) (off mask data : Nat) (s : Sys) : Sys :=
  if v.cmd then s.cmdWrite off mask data else (s.onDev (fun d => d.atC v.c)).hostWrite off (s.dev.wordOf off mask data)

/-- A direct read at a cycle, of a register that satisfies `p`. -/
def Sys.readIf (p : RegRow → Bool) (off c : Nat) (s : Sys) : Sys :=
  match rowAt (off / 4 * 4) with
  | some r => if p r then (s.onDev (fun d => d.atC c)).hostRead off else s
  | none => s

/-- The tail registers of the host rings (R200, R328). -/
def tailReg (off : Nat) : Bool :=
  (List.range 2).any (fun r => off == R.cmdCtail r || off == R.cmdRtail r) ||
    [10, 11, 12, 13].any (fun b => off == R.macRxtail b || (List.range 4).any (fun q => off == R.macTxtail b q))

/-! ## Commands -/

/-- A command of opcode `op` arrives whole in its frame. -/
def Sys.cmdRow (f : CmdFrame) (op : Nat) (pay : List Byte) (s : Sys) : Sys :=
  s.cmdArrive f.src (cmdBytes op f.slot f.ctr f.tgt f.reqtag pay f.tag) f.from_ f.c

/-- The payload of a WRITE. -/
def writePay (ws : List RegWr) : List Byte := ws.flatMap (fun w => leBytes 4 w.off ++ leBytes 4 w.mask ++ leBytes 4 w.data)

/-- The frame fails step 1 of R333, or names no opcode. -/
def malformed (bs : List Byte) : Bool := !frameOk bs || (opClass (cmdOp bs)).isNone

/-! ## Received frames (R193 to R195, R327) -/

/-- A UDP command to the command port of the management port: its payload and where it came from; an inner none if its checksum is wrong. -/
def Dev.udpCommand (d : Dev) (f : List Byte) : Option (Option (UdpFrom × List Byte)) :=
  let ip := ethPay f
  let u := slice ip (ip4Len ip) (be ip 2 2 - ip4Len ip)
  if isIp4 f && be ip 9 1 == 17 && be ip 6 2 % 0x4000 == 0 && d.toStation 2 (ethDst f) && be u 2 2 == d.rf R.cmdUdpcfg 0 16 then
    some (if udpGood ip then some ({ mac := be f 6 6, ip := be ip 12 4, port := be u 0 2, dst := be ip 16 4 }, u.drop 8) else none)
  else none

/-- A frame goes to the port's host ring, or is a stranger (R193 steps 3 and 4). -/
def Sys.toHost (s : Sys) (p : Nat) (trunc : Bool) (f : List Byte) : Sys :=
  match s.dev.hostClass p f with
  | some k => s.rxDeliver p k trunc f
  | none => s.onDev (fun d => d.stranger p f)

/-- An accepted frame, classified. -/
def Sys.classify (s : Sys) (p c : Nat) (trunc : Bool) (f : List Byte) : Sys :=
  if ethType f = 0x8808 then s.onDev (fun d => d.macControl p f)
  else if p < 2 then
    match s.dev.filterOf p f with
    | some e => s.onDev (fun d => (d.macCount p 16 1).streamFrame p e f trunc)
    | none => s.toHost p trunc f
  else if p = 2 ∧ !trunc then
    match s.dev.udpCommand f with
    | some (some x) => s.cmdArrive 2 x.2 (some x.1) c
    | some none => s
    | none => s.toHost p trunc f
  else s.toHost p trunc f

/-- A frame with its FCS is received on port `p`; `rxer` says that the array bus signalled a receive error in it (R206). -/
def Sys.frameReceive (p : Nat) (bs : List Byte) (rxer : Bool) (c : Nat) (s0 : Sys) : Sys :=
  if 3 < p ∨ !s0.dev.rxReady p then s0
  else
    let s := s0.onDev (fun d => if p = 3 then (d.atC c).busPasses bs.length else d.atC c)
    if p = 3 ∧ rxer then s.onDev (fun d => d.macCount 3 21 1)
    else
      let r := s.dev.rxFilter p bs
      let s1 : Sys := { s with dev := r.1 }
      match r.2 with
      | none => s1
      | some x => s1.classify p c x.2 x.1

/-! ## ECC (R65) -/

/-- The internal address of a word of a memory under ECC; of instruction memory a bundle of the active bank. -/
def Dev.eccAddr (d : Dev) (m : EccMem) (lane word : Nat) : Nat :=
  match m with
  | .coef => coefBase lane + 4 * word
  | .state => stateBase lane + 4 * word
  | .instr => instrBase lane (d.rf R.engStat 5 1) + 16 * word
  | .sample => sampleBase + 4 * word

/-- A word in range of its memory. -/
def eccWord (m : EccMem) (lane word : Nat) : Bool :=
  match m with
  | .coef => decide (lane < 48 ∧ word < 32768)
  | .state => decide (lane < 48 ∧ word < 16384)
  | .instr => decide (lane < 48 ∧ word < 8192)
  | .sample => decide (word < 0x100000)

/-- The scrubber, or an access, meets a single-bit error, corrected and written back; or a double-bit one, which stays in the word, is a lane
error of kind 1, and is met by every later read.  The bundle address of a scrub is not given: a free value. -/
def Dev.eccScrub (m : EccMem) (lane word : Nat) (dbl : Bool) (c : Nat) (d0 : Dev) : Dev :=
  if !eccWord m lane word then d0
  else
    let d := d0.atC c
    if dbl then
      let d1 : Dev := { d with eng := { d.eng with ecc2 := d.eng.ecc2 ++ [d.eccAddr m lane word] } }
      let r := d1.draw
      r.1.laneErr lane 1 r.2.toNat c
    else
      let r := d.memCode m
      (r.1.bump R.engEcccnt 1).raise Blk.eng Src.engEccCorr r.2 lane word

end Sys2Proof.Machine
end

