-- ==== Sys2Proof/Machine/State.lean ====
section
/-!
DEFINITION. The state of the block: the device with its memories and fuses, and the commands that wait, first in, first out; the reasons why a
step can stop, of which there are none; the state right after reset.
-/
namespace Sys2Proof.Machine

/-- The whole state: the system, and the queue of waiting commands. -/
structure State where
  sys     : Sys := {}
  pending : List Instr := []
deriving DecidableEq, Repr

/-- Reasons for a fault. No command of the spec stops the block, so there is none. -/
inductive Fault where
deriving DecidableEq, Repr

/-- Reasons for a refusal. -/
inductive Refusal where
  /-- The command has no meaning yet: raised by an arm of `exec` that is not modelled. Safe: nothing is claimed of it. No arm raises it. -/
  | notModelled (mnemonic : String)
deriving DecidableEq, Repr

/-- The block right after a cold reset (R418, R421): every register at its reset value, memory with nothing listed, fuses blank, the boot not
yet begun (log entries 1 and 2). -/
def State.reset : State := { sys := { dev := { cmd := { draw := [0] } } } }

end Sys2Proof.Machine
end

