-- ==== Sys2Proof/Machine/Act.lean ====
section
/-!
DEFINITION. How a command acts on the state: on the system alone, at any time, unless the device is held in reset, or while the tick runs.
-/
namespace Sys2Proof.Machine

/-- The outcome of a command. -/
abbrev Res := Host.Outcome State Fault Refusal

/-- A command that acts at any time. -/
def State.act (z : State) (f : Sys → Sys) : Res := .next { z with sys := f z.sys }

/-- A command that acts unless the device is held in reset (R420). -/
def State.runRow (z : State) (f : Sys → Sys) : Res := z.act (fun s => if s.dev.inReset then s else f s)

/-- A command that acts while the tick runs (R15, R164). -/
def State.tickRow (z : State) (f : Sys → Sys) : Res := z.act (fun s => if s.dev.inReset || !s.dev.ticking then s else f s)

/-- A mirror frame that arrives while the tick runs: its header first (R322).  A reset of the management plane stops the traffic (R29). -/
def State.mirRow (z : State) (h : MirHdr) (f : Sys → Sys) : Res :=
  z.tickRow (fun s => if s.dev.mgmtRst.isSome then s else f (s.onDev (fun d => d.mirHead h)))

/-- The operation of a slot of a lane's bundle at an issue: the one that the slot's word decodes to. -/
def State.lane (z : State) (i : Issue) (sl : Slot) (op : TOp) : Res := z.tickRow (fun s => s.laneOp i.lane i.k (op.run sl))

/-- The cutoff of a unit whose engine belongs to its replay: its presence map alone (R306, R318). -/
def Dev.cutoffRow (d : Dev) : Dev :=
  if d.engOff then
    let d1 := d.atC 2048
    if d1.strmPaired then d1.mirSend (.presence d1.presence) else d1
  else d.streamCutoff

/-- A presence map that a CATCHUP unit takes by its deadline enters its replay ring (R318). -/
def Dev.presenceRecord2 (d : Dev) (p : PresMap) (c : Nat) : Dev :=
  if !d.strmPaired || p.tick != d.tick || 2200 < c then d else d.presenceRecord p

/-- A forwarded packet that it takes does too (R318). -/
def Dev.packetRecord2 (d : Dev) (tick ctx seq c : Nat) : Dev :=
  if !d.strmPaired || tick != d.tick || 4095 < c then d else d.packetRecord tick ctx seq

end Sys2Proof.Machine
end

