-- ==== Sys2Proof/Machine/ExecBus.lean ====
section
/-!
DEFINITION. The meanings of the rows of the bus matrix, DRAM, glean, the PCI Express link (R387 to R410).
-/
namespace Sys2Proof.Machine

/-- BUS_REQUEST (R387): A master's request is arbitrated at its target and served, or answered as a decode error. -/
def execBusRequest (q : BusReq) (c : Nat) (z : State) : Res := z.runRow (fun s => s.busRequest Sys.hostWrite q c)

/-- HELD_REQUEST_RELEASE (R389): A request held for ordering or credit is issued once it can proceed. -/
def execHeldRequestRelease (n c : Nat) (z : State) : Res := z.runRow (fun s => s.onDev (fun d => d.heldRelease n c))

/-- REFRESH_SLOT (R403): At a planned slot the controller issues a per-bank refresh, plus extras when the plan is thin. -/
def execRefreshSlot (ch c : Nat) (z : State) : Res := z.tickRow (fun s => s.onDev (fun d => d.refreshSlot ch c))

/-- MR4_READ (R403): At TSLOT of each even tick the refresh rate is read and DRAMCLASS updated. -/
def execMr4Read (v0 k0 v1 k1 : Nat) (z : State) : Res := z.tickRow (fun s => s.onDev (fun d => d.mr4Read v0 k0 v1 k1))

/-- GLEAN_SAMPLE (R407): In the odd tick of a period GLN takes each source's value into a frame. -/
def execGleanSample (c : Nat) (z : State) : Res := z.tickRow (fun s => s.onDev (fun d => d.gleanSample c))

/-- GLEAN_BLOCK_DONE (R409): Write responses for a block and its check entry raise the watermark. -/
def execGleanBlockDone (c : Nat) (z : State) : Res := z.tickRow (fun s => s.gleanBlockDone c)

/-- READBACK_DONE (R409): A readback finishes comparing block CRCs with the check table. -/
def execReadbackDone (c : Nat) (z : State) : Res := z.tickRow (fun s => s.readbackDone c)

/-- PERST (R418): PERST_N resets the PCIe endpoint and command-ring registers. -/
def execPerst (low : Bool) (c : Nat) (z : State) : Res := z.act (fun s => s.onDev (fun d => d.perst low c))

/-- PCIE_LINK_UP (R394): The PCIe link trains to a width and speed. -/
def execPcieLinkUp (width speed c : Nat) (z : State) : Res := z.runRow (fun s => s.onDev (fun d => d.pcieLinkUp width speed c))

/-- PCIE_LINK_DOWN (R399): The PCIe link goes down and host loss applies. -/
def execPcieLinkDown (c : Nat) (z : State) : Res := z.runRow (fun s => s.onDev (fun d => d.pcieLinkDown c))

end Sys2Proof.Machine
end

