-- ==== Sys2Proof/Machine/ExecClk.lean ====
section
/-!
DEFINITION. The meanings of the rows of clocks, references and time (R152 to R175).
-/
namespace Sys2Proof.Machine

/-- XO_LOSS (R164): No XO edge for 200 ns forces outputs high-impedance, drops the lease pins and asserts FAULT_N. -/
def execXoLoss (c : Nat) (z : State) : Res := z.runRow (fun s => s.xoLoss c)

/-- MDLL_UNLOCK (R164): Loss of MDLL lock has the same forced reaction as XO loss. -/
def execMdllUnlock (c : Nat) (z : State) : Res := z.runRow (fun s => s.mdllUnlock c)

/-- REF_LOS_DETECT (R152): A reference without an edge for its timeout enters LOS, possibly entering holdover or switching. -/
def execRefLosDetect (n c : Nat) (z : State) : Res := z.tickRow (fun s => s.onDev (fun d => d.refLosDetect n c))

/-- REF_ACTIVITY (R154): Activity resuming on a LOS reference moves it to QUALIFYING. -/
def execRefActivity (n c : Nat) (z : State) : Res := z.tickRow (fun s => s.onDev (fun d => d.refActivity n c))

/-- REF_MEASURE (R156): Each second the offsets are measured and windows, drift, disagreement and selection are evaluated in order. -/
def execRefMeasure (offs : List (Option Int)) (c : Nat) (z : State) : Res := z.tickRow (fun s => s.onDev (fun d => d.refMeasure offs c))

/-- WTR_EXPIRE (R154): A reference's wait-to-restore count reaches zero and it becomes QUALIFIED. -/
def execWtrExpire (n c : Nat) (z : State) : Res := z.tickRow (fun s => s.onDev (fun d => d.wtrExpire n c))

/-- DPLL_COMPARE (R160): At each comparison the phase detector updates the frequency word and lock state. -/
def execDpllCompare (n : Nat) (ph : Int) (c : Nat) (z : State) : Res := z.tickRow (fun s => s.onDev (fun d => d.dpllCompare n ph c))

/-- HISTORY_RECORD (R161): While LOCKED, the second's mean frequency word is recorded in the history ring. -/
def execHistoryRecord (c : Nat) (z : State) : Res := z.tickRow (fun s => s.onDev (fun d => d.historyRecord c))

/-- HOLDOVER_PREDICT (R162): Each second of holdover P(t) is computed and HOLD_LIMIT raised once when it exceeds the limit. -/
def execHoldoverPredict (c : Nat) (z : State) : Res := z.tickRow (fun s => s.onDev (fun d => d.holdoverPredict c))

/-- COMPARE_FIRE (R175): A compare unit reaches its target short time, records tick and cycle and re-arms or disarms. -/
def execCompareFire (k c : Nat) (z : State) : Res := z.tickRow (fun s => s.onDev (fun d => d.compareFire k c))

/-- TPLL_UNLOCK (R173): The time PLL loses lock and the counter holds its value. -/
def execTpllUnlock (c : Nat) (z : State) : Res := z.tickRow (fun s => s.onDev (fun d => d.tpllUnlock c))

/-- TPLL_RELOCK (R173): The time PLL relocks and the counter resumes, with the next map update a discontinuity. -/
def execTpllRelock (c : Nat) (z : State) : Res := z.tickRow (fun s => s.onDev (fun d => d.tpllRelock c))

end Sys2Proof.Machine
end

