-- ==== Sys2Proof/Machine/ExecCmd.lean ====
section
/-!
DEFINITION. The meanings of the rows of the host's commands in their frames (R329 to R342, R457).
-/
namespace Sys2Proof.Machine

/-- HELLO (R457): The unit answers with its nonce, identity, role, epoch, tick and per-slot counter records. -/
def execHello (f : CmdFrame) (z : State) : Res := z.runRow (fun s => s.cmdRow f 0x01 ([]))

/-- READ (R338): The command returns 1 to 256 register words from a given offset. -/
def execRead (f : CmdFrame) (off n : Nat) (z : State) : Res := z.runRow (fun s => s.cmdRow f 0x02 (leBytes 4 off ++ leBytes 4 n))

/-- WRITE (R339): The command places masked register writes on the agenda or executes them immediately. -/
def execWrite (f : CmdFrame) (ws : List Machine.RegWr) (z : State) : Res := z.runRow (fun s => s.cmdRow f 0x10 (writePay ws))

/-- STORE_WRITE (R340): The command writes data into the sheaf store at a byte offset. -/
def execStoreWrite (f : CmdFrame) (off : Nat) (data : List Byte) (z : State) : Res := z.runRow (fun s => s.cmdRow f 0x20 (leBytes 4 off ++ data))

/-- LOAD (R116): The command starts verification and loading of a sheaf image from the sheaf store. -/
def execLoad (f : CmdFrame) (off len : Nat) (z : State) : Res := z.runRow (fun s => s.cmdRow f 0x21 (leBytes 4 off ++ leBytes 4 len))

/-- ABORT (R121): The command ends a load in progress or discards a READY pending sheaf according to LOAD state. -/
def execAbort (f : CmdFrame) (z : State) : Res := z.runRow (fun s => s.cmdRow f 0x22 ([]))

/-- SWAP (R122): The command places a swap to the pending sheaf on the agenda for an even target tick. -/
def execSwap (f : CmdFrame) (z : State) : Res := z.runRow (fun s => s.cmdRow f 0x23 ([]))

/-- CELL (R126): The command places a parameter-cell write on the agenda after resolving its key. -/
def execCell (f : CmdFrame) (key : Nat) (val : List Byte) (z : State) : Res := z.runRow (fun s => s.cmdRow f 0x24 (leBytes 4 key ++ val))

/-- STEP (R172): The command places a signed nanosecond step of the time counter on the agenda. -/
def execStep (f : CmdFrame) (ofs : Int) (z : State) : Res := z.runRow (fun s => s.cmdRow f 0x30 (leBytes 8 (wrapN 64 ofs)))

/-- BBX_TRIGGER (R375): The command triggers the black box with a TRIGGER record. -/
def execBbxTrigger (f : CmdFrame) (reason : Nat) (z : State) : Res := z.runRow (fun s => s.cmdRow f 0x40 (leBytes 4 reason))

/-- KEY_LOAD (R342): The command unwraps a key blob under the root key and installs it in a slot. -/
def execKeyLoad (f : CmdFrame) (blob : List Byte) (z : State) : Res := z.runRow (fun s => s.cmdRow f 0x60 (blob))

/-- KEY_RETIRE (R344): The command empties a key slot and optionally burns fuses to raise its floor. -/
def execKeyRetire (f : CmdFrame) (k perm : Nat) (z : State) : Res :=
  z.runRow (fun s => s.cmdRow f 0x61 (leBytes 1 k ++ leBytes 1 perm ++ leBytes 2 0))

/-- SIGN_REVOKE (R346): The command burns the revocation fuse of a sheaf or boot signing-key hash. -/
def execSignRevoke (f : CmdFrame) (kind idx : Nat) (first : List Byte) (z : State) : Res :=
  z.runRow (fun s => s.cmdRow f 0x62 (leBytes 1 kind ++ leBytes 1 idx ++ leBytes 2 0 ++ first))

/-- PAIR_ENABLE (R302): The command enables pair mode as LEAD (ACTIVE) or FOLLOW (FALLOW). -/
def execPairEnable (f : CmdFrame) (arg : Nat) (z : State) : Res := z.runRow (fun s => s.cmdRow f 0x70 (leBytes 4 arg))

/-- PAIR_DISABLE (R302): The command returns an ISOLATED unit to standalone. -/
def execPairDisable (f : CmdFrame) (z : State) : Res := z.runRow (fun s => s.cmdRow f 0x71 ([]))

/-- TAKE (R302): The command makes a FALLOW unit ACTIVE when the lease has lapsed and HOLD_IN is inactive. -/
def execTake (f : CmdFrame) (z : State) : Res := z.runRow (fun s => s.cmdRow f 0x72 ([]))

/-- HANDOVER (R302): The command releases the lease to a SHADOW partner without a fault. -/
def execHandover (f : CmdFrame) (z : State) : Res := z.runRow (fun s => s.cmdRow f 0x73 ([]))

/-- ISOLATE (R302): The command moves a non-holding unit to ISOLATED. -/
def execIsolate (f : CmdFrame) (z : State) : Res := z.runRow (fun s => s.cmdRow f 0x74 ([]))

/-- REJOIN (R302): The command moves an ISOLATED unit to FALLOW. -/
def execRejoin (f : CmdFrame) (z : State) : Res := z.runRow (fun s => s.cmdRow f 0x75 ([]))

/-- RESYNC (R315): The command asks the lease holder to resynchronise a FALLOW partner. -/
def execResync (f : CmdFrame) (z : State) : Res := z.runRow (fun s => s.cmdRow f 0x76 ([]))

/-- MALFORMED_COMMAND (R333): A command whose frame fails step 1 or whose opcode is unknown is taken and answered with a refusal, with UNAUTH set where it failed before step 6. -/
def execMalformedCommand (src : Nat) (bytes : List Byte) (from_ : Option Machine.UdpFrom) (c : Nat) (z : State) : Res :=
  z.runRow (fun s => if malformed bytes then s.cmdArrive src bytes from_ c else s)

end Sys2Proof.Machine
end

