-- ==== Sys2Proof/Machine/ExecEng.lean ====
section
/-!
DEFINITION. The meanings of the rows of the scrubber and the end of a load (R65, R117).
-/
namespace Sys2Proof.Machine

/-- ECC_SCRUB (R65): The scrubber reads a memory word when its port is idle and corrects a single-bit error. -/
def execEccScrub (m : EccMem) (lane word : Nat) (dbl : Bool) (c : Nat) (z : State) : Res :=
  z.tickRow (fun s => s.onDev (fun d => d.eccScrub m lane word dbl c))

/-- LOAD_COMPLETE (R117): A sheaf load finishes its checks and reaches READY or REFUSED with a reason. -/
def execLoadComplete (ecc : Option Nat) (peer : PeerAns) (c : Nat) (z : State) : Res := z.runRow (fun s => s.loadComplete ecc peer c)

end Sys2Proof.Machine
end

