-- ==== Sys2Proof/Machine/ExecEth.lean ====
section
/-!
DEFINITION. The meanings of the rows of the Ethernet ports (R190 to R208).
-/
namespace Sys2Proof.Machine

/-- FRAME_RECEIVE (R193): A received Ethernet frame is checked by length and FCS, time-stamped if PTP, and classified. -/
def execFrameReceive (p : Nat) (bytes : List Byte) (rxer : Bool) (c : Nat) (z : State) : Res := z.tickRow (fun s => s.frameReceive p bytes rxer c)

/-- PAUSE_FRAME (R196): A PAUSE frame is counted and, with PAUSEEN, loads or stops the pause timer. -/
def execPauseFrame (p quanta c : Nat) (z : State) : Res := z.tickRow (fun s => s.onDev (fun d => d.pauseFrame p quanta c))

/-- PAUSE_EXPIRE (R196): The pause timer ends and frames may start again. -/
def execPauseExpire (p c : Nat) (z : State) : Res := z.tickRow (fun s => s.onDev (fun d => d.pauseExpire p c))

/-- HOST_FRAME_TRANSMIT (R198): A host frame at the head of its queue is sent, or completed with an error status. -/
def execHostFrameTransmit (p c : Nat) (z : State) : Res := z.tickRow (fun s => s.hostTransmit p c)

/-- LINK_DOWN (R208): An Ethernet port's link goes down. -/
def execLinkDown (p c : Nat) (z : State) : Res := z.tickRow (fun s => s.onDev (fun d => d.linkDown p c))

/-- LINK_UP (R208): An Ethernet port's link comes up. -/
def execLinkUp (p speed : Nat) (an : Bool) (c : Nat) (z : State) : Res := z.tickRow (fun s => s.onDev (fun d => d.linkUp p speed an c))

/-- MDIO_DONE (R190): An MDIO transaction completes and its read data is latched. -/
def execMdioDone (data c : Nat) (z : State) : Res := z.tickRow (fun s => s.onDev (fun d => d.mdioDone data c))

/-- PLCA_BEACON (R205): A PLCA BEACON is received, restoring status or flagging a foreign coordinator. -/
def execPlcaBeacon (c : Nat) (z : State) : Res := z.tickRow (fun s => s.onDev (fun d => d.plcaBeacon c))

/-- PLCA_LOST (R205): No valid BEACON for 4,000 bit times makes MACT fall back to CSMA/CD. -/
def execPlcaLost (c : Nat) (z : State) : Res := z.tickRow (fun s => s.onDev (fun d => d.plcaLost c))

/-- COLLISION (R206): A collision on the array bus causes backoff, or abandons the frame after 16 attempts or late. -/
def execCollision (bytes c : Nat) (z : State) : Res := z.tickRow (fun s => s.collision bytes c)

end Sys2Proof.Machine
end

