-- ==== Sys2Proof/Machine/ExecEvt.lean ====
section
/-!
DEFINITION. The meanings of the rows of temperature, events, black box, GPIO (R370 to R382, R434).
-/
namespace Sys2Proof.Machine

/-- THERM_SHUT (R285): The 160 °C comparator drives PWM_OUT and AMP_EN low, shuts down CLKOUT and latches. -/
def execThermShut (c : Nat) (z : State) : Res := z.runRow (fun s => s.onDev (fun d => d.thermShut c))

/-- THM_CONVERSION (R382): Every millisecond the sensors are converted and the warning and yield thresholds checked. -/
def execThmConversion (rd : List Int) (c : Nat) (z : State) : Res := z.tickRow (fun s => s.onDev (fun d => d.thmConversion rd c))

/-- EVENT_POSTING (R32): A block's posting reaches the EVT intake, or is dropped or shed and counted. -/
def execEventPosting (drop : Bool) (z : State) : Res := z.tickRow (fun s => s.onDev (fun d => if drop then d.postDrop else d.postDeliver))

/-- EVT_NUMBERING (R370): EVT numbers the postings of the previous tick into records and writes them to the black box. -/
def execEvtNumbering (c : Nat) (z : State) : Res := z.tickRow (fun s => (s.onDev (fun d => d.atC c)).evtNumbering)

/-- COALESCE_CLOSE (R373): An open record's coalescing window ends and the record closes. -/
def execCoalesceClose (c : Nat) (z : State) : Res := z.tickRow (fun s => (s.onDev (fun d => d.atC c)).coalesceClose)

/-- HOST_RING_WRITE (R374): EVT writes the next closed record to the host ring, or skips it, covering gaps with a DROP record. -/
def execHostRingWrite (c : Nat) (z : State) : Res := z.tickRow (fun s => (s.onDev (fun d => d.atC c)).hostRingWrite)

/-- WDOG_EXPIRE (R379): The watchdog times out, raises WDOG_EXPIRED and on its first expiry triggers the black box. -/
def execWdogExpire (c : Nat) (z : State) : Res := z.runRow (fun s => s.onDev (fun d => d.wdogExpire c))

/-- GPIO_EDGE (R434): A detected (debounced) edge on a GPIO pin sets EDGE, records its tick and raises EDGE. -/
def execGpioEdge (pins c : Nat) (z : State) : Res := z.runRow (fun s => s.onDev (fun d => d.gpioEdge pins c))

end Sys2Proof.Machine
end

