-- ==== Sys2Proof/Machine/ExecIo.lean ====
section
/-!
DEFINITION. The meanings of the rows of serial ports, PDM, modulators and sense lanes (R239 to R285).
-/
namespace Sys2Proof.Machine

/-- TDM_FRAME_RX (R239): A received serial-port frame is filtered and captured into the local section. -/
def execTdmFrameRx (p : Nat) (words : List Nat) (bclks : Nat) (off : Int) (near : Bool) (c : Nat) (z : State) : Res :=
  z.tickRow (fun s => s.tdmRx p words bclks off near c)

/-- TDM_FRAME_TX (R240): A transmit frame sends the drained words of its slots, repeating stale ones. -/
def execTdmFrameTx (p c : Nat) (z : State) : Res := z.tickRow (fun s => s.onDev (fun d => d.tdmTx p c))

/-- MISSING_FRAME (R244): A slave frame with a wrong BCLK count or no FS for 1.5 periods starts a fade. -/
def execMissingFrame (p bclks c : Nat) (z : State) : Res := z.tickRow (fun s => s.onDev (fun d => d.tdmMissingFrame p bclks c))

/-- SLIP_ACCESS (R242): The tick side reads or writes a foreign-clock slip buffer, repeating, dropping or fading. -/
def execSlipAccess (p dir c : Nat) (z : State) : Res := z.tickRow (fun s => s.slipAccess p dir c)

/-- ALIGN_RETURN (R241): After 16 frames inside the window a synchronous slave returns to service. -/
def execAlignReturn (p c : Nat) (z : State) : Res := z.tickRow (fun s => s.onDev (fun d => d.tdmAlignReturn p c))

/-- GANG_REJOIN (R246): After 16 aligned frames a gang member rejoins at the leader's frame count. -/
def execGangRejoin (p c : Nat) (z : State) : Res := z.tickRow (fun s => s.onDev (fun d => d.tdmGangRejoin p c))

/-- PDM_STUCK (R253): A channel delivering one bit value for 4,096 clock periods is flagged stuck. -/
def execPdmStuck (ch c : Nat) (z : State) : Res := z.tickRow (fun s => s.onDev (fun d => d.pdmStuckRow ch c))

/-- DEC_SETTLED (R262): A decimator channel reaches output U and delivers settled outputs. -/
def execDecSettled (ch c : Nat) (z : State) : Res := z.tickRow (fun s => s.onDev (fun d => d.decSettled ch c))

/-- SUPERFRAME (R274): A sense superframe is received, checked, used or replaced, and the lane state updated. -/
def execSuperframe (g sf bits arr c : Nat) (z : State) : Res := z.tickRow (fun s => s.onDev (fun d => d.superframe g sf bits arr c))

/-- SHORT_LATCH (R280): LATCHN consecutive limited periods latch the channel off. -/
def execShortLatch (ch c : Nat) (z : State) : Res := z.tickRow (fun s => s.onDev (fun d => d.shortLatch ch c))

/-- RETRY (R280): RETRYT ticks after a latch the channel restarts with a ramp. -/
def execRetry (ch : Nat) (z : State) : Res := z.tickRow (fun s => s.onDev (fun d => d.retry ch))

/-- CARRIER_PERIOD (R270): A channel's carrier period starts with its quantised high time centred in the period. -/
def execCarrierPeriod (ch j c : Nat) (z : State) : Res := z.tickRow (fun s => s.onDev (fun d => d.carrierPeriod ch j c))

/-- LOOP_COMPUTE (R278): From cycle 4,096 the loop computes the modulation values of the next tick's periods. -/
def execLoopCompute (z : State) : Res := z.tickRow (fun s => s.onDev (fun d => d.loopCompute))

/-- AMP_EN_RISE (R282): At the first boundary 16 ticks after start with the lane UP, AMP_EN rises. -/
def execAmpEnRise (g : Nat) (z : State) : Res := z.tickRow (fun s => s.onDev (fun d => d.ampEnRise g))

/-- GROUP_STOP (R282): 16 ticks after AMP_EN falls every PWM_OUT of the group is static low and RUN clears. -/
def execGroupStop (g : Nat) (z : State) : Res := z.tickRow (fun s => s.onDev (fun d => d.groupStop g))

/-- DRV_FAULT (R283): AMP_FLT_N low for 64 cycles drops AMP_EN and puts the group in DRVOFF. -/
def execDrvFault (g c : Nat) (z : State) : Res := z.tickRow (fun s => s.onDev (fun d => d.drvFault g c))

end Sys2Proof.Machine
end

