-- ==== Sys2Proof/Machine/ExecPair.lean ====
section
/-!
DEFINITION. The meanings of the rows of the redundant pair: STATUS, lease, mirrored traffic, resynchronisation (R287, R295 to R324, R337).
-/
namespace Sys2Proof.Machine

/-- STATUS_SEND (R295): At cycle 10,048 each paired unit sends its STATUS frame with heartbeat, epoch, yields, digests and map values. -/
def execStatusSend (z : State) : Res := z.tickRow (fun s => s.onDev (fun d => d.statusSend))

/-- STATUS_RECEIVE (R296): A STATUS frame from the partner is taken for heartbeat, release, yield, epoch and digest use. -/
def execStatusReceive (f : Machine.StatusF) (h : MirHdr) (z : State) : Res := z.mirRow h (fun s => s.onDev (fun d => d.statusReceive f h.c))

/-- TICK_ADOPT (R304): A FALLOW unit locked to PARTNER adopts the partner's tick number at the next boundary. -/
def execTickAdopt (c : Nat) (z : State) : Res := z.tickRow (fun s => s.onDev (fun d => d.tickAdopt c))

/-- LEASE_KEEPER_EXPIRE (R29): The AO lease keeper deasserts HOLD_OUT and OWN_OUT after 3 ticks without a renewal. -/
def execLeaseKeeperExpire (c : Nat) (z : State) : Res := z.act (fun s => s.onDev (fun d => d.leaseKeeper c))

/-- LEASE_LAPSE (R296): Three ticks without a valid heartbeat end the partner's lease at the boundary into N + 4. -/
def execLeaseLapse (z : State) : Res := z.tickRow (fun s => s.onDev (fun d => d.leaseLapse))

/-- TAKEOVER (R297): At cycle 256 a SHADOW takes an ended lease if HOLD_IN stayed inactive, or goes FALLOW if it did not. -/
def execTakeover (hold : Bool) (z : State) : Res := z.tickRow (fun s => s.onDev (fun d => d.takeover hold))

/-- BRIDGE (R299): Unit A drives OWN_OUT when HOLD_IN and PARTNER_OWN_IN have been inactive for 64 cycles without a release. -/
def execBridge (c : Nat) (z : State) : Res := z.tickRow (fun s => s.onDev (fun d => d.bridge c))

/-- BRIDGE_END (R299): The bridge ends when A takes the lease or HOLD_IN is active again with heartbeats. -/
def execBridgeEnd (c : Nat) (z : State) : Res := z.tickRow (fun s => s.onDev (fun d => d.bridgeOver c))

/-- LOCAL_INPUT_RECEIVE (R305): A partner buffers forwarded local inputs and writes them into the forward landing half. -/
def execLocalInputReceive (dest : Nat) (words : List (Nat × Nat)) (decs : List (Nat × Nat × Nat)) (h : MirHdr) (z : State) : Res :=
  z.mirRow h (fun s => s.localsReceive dest words decs h.c)

/-- FORWARD_LANDING_FILL (R305): At cycle 1,023 words not landed are filled from the unit's own local section and FWD_MISS is raised. -/
def execForwardLandingFill (z : State) : Res := z.tickRow (fun s => s.landingFill)

/-- PRESENCE_MAP_RECEIVE (R306): A partner's presence map is taken, presence is agreed and lacking packets are forwarded. -/
def execPresenceMapReceive (p : Machine.PresMap) (h : MirHdr) (z : State) : Res :=
  z.mirRow h (fun s => s.onDev (fun d => (d.presenceReceive p h.c).presenceRecord2 p h.c))

/-- FORWARDED_PACKET_RECEIVE (R306): A stream packet forwarded by the partner is held for the release. -/
def execForwardedPacketReceive (tick ctx seq ts : Nat) (pay : List Byte) (h : MirHdr) (z : State) : Res :=
  z.mirRow h (fun s => s.onDev (fun d => (d.packetReceive tick ctx seq ts pay h.c).packetRecord2 tick ctx seq h.c))

/-- MOD_BLOCK_SEND (R287): At cycle 2,560 the lease holder sends the MOD block of the previous tick. -/
def execModBlockSend (z : State) : Res := z.tickRow (fun s => s.onDev (fun d => d.modBlockSend))

/-- MOD_BLOCK_RECEIVE (R287): A SHADOW takes the forwarded MOD block, compares it with its own state and raises MOD_DIVERGE on a difference. -/
def execModBlockReceive (b : Machine.ModBlk) (h : MirHdr) (z : State) : Res := z.mirRow h (fun s => s.onDev (fun d => d.modBlockRecv b h.c))

/-- FWD_MISSING (R287): A MOD block not landed by cycle 3,840 leaves the SHADOW on its own data. -/
def execFwdMissing (z : State) : Res := z.tickRow (fun s => s.onDev (fun d => d.fwdMissing))

/-- MIRRORED_COMMAND_RECEIVE (R307): A partner checks a mirrored command against its agenda and returns CONFIRM, records it for replay, or refuses it. -/
def execMirroredCommandReceive (m : Machine.MirCmd) (h : MirHdr) (z : State) : Res := z.mirRow h (fun s => s.onDev (fun d => d.mirroredReceive m h.c))

/-- CONFIRM_RECEIVE (R337): A CONFIRM or refusal from the partner acknowledges or removes the held command. -/
def execConfirmReceive (slot ctr reason : Nat) (h : MirHdr) (z : State) : Res := z.mirRow h (fun s => s.confirmReceive slot ctr reason h.c)

/-- CONFIRM_TIMEOUT (R307): No CONFIRM within 2 ticks refuses the command with PEER and sends CANCEL. -/
def execConfirmTimeout (slot ctr c : Nat) (z : State) : Res := z.tickRow (fun s => s.confirmTimeout slot ctr c)

/-- COMMAND_RESOLVE_DEADLINE (R337): A command still unresolved at cycle 9,856 of the tick before its target is cancelled with PEER. -/
def execCommandResolveDeadline (z : State) : Res := z.tickRow (fun s => s.resolveDeadline)

/-- CANCEL_RECEIVE (R337): A CANCEL removes an unacknowledged entry from the partner's agenda. -/
def execCancelReceive (slot ctr : Nat) (h : MirHdr) (z : State) : Res := z.mirRow h (fun s => s.onDev (fun d => d.cancelReceive slot ctr h.c))

/-- SENT_ACK_SEND (R314): Every 1,024 cycles the lease holder sends batched sent-acknowledgements. -/
def execSentAckSend (c : Nat) (z : State) : Res := z.tickRow (fun s => s.onDev (fun d => d.sentAckSend c))

/-- SENT_ACK_RECEIVE (R314): A SHADOW drops the held packets that the sent-acknowledgements cover. -/
def execSentAckReceive (acks : List (Nat × Nat × Nat)) (h : MirHdr) (z : State) : Res := z.mirRow h (fun s => s.onDev (fun d => d.sentAckReceive acks h.c))

/-- TX_HANDOVER (R314): At cycle 0 of q + 3 a SHADOW queues held packets whose acknowledgement is overdue. -/
def execTxHandover (z : State) : Res := z.tickRow (fun s => s.onDev (fun d => d.txHandover))

/-- RETRANSMISSION_REQUEST (R322): A retransmission request from the partner makes the unit resend the named frame. -/
def execRetransmissionRequest (ty seq : Nat) (h : MirHdr) (z : State) : Res := z.mirRow h (fun s => s.onDev (fun d => d.retransmit ty seq h.c))

/-- SHEAF_COPY_RECEIVE (R120): A sheaf-store copy frame is written at the same offset of the partner's store. -/
def execSheafCopyReceive (off : Nat) (bytes : List Byte) (load : Option (Nat × Nat)) (h : MirHdr) (z : State) : Res :=
  z.mirRow h (fun s => s.sheafCopyReceive off bytes load h.c)

/-- RESYNC_CONTROL_RECEIVE (R315): A resynchronisation control frame delivers the snapshot tick, start or abort. -/
def execResyncControlReceive (kind tick : Nat) (h : MirHdr) (z : State) : Res := z.mirRow h (fun s => s.onDev (fun d => d.resyncControl kind tick h.c))

/-- IMAGE_BULK_RECEIVE (R318): An image bulk frame is stored and installed through the load ports. -/
def execImageBulkReceive (off : Nat) (bytes : List Byte) (blk : Option Machine.BlockState) (h : MirHdr) (z : State) : Res :=
  z.mirRow h (fun s => s.imageReceive off bytes blk h.c)

/-- DELAY_BULK_RECEIVE (R317): A delay-region bulk frame is written to its DRAM address. -/
def execDelayBulkReceive (parts : List (Nat × List Byte)) (h : MirHdr) (z : State) : Res := z.mirRow h (fun s => s.delayReceive parts h.c)

/-- DISPLACED_FRAME_RECEIVE (R317): A displaced frame holding contents as at T is written to its DRAM address. -/
def execDisplacedFrameReceive (addr : Nat) (bytes : List Byte) (h : MirHdr) (z : State) : Res := z.mirRow h (fun s => s.delayReceive [(addr, bytes)] h.c)

/-- UNIT_IDENTITY_RECEIVE (R14): The partner's SYS.ID and DRAM configuration are compared, and a mismatch isolates the non-holding unit. -/
def execUnitIdentityReceive (sysid dram : Nat) (h : MirHdr) (z : State) : Res := z.mirRow h (fun s => s.onDev (fun d => d.identityReceive sysid dram h.c))

/-- UNKNOWN_TYPE_FRAME (R458): A mirror frame of unknown TYPE is dropped and counted as a check failure. -/
def execUnknownTypeFrame (ty seq lane c : Nat) (z : State) : Res := z.tickRow (fun s => s.onDev (fun d => d.unknownFrame ty seq lane c))

/-- FRAME_LATE (R322): A real-time mirror frame that misses its deadline is dropped and its class rule applies. -/
def execFrameLate (ty seq c : Nat) (z : State) : Res := z.tickRow (fun s => s.onDev (fun d => d.frameLate ty seq c))

/-- MIR_LANE_DOWN (R324): A mirror lane without a valid block for 1,024 cycles goes down. -/
def execMirLaneDown (n c : Nat) (z : State) : Res := z.tickRow (fun s => s.onDev (fun d => d.mirLaneDown n c))

/-- MIR_LINK_DOWN (R324): With no valid block on either lane for 1,024 cycles the link goes down and PARTNER enters LOS. -/
def execMirLinkDown (c : Nat) (z : State) : Res := z.tickRow (fun s => s.onDev (fun d => d.mirLinkDown c))

/-- MIR_LANE_UP (R324): A lane with 64 ticks of error-free blocks comes up. -/
def execMirLaneUp (n ps c : Nat) (z : State) : Res := z.tickRow (fun s => s.onDev (fun d => d.mirLaneUp n ps c))

/-- RESYNC_START (R315): The lease holder starts a resynchronisation once its conditions hold, or aborts with cause 6 and re-evaluates 96,000 ticks later. -/
def execResyncStart (c : Nat) (z : State) : Res := z.tickRow (fun s => s.onDev (fun d => d.resyncStart c))

/-- RESYNC_FREEZE (R316): At the boundary into T the image is frozen by copy-on-write and the partner enters CATCHUP. -/
def execResyncFreeze (z : State) : Res := z.tickRow (fun s => s.resyncFreeze)

/-- IMAGE_SENT (R316): The image has been sent and the freeze ends. -/
def execImageSent (c : Nat) (z : State) : Res := z.tickRow (fun s => s.onDev (fun d => d.imageSent c))

/-- DELAY_COPY_DONE (R317): The last delay frame is held and replay can begin. -/
def execDelayCopyDone (c : Nat) (z : State) : Res := z.tickRow (fun s => s.delayCopyDone c)

/-- REPLAY_TICK (R319): A CATCHUP unit replays one recorded tick, applying commands and comparing digests. -/
def execReplayTick (c : Nat) (z : State) : Res := z.tickRow (fun s => s.replayTick c)

/-- BECOME_SHADOW (R320): After 96,000 consecutive clean compared ticks the unit becomes SHADOW. -/
def execBecomeShadow (z : State) : Res := z.tickRow (fun s => s.onDev (fun d => d.becomeShadow))

end Sys2Proof.Machine
end

