-- ==== Sys2Proof/Machine/ExecPower.lean ====
section
/-!
DEFINITION. The meanings of the rows of resets, boot, domains, entropy and fuses (R332, R346, R367, R415 to R428).
-/
namespace Sys2Proof.Machine

/-- POWER_ON_RESET (R418): POR_N resets everything, AO included, and boot follows its release. -/
def execPowerOnReset (bootsel : Nat) (pairId testmode : Bool) (z : State) : Res := z.act (fun s => s.powerOnReset bootsel pairId testmode)

/-- WARM_RESET (R420): RESET_N forces outputs high-impedance, puts DRAM in self-refresh and resets all domains but AO. -/
def execWarmReset (bootsel : Nat) (pairId testmode : Bool) (z : State) : Res := z.act (fun s => s.warmReset bootsel pairId testmode)

/-- BOOT (R425): The boot sequencer reads, checks and applies a signed boot image and may load a sheaf. -/
def execBoot (slot0 slot1 : Option (List Byte)) (sheaf : List Byte) (train : Bool) (c : Nat) (z : State) : Res :=
  z.runRow (fun s => s.boot slot0 slot1 sheaf train c)

/-- MDLL_LOCK (R425): The MDLL first locks and tick 0 begins. -/
def execMdllLock (z : State) : Res := z.runRow (fun s => s.onDev (fun d => d.mdllLock))

/-- BOOT_PCIE_TIMEOUT (R428): No complete PCIe boot image within 10 s fails the boot step with CODE 1. -/
def execBootPcieTimeout (c : Nat) (z : State) : Res := z.runRow (fun s => s.bootTimeout c)

/-- NONCE_DRAW (R332): A session nonce is drawn from TRNG output that has passed its health tests. -/
def execNonceDraw (nonce c : Nat) (z : State) : Res := z.runRow (fun s => s.onDev (fun d => (d.atC c).nonceDraw nonce))

/-- TRNG_HEALTH (R332): A TRNG health test fails and the next nonce draw waits. -/
def execTrngHealth (test c : Nat) (z : State) : Res := z.runRow (fun s => s.onDev (fun d => (d.atC c).trngFail test))

/-- FUSE_DONE (R346): An OTP fuse operation completes and CMD resumes taking commands. -/
def execFuseDone (err : Option Nat) (c : Nat) (z : State) : Res := z.act (fun s => (s.onDev (fun d => (d.atC c).fuseDone err)).cmdRun)

/-- DOMAIN_READY (R415): A domain switched on becomes usable and DOMSTAT.ON is set. -/
def execDomainReady (k c : Nat) (z : State) : Res := z.runRow (fun s => s.onDev (fun d => d.domReady k c))

/-- XO_EDGES_RETURN (R420): XO edges return after a loss, SYN.STAT.XOOK is set, and a device held in reset by the missing XO leaves reset and starts boot. -/
def execXoEdgesReturn (z : State) : Res := z.act (fun s => s.onDev (fun d => d.xoReturn))

/-- PLANE_RESET_END (R418): The 8-tick control-plane or management-plane reset ends: the plane resumes, CMD and the host-ring writer restart, and a paired unit enters FALLOW after a management-plane reset. -/
def execPlaneResetEnd (c : Nat) (z : State) : Res := z.tickRow (fun s => s.planeResetEnd c)

/-- TRNG_SOURCE_PASSES_AGAIN (R332): The TRNG source passes its health tests again and KEY.TRNGSTAT.HEALTHY returns to 1. -/
def execTrngSourcePassesAgain (c : Nat) (z : State) : Res := z.runRow (fun s => s.onDev (fun d => (d.atC c).trngPass))

/-- FACTORY_TEST_UNLOCK (R367): An unlock word written through JTAG, with TESTMODE high at POR_N release, enters factory test mode, holding the power and pair outputs low and FAULT_N asserted. -/
def execFactoryTestUnlock (c : Nat) (z : State) : Res := z.runRow (fun s => s.onDev (fun d => d.factoryUnlock c))

end Sys2Proof.Machine
end

