-- ==== Sys2Proof/Machine/ExecReg.lean ====
section
/-!
DEFINITION. The meanings of the rows of register writes and reads that have a row of their own, and those that have none (R6, R7, R11, R31, R37).
-/
namespace Sys2Proof.Machine

/-- CTRL_PLANE_RESET (R28): A write of PWR.RST.CTRL resets the control plane for 8 ticks, discarding unacknowledged commands and drawing a new nonce. -/
def execCtrlPlaneReset (c : Nat) (z : State) : Res := z.runRow (fun s => (s.onDev (fun d => d.atC c)).hostWrite R.pwrRst 1)

/-- MGMT_PLANE_RESET (R29): A write of PWR.RST.MGMT resets the management plane for 8 ticks, stopping heartbeats and host-ring writing. -/
def execMgmtPlaneReset (c : Nat) (z : State) : Res := z.runRow (fun s => (s.onDev (fun d => d.atC c)).hostWrite R.pwrRst 2)

/-- COMMIT_STROBE (R37): A write of COMMIT.GO sets a group's pending bit for capture, or is ignored if already pending. -/
def execCommitStrobe (v : RegVia) (blk groups : Nat) (z : State) : Res := z.runRow (fun s => s.regOp v (R.commit blk) (0xFFFFFFFF) (groups))

/-- REGISTER_WRITE (R31): A direct or commanded write to a register without a row of its own is applied under its class or refused. -/
def execRegisterWrite (v : RegVia) (off mask data : Nat) (z : State) : Res := z.runRow (fun s => s.regOp v (off) (mask) (data))

/-- FAULT_STATUS_CLEAR (R358): A W1C of a FLTSTAT bit clears it and empties FLTFIRST if that source was first. -/
def execFaultStatusClear (v : RegVia) (blk mask : Nat) (z : State) : Res := z.runRow (fun s => s.regOp v (R.fltstat blk) (0xFFFFFFFF) (mask))

/-- COUNTER_READ (R6): A low-word read of a 64-bit counter returns it, latches the high word and clears the counter. -/
def execCounterRead (off c : Nat) (z : State) : Res :=
  z.runRow (fun s => s.readIf (fun r => r.kind == .wideRC && off / 4 * 4 % 8 == r.base % 8) off c)

/-- HIGH_WATER_READ (R456): A read of a highest-value RC field returns it and restarts it from the present level or from zero. -/
def execHighWaterRead (off c : Nat) (z : State) : Res := z.runRow (fun s => s.readIf (fun r => r.kind == .plain && r.rc != 0) off c)

/-- LATCHING_READ (R11): A low-word read of a multi-word status value latches its high word and companions from the same instant. -/
def execLatchingRead (off c : Nat) (z : State) : Res :=
  z.runRow (fun s => s.readIf (fun r => (r.kind == .wideRO && off / 4 * 4 % 8 == r.base % 8) || off / 4 * 4 == R.timeNowlo) off c)

/-- TSQ_READ (R187): A read of word 0 of a transmit time-stamp queue moves its oldest entry into the latch. -/
def execTsqRead (p c : Nat) (z : State) : Res := z.runRow (fun s => if p < 3 then (s.onDev (fun d => d.atC c)).hostRead (R.timeTsq p 0) else s)

/-- RING_TAIL_WRITE (R200): A host write of a ring's TAIL hands descriptors with OWN set to the device. -/
def execRingTailWrite (off idx c : Nat) (z : State) : Res :=
  z.runRow (fun s => if tailReg off then (s.onDev (fun d => d.atC c)).hostWrite off idx else s)

/-- FORCE_LANE_PARITY (R366): ENG.FORCE.PAR injects one parity error in the lowest lane of a cluster at the next running tick. -/
def execForceLaneParity (v : RegVia) (par : Nat) (z : State) : Res := z.runRow (fun s => s.regOp v (R.engForce) (0xFFFFFFFF) (par))

/-- FORCE_REF_LOS (R366): CLK.FORCE.LOS holds a reference in LOS while set. -/
def execForceRefLos (v : RegVia) (los : Nat) (z : State) : Res := z.runRow (fun s => s.regOp v (R.clkForce) (0xFFFFFFFF) (los))

/-- FORCE_HB_SUPPRESS (R366): PAIR.FORCE.HBSUP suppresses sent heartbeats while set. -/
def execForceHbSuppress (v : RegVia) (on : Bool) (z : State) : Res := z.runRow (fun s => s.regOp v (R.pairForce) (1) (b2n on))

/-- FORCE_DIGEST (R366): PAIR.FORCE.DIG corrupts the next sent DS, DT or both digests. -/
def execForceDigest (v : RegVia) (dig : Nat) (z : State) : Res := z.runRow (fun s => s.regOp v (R.pairForce) (6) (2 * dig))

/-- FORCE_MOD_OVERCURRENT (R279): MOD.FORCE sets a channel's fast current beyond ILIM in every superframe while set. -/
def execForceModOvercurrent (v : RegVia) (oc : Nat) (z : State) : Res :=
  z.runRow (fun s => (s.regOp v R.modForce0 0xFFFFFFFF (oc % 2 ^ 32)).regOp v R.modForce1 0xFFFFFFFF (oc / 2 ^ 32))

/-- MOD_CLEAR (R280): MOD.CLEAR restarts a latched channel and zeroes its retry count. -/
def execModClear (v : RegVia) (ch : Nat) (z : State) : Res :=
  z.runRow (fun s => (s.regOp v R.modClear0 0xFFFFFFFF (ch % 2 ^ 32)).regOp v R.modClear1 0xFFFFFFFF (ch / 2 ^ 32))

/-- FORCE_SNS_CRC (R366): SNS.FORCE makes a lane's next superframes fail their CRC. -/
def execForceSnsCrc (v : RegVia) (crc : Nat) (z : State) : Res := z.runRow (fun s => s.regOp v (R.snsForce) (0xFFFFFFFF) (crc))

/-- FORCE_DRAM_ERROR (R406): DDR.FORCE.ARM makes the named master's next 64-byte read uncorrectable. -/
def execForceDramError (v : RegVia) (master : Nat) (z : State) : Res :=
  z.runRow (fun s => s.regOp v (R.ddrForce) (0xFFFFFFFF) (1 + 16 * (master % 16)))

/-- FORCE_LINK_DOWN (R203): MAC FORCE.LINKDOWN holds an audio port's transmitter idle and treats its link as down. -/
def execForceLinkDown (v : RegVia) (p : Nat) (on : Bool) (z : State) : Res :=
  z.runRow (fun s => if p < 2 then s.regOp v (R.macForce (macBlk p)) 1 (b2n on) else s)

/-- FAULT_CLEAR (R365): BBX.FAULT.CLR clears FAULT_N at its target boundary unless a yield, clock loss or thermal yield holds it. -/
def execFaultClear (v : RegVia) (z : State) : Res := z.runRow (fun s => s.regOp v (R.bbxFault) (256) (256))

/-- BBX_REARM (R377): BBX.CTRL.REARM clears FROZEN and the trigger fields and resumes writing the ring. -/
def execBbxRearm (v : RegVia) (z : State) : Res := z.runRow (fun s => s.regOp v (R.bbxCtrl) (2 ^ 31) (2 ^ 31))

/-- WDOG_KICK (R379): A write of BBX.WDKICK restarts the watchdog. -/
def execWdogKick (v : RegVia) (z : State) : Res := z.runRow (fun s => s.regOp v (R.bbxWdkick) (0xFFFFFFFF) (1))

/-- VECTOR_RESEND (R380): EVT.RESEND sends the named MSI-X vectors again if their lines are still asserted. -/
def execVectorResend (v : RegVia) (vec : Nat) (z : State) : Res := z.runRow (fun s => s.regOp v (R.evtResend) (0xFFFFFFFF) (vec))

/-- READBACK_GO (R409): GLN.RBCTL.GO starts a readback that recomputes glean block CRCs. -/
def execReadbackGo (v : RegVia) (count : Nat) (z : State) : Res := z.runRow (fun s => s.regOp v (R.glnRbctl) (0xFFFFFFFF) (2 ^ 31 + count % 65536))

/-- MDIO_GO (R190): MDIOCMD.GO starts one Clause 22 or Clause 45 MDIO transaction. -/
def execMdioGo (v : RegVia) (word : Nat) (z : State) : Res := z.runRow (fun s => s.regOp v (R.macMdiocmd 12) (0xFFFFFFFF) (2 ^ 31 + word % 2 ^ 31))

/-- SLEEP (R416): PWR.SLEEP.EN stops the engine and ports, puts DRAM in self-refresh and switches off all but AO. -/
def execSleep (v : RegVia) (z : State) : Res := z.runRow (fun s => s.regOp v (R.pwrSleep) (0xFFFFFFFF) (1))

/-- THERM_CLEAR (R430): PWR.THERM.CLR clears the thermal shutdown latch if TJ is below 150 °C and restarts enabled groups and clocks. -/
def execThermClear (v : RegVia) (z : State) : Res := z.runRow (fun s => s.regOp v (R.pwrTherm) (256) (256))

/-- DOMAIN_SWITCH (R415): PWR.DOMCTL switches a permitted power domain on or off at its target boundary, or refuses the switch-off. -/
def execDomainSwitch (v : RegVia) (on : Nat) (z : State) : Res := z.runRow (fun s => s.regOp v (R.pwrDomctl) (0xFFFFFFFF) (on))

/-- STEPACC_CLEAR (R181): A commanded write of TIME.STEPACC clears it and reselects the PTP virtual reference in its return mode. -/
def execStepaccClear (v : RegVia) (z : State) : Res := z.runRow (fun s => s.regOp v (R.timeStepacc) (0xFFFFFFFF) (0))

/-- TIME_INC_WRITE (R170): A write of TIME.INC sets the counter increment fraction, clamped to ±200 ppm. -/
def execTimeIncWrite (v : RegVia) (frac : Nat) (z : State) : Res := z.runRow (fun s => s.regOp v (R.timeInc) (0xFFFFFFFF) (frac))

/-- COMPARE_ARM (R175): A write of CMPCFG.EN arms a time compare unit. -/
def execCompareArm (v : RegVia) (k period : Nat) (z : State) : Res :=
  z.runRow (fun s => if k < 4 then s.regOp v (R.timeCmpcfg k) (0xFFFFFFFF) (2 ^ 31 + period % 2 ^ 30) else s)

/-- LOCKNC_SET (R347): Setting CMD.POLICY.LOCKNC makes every direct data-plane write refused as critical until reset. -/
def execLockncSet (v : RegVia) (z : State) : Res := z.runRow (fun s => s.regOp v (R.cmdPolicy) (2) (2))

/-- BOOT_DATA_WRITE (R428): A write of SYS.BOOTDATA appends one word of a PCIe boot image, and the last word starts checking. -/
def execBootDataWrite (word : Nat) (train : Bool) (c : Nat) (z : State) : Res := z.runRow (fun s => (s.onDev (fun d => d.atC c)).bootData word train)

/-- D_STATE_CHANGE (R397): A configuration write moves the PCIe function between D0 and D3hot. -/
def execDStateChange (ds : Nat) (pmeEn clear : Bool) (c : Nat) (z : State) : Res := z.runRow (fun s => s.onDev (fun d => d.dState ds pmeEn clear c))

/-- FUNCTION_LEVEL_RESET (R398): A Function Level Reset resets PCIE configuration space and the command and reply ring registers. -/
def execFunctionLevelReset (c : Nat) (z : State) : Res := z.runRow (fun s => s.onDev (fun d => d.flr c))

/-- MSIX_UNMASK (R398): An unmask of an MSI-X table entry, or setting Bus Master Enable, sends the messages held pending in the pending-bit array. -/
def execMsixUnmask (mem bus en : Bool) (mask c : Nat) (z : State) : Res := z.runRow (fun s => s.onDev (fun d => d.msixWrite mem bus en mask c))

end Sys2Proof.Machine
end

