-- ==== Sys2Proof/Machine/ExecStrm.lean ====
section
/-!
DEFINITION. The meanings of the rows of network streams (R216 to R233).
-/
namespace Sys2Proof.Machine

/-- STREAM_CUTOFF (R216): At cycle 2,048 of a release tick the presence of each due sample is fixed. -/
def execStreamCutoff (z : State) : Res := z.tickRow (fun s => s.onDev (fun d => d.cutoffRow))

/-- STREAM_RELEASE (R217): From cycle 4,096 each receive context writes its frame into its region, concealing absent samples. -/
def execStreamRelease (z : State) : Res := z.tickRow (fun s => if s.dev.engOff then s.onDev (fun d => d.atC 4096) else s.streamRelease)

/-- ARRIVAL_WINDOW (R224): At the end of each 9,600-tick window the minimum margin is compared and RX_ARRJUMP raised on a jump. -/
def execArrivalWindow (z : State) : Res := z.tickRow (fun s => s.onDev (fun d => d.arrivalWindow))

/-- LEG_DOWN (R227): A 2022-7 leg without a packet for 960 ticks is marked down. -/
def execLegDown (ctx leg c : Nat) (z : State) : Res := z.tickRow (fun s => s.onDev (fun d => d.legDown ctx leg c))

/-- STREAM_PACKET_QUEUE (R229): Every P ticks a transmit context forms a packet and queues it. -/
def execStreamPacketQueue (ctx : Nat) (z : State) : Res := z.tickRow (fun s => if s.dev.engOff then s else s.onDev (fun d => d.packetQueue ctx))

/-- STREAM_PACKET_SEND (R231): A queued stream packet starts on the line and is acknowledged to the partner. -/
def execStreamPacketSend (p c : Nat) (z : State) : Res := z.tickRow (fun s => s.onDev (fun d => d.packetSend p c))

/-- STREAM_TX_LATE (R231): A packet not started before the boundary into q + 2 is dropped as TX_LATE. -/
def execStreamTxLate (p : Nat) (z : State) : Res := z.tickRow (fun s => s.onDev (fun d => d.txLate p))

end Sys2Proof.Machine
end

