-- ==== Sys2Proof/Machine/ExecTick.lean ====
section
/-!
DEFINITION. The meanings of the rows of the tick: its boundary, the capture point, the headland (R15 to R18, R330).
-/
namespace Sys2Proof.Machine

/-- TICK_BOUNDARY (R15): The tick count wraps from cycle 10,239 to cycle 0 of the next tick, and every change captured for this boundary goes live. -/
def execTickBoundary (i : TickIn) (z : State) : Res := z.tickRow (fun s => (s.tickBoundary i).replayBegin)

/-- CAPTURE_POINT (R17): At cycle 9,984 the program window closes, the overrun check is made and TICK-class writes, commit strobes and agenda entries are captured for the next boundary. -/
def execCapturePoint (z : State) : Res := z.tickRow (fun s => s.capturePoint)

/-- AGENDA_APPLY (R17): At cycle 10,048, captured commit groups are copied, then agenda entries for the next tick are applied in acceptance order. -/
def execAgendaApply (z : State) : Res := z.tickRow (fun s => s.agendaApply)

/-- HALF_ROTATE (R17): At cycle 10,176 the sample-memory halves rotate, staging and drain descriptors are armed and every program counter is set to bundle 0. -/
def execHalfRotate (late : Nat) (z : State) : Res := z.tickRow (fun s => s.halfRotate late)

/-- IMMEDIATE_EXECUTE (R330): An immediate command executes at the earliest open boundary, with its STOP check, and is acknowledged there. -/
def execImmediateExecute (z : State) : Res := z.tickRow (fun s => s.immediateExecute)

end Sys2Proof.Machine
end

