-- ==== Sys2Proof/Machine/ExecTilth.lean ====
section
/-!
DEFINITION. The meanings of the rows of the Tilth operations on a lane at an issue (R86 to R100).
-/
namespace Sys2Proof.Machine

/-- LDX (R86): The stream load makes up to one S-bus read, one C-bus read and one T-bus access with post-modify. -/
def execLdx (i : Issue) (sa ca ta : LdxAcc) (tdir : Bool) (z : State) : Res := z.lane i .l (.ldx sa ca ta tdir)

/-- LD (R88): Loads one word or pair from S, C or T with the selected addressing mode. -/
def execLd (i : Issue) (f : LdSt) (z : State) : Res := z.lane i .l (.ld f)

/-- ST (R88): Stores one word or pair to S or T memory in the issue cycle. -/
def execSt (i : Issue) (f : LdSt) (z : State) : Res := z.lane i .l (.st f)

/-- PSET (R87): Sets a P register to an immediate. -/
def execPset (i : Issue) (p imm : Nat) (z : State) : Res := z.lane i .l (.pset p imm)

/-- PADD (R87): Adds an immediate to a P register modulo 2^16. -/
def execPadd (i : Issue) (p imm : Nat) (z : State) : Res := z.lane i .l (.padd p imm)

/-- MSETL (R87): Sets the low half of an M register. -/
def execMsetl (i : Issue) (m imm : Nat) (z : State) : Res := z.lane i .l (.msetl m imm)

/-- MSETH (R87): Sets the high half of an M register. -/
def execMseth (i : Issue) (m imm : Nat) (z : State) : Res := z.lane i .l (.mseth m imm)

/-- REP (R91): Repeats the following len bundles count times from the repeat cache. -/
def execRep (i : Issue) (count len : Nat) (z : State) : Res := z.lane i .l (.rep count len)

/-- EOT (R92): Ends the lane's program for the tick and fixes its end cycle. -/
def execEot (i : Issue) (z : State) : Res := z.lane i .l (.eot)

/-- NOP (R74): A slot of opcode 0 does nothing. -/
def execNop (i : Issue) (s : Slot) (z : State) : Res := z.lane i s (.nop)

/-- MAC (R93): Adds the selected products to the enabled accumulators. -/
def execMac (i : Issue) (s : Slot) (f : MacF) (z : State) : Res := z.lane i s (.mac f)

/-- MSU (R93): Subtracts the selected products from the enabled accumulators. -/
def execMsu (i : Issue) (s : Slot) (f : MacF) (z : State) : Res := z.lane i s (.msu f)

/-- MPY (R93): Sets the enabled accumulators to the selected products. -/
def execMpy (i : Issue) (s : Slot) (f : MacF) (z : State) : Res := z.lane i s (.mpy f)

/-- MPYN (R93): Sets the enabled accumulators to the negated products. -/
def execMpyn (i : Issue) (s : Slot) (f : MacF) (z : State) : Res := z.lane i s (.mpyn f)

/-- ACLR (R93): Clears the accumulators named in the mask. -/
def execAclr (i : Issue) (s : Slot) (mask : Nat) (z : State) : Res := z.lane i s (.aclr mask)

/-- AADD (R93): Adds or subtracts one accumulator into another. -/
def execAadd (i : Issue) (s : Slot) (a b : Nat) (sub : Bool) (z : State) : Res := z.lane i s (.aadd a b sub)

/-- ALD (R93): Loads a shifted D register value into an accumulator. -/
def execAld (i : Issue) (s : Slot) (a d sh : Nat) (z : State) : Res := z.lane i s (.ald a d sh)

/-- EXT (R84): Converts an accumulator to a D value with shift, round half up and optional saturation. -/
def execExt (i : Issue) (s : Slot) (a d sh : Nat) (sat : Bool) (z : State) : Res := z.lane i s (.ext a d sh sat)

/-- ADD (R97): Adds two D registers, saturated or wrapped. -/
def execAdd (i : Issue) (d s t : Nat) (sat : Bool) (z : State) : Res := z.lane i .x (.add d s t sat)

/-- SUB (R97): Subtracts two D registers, saturated or wrapped. -/
def execSub (i : Issue) (d s t : Nat) (sat : Bool) (z : State) : Res := z.lane i .x (.sub d s t sat)

/-- NEG (R97): Negates a D register. -/
def execNeg (i : Issue) (d s : Nat) (sat : Bool) (z : State) : Res := z.lane i .x (.neg d s sat)

/-- ABS (R97): Takes the absolute value of a D register. -/
def execAbs (i : Issue) (d s : Nat) (sat : Bool) (z : State) : Res := z.lane i .x (.abs d s sat)

/-- AND (R96): Bitwise AND of two D registers. -/
def execAnd (i : Issue) (d s t : Nat) (z : State) : Res := z.lane i .x (.and d s t)

/-- OR (R96): Bitwise OR of two D registers. -/
def execOr (i : Issue) (d s t : Nat) (z : State) : Res := z.lane i .x (.or d s t)

/-- XOR (R96): Bitwise XOR of two D registers. -/
def execXor (i : Issue) (d s t : Nat) (z : State) : Res := z.lane i .x (.xor d s t)

/-- MOV (R96): Copies one D register to another. -/
def execMov (i : Issue) (d s : Nat) (z : State) : Res := z.lane i .x (.mov d s)

/-- MOVIL (R96): Loads a sign-extended 14-bit immediate. -/
def execMovil (i : Issue) (d imm : Nat) (z : State) : Res := z.lane i .x (.movil d imm)

/-- MOVIH (R96): Loads a 14-bit immediate shifted left by 18. -/
def execMovih (i : Issue) (d imm : Nat) (z : State) : Res := z.lane i .x (.movih d imm)

/-- SHL (R97): Shifts left by n, saturated or wrapped. -/
def execShl (i : Issue) (d s n : Nat) (sat : Bool) (z : State) : Res := z.lane i .x (.shl d s n sat)

/-- SHR (R96): Arithmetic shift right by n. -/
def execShr (i : Issue) (d s n : Nat) (z : State) : Res := z.lane i .x (.shr d s n)

/-- SHRL (R96): Logical shift right by n. -/
def execShrl (i : Issue) (d s n : Nat) (z : State) : Res := z.lane i .x (.shrl d s n)

/-- SHE (R97): Shifts by the signed count held in a D register. -/
def execShe (i : Issue) (d s t : Nat) (sat : Bool) (z : State) : Res := z.lane i .x (.she d s t sat)

/-- NORM (R97): Normalises a value by its redundant sign bits. -/
def execNorm (i : Issue) (d s : Nat) (z : State) : Res := z.lane i .x (.norm d s)

/-- EXPO (R97): Counts the redundant sign bits of a value. -/
def execExpo (i : Issue) (d s : Nat) (z : State) : Res := z.lane i .x (.expo d s)

/-- RND (R97): Rounds a value to a multiple of 2^k. -/
def execRnd (i : Issue) (d s k : Nat) (sat : Bool) (z : State) : Res := z.lane i .x (.rnd d s k sat)

/-- MIN (R96): Takes the smaller of two D registers. -/
def execMin (i : Issue) (d s t : Nat) (z : State) : Res := z.lane i .x (.min d s t)

/-- MAX (R96): Takes the larger of two D registers. -/
def execMax (i : Issue) (d s t : Nat) (z : State) : Res := z.lane i .x (.max d s t)

/-- CLAMP (R97): Clamps a value between a pair of bounds. -/
def execClamp (i : Issue) (d s p : Nat) (z : State) : Res := z.lane i .x (.clamp d s p)

/-- SEL (R97): Selects one of two registers by a condition on a third. -/
def execSel (i : Issue) (d s t c cond : Nat) (z : State) : Res := z.lane i .x (.sel d s t c cond)

/-- GSTEP (R100): Steps a gain cell towards its target on a zero crossing or timeout. -/
def execGstep (i : Issue) (gp cp s : Nat) (z : State) : Res := z.lane i .x (.gstep gp cp s)

/-- STX (R98): Stores a D pair to state memory with optional pointer modify. -/
def execStx (i : Issue) (q p m : Nat) (u : Bool) (z : State) : Res := z.lane i .x (.stx q p m u)

end Sys2Proof.Machine
end

