-- ==== Sys2Proof/Machine/Dispatch.lean ====
section
/-!
DEFINITION. The dispatch: one arm per constructor of `Instr`, each one direct call of the row's meaning.
-/
namespace Sys2Proof.Machine

/-- What a command does to everything but the queue of waiting commands. -/
def exec (i : Instr) (s : State) : Host.Outcome State Fault Refusal :=
  match i with
  | .tickBoundary x0 => Sys2Proof.Machine.execTickBoundary x0 s
  | .capturePoint => Sys2Proof.Machine.execCapturePoint s
  | .agendaApply => Sys2Proof.Machine.execAgendaApply s
  | .halfRotate x0 => Sys2Proof.Machine.execHalfRotate x0 s
  | .immediateExecute => Sys2Proof.Machine.execImmediateExecute s
  | .hello x0 => Sys2Proof.Machine.execHello x0 s
  | .read x0 x1 x2 => Sys2Proof.Machine.execRead x0 x1 x2 s
  | .write x0 x1 => Sys2Proof.Machine.execWrite x0 x1 s
  | .storeWrite x0 x1 x2 => Sys2Proof.Machine.execStoreWrite x0 x1 x2 s
  | .load x0 x1 x2 => Sys2Proof.Machine.execLoad x0 x1 x2 s
  | .abort x0 => Sys2Proof.Machine.execAbort x0 s
  | .swap x0 => Sys2Proof.Machine.execSwap x0 s
  | .cell x0 x1 x2 => Sys2Proof.Machine.execCell x0 x1 x2 s
  | .step x0 x1 => Sys2Proof.Machine.execStep x0 x1 s
  | .bbxTrigger x0 x1 => Sys2Proof.Machine.execBbxTrigger x0 x1 s
  | .keyLoad x0 x1 => Sys2Proof.Machine.execKeyLoad x0 x1 s
  | .keyRetire x0 x1 x2 => Sys2Proof.Machine.execKeyRetire x0 x1 x2 s
  | .signRevoke x0 x1 x2 x3 => Sys2Proof.Machine.execSignRevoke x0 x1 x2 x3 s
  | .pairEnable x0 x1 => Sys2Proof.Machine.execPairEnable x0 x1 s
  | .pairDisable x0 => Sys2Proof.Machine.execPairDisable x0 s
  | .take x0 => Sys2Proof.Machine.execTake x0 s
  | .handover x0 => Sys2Proof.Machine.execHandover x0 s
  | .isolate x0 => Sys2Proof.Machine.execIsolate x0 s
  | .rejoin x0 => Sys2Proof.Machine.execRejoin x0 s
  | .resync x0 => Sys2Proof.Machine.execResync x0 s
  | .ctrlPlaneReset x0 => Sys2Proof.Machine.execCtrlPlaneReset x0 s
  | .mgmtPlaneReset x0 => Sys2Proof.Machine.execMgmtPlaneReset x0 s
  | .commitStrobe x0 x1 x2 => Sys2Proof.Machine.execCommitStrobe x0 x1 x2 s
  | .registerWrite x0 x1 x2 x3 => Sys2Proof.Machine.execRegisterWrite x0 x1 x2 x3 s
  | .faultStatusClear x0 x1 x2 => Sys2Proof.Machine.execFaultStatusClear x0 x1 x2 s
  | .counterRead x0 x1 => Sys2Proof.Machine.execCounterRead x0 x1 s
  | .highWaterRead x0 x1 => Sys2Proof.Machine.execHighWaterRead x0 x1 s
  | .latchingRead x0 x1 => Sys2Proof.Machine.execLatchingRead x0 x1 s
  | .tsqRead x0 x1 => Sys2Proof.Machine.execTsqRead x0 x1 s
  | .ringTailWrite x0 x1 x2 => Sys2Proof.Machine.execRingTailWrite x0 x1 x2 s
  | .forceLaneParity x0 x1 => Sys2Proof.Machine.execForceLaneParity x0 x1 s
  | .forceRefLos x0 x1 => Sys2Proof.Machine.execForceRefLos x0 x1 s
  | .forceHbSuppress x0 x1 => Sys2Proof.Machine.execForceHbSuppress x0 x1 s
  | .forceDigest x0 x1 => Sys2Proof.Machine.execForceDigest x0 x1 s
  | .forceModOvercurrent x0 x1 => Sys2Proof.Machine.execForceModOvercurrent x0 x1 s
  | .modClear x0 x1 => Sys2Proof.Machine.execModClear x0 x1 s
  | .forceSnsCrc x0 x1 => Sys2Proof.Machine.execForceSnsCrc x0 x1 s
  | .forceDramError x0 x1 => Sys2Proof.Machine.execForceDramError x0 x1 s
  | .forceLinkDown x0 x1 x2 => Sys2Proof.Machine.execForceLinkDown x0 x1 x2 s
  | .faultClear x0 => Sys2Proof.Machine.execFaultClear x0 s
  | .bbxRearm x0 => Sys2Proof.Machine.execBbxRearm x0 s
  | .wdogKick x0 => Sys2Proof.Machine.execWdogKick x0 s
  | .vectorResend x0 x1 => Sys2Proof.Machine.execVectorResend x0 x1 s
  | .readbackGo x0 x1 => Sys2Proof.Machine.execReadbackGo x0 x1 s
  | .mdioGo x0 x1 => Sys2Proof.Machine.execMdioGo x0 x1 s
  | .sleep x0 => Sys2Proof.Machine.execSleep x0 s
  | .thermClear x0 => Sys2Proof.Machine.execThermClear x0 s
  | .domainSwitch x0 x1 => Sys2Proof.Machine.execDomainSwitch x0 x1 s
  | .stepaccClear x0 => Sys2Proof.Machine.execStepaccClear x0 s
  | .timeIncWrite x0 x1 => Sys2Proof.Machine.execTimeIncWrite x0 x1 s
  | .compareArm x0 x1 x2 => Sys2Proof.Machine.execCompareArm x0 x1 x2 s
  | .lockncSet x0 => Sys2Proof.Machine.execLockncSet x0 s
  | .bootDataWrite x0 x1 x2 => Sys2Proof.Machine.execBootDataWrite x0 x1 x2 s
  | .dStateChange x0 x1 x2 x3 => Sys2Proof.Machine.execDStateChange x0 x1 x2 x3 s
  | .functionLevelReset x0 => Sys2Proof.Machine.execFunctionLevelReset x0 s
  | .ldx x0 x1 x2 x3 x4 => Sys2Proof.Machine.execLdx x0 x1 x2 x3 x4 s
  | .ld x0 x1 => Sys2Proof.Machine.execLd x0 x1 s
  | .st x0 x1 => Sys2Proof.Machine.execSt x0 x1 s
  | .pset x0 x1 x2 => Sys2Proof.Machine.execPset x0 x1 x2 s
  | .padd x0 x1 x2 => Sys2Proof.Machine.execPadd x0 x1 x2 s
  | .msetl x0 x1 x2 => Sys2Proof.Machine.execMsetl x0 x1 x2 s
  | .mseth x0 x1 x2 => Sys2Proof.Machine.execMseth x0 x1 x2 s
  | .rep x0 x1 x2 => Sys2Proof.Machine.execRep x0 x1 x2 s
  | .eot x0 => Sys2Proof.Machine.execEot x0 s
  | .nop x0 x1 => Sys2Proof.Machine.execNop x0 x1 s
  | .mac x0 x1 x2 => Sys2Proof.Machine.execMac x0 x1 x2 s
  | .msu x0 x1 x2 => Sys2Proof.Machine.execMsu x0 x1 x2 s
  | .mpy x0 x1 x2 => Sys2Proof.Machine.execMpy x0 x1 x2 s
  | .mpyn x0 x1 x2 => Sys2Proof.Machine.execMpyn x0 x1 x2 s
  | .aclr x0 x1 x2 => Sys2Proof.Machine.execAclr x0 x1 x2 s
  | .aadd x0 x1 x2 x3 x4 => Sys2Proof.Machine.execAadd x0 x1 x2 x3 x4 s
  | .ald x0 x1 x2 x3 x4 => Sys2Proof.Machine.execAld x0 x1 x2 x3 x4 s
  | .ext x0 x1 x2 x3 x4 x5 => Sys2Proof.Machine.execExt x0 x1 x2 x3 x4 x5 s
  | .add x0 x1 x2 x3 x4 => Sys2Proof.Machine.execAdd x0 x1 x2 x3 x4 s
  | .sub x0 x1 x2 x3 x4 => Sys2Proof.Machine.execSub x0 x1 x2 x3 x4 s
  | .neg x0 x1 x2 x3 => Sys2Proof.Machine.execNeg x0 x1 x2 x3 s
  | .abs x0 x1 x2 x3 => Sys2Proof.Machine.execAbs x0 x1 x2 x3 s
  | .and x0 x1 x2 x3 => Sys2Proof.Machine.execAnd x0 x1 x2 x3 s
  | .or x0 x1 x2 x3 => Sys2Proof.Machine.execOr x0 x1 x2 x3 s
  | .xor x0 x1 x2 x3 => Sys2Proof.Machine.execXor x0 x1 x2 x3 s
  | .mov x0 x1 x2 => Sys2Proof.Machine.execMov x0 x1 x2 s
  | .movil x0 x1 x2 => Sys2Proof.Machine.execMovil x0 x1 x2 s
  | .movih x0 x1 x2 => Sys2Proof.Machine.execMovih x0 x1 x2 s
  | .shl x0 x1 x2 x3 x4 => Sys2Proof.Machine.execShl x0 x1 x2 x3 x4 s
  | .shr x0 x1 x2 x3 => Sys2Proof.Machine.execShr x0 x1 x2 x3 s
  | .shrl x0 x1 x2 x3 => Sys2Proof.Machine.execShrl x0 x1 x2 x3 s
  | .she x0 x1 x2 x3 x4 => Sys2Proof.Machine.execShe x0 x1 x2 x3 x4 s
  | .norm x0 x1 x2 => Sys2Proof.Machine.execNorm x0 x1 x2 s
  | .expo x0 x1 x2 => Sys2Proof.Machine.execExpo x0 x1 x2 s
  | .rnd x0 x1 x2 x3 x4 => Sys2Proof.Machine.execRnd x0 x1 x2 x3 x4 s
  | .min x0 x1 x2 x3 => Sys2Proof.Machine.execMin x0 x1 x2 x3 s
  | .max x0 x1 x2 x3 => Sys2Proof.Machine.execMax x0 x1 x2 x3 s
  | .clamp x0 x1 x2 x3 => Sys2Proof.Machine.execClamp x0 x1 x2 x3 s
  | .sel x0 x1 x2 x3 x4 x5 => Sys2Proof.Machine.execSel x0 x1 x2 x3 x4 x5 s
  | .gstep x0 x1 x2 x3 => Sys2Proof.Machine.execGstep x0 x1 x2 x3 s
  | .stx x0 x1 x2 x3 x4 => Sys2Proof.Machine.execStx x0 x1 x2 x3 x4 s
  | .eccScrub x0 x1 x2 x3 x4 => Sys2Proof.Machine.execEccScrub x0 x1 x2 x3 x4 s
  | .loadComplete x0 x1 x2 => Sys2Proof.Machine.execLoadComplete x0 x1 x2 s
  | .statusSend => Sys2Proof.Machine.execStatusSend s
  | .statusReceive x0 x1 => Sys2Proof.Machine.execStatusReceive x0 x1 s
  | .tickAdopt x0 => Sys2Proof.Machine.execTickAdopt x0 s
  | .leaseKeeperExpire x0 => Sys2Proof.Machine.execLeaseKeeperExpire x0 s
  | .leaseLapse => Sys2Proof.Machine.execLeaseLapse s
  | .takeover x0 => Sys2Proof.Machine.execTakeover x0 s
  | .bridge x0 => Sys2Proof.Machine.execBridge x0 s
  | .bridgeEnd x0 => Sys2Proof.Machine.execBridgeEnd x0 s
  | .localInputReceive x0 x1 x2 x3 => Sys2Proof.Machine.execLocalInputReceive x0 x1 x2 x3 s
  | .forwardLandingFill => Sys2Proof.Machine.execForwardLandingFill s
  | .presenceMapReceive x0 x1 => Sys2Proof.Machine.execPresenceMapReceive x0 x1 s
  | .forwardedPacketReceive x0 x1 x2 x3 x4 x5 => Sys2Proof.Machine.execForwardedPacketReceive x0 x1 x2 x3 x4 x5 s
  | .modBlockSend => Sys2Proof.Machine.execModBlockSend s
  | .modBlockReceive x0 x1 => Sys2Proof.Machine.execModBlockReceive x0 x1 s
  | .fwdMissing => Sys2Proof.Machine.execFwdMissing s
  | .mirroredCommandReceive x0 x1 => Sys2Proof.Machine.execMirroredCommandReceive x0 x1 s
  | .confirmReceive x0 x1 x2 x3 => Sys2Proof.Machine.execConfirmReceive x0 x1 x2 x3 s
  | .confirmTimeout x0 x1 x2 => Sys2Proof.Machine.execConfirmTimeout x0 x1 x2 s
  | .commandResolveDeadline => Sys2Proof.Machine.execCommandResolveDeadline s
  | .cancelReceive x0 x1 x2 => Sys2Proof.Machine.execCancelReceive x0 x1 x2 s
  | .sentAckSend x0 => Sys2Proof.Machine.execSentAckSend x0 s
  | .sentAckReceive x0 x1 => Sys2Proof.Machine.execSentAckReceive x0 x1 s
  | .txHandover => Sys2Proof.Machine.execTxHandover s
  | .retransmissionRequest x0 x1 x2 => Sys2Proof.Machine.execRetransmissionRequest x0 x1 x2 s
  | .sheafCopyReceive x0 x1 x2 x3 => Sys2Proof.Machine.execSheafCopyReceive x0 x1 x2 x3 s
  | .resyncControlReceive x0 x1 x2 => Sys2Proof.Machine.execResyncControlReceive x0 x1 x2 s
  | .imageBulkReceive x0 x1 x2 x3 => Sys2Proof.Machine.execImageBulkReceive x0 x1 x2 x3 s
  | .delayBulkReceive x0 x1 => Sys2Proof.Machine.execDelayBulkReceive x0 x1 s
  | .displacedFrameReceive x0 x1 x2 => Sys2Proof.Machine.execDisplacedFrameReceive x0 x1 x2 s
  | .unitIdentityReceive x0 x1 x2 => Sys2Proof.Machine.execUnitIdentityReceive x0 x1 x2 s
  | .unknownTypeFrame x0 x1 x2 x3 => Sys2Proof.Machine.execUnknownTypeFrame x0 x1 x2 x3 s
  | .frameLate x0 x1 x2 => Sys2Proof.Machine.execFrameLate x0 x1 x2 s
  | .mirLaneDown x0 x1 => Sys2Proof.Machine.execMirLaneDown x0 x1 s
  | .mirLinkDown x0 => Sys2Proof.Machine.execMirLinkDown x0 s
  | .mirLaneUp x0 x1 x2 => Sys2Proof.Machine.execMirLaneUp x0 x1 x2 s
  | .resyncStart x0 => Sys2Proof.Machine.execResyncStart x0 s
  | .resyncFreeze => Sys2Proof.Machine.execResyncFreeze s
  | .imageSent x0 => Sys2Proof.Machine.execImageSent x0 s
  | .delayCopyDone x0 => Sys2Proof.Machine.execDelayCopyDone x0 s
  | .replayTick x0 => Sys2Proof.Machine.execReplayTick x0 s
  | .becomeShadow => Sys2Proof.Machine.execBecomeShadow s
  | .xoLoss x0 => Sys2Proof.Machine.execXoLoss x0 s
  | .mdllUnlock x0 => Sys2Proof.Machine.execMdllUnlock x0 s
  | .refLosDetect x0 x1 => Sys2Proof.Machine.execRefLosDetect x0 x1 s
  | .refActivity x0 x1 => Sys2Proof.Machine.execRefActivity x0 x1 s
  | .refMeasure x0 x1 => Sys2Proof.Machine.execRefMeasure x0 x1 s
  | .wtrExpire x0 x1 => Sys2Proof.Machine.execWtrExpire x0 x1 s
  | .dpllCompare x0 x1 x2 => Sys2Proof.Machine.execDpllCompare x0 x1 x2 s
  | .historyRecord x0 => Sys2Proof.Machine.execHistoryRecord x0 s
  | .holdoverPredict x0 => Sys2Proof.Machine.execHoldoverPredict x0 s
  | .compareFire x0 x1 => Sys2Proof.Machine.execCompareFire x0 x1 s
  | .tpllUnlock x0 => Sys2Proof.Machine.execTpllUnlock x0 s
  | .tpllRelock x0 => Sys2Proof.Machine.execTpllRelock x0 s
  | .frameReceive x0 x1 x2 x3 => Sys2Proof.Machine.execFrameReceive x0 x1 x2 x3 s
  | .pauseFrame x0 x1 x2 => Sys2Proof.Machine.execPauseFrame x0 x1 x2 s
  | .pauseExpire x0 x1 => Sys2Proof.Machine.execPauseExpire x0 x1 s
  | .hostFrameTransmit x0 x1 => Sys2Proof.Machine.execHostFrameTransmit x0 x1 s
  | .linkDown x0 x1 => Sys2Proof.Machine.execLinkDown x0 x1 s
  | .linkUp x0 x1 x2 x3 => Sys2Proof.Machine.execLinkUp x0 x1 x2 x3 s
  | .mdioDone x0 x1 => Sys2Proof.Machine.execMdioDone x0 x1 s
  | .plcaBeacon x0 => Sys2Proof.Machine.execPlcaBeacon x0 s
  | .plcaLost x0 => Sys2Proof.Machine.execPlcaLost x0 s
  | .collision x0 x1 => Sys2Proof.Machine.execCollision x0 x1 s
  | .streamCutoff => Sys2Proof.Machine.execStreamCutoff s
  | .streamRelease => Sys2Proof.Machine.execStreamRelease s
  | .arrivalWindow => Sys2Proof.Machine.execArrivalWindow s
  | .legDown x0 x1 x2 => Sys2Proof.Machine.execLegDown x0 x1 x2 s
  | .streamPacketQueue x0 => Sys2Proof.Machine.execStreamPacketQueue x0 s
  | .streamPacketSend x0 x1 => Sys2Proof.Machine.execStreamPacketSend x0 x1 s
  | .streamTxLate x0 => Sys2Proof.Machine.execStreamTxLate x0 s
  | .tdmFrameRx x0 x1 x2 x3 x4 x5 => Sys2Proof.Machine.execTdmFrameRx x0 x1 x2 x3 x4 x5 s
  | .tdmFrameTx x0 x1 => Sys2Proof.Machine.execTdmFrameTx x0 x1 s
  | .missingFrame x0 x1 x2 => Sys2Proof.Machine.execMissingFrame x0 x1 x2 s
  | .slipAccess x0 x1 x2 => Sys2Proof.Machine.execSlipAccess x0 x1 x2 s
  | .alignReturn x0 x1 => Sys2Proof.Machine.execAlignReturn x0 x1 s
  | .gangRejoin x0 x1 => Sys2Proof.Machine.execGangRejoin x0 x1 s
  | .pdmStuck x0 x1 => Sys2Proof.Machine.execPdmStuck x0 x1 s
  | .decSettled x0 x1 => Sys2Proof.Machine.execDecSettled x0 x1 s
  | .superframe x0 x1 x2 x3 x4 => Sys2Proof.Machine.execSuperframe x0 x1 x2 x3 x4 s
  | .shortLatch x0 x1 => Sys2Proof.Machine.execShortLatch x0 x1 s
  | .retry x0 => Sys2Proof.Machine.execRetry x0 s
  | .carrierPeriod x0 x1 x2 => Sys2Proof.Machine.execCarrierPeriod x0 x1 x2 s
  | .loopCompute => Sys2Proof.Machine.execLoopCompute s
  | .ampEnRise x0 => Sys2Proof.Machine.execAmpEnRise x0 s
  | .groupStop x0 => Sys2Proof.Machine.execGroupStop x0 s
  | .drvFault x0 x1 => Sys2Proof.Machine.execDrvFault x0 x1 s
  | .thermShut x0 => Sys2Proof.Machine.execThermShut x0 s
  | .thmConversion x0 x1 => Sys2Proof.Machine.execThmConversion x0 x1 s
  | .eventPosting x0 => Sys2Proof.Machine.execEventPosting x0 s
  | .evtNumbering x0 => Sys2Proof.Machine.execEvtNumbering x0 s
  | .coalesceClose x0 => Sys2Proof.Machine.execCoalesceClose x0 s
  | .hostRingWrite x0 => Sys2Proof.Machine.execHostRingWrite x0 s
  | .wdogExpire x0 => Sys2Proof.Machine.execWdogExpire x0 s
  | .busRequest x0 x1 => Sys2Proof.Machine.execBusRequest x0 x1 s
  | .heldRequestRelease x0 x1 => Sys2Proof.Machine.execHeldRequestRelease x0 x1 s
  | .refreshSlot x0 x1 => Sys2Proof.Machine.execRefreshSlot x0 x1 s
  | .mr4Read x0 x1 x2 x3 => Sys2Proof.Machine.execMr4Read x0 x1 x2 x3 s
  | .gleanSample x0 => Sys2Proof.Machine.execGleanSample x0 s
  | .gleanBlockDone x0 => Sys2Proof.Machine.execGleanBlockDone x0 s
  | .readbackDone x0 => Sys2Proof.Machine.execReadbackDone x0 s
  | .powerOnReset x0 x1 x2 => Sys2Proof.Machine.execPowerOnReset x0 x1 x2 s
  | .warmReset x0 x1 x2 => Sys2Proof.Machine.execWarmReset x0 x1 x2 s
  | .boot x0 x1 x2 x3 x4 => Sys2Proof.Machine.execBoot x0 x1 x2 x3 x4 s
  | .mdllLock => Sys2Proof.Machine.execMdllLock s
  | .bootPcieTimeout x0 => Sys2Proof.Machine.execBootPcieTimeout x0 s
  | .nonceDraw x0 x1 => Sys2Proof.Machine.execNonceDraw x0 x1 s
  | .trngHealth x0 x1 => Sys2Proof.Machine.execTrngHealth x0 x1 s
  | .fuseDone x0 x1 => Sys2Proof.Machine.execFuseDone x0 x1 s
  | .domainReady x0 x1 => Sys2Proof.Machine.execDomainReady x0 x1 s
  | .perst x0 x1 => Sys2Proof.Machine.execPerst x0 x1 s
  | .pcieLinkUp x0 x1 x2 => Sys2Proof.Machine.execPcieLinkUp x0 x1 x2 s
  | .pcieLinkDown x0 => Sys2Proof.Machine.execPcieLinkDown x0 s
  | .gpioEdge x0 x1 => Sys2Proof.Machine.execGpioEdge x0 x1 s
  | .xoEdgesReturn => Sys2Proof.Machine.execXoEdgesReturn s
  | .planeResetEnd x0 => Sys2Proof.Machine.execPlaneResetEnd x0 s
  | .malformedCommand x0 x1 x2 x3 => Sys2Proof.Machine.execMalformedCommand x0 x1 x2 x3 s
  | .trngSourcePassesAgain x0 => Sys2Proof.Machine.execTrngSourcePassesAgain x0 s
  | .factoryTestUnlock x0 => Sys2Proof.Machine.execFactoryTestUnlock x0 s
  | .msixUnmask x0 x1 x2 x3 x4 => Sys2Proof.Machine.execMsixUnmask x0 x1 x2 x3 x4 s

end Sys2Proof.Machine
end

