-- ==== Sys2Proof/Machine/Pins.lean ====
section
/-!
DEFINITION. The output pins: what each of them shows at the present cycle (R422, R438, and the rules of the blocks that drive them).
-/
namespace Sys2Proof.Machine

/-- The outputs of the device (R438), by number where there are several; a transmitter is one of the CML outputs ETH0, ETH1, MIR0, MIR1, MGT
(0 to 4) or PCIE (5). -/
inductive Pin where
  | pwm (c : Nat)
  | ampEn (g : Nat)
  | snsClk
  | tdmDo (p : Nat)
  | mclk (m : Nat)
  | pdmClk (k : Nat)
  | clkout (k : Nat)
  | tx (k : Nat)
  | wakeN
  | clkreqN
  | intN (k : Nat)
  | faultN
  | ownOut
  | holdOut
  | gpio (p : Nat)
deriving DecidableEq, Repr

/-- What an output shows: high impedance with its keeper off, a level, an idle transmitter, or the waveform that its block's rules give (frames of a
serial port, a running clock, a transmitter in use). -/
inductive Level where
  | z
  | low
  | high
  | idle
  | runs
deriving DecidableEq, Repr

/-- A level. -/
def levelOf (b : Bool) : Level := if b then .high else .low

/-- An open-drain output. -/
def pullLow (b : Bool) : Level := if b then .low else .z

/-- The outputs of domain `k` are driven at all: the device is not in reset and the domain is on and usable (R422). -/
def Dev.drives (d : Dev) (k : Nat) : Bool := !d.inReset && d.domOn k

/-- A clock output: high impedance until its first enable, running, or low while disabled (R165, R249, R251, R273, R422). -/
def clockPin (begun on : Bool) : Level := if on then .runs else if begun then .low else .z

/-- The pulse of a channel at the present cycle, its limiter's action included: two timer steps to the cycle (R269, R270, R279). -/
def Dev.pwmLevel (d : Dev) (c : Nat) : Bool :=
  let x := d.modC c
  match x.force, x.pulse with
  | some b, _ => b
  | none, none => false
  | none, some (rise, fall) =>
    let at_ := 2 * d.cycle + (if x.perPar = d.tick % 2 then 0 else 20480) - x.beg
    decide (rise ≤ at_ ∧ at_ < fall)

/-- PWM_OUT and AMP_EN of group `g`: high impedance under R164 and until the group's first start, low where R285, R286, R298 or R367 hold them, else
the level `b` (R282, R422). -/
def Dev.modPin (d : Dev) (g : Nat) (b : Bool) : Level :=
  if d.outsZ || !d.drives 10 then .z
  else if d.testMode || (d.mod.shut && d.bootOver) then .low
  else if !bit d.begun g && (d.modLive || !d.bootOver) then .z
  else levelOf (b && d.modLive && (d.modG g).run_)

/-- A transmitter is in use: its port enabled, or its link up. -/
def Dev.txOn (d : Dev) (k : Nat) : Bool :=
  if k < 2 then d.drives 7 && d.macEn k
  else if k < 4 then d.drives 1 && d.rf R.mirStat 0 1 == 1
  else if k = 4 then d.drives 1 && d.macEn 2
  else d.drives 2 && d.rf R.pcieStat 0 1 == 1

/-- What an output shows at the present cycle. -/
def Dev.pin (d : Dev) : Pin → Level
  | .pwm c => d.modPin (c / 8) (d.pwmLevel c)
  | .ampEn g => d.modPin g (d.modG g).amp
  | .snsClk => if d.drives 10 then clockPin (bit d.begun 28) d.snsOn else .z
  | .tdmDo p => if d.drives 9 && (d.tdmP p).started then .runs else .z
  | .mclk m => if d.drives 9 then clockPin (bit d.begun (12 + m)) (d.mclk.getD m none).isSome else .z
  | .pdmClk k => if d.drives 9 then clockPin (bit d.begun (24 + k)) (bit d.pdmOn k) else .z
  | .clkout k => if d.outsZ || !d.drives 11 then .z else clockPin (bit d.begun (8 + k)) (d.clk.outs.getD k none).isSome
  | .tx k => if !d.inReset && d.txOn k then .runs else .idle
  | .wakeN => pullLow (d.drives 2 && d.wakeLow)
  | .clkreqN => pullLow (d.drives 2 && d.pcie.clkreq)
  | .intN k => pullLow (d.drives 1 && d.intLow k)
  | .faultN => pullLow d.bbx.faultN
  | .ownOut => if d.drives 0 then levelOf (d.rf R.pairStat 9 1 == 1) else .z
  | .holdOut => if d.drives 0 then levelOf (d.rf R.pairStat 8 1 == 1) else .z
  | .gpio p =>
    if !d.drives 0 || !bit (d.reg R.gpioDir) p then .z
    else if bit (d.reg R.gpioOut) p then (if bit (d.reg R.gpioOden) p then .z else .high) else .low

end Sys2Proof.Machine
end

