-- ==== Sys2Proof/Safety.lean ====
section
/-!
DEFINITION. What counts as a safe run, in the terms the statements use: no step stops the block, memory keeps its canonical form, and fuses only
burn.
-/
namespace Sys2Proof.Machine

/-- The state invariant: memory is in its canonical form (R391). -/
def State.Inv (s : State) : Prop := s.sys.mem.wf = true

/-- Every bit of `a` is set in `b`. -/
def bitsKept (a b : Nat) : Prop := a &&& b = a

/-- `p` has burned no fuse back: the root key and the hashes are the same, revocations and floors only grow (R341 to R346). -/
def Otp.burnedTo (o p : Otp) : Prop :=
  p.root = o.root ∧ p.rootV = o.rootV ∧ p.shash = o.shash ∧ p.svalid = o.svalid ∧ p.bhash = o.bhash ∧ p.bvalid = o.bvalid ∧ p.ssid = o.ssid ∧
    (∀ i, bit o.srev i = true → bit p.srev i = true) ∧ (∀ i, bit o.brev i = true → bit p.brev i = true) ∧
    (∀ k, o.floors.getD k 0 ≤ p.floors.getD k 0)

/-- The tick runs and the device is not held in reset: the condition on which the rows of the tick act (R15, R164, R420). -/
def State.Running (s : State) : Prop := s.sys.dev.inReset = false ∧ s.sys.dev.ticking = true

/-! ## The forms of the statements -/

/-- The state with `s` for its system; the queue stays. -/
def State.put (z : State) (s : Sys) : State := { z with sys := s }

/-- The state with its device changed; memory, fuses and the queue stay. -/
def State.onDev (z : State) (f : Dev → Dev) : State := z.put (z.sys.onDev f)

/-- The tick runs and lane `i.lane` executes at issue `i.k`: `s1` is the system with the earlier issues closed, `x` the lane's context there
(R73 to R81). -/
def State.Issues (z : State) (i : Issue) (s1 : Sys) (x : LaneCtx) : Prop := z.Running ∧ z.sys.laneAt i.lane i.k = (s1, some x)

/-- The state once the lane's context `x` is put back into the system `s1`. -/
def State.issued (z : State) (s1 : Sys) (x : LaneCtx) : State := z.put (x.back s1)

/-- No pending result of a lane is for the destination `dst` at issue `due` (no collision of R81). -/
def Lane.free (l : Lane) (dst : Dst) (due : Nat) : Prop := ∀ q ∈ l.pend, ¬(q.due = due ∧ q.dst = dst)

/-- Registers other than those of the list keep their stored value and their value in use. -/
def Dev.keeps (d e : Dev) (l : List Nat) : Prop := ∀ off, off ∉ l → e.reg off = d.reg off ∧ e.lv off = d.lv off

/-! ## Commands over UDP (R327 to R335) -/

/-- CMD has no command waiting, none in progress and no answer owed, the rings are empty, and UDP commands are admitted: a command over UDP is
taken at once. -/
def Dev.cmdIdle (d : Dev) : Prop :=
  d.inReset = false ∧ d.blockOn Blk.cmd = true ∧ d.ctrlRst = none ∧ d.bootOver = true ∧ d.rf R.cmdPolicy 0 1 = 1 ∧ d.cmd.fuse = false ∧
    d.cmd.wait = [] ∧ d.cmd.owed = [] ∧ d.cmd.imm = [] ∧ d.cmd.await = [] ∧ ∀ r, r < 2 → d.rf (R.cmdChead r) 0 12 = d.rf (R.cmdCtail r) 0 12

/-- The fields of a UDP command's frame are within their widths, its payload within its limits. -/
def fits (f : CmdFrame) (pay : List Byte) : Prop :=
  f.src = 2 ∧ f.slot < 8 ∧ f.ctr < 2 ^ 64 ∧ f.tgt < 2 ^ 48 ∧ f.reqtag < 2 ^ 32 ∧ f.tag < 2 ^ 64 ∧ pay.length % 4 = 0 ∧ pay.length ≤ 4096

/-- The bytes of a command in its frame. -/
def frameOf (f : CmdFrame) (op : Nat) (pay : List Byte) : List Byte := cmdBytes op f.slot f.ctr f.tgt f.reqtag pay f.tag

/-- The device once it has taken the command (R327): at cycle `f.c`, the command numbered and its answer owed. -/
def Dev.taken (d : Dev) (f : CmdFrame) : Dev :=
  (d.atC f.c).onCmd (fun x => { x with
    wait := []
    turn := 0
    full := x.full.filter (fun j => j != 2)
    taken := x.taken + 1
    owed := [{ num := x.taken, src := 2, from_ := f.from_, reply := none }] })

/-- The device once the taken command's counter is recorded (step 6 of R333). -/
def Dev.counted (d : Dev) (f : CmdFrame) : Dev := (d.taken f).setW (R.cmdSeen f.slot) f.ctr

/-- A command over UDP passes steps 1 to 7 of R333 under the key of its slot: whole, a nonce, the slot's key, its tag, its counter, its form. -/
def State.accepts (z : State) (f : CmdFrame) (op : Nat) (pay : List Byte) : Prop :=
  z.sys.dev.cmdIdle ∧ fits f pay ∧ z.sys.dev.nonceOk = true ∧
    (∃ k, z.sys.dev.keySlot f.slot = some k ∧ z.sys.dev.tagOk k.key (frameOf f op pay) = true) ∧
    z.sys.dev.w64 (R.cmdSeen f.slot) < f.ctr ∧ z.sys.dev.w64 (R.tickSlotcnt f.slot) < f.ctr ∧
    (z.sys.dev.counted f).cmdForm (frameOf f op pay) = .ok ()

/-- From `z` to `t` exactly one reply has been sent, to where the command came from, with a TICK and a STATUS (R335). -/
def State.replied (z t : State) (f : CmdFrame) (tick st : Nat) : Prop :=
  ∃ bs, t.sys.dev.out.replies = z.sys.dev.out.replies ++ [(2, f.from_, bs)] ∧ le bs 0 4 = 0x50525647 ∧ le bs 16 6 = tick % 2 ^ 48 ∧ le bs 28 1 = st

/-- A device whose role, boot and tick let a command's write of a register act at the next boundary (R31, R333). -/
def Dev.cmdReady (d : Dev) : Prop := d.inReset = false ∧ d.role = .active ∧ d.bootOver = true ∧ d.ticking = true

/-- From `d` to `e` one change of register `off` has been added to those that wait for the next boundary: its mask and the bits it brings. -/
def Dev.pends (d e : Dev) (off mask bits : Nat) : Prop :=
  ∃ p : PendWr, e.pendTick = d.pendTick ++ [p] ∧ p.off = off ∧ p.due = d.tick + 1 ∧ p.mask = mask ∧ p.val &&& mask = bits

/-- From `d` to `e` only registers, the changes that wait for a boundary and the cycle may differ. -/
def Dev.regsOnly (d e : Dev) : Prop := e = { d with regs := e.regs, live := e.live, pendTick := e.pendTick, cycle := e.cycle }

/-- A direct write of a register of block `b` is not refused as a whole: its domain is on, and LOCKNC does not bar it (R347, R415). -/
def Dev.open_ (d : Dev) (b : Nat) : Prop := d.blockOn b = true ∧ (bit (d.reg R.cmdPolicy) 1 = false ∨ dataPlane.contains b = false)

/-- Memory, fuses and the queue are the same. -/
def State.outside (z t : State) : Prop := t.sys.mem = z.sys.mem ∧ t.sys.otp = z.sys.otp ∧ t.pending = z.pending

/-- Registers of blocks other than those of the list keep their stored value and their value in use. -/
def Dev.keepsOut (d e : Dev) (blks : List Nat) : Prop := ∀ off, off / 0x10000 ∉ blks → e.reg off = d.reg off ∧ e.lv off = d.lv off

/-- The command answers a next state; memory, fuses and the queue are the same, and the device there satisfies `p`. -/
def State.leads (z : State) (r : Res) (p : Dev → Prop) : Prop := ∃ t, r = .next t ∧ z.outside t ∧ p t.sys.dev

/-- The command answers a next state; fuses and the queue are the same, and the system there satisfies `p`. -/
def State.leadsSys (z : State) (r : Res) (p : Sys → Prop) : Prop := ∃ t, r = .next t ∧ t.sys.otp = z.sys.otp ∧ t.pending = z.pending ∧ p t.sys

/-- Memory at `t` holds the bytes `bs` from address `a`, and every other byte as at `s`. -/
def Sys.stored (s t : Sys) (a : Nat) (bs : List Byte) : Prop :=
  t.mem.bytes a bs.length = bs ∧ ∀ x, x < a ∨ a + bs.length ≤ x → t.mem.get x = s.mem.get x

/-- No command waits, on a queue or on a ring, and no answer is owed: CMD has nothing to take when it runs. -/
def Dev.cmdQuiet (d : Dev) : Prop := d.cmd.wait = [] ∧ d.cmd.owed = [] ∧ ∀ r, r < 2 → d.rf (R.cmdChead r) 0 12 = d.rf (R.cmdCtail r) 0 12

/-- The messages that have left on the mirror, oldest first. -/
def Dev.told (d : Dev) : List MirMsg := d.out.mir.map (fun f => f.msg)

/-- A message to the partner leaves at once: the link is up, no reset of the management plane stops the traffic, and the real-time cap of the tick
has room for the longest (R29, R322, R323). -/
def Dev.mirReady (d : Dev) : Prop := d.rf R.mirStat 0 1 = 1 ∧ d.mgmtRst = none ∧ d.pair.rtSent + 6144 ≤ rtCap

/-- A message to the partner has left or waits for the next tick's cap (R323). -/
def Dev.speaks (d : Dev) (m : MirMsg) : Prop := m ∈ d.told ∨ m ∈ d.pair.queued

/-- The flag of source `src` of block `b` is set. -/
def Dev.flag (d : Dev) (b src : Nat) : Prop := d.rf (R.fltstat b) src 1 = 1

/-- From `d` to `e` the 64-bit counter at `off` has counted `n` more. -/
def Dev.counts (d e : Dev) (off n : Nat) : Prop := e.w64 off = (d.w64 off + n) % 2 ^ 64

end Sys2Proof.Machine
end

