-- ==== Sys2Proof/Certificates/Slice0/Obligations.lean ====
section
/-!
DEFINITION. The statements about the model that are put to the provers.
-/
open Sys2Proof Sys2Proof.Machine

/-- ADD, SUB, NEG, ABS and SHL compute exactly and narrow by the sat bit. Where a lane issues one of these with its register numbers and count in
range, the command completes: the exact result of the operands as signed 32-bit integers, saturated to -2^31..2^31-1 with sat = 1 and taken
modulo 2^32 with sat = 0, becomes a result of latency 1 for the destination register with the rank of the X slot, and nothing else of the state
changes but what the issue itself moves. -/
def Obligations.XSlotArithmetic : Prop :=
  ∀ (z : State) (i : Issue) (s1 : Sys) (x : LaneCtx) (d s t n : Nat) (sat : Bool), z.Issues i s1 x → d < 16 → s < 16 → t < 16 → n < 32 →
    let narrow := fun (r : Int) => (BitVec.ofInt 32 (if sat then min (max r (-2147483648)) 2147483647 else r)).toNat
    exec (.add i d s t sat) z = .next (z.issued s1 (x.res (.d d) 1 (narrow ((x.d s).toInt + (x.d t).toInt)) rankX)) ∧
    exec (.sub i d s t sat) z = .next (z.issued s1 (x.res (.d d) 1 (narrow ((x.d s).toInt - (x.d t).toInt)) rankX)) ∧
    exec (.neg i d s sat) z = .next (z.issued s1 (x.res (.d d) 1 (narrow (-(x.d s).toInt)) rankX)) ∧
    exec (.abs i d s sat) z = .next (z.issued s1 (x.res (.d d) 1 (narrow ((x.d s).toInt.natAbs : Int)) rankX)) ∧
    exec (.shl i d s n sat) z = .next (z.issued s1 (x.res (.d d) 1 (narrow ((x.d s).toInt * ((2 ^ n : Nat) : Int))) rankX))

/-- AND, OR, XOR, MOV, MOVIL, MOVIH, SHR, SHRL, MIN and MAX. Where a lane issues one of these with its operands in range, the command completes: the
bitwise, copied, immediate, shifted or selected value becomes a result of latency 1 for the destination register. MOVIL sign-extends its 14-bit
immediate, MOVIH places it at bit 18, SHR is the floor of Ds / 2^n, SHRL lets zeros enter. -/
def Obligations.XSlotMoves : Prop :=
  ∀ (z : State) (i : Issue) (s1 : Sys) (x : LaneCtx) (d s t n imm : Nat), z.Issues i s1 x → d < 16 → s < 16 → t < 16 → n < 32 → imm < 16384 →
    let put := fun (v : Word) => (.next (z.issued s1 (x.res (.d d) 1 v.toNat rankX)) : Res)
    exec (.and i d s t) z = put (x.d s &&& x.d t) ∧
    exec (.or i d s t) z = put (x.d s ||| x.d t) ∧
    exec (.xor i d s t) z = put (x.d s ^^^ x.d t) ∧
    exec (.mov i d s) z = put (x.d s) ∧
    exec (.movil i d imm) z = put ((BitVec.ofNat 14 imm).signExtend 32) ∧
    exec (.movih i d imm) z = put (BitVec.ofNat 32 (imm * 2 ^ 18)) ∧
    exec (.shr i d s n) z = put ((x.d s).sshiftRight n) ∧
    exec (.shrl i d s n) z = put (x.d s >>> n) ∧
    exec (.min i d s t) z = put (if (x.d s).toInt ≤ (x.d t).toInt then x.d s else x.d t) ∧
    exec (.max i d s t) z = put (if (x.d t).toInt ≤ (x.d s).toInt then x.d s else x.d t)

/-- SHE, NORM, EXPO, RND, CLAMP and SEL. Where a lane issues one of these with its operands in range, the command completes with the value of the
X-slot pseudocode as a result of latency 1: a shift by the signed count in Dt[5:0] with -32 taken as -31, normalisation by and counting of
redundant sign bits, rounding half up to a multiple of 2^k, clamping between a pair of bounds, and selection by the sign or the zero of Dc. -/
def Obligations.XSlotSpecials : Prop :=
  ∀ (z : State) (i : Issue) (s1 : Sys) (x : LaneCtx) (d s t c p k : Nat) (sat : Bool),
    z.Issues i s1 x → d < 16 → s < 16 → t < 16 → c < 16 → p < 8 → k < 32 →
    let put := fun (v : Word) => (.next (z.issued s1 (x.res (.d d) 1 v.toNat rankX)) : Res)
    let narrow := fun (r : Int) => BitVec.ofInt 32 (if sat then min (max r (-2147483648)) 2147483647 else r)
    let a := max (BitVec.ofNat 6 (x.d t).toNat).toInt (-31)
    let r := ((x.d s).toInt + ((2 ^ k / 2 : Nat) : Int)) / ((2 ^ k : Nat) : Int) * ((2 ^ k : Nat) : Int)
    (∀ n, (n ≤ 31 ∧ (∀ j, j < n → (x.d s).getLsbD (30 - j) = (x.d s).getLsbD 31) ∧ (n < 31 → (x.d s).getLsbD (30 - n) ≠ (x.d s).getLsbD 31)) →
      exec (.expo i d s) z = put (BitVec.ofNat 32 n) ∧
      exec (.norm i d s) z = put (BitVec.ofInt 32 ((x.d s).toInt * ((2 ^ n : Nat) : Int)))) ∧
    exec (.she i d s t sat) z = put (if 0 ≤ a then narrow ((x.d s).toInt * ((2 ^ a.toNat : Nat) : Int))
      else BitVec.ofInt 32 ((x.d s).toInt / ((2 ^ (-a).toNat : Nat) : Int))) ∧
    (1 ≤ k → exec (.rnd i d s k sat) z = put (BitVec.ofInt 32 (if r ≤ 2147483647 then r else if sat then 2147483648 - ((2 ^ k : Nat) : Int) else r))) ∧
    exec (.rnd i d s 0 sat) z = put (x.d s) ∧
    exec (.clamp i d s p) z = put (BitVec.ofInt 32 (min (max (x.d s).toInt (x.d (2 * p)).toInt) (x.d (2 * p + 1)).toInt)) ∧
    exec (.sel i d s t c 0) z = put (if (x.d c).toInt < 0 then x.d s else x.d t) ∧
    exec (.sel i d s t c 1) z = put (if (x.d c).toInt < 0 then x.d t else x.d s) ∧
    exec (.sel i d s t c 2) z = put (if x.d c = 0 then x.d s else x.d t) ∧
    exec (.sel i d s t c 3) z = put (if x.d c = 0 then x.d t else x.d s)

/-- GSTEP completes and moves a gain towards its target, never past it. Where a lane issues GSTEP with distinct pairs the command completes with
two results of latency 2, one for each register of the gain pair. Bit 16 of the second word is the sign of the sample with zeros above it; a gain
at its target (a negative one taken as zero) keeps it and reloads the countdown; without a due step the gain stays and the countdown falls by one
modulo 2^16. A gain that is at least zero stays between its old value and the target, both included. -/
def Obligations.GainStepMeetsItsTarget : Prop :=
  ∀ (z : State) (i : Issue) (s1 : Sys) (x : LaneCtx) (gp cp s : Nat), z.Issues i s1 x → gp < 8 → cp < 8 → s < 16 → gp ≠ cp →
    let g := (x.d (2 * gp)).toInt
    let t := max (x.d (2 * cp)).toInt 0
    let cnt := (x.d (2 * gp + 1)).toNat % 65536
    let ps := (x.d (2 * gp + 1)).getLsbD 16
    let reload := (x.d (2 * cp + 1)).toNat / 65536
    let neg := (x.d s).getLsbD 31
    let due := x.d s = 0 ∨ neg ≠ ps ∨ (reload ≠ 0 ∧ cnt ≤ 1)
    ∃ v w : Word, exec (.gstep i gp cp s) z = .next (z.issued s1 ((x.res (.d (2 * gp)) 2 v.toNat rankX).res (.d (2 * gp + 1)) 2 w.toNat rankX)) ∧
      (0 ≤ g → min g t ≤ v.toInt ∧ v.toInt ≤ max g t) ∧
      w.toNat / 65536 = (if neg then 1 else 0) ∧
      (g = t → v.toInt = g ∧ w.toNat % 65536 = reload) ∧
      (g ≠ t → due → w.toNat % 65536 = reload) ∧
      (g ≠ t → ¬due → v.toInt = g ∧ w.toNat % 65536 = (cnt + 65535) % 65536)

/-- MAC, MSU, MPY, MPYN, ACLR, AADD, ALD and EXT. Where a lane issues one of these in the M or the N slot with its fields in range, the command
completes: the enabled accumulators of the pair take the sum, difference, product or negated product by the operand routing of FORM, a cleared
accumulator takes zero, AADD combines the reader value of its source, ALD takes the D value times 2^(31+sh), all as chain operations with the
rank of the slot; EXT gives floor(A x 2^sh / 2^31 + 1/2), narrowed by its sat bit, as a D result of latency 1 and leaves the accumulators alone. -/
def Obligations.AccumulatorOperations : Prop :=
  ∀ (z : State) (i : Issue) (s1 : Sys) (x : LaneCtx) (ns : Bool) (ap xp yp form a b d : Nat) (sh : BitVec 4) (sub sat : Bool),
    z.Issues i s1 x → ap < 2 → xp < 8 → yp < 8 → form < 4 → a < 4 → b < 4 → a ≠ b → d < 16 →
    let sl : Slot := if ns then .n else .m
    let rk := if ns then rankN else rankM
    let f := fun (en : Nat) => ({ ap := ap, xp := xp, yp := yp, form := form, en := en } : MacF)
    let e : Word × Word := if form = 3 then (x.d (2 * xp + 1), x.d (2 * yp)) else if form = 1 then (x.d (2 * xp), x.d (2 * yp + 1)) else (x.d (2 * xp), x.d (2 * yp))
    let o : Word × Word := if form = 2 then (x.d (2 * xp), x.d (2 * yp + 1)) else if form = 1 then (x.d (2 * xp + 1), x.d (2 * yp)) else (x.d (2 * xp + 1), x.d (2 * yp + 1))
    let pe := BitVec.ofInt 72 (e.1.toInt * e.2.toInt)
    let po := BitVec.ofInt 72 (o.1.toInt * o.2.toInt)
    let done := fun (y : LaneCtx) => (.next (z.issued s1 y) : Res)
    let r := ((x.a a).toInt * ((2 ^ (sh.toInt + 8).toNat : Nat) : Int) + ((2 ^ 38 : Nat) : Int)) / ((2 ^ 39 : Nat) : Int)
    exec (.mac i sl (f 1)) z = done (x.chain (2 * ap) rk (fun c => c + pe)) ∧
    exec (.mac i sl (f 2)) z = done (x.chain (2 * ap + 1) rk (fun c => c + po)) ∧
    exec (.mac i sl (f 3)) z = done ((x.chain (2 * ap) rk (fun c => c + pe)).chain (2 * ap + 1) rk (fun c => c + po)) ∧
    exec (.msu i sl (f 3)) z = done ((x.chain (2 * ap) rk (fun c => c - pe)).chain (2 * ap + 1) rk (fun c => c - po)) ∧
    exec (.mpy i sl (f 3)) z = done ((x.chain (2 * ap) rk (fun _ => pe)).chain (2 * ap + 1) rk (fun _ => po)) ∧
    exec (.mpyn i sl (f 3)) z = done ((x.chain (2 * ap) rk (fun _ => -pe)).chain (2 * ap + 1) rk (fun _ => -po)) ∧
    exec (.aclr i sl (2 ^ a)) z = done (x.chain a rk (fun _ => 0)) ∧
    exec (.aadd i sl a b sub) z = done (x.chain a rk (fun c => if sub then c - x.a b else c + x.a b)) ∧
    exec (.ald i sl a d sh.toNat) z = done (x.chain a rk (fun _ => BitVec.ofInt 72 ((x.d d).toInt * ((2 ^ (31 + sh.toInt).toNat : Nat) : Int)))) ∧
    exec (.ext i sl a d sh.toNat sat) z =
      done (x.res (.d d) 1 (BitVec.ofInt 32 (if sat then min (max r (-2147483648)) 2147483647 else r)).toNat rk)

/-- A chain operation combines with the latest chain result at once, its readers wait three bundles. The first chain operation on an accumulator in
an issue makes its function of the latest chain value the new one and pends it for readers at latency 3; one in the next issue combines with that
value although it is not yet visible; readers at the two issues in between still see the old accumulator, and from the third on the new one. -/
def Obligations.ChainForwarding : Prop :=
  ∀ (x : LaneCtx) (a rk rk' : Nat) (f g : BitVec 72 → BitVec 72), a < 4 → x.ln.chain.length = 4 → x.ln.a.length = 4 →
    (x.ln.chain.getD a {}).iss ≠ some x.k → (x.ln.chain.getD a {}).iss ≠ some (x.k + 1) → (∀ q ∈ x.ln.pend, q.dst ≠ .a a) →
    let y := x.chain a rk f
    let v := f (x.ln.chain.getD a {}).cur
    y.dev = x.dev ∧ y.mem = x.mem ∧
    (y.ln.chain.getD a {}).cur = v ∧
    ((({ y with k := x.k + 1 } : LaneCtx).chain a rk' g).ln.chain.getD a {}).cur = g v ∧
    (y.ln.settle (x.k + 1)).a.getD a 0 = x.ln.a.getD a 0 ∧
    (y.ln.settle (x.k + 2)).a.getD a 0 = x.ln.a.getD a 0 ∧
    (y.ln.settle (x.k + 3)).a.getD a 0 = v

/-- A result of latency k is read from issue b + k on, and not before. A result that collides with no pending one changes nothing of the lane but its
pending results, and nothing of device or memory; an operation that reads the D register at an issue before the latency has passed reads the old
value, one at or after it the new value, with no other result pending for that register; every other D register and every pointer and modifier
without a pending result is read as it was. -/
def Obligations.ResultsBecomeVisibleAfterTheirLatency : Prop :=
  ∀ (x : LaneCtx) (d lat val rk k : Nat), d < x.ln.d.length → (∀ q ∈ x.ln.pend, q.dst ≠ .d d) → val < 2 ^ 32 →
    let y := x.res (.d d) lat val rk
    y.dev = x.dev ∧ y.mem = x.mem ∧ y.ln.d = x.ln.d ∧ y.ln.a = x.ln.a ∧ y.ln.p = x.ln.p ∧ y.ln.m = x.ln.m ∧ y.ln.pc = x.ln.pc ∧
    (k < x.k + lat → ((y.ln.settle k).d.getD d 0) = x.ln.d.getD d 0) ∧
    (x.k + lat ≤ k → ((y.ln.settle k).d.getD d 0).toNat = val) ∧
    (∀ e, e ≠ d → (y.ln.settle k).d.getD e 0 = (x.ln.settle k).d.getD e 0)

/-- Of two results for one register in one bundle the higher rank is kept, with LANE_ERR kind 3. Where one result of the present issue is pending for
a D register at the same issue as a new one of the same issue, the new one replaces it when its slot ranks at least as high and is dropped when
it ranks lower; either way the lane is marked in error and LANE_ERR kind 3 is raised. -/
def Obligations.CollidingResultsKeepTheLaterRank : Prop :=
  ∀ (x : LaneCtx) (d lat v w rk rk' : Nat), x.ln.free (.d d) (x.k + lat) →
    let y := x.res (.d d) lat v rk
    let u := y.res (.d d) lat w rk'
    let p := fun (val r : Nat) => ({ due := x.k + lat, dst := .d d, val := val, iss := x.k, rank := r } : Pend)
    y.ln.pend = x.ln.pend ++ [p v rk] ∧
    u.ln.pend = x.ln.pend ++ [if rk ≤ rk' then p w rk' else p v rk] ∧
    u.ln.err = true ∧ bit (u.dev.reg (R.fltstat Blk.eng)) Src.engLaneErr = true

/-- LD and LDX load from the address that the pointer gives. Where a lane issues an LD of state or coefficient memory with a free port, a pointer
inside the memory and no double-bit error there, the word of the lane's own memory at that word address becomes a result of latency 2 for Dd; an
LDX with its coefficient access alone reads the pair at Pp and modifies the pointer afterwards. Mode 0b00 leaves the pointer. -/
def Obligations.LaneLoads : Prop :=
  ∀ (z : State) (i : Issue) (s1 : Sys) (x : LaneCtx) (d p pr md : Nat), z.Issues i s1 x → d < 16 → p < 8 → pr < 8 → md < 4 → 
    let ptr := (x.p p).toNat
    let c := coefBase x.n + 4 * ptr
    let t := stateBase x.n + 4 * ptr
    (∀ a, x.dev.eng.ecc2.contains a = false) →
    (x.ln.cBusy = false → ptr < 32768 →
      exec (.ld i { wide := false, d := d, bus := 1, reg := 0, p := p, mode := 0, imm := 0 }) z =
        .next (z.issued s1 (({ x with ln := { x.ln with cBusy := true } } : LaneCtx).res (.d d) 2 (x.mem.word c).toNat rankT))) ∧
    (x.ln.trBusy = false → ptr < 16384 →
      exec (.ld i { wide := false, d := d, bus := 2, reg := 0, p := p, mode := 0, imm := 0 }) z =
        .next (z.issued s1 (({ x with ln := { x.ln with trBusy := true } } : LaneCtx).res (.d d) 2 (x.mem.word t).toNat rankT))) ∧
    (x.ln.cBusy = false → ptr < 32768 → ptr % 2 = 0 →
      exec (.ldx i {} { en := true, pr := pr, ptr := p, md := md } {} false) z =
        .next (z.issued s1 (((({ x with ln := { x.ln with cBusy := true } } : LaneCtx).res (.d (2 * pr)) 2 (x.mem.word c).toNat rankC).res
          (.d (2 * pr + 1)) 2 (x.mem.word (c + 4)).toNat rankC).res (.p p) 1 (modifyPtr (x.p p) (x.m md)).toNat rankC)))

/-- ST and STX store to the lane's state memory at the pointer, in the issue cycle. Where a lane issues a 32-bit ST or an STX to state memory with a
free write port and a pointer inside it, the word or the pair is among the stores of the issue at the lane's own byte address for that word
pointer; the pointer stays with mode 0b00 and with U = 0; no byte of memory changes before the issue closes, and no register of the lane changes. -/
def Obligations.LaneStores : Prop :=
  ∀ (z : State) (i : Issue) (s1 : Sys) (x : LaneCtx) (d p q : Nat), z.Issues i s1 x → d < 16 → p < 8 → q < 8 → x.ln.tw = none → (x.p p).toNat < 16384 →
    let a := stateBase x.n + 4 * (x.p p).toNat
    let put := fun (rank : Nat) (l : List StoreReq) =>
      (.next (z.issued s1 { x with
        ln := { x.ln with tw := some rank }
        dev := { x.dev with eng := { x.dev.eng with stores := x.dev.eng.stores ++ l } } }) : Res)
    exec (.st i { wide := false, d := d, bus := 2, reg := 0, p := p, mode := 0, imm := 0 }) z =
      put rankT [{ lane := x.n, addr := a, val := x.d d, sptr := none }] ∧
    ((x.p p).toNat % 2 = 0 → exec (.stx i q p 0 false) z =
      put rankX [{ lane := x.n, addr := a, val := x.d (2 * q), sptr := none }, { lane := x.n, addr := a + 4, val := x.d (2 * q + 1), sptr := none }])

/-- PSET, PADD, MSETL, MSETH, REP, EOT and NOP. Where a lane issues PSET, PADD, MSETL or MSETH, the pointer or the half of the modifier takes its new
value with latency 1; REP with no loop active takes L0 with its count and the next len bundles as body; EOT outside a loop, within the declared
cycles and the pair ceiling, fixes the lane's end cycle at its issue cycle; NOP in any slot changes nothing but what the issue itself moves. Opcode 0 is
NOP in every slot, and the all-zero bundle is a four-slot NOP (R74). -/
def Obligations.PointersModifiersAndLoops : Prop :=
  (∀ (z : State) (i : Issue) (s1 : Sys) (x : LaneCtx) (p m imm count len : Nat) (sl : Slot), z.Issues i s1 x → p < 8 → m < 4 → imm < 65536 →
    let done := fun (y : LaneCtx) => (.next (z.issued s1 y) : Res)
    exec (.pset i p imm) z = done (x.res (.p p) 1 imm rankT) ∧
    exec (.padd i p imm) z = done (x.res (.p p) 1 (((x.p p).toNat + imm) % 2 ^ 16) rankT) ∧
    exec (.msetl i m imm) z = done (x.res (.ml m) 1 imm rankT) ∧
    exec (.mseth i m imm) z = done (x.res (.mh m) 1 imm rankT) ∧
    (1 ≤ count → count ≤ 65535 → 1 ≤ len → len ≤ 32 → x.ln.loops = [] →
      exec (.rep i count len) z = done { x with ln := { x.ln with
        loops := [{ first := x.ln.pc + 1, last := x.ln.pc + len, left := count - 1 }]
        l := [BitVec.ofNat 16 count, 0] } }) ∧
    (x.ln.loops = [] → x.dev.endFaults x.n x.cyc = [] →
      exec (.eot i) z = done { x with ln := { x.ln with endC := some (x.k + x.dev.eng.stalls) } }) ∧
    exec (.nop i sl) z = done x) ∧
  decodeBundle 0 = .ok { l := .nop, m := .nop, n := .nop, x := .nop } ∧
  (∀ (v : Nat) (o : TOp), decodeL v = some o → fld v 26 6 = 0 → o = .nop) ∧
  (∀ (v : Nat) (o : TOp), decodeMN v = some o → fld v 15 5 = 0 → o = .nop) ∧
  (∀ (v : Nat) (o : TOp), decodeX v = some o → fld v 18 6 = 0 → o = .nop)


/-- A bundle with an operation that is not valid executes as a four-slot NOP, with LANE_ERR kind 3. REP with a count or a length out of range, an LDX
with no access enabled, GSTEP on one pair twice, AADD of an accumulator to itself and a MAC with both halves disabled change no register of the
lane and not its place; of the results still to come only those of this bundle, and of the stores and requests waiting only this lane's, are
taken back; the lane is marked in error and LANE_ERR kind 3 is raised with the lane and its bundle. A further slot of the bundle does nothing. -/
def Obligations.InvalidTilthOperationIsALaneError : Prop :=
  ∀ (z : State) (i : Issue) (s1 : Sys) (x : LaneCtx) (gp s a len : Nat) (sl : Slot) (f : MacF) (sub : Bool), z.Issues i s1 x →
    let y := x.void 3
    let t := z.issued s1 y
    exec (.rep i 0 len) z = .next t ∧ exec (.rep i 1 0) z = .next t ∧ exec (.ldx i {} {} {} false) z = .next t ∧ exec (.gstep i gp gp s) z = .next t ∧
      exec (.aadd i sl a a sub) z = .next t ∧ (f.en = 0 → exec (.mac i sl f) z = .next t) ∧
      y.ln.d = x.ln.d ∧ y.ln.a = x.ln.a ∧ y.ln.p = x.ln.p ∧ y.ln.m = x.ln.m ∧ y.ln.pc = x.ln.pc ∧ y.ln.iss = x.ln.iss ∧ y.mem = x.mem ∧
      y.ln.pend = x.ln.pend.filter (fun p => p.iss != x.k) ∧ y.ln.err = true ∧
      y.dev = (({ x.dev with eng := { x.dev.eng with
        stores := x.dev.eng.stores.filter (fun r => r.lane != x.n)
        sreqs := x.dev.eng.sreqs.filter (fun r => r.lane != x.n) } } : Dev).raise Blk.eng Src.engLaneErr x.n 3 x.ln.pc) ∧
      (i.lane < x.dev.eng.lanes.length → ∀ dd ss tt sat, exec (.add i dd ss tt sat) t = .next t ∧ exec (.mac i sl f) t = .next t ∧
        exec (.eot i) t = .next t)

/-- A running lane executes at the issue it has reached, with the results due by then visible. In a running lane that has not ended before, at an
issue that is its next one and the engine's present one, within the program window, with no double-bit error among its instruction words, the
lane's context is the lane with every result due by that issue visible, at the cycle of the issue plus the stalls so far; a lane that does not
run, and one that has ended at an earlier issue, executes nothing. -/
def Obligations.LaneIssuesInOrder : Prop :=
  ∀ (z : State) (i : Issue), z.Running →
    let d := z.sys.dev
    let l := d.eng.lanes.getD i.lane {}
    (d.laneRuns i.lane = true → d.eng.issue = i.k → l.iss = i.k → l.void = false → d.badBundles i.lane = [] → i.k + d.eng.stalls < 9984 →
      z.Issues i z.sys { n := i.lane, k := i.k, mem := z.sys.memSeen (i.k + d.eng.stalls), ln := l.settle i.k, dev := { d with cycle := i.k + d.eng.stalls } }) ∧
    (d.laneRuns i.lane = false → ∀ sl x y dd s t sat, exec (.nop i sl) z = .next z ∧ exec (.eot i) z = .next z ∧
      exec (.add i dd s t sat) z = .next z ∧ exec (.st i x) z = .next z ∧ exec (.mac i sl y) z = .next z) ∧
    (d.laneRuns i.lane = true → d.eng.issue = i.k → l.iss < i.k → l.endC.isSome = true → i.k + d.eng.stalls < 9984 →
      ∀ sl x y dd s t sat, exec (.nop i sl) z = .next z ∧ exec (.eot i) z = .next z ∧
      exec (.add i dd s t sat) z = .next z ∧ exec (.st i x) z = .next z ∧ exec (.mac i sl y) z = .next z)

/-- The stores of an issue reach memory in lane order and touch no other byte. When an issue cycle closes, every byte outside the four bytes of each
of its stores reads as before; with one store to an address its word reads there afterwards; of two stores to one word the higher-numbered lane's
value remains, and where the source has its severity of reset, S1, one posting of WR_COLLIDE at S1 is made that names the lower and the higher
lane. -/
def Obligations.StoresLandWhenTheIssueCloses : Prop :=
  (∀ (s : Sys) (a : Nat), s.mem.wf = true → (∀ r ∈ s.dev.eng.stores, a < r.addr ∨ r.addr + 4 ≤ a) → s.closeIssue.mem.get a = s.mem.get a) ∧
  (∀ (s : Sys) (r : StoreReq), s.mem.wf = true → s.dev.eng.stores = [r] → s.closeIssue.mem.word r.addr = r.val) ∧
  (∀ (s : Sys) (r q : StoreReq), s.mem.wf = true → s.dev.eng.stores = [r, q] → q.addr = r.addr → q.lane ≠ r.lane →
    s.closeIssue.mem.word r.addr = if r.lane < q.lane then q.val else r.val) ∧
  (∀ (s : Sys) (r q : StoreReq), s.dev.eng.stores = [r, q] → q.addr = r.addr → q.lane ≠ r.lane → r.lane < 48 → q.lane < 48 →
    s.dev.severity Blk.eng Src.engWrCollide = 1 → ∃ p : Posting, s.closeIssue.dev.evt.path = s.dev.evt.path ++ [p] ∧ p.blk = Blk.eng ∧
      p.src = Src.engWrCollide ∧ p.sev = 1 ∧ p.d0 = min r.lane q.lane ∧ p.d1 = max r.lane q.lane) ∧
  State.reset.sys.dev.severity Blk.eng Src.engWrCollide = 1

/-- A step runs the command at the front of the queue. For every command c, every queue q behind it and every state, a step of the state with c in
front is exec of c on the state with q left in the queue; with nothing waiting a step leaves the state as it is (log entry 10: the idle step is
the model's own). -/
def Obligations.StepRunsTheFrontCommand : Prop :=
  (∀ (c : Instr) (q : List Instr) (s : State), step { s with pending := c :: q } = exec c { s with pending := q }) ∧
    ∀ (s : State), s.pending = [] → step s = .next s

/-- Every command gives a next state and leaves the queue alone. For every command and every state exec answers a next state, never a fault or a
refusal, and the commands that wait are the same before and after. -/
def Obligations.EveryCommandCompletes : Prop :=
  ∀ (c : Instr) (z : State), ∃ t, exec c z = .next t ∧ t.pending = z.pending

/-- What a cold reset leaves. In the state after reset nothing waits, memory lists nothing and is canonical, the tick and its cycle are 0, every
register read of the register table gives its reset value, 64-bit registers read 0, every lane register is zero, the agenda is empty, every fuse
is blank, the device is not paired and the clock is not yet locked. That the fuses are blank and memory empty is the model's own (log entries 1
and 2). -/
def Obligations.ResetState : Prop :=
  State.reset.pending = [] ∧ State.reset.Inv ∧ State.reset.sys.mem = [] ∧ State.reset.sys.dev.tick = 0 ∧ State.reset.sys.dev.cycle = 0 ∧
    (∀ off, State.reset.sys.dev.reg off = resetVal off ∧ State.reset.sys.dev.lv off = resetVal off ∧ State.reset.sys.dev.w64 off = 0) ∧
    (∀ n k, ((State.reset.sys.dev.eng.lanes.getD n {}).d.getD k 0) = 0) ∧ State.reset.sys.dev.agenda = [] ∧ State.reset.sys.otp = {} ∧
    State.reset.sys.dev.paired = false ∧ State.reset.sys.dev.ticking = false

/-- Every step keeps memory in its canonical form. Addresses rise strictly and no byte is listed that reads as an unlisted one: whatever the command
at the front of the queue, if memory has this form before a step it has it after. (The form is the model's own representation of the internal
address map, log entry 2.) -/
def Obligations.MemoryStaysCanonical : Prop :=
  ∀ s t : State, s.Inv → step s = .next t → t.Inv

/-- No step takes a burned fuse back. Whatever the command at the front of the queue, over a step the root key, the signing-key hashes with their
valid bits and the subsystem identifiers are the same, a revoked key stays revoked, and no key floor falls. -/
def Obligations.FusesOnlyBurn : Prop :=
  ∀ s t : State, step s = .next t → s.sys.otp.burnedTo t.sys.otp

/-- A device held in reset acts on nothing but the resets, the lease keeper and the return of its clock. While RESET_N holds the device in reset,
every command other than POWER_ON_RESET, WARM_RESET, PERST, LEASE_KEEPER_EXPIRE, FUSE_DONE and XO_EDGES_RETURN leaves the whole state as it is,
and every output is high-impedance or an idle transmitter but FAULT_N, which is low while asserted.
Where it goes beyond the words of the rules it states the model's readings of log entries 15 and 166. -/
def Obligations.HeldInResetNothingActs : Prop :=
  ∀ (c : Instr) (z : State), z.sys.dev.inReset = true →
    z.sys.dev.pin .faultN = (if z.sys.dev.bbx.faultN then .low else .z) ∧
    (∀ p, p ≠ .faultN → z.sys.dev.pin p = .z ∨ z.sys.dev.pin p = .idle) ∧
    (match c with
      | .powerOnReset _ _ _ => True
      | .warmReset _ _ _ => True
      | .perst _ _ => True
      | .leaseKeeperExpire _ => True
      | .fuseDone _ _ => True
      | .xoEdgesReturn => True
      | _ => exec c z = .next z)

/-- While the MDLL is not locked no event of the tick acts. With SYN.STAT.LOCK at 0 the boundary, the capture point, the agenda, the rotation, every
issue of a lane, and the timed events of ports, streams, modulators, pair and clocks leave the whole state as it is.
Where it goes beyond the words of the rules it states the model's readings of log entries 15 and 81. -/
def Obligations.WithoutATickNothingTimedActs : Prop :=
  ∀ (z : State), z.sys.dev.rf R.synStat 1 1 = 0 → ∀ (i : TickIn) (iss : Issue) (n c k : Nat) (sl : Slot) (st : StatusF) (b : ModBlk) (h : MirHdr) (bs : List Byte) (rx : Bool),
    exec (.tickBoundary i) z = .next z ∧ exec .capturePoint z = .next z ∧ exec .agendaApply z = .next z ∧ exec (.halfRotate n) z = .next z ∧
    exec .immediateExecute z = .next z ∧ exec (.nop iss sl) z = .next z ∧ exec (.eot iss) z = .next z ∧ exec (.frameReceive n bs rx c) z = .next z ∧
    exec .streamCutoff z = .next z ∧ exec .streamRelease z = .next z ∧ exec .loopCompute z = .next z ∧ exec (.carrierPeriod n k c) z = .next z ∧
    exec (.statusReceive st h) z = .next z ∧ exec (.modBlockReceive b h) z = .next z ∧ exec .statusSend z = .next z ∧ exec (.historyRecord c) z = .next z

/-- The boundary counts the tick, takes due changes live, then runs the blocks in order. With the tick running, TICK_BOUNDARY ends in the state in
which, in this order: the tick has moved on by one modulo 2^48 to cycle 0 (no adoption pending) and the changes due have gone live, serial ports,
the time map, the pair, modulators, streams and the engine, the other blocks, and the records of the boundary have had theirs, clears, domain
switches and sleep have acted, and a replay that was waiting has begun. After the first of these steps the tick is the next one at cycle 0, no pending change due by it is left, and a
lone pending change of an ordinary register has its masked bits in use.
Where it goes beyond the words of the rules it states the model's readings of log entries 9, 103. -/
def Obligations.TickBoundary : Prop :=
  (∀ (z : State) (i : TickIn), z.Running →
    let d := z.sys.dev
    let a := d.tickNext.tickApply d.tickNext.tick
    let s1 := (({ z.sys with dev := a.1 } : Sys).tdmBoundary).onDev (fun e =>
      ((e.timeBoundary i.time).pairBoundary d.evt.yieldT i.hold i.own i.rtt).modBoundary)
    let s2 := if s1.dev.engOff then s1 else (s1.onDev (fun e => e.strmBoundary)).engStart
    exec (.tickBoundary i) z = .next (z.put ((((s2.blocksBoundary i).boundaryEnd d.evt.yieldT).tickActs a.2).replayBegin))) ∧
  (∀ (d : Dev), d.pair.adopt = none → d.tickNext.tick = (d.tick + 1) % 2 ^ 48 ∧ d.tickNext.cycle = 0) ∧
  (∀ (d : Dev) (t : Nat), ∀ p ∈ (d.pendTake t).1.pendTick, t < p.due) ∧
  (∀ (d : Dev) (p : PendWr) (r : RegRow) (t : Nat), d.pendTick = [p] → p.due ≤ t → rowAt p.off = some r → p.sets = 0 →
    p.off ≠ R.timeStepacc → p.off ≠ R.engForce →
    (d.tickApply t).1.pendTick = [] ∧ (d.tickApply t).1.lv p.off = mergeBits (d.lv p.off) (p.mask &&& r.rw) p.val % 2 ^ 32 ∧
    (d.tickApply t).1.reg p.off = d.reg p.off ∧ (∀ off, off ≠ p.off → (d.tickApply t).1.lv off = d.lv off ∧ (d.tickApply t).1.reg off = d.reg off))

/-- The headland: capture, agenda, rotation, immediate commands. With the tick running: CAPTURE_POINT completes at cycle 9,984 with the pending
commit groups captured (of the closed window where the engine runs its own tick), the duties computed latched for the carrier, and a lease
holder's lease renewed. AGENDA_APPLY at 10,048 with nothing captured and no command waiting leaves an empty agenda as it is, and puts the value
of a due cell write at every placement of its cell, at no other byte, and off the agenda. HALF_ROTATE at 10,176, with any number of staging
descriptors unfinished, starts every lane again at bundle 0 with every register zero and nothing in flight. IMMEDIATE_EXECUTE at 10,048 executes
an immediate command for the next boundary that is not refused: its writes are made, its slot's record follows, it is acknowledged with its
boundary's tick and is gone; with none due it leaves everything but the cycle.
Where it goes beyond the words of the rules it states the model's readings of log entries 9, 84. -/
def Obligations.CaptureAgendaAndRotation : Prop :=
  ∀ (z : State), z.Running →
    let d := z.sys.dev
    let e := if d.engOff then d.atC 9984 else z.sys.engClose.dev.digestClose.1
    (∃ t, exec .capturePoint z = .next t ∧ t.sys.otp = z.sys.otp ∧ t.pending = z.pending ∧ t.sys.dev.cycle = 9984 ∧ t.sys.dev.tick = d.tick ∧
      t.sys.dev.capGrp = e.pendingGroups ∧ (∀ ch, ch < 48 → (t.sys.dev.modC ch).latchd = (e.modC ch).next) ∧
      (d.paired = true → d.role = .active → d.mgmtRst = none → t.sys.dev.pair.renew = d.tick)) ∧
    (d.agenda = [] → d.capGrp = [] → d.cmdQuiet → d.cmd.prev = [] →
      exec .agendaApply z = .next (z.onDev (fun d => d.atC 10048))) ∧
    (d.engOff = false → d.capGrp = [] → d.cmdQuiet → z.Inv → ∀ (en : AgEntry) (key : Nat) (val : List Byte) (sh : Sheaf) (c : SCell), d.agenda = [en] →
      en.tgt = d.tick + 1 → en.act = .cell key val → d.ldr.act = some sh → sh.cell key = some c →
      ∃ t, exec .agendaApply z = .next t ∧ t.sys.otp = z.sys.otp ∧ t.pending = z.pending ∧ t.sys.dev.agenda = [] ∧ t.sys.dev.cycle = 10048 ∧
        (∀ a, (∀ p ∈ c.places, a < coefBase p.lane + 4 * p.caddr ∨ coefBase p.lane + 4 * p.caddr + val.length ≤ a) → t.sys.mem.get a = z.sys.mem.get a) ∧
        (∀ p, c.places = [p] → t.sys.mem.bytes (coefBase p.lane + 4 * p.caddr) val.length = val)) ∧
    (d.engOff = false → ∀ late, ∃ t, exec (.halfRotate late) z = .next t ∧ t.sys.otp = z.sys.otp ∧ t.pending = z.pending ∧ t.sys.dev.cycle = 10176 ∧
      t.sys.dev.tick = d.tick ∧ t.sys.dev.eng.issue = 0 ∧ t.sys.dev.eng.stalls = 0 ∧ t.sys.dev.eng.stores = [] ∧
      (∀ n, t.sys.dev.eng.lanes.getD n {} = {}) ∧ (d.eng.stage = [] → t.sys.mem = z.sys.mem)) ∧
    (∀ (m : ImmCmd) (c : CmdIn) (fr : Option UdpFrom), d.cmd.imm = [m] → m.tgt = d.tick + 1 → m.wait = false → m.cmd = some c →
      d.cmd.owed = [{ num := c.num, src := 2, from_ := fr, reply := none }] →
      let i := ((d.atC 10048).onCmd (fun x => { x with imm := [] })).inflightStat
      let w := i.cmdWrites (.immediate m.tgt) m.tgt m.writes
      (i.immRefusal m.writes).2 = none → w.cmdQueued = 0 → w.w64 (R.tickSlotcnt m.slot) < m.ctr → m.ctr < 2 ^ 64 → m.tgt < 2 ^ 64 →
      ∃ t bs, exec .immediateExecute z = .next t ∧ z.outside t ∧ t.sys.dev.cmd.imm = [] ∧ t.sys.dev.pendTick = w.pendTick ∧
        (∀ off, t.sys.dev.reg off = w.reg off ∧ t.sys.dev.lv off = w.lv off) ∧ t.sys.dev.w64 (R.tickSlotcnt m.slot) = m.ctr ∧
        t.sys.dev.w64 (R.tickSlottgt m.slot) = m.tgt ∧
        t.sys.dev.out.replies = w.out.replies ++ [(2, fr, bs)] ∧ le bs 28 1 = 0 ∧ le bs 16 6 = m.tgt % 2 ^ 48) ∧
    ((∀ m ∈ d.cmd.imm, d.tick + 1 < m.tgt) → exec .immediateExecute z = .next (z.onDev (fun d => d.atC 10048)))

/-- The agenda applies what is due in the order of acceptance and keeps the rest. For the boundary into tick t, applying the agenda leaves exactly
the entries with later targets on it; a single due cell write puts its value at every placement of the cell in the active sheaf and at no other
byte; a single due step of the time counter moves its nanoseconds by the signed offset modulo 2^64 and keeps the fraction.
Where it goes beyond the words of the rules it states the model's readings of log entry 84. -/
def Obligations.AgendaEntriesApplyInOrder : Prop :=
  (∀ (s : Sys) (t : Nat) (e : AgEntry) (key : Nat) (val : List Byte) (sh : Sheaf) (c : SCell), s.mem.wf = true → s.dev.agenda = [e] → e.tgt ≤ t → e.act = .cell key val →
      s.dev.ldr.act = some sh → sh.cell key = some c →
      (s.agendaTo t).dev.agenda = [] ∧ (s.agendaTo t).dev.tick = s.dev.tick ∧
      (∀ a, (∀ p ∈ c.places, a < coefBase p.lane + 4 * p.caddr ∨ coefBase p.lane + 4 * p.caddr + val.length ≤ a) → (s.agendaTo t).mem.get a = s.mem.get a) ∧
      (∀ p, c.places = [p] → (s.agendaTo t).mem.bytes (coefBase p.lane + 4 * p.caddr) val.length = val)) ∧
    (∀ (s : Sys) (t : Nat) (e : AgEntry) (ofs : Int), s.dev.agenda = [e] → e.tgt ≤ t → e.act = .step ofs →
      (s.agendaTo t).dev.agenda = [] ∧ (s.agendaTo t).mem = s.mem ∧
      (s.agendaTo t).dev.timeNs % 2 ^ 64 = wrapN 64 ((s.dev.timeNow.timeNs : Int) + ofs) ∧
      (s.agendaTo t).dev.time.cnt % 2 ^ 32 = s.dev.timeNow.time.cnt % 2 ^ 32) ∧
    (∀ (s : Sys) (t : Nat), (∀ e ∈ s.dev.agenda, t < e.tgt) → (s.agendaTo t).mem = s.mem ∧ (s.agendaTo t).dev.agenda = s.dev.agenda)

/-- HELLO is answered without authentication, a malformed command with BADFRAME. With CMD idle, a HELLO of fewer than 1,000 in the second is answered
with STATUS 0, UNAUTH set, and a payload that begins with the 8 bytes of the nonce and SYS.ID, with no counter of any slot moved; bytes that fail
step 1 are answered with STATUS 0x01 and UNAUTH and counted twice, as a refusal and as a bad frame; memory, fuses, the agenda and the key slots
stay.
Where it goes beyond the words of the rules it states the model's readings of log entries 88, 90, 110. -/
def Obligations.HelloAndMalformed : Prop :=
  (∀ (z : State) (f : CmdFrame), z.sys.dev.cmdIdle → fits f [] → z.sys.dev.cmd.hello.getD 2 0 < 1000 →
      ∃ t, exec (.hello f) z = .next t ∧ z.outside t ∧ z.replied t f z.sys.dev.tick 0 ∧
        (∃ bs, t.sys.dev.out.replies = z.sys.dev.out.replies ++ [(2, f.from_, bs)] ∧ le bs 30 1 = 1 ∧ le bs 32 8 = z.sys.dev.nonce ∧
          le bs 40 4 = z.sys.dev.reg R.sysId) ∧
        t.sys.dev.agenda = z.sys.dev.agenda ∧ t.sys.dev.cmd.slots = z.sys.dev.cmd.slots ∧ z.sys.dev.keeps t.sys.dev [] ∧
        (∀ k, t.sys.dev.w64 (R.cmdSeen k) = z.sys.dev.w64 (R.cmdSeen k))) ∧
    (∀ (z : State) (bytes : List Byte) (from_ : Option UdpFrom) (c : Nat), z.sys.dev.cmdIdle → frameOk bytes = false →
      ∃ t bs, exec (.malformedCommand 2 bytes from_ c) z = .next t ∧ z.outside t ∧
        t.sys.dev.out.replies = z.sys.dev.out.replies ++ [(2, from_, bs)] ∧ le bs 28 1 = 0x01 ∧ le bs 30 1 = 1 ∧
        t.sys.dev.w64 (R.cmdCnt 1) = (z.sys.dev.w64 (R.cmdCnt 1) + 1) % 2 ^ 64 ∧ t.sys.dev.w64 (R.cmdCnt 3) = (z.sys.dev.w64 (R.cmdCnt 3) + 1) % 2 ^ 64 ∧
        t.sys.dev.agenda = z.sys.dev.agenda ∧ t.sys.dev.cmd.slots = z.sys.dev.cmd.slots)

/-- A command that fails its tag or meets an empty slot changes nothing it asks for. With CMD idle and a nonce, a command of any opcode but HELLO and
KEY_LOAD whose slot is empty, or whose tag is wrong under the slot's key, is answered with STATUS 0x02 or 0x03; memory, fuses, the agenda,
pending register changes, the loader, the engine, the pair's state, the key slots and every counter record stay as they were, and no register
changes but the fault registers of CMD.
Where it goes beyond the words of the rules it states the model's readings of log entries 4, 90. -/
def Obligations.UnauthenticCommandsChangeNothing : Prop :=
  ∀ (z : State) (f : CmdFrame) (off n key reason kk perm kind idx arg : Nat) (ofs : Int) (ws : List RegWr) (data : List Byte), z.sys.dev.cmdIdle →
    z.sys.dev.nonceOk = true →
    let calm := fun (op : Nat) (pay : List Byte) (r : Res) => fits f pay →
      (z.sys.dev.keySlot f.slot = none ∨ ∃ k, z.sys.dev.keySlot f.slot = some k ∧ z.sys.dev.tagOk k.key (frameOf f op pay) = false) →
      ∃ t, r = .next t ∧ z.outside t ∧ z.replied t f z.sys.dev.tick (if z.sys.dev.keySlot f.slot = none then 0x02 else 0x03) ∧
        t.sys.dev.agenda = z.sys.dev.agenda ∧ t.sys.dev.pendTick = z.sys.dev.pendTick ∧ t.sys.dev.ldr = z.sys.dev.ldr ∧ t.sys.dev.eng = z.sys.dev.eng ∧
        t.sys.dev.pair = z.sys.dev.pair ∧ t.sys.dev.cmd.slots = z.sys.dev.cmd.slots ∧
        (∀ k, t.sys.dev.w64 (R.cmdSeen k) = z.sys.dev.w64 (R.cmdSeen k) ∧ t.sys.dev.w64 (R.tickSlotcnt k) = z.sys.dev.w64 (R.tickSlotcnt k)) ∧
        z.sys.dev.keeps t.sys.dev [R.fltstat Blk.cmd, R.fltfirst Blk.cmd]
    calm 0x02 (leBytes 4 off ++ leBytes 4 n) (exec (.read f off n) z) ∧
    calm 0x10 (writePay ws) (exec (.write f ws) z) ∧
    calm 0x20 (leBytes 4 off ++ data) (exec (.storeWrite f off data) z) ∧
    calm 0x21 (leBytes 4 off ++ leBytes 4 n) (exec (.load f off n) z) ∧
    calm 0x22 [] (exec (.abort f) z) ∧ calm 0x23 [] (exec (.swap f) z) ∧
    calm 0x24 (leBytes 4 key ++ data) (exec (.cell f key data) z) ∧
    calm 0x30 (leBytes 8 (wrapN 64 ofs)) (exec (.step f ofs) z) ∧
    calm 0x40 (leBytes 4 reason) (exec (.bbxTrigger f reason) z) ∧
    calm 0x61 (leBytes 1 kk ++ leBytes 1 perm ++ leBytes 2 0) (exec (.keyRetire f kk perm) z) ∧
    calm 0x62 (leBytes 1 kind ++ leBytes 1 idx ++ leBytes 2 0 ++ data) (exec (.signRevoke f kind idx data) z) ∧
    calm 0x70 (leBytes 4 arg) (exec (.pairEnable f arg) z) ∧ calm 0x71 [] (exec (.pairDisable f) z) ∧ calm 0x72 [] (exec (.take f) z) ∧
    calm 0x73 [] (exec (.handover f) z) ∧ calm 0x74 [] (exec (.isolate f) z) ∧ calm 0x75 [] (exec (.rejoin f) z) ∧ calm 0x76 [] (exec (.resync f) z)

/-- READ, STORE_WRITE and BBX_TRIGGER execute at once. An accepted READ is acknowledged with the words that reads of its registers give, as its
payload, and leaves memory and fuses; an accepted STORE_WRITE inside the store and outside a load's image puts its data at the offset of the
sheaf store and changes no other byte; an accepted BBX_TRIGGER of a black box not triggered sets TRIGGERED with cause 3, counts it and makes the
TRIGGER record with its reason. Each is acknowledged with STATUS 0 and the present tick.
Where it goes beyond the words of the rules it states the model's readings of log entries 64, 90. -/
def Obligations.UnitCommands : Prop :=
  (∀ (z : State) (f : CmdFrame) (off n : Nat), z.accepts f 0x02 (leBytes 4 off ++ leBytes 4 n) → off < 2 ^ 32 → n < 2 ^ 32 →
      ∃ t, exec (.read f off n) z = .next t ∧ z.outside t ∧ z.replied t f z.sys.dev.tick 0 ∧
        ∃ bs, t.sys.dev.out.replies = z.sys.dev.out.replies ++ [(2, f.from_, bs)] ∧
          slice bs 32 (4 * n) = (({ z.sys with dev := z.sys.dev.counted f } : Sys).cmdRead off n).2) ∧
    (∀ (z : State) (f : CmdFrame) (off : Nat) (data : List Byte), z.Inv → z.accepts f 0x20 (leBytes 4 off ++ data) → off + data.length ≤ 2 ^ 27 →
      z.sys.dev.loadState ≠ 1 →
      let base := z.sys.dev.storeBase + off
      ∃ t, exec (.storeWrite f off data) z = .next t ∧ z.replied t f z.sys.dev.tick 0 ∧ t.sys.otp = z.sys.otp ∧
        t.sys.dev.w64 (R.cmdSeen f.slot) = f.ctr ∧ t.sys.mem.bytes base data.length = data ∧
        (∀ a, a < base ∨ base + data.length ≤ a → t.sys.mem.get a = z.sys.mem.get a) ∧ z.sys.dev.keeps t.sys.dev []) ∧
    (∀ (z : State) (f : CmdFrame) (reason : Nat), z.accepts f 0x40 (leBytes 4 reason) → reason < 2 ^ 32 → z.sys.dev.rf R.bbxStat 30 1 = 0 →
      ∃ t r, exec (.bbxTrigger f reason) z = .next t ∧ z.outside t ∧ z.replied t f z.sys.dev.tick 0 ∧
        t.sys.dev.rf R.bbxStat 30 1 = 1 ∧ t.sys.dev.rf R.bbxStat 26 3 = 3 ∧ t.sys.dev.w64 (R.bbxCnt 0) = (z.sys.dev.w64 (R.bbxCnt 0) + 1) % 2 ^ 64 ∧
        t.sys.dev.evt.made = z.sys.dev.evt.made ++ [r] ∧ r.blk = Blk.bbx ∧ r.code / 256 = 4 ∧ r.d0 = 3 ∧ r.d1 = reason ∧
        z.sys.dev.keeps t.sys.dev [R.bbxStat])

/-- KEY_LOAD, KEY_RETIRE and SIGN_REVOKE. A KEY_LOAD whose blob unwraps and passes every check of the key store installs key, privileges and
generation in its slot and shows them in SLOTSTAT; an accepted permanent KEY_RETIRE of a filled slot empties it, burns its floor to the
generation after the key's (where that is at most 15 and above the floor) and starts a fuse operation; an accepted SIGN_REVOKE of a valid,
unrevoked hash that is named rightly, with another hash still usable, burns its revocation and starts a fuse operation. No other slot, floor or
fuse changes.
Where it goes beyond the words of the rules it states the model's readings of log entries 4, 95. -/
def Obligations.KeyCommands : Prop :=
  (∀ (z : State) (f : CmdFrame) (blob : List Byte) (b : KeyBlob), z.sys.dev.cmdIdle → fits f blob → z.sys.dev.nonceOk = true → blob.length = 32 → f.tgt = 0 →
      z.sys.dev.cmd.slots.length = 8 → ({ z.sys with dev := z.sys.dev.taken f } : Sys).keyLoadCheck (frameOf f 0x60 blob) = .ok b →
      z.sys.dev.w64 (R.cmdSeen f.slot) < f.ctr → b.priv < 256 → b.gen < 16 →
      ∃ t, exec (.keyLoad f blob) z = .next t ∧ z.outside t ∧ z.replied t f z.sys.dev.tick 0 ∧
        t.sys.dev.keySlot f.slot = some { key := b.key, priv := b.priv, gen := b.gen } ∧
        t.sys.dev.reg (R.keySlotstat f.slot) = 2 ^ 31 + 256 * b.gen + b.priv ∧
        (∀ k, k ≠ f.slot → t.sys.dev.keySlot k = z.sys.dev.keySlot k) ∧ t.sys.dev.w64 (R.cmdSeen f.slot) = f.ctr) ∧
    (∀ (z : State) (f : CmdFrame) (k : Nat) (y : KeySlot), z.accepts f 0x61 (leBytes 1 k ++ leBytes 1 1 ++ leBytes 2 0) → k < 8 →
      z.sys.dev.cmd.slots.length = 8 → z.sys.otp.floors.length = 8 → z.sys.dev.keySlot k = some y → z.sys.otp.floors.getD k 0 ≤ y.gen → y.gen < 15 →
      ∃ t, exec (.keyRetire f k 1) z = .next t ∧ t.sys.mem = z.sys.mem ∧ t.pending = z.pending ∧ z.replied t f z.sys.dev.tick 0 ∧
        t.sys.dev.keySlot k = none ∧ t.sys.dev.reg (R.keySlotstat k) = 0 ∧ t.sys.otp.floors.getD k 0 = y.gen + 1 ∧ t.sys.dev.cmd.fuse = true ∧
        (∀ j, j ≠ k → t.sys.dev.keySlot j = z.sys.dev.keySlot j ∧ t.sys.otp.floors.getD j 0 = z.sys.otp.floors.getD j 0) ∧
        t.sys.otp = { z.sys.otp with floors := t.sys.otp.floors }) ∧
    (∀ (z : State) (f : CmdFrame) (idx other : Nat), let o := z.sys.otp
      let first := (beBytes 32 (o.shash.getD idx 0)).take 8
      z.accepts f 0x62 (leBytes 1 0 ++ leBytes 1 idx ++ leBytes 2 0 ++ first) → idx < 4 → other < 4 → other ≠ idx →
      bit o.svalid idx = true → bit o.srev idx = false → bit o.svalid other = true → bit o.srev other = false →
      ∃ t, exec (.signRevoke f 0 idx first) z = .next t ∧ t.sys.mem = z.sys.mem ∧ t.pending = z.pending ∧ z.replied t f z.sys.dev.tick 0 ∧
        t.sys.otp = { o with srev := bitSet o.srev idx true } ∧ t.sys.dev.cmd.fuse = true)

/-- LOAD starts a load, ABORT ends or discards one. In a lease holder or a standalone unit with no resynchronisation, an accepted LOAD from EMPTY or
REFUSED goes to LOADING with its offset and length, counted; an accepted ABORT discards a READY sheaf and leaves EMPTY, and ends a load in
progress as REFUSED with reason ABORTED (0x12). Each is acknowledged with STATUS 0 at the present tick.
Where it goes beyond the words of the rules it states the model's readings of log entry 92. -/
def Obligations.LoaderCommands : Prop :=
  (∀ (z : State) (f : CmdFrame) (off len : Nat), z.accepts f 0x21 (leBytes 4 off ++ leBytes 4 len) → off < 2 ^ 27 → len < 2 ^ 25 →
      z.sys.dev.role = .active → z.sys.dev.phase = 0 → z.sys.dev.loadState = 0 ∨ z.sys.dev.loadState = 4 →
      ∃ t, exec (.load f off len) z = .next t ∧ z.outside t ∧ z.replied t f z.sys.dev.tick 0 ∧ t.sys.dev.loadState = 1 ∧
        t.sys.dev.reg R.loadSrcoff = off ∧ t.sys.dev.reg R.loadSrclen = len ∧ t.sys.dev.ldr.pend = none ∧ t.sys.dev.ldr.act = z.sys.dev.ldr.act ∧
        t.sys.dev.w64 R.loadLoadcnt = (z.sys.dev.w64 R.loadLoadcnt + 1) % 2 ^ 64) ∧
    (∀ (z : State) (f : CmdFrame), z.accepts f 0x22 [] → z.sys.dev.role = .active → z.sys.dev.phase = 0 → z.sys.dev.loadState = 2 →
      ∃ t, exec (.abort f) z = .next t ∧ z.outside t ∧ z.replied t f z.sys.dev.tick 0 ∧ t.sys.dev.loadState = 0 ∧ t.sys.dev.ldr.pend = none ∧
        t.sys.dev.reg R.loadPendid = 0 ∧ t.sys.dev.ldr.act = z.sys.dev.ldr.act) ∧
    (∀ (z : State) (f : CmdFrame), z.accepts f 0x22 [] → z.sys.dev.role = .active → z.sys.dev.phase = 0 → z.sys.dev.loadState = 1 →
      ∃ t, exec (.abort f) z = .next t ∧ z.outside t ∧ z.replied t f z.sys.dev.tick 0 ∧ t.sys.dev.loadState = 4 ∧ t.sys.dev.rf R.loadStat 8 8 = 0x12 ∧
        t.sys.dev.ldr.job = none)

/-- WRITE, SWAP, CELL and STEP go on the agenda for their target, in order of acceptance. In a standalone unit an accepted DATA command with an
explicit target that passes the checks of its kind is appended to the agenda with its slot, counter and action, is acknowledged with its target
tick and recorded for its slot; a swap puts the loader in ARMED with its target. An immediate WRITE waits for its boundary without an answer.
Memory, fuses and every pending register change stay until the target.
Where it goes beyond the words of the rules it states the model's readings of log entry 93. -/
def Obligations.DataCommandsArePlaced : Prop :=
  ∀ (z : State) (f : CmdFrame), z.sys.dev.paired = false → z.sys.dev.role = .active → f.tgt ≠ 0 → f.tgt ≠ 0xFFFFFFFFFFFF →
    let placed := fun (op : Nat) (pay : List Byte) (a : AgAct) (r : Res) => z.accepts f op pay →
      ((z.sys.dev.counted f).dataCheck a false f.tgt ((z.sys.dev.counted f).lastTarget f.slot)).2 = none →
      ∃ t, r = .next t ∧ z.outside t ∧ z.replied t f f.tgt 0 ∧
        t.sys.dev.agenda = z.sys.dev.agenda ++ [{ tgt := f.tgt, slot := f.slot, ctr := f.ctr, act := a }] ∧
        t.sys.dev.w64 (R.tickSlotcnt f.slot) = f.ctr ∧ t.sys.dev.w64 (R.tickSlottgt f.slot) = f.tgt ∧ t.sys.dev.pendTick = z.sys.dev.pendTick ∧
        t.sys.dev.eng = z.sys.dev.eng ∧ z.sys.dev.keeps t.sys.dev [R.tickAgenda, R.loadStat] ∧
        (a = .swap → t.sys.dev.loadState = 3 ∧ t.sys.dev.w64 R.loadSwaptgt = f.tgt)
    (∀ ws : List RegWr, ws.length ≤ 64 → (∀ w ∈ ws, w.off < 2 ^ 32 ∧ w.mask < 2 ^ 32 ∧ w.data < 2 ^ 32) →
      placed 0x10 (writePay ws) (.writes ws) (exec (.write f ws) z)) ∧
    placed 0x23 [] .swap (exec (.swap f) z) ∧
    (∀ key val, key < 2 ^ 32 → placed 0x24 (leBytes 4 key ++ val) (.cell key val) (exec (.cell f key val) z)) ∧
    (∀ ofs : Int, -(2 ^ 63 : Int) ≤ ofs → ofs < 2 ^ 63 → placed 0x30 (leBytes 8 (wrapN 64 ofs)) (.step ofs) (exec (.step f ofs) z)) ∧
    (∀ ws : List RegWr, ws.length ≤ 64 → (∀ w ∈ ws, w.off < 2 ^ 32 ∧ w.mask < 2 ^ 32 ∧ w.data < 2 ^ 32) →
      z.accepts { f with tgt := 0 } 0x10 (writePay ws) →
      (let e := z.sys.dev.counted { f with tgt := 0 }
       (e.dataCheck (.writes ws) true (e.openTick (.writes ws)) (e.lastTarget f.slot)).2 = none) →
      ∃ t m, exec (.write { f with tgt := 0 } ws) z = .next t ∧ z.outside t ∧ t.sys.dev.out = z.sys.dev.out ∧ t.sys.dev.agenda = z.sys.dev.agenda ∧
        t.sys.dev.cmd.imm = [m] ∧ m.writes = ws ∧ m.slot = f.slot ∧ m.ctr = f.ctr ∧ m.wait = false ∧
        m.tgt = z.sys.dev.tick + (if f.c < 9984 then 1 else 2))

/-- PAIR_ENABLE, PAIR_DISABLE, TAKE, HANDOVER, ISOLATE, REJOIN and RESYNC. An accepted pair command that its conditions admit is acknowledged with
STATUS 0 at the present tick, and what it chooses waits in the pair's state for the next boundary: enabling as LEAD or FOLLOW, standalone, TAKE,
a release with cause 3 for HANDOVER, ISOLATED, FALLOW for REJOIN, a resynchronisation asked for; no register, memory, fuse or agenda entry
changes. One that its conditions refuse is answered with STATUS 0x0E and changes nothing of the pair.
Where it goes beyond the words of the rules it states the model's readings of log entry 116. -/
def Obligations.PairCommandsChooseTheRole : Prop :=
  ∀ (z : State) (f : CmdFrame), 
    let row := fun (op arg : Nat) (pay : List Byte) (p : Pair) (r : Res) => z.accepts f op pay →
      let no := (z.sys.dev.counted f).pairRefusal op arg
      (no = 0 → ∃ t, r = .next t ∧ z.outside t ∧ z.replied t f z.sys.dev.tick 0 ∧ t.sys.dev.pair = p ∧ t.sys.dev.agenda = z.sys.dev.agenda ∧
        z.sys.dev.keeps t.sys.dev []) ∧
      (no ≠ 0 → ∃ t, r = .next t ∧ z.outside t ∧ z.replied t f z.sys.dev.tick 0x0E ∧ t.sys.dev.pair = z.sys.dev.pair)
    let p := z.sys.dev.pair
    (∀ arg, arg < 2 → row 0x70 arg (leBytes 4 arg) { p with toRole := some (6 + arg, false) } (exec (.pairEnable f arg) z)) ∧
    row 0x71 0 [] { p with toRole := some (5, false) } (exec (.pairDisable f) z) ∧
    row 0x72 0 [] { p with toRole := some (8, false) } (exec (.take f) z) ∧
    row 0x73 0 [] { p with askRel := some 3 } (exec (.handover f) z) ∧
    row 0x74 0 [] { p with toRole := some (4, false) } (exec (.isolate f) z) ∧
    row 0x75 0 [] { p with toRole := some (3, false) } (exec (.rejoin f) z) ∧
    row 0x76 0 [] { p with rs := { p.rs with asked := true } } (exec (.resync f) z)

/-- A commanded write of a TICK-class register waits for the next boundary. In a running device that holds the lease or stands alone, the rows that
write a force, a clear, a domain switch, sleep or the step accumulator through a command leave one change (two where the field spans two
registers) for the boundary into the next tick, with the bits they bring; the value in use stays, and nothing but the register's stored value
differs. A pair does not sleep.
Where it goes beyond the words of the rules it states the model's readings of log entry 14. -/
def Obligations.CommandedWritesWait : Prop :=
  ∀ (z : State) (v : RegVia), v.cmd = true → z.sys.dev.cmdReady →
    let d := z.sys.dev
    let wait := fun (off mask bits : Nat) (r : Res) => d.blockOn (off / 0x10000) = true →
      ∃ t, r = .next t ∧ z.outside t ∧ d.regsOnly t.sys.dev ∧ d.pends t.sys.dev off mask bits ∧ d.keeps t.sys.dev [off] ∧
        t.sys.dev.lv off = d.lv off
    (∀ par, 0 < par → par < 8 → wait R.engForce par par (exec (.forceLaneParity v par) z)) ∧
    (∀ los, los < 16 → wait R.clkForce 15 los (exec (.forceRefLos v los) z)) ∧
    (∀ on, wait R.pairForce 1 (b2n on) (exec (.forceHbSuppress v on) z)) ∧
    (∀ dig, 0 < dig → dig < 4 → wait R.pairForce (2 * dig) (2 * dig) (exec (.forceDigest v dig) z)) ∧
    (∀ crc, crc < 2 ^ 24 → wait R.snsForce 0xFFFFFF crc (exec (.forceSnsCrc v crc) z)) ∧
    (∀ m, m < 16 → wait R.ddrForce 241 (1 + 16 * m) (exec (.forceDramError v m) z)) ∧
    (∀ p on, p < 2 → wait (R.macForce (macBlk p)) 1 (b2n on) (exec (.forceLinkDown v p on) z)) ∧
    wait R.bbxFault 256 256 (exec (.faultClear v) z) ∧ wait R.pwrTherm 256 256 (exec (.thermClear v) z) ∧
    (d.paired = false → wait R.pwrSleep 1 1 (exec (.sleep v) z)) ∧
    (d.paired = true → exec (.sleep v) z = .next (z.onDev (fun d => d.atC 10048))) ∧
    (∀ on, on < 2 ^ 32 → wait R.pwrDomctl 1720 (on &&& 1720) (exec (.domainSwitch v on) z)) ∧
    wait R.timeStepacc 0 0 (exec (.stepaccClear v) z) ∧
    (∀ ch, ch < 2 ^ 48 → d.blockOn Blk.mod = true →
      (∃ t p q, exec (.forceModOvercurrent v ch) z = .next t ∧ z.outside t ∧ d.regsOnly t.sys.dev ∧ t.sys.dev.pendTick = d.pendTick ++ [p, q] ∧
        p.off = R.modForce0 ∧ p.mask = 2 ^ 32 - 1 ∧ p.val = ch % 2 ^ 32 ∧ p.due = d.tick + 1 ∧
        q.off = R.modForce1 ∧ q.mask = 0xFFFF ∧ q.val &&& 0xFFFF = ch / 2 ^ 32 ∧ q.due = d.tick + 1 ∧ d.keeps t.sys.dev [R.modForce0, R.modForce1]) ∧
      (ch % 2 ^ 32 ≠ 0 → ch / 2 ^ 32 ≠ 0 →
        ∃ t p q, exec (.modClear v ch) z = .next t ∧ z.outside t ∧ d.regsOnly t.sys.dev ∧ t.sys.dev.pendTick = d.pendTick ++ [p, q] ∧
        p.off = R.modClear0 ∧ p.sets = ch % 2 ^ 32 ∧ p.due = d.tick + 1 ∧ q.off = R.modClear1 ∧ q.sets = ch / 2 ^ 32 ∧ q.due = d.tick + 1 ∧
        d.keeps t.sys.dev []))

/-- A direct write of a critical register is refused. With the block's domain on, a direct write of a register whose writable fields are all critical
sets the block's CRIT_REFUSED bit in CFGERR, changes no register but CFGERR, CFGERRADDR and the block's fault registers, leaves nothing pending,
and leaves memory and fuses; so do the rows that only a command may execute. With LOCKNC set every direct write of a data-plane register is
refused so.
Where it goes beyond the words of the rules it states the model's readings of log entries 83, 85. -/
def Obligations.CriticalDirectWritesAreRefused : Prop :=
  ∀ (z : State) (v : RegVia), v.cmd = false → z.sys.dev.inReset = false →
    let d := z.sys.dev
    let refused := fun (off : Nat) (r : Res) => d.blockOn (off / 0x10000) = true →
      let b := off / 0x10000
      ∃ t, r = .next t ∧ z.outside t ∧ t.sys.dev.rf (R.cfgerr b) 3 1 = 1 ∧ t.sys.dev.pendTick = d.pendTick ∧ t.sys.dev.agenda = d.agenda ∧
        t.sys.dev.bbx = d.bbx ∧ d.keeps t.sys.dev [R.cfgerr b, R.cfgerraddr b, R.fltstat b, R.fltfirst b]
    (∀ off mask data r, rowAt off = some r → hasCommon (off / 0x10000) = true → r.writable ≠ 0 → off ≠ R.pwrRst →
      (r.writable &&& r.crit = r.writable ∨ (bit (d.reg R.cmdPolicy) 1 = true ∧ dataPlane.contains (off / 0x10000) = true)) →
      refused off (exec (.registerWrite v off mask data) z)) ∧
    (∀ par, refused R.engForce (exec (.forceLaneParity v par) z)) ∧ (∀ los, refused R.clkForce (exec (.forceRefLos v los) z)) ∧
    (∀ on, refused R.pairForce (exec (.forceHbSuppress v on) z)) ∧ (∀ dig, refused R.pairForce (exec (.forceDigest v dig) z)) ∧
    (∀ crc, refused R.snsForce (exec (.forceSnsCrc v crc) z)) ∧ (∀ m, refused R.ddrForce (exec (.forceDramError v m) z)) ∧
    (∀ p on, p < 2 → refused (R.macForce (macBlk p)) (exec (.forceLinkDown v p on) z)) ∧ refused R.bbxFault (exec (.faultClear v) z) ∧
    refused R.pwrTherm (exec (.thermClear v) z) ∧ refused R.pwrSleep (exec (.sleep v) z) ∧
    (∀ on, refused R.pwrDomctl (exec (.domainSwitch v on) z)) ∧ refused R.timeStepacc (exec (.stepaccClear v) z) ∧
    (∀ oc, refused R.modForce0 (exec (.forceModOvercurrent v oc) z)) ∧ (∀ ch, refused R.modClear0 (exec (.modClear v ch) z)) ∧
    (∀ b g, b ∈ [Blk.clk, Blk.syn, Blk.mac0, Blk.mac1, Blk.mod] → refused (R.commit b) (exec (.commitStrobe v b g) z))

/-- What forces, clears, domain switches and sleep do when they go live. At its boundary a force of a lane's parity is remembered for the next
running tick; a digest force is set beside those in force; STEPACC clears; FAULT_N's clear is requested; THERM.CLR clears the latch with TJ below
150 degrees and is ignored from there on; MOD.CLEAR puts a latched or waiting channel of a stopped group to OFF without retries and leaves every
other channel; sleep keeps DRAM and the retained SRAM alone of memory and turns all domains but AO off, and does nothing in a pair. -/
def Obligations.ChangesActAtTheirBoundary : Prop :=
  (∀ (d : Dev) (p : PendWr), p.off = R.engForce → (d.pendActs p).eng.parReq = d.eng.parReq ||| (p.mask &&& 7 &&& p.val)) ∧
    (∀ (d : Dev) (p : PendWr), p.off = R.pairForce → (d.pendActs p).lv R.pairForce = (d.lv R.pairForce ||| (p.mask &&& 6 &&& p.val))) ∧
    (∀ (d : Dev) (p : PendWr), p.off = R.timeStepacc → (d.pendActs p).w64 R.timeStepacc = 0) ∧
    (∀ (d : Dev) (p : PendWr), p.off = R.bbxFault → bit p.mask 8 = true → bit p.val 8 = true → (d.pendActs p).bbx.clrReq = true) ∧
    (∀ (d : Dev) (p : PendWr), p.off = R.pwrTherm → bit p.mask 8 = true → bit p.val 8 = true →
      (sgn 16 (d.reg R.thmTj) < 600 → (d.pendActs p).rf R.pwrTherm 0 1 = 0 ∧ (d.pendActs p).mod.shut = false) ∧
      (600 ≤ sgn 16 (d.reg R.thmTj) → (d.pendActs p).reg R.pwrTherm = d.reg R.pwrTherm ∧ (d.pendActs p).mod = d.mod)) ∧
    (∀ (d : Dev) (ch : Nat), ch < 48 → d.mod.ch.length = 48 → (d.modG (ch / 8)).run_ = false → (d.modC ch).st = 4 ∨ (d.modC ch).st = 5 →
      ((d.modClear (2 ^ ch)).modC ch).st = 0 ∧ ((d.modClear (2 ^ ch)).modC ch).core.retries = 0 ∧
      (∀ k, k ≠ ch → (d.modClear (2 ^ ch)).modC k = d.modC k) ∧ d.keeps (d.modClear (2 ^ ch)) [R.modChstat ch]) ∧
    (∀ (s : Sys), (s.dev.paired = true → s.sleep = s) ∧
      (s.dev.paired = false → s.sleep.mem = s.mem.aoKept ∧ s.sleep.dev.asleep = true ∧ s.sleep.otp = s.otp ∧
        (s.mem.wf = true → ∀ a, s.sleep.mem.get a = (if a < 0x200000000 ∨ (retainedBase ≤ a ∧ a < retainedBase + 0x40000) then s.mem.get a else Memory.blank))))

/-- Direct register writes that act at once. A direct write whose block is on and not barred acts at its cycle: the watchdog restarts; REARM clears
FROZEN, the trigger fields and the extension's FROZEN; RESEND sends again the named vectors whose lines are asserted and that can leave; GO
starts a readback or an MDIO transaction unless one runs; TIME.INC takes the fraction, or the nearer of the bounds 292,902,230 and 299,892,736
with INC_CLAMP; a compare unit is armed, late if its target has passed; LOCKNC is set; a FLTSTAT bit clears and the first fault with it; GPIO.OUT
takes its byte; a port's receive tail hands descriptors over. Registers not named keep their values, and memory and fuses stay.
Where it goes beyond the words of the rules it states the model's readings of log entry 13. -/
def Obligations.DirectWritesActAtOnce : Prop :=
  ∀ (z : State) (v : RegVia), v.cmd = false → z.sys.dev.inReset = false →
    let d := z.sys.dev
    (d.open_ Blk.bbx → ∃ t, exec (.wdogKick v) z = .next t ∧ z.outside t ∧ t.sys.dev.bbx = { d.bbx with wdMs := 0 } ∧ d.keeps t.sys.dev []) ∧
    (d.open_ Blk.bbx → ∃ t, exec (.bbxRearm v) z = .next t ∧ z.outside t ∧ t.sys.dev.rf R.bbxStat 31 1 = 0 ∧ t.sys.dev.rf R.bbxStat 26 3 = 0 ∧
      t.sys.dev.rf R.bbxStat 30 1 = 0 ∧ t.sys.dev.reg R.bbxTrig = 0 ∧ t.sys.dev.reg R.bbxTrigseq = 0 ∧ t.sys.dev.rf R.bbxDstat 30 1 = 0 ∧
      t.sys.dev.rf R.bbxStat 0 26 = d.rf R.bbxStat 0 26 ∧ t.sys.dev.reg R.bbxCtrl = d.reg R.bbxCtrl ∧
      d.keeps t.sys.dev [R.bbxCtrl, R.bbxStat, R.bbxTrig, R.bbxTrigseq, R.bbxDstat]) ∧
    (∀ vec, vec < 2 ^ 32 → d.open_ Blk.evt → ∃ t, exec (.vectorResend v vec) z = .next t ∧ z.outside t ∧
      t.sys.dev.pcie.sent = d.pcie.sent ++ (bitsOn 32 (vec &&& d.vecLines)).filter d.msixGo ∧ t.sys.dev.evt = d.evt ∧ d.keeps t.sys.dev []) ∧
    (∀ count, d.open_ Blk.gln → d.rf R.glnRbstat 31 1 = 0 → ∃ t, exec (.readbackGo v count) z = .next t ∧ z.outside t ∧
      t.sys.dev.reg R.glnRbstat = 2 ^ 31 ∧ t.sys.dev.reg R.glnRbfirst = 0xFFFFFFFF ∧ t.sys.dev.rf R.glnRbctl 0 16 = count % 65536 ∧
      d.keeps t.sys.dev [R.glnRbctl, R.glnRbstat, R.glnRbfirst]) ∧
    (∀ word, d.open_ Blk.macm → d.rf (R.macMdiodata 12) 31 1 = 0 → ∃ t w, exec (.mdioGo v word) z = .next t ∧ z.outside t ∧
      t.sys.dev.out = { d.out with mdio := d.out.mdio ++ [w] } ∧ w = t.sys.dev.reg (R.macMdiocmd 12) ∧ w &&& 2147287039 = word &&& 2147287039 ∧
      t.sys.dev.rf (R.macMdiodata 12) 31 1 = 1 ∧ d.keeps t.sys.dev [R.macMdiocmd 12, R.macMdiodata 12]) ∧
    (∀ frac, frac < 2 ^ 32 → d.open_ Blk.time → ∃ t, exec (.timeIncWrite v frac) z = .next t ∧ z.outside t ∧
      t.sys.dev.reg R.timeInc = (if frac < 292902230 then 292902230 else if 299892736 < frac then 299892736 else frac) ∧
      t.sys.dev.time = ((d.atC v.c).timeNow).time ∧
      ((frac < 292902230 ∨ 299892736 < frac) → t.sys.dev.rf R.timeStat 3 1 = 1 ∧ t.sys.dev.rf (R.fltstat Blk.time) Src.timeIncClamp 1 = 1) ∧
      (292902230 ≤ frac → frac ≤ 299892736 → d.keeps t.sys.dev [R.timeInc])) ∧
    (∀ k period, k < 4 → d.open_ Blk.time → ∃ t, exec (.compareArm v k period) z = .next t ∧ z.outside t ∧
      t.sys.dev.rf (R.timeCmpcfg k) 31 1 = 1 ∧ t.sys.dev.rf (R.timeCmpcfg k) 0 30 = period % 2 ^ 30 ∧
      bit t.sys.dev.time.late k = decide (((d.atC v.c).timeNow).cmpDiff k ≤ 0) ∧ d.keeps t.sys.dev [R.timeCmpcfg k]) ∧
    (d.blockOn Blk.cmd = true → d.cmd.owed = [] → d.cmdQueued = 0 → ∃ t, exec (.lockncSet v) z = .next t ∧ z.outside t ∧
      t.sys.dev.reg R.cmdPolicy = d.reg R.cmdPolicy ||| 2 ∧ d.keeps t.sys.dev [R.cmdPolicy]) ∧
    (∀ b mask r, (faultSrcs b).length ≠ 0 → b ≠ Blk.cmd → rowAt (R.fltstat b) = some r → r.writable &&& mask ≠ 0 → mask < 2 ^ 32 → d.open_ b →
      ∃ t, exec (.faultStatusClear v b mask) z = .next t ∧ z.outside t ∧
        t.sys.dev.reg (R.fltstat b) = d.reg (R.fltstat b) - (d.reg (R.fltstat b) &&& (mask &&& r.writable)) ∧
        (∀ src, (d.fltOf b).first = some src → bit (mask &&& r.writable) src = true →
          t.sys.dev.reg (R.fltfirst b) = 0 ∧ (t.sys.dev.fltOf b).first = none) ∧
        d.keeps t.sys.dev [R.fltstat b, R.fltfirst b]) ∧
    (∀ mask data, d.blockOn Blk.gpio = true → ∃ t, exec (.registerWrite v R.gpioOut mask data) z = .next t ∧ z.outside t ∧
      (∀ i, i < 8 → bit (t.sys.dev.reg R.gpioOut) i = if bit mask i then bit data i else bit (d.reg R.gpioOut) i) ∧
      t.sys.dev.lv R.gpioOut % 256 = t.sys.dev.reg R.gpioOut % 256 ∧ d.keeps t.sys.dev [R.gpioOut]) ∧
    (∀ p idx, p < 4 → d.open_ (macBlk p) → ∃ t, exec (.ringTailWrite (R.macRxtail (macBlk p)) idx v.c) z = .next t ∧ z.outside t ∧
      t.sys.dev.rf (R.macRxtail (macBlk p)) 0 12 = idx % 4096 ∧ d.keeps t.sys.dev [R.macRxtail (macBlk p)])

/-- A commanded commit copies its group's shadow for the next boundary. A strobe of one commit group that is not pending, written by a command in a
running lease holder or standalone unit, leaves one change for the boundary into the next tick per register of the group, with the shadow's
values; no register changes. A strobe of a pending group is refused: the block's STROBE_IGNORED bit is set and nothing becomes pending. A direct
strobe of a management-plane port, whose commit is not critical, makes its group pending for the capture point, or is ignored in the same way. -/
def Obligations.CommitStrobes : Prop :=
  (∀ (z : State) (v : RegVia) (b : Nat), v.cmd = false → z.sys.dev.inReset = false → b = Blk.macm ∨ b = Blk.mact → z.sys.dev.blockOn b = true →
      (z.sys.dev.grpPend b 0 = false → ∃ t, exec (.commitStrobe v b 1) z = .next t ∧ z.outside t ∧ t.sys.dev.grpPend b 0 = true ∧
        t.sys.dev.pendTick = z.sys.dev.pendTick ∧ z.sys.dev.keeps t.sys.dev [R.commitstat b]) ∧
      (z.sys.dev.grpPend b 0 = true → ∃ t, exec (.commitStrobe v b 1) z = .next t ∧ z.outside t ∧ t.sys.dev.rf (R.cfgerr b) 2 1 = 1 ∧
        t.sys.dev.grpPend b 0 = true ∧ z.sys.dev.keeps t.sys.dev [R.cfgerr b, R.cfgerraddr b, R.fltstat b, R.fltfirst b])) ∧
  ∀ (z : State) (v : RegVia) (b g : Nat), v.cmd = true → z.sys.dev.cmdReady → g < 16 → bit (commitGroups b) g = true → z.sys.dev.blockOn b = true →
    let d := z.sys.dev
    (d.grpPend b g = false → ∃ t, exec (.commitStrobe v b (2 ^ g)) z = .next t ∧ z.outside t ∧ d.regsOnly t.sys.dev ∧ d.keeps t.sys.dev [] ∧
      t.sys.dev.pendTick = d.pendTick ++ (groupRegs b g).filterMap (fun off => (rowAt off).map (fun r =>
        ({ off := off, mask := r.commit, val := d.reg off, due := d.tick + 1 } : PendWr)))) ∧
    (d.grpPend b g = true → ∃ t, exec (.commitStrobe v b (2 ^ g)) z = .next t ∧ z.outside t ∧ t.sys.dev.pendTick = d.pendTick ∧
      t.sys.dev.rf (R.cfgerr b) 2 1 = 1 ∧ d.keeps t.sys.dev [R.cfgerr b, R.cfgerraddr b, R.fltstat b, R.fltfirst b])

/-- Reads that clear, restart or latch. With the block's domain on: a low-word read of a 64-bit counter gives its low word, latches its high word and
clears it, and no other; a read of TICK.AGENDA gives the occupancy and restarts its highest value there, one of THM.TJMAX restarts it at TJ; a
read of TIME.NOWLO brings the counter to the cycle and latches its upper words of that instant, a read of TICK.NUM latches its upper word; a read
of a time-stamp queue takes its oldest entry into the latch, or zeros. Memory, fuses and registers stay.
Where it goes beyond the words of the rules it states the model's readings of log entry 89. -/
def Obligations.RegisterReads : Prop :=
  ∀ (z : State) (c : Nat), z.sys.dev.inReset = false →
    let d := z.sys.dev
    (∀ off r, off % 4 = 0 → rowAt off = some r → r.kind = .wideRC → off % 8 = r.base % 8 → d.blockOn (off / 0x10000) = true →
      ∃ t, exec (.counterRead off c) z = .next t ∧ z.outside t ∧ t.sys.dev.rdata = [d.w64 off % 2 ^ 32] ∧ t.sys.dev.latched (off + 4) = d.w64 off / 2 ^ 32 ∧
        t.sys.dev.w64 off = 0 ∧ (∀ o, o ≠ off → t.sys.dev.w64 o = d.w64 o) ∧ d.keeps t.sys.dev []) ∧
    (d.blockOn Blk.tick = true → ∃ t, exec (.highWaterRead R.tickAgenda c) z = .next t ∧ z.outside t ∧
      t.sys.dev.rdata = [fldSet (d.reg R.tickAgenda) 0 9 d.agenda.length] ∧ t.sys.dev.rf R.tickAgenda 16 9 = d.agenda.length % 512 ∧
      d.keeps t.sys.dev [R.tickAgenda]) ∧
    (d.blockOn Blk.thm = true → ∃ t, exec (.highWaterRead R.thmTjmax c) z = .next t ∧ z.outside t ∧ t.sys.dev.rdata = [d.reg R.thmTjmax] ∧
      t.sys.dev.reg R.thmTjmax = d.reg R.thmTj ∧ d.keeps t.sys.dev [R.thmTjmax]) ∧
    (d.blockOn Blk.time = true → let e := (d.atC c).timeNow
      ∃ t, exec (.latchingRead R.timeNowlo c) z = .next t ∧ z.outside t ∧ t.sys.dev.rdata = [e.timeNs % 2 ^ 32] ∧
      t.sys.dev.latched R.timeNowhi = e.timeNs / 2 ^ 32 % 2 ^ 32 ∧ t.sys.dev.latched R.timeNowfrac = e.time.cnt % 2 ^ 32 ∧ d.keeps t.sys.dev []) ∧
    (d.blockOn Blk.tick = true → ∃ t, exec (.latchingRead R.tickNum c) z = .next t ∧ z.outside t ∧ t.sys.dev.rdata = [d.tick % 2 ^ 32] ∧
      t.sys.dev.latched (R.tickNum + 4) = d.tick / 2 ^ 32 % 2 ^ 16 ∧ d.keeps t.sys.dev []) ∧
    (∀ p, p < 3 → d.blockOn Blk.time = true →
      (∀ e rest, d.time.tsq.getD p [] = e :: rest → ∃ t, exec (.tsqRead p c) z = .next t ∧ z.outside t ∧ t.sys.dev.rdata = [e.w0 % 2 ^ 32] ∧
        t.sys.dev.latched (R.timeTsq p 1) = e.w1 % 2 ^ 32 ∧ t.sys.dev.latched (R.timeTsq p 2) = e.w2 % 2 ^ 32 ∧
        t.sys.dev.latched (R.timeTsq p 3) = e.w3 % 2 ^ 32 ∧ t.sys.dev.time.tsq.getD p [] = rest ∧
        t.sys.dev.rf (R.timeTsqstat p) 0 5 = rest.length % 32 ∧ d.keeps t.sys.dev [R.timeTsqstat p]) ∧
      (d.time.tsq.getD p [] = [] → ∃ t, exec (.tsqRead p c) z = .next t ∧ z.outside t ∧ t.sys.dev.rdata = [0] ∧
        (∀ k, k < 4 → t.sys.dev.latched (R.timeTsq p k) = 0) ∧ t.sys.dev.time = d.time ∧ d.keeps t.sys.dev []))

/-- Resets of a plane and of the PCI Express function. A control-plane reset begins 8 ticks in which the plane is in reset: commands not acknowledged
are discarded, keys and recorded counters stay; a management-plane reset begins 8 ticks too, empties the time-stamp queues and leaves engine,
modulators and agenda. A function-level reset with the link up puts configuration space and the rings' registers to reset, a configuration write
of D0 or D3hot changes the state and PME_En, a write of the MSI-X controls sends every held message that can leave. A boot image grows by each
word.
Where it goes beyond the words of the rules it states the model's readings of log entries 58, 101. -/
def Obligations.PlaneResetsAndThePcieFunction : Prop :=
  ∀ (z : State) (c : Nat), z.sys.dev.inReset = false →
    let d := z.sys.dev
    (d.bootState ≠ 7 → ∃ t, exec (.ctrlPlaneReset c) z = .next t ∧ z.outside t ∧ t.sys.dev.ctrlRst = some (d.tick + 8) ∧ t.sys.dev.cmd.wait = [] ∧
      t.sys.dev.cmd.imm = [] ∧ t.sys.dev.cmd.await = [] ∧ t.sys.dev.cmd.slots = d.cmd.slots ∧ t.sys.dev.eng = d.eng ∧ t.sys.dev.mod = d.mod ∧
      t.sys.dev.rf R.sysRstcause 2 1 = 1 ∧ (∀ k, k < 8 → t.sys.dev.w64 (R.cmdSeen k) = d.w64 (R.cmdSeen k))) ∧
    (d.bootState ≠ 7 → ∃ t, exec (.mgmtPlaneReset c) z = .next t ∧ z.outside t ∧ t.sys.dev.mgmtRst = some (d.tick + 8) ∧ t.sys.dev.eng = d.eng ∧
      t.sys.dev.mod = d.mod ∧ t.sys.dev.agenda = d.agenda ∧ t.sys.dev.time.tsq = [[], [], []] ∧ t.sys.dev.time.cnt = d.time.cnt ∧
      t.sys.dev.rf R.sysRstcause 3 1 = 1 ∧ t.sys.dev.reg R.pairEpoch = d.reg R.pairEpoch) ∧
    (d.rf R.pcieStat 0 1 = 1 → ∃ t, exec (.functionLevelReset c) z = .next t ∧ z.outside t ∧ t.sys.dev.pcie.msixEn = false ∧
      t.sys.dev.pcie.busEn = false ∧ t.sys.dev.pcie.memEn = false ∧ t.sys.dev.pcie.msixMask = 0xFFFFFFFF ∧ t.sys.dev.rf R.pcieStat 8 2 = 0 ∧
      (∀ r, r < 2 → t.sys.dev.reg (R.cmdChead r) = 0 ∧ t.sys.dev.reg (R.cmdCtail r) = 0 ∧ t.sys.dev.reg (R.cmdCsize r) = 0 ∧
        t.sys.dev.reg (R.cmdRhead r) = 0 ∧ t.sys.dev.reg (R.cmdRtail r) = 0) ∧ t.sys.dev.rf (R.fltstat Blk.pcie) Src.pcieFlr 1 = 1 ∧
      t.sys.dev.eng = d.eng ∧ t.sys.dev.cmd = d.cmd ∧ t.sys.dev.mod = d.mod) ∧
    (∀ ds pmeEn clear, ds = 0 ∨ ds = 3 → d.rf R.pcieStat 0 1 = 1 → ∃ t, exec (.dStateChange ds pmeEn clear c) z = .next t ∧ z.outside t ∧
      t.sys.dev.rf R.pcieStat 8 2 = ds ∧ t.sys.dev.pcie.pmeEn = pmeEn ∧ (clear = true → t.sys.dev.rf R.pcieStat 1 1 = 0) ∧
      (ds ≠ d.rf R.pcieStat 8 2 → t.sys.dev.rf (R.fltstat Blk.pcie) Src.pcieDstate 1 = 1) ∧
      d.keeps t.sys.dev [R.pcieStat, R.fltstat Blk.pcie, R.fltfirst Blk.pcie]) ∧
    (∀ mem bus en mask, ∃ t, exec (.msixUnmask mem bus en mask c) z = .next t ∧ z.outside t ∧ t.sys.dev.pcie.memEn = mem ∧ t.sys.dev.pcie.busEn = bus ∧
      t.sys.dev.pcie.msixEn = en ∧ t.sys.dev.pcie.msixMask = mask % 2 ^ 32 ∧
      t.sys.dev.pcie.sent = d.pcie.sent ++ (bitsOn 32 d.pcie.msixPend).filter t.sys.dev.msixGo ∧
      (∀ k, k < 32 → bit t.sys.dev.pcie.msixPend k = true → t.sys.dev.msixGo k = false) ∧ d.keeps t.sys.dev []) ∧
    (∀ word train, d.bootState = 9 → d.boot.image.length + 4 < d.rf R.sysBootlen 0 17 → ∃ t, exec (.bootDataWrite word train c) z = .next t ∧
      z.outside t ∧ t.sys.dev.boot.image = d.boot.image ++ leBytes 4 word ∧ d.keeps t.sys.dev [])

/-- STATUS, tick adoption and identity. With the link up, a unit that takes part in mirror traffic sends one STATUS with its tick, epoch, role,
heartbeat (a lease holder that neither suppresses nor releases), yields and ERRMARK, and clears the mark; a STATUS that is taken is the partner's
last, a timely heartbeat ends silence, a timely release is recorded with its tick, epoch and cause, and its map values serve the next tick. A
FALLOW unit LOCKED to PARTNER adopts the partner's tick, counted to the next boundary. A unit that does not hold the lease and whose SYS.ID or
DRAM configuration differs from its partner's goes ISOLATED at the next boundary; equal ones change no role; a standalone unit keeps what it
hears, and a unit that becomes paired as the lead tells its own.
Where it goes beyond the words of the rules it states the model's readings of log entries 21, 61, 103, 135. -/
def Obligations.StatusFrames : Prop :=
  ∀ (z : State) (h : MirHdr) (c : Nat), z.Running →
    let d := z.sys.dev
    (d.mirLive = true → d.mirReady → ∃ f, z.leads (exec .statusSend z) (fun e =>
        e.told = d.told ++ [.status f] ∧ e.evt.errT = false ∧ e.pair.ownRel = d.relCause ∧ e.pair.askRel = none ∧ e.lf R.pairForce 1 2 = 0 ∧
        d.keepsOut e [Blk.cvu, Blk.pair]) ∧
      f.tick = d.tick ∧ f.epoch = d.reg R.pairEpoch ∧ f.role = d.role.code ∧
      f.hb = (d.role == .active && d.lf R.pairForce 0 1 == 0 && d.relCause.isNone) ∧
      f.yields = (if d.yieldsCount then d.evt.yieldW else []) ∧ f.errmark = d.evt.errT) ∧
    (d.mirLive = false → exec .statusSend z = .next (z.onDev (fun d => d.atC 10048))) ∧
    (∀ f : StatusF, d.paired = true → d.role ≠ .isolated → d.mgmtRst = none →
      let timely := f.tick = d.tick ∧ h.c ≤ 10175
      z.leads (exec (.statusReceive f h) z) (fun e => e.pair.peer = some f ∧ e.pair.peerAt = d.tick ∧ (e.pair.inTime = true ↔ timely) ∧
        (timely → f.hb = true → e.pair.lastHb = some d.tick ∧ e.pair.lapsed = false) ∧
        (timely → ∀ cause next, f.release = some (cause, next) → e.pair.relRx = some (f.tick, next, cause)) ∧
        (timely → e.time.fwd = some (f.tick + 1, f.mapD, f.disc, f.creep)) ∧
        (¬timely → e.pair.lastHb = d.pair.lastHb ∧ e.pair.relRx = d.pair.relRx ∧ e.time = d.time))) ∧
    (∀ f, d.pair.peer = some f → d.paired = true → d.role = .fallow → d.clkMode = 2 → d.clkSel = some 3 → d.rf R.pairStat 10 1 = 0 →
      z.leads (exec (.tickAdopt c) z) (fun e => e.pair.adopt = some (f.tick + (d.tick - d.pair.peerAt) + 1) ∧ e.rf R.pairStat 10 1 = 1 ∧
        d.keeps e [R.pairStat])) ∧
    (∀ sysid dram, d.paired = false → d.mgmtRst = none → z.leads (exec (.unitIdentityReceive sysid dram h) z) (fun e =>
      e.pair = { d.pair with ident := some (sysid, dram) } ∧ d.keeps e [])) ∧
    (∀ e : Dev, e.paired = false → e.mirReady → (e.pairEnable true).told = e.told ++ [.identity (e.reg R.sysId) (e.lv R.ddrCfg)]) ∧
    (∀ sysid dram, d.mirLive = true →
      (sysid ≠ d.reg R.sysId ∨ dram % 2 ≠ d.lf R.ddrCfg 0 1 → d.role ≠ .active → z.leads (exec (.unitIdentityReceive sysid dram h) z) (fun e =>
        e.pair.toRole = some (4, false) ∧ e.pair.ident = some (sysid, dram) ∧ e.rf (R.fltstat Blk.pair) Src.pairPartnerMismatch 1 = 1)) ∧
      (sysid = d.reg R.sysId ∧ dram % 2 = d.lf R.ddrCfg 0 1 ∨ d.role = .active → z.leads (exec (.unitIdentityReceive sysid dram h) z) (fun e =>
        e.pair = { (d.mirHead h).pair with ident := some (sysid, dram) })))

/-- The lease keeper, the lapse, the takeover and the bridge. Three ticks after the renewal's instant the lease keeper, in reset too, drives both
pins low, and an ACTIVE unit whose management plane runs is FALLOW from the next boundary. Three ticks without a heartbeat end the partner's
lease, and abort a resynchronisation. At cycle 256 a SHADOW takes a released lease with the epoch it was given, or a lapsed one with the next
epoch, unless HOLD_IN was active: after a lapse it then goes FALLOW; with the lease not ended nothing happens. Unit A as SHADOW bridges by
OWN_OUT alone; a bridge is over once HOLD_IN is active and heartbeats arrive.
Where it goes beyond the words of the rules it states the model's readings of log entries 75, 116. -/
def Obligations.LeaseEnds : Prop :=
  (∀ (z : State) (c : Nat), let d := z.sys.dev
      d.rf R.pairStat 8 1 = 1 ∨ d.rf R.pairStat 9 1 = 1 → d.rf R.pairStat 12 1 = 0 → d.pair.renew * 10240 + 9984 + 30720 ≤ d.tick * 10240 + c →
      z.leads (exec (.leaseKeeperExpire c) z) (fun e => e.rf R.pairStat 8 1 = 0 ∧ e.rf R.pairStat 9 1 = 0 ∧
        (c ≠ 0 → d.keeps e [R.pairStat]) ∧ (c ≠ 0 → d.role = .active → d.paired = true → d.mgmtRst = none → e.pair.toRole = some (3, false)))) ∧
  ∀ (z : State) (c : Nat), z.Running →
    let d := z.sys.dev
    (∀ n, d.pair.lastHb = some n → n + 4 ≤ d.tick → d.pair.lapsed = false → d.paired = true →
      (d.role = .shadow ∨ d.role = .fallow → z.leads (exec .leaseLapse z) (fun e => e.pair = { d.pair with lapsed := true } ∧ d.keeps e [])) ∧
      (d.role = .catchup → z.leads (exec .leaseLapse z) (fun e => e.pair.lapsed = true ∧ e.phase = 0 ∧ e.pair.toRole = some (3, false) ∧
        e.w64 (R.pairCnt 5) = (d.w64 (R.pairCnt 5) + 1) % 2 ^ 64))) ∧
    (d.paired = true → d.role = .shadow → d.mgmtRst = none →
      let took := fun (epoch : Nat) (e : Dev) => e.role = .active ∧ e.reg R.pairEpoch = epoch % 2 ^ 32 ∧
        e.rf R.pairStat 8 1 = b2n (!d.testMode) ∧ e.rf R.pairStat 9 1 = b2n (!d.testMode) ∧
        e.w64 (R.pairCnt 0) = (d.w64 (R.pairCnt 0) + 1) % 2 ^ 64 ∧ e.rf (R.fltstat Blk.pair) Src.pairTakeover 1 = 1 ∧ e.pair.renew = d.tick
      (∀ next cause, d.relNow = some (next, cause) → ¬(cause = 1 ∧ d.pair.joint = true) → z.leads (exec (.takeover false) z) (took next)) ∧
      (∀ next, d.relNow = some (next, 1) → d.pair.joint = true → exec (.takeover false) z = .next (z.onDev (fun d => d.atC 256))) ∧
      (∀ next cause, d.relNow = some (next, cause) → exec (.takeover true) z = .next (z.onDev (fun d => d.atC 256))) ∧
      (d.relNow = none → d.pair.lapsed = true → z.leads (exec (.takeover false) z) (took (d.reg R.pairEpoch + 1)) ∧
        z.leads (exec (.takeover true) z) (fun e => e.pair = { d.pair with toRole := some (3, false) } ∧ d.keeps e [])) ∧
      (d.relNow = none → d.pair.lapsed = false → ∀ hold, exec (.takeover hold) z = .next (z.onDev (fun d => d.atC 256)))) ∧
    (d.paired = true → d.role = .shadow → d.rf R.pairStat 5 1 = 0 → d.rf R.pairStat 12 1 = 0 → d.mgmtRst = none → d.relNow = none →
      z.leads (exec (.bridge c) z) (fun e => e.rf R.pairStat 9 1 = b2n (!d.testMode) ∧ e.rf R.pairStat 8 1 = 0 ∧ e.rf R.pairStat 12 1 = 1 ∧
        e.rf (R.fltstat Blk.pair) Src.pairBridge 1 = 1 ∧ e.role = .shadow ∧ d.keeps e [R.pairStat, R.fltstat Blk.pair, R.fltfirst Blk.pair])) ∧
    (d.rf R.pairStat 12 1 = 1 → d.silent = false → z.leads (exec (.bridgeEnd c) z) (fun e => e.pair = { d.pair with bridgeEnd := true } ∧
      e.rf R.pairStat 6 1 = 1 ∧ d.keeps e [R.pairStat]))

/-- Forwarded local inputs, presence maps, packets and MOD blocks. In a unit in lockstep a forwarded word for the tick that is coming (from cycle
9,984) or the present one (before cycle 1,024) is stored at its place of the landing half and no other byte changes; one for a later tick is
buffered. At cycle 1,023 every word that has not landed is filled from the unit's own local section, with FWD_MISS, and every other byte stays;
with all landed nothing changes. A presence map that comes by cycle 2,200 is taken, a later one is not, and a lease holder with the link up
forwards each packet it holds that the map lacks, past the tick's cap in the next one; a forwarded packet that is not held is held for its context. The lease holder sends the MOD block of the previous tick; a SHADOW takes one
that lands by cycle 3,839, and raises FWD_MISSING when none has.
Where it goes beyond the words of the rules it states the model's readings of log entries 22, 109, 132. -/
def Obligations.ForwardedInputs : Prop :=
  ∀ (z : State) (h : MirHdr), z.Running → z.Inv →
    let d := z.sys.dev
    let c := h.c
    (d.mirLive = true → d.lockstep = true → ∀ dest i v decs,
      (i ≤ 0x121 → (dest = d.tick + 1 ∧ 9984 ≤ c) ∨ (dest = d.tick ∧ c < 1024) →
        z.leadsSys (exec (.localInputReceive dest [(i, v)] decs h) z) (fun s => z.sys.stored s (fwdLand (dest % 2) + 4 * i) (leBytes 4 (v % 2 ^ 32)) ∧
          s.dev.pair.landT = dest ∧ i ∈ s.dev.pair.landed)) ∧
      (d.tick < dest → ¬(dest = d.tick + 1 ∧ 9984 ≤ c) → z.leads (exec (.localInputReceive dest [(i, v)] decs h) z) (fun e =>
        tabGet e.pair.fwdBuf dest = some ((tabGet d.pair.fwdBuf dest).getD [] ++ [(i, v)])))) ∧
    (d.lockstep = true →
      let has := fun (i : Nat) => d.pair.landT = d.tick ∧ i ∈ d.pair.landed
      let q := d.tick % 2
      ((∀ i, i ≤ 0x121 → has i) → exec .forwardLandingFill z = .next (z.onDev (fun d => d.atC 1023))) ∧
      ((∃ i, i ≤ 0x121 ∧ ¬has i) → z.leadsSys (exec .forwardLandingFill z) (fun s =>
        (∀ i, i ≤ 0x121 → ¬has i → s.mem.word (fwdLand q + 4 * i) = z.sys.mem.word (locSect q + 4 * i)) ∧
        (∀ a, (∀ i, i ≤ 0x121 → ¬has i → a < fwdLand q + 4 * i ∨ fwdLand q + 4 * i + 4 ≤ a) → s.mem.get a = z.sys.mem.get a) ∧
        s.dev.rf (R.fltstat Blk.pair) Src.pairFwdMiss 1 = 1))) ∧
    (∀ p : PresMap, d.strmPaired = true → d.mgmtRst = none → p.tick = d.tick → c ≤ 2200 → z.leads (exec (.presenceMapReceive p h) z) (fun e => e.strm.peer = some p ∧
      (d.role = .active → d.rf R.mirStat 0 1 = 1 → ∀ k q x, k < 256 → d.rxDue k = true → (d.rxC k).cut = some q → p.due.contains (k, q) = false →
        (d.rxC k).pkts.find? (fun x => x.seq == q) = some x → e.speaks (MirMsg.packet d.tick k q x.ts x.pay)))) ∧
    (∀ p : PresMap, d.strmPaired = true → d.mgmtRst = none → 2200 < c → z.leads (exec (.presenceMapReceive p h) z) (fun e => e.strm = d.strm)) ∧
    (∀ ctx seq ts pay, d.strmPaired = true → d.mgmtRst = none → c ≤ 4095 → ¬(d.role = .catchup ∧ d.phase ≠ 5) → (d.rxC ctx).on = true →
      (d.rxC ctx).pkts.any (fun p => p.seq == seq) = false → z.leads (exec (.forwardedPacketReceive d.tick ctx seq ts pay h) z) (fun e =>
        ∃ p, (e.rxC ctx).pkts = (d.rxC ctx).pkts ++ [p] ∧ p.seq = seq ∧ p.ts = ts ∧ p.pay = pay ∧ p.arr = d.tick * 10240 + c ∧ d.keepsOut e [Blk.cvu])) ∧
    (d.paired = true → d.role = .active → d.mirReady → z.leads (exec .modBlockSend z) (fun e =>
      ∃ b, e.told = d.told ++ [.modBlock b] ∧ b.tick = d.tick - 1 ∧ e.mod = d.mod)) ∧
    (d.paired = true → d.role = .shadow →
      (∀ b : ModBlk, d.mgmtRst = none → c < 3840 → b.tick + 1 = d.tick →
        z.leads (exec (.modBlockReceive b h) z) (fun e => e.mod = { d.mod with blk := some b } ∧ d.keepsOut e [Blk.cvu])) ∧
      (∀ b : ModBlk, d.mgmtRst = none → 3840 ≤ c ∨ b.tick + 1 ≠ d.tick →
        exec (.modBlockReceive b h) z = .next (z.onDev (fun d => (d.mirHead h).atC c))) ∧
      (d.mod.blk = none → z.leads (exec .fwdMissing z) (fun e => e.rf (R.fltstat Blk.mod) Src.modFwdMissing 1 = 1 ∧ e.evt.modBad = true ∧
        d.keeps e [R.fltstat Blk.mod, R.fltfirst Blk.mod])) ∧
      (d.mod.blk.isSome = true → exec .fwdMissing z = .next (z.onDev (fun d => d.atC 3840))))

/-- Mirrored commands, their CONFIRM, and acknowledgements of packets sent. A SHADOW places a mirrored command that is newer than its slot's record
and passes its checks, records it, and returns CONFIRM with reason 0; an older one is refused with COUNTER, and a unit in another role refuses
with NOT_HOLDER, neither changing the agenda. In the lease holder CONFIRM acknowledges the held command with its target tick and records it; a
refusal, two ticks without an answer, or cycle 9,856 of the tick before its target take its entry off the agenda, send CANCEL and answer STATUS
0x0C, but an ASAP command that the partner finds too late is assigned anew and mirrored again. CANCEL takes the entry off the partner's agenda and
the record of its slot back to what it was. Batched sent-acknowledgements leave once, drop the packets they cover, and packets whose
acknowledgement is overdue join the unit's own queue with TX_HANDOVER; a retransmission request resends the named frame, marked so, and one that
names no frame sent does nothing.
Where it goes beyond the words of the rules it states the model's readings of log entries 77, 94, 122. -/
def Obligations.MirroredCommands : Prop :=
  ∀ (z : State) (h : MirHdr) (c : Nat), z.Running →
    let d := z.sys.dev
    let heard := (d.mirHead h).atC h.c
    (d.mirLive = true → d.mirReady → d.seqFits h = true → ∀ m : MirCmd, m.slot < 8 → m.ctr < 2 ^ 64 → m.tgt < 2 ^ 64 →
      let old := d.w64 (R.tickSlotcnt m.slot)
      let tells := fun (r : Nat) (e : Dev) => e.told = d.told ++ [.confirm m.slot m.ctr r d.role.code]
      (d.role = .shadow → old < m.ctr → m.imm = false → (heard.dataCheck m.act false m.tgt (d.w64 (R.tickSlottgt m.slot))).2 = none →
        z.leads (exec (.mirroredCommandReceive m h) z) (fun e => e.agenda = d.agenda ++ [{ tgt := m.tgt, slot := m.slot, ctr := m.ctr, act := m.act }] ∧
          e.w64 (R.tickSlotcnt m.slot) = m.ctr ∧ e.w64 (R.tickSlottgt m.slot) = m.tgt ∧ tells 0 e)) ∧
      (d.role = .shadow → m.ctr ≤ old → z.leads (exec (.mirroredCommandReceive m h) z) (fun e => e.agenda = d.agenda ∧ tells rsCounter e)) ∧
      (d.role = .active ∨ (d.role = .fallow ∧ d.phase ≠ 1) → z.leads (exec (.mirroredCommandReceive m h) z) (fun e =>
        e.agenda = d.agenda ∧ e.w64 (R.tickSlotcnt m.slot) = old ∧ tells rsNotHolder e)) ∧
      (d.role = .catchup → d.phase ≠ 5 → d.pair.rs.used + 8192 ≤ 224 * 2 ^ 20 → z.leads (exec (.mirroredCommandReceive m h) z) (fun e =>
        e.agenda = d.agenda ∧ ∃ n, e.pair.rs.ring = d.pair.rs.ring ++ [.cmd m n]))) ∧
    (∀ (a : Await) (fr : Option UdpFrom), d.cmd.await = [a] → d.cmd.imm = [] → a.ctr < 2 ^ 64 → d.w64 (R.tickSlotcnt a.slot) < a.ctr →
      d.cmd.owed = [{ num := a.cmd.num, src := 2, from_ := fr, reply := none }] → d.cmdQueued = 0 →
      let refused := fun (fits : Prop) (e : Dev) => e.cmd.await = [] ∧ e.agenda = d.agenda.filter (fun x => !(x.slot == a.slot && x.ctr == a.ctr)) ∧
        (d.mirReady → fits → e.told = d.told ++ [.cancel a.slot a.ctr]) ∧ e.w64 (R.tickSlotcnt a.slot) = d.w64 (R.tickSlotcnt a.slot) ∧
        ∃ bs, e.out.replies = d.out.replies ++ [(2, fr, bs)] ∧ le bs 28 1 = 0x0C
      (d.mirLive = true → z.leads (exec (.confirmReceive a.slot a.ctr 0 h) z) (fun e => e.cmd.await = [] ∧ e.agenda = d.agenda ∧
        e.w64 (R.tickSlotcnt a.slot) = a.ctr ∧ ∃ bs, e.out.replies = d.out.replies ++ [(2, fr, bs)] ∧ le bs 28 1 = 0 ∧ le bs 16 6 = a.tgt % 2 ^ 48)) ∧
      (d.mirLive = true → ∀ reason, reason ≠ 0 → ¬(reason = rsLate ∧ a.asap = true) →
        z.leads (exec (.confirmReceive a.slot a.ctr reason h) z) (refused (d.seqFits h = true))) ∧
      (d.mirLive = true → a.asap = true →
        let act := actOf (cmdOp a.cmd.bytes) (cmdPay a.cmd.bytes)
        let u := heard.unplace a.slot a.ctr
        let t := u.openTick act
        cmdTgt a.cmd.bytes ≠ 0 → (u.dataCheck act false t (u.w64 (R.tickSlottgt a.slot))).2 = none →
        z.leads (exec (.confirmReceive a.slot a.ctr rsLate h) z) (fun e => e.cmd.await = [{ a with tgt := t, at_ := d.tick * 10240 + h.c }] ∧
          e.agenda = d.agenda.filter (fun x => !(x.slot == a.slot && x.ctr == a.ctr)) ++ [{ tgt := t, slot := a.slot, ctr := a.ctr, act := act }] ∧
          e.out.replies = d.out.replies)) ∧
      (a.at_ + 20480 ≤ d.tick * 10240 + c → z.leads (exec (.confirmTimeout a.slot a.ctr c) z) (refused True)) ∧
      (a.tgt = d.tick + 1 → z.leads (exec .commandResolveDeadline z) (refused True))) ∧
    (d.mirLive = true → ∀ slot ctr, let off := fun (e : Dev) => e.agenda = d.agenda.filter (fun x => !(x.slot == slot && x.ctr == ctr))
      (d.cmd.prev = [] → z.leads (exec (.cancelReceive slot ctr h) z) (fun e => off e ∧ e.w64 (R.tickSlotcnt slot) = d.w64 (R.tickSlotcnt slot))) ∧
      (∀ oc ot, d.cmd.prev = [(slot, ctr, oc, ot)] → d.w64 (R.tickSlotcnt slot) = ctr → slot < 8 → oc < 2 ^ 64 → ot < 2 ^ 64 →
        z.leads (exec (.cancelReceive slot ctr h) z) (fun e => off e ∧ e.w64 (R.tickSlotcnt slot) = oc ∧ e.w64 (R.tickSlottgt slot) = ot))) ∧
    (d.acksGo = true → d.strm.acks ≠ [] → d.mirReady → z.leads (exec (.sentAckSend c) z) (fun e =>
      e.told = d.told ++ [.sentAck d.strm.acks] ∧ e.strm.acks = [] ∧ e.strm.queue = d.strm.queue)) ∧
    (d.paired = true → d.role = .shadow → d.mgmtRst = none → ∀ acks, z.leads (exec (.sentAckReceive acks h) z) (fun e =>
      e.strm = { d.strm with held := d.strm.held.filter (fun k => !acks.contains (k.ctx, k.port, k.seq)) } ∧ d.keepsOut e [Blk.cvu])) ∧
    (d.paired = true → d.role = .shadow → ∀ k : TxPkt, d.strm.held = [k] → k.port < 2 → k.qt + 3 ≤ d.tick → z.leads (exec .txHandover z) (fun e =>
      e.strm.held = [] ∧ e.strm.queue.getD k.port [] = { k with limit := d.tick + 1 } :: d.strm.queue.getD k.port [] ∧
      e.w64 (R.pairCnt 3) = (d.w64 (R.pairCnt 3) + 1) % 2 ^ 64 ∧ e.rf (R.fltstat Blk.pair) Src.pairTxHandover 1 = 1)) ∧
    (d.mirLive = true → d.mirReady → d.seqFits h = true → ∀ ty seq,
      (∀ f, d.sentFrame ty seq = some f → f.len ≤ 6144 ∨ f.msg.bulk = true → z.leads (exec (.retransmissionRequest ty seq h) z) (fun e =>
        e.out.mir = d.out.mir ++ [{ f with again := true, tick := d.tick }] ∧ e.w64 (R.mirCnt 3) = (d.w64 (R.mirCnt 3) + 1) % 2 ^ 64)) ∧
      (d.sentFrame ty seq = none → exec (.retransmissionRequest ty seq h) z = .next (z.onDev (fun d => (d.mirHead h).atC h.c))))

/-- Lanes and link of the mirror, unknown and late frames. A lane that goes down or comes up shows in MIR.STAT with its event; the link is up while a
lane is, and DEGRADED with exactly one; a lane that comes up leaves half the measured round trip in MIR.DELAY; with both lanes gone the link is
down. A frame that is dropped for its TYPE or its check is counted as a check failure, and one of a listed TYPE is asked for again; so are the
frames of a gap in SEQ. Real-time bytes past the cap of a tick wait, and a reset of the management plane stops all. A late real-time frame is
counted, and ends the resynchronisation of a CATCHUP unit, as an image or delay frame that no retransmission repaired does.
Where it goes beyond the words of the rules it states the model's readings of log entries 22, 117, 132, 134. -/
def Obligations.MirrorLanesAndFrames : Prop :=
  ∀ (z : State) (c : Nat), z.Running →
    let d := z.sys.dev
    (∀ n, n < 2 → let other := d.rf R.mirStat (5 - n) 1
      (d.rf R.mirStat (4 + n) 1 = 1 → z.leads (exec (.mirLaneDown n c) z) (fun e => e.rf R.mirStat (4 + n) 1 = 0 ∧ e.rf R.mirStat (5 - n) 1 = other ∧
        e.rf R.mirStat 0 1 = other ∧ e.rf R.mirStat 1 1 = other ∧ e.rf (R.fltstat Blk.mir) Src.mirLaneDown 1 = 1)) ∧
      (d.rf R.mirStat (4 + n) 1 = 0 → exec (.mirLaneDown n c) z = .next (z.onDev (fun d => d.atC c))) ∧
      (d.rf R.mirStat (4 + n) 1 = 0 → bit (d.lv R.mirCtrl) n = true → ∀ ps, z.leads (exec (.mirLaneUp n ps c) z) (fun e =>
        e.rf R.mirStat (4 + n) 1 = 1 ∧ e.rf R.mirStat 0 1 = 1 ∧ e.rf R.mirStat 1 1 = 1 - other ∧ e.reg R.mirDelay = ps / 2 % 2 ^ 24 ∧
        e.rf (R.fltstat Blk.mir) Src.mirLaneUp 1 = 1 ∧
        (d.rf R.mirStat 0 1 = 0 → d.mirLive = true → e.speaks (MirMsg.identity (d.reg R.sysId) (d.lv R.ddrCfg)))))) ∧
    (d.rf R.mirStat 4 1 = 1 ∨ d.rf R.mirStat 5 1 = 1 → z.leads (exec (.mirLinkDown c) z) (fun e => e.rf R.mirStat 4 1 = 0 ∧ e.rf R.mirStat 5 1 = 0 ∧
      e.rf R.mirStat 0 1 = 0 ∧ (d.rf R.mirStat 0 1 = 1 → e.rf (R.fltstat Blk.mir) Src.mirLinkDown 1 = 1))) ∧
    (d.mirLive = true → ∀ ty seq,
      (∀ lane, z.leads (exec (.unknownTypeFrame ty seq lane c) z) (fun e => e.w64 (R.mirCnt 2) = (d.w64 (R.mirCnt 2) + 1) % 2 ^ 64 ∧
        e.rf (R.fltstat Blk.mir) Src.mirCheckFail 1 = 1 ∧ d.keepsOut e [Blk.mir, Blk.cvu] ∧ (ty = 0 ∨ 0x10 < ty → e.pair = d.pair ∧ e.told = d.told) ∧
        (1 ≤ ty → ty ≤ 0x10 → d.mirReady → e.told = d.told ++ [.retrans seq 1]))) ∧
      (ty = 0x0B ∨ (0x0D ≤ ty ∧ ty ≤ 0x0F ∧ (d.role ≠ .catchup ∨ d.phase = 0)) → exec (.frameLate ty seq c) z = .next (z.onDev (fun d => d.atC c))) ∧
      (ty ≠ 0x0B → ¬(0x0D ≤ ty ∧ ty ≤ 0x0F) → d.role ≠ .catchup → z.leads (exec (.frameLate ty seq c) z) (fun e => e.w64 (R.mirCnt 4) = (d.w64 (R.mirCnt 4) + 1) % 2 ^ 64 ∧
        e.rf (R.fltstat Blk.mir) Src.mirFrameLate 1 = 1 ∧ e.pair = d.pair ∧ d.keeps e [R.fltstat Blk.mir, R.fltfirst Blk.mir])) ∧
      (ty ≠ 0x0B → d.role = .catchup → d.phase ≠ 0 → z.leads (exec (.frameLate ty seq c) z) (fun e => e.phase = 0 ∧ e.pair.toRole = some (3, false) ∧
        e.w64 (R.pairCnt 5) = (d.w64 (R.pairCnt 5) + 1) % 2 ^ 64))) ∧
    (d.mirLive = true → ∀ h : MirHdr, let e := d.mirHead h
      e.w64 (R.mirCnt 1) = (d.w64 (R.mirCnt 1) + 1) % 2 ^ 64 ∧ (h.again = false → e.pair.rxSeq = some ((h.seq + 1) % 65536)) ∧
      (d.seqFits h = true → e.told = d.told) ∧
      (∀ n, d.mirReady → h.again = false → d.pair.rxSeq = some n → n ≠ h.seq → e.told = d.told ++ [.retrans n ((h.seq + 65536 - n) % 65536)])) ∧
    (d.mgmtRst ≠ none → ∀ m, d.mirSend m = d) ∧
    (d.rf R.mirStat 0 1 = 1 → d.mgmtRst = none → 14336 < d.pair.rtSent → ∀ b, (d.mirSend (.modBlock b)).told = d.told ∧
      (d.mirSend (.modBlock b)).pair.queued = d.pair.queued ++ [.modBlock b])

/-- Resynchronisation: the start, the snapshot, the bulk frames. A lease holder whose conditions hold and whose ring prediction fits chooses a
snapshot tick at least 16 ahead and tells its partner; where the prediction does not fit it counts an abort and waits 96,000 ticks; a FALLOW unit
arms for the tick it is told and an abort ends a resynchronisation. At the snapshot tick the lease holder freezes the image, the FALLOW unit
becomes CATCHUP. A SHADOW stores a sheaf-store copy at the same offset of its store and begins the load with the last frame; a CATCHUP unit
installs image bytes at their addresses and stores delay frames at their DRAM addresses, and nothing else of memory changes. Once the image is
sent the freeze ends.
Where it goes beyond the words of the rules it states the model's readings of log entry 78. -/
def Obligations.ResynchronisationStarts : Prop :=
  ∀ (z : State) (h : MirHdr) (c : Nat), z.Running → z.Inv →
    let d := z.sys.dev
    ((d.atC c).resyncMay = true → d.ringFits = true → z.leads (exec (.resyncStart c) z) (fun e => e.phase = 1 ∧
        e.w64 R.pairSnap = (d.tick + max 16 (d.lf R.pairCtrl 0 8)) % 2 ^ 64 ∧ e.w64 (R.pairCnt 4) = (d.w64 (R.pairCnt 4) + 1) % 2 ^ 64 ∧
        (d.mirReady → e.told = d.told ++ [.resync 1 (d.tick + max 16 (d.lf R.pairCtrl 0 8))]) ∧ e.rf (R.fltstat Blk.pair) Src.pairResync 1 = 1)) ∧
    ((d.atC c).resyncMay = true → d.ringFits = false → z.leads (exec (.resyncStart c) z) (fun e => e.phase = 0 ∧
        e.pair.rs.retry = d.tick + 96000 ∧ e.w64 (R.pairCnt 5) = (d.w64 (R.pairCnt 5) + 1) % 2 ^ 64)) ∧
    ((d.atC c).resyncMay = false → exec (.resyncStart c) z = .next (z.onDev (fun d => d.atC c))) ∧
    (d.mirLive = true → (∀ t, t < 2 ^ 64 → d.role = .fallow → z.leads (exec (.resyncControlReceive 1 t h) z) (fun e => e.phase = 1 ∧ e.w64 R.pairSnap = t)) ∧
      (∀ t, d.phase ≠ 0 → z.leads (exec (.resyncControlReceive 3 t h) z) (fun e => e.phase = 0 ∧ e.replayT = none))) ∧
    (d.paired = true → d.phase = 1 → d.w64 R.pairSnap = d.tick →
      (d.role = .active → z.leads (exec .resyncFreeze z) (fun e => e.phase = 2 ∧ e.rf R.pairStat 13 1 = 1 ∧ e.pair.rs.snap = z.sys.mem ∧
        e.pair.rs.sent = 0 ∧ e.eng = d.eng)) ∧
      (d.role = .fallow → d.pair.rs.used + 1472 ≤ 224 * 2 ^ 20 → z.leads (exec .resyncFreeze z) (fun e => e.phase = 2 ∧ e.role = .catchup))) ∧
    (d.mirLive = true → d.role = .shadow → ∀ off bs, off + bs.length ≤ 2 ^ 27 →
      z.leadsSys (exec (.sheafCopyReceive off bs none h) z) (fun s => z.sys.stored s (d.storeBase + off) bs ∧ s.dev.ldr = d.ldr) ∧
      (∀ o l, d.loadState = 0 → z.leadsSys (exec (.sheafCopyReceive off bs (some (o, l)) h) z) (fun s =>
        z.sys.stored s (d.storeBase + off) bs ∧ s.dev.loadState = 1))) ∧
    (d.mirLive = true → d.role = .catchup →
      (∀ off (b : Byte), d.phase = 2 → off < imageMem →
        z.leadsSys (exec (.imageBulkReceive off [b] none h) z) (fun s =>
          let a := imageAddr (d.rf R.engStat 5 1) (d.w64 R.pairSnap % 2) off
          s.mem.get a = b ∧ s.mem.get (d.replayBase + off) = b ∧
          (∀ x, x ≠ a → x ≠ d.replayBase + off → s.mem.get x = z.sys.mem.get x) ∧ s.dev.pair.rs.imgRx = d.pair.rs.imgRx + 1)) ∧
      (∀ a bs, a + bs.length ≤ 0x80000000 →
        z.leadsSys (exec (.delayBulkReceive [(a, bs)] h) z) (fun s => z.sys.stored s a bs ∧ s.dev.pair.rs.delRx = d.pair.rs.delRx + bs.length) ∧
        z.leadsSys (exec (.displacedFrameReceive a bs h) z) (fun s => z.sys.stored s a bs ∧ s.dev.pair.rs.delRx = d.pair.rs.delRx + bs.length))) ∧
    (d.role = .active → d.paired = true → d.rf R.pairStat 13 1 = 1 → imageBytes ≤ d.pair.rs.sent → z.leads (exec (.imageSent c) z) (fun e =>
      e.rf R.pairStat 13 1 = 0 ∧ e.phase = 3 ∧ e.pair.rs.snap = [] ∧ e.eng = d.eng))

/-- The replay of a CATCHUP unit, its join, and the return to SHADOW. With its delay copy done the lease holder moves on to the replay phase; its
partner, holding every delay byte of the image's plan, holds them, and at the next boundary takes the image's agenda and engine state and begins
to replay the snapshot tick. A
replayed tick without a recorded digest is followed by the next one, or by the join where the next one is the present tick. After 96,000 clean
compared ticks the joined unit is SHADOW, and not before.
Where it goes beyond the words of the rules it states the model's readings of log entry 105. -/
def Obligations.ReplayAndReturn : Prop :=
  ∀ (z : State) (c : Nat), z.Running →
    let d := z.sys.dev
    (d.paired = true → d.phase = 3 → d.role = .active → d.pair.rs.copy = [] → z.leads (exec (.delayCopyDone c) z) (fun e => e.phase = 4 ∧ d.keeps e [R.pairRsstat])) ∧
    (∀ b : BlockState, d.paired = true → d.phase = 3 → d.role = .catchup → d.pair.rs.blk = some b → b.ldr.act = none →
      z.leads (exec (.delayCopyDone c) z) (fun e => e.phase = 3 ∧ e.pair = { d.pair with rs := { d.pair.rs with held := true } } ∧ d.keeps e [])) ∧
    (∀ b : BlockState, d.paired = true → d.phase = 3 → d.role = .catchup → d.pair.rs.blk = some b → d.pair.rs.held = true →
      let s := z.sys.replayBegin
      s.dev.phase = 4 ∧ s.dev.replayT = some (d.w64 R.pairSnap) ∧ s.dev.agenda = b.agenda ∧ (b.agenda.length < 512 → b.agenda.length ≤ s.dev.rf R.tickAgenda 16 9)) ∧
    (∀ t, d.paired = true → d.role = .catchup → d.phase = 4 → d.replayT = some t → (d.recordOf t).digest = none → t < d.tick →
      z.leadsSys (exec (.replayTick c) z) (fun s => if t + 1 < d.tick then s.dev.replayT = some (t + 1) ∧ s.dev.phase = 4
        else s.dev.replayT = none ∧ s.dev.phase = 5)) ∧
    (d.paired = true → d.role = .catchup → d.phase = 5 →
      (96000 ≤ d.rf R.pairRsstat 3 17 → z.leads (exec .becomeShadow z) (fun e => e.role = .shadow ∧ e.phase = 0 ∧ e.eng = d.eng ∧
        e.rf (R.fltstat Blk.pair) Src.pairResync 1 = 1)) ∧
      (d.rf R.pairRsstat 3 17 < 96000 → exec .becomeShadow z = .next z))

/-- References: loss, activity, the checks of a second, wait to restore, selection. A reference not OFF or in LOS that is lost goes to LOS with its
wait to restore cleared, as an enabled one does at a boundary under a force and the PTP virtual reference without PTPOK; activity takes one from
LOS to QUALIFYING. In a second's measurement of reference n (the PTP virtual reference's comes from the counter) its frequency is recorded;
QUALIFYING takes two seconds inside the hard window to reach WTR, DISQUALIFIED returns to QUALIFYING inside the window and without drift, WTR
counts down, and QUALIFIED outside the hard window is DISQUALIFIED with REF_DISQ. A wait that is over makes the reference QUALIFIED with
RESTORED. Once an interval is evaluated the reference selected is a QUALIFIED one.
Where it goes beyond the words of the rules it states the model's readings of log entries 40, 41, 145. -/
def Obligations.ReferencesAreQualified : Prop :=
  ∀ (z : State) (n c : Nat), z.Running → n < 4 → z.sys.dev.clk.refs.length = 4 →
    let d := z.sys.dev
    (2 ≤ d.refState n → ¬(n = 2 ∧ d.lf R.clkCtrl 8 1 = 1) → z.leads (exec (.refLosDetect n c) z) (fun e => e.refState n = 1 ∧ e.reg (R.clkRefwtr n) = 0 ∧
      (e.refS n).offs = [] ∧ e.rf (R.fltstat Blk.clk) Src.clkRefLos 1 = 1)) ∧
    (d.refState n < 2 ∨ (n = 2 ∧ d.lf R.clkCtrl 8 1 = 1) → exec (.refLosDetect n c) z = .next (z.onDev (fun d => d.atC c))) ∧
    (d.refState n = 1 → bit (d.lv R.clkForce) n = false → (n = 2 → d.lf R.clkCtrl 8 1 = 1) → (n = 3 → d.rf R.mirStat 0 1 = 1) →
      z.leads (exec (.refActivity n c) z) (fun e => e.refState n = 2 ∧ (e.refS n).good = 0 ∧ d.keeps e [R.clkRefstat n])) ∧
    (d.refState n ≠ 1 ∨ bit (d.lv R.clkForce) n = true → exec (.refActivity n c) z = .next (z.onDev (fun d => d.atC c))) ∧
    (∀ o : Int, o.natAbs < 2 ^ 31 → (n = 2 → ((d.atC c).timeNow).ptpOffset = some o) →
      let offs := (List.range 4).map (fun k => if k = n then some o else none)
      let hard := d.lf (R.clkRefwin n) 0 16 * 1000 < o.natAbs
      let drift := driftFails ((o :: (d.refS n).offs).take 64) d.driftWin (d.lf R.clkDrift 0 16)
      let then_ := fun (p : Dev → Prop) => z.leads (exec (.refMeasure offs c) z) (fun e => e.reg (R.clkReffreq n) = wrapN 32 o ∧ p e)
      (d.refState n = 2 → ¬hard → (d.refS n).good = 0 → then_ (fun e => e.refState n = 2 ∧ (e.refS n).good = 1)) ∧
      (d.refState n = 2 → ¬hard → 1 ≤ (d.refS n).good → then_ (fun e => e.refState n = 5 ∧ e.reg (R.clkRefwtr n) = d.lf (R.clkReftim n) 0 10)) ∧
      (d.refState n = 2 → hard → then_ (fun e => e.refState n = 2 ∧ (e.refS n).good = 0)) ∧
      (d.refState n = 4 → ¬hard → drift = false → then_ (fun e => e.refState n = 2)) ∧
      (d.refState n = 4 → hard ∨ drift = true → then_ (fun e => e.refState n = 4)) ∧
      (d.refState n = 5 → ¬hard → drift = false → then_ (fun e => e.refState n = 5 ∧ e.reg (R.clkRefwtr n) = d.reg (R.clkRefwtr n) - 1)) ∧
      (d.refState n = 3 → hard → then_ (fun e => e.refState n = 4 ∧ e.rf (R.fltstat Blk.clk) Src.clkRefDisq 1 = 1))) ∧
    (bit (d.lv (R.clkRefcfg n)) 7 = true → 2 ≤ d.refState n → bit (d.lv R.clkForce) n = true ∨ (n = 2 ∧ d.lf R.clkCtrl 8 1 = 0) →
      (d.refConfig n).refState n = 1) ∧
    (∀ m, d.clkEval.clkSel = some m → d.clkEval.refState m = 3) ∧
    (d.refState n = 5 → d.reg (R.clkRefwtr n) = 0 → z.leads (exec (.wtrExpire n c) z) (fun e => e.refState n = 3 ∧
      e.rf (R.fltstat Blk.clk) Src.clkRestored 1 = 1)) ∧
    (d.refState n ≠ 5 ∨ d.reg (R.clkRefwtr n) ≠ 0 → exec (.wtrExpire n c) z = .next (z.onDev (fun d => d.atC c)))

/-- The phase detector, its lock, the oscillator's steps, the frequency history and holdover. With a QUALIFIED reference selected in ACQUIRE or LOCKED
a comparison records the phase less the build-out offset and a frequency word within 200 ppm, and a pull-in adds at most PULLSLOPE to it; in
ACQUIRE the last comparison inside the window of a run of LOCKN gives LOCKED,
in LOCKED the fourth beyond four windows gives ACQUIRE with LOCK_LOST; the first comparison after a switch with build-out takes the phase as the
offset. In each step-clock cycle the oscillator adds its word to the remainder, and no more than 8 of 25 cycles hold a step. A LOCKED second adds
its mean frequency word, with its tick, to the ring of 256. A second of HOLDOVER counts and gives P(t) = E0 + Y0 t + D t^2 / 2
rounded to ns, with HOLD_LIMIT once when it passes the limit. Which word the loop gives is free (log entry 5).
Where it goes beyond the words of the rules it states the model's readings of log entries 42, 43, 146. -/
def Obligations.DpllAndHoldover : Prop :=
  ∀ (z : State) (c : Nat), z.Running →
    let d := z.sys.dev
    (∀ n (ph : Int), d.clkSel = some n → d.refState n = 3 → d.clkMode = 1 ∨ d.clkMode = 2 →
      let p := d.refPhase n ph
      (d.clk.takeOff = false →
        let err := p - d.sreg (R.clkRefphoff n)
        let win := d.lf (R.clkReflock n) 0 16 * 1000
        z.leads (exec (.dpllCompare n ph c) z) (fun e => e.reg R.clkPherr = wrapN 32 (clampI (-2147483648) 2147483647 err) ∧
          -200000000 ≤ e.sreg R.clkFreq ∧ e.sreg R.clkFreq ≤ 200000000 ∧ e.clkSel = some n ∧
          (d.clkMode = 1 → err.natAbs ≤ win → max 1 (d.lf (R.clkReflock n) 16 8) ≤ d.clk.inside + 1 → e.clkMode = 2) ∧
          (d.clkMode = 1 → win < err.natAbs → e.clkMode = 1 ∧ e.clk.inside = 0) ∧
          (d.clkMode = 2 → 4 * win < err.natAbs → 3 ≤ d.clk.outside → e.clkMode = 1 ∧ e.rf (R.fltstat Blk.clk) Src.clkLockLost 1 = 1) ∧
          (d.clkMode = 2 → err.natAbs ≤ 4 * win → e.clkMode = 2 ∧ e.clk.outside = 0))) ∧
      (d.clk.takeOff = true → p.natAbs < 2 ^ 31 → z.leads (exec (.dpllCompare n ph c) z) (fun e => e.reg (R.clkRefphoff n) = wrapN 32 p ∧
        e.reg R.clkPherr = 0 ∧ e.clk.takeOff = false))) ∧
    (∀ n ph, d.clkSel ≠ some n ∨ (d.clkMode ≠ 1 ∧ d.clkMode ≠ 2) ∨ d.refState n ≠ 3 →
      exec (.dpllCompare n ph c) z = .next (z.onDev (fun d => d.atC c))) ∧
    (∀ n err, (d.pullTerm n err).natAbs ≤ max 1 (d.lf (R.clkReftim n) 16 8) * 1000000 ∧ (d.clk.pull = false → d.pullTerm n err = 0)) ∧
    (∀ (w : Int) (y : Syn), w.natAbs ≤ 200000000 → 0 ≤ y.frac → y.frac < 10 ^ 12 → (y.win.filter (fun b => b)).length ≤ 8 →
      (synStep w y).frac = (y.frac + 1280 * w) % 10 ^ 12 ∧ ((synStep w y).win.filter (fun b => b)).length ≤ 8 ∧
      ((y.win.filter (fun b => b)).length = 8 → (synStep w y).steps = y.steps)) ∧
    z.leads (exec (.historyRecord c) z) (fun e => e.clk = { d.clk with
      sum := 0
      num := 0
      ring := if d.clkMode = 2 ∧ 0 < d.clk.num then ((d.tick, roundDiv d.clk.sum d.clk.num) :: d.clk.ring).take 256 else d.clk.ring } ∧ d.keeps e []) ∧
    (d.clkMode = 3 →
      let t := min (2 ^ 32 - 1) (d.reg R.clkHoldtime + 1)
      let k := xoClass (d.lf R.clkXoclass 0 2)
      let p5 := d.clk.e0 * 100 + (if d.clk.short then 4 * k.1 else k.1) * t + k.2 * t * t
      z.leads (exec (.holdoverPredict c) z) (fun e => e.reg R.clkHoldtime = t ∧ e.reg R.clkHoldpred = min (2 ^ 32 - 1) ((p5 + 50000) / 100000) ∧
        e.clkMode = 3 ∧ (d.lf R.clkHoldlim 0 24 * 100000 < p5 → e.rf R.clkStat 8 1 = 1) ∧
        (d.lf R.clkHoldlim 0 24 * 100000 < p5 → d.rf R.clkStat 8 1 = 0 → e.rf (R.fltstat Blk.clk) Src.clkHoldLimit 1 = 1) ∧
        d.keeps e [R.clkHoldtime, R.clkHoldpred, R.clkStat, R.fltstat Blk.clk, R.fltfirst Blk.clk])) ∧
    (d.clkMode ≠ 3 → exec (.holdoverPredict c) z = .next (z.onDev (fun d => d.atC c)))

/-- Loss of the XO or of the MDLL forces the outputs. On the loss of XO edges, and of the MDLL's lock, the tick stops, both lease pins go low, the
audio and clock outputs go to high impedance, FAULT_N is asserted and the loss is a fault of SYN; the loss of the XO also holds the time counter.
Where the loss has been taken already the command changes nothing.
Where it goes beyond the words of the rules it states the model's readings of log entries 71, 102, 106. -/
def Obligations.LossOfTheClock : Prop :=
  ∀ (z : State) (c : Nat), z.sys.dev.inReset = false →
    let d := z.sys.dev
    let forced := fun (src : Nat) (s : Sys) => s.dev.ticking = false ∧ s.dev.rf R.pairStat 8 1 = 0 ∧ s.dev.rf R.pairStat 9 1 = 0 ∧ s.dev.outsZ = true ∧
      s.dev.bbx.faultN = true ∧ s.dev.rf (R.fltstat Blk.syn) src 1 = 1 ∧ s.dev.tick = d.tick
    (d.rf R.synStat 0 1 = 1 → z.leadsSys (exec (.xoLoss c) z) (fun s => forced Src.synXoLoss s ∧ s.dev.rf R.synStat 0 1 = 0 ∧ s.dev.timeValid = false)) ∧
    (d.rf R.synStat 0 1 = 0 → exec (.xoLoss c) z = .next z) ∧
    (d.rf R.synStat 1 1 = 1 → z.leadsSys (exec (.mdllUnlock c) z) (fun s => forced Src.synMdllUnlock s ∧ s.dev.rf R.synStat 0 1 = d.rf R.synStat 0 1)) ∧
    (d.rf R.synStat 1 1 = 0 → exec (.mdllUnlock c) z = .next z)

/-- Compare units fire once due; the time PLL stops and starts the counter. An armed unit whose target has come records tick and cycle with FIRED,
and LATE for one armed or stepped past it, raises CMP_FIRE, and is disarmed, or armed again a period later; a unit not armed or not due leaves
all but the counter's progress. While the time PLL is unlocked the counter keeps its value and TIME.STAT shows it; once locked it is valid again
and the next map update is a discontinuity. -/
def Obligations.CompareUnitsAndTheTimePll : Prop :=
  ∀ (z : State) (c : Nat), z.Running →
    let d := (z.sys.dev.atC c).timeNow
    (∀ k, k < 4 → c < 10240 → d.rf (R.timeCmpcfg k) 31 1 = 1 → d.cmpDiff k ≤ 0 → z.leads (exec (.compareFire k c) z) (fun e =>
        e.reg (R.timeCmptick k) = d.tick % 2 ^ 32 ∧ e.rf (R.timeCmpstat k) 0 14 = c ∧ e.rf (R.timeCmpstat k) 15 1 = 1 ∧
        (bit d.time.late k = true → e.rf (R.timeCmpstat k) 14 1 = 1) ∧ e.rf (R.fltstat Blk.time) Src.timeCmpFire 1 = 1 ∧
        (d.rf (R.timeCmpcfg k) 0 30 = 0 → e.rf (R.timeCmpcfg k) 31 1 = 0 ∧ e.reg (R.timeCmptgt k) = d.reg (R.timeCmptgt k)) ∧
        (d.rf (R.timeCmpcfg k) 0 30 ≠ 0 → e.rf (R.timeCmpcfg k) 31 1 = 1 ∧
          e.reg (R.timeCmptgt k) = (d.reg (R.timeCmptgt k) + d.rf (R.timeCmpcfg k) 0 30) % 2 ^ 32) ∧ e.time.cnt = d.time.cnt ∧
        d.keeps e [R.timeCmptick k, R.timeCmpstat k, R.timeCmpcfg k, R.timeCmptgt k, R.fltstat Blk.time, R.fltfirst Blk.time])) ∧
    (∀ k, d.rf (R.timeCmpcfg k) 31 1 = 0 ∨ 0 < d.cmpDiff k → exec (.compareFire k c) z = .next (z.onDev (fun _ => d))) ∧
    z.leads (exec (.tpllUnlock c) z) (fun e => e.timeValid = false ∧ e.rf R.timeStat 2 1 = 0 ∧ e.time = d.time ∧
      e.rf (R.fltstat Blk.time) Src.timeTpllUnlock 1 = 1 ∧ (∀ n, (e.timeTo n).time.cnt = e.time.cnt) ∧
      d.keeps e [R.timeStat, R.fltstat Blk.time, R.fltfirst Blk.time]) ∧
    z.leads (exec (.tpllRelock c) z) (fun e => e.timeValid = true ∧ e.rf R.timeStat 2 1 = 1 ∧ e.time = { d.time with first := true } ∧
      d.keeps e [R.timeStat])

/-- ECC errors that are met, and a load that ends. A single-bit error met in a word of a memory under ECC is corrected: memory stays, ENG.ECCCNT
counts it and ECC_CORR is raised; a double-bit one stays in its word, of which every later read is in error, and is LANE_ERR, which marks the
lane; a word outside its memory is no event. A load in progress that is not being copied makes its single pass, which writes the banks that are not
active, coefficient and state memory alone, and ends REFUSED with the reason of the first check that fails, or READY with its new regions zero,
the sheaf held and the active one still in use; a paired one whose pass is made ends as its partner answers. While the partner's copy is on the
way a load ends only with its failure.
Where it goes beyond the words of the rules it states the model's readings of log entries 18, 26, 27, 131. -/
def Obligations.ScrubbingAndTheEndOfALoad : Prop :=
  ∀ (z : State) (c : Nat),
    let d := z.sys.dev
    (z.Running → ∀ (m : EccMem) (lane word : Nat), eccWord m lane word = true →
      z.leads (exec (.eccScrub m lane word false c) z) (fun e => e.w64 R.engEcccnt = (d.w64 R.engEcccnt + 1) % 2 ^ 64 ∧
        e.rf (R.fltstat Blk.eng) Src.engEccCorr 1 = 1 ∧ e.eng = d.eng ∧ d.keeps e [R.fltstat Blk.eng, R.fltfirst Blk.eng]) ∧
      z.leads (exec (.eccScrub m lane word true c) z) (fun e => e.eng = { d.eng with
          ecc2 := d.eng.ecc2 ++ [d.eccAddr m lane word]
          lanes := updAt d.eng.lanes lane (fun l => { l with err := true }) } ∧
        e.rf (R.fltstat Blk.eng) Src.engLaneErr 1 = 1 ∧ (9984 ≤ c → e.rf (R.engLanestat lane) 18 1 = 1) ∧
        d.keeps e [R.fltstat Blk.eng, R.fltfirst Blk.eng, R.engLanestat lane])) ∧
    (∀ (m : EccMem) (lane word : Nat) (dbl : Bool), eccWord m lane word = false → exec (.eccScrub m lane word dbl c) z = .next z) ∧
    (d.inReset = false → ∀ (ecc : Option Nat) (peer : PeerAns) (job : LoadJob), d.bootState ≠ 7 → d.loadState = 1 → d.ldr.job = some job →
      let s := z.sys.onDev (fun d => d.atC c)
      let r := s.ownPass job ecc
      let refused := fun (reason i0 : Nat) (t : Sys) => t.dev.loadState = 4 ∧ t.dev.rf R.loadStat 8 8 = reason % 256 ∧
        t.dev.reg R.loadFailinfo0 = i0 % 2 ^ 32 ∧ t.dev.ldr.job = none ∧ t.dev.ldr.pend = none ∧ t.dev.ldr.act = d.ldr.act ∧
        t.dev.w64 R.loadRefusecnt = (d.w64 R.loadRefusecnt + 1) % 2 ^ 64
      let ready := fun (sh : Sheaf) (t : Sys) => t.dev.loadState = 2 ∧ t.dev.ldr.pend = some sh ∧ t.dev.ldr.act = d.ldr.act ∧
        t.dev.reg R.loadPendid = sh.id % 2 ^ 32
      (∀ a, (∀ n, n < 48 → (a < instrBase n (1 - d.rf R.engStat 5 1) ∨ instrBase n (1 - d.rf R.engStat 5 1) + 0x20000 ≤ a) ∧
        (a < coefBase n ∨ coefBase n + 0x20000 ≤ a) ∧ (a < stateBase n ∨ stateBase n + 0x10000 ≤ a)) → r.1.mem.get a = z.sys.mem.get a) ∧
      (d.copying = false → job.own = none →
        (∀ f, r.2 = .error f → z.leadsSys (exec (.loadComplete ecc peer c) z) (fun t => refused f.reason f.i0 t ∧ t.mem = r.1.mem)) ∧
        (∀ sh, r.2 = .ok sh → job.peerCopy = false → z.leadsSys (exec (.loadComplete ecc peer c) z) (fun t => ready sh t ∧ t.mem = (r.1.zeroFill sh).mem)) ∧
        (∀ sh h, r.2 = .ok sh → job.peerCopy = true → peer = .ready h → h ≠ sh.hash → z.leadsSys (exec (.loadComplete ecc peer c) z) (refused 0x11 0x80))) ∧
      (d.copying = false → ∀ sh, job.own = some sh → job.peerCopy = true → peer = .ready sh.hash →
        z.leadsSys (exec (.loadComplete ecc peer c) z) (fun t => ready sh t ∧ t.mem = (z.sys.zeroFill sh).mem)) ∧
      (d.copying = true → (∀ k, peer = .fail k → z.leadsSys (exec (.loadComplete ecc peer c) z) (fun t => refused 0x11 k t ∧ t.mem = z.sys.mem)) ∧
        ((∀ k, peer ≠ .fail k) → exec (.loadComplete ecc peer c) z = .next z)))

/-- A received frame is checked by length and FCS and goes to its class. On an enabled port with its link up: a frame under 64 bytes is counted as a
runt or a fragment and raises RUNT_FRAG, a longer one with a wrong FCS is counted and dropped, one that no class takes is a stranger, latched and
counted; a frame that a host class takes is written, without its FCS, to the buffer of the ring's next descriptor, with its length, OWN cleared
and HEAD moved on, or dropped and counted where the ring has no free descriptor, the first such drop after a delivered frame raising RX_RING_FULL;
no other byte of memory changes. A receive error on the array bus is counted. A port that is not ready takes nothing.
Where it goes beyond the words of the rules it states the model's readings of log entries 46, 48. -/
def Obligations.FramesAreCheckedAndClassified : Prop :=
  ∀ (z : State) (p c : Nat) (bytes : List Byte), z.Running → p ≤ 3 →
    let d := z.sys.dev
    let b := macBlk p
    let n := bytes.length
    let f := bytes.take (n - 4)
    let cnt := fun (e : Dev) (k add : Nat) => e.w64 (R.macCnt b k) = (d.w64 (R.macCnt b k) + add) % 2 ^ 64
    (d.rxReady p = false → ∀ rx, exec (.frameReceive p bytes rx c) z = .next z) ∧
    (d.rxReady p = true →
      (p = 3 → z.leads (exec (.frameReceive p bytes true c) z) (fun e => cnt e 21 1 ∧ d.keeps e [])) ∧
      (n < 64 → z.leads (exec (.frameReceive p bytes false c) z) (fun e => cnt e (if fcsGood bytes then 4 else 5) 1 ∧
        e.rf (R.fltstat b) Src.macRuntFrag 1 = 1 ∧ d.keeps e [R.fltstat b, R.fltfirst b])) ∧
      (64 ≤ n → fcsGood bytes = false → z.leads (exec (.frameReceive p bytes false c) z) (fun e => cnt e 6 1 ∧ d.keeps e [])) ∧
      (64 ≤ n → fcsGood bytes = true → n ≤ d.macMaxlen p → ethType f ≠ 0x8808 → (p < 2 → d.filterOf p f = none) → (p = 2 → d.udpCommand f = none) →
        (d.hostClass p f = none → z.leads (exec (.frameReceive p bytes false c) z) (fun e => cnt e 0 1 ∧ cnt e 1 n ∧ cnt e 8 1 ∧
          e.reg (R.macStrcap0 b) = ethDst f % 2 ^ 32 ∧ e.rf (R.fltstat b) Src.macStranger 1 = 1 ∧
          d.keeps e [R.macStrcap0 b, R.macStrcap1 b, R.fltstat b, R.fltfirst b])) ∧
        (∀ k, d.hostClass p f = some k →
          let base := d.ringAt (R.macRxbaselo b) (R.macRxbasehi b)
          let size := d.rf (R.macRxsize b) 0 13
          let head := d.rf (R.macRxhead b) 0 12
          let a := base + 32 * head
          let desc := z.sys.mem.bytes a 32
          let buf := le desc 0 5
          d.ringOk base size = true →
          (head ≠ d.rf (R.macRxtail b) 0 12 → d.descForced p a = (d, false) → bit (le desc 12 2) 0 = true → f.length ≤ le desc 8 2 → z.Inv →
            buf + f.length ≤ a ∨ a + 32 ≤ buf → z.leadsSys (exec (.frameReceive p bytes false c) z) (fun s =>
              s.mem.bytes buf f.length = f ∧ s.mem.bytes (a + 10) 2 = leBytes 2 f.length ∧ bit (le (s.mem.bytes a 32) 12 2) 0 = false ∧
              s.dev.rf (R.macRxhead b) 0 12 = (head + 1) % size ∧
              (∀ x, x < buf ∨ buf + f.length ≤ x → x < a + 10 ∨ a + 32 ≤ x → s.mem.get x = z.sys.mem.get x) ∧ d.keeps s.dev [R.macRxhead b])) ∧
          (head = d.rf (R.macRxtail b) 0 12 → z.leads (exec (.frameReceive p bytes false c) z) (fun e => cnt e 0 1 ∧ cnt e 11 1 ∧ e.out = d.out ∧
            ((d.macP p).fresh = true → e.rf (R.fltstat b) Src.macRxRingFull 1 = 1) ∧ d.keeps e [R.fltstat b, R.fltfirst b])))))

/-- Host frames leave, or are completed with a status; collisions of the array bus. On an enabled port the host frame whose turn it is goes to the
line padded to 60 bytes with its FCS where the line is free for it (linked, not paused, no stream packet before it, its turn on the array bus),
and is completed with status 0, its ring moved on; one longer than MAXLEN is completed with status 1, one on a port without link with status 2,
and neither goes out. A ring stops at a descriptor whose OWN is 0, with RING_ERR, and no other ring waits for it. A collision of the array bus
within 64 bytes is counted and tried again after a truncated binary exponential backoff, the 16th ends the frame with status 3, a late one with
status 4; a descriptor the device does not own is not touched.
Where it goes beyond the words of the rules it states the model's readings of log entries 45, 48. -/
def Obligations.HostFramesAndCollisions : Prop :=
  ∀ (z : State) (p c q a : Nat) (desc : List Byte), z.Running → z.Inv → p ≤ 3 → q < 4 → z.sys.dev.macEn p = true →
    let d := z.sys.dev
    let b := macBlk p
    let fr := z.sys.txFrame desc
    let g := fr ++ List.replicate (60 - fr.length) 0
    let completed := fun (q status : Nat) (s : Sys) => fld (le (s.mem.bytes (a + 12) 2) 0 2) 8 4 = status ∧ bit (le (s.mem.bytes (a + 12) 2) 0 2) 0 = false ∧
      s.dev.rf (R.macTxhead b q) 0 12 = (d.rf (R.macTxhead b q) 0 12 + 1) % d.rf (R.macTxsize b q) 0 13 ∧
      (status ≠ 0 → s.dev.w64 (R.macCnt b 12) = (d.w64 (R.macCnt b 12) + 1) % 2 ^ 64 ∧ s.dev.rf (R.fltstat b) Src.macTxErr 1 = 1) ∧
      (∀ x, x < a + 12 ∨ a + 14 ≤ x → s.mem.get x = z.sys.mem.get x)
    let stops := fun (k : Nat) => (z.sys.txHead p k).isSome = true ∧ z.sys.txOwned p k = false ∧ k ∉ (d.macP p).stops
    let free := (p ≠ 3 → d.macLink p = true) ∧ d.macPaused p = false ∧ (p < 2 → d.strm.queue.getD p [] = []) ∧ (p = 3 → (d.atC c).busMaySend = true)
    ((∀ k ∈ txRings p, ¬stops k) → z.sys.txNext p = some q → z.sys.txHead p q = some (a, desc) → d.descForced p a = (d, false) →
      (le desc 8 2 + 4 ≤ d.macMaxlen p → free → bit (le desc 12 2) 1 = false →
        z.leadsSys (exec (.hostFrameTransmit p c) z) (fun s => s.dev.out = { d.out with eth := d.out.eth ++ [(p, g ++ ethFcs g)] } ∧ completed q 0 s ∧
          d.keeps s.dev [R.macTxhead b q])) ∧
      (d.macMaxlen p < le desc 8 2 + 4 → z.leadsSys (exec (.hostFrameTransmit p c) z) (fun s => s.dev.out = d.out ∧ completed q 1 s)) ∧
      (le desc 8 2 + 4 ≤ d.macMaxlen p → p ≠ 3 → d.macLink p = false →
        z.leadsSys (exec (.hostFrameTransmit p c) z) (fun s => s.dev.out = d.out ∧ completed q 2 s)) ∧
      (le desc 8 2 + 4 ≤ d.macMaxlen p → (p ≠ 3 → d.macLink p = true) → ¬free → exec (.hostFrameTransmit p c) z = .next (z.onDev (fun d => d.atC c)))) ∧
    (d.mac.length = 4 → z.sys.txNext p = none → q ∈ txRings p → stops q → (∀ k ∈ txRings p, k ≠ q → ¬stops k) →
      z.leads (exec (.hostFrameTransmit p c) z) (fun e => e.out = d.out ∧ q ∈ (e.macP p).stops ∧ e.rf (R.fltstat b) Src.macTxErr 1 = 1 ∧
        d.keeps e [R.fltstat b, R.fltfirst b])) ∧
    (p = 3 → z.sys.txOwned 3 0 = false → ∀ bytes, exec (.collision bytes c) z = .next (z.onDev (fun d => d.atC c))) ∧
    (p = 3 → z.sys.txHead 3 0 = some (a, desc) → bit (le desc 12 2) 0 = true → d.mac.length = 4 → ∀ bytes,
      (bytes ≤ 64 → (d.macP 3).tries < 15 → z.leads (exec (.collision bytes c) z) (fun e => (e.macP 3).tries = (d.macP 3).tries + 1 ∧
        (∃ n, n < 2 ^ min ((d.macP 3).tries + 1) 10 ∧ e.bus.backoff = d.tick * 10240 + c + busBits (512 * n)) ∧
        e.w64 (R.macCnt 13 17) = (d.w64 (R.macCnt 13 17) + 1) % 2 ^ 64 ∧ d.keeps e [])) ∧
      (bytes ≤ 64 → 15 ≤ (d.macP 3).tries → z.leadsSys (exec (.collision bytes c) z) (fun s => completed 0 3 s ∧ (s.dev.macP 3).tries = 0 ∧
        s.dev.w64 (R.macCnt 13 19) = (d.w64 (R.macCnt 13 19) + 1) % 2 ^ 64)) ∧
      (64 < bytes → z.leadsSys (exec (.collision bytes c) z) (fun s => completed 0 4 s ∧ (s.dev.macP 3).tries = 0 ∧
        s.dev.w64 (R.macCnt 13 18) = (d.w64 (R.macCnt 13 18) + 1) % 2 ^ 64 ∧ s.dev.rf (R.fltstat Blk.mact) Src.mactLateColl 1 = 1)))

/-- PAUSE, links, MDIO and the array bus's PLCA. A PAUSE frame is counted and, with PAUSEEN, starts the pause timer with its quanta or stops it, without
it has no other effect; the
timer ends after 512 bit times a quantum and not before. A link that goes down is counted and logged, one that comes up is logged. An MDIO
transaction that ends clears BUSY, and a read leaves the PHY's data. A BEACON restores the PLCA status of a node and begins its next opportunity,
or is counted as a foreign coordinator's by the coordinator; 4,000 bit times without one, and no less, take the status of a node away.
Where it goes beyond the words of the rules it states the model's readings of log entries 49, 50, 121. -/
def Obligations.PausesLinksAndThePlca : Prop :=
  ∀ (z : State) (p c : Nat), z.Running → p ≤ 3 → z.sys.dev.mac.length = 4 →
    let d := z.sys.dev
    let b := macBlk p
    let cnt := fun (e : Dev) (k add : Nat) => e.w64 (R.macCnt b k) = (d.w64 (R.macCnt b k) + add) % 2 ^ 64
    let flts := [R.fltstat b, R.fltfirst b]
    (∀ quanta, d.rxReady p = true →
      (d.lf (R.macCtrl b) 1 1 = 1 → z.leads (exec (.pauseFrame p quanta c) z) (fun e => cnt e 0 1 ∧ cnt e 1 64 ∧ cnt e 9 1 ∧
        e.macPaused p = decide (quanta ≠ 0) ∧ (e.macP p).pauseQ = quanta ∧ (e.macP p).pauseAt = d.tick * 10240 + c ∧
        (p < 3 → e.rf (R.fltstat b) Src.macPauseRx 1 = 1) ∧ d.keeps e (R.macStat b :: flts))) ∧
      (d.lf (R.macCtrl b) 1 1 = 0 → z.leads (exec (.pauseFrame p quanta c) z) (fun e => cnt e 0 1 ∧ cnt e 9 1 ∧ d.keeps e []))) ∧
    (d.macPaused p = true → (d.atC c).pauseOver p = true → z.leads (exec (.pauseExpire p c) z) (fun e => e.macPaused p = false ∧ d.keeps e [R.macStat b])) ∧
    (d.macPaused p = false ∨ (d.atC c).pauseOver p = false → exec (.pauseExpire p c) z = .next (z.onDev (fun d => d.atC c))) ∧
    (d.macLink p = true → (p = 3 → d.plcaGood = false) → z.leads (exec (.linkDown p c) z) (fun e => e.macLink p = false ∧ cnt e 15 1 ∧
      (e.macP p).line = false ∧ (p < 3 → e.rf (R.fltstat b) Src.macLinkDown 1 = 1) ∧ d.keeps e (R.macStat b :: flts))) ∧
    (∀ speed an, d.macLink p = false → (p < 2 → d.rf (R.macStat b) 6 1 = 0) → z.leads (exec (.linkUp p speed an c) z) (fun e => e.macLink p = true ∧
      (e.macP p).line = true ∧ (p = 2 → e.rf (R.macStat 12) 4 2 = min 2 speed) ∧ (p < 3 → e.rf (R.macStat b) 2 1 = b2n (d.anDone p an)) ∧
      (p < 3 → e.rf (R.fltstat b) Src.macLinkUp 1 = 1) ∧
      d.keeps e (R.macStat b :: flts))) ∧
    (∀ data, d.rf (R.macMdiodata 12) 31 1 = 1 → z.leads (exec (.mdioDone data c) z) (fun e => e.rf (R.macMdiodata 12) 31 1 = 0 ∧
      e.rf (R.macMdiodata 12) 0 16 = (if d.mdioRd then data % 65536 else d.rf (R.macMdiodata 12) 0 16) ∧ d.keeps e [R.macMdiodata 12])) ∧
    (∀ data, d.rf (R.macMdiodata 12) 31 1 = 0 → exec (.mdioDone data c) z = .next (z.onDev (fun d => d.atC c))) ∧
    (d.plcaOn = true →
      (d.nodeId = 0 → z.leads (exec (.plcaBeacon c) z) (fun e => e.w64 (R.macCnt 13 22) = (d.w64 (R.macCnt 13 22) + 1) % 2 ^ 64 ∧
        e.rf (R.fltstat Blk.mact) Src.mactForeignCoord 1 = 1 ∧ d.keeps e [R.fltstat Blk.mact, R.fltfirst Blk.mact])) ∧
      (d.nodeId ≠ 0 → d.plcaGood = false → z.leads (exec (.plcaBeacon c) z) (fun e => e.plcaGood = true ∧ e.macLink 3 = true ∧
        e.bus.beacon = d.tick * 10240 + c ∧ e.rf (R.fltstat Blk.mact) Src.mactPlcaUp 1 = 1)) ∧
      (d.nodeId ≠ 0 → d.plcaGood = true → z.leads (exec (.plcaBeacon c) z) (fun e => e.bus.beacon = d.tick * 10240 + c ∧ e.bus.used = 0 ∧ d.keeps e []) ∧
        (d.tick * 10240 + c < d.bus.beacon + busBits 4000 → exec (.plcaLost c) z = .next (z.onDev (fun d => d.atC c))) ∧
        (d.bus.beacon + busBits 4000 ≤ d.tick * 10240 + c → z.leads (exec (.plcaLost c) z) (fun e => e.plcaGood = false ∧
          e.w64 (R.macCnt 13 20) = (d.w64 (R.macCnt 13 20) + 1) % 2 ^ 64 ∧ e.macLink 3 = ((d.macP 3).line && d.macLink 3) ∧
          e.rf (R.fltstat Blk.mact) Src.mactPlcaLost 1 = 1))))

/-- Stream packets are held, cut off, released and concealed; legs go down. A frame that matches a filter entry and passes every check is held by its
context with sequence number, timestamp and payload, and counted. At the cutoff the packet present for each due sample is fixed. The release
writes the sample of the packet present, faded by q of F, to the context's channels of the frame that staging reads, and no other byte; without
one it writes the held sample faded down a step and counts a concealment. Every window of 9,600 ticks ends with its minimum margin kept for the
next, and ARRJUMP where it jumped. A leg that a filter entry feeds and that is silent for 960 ticks is down.
Where it goes beyond the words of the rules it states the model's readings of log entries 51, 54, 55, 56. -/
def Obligations.StreamsAreReceived : Prop :=
  ∀ (z : State) (k : Nat), z.Running → z.sys.dev.engOff = false → z.sys.dev.engHeld = false → k < 256 →
    let d := z.sys.dev
    let x := d.rxC k
    (∀ (p c e pt seq ts ssrc : Nat) (bytes pay : List Byte),
      let n := bytes.length
      let f := bytes.take (n - 4)
      let ip := ethPay f
      let w := d.lv (R.strmRxctl k)
      p < 2 → d.rxReady p = true → 64 ≤ n → n ≤ d.macMaxlen p → fcsGood bytes = true → ethType f ≠ 0x8808 → d.filterOf p f = some e →
      d.lf (R.strmFctl e) 0 8 = k → ip4Good ip = true → udpGood ip = true →
      rtpOf ((slice ip (ip4Len ip) (be ip 2 2 - ip4Len ip)).drop 8) = some (pt, seq, ts, ssrc, pay) → d.rxEn k = true → x.on = true → x.nocap = false →
      d.role ≠ .catchup → (bit w 29 = true → pt = fld w 22 7) → (bit w 30 = true → ssrc = d.lv (R.strmRxssrc k)) →
      pay.length = d.rxCh k * d.rxSpp k * d.rxWidth k → d.rxT0 k ts d.tick ≤ d.tick + 768 → x.pkts.any (fun q => q.seq == seq) = false →
      x.rel.contains seq = false → d.heldBytes + pay.length ≤ holdRoom →
      z.leads (exec (.frameReceive p bytes false c) z) (fun e => (∃ q, (e.rxC k).pkts = x.pkts ++ [q] ∧ q.seq = seq ∧ q.ts = ts ∧ q.pay = pay ∧
        q.arr = d.tick * 10240 + c ∧ q.t0 = d.rxT0 k ts d.tick) ∧ e.w64 (R.strmCnt 0) = (d.w64 (R.strmCnt 0) + 1) % 2 ^ 64 ∧
        e.w64 (R.strmRxcnt k p) = (d.w64 (R.strmRxcnt k p) + 1) % 2 ^ 64)) ∧
    (d.strmPaired = false → d.strm.rx.length = 256 → (∀ j, j < 256 → (d.rxC j).fade = none ∧ (d.rxC j).ask = none) →
      z.leads (exec .streamCutoff z) (fun e => e.strm.starts = [] ∧ (∀ j, j < 256 → d.rxDue j = true → (e.rxC j).cut = d.rxPresent j d.engTick) ∧
        (∀ j, (e.rxC j).pkts = (d.rxC j).pkts) ∧ d.keeps e [])) ∧
    ((∀ j, j < 256 → d.rxDue j = false ∧ (d.rxC j).nocap = false) → exec .streamRelease z = .next (z.onDev (fun d => d.atC 4096))) ∧
    (∀ (r : Region) (a : Nat), (∀ j, j < 256 → (d.rxC j).nocap = false ∧ (j ≠ k → d.rxDue j = false)) → d.rxDue k = true → x.noreg = 0 → z.Inv →
      d.rxRegion k = .ok r → d.rxFrameAt r = some a →
      let place := a + 4 * d.lf (R.strmRxdch k) 0 12
      let f := d.rxF k
      let wrote := fun (q : Nat) (l : List Int) (s : Sys) => (∀ j v, l[j]? = some v → s.mem.word (place + 4 * j) = BitVec.ofNat 32 (wrapN 32 (fadeVal q f v))) ∧
        (∀ y, y < place ∨ place + 4 * l.length ≤ y → s.mem.get y = z.sys.mem.get y) ∧ (s.dev.rxC k).q = q
      (∀ p : RxPkt, d.rxAgreed k = (some p, false) → p.spill = false → x.fade = none → z.leadsSys (exec .streamRelease z) (fun s =>
        wrote (min (x.q + 1) f) (d.rxSample k ((d.rxTs k (d.rxU k d.engTick) + 2 ^ 32 - p.ts) % 2 ^ 32) p.pay) s)) ∧
      (d.rxAgreed k = (none, false) → z.leadsSys (exec .streamRelease z) (fun s => wrote (x.q - 1) x.h s ∧
        s.dev.w64 (R.strmRxcnt k 5) = (d.w64 (R.strmRxcnt k 5) + 1) % 2 ^ 64))) ∧
    (d.tick % 9600 ≠ 0 → exec .arrivalWindow z = .next (z.onDev (fun d => d.atC 0))) ∧
    (d.tick % 9600 = 0 → x.on = true → z.leads (exec .arrivalWindow z) (fun e => (e.rxC k).winPrev = x.win ∧ (e.rxC k).win = none ∧ (e.rxC k).pkts = x.pkts ∧
      (∀ m m', x.win = some m → x.winPrev = some m' → d.rxFollows = false → d.lf (R.strmRxarr k) 0 16 * 98304 < (max m m' - min m m') * 100 →
        e.rf (R.strmRxstat k) 6 1 = 1 ∧ e.rf (R.fltstat Blk.strm) Src.strmRxArrjump 1 = 1))) ∧
    (∀ leg c, leg < 2 → x.on = true → d.legFed k leg = true → x.legDn.getD leg false = false →
      let t := x.legT.getD leg 0
      (t + 9830400 ≤ d.tick * 10240 + c → z.leads (exec (.legDown k leg c) z) (fun e => e.rf (R.strmRxstat k) (4 + leg) 1 = 0 ∧
        e.rf (R.fltstat Blk.strm) Src.strmRxLegdown 1 = 1 ∧ d.keeps e [R.strmRxstat k, R.fltstat Blk.strm, R.fltfirst Blk.strm])) ∧
      (d.tick * 10240 + c < t + 9830400 → exec (.legDown k leg c) z = .next (z.onDev (fun d => d.atC c))))

/-- Stream packets are formed every P ticks, sent in order of their queue, or dropped when late. At the start of tick Te + (k + 1)P a transmit
context in service forms packet k: a standalone unit or lease holder queues it on each of its ports with the limit two ticks on, a SHADOW holds
it; in any other tick nothing is formed. The head of a port's queue starts on the line, padded and with its FCS, where the port is enabled,
linked, not paused, and the limit has not come; a packet whose limit has come is dropped and counted as TX_LATE.
Where it goes beyond the words of the rules it states the model's readings of log entry 57. -/
def Obligations.StreamsAreSent : Prop :=
  ∀ (z : State) (k p c : Nat), z.Running → z.sys.dev.engOff = false → k < 256 → p < 2 → z.sys.dev.strm.queue.length = 2 →
    let d := z.sys.dev
    let x := d.txC k
    (x.on = true → d.engTick = x.te + (x.k + 1) * d.txP k →
      (d.paired = false ∨ d.role = .active → z.leads (exec (.streamPacketQueue k) z) (fun e => (e.txC k).k = x.k + 1 ∧ (e.txC k).words = [] ∧
        (p ∈ d.txPorts k → ∃ q ∈ e.strm.queue.getD p [], q.ctx = k ∧ q.port = p ∧ q.seq = (d.lf (R.strmTxseq k) 0 16 + x.k) % 65536 ∧
          q.limit = d.engTick + 2 ∧
          q.frame = d.txFrameOf k p q.seq (wrapN 32 (x.u0 + d.lv (R.strmTxrtpoff k))) x.markP (x.words.flatMap (fmtBytes (d.txWidth k)))) ∧
        (p ∉ d.txPorts k → e.strm.queue.getD p [] = d.strm.queue.getD p []) ∧ d.keeps e [R.strmTxstat k])) ∧
      (d.paired = true → d.role = .shadow → z.leads (exec (.streamPacketQueue k) z) (fun e => e.strm.queue = d.strm.queue ∧
        (p ∈ d.txPorts k → ∃ q ∈ e.strm.held, q.ctx = k ∧ q.port = p)))) ∧
    (x.on = false ∨ d.engTick ≠ x.te + (x.k + 1) * d.txP k → exec (.streamPacketQueue k) z = .next (z.onDev (fun d => d.atC 0))) ∧
    (∀ (q : TxPkt) (rest : List TxPkt), d.strm.queue.getD p [] = q :: rest →
      (d.macEn p = true → d.macLink p = true → d.macPaused p = false → d.tick < q.limit →
        let g := q.frame ++ List.replicate (60 - q.frame.length) 0
        z.leads (exec (.streamPacketSend p c) z) (fun e => e.out = { d.out with eth := d.out.eth ++ [(p, g ++ ethFcs g)] } ∧
          e.strm.queue.getD p [] = rest ∧ e.w64 (R.strmTxcnt q.ctx 0) = (d.w64 (R.strmTxcnt q.ctx 0) + 1) % 2 ^ 64 ∧
          (d.acksGo = true → e.strm.acks = d.strm.acks ++ [(q.ctx, p, q.seq)]) ∧ d.keeps e [])) ∧
      (q.limit ≤ d.tick → exec (.streamPacketSend p c) z = .next (z.onDev (fun d => d.atC c))) ∧
      (q.limit ≤ d.tick → rest = [] → z.leads (exec (.streamTxLate p) z) (fun e => e.strm.queue.getD p [] = [] ∧ e.out = d.out ∧
        e.w64 (R.strmTxcnt q.ctx 1) = (d.w64 (R.strmTxcnt q.ctx 1) + 1) % 2 ^ 64 ∧ e.rf (R.fltstat Blk.strm) Src.strmTxLate 1 = 1)))

/-- Frames of the serial ports, slip buffers, returns to service, and decimator channels. With the tick running. A master port takes a received
frame: it counts, its frame count moves on, and at full gain the unmasked unfiltered slots stand in the local section of the next half, of which
no other word changes; a synchronous slave outside its window raises ALIGN and FRAME_ERR whatever its length, a frame of a wrong length FRAME_ERR;
a foreign-clock port keeps the frame in its buffer under its leader's frame number. A transmit frame drives the words taken bit by bit, masked
slots zero or high-impedance. A missing frame starts a fade. An access, once per frame of the port's rate, moves one frame at the rising gain
inside the buffer's middle, at 2 frames it slips after 64, at 1 or none it fades. Ports return to service after 16 good frames, a member at its
leader's frame count. A run of 4,096 equal bits of a channel is noticed once and raised; a settled channel is in state 2. A port or channel to
which a row does not apply is left as it is.
Where it goes beyond the words of the rules it states the model's readings of log entries 20, 24, 30 to 34. -/
def Obligations.SerialPortsAndDecimators : Prop :=
  ∀ (z : State) (p c : Nat), z.Running → p < 8 → z.sys.dev.tdm.length = 8 → z.sys.dev.dec.length = 32 →
    let d := z.sys.dev
    let t := d.tdmP p
    let f := d.tdmF p
    let same := Host.Outcome.next (z.onDev (fun d => d.atC c))
    let flts := [R.tdmStat p, R.fltstat Blk.tdm, R.fltfirst Blk.tdm]
    let alone := d.tdmGang p = [p]
    let wired := fun (bits : List (Option Bool)) => if d.tdmDelay p then t.tail :: bits.dropLast else bits
    let due := fun (x : SlipDir) => d.tdmDue p = true ∧ c ≤ 512 ∧ x.acc ≠ some d.tick
    (t.started = false → (∀ words bclks off near, exec (.tdmFrameRx p words bclks off near c) z = same) ∧ exec (.tdmFrameTx p c) z = same ∧
      (∀ bclks, exec (.missingFrame p bclks c) z = same) ∧ (∀ dir, exec (.slipAccess p dir c) z = same) ∧ exec (.alignReturn p c) z = same ∧
      exec (.gangRejoin p c) z = same) ∧
    (t.started = true →
      (∀ words bclks off near,
        (d.tdmMode p = 0 → 512 < c ∨ d.tdmDue p = false → exec (.tdmFrameRx p words bclks off near c) z = same) ∧
        (d.tdmMode p = 0 → c ≤ 512 → d.tdmDue p = true → d.tdmLeader p = p → t.out = false → t.fresh = false → t.last.length = 32 → f ≤ t.rx.q + 1 → z.Inv →
          let base := locSect ((d.tick + 1) % 2) + 128 * p
          z.leadsSys (exec (.tdmFrameRx p words bclks off near c) z) (fun s => d.counts s.dev (R.tdmCnt p 0) 1 ∧
            s.dev.reg (R.tdmFcnt p) = (d.reg (R.tdmFcnt p) + 1) % 2 ^ 32 ∧ (s.dev.tdmP p).rx.q = f ∧
            (∀ a, a < base ∨ base + 128 ≤ a → s.mem.get a = z.sys.mem.get a) ∧
            (∀ sl, sl < d.tdmSlots p → bit t.rxmF sl = true → hpfCode (d.tdmHpfSel p sl) = 0 → d.tdmWidth p = 32 →
              s.mem.bytes (base + 4 * sl) 4 = leBytes 4 (words.getD sl 0)) ∧
            (∀ sl, sl < 32 → sl < d.tdmSlots p → bit t.rxmF sl = false → s.mem.bytes (base + 4 * sl) 4 = leBytes 4 0))) ∧
        (d.tdmMode p = 1 → 2048 < off ∨ off < -2048 → z.leads (exec (.tdmFrameRx p words bclks off near c) z) (fun e =>
          e.flag Blk.tdm Src.tdmAlign ∧ e.flag Blk.tdm Src.tdmFrameErr ∧ d.counts e (R.tdmCnt p 1) 1 ∧
          (-32768 ≤ off ∧ off ≤ 32767 → e.reg (R.tdmFsoff p) = wrapN 16 off))) ∧
        (d.tdmMode p ≠ 0 → bclks ≠ d.tdmBits p → z.leads (exec (.tdmFrameRx p words bclks off near c) z) (fun e =>
          e.flag Blk.tdm Src.tdmFrameErr ∧ d.counts e (R.tdmCnt p 1) 1)) ∧
        (d.tdmMode p = 2 → bclks = d.tdmBits p → d.tdmWidth p = 32 → near = true → t.rx.buf.length < 8 →
          z.leads (exec (.tdmFrameRx p words bclks off near c) z) (fun e => d.counts e (R.tdmCnt p 0) 1 ∧ (e.tdmP p).good = t.good + 1 ∧
            ∃ g : SlipFrame, (e.tdmP p).rx.buf = t.rx.buf ++ [g] ∧ g.words = (List.range 32).map (fun i => words.getD i 0 % 2 ^ 32) ∧
              g.n = e.reg (R.tdmFcnt (d.tdmLeader p))))) ∧
      (d.tdmMayStart p c = false → exec (.tdmFrameTx p c) z = same) ∧
      ((∀ w ∈ d.frameWr, w.port ≠ p) →
        (d.tdmMode p ≠ 2 → d.tdmMayStart p c = true → t.taken = d.tdmBoundaryOf c → t.taken ≠ 0 → z.leads (exec (.tdmFrameTx p c) z) (fun e =>
          e.out = { d.out with tdm := d.out.tdm ++ [(p, d.tdmDrive p t.frame)] } ∧
          (e.tdmP p).wire.bits = wired (d.tdmBitsOf p (d.tdmDrive p t.frame)) ∧ d.keeps e [R.tdmStat p, R.tdmSlotmask p])) ∧
        (∀ fr rest, d.tdmMode p = 2 → t.tx.buf = fr :: rest → z.leads (exec (.tdmFrameTx p c) z) (fun e => (e.tdmP p).tx.buf = rest ∧
          e.out = { d.out with tdm := d.out.tdm ++ [(p, d.tdmDrive p fr.words)] } ∧
          (e.tdmP p).wire.bits = wired (d.tdmBitsOf p (d.tdmDrive p fr.words)) ∧ d.keeps e [R.tdmStat p, R.tdmSlotmask p]))) ∧
      (∀ fr sl, sl < d.tdmSlots p → (d.tdmDrive p fr)[sl]? = some (if bit (d.lv (R.tdmSlotmask p)) sl = true then
          some (if d.tdmWidth p = 16 then fr.getD sl 0 / 65536 else fr.getD sl 0) else if d.lf (R.tdmCtrl p) 0 1 = 1 then none else some 0)) ∧
      (∀ bclks, (d.tdmMode p = 0 → exec (.missingFrame p bclks c) z = same) ∧
        (d.tdmMode p ≠ 0 → d.tdmLeader p ≠ p ∨ alone → t.rx.fading = false → z.leads (exec (.missingFrame p bclks c) z) (fun e =>
          (e.tdmP p).rx.fading = true ∧ (e.tdmP p).good = 0 ∧ d.counts e (R.tdmCnt p 1) 1 ∧ d.counts e (R.tdmCnt p 6) 1 ∧
          e.flag Blk.tdm Src.tdmFrameErr ∧ e.flag Blk.tdm Src.tdmFade ∧ (e.rf (R.tdmStat p) 0 3 = 2 ∨ e.rf (R.tdmStat p) 0 3 = 3) ∧ d.keeps e flts))) ∧
      (d.tdmMode p ≠ 2 ∨ d.tdmLeader p ≠ p → ∀ dir, exec (.slipAccess p dir c) z = same) ∧
      (¬due t.rx → exec (.slipAccess p 0 c) z = same) ∧ (¬due t.tx → exec (.slipAccess p 1 c) z = same) ∧
      (d.tdmMode p = 2 → d.tdmLeader p = p → alone → d.role = .active → d.forwards = false →
        (due t.tx → t.tx.fading = false → 3 ≤ t.tx.buf.length → t.tx.buf.length ≤ 5 → z.leads (exec (.slipAccess p 1 c) z) (fun e =>
          (e.tdmP p).tx = { t.tx with
            buf := t.tx.buf ++ [{ words := frameScale t.frame (min (t.tx.q + 1) f) f }]
            q := min (t.tx.q + 1) f
            held := t.frame
            since := min 64 (t.tx.since + 1)
            fading := false
            acc := some d.tick } ∧ d.keeps e [R.tdmStat p])) ∧
        (∀ g rest, due t.rx → t.out = false → t.rx.fading = false → t.rx.buf = g :: rest → 2 ≤ rest.length → rest.length ≤ 4 →
          z.leadsSys (exec (.slipAccess p 0 c) z) (fun s => (s.dev.tdmP p).rx.buf = rest ∧ (s.dev.tdmP p).rx.held = g.words ∧
           (s.dev.tdmP p).rx.q = min (t.rx.q + 1) f ∧
          d.keeps s.dev [R.tdmStat p])) ∧
        (due t.rx → t.out = false → t.rx.fading = false → t.rx.buf.length = 2 → 64 ≤ t.rx.since → z.leadsSys (exec (.slipAccess p 0 c) z) (fun s =>
          (s.dev.tdmP p).rx.buf = t.rx.buf ∧ (s.dev.tdmP p).rx.since = 0 ∧ d.counts s.dev (R.tdmCnt p 2) 1 ∧ s.dev.flag Blk.tdm Src.tdmSlip ∧
          d.keeps s.dev flts)) ∧
        (due t.rx → t.out = false → t.rx.fading = false → t.rx.buf.length ≤ 1 → z.leadsSys (exec (.slipAccess p 0 c) z) (fun s =>
          (s.dev.tdmP p).rx.fading = true ∧ d.counts s.dev (R.tdmCnt p 6) 1 ∧ s.dev.flag Blk.tdm Src.tdmFade ∧ d.keeps s.dev flts))) ∧
      (d.tdmMode p = 1 → t.out = true → 16 ≤ t.good → z.leads (exec (.alignReturn p c) z) (fun e => (e.tdmP p).out = false ∧
        (e.tdmP p).rx.fading = false ∧ e.flag Blk.tdm Src.tdmRampback ∧ d.keeps e flts)) ∧
      (d.tdmMode p ≠ 1 ∨ t.out = false ∨ t.good < 16 → exec (.alignReturn p c) z = same) ∧
      (d.tdmGanged p = true → d.tdmLeader p ≠ p → t.out = true → 16 ≤ t.good → z.leads (exec (.gangRejoin p c) z) (fun e => (e.tdmP p).out = false ∧
        e.reg (R.tdmFcnt p) = d.reg (R.tdmFcnt (d.tdmLeader p)) % 2 ^ 32 ∧ e.flag Blk.tdm Src.tdmGangRejoin ∧ e.flag Blk.tdm Src.tdmRampback ∧
        d.keeps e (R.tdmFcnt p :: flts))) ∧
      (d.tdmGanged p = false ∨ d.tdmLeader p = p ∨ t.out = false ∨ t.good < 16 → exec (.gangRejoin p c) z = same)) ∧
    (∀ ch, ch < 32 →
      let x := d.decC ch
      (∀ b, (x.lastB = b → 4095 ≤ x.same → x.stuck = false → (x.bitSeen b).hit = some b ∧ (x.bitSeen b).stuck = true) ∧
        (x.lastB = b → x.same < 4095 ∨ x.stuck = true → (x.bitSeen b).hit = x.hit) ∧
        (x.lastB ≠ b → (x.bitSeen b).same = 1 ∧ (x.bitSeen b).stuck = false ∧ (x.bitSeen b).hit = x.hit)) ∧
      (∀ b, x.hit = some b → z.leads (exec (.pdmStuck ch c) z) (fun e => (e.decC ch).hit = none ∧
        bit (e.reg R.pdmStuck) ch = true ∧ e.flag Blk.pdm Src.pdmStuck ∧ d.keeps e [R.pdmStuck, R.fltstat Blk.pdm, R.fltfirst Blk.pdm])) ∧
      (x.hit = none → exec (.pdmStuck ch c) z = same) ∧
      (x.runs = true → d.decState ch = 1 → x.setB = true → z.leads (exec (.decSettled ch c) z) (fun e => e.decState ch = 2 ∧
        e.flag Blk.dec Src.decSettled ∧ e.dec = d.dec ∧ d.keeps e [R.decStat ch, R.fltstat Blk.dec, R.fltfirst Blk.dec])) ∧
      (x.runs = false ∨ d.decState ch ≠ 1 ∨ x.setB = false → exec (.decSettled ch c) z = same))

/-- Superframes, the loop and its duties, latches, retries and the enables of a group. With the tick running. A superframe of an enabled lane without
a forced error counts as good, takes its status bits and moves the lane's state by R276; a wrong check value in service is CRC_ERR, a lane that
goes DOWN raises it and mutes its running channels. The loop computes each running channel's high times, which lie between HMIN and 5,120 - HMIN,
and 2,560 for the others. A carrier period of a running group starts at STAG + 5,120 j steps, its high time centred, a latched channel low, a muted
one half. LATCHN limited periods latch a channel at the start of a period, with a retry where one is left; the retry restarts it from zero, muted
where its lane is DOWN, its ramp from the next tick. AMP_EN rises 16 ticks after the start with the lane UP,
the group rests 16 ticks after its fall, and a driver fault puts it in DRVOFF. Where a row's conditions do not hold only the cycle may change.
Where it goes beyond the words of the rules it states the model's readings of log entries 35 to 38. -/
def Obligations.SenseLanesAndModulators : Prop :=
  ∀ (z : State) (c : Nat), z.Running → z.sys.dev.mod.ch.length = 48 → z.sys.dev.mod.grp.length = 6 → z.sys.dev.sns.length = 6 →
    let d := z.sys.dev
    let same := fun n => Host.Outcome.next (z.onDev (fun d => d.atC n))
    let flts := [R.fltstat Blk.mod, R.fltfirst Blk.mod]
    let others := fun (e : Dev) (ch : Nat) => ∀ k, k ≠ ch → e.modC k = d.modC k
    (∀ g sf bits arr,
      let l := d.snsL g
      (6 ≤ g ∨ 8 ≤ sf ∨ l.run.state = 0 → exec (.superframe g sf bits arr c) z = same c) ∧
      (g < 6 → sf < 8 → l.run.state ≠ 0 → d.lf R.snsForce (4 * g) 4 = 0 →
        let want := sf + 8 * ((if 1280 * (sf + 1) ≤ c then d.tick else d.tick - 1) % 2)
        let crcBad := decide (d.cvuValue 1 (sfBytes bits) ≠ sfField bits 152 8)
        let good := !crcBad && sfField bits 0 8 == 0b11100010 && sfField bits 144 4 == want && decide (arr ≤ 1152)
        z.leads (exec (.superframe g sf bits arr c) z) (fun e => (e.snsL g).run = l.run.next good ∧ d.keepsOut e [Blk.sns, Blk.mod, Blk.cvu] ∧
          (good = true → d.counts e (R.snsCnt g 0) 1 ∧ e.reg (R.snsFestat g) = sfField bits 136 16) ∧
          (good = false → e.reg (R.snsFestat g) = d.reg (R.snsFestat g)) ∧
          (crcBad = true → l.run.state ≠ 1 → d.counts e (R.snsCnt g 1) 1 ∧ e.flag Blk.sns Src.snsCrcErr) ∧
          (l.run.state ≠ 4 → (l.run.next good).state = 4 → e.flag Blk.sns Src.snsLaneDown ∧
            ∀ k ∈ chansOf g, (d.modC k).st = 1 → (e.modC k).st = 6)))) ∧
    (d.modLive = false → exec .loopCompute z = same 4096) ∧
    (d.modLive = true → d.role ≠ .shadow ∨ d.paired = false → z.leads (exec .loopCompute z) (fun e => d.keeps e flts ∧
      (d.hmin ≤ 2560 → ∀ k, k < 48 → ∀ h ∈ (e.modC k).next, d.hmin ≤ h ∧ h ≤ 5120 - d.hmin) ∧
      ∀ k, k < 48 →
        let x := d.modC k
        let par := (d.tick + 1) % 2
        let o := d.loopCh k x.core (((d.snsL (k / 8)).volts.getD par []).getD (k % 8) []) ((x.flags.getD par []).any (fun b => b))
        (x.st = 1 → (e.modC k).core = o.1 ∧ (e.modC k).next = o.2.1) ∧ (x.st ≠ 1 → (e.modC k).next = [2560, 2560, 2560, 2560]))) ∧
    (∀ ch j,
      let x := d.modC ch
      let g := d.modG (ch / 8)
      let on := d.modLive && !d.mod.shut && d.mod.join == 0 && g.run_ && !g.drv
      (48 ≤ ch ∨ 4 ≤ j ∨ c ≠ d.periodStart ch j / 2 → exec (.carrierPeriod ch j c) z = same c) ∧
      (ch < 48 → j < 4 → c = d.periodStart ch j / 2 → on = false → z.leads (exec (.carrierPeriod ch j c) z) (fun e => (e.modC ch).pulse = none ∧ others e ch ∧ d.keeps e [])) ∧
      (ch < 48 → j < 4 → c = d.periodStart ch j / 2 → on = true →
        let h := if x.st = 6 then 2560 else x.duty.getD j 2560
        z.leads (exec (.carrierPeriod ch j c) z) (fun e => others e ch ∧ d.keeps e [R.modChstat ch] ∧ (e.modC ch).limited = false ∧
          (e.modC ch).beg = d.lf (R.modChcfg ch) 0 13 + 5120 * j ∧ (e.modC ch).run = (if x.limited then x.run else 0) ∧
          (e.modC ch).pulse = (if x.st = 4 ∨ x.st = 5 ∨ x.st = 0 then none else some ((5120 - h) / 2, (5120 - h) / 2 + h))))) ∧
    (∀ ch, ch < 48 →
      let x := d.modC ch
      let g := d.modG (ch / 8)
      (x.st = 1 → d.latchN ≤ x.run → (∃ j, j < 4 ∧ c = d.periodStart ch j / 2) → z.leads (exec (.shortLatch ch c) z) (fun e => (e.modC ch).st = (if x.core.retries < d.retryMax then 5 else 4) ∧
        (e.modC ch).pulse = none ∧ (e.modC ch).core.retryAt = d.tick + d.retryT ∧ d.counts e (R.modCnt 1) 1 ∧ e.flag Blk.mod Src.modShortLatch ∧
        (d.retryMax ≤ x.core.retries → e.flag Blk.mod Src.modRetryExhausted) ∧ others e ch ∧ d.keeps e (R.modChstat ch :: flts))) ∧
      (x.st ≠ 1 ∨ x.run < d.latchN ∨ (∀ j, j < 4 → c ≠ d.periodStart ch j / 2) → exec (.shortLatch ch c) z = same c) ∧
      (let ready := x.st = 5 ∧ x.core.retryAt ≤ d.tick ∧ g.run_ = true ∧ g.fell = none ∧ g.drv = false ∧ d.modLive = true
       (ready → (d.snsL (ch / 8)).run.state ≠ 4 → z.leads (exec (.retry ch) z) (fun e => (e.modC ch).st = 1 ∧
          (e.modC ch).core.retries = x.core.retries + 1 ∧ (e.modC ch).core.rem = 0 ∧
          (∀ r, g.ramp = some r → r.t0 ≤ d.tick → g.stop = false → (e.modC ch).core.ramp = some { t0 := d.tick, n0 := -1, dir := 1 }) ∧
          e.flag Blk.mod Src.modRetry ∧ others e ch ∧ d.keeps e (R.modChstat ch :: flts))) ∧
       (ready → (d.snsL (ch / 8)).run.state = 4 → z.leads (exec (.retry ch) z) (fun e => (e.modC ch).st = 6 ∧
          (e.modC ch).core.retries = x.core.retries + 1 ∧ e.flag Blk.mod Src.modRetry ∧ e.flag Blk.mod Src.modSenseMute ∧
          d.keeps e (R.modChstat ch :: flts))) ∧
       (¬ready → exec (.retry ch) z = same 0))) ∧
    (∀ g, g < 6 →
      let x := d.modG g
      let r : Ramp := { t0 := d.tick + 16, n0 := 0, dir := 1 }
      (let ready := x.run_ = true ∧ x.amp = false ∧ x.stop = false ∧ x.fell = none ∧ x.drv = false ∧ d.mod.shut = false ∧ d.modLive = true ∧
         x.start + 16 ≤ d.tick ∧ (d.snsL g).run.state = 2
       (ready → z.leads (exec (.ampEnRise g) z) (fun e => e.modG g = { x with
          amp := true
          ramp := some r } ∧ bit (e.reg R.modGrpstat) g = true ∧
          ∀ k ∈ chansOf g, (d.modC k).st = 1 → (d.modC k).core.ramp = none → (e.modC k).core.ramp = some r)) ∧
       (¬ready → exec (.ampEnRise g) z = same 0)) ∧
      (∀ t, x.fell = some t → t + 16 ≤ d.tick → d.lf (R.modGrpctl g) 31 1 = 0 → z.leads (exec (.groupStop g) z) (fun e => (e.modG g).run_ = false ∧
        (e.modG g).amp = false ∧ bit (e.reg R.modGrpstat) (8 + g) = false ∧ (∀ k ∈ chansOf g, (e.modC k).pulse = none) ∧
        ∀ g', g' ≠ g → e.modG g' = d.modG g')) ∧
      (x.fell = none ∨ d.lf (R.modGrpctl g) 31 1 = 1 → exec (.groupStop g) z = same 0) ∧
      (x.amp = true → z.leads (exec (.drvFault g c) z) (fun e => (e.modG g).amp = false ∧ (e.modG g).drv = true ∧
        bit (e.reg R.modGrpstat) (16 + g) = true ∧ e.flag Blk.mod Src.modDrvFault ∧
        ∀ k ∈ chansOf g, (e.modC k).pulse = none ∧ ((e.modC k).st = 4 ∨ (e.modC k).st = 5 ∨ (e.modC k).st = 7))) ∧
      (x.amp = false → exec (.drvFault g c) z = same c))

/-- Postings become records, records reach the host ring; temperatures, the watchdog and the GPIO pins. A posting at the front of the path enters the
intake if there is room for its severity, else it is shed and counted; the drop of a posting of S1 or S2 is counted. A lone posting of S3 or S4
is numbered with the next sequence number and stands in the black box at its index, nothing else of memory changing; one that folds into an open
record takes no number. A record whose window has ended closes. A closed record goes to the next entry of a usable host ring with room, or is
skipped and counted. A conversion of six good sensors leaves each reading and the hottest, with the warning and the yield at their thresholds; an
excluded sensor is SENSOR_FAIL. The 160 degree comparator stops every group and clock output and latches. The watchdog's first expiry triggers
the black box, with the tick running or not. Edges of pins set EDGE with the tick, other pins keep theirs.
Where it goes beyond the words of the rules it states the model's readings of log entries 62 to 66, 69, 70, 72, 74. -/
def Obligations.EventsTemperatureAndPins : Prop :=
  (∀ (z : State) (c : Nat), z.Running →
    let d := z.sys.dev
    let same := Host.Outcome.next (z.onDev (fun d => d.atC c))
    (d.evt.path = [] → exec (.eventPosting false) z = .next z) ∧
    (∀ p0 t, d.evt.path = p0 :: t →
      let p := if p0.approx then { p0 with cyc := d.cycle } else p0
      (d.intakeNow < intakeLimit p0.sev → z.leads (exec (.eventPosting false) z) (fun e => e.evt.path = t ∧ e.evt.intake = d.evt.intake ++ [p] ∧
        d.keeps e [R.evtStat])) ∧
      (intakeLimit p0.sev ≤ d.intakeNow → z.leads (exec (.eventPosting false) z) (fun e => d.counts e (R.evtCnt 1) 1 ∧
        e.evt.intake.length = d.evt.intake.length ∧ (d.evt.shedT ≠ d.tick + 1 → e.flag Blk.evt Src.evtShedding)))) ∧
    ((∀ p ∈ d.evt.path, 3 ≤ p.sev) → exec (.eventPosting true) z = .next z) ∧
    ((∃ p ∈ d.evt.path, p.sev ≤ 2) → z.leads (exec (.eventPosting true) z) (fun e => d.counts e (R.evtCnt 5) 1 ∧ e.flag Blk.evt Src.evtStatusDrop)) ∧
    (d.numberHold = true → exec (.evtNumbering c) z = same) ∧
    (∀ p, d.numberHold = false → d.evt.intake = [p] → p.tick ≠ d.tick → d.evt.made = [] → d.rf R.ddrStat 0 1 = 0 → z.Inv →
      (3 ≤ p.sev → d.evt.opens = [] → d.evt.queue = [] → d.evt.lost = [] → d.rf R.bbxStat 31 1 = 0 →
        let r : EvRec := { p.toRec with seq := d.reg R.evtSeq }
        let i := d.rf R.bbxStat 0 13
        z.leadsSys (exec (.evtNumbering c) z) (fun s => s.dev.reg R.evtSeq = (d.reg R.evtSeq + 1) % 2 ^ 32 ∧ d.counts s.dev (R.evtCnt 0) 1 ∧
          s.dev.evt.queue = [(r, true)] ∧ s.dev.evt.intake = [] ∧ s.dev.rf R.bbxStat 0 13 = (i + 1) % 8192 ∧
          z.sys.stored s (retainedBase + 32 * i) r.bytes)) ∧
      (∀ o, d.openOf p = some o → o.folds p = true → o.recd.rep < 65534 → z.leadsSys (exec (.evtNumbering c) z) (fun s =>
        s.dev.reg R.evtSeq = d.reg R.evtSeq ∧ d.counts s.dev (R.evtCnt 3) 1 ∧ s.dev.evt.queue.length = d.evt.queue.length))) ∧
    ((∀ o ∈ d.evt.opens, d.tick < o.upto) → exec (.coalesceClose c) z = same) ∧
    (∀ o, d.evt.opens = [o] → d.evt.queue = [(o.recd, false)] → o.upto ≤ d.tick → d.rf R.ddrStat 0 1 = 0 →
      z.leads (exec (.coalesceClose c) z) (fun e => e.evt.opens = [] ∧ e.evt.queue = [(o.recd, true)] ∧ d.keeps e [])) ∧
    (d.evt.queue = [] → d.evt.gapN = 0 → exec (.hostRingWrite c) z = same) ∧
    (∀ r t, d.evt.queue = (r, true) :: t → d.evt.gapN = 0 →
      let n := d.rf R.evtRsize 0 17
      let w := d.rf R.evtWridx 0 16 % n
      (d.evtRingOk = true → d.evtUnread + 2 ≤ n → z.Inv → z.leadsSys (exec (.hostRingWrite c) z) (fun s => s.dev.evt.queue = t ∧
        s.dev.reg R.evtWridx = (w + 1) % n ∧ z.sys.stored s (d.reg R.evtRbaselo / 64 * 64 + 2 ^ 32 * (d.reg R.evtRbasehi % 256) + 32 * w) r.bytes)) ∧
      (d.evtRingOk = false → z.leads (exec (.hostRingWrite c) z) (fun e => e.evt.queue = t ∧ e.evt.gapN = 1 ∧ e.evt.gap1 = r.seq ∧
        d.counts e (R.evtCnt 4) 1 ∧ d.keeps e []))) ∧
    (∀ rd : List Int,
      let x := fun i => rd.getD i 0
      let l := (List.range 6).map x
      z.leads (exec (.thmConversion rd c) z) (fun e => d.keepsOut e [Blk.thm] ∧ (∀ i, i < 6 → e.reg (R.thmTemp i) = tempWord (x i)) ∧
        (∀ i, i < 6 → sensorBad l i = true → e.rf R.thmStat (8 + i) 1 = 1 ∧ e.flag Blk.thm Src.thmSensorFail) ∧
        (∀ i, i < 6 → (∀ k, k < 6 → sensorBad l k = false ∧ x k ≤ x i) → e.reg R.thmTj = tempWord (x i) ∧
          e.rf R.thmStat 29 1 = b2n (decide (4 * (d.rf R.thmCfg 0 8 : Int) ≤ x i)) ∧
          (4 * (d.rf R.thmCfg 0 8 : Int) ≤ x i → d.thm.warned = false → e.flag Blk.thm Src.thmThermWarn) ∧
          (620 ≤ x i → d.thm.hot = true → d.rf R.thmStat 30 1 = 0 → e.rf R.thmStat 30 1 = 1 ∧ e.flag Blk.thm Src.thmThermYield) ∧
          (x i < 600 → e.rf R.thmStat 30 1 = 0)))) ∧
    (d.rf R.pwrTherm 0 1 = 1 → exec (.thermShut c) z = .next z) ∧
    (d.rf R.pwrTherm 0 1 = 0 → z.leads (exec (.thermShut c) z) (fun e => e.rf R.pwrTherm 0 1 = 1 ∧ e.rf R.thmStat 31 1 = 1 ∧ e.mod.shut = true ∧
      (∀ g, g < 6 → (e.modG g).run_ = false) ∧ (∀ k, k < 4 → e.rf (R.synOutstat k) 0 1 = 0 ∧ e.rf (R.synOutstat k) 1 1 = 1) ∧
      e.flag Blk.thm Src.thmThermShut ∧ d.keepsOut e [Blk.thm, Blk.pwr, Blk.mod, Blk.syn])) ∧
    (∀ pins,
      let new := d.gpioPins pins
      let old := d.reg R.gpioIn
      let hit := fun p => (bit old p = false ∧ bit new p = true ∧ bit (d.rf R.gpioEdgecfg (2 * p) 2) 0 = true) ∨
        (bit old p = true ∧ bit new p = false ∧ bit (d.rf R.gpioEdgecfg (2 * p) 2) 1 = true)
      z.leads (exec (.gpioEdge pins c) z) (fun e => e.reg R.gpioIn = new ∧ d.keepsOut e [Blk.gpio] ∧
        ∀ p, p < 8 → (hit p → bit (e.reg R.gpioEdge) p = true ∧ e.reg (R.gpioEdgetick p) = d.tickLo ∧ e.flag Blk.gpio Src.gpioEdge) ∧
          (¬hit p → bit (e.reg R.gpioEdge) p = bit (d.reg R.gpioEdge) p ∧ e.reg (R.gpioEdgetick p) = d.reg (R.gpioEdgetick p))))) ∧
  ∀ (z : State) (c : Nat), z.sys.dev.inReset = false →
    let d := z.sys.dev
    let due := d.rf R.bbxWdcfg 31 1 = 1 ∧ (96 * max 1 (d.rf R.bbxWdcfg 0 16) ≤ d.bbx.wdMs ∨ d.rf R.synStat 1 1 = 0)
    (due → z.leads (exec (.wdogExpire c) z) (fun e => e.bbx.wdMs = 0 ∧ e.bbx.wdFired = true ∧ e.flag Blk.bbx Src.bbxWdogExpired ∧
      (d.bbx.wdFired = false → e.rf R.bbxStat 30 1 = 1) ∧ (d.bbx.wdFired = true → e.reg R.bbxStat = d.reg R.bbxStat))) ∧
    (¬due → exec (.wdogExpire c) z = .next z)

/-- Requests on the bus, refresh, glean, and the PCI Express link. (Of the bus, while no lane's store waits for its issue to close: R51.) A request of
an internal master without a path to its target is a decode error, so is one into the exchange area while the engine runs,
recorded and counted, a read giving zeros; one that is not granted waits; a read of DRAM without an error gives its bytes, a write of DRAM,
packet or retained memory stores its bytes and no others. A refresh slot above the planned class counts the extra refreshes; the class follows
the hotter device upward at once. A glean frame enters the FIFO or stops glean on OVERRUN; a block whose writes are answered stands in DRAM with
its check entry and BSEQ moves on; a readback counts the blocks that fail and names the first. The link comes up with its width and speed and
goes down with a fault, PERST_N clears the ring registers, and nothing of the engine or the agenda changes.
Where it goes beyond the words of the rules it states the model's readings of log entries 59, 79, 80, 82, 86. -/
def Obligations.BusMemoryAndTheHostLink : Prop :=
  ∀ (z : State) (c : Nat), z.Running →
    let d := z.sys.dev
    let same := Host.Outcome.next (z.onDev (fun d => d.atC c))
    (∀ q : BusReq, q.via = .internal → q.master < 10 → q.master ≠ 7 → d.eng.stores = [] → d.eng.sreqs = [] →
      let n := q.bytes.length
      let t := d.target q.addr
      let may := (masterPaths q.master).contains t = true ∧ 0 < n ∧ t ≠ 3 ∧ d.target (q.addr + n - 1) = t ∧ (t = 1 → d.exClosed q.addr n = false)
      ((masterPaths q.master).contains t = false ∨ (t = 1 ∧ d.exClosed q.addr n = true) → z.leads (exec (.busRequest q c) z) (fun e => d.counts e (R.bmxCnt 0) 1 ∧
        e.reg R.bmxDecerr = t * 256 + 16 * b2n q.write + q.master ∧ e.w64 R.bmxDecaddr = q.addr % 2 ^ 40 ∧ e.flag Blk.bmx Src.bmxDecerr ∧
        (q.write = false → e.rdata = List.replicate n 0) ∧ d.keeps e [R.bmxDecerr, R.fltstat Blk.bmx, R.fltfirst Blk.bmx])) ∧
      (may → d.busGrant t q.last (q.master :: q.rivals) ≠ q.master → exec (.busRequest q c) z = same) ∧
      (may → q.rivals = [] → t = 0 → q.write = false → q.ecc = 0 → d.lf R.ddrForce 0 1 = 0 → d.eng.oldC ≠ c ∨ d.eng.olds = [] → z.leads (exec (.busRequest q c) z) (fun e =>
        e.rdata = (z.sys.mem.bytes q.addr n).map (fun b => b.toNat) ∧ d.keeps e [])) ∧
      (∀ bs, may → q.rivals = [] → t = 0 ∨ t = 4 ∨ t = 5 → q.write = true → q.bytes = bs.map some → z.Inv → z.leadsSys (exec (.busRequest q c) z) (fun s =>
        z.sys.stored s q.addr bs ∧ s.dev = d.atC c))) ∧
    (∀ q : BusReq, q.via ≠ .internal → d.rf R.pcieStat 0 1 = 0 → exec (.busRequest q c) z = .next z) ∧
    (∀ n, z.leads (exec (.heldRequestRelease n c) z) (fun e => d.counts e (R.bmxCnt 1) n ∧ d.keeps e [])) ∧
    (d.refreshSheaf = none → (∀ ch, exec (.refreshSlot ch c) z = .next z) ∧ (∀ v0 k0 v1 k1, exec (.mr4Read v0 k0 v1 k1) z = .next z)) ∧
    (∀ sh, d.refreshSheaf = some sh →
      (∀ ch, ch ≤ 1 →
        let slot := (sh.refresh.getD (2 * ch + d.tick % 2) []).contains c
        let act := d.rf R.loadClass 0 2
        (slot = false → exec (.refreshSlot ch c) z = .next z) ∧ (slot = true → d.dramClass ≤ act → exec (.refreshSlot ch c) z = same) ∧
        (slot = true → act < d.dramClass → d.dramClass ≤ 2 → z.leads (exec (.refreshSlot ch c) z) (fun e =>
          d.counts e (R.ddrCnt 3) (2 ^ (d.dramClass - act) - 1) ∧ e.ddr.thin = true ∧ (d.ddr.thin = false → e.flag Blk.ddr Src.ddrRefreshThin) ∧
          d.keeps e [R.fltstat Blk.ddr, R.fltfirst Blk.ddr]))) ∧
      (∀ v0 k0 v1 k1,
        let k := min 3 (max k0 k1)
        (d.tick % 2 = 1 → exec (.mr4Read v0 k0 v1 k1) z = .next z) ∧
        (d.tick % 2 = 0 → z.leads (exec (.mr4Read v0 k0 v1 k1) z) (fun e => e.rf R.ddrTemp 0 8 = v0 % 256 ∧ e.rf R.ddrTemp 8 8 = v1 % 256 ∧
          (d.dramClass < k → e.dramClass = k ∧ e.flag Blk.ddr Src.ddrClassChange ∧ (k = 3 → e.flag Blk.ddr Src.ddrDramHot)) ∧
          (k < d.dramClass → d.ddr.low = k → 63 ≤ d.ddr.below → e.dramClass = k) ∧
          (k < d.dramClass → (d.ddr.low ≠ k ∨ d.ddr.below < 63) → e.dramClass = d.dramClass ∧ e.ddr.low = k ∧
            e.ddr.below = (if d.ddr.low = k then d.ddr.below + 1 else 1)) ∧
          (k = d.dramClass → e.dramClass = k ∧ e.ddr.below = 0))))) ∧
    (d.gleanState ≠ 1 ∨ d.tick % 2 = 0 → exec (.gleanSample c) z = .next z) ∧
    (d.gleanState = 1 → d.tick % 2 = 1 →
      let fr := (List.range (max 1 (d.lf R.glnCfg 0 10))).flatMap (fun i => beBytes 3 (d.gleanValue i))
      (0x40000 < d.gln.bytes + fr.length → z.leads (exec (.gleanSample c) z) (fun e => e.gleanState = 2 ∧ e.flag Blk.gln Src.glnOverrun)) ∧
      (d.gln.bytes + fr.length ≤ 0x40000 → d.gln.part.length + fr.length < 4096 → z.leads (exec (.gleanSample c) z) (fun e => e.gln = { d.gln with
        part := d.gln.part ++ fr
        frames := d.gln.frames + 1 } ∧ d.keeps e [R.glnStat])) ∧
      (d.gln.bytes + fr.length ≤ 0x40000 → 4096 ≤ d.gln.part.length + fr.length → z.leads (exec (.gleanSample c) z) (fun e =>
        e.gln.part = (d.gln.part ++ fr).drop 4096 ∧ e.gln.next = d.gln.next + 1 ∧ e.gln.pend.length = d.gln.pend.length + 1 ∧ e.gleanState = 1))) ∧
    (d.gln.pend = [] → exec (.gleanBlockDone c) z = .next z) ∧
    (∀ n bs first rest, d.gln.pend = (n, bs, first) :: rest → bs.length = 4096 → z.Inv → z.leadsSys (exec (.gleanBlockDone c) z) (fun s =>
      let j := n % d.gleanB
      s.mem.bytes (d.gleanBase + 4096 * j) 4096 = bs ∧
      s.mem.bytes (d.gleanTable + 16 * j) 16 = leBytes 4 (d.cvuValue 6 bs) ++ leBytes 8 n ++ leBytes 4 first ∧
      (∀ a, a < d.gleanBase + 4096 * j ∨ d.gleanBase + 4096 * j + 4096 ≤ a → a < d.gleanTable + 16 * j ∨ d.gleanTable + 16 * j + 16 ≤ a →
        s.mem.get a = z.sys.mem.get a) ∧
      s.dev.w64 R.glnBseq = (n + 1) % 2 ^ 64 ∧ d.counts s.dev (R.glnCnt 0) 1 ∧ s.dev.gln.pend = rest)) ∧
    (d.rf R.glnRbstat 31 1 = 0 → exec (.readbackDone c) z = .next z) ∧
    (d.rf R.glnRbstat 31 1 = 1 → d.lf R.ddrForce 0 1 = 0 →
      let bad := ((List.range (max 1 (d.rf R.glnRbctl 0 16))).map (fun i => (d.rf R.glnRbblock 0 21 + i) % d.gleanB)).filter (fun j =>
        d.cvuValue 6 (z.sys.mem.bytes (d.gleanBase + 4096 * j) 4096) != le (z.sys.mem.bytes (d.gleanTable + 16 * j) 16) 0 4)
      z.leads (exec (.readbackDone c) z) (fun e => e.reg R.glnRbstat = min 65535 bad.length ∧
        (∀ f t, bad = f :: t → e.reg R.glnRbfirst = f ∧ e.flag Blk.gln Src.glnRbFail) ∧ (bad = [] → d.keeps e [R.glnRbstat]))) ∧
    (∀ low, z.leads (exec (.perst low c) z) (fun e => e.pcie.clkreq = !low ∧ e.eng = d.eng ∧ e.agenda = d.agenda ∧
      (low = true → e.rf R.pcieStat 0 1 = 0 ∧ e.rf R.sysRstcause 4 1 = 1 ∧ (∀ r, r < 2 → e.reg (R.cmdChead r) = 0 ∧ e.reg (R.cmdCtail r) = 0)) ∧
      (low = false → d.keeps e []))) ∧
    (∀ width speed,
      let ok := d.rf R.pcieStat 0 1 = 0 ∧ d.pcie.clkreq = true ∧ (1 ≤ width ∧ width ≤ 2) ∧ (1 ≤ speed ∧ speed ≤ 3)
      (ok → z.leads (exec (.pcieLinkUp width speed c) z) (fun e => e.rf R.pcieStat 0 1 = 1 ∧ e.rf R.pcieStat 2 2 = width ∧
        e.rf R.pcieStat 4 2 = speed ∧ e.flag Blk.pcie Src.pcieLinkUp)) ∧
      (¬ok → exec (.pcieLinkUp width speed c) z = .next z)) ∧
    (d.rf R.pcieStat 0 1 = 0 → exec (.pcieLinkDown c) z = same) ∧
    (d.rf R.pcieStat 0 1 = 1 → z.leads (exec (.pcieLinkDown c) z) (fun e => e.rf R.pcieStat 0 1 = 0 ∧ d.counts e (R.pcieCnt 4) 1 ∧
      e.flag Blk.pcie Src.pcieLinkDown ∧ e.eng = d.eng ∧ e.agenda = d.agenda ∧ d.keeps e [R.pcieStat, R.fltstat Blk.pcie, R.fltfirst Blk.pcie]))

/-- Resets, the boot sequence, nonces, fuses, domains and the ends of plane resets. POR_N leaves every register at its reset value but the straps and
the boot state, memory with nothing written, and the fuses as they are. RESET_N keeps the DRAM and the retained SRAM, the event sequence and the
epoch, and holds the device in reset while no XO edge is seen. The boot sequence waits for a PCIe image where BOOTSEL says so, ends in STATE 8
with an image that passes its checks and asks for no writes and no sheaf, and stops with its CODE where the flash cannot be read, the DRAM does
not train, or no PCIe image comes. The first lock of the MDLL begins tick 0. A nonce that was called for is drawn while the source passes; a
failed test, the source's recovery, the end of a fuse operation, a domain made ready, the return of XO edges, the end of a plane reset and the
factory unlock have their effect, and each of them nothing but the cycle where it does not apply. (With nothing waiting in CMD, which some of
these set going again.)
Where it goes beyond the words of the rules it states the model's readings of log entries 1, 2, 97, 99, 100, 101, 102. -/
def Obligations.ResetsBootAndEntropy : Prop :=
  (∀ (z : State) (bootsel : Nat) (pairId testmode : Bool),
      let d := z.sys.dev
      (d.testMode = false → z.leadsSys (exec (.powerOnReset bootsel pairId testmode) z) (fun s => s.mem = [] ∧ s.dev.tick = 0 ∧ s.dev.agenda = [] ∧
        s.dev.eng = {} ∧ s.dev.bootState = 1 ∧ s.dev.inReset = false ∧
        s.dev.reg R.sysBootcfg = bootsel % 4 + 4 * b2n pairId + 8 * b2n testmode ∧
        ∀ off, off ∉ [R.sysBootcfg, R.sysBootstat, R.pairStat] → s.dev.reg off = resetVal off ∧ s.dev.w64 off = 0)) ∧
      (d.cmd.await = [] → d.cmd.imm = [] → d.rf R.pwrTherm 0 1 = 0 → z.Inv → z.leadsSys (exec (.warmReset bootsel pairId testmode) z) (fun s =>
        s.dev.bootState = 1 ∧ s.dev.inReset = (d.rf R.synStat 0 1 == 0) ∧ s.dev.rf R.sysRstcause 1 1 = 1 ∧ s.dev.tick = 0 ∧ s.dev.eng = {} ∧
        s.dev.agenda = [] ∧ s.dev.reg R.evtSeq = d.reg R.evtSeq ∧ s.dev.reg R.pairEpoch = d.reg R.pairEpoch ∧ s.dev.ticking = false ∧
        (∀ off, aoReg off = false → off ∉ [R.sysBootcfg, R.sysBootstat, R.synStat, R.pairCtrl, R.pairStat, R.keyTrngstat, R.ddrStat] →
          s.dev.reg off = resetVal off) ∧
        ∀ a, s.mem.get a = if a < 0x200000000 ∨ (retainedBase ≤ a ∧ a < retainedBase + 0x40000) then z.sys.mem.get a else Memory.blank))) ∧
    (∀ (z : State) (c : Nat), z.sys.dev.inReset = false → z.sys.dev.cmdQuiet →
      let d := z.sys.dev
      let same := Host.Outcome.next (z.onDev (fun d => d.atC c))
      let failed := fun (code : Nat) (e : Dev) => e.bootState = 15 ∧ e.rf R.sysBootstat 4 4 = code ∧ e.flag Blk.sys Src.sysBootFail
      (∀ slot0 slot1 sheaf train,
        (d.bootState ≠ 1 ∨ d.rf R.synStat 1 1 = 0 → exec (.boot slot0 slot1 sheaf train c) z = .next z) ∧
        (d.bootState = 1 → d.rf R.synStat 1 1 = 1 →
          (d.rf R.sysBootcfg 0 2 = 1 → z.leads (exec (.boot slot0 slot1 sheaf train c) z) (fun e => e.bootState = 9 ∧ e.boot.image = [] ∧
            d.keeps e [R.sysBootstat])) ∧
          (d.rf R.sysBootcfg 0 2 ≠ 1 →
            (slot0 = none → slot1 = none → z.leads (exec (.boot slot0 slot1 sheaf train c) z) (failed 8)) ∧
            (∀ bs, slot0 = some bs → z.sys.bootCheck slot0 = (0, 0) → train = false → z.leads (exec (.boot slot0 slot1 sheaf train c) z) (failed 6)) ∧
            (∀ bs, slot0 = some bs → z.sys.bootCheck slot0 = (0, 0) → train = true → bootWrites bs = [] → le bs 0x18 4 = 0 →
              z.leads (exec (.boot slot0 slot1 sheaf train c) z) (fun e => e.bootState = 8 ∧ e.reg R.sysBoottick = d.tickLo ∧ e.rf R.ddrStat 0 2 = 1 ∧
                d.keeps e [R.sysBootstat, R.sysBoottick, R.ddrCfg, R.ddrStat]))))) ∧
      (d.bootState ≠ 9 → exec (.bootPcieTimeout c) z = .next z) ∧ (d.bootState = 9 → z.leads (exec (.bootPcieTimeout c) z) (failed 1)) ∧
      (let ready := d.bbx.clkCond = false ∧ d.rf R.synStat 1 1 = 0 ∧ d.bootState ≤ 1 ∧ d.asleep = false
       (ready → z.leads (exec .mdllLock z) (fun e => e.ticking = true ∧ e.tick = 0 ∧ e.cycle = 0 ∧ e.bootState = 1 ∧
          d.keeps e [R.synStat, R.sysBootstat])) ∧
       (¬ready → exec .mdllLock z = .next z)) ∧
      (∀ nonce, (d.cmd.draw = [] ∨ d.cmd.fails ≠ 0 → exec (.nonceDraw nonce c) z = same) ∧
        (d.cmd.draw ≠ [] → d.cmd.fails = 0 → z.leads (exec (.nonceDraw nonce c) z) (fun e => e.nonce = nonce % 2 ^ 64 ∧ e.nonceOk = true ∧
          e.cmd.draw = [] ∧ e.evt.made.length = d.evt.made.length + d.cmd.draw.length ∧
          d.keeps e [R.cmdNoncelo, R.cmdNoncehi, R.cmdStat, R.keyTrngstat]))) ∧
      (∀ test, (test = 1 ∨ test = 2 → z.leads (exec (.trngHealth test c) z) (fun e => e.rf R.keyTrngstat test 1 = 1 ∧ e.rf R.keyTrngstat 0 1 = 0 ∧
          e.cmd.fails ≠ 0 ∧ e.flag Blk.key Src.keyTrngHealth ∧ d.keeps e [R.keyTrngstat, R.fltstat Blk.key, R.fltfirst Blk.key])) ∧
        (¬(test = 1 ∨ test = 2) → exec (.trngHealth test c) z = same)) ∧
      z.leads (exec (.trngSourcePassesAgain c) z) (fun e => e.rf R.keyTrngstat 0 1 = 1 ∧ e.cmd = { d.cmd with fails := 0 } ∧ d.keeps e [R.keyTrngstat]) ∧
      (∀ err, (d.cmd.fuse = false → exec (.fuseDone err c) z = same) ∧
        (d.cmd.fuse = true → z.leads (exec (.fuseDone err c) z) (fun e => e.cmd = { d.cmd with fuse := false } ∧ (err ≠ none → e.flag Blk.key Src.keyOtpErr) ∧
          d.keeps e [R.fltstat Blk.key, R.fltfirst Blk.key]))) ∧
      (∀ k,
        let ready := k ∈ switchable ∧ bit (d.lv R.pwrDomctl) k = true ∧ d.domOn k = false
        (ready → z.leads (exec (.domainReady k c) z) (fun e => e.domOn k = true ∧ d.keeps e [R.pwrDomstat])) ∧
        (¬ready → exec (.domainReady k c) z = .next z)) ∧
      z.leads (exec .xoEdgesReturn z) (fun e => e.rf R.synStat 0 1 = 1 ∧ e.inReset = false ∧ d.keeps e [R.synStat]) ∧
      (d.ticking = true →
        (d.ctrlRst = none → d.mgmtRst = none → exec (.planeResetEnd c) z = same) ∧
        (∀ t, d.ctrlRst = some t → t ≤ d.tick → d.mgmtRst = none → z.leads (exec (.planeResetEnd c) z) (fun e => e.ctrlRst = none ∧ d.keeps e [])) ∧
        (∀ t, d.ctrlRst = none → d.mgmtRst = some t → t ≤ d.tick →
          (d.paired = false → z.leads (exec (.planeResetEnd c) z) (fun e => e.mgmtRst = none ∧ d.keeps e [])) ∧
          (d.paired = true → d.role ≠ .isolated → ∃ s, exec (.planeResetEnd c) z = .next s ∧ s.sys.dev.mgmtRst = none ∧ s.sys.dev.role = .fallow))) ∧
      (d.testMode = true ∨ d.rf R.sysBootcfg 3 1 = 0 → exec (.factoryTestUnlock c) z = .next z) ∧
      (d.testMode = false → d.rf R.sysBootcfg 3 1 = 1 → z.leads (exec (.factoryTestUnlock c) z) (fun e => e.testMode = true ∧ e.bbx.faultN = true ∧
        e.rf R.pairStat 8 1 = 0 ∧ e.rf R.pairStat 9 1 = 0 ∧ ∀ g, g < 6 → (e.modG g).run_ = false))) ∧
    (∀ (z : State), z.sys.dev.inReset = true → z.leads (exec .xoEdgesReturn z) (fun e => e.inReset = false ∧ e.bootState = 1 ∧
      e.rf R.synStat 0 1 = 1))
end

