-- ==== Sys2Proof/Laws/Memory.lean ====
section
/-!
SUPPORT. The laws of memory: every operation keeps the canonical form, a read after a write gives what was written, and a write leaves every
other address alone.
-/
namespace Sys2Proof.Machine

/-! ## The canonical form -/

/-- The canonical form, entry by entry. -/
theorem Memory.wf_cons (k : Nat) (v : Byte) (t : Memory) :
    Memory.wf ((k, v) :: t) = true ↔ v ≠ Memory.blank ∧ (∀ p ∈ t, k < p.1) ∧ Memory.wf t = true := by
  induction t generalizing k v with
  | nil => simp [Memory.wf]
  | cons q t ih =>
    obtain ⟨k', v'⟩ := q
    simp only [Memory.wf, Bool.and_eq_true, bne_iff_ne, decide_eq_true_eq, List.mem_cons, forall_eq_or_imp]
    constructor
    · rintro ⟨⟨h1, h2⟩, h3⟩
      have := (ih k' v').1 h3
      exact ⟨h1, ⟨h2, fun p hp => lt_trans h2 (this.2.1 p hp)⟩, h3⟩
    · rintro ⟨h1, ⟨h2, _⟩, h3⟩
      exact ⟨⟨h1, h2⟩, h3⟩

@[simp] theorem Memory.wf_nil : Memory.wf [] = true := rfl

/-- The addresses of memory after a write. -/
theorem Memory.put_mem (m : Memory) (a : Nat) (b : Byte) : ∀ p ∈ m.put a b, p.1 = a ∨ p ∈ m := by
  induction m with
  | nil => intro p hp; unfold Memory.put at hp; split at hp <;> simp_all
  | cons q t ih =>
    obtain ⟨k, v⟩ := q
    intro p hp
    unfold Memory.put at hp
    split at hp
    · rcases List.mem_cons.1 hp with h | h
      · exact .inr (by simp [h])
      · exact (ih p h).imp id (fun h => List.mem_cons_of_mem _ h)
    · split at hp
      · split at hp
        · exact .inr (List.mem_cons_of_mem _ hp)
        · rcases List.mem_cons.1 hp with h | h
          · exact .inl (by simp [h])
          · exact .inr (List.mem_cons_of_mem _ h)
      · split at hp
        · exact .inr hp
        · rcases List.mem_cons.1 hp with h | h
          · exact .inl (by simp [h])
          · exact .inr h

/-- A write keeps the canonical form. -/
theorem Memory.put_wf (m : Memory) (a : Nat) (b : Byte) (h : m.wf = true) : (m.put a b).wf = true := by
  induction m with
  | nil => unfold Memory.put; split <;> simp_all [Memory.wf]
  | cons q t ih =>
    obtain ⟨k, v⟩ := q
    have hc := (Memory.wf_cons k v t).1 h
    unfold Memory.put
    split
    · rename_i hk
      refine (Memory.wf_cons _ _ _).2 ⟨hc.1, fun p hp => ?_, ih hc.2.2⟩
      rcases Memory.put_mem t a b p hp with e | e
      · omega
      · exact hc.2.1 p e
    · split
      · rename_i hk
        split
        · exact hc.2.2
        · rename_i hb
          exact (Memory.wf_cons _ _ _).2 ⟨hb, fun p hp => by have := hc.2.1 p hp; omega, hc.2.2⟩
      · split
        · exact h
        · rename_i h1 h2 hb
          refine (Memory.wf_cons _ _ _).2 ⟨hb, fun p hp => ?_, h⟩
          rcases List.mem_cons.1 hp with e | e
          · subst e; simp only; omega
          · have := hc.2.1 p e; omega

/-- So does a write of several bytes. -/
theorem Memory.putBytes_wf (bs : List Byte) (m : Memory) (a : Nat) (h : m.wf = true) : (m.putBytes a bs).wf = true := by
  induction bs generalizing m a with
  | nil => exact h
  | cons b t ih => exact ih _ _ (Memory.put_wf m a b h)

/-- So does a write of a word. -/
theorem Memory.putWord_wf (m : Memory) (a : Nat) (w : Word) (h : m.wf = true) : (m.putWord a w).wf = true :=
  Memory.putBytes_wf _ m a h

/-- So does zeroing. -/
theorem Memory.zero_wf (n : Nat) (m : Memory) (a : Nat) (h : m.wf = true) : (m.zero a n).wf = true := by
  induction n generalizing m a with
  | zero => exact h
  | succ n ih => exact ih _ _ (Memory.put_wf m a 0 h)

/-- So does a write under byte enables. -/
theorem Memory.putEn_wf (bs : List (Option Byte)) (m : Memory) (a : Nat) (h : m.wf = true) : (m.putEn a bs).wf = true := by
  induction bs generalizing m a with
  | nil => exact h
  | cons b t ih =>
    cases b with
    | none => exact ih _ _ h
    | some b => exact ih _ _ (Memory.put_wf m a b h)

/-- So does dropping entries. -/
theorem Memory.filter_wf (m : Memory) (p : Host.Cell → Bool) (h : m.wf = true) : Memory.wf (m.filter p) = true := by
  induction m with
  | nil => rfl
  | cons q t ih =>
    obtain ⟨k, v⟩ := q
    have hc := (Memory.wf_cons k v t).1 h
    simp only [List.filter_cons]
    split
    · exact (Memory.wf_cons _ _ _).2 ⟨hc.1, fun r hr => hc.2.1 r (List.mem_filter.1 hr).1, ih hc.2.2⟩
    · exact ih hc.2.2

/-- A fold of operations that each keep the canonical form keeps it. -/
theorem Memory.foldl_wf {α : Type} (l : List α) (f : Memory → α → Memory) (hf : ∀ m x, m.wf = true → (f m x).wf = true)
    (m : Memory) (h : m.wf = true) : (l.foldl f m).wf = true := by
  induction l generalizing m with
  | nil => exact h
  | cons x t ih => exact ih _ (hf m x h)

/-- The same for `each`. -/
theorem Memory.each_wf {α : Type} (l : List α) (f : α → Memory → Memory) (hf : ∀ x m, m.wf = true → (f x m).wf = true)
    (m : Memory) (h : m.wf = true) : Memory.wf (each l f m) = true := by
  induction l generalizing m with
  | nil => exact h
  | cons x t ih => exact ih _ (hf x m h)

/-- A switched-off cluster's memories. -/
theorem Memory.dropCluster_wf (m : Memory) (k : Nat) (h : m.wf = true) : (m.dropCluster k).wf = true := by
  unfold Memory.dropCluster Memory.drop
  split
  · exact Memory.filter_wf _ _ (Memory.filter_wf _ _ (Memory.filter_wf _ _ h))
  · exact h

/-- What a reset or a sleep keeps. -/
theorem Memory.aoKept_wf (m : Memory) (h : m.wf = true) : m.aoKept.wf = true := Memory.filter_wf _ _ h

/-- A descriptor handed back. -/
theorem Memory.clearOwn_wf (m : Memory) (a : Nat) (h : m.wf = true) : (m.clearOwn a).wf = true := Memory.putBytes_wf _ _ _ h

/-- A copied frame of words. -/
theorem Memory.copyWords_wf (n : Nat) (m : Memory) (a b : Nat) (z : Nat → Bool) (h : m.wf = true) : (m.copyWords a b z n).wf = true := by
  induction n generalizing m with
  | zero => exact h
  | succ n ih => exact ih _ (Memory.putWord_wf _ _ _ h)

/-- A zeroed delay region. -/
theorem zeroRegion_wf (m : Memory) (r : Region) (h : m.wf = true) : (zeroRegion m r).wf = true := Memory.filter_wf _ _ h

/-- A program written into a bank. -/
theorem fillBank_wf (m : Memory) (n b : Nat) (prog : List Nat) (h : m.wf = true) : (fillBank m n b prog).wf = true :=
  Memory.foldl_wf _ _ (fun _ _ h => Memory.putBytes_wf _ _ _ h) _ (Memory.filter_wf _ _ h)

/-- A block's initial data. -/
theorem initBlock_wf (act : Option Sheaf) (data : List Byte) (m : Memory) (b : SBlock) (h : m.wf = true) : (initBlock act data m b).wf = true := by
  unfold initBlock
  simp only
  split
  · exact h
  · split
    · exact Memory.putBytes_wf _ _ _ h
    · refine Memory.each_wf _ _ (fun p m hm => ?_) _ h
      split
      · exact hm
      · exact Memory.put_wf _ _ _ hm

/-- Everything the single pass of a load writes. -/
theorem Sys.passWrites_wf (s : Sys) (img : Image) (h : s.mem.wf = true) : (s.passWrites img).mem.wf = true :=
  Memory.foldl_wf _ _ (fun m b h => initBlock_wf _ _ m b h) _ (Memory.foldl_wf _ _ (fun m n h => fillBank_wf m n _ _ h) _ h)

/-- The new regions of a load. -/
theorem Sys.zeroFill_wf (s : Sys) (sh : Sheaf) (h : s.mem.wf = true) : (s.zeroFill sh).mem.wf = true :=
  Memory.foldl_wf _ _ (fun m r h => zeroRegion_wf m r h) _ h

/-! ## Reads after writes -/

/-- No entry lies at or below an address under all others. -/
theorem Memory.get_lt (m : Memory) (a : Nat) (h : ∀ p ∈ m, a < p.1) : m.get a = Memory.blank := by
  cases m with
  | nil => rfl
  | cons q t =>
    obtain ⟨k, v⟩ := q
    have := h (k, v) (by simp)
    simp only at this
    unfold Memory.get
    rw [if_neg (by omega), if_pos this]

/-- A read after a write to the same address gives the value written. -/
theorem Memory.get_put (m : Memory) (a : Nat) (b : Byte) (h : m.wf = true) : (m.put a b).get a = b := by
  induction m with
  | nil => unfold Memory.put; split <;> simp_all [Memory.get]
  | cons q t ih =>
    obtain ⟨k, v⟩ := q
    have hc := (Memory.wf_cons k v t).1 h
    unfold Memory.put
    split
    · rename_i hk
      unfold Memory.get
      rw [if_neg (by omega), if_neg (by omega)]
      exact ih hc.2.2
    · split
      · rename_i h1 h2
        split
        · rename_i hb
          rw [hb]
          exact Memory.get_lt t a (fun p hp => by have := hc.2.1 p hp; omega)
        · simp [Memory.get]
      · rename_i h1 h2
        split
        · rename_i hb
          unfold Memory.get
          rw [if_neg h2, if_pos (by omega), hb]
        · simp [Memory.get]

/-- A write leaves every other address alone. -/
theorem Memory.get_put_ne (m : Memory) (a c : Nat) (b : Byte) (hne : c ≠ a) (h : m.wf = true) : (m.put a b).get c = m.get c := by
  induction m with
  | nil =>
    unfold Memory.put
    split
    · rfl
    · unfold Memory.get
      rw [if_neg (Ne.symm hne)]
      split <;> simp [Memory.get]
  | cons q t ih =>
    obtain ⟨k, v⟩ := q
    have hc := (Memory.wf_cons k v t).1 h
    unfold Memory.put
    split
    · rename_i hk
      unfold Memory.get
      rw [ih hc.2.2]
    · split
      · rename_i h1 h2
        split
        · conv_rhs => unfold Memory.get
          rw [if_neg (by omega)]
          split
          · exact Memory.get_lt t c (fun p hp => by have := hc.2.1 p hp; omega)
          · rfl
        · subst h2
          unfold Memory.get
          rw [if_neg (Ne.symm hne), if_neg (Ne.symm hne)]
      · rename_i h1 h2
        split
        · rfl
        · conv_lhs => unfold Memory.get
          rw [if_neg (Ne.symm hne)]
          split
          · rename_i hlt
            unfold Memory.get
            rw [if_neg (by omega), if_pos (by omega)]
          · rfl

/-- A write of several bytes leaves every address outside them alone. -/
theorem Memory.get_putBytes_ne (bs : List Byte) (m : Memory) (a c : Nat) (hc : c < a ∨ a + bs.length ≤ c) (h : m.wf = true) :
    (m.putBytes a bs).get c = m.get c := by
  induction bs generalizing m a with
  | nil => rfl
  | cons b t ih =>
    simp only [List.length_cons] at hc
    unfold Memory.putBytes
    rw [ih _ _ (by omega) (Memory.put_wf m a b h), Memory.get_put_ne m a c b (by omega) h]

/-- A read after a write of several bytes. -/
theorem Memory.bytes_putBytes (bs : List Byte) (m : Memory) (a : Nat) (h : m.wf = true) : (m.putBytes a bs).bytes a bs.length = bs := by
  induction bs generalizing m a with
  | nil => rfl
  | cons b t ih =>
    simp only [List.length_cons, Memory.bytes, Memory.putBytes]
    rw [ih _ _ (Memory.put_wf m a b h), Memory.get_putBytes_ne t _ _ _ (by omega) (Memory.put_wf m a b h), Memory.get_put m a b h]

end Sys2Proof.Machine
end

