-- ==== Sys2Proof/Laws/Regs.lean ====
section
/-!
SUPPORT. The laws of the register tables: a register reads as it was last written, and a write of one register leaves every other alone.
-/
namespace Sys2Proof.Machine

/-! ## Tables -/

@[simp] theorem tabGet_tabDel {α : Type} (t : List (Nat × α)) (x : Nat) : tabGet (tabDel t x) x = none := by
  induction t with
  | nil => rfl
  | cons q t ih =>
    obtain ⟨k, v⟩ := q
    by_cases h : k = x
    · simp [tabDel, h, ih]
    · simp [tabDel, tabGet, h, ih]

theorem tabGet_tabDel_ne {α : Type} (t : List (Nat × α)) (x y : Nat) (hne : y ≠ x) : tabGet (tabDel t x) y = tabGet t y := by
  induction t with
  | nil => rfl
  | cons q t ih =>
    obtain ⟨k, v⟩ := q
    by_cases h : k = x
    · have : k ≠ y := by omega
      simp [tabDel, tabGet, h, ih, Ne.symm hne]
    · simp [tabDel, tabGet, h, ih]

@[simp] theorem tabGet_tabSet {α : Type} (t : List (Nat × α)) (x : Nat) (v : α) : tabGet (tabSet t x v) x = some v := by
  induction t with
  | nil => simp [tabSet, tabGet]
  | cons q t ih =>
    obtain ⟨k, w⟩ := q
    unfold tabSet
    split
    · simp [tabGet]
    · split
      · simp [tabGet]
      · rename_i h
        simp [tabGet, h, ih]

theorem tabGet_tabSet_ne {α : Type} (t : List (Nat × α)) (x y : Nat) (v : α) (hne : y ≠ x) : tabGet (tabSet t x v) y = tabGet t y := by
  induction t with
  | nil => simp [tabSet, tabGet, Ne.symm hne]
  | cons q t ih =>
    obtain ⟨k, w⟩ := q
    unfold tabSet
    split
    · simp [tabGet, Ne.symm hne]
    · split
      · rename_i h
        subst h
        simp [tabGet, Ne.symm hne]
      · simp [tabGet, ih]

theorem tabGet_tabPut_ne (t : List (Nat × Word)) (x y v z : Nat) (hne : y ≠ x) : tabGet (tabPut t x v z) y = tabGet t y := by
  unfold tabPut
  split
  · exact tabGet_tabDel_ne t x y hne
  · exact tabGet_tabSet_ne t x y _ hne

/-! ## Registers (R7, R35) -/

@[simp] theorem Dev.reg_setReg (d : Dev) (o v : Nat) : (d.setReg o v).reg o = v % 2 ^ 32 := by
  unfold Dev.reg Dev.setReg tabPut
  dsimp only
  by_cases h : v % 2 ^ 32 = resetVal o
  · rw [if_pos h, tabGet_tabDel]
    exact h.symm
  · rw [if_neg h, tabGet_tabSet]
    exact BitVec.toNat_ofNat v 32

theorem Dev.reg_setReg_ne (d : Dev) (o p v : Nat) (hne : p ≠ o) : (d.setReg o v).reg p = d.reg p := by
  unfold Dev.reg Dev.setReg
  simp only [tabGet_tabPut_ne _ _ _ _ _ hne]

@[simp] theorem Dev.lv_setReg (d : Dev) (o v : Nat) : (d.setReg o v).lv o = v % 2 ^ 32 := by
  have h : tabGet (d.setReg o v).live o = none := tabGet_tabDel _ _
  unfold Dev.lv
  rw [h]
  exact Dev.reg_setReg d o v

theorem Dev.lv_setReg_ne (d : Dev) (o p v : Nat) (hne : p ≠ o) : (d.setReg o v).lv p = d.lv p := by
  have h : tabGet (d.setReg o v).live p = tabGet d.live p := tabGet_tabDel_ne _ _ _ hne
  unfold Dev.lv
  rw [h, Dev.reg_setReg_ne d o p v hne]

@[simp] theorem Dev.reg_setBoth (d : Dev) (o v u : Nat) : (d.setBoth o v u).reg o = v % 2 ^ 32 := Dev.reg_setReg d o v

theorem Dev.reg_setBoth_ne (d : Dev) (o p v u : Nat) (hne : p ≠ o) : (d.setBoth o v u).reg p = d.reg p := Dev.reg_setReg_ne d o p v hne

@[simp] theorem Dev.lv_setBoth (d : Dev) (o v u : Nat) : (d.setBoth o v u).lv o = u % 2 ^ 32 := by
  unfold Dev.lv
  rw [Dev.reg_setBoth]
  unfold Dev.setBoth tabPut
  dsimp only
  by_cases h : u % 2 ^ 32 = v % 2 ^ 32
  · rw [if_pos h, tabGet_tabDel]
    exact h.symm
  · rw [if_neg h, tabGet_tabSet]
    exact BitVec.toNat_ofNat u 32

theorem Dev.lv_setBoth_ne (d : Dev) (o p v u : Nat) (hne : p ≠ o) : (d.setBoth o v u).lv p = d.lv p := by
  have h : tabGet (d.setBoth o v u).live p = tabGet d.live p := tabGet_tabPut_ne _ _ _ _ _ hne
  unfold Dev.lv
  rw [h, Dev.reg_setBoth_ne d o p v u hne]

theorem Dev.reg_setFld_ne (d : Dev) (o lo w x p : Nat) (hne : p ≠ o) : (d.setFld o lo w x).reg p = d.reg p :=
  Dev.reg_setBoth_ne d o p _ _ hne

theorem Dev.lv_setFld_ne (d : Dev) (o lo w x p : Nat) (hne : p ≠ o) : (d.setFld o lo w x).lv p = d.lv p :=
  Dev.lv_setBoth_ne d o p _ _ hne

/-! ## 64-bit registers (R6) -/

@[simp] theorem Dev.w64_setW (d : Dev) (o v : Nat) : (d.setW o v).w64 o = v % 2 ^ 64 := by
  unfold Dev.w64 Dev.setW
  dsimp only
  by_cases h : v % 2 ^ 64 = 0
  · rw [if_pos h, tabGet_tabDel]
    exact h.symm
  · rw [if_neg h, tabGet_tabSet]
    exact BitVec.toNat_ofNat v 64

theorem Dev.w64_setW_ne (d : Dev) (o p v : Nat) (hne : p ≠ o) : (d.setW o v).w64 p = d.w64 p := by
  unfold Dev.w64 Dev.setW
  by_cases h : v % 2 ^ 64 = 0
  · simp only [h, if_true, tabGet_tabDel_ne _ _ _ hne]
  · simp only [h, if_false, tabGet_tabSet_ne _ _ _ _ hne]

/-- A counter that counts `n`, at 64 bits. -/
@[simp] theorem Dev.w64_bump (d : Dev) (o n : Nat) : (d.bump o n).w64 o = (d.w64 o + n) % 2 ^ 64 := Dev.w64_setW d o _

theorem Dev.w64_bump_ne (d : Dev) (o p n : Nat) (hne : p ≠ o) : (d.bump o n).w64 p = d.w64 p := Dev.w64_setW_ne d o p _ hne

@[simp] theorem Dev.reg_setW (d : Dev) (o v p : Nat) : (d.setW o v).reg p = d.reg p := rfl
@[simp] theorem Dev.lv_setW (d : Dev) (o v p : Nat) : (d.setW o v).lv p = d.lv p := rfl
@[simp] theorem Dev.reg_bump (d : Dev) (o n p : Nat) : (d.bump o n).reg p = d.reg p := rfl
@[simp] theorem Dev.lv_bump (d : Dev) (o n p : Nat) : (d.bump o n).lv p = d.lv p := rfl
@[simp] theorem Dev.w64_setReg (d : Dev) (o v p : Nat) : (d.setReg o v).w64 p = d.w64 p := rfl
@[simp] theorem Dev.w64_setFld (d : Dev) (o lo w x p : Nat) : (d.setFld o lo w x).w64 p = d.w64 p := rfl
@[simp] theorem Dev.reg_atC (d : Dev) (c p : Nat) : (d.atC c).reg p = d.reg p := rfl
@[simp] theorem Dev.lv_atC (d : Dev) (c p : Nat) : (d.atC c).lv p = d.lv p := rfl
@[simp] theorem Dev.w64_atC (d : Dev) (c p : Nat) : (d.atC c).w64 p = d.w64 p := rfl

/-! ## Fields -/

/-- A value with a field set, by its three parts. -/
theorem fldSet_parts (v lo w x : Nat) : fldSet v lo w x = (v / 2 ^ lo / 2 ^ w * 2 ^ w + x % 2 ^ w) * 2 ^ lo + v % 2 ^ lo := by
  have h1 := Nat.div_add_mod v (2 ^ lo)
  have h2 := Nat.div_add_mod (v / 2 ^ lo) (2 ^ w)
  have e : v = (v / 2 ^ lo / 2 ^ w * 2 ^ w) * 2 ^ lo + (v / 2 ^ lo % 2 ^ w) * 2 ^ lo + v % 2 ^ lo := by
    conv_lhs => rw [← h1, ← h2]
    ring
  unfold fldSet fld
  have e2 : v - v / 2 ^ lo % 2 ^ w * 2 ^ lo = (v / 2 ^ lo / 2 ^ w * 2 ^ w) * 2 ^ lo + v % 2 ^ lo := by omega
  rw [e2]
  ring

/-- A field reads as what was put into it. -/
@[simp] theorem fld_fldSet (v lo w x : Nat) : fld (fldSet v lo w x) lo w = x % 2 ^ w := by
  unfold fld
  have hl : v % 2 ^ lo < 2 ^ lo := Nat.mod_lt _ (by positivity)
  rw [fldSet_parts, Nat.add_comm, Nat.add_mul_div_right _ _ (by positivity), Nat.div_eq_of_lt hl, Nat.zero_add, Nat.add_comm,
    Nat.add_mul_mod_self_right, Nat.mod_mod]

/-- A field below the one set keeps its value. -/
theorem fld_fldSet_lo (v lo w x lo' w' : Nat) (h : lo' + w' ≤ lo) : fld (fldSet v lo w x) lo' w' = fld v lo' w' := by
  have hd : 2 ^ lo = 2 ^ (lo - (lo' + w')) * 2 ^ w' * 2 ^ lo' := by
    rw [← pow_add, ← pow_add]
    congr 1
    omega
  have hv : fldSet v lo w x % 2 ^ (lo' + w') = v % 2 ^ (lo' + w') := by
    have hdiv : 2 ^ (lo' + w') ∣ 2 ^ lo := pow_dvd_pow _ h
    rw [fldSet_parts, Nat.add_mod, Nat.mod_eq_zero_of_dvd (Dvd.dvd.mul_left hdiv _), Nat.zero_add, Nat.mod_mod, Nat.mod_mod_of_dvd _ hdiv]
  unfold fld
  have key : ∀ y : Nat, y / 2 ^ lo' % 2 ^ w' = y % 2 ^ (lo' + w') / 2 ^ lo' := by
    intro y
    rw [pow_add, Nat.mod_mul_right_div_self]
  rw [key, key, hv]

/-- A field above the one set keeps its value. -/
theorem fld_fldSet_hi (v lo w x lo' w' : Nat) (h : lo + w ≤ lo') : fld (fldSet v lo w x) lo' w' = fld v lo' w' := by
  have hq : fldSet v lo w x / 2 ^ (lo + w) = v / 2 ^ (lo + w) := by
    have hl : v % 2 ^ lo < 2 ^ lo := Nat.mod_lt _ (by positivity)
    have hx : x % 2 ^ w < 2 ^ w := Nat.mod_lt _ (by positivity)
    rw [pow_add, ← Nat.div_div_eq_div_mul, ← Nat.div_div_eq_div_mul, fldSet_parts, Nat.add_comm,
      Nat.add_mul_div_right _ _ (by positivity), Nat.div_eq_of_lt hl, Nat.zero_add, Nat.add_comm,
      Nat.add_mul_div_right _ _ (by positivity), Nat.div_eq_of_lt hx, Nat.zero_add]
  have hs : lo' = (lo + w) + (lo' - (lo + w)) := by omega
  unfold fld
  rw [hs, pow_add, ← Nat.div_div_eq_div_mul, ← Nat.div_div_eq_div_mul, hq]

/-- A status field reads as the block set it. -/
@[simp] theorem Dev.rf_setFld (d : Dev) (o lo w x : Nat) (h : lo + w ≤ 32) : (d.setFld o lo w x).rf o lo w = x % 2 ^ w := by
  unfold Dev.rf Dev.setFld
  rw [Dev.reg_setBoth]
  have key : ∀ y : Nat, fld (y % 2 ^ 32) lo w = fld y lo w := by
    intro y
    unfold fld
    have e : (2 : Nat) ^ 32 = 2 ^ lo * (2 ^ w * 2 ^ (32 - (lo + w))) := by
      rw [← pow_add, ← pow_add]
      congr 1
      omega
    rw [e, Nat.mod_mul_right_div_self, Nat.mod_mul_right_mod]
  rw [key, fld_fldSet]

end Sys2Proof.Machine
end

