-- ==== Sys2Proof/Laws/State.lean ====
section
/-!
SUPPORT. What each update of the state leaves alone, field by field.
-/
namespace Sys2Proof.Machine

/-! ## The state and the system -/

@[simp] theorem State.act_def (z : State) (f : Sys → Sys) : z.act f = .next { z with sys := f z.sys } := rfl
@[simp] theorem Sys.onDev_dev (s : Sys) (f : Dev → Dev) : (s.onDev f).dev = f s.dev := rfl
@[simp] theorem Sys.onDev_mem (s : Sys) (f : Dev → Dev) : (s.onDev f).mem = s.mem := rfl
@[simp] theorem Sys.onDev_otp (s : Sys) (f : Dev → Dev) : (s.onDev f).otp = s.otp := rfl
@[simp] theorem Sys.onMem_dev (s : Sys) (f : Memory → Memory) : (s.onMem f).dev = s.dev := rfl
@[simp] theorem Sys.onMem_mem (s : Sys) (f : Memory → Memory) : (s.onMem f).mem = f s.mem := rfl
@[simp] theorem Sys.onMem_otp (s : Sys) (f : Memory → Memory) : (s.onMem f).otp = s.otp := rfl
@[simp] theorem Dev.atC_cycle (d : Dev) (c : Nat) : (d.atC c).cycle = c := rfl
@[simp] theorem Dev.onCmd_cmd (d : Dev) (f : Cmd → Cmd) : (d.onCmd f).cmd = f d.cmd := rfl
@[simp] theorem Dev.onPair_pair (d : Dev) (f : Pair → Pair) : (d.onPair f).pair = f d.pair := rfl
@[simp] theorem Dev.onEvt_evt (d : Dev) (f : Evt → Evt) : (d.onEvt f).evt = f d.evt := rfl
@[simp] theorem Dev.onPcie_pcie (d : Dev) (f : Pcie → Pcie) : (d.onPcie f).pcie = f d.pcie := rfl
@[simp] theorem Dev.onGln_gln (d : Dev) (f : Gln → Gln) : (d.onGln f).gln = f d.gln := rfl

/-! ## `atC` -/

@[simp] theorem Dev.atC_tick (d : Dev) (c : Nat) : (d.atC c).tick = d.tick := rfl
@[simp] theorem Dev.atC_regs (d : Dev) (c : Nat) : (d.atC c).regs = d.regs := rfl
@[simp] theorem Dev.atC_live (d : Dev) (c : Nat) : (d.atC c).live = d.live := rfl
@[simp] theorem Dev.atC_wide (d : Dev) (c : Nat) : (d.atC c).wide = d.wide := rfl
@[simp] theorem Dev.atC_latch (d : Dev) (c : Nat) : (d.atC c).latch = d.latch := rfl
@[simp] theorem Dev.atC_rdata (d : Dev) (c : Nat) : (d.atC c).rdata = d.rdata := rfl
@[simp] theorem Dev.atC_pendTick (d : Dev) (c : Nat) : (d.atC c).pendTick = d.pendTick := rfl
@[simp] theorem Dev.atC_frameWr (d : Dev) (c : Nat) : (d.atC c).frameWr = d.frameWr := rfl
@[simp] theorem Dev.atC_capGrp (d : Dev) (c : Nat) : (d.atC c).capGrp = d.capGrp := rfl
@[simp] theorem Dev.atC_held (d : Dev) (c : Nat) : (d.atC c).held = d.held := rfl
@[simp] theorem Dev.atC_agenda (d : Dev) (c : Nat) : (d.atC c).agenda = d.agenda := rfl
@[simp] theorem Dev.atC_flt (d : Dev) (c : Nat) : (d.atC c).flt = d.flt := rfl
@[simp] theorem Dev.atC_evt (d : Dev) (c : Nat) : (d.atC c).evt = d.evt := rfl
@[simp] theorem Dev.atC_bbx (d : Dev) (c : Nat) : (d.atC c).bbx = d.bbx := rfl
@[simp] theorem Dev.atC_thm (d : Dev) (c : Nat) : (d.atC c).thm = d.thm := rfl
@[simp] theorem Dev.atC_ctrlRst (d : Dev) (c : Nat) : (d.atC c).ctrlRst = d.ctrlRst := rfl
@[simp] theorem Dev.atC_mgmtRst (d : Dev) (c : Nat) : (d.atC c).mgmtRst = d.mgmtRst := rfl
@[simp] theorem Dev.atC_inReset (d : Dev) (c : Nat) : (d.atC c).inReset = d.inReset := rfl
@[simp] theorem Dev.atC_eng (d : Dev) (c : Nat) : (d.atC c).eng = d.eng := rfl
@[simp] theorem Dev.atC_ldr (d : Dev) (c : Nat) : (d.atC c).ldr = d.ldr := rfl
@[simp] theorem Dev.atC_pcie (d : Dev) (c : Nat) : (d.atC c).pcie = d.pcie := rfl
@[simp] theorem Dev.atC_testMode (d : Dev) (c : Nat) : (d.atC c).testMode = d.testMode := rfl
@[simp] theorem Dev.atC_cvuSeen (d : Dev) (c : Nat) : (d.atC c).cvuSeen = d.cvuSeen := rfl
@[simp] theorem Dev.atC_tdm (d : Dev) (c : Nat) : (d.atC c).tdm = d.tdm := rfl
@[simp] theorem Dev.atC_dec (d : Dev) (c : Nat) : (d.atC c).dec = d.dec := rfl
@[simp] theorem Dev.atC_pdmOn (d : Dev) (c : Nat) : (d.atC c).pdmOn = d.pdmOn := rfl
@[simp] theorem Dev.atC_clipM (d : Dev) (c : Nat) : (d.atC c).clipM = d.clipM := rfl
@[simp] theorem Dev.atC_mclk (d : Dev) (c : Nat) : (d.atC c).mclk = d.mclk := rfl
@[simp] theorem Dev.atC_mod (d : Dev) (c : Nat) : (d.atC c).mod = d.mod := rfl
@[simp] theorem Dev.atC_sns (d : Dev) (c : Nat) : (d.atC c).sns = d.sns := rfl
@[simp] theorem Dev.atC_snsOn (d : Dev) (c : Nat) : (d.atC c).snsOn = d.snsOn := rfl
@[simp] theorem Dev.atC_clk (d : Dev) (c : Nat) : (d.atC c).clk = d.clk := rfl
@[simp] theorem Dev.atC_time (d : Dev) (c : Nat) : (d.atC c).time = d.time := rfl
@[simp] theorem Dev.atC_mac (d : Dev) (c : Nat) : (d.atC c).mac = d.mac := rfl
@[simp] theorem Dev.atC_bus (d : Dev) (c : Nat) : (d.atC c).bus = d.bus := rfl
@[simp] theorem Dev.atC_mdioRd (d : Dev) (c : Nat) : (d.atC c).mdioRd = d.mdioRd := rfl
@[simp] theorem Dev.atC_strm (d : Dev) (c : Nat) : (d.atC c).strm = d.strm := rfl
@[simp] theorem Dev.atC_ddr (d : Dev) (c : Nat) : (d.atC c).ddr = d.ddr := rfl
@[simp] theorem Dev.atC_gln (d : Dev) (c : Nat) : (d.atC c).gln = d.gln := rfl
@[simp] theorem Dev.atC_outsZ (d : Dev) (c : Nat) : (d.atC c).outsZ = d.outsZ := rfl
@[simp] theorem Dev.atC_begun (d : Dev) (c : Nat) : (d.atC c).begun = d.begun := rfl
@[simp] theorem Dev.atC_cvuOn (d : Dev) (c : Nat) : (d.atC c).cvuOn = d.cvuOn := rfl
@[simp] theorem Dev.atC_free (d : Dev) (c : Nat) : (d.atC c).free = d.free := rfl
@[simp] theorem Dev.atC_pair (d : Dev) (c : Nat) : (d.atC c).pair = d.pair := rfl
@[simp] theorem Dev.atC_cmd (d : Dev) (c : Nat) : (d.atC c).cmd = d.cmd := rfl
@[simp] theorem Dev.atC_boot (d : Dev) (c : Nat) : (d.atC c).boot = d.boot := rfl
@[simp] theorem Dev.atC_replayT (d : Dev) (c : Nat) : (d.atC c).replayT = d.replayT := rfl
@[simp] theorem Dev.atC_peerDec (d : Dev) (c : Nat) : (d.atC c).peerDec = d.peerDec := rfl
@[simp] theorem Dev.atC_out (d : Dev) (c : Nat) : (d.atC c).out = d.out := rfl

/-! ## `setReg` -/

@[simp] theorem Dev.setReg_tick (d : Dev) (o v : Nat) : (d.setReg o v).tick = d.tick := rfl
@[simp] theorem Dev.setReg_cycle (d : Dev) (o v : Nat) : (d.setReg o v).cycle = d.cycle := rfl
@[simp] theorem Dev.setReg_wide (d : Dev) (o v : Nat) : (d.setReg o v).wide = d.wide := rfl
@[simp] theorem Dev.setReg_latch (d : Dev) (o v : Nat) : (d.setReg o v).latch = d.latch := rfl
@[simp] theorem Dev.setReg_rdata (d : Dev) (o v : Nat) : (d.setReg o v).rdata = d.rdata := rfl
@[simp] theorem Dev.setReg_pendTick (d : Dev) (o v : Nat) : (d.setReg o v).pendTick = d.pendTick := rfl
@[simp] theorem Dev.setReg_frameWr (d : Dev) (o v : Nat) : (d.setReg o v).frameWr = d.frameWr := rfl
@[simp] theorem Dev.setReg_capGrp (d : Dev) (o v : Nat) : (d.setReg o v).capGrp = d.capGrp := rfl
@[simp] theorem Dev.setReg_held (d : Dev) (o v : Nat) : (d.setReg o v).held = d.held := rfl
@[simp] theorem Dev.setReg_agenda (d : Dev) (o v : Nat) : (d.setReg o v).agenda = d.agenda := rfl
@[simp] theorem Dev.setReg_flt (d : Dev) (o v : Nat) : (d.setReg o v).flt = d.flt := rfl
@[simp] theorem Dev.setReg_evt (d : Dev) (o v : Nat) : (d.setReg o v).evt = d.evt := rfl
@[simp] theorem Dev.setReg_bbx (d : Dev) (o v : Nat) : (d.setReg o v).bbx = d.bbx := rfl
@[simp] theorem Dev.setReg_thm (d : Dev) (o v : Nat) : (d.setReg o v).thm = d.thm := rfl
@[simp] theorem Dev.setReg_ctrlRst (d : Dev) (o v : Nat) : (d.setReg o v).ctrlRst = d.ctrlRst := rfl
@[simp] theorem Dev.setReg_mgmtRst (d : Dev) (o v : Nat) : (d.setReg o v).mgmtRst = d.mgmtRst := rfl
@[simp] theorem Dev.setReg_inReset (d : Dev) (o v : Nat) : (d.setReg o v).inReset = d.inReset := rfl
@[simp] theorem Dev.setReg_eng (d : Dev) (o v : Nat) : (d.setReg o v).eng = d.eng := rfl
@[simp] theorem Dev.setReg_ldr (d : Dev) (o v : Nat) : (d.setReg o v).ldr = d.ldr := rfl
@[simp] theorem Dev.setReg_pcie (d : Dev) (o v : Nat) : (d.setReg o v).pcie = d.pcie := rfl
@[simp] theorem Dev.setReg_testMode (d : Dev) (o v : Nat) : (d.setReg o v).testMode = d.testMode := rfl
@[simp] theorem Dev.setReg_cvuSeen (d : Dev) (o v : Nat) : (d.setReg o v).cvuSeen = d.cvuSeen := rfl
@[simp] theorem Dev.setReg_tdm (d : Dev) (o v : Nat) : (d.setReg o v).tdm = d.tdm := rfl
@[simp] theorem Dev.setReg_dec (d : Dev) (o v : Nat) : (d.setReg o v).dec = d.dec := rfl
@[simp] theorem Dev.setReg_pdmOn (d : Dev) (o v : Nat) : (d.setReg o v).pdmOn = d.pdmOn := rfl
@[simp] theorem Dev.setReg_clipM (d : Dev) (o v : Nat) : (d.setReg o v).clipM = d.clipM := rfl
@[simp] theorem Dev.setReg_mclk (d : Dev) (o v : Nat) : (d.setReg o v).mclk = d.mclk := rfl
@[simp] theorem Dev.setReg_mod (d : Dev) (o v : Nat) : (d.setReg o v).mod = d.mod := rfl
@[simp] theorem Dev.setReg_sns (d : Dev) (o v : Nat) : (d.setReg o v).sns = d.sns := rfl
@[simp] theorem Dev.setReg_snsOn (d : Dev) (o v : Nat) : (d.setReg o v).snsOn = d.snsOn := rfl
@[simp] theorem Dev.setReg_clk (d : Dev) (o v : Nat) : (d.setReg o v).clk = d.clk := rfl
@[simp] theorem Dev.setReg_time (d : Dev) (o v : Nat) : (d.setReg o v).time = d.time := rfl
@[simp] theorem Dev.setReg_mac (d : Dev) (o v : Nat) : (d.setReg o v).mac = d.mac := rfl
@[simp] theorem Dev.setReg_bus (d : Dev) (o v : Nat) : (d.setReg o v).bus = d.bus := rfl
@[simp] theorem Dev.setReg_mdioRd (d : Dev) (o v : Nat) : (d.setReg o v).mdioRd = d.mdioRd := rfl
@[simp] theorem Dev.setReg_strm (d : Dev) (o v : Nat) : (d.setReg o v).strm = d.strm := rfl
@[simp] theorem Dev.setReg_ddr (d : Dev) (o v : Nat) : (d.setReg o v).ddr = d.ddr := rfl
@[simp] theorem Dev.setReg_gln (d : Dev) (o v : Nat) : (d.setReg o v).gln = d.gln := rfl
@[simp] theorem Dev.setReg_outsZ (d : Dev) (o v : Nat) : (d.setReg o v).outsZ = d.outsZ := rfl
@[simp] theorem Dev.setReg_begun (d : Dev) (o v : Nat) : (d.setReg o v).begun = d.begun := rfl
@[simp] theorem Dev.setReg_cvuOn (d : Dev) (o v : Nat) : (d.setReg o v).cvuOn = d.cvuOn := rfl
@[simp] theorem Dev.setReg_free (d : Dev) (o v : Nat) : (d.setReg o v).free = d.free := rfl
@[simp] theorem Dev.setReg_pair (d : Dev) (o v : Nat) : (d.setReg o v).pair = d.pair := rfl
@[simp] theorem Dev.setReg_cmd (d : Dev) (o v : Nat) : (d.setReg o v).cmd = d.cmd := rfl
@[simp] theorem Dev.setReg_boot (d : Dev) (o v : Nat) : (d.setReg o v).boot = d.boot := rfl
@[simp] theorem Dev.setReg_replayT (d : Dev) (o v : Nat) : (d.setReg o v).replayT = d.replayT := rfl
@[simp] theorem Dev.setReg_peerDec (d : Dev) (o v : Nat) : (d.setReg o v).peerDec = d.peerDec := rfl
@[simp] theorem Dev.setReg_out (d : Dev) (o v : Nat) : (d.setReg o v).out = d.out := rfl

/-! ## `setBoth` -/

@[simp] theorem Dev.setBoth_tick (d : Dev) (o v u : Nat) : (d.setBoth o v u).tick = d.tick := rfl
@[simp] theorem Dev.setBoth_cycle (d : Dev) (o v u : Nat) : (d.setBoth o v u).cycle = d.cycle := rfl
@[simp] theorem Dev.setBoth_wide (d : Dev) (o v u : Nat) : (d.setBoth o v u).wide = d.wide := rfl
@[simp] theorem Dev.setBoth_latch (d : Dev) (o v u : Nat) : (d.setBoth o v u).latch = d.latch := rfl
@[simp] theorem Dev.setBoth_rdata (d : Dev) (o v u : Nat) : (d.setBoth o v u).rdata = d.rdata := rfl
@[simp] theorem Dev.setBoth_pendTick (d : Dev) (o v u : Nat) : (d.setBoth o v u).pendTick = d.pendTick := rfl
@[simp] theorem Dev.setBoth_frameWr (d : Dev) (o v u : Nat) : (d.setBoth o v u).frameWr = d.frameWr := rfl
@[simp] theorem Dev.setBoth_capGrp (d : Dev) (o v u : Nat) : (d.setBoth o v u).capGrp = d.capGrp := rfl
@[simp] theorem Dev.setBoth_held (d : Dev) (o v u : Nat) : (d.setBoth o v u).held = d.held := rfl
@[simp] theorem Dev.setBoth_agenda (d : Dev) (o v u : Nat) : (d.setBoth o v u).agenda = d.agenda := rfl
@[simp] theorem Dev.setBoth_flt (d : Dev) (o v u : Nat) : (d.setBoth o v u).flt = d.flt := rfl
@[simp] theorem Dev.setBoth_evt (d : Dev) (o v u : Nat) : (d.setBoth o v u).evt = d.evt := rfl
@[simp] theorem Dev.setBoth_bbx (d : Dev) (o v u : Nat) : (d.setBoth o v u).bbx = d.bbx := rfl
@[simp] theorem Dev.setBoth_thm (d : Dev) (o v u : Nat) : (d.setBoth o v u).thm = d.thm := rfl
@[simp] theorem Dev.setBoth_ctrlRst (d : Dev) (o v u : Nat) : (d.setBoth o v u).ctrlRst = d.ctrlRst := rfl
@[simp] theorem Dev.setBoth_mgmtRst (d : Dev) (o v u : Nat) : (d.setBoth o v u).mgmtRst = d.mgmtRst := rfl
@[simp] theorem Dev.setBoth_inReset (d : Dev) (o v u : Nat) : (d.setBoth o v u).inReset = d.inReset := rfl
@[simp] theorem Dev.setBoth_eng (d : Dev) (o v u : Nat) : (d.setBoth o v u).eng = d.eng := rfl
@[simp] theorem Dev.setBoth_ldr (d : Dev) (o v u : Nat) : (d.setBoth o v u).ldr = d.ldr := rfl
@[simp] theorem Dev.setBoth_pcie (d : Dev) (o v u : Nat) : (d.setBoth o v u).pcie = d.pcie := rfl
@[simp] theorem Dev.setBoth_testMode (d : Dev) (o v u : Nat) : (d.setBoth o v u).testMode = d.testMode := rfl
@[simp] theorem Dev.setBoth_cvuSeen (d : Dev) (o v u : Nat) : (d.setBoth o v u).cvuSeen = d.cvuSeen := rfl
@[simp] theorem Dev.setBoth_tdm (d : Dev) (o v u : Nat) : (d.setBoth o v u).tdm = d.tdm := rfl
@[simp] theorem Dev.setBoth_dec (d : Dev) (o v u : Nat) : (d.setBoth o v u).dec = d.dec := rfl
@[simp] theorem Dev.setBoth_pdmOn (d : Dev) (o v u : Nat) : (d.setBoth o v u).pdmOn = d.pdmOn := rfl
@[simp] theorem Dev.setBoth_clipM (d : Dev) (o v u : Nat) : (d.setBoth o v u).clipM = d.clipM := rfl
@[simp] theorem Dev.setBoth_mclk (d : Dev) (o v u : Nat) : (d.setBoth o v u).mclk = d.mclk := rfl
@[simp] theorem Dev.setBoth_mod (d : Dev) (o v u : Nat) : (d.setBoth o v u).mod = d.mod := rfl
@[simp] theorem Dev.setBoth_sns (d : Dev) (o v u : Nat) : (d.setBoth o v u).sns = d.sns := rfl
@[simp] theorem Dev.setBoth_snsOn (d : Dev) (o v u : Nat) : (d.setBoth o v u).snsOn = d.snsOn := rfl
@[simp] theorem Dev.setBoth_clk (d : Dev) (o v u : Nat) : (d.setBoth o v u).clk = d.clk := rfl
@[simp] theorem Dev.setBoth_time (d : Dev) (o v u : Nat) : (d.setBoth o v u).time = d.time := rfl
@[simp] theorem Dev.setBoth_mac (d : Dev) (o v u : Nat) : (d.setBoth o v u).mac = d.mac := rfl
@[simp] theorem Dev.setBoth_bus (d : Dev) (o v u : Nat) : (d.setBoth o v u).bus = d.bus := rfl
@[simp] theorem Dev.setBoth_mdioRd (d : Dev) (o v u : Nat) : (d.setBoth o v u).mdioRd = d.mdioRd := rfl
@[simp] theorem Dev.setBoth_strm (d : Dev) (o v u : Nat) : (d.setBoth o v u).strm = d.strm := rfl
@[simp] theorem Dev.setBoth_ddr (d : Dev) (o v u : Nat) : (d.setBoth o v u).ddr = d.ddr := rfl
@[simp] theorem Dev.setBoth_gln (d : Dev) (o v u : Nat) : (d.setBoth o v u).gln = d.gln := rfl
@[simp] theorem Dev.setBoth_outsZ (d : Dev) (o v u : Nat) : (d.setBoth o v u).outsZ = d.outsZ := rfl
@[simp] theorem Dev.setBoth_begun (d : Dev) (o v u : Nat) : (d.setBoth o v u).begun = d.begun := rfl
@[simp] theorem Dev.setBoth_cvuOn (d : Dev) (o v u : Nat) : (d.setBoth o v u).cvuOn = d.cvuOn := rfl
@[simp] theorem Dev.setBoth_free (d : Dev) (o v u : Nat) : (d.setBoth o v u).free = d.free := rfl
@[simp] theorem Dev.setBoth_pair (d : Dev) (o v u : Nat) : (d.setBoth o v u).pair = d.pair := rfl
@[simp] theorem Dev.setBoth_cmd (d : Dev) (o v u : Nat) : (d.setBoth o v u).cmd = d.cmd := rfl
@[simp] theorem Dev.setBoth_boot (d : Dev) (o v u : Nat) : (d.setBoth o v u).boot = d.boot := rfl
@[simp] theorem Dev.setBoth_replayT (d : Dev) (o v u : Nat) : (d.setBoth o v u).replayT = d.replayT := rfl
@[simp] theorem Dev.setBoth_peerDec (d : Dev) (o v u : Nat) : (d.setBoth o v u).peerDec = d.peerDec := rfl
@[simp] theorem Dev.setBoth_out (d : Dev) (o v u : Nat) : (d.setBoth o v u).out = d.out := rfl

/-! ## `setFld` -/

@[simp] theorem Dev.setFld_tick (d : Dev) (o lo w x : Nat) : (d.setFld o lo w x).tick = d.tick := rfl
@[simp] theorem Dev.setFld_cycle (d : Dev) (o lo w x : Nat) : (d.setFld o lo w x).cycle = d.cycle := rfl
@[simp] theorem Dev.setFld_wide (d : Dev) (o lo w x : Nat) : (d.setFld o lo w x).wide = d.wide := rfl
@[simp] theorem Dev.setFld_latch (d : Dev) (o lo w x : Nat) : (d.setFld o lo w x).latch = d.latch := rfl
@[simp] theorem Dev.setFld_rdata (d : Dev) (o lo w x : Nat) : (d.setFld o lo w x).rdata = d.rdata := rfl
@[simp] theorem Dev.setFld_pendTick (d : Dev) (o lo w x : Nat) : (d.setFld o lo w x).pendTick = d.pendTick := rfl
@[simp] theorem Dev.setFld_frameWr (d : Dev) (o lo w x : Nat) : (d.setFld o lo w x).frameWr = d.frameWr := rfl
@[simp] theorem Dev.setFld_capGrp (d : Dev) (o lo w x : Nat) : (d.setFld o lo w x).capGrp = d.capGrp := rfl
@[simp] theorem Dev.setFld_held (d : Dev) (o lo w x : Nat) : (d.setFld o lo w x).held = d.held := rfl
@[simp] theorem Dev.setFld_agenda (d : Dev) (o lo w x : Nat) : (d.setFld o lo w x).agenda = d.agenda := rfl
@[simp] theorem Dev.setFld_flt (d : Dev) (o lo w x : Nat) : (d.setFld o lo w x).flt = d.flt := rfl
@[simp] theorem Dev.setFld_evt (d : Dev) (o lo w x : Nat) : (d.setFld o lo w x).evt = d.evt := rfl
@[simp] theorem Dev.setFld_bbx (d : Dev) (o lo w x : Nat) : (d.setFld o lo w x).bbx = d.bbx := rfl
@[simp] theorem Dev.setFld_thm (d : Dev) (o lo w x : Nat) : (d.setFld o lo w x).thm = d.thm := rfl
@[simp] theorem Dev.setFld_ctrlRst (d : Dev) (o lo w x : Nat) : (d.setFld o lo w x).ctrlRst = d.ctrlRst := rfl
@[simp] theorem Dev.setFld_mgmtRst (d : Dev) (o lo w x : Nat) : (d.setFld o lo w x).mgmtRst = d.mgmtRst := rfl
@[simp] theorem Dev.setFld_inReset (d : Dev) (o lo w x : Nat) : (d.setFld o lo w x).inReset = d.inReset := rfl
@[simp] theorem Dev.setFld_eng (d : Dev) (o lo w x : Nat) : (d.setFld o lo w x).eng = d.eng := rfl
@[simp] theorem Dev.setFld_ldr (d : Dev) (o lo w x : Nat) : (d.setFld o lo w x).ldr = d.ldr := rfl
@[simp] theorem Dev.setFld_pcie (d : Dev) (o lo w x : Nat) : (d.setFld o lo w x).pcie = d.pcie := rfl
@[simp] theorem Dev.setFld_testMode (d : Dev) (o lo w x : Nat) : (d.setFld o lo w x).testMode = d.testMode := rfl
@[simp] theorem Dev.setFld_cvuSeen (d : Dev) (o lo w x : Nat) : (d.setFld o lo w x).cvuSeen = d.cvuSeen := rfl
@[simp] theorem Dev.setFld_tdm (d : Dev) (o lo w x : Nat) : (d.setFld o lo w x).tdm = d.tdm := rfl
@[simp] theorem Dev.setFld_dec (d : Dev) (o lo w x : Nat) : (d.setFld o lo w x).dec = d.dec := rfl
@[simp] theorem Dev.setFld_pdmOn (d : Dev) (o lo w x : Nat) : (d.setFld o lo w x).pdmOn = d.pdmOn := rfl
@[simp] theorem Dev.setFld_clipM (d : Dev) (o lo w x : Nat) : (d.setFld o lo w x).clipM = d.clipM := rfl
@[simp] theorem Dev.setFld_mclk (d : Dev) (o lo w x : Nat) : (d.setFld o lo w x).mclk = d.mclk := rfl
@[simp] theorem Dev.setFld_mod (d : Dev) (o lo w x : Nat) : (d.setFld o lo w x).mod = d.mod := rfl
@[simp] theorem Dev.setFld_sns (d : Dev) (o lo w x : Nat) : (d.setFld o lo w x).sns = d.sns := rfl
@[simp] theorem Dev.setFld_snsOn (d : Dev) (o lo w x : Nat) : (d.setFld o lo w x).snsOn = d.snsOn := rfl
@[simp] theorem Dev.setFld_clk (d : Dev) (o lo w x : Nat) : (d.setFld o lo w x).clk = d.clk := rfl
@[simp] theorem Dev.setFld_time (d : Dev) (o lo w x : Nat) : (d.setFld o lo w x).time = d.time := rfl
@[simp] theorem Dev.setFld_mac (d : Dev) (o lo w x : Nat) : (d.setFld o lo w x).mac = d.mac := rfl
@[simp] theorem Dev.setFld_bus (d : Dev) (o lo w x : Nat) : (d.setFld o lo w x).bus = d.bus := rfl
@[simp] theorem Dev.setFld_mdioRd (d : Dev) (o lo w x : Nat) : (d.setFld o lo w x).mdioRd = d.mdioRd := rfl
@[simp] theorem Dev.setFld_strm (d : Dev) (o lo w x : Nat) : (d.setFld o lo w x).strm = d.strm := rfl
@[simp] theorem Dev.setFld_ddr (d : Dev) (o lo w x : Nat) : (d.setFld o lo w x).ddr = d.ddr := rfl
@[simp] theorem Dev.setFld_gln (d : Dev) (o lo w x : Nat) : (d.setFld o lo w x).gln = d.gln := rfl
@[simp] theorem Dev.setFld_outsZ (d : Dev) (o lo w x : Nat) : (d.setFld o lo w x).outsZ = d.outsZ := rfl
@[simp] theorem Dev.setFld_begun (d : Dev) (o lo w x : Nat) : (d.setFld o lo w x).begun = d.begun := rfl
@[simp] theorem Dev.setFld_cvuOn (d : Dev) (o lo w x : Nat) : (d.setFld o lo w x).cvuOn = d.cvuOn := rfl
@[simp] theorem Dev.setFld_free (d : Dev) (o lo w x : Nat) : (d.setFld o lo w x).free = d.free := rfl
@[simp] theorem Dev.setFld_pair (d : Dev) (o lo w x : Nat) : (d.setFld o lo w x).pair = d.pair := rfl
@[simp] theorem Dev.setFld_cmd (d : Dev) (o lo w x : Nat) : (d.setFld o lo w x).cmd = d.cmd := rfl
@[simp] theorem Dev.setFld_boot (d : Dev) (o lo w x : Nat) : (d.setFld o lo w x).boot = d.boot := rfl
@[simp] theorem Dev.setFld_replayT (d : Dev) (o lo w x : Nat) : (d.setFld o lo w x).replayT = d.replayT := rfl
@[simp] theorem Dev.setFld_peerDec (d : Dev) (o lo w x : Nat) : (d.setFld o lo w x).peerDec = d.peerDec := rfl
@[simp] theorem Dev.setFld_out (d : Dev) (o lo w x : Nat) : (d.setFld o lo w x).out = d.out := rfl

/-! ## `setW` -/

@[simp] theorem Dev.setW_tick (d : Dev) (o v : Nat) : (d.setW o v).tick = d.tick := rfl
@[simp] theorem Dev.setW_cycle (d : Dev) (o v : Nat) : (d.setW o v).cycle = d.cycle := rfl
@[simp] theorem Dev.setW_regs (d : Dev) (o v : Nat) : (d.setW o v).regs = d.regs := rfl
@[simp] theorem Dev.setW_live (d : Dev) (o v : Nat) : (d.setW o v).live = d.live := rfl
@[simp] theorem Dev.setW_latch (d : Dev) (o v : Nat) : (d.setW o v).latch = d.latch := rfl
@[simp] theorem Dev.setW_rdata (d : Dev) (o v : Nat) : (d.setW o v).rdata = d.rdata := rfl
@[simp] theorem Dev.setW_pendTick (d : Dev) (o v : Nat) : (d.setW o v).pendTick = d.pendTick := rfl
@[simp] theorem Dev.setW_frameWr (d : Dev) (o v : Nat) : (d.setW o v).frameWr = d.frameWr := rfl
@[simp] theorem Dev.setW_capGrp (d : Dev) (o v : Nat) : (d.setW o v).capGrp = d.capGrp := rfl
@[simp] theorem Dev.setW_held (d : Dev) (o v : Nat) : (d.setW o v).held = d.held := rfl
@[simp] theorem Dev.setW_agenda (d : Dev) (o v : Nat) : (d.setW o v).agenda = d.agenda := rfl
@[simp] theorem Dev.setW_flt (d : Dev) (o v : Nat) : (d.setW o v).flt = d.flt := rfl
@[simp] theorem Dev.setW_evt (d : Dev) (o v : Nat) : (d.setW o v).evt = d.evt := rfl
@[simp] theorem Dev.setW_bbx (d : Dev) (o v : Nat) : (d.setW o v).bbx = d.bbx := rfl
@[simp] theorem Dev.setW_thm (d : Dev) (o v : Nat) : (d.setW o v).thm = d.thm := rfl
@[simp] theorem Dev.setW_ctrlRst (d : Dev) (o v : Nat) : (d.setW o v).ctrlRst = d.ctrlRst := rfl
@[simp] theorem Dev.setW_mgmtRst (d : Dev) (o v : Nat) : (d.setW o v).mgmtRst = d.mgmtRst := rfl
@[simp] theorem Dev.setW_inReset (d : Dev) (o v : Nat) : (d.setW o v).inReset = d.inReset := rfl
@[simp] theorem Dev.setW_eng (d : Dev) (o v : Nat) : (d.setW o v).eng = d.eng := rfl
@[simp] theorem Dev.setW_ldr (d : Dev) (o v : Nat) : (d.setW o v).ldr = d.ldr := rfl
@[simp] theorem Dev.setW_pcie (d : Dev) (o v : Nat) : (d.setW o v).pcie = d.pcie := rfl
@[simp] theorem Dev.setW_testMode (d : Dev) (o v : Nat) : (d.setW o v).testMode = d.testMode := rfl
@[simp] theorem Dev.setW_cvuSeen (d : Dev) (o v : Nat) : (d.setW o v).cvuSeen = d.cvuSeen := rfl
@[simp] theorem Dev.setW_tdm (d : Dev) (o v : Nat) : (d.setW o v).tdm = d.tdm := rfl
@[simp] theorem Dev.setW_dec (d : Dev) (o v : Nat) : (d.setW o v).dec = d.dec := rfl
@[simp] theorem Dev.setW_pdmOn (d : Dev) (o v : Nat) : (d.setW o v).pdmOn = d.pdmOn := rfl
@[simp] theorem Dev.setW_clipM (d : Dev) (o v : Nat) : (d.setW o v).clipM = d.clipM := rfl
@[simp] theorem Dev.setW_mclk (d : Dev) (o v : Nat) : (d.setW o v).mclk = d.mclk := rfl
@[simp] theorem Dev.setW_mod (d : Dev) (o v : Nat) : (d.setW o v).mod = d.mod := rfl
@[simp] theorem Dev.setW_sns (d : Dev) (o v : Nat) : (d.setW o v).sns = d.sns := rfl
@[simp] theorem Dev.setW_snsOn (d : Dev) (o v : Nat) : (d.setW o v).snsOn = d.snsOn := rfl
@[simp] theorem Dev.setW_clk (d : Dev) (o v : Nat) : (d.setW o v).clk = d.clk := rfl
@[simp] theorem Dev.setW_time (d : Dev) (o v : Nat) : (d.setW o v).time = d.time := rfl
@[simp] theorem Dev.setW_mac (d : Dev) (o v : Nat) : (d.setW o v).mac = d.mac := rfl
@[simp] theorem Dev.setW_bus (d : Dev) (o v : Nat) : (d.setW o v).bus = d.bus := rfl
@[simp] theorem Dev.setW_mdioRd (d : Dev) (o v : Nat) : (d.setW o v).mdioRd = d.mdioRd := rfl
@[simp] theorem Dev.setW_strm (d : Dev) (o v : Nat) : (d.setW o v).strm = d.strm := rfl
@[simp] theorem Dev.setW_ddr (d : Dev) (o v : Nat) : (d.setW o v).ddr = d.ddr := rfl
@[simp] theorem Dev.setW_gln (d : Dev) (o v : Nat) : (d.setW o v).gln = d.gln := rfl
@[simp] theorem Dev.setW_outsZ (d : Dev) (o v : Nat) : (d.setW o v).outsZ = d.outsZ := rfl
@[simp] theorem Dev.setW_begun (d : Dev) (o v : Nat) : (d.setW o v).begun = d.begun := rfl
@[simp] theorem Dev.setW_cvuOn (d : Dev) (o v : Nat) : (d.setW o v).cvuOn = d.cvuOn := rfl
@[simp] theorem Dev.setW_free (d : Dev) (o v : Nat) : (d.setW o v).free = d.free := rfl
@[simp] theorem Dev.setW_pair (d : Dev) (o v : Nat) : (d.setW o v).pair = d.pair := rfl
@[simp] theorem Dev.setW_cmd (d : Dev) (o v : Nat) : (d.setW o v).cmd = d.cmd := rfl
@[simp] theorem Dev.setW_boot (d : Dev) (o v : Nat) : (d.setW o v).boot = d.boot := rfl
@[simp] theorem Dev.setW_replayT (d : Dev) (o v : Nat) : (d.setW o v).replayT = d.replayT := rfl
@[simp] theorem Dev.setW_peerDec (d : Dev) (o v : Nat) : (d.setW o v).peerDec = d.peerDec := rfl
@[simp] theorem Dev.setW_out (d : Dev) (o v : Nat) : (d.setW o v).out = d.out := rfl

/-! ## `bump` -/

@[simp] theorem Dev.bump_tick (d : Dev) (o n : Nat) : (d.bump o n).tick = d.tick := rfl
@[simp] theorem Dev.bump_cycle (d : Dev) (o n : Nat) : (d.bump o n).cycle = d.cycle := rfl
@[simp] theorem Dev.bump_regs (d : Dev) (o n : Nat) : (d.bump o n).regs = d.regs := rfl
@[simp] theorem Dev.bump_live (d : Dev) (o n : Nat) : (d.bump o n).live = d.live := rfl
@[simp] theorem Dev.bump_latch (d : Dev) (o n : Nat) : (d.bump o n).latch = d.latch := rfl
@[simp] theorem Dev.bump_rdata (d : Dev) (o n : Nat) : (d.bump o n).rdata = d.rdata := rfl
@[simp] theorem Dev.bump_pendTick (d : Dev) (o n : Nat) : (d.bump o n).pendTick = d.pendTick := rfl
@[simp] theorem Dev.bump_frameWr (d : Dev) (o n : Nat) : (d.bump o n).frameWr = d.frameWr := rfl
@[simp] theorem Dev.bump_capGrp (d : Dev) (o n : Nat) : (d.bump o n).capGrp = d.capGrp := rfl
@[simp] theorem Dev.bump_held (d : Dev) (o n : Nat) : (d.bump o n).held = d.held := rfl
@[simp] theorem Dev.bump_agenda (d : Dev) (o n : Nat) : (d.bump o n).agenda = d.agenda := rfl
@[simp] theorem Dev.bump_flt (d : Dev) (o n : Nat) : (d.bump o n).flt = d.flt := rfl
@[simp] theorem Dev.bump_evt (d : Dev) (o n : Nat) : (d.bump o n).evt = d.evt := rfl
@[simp] theorem Dev.bump_bbx (d : Dev) (o n : Nat) : (d.bump o n).bbx = d.bbx := rfl
@[simp] theorem Dev.bump_thm (d : Dev) (o n : Nat) : (d.bump o n).thm = d.thm := rfl
@[simp] theorem Dev.bump_ctrlRst (d : Dev) (o n : Nat) : (d.bump o n).ctrlRst = d.ctrlRst := rfl
@[simp] theorem Dev.bump_mgmtRst (d : Dev) (o n : Nat) : (d.bump o n).mgmtRst = d.mgmtRst := rfl
@[simp] theorem Dev.bump_inReset (d : Dev) (o n : Nat) : (d.bump o n).inReset = d.inReset := rfl
@[simp] theorem Dev.bump_eng (d : Dev) (o n : Nat) : (d.bump o n).eng = d.eng := rfl
@[simp] theorem Dev.bump_ldr (d : Dev) (o n : Nat) : (d.bump o n).ldr = d.ldr := rfl
@[simp] theorem Dev.bump_pcie (d : Dev) (o n : Nat) : (d.bump o n).pcie = d.pcie := rfl
@[simp] theorem Dev.bump_testMode (d : Dev) (o n : Nat) : (d.bump o n).testMode = d.testMode := rfl
@[simp] theorem Dev.bump_cvuSeen (d : Dev) (o n : Nat) : (d.bump o n).cvuSeen = d.cvuSeen := rfl
@[simp] theorem Dev.bump_tdm (d : Dev) (o n : Nat) : (d.bump o n).tdm = d.tdm := rfl
@[simp] theorem Dev.bump_dec (d : Dev) (o n : Nat) : (d.bump o n).dec = d.dec := rfl
@[simp] theorem Dev.bump_pdmOn (d : Dev) (o n : Nat) : (d.bump o n).pdmOn = d.pdmOn := rfl
@[simp] theorem Dev.bump_clipM (d : Dev) (o n : Nat) : (d.bump o n).clipM = d.clipM := rfl
@[simp] theorem Dev.bump_mclk (d : Dev) (o n : Nat) : (d.bump o n).mclk = d.mclk := rfl
@[simp] theorem Dev.bump_mod (d : Dev) (o n : Nat) : (d.bump o n).mod = d.mod := rfl
@[simp] theorem Dev.bump_sns (d : Dev) (o n : Nat) : (d.bump o n).sns = d.sns := rfl
@[simp] theorem Dev.bump_snsOn (d : Dev) (o n : Nat) : (d.bump o n).snsOn = d.snsOn := rfl
@[simp] theorem Dev.bump_clk (d : Dev) (o n : Nat) : (d.bump o n).clk = d.clk := rfl
@[simp] theorem Dev.bump_time (d : Dev) (o n : Nat) : (d.bump o n).time = d.time := rfl
@[simp] theorem Dev.bump_mac (d : Dev) (o n : Nat) : (d.bump o n).mac = d.mac := rfl
@[simp] theorem Dev.bump_bus (d : Dev) (o n : Nat) : (d.bump o n).bus = d.bus := rfl
@[simp] theorem Dev.bump_mdioRd (d : Dev) (o n : Nat) : (d.bump o n).mdioRd = d.mdioRd := rfl
@[simp] theorem Dev.bump_strm (d : Dev) (o n : Nat) : (d.bump o n).strm = d.strm := rfl
@[simp] theorem Dev.bump_ddr (d : Dev) (o n : Nat) : (d.bump o n).ddr = d.ddr := rfl
@[simp] theorem Dev.bump_gln (d : Dev) (o n : Nat) : (d.bump o n).gln = d.gln := rfl
@[simp] theorem Dev.bump_outsZ (d : Dev) (o n : Nat) : (d.bump o n).outsZ = d.outsZ := rfl
@[simp] theorem Dev.bump_begun (d : Dev) (o n : Nat) : (d.bump o n).begun = d.begun := rfl
@[simp] theorem Dev.bump_cvuOn (d : Dev) (o n : Nat) : (d.bump o n).cvuOn = d.cvuOn := rfl
@[simp] theorem Dev.bump_free (d : Dev) (o n : Nat) : (d.bump o n).free = d.free := rfl
@[simp] theorem Dev.bump_pair (d : Dev) (o n : Nat) : (d.bump o n).pair = d.pair := rfl
@[simp] theorem Dev.bump_cmd (d : Dev) (o n : Nat) : (d.bump o n).cmd = d.cmd := rfl
@[simp] theorem Dev.bump_boot (d : Dev) (o n : Nat) : (d.bump o n).boot = d.boot := rfl
@[simp] theorem Dev.bump_replayT (d : Dev) (o n : Nat) : (d.bump o n).replayT = d.replayT := rfl
@[simp] theorem Dev.bump_peerDec (d : Dev) (o n : Nat) : (d.bump o n).peerDec = d.peerDec := rfl
@[simp] theorem Dev.bump_out (d : Dev) (o n : Nat) : (d.bump o n).out = d.out := rfl

/-! ## `setLatch` -/

@[simp] theorem Dev.setLatch_tick (d : Dev) (o v : Nat) : (d.setLatch o v).tick = d.tick := rfl
@[simp] theorem Dev.setLatch_cycle (d : Dev) (o v : Nat) : (d.setLatch o v).cycle = d.cycle := rfl
@[simp] theorem Dev.setLatch_regs (d : Dev) (o v : Nat) : (d.setLatch o v).regs = d.regs := rfl
@[simp] theorem Dev.setLatch_live (d : Dev) (o v : Nat) : (d.setLatch o v).live = d.live := rfl
@[simp] theorem Dev.setLatch_wide (d : Dev) (o v : Nat) : (d.setLatch o v).wide = d.wide := rfl
@[simp] theorem Dev.setLatch_rdata (d : Dev) (o v : Nat) : (d.setLatch o v).rdata = d.rdata := rfl
@[simp] theorem Dev.setLatch_pendTick (d : Dev) (o v : Nat) : (d.setLatch o v).pendTick = d.pendTick := rfl
@[simp] theorem Dev.setLatch_frameWr (d : Dev) (o v : Nat) : (d.setLatch o v).frameWr = d.frameWr := rfl
@[simp] theorem Dev.setLatch_capGrp (d : Dev) (o v : Nat) : (d.setLatch o v).capGrp = d.capGrp := rfl
@[simp] theorem Dev.setLatch_held (d : Dev) (o v : Nat) : (d.setLatch o v).held = d.held := rfl
@[simp] theorem Dev.setLatch_agenda (d : Dev) (o v : Nat) : (d.setLatch o v).agenda = d.agenda := rfl
@[simp] theorem Dev.setLatch_flt (d : Dev) (o v : Nat) : (d.setLatch o v).flt = d.flt := rfl
@[simp] theorem Dev.setLatch_evt (d : Dev) (o v : Nat) : (d.setLatch o v).evt = d.evt := rfl
@[simp] theorem Dev.setLatch_bbx (d : Dev) (o v : Nat) : (d.setLatch o v).bbx = d.bbx := rfl
@[simp] theorem Dev.setLatch_thm (d : Dev) (o v : Nat) : (d.setLatch o v).thm = d.thm := rfl
@[simp] theorem Dev.setLatch_ctrlRst (d : Dev) (o v : Nat) : (d.setLatch o v).ctrlRst = d.ctrlRst := rfl
@[simp] theorem Dev.setLatch_mgmtRst (d : Dev) (o v : Nat) : (d.setLatch o v).mgmtRst = d.mgmtRst := rfl
@[simp] theorem Dev.setLatch_inReset (d : Dev) (o v : Nat) : (d.setLatch o v).inReset = d.inReset := rfl
@[simp] theorem Dev.setLatch_eng (d : Dev) (o v : Nat) : (d.setLatch o v).eng = d.eng := rfl
@[simp] theorem Dev.setLatch_ldr (d : Dev) (o v : Nat) : (d.setLatch o v).ldr = d.ldr := rfl
@[simp] theorem Dev.setLatch_pcie (d : Dev) (o v : Nat) : (d.setLatch o v).pcie = d.pcie := rfl
@[simp] theorem Dev.setLatch_testMode (d : Dev) (o v : Nat) : (d.setLatch o v).testMode = d.testMode := rfl
@[simp] theorem Dev.setLatch_cvuSeen (d : Dev) (o v : Nat) : (d.setLatch o v).cvuSeen = d.cvuSeen := rfl
@[simp] theorem Dev.setLatch_tdm (d : Dev) (o v : Nat) : (d.setLatch o v).tdm = d.tdm := rfl
@[simp] theorem Dev.setLatch_dec (d : Dev) (o v : Nat) : (d.setLatch o v).dec = d.dec := rfl
@[simp] theorem Dev.setLatch_pdmOn (d : Dev) (o v : Nat) : (d.setLatch o v).pdmOn = d.pdmOn := rfl
@[simp] theorem Dev.setLatch_clipM (d : Dev) (o v : Nat) : (d.setLatch o v).clipM = d.clipM := rfl
@[simp] theorem Dev.setLatch_mclk (d : Dev) (o v : Nat) : (d.setLatch o v).mclk = d.mclk := rfl
@[simp] theorem Dev.setLatch_mod (d : Dev) (o v : Nat) : (d.setLatch o v).mod = d.mod := rfl
@[simp] theorem Dev.setLatch_sns (d : Dev) (o v : Nat) : (d.setLatch o v).sns = d.sns := rfl
@[simp] theorem Dev.setLatch_snsOn (d : Dev) (o v : Nat) : (d.setLatch o v).snsOn = d.snsOn := rfl
@[simp] theorem Dev.setLatch_clk (d : Dev) (o v : Nat) : (d.setLatch o v).clk = d.clk := rfl
@[simp] theorem Dev.setLatch_time (d : Dev) (o v : Nat) : (d.setLatch o v).time = d.time := rfl
@[simp] theorem Dev.setLatch_mac (d : Dev) (o v : Nat) : (d.setLatch o v).mac = d.mac := rfl
@[simp] theorem Dev.setLatch_bus (d : Dev) (o v : Nat) : (d.setLatch o v).bus = d.bus := rfl
@[simp] theorem Dev.setLatch_mdioRd (d : Dev) (o v : Nat) : (d.setLatch o v).mdioRd = d.mdioRd := rfl
@[simp] theorem Dev.setLatch_strm (d : Dev) (o v : Nat) : (d.setLatch o v).strm = d.strm := rfl
@[simp] theorem Dev.setLatch_ddr (d : Dev) (o v : Nat) : (d.setLatch o v).ddr = d.ddr := rfl
@[simp] theorem Dev.setLatch_gln (d : Dev) (o v : Nat) : (d.setLatch o v).gln = d.gln := rfl
@[simp] theorem Dev.setLatch_outsZ (d : Dev) (o v : Nat) : (d.setLatch o v).outsZ = d.outsZ := rfl
@[simp] theorem Dev.setLatch_begun (d : Dev) (o v : Nat) : (d.setLatch o v).begun = d.begun := rfl
@[simp] theorem Dev.setLatch_cvuOn (d : Dev) (o v : Nat) : (d.setLatch o v).cvuOn = d.cvuOn := rfl
@[simp] theorem Dev.setLatch_free (d : Dev) (o v : Nat) : (d.setLatch o v).free = d.free := rfl
@[simp] theorem Dev.setLatch_pair (d : Dev) (o v : Nat) : (d.setLatch o v).pair = d.pair := rfl
@[simp] theorem Dev.setLatch_cmd (d : Dev) (o v : Nat) : (d.setLatch o v).cmd = d.cmd := rfl
@[simp] theorem Dev.setLatch_boot (d : Dev) (o v : Nat) : (d.setLatch o v).boot = d.boot := rfl
@[simp] theorem Dev.setLatch_replayT (d : Dev) (o v : Nat) : (d.setLatch o v).replayT = d.replayT := rfl
@[simp] theorem Dev.setLatch_peerDec (d : Dev) (o v : Nat) : (d.setLatch o v).peerDec = d.peerDec := rfl
@[simp] theorem Dev.setLatch_out (d : Dev) (o v : Nat) : (d.setLatch o v).out = d.out := rfl

/-! ## `onFlt` -/

@[simp] theorem Dev.onFlt_tick (d : Dev) (b : Nat) (f : FltState → FltState) : (d.onFlt b f).tick = d.tick := rfl
@[simp] theorem Dev.onFlt_cycle (d : Dev) (b : Nat) (f : FltState → FltState) : (d.onFlt b f).cycle = d.cycle := rfl
@[simp] theorem Dev.onFlt_regs (d : Dev) (b : Nat) (f : FltState → FltState) : (d.onFlt b f).regs = d.regs := rfl
@[simp] theorem Dev.onFlt_live (d : Dev) (b : Nat) (f : FltState → FltState) : (d.onFlt b f).live = d.live := rfl
@[simp] theorem Dev.onFlt_wide (d : Dev) (b : Nat) (f : FltState → FltState) : (d.onFlt b f).wide = d.wide := rfl
@[simp] theorem Dev.onFlt_latch (d : Dev) (b : Nat) (f : FltState → FltState) : (d.onFlt b f).latch = d.latch := rfl
@[simp] theorem Dev.onFlt_rdata (d : Dev) (b : Nat) (f : FltState → FltState) : (d.onFlt b f).rdata = d.rdata := rfl
@[simp] theorem Dev.onFlt_pendTick (d : Dev) (b : Nat) (f : FltState → FltState) : (d.onFlt b f).pendTick = d.pendTick := rfl
@[simp] theorem Dev.onFlt_frameWr (d : Dev) (b : Nat) (f : FltState → FltState) : (d.onFlt b f).frameWr = d.frameWr := rfl
@[simp] theorem Dev.onFlt_capGrp (d : Dev) (b : Nat) (f : FltState → FltState) : (d.onFlt b f).capGrp = d.capGrp := rfl
@[simp] theorem Dev.onFlt_held (d : Dev) (b : Nat) (f : FltState → FltState) : (d.onFlt b f).held = d.held := rfl
@[simp] theorem Dev.onFlt_agenda (d : Dev) (b : Nat) (f : FltState → FltState) : (d.onFlt b f).agenda = d.agenda := rfl
@[simp] theorem Dev.onFlt_evt (d : Dev) (b : Nat) (f : FltState → FltState) : (d.onFlt b f).evt = d.evt := rfl
@[simp] theorem Dev.onFlt_bbx (d : Dev) (b : Nat) (f : FltState → FltState) : (d.onFlt b f).bbx = d.bbx := rfl
@[simp] theorem Dev.onFlt_thm (d : Dev) (b : Nat) (f : FltState → FltState) : (d.onFlt b f).thm = d.thm := rfl
@[simp] theorem Dev.onFlt_ctrlRst (d : Dev) (b : Nat) (f : FltState → FltState) : (d.onFlt b f).ctrlRst = d.ctrlRst := rfl
@[simp] theorem Dev.onFlt_mgmtRst (d : Dev) (b : Nat) (f : FltState → FltState) : (d.onFlt b f).mgmtRst = d.mgmtRst := rfl
@[simp] theorem Dev.onFlt_inReset (d : Dev) (b : Nat) (f : FltState → FltState) : (d.onFlt b f).inReset = d.inReset := rfl
@[simp] theorem Dev.onFlt_eng (d : Dev) (b : Nat) (f : FltState → FltState) : (d.onFlt b f).eng = d.eng := rfl
@[simp] theorem Dev.onFlt_ldr (d : Dev) (b : Nat) (f : FltState → FltState) : (d.onFlt b f).ldr = d.ldr := rfl
@[simp] theorem Dev.onFlt_pcie (d : Dev) (b : Nat) (f : FltState → FltState) : (d.onFlt b f).pcie = d.pcie := rfl
@[simp] theorem Dev.onFlt_testMode (d : Dev) (b : Nat) (f : FltState → FltState) : (d.onFlt b f).testMode = d.testMode := rfl
@[simp] theorem Dev.onFlt_cvuSeen (d : Dev) (b : Nat) (f : FltState → FltState) : (d.onFlt b f).cvuSeen = d.cvuSeen := rfl
@[simp] theorem Dev.onFlt_tdm (d : Dev) (b : Nat) (f : FltState → FltState) : (d.onFlt b f).tdm = d.tdm := rfl
@[simp] theorem Dev.onFlt_dec (d : Dev) (b : Nat) (f : FltState → FltState) : (d.onFlt b f).dec = d.dec := rfl
@[simp] theorem Dev.onFlt_pdmOn (d : Dev) (b : Nat) (f : FltState → FltState) : (d.onFlt b f).pdmOn = d.pdmOn := rfl
@[simp] theorem Dev.onFlt_clipM (d : Dev) (b : Nat) (f : FltState → FltState) : (d.onFlt b f).clipM = d.clipM := rfl
@[simp] theorem Dev.onFlt_mclk (d : Dev) (b : Nat) (f : FltState → FltState) : (d.onFlt b f).mclk = d.mclk := rfl
@[simp] theorem Dev.onFlt_mod (d : Dev) (b : Nat) (f : FltState → FltState) : (d.onFlt b f).mod = d.mod := rfl
@[simp] theorem Dev.onFlt_sns (d : Dev) (b : Nat) (f : FltState → FltState) : (d.onFlt b f).sns = d.sns := rfl
@[simp] theorem Dev.onFlt_snsOn (d : Dev) (b : Nat) (f : FltState → FltState) : (d.onFlt b f).snsOn = d.snsOn := rfl
@[simp] theorem Dev.onFlt_clk (d : Dev) (b : Nat) (f : FltState → FltState) : (d.onFlt b f).clk = d.clk := rfl
@[simp] theorem Dev.onFlt_time (d : Dev) (b : Nat) (f : FltState → FltState) : (d.onFlt b f).time = d.time := rfl
@[simp] theorem Dev.onFlt_mac (d : Dev) (b : Nat) (f : FltState → FltState) : (d.onFlt b f).mac = d.mac := rfl
@[simp] theorem Dev.onFlt_bus (d : Dev) (b : Nat) (f : FltState → FltState) : (d.onFlt b f).bus = d.bus := rfl
@[simp] theorem Dev.onFlt_mdioRd (d : Dev) (b : Nat) (f : FltState → FltState) : (d.onFlt b f).mdioRd = d.mdioRd := rfl
@[simp] theorem Dev.onFlt_strm (d : Dev) (b : Nat) (f : FltState → FltState) : (d.onFlt b f).strm = d.strm := rfl
@[simp] theorem Dev.onFlt_ddr (d : Dev) (b : Nat) (f : FltState → FltState) : (d.onFlt b f).ddr = d.ddr := rfl
@[simp] theorem Dev.onFlt_gln (d : Dev) (b : Nat) (f : FltState → FltState) : (d.onFlt b f).gln = d.gln := rfl
@[simp] theorem Dev.onFlt_outsZ (d : Dev) (b : Nat) (f : FltState → FltState) : (d.onFlt b f).outsZ = d.outsZ := rfl
@[simp] theorem Dev.onFlt_begun (d : Dev) (b : Nat) (f : FltState → FltState) : (d.onFlt b f).begun = d.begun := rfl
@[simp] theorem Dev.onFlt_cvuOn (d : Dev) (b : Nat) (f : FltState → FltState) : (d.onFlt b f).cvuOn = d.cvuOn := rfl
@[simp] theorem Dev.onFlt_free (d : Dev) (b : Nat) (f : FltState → FltState) : (d.onFlt b f).free = d.free := rfl
@[simp] theorem Dev.onFlt_pair (d : Dev) (b : Nat) (f : FltState → FltState) : (d.onFlt b f).pair = d.pair := rfl
@[simp] theorem Dev.onFlt_cmd (d : Dev) (b : Nat) (f : FltState → FltState) : (d.onFlt b f).cmd = d.cmd := rfl
@[simp] theorem Dev.onFlt_boot (d : Dev) (b : Nat) (f : FltState → FltState) : (d.onFlt b f).boot = d.boot := rfl
@[simp] theorem Dev.onFlt_replayT (d : Dev) (b : Nat) (f : FltState → FltState) : (d.onFlt b f).replayT = d.replayT := rfl
@[simp] theorem Dev.onFlt_peerDec (d : Dev) (b : Nat) (f : FltState → FltState) : (d.onFlt b f).peerDec = d.peerDec := rfl
@[simp] theorem Dev.onFlt_out (d : Dev) (b : Nat) (f : FltState → FltState) : (d.onFlt b f).out = d.out := rfl

/-! ## `onCmd` -/

@[simp] theorem Dev.onCmd_tick (d : Dev) (f : Cmd → Cmd) : (d.onCmd f).tick = d.tick := rfl
@[simp] theorem Dev.onCmd_cycle (d : Dev) (f : Cmd → Cmd) : (d.onCmd f).cycle = d.cycle := rfl
@[simp] theorem Dev.onCmd_regs (d : Dev) (f : Cmd → Cmd) : (d.onCmd f).regs = d.regs := rfl
@[simp] theorem Dev.onCmd_live (d : Dev) (f : Cmd → Cmd) : (d.onCmd f).live = d.live := rfl
@[simp] theorem Dev.onCmd_wide (d : Dev) (f : Cmd → Cmd) : (d.onCmd f).wide = d.wide := rfl
@[simp] theorem Dev.onCmd_latch (d : Dev) (f : Cmd → Cmd) : (d.onCmd f).latch = d.latch := rfl
@[simp] theorem Dev.onCmd_rdata (d : Dev) (f : Cmd → Cmd) : (d.onCmd f).rdata = d.rdata := rfl
@[simp] theorem Dev.onCmd_pendTick (d : Dev) (f : Cmd → Cmd) : (d.onCmd f).pendTick = d.pendTick := rfl
@[simp] theorem Dev.onCmd_frameWr (d : Dev) (f : Cmd → Cmd) : (d.onCmd f).frameWr = d.frameWr := rfl
@[simp] theorem Dev.onCmd_capGrp (d : Dev) (f : Cmd → Cmd) : (d.onCmd f).capGrp = d.capGrp := rfl
@[simp] theorem Dev.onCmd_held (d : Dev) (f : Cmd → Cmd) : (d.onCmd f).held = d.held := rfl
@[simp] theorem Dev.onCmd_agenda (d : Dev) (f : Cmd → Cmd) : (d.onCmd f).agenda = d.agenda := rfl
@[simp] theorem Dev.onCmd_flt (d : Dev) (f : Cmd → Cmd) : (d.onCmd f).flt = d.flt := rfl
@[simp] theorem Dev.onCmd_evt (d : Dev) (f : Cmd → Cmd) : (d.onCmd f).evt = d.evt := rfl
@[simp] theorem Dev.onCmd_bbx (d : Dev) (f : Cmd → Cmd) : (d.onCmd f).bbx = d.bbx := rfl
@[simp] theorem Dev.onCmd_thm (d : Dev) (f : Cmd → Cmd) : (d.onCmd f).thm = d.thm := rfl
@[simp] theorem Dev.onCmd_ctrlRst (d : Dev) (f : Cmd → Cmd) : (d.onCmd f).ctrlRst = d.ctrlRst := rfl
@[simp] theorem Dev.onCmd_mgmtRst (d : Dev) (f : Cmd → Cmd) : (d.onCmd f).mgmtRst = d.mgmtRst := rfl
@[simp] theorem Dev.onCmd_inReset (d : Dev) (f : Cmd → Cmd) : (d.onCmd f).inReset = d.inReset := rfl
@[simp] theorem Dev.onCmd_eng (d : Dev) (f : Cmd → Cmd) : (d.onCmd f).eng = d.eng := rfl
@[simp] theorem Dev.onCmd_ldr (d : Dev) (f : Cmd → Cmd) : (d.onCmd f).ldr = d.ldr := rfl
@[simp] theorem Dev.onCmd_pcie (d : Dev) (f : Cmd → Cmd) : (d.onCmd f).pcie = d.pcie := rfl
@[simp] theorem Dev.onCmd_testMode (d : Dev) (f : Cmd → Cmd) : (d.onCmd f).testMode = d.testMode := rfl
@[simp] theorem Dev.onCmd_cvuSeen (d : Dev) (f : Cmd → Cmd) : (d.onCmd f).cvuSeen = d.cvuSeen := rfl
@[simp] theorem Dev.onCmd_tdm (d : Dev) (f : Cmd → Cmd) : (d.onCmd f).tdm = d.tdm := rfl
@[simp] theorem Dev.onCmd_dec (d : Dev) (f : Cmd → Cmd) : (d.onCmd f).dec = d.dec := rfl
@[simp] theorem Dev.onCmd_pdmOn (d : Dev) (f : Cmd → Cmd) : (d.onCmd f).pdmOn = d.pdmOn := rfl
@[simp] theorem Dev.onCmd_clipM (d : Dev) (f : Cmd → Cmd) : (d.onCmd f).clipM = d.clipM := rfl
@[simp] theorem Dev.onCmd_mclk (d : Dev) (f : Cmd → Cmd) : (d.onCmd f).mclk = d.mclk := rfl
@[simp] theorem Dev.onCmd_mod (d : Dev) (f : Cmd → Cmd) : (d.onCmd f).mod = d.mod := rfl
@[simp] theorem Dev.onCmd_sns (d : Dev) (f : Cmd → Cmd) : (d.onCmd f).sns = d.sns := rfl
@[simp] theorem Dev.onCmd_snsOn (d : Dev) (f : Cmd → Cmd) : (d.onCmd f).snsOn = d.snsOn := rfl
@[simp] theorem Dev.onCmd_clk (d : Dev) (f : Cmd → Cmd) : (d.onCmd f).clk = d.clk := rfl
@[simp] theorem Dev.onCmd_time (d : Dev) (f : Cmd → Cmd) : (d.onCmd f).time = d.time := rfl
@[simp] theorem Dev.onCmd_mac (d : Dev) (f : Cmd → Cmd) : (d.onCmd f).mac = d.mac := rfl
@[simp] theorem Dev.onCmd_bus (d : Dev) (f : Cmd → Cmd) : (d.onCmd f).bus = d.bus := rfl
@[simp] theorem Dev.onCmd_mdioRd (d : Dev) (f : Cmd → Cmd) : (d.onCmd f).mdioRd = d.mdioRd := rfl
@[simp] theorem Dev.onCmd_strm (d : Dev) (f : Cmd → Cmd) : (d.onCmd f).strm = d.strm := rfl
@[simp] theorem Dev.onCmd_ddr (d : Dev) (f : Cmd → Cmd) : (d.onCmd f).ddr = d.ddr := rfl
@[simp] theorem Dev.onCmd_gln (d : Dev) (f : Cmd → Cmd) : (d.onCmd f).gln = d.gln := rfl
@[simp] theorem Dev.onCmd_outsZ (d : Dev) (f : Cmd → Cmd) : (d.onCmd f).outsZ = d.outsZ := rfl
@[simp] theorem Dev.onCmd_begun (d : Dev) (f : Cmd → Cmd) : (d.onCmd f).begun = d.begun := rfl
@[simp] theorem Dev.onCmd_cvuOn (d : Dev) (f : Cmd → Cmd) : (d.onCmd f).cvuOn = d.cvuOn := rfl
@[simp] theorem Dev.onCmd_free (d : Dev) (f : Cmd → Cmd) : (d.onCmd f).free = d.free := rfl
@[simp] theorem Dev.onCmd_pair (d : Dev) (f : Cmd → Cmd) : (d.onCmd f).pair = d.pair := rfl
@[simp] theorem Dev.onCmd_boot (d : Dev) (f : Cmd → Cmd) : (d.onCmd f).boot = d.boot := rfl
@[simp] theorem Dev.onCmd_replayT (d : Dev) (f : Cmd → Cmd) : (d.onCmd f).replayT = d.replayT := rfl
@[simp] theorem Dev.onCmd_peerDec (d : Dev) (f : Cmd → Cmd) : (d.onCmd f).peerDec = d.peerDec := rfl
@[simp] theorem Dev.onCmd_out (d : Dev) (f : Cmd → Cmd) : (d.onCmd f).out = d.out := rfl

/-! ## `onPair` -/

@[simp] theorem Dev.onPair_tick (d : Dev) (f : Pair → Pair) : (d.onPair f).tick = d.tick := rfl
@[simp] theorem Dev.onPair_cycle (d : Dev) (f : Pair → Pair) : (d.onPair f).cycle = d.cycle := rfl
@[simp] theorem Dev.onPair_regs (d : Dev) (f : Pair → Pair) : (d.onPair f).regs = d.regs := rfl
@[simp] theorem Dev.onPair_live (d : Dev) (f : Pair → Pair) : (d.onPair f).live = d.live := rfl
@[simp] theorem Dev.onPair_wide (d : Dev) (f : Pair → Pair) : (d.onPair f).wide = d.wide := rfl
@[simp] theorem Dev.onPair_latch (d : Dev) (f : Pair → Pair) : (d.onPair f).latch = d.latch := rfl
@[simp] theorem Dev.onPair_rdata (d : Dev) (f : Pair → Pair) : (d.onPair f).rdata = d.rdata := rfl
@[simp] theorem Dev.onPair_pendTick (d : Dev) (f : Pair → Pair) : (d.onPair f).pendTick = d.pendTick := rfl
@[simp] theorem Dev.onPair_frameWr (d : Dev) (f : Pair → Pair) : (d.onPair f).frameWr = d.frameWr := rfl
@[simp] theorem Dev.onPair_capGrp (d : Dev) (f : Pair → Pair) : (d.onPair f).capGrp = d.capGrp := rfl
@[simp] theorem Dev.onPair_held (d : Dev) (f : Pair → Pair) : (d.onPair f).held = d.held := rfl
@[simp] theorem Dev.onPair_agenda (d : Dev) (f : Pair → Pair) : (d.onPair f).agenda = d.agenda := rfl
@[simp] theorem Dev.onPair_flt (d : Dev) (f : Pair → Pair) : (d.onPair f).flt = d.flt := rfl
@[simp] theorem Dev.onPair_evt (d : Dev) (f : Pair → Pair) : (d.onPair f).evt = d.evt := rfl
@[simp] theorem Dev.onPair_bbx (d : Dev) (f : Pair → Pair) : (d.onPair f).bbx = d.bbx := rfl
@[simp] theorem Dev.onPair_thm (d : Dev) (f : Pair → Pair) : (d.onPair f).thm = d.thm := rfl
@[simp] theorem Dev.onPair_ctrlRst (d : Dev) (f : Pair → Pair) : (d.onPair f).ctrlRst = d.ctrlRst := rfl
@[simp] theorem Dev.onPair_mgmtRst (d : Dev) (f : Pair → Pair) : (d.onPair f).mgmtRst = d.mgmtRst := rfl
@[simp] theorem Dev.onPair_inReset (d : Dev) (f : Pair → Pair) : (d.onPair f).inReset = d.inReset := rfl
@[simp] theorem Dev.onPair_eng (d : Dev) (f : Pair → Pair) : (d.onPair f).eng = d.eng := rfl
@[simp] theorem Dev.onPair_ldr (d : Dev) (f : Pair → Pair) : (d.onPair f).ldr = d.ldr := rfl
@[simp] theorem Dev.onPair_pcie (d : Dev) (f : Pair → Pair) : (d.onPair f).pcie = d.pcie := rfl
@[simp] theorem Dev.onPair_testMode (d : Dev) (f : Pair → Pair) : (d.onPair f).testMode = d.testMode := rfl
@[simp] theorem Dev.onPair_cvuSeen (d : Dev) (f : Pair → Pair) : (d.onPair f).cvuSeen = d.cvuSeen := rfl
@[simp] theorem Dev.onPair_tdm (d : Dev) (f : Pair → Pair) : (d.onPair f).tdm = d.tdm := rfl
@[simp] theorem Dev.onPair_dec (d : Dev) (f : Pair → Pair) : (d.onPair f).dec = d.dec := rfl
@[simp] theorem Dev.onPair_pdmOn (d : Dev) (f : Pair → Pair) : (d.onPair f).pdmOn = d.pdmOn := rfl
@[simp] theorem Dev.onPair_clipM (d : Dev) (f : Pair → Pair) : (d.onPair f).clipM = d.clipM := rfl
@[simp] theorem Dev.onPair_mclk (d : Dev) (f : Pair → Pair) : (d.onPair f).mclk = d.mclk := rfl
@[simp] theorem Dev.onPair_mod (d : Dev) (f : Pair → Pair) : (d.onPair f).mod = d.mod := rfl
@[simp] theorem Dev.onPair_sns (d : Dev) (f : Pair → Pair) : (d.onPair f).sns = d.sns := rfl
@[simp] theorem Dev.onPair_snsOn (d : Dev) (f : Pair → Pair) : (d.onPair f).snsOn = d.snsOn := rfl
@[simp] theorem Dev.onPair_clk (d : Dev) (f : Pair → Pair) : (d.onPair f).clk = d.clk := rfl
@[simp] theorem Dev.onPair_time (d : Dev) (f : Pair → Pair) : (d.onPair f).time = d.time := rfl
@[simp] theorem Dev.onPair_mac (d : Dev) (f : Pair → Pair) : (d.onPair f).mac = d.mac := rfl
@[simp] theorem Dev.onPair_bus (d : Dev) (f : Pair → Pair) : (d.onPair f).bus = d.bus := rfl
@[simp] theorem Dev.onPair_mdioRd (d : Dev) (f : Pair → Pair) : (d.onPair f).mdioRd = d.mdioRd := rfl
@[simp] theorem Dev.onPair_strm (d : Dev) (f : Pair → Pair) : (d.onPair f).strm = d.strm := rfl
@[simp] theorem Dev.onPair_ddr (d : Dev) (f : Pair → Pair) : (d.onPair f).ddr = d.ddr := rfl
@[simp] theorem Dev.onPair_gln (d : Dev) (f : Pair → Pair) : (d.onPair f).gln = d.gln := rfl
@[simp] theorem Dev.onPair_outsZ (d : Dev) (f : Pair → Pair) : (d.onPair f).outsZ = d.outsZ := rfl
@[simp] theorem Dev.onPair_begun (d : Dev) (f : Pair → Pair) : (d.onPair f).begun = d.begun := rfl
@[simp] theorem Dev.onPair_cvuOn (d : Dev) (f : Pair → Pair) : (d.onPair f).cvuOn = d.cvuOn := rfl
@[simp] theorem Dev.onPair_free (d : Dev) (f : Pair → Pair) : (d.onPair f).free = d.free := rfl
@[simp] theorem Dev.onPair_cmd (d : Dev) (f : Pair → Pair) : (d.onPair f).cmd = d.cmd := rfl
@[simp] theorem Dev.onPair_boot (d : Dev) (f : Pair → Pair) : (d.onPair f).boot = d.boot := rfl
@[simp] theorem Dev.onPair_replayT (d : Dev) (f : Pair → Pair) : (d.onPair f).replayT = d.replayT := rfl
@[simp] theorem Dev.onPair_peerDec (d : Dev) (f : Pair → Pair) : (d.onPair f).peerDec = d.peerDec := rfl
@[simp] theorem Dev.onPair_out (d : Dev) (f : Pair → Pair) : (d.onPair f).out = d.out := rfl

/-! ## `onGln` -/

@[simp] theorem Dev.onGln_tick (d : Dev) (f : Gln → Gln) : (d.onGln f).tick = d.tick := rfl
@[simp] theorem Dev.onGln_cycle (d : Dev) (f : Gln → Gln) : (d.onGln f).cycle = d.cycle := rfl
@[simp] theorem Dev.onGln_regs (d : Dev) (f : Gln → Gln) : (d.onGln f).regs = d.regs := rfl
@[simp] theorem Dev.onGln_live (d : Dev) (f : Gln → Gln) : (d.onGln f).live = d.live := rfl
@[simp] theorem Dev.onGln_wide (d : Dev) (f : Gln → Gln) : (d.onGln f).wide = d.wide := rfl
@[simp] theorem Dev.onGln_latch (d : Dev) (f : Gln → Gln) : (d.onGln f).latch = d.latch := rfl
@[simp] theorem Dev.onGln_rdata (d : Dev) (f : Gln → Gln) : (d.onGln f).rdata = d.rdata := rfl
@[simp] theorem Dev.onGln_pendTick (d : Dev) (f : Gln → Gln) : (d.onGln f).pendTick = d.pendTick := rfl
@[simp] theorem Dev.onGln_frameWr (d : Dev) (f : Gln → Gln) : (d.onGln f).frameWr = d.frameWr := rfl
@[simp] theorem Dev.onGln_capGrp (d : Dev) (f : Gln → Gln) : (d.onGln f).capGrp = d.capGrp := rfl
@[simp] theorem Dev.onGln_held (d : Dev) (f : Gln → Gln) : (d.onGln f).held = d.held := rfl
@[simp] theorem Dev.onGln_agenda (d : Dev) (f : Gln → Gln) : (d.onGln f).agenda = d.agenda := rfl
@[simp] theorem Dev.onGln_flt (d : Dev) (f : Gln → Gln) : (d.onGln f).flt = d.flt := rfl
@[simp] theorem Dev.onGln_evt (d : Dev) (f : Gln → Gln) : (d.onGln f).evt = d.evt := rfl
@[simp] theorem Dev.onGln_bbx (d : Dev) (f : Gln → Gln) : (d.onGln f).bbx = d.bbx := rfl
@[simp] theorem Dev.onGln_thm (d : Dev) (f : Gln → Gln) : (d.onGln f).thm = d.thm := rfl
@[simp] theorem Dev.onGln_ctrlRst (d : Dev) (f : Gln → Gln) : (d.onGln f).ctrlRst = d.ctrlRst := rfl
@[simp] theorem Dev.onGln_mgmtRst (d : Dev) (f : Gln → Gln) : (d.onGln f).mgmtRst = d.mgmtRst := rfl
@[simp] theorem Dev.onGln_inReset (d : Dev) (f : Gln → Gln) : (d.onGln f).inReset = d.inReset := rfl
@[simp] theorem Dev.onGln_eng (d : Dev) (f : Gln → Gln) : (d.onGln f).eng = d.eng := rfl
@[simp] theorem Dev.onGln_ldr (d : Dev) (f : Gln → Gln) : (d.onGln f).ldr = d.ldr := rfl
@[simp] theorem Dev.onGln_pcie (d : Dev) (f : Gln → Gln) : (d.onGln f).pcie = d.pcie := rfl
@[simp] theorem Dev.onGln_testMode (d : Dev) (f : Gln → Gln) : (d.onGln f).testMode = d.testMode := rfl
@[simp] theorem Dev.onGln_cvuSeen (d : Dev) (f : Gln → Gln) : (d.onGln f).cvuSeen = d.cvuSeen := rfl
@[simp] theorem Dev.onGln_tdm (d : Dev) (f : Gln → Gln) : (d.onGln f).tdm = d.tdm := rfl
@[simp] theorem Dev.onGln_dec (d : Dev) (f : Gln → Gln) : (d.onGln f).dec = d.dec := rfl
@[simp] theorem Dev.onGln_pdmOn (d : Dev) (f : Gln → Gln) : (d.onGln f).pdmOn = d.pdmOn := rfl
@[simp] theorem Dev.onGln_clipM (d : Dev) (f : Gln → Gln) : (d.onGln f).clipM = d.clipM := rfl
@[simp] theorem Dev.onGln_mclk (d : Dev) (f : Gln → Gln) : (d.onGln f).mclk = d.mclk := rfl
@[simp] theorem Dev.onGln_mod (d : Dev) (f : Gln → Gln) : (d.onGln f).mod = d.mod := rfl
@[simp] theorem Dev.onGln_sns (d : Dev) (f : Gln → Gln) : (d.onGln f).sns = d.sns := rfl
@[simp] theorem Dev.onGln_snsOn (d : Dev) (f : Gln → Gln) : (d.onGln f).snsOn = d.snsOn := rfl
@[simp] theorem Dev.onGln_clk (d : Dev) (f : Gln → Gln) : (d.onGln f).clk = d.clk := rfl
@[simp] theorem Dev.onGln_time (d : Dev) (f : Gln → Gln) : (d.onGln f).time = d.time := rfl
@[simp] theorem Dev.onGln_mac (d : Dev) (f : Gln → Gln) : (d.onGln f).mac = d.mac := rfl
@[simp] theorem Dev.onGln_bus (d : Dev) (f : Gln → Gln) : (d.onGln f).bus = d.bus := rfl
@[simp] theorem Dev.onGln_mdioRd (d : Dev) (f : Gln → Gln) : (d.onGln f).mdioRd = d.mdioRd := rfl
@[simp] theorem Dev.onGln_strm (d : Dev) (f : Gln → Gln) : (d.onGln f).strm = d.strm := rfl
@[simp] theorem Dev.onGln_ddr (d : Dev) (f : Gln → Gln) : (d.onGln f).ddr = d.ddr := rfl
@[simp] theorem Dev.onGln_outsZ (d : Dev) (f : Gln → Gln) : (d.onGln f).outsZ = d.outsZ := rfl
@[simp] theorem Dev.onGln_begun (d : Dev) (f : Gln → Gln) : (d.onGln f).begun = d.begun := rfl
@[simp] theorem Dev.onGln_cvuOn (d : Dev) (f : Gln → Gln) : (d.onGln f).cvuOn = d.cvuOn := rfl
@[simp] theorem Dev.onGln_free (d : Dev) (f : Gln → Gln) : (d.onGln f).free = d.free := rfl
@[simp] theorem Dev.onGln_pair (d : Dev) (f : Gln → Gln) : (d.onGln f).pair = d.pair := rfl
@[simp] theorem Dev.onGln_cmd (d : Dev) (f : Gln → Gln) : (d.onGln f).cmd = d.cmd := rfl
@[simp] theorem Dev.onGln_boot (d : Dev) (f : Gln → Gln) : (d.onGln f).boot = d.boot := rfl
@[simp] theorem Dev.onGln_replayT (d : Dev) (f : Gln → Gln) : (d.onGln f).replayT = d.replayT := rfl
@[simp] theorem Dev.onGln_peerDec (d : Dev) (f : Gln → Gln) : (d.onGln f).peerDec = d.peerDec := rfl
@[simp] theorem Dev.onGln_out (d : Dev) (f : Gln → Gln) : (d.onGln f).out = d.out := rfl

/-! ## `onMac` -/

@[simp] theorem Dev.onMac_tick (d : Dev) (p : Nat) (f : MacPort → MacPort) : (d.onMac p f).tick = d.tick := rfl
@[simp] theorem Dev.onMac_cycle (d : Dev) (p : Nat) (f : MacPort → MacPort) : (d.onMac p f).cycle = d.cycle := rfl
@[simp] theorem Dev.onMac_regs (d : Dev) (p : Nat) (f : MacPort → MacPort) : (d.onMac p f).regs = d.regs := rfl
@[simp] theorem Dev.onMac_live (d : Dev) (p : Nat) (f : MacPort → MacPort) : (d.onMac p f).live = d.live := rfl
@[simp] theorem Dev.onMac_wide (d : Dev) (p : Nat) (f : MacPort → MacPort) : (d.onMac p f).wide = d.wide := rfl
@[simp] theorem Dev.onMac_latch (d : Dev) (p : Nat) (f : MacPort → MacPort) : (d.onMac p f).latch = d.latch := rfl
@[simp] theorem Dev.onMac_rdata (d : Dev) (p : Nat) (f : MacPort → MacPort) : (d.onMac p f).rdata = d.rdata := rfl
@[simp] theorem Dev.onMac_pendTick (d : Dev) (p : Nat) (f : MacPort → MacPort) : (d.onMac p f).pendTick = d.pendTick := rfl
@[simp] theorem Dev.onMac_frameWr (d : Dev) (p : Nat) (f : MacPort → MacPort) : (d.onMac p f).frameWr = d.frameWr := rfl
@[simp] theorem Dev.onMac_capGrp (d : Dev) (p : Nat) (f : MacPort → MacPort) : (d.onMac p f).capGrp = d.capGrp := rfl
@[simp] theorem Dev.onMac_held (d : Dev) (p : Nat) (f : MacPort → MacPort) : (d.onMac p f).held = d.held := rfl
@[simp] theorem Dev.onMac_agenda (d : Dev) (p : Nat) (f : MacPort → MacPort) : (d.onMac p f).agenda = d.agenda := rfl
@[simp] theorem Dev.onMac_flt (d : Dev) (p : Nat) (f : MacPort → MacPort) : (d.onMac p f).flt = d.flt := rfl
@[simp] theorem Dev.onMac_evt (d : Dev) (p : Nat) (f : MacPort → MacPort) : (d.onMac p f).evt = d.evt := rfl
@[simp] theorem Dev.onMac_bbx (d : Dev) (p : Nat) (f : MacPort → MacPort) : (d.onMac p f).bbx = d.bbx := rfl
@[simp] theorem Dev.onMac_thm (d : Dev) (p : Nat) (f : MacPort → MacPort) : (d.onMac p f).thm = d.thm := rfl
@[simp] theorem Dev.onMac_ctrlRst (d : Dev) (p : Nat) (f : MacPort → MacPort) : (d.onMac p f).ctrlRst = d.ctrlRst := rfl
@[simp] theorem Dev.onMac_mgmtRst (d : Dev) (p : Nat) (f : MacPort → MacPort) : (d.onMac p f).mgmtRst = d.mgmtRst := rfl
@[simp] theorem Dev.onMac_inReset (d : Dev) (p : Nat) (f : MacPort → MacPort) : (d.onMac p f).inReset = d.inReset := rfl
@[simp] theorem Dev.onMac_eng (d : Dev) (p : Nat) (f : MacPort → MacPort) : (d.onMac p f).eng = d.eng := rfl
@[simp] theorem Dev.onMac_ldr (d : Dev) (p : Nat) (f : MacPort → MacPort) : (d.onMac p f).ldr = d.ldr := rfl
@[simp] theorem Dev.onMac_pcie (d : Dev) (p : Nat) (f : MacPort → MacPort) : (d.onMac p f).pcie = d.pcie := rfl
@[simp] theorem Dev.onMac_testMode (d : Dev) (p : Nat) (f : MacPort → MacPort) : (d.onMac p f).testMode = d.testMode := rfl
@[simp] theorem Dev.onMac_cvuSeen (d : Dev) (p : Nat) (f : MacPort → MacPort) : (d.onMac p f).cvuSeen = d.cvuSeen := rfl
@[simp] theorem Dev.onMac_tdm (d : Dev) (p : Nat) (f : MacPort → MacPort) : (d.onMac p f).tdm = d.tdm := rfl
@[simp] theorem Dev.onMac_dec (d : Dev) (p : Nat) (f : MacPort → MacPort) : (d.onMac p f).dec = d.dec := rfl
@[simp] theorem Dev.onMac_pdmOn (d : Dev) (p : Nat) (f : MacPort → MacPort) : (d.onMac p f).pdmOn = d.pdmOn := rfl
@[simp] theorem Dev.onMac_clipM (d : Dev) (p : Nat) (f : MacPort → MacPort) : (d.onMac p f).clipM = d.clipM := rfl
@[simp] theorem Dev.onMac_mclk (d : Dev) (p : Nat) (f : MacPort → MacPort) : (d.onMac p f).mclk = d.mclk := rfl
@[simp] theorem Dev.onMac_mod (d : Dev) (p : Nat) (f : MacPort → MacPort) : (d.onMac p f).mod = d.mod := rfl
@[simp] theorem Dev.onMac_sns (d : Dev) (p : Nat) (f : MacPort → MacPort) : (d.onMac p f).sns = d.sns := rfl
@[simp] theorem Dev.onMac_snsOn (d : Dev) (p : Nat) (f : MacPort → MacPort) : (d.onMac p f).snsOn = d.snsOn := rfl
@[simp] theorem Dev.onMac_clk (d : Dev) (p : Nat) (f : MacPort → MacPort) : (d.onMac p f).clk = d.clk := rfl
@[simp] theorem Dev.onMac_time (d : Dev) (p : Nat) (f : MacPort → MacPort) : (d.onMac p f).time = d.time := rfl
@[simp] theorem Dev.onMac_bus (d : Dev) (p : Nat) (f : MacPort → MacPort) : (d.onMac p f).bus = d.bus := rfl
@[simp] theorem Dev.onMac_mdioRd (d : Dev) (p : Nat) (f : MacPort → MacPort) : (d.onMac p f).mdioRd = d.mdioRd := rfl
@[simp] theorem Dev.onMac_strm (d : Dev) (p : Nat) (f : MacPort → MacPort) : (d.onMac p f).strm = d.strm := rfl
@[simp] theorem Dev.onMac_ddr (d : Dev) (p : Nat) (f : MacPort → MacPort) : (d.onMac p f).ddr = d.ddr := rfl
@[simp] theorem Dev.onMac_gln (d : Dev) (p : Nat) (f : MacPort → MacPort) : (d.onMac p f).gln = d.gln := rfl
@[simp] theorem Dev.onMac_outsZ (d : Dev) (p : Nat) (f : MacPort → MacPort) : (d.onMac p f).outsZ = d.outsZ := rfl
@[simp] theorem Dev.onMac_begun (d : Dev) (p : Nat) (f : MacPort → MacPort) : (d.onMac p f).begun = d.begun := rfl
@[simp] theorem Dev.onMac_cvuOn (d : Dev) (p : Nat) (f : MacPort → MacPort) : (d.onMac p f).cvuOn = d.cvuOn := rfl
@[simp] theorem Dev.onMac_free (d : Dev) (p : Nat) (f : MacPort → MacPort) : (d.onMac p f).free = d.free := rfl
@[simp] theorem Dev.onMac_pair (d : Dev) (p : Nat) (f : MacPort → MacPort) : (d.onMac p f).pair = d.pair := rfl
@[simp] theorem Dev.onMac_cmd (d : Dev) (p : Nat) (f : MacPort → MacPort) : (d.onMac p f).cmd = d.cmd := rfl
@[simp] theorem Dev.onMac_boot (d : Dev) (p : Nat) (f : MacPort → MacPort) : (d.onMac p f).boot = d.boot := rfl
@[simp] theorem Dev.onMac_replayT (d : Dev) (p : Nat) (f : MacPort → MacPort) : (d.onMac p f).replayT = d.replayT := rfl
@[simp] theorem Dev.onMac_peerDec (d : Dev) (p : Nat) (f : MacPort → MacPort) : (d.onMac p f).peerDec = d.peerDec := rfl
@[simp] theorem Dev.onMac_out (d : Dev) (p : Nat) (f : MacPort → MacPort) : (d.onMac p f).out = d.out := rfl

/-! ## `onTdm` -/

@[simp] theorem Dev.onTdm_tick (d : Dev) (p : Nat) (f : TdmPort → TdmPort) : (d.onTdm p f).tick = d.tick := rfl
@[simp] theorem Dev.onTdm_cycle (d : Dev) (p : Nat) (f : TdmPort → TdmPort) : (d.onTdm p f).cycle = d.cycle := rfl
@[simp] theorem Dev.onTdm_regs (d : Dev) (p : Nat) (f : TdmPort → TdmPort) : (d.onTdm p f).regs = d.regs := rfl
@[simp] theorem Dev.onTdm_live (d : Dev) (p : Nat) (f : TdmPort → TdmPort) : (d.onTdm p f).live = d.live := rfl
@[simp] theorem Dev.onTdm_wide (d : Dev) (p : Nat) (f : TdmPort → TdmPort) : (d.onTdm p f).wide = d.wide := rfl
@[simp] theorem Dev.onTdm_latch (d : Dev) (p : Nat) (f : TdmPort → TdmPort) : (d.onTdm p f).latch = d.latch := rfl
@[simp] theorem Dev.onTdm_rdata (d : Dev) (p : Nat) (f : TdmPort → TdmPort) : (d.onTdm p f).rdata = d.rdata := rfl
@[simp] theorem Dev.onTdm_pendTick (d : Dev) (p : Nat) (f : TdmPort → TdmPort) : (d.onTdm p f).pendTick = d.pendTick := rfl
@[simp] theorem Dev.onTdm_frameWr (d : Dev) (p : Nat) (f : TdmPort → TdmPort) : (d.onTdm p f).frameWr = d.frameWr := rfl
@[simp] theorem Dev.onTdm_capGrp (d : Dev) (p : Nat) (f : TdmPort → TdmPort) : (d.onTdm p f).capGrp = d.capGrp := rfl
@[simp] theorem Dev.onTdm_held (d : Dev) (p : Nat) (f : TdmPort → TdmPort) : (d.onTdm p f).held = d.held := rfl
@[simp] theorem Dev.onTdm_agenda (d : Dev) (p : Nat) (f : TdmPort → TdmPort) : (d.onTdm p f).agenda = d.agenda := rfl
@[simp] theorem Dev.onTdm_flt (d : Dev) (p : Nat) (f : TdmPort → TdmPort) : (d.onTdm p f).flt = d.flt := rfl
@[simp] theorem Dev.onTdm_evt (d : Dev) (p : Nat) (f : TdmPort → TdmPort) : (d.onTdm p f).evt = d.evt := rfl
@[simp] theorem Dev.onTdm_bbx (d : Dev) (p : Nat) (f : TdmPort → TdmPort) : (d.onTdm p f).bbx = d.bbx := rfl
@[simp] theorem Dev.onTdm_thm (d : Dev) (p : Nat) (f : TdmPort → TdmPort) : (d.onTdm p f).thm = d.thm := rfl
@[simp] theorem Dev.onTdm_ctrlRst (d : Dev) (p : Nat) (f : TdmPort → TdmPort) : (d.onTdm p f).ctrlRst = d.ctrlRst := rfl
@[simp] theorem Dev.onTdm_mgmtRst (d : Dev) (p : Nat) (f : TdmPort → TdmPort) : (d.onTdm p f).mgmtRst = d.mgmtRst := rfl
@[simp] theorem Dev.onTdm_inReset (d : Dev) (p : Nat) (f : TdmPort → TdmPort) : (d.onTdm p f).inReset = d.inReset := rfl
@[simp] theorem Dev.onTdm_eng (d : Dev) (p : Nat) (f : TdmPort → TdmPort) : (d.onTdm p f).eng = d.eng := rfl
@[simp] theorem Dev.onTdm_ldr (d : Dev) (p : Nat) (f : TdmPort → TdmPort) : (d.onTdm p f).ldr = d.ldr := rfl
@[simp] theorem Dev.onTdm_pcie (d : Dev) (p : Nat) (f : TdmPort → TdmPort) : (d.onTdm p f).pcie = d.pcie := rfl
@[simp] theorem Dev.onTdm_testMode (d : Dev) (p : Nat) (f : TdmPort → TdmPort) : (d.onTdm p f).testMode = d.testMode := rfl
@[simp] theorem Dev.onTdm_cvuSeen (d : Dev) (p : Nat) (f : TdmPort → TdmPort) : (d.onTdm p f).cvuSeen = d.cvuSeen := rfl
@[simp] theorem Dev.onTdm_dec (d : Dev) (p : Nat) (f : TdmPort → TdmPort) : (d.onTdm p f).dec = d.dec := rfl
@[simp] theorem Dev.onTdm_pdmOn (d : Dev) (p : Nat) (f : TdmPort → TdmPort) : (d.onTdm p f).pdmOn = d.pdmOn := rfl
@[simp] theorem Dev.onTdm_clipM (d : Dev) (p : Nat) (f : TdmPort → TdmPort) : (d.onTdm p f).clipM = d.clipM := rfl
@[simp] theorem Dev.onTdm_mclk (d : Dev) (p : Nat) (f : TdmPort → TdmPort) : (d.onTdm p f).mclk = d.mclk := rfl
@[simp] theorem Dev.onTdm_mod (d : Dev) (p : Nat) (f : TdmPort → TdmPort) : (d.onTdm p f).mod = d.mod := rfl
@[simp] theorem Dev.onTdm_sns (d : Dev) (p : Nat) (f : TdmPort → TdmPort) : (d.onTdm p f).sns = d.sns := rfl
@[simp] theorem Dev.onTdm_snsOn (d : Dev) (p : Nat) (f : TdmPort → TdmPort) : (d.onTdm p f).snsOn = d.snsOn := rfl
@[simp] theorem Dev.onTdm_clk (d : Dev) (p : Nat) (f : TdmPort → TdmPort) : (d.onTdm p f).clk = d.clk := rfl
@[simp] theorem Dev.onTdm_time (d : Dev) (p : Nat) (f : TdmPort → TdmPort) : (d.onTdm p f).time = d.time := rfl
@[simp] theorem Dev.onTdm_mac (d : Dev) (p : Nat) (f : TdmPort → TdmPort) : (d.onTdm p f).mac = d.mac := rfl
@[simp] theorem Dev.onTdm_bus (d : Dev) (p : Nat) (f : TdmPort → TdmPort) : (d.onTdm p f).bus = d.bus := rfl
@[simp] theorem Dev.onTdm_mdioRd (d : Dev) (p : Nat) (f : TdmPort → TdmPort) : (d.onTdm p f).mdioRd = d.mdioRd := rfl
@[simp] theorem Dev.onTdm_strm (d : Dev) (p : Nat) (f : TdmPort → TdmPort) : (d.onTdm p f).strm = d.strm := rfl
@[simp] theorem Dev.onTdm_ddr (d : Dev) (p : Nat) (f : TdmPort → TdmPort) : (d.onTdm p f).ddr = d.ddr := rfl
@[simp] theorem Dev.onTdm_gln (d : Dev) (p : Nat) (f : TdmPort → TdmPort) : (d.onTdm p f).gln = d.gln := rfl
@[simp] theorem Dev.onTdm_outsZ (d : Dev) (p : Nat) (f : TdmPort → TdmPort) : (d.onTdm p f).outsZ = d.outsZ := rfl
@[simp] theorem Dev.onTdm_begun (d : Dev) (p : Nat) (f : TdmPort → TdmPort) : (d.onTdm p f).begun = d.begun := rfl
@[simp] theorem Dev.onTdm_cvuOn (d : Dev) (p : Nat) (f : TdmPort → TdmPort) : (d.onTdm p f).cvuOn = d.cvuOn := rfl
@[simp] theorem Dev.onTdm_free (d : Dev) (p : Nat) (f : TdmPort → TdmPort) : (d.onTdm p f).free = d.free := rfl
@[simp] theorem Dev.onTdm_pair (d : Dev) (p : Nat) (f : TdmPort → TdmPort) : (d.onTdm p f).pair = d.pair := rfl
@[simp] theorem Dev.onTdm_cmd (d : Dev) (p : Nat) (f : TdmPort → TdmPort) : (d.onTdm p f).cmd = d.cmd := rfl
@[simp] theorem Dev.onTdm_boot (d : Dev) (p : Nat) (f : TdmPort → TdmPort) : (d.onTdm p f).boot = d.boot := rfl
@[simp] theorem Dev.onTdm_replayT (d : Dev) (p : Nat) (f : TdmPort → TdmPort) : (d.onTdm p f).replayT = d.replayT := rfl
@[simp] theorem Dev.onTdm_peerDec (d : Dev) (p : Nat) (f : TdmPort → TdmPort) : (d.onTdm p f).peerDec = d.peerDec := rfl
@[simp] theorem Dev.onTdm_out (d : Dev) (p : Nat) (f : TdmPort → TdmPort) : (d.onTdm p f).out = d.out := rfl

/-! ## `onRx` -/

@[simp] theorem Dev.onRx_tick (d : Dev) (c : Nat) (f : RxCtx → RxCtx) : (d.onRx c f).tick = d.tick := rfl
@[simp] theorem Dev.onRx_cycle (d : Dev) (c : Nat) (f : RxCtx → RxCtx) : (d.onRx c f).cycle = d.cycle := rfl
@[simp] theorem Dev.onRx_regs (d : Dev) (c : Nat) (f : RxCtx → RxCtx) : (d.onRx c f).regs = d.regs := rfl
@[simp] theorem Dev.onRx_live (d : Dev) (c : Nat) (f : RxCtx → RxCtx) : (d.onRx c f).live = d.live := rfl
@[simp] theorem Dev.onRx_wide (d : Dev) (c : Nat) (f : RxCtx → RxCtx) : (d.onRx c f).wide = d.wide := rfl
@[simp] theorem Dev.onRx_latch (d : Dev) (c : Nat) (f : RxCtx → RxCtx) : (d.onRx c f).latch = d.latch := rfl
@[simp] theorem Dev.onRx_rdata (d : Dev) (c : Nat) (f : RxCtx → RxCtx) : (d.onRx c f).rdata = d.rdata := rfl
@[simp] theorem Dev.onRx_pendTick (d : Dev) (c : Nat) (f : RxCtx → RxCtx) : (d.onRx c f).pendTick = d.pendTick := rfl
@[simp] theorem Dev.onRx_frameWr (d : Dev) (c : Nat) (f : RxCtx → RxCtx) : (d.onRx c f).frameWr = d.frameWr := rfl
@[simp] theorem Dev.onRx_capGrp (d : Dev) (c : Nat) (f : RxCtx → RxCtx) : (d.onRx c f).capGrp = d.capGrp := rfl
@[simp] theorem Dev.onRx_held (d : Dev) (c : Nat) (f : RxCtx → RxCtx) : (d.onRx c f).held = d.held := rfl
@[simp] theorem Dev.onRx_agenda (d : Dev) (c : Nat) (f : RxCtx → RxCtx) : (d.onRx c f).agenda = d.agenda := rfl
@[simp] theorem Dev.onRx_flt (d : Dev) (c : Nat) (f : RxCtx → RxCtx) : (d.onRx c f).flt = d.flt := rfl
@[simp] theorem Dev.onRx_evt (d : Dev) (c : Nat) (f : RxCtx → RxCtx) : (d.onRx c f).evt = d.evt := rfl
@[simp] theorem Dev.onRx_bbx (d : Dev) (c : Nat) (f : RxCtx → RxCtx) : (d.onRx c f).bbx = d.bbx := rfl
@[simp] theorem Dev.onRx_thm (d : Dev) (c : Nat) (f : RxCtx → RxCtx) : (d.onRx c f).thm = d.thm := rfl
@[simp] theorem Dev.onRx_ctrlRst (d : Dev) (c : Nat) (f : RxCtx → RxCtx) : (d.onRx c f).ctrlRst = d.ctrlRst := rfl
@[simp] theorem Dev.onRx_mgmtRst (d : Dev) (c : Nat) (f : RxCtx → RxCtx) : (d.onRx c f).mgmtRst = d.mgmtRst := rfl
@[simp] theorem Dev.onRx_inReset (d : Dev) (c : Nat) (f : RxCtx → RxCtx) : (d.onRx c f).inReset = d.inReset := rfl
@[simp] theorem Dev.onRx_eng (d : Dev) (c : Nat) (f : RxCtx → RxCtx) : (d.onRx c f).eng = d.eng := rfl
@[simp] theorem Dev.onRx_ldr (d : Dev) (c : Nat) (f : RxCtx → RxCtx) : (d.onRx c f).ldr = d.ldr := rfl
@[simp] theorem Dev.onRx_pcie (d : Dev) (c : Nat) (f : RxCtx → RxCtx) : (d.onRx c f).pcie = d.pcie := rfl
@[simp] theorem Dev.onRx_testMode (d : Dev) (c : Nat) (f : RxCtx → RxCtx) : (d.onRx c f).testMode = d.testMode := rfl
@[simp] theorem Dev.onRx_cvuSeen (d : Dev) (c : Nat) (f : RxCtx → RxCtx) : (d.onRx c f).cvuSeen = d.cvuSeen := rfl
@[simp] theorem Dev.onRx_tdm (d : Dev) (c : Nat) (f : RxCtx → RxCtx) : (d.onRx c f).tdm = d.tdm := rfl
@[simp] theorem Dev.onRx_dec (d : Dev) (c : Nat) (f : RxCtx → RxCtx) : (d.onRx c f).dec = d.dec := rfl
@[simp] theorem Dev.onRx_pdmOn (d : Dev) (c : Nat) (f : RxCtx → RxCtx) : (d.onRx c f).pdmOn = d.pdmOn := rfl
@[simp] theorem Dev.onRx_clipM (d : Dev) (c : Nat) (f : RxCtx → RxCtx) : (d.onRx c f).clipM = d.clipM := rfl
@[simp] theorem Dev.onRx_mclk (d : Dev) (c : Nat) (f : RxCtx → RxCtx) : (d.onRx c f).mclk = d.mclk := rfl
@[simp] theorem Dev.onRx_mod (d : Dev) (c : Nat) (f : RxCtx → RxCtx) : (d.onRx c f).mod = d.mod := rfl
@[simp] theorem Dev.onRx_sns (d : Dev) (c : Nat) (f : RxCtx → RxCtx) : (d.onRx c f).sns = d.sns := rfl
@[simp] theorem Dev.onRx_snsOn (d : Dev) (c : Nat) (f : RxCtx → RxCtx) : (d.onRx c f).snsOn = d.snsOn := rfl
@[simp] theorem Dev.onRx_clk (d : Dev) (c : Nat) (f : RxCtx → RxCtx) : (d.onRx c f).clk = d.clk := rfl
@[simp] theorem Dev.onRx_time (d : Dev) (c : Nat) (f : RxCtx → RxCtx) : (d.onRx c f).time = d.time := rfl
@[simp] theorem Dev.onRx_mac (d : Dev) (c : Nat) (f : RxCtx → RxCtx) : (d.onRx c f).mac = d.mac := rfl
@[simp] theorem Dev.onRx_bus (d : Dev) (c : Nat) (f : RxCtx → RxCtx) : (d.onRx c f).bus = d.bus := rfl
@[simp] theorem Dev.onRx_mdioRd (d : Dev) (c : Nat) (f : RxCtx → RxCtx) : (d.onRx c f).mdioRd = d.mdioRd := rfl
@[simp] theorem Dev.onRx_ddr (d : Dev) (c : Nat) (f : RxCtx → RxCtx) : (d.onRx c f).ddr = d.ddr := rfl
@[simp] theorem Dev.onRx_gln (d : Dev) (c : Nat) (f : RxCtx → RxCtx) : (d.onRx c f).gln = d.gln := rfl
@[simp] theorem Dev.onRx_outsZ (d : Dev) (c : Nat) (f : RxCtx → RxCtx) : (d.onRx c f).outsZ = d.outsZ := rfl
@[simp] theorem Dev.onRx_begun (d : Dev) (c : Nat) (f : RxCtx → RxCtx) : (d.onRx c f).begun = d.begun := rfl
@[simp] theorem Dev.onRx_cvuOn (d : Dev) (c : Nat) (f : RxCtx → RxCtx) : (d.onRx c f).cvuOn = d.cvuOn := rfl
@[simp] theorem Dev.onRx_free (d : Dev) (c : Nat) (f : RxCtx → RxCtx) : (d.onRx c f).free = d.free := rfl
@[simp] theorem Dev.onRx_pair (d : Dev) (c : Nat) (f : RxCtx → RxCtx) : (d.onRx c f).pair = d.pair := rfl
@[simp] theorem Dev.onRx_cmd (d : Dev) (c : Nat) (f : RxCtx → RxCtx) : (d.onRx c f).cmd = d.cmd := rfl
@[simp] theorem Dev.onRx_boot (d : Dev) (c : Nat) (f : RxCtx → RxCtx) : (d.onRx c f).boot = d.boot := rfl
@[simp] theorem Dev.onRx_replayT (d : Dev) (c : Nat) (f : RxCtx → RxCtx) : (d.onRx c f).replayT = d.replayT := rfl
@[simp] theorem Dev.onRx_peerDec (d : Dev) (c : Nat) (f : RxCtx → RxCtx) : (d.onRx c f).peerDec = d.peerDec := rfl
@[simp] theorem Dev.onRx_out (d : Dev) (c : Nat) (f : RxCtx → RxCtx) : (d.onRx c f).out = d.out := rfl

/-! ## `onEvt` -/

@[simp] theorem Dev.onEvt_tick (d : Dev) (f : Evt → Evt) : (d.onEvt f).tick = d.tick := rfl
@[simp] theorem Dev.onEvt_cycle (d : Dev) (f : Evt → Evt) : (d.onEvt f).cycle = d.cycle := rfl
@[simp] theorem Dev.onEvt_regs (d : Dev) (f : Evt → Evt) : (d.onEvt f).regs = d.regs := rfl
@[simp] theorem Dev.onEvt_live (d : Dev) (f : Evt → Evt) : (d.onEvt f).live = d.live := rfl
@[simp] theorem Dev.onEvt_wide (d : Dev) (f : Evt → Evt) : (d.onEvt f).wide = d.wide := rfl
@[simp] theorem Dev.onEvt_latch (d : Dev) (f : Evt → Evt) : (d.onEvt f).latch = d.latch := rfl
@[simp] theorem Dev.onEvt_rdata (d : Dev) (f : Evt → Evt) : (d.onEvt f).rdata = d.rdata := rfl
@[simp] theorem Dev.onEvt_pendTick (d : Dev) (f : Evt → Evt) : (d.onEvt f).pendTick = d.pendTick := rfl
@[simp] theorem Dev.onEvt_frameWr (d : Dev) (f : Evt → Evt) : (d.onEvt f).frameWr = d.frameWr := rfl
@[simp] theorem Dev.onEvt_capGrp (d : Dev) (f : Evt → Evt) : (d.onEvt f).capGrp = d.capGrp := rfl
@[simp] theorem Dev.onEvt_held (d : Dev) (f : Evt → Evt) : (d.onEvt f).held = d.held := rfl
@[simp] theorem Dev.onEvt_agenda (d : Dev) (f : Evt → Evt) : (d.onEvt f).agenda = d.agenda := rfl
@[simp] theorem Dev.onEvt_flt (d : Dev) (f : Evt → Evt) : (d.onEvt f).flt = d.flt := rfl
@[simp] theorem Dev.onEvt_bbx (d : Dev) (f : Evt → Evt) : (d.onEvt f).bbx = d.bbx := rfl
@[simp] theorem Dev.onEvt_thm (d : Dev) (f : Evt → Evt) : (d.onEvt f).thm = d.thm := rfl
@[simp] theorem Dev.onEvt_ctrlRst (d : Dev) (f : Evt → Evt) : (d.onEvt f).ctrlRst = d.ctrlRst := rfl
@[simp] theorem Dev.onEvt_mgmtRst (d : Dev) (f : Evt → Evt) : (d.onEvt f).mgmtRst = d.mgmtRst := rfl
@[simp] theorem Dev.onEvt_inReset (d : Dev) (f : Evt → Evt) : (d.onEvt f).inReset = d.inReset := rfl
@[simp] theorem Dev.onEvt_eng (d : Dev) (f : Evt → Evt) : (d.onEvt f).eng = d.eng := rfl
@[simp] theorem Dev.onEvt_ldr (d : Dev) (f : Evt → Evt) : (d.onEvt f).ldr = d.ldr := rfl
@[simp] theorem Dev.onEvt_pcie (d : Dev) (f : Evt → Evt) : (d.onEvt f).pcie = d.pcie := rfl
@[simp] theorem Dev.onEvt_testMode (d : Dev) (f : Evt → Evt) : (d.onEvt f).testMode = d.testMode := rfl
@[simp] theorem Dev.onEvt_cvuSeen (d : Dev) (f : Evt → Evt) : (d.onEvt f).cvuSeen = d.cvuSeen := rfl
@[simp] theorem Dev.onEvt_tdm (d : Dev) (f : Evt → Evt) : (d.onEvt f).tdm = d.tdm := rfl
@[simp] theorem Dev.onEvt_dec (d : Dev) (f : Evt → Evt) : (d.onEvt f).dec = d.dec := rfl
@[simp] theorem Dev.onEvt_pdmOn (d : Dev) (f : Evt → Evt) : (d.onEvt f).pdmOn = d.pdmOn := rfl
@[simp] theorem Dev.onEvt_clipM (d : Dev) (f : Evt → Evt) : (d.onEvt f).clipM = d.clipM := rfl
@[simp] theorem Dev.onEvt_mclk (d : Dev) (f : Evt → Evt) : (d.onEvt f).mclk = d.mclk := rfl
@[simp] theorem Dev.onEvt_mod (d : Dev) (f : Evt → Evt) : (d.onEvt f).mod = d.mod := rfl
@[simp] theorem Dev.onEvt_sns (d : Dev) (f : Evt → Evt) : (d.onEvt f).sns = d.sns := rfl
@[simp] theorem Dev.onEvt_snsOn (d : Dev) (f : Evt → Evt) : (d.onEvt f).snsOn = d.snsOn := rfl
@[simp] theorem Dev.onEvt_clk (d : Dev) (f : Evt → Evt) : (d.onEvt f).clk = d.clk := rfl
@[simp] theorem Dev.onEvt_time (d : Dev) (f : Evt → Evt) : (d.onEvt f).time = d.time := rfl
@[simp] theorem Dev.onEvt_mac (d : Dev) (f : Evt → Evt) : (d.onEvt f).mac = d.mac := rfl
@[simp] theorem Dev.onEvt_bus (d : Dev) (f : Evt → Evt) : (d.onEvt f).bus = d.bus := rfl
@[simp] theorem Dev.onEvt_mdioRd (d : Dev) (f : Evt → Evt) : (d.onEvt f).mdioRd = d.mdioRd := rfl
@[simp] theorem Dev.onEvt_strm (d : Dev) (f : Evt → Evt) : (d.onEvt f).strm = d.strm := rfl
@[simp] theorem Dev.onEvt_ddr (d : Dev) (f : Evt → Evt) : (d.onEvt f).ddr = d.ddr := rfl
@[simp] theorem Dev.onEvt_gln (d : Dev) (f : Evt → Evt) : (d.onEvt f).gln = d.gln := rfl
@[simp] theorem Dev.onEvt_outsZ (d : Dev) (f : Evt → Evt) : (d.onEvt f).outsZ = d.outsZ := rfl
@[simp] theorem Dev.onEvt_begun (d : Dev) (f : Evt → Evt) : (d.onEvt f).begun = d.begun := rfl
@[simp] theorem Dev.onEvt_cvuOn (d : Dev) (f : Evt → Evt) : (d.onEvt f).cvuOn = d.cvuOn := rfl
@[simp] theorem Dev.onEvt_free (d : Dev) (f : Evt → Evt) : (d.onEvt f).free = d.free := rfl
@[simp] theorem Dev.onEvt_pair (d : Dev) (f : Evt → Evt) : (d.onEvt f).pair = d.pair := rfl
@[simp] theorem Dev.onEvt_cmd (d : Dev) (f : Evt → Evt) : (d.onEvt f).cmd = d.cmd := rfl
@[simp] theorem Dev.onEvt_boot (d : Dev) (f : Evt → Evt) : (d.onEvt f).boot = d.boot := rfl
@[simp] theorem Dev.onEvt_replayT (d : Dev) (f : Evt → Evt) : (d.onEvt f).replayT = d.replayT := rfl
@[simp] theorem Dev.onEvt_peerDec (d : Dev) (f : Evt → Evt) : (d.onEvt f).peerDec = d.peerDec := rfl
@[simp] theorem Dev.onEvt_out (d : Dev) (f : Evt → Evt) : (d.onEvt f).out = d.out := rfl

/-! ## `onPcie` -/

@[simp] theorem Dev.onPcie_tick (d : Dev) (f : Pcie → Pcie) : (d.onPcie f).tick = d.tick := rfl
@[simp] theorem Dev.onPcie_cycle (d : Dev) (f : Pcie → Pcie) : (d.onPcie f).cycle = d.cycle := rfl
@[simp] theorem Dev.onPcie_regs (d : Dev) (f : Pcie → Pcie) : (d.onPcie f).regs = d.regs := rfl
@[simp] theorem Dev.onPcie_live (d : Dev) (f : Pcie → Pcie) : (d.onPcie f).live = d.live := rfl
@[simp] theorem Dev.onPcie_wide (d : Dev) (f : Pcie → Pcie) : (d.onPcie f).wide = d.wide := rfl
@[simp] theorem Dev.onPcie_latch (d : Dev) (f : Pcie → Pcie) : (d.onPcie f).latch = d.latch := rfl
@[simp] theorem Dev.onPcie_rdata (d : Dev) (f : Pcie → Pcie) : (d.onPcie f).rdata = d.rdata := rfl
@[simp] theorem Dev.onPcie_pendTick (d : Dev) (f : Pcie → Pcie) : (d.onPcie f).pendTick = d.pendTick := rfl
@[simp] theorem Dev.onPcie_frameWr (d : Dev) (f : Pcie → Pcie) : (d.onPcie f).frameWr = d.frameWr := rfl
@[simp] theorem Dev.onPcie_capGrp (d : Dev) (f : Pcie → Pcie) : (d.onPcie f).capGrp = d.capGrp := rfl
@[simp] theorem Dev.onPcie_held (d : Dev) (f : Pcie → Pcie) : (d.onPcie f).held = d.held := rfl
@[simp] theorem Dev.onPcie_agenda (d : Dev) (f : Pcie → Pcie) : (d.onPcie f).agenda = d.agenda := rfl
@[simp] theorem Dev.onPcie_flt (d : Dev) (f : Pcie → Pcie) : (d.onPcie f).flt = d.flt := rfl
@[simp] theorem Dev.onPcie_evt (d : Dev) (f : Pcie → Pcie) : (d.onPcie f).evt = d.evt := rfl
@[simp] theorem Dev.onPcie_bbx (d : Dev) (f : Pcie → Pcie) : (d.onPcie f).bbx = d.bbx := rfl
@[simp] theorem Dev.onPcie_thm (d : Dev) (f : Pcie → Pcie) : (d.onPcie f).thm = d.thm := rfl
@[simp] theorem Dev.onPcie_ctrlRst (d : Dev) (f : Pcie → Pcie) : (d.onPcie f).ctrlRst = d.ctrlRst := rfl
@[simp] theorem Dev.onPcie_mgmtRst (d : Dev) (f : Pcie → Pcie) : (d.onPcie f).mgmtRst = d.mgmtRst := rfl
@[simp] theorem Dev.onPcie_inReset (d : Dev) (f : Pcie → Pcie) : (d.onPcie f).inReset = d.inReset := rfl
@[simp] theorem Dev.onPcie_eng (d : Dev) (f : Pcie → Pcie) : (d.onPcie f).eng = d.eng := rfl
@[simp] theorem Dev.onPcie_ldr (d : Dev) (f : Pcie → Pcie) : (d.onPcie f).ldr = d.ldr := rfl
@[simp] theorem Dev.onPcie_testMode (d : Dev) (f : Pcie → Pcie) : (d.onPcie f).testMode = d.testMode := rfl
@[simp] theorem Dev.onPcie_cvuSeen (d : Dev) (f : Pcie → Pcie) : (d.onPcie f).cvuSeen = d.cvuSeen := rfl
@[simp] theorem Dev.onPcie_tdm (d : Dev) (f : Pcie → Pcie) : (d.onPcie f).tdm = d.tdm := rfl
@[simp] theorem Dev.onPcie_dec (d : Dev) (f : Pcie → Pcie) : (d.onPcie f).dec = d.dec := rfl
@[simp] theorem Dev.onPcie_pdmOn (d : Dev) (f : Pcie → Pcie) : (d.onPcie f).pdmOn = d.pdmOn := rfl
@[simp] theorem Dev.onPcie_clipM (d : Dev) (f : Pcie → Pcie) : (d.onPcie f).clipM = d.clipM := rfl
@[simp] theorem Dev.onPcie_mclk (d : Dev) (f : Pcie → Pcie) : (d.onPcie f).mclk = d.mclk := rfl
@[simp] theorem Dev.onPcie_mod (d : Dev) (f : Pcie → Pcie) : (d.onPcie f).mod = d.mod := rfl
@[simp] theorem Dev.onPcie_sns (d : Dev) (f : Pcie → Pcie) : (d.onPcie f).sns = d.sns := rfl
@[simp] theorem Dev.onPcie_snsOn (d : Dev) (f : Pcie → Pcie) : (d.onPcie f).snsOn = d.snsOn := rfl
@[simp] theorem Dev.onPcie_clk (d : Dev) (f : Pcie → Pcie) : (d.onPcie f).clk = d.clk := rfl
@[simp] theorem Dev.onPcie_time (d : Dev) (f : Pcie → Pcie) : (d.onPcie f).time = d.time := rfl
@[simp] theorem Dev.onPcie_mac (d : Dev) (f : Pcie → Pcie) : (d.onPcie f).mac = d.mac := rfl
@[simp] theorem Dev.onPcie_bus (d : Dev) (f : Pcie → Pcie) : (d.onPcie f).bus = d.bus := rfl
@[simp] theorem Dev.onPcie_mdioRd (d : Dev) (f : Pcie → Pcie) : (d.onPcie f).mdioRd = d.mdioRd := rfl
@[simp] theorem Dev.onPcie_strm (d : Dev) (f : Pcie → Pcie) : (d.onPcie f).strm = d.strm := rfl
@[simp] theorem Dev.onPcie_ddr (d : Dev) (f : Pcie → Pcie) : (d.onPcie f).ddr = d.ddr := rfl
@[simp] theorem Dev.onPcie_gln (d : Dev) (f : Pcie → Pcie) : (d.onPcie f).gln = d.gln := rfl
@[simp] theorem Dev.onPcie_outsZ (d : Dev) (f : Pcie → Pcie) : (d.onPcie f).outsZ = d.outsZ := rfl
@[simp] theorem Dev.onPcie_begun (d : Dev) (f : Pcie → Pcie) : (d.onPcie f).begun = d.begun := rfl
@[simp] theorem Dev.onPcie_cvuOn (d : Dev) (f : Pcie → Pcie) : (d.onPcie f).cvuOn = d.cvuOn := rfl
@[simp] theorem Dev.onPcie_free (d : Dev) (f : Pcie → Pcie) : (d.onPcie f).free = d.free := rfl
@[simp] theorem Dev.onPcie_pair (d : Dev) (f : Pcie → Pcie) : (d.onPcie f).pair = d.pair := rfl
@[simp] theorem Dev.onPcie_cmd (d : Dev) (f : Pcie → Pcie) : (d.onPcie f).cmd = d.cmd := rfl
@[simp] theorem Dev.onPcie_boot (d : Dev) (f : Pcie → Pcie) : (d.onPcie f).boot = d.boot := rfl
@[simp] theorem Dev.onPcie_replayT (d : Dev) (f : Pcie → Pcie) : (d.onPcie f).replayT = d.replayT := rfl
@[simp] theorem Dev.onPcie_peerDec (d : Dev) (f : Pcie → Pcie) : (d.onPcie f).peerDec = d.peerDec := rfl
@[simp] theorem Dev.onPcie_out (d : Dev) (f : Pcie → Pcie) : (d.onPcie f).out = d.out := rfl

/-! ## `onCh` -/

@[simp] theorem Dev.onCh_tick (d : Dev) (c : Nat) (f : ModCh → ModCh) : (d.onCh c f).tick = d.tick := rfl
@[simp] theorem Dev.onCh_cycle (d : Dev) (c : Nat) (f : ModCh → ModCh) : (d.onCh c f).cycle = d.cycle := rfl
@[simp] theorem Dev.onCh_regs (d : Dev) (c : Nat) (f : ModCh → ModCh) : (d.onCh c f).regs = d.regs := rfl
@[simp] theorem Dev.onCh_live (d : Dev) (c : Nat) (f : ModCh → ModCh) : (d.onCh c f).live = d.live := rfl
@[simp] theorem Dev.onCh_wide (d : Dev) (c : Nat) (f : ModCh → ModCh) : (d.onCh c f).wide = d.wide := rfl
@[simp] theorem Dev.onCh_latch (d : Dev) (c : Nat) (f : ModCh → ModCh) : (d.onCh c f).latch = d.latch := rfl
@[simp] theorem Dev.onCh_rdata (d : Dev) (c : Nat) (f : ModCh → ModCh) : (d.onCh c f).rdata = d.rdata := rfl
@[simp] theorem Dev.onCh_pendTick (d : Dev) (c : Nat) (f : ModCh → ModCh) : (d.onCh c f).pendTick = d.pendTick := rfl
@[simp] theorem Dev.onCh_frameWr (d : Dev) (c : Nat) (f : ModCh → ModCh) : (d.onCh c f).frameWr = d.frameWr := rfl
@[simp] theorem Dev.onCh_capGrp (d : Dev) (c : Nat) (f : ModCh → ModCh) : (d.onCh c f).capGrp = d.capGrp := rfl
@[simp] theorem Dev.onCh_held (d : Dev) (c : Nat) (f : ModCh → ModCh) : (d.onCh c f).held = d.held := rfl
@[simp] theorem Dev.onCh_agenda (d : Dev) (c : Nat) (f : ModCh → ModCh) : (d.onCh c f).agenda = d.agenda := rfl
@[simp] theorem Dev.onCh_flt (d : Dev) (c : Nat) (f : ModCh → ModCh) : (d.onCh c f).flt = d.flt := rfl
@[simp] theorem Dev.onCh_evt (d : Dev) (c : Nat) (f : ModCh → ModCh) : (d.onCh c f).evt = d.evt := rfl
@[simp] theorem Dev.onCh_bbx (d : Dev) (c : Nat) (f : ModCh → ModCh) : (d.onCh c f).bbx = d.bbx := rfl
@[simp] theorem Dev.onCh_thm (d : Dev) (c : Nat) (f : ModCh → ModCh) : (d.onCh c f).thm = d.thm := rfl
@[simp] theorem Dev.onCh_ctrlRst (d : Dev) (c : Nat) (f : ModCh → ModCh) : (d.onCh c f).ctrlRst = d.ctrlRst := rfl
@[simp] theorem Dev.onCh_mgmtRst (d : Dev) (c : Nat) (f : ModCh → ModCh) : (d.onCh c f).mgmtRst = d.mgmtRst := rfl
@[simp] theorem Dev.onCh_inReset (d : Dev) (c : Nat) (f : ModCh → ModCh) : (d.onCh c f).inReset = d.inReset := rfl
@[simp] theorem Dev.onCh_eng (d : Dev) (c : Nat) (f : ModCh → ModCh) : (d.onCh c f).eng = d.eng := rfl
@[simp] theorem Dev.onCh_ldr (d : Dev) (c : Nat) (f : ModCh → ModCh) : (d.onCh c f).ldr = d.ldr := rfl
@[simp] theorem Dev.onCh_pcie (d : Dev) (c : Nat) (f : ModCh → ModCh) : (d.onCh c f).pcie = d.pcie := rfl
@[simp] theorem Dev.onCh_testMode (d : Dev) (c : Nat) (f : ModCh → ModCh) : (d.onCh c f).testMode = d.testMode := rfl
@[simp] theorem Dev.onCh_cvuSeen (d : Dev) (c : Nat) (f : ModCh → ModCh) : (d.onCh c f).cvuSeen = d.cvuSeen := rfl
@[simp] theorem Dev.onCh_tdm (d : Dev) (c : Nat) (f : ModCh → ModCh) : (d.onCh c f).tdm = d.tdm := rfl
@[simp] theorem Dev.onCh_dec (d : Dev) (c : Nat) (f : ModCh → ModCh) : (d.onCh c f).dec = d.dec := rfl
@[simp] theorem Dev.onCh_pdmOn (d : Dev) (c : Nat) (f : ModCh → ModCh) : (d.onCh c f).pdmOn = d.pdmOn := rfl
@[simp] theorem Dev.onCh_clipM (d : Dev) (c : Nat) (f : ModCh → ModCh) : (d.onCh c f).clipM = d.clipM := rfl
@[simp] theorem Dev.onCh_mclk (d : Dev) (c : Nat) (f : ModCh → ModCh) : (d.onCh c f).mclk = d.mclk := rfl
@[simp] theorem Dev.onCh_sns (d : Dev) (c : Nat) (f : ModCh → ModCh) : (d.onCh c f).sns = d.sns := rfl
@[simp] theorem Dev.onCh_snsOn (d : Dev) (c : Nat) (f : ModCh → ModCh) : (d.onCh c f).snsOn = d.snsOn := rfl
@[simp] theorem Dev.onCh_clk (d : Dev) (c : Nat) (f : ModCh → ModCh) : (d.onCh c f).clk = d.clk := rfl
@[simp] theorem Dev.onCh_time (d : Dev) (c : Nat) (f : ModCh → ModCh) : (d.onCh c f).time = d.time := rfl
@[simp] theorem Dev.onCh_mac (d : Dev) (c : Nat) (f : ModCh → ModCh) : (d.onCh c f).mac = d.mac := rfl
@[simp] theorem Dev.onCh_bus (d : Dev) (c : Nat) (f : ModCh → ModCh) : (d.onCh c f).bus = d.bus := rfl
@[simp] theorem Dev.onCh_mdioRd (d : Dev) (c : Nat) (f : ModCh → ModCh) : (d.onCh c f).mdioRd = d.mdioRd := rfl
@[simp] theorem Dev.onCh_strm (d : Dev) (c : Nat) (f : ModCh → ModCh) : (d.onCh c f).strm = d.strm := rfl
@[simp] theorem Dev.onCh_ddr (d : Dev) (c : Nat) (f : ModCh → ModCh) : (d.onCh c f).ddr = d.ddr := rfl
@[simp] theorem Dev.onCh_gln (d : Dev) (c : Nat) (f : ModCh → ModCh) : (d.onCh c f).gln = d.gln := rfl
@[simp] theorem Dev.onCh_outsZ (d : Dev) (c : Nat) (f : ModCh → ModCh) : (d.onCh c f).outsZ = d.outsZ := rfl
@[simp] theorem Dev.onCh_begun (d : Dev) (c : Nat) (f : ModCh → ModCh) : (d.onCh c f).begun = d.begun := rfl
@[simp] theorem Dev.onCh_cvuOn (d : Dev) (c : Nat) (f : ModCh → ModCh) : (d.onCh c f).cvuOn = d.cvuOn := rfl
@[simp] theorem Dev.onCh_free (d : Dev) (c : Nat) (f : ModCh → ModCh) : (d.onCh c f).free = d.free := rfl
@[simp] theorem Dev.onCh_pair (d : Dev) (c : Nat) (f : ModCh → ModCh) : (d.onCh c f).pair = d.pair := rfl
@[simp] theorem Dev.onCh_cmd (d : Dev) (c : Nat) (f : ModCh → ModCh) : (d.onCh c f).cmd = d.cmd := rfl
@[simp] theorem Dev.onCh_boot (d : Dev) (c : Nat) (f : ModCh → ModCh) : (d.onCh c f).boot = d.boot := rfl
@[simp] theorem Dev.onCh_replayT (d : Dev) (c : Nat) (f : ModCh → ModCh) : (d.onCh c f).replayT = d.replayT := rfl
@[simp] theorem Dev.onCh_peerDec (d : Dev) (c : Nat) (f : ModCh → ModCh) : (d.onCh c f).peerDec = d.peerDec := rfl
@[simp] theorem Dev.onCh_out (d : Dev) (c : Nat) (f : ModCh → ModCh) : (d.onCh c f).out = d.out := rfl

/-! ## `onGrp` -/

@[simp] theorem Dev.onGrp_tick (d : Dev) (g : Nat) (f : ModGrp → ModGrp) : (d.onGrp g f).tick = d.tick := rfl
@[simp] theorem Dev.onGrp_cycle (d : Dev) (g : Nat) (f : ModGrp → ModGrp) : (d.onGrp g f).cycle = d.cycle := rfl
@[simp] theorem Dev.onGrp_regs (d : Dev) (g : Nat) (f : ModGrp → ModGrp) : (d.onGrp g f).regs = d.regs := rfl
@[simp] theorem Dev.onGrp_live (d : Dev) (g : Nat) (f : ModGrp → ModGrp) : (d.onGrp g f).live = d.live := rfl
@[simp] theorem Dev.onGrp_wide (d : Dev) (g : Nat) (f : ModGrp → ModGrp) : (d.onGrp g f).wide = d.wide := rfl
@[simp] theorem Dev.onGrp_latch (d : Dev) (g : Nat) (f : ModGrp → ModGrp) : (d.onGrp g f).latch = d.latch := rfl
@[simp] theorem Dev.onGrp_rdata (d : Dev) (g : Nat) (f : ModGrp → ModGrp) : (d.onGrp g f).rdata = d.rdata := rfl
@[simp] theorem Dev.onGrp_pendTick (d : Dev) (g : Nat) (f : ModGrp → ModGrp) : (d.onGrp g f).pendTick = d.pendTick := rfl
@[simp] theorem Dev.onGrp_frameWr (d : Dev) (g : Nat) (f : ModGrp → ModGrp) : (d.onGrp g f).frameWr = d.frameWr := rfl
@[simp] theorem Dev.onGrp_capGrp (d : Dev) (g : Nat) (f : ModGrp → ModGrp) : (d.onGrp g f).capGrp = d.capGrp := rfl
@[simp] theorem Dev.onGrp_held (d : Dev) (g : Nat) (f : ModGrp → ModGrp) : (d.onGrp g f).held = d.held := rfl
@[simp] theorem Dev.onGrp_agenda (d : Dev) (g : Nat) (f : ModGrp → ModGrp) : (d.onGrp g f).agenda = d.agenda := rfl
@[simp] theorem Dev.onGrp_flt (d : Dev) (g : Nat) (f : ModGrp → ModGrp) : (d.onGrp g f).flt = d.flt := rfl
@[simp] theorem Dev.onGrp_evt (d : Dev) (g : Nat) (f : ModGrp → ModGrp) : (d.onGrp g f).evt = d.evt := rfl
@[simp] theorem Dev.onGrp_bbx (d : Dev) (g : Nat) (f : ModGrp → ModGrp) : (d.onGrp g f).bbx = d.bbx := rfl
@[simp] theorem Dev.onGrp_thm (d : Dev) (g : Nat) (f : ModGrp → ModGrp) : (d.onGrp g f).thm = d.thm := rfl
@[simp] theorem Dev.onGrp_ctrlRst (d : Dev) (g : Nat) (f : ModGrp → ModGrp) : (d.onGrp g f).ctrlRst = d.ctrlRst := rfl
@[simp] theorem Dev.onGrp_mgmtRst (d : Dev) (g : Nat) (f : ModGrp → ModGrp) : (d.onGrp g f).mgmtRst = d.mgmtRst := rfl
@[simp] theorem Dev.onGrp_inReset (d : Dev) (g : Nat) (f : ModGrp → ModGrp) : (d.onGrp g f).inReset = d.inReset := rfl
@[simp] theorem Dev.onGrp_eng (d : Dev) (g : Nat) (f : ModGrp → ModGrp) : (d.onGrp g f).eng = d.eng := rfl
@[simp] theorem Dev.onGrp_ldr (d : Dev) (g : Nat) (f : ModGrp → ModGrp) : (d.onGrp g f).ldr = d.ldr := rfl
@[simp] theorem Dev.onGrp_pcie (d : Dev) (g : Nat) (f : ModGrp → ModGrp) : (d.onGrp g f).pcie = d.pcie := rfl
@[simp] theorem Dev.onGrp_testMode (d : Dev) (g : Nat) (f : ModGrp → ModGrp) : (d.onGrp g f).testMode = d.testMode := rfl
@[simp] theorem Dev.onGrp_cvuSeen (d : Dev) (g : Nat) (f : ModGrp → ModGrp) : (d.onGrp g f).cvuSeen = d.cvuSeen := rfl
@[simp] theorem Dev.onGrp_tdm (d : Dev) (g : Nat) (f : ModGrp → ModGrp) : (d.onGrp g f).tdm = d.tdm := rfl
@[simp] theorem Dev.onGrp_dec (d : Dev) (g : Nat) (f : ModGrp → ModGrp) : (d.onGrp g f).dec = d.dec := rfl
@[simp] theorem Dev.onGrp_pdmOn (d : Dev) (g : Nat) (f : ModGrp → ModGrp) : (d.onGrp g f).pdmOn = d.pdmOn := rfl
@[simp] theorem Dev.onGrp_clipM (d : Dev) (g : Nat) (f : ModGrp → ModGrp) : (d.onGrp g f).clipM = d.clipM := rfl
@[simp] theorem Dev.onGrp_mclk (d : Dev) (g : Nat) (f : ModGrp → ModGrp) : (d.onGrp g f).mclk = d.mclk := rfl
@[simp] theorem Dev.onGrp_sns (d : Dev) (g : Nat) (f : ModGrp → ModGrp) : (d.onGrp g f).sns = d.sns := rfl
@[simp] theorem Dev.onGrp_snsOn (d : Dev) (g : Nat) (f : ModGrp → ModGrp) : (d.onGrp g f).snsOn = d.snsOn := rfl
@[simp] theorem Dev.onGrp_clk (d : Dev) (g : Nat) (f : ModGrp → ModGrp) : (d.onGrp g f).clk = d.clk := rfl
@[simp] theorem Dev.onGrp_time (d : Dev) (g : Nat) (f : ModGrp → ModGrp) : (d.onGrp g f).time = d.time := rfl
@[simp] theorem Dev.onGrp_mac (d : Dev) (g : Nat) (f : ModGrp → ModGrp) : (d.onGrp g f).mac = d.mac := rfl
@[simp] theorem Dev.onGrp_bus (d : Dev) (g : Nat) (f : ModGrp → ModGrp) : (d.onGrp g f).bus = d.bus := rfl
@[simp] theorem Dev.onGrp_mdioRd (d : Dev) (g : Nat) (f : ModGrp → ModGrp) : (d.onGrp g f).mdioRd = d.mdioRd := rfl
@[simp] theorem Dev.onGrp_strm (d : Dev) (g : Nat) (f : ModGrp → ModGrp) : (d.onGrp g f).strm = d.strm := rfl
@[simp] theorem Dev.onGrp_ddr (d : Dev) (g : Nat) (f : ModGrp → ModGrp) : (d.onGrp g f).ddr = d.ddr := rfl
@[simp] theorem Dev.onGrp_gln (d : Dev) (g : Nat) (f : ModGrp → ModGrp) : (d.onGrp g f).gln = d.gln := rfl
@[simp] theorem Dev.onGrp_outsZ (d : Dev) (g : Nat) (f : ModGrp → ModGrp) : (d.onGrp g f).outsZ = d.outsZ := rfl
@[simp] theorem Dev.onGrp_begun (d : Dev) (g : Nat) (f : ModGrp → ModGrp) : (d.onGrp g f).begun = d.begun := rfl
@[simp] theorem Dev.onGrp_cvuOn (d : Dev) (g : Nat) (f : ModGrp → ModGrp) : (d.onGrp g f).cvuOn = d.cvuOn := rfl
@[simp] theorem Dev.onGrp_free (d : Dev) (g : Nat) (f : ModGrp → ModGrp) : (d.onGrp g f).free = d.free := rfl
@[simp] theorem Dev.onGrp_pair (d : Dev) (g : Nat) (f : ModGrp → ModGrp) : (d.onGrp g f).pair = d.pair := rfl
@[simp] theorem Dev.onGrp_cmd (d : Dev) (g : Nat) (f : ModGrp → ModGrp) : (d.onGrp g f).cmd = d.cmd := rfl
@[simp] theorem Dev.onGrp_boot (d : Dev) (g : Nat) (f : ModGrp → ModGrp) : (d.onGrp g f).boot = d.boot := rfl
@[simp] theorem Dev.onGrp_replayT (d : Dev) (g : Nat) (f : ModGrp → ModGrp) : (d.onGrp g f).replayT = d.replayT := rfl
@[simp] theorem Dev.onGrp_peerDec (d : Dev) (g : Nat) (f : ModGrp → ModGrp) : (d.onGrp g f).peerDec = d.peerDec := rfl
@[simp] theorem Dev.onGrp_out (d : Dev) (g : Nat) (f : ModGrp → ModGrp) : (d.onGrp g f).out = d.out := rfl

/-! ## `onSns` -/

@[simp] theorem Dev.onSns_tick (d : Dev) (g : Nat) (f : SnsLane → SnsLane) : (d.onSns g f).tick = d.tick := rfl
@[simp] theorem Dev.onSns_cycle (d : Dev) (g : Nat) (f : SnsLane → SnsLane) : (d.onSns g f).cycle = d.cycle := rfl
@[simp] theorem Dev.onSns_regs (d : Dev) (g : Nat) (f : SnsLane → SnsLane) : (d.onSns g f).regs = d.regs := rfl
@[simp] theorem Dev.onSns_live (d : Dev) (g : Nat) (f : SnsLane → SnsLane) : (d.onSns g f).live = d.live := rfl
@[simp] theorem Dev.onSns_wide (d : Dev) (g : Nat) (f : SnsLane → SnsLane) : (d.onSns g f).wide = d.wide := rfl
@[simp] theorem Dev.onSns_latch (d : Dev) (g : Nat) (f : SnsLane → SnsLane) : (d.onSns g f).latch = d.latch := rfl
@[simp] theorem Dev.onSns_rdata (d : Dev) (g : Nat) (f : SnsLane → SnsLane) : (d.onSns g f).rdata = d.rdata := rfl
@[simp] theorem Dev.onSns_pendTick (d : Dev) (g : Nat) (f : SnsLane → SnsLane) : (d.onSns g f).pendTick = d.pendTick := rfl
@[simp] theorem Dev.onSns_frameWr (d : Dev) (g : Nat) (f : SnsLane → SnsLane) : (d.onSns g f).frameWr = d.frameWr := rfl
@[simp] theorem Dev.onSns_capGrp (d : Dev) (g : Nat) (f : SnsLane → SnsLane) : (d.onSns g f).capGrp = d.capGrp := rfl
@[simp] theorem Dev.onSns_held (d : Dev) (g : Nat) (f : SnsLane → SnsLane) : (d.onSns g f).held = d.held := rfl
@[simp] theorem Dev.onSns_agenda (d : Dev) (g : Nat) (f : SnsLane → SnsLane) : (d.onSns g f).agenda = d.agenda := rfl
@[simp] theorem Dev.onSns_flt (d : Dev) (g : Nat) (f : SnsLane → SnsLane) : (d.onSns g f).flt = d.flt := rfl
@[simp] theorem Dev.onSns_evt (d : Dev) (g : Nat) (f : SnsLane → SnsLane) : (d.onSns g f).evt = d.evt := rfl
@[simp] theorem Dev.onSns_bbx (d : Dev) (g : Nat) (f : SnsLane → SnsLane) : (d.onSns g f).bbx = d.bbx := rfl
@[simp] theorem Dev.onSns_thm (d : Dev) (g : Nat) (f : SnsLane → SnsLane) : (d.onSns g f).thm = d.thm := rfl
@[simp] theorem Dev.onSns_ctrlRst (d : Dev) (g : Nat) (f : SnsLane → SnsLane) : (d.onSns g f).ctrlRst = d.ctrlRst := rfl
@[simp] theorem Dev.onSns_mgmtRst (d : Dev) (g : Nat) (f : SnsLane → SnsLane) : (d.onSns g f).mgmtRst = d.mgmtRst := rfl
@[simp] theorem Dev.onSns_inReset (d : Dev) (g : Nat) (f : SnsLane → SnsLane) : (d.onSns g f).inReset = d.inReset := rfl
@[simp] theorem Dev.onSns_eng (d : Dev) (g : Nat) (f : SnsLane → SnsLane) : (d.onSns g f).eng = d.eng := rfl
@[simp] theorem Dev.onSns_ldr (d : Dev) (g : Nat) (f : SnsLane → SnsLane) : (d.onSns g f).ldr = d.ldr := rfl
@[simp] theorem Dev.onSns_pcie (d : Dev) (g : Nat) (f : SnsLane → SnsLane) : (d.onSns g f).pcie = d.pcie := rfl
@[simp] theorem Dev.onSns_testMode (d : Dev) (g : Nat) (f : SnsLane → SnsLane) : (d.onSns g f).testMode = d.testMode := rfl
@[simp] theorem Dev.onSns_cvuSeen (d : Dev) (g : Nat) (f : SnsLane → SnsLane) : (d.onSns g f).cvuSeen = d.cvuSeen := rfl
@[simp] theorem Dev.onSns_tdm (d : Dev) (g : Nat) (f : SnsLane → SnsLane) : (d.onSns g f).tdm = d.tdm := rfl
@[simp] theorem Dev.onSns_dec (d : Dev) (g : Nat) (f : SnsLane → SnsLane) : (d.onSns g f).dec = d.dec := rfl
@[simp] theorem Dev.onSns_pdmOn (d : Dev) (g : Nat) (f : SnsLane → SnsLane) : (d.onSns g f).pdmOn = d.pdmOn := rfl
@[simp] theorem Dev.onSns_clipM (d : Dev) (g : Nat) (f : SnsLane → SnsLane) : (d.onSns g f).clipM = d.clipM := rfl
@[simp] theorem Dev.onSns_mclk (d : Dev) (g : Nat) (f : SnsLane → SnsLane) : (d.onSns g f).mclk = d.mclk := rfl
@[simp] theorem Dev.onSns_mod (d : Dev) (g : Nat) (f : SnsLane → SnsLane) : (d.onSns g f).mod = d.mod := rfl
@[simp] theorem Dev.onSns_snsOn (d : Dev) (g : Nat) (f : SnsLane → SnsLane) : (d.onSns g f).snsOn = d.snsOn := rfl
@[simp] theorem Dev.onSns_clk (d : Dev) (g : Nat) (f : SnsLane → SnsLane) : (d.onSns g f).clk = d.clk := rfl
@[simp] theorem Dev.onSns_time (d : Dev) (g : Nat) (f : SnsLane → SnsLane) : (d.onSns g f).time = d.time := rfl
@[simp] theorem Dev.onSns_mac (d : Dev) (g : Nat) (f : SnsLane → SnsLane) : (d.onSns g f).mac = d.mac := rfl
@[simp] theorem Dev.onSns_bus (d : Dev) (g : Nat) (f : SnsLane → SnsLane) : (d.onSns g f).bus = d.bus := rfl
@[simp] theorem Dev.onSns_mdioRd (d : Dev) (g : Nat) (f : SnsLane → SnsLane) : (d.onSns g f).mdioRd = d.mdioRd := rfl
@[simp] theorem Dev.onSns_strm (d : Dev) (g : Nat) (f : SnsLane → SnsLane) : (d.onSns g f).strm = d.strm := rfl
@[simp] theorem Dev.onSns_ddr (d : Dev) (g : Nat) (f : SnsLane → SnsLane) : (d.onSns g f).ddr = d.ddr := rfl
@[simp] theorem Dev.onSns_gln (d : Dev) (g : Nat) (f : SnsLane → SnsLane) : (d.onSns g f).gln = d.gln := rfl
@[simp] theorem Dev.onSns_outsZ (d : Dev) (g : Nat) (f : SnsLane → SnsLane) : (d.onSns g f).outsZ = d.outsZ := rfl
@[simp] theorem Dev.onSns_begun (d : Dev) (g : Nat) (f : SnsLane → SnsLane) : (d.onSns g f).begun = d.begun := rfl
@[simp] theorem Dev.onSns_cvuOn (d : Dev) (g : Nat) (f : SnsLane → SnsLane) : (d.onSns g f).cvuOn = d.cvuOn := rfl
@[simp] theorem Dev.onSns_free (d : Dev) (g : Nat) (f : SnsLane → SnsLane) : (d.onSns g f).free = d.free := rfl
@[simp] theorem Dev.onSns_pair (d : Dev) (g : Nat) (f : SnsLane → SnsLane) : (d.onSns g f).pair = d.pair := rfl
@[simp] theorem Dev.onSns_cmd (d : Dev) (g : Nat) (f : SnsLane → SnsLane) : (d.onSns g f).cmd = d.cmd := rfl
@[simp] theorem Dev.onSns_boot (d : Dev) (g : Nat) (f : SnsLane → SnsLane) : (d.onSns g f).boot = d.boot := rfl
@[simp] theorem Dev.onSns_replayT (d : Dev) (g : Nat) (f : SnsLane → SnsLane) : (d.onSns g f).replayT = d.replayT := rfl
@[simp] theorem Dev.onSns_peerDec (d : Dev) (g : Nat) (f : SnsLane → SnsLane) : (d.onSns g f).peerDec = d.peerDec := rfl
@[simp] theorem Dev.onSns_out (d : Dev) (g : Nat) (f : SnsLane → SnsLane) : (d.onSns g f).out = d.out := rfl

/-! ## `onDec` -/

@[simp] theorem Dev.onDec_tick (d : Dev) (c : Nat) (f : DecCh → DecCh) : (d.onDec c f).tick = d.tick := rfl
@[simp] theorem Dev.onDec_cycle (d : Dev) (c : Nat) (f : DecCh → DecCh) : (d.onDec c f).cycle = d.cycle := rfl
@[simp] theorem Dev.onDec_regs (d : Dev) (c : Nat) (f : DecCh → DecCh) : (d.onDec c f).regs = d.regs := rfl
@[simp] theorem Dev.onDec_live (d : Dev) (c : Nat) (f : DecCh → DecCh) : (d.onDec c f).live = d.live := rfl
@[simp] theorem Dev.onDec_wide (d : Dev) (c : Nat) (f : DecCh → DecCh) : (d.onDec c f).wide = d.wide := rfl
@[simp] theorem Dev.onDec_latch (d : Dev) (c : Nat) (f : DecCh → DecCh) : (d.onDec c f).latch = d.latch := rfl
@[simp] theorem Dev.onDec_rdata (d : Dev) (c : Nat) (f : DecCh → DecCh) : (d.onDec c f).rdata = d.rdata := rfl
@[simp] theorem Dev.onDec_pendTick (d : Dev) (c : Nat) (f : DecCh → DecCh) : (d.onDec c f).pendTick = d.pendTick := rfl
@[simp] theorem Dev.onDec_frameWr (d : Dev) (c : Nat) (f : DecCh → DecCh) : (d.onDec c f).frameWr = d.frameWr := rfl
@[simp] theorem Dev.onDec_capGrp (d : Dev) (c : Nat) (f : DecCh → DecCh) : (d.onDec c f).capGrp = d.capGrp := rfl
@[simp] theorem Dev.onDec_held (d : Dev) (c : Nat) (f : DecCh → DecCh) : (d.onDec c f).held = d.held := rfl
@[simp] theorem Dev.onDec_agenda (d : Dev) (c : Nat) (f : DecCh → DecCh) : (d.onDec c f).agenda = d.agenda := rfl
@[simp] theorem Dev.onDec_flt (d : Dev) (c : Nat) (f : DecCh → DecCh) : (d.onDec c f).flt = d.flt := rfl
@[simp] theorem Dev.onDec_evt (d : Dev) (c : Nat) (f : DecCh → DecCh) : (d.onDec c f).evt = d.evt := rfl
@[simp] theorem Dev.onDec_bbx (d : Dev) (c : Nat) (f : DecCh → DecCh) : (d.onDec c f).bbx = d.bbx := rfl
@[simp] theorem Dev.onDec_thm (d : Dev) (c : Nat) (f : DecCh → DecCh) : (d.onDec c f).thm = d.thm := rfl
@[simp] theorem Dev.onDec_ctrlRst (d : Dev) (c : Nat) (f : DecCh → DecCh) : (d.onDec c f).ctrlRst = d.ctrlRst := rfl
@[simp] theorem Dev.onDec_mgmtRst (d : Dev) (c : Nat) (f : DecCh → DecCh) : (d.onDec c f).mgmtRst = d.mgmtRst := rfl
@[simp] theorem Dev.onDec_inReset (d : Dev) (c : Nat) (f : DecCh → DecCh) : (d.onDec c f).inReset = d.inReset := rfl
@[simp] theorem Dev.onDec_eng (d : Dev) (c : Nat) (f : DecCh → DecCh) : (d.onDec c f).eng = d.eng := rfl
@[simp] theorem Dev.onDec_ldr (d : Dev) (c : Nat) (f : DecCh → DecCh) : (d.onDec c f).ldr = d.ldr := rfl
@[simp] theorem Dev.onDec_pcie (d : Dev) (c : Nat) (f : DecCh → DecCh) : (d.onDec c f).pcie = d.pcie := rfl
@[simp] theorem Dev.onDec_testMode (d : Dev) (c : Nat) (f : DecCh → DecCh) : (d.onDec c f).testMode = d.testMode := rfl
@[simp] theorem Dev.onDec_cvuSeen (d : Dev) (c : Nat) (f : DecCh → DecCh) : (d.onDec c f).cvuSeen = d.cvuSeen := rfl
@[simp] theorem Dev.onDec_tdm (d : Dev) (c : Nat) (f : DecCh → DecCh) : (d.onDec c f).tdm = d.tdm := rfl
@[simp] theorem Dev.onDec_pdmOn (d : Dev) (c : Nat) (f : DecCh → DecCh) : (d.onDec c f).pdmOn = d.pdmOn := rfl
@[simp] theorem Dev.onDec_clipM (d : Dev) (c : Nat) (f : DecCh → DecCh) : (d.onDec c f).clipM = d.clipM := rfl
@[simp] theorem Dev.onDec_mclk (d : Dev) (c : Nat) (f : DecCh → DecCh) : (d.onDec c f).mclk = d.mclk := rfl
@[simp] theorem Dev.onDec_mod (d : Dev) (c : Nat) (f : DecCh → DecCh) : (d.onDec c f).mod = d.mod := rfl
@[simp] theorem Dev.onDec_sns (d : Dev) (c : Nat) (f : DecCh → DecCh) : (d.onDec c f).sns = d.sns := rfl
@[simp] theorem Dev.onDec_snsOn (d : Dev) (c : Nat) (f : DecCh → DecCh) : (d.onDec c f).snsOn = d.snsOn := rfl
@[simp] theorem Dev.onDec_clk (d : Dev) (c : Nat) (f : DecCh → DecCh) : (d.onDec c f).clk = d.clk := rfl
@[simp] theorem Dev.onDec_time (d : Dev) (c : Nat) (f : DecCh → DecCh) : (d.onDec c f).time = d.time := rfl
@[simp] theorem Dev.onDec_mac (d : Dev) (c : Nat) (f : DecCh → DecCh) : (d.onDec c f).mac = d.mac := rfl
@[simp] theorem Dev.onDec_bus (d : Dev) (c : Nat) (f : DecCh → DecCh) : (d.onDec c f).bus = d.bus := rfl
@[simp] theorem Dev.onDec_mdioRd (d : Dev) (c : Nat) (f : DecCh → DecCh) : (d.onDec c f).mdioRd = d.mdioRd := rfl
@[simp] theorem Dev.onDec_strm (d : Dev) (c : Nat) (f : DecCh → DecCh) : (d.onDec c f).strm = d.strm := rfl
@[simp] theorem Dev.onDec_ddr (d : Dev) (c : Nat) (f : DecCh → DecCh) : (d.onDec c f).ddr = d.ddr := rfl
@[simp] theorem Dev.onDec_gln (d : Dev) (c : Nat) (f : DecCh → DecCh) : (d.onDec c f).gln = d.gln := rfl
@[simp] theorem Dev.onDec_outsZ (d : Dev) (c : Nat) (f : DecCh → DecCh) : (d.onDec c f).outsZ = d.outsZ := rfl
@[simp] theorem Dev.onDec_begun (d : Dev) (c : Nat) (f : DecCh → DecCh) : (d.onDec c f).begun = d.begun := rfl
@[simp] theorem Dev.onDec_cvuOn (d : Dev) (c : Nat) (f : DecCh → DecCh) : (d.onDec c f).cvuOn = d.cvuOn := rfl
@[simp] theorem Dev.onDec_free (d : Dev) (c : Nat) (f : DecCh → DecCh) : (d.onDec c f).free = d.free := rfl
@[simp] theorem Dev.onDec_pair (d : Dev) (c : Nat) (f : DecCh → DecCh) : (d.onDec c f).pair = d.pair := rfl
@[simp] theorem Dev.onDec_cmd (d : Dev) (c : Nat) (f : DecCh → DecCh) : (d.onDec c f).cmd = d.cmd := rfl
@[simp] theorem Dev.onDec_boot (d : Dev) (c : Nat) (f : DecCh → DecCh) : (d.onDec c f).boot = d.boot := rfl
@[simp] theorem Dev.onDec_replayT (d : Dev) (c : Nat) (f : DecCh → DecCh) : (d.onDec c f).replayT = d.replayT := rfl
@[simp] theorem Dev.onDec_peerDec (d : Dev) (c : Nat) (f : DecCh → DecCh) : (d.onDec c f).peerDec = d.peerDec := rfl
@[simp] theorem Dev.onDec_out (d : Dev) (c : Nat) (f : DecCh → DecCh) : (d.onDec c f).out = d.out := rfl

/-! ## `onRef` -/

@[simp] theorem Dev.onRef_tick (d : Dev) (n : Nat) (f : ClkRef → ClkRef) : (d.onRef n f).tick = d.tick := rfl
@[simp] theorem Dev.onRef_cycle (d : Dev) (n : Nat) (f : ClkRef → ClkRef) : (d.onRef n f).cycle = d.cycle := rfl
@[simp] theorem Dev.onRef_regs (d : Dev) (n : Nat) (f : ClkRef → ClkRef) : (d.onRef n f).regs = d.regs := rfl
@[simp] theorem Dev.onRef_live (d : Dev) (n : Nat) (f : ClkRef → ClkRef) : (d.onRef n f).live = d.live := rfl
@[simp] theorem Dev.onRef_wide (d : Dev) (n : Nat) (f : ClkRef → ClkRef) : (d.onRef n f).wide = d.wide := rfl
@[simp] theorem Dev.onRef_latch (d : Dev) (n : Nat) (f : ClkRef → ClkRef) : (d.onRef n f).latch = d.latch := rfl
@[simp] theorem Dev.onRef_rdata (d : Dev) (n : Nat) (f : ClkRef → ClkRef) : (d.onRef n f).rdata = d.rdata := rfl
@[simp] theorem Dev.onRef_pendTick (d : Dev) (n : Nat) (f : ClkRef → ClkRef) : (d.onRef n f).pendTick = d.pendTick := rfl
@[simp] theorem Dev.onRef_frameWr (d : Dev) (n : Nat) (f : ClkRef → ClkRef) : (d.onRef n f).frameWr = d.frameWr := rfl
@[simp] theorem Dev.onRef_capGrp (d : Dev) (n : Nat) (f : ClkRef → ClkRef) : (d.onRef n f).capGrp = d.capGrp := rfl
@[simp] theorem Dev.onRef_held (d : Dev) (n : Nat) (f : ClkRef → ClkRef) : (d.onRef n f).held = d.held := rfl
@[simp] theorem Dev.onRef_agenda (d : Dev) (n : Nat) (f : ClkRef → ClkRef) : (d.onRef n f).agenda = d.agenda := rfl
@[simp] theorem Dev.onRef_flt (d : Dev) (n : Nat) (f : ClkRef → ClkRef) : (d.onRef n f).flt = d.flt := rfl
@[simp] theorem Dev.onRef_evt (d : Dev) (n : Nat) (f : ClkRef → ClkRef) : (d.onRef n f).evt = d.evt := rfl
@[simp] theorem Dev.onRef_bbx (d : Dev) (n : Nat) (f : ClkRef → ClkRef) : (d.onRef n f).bbx = d.bbx := rfl
@[simp] theorem Dev.onRef_thm (d : Dev) (n : Nat) (f : ClkRef → ClkRef) : (d.onRef n f).thm = d.thm := rfl
@[simp] theorem Dev.onRef_ctrlRst (d : Dev) (n : Nat) (f : ClkRef → ClkRef) : (d.onRef n f).ctrlRst = d.ctrlRst := rfl
@[simp] theorem Dev.onRef_mgmtRst (d : Dev) (n : Nat) (f : ClkRef → ClkRef) : (d.onRef n f).mgmtRst = d.mgmtRst := rfl
@[simp] theorem Dev.onRef_inReset (d : Dev) (n : Nat) (f : ClkRef → ClkRef) : (d.onRef n f).inReset = d.inReset := rfl
@[simp] theorem Dev.onRef_eng (d : Dev) (n : Nat) (f : ClkRef → ClkRef) : (d.onRef n f).eng = d.eng := rfl
@[simp] theorem Dev.onRef_ldr (d : Dev) (n : Nat) (f : ClkRef → ClkRef) : (d.onRef n f).ldr = d.ldr := rfl
@[simp] theorem Dev.onRef_pcie (d : Dev) (n : Nat) (f : ClkRef → ClkRef) : (d.onRef n f).pcie = d.pcie := rfl
@[simp] theorem Dev.onRef_testMode (d : Dev) (n : Nat) (f : ClkRef → ClkRef) : (d.onRef n f).testMode = d.testMode := rfl
@[simp] theorem Dev.onRef_cvuSeen (d : Dev) (n : Nat) (f : ClkRef → ClkRef) : (d.onRef n f).cvuSeen = d.cvuSeen := rfl
@[simp] theorem Dev.onRef_tdm (d : Dev) (n : Nat) (f : ClkRef → ClkRef) : (d.onRef n f).tdm = d.tdm := rfl
@[simp] theorem Dev.onRef_dec (d : Dev) (n : Nat) (f : ClkRef → ClkRef) : (d.onRef n f).dec = d.dec := rfl
@[simp] theorem Dev.onRef_pdmOn (d : Dev) (n : Nat) (f : ClkRef → ClkRef) : (d.onRef n f).pdmOn = d.pdmOn := rfl
@[simp] theorem Dev.onRef_clipM (d : Dev) (n : Nat) (f : ClkRef → ClkRef) : (d.onRef n f).clipM = d.clipM := rfl
@[simp] theorem Dev.onRef_mclk (d : Dev) (n : Nat) (f : ClkRef → ClkRef) : (d.onRef n f).mclk = d.mclk := rfl
@[simp] theorem Dev.onRef_mod (d : Dev) (n : Nat) (f : ClkRef → ClkRef) : (d.onRef n f).mod = d.mod := rfl
@[simp] theorem Dev.onRef_sns (d : Dev) (n : Nat) (f : ClkRef → ClkRef) : (d.onRef n f).sns = d.sns := rfl
@[simp] theorem Dev.onRef_snsOn (d : Dev) (n : Nat) (f : ClkRef → ClkRef) : (d.onRef n f).snsOn = d.snsOn := rfl
@[simp] theorem Dev.onRef_time (d : Dev) (n : Nat) (f : ClkRef → ClkRef) : (d.onRef n f).time = d.time := rfl
@[simp] theorem Dev.onRef_mac (d : Dev) (n : Nat) (f : ClkRef → ClkRef) : (d.onRef n f).mac = d.mac := rfl
@[simp] theorem Dev.onRef_bus (d : Dev) (n : Nat) (f : ClkRef → ClkRef) : (d.onRef n f).bus = d.bus := rfl
@[simp] theorem Dev.onRef_mdioRd (d : Dev) (n : Nat) (f : ClkRef → ClkRef) : (d.onRef n f).mdioRd = d.mdioRd := rfl
@[simp] theorem Dev.onRef_strm (d : Dev) (n : Nat) (f : ClkRef → ClkRef) : (d.onRef n f).strm = d.strm := rfl
@[simp] theorem Dev.onRef_ddr (d : Dev) (n : Nat) (f : ClkRef → ClkRef) : (d.onRef n f).ddr = d.ddr := rfl
@[simp] theorem Dev.onRef_gln (d : Dev) (n : Nat) (f : ClkRef → ClkRef) : (d.onRef n f).gln = d.gln := rfl
@[simp] theorem Dev.onRef_outsZ (d : Dev) (n : Nat) (f : ClkRef → ClkRef) : (d.onRef n f).outsZ = d.outsZ := rfl
@[simp] theorem Dev.onRef_begun (d : Dev) (n : Nat) (f : ClkRef → ClkRef) : (d.onRef n f).begun = d.begun := rfl
@[simp] theorem Dev.onRef_cvuOn (d : Dev) (n : Nat) (f : ClkRef → ClkRef) : (d.onRef n f).cvuOn = d.cvuOn := rfl
@[simp] theorem Dev.onRef_free (d : Dev) (n : Nat) (f : ClkRef → ClkRef) : (d.onRef n f).free = d.free := rfl
@[simp] theorem Dev.onRef_pair (d : Dev) (n : Nat) (f : ClkRef → ClkRef) : (d.onRef n f).pair = d.pair := rfl
@[simp] theorem Dev.onRef_cmd (d : Dev) (n : Nat) (f : ClkRef → ClkRef) : (d.onRef n f).cmd = d.cmd := rfl
@[simp] theorem Dev.onRef_boot (d : Dev) (n : Nat) (f : ClkRef → ClkRef) : (d.onRef n f).boot = d.boot := rfl
@[simp] theorem Dev.onRef_replayT (d : Dev) (n : Nat) (f : ClkRef → ClkRef) : (d.onRef n f).replayT = d.replayT := rfl
@[simp] theorem Dev.onRef_peerDec (d : Dev) (n : Nat) (f : ClkRef → ClkRef) : (d.onRef n f).peerDec = d.peerDec := rfl
@[simp] theorem Dev.onRef_out (d : Dev) (n : Nat) (f : ClkRef → ClkRef) : (d.onRef n f).out = d.out := rfl

/-! ## `onBus` -/

@[simp] theorem Dev.onBus_tick (d : Dev) (f : ArrayBus → ArrayBus) : (d.onBus f).tick = d.tick := rfl
@[simp] theorem Dev.onBus_cycle (d : Dev) (f : ArrayBus → ArrayBus) : (d.onBus f).cycle = d.cycle := rfl
@[simp] theorem Dev.onBus_regs (d : Dev) (f : ArrayBus → ArrayBus) : (d.onBus f).regs = d.regs := rfl
@[simp] theorem Dev.onBus_live (d : Dev) (f : ArrayBus → ArrayBus) : (d.onBus f).live = d.live := rfl
@[simp] theorem Dev.onBus_wide (d : Dev) (f : ArrayBus → ArrayBus) : (d.onBus f).wide = d.wide := rfl
@[simp] theorem Dev.onBus_latch (d : Dev) (f : ArrayBus → ArrayBus) : (d.onBus f).latch = d.latch := rfl
@[simp] theorem Dev.onBus_rdata (d : Dev) (f : ArrayBus → ArrayBus) : (d.onBus f).rdata = d.rdata := rfl
@[simp] theorem Dev.onBus_pendTick (d : Dev) (f : ArrayBus → ArrayBus) : (d.onBus f).pendTick = d.pendTick := rfl
@[simp] theorem Dev.onBus_frameWr (d : Dev) (f : ArrayBus → ArrayBus) : (d.onBus f).frameWr = d.frameWr := rfl
@[simp] theorem Dev.onBus_capGrp (d : Dev) (f : ArrayBus → ArrayBus) : (d.onBus f).capGrp = d.capGrp := rfl
@[simp] theorem Dev.onBus_held (d : Dev) (f : ArrayBus → ArrayBus) : (d.onBus f).held = d.held := rfl
@[simp] theorem Dev.onBus_agenda (d : Dev) (f : ArrayBus → ArrayBus) : (d.onBus f).agenda = d.agenda := rfl
@[simp] theorem Dev.onBus_flt (d : Dev) (f : ArrayBus → ArrayBus) : (d.onBus f).flt = d.flt := rfl
@[simp] theorem Dev.onBus_evt (d : Dev) (f : ArrayBus → ArrayBus) : (d.onBus f).evt = d.evt := rfl
@[simp] theorem Dev.onBus_bbx (d : Dev) (f : ArrayBus → ArrayBus) : (d.onBus f).bbx = d.bbx := rfl
@[simp] theorem Dev.onBus_thm (d : Dev) (f : ArrayBus → ArrayBus) : (d.onBus f).thm = d.thm := rfl
@[simp] theorem Dev.onBus_ctrlRst (d : Dev) (f : ArrayBus → ArrayBus) : (d.onBus f).ctrlRst = d.ctrlRst := rfl
@[simp] theorem Dev.onBus_mgmtRst (d : Dev) (f : ArrayBus → ArrayBus) : (d.onBus f).mgmtRst = d.mgmtRst := rfl
@[simp] theorem Dev.onBus_inReset (d : Dev) (f : ArrayBus → ArrayBus) : (d.onBus f).inReset = d.inReset := rfl
@[simp] theorem Dev.onBus_eng (d : Dev) (f : ArrayBus → ArrayBus) : (d.onBus f).eng = d.eng := rfl
@[simp] theorem Dev.onBus_ldr (d : Dev) (f : ArrayBus → ArrayBus) : (d.onBus f).ldr = d.ldr := rfl
@[simp] theorem Dev.onBus_pcie (d : Dev) (f : ArrayBus → ArrayBus) : (d.onBus f).pcie = d.pcie := rfl
@[simp] theorem Dev.onBus_testMode (d : Dev) (f : ArrayBus → ArrayBus) : (d.onBus f).testMode = d.testMode := rfl
@[simp] theorem Dev.onBus_cvuSeen (d : Dev) (f : ArrayBus → ArrayBus) : (d.onBus f).cvuSeen = d.cvuSeen := rfl
@[simp] theorem Dev.onBus_tdm (d : Dev) (f : ArrayBus → ArrayBus) : (d.onBus f).tdm = d.tdm := rfl
@[simp] theorem Dev.onBus_dec (d : Dev) (f : ArrayBus → ArrayBus) : (d.onBus f).dec = d.dec := rfl
@[simp] theorem Dev.onBus_pdmOn (d : Dev) (f : ArrayBus → ArrayBus) : (d.onBus f).pdmOn = d.pdmOn := rfl
@[simp] theorem Dev.onBus_clipM (d : Dev) (f : ArrayBus → ArrayBus) : (d.onBus f).clipM = d.clipM := rfl
@[simp] theorem Dev.onBus_mclk (d : Dev) (f : ArrayBus → ArrayBus) : (d.onBus f).mclk = d.mclk := rfl
@[simp] theorem Dev.onBus_mod (d : Dev) (f : ArrayBus → ArrayBus) : (d.onBus f).mod = d.mod := rfl
@[simp] theorem Dev.onBus_sns (d : Dev) (f : ArrayBus → ArrayBus) : (d.onBus f).sns = d.sns := rfl
@[simp] theorem Dev.onBus_snsOn (d : Dev) (f : ArrayBus → ArrayBus) : (d.onBus f).snsOn = d.snsOn := rfl
@[simp] theorem Dev.onBus_clk (d : Dev) (f : ArrayBus → ArrayBus) : (d.onBus f).clk = d.clk := rfl
@[simp] theorem Dev.onBus_time (d : Dev) (f : ArrayBus → ArrayBus) : (d.onBus f).time = d.time := rfl
@[simp] theorem Dev.onBus_mac (d : Dev) (f : ArrayBus → ArrayBus) : (d.onBus f).mac = d.mac := rfl
@[simp] theorem Dev.onBus_mdioRd (d : Dev) (f : ArrayBus → ArrayBus) : (d.onBus f).mdioRd = d.mdioRd := rfl
@[simp] theorem Dev.onBus_strm (d : Dev) (f : ArrayBus → ArrayBus) : (d.onBus f).strm = d.strm := rfl
@[simp] theorem Dev.onBus_ddr (d : Dev) (f : ArrayBus → ArrayBus) : (d.onBus f).ddr = d.ddr := rfl
@[simp] theorem Dev.onBus_gln (d : Dev) (f : ArrayBus → ArrayBus) : (d.onBus f).gln = d.gln := rfl
@[simp] theorem Dev.onBus_outsZ (d : Dev) (f : ArrayBus → ArrayBus) : (d.onBus f).outsZ = d.outsZ := rfl
@[simp] theorem Dev.onBus_begun (d : Dev) (f : ArrayBus → ArrayBus) : (d.onBus f).begun = d.begun := rfl
@[simp] theorem Dev.onBus_cvuOn (d : Dev) (f : ArrayBus → ArrayBus) : (d.onBus f).cvuOn = d.cvuOn := rfl
@[simp] theorem Dev.onBus_free (d : Dev) (f : ArrayBus → ArrayBus) : (d.onBus f).free = d.free := rfl
@[simp] theorem Dev.onBus_pair (d : Dev) (f : ArrayBus → ArrayBus) : (d.onBus f).pair = d.pair := rfl
@[simp] theorem Dev.onBus_cmd (d : Dev) (f : ArrayBus → ArrayBus) : (d.onBus f).cmd = d.cmd := rfl
@[simp] theorem Dev.onBus_boot (d : Dev) (f : ArrayBus → ArrayBus) : (d.onBus f).boot = d.boot := rfl
@[simp] theorem Dev.onBus_replayT (d : Dev) (f : ArrayBus → ArrayBus) : (d.onBus f).replayT = d.replayT := rfl
@[simp] theorem Dev.onBus_peerDec (d : Dev) (f : ArrayBus → ArrayBus) : (d.onBus f).peerDec = d.peerDec := rfl
@[simp] theorem Dev.onBus_out (d : Dev) (f : ArrayBus → ArrayBus) : (d.onBus f).out = d.out := rfl

/-! ## `onTx` -/

@[simp] theorem Dev.onTx_tick (d : Dev) (c : Nat) (f : TxCtx → TxCtx) : (d.onTx c f).tick = d.tick := rfl
@[simp] theorem Dev.onTx_cycle (d : Dev) (c : Nat) (f : TxCtx → TxCtx) : (d.onTx c f).cycle = d.cycle := rfl
@[simp] theorem Dev.onTx_regs (d : Dev) (c : Nat) (f : TxCtx → TxCtx) : (d.onTx c f).regs = d.regs := rfl
@[simp] theorem Dev.onTx_live (d : Dev) (c : Nat) (f : TxCtx → TxCtx) : (d.onTx c f).live = d.live := rfl
@[simp] theorem Dev.onTx_wide (d : Dev) (c : Nat) (f : TxCtx → TxCtx) : (d.onTx c f).wide = d.wide := rfl
@[simp] theorem Dev.onTx_latch (d : Dev) (c : Nat) (f : TxCtx → TxCtx) : (d.onTx c f).latch = d.latch := rfl
@[simp] theorem Dev.onTx_rdata (d : Dev) (c : Nat) (f : TxCtx → TxCtx) : (d.onTx c f).rdata = d.rdata := rfl
@[simp] theorem Dev.onTx_pendTick (d : Dev) (c : Nat) (f : TxCtx → TxCtx) : (d.onTx c f).pendTick = d.pendTick := rfl
@[simp] theorem Dev.onTx_frameWr (d : Dev) (c : Nat) (f : TxCtx → TxCtx) : (d.onTx c f).frameWr = d.frameWr := rfl
@[simp] theorem Dev.onTx_capGrp (d : Dev) (c : Nat) (f : TxCtx → TxCtx) : (d.onTx c f).capGrp = d.capGrp := rfl
@[simp] theorem Dev.onTx_held (d : Dev) (c : Nat) (f : TxCtx → TxCtx) : (d.onTx c f).held = d.held := rfl
@[simp] theorem Dev.onTx_agenda (d : Dev) (c : Nat) (f : TxCtx → TxCtx) : (d.onTx c f).agenda = d.agenda := rfl
@[simp] theorem Dev.onTx_flt (d : Dev) (c : Nat) (f : TxCtx → TxCtx) : (d.onTx c f).flt = d.flt := rfl
@[simp] theorem Dev.onTx_evt (d : Dev) (c : Nat) (f : TxCtx → TxCtx) : (d.onTx c f).evt = d.evt := rfl
@[simp] theorem Dev.onTx_bbx (d : Dev) (c : Nat) (f : TxCtx → TxCtx) : (d.onTx c f).bbx = d.bbx := rfl
@[simp] theorem Dev.onTx_thm (d : Dev) (c : Nat) (f : TxCtx → TxCtx) : (d.onTx c f).thm = d.thm := rfl
@[simp] theorem Dev.onTx_ctrlRst (d : Dev) (c : Nat) (f : TxCtx → TxCtx) : (d.onTx c f).ctrlRst = d.ctrlRst := rfl
@[simp] theorem Dev.onTx_mgmtRst (d : Dev) (c : Nat) (f : TxCtx → TxCtx) : (d.onTx c f).mgmtRst = d.mgmtRst := rfl
@[simp] theorem Dev.onTx_inReset (d : Dev) (c : Nat) (f : TxCtx → TxCtx) : (d.onTx c f).inReset = d.inReset := rfl
@[simp] theorem Dev.onTx_eng (d : Dev) (c : Nat) (f : TxCtx → TxCtx) : (d.onTx c f).eng = d.eng := rfl
@[simp] theorem Dev.onTx_ldr (d : Dev) (c : Nat) (f : TxCtx → TxCtx) : (d.onTx c f).ldr = d.ldr := rfl
@[simp] theorem Dev.onTx_pcie (d : Dev) (c : Nat) (f : TxCtx → TxCtx) : (d.onTx c f).pcie = d.pcie := rfl
@[simp] theorem Dev.onTx_testMode (d : Dev) (c : Nat) (f : TxCtx → TxCtx) : (d.onTx c f).testMode = d.testMode := rfl
@[simp] theorem Dev.onTx_cvuSeen (d : Dev) (c : Nat) (f : TxCtx → TxCtx) : (d.onTx c f).cvuSeen = d.cvuSeen := rfl
@[simp] theorem Dev.onTx_tdm (d : Dev) (c : Nat) (f : TxCtx → TxCtx) : (d.onTx c f).tdm = d.tdm := rfl
@[simp] theorem Dev.onTx_dec (d : Dev) (c : Nat) (f : TxCtx → TxCtx) : (d.onTx c f).dec = d.dec := rfl
@[simp] theorem Dev.onTx_pdmOn (d : Dev) (c : Nat) (f : TxCtx → TxCtx) : (d.onTx c f).pdmOn = d.pdmOn := rfl
@[simp] theorem Dev.onTx_clipM (d : Dev) (c : Nat) (f : TxCtx → TxCtx) : (d.onTx c f).clipM = d.clipM := rfl
@[simp] theorem Dev.onTx_mclk (d : Dev) (c : Nat) (f : TxCtx → TxCtx) : (d.onTx c f).mclk = d.mclk := rfl
@[simp] theorem Dev.onTx_mod (d : Dev) (c : Nat) (f : TxCtx → TxCtx) : (d.onTx c f).mod = d.mod := rfl
@[simp] theorem Dev.onTx_sns (d : Dev) (c : Nat) (f : TxCtx → TxCtx) : (d.onTx c f).sns = d.sns := rfl
@[simp] theorem Dev.onTx_snsOn (d : Dev) (c : Nat) (f : TxCtx → TxCtx) : (d.onTx c f).snsOn = d.snsOn := rfl
@[simp] theorem Dev.onTx_clk (d : Dev) (c : Nat) (f : TxCtx → TxCtx) : (d.onTx c f).clk = d.clk := rfl
@[simp] theorem Dev.onTx_time (d : Dev) (c : Nat) (f : TxCtx → TxCtx) : (d.onTx c f).time = d.time := rfl
@[simp] theorem Dev.onTx_mac (d : Dev) (c : Nat) (f : TxCtx → TxCtx) : (d.onTx c f).mac = d.mac := rfl
@[simp] theorem Dev.onTx_bus (d : Dev) (c : Nat) (f : TxCtx → TxCtx) : (d.onTx c f).bus = d.bus := rfl
@[simp] theorem Dev.onTx_mdioRd (d : Dev) (c : Nat) (f : TxCtx → TxCtx) : (d.onTx c f).mdioRd = d.mdioRd := rfl
@[simp] theorem Dev.onTx_ddr (d : Dev) (c : Nat) (f : TxCtx → TxCtx) : (d.onTx c f).ddr = d.ddr := rfl
@[simp] theorem Dev.onTx_gln (d : Dev) (c : Nat) (f : TxCtx → TxCtx) : (d.onTx c f).gln = d.gln := rfl
@[simp] theorem Dev.onTx_outsZ (d : Dev) (c : Nat) (f : TxCtx → TxCtx) : (d.onTx c f).outsZ = d.outsZ := rfl
@[simp] theorem Dev.onTx_begun (d : Dev) (c : Nat) (f : TxCtx → TxCtx) : (d.onTx c f).begun = d.begun := rfl
@[simp] theorem Dev.onTx_cvuOn (d : Dev) (c : Nat) (f : TxCtx → TxCtx) : (d.onTx c f).cvuOn = d.cvuOn := rfl
@[simp] theorem Dev.onTx_free (d : Dev) (c : Nat) (f : TxCtx → TxCtx) : (d.onTx c f).free = d.free := rfl
@[simp] theorem Dev.onTx_pair (d : Dev) (c : Nat) (f : TxCtx → TxCtx) : (d.onTx c f).pair = d.pair := rfl
@[simp] theorem Dev.onTx_cmd (d : Dev) (c : Nat) (f : TxCtx → TxCtx) : (d.onTx c f).cmd = d.cmd := rfl
@[simp] theorem Dev.onTx_boot (d : Dev) (c : Nat) (f : TxCtx → TxCtx) : (d.onTx c f).boot = d.boot := rfl
@[simp] theorem Dev.onTx_replayT (d : Dev) (c : Nat) (f : TxCtx → TxCtx) : (d.onTx c f).replayT = d.replayT := rfl
@[simp] theorem Dev.onTx_peerDec (d : Dev) (c : Nat) (f : TxCtx → TxCtx) : (d.onTx c f).peerDec = d.peerDec := rfl
@[simp] theorem Dev.onTx_out (d : Dev) (c : Nat) (f : TxCtx → TxCtx) : (d.onTx c f).out = d.out := rfl

end Sys2Proof.Machine
end

