-- ==== Sys2Proof/Laws/Raise.lean ====
section
/-!
SUPPORT. What a fault changes: FLTSTAT and FLTFIRST of its block, the block's fault state, EVT, and the messages of the PCI Express endpoint. All
else stays (R358 to R362, R368, R380).
-/
namespace Sys2Proof.Machine

/-- Messages sent or held change the endpoint alone. -/
theorem Dev.msix_fold (l : List Nat) (d : Dev) : ∃ g, l.foldl (fun d v => d.msix v) d = d.onPcie g := by
  induction l generalizing d with
  | nil => exact ⟨id, rfl⟩
  | cons v t ih =>
    obtain ⟨g, hg⟩ := ih (d.msix v)
    obtain ⟨k, hk⟩ : ∃ k, d.msix v = d.onPcie k := by unfold Dev.msix; exact ⟨_, rfl⟩
    exact ⟨fun p => g (k p), hg.trans (by rw [hk]; rfl)⟩

/-- The interrupt lines' update changes EVT and the endpoint alone. -/
theorem Dev.irqUpdate_eq (d : Dev) : ∃ f g, d.irqUpdate = (d.onPcie g).onEvt f := by
  obtain ⟨g, hg⟩ := Dev.msix_fold ((bitsOn 32 d.vecLines).filter (fun v => !bit d.evt.vecs v)) d
  exact ⟨fun e => { e with vecs := d.vecLines }, g, congrArg (fun x => x.onEvt (fun e => { e with vecs := d.vecLines })) hg⟩

/-- The same after a change of EVT. -/
theorem Dev.irqUpdate_onEvt (d : Dev) (k : Evt → Evt) : ∃ f g, (d.onEvt k).irqUpdate = (d.onPcie g).onEvt f := by
  obtain ⟨f, g, e⟩ := (d.onEvt k).irqUpdate_eq
  exact ⟨fun x => f (k x), g, e⟩

/-- What a fault leaves: its FLTSTAT bit set, FLTFIRST kept or written, and else nothing changed but the block's fault state, EVT and the
endpoint. -/
theorem Dev.raiseF_eq (d : Dev) (b src : Nat) (forced : Bool) (d0 d1 d2 : Nat) : ∃ w f g h,
    d.raiseF b src forced d0 d1 d2 =
      ((((d.setReg (R.fltstat b) (bitSet (d.reg (R.fltstat b)) src true)).setReg (R.fltfirst b) w).onFlt b f).onPcie g).onEvt h := by
  unfold Dev.raiseF
  extract_lets sev f stat first inWin recd old escal ff ff1 react yl hot f1 att p post mark
  obtain ⟨h, g, e⟩ := Dev.irqUpdate_onEvt (((d.setReg (R.fltstat b) stat).setReg (R.fltfirst b) ff1).onFlt b (fun _ => f1)) (fun e => post (mark e))
  exact ⟨ff1, _, g, h, e⟩

/-- The same of a fault with no force at its site. -/
theorem Dev.raise_eq (d : Dev) (b src d0 d1 d2 : Nat) : ∃ w f g h,
    d.raise b src d0 d1 d2 =
      ((((d.setReg (R.fltstat b) (bitSet (d.reg (R.fltstat b)) src true)).setReg (R.fltfirst b) w).onFlt b f).onPcie g).onEvt h :=
  d.raiseF_eq b src false d0 d1 d2

/-- A register other than FLTSTAT and FLTFIRST of its block keeps its value over a fault. -/
theorem Dev.reg_raise_ne (d : Dev) (b src d0 d1 d2 o : Nat) (h1 : o ≠ R.fltstat b) (h2 : o ≠ R.fltfirst b) :
    (d.raise b src d0 d1 d2).reg o = d.reg o := by
  obtain ⟨w, f, g, h, e⟩ := d.raise_eq b src d0 d1 d2
  rw [e]
  exact (Dev.reg_setReg_ne _ _ _ _ h2).trans (Dev.reg_setReg_ne _ _ _ _ h1)

theorem Dev.lv_raise_ne (d : Dev) (b src d0 d1 d2 o : Nat) (h1 : o ≠ R.fltstat b) (h2 : o ≠ R.fltfirst b) :
    (d.raise b src d0 d1 d2).lv o = d.lv o := by
  obtain ⟨w, f, g, h, e⟩ := d.raise_eq b src d0 d1 d2
  rw [e]
  exact (Dev.lv_setReg_ne _ _ _ _ h2).trans (Dev.lv_setReg_ne _ _ _ _ h1)

/-- The FLTSTAT bit of a fault is set. -/
theorem Dev.reg_raise (d : Dev) (b src d0 d1 d2 : Nat) (h : R.fltstat b ≠ R.fltfirst b) :
    (d.raise b src d0 d1 d2).reg (R.fltstat b) = bitSet (d.reg (R.fltstat b)) src true % 2 ^ 32 := by
  obtain ⟨w, f, g, k, e⟩ := d.raise_eq b src d0 d1 d2
  rw [e]
  exact (Dev.reg_setReg_ne _ _ _ _ h).trans (Dev.reg_setReg _ _ _)

/-! ## Field by field -/

@[simp] theorem Dev.raise_tick (d : Dev) (b src d0 d1 d2 : Nat) : (d.raise b src d0 d1 d2).tick = d.tick := by
  obtain ⟨w, f, g, h, e⟩ := d.raise_eq b src d0 d1 d2
  rw [e]
  rfl
@[simp] theorem Dev.raise_cycle (d : Dev) (b src d0 d1 d2 : Nat) : (d.raise b src d0 d1 d2).cycle = d.cycle := by
  obtain ⟨w, f, g, h, e⟩ := d.raise_eq b src d0 d1 d2
  rw [e]
  rfl
@[simp] theorem Dev.raise_wide (d : Dev) (b src d0 d1 d2 : Nat) : (d.raise b src d0 d1 d2).wide = d.wide := by
  obtain ⟨w, f, g, h, e⟩ := d.raise_eq b src d0 d1 d2
  rw [e]
  rfl
@[simp] theorem Dev.raise_latch (d : Dev) (b src d0 d1 d2 : Nat) : (d.raise b src d0 d1 d2).latch = d.latch := by
  obtain ⟨w, f, g, h, e⟩ := d.raise_eq b src d0 d1 d2
  rw [e]
  rfl
@[simp] theorem Dev.raise_rdata (d : Dev) (b src d0 d1 d2 : Nat) : (d.raise b src d0 d1 d2).rdata = d.rdata := by
  obtain ⟨w, f, g, h, e⟩ := d.raise_eq b src d0 d1 d2
  rw [e]
  rfl
@[simp] theorem Dev.raise_pendTick (d : Dev) (b src d0 d1 d2 : Nat) : (d.raise b src d0 d1 d2).pendTick = d.pendTick := by
  obtain ⟨w, f, g, h, e⟩ := d.raise_eq b src d0 d1 d2
  rw [e]
  rfl
@[simp] theorem Dev.raise_frameWr (d : Dev) (b src d0 d1 d2 : Nat) : (d.raise b src d0 d1 d2).frameWr = d.frameWr := by
  obtain ⟨w, f, g, h, e⟩ := d.raise_eq b src d0 d1 d2
  rw [e]
  rfl
@[simp] theorem Dev.raise_capGrp (d : Dev) (b src d0 d1 d2 : Nat) : (d.raise b src d0 d1 d2).capGrp = d.capGrp := by
  obtain ⟨w, f, g, h, e⟩ := d.raise_eq b src d0 d1 d2
  rw [e]
  rfl
@[simp] theorem Dev.raise_held (d : Dev) (b src d0 d1 d2 : Nat) : (d.raise b src d0 d1 d2).held = d.held := by
  obtain ⟨w, f, g, h, e⟩ := d.raise_eq b src d0 d1 d2
  rw [e]
  rfl
@[simp] theorem Dev.raise_agenda (d : Dev) (b src d0 d1 d2 : Nat) : (d.raise b src d0 d1 d2).agenda = d.agenda := by
  obtain ⟨w, f, g, h, e⟩ := d.raise_eq b src d0 d1 d2
  rw [e]
  rfl
@[simp] theorem Dev.raise_bbx (d : Dev) (b src d0 d1 d2 : Nat) : (d.raise b src d0 d1 d2).bbx = d.bbx := by
  obtain ⟨w, f, g, h, e⟩ := d.raise_eq b src d0 d1 d2
  rw [e]
  rfl
@[simp] theorem Dev.raise_thm (d : Dev) (b src d0 d1 d2 : Nat) : (d.raise b src d0 d1 d2).thm = d.thm := by
  obtain ⟨w, f, g, h, e⟩ := d.raise_eq b src d0 d1 d2
  rw [e]
  rfl
@[simp] theorem Dev.raise_ctrlRst (d : Dev) (b src d0 d1 d2 : Nat) : (d.raise b src d0 d1 d2).ctrlRst = d.ctrlRst := by
  obtain ⟨w, f, g, h, e⟩ := d.raise_eq b src d0 d1 d2
  rw [e]
  rfl
@[simp] theorem Dev.raise_mgmtRst (d : Dev) (b src d0 d1 d2 : Nat) : (d.raise b src d0 d1 d2).mgmtRst = d.mgmtRst := by
  obtain ⟨w, f, g, h, e⟩ := d.raise_eq b src d0 d1 d2
  rw [e]
  rfl
@[simp] theorem Dev.raise_inReset (d : Dev) (b src d0 d1 d2 : Nat) : (d.raise b src d0 d1 d2).inReset = d.inReset := by
  obtain ⟨w, f, g, h, e⟩ := d.raise_eq b src d0 d1 d2
  rw [e]
  rfl
@[simp] theorem Dev.raise_eng (d : Dev) (b src d0 d1 d2 : Nat) : (d.raise b src d0 d1 d2).eng = d.eng := by
  obtain ⟨w, f, g, h, e⟩ := d.raise_eq b src d0 d1 d2
  rw [e]
  rfl
@[simp] theorem Dev.raise_ldr (d : Dev) (b src d0 d1 d2 : Nat) : (d.raise b src d0 d1 d2).ldr = d.ldr := by
  obtain ⟨w, f, g, h, e⟩ := d.raise_eq b src d0 d1 d2
  rw [e]
  rfl
@[simp] theorem Dev.raise_testMode (d : Dev) (b src d0 d1 d2 : Nat) : (d.raise b src d0 d1 d2).testMode = d.testMode := by
  obtain ⟨w, f, g, h, e⟩ := d.raise_eq b src d0 d1 d2
  rw [e]
  rfl
@[simp] theorem Dev.raise_cvuSeen (d : Dev) (b src d0 d1 d2 : Nat) : (d.raise b src d0 d1 d2).cvuSeen = d.cvuSeen := by
  obtain ⟨w, f, g, h, e⟩ := d.raise_eq b src d0 d1 d2
  rw [e]
  rfl
@[simp] theorem Dev.raise_tdm (d : Dev) (b src d0 d1 d2 : Nat) : (d.raise b src d0 d1 d2).tdm = d.tdm := by
  obtain ⟨w, f, g, h, e⟩ := d.raise_eq b src d0 d1 d2
  rw [e]
  rfl
@[simp] theorem Dev.raise_dec (d : Dev) (b src d0 d1 d2 : Nat) : (d.raise b src d0 d1 d2).dec = d.dec := by
  obtain ⟨w, f, g, h, e⟩ := d.raise_eq b src d0 d1 d2
  rw [e]
  rfl
@[simp] theorem Dev.raise_pdmOn (d : Dev) (b src d0 d1 d2 : Nat) : (d.raise b src d0 d1 d2).pdmOn = d.pdmOn := by
  obtain ⟨w, f, g, h, e⟩ := d.raise_eq b src d0 d1 d2
  rw [e]
  rfl
@[simp] theorem Dev.raise_clipM (d : Dev) (b src d0 d1 d2 : Nat) : (d.raise b src d0 d1 d2).clipM = d.clipM := by
  obtain ⟨w, f, g, h, e⟩ := d.raise_eq b src d0 d1 d2
  rw [e]
  rfl
@[simp] theorem Dev.raise_mclk (d : Dev) (b src d0 d1 d2 : Nat) : (d.raise b src d0 d1 d2).mclk = d.mclk := by
  obtain ⟨w, f, g, h, e⟩ := d.raise_eq b src d0 d1 d2
  rw [e]
  rfl
@[simp] theorem Dev.raise_mod (d : Dev) (b src d0 d1 d2 : Nat) : (d.raise b src d0 d1 d2).mod = d.mod := by
  obtain ⟨w, f, g, h, e⟩ := d.raise_eq b src d0 d1 d2
  rw [e]
  rfl
@[simp] theorem Dev.raise_sns (d : Dev) (b src d0 d1 d2 : Nat) : (d.raise b src d0 d1 d2).sns = d.sns := by
  obtain ⟨w, f, g, h, e⟩ := d.raise_eq b src d0 d1 d2
  rw [e]
  rfl
@[simp] theorem Dev.raise_snsOn (d : Dev) (b src d0 d1 d2 : Nat) : (d.raise b src d0 d1 d2).snsOn = d.snsOn := by
  obtain ⟨w, f, g, h, e⟩ := d.raise_eq b src d0 d1 d2
  rw [e]
  rfl
@[simp] theorem Dev.raise_clk (d : Dev) (b src d0 d1 d2 : Nat) : (d.raise b src d0 d1 d2).clk = d.clk := by
  obtain ⟨w, f, g, h, e⟩ := d.raise_eq b src d0 d1 d2
  rw [e]
  rfl
@[simp] theorem Dev.raise_time (d : Dev) (b src d0 d1 d2 : Nat) : (d.raise b src d0 d1 d2).time = d.time := by
  obtain ⟨w, f, g, h, e⟩ := d.raise_eq b src d0 d1 d2
  rw [e]
  rfl
@[simp] theorem Dev.raise_mac (d : Dev) (b src d0 d1 d2 : Nat) : (d.raise b src d0 d1 d2).mac = d.mac := by
  obtain ⟨w, f, g, h, e⟩ := d.raise_eq b src d0 d1 d2
  rw [e]
  rfl
@[simp] theorem Dev.raise_bus (d : Dev) (b src d0 d1 d2 : Nat) : (d.raise b src d0 d1 d2).bus = d.bus := by
  obtain ⟨w, f, g, h, e⟩ := d.raise_eq b src d0 d1 d2
  rw [e]
  rfl
@[simp] theorem Dev.raise_mdioRd (d : Dev) (b src d0 d1 d2 : Nat) : (d.raise b src d0 d1 d2).mdioRd = d.mdioRd := by
  obtain ⟨w, f, g, h, e⟩ := d.raise_eq b src d0 d1 d2
  rw [e]
  rfl
@[simp] theorem Dev.raise_strm (d : Dev) (b src d0 d1 d2 : Nat) : (d.raise b src d0 d1 d2).strm = d.strm := by
  obtain ⟨w, f, g, h, e⟩ := d.raise_eq b src d0 d1 d2
  rw [e]
  rfl
@[simp] theorem Dev.raise_ddr (d : Dev) (b src d0 d1 d2 : Nat) : (d.raise b src d0 d1 d2).ddr = d.ddr := by
  obtain ⟨w, f, g, h, e⟩ := d.raise_eq b src d0 d1 d2
  rw [e]
  rfl
@[simp] theorem Dev.raise_gln (d : Dev) (b src d0 d1 d2 : Nat) : (d.raise b src d0 d1 d2).gln = d.gln := by
  obtain ⟨w, f, g, h, e⟩ := d.raise_eq b src d0 d1 d2
  rw [e]
  rfl
@[simp] theorem Dev.raise_outsZ (d : Dev) (b src d0 d1 d2 : Nat) : (d.raise b src d0 d1 d2).outsZ = d.outsZ := by
  obtain ⟨w, f, g, h, e⟩ := d.raise_eq b src d0 d1 d2
  rw [e]
  rfl
@[simp] theorem Dev.raise_free (d : Dev) (b src d0 d1 d2 : Nat) : (d.raise b src d0 d1 d2).free = d.free := by
  obtain ⟨w, f, g, h, e⟩ := d.raise_eq b src d0 d1 d2
  rw [e]
  rfl
@[simp] theorem Dev.raise_pair (d : Dev) (b src d0 d1 d2 : Nat) : (d.raise b src d0 d1 d2).pair = d.pair := by
  obtain ⟨w, f, g, h, e⟩ := d.raise_eq b src d0 d1 d2
  rw [e]
  rfl
@[simp] theorem Dev.raise_cmd (d : Dev) (b src d0 d1 d2 : Nat) : (d.raise b src d0 d1 d2).cmd = d.cmd := by
  obtain ⟨w, f, g, h, e⟩ := d.raise_eq b src d0 d1 d2
  rw [e]
  rfl
@[simp] theorem Dev.raise_boot (d : Dev) (b src d0 d1 d2 : Nat) : (d.raise b src d0 d1 d2).boot = d.boot := by
  obtain ⟨w, f, g, h, e⟩ := d.raise_eq b src d0 d1 d2
  rw [e]
  rfl
@[simp] theorem Dev.raise_replayT (d : Dev) (b src d0 d1 d2 : Nat) : (d.raise b src d0 d1 d2).replayT = d.replayT := by
  obtain ⟨w, f, g, h, e⟩ := d.raise_eq b src d0 d1 d2
  rw [e]
  rfl
@[simp] theorem Dev.raise_peerDec (d : Dev) (b src d0 d1 d2 : Nat) : (d.raise b src d0 d1 d2).peerDec = d.peerDec := by
  obtain ⟨w, f, g, h, e⟩ := d.raise_eq b src d0 d1 d2
  rw [e]
  rfl
@[simp] theorem Dev.raise_out (d : Dev) (b src d0 d1 d2 : Nat) : (d.raise b src d0 d1 d2).out = d.out := by
  obtain ⟨w, f, g, h, e⟩ := d.raise_eq b src d0 d1 d2
  rw [e]
  rfl

@[simp] theorem Dev.irqUpdate_tick (d : Dev) : d.irqUpdate.tick = d.tick := by
  obtain ⟨f, g, e⟩ := d.irqUpdate_eq
  rw [e]
  rfl
@[simp] theorem Dev.irqUpdate_cycle (d : Dev) : d.irqUpdate.cycle = d.cycle := by
  obtain ⟨f, g, e⟩ := d.irqUpdate_eq
  rw [e]
  rfl
@[simp] theorem Dev.irqUpdate_wide (d : Dev) : d.irqUpdate.wide = d.wide := by
  obtain ⟨f, g, e⟩ := d.irqUpdate_eq
  rw [e]
  rfl
@[simp] theorem Dev.irqUpdate_latch (d : Dev) : d.irqUpdate.latch = d.latch := by
  obtain ⟨f, g, e⟩ := d.irqUpdate_eq
  rw [e]
  rfl
@[simp] theorem Dev.irqUpdate_rdata (d : Dev) : d.irqUpdate.rdata = d.rdata := by
  obtain ⟨f, g, e⟩ := d.irqUpdate_eq
  rw [e]
  rfl
@[simp] theorem Dev.irqUpdate_pendTick (d : Dev) : d.irqUpdate.pendTick = d.pendTick := by
  obtain ⟨f, g, e⟩ := d.irqUpdate_eq
  rw [e]
  rfl
@[simp] theorem Dev.irqUpdate_frameWr (d : Dev) : d.irqUpdate.frameWr = d.frameWr := by
  obtain ⟨f, g, e⟩ := d.irqUpdate_eq
  rw [e]
  rfl
@[simp] theorem Dev.irqUpdate_capGrp (d : Dev) : d.irqUpdate.capGrp = d.capGrp := by
  obtain ⟨f, g, e⟩ := d.irqUpdate_eq
  rw [e]
  rfl
@[simp] theorem Dev.irqUpdate_held (d : Dev) : d.irqUpdate.held = d.held := by
  obtain ⟨f, g, e⟩ := d.irqUpdate_eq
  rw [e]
  rfl
@[simp] theorem Dev.irqUpdate_agenda (d : Dev) : d.irqUpdate.agenda = d.agenda := by
  obtain ⟨f, g, e⟩ := d.irqUpdate_eq
  rw [e]
  rfl
@[simp] theorem Dev.irqUpdate_bbx (d : Dev) : d.irqUpdate.bbx = d.bbx := by
  obtain ⟨f, g, e⟩ := d.irqUpdate_eq
  rw [e]
  rfl
@[simp] theorem Dev.irqUpdate_thm (d : Dev) : d.irqUpdate.thm = d.thm := by
  obtain ⟨f, g, e⟩ := d.irqUpdate_eq
  rw [e]
  rfl
@[simp] theorem Dev.irqUpdate_ctrlRst (d : Dev) : d.irqUpdate.ctrlRst = d.ctrlRst := by
  obtain ⟨f, g, e⟩ := d.irqUpdate_eq
  rw [e]
  rfl
@[simp] theorem Dev.irqUpdate_mgmtRst (d : Dev) : d.irqUpdate.mgmtRst = d.mgmtRst := by
  obtain ⟨f, g, e⟩ := d.irqUpdate_eq
  rw [e]
  rfl
@[simp] theorem Dev.irqUpdate_inReset (d : Dev) : d.irqUpdate.inReset = d.inReset := by
  obtain ⟨f, g, e⟩ := d.irqUpdate_eq
  rw [e]
  rfl
@[simp] theorem Dev.irqUpdate_eng (d : Dev) : d.irqUpdate.eng = d.eng := by
  obtain ⟨f, g, e⟩ := d.irqUpdate_eq
  rw [e]
  rfl
@[simp] theorem Dev.irqUpdate_ldr (d : Dev) : d.irqUpdate.ldr = d.ldr := by
  obtain ⟨f, g, e⟩ := d.irqUpdate_eq
  rw [e]
  rfl
@[simp] theorem Dev.irqUpdate_testMode (d : Dev) : d.irqUpdate.testMode = d.testMode := by
  obtain ⟨f, g, e⟩ := d.irqUpdate_eq
  rw [e]
  rfl
@[simp] theorem Dev.irqUpdate_cvuSeen (d : Dev) : d.irqUpdate.cvuSeen = d.cvuSeen := by
  obtain ⟨f, g, e⟩ := d.irqUpdate_eq
  rw [e]
  rfl
@[simp] theorem Dev.irqUpdate_tdm (d : Dev) : d.irqUpdate.tdm = d.tdm := by
  obtain ⟨f, g, e⟩ := d.irqUpdate_eq
  rw [e]
  rfl
@[simp] theorem Dev.irqUpdate_dec (d : Dev) : d.irqUpdate.dec = d.dec := by
  obtain ⟨f, g, e⟩ := d.irqUpdate_eq
  rw [e]
  rfl
@[simp] theorem Dev.irqUpdate_pdmOn (d : Dev) : d.irqUpdate.pdmOn = d.pdmOn := by
  obtain ⟨f, g, e⟩ := d.irqUpdate_eq
  rw [e]
  rfl
@[simp] theorem Dev.irqUpdate_clipM (d : Dev) : d.irqUpdate.clipM = d.clipM := by
  obtain ⟨f, g, e⟩ := d.irqUpdate_eq
  rw [e]
  rfl
@[simp] theorem Dev.irqUpdate_mclk (d : Dev) : d.irqUpdate.mclk = d.mclk := by
  obtain ⟨f, g, e⟩ := d.irqUpdate_eq
  rw [e]
  rfl
@[simp] theorem Dev.irqUpdate_mod (d : Dev) : d.irqUpdate.mod = d.mod := by
  obtain ⟨f, g, e⟩ := d.irqUpdate_eq
  rw [e]
  rfl
@[simp] theorem Dev.irqUpdate_sns (d : Dev) : d.irqUpdate.sns = d.sns := by
  obtain ⟨f, g, e⟩ := d.irqUpdate_eq
  rw [e]
  rfl
@[simp] theorem Dev.irqUpdate_snsOn (d : Dev) : d.irqUpdate.snsOn = d.snsOn := by
  obtain ⟨f, g, e⟩ := d.irqUpdate_eq
  rw [e]
  rfl
@[simp] theorem Dev.irqUpdate_clk (d : Dev) : d.irqUpdate.clk = d.clk := by
  obtain ⟨f, g, e⟩ := d.irqUpdate_eq
  rw [e]
  rfl
@[simp] theorem Dev.irqUpdate_time (d : Dev) : d.irqUpdate.time = d.time := by
  obtain ⟨f, g, e⟩ := d.irqUpdate_eq
  rw [e]
  rfl
@[simp] theorem Dev.irqUpdate_mac (d : Dev) : d.irqUpdate.mac = d.mac := by
  obtain ⟨f, g, e⟩ := d.irqUpdate_eq
  rw [e]
  rfl
@[simp] theorem Dev.irqUpdate_bus (d : Dev) : d.irqUpdate.bus = d.bus := by
  obtain ⟨f, g, e⟩ := d.irqUpdate_eq
  rw [e]
  rfl
@[simp] theorem Dev.irqUpdate_mdioRd (d : Dev) : d.irqUpdate.mdioRd = d.mdioRd := by
  obtain ⟨f, g, e⟩ := d.irqUpdate_eq
  rw [e]
  rfl
@[simp] theorem Dev.irqUpdate_strm (d : Dev) : d.irqUpdate.strm = d.strm := by
  obtain ⟨f, g, e⟩ := d.irqUpdate_eq
  rw [e]
  rfl
@[simp] theorem Dev.irqUpdate_ddr (d : Dev) : d.irqUpdate.ddr = d.ddr := by
  obtain ⟨f, g, e⟩ := d.irqUpdate_eq
  rw [e]
  rfl
@[simp] theorem Dev.irqUpdate_gln (d : Dev) : d.irqUpdate.gln = d.gln := by
  obtain ⟨f, g, e⟩ := d.irqUpdate_eq
  rw [e]
  rfl
@[simp] theorem Dev.irqUpdate_outsZ (d : Dev) : d.irqUpdate.outsZ = d.outsZ := by
  obtain ⟨f, g, e⟩ := d.irqUpdate_eq
  rw [e]
  rfl
@[simp] theorem Dev.irqUpdate_free (d : Dev) : d.irqUpdate.free = d.free := by
  obtain ⟨f, g, e⟩ := d.irqUpdate_eq
  rw [e]
  rfl
@[simp] theorem Dev.irqUpdate_pair (d : Dev) : d.irqUpdate.pair = d.pair := by
  obtain ⟨f, g, e⟩ := d.irqUpdate_eq
  rw [e]
  rfl
@[simp] theorem Dev.irqUpdate_cmd (d : Dev) : d.irqUpdate.cmd = d.cmd := by
  obtain ⟨f, g, e⟩ := d.irqUpdate_eq
  rw [e]
  rfl
@[simp] theorem Dev.irqUpdate_boot (d : Dev) : d.irqUpdate.boot = d.boot := by
  obtain ⟨f, g, e⟩ := d.irqUpdate_eq
  rw [e]
  rfl
@[simp] theorem Dev.irqUpdate_replayT (d : Dev) : d.irqUpdate.replayT = d.replayT := by
  obtain ⟨f, g, e⟩ := d.irqUpdate_eq
  rw [e]
  rfl
@[simp] theorem Dev.irqUpdate_peerDec (d : Dev) : d.irqUpdate.peerDec = d.peerDec := by
  obtain ⟨f, g, e⟩ := d.irqUpdate_eq
  rw [e]
  rfl
@[simp] theorem Dev.irqUpdate_out (d : Dev) : d.irqUpdate.out = d.out := by
  obtain ⟨f, g, e⟩ := d.irqUpdate_eq
  rw [e]
  rfl
@[simp] theorem Dev.irqUpdate_regs (d : Dev) : d.irqUpdate.regs = d.regs := by
  obtain ⟨f, g, e⟩ := d.irqUpdate_eq
  rw [e]
  rfl
@[simp] theorem Dev.irqUpdate_live (d : Dev) : d.irqUpdate.live = d.live := by
  obtain ⟨f, g, e⟩ := d.irqUpdate_eq
  rw [e]
  rfl
@[simp] theorem Dev.raiseF_tick (d : Dev) (b src : Nat) (forced : Bool) (d0 d1 d2 : Nat) :
    (d.raiseF b src forced d0 d1 d2).tick = d.tick := by
  obtain ⟨w, f, g, h, e⟩ := d.raiseF_eq b src forced d0 d1 d2
  rw [e]
  rfl
@[simp] theorem Dev.raiseF_cycle (d : Dev) (b src : Nat) (forced : Bool) (d0 d1 d2 : Nat) :
    (d.raiseF b src forced d0 d1 d2).cycle = d.cycle := by
  obtain ⟨w, f, g, h, e⟩ := d.raiseF_eq b src forced d0 d1 d2
  rw [e]
  rfl
@[simp] theorem Dev.raiseF_wide (d : Dev) (b src : Nat) (forced : Bool) (d0 d1 d2 : Nat) :
    (d.raiseF b src forced d0 d1 d2).wide = d.wide := by
  obtain ⟨w, f, g, h, e⟩ := d.raiseF_eq b src forced d0 d1 d2
  rw [e]
  rfl
@[simp] theorem Dev.raiseF_latch (d : Dev) (b src : Nat) (forced : Bool) (d0 d1 d2 : Nat) :
    (d.raiseF b src forced d0 d1 d2).latch = d.latch := by
  obtain ⟨w, f, g, h, e⟩ := d.raiseF_eq b src forced d0 d1 d2
  rw [e]
  rfl
@[simp] theorem Dev.raiseF_rdata (d : Dev) (b src : Nat) (forced : Bool) (d0 d1 d2 : Nat) :
    (d.raiseF b src forced d0 d1 d2).rdata = d.rdata := by
  obtain ⟨w, f, g, h, e⟩ := d.raiseF_eq b src forced d0 d1 d2
  rw [e]
  rfl
@[simp] theorem Dev.raiseF_pendTick (d : Dev) (b src : Nat) (forced : Bool) (d0 d1 d2 : Nat) :
    (d.raiseF b src forced d0 d1 d2).pendTick = d.pendTick := by
  obtain ⟨w, f, g, h, e⟩ := d.raiseF_eq b src forced d0 d1 d2
  rw [e]
  rfl
@[simp] theorem Dev.raiseF_frameWr (d : Dev) (b src : Nat) (forced : Bool) (d0 d1 d2 : Nat) :
    (d.raiseF b src forced d0 d1 d2).frameWr = d.frameWr := by
  obtain ⟨w, f, g, h, e⟩ := d.raiseF_eq b src forced d0 d1 d2
  rw [e]
  rfl
@[simp] theorem Dev.raiseF_capGrp (d : Dev) (b src : Nat) (forced : Bool) (d0 d1 d2 : Nat) :
    (d.raiseF b src forced d0 d1 d2).capGrp = d.capGrp := by
  obtain ⟨w, f, g, h, e⟩ := d.raiseF_eq b src forced d0 d1 d2
  rw [e]
  rfl
@[simp] theorem Dev.raiseF_held (d : Dev) (b src : Nat) (forced : Bool) (d0 d1 d2 : Nat) :
    (d.raiseF b src forced d0 d1 d2).held = d.held := by
  obtain ⟨w, f, g, h, e⟩ := d.raiseF_eq b src forced d0 d1 d2
  rw [e]
  rfl
@[simp] theorem Dev.raiseF_agenda (d : Dev) (b src : Nat) (forced : Bool) (d0 d1 d2 : Nat) :
    (d.raiseF b src forced d0 d1 d2).agenda = d.agenda := by
  obtain ⟨w, f, g, h, e⟩ := d.raiseF_eq b src forced d0 d1 d2
  rw [e]
  rfl
@[simp] theorem Dev.raiseF_bbx (d : Dev) (b src : Nat) (forced : Bool) (d0 d1 d2 : Nat) :
    (d.raiseF b src forced d0 d1 d2).bbx = d.bbx := by
  obtain ⟨w, f, g, h, e⟩ := d.raiseF_eq b src forced d0 d1 d2
  rw [e]
  rfl
@[simp] theorem Dev.raiseF_thm (d : Dev) (b src : Nat) (forced : Bool) (d0 d1 d2 : Nat) :
    (d.raiseF b src forced d0 d1 d2).thm = d.thm := by
  obtain ⟨w, f, g, h, e⟩ := d.raiseF_eq b src forced d0 d1 d2
  rw [e]
  rfl
@[simp] theorem Dev.raiseF_ctrlRst (d : Dev) (b src : Nat) (forced : Bool) (d0 d1 d2 : Nat) :
    (d.raiseF b src forced d0 d1 d2).ctrlRst = d.ctrlRst := by
  obtain ⟨w, f, g, h, e⟩ := d.raiseF_eq b src forced d0 d1 d2
  rw [e]
  rfl
@[simp] theorem Dev.raiseF_mgmtRst (d : Dev) (b src : Nat) (forced : Bool) (d0 d1 d2 : Nat) :
    (d.raiseF b src forced d0 d1 d2).mgmtRst = d.mgmtRst := by
  obtain ⟨w, f, g, h, e⟩ := d.raiseF_eq b src forced d0 d1 d2
  rw [e]
  rfl
@[simp] theorem Dev.raiseF_inReset (d : Dev) (b src : Nat) (forced : Bool) (d0 d1 d2 : Nat) :
    (d.raiseF b src forced d0 d1 d2).inReset = d.inReset := by
  obtain ⟨w, f, g, h, e⟩ := d.raiseF_eq b src forced d0 d1 d2
  rw [e]
  rfl
@[simp] theorem Dev.raiseF_eng (d : Dev) (b src : Nat) (forced : Bool) (d0 d1 d2 : Nat) :
    (d.raiseF b src forced d0 d1 d2).eng = d.eng := by
  obtain ⟨w, f, g, h, e⟩ := d.raiseF_eq b src forced d0 d1 d2
  rw [e]
  rfl
@[simp] theorem Dev.raiseF_ldr (d : Dev) (b src : Nat) (forced : Bool) (d0 d1 d2 : Nat) :
    (d.raiseF b src forced d0 d1 d2).ldr = d.ldr := by
  obtain ⟨w, f, g, h, e⟩ := d.raiseF_eq b src forced d0 d1 d2
  rw [e]
  rfl
@[simp] theorem Dev.raiseF_testMode (d : Dev) (b src : Nat) (forced : Bool) (d0 d1 d2 : Nat) :
    (d.raiseF b src forced d0 d1 d2).testMode = d.testMode := by
  obtain ⟨w, f, g, h, e⟩ := d.raiseF_eq b src forced d0 d1 d2
  rw [e]
  rfl
@[simp] theorem Dev.raiseF_cvuSeen (d : Dev) (b src : Nat) (forced : Bool) (d0 d1 d2 : Nat) :
    (d.raiseF b src forced d0 d1 d2).cvuSeen = d.cvuSeen := by
  obtain ⟨w, f, g, h, e⟩ := d.raiseF_eq b src forced d0 d1 d2
  rw [e]
  rfl
@[simp] theorem Dev.raiseF_tdm (d : Dev) (b src : Nat) (forced : Bool) (d0 d1 d2 : Nat) :
    (d.raiseF b src forced d0 d1 d2).tdm = d.tdm := by
  obtain ⟨w, f, g, h, e⟩ := d.raiseF_eq b src forced d0 d1 d2
  rw [e]
  rfl
@[simp] theorem Dev.raiseF_dec (d : Dev) (b src : Nat) (forced : Bool) (d0 d1 d2 : Nat) :
    (d.raiseF b src forced d0 d1 d2).dec = d.dec := by
  obtain ⟨w, f, g, h, e⟩ := d.raiseF_eq b src forced d0 d1 d2
  rw [e]
  rfl
@[simp] theorem Dev.raiseF_pdmOn (d : Dev) (b src : Nat) (forced : Bool) (d0 d1 d2 : Nat) :
    (d.raiseF b src forced d0 d1 d2).pdmOn = d.pdmOn := by
  obtain ⟨w, f, g, h, e⟩ := d.raiseF_eq b src forced d0 d1 d2
  rw [e]
  rfl
@[simp] theorem Dev.raiseF_clipM (d : Dev) (b src : Nat) (forced : Bool) (d0 d1 d2 : Nat) :
    (d.raiseF b src forced d0 d1 d2).clipM = d.clipM := by
  obtain ⟨w, f, g, h, e⟩ := d.raiseF_eq b src forced d0 d1 d2
  rw [e]
  rfl
@[simp] theorem Dev.raiseF_mclk (d : Dev) (b src : Nat) (forced : Bool) (d0 d1 d2 : Nat) :
    (d.raiseF b src forced d0 d1 d2).mclk = d.mclk := by
  obtain ⟨w, f, g, h, e⟩ := d.raiseF_eq b src forced d0 d1 d2
  rw [e]
  rfl
@[simp] theorem Dev.raiseF_mod (d : Dev) (b src : Nat) (forced : Bool) (d0 d1 d2 : Nat) :
    (d.raiseF b src forced d0 d1 d2).mod = d.mod := by
  obtain ⟨w, f, g, h, e⟩ := d.raiseF_eq b src forced d0 d1 d2
  rw [e]
  rfl
@[simp] theorem Dev.raiseF_sns (d : Dev) (b src : Nat) (forced : Bool) (d0 d1 d2 : Nat) :
    (d.raiseF b src forced d0 d1 d2).sns = d.sns := by
  obtain ⟨w, f, g, h, e⟩ := d.raiseF_eq b src forced d0 d1 d2
  rw [e]
  rfl
@[simp] theorem Dev.raiseF_snsOn (d : Dev) (b src : Nat) (forced : Bool) (d0 d1 d2 : Nat) :
    (d.raiseF b src forced d0 d1 d2).snsOn = d.snsOn := by
  obtain ⟨w, f, g, h, e⟩ := d.raiseF_eq b src forced d0 d1 d2
  rw [e]
  rfl
@[simp] theorem Dev.raiseF_clk (d : Dev) (b src : Nat) (forced : Bool) (d0 d1 d2 : Nat) :
    (d.raiseF b src forced d0 d1 d2).clk = d.clk := by
  obtain ⟨w, f, g, h, e⟩ := d.raiseF_eq b src forced d0 d1 d2
  rw [e]
  rfl
@[simp] theorem Dev.raiseF_time (d : Dev) (b src : Nat) (forced : Bool) (d0 d1 d2 : Nat) :
    (d.raiseF b src forced d0 d1 d2).time = d.time := by
  obtain ⟨w, f, g, h, e⟩ := d.raiseF_eq b src forced d0 d1 d2
  rw [e]
  rfl
@[simp] theorem Dev.raiseF_mac (d : Dev) (b src : Nat) (forced : Bool) (d0 d1 d2 : Nat) :
    (d.raiseF b src forced d0 d1 d2).mac = d.mac := by
  obtain ⟨w, f, g, h, e⟩ := d.raiseF_eq b src forced d0 d1 d2
  rw [e]
  rfl
@[simp] theorem Dev.raiseF_bus (d : Dev) (b src : Nat) (forced : Bool) (d0 d1 d2 : Nat) :
    (d.raiseF b src forced d0 d1 d2).bus = d.bus := by
  obtain ⟨w, f, g, h, e⟩ := d.raiseF_eq b src forced d0 d1 d2
  rw [e]
  rfl
@[simp] theorem Dev.raiseF_mdioRd (d : Dev) (b src : Nat) (forced : Bool) (d0 d1 d2 : Nat) :
    (d.raiseF b src forced d0 d1 d2).mdioRd = d.mdioRd := by
  obtain ⟨w, f, g, h, e⟩ := d.raiseF_eq b src forced d0 d1 d2
  rw [e]
  rfl
@[simp] theorem Dev.raiseF_strm (d : Dev) (b src : Nat) (forced : Bool) (d0 d1 d2 : Nat) :
    (d.raiseF b src forced d0 d1 d2).strm = d.strm := by
  obtain ⟨w, f, g, h, e⟩ := d.raiseF_eq b src forced d0 d1 d2
  rw [e]
  rfl
@[simp] theorem Dev.raiseF_ddr (d : Dev) (b src : Nat) (forced : Bool) (d0 d1 d2 : Nat) :
    (d.raiseF b src forced d0 d1 d2).ddr = d.ddr := by
  obtain ⟨w, f, g, h, e⟩ := d.raiseF_eq b src forced d0 d1 d2
  rw [e]
  rfl
@[simp] theorem Dev.raiseF_gln (d : Dev) (b src : Nat) (forced : Bool) (d0 d1 d2 : Nat) :
    (d.raiseF b src forced d0 d1 d2).gln = d.gln := by
  obtain ⟨w, f, g, h, e⟩ := d.raiseF_eq b src forced d0 d1 d2
  rw [e]
  rfl
@[simp] theorem Dev.raiseF_outsZ (d : Dev) (b src : Nat) (forced : Bool) (d0 d1 d2 : Nat) :
    (d.raiseF b src forced d0 d1 d2).outsZ = d.outsZ := by
  obtain ⟨w, f, g, h, e⟩ := d.raiseF_eq b src forced d0 d1 d2
  rw [e]
  rfl
@[simp] theorem Dev.raiseF_free (d : Dev) (b src : Nat) (forced : Bool) (d0 d1 d2 : Nat) :
    (d.raiseF b src forced d0 d1 d2).free = d.free := by
  obtain ⟨w, f, g, h, e⟩ := d.raiseF_eq b src forced d0 d1 d2
  rw [e]
  rfl
@[simp] theorem Dev.raiseF_pair (d : Dev) (b src : Nat) (forced : Bool) (d0 d1 d2 : Nat) :
    (d.raiseF b src forced d0 d1 d2).pair = d.pair := by
  obtain ⟨w, f, g, h, e⟩ := d.raiseF_eq b src forced d0 d1 d2
  rw [e]
  rfl
@[simp] theorem Dev.raiseF_cmd (d : Dev) (b src : Nat) (forced : Bool) (d0 d1 d2 : Nat) :
    (d.raiseF b src forced d0 d1 d2).cmd = d.cmd := by
  obtain ⟨w, f, g, h, e⟩ := d.raiseF_eq b src forced d0 d1 d2
  rw [e]
  rfl
@[simp] theorem Dev.raiseF_boot (d : Dev) (b src : Nat) (forced : Bool) (d0 d1 d2 : Nat) :
    (d.raiseF b src forced d0 d1 d2).boot = d.boot := by
  obtain ⟨w, f, g, h, e⟩ := d.raiseF_eq b src forced d0 d1 d2
  rw [e]
  rfl
@[simp] theorem Dev.raiseF_replayT (d : Dev) (b src : Nat) (forced : Bool) (d0 d1 d2 : Nat) :
    (d.raiseF b src forced d0 d1 d2).replayT = d.replayT := by
  obtain ⟨w, f, g, h, e⟩ := d.raiseF_eq b src forced d0 d1 d2
  rw [e]
  rfl
@[simp] theorem Dev.raiseF_peerDec (d : Dev) (b src : Nat) (forced : Bool) (d0 d1 d2 : Nat) :
    (d.raiseF b src forced d0 d1 d2).peerDec = d.peerDec := by
  obtain ⟨w, f, g, h, e⟩ := d.raiseF_eq b src forced d0 d1 d2
  rw [e]
  rfl
@[simp] theorem Dev.raiseF_out (d : Dev) (b src : Nat) (forced : Bool) (d0 d1 d2 : Nat) :
    (d.raiseF b src forced d0 d1 d2).out = d.out := by
  obtain ⟨w, f, g, h, e⟩ := d.raiseF_eq b src forced d0 d1 d2
  rw [e]
  rfl

end Sys2Proof.Machine
end

