-- ==== Sys2Proof/WellFormed.lean ====
section
/-!
DEFINITION. Which commands are well formed: every operand within what its row, field or encoding admits.
-/
namespace Sys2Proof

/-- A value of `w` bits. -/
def bits (w v : Nat) : Bool := decide (v < 2 ^ w)
/-- A cycle of the tick (R15). -/
def cyc (c : Nat) : Bool := decide (c < 10240)
/-- The header of a mirror frame: its cycle, SEQ of 16 bits (R322). -/
def hdr (h : Machine.MirHdr) : Bool := cyc h.c && bits 16 h.seq
/-- A BAR0 offset of a register (R10). -/
def offOk (off : Nat) : Bool := decide (off < 0x1F0000 ∧ off % 4 = 0)
/-- A block with the common registers (R10). -/
def blkOk (b : Nat) : Bool := decide (b < 31)
/-- A port: 0 and 1 the audio ports, 2 management, 3 the array bus. -/
def portOk (p : Nat) : Bool := decide (p < 4)
/-- A clock reference (R151). -/
def refOk (n : Nat) : Bool := decide (n < 4)
/-- A modulator channel (R267). -/
def chanOk (n : Nat) : Bool := decide (n < 48)
/-- A payload that its frame can carry (R329). -/
def payload (l : List Byte) : Bool := decide (l.length ≤ 4092)

/-- A Tilth operation issues on one of 48 lanes in the program window (R16, R48). -/
def Issue.wf (i : Issue) : Bool := decide (i.lane < 48 ∧ i.k < 9984)
/-- A frame's fields fit their widths, and its source exists (R327, R329). -/
def CmdFrame.wf (f : CmdFrame) : Bool :=
  decide (f.src < 3) && bits 3 f.slot && bits 64 f.ctr && bits 48 f.tgt && bits 32 f.reqtag && bits 64 f.tag && cyc f.c
/-- A register write comes at a cycle. -/
def RegVia.wf (v : RegVia) : Bool := cyc v.c

/-- A command is well formed. -/
def Instr.wf (i : Instr) : Bool :=
  match i with
  | .tickBoundary i => bits 32 i.time && i.pdm.all (fun p => decide (p.1 < 16)) && i.fec.all (fun p => portOk p.1)
  | .capturePoint => true
  | .agendaApply => true
  | .halfRotate late => decide (late ≤ 4096)
  | .immediateExecute => true
  | .hello f => f.wf
  | .read f off n => f.wf && bits 32 off && bits 32 n
  | .write f ws => f.wf && ws.all (fun w => bits 32 w.off && bits 32 w.mask && bits 32 w.data)
  | .storeWrite f off data => f.wf && bits 32 off && payload data
  | .load f off len => f.wf && bits 32 off && bits 32 len
  | .abort f => f.wf
  | .swap f => f.wf
  | .cell f key val => f.wf && bits 32 key && payload val
  | .step f ofs => f.wf && decide (-(2 ^ 63) ≤ ofs ∧ ofs < 2 ^ 63)
  | .bbxTrigger f reason => f.wf && bits 32 reason
  | .keyLoad f blob => f.wf && payload blob
  | .keyRetire f k perm => f.wf && bits 8 k && bits 8 perm
  | .signRevoke f kind idx first => f.wf && bits 8 kind && bits 8 idx && decide (first.length = 8)
  | .pairEnable f arg => f.wf && bits 32 arg
  | .pairDisable f => f.wf
  | .take f => f.wf
  | .handover f => f.wf
  | .isolate f => f.wf
  | .rejoin f => f.wf
  | .resync f => f.wf
  | .ctrlPlaneReset c => cyc c
  | .mgmtPlaneReset c => cyc c
  | .commitStrobe v blk groups => v.wf && blkOk blk && bits 16 groups
  | .registerWrite v off mask data => v.wf && offOk off && bits 32 mask && bits 32 data
  | .faultStatusClear v blk mask => v.wf && blkOk blk && bits 32 mask
  | .counterRead off c => offOk off && cyc c
  | .highWaterRead off c => offOk off && cyc c
  | .latchingRead off c => offOk off && cyc c
  | .tsqRead p c => decide (p < 3) && cyc c
  | .ringTailWrite off idx c => offOk off && bits 12 idx && cyc c
  | .forceLaneParity v par => v.wf && bits 3 par
  | .forceRefLos v los => v.wf && bits 4 los
  | .forceHbSuppress v _ => v.wf
  | .forceDigest v dig => v.wf && bits 2 dig
  | .forceModOvercurrent v oc => v.wf && bits 48 oc
  | .modClear v ch => v.wf && bits 48 ch
  | .forceSnsCrc v crc => v.wf && bits 24 crc
  | .forceDramError v master => v.wf && bits 4 master
  | .forceLinkDown v p _ => v.wf && decide (p < 2)
  | .faultClear v => v.wf
  | .bbxRearm v => v.wf
  | .wdogKick v => v.wf
  | .vectorResend v vec => v.wf && bits 32 vec
  | .readbackGo v count => v.wf && bits 16 count
  | .mdioGo v word => v.wf && bits 31 word
  | .sleep v => v.wf
  | .thermClear v => v.wf
  | .domainSwitch v on => v.wf && bits 12 on
  | .stepaccClear v => v.wf
  | .timeIncWrite v frac => v.wf && bits 32 frac
  | .compareArm v k period => v.wf && decide (k < 4) && bits 30 period
  | .lockncSet v => v.wf
  | .bootDataWrite word _ c => bits 32 word && cyc c
  | .dStateChange ds _ _ c => decide (ds = 0 ∨ ds = 3) && cyc c
  | .functionLevelReset c => cyc c
  | .ldx i sa ca ta tdir => i.wf && Machine.ldxOk sa ca ta tdir
  | .ld i f => i.wf && Machine.ldStOk f false
  | .st i f => i.wf && Machine.ldStOk f true
  | .pset i p imm => i.wf && bits 3 p && bits 16 imm
  | .padd i p imm => i.wf && bits 3 p && bits 16 imm
  | .msetl i m imm => i.wf && bits 2 m && bits 16 imm
  | .mseth i m imm => i.wf && bits 2 m && bits 16 imm
  | .rep i count len => i.wf && decide (1 ≤ count ∧ count < 65536 ∧ 1 ≤ len ∧ len ≤ 32)
  | .eot i => i.wf
  | .nop i _ => i.wf
  | .mac i s f => i.wf && Machine.macOk s f
  | .msu i s f => i.wf && Machine.macOk s f
  | .mpy i s f => i.wf && Machine.macOk s f
  | .mpyn i s f => i.wf && Machine.macOk s f
  | .aclr i s mask => i.wf && Machine.isMN s && bits 4 mask
  | .aadd i s a b _ => i.wf && Machine.isMN s && decide (a < 4 ∧ b < 4 ∧ a ≠ b)
  | .ald i s a d sh => i.wf && Machine.isMN s && bits 2 a && bits 4 d && bits 4 sh
  | .ext i s a d sh _ => i.wf && Machine.isMN s && bits 2 a && bits 4 d && bits 4 sh
  | .add i d s t _ => i.wf && bits 4 d && bits 4 s && bits 4 t
  | .sub i d s t _ => i.wf && bits 4 d && bits 4 s && bits 4 t
  | .neg i d s _ => i.wf && bits 4 d && bits 4 s
  | .abs i d s _ => i.wf && bits 4 d && bits 4 s
  | .and i d s t => i.wf && bits 4 d && bits 4 s && bits 4 t
  | .or i d s t => i.wf && bits 4 d && bits 4 s && bits 4 t
  | .xor i d s t => i.wf && bits 4 d && bits 4 s && bits 4 t
  | .mov i d s => i.wf && bits 4 d && bits 4 s
  | .movil i d imm => i.wf && bits 4 d && bits 14 imm
  | .movih i d imm => i.wf && bits 4 d && bits 14 imm
  | .shl i d s n _ => i.wf && bits 4 d && bits 4 s && bits 5 n
  | .shr i d s n => i.wf && bits 4 d && bits 4 s && bits 5 n
  | .shrl i d s n => i.wf && bits 4 d && bits 4 s && bits 5 n
  | .she i d s t _ => i.wf && bits 4 d && bits 4 s && bits 4 t
  | .norm i d s => i.wf && bits 4 d && bits 4 s
  | .expo i d s => i.wf && bits 4 d && bits 4 s
  | .rnd i d s k _ => i.wf && bits 4 d && bits 4 s && bits 5 k
  | .min i d s t => i.wf && bits 4 d && bits 4 s && bits 4 t
  | .max i d s t => i.wf && bits 4 d && bits 4 s && bits 4 t
  | .clamp i d s p => i.wf && bits 4 d && bits 4 s && bits 3 p
  | .sel i d s t c cond => i.wf && bits 4 d && bits 4 s && bits 4 t && bits 4 c && bits 2 cond
  | .gstep i gp cp s => i.wf && bits 3 gp && bits 3 cp && bits 4 s && decide (gp ≠ cp)
  | .stx i q p m u => i.wf && bits 3 q && bits 3 p && bits 2 m && (u || m == 0)
  | .eccScrub m lane word _ c => Machine.eccWord m lane word && cyc c
  | .loadComplete _ _ c => cyc c
  | .statusSend => true
  | .statusReceive _ h => hdr h
  | .tickAdopt c => cyc c
  | .leaseKeeperExpire c => cyc c
  | .leaseLapse => true
  | .takeover _ => true
  | .bridge c => cyc c
  | .bridgeEnd c => cyc c
  | .localInputReceive _ words _ h => words.all (fun x => bits 32 x.2) && hdr h
  | .forwardLandingFill => true
  | .presenceMapReceive _ h => hdr h
  | .forwardedPacketReceive _ ctx seq ts _ h => decide (ctx < 256) && bits 16 seq && bits 32 ts && hdr h
  | .modBlockSend => true
  | .modBlockReceive _ h => hdr h
  | .fwdMissing => true
  | .mirroredCommandReceive _ h => hdr h
  | .confirmReceive slot ctr reason h => bits 3 slot && bits 64 ctr && bits 8 reason && hdr h
  | .confirmTimeout slot ctr c => bits 3 slot && bits 64 ctr && cyc c
  | .commandResolveDeadline => true
  | .cancelReceive slot ctr h => bits 3 slot && bits 64 ctr && hdr h
  | .sentAckSend c => cyc c
  | .sentAckReceive _ h => hdr h
  | .txHandover => true
  | .retransmissionRequest ty seq h => bits 8 ty && bits 16 seq && hdr h
  | .sheafCopyReceive _ _ _ h => hdr h
  | .resyncControlReceive _ _ h => hdr h
  | .imageBulkReceive _ _ _ h => hdr h
  | .delayBulkReceive _ h => hdr h
  | .displacedFrameReceive _ _ h => hdr h
  | .unitIdentityReceive _ _ h => hdr h
  | .unknownTypeFrame ty seq lane c => bits 8 ty && bits 16 seq && decide (lane < 2) && cyc c
  | .frameLate ty seq c => bits 8 ty && bits 16 seq && cyc c
  | .mirLaneDown n c => decide (n < 2) && cyc c
  | .mirLinkDown c => cyc c
  | .mirLaneUp n _ c => decide (n < 2) && cyc c
  | .resyncStart c => cyc c
  | .resyncFreeze => true
  | .imageSent c => cyc c
  | .delayCopyDone c => cyc c
  | .replayTick c => cyc c
  | .becomeShadow => true
  | .xoLoss c => cyc c
  | .mdllUnlock c => cyc c
  | .refLosDetect n c => refOk n && cyc c
  | .refActivity n c => refOk n && cyc c
  | .refMeasure offs c => decide (offs.length = 4) && cyc c
  | .wtrExpire n c => refOk n && cyc c
  | .dpllCompare n _ c => refOk n && cyc c
  | .historyRecord c => cyc c
  | .holdoverPredict c => cyc c
  | .compareFire k c => decide (k < 4) && cyc c
  | .tpllUnlock c => cyc c
  | .tpllRelock c => cyc c
  | .frameReceive p _ _ c => portOk p && cyc c
  | .pauseFrame p quanta c => portOk p && bits 16 quanta && cyc c
  | .pauseExpire p c => portOk p && cyc c
  | .hostFrameTransmit p c => portOk p && cyc c
  | .linkDown p c => portOk p && cyc c
  | .linkUp p speed _ c => portOk p && bits 2 speed && cyc c
  | .mdioDone data c => bits 16 data && cyc c
  | .plcaBeacon c => cyc c
  | .plcaLost c => cyc c
  | .collision _ c => cyc c
  | .streamCutoff => true
  | .streamRelease => true
  | .arrivalWindow => true
  | .legDown ctx leg c => decide (ctx < 256) && decide (leg < 2) && cyc c
  | .streamPacketQueue ctx => decide (ctx < 256)
  | .streamPacketSend p c => decide (p < 2) && cyc c
  | .streamTxLate p => decide (p < 2)
  | .tdmFrameRx p words _ _ _ c => bits 3 p && words.all (bits 32) && cyc c
  | .tdmFrameTx p c => bits 3 p && cyc c
  | .missingFrame p _ c => bits 3 p && cyc c
  | .slipAccess p dir c => bits 3 p && decide (dir < 2) && cyc c
  | .alignReturn p c => bits 3 p && cyc c
  | .gangRejoin p c => bits 3 p && cyc c
  | .pdmStuck ch c => bits 5 ch && cyc c
  | .decSettled ch c => bits 5 ch && cyc c
  | .superframe g sf bits_ _ c => decide (g < 6) && bits 3 sf && bits 160 bits_ && cyc c
  | .shortLatch ch c => chanOk ch && cyc c
  | .retry ch => chanOk ch
  | .carrierPeriod ch j c => chanOk ch && decide (j < 4) && cyc c
  | .loopCompute => true
  | .ampEnRise g => decide (g < 6)
  | .groupStop g => decide (g < 6)
  | .drvFault g c => decide (g < 6) && cyc c
  | .thermShut c => cyc c
  | .thmConversion rd c => decide (rd.length = 6) && cyc c
  | .eventPosting _ => true
  | .evtNumbering c => cyc c
  | .coalesceClose c => cyc c
  | .hostRingWrite c => cyc c
  | .wdogExpire c => cyc c
  | .busRequest q c => decide (q.master < 10) && bits 40 q.addr && decide (q.bytes.length ≤ 4096 ∧ q.ecc < 4) && cyc c
  | .heldRequestRelease _ c => cyc c
  | .refreshSlot ch c => decide (ch < 2) && cyc c
  | .mr4Read v0 k0 v1 k1 => bits 8 v0 && bits 8 v1 && decide (k0 < 4 ∧ k1 < 4)
  | .gleanSample c => cyc c
  | .gleanBlockDone c => cyc c
  | .readbackDone c => cyc c
  | .powerOnReset bootsel _ _ => bits 2 bootsel
  | .warmReset bootsel _ _ => bits 2 bootsel
  | .boot _ _ _ _ c => cyc c
  | .mdllLock => true
  | .bootPcieTimeout c => cyc c
  | .nonceDraw nonce c => bits 64 nonce && cyc c
  | .trngHealth test c => decide (test = 1 ∨ test = 2) && cyc c
  | .fuseDone _ c => cyc c
  | .domainReady k c => bits 4 k && cyc c
  | .perst _ c => cyc c
  | .pcieLinkUp width speed c => decide (width = 1 ∨ width = 2) && decide (1 ≤ speed ∧ speed ≤ 3) && cyc c
  | .pcieLinkDown c => cyc c
  | .gpioEdge pins c => bits 8 pins && cyc c
  | .xoEdgesReturn => true
  | .planeResetEnd c => cyc c
  | .malformedCommand src _ _ c => decide (src < 3) && cyc c
  | .trngSourcePassesAgain c => cyc c
  | .factoryTestUnlock c => cyc c
  | .msixUnmask _ _ _ mask c => bits 32 mask && cyc c

end Sys2Proof
end

