-- ==== Sys2Proof/Tests/Slice0.lean ====
section
/-!
SUPPORT. Tests of the model: ill-formed commands, witnesses of the statements' hypotheses, and single steps whose results the spec gives.
-/
namespace Sys2Proof.Tests
set_option Elab.async false
open Sys2Proof Sys2Proof.Machine

/-! ## States for the tests -/

/-- The device after reset with the MDLL locked, so that the tick runs. -/
def dv : Dev := State.reset.sys.dev.setReg R.synStat 3

/-- The state with the device `d`, nothing in memory and nothing waiting. -/
def st (d : Dev) : State := { State.reset with sys := { State.reset.sys with dev := d } }

/-- The state with the device `d` and the memory `m`. -/
def stM (d : Dev) (m : Memory) : State := { State.reset with sys := { State.reset.sys with dev := d, mem := m } }

/-- The command answers a next state of which `p` holds. -/
def ok (c : Instr) (z : State) (p : State → Bool) : Bool :=
  match exec c z with
  | .next t => p t
  | _ => false

/-- The inputs of a boundary with nothing in them. -/
def tin : TickIn := { pdm := [], time := 0, hold := false, own := false, fec := [] }

/-- A frame of a UDP command under key slot `k`. -/
def fr (k tgt : Nat) : CmdFrame := { src := 2, slot := k, ctr := 1, tgt := tgt, reqtag := 0, tag := 0, from_ := none, c := 0 }

/-- A register write by a direct access, or by a command. -/
def via (cmd : Bool) : RegVia := { c := 0, cmd := cmd }

theorem st_running (d : Dev) (h : d.inReset = false) (g : d.ticking = true) : (st d).Running := ⟨h, g⟩

/-! ## Well-formedness: one ill-formed term for each check -/

theorem test_wf_good : Instr.wf (.add ⟨47, 9983⟩ 15 15 15 true) = true ∧ Instr.wf (.tickBoundary { tin with pdm := [(15, 0)], time := 2 ^ 32 - 1 }) = true ∧
    Instr.wf (.read (fr 7 0) (2 ^ 32 - 1) 0) = true ∧ Instr.wf (.carrierPeriod 47 3 10239) = true := by decide
theorem test_wf_issue : Instr.wf (.nop ⟨48, 0⟩ .x) = false ∧ Instr.wf (.nop ⟨0, 9984⟩ .x) = false := by decide
theorem test_wf_frame : Instr.wf (.hello { fr 0 0 with src := 3 }) = false ∧ Instr.wf (.hello (fr 8 0)) = false ∧
    Instr.wf (.hello { fr 0 0 with ctr := 2 ^ 64 }) = false ∧ Instr.wf (.hello (fr 0 (2 ^ 48))) = false ∧
    Instr.wf (.hello { fr 0 0 with reqtag := 2 ^ 32 }) = false ∧ Instr.wf (.hello { fr 0 0 with tag := 2 ^ 64 }) = false ∧
    Instr.wf (.hello { fr 0 0 with c := 10240 }) = false := by decide
theorem test_wf_via : Instr.wf (.faultClear { c := 10240, cmd := true }) = false := by decide
theorem test_wf_offset : Instr.wf (.counterRead 0x1F0000 0) = false ∧ Instr.wf (.counterRead 2 0) = false := by decide
theorem test_wf_block : Instr.wf (.commitStrobe (via true) 31 1) = false := by decide
theorem test_wf_port : Instr.wf (.linkDown 4 0) = false ∧ Instr.wf (.tdmFrameTx 8 0) = false := by decide
theorem test_wf_reference : Instr.wf (.refActivity 4 0) = false := by decide
theorem test_wf_channel : Instr.wf (.retry 48) = false ∧ Instr.wf (.pdmStuck 32 0) = false ∧ Instr.wf (.ampEnRise 6) = false := by decide
theorem test_wf_payload : Instr.wf (.keyLoad (fr 0 0) (List.replicate 4093 0)) = false := by decide +kernel
theorem test_wf_cycle : Instr.wf (.tpllUnlock 10240) = false := by decide
theorem test_wf_bits : Instr.wf (.movil ⟨0, 0⟩ 0 16384) = false ∧ Instr.wf (.add ⟨0, 0⟩ 16 0 0 false) = false ∧ Instr.wf (.shl ⟨0, 0⟩ 0 0 32 false) = false ∧
    Instr.wf (.pset ⟨0, 0⟩ 8 0) = false ∧ Instr.wf (.tickBoundary { tin with time := 2 ^ 32 }) = false := by decide
theorem test_wf_boundary_inputs : Instr.wf (.tickBoundary { tin with pdm := [(16, 0)] }) = false ∧ Instr.wf (.tickBoundary { tin with fec := [(4, 0, 0)] }) = false := by decide
theorem test_wf_late : Instr.wf (.halfRotate 4097) = false ∧ Instr.wf (.halfRotate 4096) = true := by decide
theorem test_wf_step : Instr.wf (.step (fr 0 0) (2 ^ 63)) = false ∧ Instr.wf (.step (fr 0 0) (-(2 ^ 63) - 1)) = false := by decide
theorem test_wf_first_bytes : Instr.wf (.signRevoke (fr 0 0) 0 0 [0]) = false := by decide
theorem test_wf_small_ranges : Instr.wf (.tsqRead 3 0) = false ∧ Instr.wf (.forceLinkDown (via true) 2 true) = false ∧ Instr.wf (.compareArm (via false) 4 0) = false ∧
    Instr.wf (.dStateChange 1 false false 0) = false ∧ Instr.wf (.rep ⟨0, 0⟩ 0 1) = false ∧ Instr.wf (.rep ⟨0, 0⟩ 1 33) = false ∧
    Instr.wf (.trngHealth 3 0) = false ∧ Instr.wf (.pcieLinkUp 4 1 0) = false ∧ Instr.wf (.pcieLinkUp 1 0 0) = false ∧
    Instr.wf (.refMeasure [] 0) = false ∧ Instr.wf (.thmConversion [] 0) = false ∧ Instr.wf (.mr4Read 0 4 0 0) = false := by decide
theorem test_wf_tilth_operands : Instr.wf (.aadd ⟨0, 0⟩ .m 1 1 false) = false ∧ Instr.wf (.aclr ⟨0, 0⟩ .x 1) = false ∧ Instr.wf (.gstep ⟨0, 0⟩ 1 1 0) = false ∧
    Instr.wf (.ldx ⟨0, 0⟩ {} {} {} false) = false ∧ Instr.wf (.stx ⟨0, 0⟩ 0 0 1 false) = false ∧
    Instr.wf (.mac ⟨0, 0⟩ .m { ap := 0, xp := 0, yp := 0, form := 0, en := 0 }) = false ∧
    Instr.wf (.ld ⟨0, 0⟩ { wide := false, d := 0, bus := 3, reg := 0, p := 0, mode := 0, imm := 0 }) = false := by decide
theorem test_wf_words_and_contexts : Instr.wf (.tdmFrameRx 0 [2 ^ 32] 0 0 true 0) = false ∧ Instr.wf (.streamPacketQueue 256) = false ∧
    Instr.wf (.legDown 0 2 0) = false ∧ Instr.wf (.streamTxLate 2) = false ∧ Instr.wf (.mirLaneDown 2 0) = false ∧ Instr.wf (.slipAccess 0 2 0) = false ∧
    Instr.wf (.superframe 6 0 0 0 0) = false ∧ Instr.wf (.carrierPeriod 0 4 0) = false ∧ Instr.wf (.refreshSlot 2 0) = false ∧
    Instr.wf (.eccScrub .state 0 16384 false 0) = false := by decide
theorem test_wf_bus : Instr.wf (.busRequest { master := 10, via := .internal, addr := 0, write := false, bytes := [] } 0) = false ∧
    Instr.wf (.busRequest { master := 0, via := .internal, addr := 2 ^ 40, write := false, bytes := [] } 0) = false ∧
    Instr.wf (.busRequest { master := 0, via := .internal, addr := 0, write := false, bytes := List.replicate 4097 none } 0) = false ∧
    Instr.wf (.busRequest { master := 0, via := .internal, addr := 0, write := false, bytes := [], ecc := 4 } 0) = false := by decide +kernel

/-! ## Witnesses: the Tilth operations -/

/-- A device whose engine runs on all clusters. -/
def dvE : Dev := dv.setReg R.engStat 0x17
/-- The state in which lane 47 may issue. -/
def zE : State := st dvE
/-- The issue of lane 47, the last one. -/
def iE : Issue := ⟨47, 0⟩
/-- Its context. -/
def xE : LaneCtx := { n := 47, k := 0, mem := [], ln := {}, dev := dvE.atC 0 }

theorem issues_lane47 : zE.Issues iE zE.sys xE := ⟨⟨by decide, by decide⟩, by rfl⟩
/-- The first lane issues too. -/
theorem issues_lane0 : zE.Issues ⟨0, 0⟩ zE.sys { xE with n := 0 } := ⟨⟨by decide, by decide⟩, by rfl⟩
theorem witness_XSlotArithmetic : zE.Issues iE zE.sys xE ∧ 15 < 16 ∧ 31 < 32 := ⟨issues_lane47, by decide, by decide⟩
theorem witness_XSlotMoves : zE.Issues iE zE.sys xE ∧ 15 < 16 ∧ 31 < 32 ∧ 16383 < 16384 := ⟨issues_lane47, by decide⟩
theorem witness_XSlotSpecials : zE.Issues iE zE.sys xE ∧ 15 < 16 ∧ 7 < 8 ∧ 31 < 32 ∧
    (31 ≤ 31 ∧ (∀ j, j < 31 → (xE.d 0).getLsbD (30 - j) = (xE.d 0).getLsbD 31)) := ⟨issues_lane47, by decide, by decide, by decide, by decide, by decide⟩
/-- Lane 47 may issue with these values in its first D registers. -/
def zEd (l : List Word) : State := st { dvE with eng := { dvE.eng with lanes := updAt dvE.eng.lanes 47 (fun x => { x with d := l }) } }
/-- The lane's context there. -/
def xEd (l : List Word) : LaneCtx := { n := 47, k := 0, mem := [], ln := { d := l }, dev := (zEd l).sys.dev.atC 0 }
/-- A gain below its target, with a sample of `v`. -/
def gainD (v : Word) : List Word := v :: List.replicate 11 0 ++ [5, 0, 0, 0]
theorem witness_GainStepMeetsItsTarget : zE.Issues iE zE.sys xE ∧ 7 < 8 ∧ 6 < 8 ∧ 15 < 16 ∧ (7 : Nat) ≠ 6 ∧ 0 ≤ (xE.d 14).toInt ∧
    (xE.d 14).toInt = max (xE.d 12).toInt 0 ∧
    ((zEd (gainD 0)).Issues iE (zEd (gainD 0)).sys (xEd (gainD 0)) ∧ ((xEd (gainD 0)).d 14).toInt ≠ max ((xEd (gainD 0)).d 12).toInt 0 ∧ (xEd (gainD 0)).d 0 = 0) ∧
    ((zEd (gainD 1)).Issues iE (zEd (gainD 1)).sys (xEd (gainD 1)) ∧ ((xEd (gainD 1)).d 14).toInt ≠ max ((xEd (gainD 1)).d 12).toInt 0 ∧
      ¬((xEd (gainD 1)).d 0 = 0 ∨ ((xEd (gainD 1)).d 0).getLsbD 31 ≠ ((xEd (gainD 1)).d 15).getLsbD 16 ∨
        (((xEd (gainD 1)).d 13).toNat / 65536 ≠ 0 ∧ ((xEd (gainD 1)).d 15).toNat % 65536 ≤ 1))) := by
  and_intros <;> first | decide | rfl
theorem witness_AccumulatorOperations : zE.Issues iE zE.sys xE ∧ 1 < 2 ∧ 7 < 8 ∧ 3 < 4 ∧ (3 : Nat) ≠ 2 ∧ 15 < 16 := ⟨issues_lane47, by decide⟩
theorem witness_ChainForwarding : 3 < 4 ∧ xE.ln.chain.length = 4 ∧ xE.ln.a.length = 4 ∧ (xE.ln.chain.getD 3 {}).iss ≠ some xE.k ∧
    (xE.ln.chain.getD 3 {}).iss ≠ some (xE.k + 1) ∧ ∀ q ∈ xE.ln.pend, q.dst ≠ .a 3 := by decide
theorem witness_ResultsBecomeVisibleAfterTheirLatency : 15 < xE.ln.d.length ∧ (∀ q ∈ xE.ln.pend, q.dst ≠ .d 15) ∧ 2 ^ 32 - 1 < 2 ^ 32 ∧
    1 < xE.k + 2 ∧ xE.k + 2 ≤ 2 := by decide
theorem witness_CollidingResultsKeepTheLaterRank : xE.ln.free (.d 15) (xE.k + 1) := by intro q hq; cases hq
theorem witness_LaneLoads : zE.Issues iE zE.sys xE ∧ (∀ a, xE.dev.eng.ecc2.contains a = false) ∧ xE.ln.cBusy = false ∧ xE.ln.trBusy = false ∧
    (xE.p 7).toNat < 16384 ∧ (xE.p 7).toNat % 2 = 0 := ⟨issues_lane47, fun _ => rfl, by decide⟩
theorem witness_LaneStores : zE.Issues iE zE.sys xE ∧ xE.ln.tw = none ∧ (xE.p 7).toNat < 16384 ∧ (xE.p 7).toNat % 2 = 0 := ⟨issues_lane47, by decide⟩
theorem witness_PointersModifiersAndLoops : zE.Issues iE zE.sys xE ∧ xE.ln.loops = [] ∧ 65535 ≤ 65535 ∧ 32 ≤ 32 ∧
    ({ xE with dev := { xE.dev with ldr := { act := some { decl := List.replicate 48 9984 } } } } : LaneCtx).dev.endFaults 47 0 = [] ∧
    (decodeL 0 = some .nop ∧ decodeMN 0 = some .nop ∧ decodeX 0 = some .nop) :=
  ⟨issues_lane47, by decide⟩
theorem witness_InvalidTilthOperationIsALaneError : zE.Issues iE zE.sys xE ∧ ({ ap := 1, xp := 7, yp := 7, form := 3, en := 0 } : MacF).en = 0 ∧
    iE.lane < xE.dev.eng.lanes.length :=
  ⟨issues_lane47, rfl, by decide⟩
/-- Lane 47 has ended at issue 0, the engine is at issue 1. -/
def zEnd : State := st { dvE with eng := { dvE.eng with issue := 1, lanes := updAt dvE.eng.lanes 47 (fun l => { l with endC := some 0 }) } }
theorem witness_LaneIssuesInOrder : zE.Running ∧ zEnd.Running ∧ (st dv).Running ∧ zE.sys.dev.laneRuns 47 = true ∧ zE.sys.dev.eng.issue = 0 ∧
    (zE.sys.dev.eng.lanes.getD 47 {}).iss = 0 ∧ (zE.sys.dev.eng.lanes.getD 47 {}).void = false ∧ zE.sys.dev.badBundles 47 = [] ∧ 0 + zE.sys.dev.eng.stalls < 9984 ∧
    (st dv).sys.dev.laneRuns 47 = false ∧ zEnd.sys.dev.laneRuns 47 = true ∧ zEnd.sys.dev.eng.issue = 1 ∧ (zEnd.sys.dev.eng.lanes.getD 47 {}).iss < 1 ∧
    (zEnd.sys.dev.eng.lanes.getD 47 {}).endC.isSome = true ∧ 1 + zEnd.sys.dev.eng.stalls < 9984 := by
  refine ⟨⟨?_, ?_⟩, ⟨?_, ?_⟩, ⟨?_, ?_⟩, ?_⟩ <;> decide
/-- Two lanes store to one word. -/
def sStores : Sys := { (st dvE).sys with dev := { dvE with eng := { dvE.eng with stores :=
  [{ lane := 47, addr := 0x8000000000, val := 1, sptr := none }, { lane := 0, addr := 0x8000000000, val := 2, sptr := none }] } } }
theorem witness_StoresLandWhenTheIssueCloses : sStores.mem.wf = true ∧ (∀ r ∈ sStores.dev.eng.stores, 0 < r.addr ∨ r.addr + 4 ≤ 0) ∧
    sStores.dev.severity Blk.eng Src.engWrCollide = 1 ∧ (47 : Nat) ≠ 0 ∧ 47 < 48 ∧
    ({ zE.sys with dev := { dvE with eng := { dvE.eng with stores := [{ lane := 47, addr := 0, val := 1, sptr := none }] } } } : Sys).mem.wf = true := by decide

/-! ## Witnesses: the machine, the tick, the agenda -/

/-- Registers take these values. -/
def regs (d : Dev) (l : List (Nat × Nat)) : Dev := l.foldl (fun d x => d.setReg x.1 x.2) d

theorem leBytes_length (n v : Nat) : (leBytes n v).length = n := by
  induction n generalizing v with
  | zero => rfl
  | succ n ih => simp [leBytes, ih]

theorem leBytes_leNat (l : List Byte) : leBytes l.length (leNat l) = l := by
  induction l with
  | nil => rfl
  | cons b t ih =>
    have h : BitVec.ofNat 8 (b.toNat + 256 * leNat t) = b := by
      apply BitVec.eq_of_toNat_eq
      have := b.isLt
      simp only [BitVec.toNat_ofNat]
      omega
    have g : (b.toNat + 256 * leNat t) / 256 = leNat t := by have := b.isLt; omega
    simp only [List.length_cons, leBytes, leNat, h, g, ih]

theorem leNat_lt (l : List Byte) : leNat l < 256 ^ l.length := by
  induction l with
  | nil => simp [leNat]
  | cons b t ih =>
    have := b.isLt
    simp only [leNat, List.length_cons, Nat.pow_succ]
    omega

theorem frameTag_length (key nonce : Nat) (bs : List Byte) : (frameTag key nonce bs).length = 8 := by
  simp [frameTag, beBytes, leBytes_length]

/-- A frame with the tag that its bytes have under the key and the nonce. -/
def tagged (key nonce : Nat) (f : CmdFrame) (op : Nat) (pay : List Byte) : CmdFrame :=
  { f with tag := leNat (frameTag key nonce ((frameOf f op pay).take ((frameOf f op pay).length - 8))) }

theorem tagged_ok (d : Dev) (key : Nat) (f : CmdFrame) (op : Nat) (pay : List Byte) :
    d.tagOk key (frameOf (tagged key d.nonce f op pay) op pay) = true := by
  have split : ∀ g : CmdFrame, ∃ hd : List Byte, (∀ t, frameOf { g with tag := t } op pay = hd ++ leBytes 8 t) := by
    intro g
    simp only [frameOf, cmdBytes]
    exact ⟨_, fun t => rfl⟩
  obtain ⟨hd, h⟩ := split f
  have tk : ∀ t, (hd ++ leBytes 8 t).take ((hd ++ leBytes 8 t).length - 8) = hd := by
    intro t
    simp [leBytes_length]
  have dr : ∀ t, (hd ++ leBytes 8 t).drop ((hd ++ leBytes 8 t).length - 8) = leBytes 8 t := by
    intro t
    simp [leBytes_length]
  have e : frameOf (tagged key d.nonce f op pay) op pay = hd ++ leBytes 8 (leNat (frameTag key d.nonce hd)) := by
    have h0 := h f.tag
    have : (frameOf f op pay) = hd ++ leBytes 8 f.tag := h0
    rw [tagged, h, this, tk]
  rw [e, Dev.tagOk, tk, dr]
  have := leBytes_leNat (frameTag key d.nonce hd)
  rw [frameTag_length] at this
  simp [this]

theorem tagged_lt (key nonce : Nat) (f : CmdFrame) (op : Nat) (pay : List Byte) : (tagged key nonce f op pay).tag < 2 ^ 64 := by
  have := leNat_lt (frameTag key nonce ((frameOf f op pay).take ((frameOf f op pay).length - 8)))
  rw [frameTag_length] at this
  exact this

/-- The device with the boot sequence over, UDP commands admitted, a nonce, and keys with every privilege in slots 1 and 7. -/
def dC : Dev :=
  let d := regs dv [(R.sysBootstat, 8), (R.cmdPolicy, 1), (R.cmdStat, 1), (R.cmdNoncelo, 5)]
  { d with cmd := { d.cmd with slots := [none, some { key := 1, priv := 255, gen := 2 }, none, none, none, none, none, some { key := 2, priv := 255, gen := 3 }] } }
/-- A frame under slot 7 with its tag, its counter the highest but one. -/
def cf (op tgt : Nat) (pay : List Byte) : CmdFrame := tagged 2 dC.nonce { fr 7 tgt with ctr := 2 ^ 64 - 2 } op pay
theorem dC_idle : dC.cmdIdle := by unfold Dev.cmdIdle; decide +kernel

/-- A state accepts a frame of slot 7 with its tag if its form is right. -/
theorem accepts_cf (z : State) (op tgt : Nat) (pay : List Byte) (hn : z.sys.dev.nonce = dC.nonce) (hi : z.sys.dev.cmdIdle) (hok : z.sys.dev.nonceOk = true)
    (hk : z.sys.dev.keySlot 7 = some { key := 2, priv := 255, gen := 3 }) (h1 : z.sys.dev.w64 (R.cmdSeen 7) = 0) (h2 : z.sys.dev.w64 (R.tickSlotcnt 7) = 0)
    (ht : tgt < 2 ^ 48) (hp : pay.length % 4 = 0) (hl : pay.length ≤ 4096)
    (hf : ∀ f : CmdFrame, f = cf op tgt pay → (z.sys.dev.counted f).cmdForm (frameOf f op pay) = .ok ()) : z.accepts (cf op tgt pay) op pay := by
  refine ⟨hi, ⟨rfl, by show (7 : Nat) < 8; decide, by show 2 ^ 64 - 2 < 2 ^ 64; decide, ht, by show (0 : Nat) < 2 ^ 32; decide, tagged_lt _ _ _ _ _, hp, hl⟩, hok,
    ⟨_, hk, ?_⟩, ?_, ?_, hf _ rfl⟩
  · have := tagged_ok z.sys.dev 2 { fr 7 tgt with ctr := 2 ^ 64 - 2 } op pay
    rw [hn] at this
    exact this
  · show z.sys.dev.w64 (R.cmdSeen 7) < 2 ^ 64 - 2
    rw [h1]; decide
  · show z.sys.dev.w64 (R.tickSlotcnt 7) < 2 ^ 64 - 2
    rw [h2]; decide


/-! ### Commands, steps and the tick -/

theorem inv_ (z : State) (h : z.sys.mem.wf = true) : z.Inv := h

theorem witness_StepRunsTheFrontCommand : State.reset.pending = [] := rfl
theorem witness_MemoryStaysCanonical : (st dv).Inv ∧
    step { st dv with pending := [.registerWrite (via false) R.gpioOut 255 165] } = exec (.registerWrite (via false) R.gpioOut 255 165) (st dv) := ⟨by unfold State.Inv; decide, rfl⟩
theorem witness_FusesOnlyBurn : step State.reset = .next State.reset := rfl
theorem witness_HeldInResetNothingActs : (st { dv with inReset := true }).sys.dev.inReset = true := rfl
theorem witness_WithoutATickNothingTimedActs : State.reset.sys.dev.rf R.synStat 1 1 = 0 := by decide
/-- A change of an ordinary register waits for the next boundary. -/
def dPend : Dev := { dv with pendTick := [{ off := R.clkCtrl, mask := 1, val := 1, due := 0 }] }
theorem witness_TickBoundary : (st dPend).Running ∧ dPend.pair.adopt = none ∧ ({ off := R.clkCtrl, mask := 1, val := 1, due := 0 } : PendWr) ∈ dPend.pendTick ∧
    (∃ p ∈ ({ dPend with pendTick := [{ off := R.clkCtrl, mask := 1, val := 1, due := 1 }] } : Dev).pendTick, ¬p.due ≤ 0) ∧
    ∃ r, rowAt R.clkCtrl = some r ∧ R.clkCtrl ≠ R.timeStepacc ∧ R.clkCtrl ≠ R.engForce ∧ (0 : Nat) ≤ 0 :=
  ⟨⟨by decide, by decide⟩, by decide, by decide, by decide, _, rfl, by decide, by decide, by decide⟩
/-- A sheaf with a cell of one placement in lane 47. -/
def shA : Sheaf := { pair := true, cells := [{ key := 9, kind := 0, nwords := 1, maxT := 0, places := [{ lane := 47, caddr := 32767 }] }] }
/-- Agenda entries due at the tick 1. -/
def dAg (a : AgAct) : Dev := { dC with agenda := [{ tgt := 1, slot := 7, ctr := 1, act := a }], ldr := { dC.ldr with act := some shA } }
/-- An immediate command for the boundary into tick 1, and the device that executes it. -/
def im : ImmCmd := { tgt := 1, slot := 7, ctr := 2 ^ 64 - 1, writes := [{ off := R.clkForce, mask := 15, data := 15 }], cmd := some { src := 2, bytes := [], from_ := none, num := 3 }, wait := false }
def dIm : Dev := { dC with cmd := { dC.cmd with imm := [im], owed := [{ num := 3, src := 2, from_ := none, reply := none }] } }
theorem witness_CaptureAgendaAndRotation : (st dv).Running ∧
    (let d := regs dv [(R.pairCtrl, 2 ^ 31), (R.pairStat, 0)]
     (st d).Running ∧ d.paired = true ∧ d.role = .active ∧ d.mgmtRst = none) ∧
    (dv.agenda = [] ∧ dv.capGrp = [] ∧ dv.cmdQuiet ∧ dv.cmd.prev = []) ∧
    (let d := dAg (.cell 9 [1, 2, 3, 4])
     (st d).Running ∧ d.engOff = false ∧ d.capGrp = [] ∧ d.cmdQuiet ∧ (st d).Inv ∧ d.agenda = [{ tgt := d.tick + 1, slot := 7, ctr := 1, act := .cell 9 [1, 2, 3, 4] }] ∧
       d.ldr.act = some shA ∧ ∃ c, shA.cell 9 = some c ∧ c.places = [{ lane := 47, caddr := 32767 }] ∧
         ∃ a, ∀ p ∈ c.places, a < coefBase p.lane + 4 * p.caddr ∨ coefBase p.lane + 4 * p.caddr + 4 ≤ a) ∧
    (dv.engOff = false ∧ dv.eng.stage = []) ∧
    ((st dIm).Running ∧ dIm.cmd.imm = [im] ∧ im.tgt = dIm.tick + 1 ∧ im.wait = false ∧ im.ctr < 2 ^ 64 ∧
      (let i := ((dIm.atC 10048).onCmd (fun x => { x with imm := [] })).inflightStat
       let w := i.cmdWrites (.immediate im.tgt) im.tgt im.writes
       (i.immRefusal im.writes).2 = none ∧ w.cmdQueued = 0 ∧ w.w64 (R.tickSlotcnt im.slot) < im.ctr)) ∧
    ∀ m ∈ dv.cmd.imm, dv.tick + 1 < m.tgt := by
  and_intros <;> first | decide +kernel | exact ⟨_, rfl, by decide, 0, by decide⟩ | exact inv_ _ (by decide)
theorem witness_AgendaEntriesApplyInOrder : (st (dAg (.cell 9 [1, 2, 3, 4]))).sys.mem.wf = true ∧ (∃ c, shA.cell 9 = some c ∧ c.places = [{ lane := 47, caddr := 32767 }] ∧
      ∃ a, ∀ p ∈ c.places, a < coefBase p.lane + 4 * p.caddr ∨ coefBase p.lane + 4 * p.caddr + 4 ≤ a) ∧
    ((dAg (.step (-1))).agenda = [{ tgt := 1, slot := 7, ctr := 1, act := .step (-1) }] ∧ 1 ≤ 1) ∧ (∀ e ∈ (dAg .swap).agenda, 0 < e.tgt) :=
  ⟨by decide, ⟨_, rfl, by decide, 0, by decide⟩, by decide, by decide⟩

/-! ### Commands over UDP -/

theorem fits_fr : fits (fr 7 0) [] := by unfold fits; decide
theorem witness_HelloAndMalformed : (st dC).sys.dev.cmdIdle ∧ fits (fr 7 0) [] ∧ (st dC).sys.dev.cmd.hello.getD 2 0 < 1000 ∧ frameOk [] = false := ⟨dC_idle, fits_fr, by decide⟩
theorem witness_UnauthenticCommandsChangeNothing : (st dC).sys.dev.cmdIdle ∧ (st dC).sys.dev.nonceOk = true ∧ fits (fr 0 0) [] ∧ (st dC).sys.dev.keySlot 0 = none ∧
    fits (fr 1 0) [] ∧ ∃ k, (st dC).sys.dev.keySlot 1 = some k ∧ (st dC).sys.dev.tagOk k.key (frameOf (fr 1 0) 0x22 []) = false := by
  have h : dC.tagOk 1 (frameOf (fr 1 0) 0x22 []) = false := by decide +kernel
  have k : dC.keySlot 1 = some { key := 1, priv := 255, gen := 2 } := by decide
  exact ⟨dC_idle, by decide, by unfold fits; decide, by decide, by unfold fits; decide, _, k, h⟩

/-- Payloads of commands. -/
def pRead : List Byte := leBytes 4 0x20000 ++ leBytes 4 256
def pStore : List Byte := leBytes 4 (2 ^ 27 - 4) ++ [1, 2, 3, 4]
def pReason : List Byte := leBytes 4 (2 ^ 32 - 1)
theorem accepts_read : (st dC).accepts (cf 2 0 pRead) 2 pRead :=
  accepts_cf (st dC) 2 0 pRead rfl dC_idle rfl rfl rfl rfl (by decide) (by decide) (by decide) (fun f h => by subst h; rfl)
theorem accepts_store : (st dC).accepts (cf 0x20 0 pStore) 0x20 pStore :=
  accepts_cf (st dC) 0x20 0 pStore rfl dC_idle rfl rfl rfl rfl (by decide) (by decide) (by decide) (fun f h => by subst h; rfl)
theorem accepts_trigger : (st dC).accepts (cf 0x40 0 pReason) 0x40 pReason :=
  accepts_cf (st dC) 0x40 0 pReason rfl dC_idle rfl rfl rfl rfl (by decide) (by decide) (by decide) (fun f h => by subst h; rfl)
theorem witness_UnitCommands : (∃ f : CmdFrame, (st dC).accepts f 2 (leBytes 4 0x20000 ++ leBytes 4 256) ∧ 0x20000 < 2 ^ 32 ∧ 256 < 2 ^ 32) ∧
    (∃ f : CmdFrame, (st dC).Inv ∧ (st dC).accepts f 0x20 (leBytes 4 (2 ^ 27 - 4) ++ [1, 2, 3, 4]) ∧ 2 ^ 27 - 4 + 4 ≤ 2 ^ 27 ∧ dC.loadState ≠ 1) ∧
    ∃ f : CmdFrame, (st dC).accepts f 0x40 (leBytes 4 (2 ^ 32 - 1)) ∧ 2 ^ 32 - 1 < 2 ^ 32 ∧ dC.rf R.bbxStat 30 1 = 0 :=
  ⟨⟨_, accepts_read, by decide, by decide⟩, ⟨_, by unfold State.Inv; decide, accepts_store, by decide, by decide⟩, ⟨_, accepts_trigger, by decide, by decide⟩⟩

/-- Fuses with the key-wrapping key of RFC 3394's examples, two signing keys and a floor. -/
def oK : Otp := { root := 0x000102030405060708090A0B0C0D0E0F, rootV := true, floors := [0, 0, 0, 0, 0, 0, 0, 3], svalid := 9, shash := [0x0102030405060708090A0B0C0D0E0F101112131415161718191A1B1C1D1E1F20, 0, 0, 4] }
/-- A state with them. -/
def zK : State := { st dC with sys := { (st dC).sys with otp := oK } }
/-- A wrapped key for slot 7 with every privilege and generation 15. -/
def blob : List Byte := beBytes 32 0xee38f04e8c80eefd38692edb59688961560d6b8b67e8d7b61209483f02d6ad08
/-- What it holds. -/
def blobB : KeyBlob := { key := 0x00112233445566778899AABBCCDDEEFF, slot := 7, priv := 255, gen := 15, zero := 0 }
theorem blob_unwraps : unwrapBlob oK blob = some blobB := by decide +kernel
/-- Its KEY_LOAD. -/
def fK : CmdFrame := tagged 0x00112233445566778899AABBCCDDEEFF dC.nonce { fr 7 0 with ctr := 2 ^ 64 - 1 } 0x60 blob
theorem fK_payload : cmdPay (frameOf fK 0x60 blob) = blob := rfl
theorem fK_slot : cmdSlot (frameOf fK 0x60 blob) = 7 := rfl
theorem fK_tag : (zK.sys.dev.taken fK).tagOk blobB.key (frameOf fK 0x60 blob) = true := by
  have hn : (zK.sys.dev.taken fK).nonce = dC.nonce := rfl
  have h := tagged_ok (zK.sys.dev.taken fK) blobB.key { fr 7 0 with ctr := 2 ^ 64 - 1 } 0x60 blob
  rw [hn] at h
  exact h
theorem blob_loads : ({ zK.sys with dev := zK.sys.dev.taken fK } : Sys).keyLoadCheck (frameOf fK 0x60 blob) = .ok blobB := by
  have ho : ({ zK.sys with dev := zK.sys.dev.taken fK } : Sys).otp = oK := rfl
  have hd : ({ zK.sys with dev := zK.sys.dev.taken fK } : Sys).dev = zK.sys.dev.taken fK := rfl
  have h2 : blobB.slot = 7 ∧ blobB.zero = 0 ∧ ¬(15 < blobB.gen ∨ blobB.gen < oK.floors.getD 7 0) := by decide
  rw [Sys.keyLoadCheck, ho, hd, fK_payload, fK_slot, blob_unwraps]
  simp only [h2.1, h2.2.1, h2.2.2, fK_tag, ne_eq, not_true, if_false, Bool.not_true, Bool.false_eq_true]
def pRetire : List Byte := leBytes 1 7 ++ leBytes 1 1 ++ leBytes 2 0
def pRevoke : List Byte := leBytes 1 0 ++ leBytes 1 3 ++ leBytes 2 0 ++ (beBytes 32 (oK.shash.getD 3 0)).take 8
theorem accepts_retire : zK.accepts (cf 0x61 0 pRetire) 0x61 pRetire :=
  accepts_cf zK 0x61 0 pRetire rfl dC_idle rfl rfl rfl rfl (by decide) (by decide) (by decide) (fun f h => by subst h; rfl)
theorem accepts_revoke : zK.accepts (cf 0x62 0 pRevoke) 0x62 pRevoke :=
  accepts_cf zK 0x62 0 pRevoke rfl dC_idle rfl rfl rfl rfl (by decide) (by decide) (by decide) (fun f h => by subst h; rfl)
theorem witness_KeyCommands :
    (∃ (f : CmdFrame) (b : KeyBlob), zK.sys.dev.cmdIdle ∧ fits f blob ∧ zK.sys.dev.nonceOk = true ∧ blob.length = 32 ∧ f.tgt = 0 ∧ zK.sys.dev.cmd.slots.length = 8 ∧
      ({ zK.sys with dev := zK.sys.dev.taken f } : Sys).keyLoadCheck (frameOf f 0x60 blob) = .ok b ∧ zK.sys.dev.w64 (R.cmdSeen f.slot) < f.ctr ∧ b.priv < 256 ∧ b.gen < 16) ∧
    (∃ (f : CmdFrame) (y : KeySlot), zK.accepts f 0x61 (leBytes 1 7 ++ leBytes 1 1 ++ leBytes 2 0) ∧ 7 < 8 ∧ zK.sys.otp.floors.length = 8 ∧ zK.sys.dev.keySlot 7 = some y ∧
      zK.sys.otp.floors.getD 7 0 ≤ y.gen ∧ y.gen < 15) ∧
    ∃ f : CmdFrame, zK.accepts f 0x62 (leBytes 1 0 ++ leBytes 1 3 ++ leBytes 2 0 ++ (beBytes 32 (zK.sys.otp.shash.getD 3 0)).take 8) ∧ bit zK.sys.otp.svalid 3 = true ∧
      bit zK.sys.otp.srev 3 = false ∧ bit zK.sys.otp.svalid 0 = true ∧ bit zK.sys.otp.srev 0 = false := by
  refine ⟨⟨fK, blobB, dC_idle, ⟨rfl, by show (7 : Nat) < 8; decide, by show 2 ^ 64 - 1 < 2 ^ 64; decide, by show (0 : Nat) < 2 ^ 48; decide, by show (0 : Nat) < 2 ^ 32; decide,
    tagged_lt _ _ _ _ _, by decide, by decide⟩, by decide, by decide, rfl, by decide, blob_loads, ?_, by decide, by decide⟩,
    ⟨_, _, accepts_retire, by decide, by decide, rfl, by decide, by decide⟩, ⟨_, accepts_revoke, by decide⟩⟩
  show zK.sys.dev.w64 (R.cmdSeen 7) < 2 ^ 64 - 1
  decide

/-- The unit stands alone and holds the lease; the loader is in the state `n`. -/
def dL (n : Nat) : Dev := (regs dC [(R.pairStat, 0), (R.loadStat, n)])
theorem dL_idle (n : Nat) (h : (dL n).cmdIdle) : (st (dL n)).sys.dev.cmdIdle := h
def pLoad : List Byte := leBytes 4 (2 ^ 27 - 1) ++ leBytes 4 (2 ^ 25 - 1)
theorem witness_LoaderCommands :
    (∃ f : CmdFrame, (st (dL 4)).accepts f 0x21 (leBytes 4 (2 ^ 27 - 1) ++ leBytes 4 (2 ^ 25 - 1)) ∧ 2 ^ 27 - 1 < 2 ^ 27 ∧ 2 ^ 25 - 1 < 2 ^ 25 ∧ (dL 4).role = .active ∧ (dL 4).phase = 0 ∧
      (dL 4).loadState = 4) ∧
    (∃ f : CmdFrame, (st (dL 2)).accepts f 0x22 [] ∧ (dL 2).role = .active ∧ (dL 2).phase = 0 ∧ (dL 2).loadState = 2) ∧
    ∃ f : CmdFrame, (st (dL 1)).accepts f 0x22 [] ∧ (dL 1).role = .active ∧ (dL 1).phase = 0 ∧ (dL 1).loadState = 1 := by
  have i : ∀ n, n = 1 ∨ n = 2 ∨ n = 4 → (dL n).cmdIdle := by
    rintro n (rfl | rfl | rfl) <;> unfold Dev.cmdIdle <;> decide +kernel
  exact ⟨⟨_, accepts_cf (st (dL 4)) 0x21 0 pLoad rfl (i 4 (by decide)) rfl rfl rfl rfl (by decide) (by decide) (by decide) (fun f h => by subst h; rfl), by decide⟩,
    ⟨_, accepts_cf (st (dL 2)) 0x22 0 [] rfl (i 2 (by decide)) rfl rfl rfl rfl (by decide) (by decide) (by decide) (fun f h => by subst h; rfl), by decide⟩,
    ⟨_, accepts_cf (st (dL 1)) 0x22 0 [] rfl (i 1 (by decide)) rfl rfl rfl rfl (by decide) (by decide) (by decide) (fun f h => by subst h; rfl), by decide⟩⟩

/-- A pending sheaf is READY and the sheaf with a cell is active. -/
def dD : Dev := { dL 2 with ldr := { act := some shA, pend := some shA } }
theorem dD_idle : dD.cmdIdle := by unfold Dev.cmdIdle; decide +kernel
def oneWr : List RegWr := [{ off := R.clkForce, mask := 15, data := 15 }]
theorem witness_DataCommandsArePlaced : dD.paired = false ∧ dD.role = .active ∧
    (∃ f : CmdFrame, f.tgt ≠ 0 ∧ f.tgt ≠ 0xFFFFFFFFFFFF ∧ oneWr.length ≤ 64 ∧ (∀ w ∈ oneWr, w.off < 2 ^ 32 ∧ w.mask < 2 ^ 32 ∧ w.data < 2 ^ 32) ∧ (st dD).accepts f 0x10 (writePay oneWr) ∧
      ((dD.counted f).dataCheck (.writes oneWr) false f.tgt ((dD.counted f).lastTarget f.slot)).2 = none) ∧
    (∃ f : CmdFrame, f.tgt ≠ 0 ∧ f.tgt ≠ 0xFFFFFFFFFFFF ∧ (st dD).accepts f 0x23 [] ∧ ((dD.counted f).dataCheck .swap false f.tgt ((dD.counted f).lastTarget f.slot)).2 = none) ∧
    (∃ f : CmdFrame, f.tgt ≠ 0 ∧ f.tgt ≠ 0xFFFFFFFFFFFF ∧ (st dD).accepts f 0x24 (leBytes 4 9 ++ [1, 2, 3, 4]) ∧
      ((dD.counted f).dataCheck (.cell 9 [1, 2, 3, 4]) false f.tgt ((dD.counted f).lastTarget f.slot)).2 = none) ∧
    (∃ f : CmdFrame, f.tgt ≠ 0 ∧ f.tgt ≠ 0xFFFFFFFFFFFF ∧ -(2 ^ 63 : Int) ≤ -(2 ^ 63) ∧ (st dD).accepts f 0x30 (leBytes 8 (wrapN 64 (-(2 ^ 63)))) ∧
      ((dD.counted f).dataCheck (.step (-(2 ^ 63))) false f.tgt ((dD.counted f).lastTarget f.slot)).2 = none) ∧
    ∃ f : CmdFrame, (st dD).accepts { f with tgt := 0 } 0x10 (writePay oneWr) ∧ (let e := dD.counted { f with tgt := 0 }
       (e.dataCheck (.writes oneWr) true (e.openTick (.writes oneWr)) (e.lastTarget f.slot)).2 = none) := by
  refine ⟨by decide, by decide, ⟨cf 0x10 1000 (writePay oneWr), ?_⟩, ⟨cf 0x23 1000 [], ?_⟩, ⟨cf 0x24 1000 (leBytes 4 9 ++ [1, 2, 3, 4]), ?_⟩,
    ⟨cf 0x30 1000 (leBytes 8 (wrapN 64 (-(2 ^ 63)))), ?_⟩, ⟨cf 0x10 0 (writePay oneWr), ?_⟩⟩
  · exact ⟨by show (1000 : Nat) ≠ 0; decide, by show (1000 : Nat) ≠ 0xFFFFFFFFFFFF; decide, by decide, by decide,
      accepts_cf (st dD) 0x10 1000 _ rfl dD_idle rfl rfl rfl rfl (by decide) (by decide) (by decide) (fun f h => by subst h; rfl), rfl⟩
  · exact ⟨by show (1000 : Nat) ≠ 0; decide, by show (1000 : Nat) ≠ 0xFFFFFFFFFFFF; decide,
      accepts_cf (st dD) 0x23 1000 _ rfl dD_idle rfl rfl rfl rfl (by decide) (by decide) (by decide) (fun f h => by subst h; rfl), rfl⟩
  · exact ⟨by show (1000 : Nat) ≠ 0; decide, by show (1000 : Nat) ≠ 0xFFFFFFFFFFFF; decide,
      accepts_cf (st dD) 0x24 1000 _ rfl dD_idle rfl rfl rfl rfl (by decide) (by decide) (by decide) (fun f h => by subst h; rfl), rfl⟩
  · exact ⟨by show (1000 : Nat) ≠ 0; decide, by show (1000 : Nat) ≠ 0xFFFFFFFFFFFF; decide, by decide,
      accepts_cf (st dD) 0x30 1000 _ rfl dD_idle rfl rfl rfl rfl (by decide) (by decide) (by decide) (fun f h => by subst h; rfl), rfl⟩
  · exact ⟨accepts_cf (st dD) 0x10 0 _ rfl dD_idle rfl rfl rfl rfl (by decide) (by decide) (by decide) (fun f h => by subst h; rfl), rfl⟩

/-- A unit in a pair with the role `r`, its lease lapsed and its partner a SHADOW. -/
def dR (r : Nat) : Dev := { regs dC [(R.pairCtrl, 2 ^ 31), (R.pairStat, r)] with
  pair := { dC.pair with
    lapsed := true
    peer := some { tick := 0, epoch := 0, role := 1, hb := false, release := none, yields := [], ds := 0, dt := 0, errmark := false, adopt := false, mapD := 0, disc := 0, creep := 0 } } }
theorem witness_PairCommandsChooseTheRole :
    (∃ f : CmdFrame, (st dC).accepts f 0x70 (leBytes 4 1) ∧ (dC.counted f).pairRefusal 0x70 1 = 0) ∧
    (∃ f : CmdFrame, (st dC).accepts f 0x73 [] ∧ (dC.counted f).pairRefusal 0x73 0 ≠ 0) ∧
    (∃ f : CmdFrame, (st (dR 4)).accepts f 0x71 [] ∧ ((dR 4).counted f).pairRefusal 0x71 0 = 0) ∧
    (∃ f : CmdFrame, (st (dR 3)).accepts f 0x72 [] ∧ ((dR 3).counted f).pairRefusal 0x72 0 = 0) ∧
    (∃ f : CmdFrame, (st (dR 0)).accepts f 0x73 [] ∧ ((dR 0).counted f).pairRefusal 0x73 0 = 0) ∧
    (∃ f : CmdFrame, (st (dR 1)).accepts f 0x74 [] ∧ ((dR 1).counted f).pairRefusal 0x74 0 = 0) ∧
    (∃ f : CmdFrame, (st (dR 4)).accepts f 0x75 [] ∧ ((dR 4).counted f).pairRefusal 0x75 0 = 0) ∧
    ∃ f : CmdFrame, (st (dR 0)).accepts f 0x76 [] ∧ ((dR 0).counted f).pairRefusal 0x76 0 = 0 := by
  have i : ∀ r, r < 5 → (dR r).cmdIdle := by
    intro r h
    have : r = 0 ∨ r = 1 ∨ r = 2 ∨ r = 3 ∨ r = 4 := by omega
    rcases this with rfl | rfl | rfl | rfl | rfl <;> unfold Dev.cmdIdle <;> decide +kernel
  exact ⟨⟨_, accepts_cf (st dC) 0x70 0 (leBytes 4 1) rfl dC_idle rfl rfl rfl rfl (by decide) (by decide) (by decide) (fun f h => by subst h; rfl), rfl⟩,
    ⟨_, accepts_cf (st dC) 0x73 0 [] rfl dC_idle rfl rfl rfl rfl (by decide) (by decide) (by decide) (fun f h => by subst h; rfl), by decide +kernel⟩,
    ⟨_, accepts_cf (st (dR 4)) 0x71 0 [] rfl (i 4 (by decide)) rfl rfl rfl rfl (by decide) (by decide) (by decide) (fun f h => by subst h; rfl), rfl⟩,
    ⟨_, accepts_cf (st (dR 3)) 0x72 0 [] rfl (i 3 (by decide)) rfl rfl rfl rfl (by decide) (by decide) (by decide) (fun f h => by subst h; rfl), rfl⟩,
    ⟨_, accepts_cf (st (dR 0)) 0x73 0 [] rfl (i 0 (by decide)) rfl rfl rfl rfl (by decide) (by decide) (by decide) (fun f h => by subst h; rfl), rfl⟩,
    ⟨_, accepts_cf (st (dR 1)) 0x74 0 [] rfl (i 1 (by decide)) rfl rfl rfl rfl (by decide) (by decide) (by decide) (fun f h => by subst h; rfl), rfl⟩,
    ⟨_, accepts_cf (st (dR 4)) 0x75 0 [] rfl (i 4 (by decide)) rfl rfl rfl rfl (by decide) (by decide) (by decide) (fun f h => by subst h; rfl), rfl⟩,
    ⟨_, accepts_cf (st (dR 0)) 0x76 0 [] rfl (i 0 (by decide)) rfl rfl rfl rfl (by decide) (by decide) (by decide) (fun f h => by subst h; rfl), rfl⟩⟩

/-! ## Witnesses: register accesses, resets of a plane -/

/-- A commanded and a direct access at the last cycle of a tick. -/
def vC : RegVia := { c := 10239, cmd := true }
def vD : RegVia := { c := 10239, cmd := false }
/-- Every switchable domain is on. -/
def dOn : Dev := (dL 0).setReg R.pwrDomstat 0xFFF
theorem witness_CommandedWritesWait : vC.cmd = true ∧ dOn.cmdReady ∧ (dR 0).cmdReady ∧ dOn.paired = false ∧ (dR 0).paired = true ∧
    ([R.engForce, R.clkForce, R.pairForce, R.snsForce, R.ddrForce, R.macForce (macBlk 0), R.macForce (macBlk 1), R.bbxFault, R.pwrTherm, R.pwrSleep, R.pwrDomctl,
      R.timeStepacc, R.modForce0].all (fun off => dOn.blockOn (off / 0x10000))) = true ∧ 0 < 7 ∧ 7 < 8 ∧ 15 < 16 ∧ 3 < 4 ∧ 2 ^ 24 - 1 < 2 ^ 24 ∧ 2 ^ 32 - 1 < 2 ^ 32 ∧
      2 ^ 48 - 1 < 2 ^ 48 ∧ (2 ^ 48 - 1) % 2 ^ 32 ≠ 0 ∧ (2 ^ 48 - 1) / 2 ^ 32 ≠ 0 := by
  and_intros <;> decide +kernel
theorem witness_CriticalDirectWritesAreRefused : vD.cmd = false ∧ dOn.inReset = false ∧
    (∃ r, rowAt R.snsForce = some r ∧ hasCommon (R.snsForce / 0x10000) = true ∧ r.writable ≠ 0 ∧ R.snsForce ≠ R.pwrRst ∧ r.writable &&& r.crit = r.writable) ∧
    (∃ r, rowAt (R.strmRxarr 255) = some r ∧ hasCommon (R.strmRxarr 255 / 0x10000) = true ∧ r.writable ≠ 0 ∧ R.strmRxarr 255 ≠ R.pwrRst ∧
      bit ((dOn.setReg R.cmdPolicy 3).reg R.cmdPolicy) 1 = true ∧ dataPlane.contains (R.strmRxarr 255 / 0x10000) = true) ∧
    ([R.engForce, R.clkForce, R.pairForce, R.snsForce, R.ddrForce, R.macForce (macBlk 0), R.macForce (macBlk 1), R.bbxFault, R.pwrTherm, R.pwrSleep, R.pwrDomctl,
      R.timeStepacc, R.modForce0, R.modClear0, R.commit Blk.clk, R.commit Blk.mac0, R.commit Blk.mod].all (fun off => dOn.blockOn (off / 0x10000))) = true := by
  and_intros <;> decide +kernel
/-- Channel 47 is latched in a stopped group. -/
def dLatch : Dev := dOn.onCh 47 (fun x => { x with st := 4 })
theorem witness_ChangesActAtTheirBoundary :
    bit 256 8 = true ∧ sgn 16 ((dOn.setReg R.thmTj 599).reg R.thmTj) < 600 ∧ 600 ≤ sgn 16 ((dOn.setReg R.thmTj 600).reg R.thmTj) ∧ dLatch.mod.ch.length = 48 ∧
    (dLatch.modG (47 / 8)).run_ = false ∧ (dLatch.modC 47).st = 4 ∧ (dR 0).paired = true ∧ dOn.paired = false ∧ (st dOn).sys.mem.wf = true := by decide +kernel
/-- A first fault of CLK stands. -/
def dFlt : Dev := ({ dOn with flt := updAt dOn.flt Blk.clk (fun x => { x with first := some Src.clkRefLos }) } : Dev)
theorem witness_DirectWritesActAtOnce : vD.cmd = false ∧ dFlt.inReset = false ∧
    (([Blk.bbx, Blk.evt, Blk.gln, Blk.macm, Blk.time, Blk.cmd, Blk.clk, Blk.gpio] ++ [0, 1, 2, 3].map macBlk).all (fun b => dFlt.blockOn b)) = true ∧
    bit (dFlt.reg R.cmdPolicy) 1 = false ∧ dFlt.rf R.glnRbstat 31 1 = 0 ∧ dFlt.rf (R.macMdiodata 12) 31 1 = 0 ∧ dFlt.cmd.owed = [] ∧ dFlt.cmdQueued = 0 ∧
    (∃ r, rowAt (R.fltstat Blk.clk) = some r ∧ r.writable &&& 2 ^ Src.clkRefLos ≠ 0 ∧ (dFlt.fltOf Blk.clk).first = some Src.clkRefLos ∧
      bit (2 ^ Src.clkRefLos &&& r.writable) Src.clkRefLos = true) ∧ (faultSrcs Blk.clk).length ≠ 0 ∧ Blk.clk ≠ Blk.cmd ∧ 2 ^ 32 - 1 < 2 ^ 32 ∧ 3 < 4 := by
  and_intros <;> decide +kernel
/-- The commit group of MACT is pending. -/
def dGrp (b : Nat) : Dev := dOn.setReg (R.commitstat b) (if b = Blk.mact then 1 else 32)
theorem witness_CommitStrobes : dOn.blockOn Blk.macm = true ∧ dOn.grpPend Blk.macm 0 = false ∧ (dGrp Blk.mact).blockOn Blk.mact = true ∧ (dGrp Blk.mact).grpPend Blk.mact 0 = true ∧
    dOn.cmdReady ∧ (dGrp Blk.mod).cmdReady ∧ bit (commitGroups Blk.mod) 5 = true ∧ dOn.blockOn Blk.mod = true ∧ dOn.grpPend Blk.mod 5 = false ∧
    (dGrp Blk.mod).grpPend Blk.mod 5 = true := by
  and_intros <;> decide +kernel
theorem witness_RegisterReads : dOn.inReset = false ∧ (∃ r, R.cmdCnt 1 % 4 = 0 ∧ rowAt (R.cmdCnt 1) = some r ∧ r.kind = .wideRC ∧ R.cmdCnt 1 % 8 = r.base % 8) ∧
    ([Blk.cmd, Blk.tick, Blk.thm, Blk.time].all (fun b => dOn.blockOn b)) = true ∧
    ({ dOn with time := { dOn.time with tsq := [[], [], [{ w0 := 1, w1 := 2, w2 := 3, w3 := 4 }]] } } : Dev).time.tsq.getD 2 [] = { w0 := 1, w1 := 2, w2 := 3, w3 := 4 } :: [] ∧
    dOn.time.tsq.getD 2 [] = [] ∧ 2 < 3 := by
  refine ⟨rfl, ⟨_, by decide, rfl, by decide +kernel⟩, by decide +kernel, rfl, rfl, by decide⟩
/-- The PCI Express link is up; the boot waits for an image. -/
def dLink : Dev := regs dv [(R.pcieStat, 1), (R.sysBootstat, 9), (R.sysBootlen, 160)]
theorem witness_PlaneResetsAndThePcieFunction : dLink.inReset = false ∧ dLink.bootState ≠ 7 ∧ dLink.rf R.pcieStat 0 1 = 1 ∧ (3 = 0 ∨ 3 = 3) ∧ 3 ≠ dLink.rf R.pcieStat 8 2 ∧
    dLink.bootState = 9 ∧ dLink.boot.image.length + 4 < dLink.rf R.sysBootlen 0 17 ∧ 31 < 32 ∧
    (∃ k, bit ({ dLink with pcie := { dLink.pcie with msixPend := 2 ^ 31 } } : Dev).pcie.msixPend k = true) := by
  and_intros <;> first | decide +kernel | exact ⟨31, by decide⟩
/-! ## Witnesses: the pair -/

/-- The unit is in a pair with the role `r` at tick 100, the mirror link up with both lanes. -/
def dP (r : Nat) : Dev := { regs dv [(R.sysBootstat, 8), (R.pairCtrl, 2 ^ 31), (R.pairStat, r), (R.mirStat, 0x31)] with tick := 100 }
/-- A STATUS of tick 100 that releases the lease. -/
def stF : StatusF := { tick := 100, epoch := 4, role := 0, hb := true, release := some (3, 5), yields := [], ds := 0, dt := 0, errmark := false, adopt := false, mapD := 1, disc := 0, creep := 0 }
theorem run_ (d : Dev) (h : (!d.inReset && d.ticking) = true) : (st d).Running := by
  simp only [Bool.and_eq_true, Bool.not_eq_true'] at h
  exact ⟨h.1, h.2⟩
theorem ready_ (d : Dev) (h : (d.rf R.mirStat 0 1 = 1 ∧ d.mgmtRst = none ∧ d.pair.rtSent + 6144 ≤ rtCap)) : d.mirReady := h
theorem witness_StatusFrames : (∀ r, r < 5 → (st (dP r)).Running) ∧ (dP 0).mirReady ∧ (dv.setReg R.mirStat 0x31).mirReady ∧ (dv.setReg R.mirStat 0x31).paired = false ∧
    dv.mgmtRst = none ∧ (dP 0).mirLive = true ∧ dv.mirLive = false ∧ (dP 1).paired = true ∧ (dP 1).role ≠ .isolated ∧
    (dP 1).mgmtRst = none ∧ stF.tick = (dP 1).tick ∧ (10175 ≤ 10175 ∧ ¬10176 ≤ 10175) ∧
    (let d : Dev := { (dP 3).setReg R.clkStat 0x72 with pair := { (dP 3).pair with peer := some stF } }
     d.pair.peer = some stF ∧ d.paired = true ∧ d.role = .fallow ∧ d.clkMode = 2 ∧ d.clkSel = some 3 ∧ d.rf R.pairStat 10 1 = 0) ∧
    ((dP 1).mirLive = true ∧ 5 ≠ (dP 1).reg R.sysId ∧ (dP 1).role ≠ .active) ∧ ((dP 1).reg R.sysId = (dP 1).reg R.sysId ∧ 0 % 2 = (dP 1).lf R.ddrCfg 0 1) := by
  refine ⟨?_, ready_ _ (by decide +kernel), ready_ _ (by decide +kernel), by decide +kernel⟩
  intro r h
  have : r = 0 ∨ r = 1 ∨ r = 2 ∨ r = 3 ∨ r = 4 := by omega
  rcases this with rfl | rfl | rfl | rfl | rfl <;> exact run_ _ (by decide +kernel)
/-- A unit with the bits `s` in PAIR.STAT and the pair's own state `p`. -/
def dQ (s : Nat) (p : Pair) : Dev := { (dP 0).setReg R.pairStat s with pair := p }
theorem witness_LeaseEnds :
    (let d := dQ 0x300 {}
     d.rf R.pairStat 8 1 = 1 ∧ d.rf R.pairStat 12 1 = 0 ∧ d.pair.renew * 10240 + 9984 + 30720 ≤ d.tick * 10240 + 1 ∧ d.role = .active ∧ d.paired = true ∧ d.mgmtRst = none) ∧
    (st (dQ 1 {})).Running ∧
    (let p : Pair := { lastHb := some 96 }
     p.lastHb = some 96 ∧ 96 + 4 ≤ (dQ 1 p).tick ∧ p.lapsed = false ∧ (dQ 1 p).paired = true ∧ (dQ 1 p).role = .shadow ∧ (dQ 3 p).role = .fallow ∧ (dQ 2 p).role = .catchup) ∧
    (dQ 1 { relRx := some (99, 5, 2) }).relNow = some (5, 2) ∧ ¬(2 = 1 ∧ (dQ 1 { relRx := some (99, 5, 2) }).pair.joint = true) ∧ (dQ 1 {}).mgmtRst = none ∧
    (dQ 1 { relRx := some (99, 5, 1), joint := true }).relNow = some (5, 1) ∧ (dQ 1 { lapsed := true }).relNow = none ∧ (dQ 1 { lapsed := true }).pair.lapsed = true ∧
    (dQ 1 {}).pair.lapsed = false ∧ ((dQ 1 {}).rf R.pairStat 5 1 = 0 ∧ (dQ 1 {}).rf R.pairStat 12 1 = 0 ∧ (dQ 1 {}).relNow = none) ∧
    ((dQ 0x1041 { lastHb := some 97 }).rf R.pairStat 12 1 = 1 ∧ (dQ 0x1041 { lastHb := some 97 }).silent = false) := by
  refine ⟨by decide +kernel, run_ _ (by decide +kernel), by decide +kernel⟩
/-- The same with a partner in SHADOW. -/
def dW (r : Nat) : Dev := { dP r with pair := { (dP r).pair with peer := some { stF with role := 1, release := none } } }
/-- A running receive context 255 with a packet due. -/
def dX (r : Nat) (x : RxCtx) : Dev := { dW r with strm := { (dW r).strm with rx := updAt (dW r).strm.rx 255 (fun _ => x) } }
/-- A packet. -/
def pk : RxPkt := { seq := 7, ts := 1, t0 := 0, pay := [1, 2, 3], arr := 0 }
/-- A MOD block of tick 99. -/
def noBlk : ModBlk := { tick := 99, volts := [], verd := [], flags := [], cores := [], grps := [], sts := [] }
theorem witness_ForwardedInputs : (st (dP 1)).Running ∧ (st (dP 1)).Inv ∧ (dP 1).mirLive = true ∧ (dP 1).lockstep = true ∧ 0x121 ≤ 0x121 ∧
    (101 = (dP 1).tick + 1 ∧ 9984 ≤ 9984) ∧ (100 = (dP 1).tick ∧ 1023 < 1024) ∧ ((dP 1).tick < 101 ∧ ¬(101 = (dP 1).tick + 1 ∧ 9984 ≤ 9983)) ∧
    (let d : Dev := { dP 1 with pair := { (dP 1).pair with landT := 100, landed := List.range 290 } }
     d.pair.landT = d.tick ∧ d.pair.landed = List.range 290 ∧ ∀ i, i ≤ 0x121 → i ∈ List.range 290) ∧
    (∃ i, 0x121 ≤ i ∧ i ≤ 0x121 ∧ ¬((dP 1).pair.landT = (dP 1).tick ∧ i ∈ (dP 1).pair.landed)) ∧
    (let d := dX 0 { on := true, cut := some 7, pkts := [pk] }
     d.strmPaired = true ∧ d.role = .active ∧ d.mgmtRst = none ∧ d.rf R.mirStat 0 1 = 1 ∧ (d.rxC 255).cut = some 7 ∧ (d.rxC 255).pkts.find? (fun x => x.seq == 7) = some pk) ∧
    (2200 ≤ 2200 ∧ 2200 < 2201 ∧ 4095 ≤ 4095) ∧
    (({ dX 0 { on := true, cut := some 7, pkts := [pk] } with tick := 101 } : Dev).rxDue 255 = true) ∧
    (let d := dX 1 { on := true }
     d.strmPaired = true ∧ d.mgmtRst = none ∧ ¬(d.role = .catchup ∧ d.phase ≠ 5) ∧ (d.rxC 255).on = true ∧ (d.rxC 255).pkts.any (fun p => p.seq == 65535) = false) ∧
    (∃ b : ModBlk, b.tick + 1 = (dP 1).tick) ∧ 3839 < 3840 ∧ 3840 ≤ 3840 ∧ ((dP 0).paired = true ∧ (dP 0).role = .active ∧ (dP 0).mirReady) ∧ (dP 1).role = .shadow ∧ (dP 1).mod.blk = none ∧
    ({ dP 1 with mod := { (dP 1).mod with blk := some noBlk } } : Dev).mod.blk.isSome = true := by
  and_intros <;> first | decide +kernel | exact inv_ _ (by decide) | exact ⟨0x121, by decide +kernel⟩ | exact ⟨noBlk, by decide +kernel⟩
/-- A command that awaits its CONFIRM, with its entry on the agenda. -/
def aw : Await := { slot := 7, ctr := 9, tgt := 101, at_ := 0, cmd := { src := 2, bytes := frameOf { fr 7 (2 ^ 48 - 1) with ctr := 9 } 0x30 [0, 0, 0, 0, 0, 0, 0, 0], from_ := none, num := 3 } }
/-- The lease holder that waits for it. -/
def dA (asap : Bool) : Dev := { dP 0 with cmd := { (dP 0).cmd with await := [{ aw with asap := asap }], owed := [{ num := 3, src := 2, from_ := none, reply := none }] }, agenda := [{ tgt := 101, slot := 7, ctr := 9, act := .step 0 }] }
/-- A mirrored command. -/
def mc (imm : Bool) : MirCmd := { slot := 7, ctr := 2 ^ 64 - 1, tgt := 200, imm := imm, act := .step 5 }
/-- A packet to send. -/
def tk : TxPkt := { ctx := 255, port := 1, seq := 65535, qt := 97, limit := 99, frame := [1] }
/-- The header of a frame at the tick's last cycle; one with a SEQ of its own. -/
def hd : MirHdr := { c := 10239, seq := 0 }
/-- A slot's record that a mirrored command has replaced, and a frame that has left. -/
def dPrev : Dev := ({ dP 1 with
  cmd := { (dP 1).cmd with prev := [(7, 9, 4, 60)] }
  out := { (dP 1).out with mir := [{ again := false, seq := 65535, len := 24, tick := 99, msg := .cancel 7 8 }] } } : Dev).setW (R.tickSlotcnt 7) 9
/-- The command as ASAP, and the lease holder that takes its entry off again once CONFIRM has come with LATE. -/
def aT : Await := { aw with asap := true }
def uT : Dev := (((dA true).mirHead hd).atC hd.c).unplace aT.slot aT.ctr
/-- The lease holder once the frame is counted, before the snoop point. -/
def hT : Dev := (((dA true).atC hd.c).bump (R.mirCnt 1) 1)
theorem w64_cvuLatch_ne (d : Dev) (k s v o : Nat) (h : o ≠ R.cvuResult k) (g : o ≠ R.cvuUnits k) : (d.cvuLatch k s v).w64 o = d.w64 o := by
  rw [Dev.cvuLatch, Dev.w64_bump_ne _ _ _ _ g, Dev.w64_setFld, Dev.w64_setFld, Dev.w64_setW_ne _ _ _ _ h]
theorem uT_record : uT.w64 (R.tickSlottgt 7) = 0 := by
  have e : uT.w64 (R.tickSlottgt 7) = (hT.draw.1.cvuLatch 3 0 (hT.draw.2.toNat % 2 ^ 32)).w64 (R.tickSlottgt 7) := by rfl
  rw [e, w64_cvuLatch_ne _ _ _ _ _ (by decide) (by decide)]
  decide +kernel
theorem uT_act : actOf (cmdOp aT.cmd.bytes) (cmdPay aT.cmd.bytes) = .step 0 := by decide +kernel
theorem uT_check : (uT.dataCheck (actOf (cmdOp aT.cmd.bytes) (cmdPay aT.cmd.bytes)) false (uT.openTick (actOf (cmdOp aT.cmd.bytes) (cmdPay aT.cmd.bytes)))
    (uT.w64 (R.tickSlottgt aT.slot))).2 = none := by
  have t : uT.openTick (.step 0) = 102 := by decide +kernel
  have s : aT.slot = 7 := rfl
  rw [uT_act, t, s, uT_record]
  decide +kernel
theorem witness_MirroredCommands : (st (dP 1)).Running ∧ (dP 1).mirLive = true ∧ (dP 1).mirReady ∧ (dP 1).seqFits hd = true ∧ (mc false).slot < 8 ∧ (mc false).ctr < 2 ^ 64 ∧ (mc false).tgt < 2 ^ 64 ∧
    ((dP 1).role = .shadow ∧ (dP 1).w64 (R.tickSlotcnt 7) < (mc false).ctr ∧ (mc false).imm = false ∧
      ((((dP 1).mirHead hd).atC hd.c).dataCheck (mc false).act false 200 ((dP 1).w64 (R.tickSlottgt 7))).2 = none) ∧
    ({ mc false with ctr := 0 } : MirCmd).ctr ≤ (dP 1).w64 (R.tickSlotcnt 7) ∧ (dP 0).role = .active ∧ ((dP 3).role = .fallow ∧ (dP 3).phase ≠ 1) ∧
    ((dP 2).role = .catchup ∧ (dP 2).phase ≠ 5 ∧ (dP 2).pair.rs.used + 8192 ≤ 224 * 2 ^ 20) ∧
    ((dA false).cmd.await = [aw] ∧ (dA false).cmd.imm = [] ∧ aw.ctr < 2 ^ 64 ∧ (dA false).w64 (R.tickSlotcnt aw.slot) < aw.ctr ∧
      (dA false).cmd.owed = [{ num := aw.cmd.num, src := 2, from_ := none, reply := none }] ∧ (dA false).cmdQueued = 0 ∧ (dA false).mirLive = true ∧ (dA false).seqFits hd = true ∧
      aw.at_ + 20480 ≤ (dA false).tick * 10240 + 0 ∧ aw.tgt = (dA false).tick + 1) ∧ (st (dA false)).Running ∧ (dA false).mirReady ∧
    ((uT.dataCheck (actOf (cmdOp aT.cmd.bytes) (cmdPay aT.cmd.bytes)) false (uT.openTick (actOf (cmdOp aT.cmd.bytes) (cmdPay aT.cmd.bytes)))
        (uT.w64 (R.tickSlottgt aT.slot))).2 = none ∧
      (dA true).cmd.await = [aT] ∧ (dA true).cmd.imm = [] ∧ aT.asap = true ∧ cmdTgt aT.cmd.bytes ≠ 0) ∧
    (dP 1).cmd.prev = [] ∧ (dPrev.mirLive = true ∧ dPrev.cmd.prev = [(7, 9, 4, 60)] ∧ dPrev.w64 (R.tickSlotcnt 7) = 9 ∧ 7 < 8) ∧
    (dPrev.sentFrame 8 65535 = some { again := false, seq := 65535, len := 24, tick := 99, msg := .cancel 7 8 } ∧ 24 ≤ 6144 ∧ dPrev.sentFrame 8 65534 = none) ∧
    dPrev.mirReady ∧ dPrev.seqFits hd = true ∧
    (let d : Dev := { dW 0 with strm := { (dW 0).strm with acks := [(255, 1, 65535)] } }
     d.acksGo = true ∧ d.strm.acks ≠ [] ∧ d.rf R.mirStat 0 1 = 1 ∧ d.mgmtRst = none ∧ d.pair.rtSent + 6144 ≤ rtCap) ∧
    (let d : Dev := { dP 1 with strm := { (dP 1).strm with held := [tk] } }
     d.paired = true ∧ d.role = .shadow ∧ d.strm.held = [tk] ∧ tk.port < 2 ∧ tk.qt + 3 ≤ d.tick) := by
  and_intros <;> first | decide +kernel | exact uT_check
theorem witness_MirrorLanesAndFrames : (st (dP 0)).Running ∧ (dP 0).rf R.mirStat (4 + 1) 1 = 1 ∧ ((dP 0).setReg R.mirStat 0).rf R.mirStat (4 + 1) 1 = 0 ∧
    bit ((((dP 0).setReg R.mirStat 0).setReg R.mirCtrl 3).lv R.mirCtrl) 1 = true ∧ (dP 0).rf R.mirStat 0 1 = 1 ∧ (dP 0).mirLive = true ∧ (0 = 0 ∨ 0x10 < 0) ∧ 0x10 < 0x11 ∧
    (1 ≤ 0x10 ∧ 0x10 ≤ 0x10) ∧ (dP 0).role ≠ .catchup ∧ (let d := (dP 2).setReg R.pairRsstat 2; d.mirLive = true ∧ d.role = .catchup ∧ d.phase ≠ 0) ∧
    (dP 0).mirReady ∧ (((dP 0).setReg R.mirStat 0).rf R.mirStat 0 1 = 0 ∧ ((dP 0).setReg R.mirStat 0).mirLive = true) ∧
    (let d : Dev := { dP 0 with pair := { (dP 0).pair with rxSeq := some 65534 } }
     d.mirLive = true ∧ d.rf R.mirStat 0 1 = 1 ∧ d.mgmtRst = none ∧ d.pair.rtSent + 6144 ≤ rtCap ∧ hd.again = false ∧ d.pair.rxSeq = some 65534 ∧ 65534 ≠ hd.seq ∧
       d.seqFits { hd with seq := 65534 } = true) ∧ ({ dP 0 with mgmtRst := some 108 } : Dev).mgmtRst ≠ none ∧
    (let d : Dev := { dP 0 with pair := { (dP 0).pair with rtSent := 14337 } }
     d.rf R.mirStat 0 1 = 1 ∧ d.mgmtRst = none ∧ 14336 < d.pair.rtSent) := by
  and_intros <;> decide +kernel
/-- A lease holder that wants a resynchronisation, its partner FALLOW. -/
def dS : Dev := { dP 0 with
  pair := { (dP 0).pair with
    rs := { (dP 0).pair.rs with asked := true }
    peer := some { stF with role := 3, release := none, adopt := true }
    ident := some ((dP 0).reg R.sysId, (dP 0).lv R.ddrCfg)
    peerAt := 100 } }
/-- The unit with the phase `n` of a resynchronisation that takes its snapshot at tick 100. -/
def dN (r n : Nat) : Dev := ((dP r).setReg R.pairRsstat n).setW R.pairSnap 100
/-- A block state. -/
def bst : BlockState := { agenda := [], held := [], slots := [], eng := {}, ldr := {}, regs := [], wide := [], strm := {}, tdm := [], bank := 0 }
theorem witness_ResynchronisationStarts : (st dS).Running ∧ (st dS).Inv ∧ dS.mirReady ∧ ((dS.atC 10239).resyncMay = true ∧ dS.ringFits = true) ∧
    (((dS.setReg R.pairRecmax 0xFFFFFFFF).atC 10239).resyncMay = true ∧ (dS.setReg R.pairRecmax 0xFFFFFFFF).ringFits = false) ∧ ((dP 0).atC 0).resyncMay = false ∧
    ((dP 3).mirLive = true ∧ 2 ^ 64 - 1 < 2 ^ 64 ∧ (dP 3).role = .fallow ∧ (dN 3 1).phase ≠ 0) ∧
    ((dN 0 1).paired = true ∧ (dN 0 1).phase = 1 ∧ (dN 0 1).w64 R.pairSnap = (dN 0 1).tick ∧ (dN 0 1).role = .active) ∧
    ((dN 3 1).phase = 1 ∧ (dN 3 1).w64 R.pairSnap = (dN 3 1).tick ∧ (dN 3 1).role = .fallow ∧ (dN 3 1).pair.rs.used + 1472 ≤ 224 * 2 ^ 20) ∧
    ((dP 1).mirLive = true ∧ (dP 1).role = .shadow ∧ 2 ^ 27 - 1 + 1 ≤ 2 ^ 27 ∧ (dP 1).loadState = 0) ∧
    ((dN 2 2).mirLive = true ∧ (dN 2 2).role = .catchup ∧ (dN 2 2).phase = 2 ∧ imageMem - 1 < imageMem ∧ 0x80000000 - 1 + 1 ≤ 0x80000000) ∧
    (let d := (dN 0 2).setReg R.pairStat 0x2000
     let e : Dev := { d with pair := { d.pair with rs := { d.pair.rs with sent := imageBytes } } }
     e.role = .active ∧ e.paired = true ∧ e.rf R.pairStat 13 1 = 1 ∧ imageBytes ≤ e.pair.rs.sent) := by
  refine ⟨run_ _ (by decide +kernel), by unfold State.Inv; decide, ready_ _ (by decide +kernel), by decide +kernel⟩
theorem witness_ReplayAndReturn : (st (dN 0 3)).Running ∧ ((dN 0 3).paired = true ∧ (dN 0 3).phase = 3 ∧ (dN 0 3).role = .active ∧ (dN 0 3).pair.rs.copy = []) ∧
    (let d : Dev := { dN 2 3 with pair := { (dN 2 3).pair with rs := { (dN 2 3).pair.rs with blk := some bst, held := true } } }
     d.paired = true ∧ d.phase = 3 ∧ d.role = .catchup ∧ d.pair.rs.blk = some bst ∧ bst.ldr.act = none ∧ d.pair.rs.held = true ∧ bst.agenda.length < 512) ∧
    (let d : Dev := { dN 2 4 with replayT := some 99 }
     d.paired = true ∧ d.role = .catchup ∧ d.phase = 4 ∧ d.replayT = some 99 ∧ (d.recordOf 99).digest = none ∧ 99 < d.tick ∧ ¬99 + 1 < d.tick ∧ 98 + 1 < d.tick) ∧
    ((dN 2 5).phase = 5 ∧ (dN 2 5).rf R.pairRsstat 3 17 < 96000) ∧ (let d := (dN 2 5).setReg R.pairRsstat (5 + 8 * 96000); d.phase = 5 ∧ 96000 ≤ d.rf R.pairRsstat 3 17) := by
  refine ⟨run_ _ (by decide +kernel), by decide +kernel⟩

/-! ## Witnesses: clocks, time, the loader -/

/-- The reference `n` in state `s`. -/
def dRef (n s : Nat) : Dev := (regs dv [(R.clkRefstat n, s), (R.clkRefwin n, 200), (R.mirStat, 1), (R.clkStat, 0x41)])
/-- The PTP virtual reference with a second's rate of the time counter in it. -/
def dPtp : Dev := { dRef 2 2 with time := { (dRef 2 2).time with cyc := 768, adv := 2 ^ 32 * 3125 } }
theorem witness_ReferencesAreQualified : (st (dRef 3 2)).Running ∧ 3 < 4 ∧
    (((dPtp.atC 0).timeNow).ptpOffset = some 0 ∧ (0 : Int).natAbs < 2 ^ 31 ∧ dPtp.refState 2 = 2 ∧ (st dPtp).Running) ∧
    (let d := (dRef 2 1).setReg R.clkCtrl 256
     d.refState 2 = 1 ∧ d.lf R.clkCtrl 8 1 = 1 ∧ bit (d.lv R.clkForce) 2 = false) ∧ (dRef 2 2).lf R.clkCtrl 8 1 = 0 ∧
    (let d := regs (dRef 3 2) [(R.clkRefcfg 3, 128), (R.clkForce, 8)]
     bit (d.lv (R.clkRefcfg 3)) 7 = true ∧ 2 ≤ d.refState 3 ∧ bit (d.lv R.clkForce) 3 = true) ∧
    (regs dv [(R.clkRefstat 0, 3)]).clkEval.clkSel = some 0 ∧ dv.clk.refs.length = 4 ∧ (2 ≤ (dRef 3 2).refState 3 ∧ ¬(3 = 2 ∧ (dRef 3 2).lf R.clkCtrl 8 1 = 1)) ∧
    ((dRef 3 1).refState 3 < 2 ∧ (dRef 3 1).refState 3 = 1 ∧ bit ((dRef 3 1).lv R.clkForce) 3 = false ∧ (dRef 3 1).rf R.mirStat 0 1 = 1) ∧ (dRef 3 2).refState 3 ≠ 1 ∧
    (let d := dRef 3 2
     (d.refState 3 = 2 ∧ ¬d.lf (R.clkRefwin 3) 0 16 * 1000 < (200000 : Int).natAbs ∧ (d.refS 3).good = 0 ∧ d.lf (R.clkRefwin 3) 0 16 * 1000 < (200001 : Int).natAbs) ∧
     1 ≤ (({ d with clk := { d.clk with refs := updAt d.clk.refs 3 (fun x => { x with good := 1 }) } } : Dev).refS 3).good) ∧
    (let d := dRef 3 4
     d.refState 3 = 4 ∧ ¬d.lf (R.clkRefwin 3) 0 16 * 1000 < (-200000 : Int).natAbs ∧ driftFails ((-200000 :: (d.refS 3).offs).take 64) d.driftWin (d.lf R.clkDrift 0 16) = false ∧
     d.lf (R.clkRefwin 3) 0 16 * 1000 < (2 ^ 31 - 1 : Int).natAbs ∧ (2 ^ 31 - 1 : Int).natAbs < 2 ^ 31) ∧
    ((dRef 3 5).refState 3 = 5 ∧ (dRef 3 5).reg (R.clkRefwtr 3) = 0 ∧ ((dRef 3 5).setReg (R.clkRefwtr 3) 1).reg (R.clkRefwtr 3) ≠ 0) ∧ (dRef 3 3).refState 3 = 3 := by
  and_intros <;> decide +kernel
/-- The loop with reference 3 selected in the mode `m`. -/
def dLoop (m : Nat) : Dev := regs dv [(R.clkStat, 0x70 + m), (R.clkReflock 3, 0x020001), (R.clkRefstat 3, 3)]
theorem witness_DpllAndHoldover : (st (dLoop 1)).Running ∧ (dLoop 1).clkSel = some 3 ∧ (dLoop 1).refState 3 = 3 ∧ ((dLoop 1).refPhase 3 (2 ^ 31 - 1)).natAbs < 2 ^ 31 ∧
    (((dLoop 1).setReg (R.clkRefstat 3) 4).clkSel = some 3 ∧ ((dLoop 1).setReg (R.clkRefstat 3) 4).refState 3 ≠ 3 ∧ (dLoop 1).clkSel ≠ some 0) ∧ dv.clkSel = none ∧ dv.clk.pull = false ∧
    (let y : Syn := { frac := 10 ^ 12 - 1, win := List.replicate 8 true ++ List.replicate 16 false }
     (-200000000 : Int).natAbs ≤ 200000000 ∧ 0 ≤ y.frac ∧ y.frac < 10 ^ 12 ∧ (y.win.filter (fun b => b)).length = 8) ∧
    (0 < ({ dLoop 2 with clk := { (dLoop 2).clk with num := 1 } } : Dev).clk.num) ∧ (dLoop 1).clkMode = 1 ∧ (dLoop 2).clkMode = 2 ∧
    (dLoop 1).clk.takeOff = false ∧ (dLoop 1).sreg (R.clkRefphoff 3) = 0 ∧
    (let win := (dLoop 1).lf (R.clkReflock 3) 0 16 * 1000
     (1000 : Int).natAbs ≤ win ∧ win < (1001 : Int).natAbs ∧ 4 * win < (-4001 : Int).natAbs ∧ (4000 : Int).natAbs ≤ 4 * win) ∧
    (let d : Dev := { dLoop 1 with clk := { (dLoop 1).clk with inside := 1, outside := 3, takeOff := true } }
     max 1 (d.lf (R.clkReflock 3) 16 8) ≤ d.clk.inside + 1 ∧ 3 ≤ d.clk.outside ∧ d.clk.takeOff = true) ∧
    (dLoop 3).clkMode = 3 ∧ (dLoop 3).clkMode ≠ 1 ∧ (dLoop 3).clkMode ≠ 2 ∧ dv.clkMode ≠ 3 ∧
    (let d := (dLoop 3).setReg R.clkHoldtime 0xFFFFFFFF
     let k := xoClass (d.lf R.clkXoclass 0 2)
     d.lf R.clkHoldlim 0 24 * 100000 < d.clk.e0 * 100 + (if d.clk.short then 4 * k.1 else k.1) * (2 ^ 32 - 1) + k.2 * (2 ^ 32 - 1) * (2 ^ 32 - 1) ∧ d.rf R.clkStat 8 1 = 0) := by
  and_intros <;> decide +kernel
theorem witness_LossOfTheClock : dv.inReset = false ∧ dv.rf R.synStat 0 1 = 1 ∧ State.reset.sys.dev.rf R.synStat 0 1 = 0 ∧ dv.rf R.synStat 1 1 = 1 ∧ State.reset.sys.dev.rf R.synStat 1 1 = 0 := by
  decide +kernel
/-- Compare unit 3 is armed with the period `per` for the time `tgt`. -/
def dCmp (per tgt : Nat) : Dev := regs dv [(R.timeCmpcfg 3, 2 ^ 31 + per), (R.timeCmptgt 3, tgt)]
theorem witness_CompareUnitsAndTheTimePll : (st (dCmp 0 0)).Running ∧ 10239 < 10240 ∧
    (let d := ((dCmp 0 0).atC 10239).timeNow
     d.rf (R.timeCmpcfg 3) 31 1 = 1 ∧ d.cmpDiff 3 ≤ 0 ∧ d.rf (R.timeCmpcfg 3) 0 30 = 0 ∧ bit ({ d with time := { d.time with late := 8 } } : Dev).time.late 3 = true) ∧
    (let d := ((dCmp (2 ^ 30 - 1) 0).atC 10239).timeNow
     d.cmpDiff 3 ≤ 0 ∧ d.rf (R.timeCmpcfg 3) 0 30 ≠ 0) ∧ (0 < (((dCmp 0 1000000).atC 10239).timeNow).cmpDiff 3) ∧ ((dv.atC 0).timeNow).rf (R.timeCmpcfg 3) 31 1 = 0 := by
  refine ⟨run_ _ (by decide +kernel), by decide +kernel⟩

/-- A sheaf without programs, signed by the key of RFC 6979's examples. -/
def sheafImg : List Byte :=
  beBytes 160 0x4756534600010001c00300004d00000000ff00000000000000000000000007000000000000000000000000000000000000000000000000000000000000000000000000000000000000000000000000000000000000000000000000000000000000000000000000000000000000000000000000000000000000000000000000000000000000000000000000000000000000000000000000000000000000000000 ++
  beBytes 160 0x0000000000000000000000000000000000000000000000000000000000000000000000000000000000000000000000000000000000000000000000000000000000000000000000000000000000000000000000000000000000000000000000000200000070010000040000001cdf4421030000008001000000000000000000000400000080010000040000001cdf4421050000009001000010000000554bbbec ++
  beBytes 160 0x06000000a0010000bc0000001a4bf1e2070000006002000060000000ae65f4ba08000000c002000060000000ae65f4ba00000000000000000000000000000000000000000000000000000000000000000000000000000000000000000000000000002b0000002b0000000000000000000a006e00d20036019a01fe016202c6022a038e03f2035604ba041e058205e6054a06ae0612077607da073e08a2080609 ++
  beBytes 160 0x6a09ce09320a960afa0a5e0bc20b260c8a0cee0c520db60d1a0e7e0ee20e460faa0f0e1072100a006e00d20036019a01fe016202c6022a038e03f2035604ba041e058205e6054a06ae0612077607da073e08a20806096a09ce09320a960afa0a5e0bc20b260c8a0cee0c520db60d1a0e7e0ee20e460faa0f0e107210000000000000000000000000000000000000000000000000000000000000000000000000 ++
  List.replicate 160 0 ++
  beBytes 160 0xf5ab108dfb200476fdfe6a65bf8f193fd11c0454436d0463c83d0e9534c0ff9260fed4ba255a9d31c961eb74c6356d68c049b8923b61fa6ce669622e60f29fb67903fe1008b8bc99a41ae9e95628bc64f2f1b20c2d7e9f5177a3c294d44622991d2ae2d6f54ba4c84a60b30adcb0c19a7a8b0f9b0815f3c8c7a70afdea66dd9c9a5793121e2c52d72628f5bfc92b828816c7749b3a4dd8001de21169fe2bbfc6
/-- A boot image without writes and without a sheaf, signed by the same key. -/
def bootImg : List Byte :=
  beBytes 160 0x4756424900010000d000000000ff00000000000000000000000000000000000000000000000000000000000000000000c1774af9be2346681c6ec56043e2079d302924b680b92a38af9d9499d2ccb62860fed4ba255a9d31c961eb74c6356d68c049b8923b61fa6ce669622e60f29fb67903fe1008b8bc99a41ae9e95628bc64f2f1b20c2d7e9f5177a3c294d44622991d2ae2d6f54ba4c84a60b30adcb0c19a ++
  beBytes 48 0x7a8b0f9b0815f3c8c7a70afdea66dd9c08f808edc21a49f7c218e8e445c308567ccd2e0cf92f095a1fa86c3e7c0ddbc1
/-- The hash of that key. -/
def keyHash : Nat := 0xd6c23e2744a840cb3a5a14b6554cce7c070057c4e3298cb93577de687eece659
/-- Memory that holds bytes from an address. -/
def held (a : Nat) (bs : List Byte) : Memory := (((List.range bs.length).zip bs).filter (fun p => p.2 != 0)).map (fun p => (a + p.1, p.2))
/-- A load of the image is in progress, with the key in the fuses. -/
def zLoad : State :=
  let d : Dev := { regs (dL 1) [(R.loadSrclen, 960)] with ldr := { job := some { peerCopy := false } } }
  { State.reset with sys := { dev := d, mem := Memory.putBytes [] 0xD0000000 sheafImg, otp := { shash := [0, 0, 0, keyHash], svalid := 8 } } }
/-- The checks gave an image. -/
def gives {α : Type} (r : Except LoadFail α) : Bool :=
  match r with
  | .ok _ => true
  | .error _ => false
theorem gives_ok {α : Type} (r : Except LoadFail α) (h : gives r = true) : ∃ i, r = .ok i := by
  cases r with
  | ok i => exact ⟨i, rfl⟩
  | error f => cases h
theorem gives_err {α : Type} (r : Except LoadFail α) (h : gives r = false) : ∃ f, r = .error f := by
  cases r with
  | ok i => cases h
  | error f => exact ⟨f, rfl⟩
/-- The device while the load ends. -/
def sLoad : Sys := zLoad.sys.onDev (fun d => d.atC 0)
theorem sheaf_bytes (s : Sys) (e0 : s.mem = Memory.putBytes [] 0xD0000000 sheafImg) (e1 : s.dev.storeBase + s.dev.reg R.loadSrcoff = 0xD0000000)
    (e2 : s.dev.reg R.loadSrclen = sheafImg.length) : s.mem.bytes (s.dev.storeBase + s.dev.reg R.loadSrcoff) (s.dev.reg R.loadSrclen) = sheafImg := by
  rw [e0, e1, e2, Memory.bytes_putBytes _ _ _ Memory.wf_nil]
/-- A system that holds the image passes it if its checks do. -/
theorem image_passes (s : Sys) (job : LoadJob) (e0 : s.mem = Memory.putBytes [] 0xD0000000 sheafImg) (e1 : s.dev.storeBase + s.dev.reg R.loadSrcoff = 0xD0000000)
    (e2 : s.dev.reg R.loadSrclen = sheafImg.length) (h : storeFits (s.dev.reg R.loadSrcoff) (s.dev.reg R.loadSrclen) = true) (b : job.bad = false)
    (r : gives (readImage sheafImg) = true) (c : gives (loadChecks (s.onDev (fun d => d.snoopSections sheafImg)) sheafImg none) = true) :
    ∃ sh, (s.ownPass job none).2 = .ok sh := by
  obtain ⟨i, hi⟩ := gives_ok _ r
  obtain ⟨j, hj⟩ := gives_ok _ c
  exact ⟨j.sheaf, by simp only [Sys.ownPass, h, sheaf_bytes s e0 e1 e2, hi, hj, b, Bool.not_false, Bool.and_self, if_true]⟩
theorem sheaf_reads : gives (readImage sheafImg) = true := by decide +kernel
theorem sheaf_checks : gives (loadChecks (sLoad.onDev (fun d => d.snoopSections sheafImg)) sheafImg none) = true := by decide +kernel
theorem sheaf_passes : ∃ sh, (sLoad.ownPass { peerCopy := false } none).2 = .ok sh :=
  image_passes sLoad _ (by simp only [sLoad, zLoad, Sys.onDev]) (by decide +kernel) (by decide +kernel) (by decide +kernel) rfl sheaf_reads sheaf_checks
/-- The same load with the partner's copy and checks, its own checks made if `own`; and the partner's copy still on the way. -/
def zLoadP (own : Option Sheaf) (ph : Nat) : State :=
  { zLoad with sys := { zLoad.sys with dev := { (regs zLoad.sys.dev [(R.loadStat, 1 + 16 * ph), (R.pairCtrl, 2 ^ 31)]) with ldr := { job := some { peerCopy := true, own := own } } } } }
/-- The paired load at cycle 0. -/
def sLoadP : Sys := (zLoadP none 2).sys.onDev (fun d => d.atC 0)
theorem pair_checks : gives (loadChecks (sLoadP.onDev (fun d => d.snoopSections sheafImg)) sheafImg none) = true := by decide +kernel
theorem paired_passes : ∃ sh, (sLoadP.ownPass { peerCopy := true } none).2 = .ok sh :=
  image_passes sLoadP _ (by simp only [sLoadP, zLoadP, zLoad, Sys.onDev]) (by decide +kernel) (by decide +kernel) (by decide +kernel) rfl sheaf_reads pair_checks
/-- Fuses with the boot key. -/
def oB : Otp := { bhash := [0, 0, 0, keyHash], bvalid := 8 }
theorem boot_passes : ({ zLoad.sys with otp := oB } : Sys).bootCheck (some bootImg) = (0, 0) := by decide +kernel
/-- The same with a range that no store has. -/
def zLoadBad : State := { zLoad with sys := { zLoad.sys with dev := zLoad.sys.dev.setReg R.loadSrclen 0 } }
theorem bad_fails : gives ((zLoadBad.sys.onDev (fun d => d.atC 0)).ownPass { peerCopy := false } none).2 = false := by decide +kernel
theorem witness_ScrubbingAndTheEndOfALoad : (st dv).Running ∧ eccWord .instr 47 8191 = true ∧ eccWord .state 47 16384 = false ∧ zLoad.sys.dev.inReset = false ∧
    zLoad.sys.dev.bootState ≠ 7 ∧ zLoad.sys.dev.loadState = 1 ∧ zLoad.sys.dev.copying = false ∧
    (∃ job sh, zLoad.sys.dev.ldr.job = some job ∧ job.own = none ∧ job.peerCopy = false ∧ ((zLoad.sys.onDev (fun d => d.atC 0)).ownPass job none).2 = .ok sh) ∧
    (∃ job f, zLoadBad.sys.dev.ldr.job = some job ∧ job.own = none ∧ zLoadBad.sys.dev.copying = false ∧
      ((zLoadBad.sys.onDev (fun d => d.atC 0)).ownPass job none).2 = .error f) ∧
    (let z := zLoadP none 2
     z.sys.dev.inReset = false ∧ z.sys.dev.bootState ≠ 7 ∧ z.sys.dev.loadState = 1 ∧ z.sys.dev.copying = false ∧
       ∃ job sh, z.sys.dev.ldr.job = some job ∧ job.own = none ∧ job.peerCopy = true ∧ ((z.sys.onDev (fun d => d.atC 0)).ownPass job none).2 = .ok sh ∧ sh.hash + 1 ≠ sh.hash) ∧
    (let z := zLoadP (some shA) 2
     z.sys.dev.copying = false ∧ z.sys.dev.loadState = 1 ∧ ∃ job, z.sys.dev.ldr.job = some job ∧ job.own = some shA ∧ job.peerCopy = true) ∧
    (zLoadP none 1).sys.dev.copying = true ∧ (zLoadP none 1).sys.dev.loadState = 1 := by
  obtain ⟨sh, h⟩ := sheaf_passes
  obtain ⟨sp, hp⟩ := paired_passes
  obtain ⟨f, hf⟩ := gives_err _ bad_fails
  and_intros <;> first
    | decide +kernel
    | exact ⟨_, sh, rfl, rfl, rfl, h⟩
    | exact ⟨_, f, rfl, rfl, by decide +kernel, hf⟩
    | exact ⟨_, sp, rfl, rfl, rfl, hp, by omega⟩

/-! ## Witnesses: Ethernet and streams -/

/-- Port `p` enabled with its link up, usable rings, and the memory of the descriptors. -/
def dM (p : Nat) : Dev :=
  let b := macBlk p
  { regs dv [(R.macCtrl b, 3), (R.macStat b, 1), (R.macRxbaselo b, 0xDC000000), (R.macRxsize b, 16), (R.macRxhead b, 15), (R.macRxtail b, 0), (R.macTxbaselo b 0, 0xDC001000),
    (R.macTxsize b 0, 16), (R.macTxhead b 0, 15), (R.macTxtail b 0, 0), (R.pairCtrl, 0), (R.pairStat, 0)] with tick := 100 }
/-- A broadcast frame of 64 bytes with its FCS. -/
def frB : List Byte := beBytes 64 0xffffffffffff0200000000011234000000000000000000000000000000000000000000000000000000000000000000000000000000000000000000007020b7c5
/-- A receive descriptor: buffer at the address 0x1000, room for 60 bytes, OWN. -/
def rxDesc : List Byte := leBytes 8 0x1000 ++ leBytes 2 60 ++ leBytes 2 0 ++ leBytes 2 1
/-- Port 3 with that descriptor at the ring's head. -/
def zRx : State := stM (dM 3) (held 0xDC0001E0 rxDesc)
theorem witness_FramesAreCheckedAndClassified : zRx.Running ∧ 3 ≤ 3 ∧ dv.rxReady 3 = false ∧ (dM 3).rxReady 3 = true ∧ (dM 1).rxReady 1 = true ∧ (frB.take 63).length < 64 ∧
    (64 ≤ frB.length ∧ fcsGood (frB.drop 1 ++ [0]) = false ∧ 64 ≤ (frB.drop 1 ++ [0]).length) ∧
    (fcsGood frB = true ∧ frB.length ≤ (dM 3).macMaxlen 3 ∧ frB.length ≤ (dM 1).macMaxlen 1 ∧ ethType (frB.take 60) ≠ 0x8808) ∧
    ((dM 1).filterOf 1 (frB.take 60) = none ∧ (dM 1).hostClass 1 (frB.take 60) = none) ∧ (dM 2).udpCommand (frB.take 60) = none ∧
    (dM 3).hostClass 3 (frB.take 60) = some 5 ∧
    (let d := zRx.sys.dev
     let base := d.ringAt (R.macRxbaselo 13) (R.macRxbasehi 13)
     let a := base + 32 * d.rf (R.macRxhead 13) 0 12
     let desc := zRx.sys.mem.bytes a 32
     d.ringOk base (d.rf (R.macRxsize 13) 0 13) = true ∧ d.rf (R.macRxhead 13) 0 12 ≠ d.rf (R.macRxtail 13) 0 12 ∧ d.descForced 3 a = (d, false) ∧ bit (le desc 12 2) 0 = true ∧
       (frB.take 60).length ≤ le desc 8 2 ∧ (le desc 0 5 + 60 ≤ a ∨ a + 32 ≤ le desc 0 5)) ∧ zRx.Inv ∧
    (let d := ((dM 3).setReg (R.macRxtail 13) 15).onMac 3 (fun x => { x with fresh := true })
     d.rxReady 3 = true ∧ d.rf (R.macRxhead 13) 0 12 = d.rf (R.macRxtail 13) 0 12 ∧ (d.macP 3).fresh = true) := by
  and_intros <;> first | decide +kernel | exact inv_ _ (by decide +kernel)
/-- A transmit descriptor for `n` bytes. -/
def txDesc (n : Nat) : List Byte := leBytes 8 0x1000 ++ leBytes 2 n ++ leBytes 2 0 ++ leBytes 2 1
/-- The ring `k` of port `p` stops at a descriptor that the device does not own. -/
def stopsAt (z : State) (p k : Nat) : Bool := (z.sys.txHead p k).isSome && !z.sys.txOwned p k && !(z.sys.dev.macP p).stops.contains k
/-- Port `p` in the device `d` with a descriptor for `n` bytes at the head of its first transmit ring. -/
def zTx (d : Dev) (n : Nat) : State := stM d (held 0xDC0011E0 (txDesc n))
/-- What the statement asks of a host frame of `n` bytes on port `p`, and that the line is free for it if `go`. -/
def txAsked (z : State) (p n : Nat) (go : Bool) : Prop :=
  z.Running ∧ z.Inv ∧ z.sys.dev.macEn p = true ∧ (∀ k ∈ txRings p, stopsAt z p k = false) ∧ z.sys.txNext p = some 0 ∧
    z.sys.txHead p 0 = some (0xDC0011E0, txDesc n ++ List.replicate 18 0) ∧ z.sys.dev.descForced p 0xDC0011E0 = (z.sys.dev, false) ∧
    bit (le (txDesc n ++ List.replicate 18 0) 12 2) 0 = true ∧ bit (le (txDesc n ++ List.replicate 18 0) 12 2) 1 = false ∧ le (txDesc n ++ List.replicate 18 0) 8 2 = n ∧
    (decide (p = 3 ∨ z.sys.dev.macLink p = true) && !z.sys.dev.macPaused p && decide (p < 2 → z.sys.dev.strm.queue.getD p [] = []) &&
      decide (p = 3 → (z.sys.dev.atC 0).busMaySend = true)) = go
/-- Port 1 with a descriptor at its first ring's head that the device does not own. -/
def zStop : State := stM (dM 1) (held 0xDC0011E0 (leBytes 8 0x1000 ++ leBytes 2 14))
theorem witness_HostFramesAndCollisions :
    (txAsked (zTx (dM 1) 14) 1 14 true ∧ 14 + 4 ≤ (dM 1).macMaxlen 1) ∧
    (txAsked (zTx (dM 1) 1519) 1 1519 true ∧ (dM 1).macMaxlen 1 < 1519 + 4) ∧
    (txAsked (zTx ((dM 2).setReg (R.macStat 12) 0) 14) 2 14 false ∧ 14 + 4 ≤ ((dM 2).setReg (R.macStat 12) 0).macMaxlen 2 ∧ ((dM 2).setReg (R.macStat 12) 0).macLink 2 = false) ∧
    (txAsked (zTx ((dM 2).setReg (R.macStat 12) 9) 14) 2 14 false ∧ 14 + 4 ≤ ((dM 2).setReg (R.macStat 12) 9).macMaxlen 2 ∧ ((dM 2).setReg (R.macStat 12) 9).macLink 2 = true) ∧
    (txAsked (zTx (dM 3) 14) 3 14 true ∧ 14 + 4 ≤ (dM 3).macMaxlen 3 ∧ (dM 3).mac.length = 4 ∧ 64 ≤ 64 ∧ ((dM 3).macP 3).tries < 15 ∧ 64 < 65 ∧
      15 ≤ (((dM 3).onMac 3 (fun x => { x with tries := 15 })).macP 3).tries) ∧
    ((dM 1).mac.length = 4 ∧ zStop.sys.txNext 1 = none ∧ 0 ∈ txRings 1 ∧ stopsAt zStop 1 0 = true ∧ (∀ k ∈ txRings 1, k ≠ 0 → stopsAt zStop 1 k = false) ∧ (st (dM 1)).Running) ∧
    (st (dM 3)).sys.txOwned 3 0 = false := by
  and_intros <;> first | decide +kernel | exact inv_ _ (by decide +kernel)
/-- The array bus as node `n` with PLCA, its status `g`. -/
def dB (n g : Nat) : Dev := regs (dM 3) [(R.mactPlcacfg, n), (R.mactPlcastat, g), (R.macMode 13, 1)]
theorem witness_PausesLinksAndThePlca : (st (dM 3)).Running ∧ 3 ≤ 3 ∧ dv.mac.length = 4 ∧ (dM 3).rxReady 3 = true ∧ (dM 3).lf (R.macCtrl 13) 1 1 = 1 ∧
    ((dM 1).setReg (R.macCtrl 11) 1).lf (R.macCtrl 11) 1 1 = 0 ∧ ((dM 1).setReg (R.macCtrl 11) 1).rxReady 1 = true ∧
    (let d := (dM 1).setReg (R.macStat 11) 9
     d.macPaused 1 = true ∧ (d.atC 0).pauseOver 1 = true ∧ ((d.onMac 1 (fun x => { x with pauseQ := 65535, pauseAt := 1024000 })).atC 0).pauseOver 1 = false) ∧ (dM 1).macPaused 1 = false ∧
    ((dM 3).macLink 3 = true ∧ (dM 3).plcaGood = false) ∧ (dv.macLink 1 = false ∧ dv.rf (R.macStat 11) 6 1 = 0) ∧
    ((dv.setReg (R.macMdiodata 12) (2 ^ 31)).rf (R.macMdiodata 12) 31 1 = 1 ∧ dv.rf (R.macMdiodata 12) 31 1 = 0) ∧
    ((dB 0 0).plcaOn = true ∧ (dB 0 0).nodeId = 0 ∧ (dB 254 0).plcaOn = true ∧ (dB 254 0).nodeId ≠ 0 ∧ (dB 254 0).plcaGood = false ∧ (dB 254 1).plcaOn = true ∧
      (dB 254 1).plcaGood = true ∧ (dB 254 1).bus.beacon + busBits 4000 ≤ (dB 254 1).tick * 10240 + 0 ∧
      (dB 254 1).tick * 10240 + 10239 < ((dB 254 1).onBus (fun x => { x with beacon := 1024000 })).bus.beacon + busBits 4000) := by
  refine ⟨run_ _ (by decide +kernel), by decide +kernel⟩

/-- A stream packet: RTP over UDP to 239.1.2.3 with one channel of six samples. -/
def frS : List Byte := beBytes 70 0x01005e0102030200000000010800450000340000400040113fb40a000001ef0102030fa0138c0020b58e8060ffff000001a6cafebabe0102030405060708090a0b0c0a92da0e
/-- Receive context 255 takes it, with type and source checked; the context's state is `x`, the tick `t`. -/
def dS255 (x : RxCtx) (t : Nat) : Dev :=
  let d := regs (dM 1) [(R.strmFctl 3, 2 ^ 31 + 2 ^ 30 + 2 ^ 28 + 255), (R.strmFdstip 3, 0xEF010203), (R.strmFport 3, 5004), (R.strmFsrcip 3, 0x0A000001),
    (R.strmRxctl 255, 2 ^ 31 + 2 ^ 30 + 2 ^ 29 + 96 * 2 ^ 22 + 1), (R.strmRxssrc 255, 0xCAFEBABE), (R.strmRxrkeylo 255, 8)]
  { d with tick := t, strm := { d.strm with rx := updAt d.strm.rx 255 (fun _ => x) } }
/-- A frame source for staging. -/
def rgS : Region := { key := 8, base := 0x40, depth := 16, ch := 1, rate := 0, chase := 0 }
/-- The context has its region; the packet present is `p`. -/
def dRel (cut : Option Nat) : Dev :=
  let d := dS255 { on := true, pkts := [{ seq := 65535, ts := 422, t0 := 867, pay := [1, 2, 3, 4, 5, 6, 7, 8, 9, 10, 11, 12], arr := 0 }], cut := cut, q := 64 } 867
  { d with eng := { d.eng with stageR := [rgS], stage := [{ region := 0, ch0 := 0, nch := 1, dreg := 0, owner := 0, dptr := 0, par := 3, tap := 3 }] } }
theorem witness_StreamsAreReceived : (st (dS255 { on := true } 100)).Running ∧ dv.engOff = false ∧ dv.engHeld = false ∧ 255 < 256 ∧
    (let d := dS255 { on := true } 100
     let f := frS.take 66
     let ip := ethPay f
     1 < 2 ∧ d.rxReady 1 = true ∧ 64 ≤ frS.length ∧ frS.length ≤ d.macMaxlen 1 ∧ fcsGood frS = true ∧ ethType f ≠ 0x8808 ∧ d.filterOf 1 f = some 3 ∧ d.lf (R.strmFctl 3) 0 8 = 255 ∧
       ip4Good ip = true ∧ udpGood ip = true ∧
       rtpOf ((slice ip (ip4Len ip) (be ip 2 2 - ip4Len ip)).drop 8) = some (96, 65535, 422, 0xCAFEBABE, [1, 2, 3, 4, 5, 6, 7, 8, 9, 10, 11, 12]) ∧ d.rxEn 255 = true ∧
       (d.rxC 255).nocap = false ∧ d.role ≠ .catchup ∧ bit (d.lv (R.strmRxctl 255)) 29 = true ∧ 96 = fld (d.lv (R.strmRxctl 255)) 22 7 ∧ 0xCAFEBABE = d.lv (R.strmRxssrc 255) ∧
       12 = d.rxCh 255 * d.rxSpp 255 * d.rxWidth 255 ∧ d.rxT0 255 422 d.tick ≤ d.tick + 768 ∧ d.rxT0 255 423 d.tick = d.tick + 769 ∧
       (d.rxC 255).pkts.any (fun q => q.seq == 65535) = false ∧ (d.rxC 255).rel.contains 65535 = false ∧ d.heldBytes + 12 ≤ holdRoom) ∧
    (dv.strmPaired = false ∧ dv.strm.rx.length = 256 ∧ ∀ j, j < 256 → (dv.rxC j).fade = none ∧ (dv.rxC j).ask = none) ∧
    (∀ j, j < 256 → dv.rxDue j = false ∧ (dv.rxC j).nocap = false) ∧
    (let d := dRel (some 65535)
     (∀ j, j < 256 → (d.rxC j).nocap = false ∧ (j ≠ 255 → d.rxDue j = false)) ∧ d.rxDue 255 = true ∧ (d.rxC 255).noreg = 0 ∧ (match d.rxRegion 255 with | .ok r => decide (r = rgS) | .error _ => false) = true ∧
       (d.rxFrameAt rgS).isSome = true ∧ (d.rxAgreed 255).1 = some { seq := 65535, ts := 422, t0 := 867, pay := [1, 2, 3, 4, 5, 6, 7, 8, 9, 10, 11, 12], arr := 0 } ∧
       (d.rxAgreed 255).2 = false ∧ (d.rxC 255).fade = none ∧ (dRel none).rxAgreed 255 = (none, false)) ∧
    ((dS255 { on := true } 9599).tick % 9600 ≠ 0 ∧
      (let d := dS255 { on := true, win := some 5000, winPrev := some 1 } 9600
       let e := d.setReg (R.strmRxarr 255) 0
       d.tick % 9600 = 0 ∧ (d.rxC 255).on = true ∧ d.rxFollows = false ∧ e.lf (R.strmRxarr 255) 0 16 * 98304 < (max 5000 1 - min 5000 1) * 100)) ∧
    (let d := dS255 { on := true } 960
     1 < 2 ∧ (d.rxC 255).on = true ∧ d.legFed 255 1 = true ∧ (d.rxC 255).legDn.getD 1 false = false ∧ (d.rxC 255).legT.getD 1 0 + 9830400 ≤ d.tick * 10240 + 0 ∧
       (dS255 { on := true } 959).tick * 10240 + 10239 < (d.rxC 255).legT.getD 1 0 + 9830400) := by
  and_intros <;> decide +kernel
/-- Transmit context 255 on both ports, its second packet due at tick 100; the role is `r`. -/
def dT (r : Nat) : Dev :=
  let d := regs (dP r) [(R.strmTxctl 255, 2 ^ 31 + 3 * 2 ^ 28 + 1), (R.macCtrl 11, 1), (R.macStat 11, 1)]
  { d with strm := { d.strm with tx := updAt d.strm.tx 255 (fun _ => { on := true, te := 76, k := 1 }), queue := [[], [{ tk with limit := 101 }]] } }
theorem witness_StreamsAreSent : (st (dT 0)).Running ∧ dv.engOff = false ∧ 255 < 256 ∧ 1 < 2 ∧ (dT 0).strm.queue.length = 2 ∧
    (((dT 0).txC 255).on = true ∧ (dT 0).engTick = ((dT 0).txC 255).te + (((dT 0).txC 255).k + 1) * (dT 0).txP 255 ∧ (dT 0).role = .active ∧ 1 ∈ (dT 0).txPorts 255 ∧
      ¬1 ∈ ((dT 0).setReg (R.strmTxctl 255) (2 ^ 31 + 2 ^ 28)).txPorts 255) ∧ ((dT 1).paired = true ∧ (dT 1).role = .shadow) ∧ (dv.txC 255).on = false ∧
    ((dT 0).strm.queue.getD 1 [] = { tk with limit := 101 } :: [] ∧ (dT 0).macEn 1 = true ∧ (dT 0).macLink 1 = true ∧ (dT 0).macPaused 1 = false ∧ (dT 0).tick < 101 ∧
      (101 ≤ ({ dT 0 with tick := 101 } : Dev).tick)) := by
  and_intros <;> decide +kernel
/-! ## Witnesses: audio inputs and outputs, events, the bus, resets -/

/-- Serial port `p` in the mode `m`, with its own state. -/
def dTd (p m : Nat) (t : TdmPort) : Dev := (({ dM 1 with tdm := updAt dv.tdm p (fun _ => t) } : Dev).setReg (R.tdmCtrl p) (2 ^ 31 + m * 2 ^ 29))
/-- A frame of a slip buffer. -/
def fr32 : SlipFrame := { words := List.replicate 32 7 }
theorem witness_SerialPortsAndDecimators : (st (dTd 7 0 { started := true })).Running ∧ 7 < 8 ∧ dv.tdm.length = 8 ∧ dv.dec.length = 32 ∧ (dv.tdmP 7).started = false ∧
    (let d := (dTd 7 0 { started := true, fresh := false, rxmF := 1 }).setReg (R.tdmHpf 7 0) 0
     let t := d.tdmP 7
     t.started = true ∧ d.tdmMode 7 = 0 ∧ d.tdmDue 7 = true ∧ 512 ≤ 512 ∧ 512 < 513 ∧ d.tdmMayStart 7 1 = false ∧ d.tdmMayStart 7 0 = true ∧ d.tdmLeader 7 = 7 ∧ t.out = false ∧ t.fresh = false ∧ t.last.length = 32 ∧ d.tdmF 7 ≤ t.rx.q + 1 ∧ 0 < d.tdmSlots 7 ∧ bit t.rxmF 0 = true ∧
       bit t.rxmF 1 = false ∧ hpfCode (d.tdmHpfSel 7 0) = 0 ∧ d.tdmWidth 7 = 32) ∧
    (let d := dTd 7 1 { started := true }
     d.tdmMode 7 = 1 ∧ d.tdmBits 7 = d.tdmBits 7 ∧ 2048 < 2049 ∧ d.tdmMode 7 ≠ 0 ∧ d.tdmBits 7 + 1 ≠ d.tdmBits 7 ∧ (∀ w ∈ d.frameWr, w.port ≠ 7) ∧ d.tdmGang 7 = [7] ∧
       (d.tdmP 7).rx.fading = false) ∧
    (let d := dTd 7 1 { started := true, taken := 100 }
     d.tdmMode 7 ≠ 2 ∧ d.tdmMayStart 7 2048 = true ∧ (d.tdmP 7).taken = d.tdmBoundaryOf 2048 ∧ (d.tdmP 7).taken ≠ 0 ∧ ∀ w ∈ d.frameWr, w.port ≠ 7) ∧
    (let d := dTd 7 2 { started := true, rx := { buf := [fr32, fr32, fr32, fr32, fr32] }, tx := { buf := [fr32, fr32, fr32] } }
     let t := d.tdmP 7
     d.tdmMode 7 = 2 ∧ d.tdmWidth 7 = 32 ∧ d.tdmDue 7 = true ∧ t.rx.acc ≠ some d.tick ∧ t.tx.acc ≠ some d.tick ∧ t.rx.buf.length < 8 ∧ t.tx.buf = fr32 :: [fr32, fr32] ∧ d.tdmLeader 7 = 7 ∧ d.tdmGang 7 = [7] ∧ d.role = .active ∧ d.forwards = false ∧
       t.tx.fading = false ∧ 3 ≤ t.tx.buf.length ∧ t.tx.buf.length ≤ 5 ∧ t.out = false ∧ t.rx.fading = false ∧ t.rx.buf = fr32 :: [fr32, fr32, fr32, fr32]) ∧
    (let d := dTd 7 2 { started := true, rx := { buf := [fr32, fr32] } }
     (d.tdmP 7).rx.buf.length = 2 ∧ 64 ≤ (d.tdmP 7).rx.since) ∧ ((dTd 7 2 { started := true, rx := { buf := [fr32] } }).tdmP 7).rx.buf.length ≤ 1 ∧
    (let d := dTd 7 1 { started := true, out := true, good := 16 }
     d.tdmMode 7 = 1 ∧ (d.tdmP 7).out = true ∧ 16 ≤ (d.tdmP 7).good) ∧ ((dTd 7 1 { started := true, out := true, good := 15 }).tdmP 7).good < 16 ∧
    (let d := (dTd 7 1 { started := true, out := true, good := 16 }).setReg (R.tdmCtrl 7) (2 ^ 31 + 2 ^ 29 + 2 ^ 28)
     d.tdmGanged 7 = true ∧ d.tdmLeader 7 ≠ 7 ∧ (d.tdmP 7).out = true) ∧
    (let d := (dv.onDec 31 (fun x => { x with runs := true, same := 4095, lastB := true, hit := some false, setB := true })).setReg (R.decStat 31) 1
     31 < 32 ∧ (d.decC 31).lastB = true ∧ 4095 ≤ (d.decC 31).same ∧ (d.decC 31).stuck = false ∧ (d.decC 31).lastB ≠ false ∧ (d.decC 31).hit = some false ∧
       (d.decC 31).runs = true ∧ d.decState 31 = 1 ∧ (d.decC 31).setB = true) ∧
    ((dv.decC 31).runs = false ∧ (dv.decC 31).hit = none ∧ (dv.decC 31).lastB = false ∧ (dv.decC 31).same < 4095) := by
  refine ⟨run_ _ (by decide +kernel), ?_⟩
  and_intros <;> decide +kernel
/-- Group 5 and channel 47 in these states. -/
def dMo (g : ModGrp) (c : ModCh) : Dev := (dM 1).onGrp 5 (fun _ => g) |>.onCh 47 (fun _ => c)
/-- Sense lane 5 in this state of its run. -/
def dSn (s : Nat) : Dev := dv.onSns 5 (fun l => { l with run := { state := s } })
theorem witness_SenseLanesAndModulators : (st (dMo {} {})).Running ∧ dv.mod.ch.length = 48 ∧ dv.mod.grp.length = 6 ∧ dv.sns.length = 6 ∧ (dv.snsL 5).run.state = 0 ∧
    (5 < 6 ∧ 7 < 8 ∧ ((dSn 2).snsL 5).run.state ≠ 0 ∧ (dSn 2).lf R.snsForce (4 * 5) 4 = 0) ∧ (dP 3).modLive = false ∧ ((dMo {} {}).modLive = true ∧ (dMo {} {}).role ≠ .shadow) ∧
    (47 < 48 ∧ 3 < 4) ∧ ((dMo {} {}).modLive && !(dMo {} {}).mod.shut && ((dMo {} {}).modG 5).run_ && !((dMo {} {}).modG 5).drv) = false ∧
    (let d := dMo { run_ := true } { st := 1, run := 255 }
     (d.modLive && !d.mod.shut && d.mod.join == 0 && (d.modG 5).run_ && !(d.modG 5).drv) = true ∧ d.periodStart 47 3 / 2 < 10240 ∧ (d.modC 47).st = 1 ∧ d.latchN ≤ (d.modC 47).run) ∧ ((dMo {} {}).modC 47).st ≠ 1 ∧
    (let d := dMo { run_ := true, ramp := some { t0 := 100, n0 := 0, dir := 1 } } { st := 5, core := { retryAt := 100 } }
     (d.snsL 5).run.state ≠ 4 ∧ ((d.onSns 5 (fun l => { l with run := { state := 4 } })).snsL 5).run.state = 4 ∧ (d.modG 5).stop = false ∧
       (∃ r, (d.modG 5).ramp = some r ∧ r.t0 ≤ d.tick) ∧ (d.modC 47).st = 5 ∧ (d.modC 47).core.retryAt ≤ d.tick ∧ (d.modG 5).run_ = true ∧ (d.modG 5).fell = none ∧ (d.modG 5).drv = false ∧ d.modLive = true) ∧
    (let d := (dMo { run_ := true, start := 84 } {}).onSns 5 (fun l => { l with run := { state := 2 } })
     (d.modG 5).run_ = true ∧ (d.modG 5).amp = false ∧ (d.modG 5).stop = false ∧ (d.modG 5).fell = none ∧ (d.modG 5).drv = false ∧ d.mod.shut = false ∧ d.modLive = true ∧
       (d.modG 5).start + 16 ≤ d.tick ∧ (d.snsL 5).run.state = 2) ∧
    (let d := dMo { run_ := true, fell := some 84 } {}
     (d.modG 5).fell = some 84 ∧ 84 + 16 ≤ d.tick ∧ d.lf (R.modGrpctl 5) 31 1 = 0) ∧ ((dMo { amp := true } {}).modG 5).amp = true ∧ ((dMo {} {}).modG 5).amp = false := by
  refine ⟨run_ _ (by decide +kernel), by decide +kernel⟩
/-- A posting of severity `s`. -/
def po (s : Nat) : Posting := { tick := 99, cyc := 5, blk := Blk.clk, src := 1, sev := s, merge := 1, qual := 0, yieldS := false, approx := false, d0 := 1, d1 := 2, d2 := 3 }
/-- EVT's own state, at tick 100. -/
def dE (e : Evt) : Dev := { dM 1 with evt := e, cmd := { dv.cmd with draw := [] } }
/-- An open record of the posting. -/
def op3 : OpenRec := { recd := (po 3).toRec, idx := none, upto := 100 }
theorem witness_EventsTemperatureAndPins : (st (dE {})).Running ∧ dv.evt.path = [] ∧
    ((dE { path := [po 2] }).evt.path = po 2 :: [] ∧ (dE { path := [po 2] }).intakeNow < intakeLimit 2 ∧ (dE { path := [po 2], shedT := 0 }).evt.shedT ≠ 101) ∧
    (let d := dE { path := [po 1], intake := List.replicate 256 { po 1 with tick := 100 } }
     intakeLimit 1 ≤ d.intakeNow) ∧ (∀ p ∈ (dE { path := [po 3] }).evt.path, 3 ≤ p.sev) ∧ (∃ p ∈ (dE { path := [po 2] }).evt.path, p.sev ≤ 2) ∧
    (let d : Dev := { dE {} with cmd := { dv.cmd with draw := [0] } }
     d.numberHold = true) ∧
    (let d := dE { intake := [po 4] }
     d.numberHold = false ∧ d.evt.intake = [po 4] ∧ (po 4).tick ≠ d.tick ∧ d.evt.made = [] ∧ d.rf R.ddrStat 0 1 = 0 ∧ (st d).sys.mem.wf = true ∧ 3 ≤ (po 4).sev ∧ d.evt.opens = [] ∧
       d.evt.queue = [] ∧ d.evt.lost = [] ∧ d.rf R.bbxStat 31 1 = 0) ∧
    (let d := dE { intake := [po 3], opens := [{ op3 with recd := { op3.recd with rep := 65533 } }] }
     ∃ o, d.openOf (po 3) = some o ∧ o.folds (po 3) = true ∧ o.recd.rep < 65534) ∧
    (∀ o ∈ (dE { opens := [{ op3 with upto := 101 }] }).evt.opens, (dE {}).tick < o.upto) ∧
    (let d := dE { opens := [op3], queue := [(op3.recd, false)] }
     d.evt.opens = [op3] ∧ d.evt.queue = [(op3.recd, false)] ∧ op3.upto ≤ d.tick ∧ d.rf R.ddrStat 0 1 = 0) ∧ (dv.evt.queue = [] ∧ dv.evt.gapN = 0) ∧
    (let d := regs (dE { queue := [(op3.recd, true)] }) [(R.evtCtrl, 1), (R.evtRsize, 65536), (R.evtRbaselo, 0xDC000000), (R.evtWridx, 65535), (R.evtRdidx, 1)]
     d.evt.queue = (op3.recd, true) :: [] ∧ d.evt.gapN = 0 ∧ d.evtRingOk = true ∧ d.evtUnread + 2 ≤ d.rf R.evtRsize 0 17) ∧
    ((dE { queue := [(op3.recd, true)] }).evtRingOk = false) ∧
    (sensorBad [700, 0, 0, 0, 0, 0] 0 = true ∧ (∀ k, k < 6 → sensorBad [620, 620, 620, 620, 620, 620] k = false) ∧
      ({ dE {} with thm := { hot := true } } : Dev).thm.hot = true ∧ (dE {}).rf R.thmStat 30 1 = 0 ∧ (dE {}).thm.warned = false) ∧
    (dv.rf R.pwrTherm 0 1 = 0 ∧ (dv.setReg R.pwrTherm 1).rf R.pwrTherm 0 1 = 1) ∧
    (let d : Dev := { dv.setReg R.bbxWdcfg (2 ^ 31) with bbx := { dv.bbx with wdMs := 96 } }
     d.inReset = false ∧ d.rf R.bbxWdcfg 31 1 = 1 ∧ 96 * max 1 (d.rf R.bbxWdcfg 0 16) ≤ d.bbx.wdMs) ∧
    (let d := State.reset.sys.dev.setReg R.bbxWdcfg (2 ^ 31)
     d.inReset = false ∧ d.rf R.bbxWdcfg 31 1 = 1 ∧ d.rf R.synStat 1 1 = 0) ∧ ¬dv.rf R.bbxWdcfg 31 1 = 1 ∧
    (bit (dv.reg R.gpioIn) 7 = false ∧ bit (dv.gpioPins 128) 7 = true ∧ bit ((dv.setReg R.gpioEdgecfg (2 ^ 14)).rf R.gpioEdgecfg (2 * 7) 2) 0 = true) := by
  and_intros <;> decide +kernel
/-- A request of master `m` at the address `a`. -/
def rq (m a : Nat) (w : Bool) (bs : List (Option Byte)) : BusReq := { master := m, via := .internal, addr := a, write := w, bytes := bs }
/-- A sheaf with a refresh slot at cycle 10,239 of channel 1 in odd ticks. -/
def dRf (act cls : Nat) : Dev := { regs dv [(R.loadClass, act), (R.ddrTemp, cls * 2 ^ 16)] with tick := 101, ldr := { act := some { refresh := [[], [], [], [10239]] } } }
theorem witness_BusMemoryAndTheHostLink : (st dv).Running ∧
    (let q := rq 9 0xFFFFFFFFFF false [none]
     q.via = .internal ∧ q.master < 10 ∧ q.master ≠ 7 ∧ (masterPaths q.master).contains (dv.target q.addr) = false) ∧
    (let q := rq 5 0xDFFFFFFF false [none]
     (masterPaths q.master).contains (dv.target q.addr) = true ∧ 0 < q.bytes.length ∧ dv.target q.addr ≠ 3 ∧ dv.target (q.addr + q.bytes.length - 1) = dv.target q.addr ∧ q.rivals = [] ∧
       dv.target q.addr = 0 ∧ q.write = false ∧ q.ecc = 0 ∧ dv.lf R.ddrForce 0 1 = 0) ∧
    (dv.eng.stores = [] ∧ dv.eng.sreqs = [] ∧ dv.eng.olds = [] ∧
      (let q := rq 3 exBase true [some 1]
       dvE.target q.addr = 1 ∧ dvE.exClosed q.addr 1 = true ∧ dv.exClosed q.addr 1 = false ∧ (masterPaths q.master).contains (dv.target q.addr) = true ∧ dvE.eng.stores = [] ∧
         dvE.eng.sreqs = [])) ∧
    (let q := { rq 5 0 false [none] with rivals := [0] }
     dv.busGrant (dv.target q.addr) q.last (q.master :: q.rivals) ≠ q.master) ∧
    (let q := rq 1 (packetBase + 0xFFFFF) true [some 9]
     (masterPaths q.master).contains (dv.target q.addr) = true ∧ dv.target q.addr = 5 ∧ q.write = true ∧ q.bytes = [9].map some) ∧
    (let q := rq 6 (retainedBase + 0x3FFFF) true [some 9]
     (masterPaths q.master).contains (dv.target q.addr) = true ∧ dv.target q.addr = 4) ∧ dv.rf R.pcieStat 0 1 = 0 ∧ BusVia.internal ≠ .bar0 ∧ dv.refreshSheaf = none ∧
    ((dRf 0 0).refreshSheaf = some { refresh := [[], [], [], [10239]] } ∧ ([[], [], [], [10239]].getD (2 * 1 + (dRf 0 0).tick % 2) []).contains 10239 = true ∧
      (dRf 1 1).dramClass ≤ (dRf 1 1).rf R.loadClass 0 2 ∧ (dRf 0 2).rf R.loadClass 0 2 < (dRf 0 2).dramClass ∧ (dRf 0 2).dramClass ≤ 2 ∧ (dRf 0 0).ddr.thin = false) ∧
    ((dRf 0 0).tick % 2 = 1 ∧ dv.tick % 2 = 0 ∧ (dRf 0 0).dramClass < 3 ∧ 0 < (dRf 0 3).dramClass ∧ 63 ≤ ({ dRf 0 3 with ddr := { dv.ddr with below := 63 } } : Dev).ddr.below ∧ (dRf 0 3).ddr.below < 63) ∧
    dv.gleanState ≠ 1 ∧
    (let d : Dev := { (dv.setReg R.glnStat 1) with tick := 101 }
     d.gleanState = 1 ∧ d.tick % 2 = 1 ∧ d.gln.bytes + 3 ≤ 0x40000 ∧ d.gln.part.length + 3 < 4096) ∧
    ({ part := [], pend := List.replicate 64 (0, [], 0) } : Gln).bytes + 3 > 0x40000 ∧ ({ part := List.replicate 4093 0 } : Gln).part.length + 3 = 4096 ∧ dv.gln.pend = [] ∧
    (List.replicate 4096 (7 : Byte)).length = 4096 ∧ dv.rf R.glnRbstat 31 1 = 0 ∧ (dv.setReg R.glnRbstat (2 ^ 31)).rf R.glnRbstat 31 1 = 1 ∧
    (let d : Dev := { dv with pcie := { dv.pcie with clkreq := true } }
     d.rf R.pcieStat 0 1 = 0 ∧ d.pcie.clkreq = true ∧ (1 ≤ 2 ∧ 2 ≤ 2) ∧ (1 ≤ 3 ∧ 3 ≤ 3)) ∧ dLink.rf R.pcieStat 0 1 = 1 := by
  refine ⟨run_ _ (by decide +kernel), ?_⟩
  and_intros <;> decide +kernel
theorem witness_ResetsBootAndEntropy : dv.testMode = false ∧ dv.cmd.await = [] ∧ dv.cmd.imm = [] ∧ dv.rf R.pwrTherm 0 1 = 0 ∧ (st dv).sys.mem.wf = true ∧
    (dv.inReset = false ∧ dv.cmd.wait = [] ∧ dv.cmd.owed = [] ∧ (∀ r, r < 2 → dv.rf (R.cmdChead r) 0 12 = dv.rf (R.cmdCtail r) 0 12)) ∧
    (let d := regs dv [(R.sysBootstat, 1), (R.sysBootcfg, 1)]
     d.bootState = 1 ∧ d.rf R.synStat 1 1 = 1 ∧ d.rf R.sysBootcfg 0 2 = 1 ∧ (d.setReg R.sysBootcfg 0).rf R.sysBootcfg 0 2 ≠ 1) ∧
    (bootWrites bootImg = [] ∧ le bootImg 0x18 4 = 0) ∧ ((dv.setReg R.sysBootstat 9).bootState = 9 ∧ (dv.setReg R.sysBootstat 8).bootState ≠ 9) ∧
    (let d := State.reset.sys.dev
     d.bbx.clkCond = false ∧ d.rf R.synStat 1 1 = 0 ∧ d.bootState ≤ 1 ∧ d.asleep = false) ∧ dv.rf R.synStat 1 1 = 1 ∧
    (let d : Dev := { dv with cmd := { dv.cmd with draw := [2], fails := 0, fuse := true } }
     d.cmd.draw ≠ [] ∧ d.cmd.fails = 0 ∧ d.cmd.fuse = true) ∧ dv.cmd.fuse = false ∧
    (let d := dv.setReg R.pwrDomstat 1
     10 ∈ switchable ∧ bit (d.lv R.pwrDomctl) 10 = true ∧ d.domOn 10 = false) ∧
    (let d : Dev := { dv with ctrlRst := some 0 }
     d.ticking = true ∧ d.ctrlRst = some 0 ∧ 0 ≤ d.tick ∧ d.mgmtRst = none) ∧
    (let d : Dev := { dP 1 with mgmtRst := some 100 }
     d.ctrlRst = none ∧ d.mgmtRst = some 100 ∧ 100 ≤ d.tick ∧ d.paired = true ∧ d.role ≠ .isolated) ∧ dv.rf R.sysBootcfg 3 1 = 0 ∧
    ((dv.setReg R.sysBootcfg 8).rf R.sysBootcfg 3 1 = 1) ∧ ({ dv with inReset := true } : Dev).inReset = true := by
  decide +kernel
/-- The boot image passes in the state that boots. -/
theorem witness_ResetsBootAndEntropy_image : ∃ z : State, z.sys.dev.inReset = false ∧ ∃ bs, z.sys.bootCheck (some bs) = (0, 0) ∧ bootWrites bs = [] ∧ le bs 0x18 4 = 0 :=
  ⟨{ State.reset with sys := { zLoad.sys with otp := oB } }, by decide, bootImg, boot_passes, by decide +kernel⟩

/-! ## Values that the spec and the standards give -/

/-- The bytes "123456789". -/
def digits : List Byte := [0x31, 0x32, 0x33, 0x34, 0x35, 0x36, 0x37, 0x38, 0x39]
/-- R352, last column. -/
theorem test_check_values : [0, 1, 2, 3, 4, 5, 6].map (fun k => dv.cvuValue k digits) =
    [0xCBF43926, 0xFB, 0xE3069283, 0xE3069283, 0x995DC9BBDF1939FA, 0xB90956C775A41001, 0xE3069283] := by decide +kernel
/-- FIPS 180-4, "abc". -/
theorem test_sha256 : sha256 [0x61, 0x62, 0x63] = 0xba7816bf8f01cfea414140de5dae2223b00361a396177a9cb410ff61f20015ad := by decide +kernel
/-- RFC 4493, the example of 16 bytes. -/
theorem test_cmac : cmac 0x2b7e151628aed2a6abf7158809cf4f3c (beBytes 16 0x6bc1bee22e409f96e93d7e117393172a) = 0x070a16b46b4d4144f79bdd9dd04a287c := by decide +kernel
/-- The table of ties under R85. -/
theorem test_rounding_ties : [0x000000000040000000, 0x0000000000C0000000, 0xFFFFFFFFFFC0000000, 0xFFFFFFFFFF40000000, 0x004000000000000000].map (fun a => extAcc (BitVec.ofNat 72 a) 0 true) =
    [1, 2, 0, 0xFFFFFFFF, 0x7FFFFFFF] ∧ extAcc (BitVec.ofNat 72 0x004000000000000000) 0 false = 0x80000000 := by decide
/-- "Encoding one bundle": LDX of D10:D11 by P1 and M0, MPY of A0:A1 with D4:D5 and D2:D3, NOP, MOV of D12 from D0. -/
theorem test_bundle : (match decodeBundle 0x800690001913000000230000 with
    | .ok b => decide (b = { l := .ldx {} { en := true, pr := 5, ptr := 1, md := 0 } {} false, m := .mpy { ap := 0, xp := 2, yp := 1, form := 0, en := 3 }, n := .nop, x := .mov 12 0 })
    | .error _ => false) = true := by decide
/-- The worked example under R58: bank 1 takes three accesses. -/
theorem test_bank_conflict : stallsOf ((List.range 16).map (fun n => { lane := n, bank := 0, row := 1, wr := false }) ++
    [{ lane := 16, bank := 1, row := 2, wr := false }, { lane := 17, bank := 1, row := 3, wr := false }, { lane := 30, bank := 1, row := 4, wr := true }] ++
    (List.range 8).map (fun n => { lane := 40 + n, bank := 8 + n, row := 5, wr := false })) = 2 := by decide +kernel
/-- The circular buffer before R90. -/
theorem test_circular_pointer : modifyPtr 0x1200 0x0200FFFF = 0x13FF ∧ modifyPtr 0x1400 0x0200FFFF = 0x15FF := by decide
/-- "One Oatfield input stream": the context of the example. -/
def d12 : Dev :=
  let d := regs dv [(R.strmRxctl 12, 2 ^ 31 + 2 ^ 20 + 8), (R.strmRxrtpoff 12, 0x1000)]
  { d with tick := 20000001, time := { d.time with useD := 76000010 }, strm := { d.strm with rx := updAt d.strm.rx 12 (fun _ => { on := true }) } }
theorem test_media_index : d12.rxU 12 20000001 = 47999994 ∧ d12.rxTs 12 (d12.rxU 12 20000001) = 0x02DC7BFA := by decide +kernel
theorem test_concealment : fadeVal 31 32 0x40000000 = 0x3E000000 ∧ fadeVal 26 32 0x40000000 = 0x34000000 ∧ fadeVal 27 32 0x20000000 = 0x1B000000 := by decide

/-! ## Single steps -/

/-- The result that a lane's operation leaves for register `d`, after its latency. -/
def after (c : Instr) (z : State) (n d : Nat) : Option Word :=
  match exec c z with
  | .next t => (((t.sys.dev.eng.lanes.getD n {}).settle 3).d)[d]?
  | _ => none
/-- Lane 47 with values in D0 to D3. -/
def zD : State := st { dvE with eng := { dvE.eng with lanes := updAt dvE.eng.lanes 47 (fun l => { l with d := [0x7FFFFFFF, 1, 0x80000000, 0xFFFFFFFF] ++ List.replicate 12 0 }) } }
theorem test_add_saturates : after (.add iE 5 0 1 true) zD 47 5 = some 0x7FFFFFFF ∧ after (.add iE 5 0 1 false) zD 47 5 = some 0x80000000 := by decide +kernel
theorem test_neg_of_least : after (.neg iE 2 2 true) zD 47 2 = some 0x7FFFFFFF ∧ after (.neg iE 2 2 false) zD 47 2 = some 0x80000000 := by decide +kernel
theorem test_sub_swapped : after (.sub iE 4 1 3 false) zD 47 4 = some 2 ∧ after (.sub iE 4 3 1 false) zD 47 4 = some 0xFFFFFFFE := by decide +kernel
theorem test_shr_sign : after (.shr iE 4 2 31) zD 47 4 = some 0xFFFFFFFF ∧ after (.shrl iE 4 2 31) zD 47 4 = some 1 := by decide +kernel
theorem test_movil_movih : after (.movil iE 4 0x3FFF) zD 47 4 = some 0xFFFFFFFF ∧ after (.movih iE 4 0x3FFF) zD 47 4 = some 0xFFFC0000 := by decide +kernel
/-- A direct write of GPIO.OUT acts at once; one of a critical register is refused. -/
theorem test_direct_writes : ok (.registerWrite vD R.gpioOut 0xFF 0xA5) (st dv) (fun t => t.sys.dev.reg R.gpioOut == 0xA5) = true ∧
    ok (.registerWrite vD R.clkForce 15 15) (st dv) (fun t => t.sys.dev.reg R.clkForce == 0 && t.sys.dev.rf (R.cfgerr Blk.clk) 3 1 == 1) = true := by decide +kernel
/-- A commanded write of a TICK-class register waits for its boundary. -/
theorem test_commanded_write : ok (.forceRefLos vC 5) (st dOn) (fun t => t.sys.dev.lv R.clkForce == 0 && t.sys.dev.pendTick.length == 1) = true := by decide +kernel
/-- A group that runs: the pulse of a period of 5,120 steps begins at step 1,280, cycle 640, and has ended at cycle 1,920 (R270). -/
def dPulse (c : Nat) : Dev := { State.reset.sys.dev with
  cycle := c
  begun := 1
  mod := { State.reset.sys.dev.mod with
    grp := updAt State.reset.sys.dev.mod.grp 0 (fun g => { g with run_ := true, amp := true })
    ch := updAt State.reset.sys.dev.mod.ch 0 (fun x => { x with st := 1, pulse := some (1280, 3840) }) } }
theorem test_pins : State.reset.sys.dev.pin (.pwm 0) = .z ∧ (dPulse 639).pin (.pwm 0) = .low ∧ (dPulse 640).pin (.pwm 0) = .high ∧
    (dPulse 1920).pin (.pwm 0) = .low ∧ (dPulse 5).pin (.ampEn 0) = .high ∧ ({ dPulse 640 with outsZ := true } : Dev).pin (.pwm 0) = .z := by decide +kernel
/-- The tick number has 48 bits. -/
theorem test_tick_wraps : ({ dv with tick := 2 ^ 48 - 1 } : Dev).tickNext.tick = 0 := by decide +kernel
/-- A broadcast frame on the array bus reaches the ring's buffer without its FCS. -/
theorem test_frame_received : ok (.frameReceive 3 frB false 5) zRx (fun t => t.sys.mem.bytes 0x1000 14 == frB.take 14 && t.sys.dev.rf (R.macRxhead 13) 0 12 == 0) = true := by decide +kernel
/-- A stream packet is held with its sequence number. -/
theorem test_stream_packet : ok (.frameReceive 1 frS false 5) (st (dS255 { on := true } 100)) (fun t => (t.sys.dev.rxC 255).pkts.map (fun p => (p.seq, p.pay.length)) == [(65535, 12)]) = true := by
  decide +kernel

end Sys2Proof.Tests
end

/-!
PROOFS. The close of an issue cycle (R51, R56): its stores are made in lane order, touch only their own words, and a collision of two of them is
posted.
-/
namespace Sys2Proof.Machine

/-! ## Words of memory -/

/-- The low bytes of a number, put together again. -/
theorem leNat_leBytes (n v : Nat) : leNat (leBytes n v) = v % 256 ^ n := by
  induction n generalizing v with
  | zero => simp [leBytes, leNat, Nat.mod_one]
  | succ n ih => simp [leBytes, leNat, ih, Nat.pow_succ', Nat.mod_mul]

/-- A word reads as it was last written. -/
@[simp] theorem Memory.word_putWord (m : Memory) (a : Nat) (w : Word) (h : m.wf = true) : (m.putWord a w).word a = w := by
  have hb : (m.putWord a w).bytes a 4 = leBytes 4 w.toNat := Memory.bytes_putBytes (leBytes 4 w.toNat) m a h
  simp only [Memory.word, hb, leNat_leBytes]
  exact BitVec.eq_of_toNat_eq (by simp [Nat.mod_eq_of_lt w.isLt])

/-- A write of a word leaves every byte outside its four alone. -/
theorem Memory.get_putWord_ne (m : Memory) (a c : Nat) (w : Word) (hc : c < a ∨ a + 4 ≤ c) (h : m.wf = true) :
    (m.putWord a w).get c = m.get c :=
  Memory.get_putBytes_ne (leBytes 4 w.toNat) m a c hc h

/-! ## The stable sort -/

theorem mem_insBy {α : Type} (key : α → Nat) (x y : α) (l : List α) : y ∈ insBy key x l ↔ y = x ∨ y ∈ l := by
  induction l with
  | nil => simp [insBy]
  | cons z t ih =>
    unfold insBy
    split
    · simp
    · simp [ih, or_left_comm]

/-- A sort neither loses nor adds an item. -/
theorem mem_sortBy {α : Type} (key : α → Nat) (y : α) (l : List α) : y ∈ sortBy key l ↔ y ∈ l := by
  have h : ∀ acc, y ∈ l.foldl (fun acc x => insBy key x acc) acc ↔ y ∈ acc ∨ y ∈ l := by
    induction l with
    | nil => simp
    | cons x t ih =>
      intro acc
      rw [List.foldl_cons, ih, mem_insBy, List.mem_cons, or_assoc, or_left_comm]
  exact (h []).trans (by simp)

/-- Two items sorted. -/
theorem sortBy_pair {α : Type} (key : α → Nat) (x y : α) : sortBy key [x, y] = if key y < key x then [y, x] else [x, y] := rfl

/-! ## The stores of an issue -/

/-- The words of a list of stores, written in the order of the list. -/
def Memory.putStores (m : Memory) (l : List StoreReq) : Memory := l.foldl (fun m r => m.putWord r.addr r.val) m

/-- The stores of the issue in progress in the order in which they are made (R56). -/
def Sys.laneOrder (s : Sys) : List StoreReq := sortBy (fun r => r.lane) s.dev.eng.stores

theorem Sys.closeIssue_mem (s : Sys) : s.closeIssue.mem = s.mem.putStores s.laneOrder := rfl

theorem Memory.putStores_wf (l : List StoreReq) (m : Memory) (h : m.wf = true) : (m.putStores l).wf = true :=
  Memory.foldl_wf l _ (fun m r h => Memory.putWord_wf m r.addr r.val h) m h

/-- Stores leave every byte outside their words alone. -/
theorem Memory.get_putStores (l : List StoreReq) (m : Memory) (a : Nat) (h : m.wf = true) (ha : ∀ r ∈ l, a < r.addr ∨ r.addr + 4 ≤ a) :
    (m.putStores l).get a = m.get a := by
  induction l generalizing m with
  | nil => rfl
  | cons r t ih =>
    have hr := ha r List.mem_cons_self
    calc ((m.putWord r.addr r.val).putStores t).get a
        = (m.putWord r.addr r.val).get a := ih _ (Memory.putWord_wf m _ _ h) (fun q hq => ha q (List.mem_cons_of_mem _ hq))
      _ = m.get a := Memory.get_putWord_ne m _ _ _ hr h

/-- Of all stores the last one's word stands. -/
theorem Memory.word_putStores_last (l : List StoreReq) (r : StoreReq) (m : Memory) (h : m.wf = true) :
    (m.putStores (l ++ [r])).word r.addr = r.val := by
  have e : m.putStores (l ++ [r]) = (m.putStores l).putWord r.addr r.val := List.foldl_append
  rw [e, Memory.word_putWord _ _ _ (Memory.putStores_wf l m h)]

/-- A byte outside every store of an issue is as before when the issue closes. -/
theorem Sys.get_closeIssue (s : Sys) (a : Nat) (h : s.mem.wf = true) (ha : ∀ r ∈ s.dev.eng.stores, a < r.addr ∨ r.addr + 4 ≤ a) :
    s.closeIssue.mem.get a = s.mem.get a :=
  Memory.get_putStores s.laneOrder s.mem a h (fun r hr => ha r ((mem_sortBy _ _ _).1 hr))

/-- The store that is last in lane order leaves its word. -/
theorem Sys.word_closeIssue_last (s : Sys) (l : List StoreReq) (r : StoreReq) (h : s.mem.wf = true) (hl : s.laneOrder = l ++ [r]) :
    s.closeIssue.mem.word r.addr = r.val := by
  rw [Sys.closeIssue_mem, hl, Memory.word_putStores_last l r s.mem h]

theorem Sys.laneOrder_single (s : Sys) (r : StoreReq) (hs : s.dev.eng.stores = [r]) : s.laneOrder = [r] := by
  rw [Sys.laneOrder, hs]
  rfl

/-- Two stores of different lanes, in lane order whichever of them was accepted first. -/
theorem Sys.laneOrder_pair (s : Sys) (r q : StoreReq) (hs : s.dev.eng.stores = [r, q]) (hne : q.lane ≠ r.lane) :
    s.laneOrder = if r.lane < q.lane then [r, q] else [q, r] := by
  rw [Sys.laneOrder, hs, sortBy_pair]
  by_cases hlt : r.lane < q.lane
  · rw [if_neg (by omega), if_pos hlt]
  · rw [if_pos (by omega), if_neg hlt]

/-! ## The posting of a write collision -/

/-- The interrupt lines' update keeps the status path. -/
@[simp] theorem Dev.irqUpdate_path (d : Dev) : d.irqUpdate.evt.path = d.evt.path := by
  obtain ⟨g, hg⟩ := Dev.msix_fold ((bitsOn 32 d.vecLines).filter (fun v => !bit d.evt.vecs v)) d
  exact congrArg (fun x => x.evt.path) hg

/-- A fault of S1 or S2 makes one posting, with its block, source, severity and data (R368). -/
theorem Dev.raise_posts (d : Dev) (b src d0 d1 d2 : Nat) (h1 : 1 ≤ d.severity b src) (h2 : d.severity b src ≤ 2) :
    ∃ p : Posting, (d.raise b src d0 d1 d2).evt.path = d.evt.path ++ [p] ∧ p.blk = b ∧ p.src = src ∧ p.sev = d.severity b src ∧
      p.d0 = d0 % 2 ^ 32 ∧ p.d1 = d1 % 2 ^ 32 ∧ p.d2 = d2 % 2 ^ 32 := by
  unfold Dev.raise Dev.raiseF
  extract_lets sev f stat first inWin recd old escal ff ff1 react yl hot f1 att p post mark
  have hpost : ∀ e : Evt, (post e).path = e.path ++ [p] := by
    intro e
    have h0 : ¬sev = 0 := by omega
    have h3 : ¬(3 ≤ sev ∧ 4 < hot) := by omega
    simp only [post, if_neg h0, if_neg h3]
  refine ⟨p, ?_, rfl, rfl, rfl, rfl, rfl, rfl⟩
  rw [Dev.irqUpdate_path]
  exact hpost (mark d.evt)

/-- Words written anew leave EVT alone. -/
theorem Dev.eccClean_fold_evt (l : List StoreReq) (d : Dev) : (l.foldl (fun d r => d.eccClean r.addr 4) d).evt = d.evt := by
  induction l generalizing d with
  | nil => rfl
  | cons r t ih => exact ih (d.eccClean r.addr 4)

/-- EVT when an issue closes: what the write collisions leave of it. -/
theorem Sys.closeIssue_evt (s : Sys) : s.closeIssue.dev.evt =
    ((collisions s.laneOrder).foldl (fun (d : Dev) c => d.raise Blk.eng Src.engWrCollide c.1 c.2.1 c.2.2)
      (s.dev.atC (max s.dev.cycle (s.dev.eng.issue + s.dev.eng.stalls)))).evt := by
  unfold Sys.closeIssue
  extract_lets e sts mem k src d0 d1 d2 src' e2
  rw [Dev.bump_evt]
  exact Dev.eccClean_fold_evt sts d1

/-- Two stores to one word are one collision, with the pointer of the first. -/
theorem collisions_pair (r q : StoreReq) (ha : q.addr = r.addr) (hne : q.lane ≠ r.lane) :
    collisions [r, q] = [(r.lane, q.lane, (r.sptr.getD (0, 0)).2)] := by
  simp [collisions, ha, hne]

/-- Two stores to one word that are `lo` and `hi` in lane order make one posting of WR_COLLIDE with those lanes. -/
theorem Sys.closeIssue_posts_collision (s : Sys) (lo hi : StoreReq) (hl : s.laneOrder = [lo, hi]) (ha : hi.addr = lo.addr)
    (hne : hi.lane ≠ lo.lane) (hlo : lo.lane < 48) (hhi : hi.lane < 48) (hsev : s.dev.severity Blk.eng Src.engWrCollide = 1) :
    ∃ p : Posting, s.closeIssue.dev.evt.path = s.dev.evt.path ++ [p] ∧ p.blk = Blk.eng ∧ p.src = Src.engWrCollide ∧ p.sev = 1 ∧
      p.d0 = lo.lane ∧ p.d1 = hi.lane := by
  have hsev' : ∀ c, (s.dev.atC c).severity Blk.eng Src.engWrCollide = 1 := fun _ => hsev
  obtain ⟨p, hpath, hblk, hsrc, hps, hd0, hd1, -⟩ := (s.dev.atC (max s.dev.cycle (s.dev.eng.issue + s.dev.eng.stalls))).raise_posts
    Blk.eng Src.engWrCollide lo.lane hi.lane (lo.sptr.getD (0, 0)).2 (hsev' _).ge ((hsev' _).trans_le one_le_two)
  refine ⟨p, ?_, hblk, hsrc, hps.trans (hsev' _), by omega, by omega⟩
  rw [Sys.closeIssue_evt, hl, collisions_pair lo hi ha hne]
  exact hpath

/-! ## The obligation -/

/-- Of two stores to one word the higher-numbered lane's value remains (R56). -/
theorem Sys.word_closeIssue_pair (s : Sys) (r q : StoreReq) (h : s.mem.wf = true) (hs : s.dev.eng.stores = [r, q]) (ha : q.addr = r.addr)
    (hne : q.lane ≠ r.lane) : s.closeIssue.mem.word r.addr = if r.lane < q.lane then q.val else r.val := by
  have ho := s.laneOrder_pair r q hs hne
  split_ifs at ho ⊢ with hlt
  · exact ha ▸ s.word_closeIssue_last [r] q h ho
  · exact s.word_closeIssue_last [q] r h ho

/-- Two stores to one word make one posting of WR_COLLIDE that names the lower and the higher lane (R56). -/
theorem Sys.closeIssue_posts_pair (s : Sys) (r q : StoreReq) (hs : s.dev.eng.stores = [r, q]) (ha : q.addr = r.addr)
    (hne : q.lane ≠ r.lane) (hr : r.lane < 48) (hq : q.lane < 48) (hsev : s.dev.severity Blk.eng Src.engWrCollide = 1) :
    ∃ p : Posting, s.closeIssue.dev.evt.path = s.dev.evt.path ++ [p] ∧ p.blk = Blk.eng ∧ p.src = Src.engWrCollide ∧ p.sev = 1 ∧
      p.d0 = min r.lane q.lane ∧ p.d1 = max r.lane q.lane := by
  have ho := s.laneOrder_pair r q hs hne
  split_ifs at ho with hlt
  · rw [min_eq_left hlt.le, max_eq_right hlt.le]
    exact s.closeIssue_posts_collision r q ho ha hne hr hq hsev
  · rw [min_eq_right (by omega), max_eq_left (by omega)]
    exact s.closeIssue_posts_collision q r ho ha.symm hne.symm hq hr hsev

/-- Settles O14: the memory after the close is that of the stores in lane order, and a pair of them on one word is one collision. -/
theorem storesLandWhenTheIssueCloses : Obligations.StoresLandWhenTheIssueCloses := by
  refine ⟨Sys.get_closeIssue, fun s r h hs => ?_, Sys.word_closeIssue_pair, Sys.closeIssue_posts_pair, by decide⟩
  exact s.word_closeIssue_last [] r h (s.laneOrder_single r hs)

end Sys2Proof.Machine

/-!
PROOFS. The Tilth operations of the M, N and L slots (R74, R84, R87, R91 to R95): what a command of a lane does where its lane issues it, the routing
and the rounding of the accumulator operations, the pointers, the modifiers and the loops, and the slots of opcode 0.
-/
namespace Sys2Proof.Machine

/-! ## A command of a lane that issues -/

/-- Where a lane issues, the command of a slot does the slot's operation on the lane's context and completes. -/
theorem State.Issues.exec_eq {z : State} {i : Issue} {s1 : Sys} {x y : LaneCtx} {c : Instr} {sl : Slot} {op : TOp} (h : z.Issues i s1 x)
    (hc : exec c z = z.lane i sl op) (hop : op.run sl x = y) : exec c z = .next (z.issued s1 y) := by
  obtain ⟨⟨hrst, htick⟩, hat⟩ := h
  rw [hc]
  simp [State.lane, State.tickRow, State.issued, State.put, Sys.laneOp, hrst, htick, hat, hop]

/-! ## Arithmetic of the accumulators -/

/-- The field of a two's complement number has that number's value. -/
theorem sgn_toNat (w : Nat) (v : BitVec w) (hw : 0 < w) : sgn w v.toNat = v.toInt := by
  have hp : 2 ^ w = 2 * 2 ^ (w - 1) := (Nat.two_pow_pred_add_two_pow_pred hw).symm.trans (two_mul _).symm
  rw [sgn, BitVec.toInt, Nat.mod_eq_of_lt v.isLt]
  exact if_congr (by omega) rfl rfl

/-- One half is added before the floor (R84). -/
theorem roundDiv_two_pow_succ (v : Int) (n : Nat) :
    roundDiv v (2 ^ (n + 1)) = (v + ((2 ^ n : Nat) : Int)) / ((2 ^ (n + 1) : Nat) : Int) := by
  rw [roundDiv, Nat.pow_succ']
  push_cast
  rw [← mul_add, Int.mul_ediv_mul_of_pos _ _ two_pos]

theorem satWrap_eq (sat : Bool) (r : Int) :
    satWrap sat r = BitVec.ofInt 32 (if sat then min (max r (-2147483648)) 2147483647 else r) := by
  cases sat <;> rfl

/-- EXT rounds `A x 2^sh / 2^31` half up and narrows it by its sat bit (R84). -/
theorem extAcc_eq (a : BitVec 72) (sh : Int) (sat : Bool) : extAcc a sh sat =
    let r := (a.toInt * ((2 ^ (sh + 8).toNat : Nat) : Int) + ((2 ^ 38 : Nat) : Int)) / ((2 ^ 39 : Nat) : Int)
    BitVec.ofInt 32 (if sat then min (max r (-2147483648)) 2147483647 else r) := by
  have hr := fun v => roundDiv_two_pow_succ v 38
  simp only [extAcc, satWrap_eq, hr]

/-! ## The M and N slots -/

/-- The M slot, or the N slot. -/
def mnSlot (ns : Bool) : Slot := if ns then .n else .m

/-- The rank of the M slot, or of the N slot (R81). -/
def mnRank (ns : Bool) : Nat := if ns then rankN else rankM

@[simp] theorem isMN_mnSlot (ns : Bool) : isMN (mnSlot ns) = true := by cases ns <;> rfl

@[simp] theorem slotRank_mnSlot (ns : Bool) : slotRank (mnSlot ns) = mnRank ns := by cases ns <;> rfl

/-- The product into E by FORM (R94). -/
def LaneCtx.evenProduct (x : LaneCtx) (form xp yp : Nat) : BitVec 72 :=
  let e := if form = 3 then (x.d (2 * xp + 1), x.d (2 * yp))
    else if form = 1 then (x.d (2 * xp), x.d (2 * yp + 1)) else (x.d (2 * xp), x.d (2 * yp))
  BitVec.ofInt 72 (e.1.toInt * e.2.toInt)

/-- The product into O by FORM (R94). -/
def LaneCtx.oddProduct (x : LaneCtx) (form xp yp : Nat) : BitVec 72 :=
  let o := if form = 2 then (x.d (2 * xp), x.d (2 * yp + 1))
    else if form = 1 then (x.d (2 * xp + 1), x.d (2 * yp)) else (x.d (2 * xp + 1), x.d (2 * yp + 1))
  BitVec.ofInt 72 (o.1.toInt * o.2.toInt)

/-- Each of the four forms routes its operands into E and O. -/
theorem macProducts_eq (x : LaneCtx) {ap xp yp form en : Nat} (hform : form < 4) :
    macProducts ⟨ap, xp, yp, form, en⟩ x = (x.evenProduct form xp yp, x.oddProduct form xp yp) := by
  match form, hform with
  | 0, _ => rfl
  | 1, _ => rfl
  | 2, _ => rfl
  | 3, _ => rfl

section
variable {ap xp yp form : Nat} (hap : ap < 2) (hxp : xp < 8) (hyp : yp < 8) (hform : form < 4)
include hap hxp hyp hform

/-- A MAC format with its fields in range and a half enabled is valid in the M and N slots. -/
theorem macOk_of_lt (ns : Bool) {en : Nat} (h1 : 1 ≤ en) (h3 : en ≤ 3) : macOk (mnSlot ns) ⟨ap, xp, yp, form, en⟩ = true := by
  simp [macOk, hap, hxp, hyp, hform, h1, h3]

variable (ns : Bool) (x : LaneCtx) (g : BitVec 72 → BitVec 72 → BitVec 72)

/-- A MAC-class operation with E alone enabled. -/
theorem tMacOp_even : tMacOp (mnSlot ns) ⟨ap, xp, yp, form, 1⟩ g x =
    x.chain (2 * ap) (mnRank ns) (fun c => g c (x.evenProduct form xp yp)) := by
  have hok := macOk_of_lt hap hxp hyp hform ns (en := 1) (by decide) (by decide)
  simp [tMacOp, hok, macProducts_eq x hform, bit]

/-- A MAC-class operation with O alone enabled. -/
theorem tMacOp_odd : tMacOp (mnSlot ns) ⟨ap, xp, yp, form, 2⟩ g x =
    x.chain (2 * ap + 1) (mnRank ns) (fun c => g c (x.oddProduct form xp yp)) := by
  have hok := macOk_of_lt hap hxp hyp hform ns (en := 2) (by decide) (by decide)
  simp [tMacOp, hok, macProducts_eq x hform, bit]

/-- A MAC-class operation with both enabled: E, then O. -/
theorem tMacOp_both : tMacOp (mnSlot ns) ⟨ap, xp, yp, form, 3⟩ g x =
    (x.chain (2 * ap) (mnRank ns) (fun c => g c (x.evenProduct form xp yp))).chain
      (2 * ap + 1) (mnRank ns) (fun c => g c (x.oddProduct form xp yp)) := by
  have hok := macOk_of_lt hap hxp hyp hform ns (en := 3) (by decide) (by decide)
  simp [tMacOp, hok, macProducts_eq x hform, bit]

end

/-- A mask of one of four bits names its accumulator alone. -/
theorem bitsOn_two_pow {a : Nat} (ha : a < 4) : bitsOn 4 (2 ^ a) = [a] := by
  match a, ha with
  | 0, _ => rfl
  | 1, _ => rfl
  | 2, _ => rfl
  | 3, _ => rfl

section
variable (ns : Bool) (x : LaneCtx) {a : Nat} (ha : a < 4)
include ha

theorem tAclr_two_pow : tAclr (mnSlot ns) (2 ^ a) x = x.chain a (mnRank ns) (fun _ => 0) := by
  have hmask : 2 ^ a < 16 := Nat.pow_lt_pow_right one_lt_two ha
  simp [tAclr, hmask, bitsOn_two_pow ha]

theorem tAadd_of_ne {b : Nat} (hb : b < 4) (hab : a ≠ b) (sub : Bool) :
    tAadd (mnSlot ns) a b sub x = x.chain a (mnRank ns) (fun c => if sub then c - x.a b else c + x.a b) := by
  simp [tAadd, ha, hb, hab]

variable {d : Nat} (hd : d < 16) (sh : BitVec 4)
include hd

theorem tAld_toNat : tAld (mnSlot ns) a d sh.toNat x = x.chain a (mnRank ns) (fun _ => aldAcc (x.d d) sh.toInt) := by
  simp [tAld, ha, hd, sh.isLt, shVal, sgn_toNat 4 sh (by decide)]

theorem tExt_toNat (sat : Bool) :
    tExt (mnSlot ns) a d sh.toNat sat x = x.res (.d d) 1 (extAcc (x.a a) sh.toInt sat).toNat (mnRank ns) := by
  simp [tExt, ha, hd, sh.isLt, shVal, sgn_toNat 4 sh (by decide)]

end

/-- Settles O5: a MAC-class operation chains the products that FORM routes, and EXT adds one half before its floor. -/
theorem accumulatorOperations : Obligations.AccumulatorOperations := by
  intro z i s1 x ns ap xp yp form a b d sh sub sat h hap hxp hyp hform ha hb hab hd
  have even := tMacOp_even hap hxp hyp hform ns x
  have odd := tMacOp_odd hap hxp hyp hform ns x
  have both := tMacOp_both hap hxp hyp hform ns x
  have ext := tExt_toNat ns x ha hd sh sat
  rw [extAcc_eq] at ext
  exact ⟨h.exec_eq rfl (even (fun c p => c + p)), h.exec_eq rfl (odd (fun c p => c + p)), h.exec_eq rfl (both (fun c p => c + p)),
    h.exec_eq rfl (both (fun c p => c - p)), h.exec_eq rfl (both (fun _ p => p)), h.exec_eq rfl (both (fun _ p => -p)),
    h.exec_eq rfl (tAclr_two_pow ns x ha), h.exec_eq rfl (tAadd_of_ne ns x ha hb hab sub), h.exec_eq rfl (tAld_toNat ns x ha hd sh),
    h.exec_eq rfl ext⟩

/-! ## The L slot -/

section
variable {imm : Nat} (himm : imm < 65536) (x : LaneCtx)
include himm

theorem tPset_of_lt {p : Nat} (hp : p < 8) : tPset p imm x = x.res (.p p) 1 imm rankT := if_pos ⟨hp, himm⟩

theorem tPadd_of_lt {p : Nat} (hp : p < 8) : tPadd p imm x = x.res (.p p) 1 (((x.p p).toNat + imm) % 2 ^ 16) rankT := if_pos ⟨hp, himm⟩

theorem tMsetl_of_lt {m : Nat} (hm : m < 4) : tMsetl m imm x = x.res (.ml m) 1 imm rankT := if_pos ⟨hm, himm⟩

theorem tMseth_of_lt {m : Nat} (hm : m < 4) : tMseth m imm x = x.res (.mh m) 1 imm rankT := if_pos ⟨hm, himm⟩

end

/-- REP opens the outer loop, whose count stands in L0 (R77, R91). -/
theorem tRep_outer (x : LaneCtx) {count len : Nat} (hc : 1 ≤ count) (hc' : count ≤ 65535) (hl : 1 ≤ len) (hl' : len ≤ 32) (h : x.ln.loops = []) :
    tRep count len x = { x with ln := { x.ln with
      loops := [{ first := x.ln.pc + 1, last := x.ln.pc + len, left := count - 1 }]
      l := [BitVec.ofNat 16 count, 0] } } := by
  have hrange : ¬(count = 0 ∨ 65535 < count ∨ len = 0 ∨ 32 < len) := by omega
  simp [tRep, hrange, h, loopRegs, Nat.sub_add_cancel hc]

/-- EOT within the declared cycles and the pair ceiling fixes the end cycle and raises nothing (R58, R92). -/
theorem tEot_of_endFaults_nil (x : LaneCtx) (h : x.ln.loops = []) (hf : x.dev.endFaults x.n x.cyc = []) :
    tEot x = { x with ln := { x.ln with endC := some x.cyc } } := by
  simp [tEot, h, hf, Dev.raiseAll, sortBy]

/-! ## Opcode 0 (R74) -/

/-- A field that reads zero reads zero in each narrower field at its place. -/
theorem fld_narrow_eq_zero {v lo w w' : Nat} (hw : w' ≤ w) (h : fld v lo w = 0) : fld v lo w' = 0 := by
  rw [fld] at h ⊢
  exact Nat.mod_eq_zero_of_dvd ((Nat.pow_dvd_pow 2 hw).trans (Nat.dvd_of_mod_eq_zero h))

/-- A bit of a field that reads zero is clear. -/
theorem bit_eq_false_of_fld_eq_zero {v lo w i : Nat} (hi : i < w) (h : fld v lo w = 0) : bit v (lo + i) = false := by
  have hdvd : 2 ^ (i + 1) ∣ v / 2 ^ lo := (Nat.pow_dvd_pow 2 (by omega)).trans (Nat.dvd_of_mod_eq_zero h)
  obtain ⟨q, hq⟩ := hdvd
  rw [bit, Nat.pow_add, ← Nat.div_div_eq_div_mul, hq, Nat.pow_succ, mul_assoc, Nat.mul_div_cancel_left _ (Nat.two_pow_pos i)]
  simp

/-- What the arm of opcode 0 decodes is NOP. -/
theorem eq_nop_of_arm {v : Nat} {o : TOp} (h : (if v = 0 then some TOp.nop else none) = some o) : o = .nop := by
  split at h
  · exact (Option.some.inj h).symm
  · exact nomatch h

theorem decodeL_opcode_zero (v : Nat) (o : TOp) (h : decodeL v = some o) (hop : fld v 26 6 = 0) : o = .nop := by
  have hldx : bit v 31 = false := bit_eq_false_of_fld_eq_zero (lo := 26) (i := 5) (by decide) hop
  have hcode : fld v 26 5 = 0 := fld_narrow_eq_zero (by decide) hop
  simp only [decodeL, hldx, hcode] at h
  exact eq_nop_of_arm h

theorem decodeMN_opcode_zero (v : Nat) (o : TOp) (h : decodeMN v = some o) (hop : fld v 15 5 = 0) : o = .nop := by
  simp only [decodeMN, hop] at h
  exact eq_nop_of_arm h

theorem decodeX_opcode_zero (v : Nat) (o : TOp) (h : decodeX v = some o) (hop : fld v 18 6 = 0) : o = .nop := by
  simp only [decodeX, hop] at h
  exact eq_nop_of_arm h

/-- Settles O11: each of these commands meets the checks of its encoding, and opcode 0 has one arm in each slot's decoder. -/
theorem pointersModifiersAndLoops : Obligations.PointersModifiersAndLoops := by
  refine ⟨?_, by decide, decodeL_opcode_zero, decodeMN_opcode_zero, decodeX_opcode_zero⟩
  intro z i s1 x p m imm count len sl h hp hm himm
  exact ⟨h.exec_eq rfl (tPset_of_lt himm x hp), h.exec_eq rfl (tPadd_of_lt himm x hp), h.exec_eq rfl (tMsetl_of_lt himm x hm),
    h.exec_eq rfl (tMseth_of_lt himm x hm), fun hc hc' hl hl' hn => h.exec_eq rfl (tRep_outer x hc hc' hl hl' hn),
    fun hn hf => h.exec_eq rfl (tEot_of_endFaults_nil x hn hf), h.exec_eq rfl rfl⟩

end Sys2Proof.Machine

namespace Sys2Proof.Machine

/-! ## Fuses only burn -/

/-- An entry of a list with one entry changed. -/
theorem getD_updAt {α : Type} (l : List α) (i j : Nat) (f : α → α) (x : α) :
    (updAt l i f).getD j x = if i = j ∧ j < l.length then f (l.getD j x) else l.getD j x := by
  induction l generalizing i j with
  | nil => simp [updAt]
  | cons y t ih =>
    cases i with
    | zero => cases j <;> simp [updAt]
    | succ i => cases j <;> simp_all [updAt]

/-- A bit that is set stays set when another one is. -/
theorem bit_bitSet_true {v i : Nat} (k : Nat) (h : bit v i = true) : bit (bitSet v k true) i = true := by
  have hf : ∀ a, bit a i = (fld a i 1 == 1) := fun a => by simp [bit, fld]
  rw [hf] at h ⊢
  rcases Nat.lt_trichotomy i k with hlt | rfl | hgt
  · rwa [bitSet, fld_fldSet_lo _ _ _ _ _ _ (by omega)]
  · rw [bitSet, fld_fldSet]
    rfl
  · rwa [bitSet, fld_fldSet_hi _ _ _ _ _ _ (by omega)]

theorem Otp.burnedTo_refl (o : Otp) : o.burnedTo o :=
  ⟨rfl, rfl, rfl, rfl, rfl, rfl, rfl, fun _ h => h, fun _ h => h, fun _ => le_refl _⟩

theorem Otp.burnedTo_trans {o p q : Otp} (h : o.burnedTo p) (k : p.burnedTo q) : o.burnedTo q := by
  obtain ⟨h1, h2, h3, h4, h5, h6, h7, h8, h9, h10⟩ := h
  obtain ⟨k1, k2, k3, k4, k5, k6, k7, k8, k9, k10⟩ := k
  exact ⟨k1.trans h1, k2.trans h2, k3.trans h3, k4.trans h4, k5.trans h5, k6.trans h6, k7.trans h7, fun i hi => k8 i (h8 i hi),
    fun i hi => k9 i (h9 i hi), fun i => (h10 i).trans (k10 i)⟩

/-- A floor raised. -/
theorem Otp.burnedTo_floor (o : Otp) (k n : Nat) (h : o.floors.getD k 0 ≤ n) :
    o.burnedTo { o with floors := updAt o.floors k (fun _ => n) } := by
  refine ⟨rfl, rfl, rfl, rfl, rfl, rfl, rfl, fun _ h => h, fun _ h => h, fun j => ?_⟩
  rw [getD_updAt]
  split
  · next hkj => exact hkj.1 ▸ h
  · exact le_refl _

theorem Otp.burnedTo_srev (o : Otp) (i : Nat) : o.burnedTo { o with srev := bitSet o.srev i true } :=
  ⟨rfl, rfl, rfl, rfl, rfl, rfl, rfl, fun _ h => bit_bitSet_true i h, fun _ h => h, fun _ => le_refl _⟩

theorem Otp.burnedTo_brev (o : Otp) (i : Nat) : o.burnedTo { o with brev := bitSet o.brev i true } :=
  ⟨rfl, rfl, rfl, rfl, rfl, rfl, rfl, fun _ h => h, fun _ h => bit_bitSet_true i h, fun _ => le_refl _⟩

/-! ## What every operation of the system keeps -/

/-- From `b` to `s` memory keeps its canonical form and no fuse is taken back. -/
def Sys.Safe (b s : Sys) : Prop := (b.mem.wf = true → s.mem.wf = true) ∧ b.otp.burnedTo s.otp

theorem Sys.Safe.refl (b : Sys) : b.Safe b := ⟨id, Otp.burnedTo_refl _⟩

section
variable {b s : Sys}

theorem Sys.Safe.back (h : b.Safe s) (x : LaneCtx) : b.Safe (x.back s) := h

theorem Sys.Safe.onDev (h : b.Safe s) (f : Dev → Dev) : b.Safe (s.onDev f) := h

theorem Sys.Safe.dev (h : b.Safe s) (d : Dev) : b.Safe { s with dev := d } := h

/-- A change of memory that keeps the canonical form. -/
theorem Sys.Safe.mem (h : b.Safe s) (m : Memory) (d : Dev) (hm : s.mem.wf = true → m.wf = true) : b.Safe { s with mem := m, dev := d } :=
  ⟨fun hb => hm (h.1 hb), h.2⟩

/-- A burn of fuses. -/
theorem Sys.Safe.otp (h : b.Safe s) (o : Otp) (d : Dev) (ho : s.otp.burnedTo o) : b.Safe { s with otp := o, dev := d } :=
  ⟨h.1, Otp.burnedTo_trans h.2 ho⟩

theorem Sys.Safe.onMem (h : b.Safe s) (f : Memory → Memory) (hf : ∀ m, m.wf = true → (f m).wf = true) : b.Safe (s.onMem f) :=
  h.mem _ _ (hf _)

/-- An operation made for each element of a list. -/
theorem Sys.Safe.each {α : Type} (l : List α) (f : α → Sys → Sys) (hf : ∀ x s, b.Safe s → b.Safe (f x s)) :
    ∀ {s : Sys}, b.Safe s → b.Safe (each l f s) := by
  induction l with
  | nil => exact id
  | cons x t ih => exact fun h => ih (hf x _ h)

/-- The same with a value carried along. -/
theorem Sys.Safe.each_fst {α β : Type} (l : List α) (f : α → Sys × β → Sys × β) (hf : ∀ x a, b.Safe a.1 → b.Safe (f x a).1) :
    ∀ {a : Sys × β}, b.Safe a.1 → b.Safe (Sys2Proof.Machine.each l f a).1 := by
  induction l with
  | nil => exact id
  | cons x t ih => exact fun h => ih (hf x _ h)

theorem Sys.Safe.foldl_fst {α β : Type} (l : List α) (f : Sys × β → α → Sys × β) (hf : ∀ x a, b.Safe a.1 → b.Safe (f a x).1) :
    ∀ {a : Sys × β}, b.Safe a.1 → b.Safe (l.foldl f a).1 := by
  induction l with
  | nil => exact id
  | cons x t ih => exact fun h => ih (hf x _ h)

theorem Sys.Safe.forN (n : Nat) (f : Nat → Sys → Sys) (hf : ∀ k s, b.Safe s → b.Safe (f k s)) (h : b.Safe s) :
    b.Safe (forN n f s) := by
  induction n with
  | zero => exact h
  | succ n ih => exact hf n _ ih

end

section
variable {b s : Sys} (h : b.Safe s)
include h

/-! ### Memory writes -/

theorem Sys.Safe.store (a : Nat) (bs : List Byte) : b.Safe (s.store a bs) := h.mem _ _ (Memory.putBytes_wf _ _ _)

theorem Sys.Safe.storeWords (ws : List (Nat × Nat)) : b.Safe (s.storeWords ws) :=
  h.mem _ _ (Memory.foldl_wf _ _ (fun _ _ hm => Memory.putWord_wf _ _ _ hm) _)

theorem Sys.Safe.portStore (a : Nat) (bs : List (Option Byte)) : b.Safe (s.portStore a bs) :=
  h.mem _ _ (Memory.foldl_wf _ _ (fun _ _ hm => Memory.put_wf _ _ _ hm) _)

/-! ### Lanes -/

theorem Sys.Safe.closeIssue : b.Safe s.closeIssue := h.mem _ _ (Memory.putStores_wf _ _)

theorem Sys.Safe.passTo (k : Sys → Nat) : b.Safe (s.passTo k) := h.closeIssue.onDev _

theorem Sys.Safe.toIssue (k : Nat) : b.Safe (s.toIssue k) := by
  unfold Sys.toIssue
  split
  · exact h.passTo _
  · exact h

theorem Sys.Safe.toCycle (c : Nat) : b.Safe (s.toCycle c) := by
  unfold Sys.toCycle
  extract_lets
  split
  · exact h
  · exact h.toIssue _

theorem Sys.Safe.laneAt (n k : Nat) : b.Safe (s.laneAt n k).1 := by
  unfold Sys.laneAt
  extract_lets s1
  have h1 : b.Safe s1 := h.toIssue k
  split_ifs
  · exact h
  · exact h1
  · exact h1
  · exact h1.back _
  · exact h1

theorem Sys.Safe.laneOp (n k : Nat) (f : LaneCtx → LaneCtx) : b.Safe (s.laneOp n k f) := by
  unfold Sys.laneOp
  split
  · exact (h.laneAt n k).back _
  · exact h.laneAt n k

/-! ### Loads -/

theorem Sys.Safe.passWrites (img : Image) : b.Safe (s.passWrites img) := ⟨fun hb => s.passWrites_wf img (h.1 hb), h.2⟩

theorem Sys.Safe.zeroFill (sh : Sheaf) : b.Safe (s.zeroFill sh) := ⟨fun hb => s.zeroFill_wf sh (h.1 hb), h.2⟩

theorem Sys.Safe.ownPass (job : LoadJob) (ecc : Option Nat) : b.Safe (s.ownPass job ecc).1 := by
  unfold Sys.ownPass
  extract_lets off len bs s1
  split
  · split
    · exact h.onDev _
    · exact (h.onDev _).passWrites _
  · exact h

theorem Sys.Safe.loadDone (sh : Sheaf) : b.Safe (s.loadDone sh) := (h.zeroFill sh).onDev _

theorem Sys.Safe.loadJoin (job : LoadJob) (sh : Sheaf) (peer : PeerAns) : b.Safe (s.loadJoin job sh peer) := by
  unfold Sys.loadJoin
  split
  · exact h.loadDone sh
  · cases peer with
    | none => exact h.onDev _
    | fail c => exact h.onDev _
    | ready x =>
      dsimp only
      split
      · exact h.loadDone sh
      · exact h.onDev _

theorem Sys.Safe.loadFinish (ecc : Option Nat) (peer : PeerAns) : b.Safe (s.loadFinish ecc peer) := by
  unfold Sys.loadFinish
  split
  · exact h
  · split
    · exact h
    · split
      · exact h.loadJoin _ _ _
      · extract_lets r
        have hr : b.Safe r.1 := h.ownPass _ _
        split
        · exact hr.onDev _
        · exact hr.loadJoin _ _ _

/-! ### Local inputs and serial ports -/

theorem Sys.Safe.locWrite (ws : List (Nat × Nat)) (decs : List (Nat × Nat × Nat)) : b.Safe (s.locWrite ws decs) := by
  unfold Sys.locWrite
  extract_lets base s0 s1
  have h1 : b.Safe s1 := (h.storeWords _).onDev _
  split
  · exact h1.onDev _
  · exact h1

theorem Sys.Safe.tdmWrite (p : Nat) (decs : List (Nat × Nat × Nat)) : b.Safe (s.tdmWrite p decs) := h.locWrite _ _

theorem Sys.Safe.tdmRx (p : Nat) (words : List Nat) (bclks : Nat) (off : Int) (near : Bool) (c : Nat) :
    b.Safe (s.tdmRx p words bclks off near c) := by
  unfold Sys.tdmRx
  extract_lets s1 d t mode start bad dA dB dM fr r aligned good g push f q late dG s2
  have h1 : b.Safe s1 := h.onDev _
  have h2 : b.Safe s2 := h1.dev _
  split
  · exact h1
  · split
    · exact h1.dev _
    · split
      · exact h1
      · split
        · exact h1.dev _
        · split
          · exact h1.dev _
          · split
            · exact h2
            · exact h2.tdmWrite _ _

theorem Sys.Safe.slipRx (p c : Nat) : b.Safe (s.slipRx p c) := by
  unfold Sys.slipRx
  extract_lets s1 d gang lead chk s2 dec
  refine Sys.Safe.each gang _ (fun m s hs => ?_) ((h.onDev _).onDev _)
  exact (hs.dev _).tdmWrite m []

theorem Sys.Safe.slipAccess (p dir c : Nat) : b.Safe (s.slipAccess p dir c) := by
  unfold Sys.slipAccess
  extract_lets
  split
  · split
    · exact h.slipRx p c
    · exact h.onDev _
  · exact h.onDev _

theorem Sys.Safe.tdmBoundary : b.Safe s.tdmBoundary := by
  unfold Sys.tdmBoundary
  extract_lets dA s1
  refine Sys.Safe.forN _ _ (fun p s hs => ?_) (h.dev _)
  extract_lets d t s2
  have h2 : b.Safe s2 := by
    unfold s2
    split
    · exact hs.onDev _
    · exact hs
  split
  · exact hs
  · split
    · exact (h2.onDev _).tdmWrite p []
    · exact h2

theorem Sys.Safe.decBoundary (pins : List (Nat × Nat)) : b.Safe (s.decBoundary pins) := by
  unfold Sys.decBoundary
  extract_lets d0 d1 d2 s1
  have h1 : b.Safe s1 := (h.dev _).locWrite _ _
  exact h1.dev _

/-! ### Ethernet -/

theorem Sys.Safe.rxDeliver (p cls : Nat) (trunc : Bool) (f : List Byte) : b.Safe (s.rxDeliver p cls trunc f) := by
  unfold Sys.rxDeliver
  extract_lets b base size head tail a inUse frc s1 d desc own owned stuck ev st flags m1 m2 m3 m4
  split
  · refine (h.dev frc.1).mem m4 _ (fun hm => ?_)
    have hm3 : m3.wf = true := Memory.putBytes_wf _ _ _ (Memory.putBytes_wf _ _ _ (Memory.putBytes_wf _ _ _ hm))
    unfold m4
    split
    · exact Memory.putBytes_wf _ _ _ hm3
    · exact hm3
  · exact h.dev _

theorem Sys.Safe.txComplete (p q status : Nat) : b.Safe (s.txComplete p q status) := h.mem _ _ (Memory.putBytes_wf _ _ _)

theorem Sys.Safe.txStop (p q : Nat) : b.Safe (s.txStop p q) := by
  unfold Sys.txStop
  split
  · exact h
  · exact h.onDev _

theorem Sys.Safe.hostSend (p q : Nat) (desc : List Byte) : b.Safe (s.hostSend p q desc) := by
  unfold Sys.hostSend
  extract_lets f s1 s2
  have h1 : b.Safe s1 := h.onDev _
  have h2 : b.Safe s2 := by
    unfold s2
    split
    · exact h1.onDev _
    · exact h1
  exact h2.txComplete _ _ _

theorem Sys.Safe.hostTransmit (p c : Nat) : b.Safe (s.hostTransmit p c) := by
  unfold Sys.hostTransmit
  extract_lets sA s1 d
  have h1 : b.Safe s1 := Sys.Safe.each _ _ (fun q s hs => hs.txStop p q) (h.onDev _)
  split
  · exact h.onDev _
  · split
    · exact h1
    · split
      · exact h1
      · extract_lets frc
        split
        · exact h1.dev _
        · split
          · exact h1.txComplete _ _ _
          · split
            · exact h1.txComplete _ _ _
            · split
              · exact h1
              · exact h1.hostSend _ _ _

theorem Sys.Safe.collision (bytes c : Nat) : b.Safe (s.collision bytes c) := by
  unfold Sys.collision
  extract_lets s1 s2
  have h1 : b.Safe s1 := h.onDev _
  have h2 : b.Safe s2 := h1.onDev _
  split
  · exact h1
  · split
    · exact (h2.onDev _).txComplete _ _ _
    · split
      · exact (h2.onDev _).txComplete _ _ _
      · exact h2.onDev _

/-! ### Streams -/

theorem Sys.Safe.rxWrite (c : Nat) (words : List Int) : b.Safe (s.rxWrite c words) := by
  unfold Sys.rxWrite
  split
  · exact h
  · split
    · exact h
    · exact (h.onMem _ (Memory.each_wf _ _ (fun _ _ hm => Memory.putWord_wf _ _ _ hm))).onDev _

theorem Sys.Safe.rxRelease (c : Nat) (pk : Option RxPkt) : b.Safe (s.rxRelease c pk) := by
  unfold Sys.rxRelease
  extract_lets d t u x f slip d0 forced
  split
  · exact ((h.dev _).rxWrite c _).onDev _
  · exact ((h.dev _).rxWrite c _).onDev _

theorem Sys.Safe.streamRelease : b.Safe s.streamRelease := by
  unfold Sys.streamRelease
  extract_lets s1 r
  have h1 : b.Safe s1 := h.onDev _
  split
  · exact h1
  · have hr : b.Safe r.1 := by
      refine Sys.Safe.each_fst _ _ (fun c a ha => ?_) h1
      extract_lets s2 ag
      split
      · dsimp only
        split
        · exact Sys.Safe.rxWrite ha _ _
        · exact ha
      · split
        · exact ha
        · split
          · exact Sys.Safe.onDev ha _
          · split
            · extract_lets f
              split
              · exact (Sys.Safe.dev ha _).rxRelease _ _
              · exact Sys.Safe.rxRelease ha _ _
            · exact Sys.Safe.rxRelease ha _ _
    split
    · exact hr
    · exact hr.onDev _

/-! ### The engine -/

theorem Sys.Safe.engClose : b.Safe s.engClose := by
  unfold Sys.engClose
  extract_lets s1 d
  have h1 : b.Safe s1 := (h.passTo _).onDev _
  split
  · exact h1
  · exact h1.dev _

theorem Sys.Safe.stageOne (x : StageDesc) : b.Safe (s.stageOne x) := by
  unfold Sys.stageOne
  split
  · exact h
  · exact h.mem _ _ (Memory.copyWords_wf _ _ _ _ _)

theorem Sys.Safe.staging (late : Nat) : b.Safe (s.staging late) := by
  unfold Sys.staging
  extract_lets ord n s1
  have h1 : b.Safe s1 := by
    refine Sys.Safe.each _ _ (fun i s hs => ?_) h
    split
    · exact hs.stageOne _
    · exact hs
  split
  · exact h1
  · exact h1.onDev _

theorem Sys.Safe.displace (r : Region) (f : Nat) : b.Safe (s.displace r f) := by
  unfold Sys.displace
  split
  · exact h
  · extract_lets
    split
    · exact h
    · exact h.onDev _

theorem Sys.Safe.deliver (x : DrainDesc) (j : Nat) (w : Word) : b.Safe (s.deliver x j w) := by
  unfold Sys.deliver
  split
  · split
    · exact h.onMem _ (fun _ hm => Memory.putWord_wf _ _ _ hm)
    · exact h
  · split
    · exact h.onDev _
    · split
      · exact h.onDev _
      · exact h.onDev _

theorem Sys.Safe.drainOne (i : Nat) (x : DrainDesc) : b.Safe (s.drainOne i x) := by
  unfold Sys.drainOne
  extract_lets r s0 s1 s2
  have h0 : b.Safe s0 := by
    unfold s0
    split
    · split
      · exact h.displace _ _
      · exact h
    · exact h
  have h2 : b.Safe s2 := Sys.Safe.onDev (Sys.Safe.each _ _ (fun p s hs => hs.deliver x _ _) h0) _
  split
  · exact h2.onDev _
  · exact h2

theorem Sys.Safe.drain : b.Safe s.drain := by
  unfold Sys.drain
  extract_lets d all due sF s1 subst
  have hF : b.Safe sF := by
    unfold sF
    split
    · exact h
    · exact h.onDev _
  exact Sys.Safe.onDev (Sys.Safe.each _ _ (fun p s hs => hs.drainOne _ _) hF) _

theorem Sys.Safe.engRotate (late : Nat) : b.Safe (s.engRotate late) := (h.staging late).onDev _

theorem Sys.Safe.engStart : b.Safe s.engStart := (h.onDev _).drain.onDev _

theorem Sys.Safe.cellApply (key : Nat) (val : List Byte) : b.Safe (s.cellApply key val) := by
  unfold Sys.cellApply
  split
  · exact h
  · exact Sys.Safe.each _ _ (fun p s hs => hs.store _ _) h

/-! ### Events -/

theorem Sys.Safe.extWrite (r : EvRec) : b.Safe (s.extWrite r) := by
  unfold Sys.extWrite
  extract_lets
  split
  · exact h
  · exact h.mem _ _ (Memory.putBytes_wf _ _ _)

theorem Sys.Safe.closeRec (seq : Nat) : b.Safe (s.closeRec seq) := by
  unfold Sys.closeRec
  split
  · exact h
  · exact (h.onDev _).extWrite _

theorem Sys.Safe.closeAll : b.Safe s.closeAll := Sys.Safe.each _ _ (fun q _ hs => hs.closeRec q) h

theorem Sys.Safe.bbxStore (r : EvRec) : b.Safe (s.bbxStore r) := by
  unfold Sys.bbxStore
  extract_lets trig d i d1 d2 e bb d3 s1
  have h1 : b.Safe s1 := h.mem _ _ (Memory.putBytes_wf _ _ _)
  split
  · exact h.dev _
  · split
    · exact h1
    · extract_lets s2
      split
      · exact h1.onDev _
      · exact ((h1.onDev _).onDev _).onDev _

theorem Sys.Safe.numberRec (r : EvRec) (upto : Option Nat) : b.Safe (s.numberRec r upto) := by
  unfold Sys.numberRec
  extract_lets d q frozen i s1 s2 s3 froze s4
  have h3 : b.Safe s3 := ((h.onDev _).bbxStore _).onDev _
  have h4 : b.Safe s4 := by
    unfold s4
    split
    · exact h3.onDev _
    · exact h3.closeRec _
  split
  · exact h4.closeAll
  · exact h4

theorem Sys.Safe.drops (p : Posting) : b.Safe (s.drops p) := Sys.Safe.each _ _ (fun _ _ hs => hs.numberRec _ _) (h.onDev _)

theorem Sys.Safe.fold (o : OpenRec) : b.Safe (s.fold o) := by
  unfold Sys.fold
  extract_lets o1 r s1 s2
  have h1 : b.Safe s1 := h.onDev _
  have h2 : b.Safe s2 := by
    unfold s2
    split
    · split
      · exact h1
      · exact h1.onMem _ (fun _ hm => Memory.putBytes_wf _ _ _ hm)
    · exact h1
  split
  · exact h2.closeRec _
  · exact h2

theorem Sys.Safe.numberNew (p : Posting) : b.Safe (Sys.numberPosting.numberNew s p) := by
  unfold Sys.numberPosting.numberNew
  extract_lets low t s1 win
  have h1 : b.Safe s1 := h.dev _
  split
  · exact h1.onDev _
  · exact (h1.drops p).numberRec _ _

theorem Sys.Safe.numberPosting (p : Posting) : b.Safe (s.numberPosting p) := by
  unfold Sys.numberPosting
  split
  · split
    · exact h.fold _
    · exact (h.closeRec _).numberNew p
  · exact h.numberNew p

theorem Sys.Safe.numberTick (t : Nat) : b.Safe (s.numberTick t) :=
  Sys.Safe.each _ _ (fun _ _ hs => hs.numberRec _ _) (Sys.Safe.each _ _ (fun _ _ hs => hs.numberPosting _) (h.onDev _))

theorem Sys.Safe.numberSession : b.Safe s.numberSession := Sys.Safe.each _ _ (fun _ _ hs => hs.numberRec _ _) (h.onDev _)

theorem Sys.Safe.evtNumbering : b.Safe s.evtNumbering := by
  unfold Sys.evtNumbering
  split
  · exact h
  · exact Sys.Safe.onDev (Sys.Safe.each _ _ (fun _ _ hs => hs.numberTick _) h.numberSession) _

theorem Sys.Safe.coalesceClose : b.Safe s.coalesceClose := Sys.Safe.each _ _ (fun _ _ hs => hs.closeRec _) h

theorem Sys.Safe.evtRingDrop : b.Safe s.ringDrop := (h.onDev _).numberRec _ _

theorem Sys.Safe.hostRingWrite : b.Safe s.hostRingWrite := by
  unfold Sys.hostRingWrite
  extract_lets n0 s1 d
  have h1 : b.Safe s1 := by
    unfold s1
    split
    · exact h.evtRingDrop
    · exact h
  split
  · exact h1
  · split
    · exact h1
    · extract_lets s2 n
      have h2 : b.Safe s2 := h1.onDev _
      split
      · exact (h2.onMem _ (fun _ hm => Memory.putBytes_wf _ _ _ hm)).onDev _
      · exact h2.onDev _

theorem Sys.Safe.numberNow : b.Safe s.numberNow := by
  unfold Sys.numberNow
  split
  · exact h
  · split
    · exact h
    · exact (h.onDev _).numberSession.numberPosting _

/-! ### The pair -/

theorem Sys.Safe.landWords (t : Nat) (words : List (Nat × Nat)) : b.Safe (s.landWords t words) := (h.storeWords _).onDev _

theorem Sys.Safe.landBuffered (t : Nat) : b.Safe (s.landBuffered t) := by
  unfold Sys.landBuffered
  split
  · exact h
  · exact (h.landWords _ _).onDev _

theorem Sys.Safe.localsReceive (dest : Nat) (words : List (Nat × Nat)) (decs : List (Nat × Nat × Nat)) (c : Nat) :
    b.Safe (s.localsReceive dest words decs c) := by
  unfold Sys.localsReceive
  split
  · exact h
  · extract_lets s1 d s2
    have h1 : b.Safe s1 := h.onDev _
    split
    · exact h1.onDev _
    · split
      · exact h1
      · have h2 : b.Safe s2 := h1.onDev _
        split
        · exact h2.landWords _ _
        · split
          · exact h2.onDev _
          · exact h2

theorem Sys.Safe.landingFill : b.Safe s.landingFill := by
  unfold Sys.landingFill
  extract_lets s1 d have_ miss half s2
  have h1 : b.Safe s1 := h.onDev _
  split
  · exact h1
  · have h2 : b.Safe s2 := h1.storeWords _
    split
    · exact h2
    · exact h2.onDev _

theorem Sys.Safe.resyncFreeze : b.Safe s.resyncFreeze := by
  unfold Sys.resyncFreeze
  extract_lets s1 d
  have h1 : b.Safe s1 := h.onDev _
  split
  · exact h1
  · split
    · exact h1.onDev _
    · split
      · exact h1.onDev _
      · exact h1

theorem Sys.Safe.delayFrame : b.Safe s.delayFrame := by
  unfold Sys.delayFrame
  split
  · exact h
  · extract_lets fb put
    split
    · exact h.onDev _
    · split
      · split
        · exact h.onDev _
        · exact h.dev _
      · split
        · exact h.onDev _
        · exact h.dev _

theorem Sys.Safe.copyFrame : b.Safe s.copyFrame := by
  unfold Sys.copyFrame
  extract_lets d off len o
  split
  · exact h
  · exact h.dev _

theorem Sys.Safe.bulkSend : b.Safe s.bulkSend := by
  unfold Sys.bulkSend
  split
  · exact h
  · refine Sys.Safe.forN _ _ (fun _ s hs => ?_) h
    split
    · exact hs.copyFrame
    · split
      · exact hs.onDev _
      · split
        · exact hs.delayFrame
        · exact hs

theorem Sys.Safe.sheafCopyReceive (off : Nat) (bs : List Byte) (load : Option (Nat × Nat)) (c : Nat) :
    b.Safe (s.sheafCopyReceive off bs load c) := by
  unfold Sys.sheafCopyReceive
  split
  · exact h
  · extract_lets s1 d s2
    have h1 : b.Safe s1 := h.onDev _
    split
    · exact h1
    · have h2 : b.Safe s2 := h1.onMem _ (fun _ hm => Memory.putBytes_wf _ _ _ hm)
      split
      · split
        · exact h2.onDev _
        · exact h2
      · exact h2

theorem Sys.Safe.imageReceive (off : Nat) (bs : List Byte) (blk : Option BlockState) (c : Nat) : b.Safe (s.imageReceive off bs blk c) := by
  unfold Sys.imageReceive
  split
  · exact h
  · extract_lets s1 d
    have h1 : b.Safe s1 := h.onDev _
    split
    · exact h1
    · refine Sys.Safe.onDev (Sys.Safe.onDev (h1.onMem _ (fun m hm => ?_)) _) _
      exact Memory.each_wf _ _ (fun _ _ hm => Memory.put_wf _ _ _ hm) _ (Memory.putBytes_wf _ _ _ hm)

theorem Sys.Safe.delayReceive (parts : List (Nat × List Byte)) (c : Nat) : b.Safe (s.delayReceive parts c) := by
  unfold Sys.delayReceive
  split
  · exact h
  · extract_lets s1
    have h1 : b.Safe s1 := h.onDev _
    split
    · exact h1
    · exact (h1.onMem _ (Memory.each_wf _ _ (fun _ _ hm => Memory.putBytes_wf _ _ _ hm))).onDev _

/-! ### Glean -/

theorem Sys.Safe.gleanBlockDone (c : Nat) : b.Safe (s.gleanBlockDone c) := by
  unfold Sys.gleanBlockDone
  split
  · exact h
  · exact h.mem _ _ (fun hm => Memory.putBytes_wf _ _ _ (Memory.putBytes_wf _ _ _ hm))

theorem Sys.Safe.readbackDone (c : Nat) : b.Safe (s.readbackDone c) := by
  unfold Sys.readbackDone
  split
  · exact h
  · extract_lets d n blks r d1
    split
    · exact h.dev _
    · exact h.dev _

/-! ### Registers and the bus -/

theorem Sys.Safe.regRead (off : Nat) : b.Safe (s.regRead off).1 := by
  unfold Sys.regRead
  extract_lets d
  split
  · exact h
  · split
    · exact h
    · split
      · split
        · exact h.dev _
        · split
          · exact h.dev _
          · exact h.dev _
      · extract_lets low
        split
        · exact h
        · split
          · exact h
          · exact h.dev _

theorem Sys.Safe.hostRead (off : Nat) : b.Safe (s.hostRead off) := (h.regRead _).onDev _

theorem Sys.Safe.dramRead (m a ecc : Nat) : b.Safe (s.dramRead m a ecc) := h.dev _

theorem Sys.Safe.loadPort (a : Nat) (bs : List (Option Byte)) : b.Safe (s.loadPort a bs) := by
  unfold Sys.loadPort
  extract_lets at_ used ok s1
  have h1 : b.Safe s1 := by
    unfold s1
    split
    · exact h.portStore _ _
    · exact h.portStore _ _
  exact h1.onDev _

theorem Sys.Safe.serveMsix (q : BusReq) : b.Safe (s.serveMsix q) := by
  unfold Sys.serveMsix
  extract_lets o v
  split
  · exact h.onDev _
  · split
    · split
      · exact h.onDev _
      · split
        · exact h.onDev _
        · exact h
    · exact h.dev _

section
variable {wr : Nat → Nat → Sys → Sys} (hwr : ∀ off data s, b.Safe s → b.Safe (wr off data s))
include hwr

theorem Sys.Safe.serveReg (q : BusReq) (off : Nat) : b.Safe (s.serveReg wr q off) := by
  unfold Sys.serveReg
  split
  · split
    · exact h.onDev _
    · exact hwr _ _ _ h
  · exact h.hostRead _

theorem Sys.Safe.serve (q : BusReq) (a : Nat) : b.Safe (s.serve wr q a) := by
  unfold Sys.serve
  extract_lets d n t may s1 s2
  have h1 : b.Safe s1 := h.onDev _
  split
  · split
    · exact h1
    · exact h1.onDev _
  · split
    · exact h
    · split
      · exact h.serveReg hwr _ _
      · split
        · exact h.onDev _
        · split
          · split
            · exact h.loadPort _ _
            · split
              · exact h.portStore _ _
              · exact h.onMem _ (fun _ hm => Memory.putEn_wf _ _ _ hm)
          · have h2 : b.Safe s2 := by
              unfold s2
              split
              · exact h.dramRead _ _ _
              · exact h
            exact h2.onDev _

theorem Sys.Safe.busRequest (q : BusReq) (c : Nat) : b.Safe (s.busRequest wr q c) := by
  unfold Sys.busRequest
  extract_lets sA s1 d q7
  have hA : b.Safe sA := (h.toCycle c).onDev _
  have h1 : b.Safe s1 := by
    unfold s1
    split
    · exact hA
    · exact hA.onDev _
  split
  · split
    · exact h1.serve hwr _ _
    · exact h
  · split
    · exact h
    · split
      · exact h1.onDev _
      · split
        · exact h1.onDev _
        · split
          · exact h1.serve hwr _ _
          · exact h1.serve hwr _ _
          · exact h1.serveMsix _

end

/-! ### Commands -/

theorem Sys.Safe.replySend (a : Answer) (bs : List Byte) {t : Sys} (ht : s.replySend a bs = some t) : b.Safe t := by
  unfold Sys.replySend at ht
  extract_lets sent at ht
  split at ht
  · exact Option.some.inj ht ▸ h.onDev _
  · split at ht
    · exact nomatch ht
    · exact Option.some.inj ht ▸ h.mem _ _ (fun hm => Memory.clearOwn_wf _ _ (Memory.putBytes_wf _ _ _ hm))

theorem Sys.Safe.flush : b.Safe s.flush := by
  unfold Sys.flush
  refine Sys.Safe.onDev (Sys.Safe.foldl_fst _ _ (fun a acc ha => ?_) h) _
  split
  · exact ha
  · split
    · exact ha
    · split
      · next ht => exact Sys.Safe.replySend ha _ _ ht
      · exact ha

theorem Sys.Safe.answer (c : CmdIn) (bs : List Byte) : b.Safe (s.answer c bs) := (h.onDev _).flush

theorem Sys.Safe.cmdRefuse (c : CmdIn) (q : Refused) (key : Option Nat) : b.Safe (s.cmdRefuse c q key) := (h.dev _).answer _ _

theorem Sys.Safe.cmdAck (c : CmdIn) (tick : Nat) (pay : List Byte) (key : Option Nat) : b.Safe (s.cmdAck c tick pay key) :=
  (h.dev _).answer _ _

theorem Sys.Safe.keyLoad (bs : List Byte) : b.Safe (s.keyLoad bs) := by
  unfold Sys.keyLoad
  split
  · exact h
  · exact h.onDev _

theorem Sys.Safe.keyRetire (k : Nat) (perm : Bool) {t : Sys} (ht : s.keyRetire k perm = .ok t) : b.Safe t := by
  unfold Sys.keyRetire at ht
  extract_lets fl at ht
  split at ht
  · exact Except.ok.inj ht ▸ h
  · extract_lets new d1 d2 at ht
    split at ht
    · exact nomatch ht
    · refine Except.ok.inj ht ▸ h.otp _ _ (s.otp.burnedTo_floor k new ?_)
      unfold new
      split
      · exact le_max_left _ _
      · exact le_refl _

theorem Sys.Safe.signRevoke (kind i : Nat) (first : List Byte) {t : Sys} (ht : s.signRevoke kind i first = .ok t) : b.Safe t := by
  unfold Sys.signRevoke at ht
  extract_lets o x valid rev o1 d1 d2 at ht
  split at ht
  · exact nomatch ht
  · split at ht
    · exact Except.ok.inj ht ▸ h
    · split at ht
      · exact nomatch ht
      · refine Except.ok.inj ht ▸ h.otp o1 _ ?_
        unfold o1
        split
        · exact o.burnedTo_srev i
        · exact o.burnedTo_brev i

theorem Sys.Safe.storeWrite (off : Nat) (data : List Byte) {t : Sys} (ht : s.storeWrite off data = .ok t) : b.Safe t := by
  unfold Sys.storeWrite at ht
  extract_lets d so at ht
  split at ht
  · exact nomatch ht
  · split at ht
    · exact nomatch ht
    · exact Except.ok.inj ht ▸ h.onMem _ (fun _ hm => Memory.putBytes_wf _ _ _ hm)

omit h in
theorem Sys.Safe.cmdRead (n : Nat) : ∀ {s : Sys} (_ : b.Safe s) (off : Nat), b.Safe (s.cmdRead off n).1 := by
  induction n with
  | zero => exact fun h _ => h
  | succ n ih =>
    intro s h off
    unfold Sys.cmdRead
    refine ih ?_ (off + 4)
    split
    · exact h.onDev _
    · exact h.regRead off

/-- The system of an answer that is one. -/
def okSys : Except Refused (Sys × List Byte) → Option Sys
  | .ok r => some r.1
  | .error _ => none

theorem Sys.Safe.execNow (bs : List Byte) : ∀ t ∈ okSys (s.execNow bs), b.Safe t := by
  have plain : ∀ r : Except Refused Sys, (∀ t, r = .ok t → b.Safe t) → ∀ t ∈ okSys (r.map (fun s => (s, []))), b.Safe t := by
    intro r hr t ht
    cases r with
    | error e => exact nomatch ht
    | ok u => exact Option.some.inj ht ▸ hr u rfl
  have onD : ∀ r : Except Refused Dev, ∀ t ∈ okSys (r.map (fun d => ({ s with dev := d }, []))), b.Safe t := by
    intro r t ht
    cases r with
    | error e => exact nomatch ht
    | ok d => exact Option.some.inj ht ▸ h.dev d
  have done : ∀ (u : Sys) (l : List Byte), b.Safe u → ∀ t ∈ okSys (.ok (u, l)), b.Safe t := fun u l hu t ht => Option.some.inj ht ▸ hu
  unfold Sys.execNow
  extract_lets op p pl od
  split_ifs
  · exact done _ _ (Sys.Safe.cmdRead _ h _)
  · exact plain _ (fun t ht => h.storeWrite _ _ ht)
  · exact onD _
  · exact onD _
  · exact done _ _ (h.onDev _)
  · exact done _ _ (h.keyLoad bs)
  · exact plain _ (fun t ht => h.keyRetire _ _ ht)
  · exact plain _ (fun t ht => h.signRevoke _ _ _ ht)
  · exact onD _

theorem Sys.Safe.cmdNow (c : CmdIn) : b.Safe (s.cmdNow c) := by
  have hx := h.execNow c.bytes
  unfold Sys.cmdNow
  split
  · extract_lets s1
    have h1 : b.Safe s1 := by
      unfold s1
      split
      · exact h.onDev _
      · exact h
    exact h1.cmdRefuse _ _ _
  · next r hr =>
    have h1 : b.Safe r.1 := hx r.1 (by rw [hr]; rfl)
    exact h1.cmdAck _ _ _ _

theorem Sys.Safe.cmdHello (c : CmdIn) : b.Safe (s.cmdHello c) := by
  unfold Sys.cmdHello
  extract_lets n s1
  split
  · exact (h.onDev _).flush
  · exact (h.onDev _).cmdAck _ _ _ _

theorem Sys.Safe.peerRefuse (slot ctr cause : Nat) (c : CmdIn) : b.Safe (s.peerRefuse slot ctr cause c) := (h.dev _).cmdRefuse _ _ _

theorem Sys.Safe.cmdData (c : CmdIn) : b.Safe (s.cmdData c) := by
  unfold Sys.cmdData
  extract_lets bs d slot ctr a imm t
  split
  · exact (h.dev _).cmdRefuse _ _ _
  · extract_lets shadow d2 i d3 w s1
    split
    · exact h.dev _
    · have h1 : b.Safe s1 := h.dev _
      split
      · split
        · exact h1.peerRefuse _ _ _ _
        · exact h1
      · exact (h.dev _).cmdAck _ _ _ _

theorem Sys.Safe.cmdTake (c : CmdIn) : b.Safe (s.cmdTake c) := by
  unfold Sys.cmdTake
  extract_lets num own s1 c1 bs slot cls ctr s2
  have h1 : b.Safe s1 := h.onDev _
  have h2 : b.Safe s2 := h1.onDev _
  split
  · exact h1.cmdRefuse _ _ _
  · split
    · exact h1.cmdHello _
    · split
      · exact h1.cmdRefuse _ _ _
      · split
        · extract_lets s3
          have h3 : b.Safe s3 := by
            unfold s3
            split
            · exact h1.onDev _
            · exact h1
          exact h3.cmdRefuse _ _ _
        · split
          · exact h1.cmdRefuse _ _ _
          · split
            · exact h2.cmdRefuse _ _ _
            · split
              · exact h2.cmdRefuse _ _ _
              · split
                · exact h2.cmdData _
                · exact h2.cmdNow _

theorem Sys.Safe.ringFetch (r : Nat) : b.Safe (s.ringFetch r).1 := by
  unfold Sys.ringFetch
  split
  · exact h
  · extract_lets f size d1
    split
    · exact h.dev _
    · exact h.mem _ _ (Memory.clearOwn_wf _ _)

theorem Sys.Safe.srcFetch (k : Nat) : b.Safe (s.srcFetch k).1 := by
  unfold Sys.srcFetch
  split
  · exact h.onDev _
  · split
    · exact h.ringFetch k
    · exact h

theorem Sys.Safe.takeFrom (k : Nat) : b.Safe (s.takeFrom k).1 := by
  have hf := h.srcFetch k
  unfold Sys.takeFrom
  split
  · exact h
  · extract_lets owes
    split
    · exact h
    · split
      · exact h.onDev _
      · split
        · next heq => rwa [heq] at hf
        · next heq =>
          rw [heq] at hf
          exact (Sys.Safe.onDev hf _).cmdTake _

theorem Sys.Safe.takeOne : b.Safe s.takeOne.1 := by
  unfold Sys.takeOne
  extract_lets t a c
  have ha : b.Safe a.1 := h.takeFrom _
  have hc : b.Safe c.1 := ha.takeFrom _
  split
  · exact ha
  · split
    · exact hc
    · exact hc.takeFrom _

omit h in
theorem Sys.Safe.cmdRunN (n : Nat) : ∀ {s : Sys}, b.Safe s → b.Safe (s.cmdRunN n) := by
  induction n with
  | zero => exact id
  | succ n ih =>
    intro s h
    unfold Sys.cmdRunN
    split
    · exact h
    · extract_lets r
      have hr : b.Safe r.1 := h.takeOne
      split
      · exact ih hr
      · exact hr

theorem Sys.Safe.cmdRun : b.Safe s.cmdRun := Sys.Safe.cmdRunN _ h.flush

theorem Sys.Safe.cmdArrive (src : Nat) (bytes : List Byte) (from_ : Option UdpFrom) (c : Nat) : b.Safe (s.cmdArrive src bytes from_ c) := by
  unfold Sys.cmdArrive
  split
  · exact h
  · extract_lets s1 d
    have h1 : b.Safe s1 := h.onDev _
    split
    · exact h1
    · split
      · exact h1.onDev _
      · exact (h1.onDev _).cmdRun

theorem Sys.Safe.immOne (i : ImmCmd) : b.Safe (s.immOne i) := by
  unfold Sys.immOne
  split
  · split
    · exact (h.onDev _).cmdRefuse _ _ _
    · exact h
  · extract_lets r s1
    split
    · split
      · exact (h.dev _).cmdRefuse _ _ _
      · exact h.dev _
    · have h1 : b.Safe s1 := h.dev _
      split
      · exact h1.cmdAck _ _ _ _
      · exact h1

theorem Sys.Safe.immExecute : b.Safe s.immExecute := by
  unfold Sys.immExecute
  extract_lets s1 t due s2
  have h1 : b.Safe s1 := h.onDev _
  split
  · exact h1
  · exact (Sys.Safe.each _ _ (fun _ _ hs => hs.immOne _) (h1.onDev _)).cmdRun

theorem Sys.Safe.reassign (slot ctr : Nat) (c : CmdIn) : b.Safe (s.reassign slot ctr c) := by
  unfold Sys.reassign
  extract_lets imm a d t
  split
  · exact (h.dev _).cmdRefuse _ _ _
  · exact h.dev _

theorem Sys.Safe.confirmReceive (slot ctr reason c : Nat) : b.Safe (s.confirmReceive slot ctr reason c) := by
  unfold Sys.confirmReceive
  split
  · exact h
  · extract_lets s1
    have h1 : b.Safe s1 := h.onDev _
    split
    · split
      · exact (h1.reassign _ _ _).cmdRun
      · split
        · exact (h1.peerRefuse _ _ _ _).cmdRun
        · exact ((h1.onDev _).cmdAck _ _ _ _).cmdRun
    · split
      · split
        · split
          · exact (h1.reassign _ _ _).cmdRun
          · split
            · exact (h1.peerRefuse _ _ _ _).cmdRun
            · exact h1.onDev _
        · exact h1
      · exact h1

theorem Sys.Safe.confirmTimeout (slot ctr c : Nat) : b.Safe (s.confirmTimeout slot ctr c) := by
  unfold Sys.confirmTimeout
  extract_lets s1
  have h1 : b.Safe s1 := h.onDev _
  split
  · split
    · exact (h1.peerRefuse _ _ _ _).cmdRun
    · exact h1
  · exact h1

theorem Sys.Safe.resolveDeadline : b.Safe s.resolveDeadline := by
  unfold Sys.resolveDeadline
  extract_lets s1 t s2 s3
  have h2 : b.Safe s2 := Sys.Safe.each _ _ (fun _ _ hs => hs.peerRefuse _ _ _ _) (h.onDev _)
  have h3 : b.Safe s3 := by
    refine Sys.Safe.each _ _ (fun _ _ hs => ?_) h2
    split
    · exact hs.peerRefuse _ _ _ _
    · exact hs
  exact h3.cmdRun

/-! ### Power, resets and boot -/

theorem Sys.Safe.domSwitch (want : Nat) : b.Safe (s.domSwitch want) := by
  unfold Sys.domSwitch
  extract_lets r
  have hr : b.Safe r.1 := by
    refine Sys.Safe.each_fst _ _ (fun k a ha => ?_) h
    extract_lets s1 on to_
    split
    · exact ha
    · split
      · exact Sys.Safe.onDev ha _
      · split
        · exact (Sys.Safe.onDev ha _).onMem (fun m => m.dropCluster k) (fun m hm => Memory.dropCluster_wf m k hm)
        · exact Sys.Safe.onDev ha _
  split
  · exact hr
  · exact hr.onDev _

theorem Sys.Safe.sleep : b.Safe s.sleep := by
  unfold Sys.sleep
  split
  · exact h
  · exact h.mem _ _ (Memory.aoKept_wf _)

theorem Sys.Safe.clockLost (src : Nat) : b.Safe (s.clockLost src) := (h.onDev _).numberNow

theorem Sys.Safe.xoLoss (c : Nat) : b.Safe (s.xoLoss c) := by
  unfold Sys.xoLoss
  split
  · exact h
  · exact (h.onDev _).clockLost _

theorem Sys.Safe.mdllUnlock (c : Nat) : b.Safe (s.mdllUnlock c) := by
  unfold Sys.mdllUnlock
  split
  · exact h
  · exact (h.onDev _).clockLost _

theorem Sys.Safe.powerOnReset (bootsel : Nat) (pairId testmode : Bool) : b.Safe (s.powerOnReset bootsel pairId testmode) :=
  h.mem [] _ (fun _ => Memory.wf_nil)

theorem Sys.Safe.warmReset (bootsel : Nat) (pairId testmode : Bool) : b.Safe (s.warmReset bootsel pairId testmode) :=
  h.mem _ _ (Memory.aoKept_wf _)

theorem Sys.Safe.planeResetEnd (c : Nat) : b.Safe (s.planeResetEnd c) := by
  unfold Sys.planeResetEnd
  extract_lets s1 over_ s2 s3
  have h2 : b.Safe s2 := by
    unfold s2
    split
    · exact (h.onDev _).onDev _
    · exact h.onDev _
  have h3 : b.Safe s3 := by
    unfold s3
    split
    · exact h2.onDev _
    · exact h2
  exact h3.cmdRun

theorem Sys.Safe.bootDone : b.Safe s.bootDone := (h.onDev _).cmdRun

theorem Sys.Safe.bootApply (bs : List Byte) (train : Bool) (sheaf : List Byte) : b.Safe (s.bootApply bs train sheaf) := by
  unfold Sys.bootApply
  extract_lets s1 fl s2 w w1 bt s3 off len s4
  have h1 : b.Safe s1 := h.onDev _
  have h3 : b.Safe s3 := (h1.onDev _).dev _
  split
  · exact (h1.onDev _).cmdRun
  · split
    · exact (Sys.Safe.dev (s := s2) (h1.onDev _) _).cmdRun
    · split
      · exact h3.bootDone
      · have h4 : b.Safe s4 := by
          unfold s4
          split
          · exact h3.onMem _ (fun _ hm => Memory.putBytes_wf _ _ _ hm)
          · exact h3
        exact h4.onDev _

theorem Sys.Safe.boot (slot0 slot1 : Option (List Byte)) (sheaf : List Byte) (train : Bool) (c : Nat) :
    b.Safe (s.boot slot0 slot1 sheaf train c) := by
  unfold Sys.boot
  split
  · exact h
  · extract_lets s1 sel a e x
    have h1 : b.Safe s1 := h.onDev _
    split
    · exact h1.onDev _
    · split
      · exact h1.bootApply _ _ _
      · split
        · exact (h1.onDev _).bootApply _ _ _
        · split
          · exact h1.onDev _
          · exact (h1.onDev _).cmdRun

theorem Sys.Safe.bootData (v : Nat) (train : Bool) : b.Safe (s.bootData v train) := by
  unfold Sys.bootData
  split
  · exact h
  · extract_lets img n s1 bs r x
    have h1 : b.Safe s1 := h.onDev _
    split
    · exact h1
    · split
      · exact h1.bootApply _ _ _
      · exact (h1.onDev _).cmdRun

theorem Sys.Safe.bootTimeout (c : Nat) : b.Safe (s.bootTimeout c) := by
  unfold Sys.bootTimeout
  split
  · exact h
  · exact ((h.onDev _).onDev _).cmdRun

theorem Sys.Safe.bootSheaf : b.Safe s.bootSheaf := by
  unfold Sys.bootSheaf
  extract_lets d
  split
  · exact h
  · split
    · exact (h.dev _).bootDone
    · exact (h.onDev _).bootDone

theorem Sys.Safe.loadComplete (ecc : Option Nat) (peer : PeerAns) (c : Nat) : b.Safe (s.loadComplete ecc peer c) := by
  unfold Sys.loadComplete
  extract_lets s1
  have h1 : b.Safe s1 := h.onDev _
  split
  · split
    · exact h1.onDev _
    · exact h
  · exact (h1.loadFinish _ _).bootSheaf

/-! ### The tick -/

theorem Sys.Safe.tickActs (ps : List PendWr) : b.Safe (s.tickActs ps) := by
  unfold Sys.tickActs
  extract_lets s1 s2
  have h2 : b.Safe s2 := Sys.Safe.each _ _ (fun _ _ hs => hs.domSwitch _) (h.onDev _)
  split
  · exact h2.sleep
  · exact h2

theorem Sys.Safe.blocksBoundary (i : TickIn) : b.Safe (s.blocksBoundary i) := (h.decBoundary _).onDev _

theorem Sys.Safe.boundaryEnd (ys : List Nat) : b.Safe (s.boundaryEnd ys) := (h.onDev _).bulkSend

theorem Sys.Safe.tickBoundary (i : TickIn) : b.Safe (s.tickBoundary i) := by
  unfold Sys.tickBoundary
  split
  · exact h
  · extract_lets ys a s1 s2
    have h1 : b.Safe s1 := (h.dev _).tdmBoundary.onDev _
    have h2 : b.Safe s2 := by
      unfold s2
      split
      · exact h1
      · exact (h1.onDev _).engStart
    exact ((h2.blocksBoundary i).boundaryEnd ys).tickActs _

theorem Sys.Safe.capturePoint : b.Safe s.capturePoint := by
  unfold Sys.capturePoint
  split
  · exact h
  · extract_lets s1 s2
    have h1 : b.Safe s1 := by
      unfold s1
      split
      · exact h.onDev _
      · exact h.engClose.onDev _
    have h2 : b.Safe s2 := h1.onDev _
    split
    · exact h2.landBuffered _
    · exact h2

theorem Sys.Safe.agendaOne (e : AgEntry) : b.Safe (s.agendaOne e) := by
  unfold Sys.agendaOne
  split
  · exact h.onDev _
  · exact h.onDev _
  · exact h.cellApply _ _
  · exact h.onDev _

theorem Sys.Safe.agendaTo (t : Nat) : b.Safe (s.agendaTo t) :=
  Sys.Safe.onDev (Sys.Safe.each _ _ (fun _ _ hs => hs.agendaOne _) h) _

theorem Sys.Safe.agendaApply : b.Safe s.agendaApply := by
  unfold Sys.agendaApply
  split
  · exact h
  · extract_lets s1 s2
    have h2 : b.Safe s2 := by
      unfold s2
      split
      · exact h.onDev _
      · exact (h.onDev _).agendaTo _
    exact h2.cmdRun

theorem Sys.Safe.immediateExecute : b.Safe s.immediateExecute := by
  unfold Sys.immediateExecute
  split
  · exact h.immExecute
  · exact h

theorem Sys.Safe.halfRotate (late : Nat) : b.Safe (s.halfRotate late) := by
  unfold Sys.halfRotate
  split
  · exact h
  · extract_lets s1
    have h1 : b.Safe s1 := h.onDev _
    split
    · exact h1
    · exact h1.engRotate late

/-! ### Replay -/

theorem Sys.Safe.replayInputs (t : Nat) : b.Safe (s.replayInputs t) := (h.landWords _ _).onDev _

theorem Sys.Safe.replayRun (t : Nat) : b.Safe (s.replayRun t) := (h.onDev _).streamRelease

theorem Sys.Safe.replayStart (t : Nat) : b.Safe (s.replayStart t) := by
  unfold Sys.replayStart
  extract_lets s1 a s2 s3 s4
  have h2 : b.Safe s2 := (Sys.Safe.dev (s := s1) (h.onDev _) _).replayInputs t
  have h4 : b.Safe s4 := (h2.onDev _).engStart.onDev _
  exact (h4.replayRun t).tickActs _

theorem Sys.Safe.replayJoin (t : Nat) : b.Safe (s.replayJoin t) := by
  unfold Sys.replayJoin
  extract_lets s1 a s2 later s3
  have h2 : b.Safe s2 := (Sys.Safe.dev (s := s1) (h.onDev _) _).replayInputs t
  exact (h2.onDev _).engStart.tickActs _

theorem Sys.Safe.replayTick (c : Nat) : b.Safe (s.replayTick c) := by
  unfold Sys.replayTick
  split
  · exact h
  · split
    · exact h
    · extract_lets s1 s2 s3 due s4 s5 s6
      have h2 : b.Safe s2 := (h.onDev _).engClose.onDev _
      have h4 : b.Safe s4 := Sys.Safe.each _ _ (fun _ _ hs => hs.immOne _) ((h2.onDev _).onDev _)
      have h6 : b.Safe s6 := ((h4.agendaTo _).engRotate 0).onDev _
      split
      · exact h2
      · split
        · exact h6.replayStart _
        · exact h6.replayJoin _

theorem Sys.Safe.delayCopyDone (c : Nat) : b.Safe (s.delayCopyDone c) := by
  unfold Sys.delayCopyDone
  extract_lets s1 d
  have h1 : b.Safe s1 := h.onDev _
  split
  · exact h
  · split
    · split
      · exact h1.onDev _
      · exact h
    · split
      · split
        · exact h
        · extract_lets need
          split
          · exact h
          · exact h1.onDev _
      · exact h

theorem Sys.Safe.replayBegin : b.Safe s.replayBegin := by
  unfold Sys.replayBegin
  extract_lets d
  split
  · exact h
  · split
    · exact h
    · exact ((h.onDev _).replayInputs _).replayRun _

/-! ### What comes from outside -/

theorem Sys.Safe.hostWrite (off data : Nat) : b.Safe (s.hostWrite off data) := by
  unfold Sys.hostWrite
  extract_lets r s1
  have h1 : b.Safe s1 := h.onDev _
  split
  · exact h.onDev _
  · split
    · exact (h.dev _).bootData _ _
    · split
      · exact (h.onDev _).bootSheaf
      · split
        · exact h1.cmdRun
        · exact h1

theorem Sys.Safe.cmdWrite (off mask data : Nat) : b.Safe (s.cmdWrite off mask data) := by
  unfold Sys.cmdWrite
  split
  · exact h
  · extract_lets e d r
    split
    · exact h.dev _
    · exact h.dev _

theorem Sys.Safe.regOp (v : RegVia) (off mask data : Nat) : b.Safe (s.regOp v off mask data) := by
  unfold Sys.regOp
  split
  · exact h.cmdWrite _ _ _
  · exact (h.onDev _).hostWrite _ _

theorem Sys.Safe.readIf (p : RegRow → Bool) (off c : Nat) : b.Safe (s.readIf p off c) := by
  unfold Sys.readIf
  split
  · split
    · exact (h.onDev _).hostRead _
    · exact h
  · exact h

theorem Sys.Safe.cmdRow (f : CmdFrame) (op : Nat) (pay : List Byte) : b.Safe (s.cmdRow f op pay) := h.cmdArrive _ _ _ _

theorem Sys.Safe.toHost (p : Nat) (trunc : Bool) (f : List Byte) : b.Safe (s.toHost p trunc f) := by
  unfold Sys.toHost
  split
  · exact h.rxDeliver _ _ _ _
  · exact h.onDev _

theorem Sys.Safe.classify (p c : Nat) (trunc : Bool) (f : List Byte) : b.Safe (s.classify p c trunc f) := by
  unfold Sys.classify
  split
  · exact h.onDev _
  · split
    · split
      · exact h.onDev _
      · exact h.toHost _ _ _
    · split
      · split
        · exact h.cmdArrive _ _ _ _
        · exact h
        · exact h.toHost _ _ _
      · exact h.toHost _ _ _

theorem Sys.Safe.frameReceive (p : Nat) (bs : List Byte) (rxer : Bool) (c : Nat) : b.Safe (s.frameReceive p bs rxer c) := by
  unfold Sys.frameReceive
  split
  · exact h
  · extract_lets s1 r s2
    have h1 : b.Safe s1 := h.onDev _
    have h2 : b.Safe s2 := h1.dev _
    split
    · exact h1.onDev _
    · split
      · exact h2
      · exact h2.classify _ _ _ _

end

/-! ## Every command is a row -/

theorem Sys.Safe.guard {b s t : Sys} {c : Prop} [Decidable c] (hs : b.Safe s) (ht : b.Safe t) : b.Safe (if c then s else t) := by
  split
  · exact hs
  · exact ht

/-- A function of the system that keeps memory canonical and takes no fuse back. -/
def Sys.Keeps (f : Sys → Sys) : Prop := ∀ {b : Sys} (s : Sys), b.Safe s → b.Safe (f s)

/-- The commands that act while RESET_N holds the device (log entries 15 and 166). -/
def actsInReset : Instr → Bool
  | .powerOnReset _ _ _ | .warmReset _ _ _ | .perst _ _ | .leaseKeeperExpire _ | .fuseDone _ _ | .xoEdgesReturn => true
  | _ => false

/-- What a command is: a row that acts always, unless the device is held in reset, or while the tick runs. -/
inductive IsRow (c : Instr) (z : State) : Prop
  | run (f : Sys → Sys) (h : exec c z = z.runRow f) (hf : Sys.Keeps f)
  | tick (f : Sys → Sys) (h : exec c z = z.tickRow f) (hf : Sys.Keeps f)
  | always (f : Sys → Sys) (h : exec c z = z.act f) (hc : actsInReset c = true) (hf : Sys.Keeps f)

namespace IsRow
variable {c : Instr} {z : State}

theorem runDev (f : Dev → Dev) (h : exec c z = z.runRow (fun s => s.onDev f)) : IsRow c z := .run _ h (fun _ hs => hs.onDev f)

theorem tickDev (f : Dev → Dev) (h : exec c z = z.tickRow (fun s => s.onDev f)) : IsRow c z := .tick _ h (fun _ hs => hs.onDev f)

theorem actDev (f : Dev → Dev) (h : exec c z = z.act (fun s => s.onDev f)) (hc : actsInReset c = true) : IsRow c z :=
  .always _ h hc (fun _ hs => hs.onDev f)

/-- A mirror frame: its header, then its row. -/
theorem mir (m : MirHdr) (f : Sys → Sys) (h : exec c z = z.mirRow m f) (hf : Sys.Keeps f) : IsRow c z :=
  .tick _ h (fun _ hs => .guard hs (hf _ (hs.onDev _)))

theorem mirDev (m : MirHdr) (f : Dev → Dev) (h : exec c z = z.mirRow m (fun s => s.onDev f)) : IsRow c z :=
  .mir m _ h (fun _ hs => hs.onDev f)

theorem cmdRow (f : CmdFrame) (op : Nat) (pay : List Byte) (h : exec c z = z.runRow (fun s => s.cmdRow f op pay)) : IsRow c z :=
  .run _ h (fun _ hs => hs.cmdRow f op pay)

theorem regOp (v : RegVia) (off mask data : Nat) (h : exec c z = z.runRow (fun s => s.regOp v off mask data)) : IsRow c z :=
  .run _ h (fun _ hs => hs.regOp v off mask data)

theorem lane (i : Issue) (sl : Slot) (op : TOp) (h : exec c z = z.lane i sl op) : IsRow c z :=
  .tick _ h (fun _ hs => hs.laneOp i.lane i.k (op.run sl))

end IsRow

/-- Every command of the table is a row whose function keeps memory canonical and takes no fuse back. -/
theorem exec_isRow (c : Instr) (z : State) : IsRow c z := by
  cases c with
  | dStateChange | functionLevelReset | thermShut | wdogExpire | heldRequestRelease | mdllLock | nonceDraw | trngHealth | domainReady | pcieLinkUp
  | pcieLinkDown | gpioEdge | trngSourcePassesAgain | factoryTestUnlock | msixUnmask =>
    exact .runDev _ rfl
  | eccScrub | statusSend | tickAdopt | leaseLapse | takeover | bridge | bridgeEnd | modBlockSend | fwdMissing | sentAckSend | txHandover |
  unknownTypeFrame | frameLate | mirLaneDown | mirLinkDown | mirLaneUp | resyncStart | imageSent | becomeShadow | refLosDetect | refActivity |
  refMeasure | wtrExpire | dpllCompare | historyRecord | holdoverPredict | compareFire | tpllUnlock | tpllRelock | pauseFrame | pauseExpire |
  linkDown | linkUp | mdioDone | plcaBeacon | plcaLost | streamCutoff | arrivalWindow | legDown | streamPacketSend | streamTxLate | tdmFrameTx |
  missingFrame | alignReturn | gangRejoin | pdmStuck | decSettled | superframe | shortLatch | retry | carrierPeriod | loopCompute | ampEnRise |
  groupStop | drvFault | thmConversion | eventPosting | refreshSlot | mr4Read | gleanSample =>
    exact .tickDev _ rfl
  | statusReceive | presenceMapReceive | forwardedPacketReceive | modBlockReceive | mirroredCommandReceive | cancelReceive | sentAckReceive |
  retransmissionRequest | resyncControlReceive | unitIdentityReceive =>
    exact .mirDev _ _ rfl
  | leaseKeeperExpire | perst | xoEdgesReturn =>
    exact .actDev _ rfl rfl
  | hello | read | write | storeWrite | load | abort | swap | cell | step | bbxTrigger | keyLoad | keyRetire | signRevoke | pairEnable |
  pairDisable | take | handover | isolate | rejoin | resync =>
    exact .cmdRow _ _ _ rfl
  | commitStrobe | registerWrite | faultStatusClear | forceLaneParity | forceRefLos | forceHbSuppress | forceDigest | forceSnsCrc | forceDramError
  | faultClear | bbxRearm | wdogKick | vectorResend | readbackGo | mdioGo | sleep | thermClear | domainSwitch | stepaccClear | timeIncWrite |
  lockncSet =>
    exact .regOp _ _ _ _ rfl
  | ldx | ld | st | pset | padd | msetl | mseth | rep | eot | nop | mac | msu | mpy | mpyn | aclr | aadd | ald | ext | add | sub | neg | abs | and
  | or | xor | mov | movil | movih | shl | shr | shrl | she | norm | expo | rnd | min | max | clamp | sel | gstep | stx =>
    exact .lane _ _ _ rfl
  | tickBoundary i =>
    exact .tick (fun s => (s.tickBoundary i).replayBegin) rfl
      (fun _ h => (h.tickBoundary _).replayBegin)
  | capturePoint =>
    refine .tick _ rfl (fun _ h => ?_)
    exact h.capturePoint
  | agendaApply =>
    refine .tick _ rfl (fun _ h => ?_)
    exact h.agendaApply
  | halfRotate =>
    refine .tick _ rfl (fun _ h => ?_)
    exact h.halfRotate _
  | immediateExecute =>
    refine .tick _ rfl (fun _ h => ?_)
    exact h.immediateExecute
  | counterRead | highWaterRead | latchingRead =>
    refine .run _ rfl (fun _ h => ?_)
    exact h.readIf _ _ _
  | tsqRead p c =>
    exact .run (fun s => if p < 3 then (s.onDev (fun d => d.atC c)).hostRead (R.timeTsq p 0) else s) rfl
      (fun _ h => .guard ((h.onDev _).hostRead _) h)
  | ringTailWrite off idx c =>
    exact .run (fun s => if tailReg off then (s.onDev (fun d => d.atC c)).hostWrite off idx else s) rfl
      (fun _ h => .guard ((h.onDev _).hostWrite _ _) h)
  | bootDataWrite word train c =>
    exact .run (fun s => (s.onDev (fun d => d.atC c)).bootData word train) rfl
      (fun _ h => (h.onDev _).bootData _ _)
  | loadComplete =>
    refine .run _ rfl (fun _ h => ?_)
    exact h.loadComplete _ _ _
  | localInputReceive =>
    refine .mir _ _ rfl (fun _ h => ?_)
    exact h.localsReceive _ _ _ _
  | forwardLandingFill =>
    refine .tick _ rfl (fun _ h => ?_)
    exact h.landingFill
  | confirmReceive =>
    refine .mir _ _ rfl (fun _ h => ?_)
    exact h.confirmReceive _ _ _ _
  | confirmTimeout =>
    refine .tick _ rfl (fun _ h => ?_)
    exact h.confirmTimeout _ _ _
  | commandResolveDeadline =>
    refine .tick _ rfl (fun _ h => ?_)
    exact h.resolveDeadline
  | sheafCopyReceive =>
    refine .mir _ _ rfl (fun _ h => ?_)
    exact h.sheafCopyReceive _ _ _ _
  | imageBulkReceive =>
    refine .mir _ _ rfl (fun _ h => ?_)
    exact h.imageReceive _ _ _ _
  | delayBulkReceive | displacedFrameReceive =>
    refine .mir _ _ rfl (fun _ h => ?_)
    exact h.delayReceive _ _
  | resyncFreeze =>
    refine .tick _ rfl (fun _ h => ?_)
    exact h.resyncFreeze
  | delayCopyDone =>
    refine .tick _ rfl (fun _ h => ?_)
    exact h.delayCopyDone _
  | replayTick =>
    refine .tick _ rfl (fun _ h => ?_)
    exact h.replayTick _
  | xoLoss =>
    refine .run _ rfl (fun _ h => ?_)
    exact h.xoLoss _
  | mdllUnlock =>
    refine .run _ rfl (fun _ h => ?_)
    exact h.mdllUnlock _
  | frameReceive =>
    refine .tick _ rfl (fun _ h => ?_)
    exact h.frameReceive _ _ _ _
  | hostFrameTransmit =>
    refine .tick _ rfl (fun _ h => ?_)
    exact h.hostTransmit _ _
  | collision =>
    refine .tick _ rfl (fun _ h => ?_)
    exact h.collision _ _
  | streamRelease =>
    exact .tick (fun s => if s.dev.engOff then s.onDev (fun d => d.atC 4096) else s.streamRelease) rfl
      (fun _ h => .guard (h.onDev _) h.streamRelease)
  | streamPacketQueue ctx =>
    exact .tick (fun s => if s.dev.engOff then s else s.onDev (fun d => d.packetQueue ctx)) rfl
      (fun _ h => .guard h (h.onDev _))
  | tdmFrameRx =>
    refine .tick _ rfl (fun _ h => ?_)
    exact h.tdmRx _ _ _ _ _ _
  | slipAccess =>
    refine .tick _ rfl (fun _ h => ?_)
    exact h.slipAccess _ _ _
  | evtNumbering c =>
    exact .tick (fun s => (s.onDev (fun d => d.atC c)).evtNumbering) rfl
      (fun _ h => (h.onDev _).evtNumbering)
  | coalesceClose c =>
    exact .tick (fun s => (s.onDev (fun d => d.atC c)).coalesceClose) rfl
      (fun _ h => (h.onDev _).coalesceClose)
  | hostRingWrite c =>
    exact .tick (fun s => (s.onDev (fun d => d.atC c)).hostRingWrite) rfl
      (fun _ h => (h.onDev _).hostRingWrite)
  | busRequest =>
    refine .run _ rfl (fun _ h => ?_)
    exact h.busRequest (fun _ _ _ hs => hs.hostWrite _ _) _ _
  | gleanBlockDone =>
    refine .tick _ rfl (fun _ h => ?_)
    exact h.gleanBlockDone _
  | readbackDone =>
    refine .tick _ rfl (fun _ h => ?_)
    exact h.readbackDone _
  | powerOnReset =>
    refine .always _ rfl rfl (fun _ h => ?_)
    exact h.powerOnReset _ _ _
  | warmReset =>
    refine .always _ rfl rfl (fun _ h => ?_)
    exact h.warmReset _ _ _
  | boot =>
    refine .run _ rfl (fun _ h => ?_)
    exact h.boot _ _ _ _ _
  | bootPcieTimeout =>
    refine .run _ rfl (fun _ h => ?_)
    exact h.bootTimeout _
  | fuseDone err c =>
    exact .always (fun s => (s.onDev (fun d => (d.atC c).fuseDone err)).cmdRun) rfl rfl
      (fun _ h => (h.onDev _).cmdRun)
  | planeResetEnd =>
    refine .tick _ rfl (fun _ h => ?_)
    exact h.planeResetEnd _
  | malformedCommand src bytes from_ c =>
    exact .run (fun s => if malformed bytes then s.cmdArrive src bytes from_ c else s) rfl
      (fun _ h => .guard (h.cmdArrive _ _ _ _) h)
  | ctrlPlaneReset c =>
    exact .run (fun s => (s.onDev (fun d => d.atC c)).hostWrite R.pwrRst 1) rfl
      (fun _ h => (h.onDev _).hostWrite _ _)
  | mgmtPlaneReset c =>
    exact .run (fun s => (s.onDev (fun d => d.atC c)).hostWrite R.pwrRst 2) rfl
      (fun _ h => (h.onDev _).hostWrite _ _)
  | forceModOvercurrent v oc =>
    exact .run (fun s => (s.regOp v R.modForce0 0xFFFFFFFF (oc % 2 ^ 32)).regOp v R.modForce1 0xFFFFFFFF (oc / 2 ^ 32)) rfl
      (fun _ h => (h.regOp _ _ _ _).regOp _ _ _ _)
  | modClear v ch =>
    exact .run (fun s => (s.regOp v R.modClear0 0xFFFFFFFF (ch % 2 ^ 32)).regOp v R.modClear1 0xFFFFFFFF (ch / 2 ^ 32)) rfl
      (fun _ h => (h.regOp _ _ _ _).regOp _ _ _ _)
  | forceLinkDown v p on =>
    exact .run (fun s => if p < 2 then s.regOp v (R.macForce (macBlk p)) 1 (b2n on) else s) rfl
      (fun _ h => .guard (h.regOp _ _ _ _) h)
  | compareArm v k period =>
    exact .run (fun s => if k < 4 then s.regOp v (R.timeCmpcfg k) 0xFFFFFFFF (2 ^ 31 + period % 2 ^ 30) else s) rfl
      (fun _ h => .guard (h.regOp _ _ _ _) h)

/-- What a row leaves: a next state with the same queue, kept safe. -/
theorem act_safe {z : State} {f : Sys → Sys} (hf : Sys.Keeps f) : ∃ t, z.act f = .next t ∧ t.pending = z.pending ∧ z.sys.Safe t.sys :=
  ⟨_, rfl, rfl, hf _ (Sys.Safe.refl _)⟩

/-- A command completes, leaves the queue alone, keeps memory canonical and takes no fuse back. -/
theorem exec_safe (c : Instr) (z : State) : ∃ t, exec c z = .next t ∧ t.pending = z.pending ∧ z.sys.Safe t.sys := by
  cases exec_isRow c z with
  | run f h hf =>
    rw [h]
    exact act_safe (fun _ hs => .guard hs (hf _ hs))
  | tick f h hf =>
    rw [h]
    exact act_safe (fun _ hs => .guard hs (hf _ hs))
  | always f h _ hf =>
    rw [h]
    exact act_safe hf

/-- Unless it acts in reset, a command leaves the state of a device held in reset as it is. -/
theorem exec_inReset (c : Instr) (z : State) (hz : z.sys.dev.inReset = true) (hc : actsInReset c = false) : exec c z = .next z := by
  cases exec_isRow c z with
  | run f h _ =>
    rw [h]
    simp [State.runRow, State.act, hz]
  | tick f h _ =>
    rw [h]
    simp [State.tickRow, State.act, hz]
  | always f _ h _ => exact absurd h (by simp [hc])

/-- What a step leaves: the queue without its front, and the system kept safe. -/
theorem step_safe {s t : State} (h : step s = .next t) : s.sys.Safe t.sys := by
  unfold step at h
  split at h
  · cases h
    exact Sys.Safe.refl _
  · next c q _ =>
    obtain ⟨u, hu, _, hs⟩ := exec_safe c { s with pending := q }
    rw [h] at hu
    cases hu
    exact hs

/-- Settles O18: by `step_safe`, whose first part this is. -/
theorem memoryStaysCanonical : Obligations.MemoryStaysCanonical := by
  unfold Obligations.MemoryStaysCanonical
  intro s t hs h
  exact (step_safe h).1 hs

/-- Settles O19: by `step_safe`, whose second part this is. -/
theorem fusesOnlyBurn : Obligations.FusesOnlyBurn := by
  unfold Obligations.FusesOnlyBurn
  intro s t h
  exact (step_safe h).2

/-- Settles O15: the step function takes the front of the queue. -/
theorem stepRunsTheFrontCommand : Obligations.StepRunsTheFrontCommand := by
  unfold Obligations.StepRunsTheFrontCommand
  refine ⟨fun _ _ _ => rfl, fun s hs => ?_⟩
  unfold step
  rw [hs]

/-- Settles O16: every command is a row, and a row completes. -/
theorem everyCommandCompletes : Obligations.EveryCommandCompletes := by
  unfold Obligations.EveryCommandCompletes
  intro c z
  obtain ⟨t, ht, hq, _⟩ := exec_safe c z
  exact ⟨t, ht, hq⟩

end Sys2Proof.Machine

/-!
PROOFS. A device held in reset (R420).
-/
namespace Sys2Proof.Machine

/-- The pins of a device held in reset: FAULT_N apart, none is driven. -/
theorem Dev.pin_inReset {d : Dev} (hd : d.inReset = true) (p : Pin) (hp : p ≠ .faultN) : d.pin p = .z ∨ d.pin p = .idle := by
  have hdr : ∀ k, d.drives k = false := fun k => by simp [Dev.drives, hd]
  cases p with
  | faultN => exact absurd rfl hp
  | tx k =>
    right
    simp [Dev.pin, hd]
  | _ =>
    left
    simp [Dev.pin, Dev.modPin, hdr, pullLow]

/-- Settles O20: the pins by `Dev.pin_inReset`, the commands because each is a row. -/
theorem heldInResetNothingActs : Obligations.HeldInResetNothingActs := by
  unfold Obligations.HeldInResetNothingActs
  intro c z hz
  refine ⟨rfl, fun p => Dev.pin_inReset hz p, ?_⟩
  cases hc : actsInReset c with
  | false =>
    have h := exec_inReset c z hz hc
    split
    case h_7 => exact h
    all_goals trivial
  | true =>
    unfold actsInReset at hc
    split at hc
    case h_7 => cases hc
    all_goals trivial

end Sys2Proof.Machine

/-!
PROOFS. The Tilth operations of the X slot (R82 to R85, R96, R97): each is the value of its row of the table, put with latency 1.
-/
namespace Sys2Proof.Machine

/-! ## Values of the X slot -/

/-- A D value narrowed from itself is itself. -/
@[simp] theorem wrap32_dInt (w : Word) : wrap32 (dInt w) = w := BitVec.ofInt_toInt

/-- MOVIL: a field of 14 bits, sign-extended. -/
theorem wrap32_sgn_ofNat (imm : Nat) : wrap32 (sgn 14 imm) = (BitVec.ofNat 14 imm).signExtend 32 := by
  have h : sgn 14 imm = (BitVec.ofNat 14 imm).toInt := by
    rw [← sgn_toNat 14 _ (by decide), BitVec.toNat_ofNat, sgn, sgn, Nat.mod_mod]
  rw [h]
  rfl

/-- SHR: the floor of the quotient is the arithmetic shift. -/
theorem wrap32_shrI (w : Word) (n : Nat) : wrap32 (shrI (dInt w) n) = w.sshiftRight n := by
  rw [BitVec.sshiftRight, Int.shiftRight_eq_div_pow]
  rfl

theorem wrap32_min (v w : Word) : wrap32 (min (dInt v) (dInt w)) = if v.toInt ≤ w.toInt then v else w := by
  rw [min_def, apply_ite wrap32, wrap32_dInt, wrap32_dInt]
  rfl

theorem wrap32_max (v w : Word) : wrap32 (max (dInt v) (dInt w)) = if w.toInt ≤ v.toInt then v else w := by
  rw [max_comm, max_def, apply_ite wrap32, wrap32_dInt, wrap32_dInt]
  rfl

/-- A bit of a word is that bit of its number. -/
theorem bit_toNat {w : Nat} (v : BitVec w) (i : Nat) : bit v.toNat i = v.getLsbD i := by
  simp [bit, BitVec.getLsbD, Nat.testBit_eq_decide_div_mod_eq, beq_eq_decide]

/-- The count of equal bits from bit `m - 1` down: `n`, where the first `n` agree and the next does not. -/
theorem expoGo_eq (v : Nat) (top : Bool) (m n : Nat) (hn : n ≤ m) (heq : ∀ j, j < n → bit v (m - 1 - j) = top)
    (hne : n < m → bit v (m - 1 - n) ≠ top) : expoGo v top m = n := by
  induction m generalizing n with
  | zero => exact (Nat.le_zero.1 hn).symm
  | succ m ih =>
    cases n with
    | zero => simpa [expoGo] using hne (Nat.succ_pos m)
    | succ n =>
      have h0 := heq 0 (Nat.succ_pos n)
      have hrec := ih n (Nat.le_of_succ_le_succ hn)
        (fun j hj => by rw [← heq (j + 1) (Nat.succ_lt_succ hj)]; congr 1; omega)
        (fun h => by rw [show m - 1 - n = m + 1 - 1 - (n + 1) by omega]; exact hne (Nat.succ_lt_succ h))
      simp only [Nat.add_sub_cancel, Nat.sub_zero] at h0
      simp [expoGo, h0, hrec, Nat.add_comm]

/-- EXPO: the bits below the sign that equal it. -/
theorem expo_eq (w : Word) (n : Nat) (hn : n ≤ 31) (heq : ∀ j, j < n → w.getLsbD (30 - j) = w.getLsbD 31)
    (hne : n < 31 → w.getLsbD (30 - n) ≠ w.getLsbD 31) : expo w = n := by
  refine expoGo_eq _ _ 31 n hn (fun j hj => ?_) (fun h => ?_)
  · simpa only [bit_toNat] using heq j hj
  · simpa only [bit_toNat] using hne h

/-- SHE's count is the signed field Dt[5:0], with -32 taken as -31. -/
theorem sheCount_eq (t : Word) : sheCount t = max (BitVec.ofNat 6 t.toNat).toInt (-31) := by
  have h : sgn 6 t.toNat = (BitVec.ofNat 6 t.toNat).toInt := by
    rw [← sgn_toNat 6 _ (by decide), BitVec.toNat_ofNat, sgn, sgn, Nat.mod_mod]
  rw [sheCount, h]

theorem sheVal_eq (s t : Word) (sat : Bool) (a : Int) (ha : a = sheCount t) : sheVal s t sat =
    if 0 ≤ a then BitVec.ofInt 32 (if sat then min (max (s.toInt * ((2 ^ a.toNat : Nat) : Int)) (-2147483648)) 2147483647
        else s.toInt * ((2 ^ a.toNat : Nat) : Int))
      else BitVec.ofInt 32 (s.toInt / ((2 ^ (-a).toNat : Nat) : Int)) := by
  subst ha
  rw [← satWrap_eq]
  rfl

/-- RND k adds half a step before its floor; its one overflow is the step above the largest multiple (R97). -/
theorem rndVal_eq (s : Word) (k : Nat) (sat : Bool) (r : Int) (hk : 1 ≤ k)
    (hr : r = (s.toInt + ((2 ^ k / 2 : Nat) : Int)) / ((2 ^ k : Nat) : Int) * ((2 ^ k : Nat) : Int)) :
    rndVal s k sat = BitVec.ofInt 32 (if r ≤ 2147483647 then r else if sat then 2147483648 - ((2 ^ k : Nat) : Int) else r) := by
  obtain ⟨n, rfl⟩ : ∃ n, k = n + 1 := ⟨k - 1, by omega⟩
  have hdiv : roundDiv (dInt s) (2 ^ (n + 1)) * ((2 ^ (n + 1) : Nat) : Int) = r := by
    rw [hr, roundDiv_two_pow_succ, Nat.pow_succ 2 n, Nat.mul_div_cancel _ two_pos]
    rfl
  simp only [rndVal, hdiv, wrap32, gt_iff_lt, apply_ite (BitVec.ofInt 32)]
  by_cases h : r ≤ 2147483647
  · rw [if_neg (not_lt.2 h), if_pos h]
  · rw [if_pos (not_le.1 h), if_neg h]

theorem rndVal_zero (s : Word) (sat : Bool) : rndVal s 0 sat = s := by
  have hdiv : roundDiv (dInt s) (2 ^ 0) * ((2 ^ 0 : Nat) : Int) = dInt s := by
    simp only [roundDiv]
    omega
  have hlt : ¬dInt s > 2147483647 := by
    have := BitVec.toInt_lt (x := s)
    simp only [dInt]
    omega
  simp only [rndVal, hdiv, if_neg hlt, wrap32_dInt]

/-! ## The operations -/

/-- An X-slot operation whose operands are in range puts its value as a result of latency 1. -/
theorem tX_of_ok {ok : Bool} {d : Nat} {v w : Word} (x : LaneCtx) (hok : ok = true) (hd : d < 16) (hv : v = w) :
    tX ok d v x = x.res (.d d) 1 w.toNat rankX := by
  simp [tX, hok, hd, hv]

/-- Settles O1: each is an X-slot result, narrowed by `satWrap_eq`. -/
theorem xSlotArithmetic : Obligations.XSlotArithmetic := by
  intro z i s1 x d s t n sat h hd hs ht hn narrow
  have hst : decide (s < 16 ∧ t < 16) = true := by simp [hs, ht]
  have hs1 : decide (s < 16) = true := by simp [hs]
  have hsn : decide (s < 16 ∧ n < 32) = true := by simp [hs, hn]
  have narrowed := satWrap_eq sat
  exact ⟨h.exec_eq rfl (tX_of_ok x hst hd (narrowed _)), h.exec_eq rfl (tX_of_ok x hst hd (narrowed _)),
    h.exec_eq rfl (tX_of_ok x hs1 hd (narrowed _)), h.exec_eq rfl (tX_of_ok x hs1 hd (narrowed _)),
    h.exec_eq rfl (tX_of_ok x hsn hd (narrowed _))⟩

/-- Settles O2: each is an X-slot result, of the word that the table names. -/
theorem xSlotMoves : Obligations.XSlotMoves := by
  intro z i s1 x d s t n imm h hd hs ht hn himm put
  have hst : decide (s < 16 ∧ t < 16) = true := by simp [hs, ht]
  have hs1 : decide (s < 16) = true := by simp [hs]
  have hsn : decide (s < 16 ∧ n < 32) = true := by simp [hs, hn]
  have hi : decide (imm < 16384) = true := by simp [himm]
  exact ⟨h.exec_eq rfl (tX_of_ok x hst hd rfl), h.exec_eq rfl (tX_of_ok x hst hd rfl), h.exec_eq rfl (tX_of_ok x hst hd rfl),
    h.exec_eq rfl (tX_of_ok x hs1 hd rfl), h.exec_eq rfl (tX_of_ok x hi hd (wrap32_sgn_ofNat imm)), h.exec_eq rfl (tX_of_ok x hi hd rfl),
    h.exec_eq rfl (tX_of_ok x hsn hd (wrap32_shrI _ n)), h.exec_eq rfl (tX_of_ok x hsn hd rfl),
    h.exec_eq rfl (tX_of_ok x hst hd (wrap32_min _ _)), h.exec_eq rfl (tX_of_ok x hst hd (wrap32_max _ _))⟩

/-- The conditions of SEL. -/
theorem tSel_eq (x : LaneCtx) {d s t c : Nat} (cond : Nat) (hd : d < 16) (hs : s < 16) (ht : t < 16) (hc : c < 16) (hcond : cond < 4) {w : Word}
    (hw : (if selCond cond (x.d c) then x.d s else x.d t) = w) : tSel d s t c cond x = x.res (.d d) 1 w.toNat rankX :=
  tX_of_ok x (by simp [hs, ht, hc, hcond]) hd hw

/-- Settles O3: each is an X-slot result, of the value that the pseudocode of R97 gives. -/
theorem xSlotSpecials : Obligations.XSlotSpecials := by
  intro z i s1 x d s t c p k sat h hd hs ht hc hp hk put narrow a r
  have hst : decide (s < 16 ∧ t < 16) = true := by simp [hs, ht]
  have hs1 : decide (s < 16) = true := by simp [hs]
  have hsk : ∀ k, k < 32 → decide (s < 16 ∧ k < 32) = true := fun k hk => by simp [hs, hk]
  have hsp : decide (s < 16 ∧ p < 8) = true := by simp [hs, hp]
  have sel := fun cond => tSel_eq x (cond := cond) hd hs ht hc
  refine ⟨?_, h.exec_eq rfl (tX_of_ok x hst hd (sheVal_eq _ _ sat a (sheCount_eq _).symm)),
    fun hk1 => h.exec_eq rfl (tX_of_ok x (hsk k hk) hd (rndVal_eq _ k sat r hk1 rfl)),
    h.exec_eq rfl (tX_of_ok x (hsk 0 (by decide)) hd (rndVal_zero _ sat)), h.exec_eq rfl (tX_of_ok x hsp hd rfl),
    h.exec_eq rfl (sel 0 (by decide) (if_congr decide_eq_true_iff rfl rfl)),
    h.exec_eq rfl (sel 1 (by decide) ((if_congr (decide_eq_true_iff.trans not_lt.symm) rfl rfl).trans (ite_not _ _ _))),
    h.exec_eq rfl (sel 2 (by decide) (if_congr beq_iff_eq rfl rfl)),
    h.exec_eq rfl (sel 3 (by decide) ((if_congr bne_iff_ne rfl rfl).trans (ite_not _ _ _)))⟩
  · rintro n ⟨hn, heq, hne⟩
    have he := expo_eq (x.d s) n hn heq hne
    exact ⟨h.exec_eq rfl (tX_of_ok x hs1 hd (by rw [he])), h.exec_eq rfl (tX_of_ok x hs1 hd (by rw [he]; rfl))⟩

end Sys2Proof.Machine
/-!
PROOFS. Latency and the exposed pipeline (R78 to R80): which of a lane's pending results an operation reads.
-/
namespace Sys2Proof.Machine

/-! ## Results made visible -/

theorem length_updAt {α : Type} (l : List α) (i : Nat) (f : α → α) : (updAt l i f).length = l.length := by
  induction l generalizing i with
  | nil => rfl
  | cons x t ih => cases i with
    | zero => rfl
    | succ i => simp [updAt, ih]

section
variable {α : Type} {key : α → Nat} {q : α → Bool} {x : α}

/-- An item that does not satisfy `q` enters a list without changing what of it does. -/
theorem filter_insBy_of_false (hx : q x = false) (l : List α) : (insBy key x l).filter q = l.filter q := by
  induction l with
  | nil => simp [insBy, hx]
  | cons y t ih =>
    unfold insBy
    split
    · simp [hx]
    · simp [List.filter_cons, ih]

/-- An item alone in satisfying `q`. -/
theorem filter_insBy_of_true (hx : q x = true) {l : List α} (hl : ∀ y ∈ l, q y = false) : (insBy key x l).filter q = [x] := by
  induction l with
  | nil => simp [insBy, hx]
  | cons y t ih =>
    have hy := hl y List.mem_cons_self
    have ht : ∀ z ∈ t, q z = false := fun z hz => hl z (List.mem_cons_of_mem _ hz)
    unfold insBy
    split
    · simpa [hx, hy] using ht
    · simp [hy, ih ht]

end

/-- Of the results applied to a register the last stands. -/
def lastVal {w : Nat} (ps : List Pend) (v : BitVec w) : BitVec w := ps.foldl (fun _ p => BitVec.ofNat w p.val) v

@[simp] theorem lastVal_nil {w : Nat} (v : BitVec w) : lastVal [] v = v := rfl

@[simp] theorem lastVal_single {w : Nat} (p : Pend) (v : BitVec w) : lastVal [p] v = BitVec.ofNat w p.val := rfl

/-- The results of a list for one destination. -/
def forDst (dst : Dst) (ps : List Pend) : List Pend := ps.filter (fun p => decide (p.dst = dst))

section
variable {w : Nat} (regs : Lane → List (BitVec w)) (dst : Dst) (i : Nat)
  (happly : ∀ l p, (regs (l.apply p)).length = (regs l).length ∧
    (regs (l.apply p)).getD i 0 = if p.dst = dst ∧ i < (regs l).length then BitVec.ofNat w p.val else (regs l).getD i 0)
include happly

/-- A register of the lane once results are applied: what those for it leave. -/
theorem Lane.foldl_apply (ps : List Pend) (l : Lane) : (regs (ps.foldl Lane.apply l)).getD i 0 =
    if i < (regs l).length then lastVal (forDst dst ps) ((regs l).getD i 0) else 0 := by
  induction ps generalizing l with
  | nil =>
    split
    · rfl
    · next h => exact List.getD_eq_default _ _ (not_lt.1 h)
  | cons p t ih =>
    obtain ⟨hlen, hget⟩ := happly l p
    rw [List.foldl_cons, ih, hlen, hget]
    by_cases hp : p.dst = dst
    · by_cases hi : i < (regs l).length <;> simp [hp, hi, forDst, lastVal]
    · simp [hp, forDst]

end

/-- The results that are due by issue `k`, earliest first. -/
def Lane.dueBy (l : Lane) (k : Nat) : List Pend := sortBy (fun p => p.due) (l.pend.filter (fun p => decide (p.due ≤ k)))

theorem Lane.apply_d (l : Lane) (p : Pend) (i : Nat) : (l.apply p).d.length = l.d.length ∧
    (l.apply p).d.getD i 0 = if p.dst = .d i ∧ i < l.d.length then BitVec.ofNat 32 p.val else l.d.getD i 0 := by
  unfold Lane.apply
  split
  case h_1 j h => simp only [length_updAt, getD_updAt, h, Dst.d.injEq, and_self]
  all_goals simp_all only [reduceCtorEq, false_and, if_false, and_self]

theorem Lane.apply_a (l : Lane) (p : Pend) (i : Nat) : (l.apply p).a.length = l.a.length ∧
    (l.apply p).a.getD i 0 = if p.dst = .a i ∧ i < l.a.length then BitVec.ofNat 72 p.val else l.a.getD i 0 := by
  unfold Lane.apply
  split
  case h_2 j h => simp only [length_updAt, getD_updAt, h, Dst.a.injEq, and_self]
  all_goals simp_all only [reduceCtorEq, false_and, if_false, and_self]

/-- A D register at issue `k`. -/
theorem Lane.settle_d (l : Lane) (k i : Nat) :
    (l.settle k).d.getD i 0 = if i < l.d.length then lastVal (forDst (.d i) (l.dueBy k)) (l.d.getD i 0) else 0 :=
  Lane.foldl_apply (fun l => l.d) (.d i) i (fun l p => l.apply_d p i) _ _

/-- An accumulator as its readers see it at issue `k`. -/
theorem Lane.settle_a (l : Lane) (k i : Nat) :
    (l.settle k).a.getD i 0 = if i < l.a.length then lastVal (forDst (.a i) (l.dueBy k)) (l.a.getD i 0) else 0 :=
  Lane.foldl_apply (fun l => l.a) (.a i) i (fun l p => l.apply_a p i) _ _

/-! ## A result that collides with none -/

/-- The lane with one more result pending. -/
def Lane.pending (l : Lane) (p : Pend) : Lane := { l with pend := l.pend ++ [p] }

/-- The result that a context's operation makes. -/
def LaneCtx.result (x : LaneCtx) (dst : Dst) (lat val rank : Nat) : Pend := { due := x.k + lat, dst := dst, val := val, iss := x.k, rank := rank }

theorem LaneCtx.res_of_free (x : LaneCtx) (dst : Dst) (lat val rank : Nat) (h : x.ln.free dst (x.k + lat)) :
    x.res dst lat val rank = { x with ln := x.ln.pending (x.result dst lat val rank) } := by
  have hnone : x.ln.pend.find? (fun q => q.due == x.k + lat && decide (q.dst = dst)) = none := by
    rw [List.find?_eq_none]
    intro q hq
    simpa using h q hq
  simp [LaneCtx.res, Lane.push, hnone, Lane.pending, LaneCtx.result]

/-- With no result pending for a register there is none to collide with. -/
theorem Lane.free_of_forall {l : Lane} {dst : Dst} (h : ∀ q ∈ l.pend, q.dst ≠ dst) (due : Nat) : l.free dst due :=
  fun q hq hc => h q hq hc.2

section
variable {l : Lane} {p : Pend} {k : Nat}

theorem Lane.dueBy_pending_of_lt (h : k < p.due) : (l.pending p).dueBy k = l.dueBy k := by
  simp [Lane.dueBy, Lane.pending, h]

theorem Lane.dueBy_pending_of_le (h : p.due ≤ k) : (l.pending p).dueBy k = insBy (fun p => p.due) p (l.dueBy k) := by
  simp [Lane.dueBy, Lane.pending, h, sortBy]

/-- A register with no result pending has none due. -/
theorem forDst_dueBy_eq_nil {dst : Dst} (h : ∀ q ∈ l.pend, q.dst ≠ dst) : forDst dst (l.dueBy k) = [] := by
  rw [forDst, List.filter_eq_nil_iff]
  intro q hq
  rw [Lane.dueBy, mem_sortBy] at hq
  simpa using h q (List.mem_of_mem_filter hq)

/-- Its only result is due from its issue on. -/
theorem forDst_dueBy_pending (h : ∀ q ∈ l.pend, q.dst ≠ p.dst) : forDst p.dst ((l.pending p).dueBy k) = if p.due ≤ k then [p] else [] := by
  split
  · next hle =>
    have hl : ∀ q ∈ l.dueBy k, decide (q.dst = p.dst) = false := by
      intro q hq
      rw [Lane.dueBy, mem_sortBy] at hq
      simpa using h q (List.mem_of_mem_filter hq)
    rw [Lane.dueBy_pending_of_le hle]
    exact filter_insBy_of_true (by simp) hl
  · next hlt => rw [Lane.dueBy_pending_of_lt (not_le.1 hlt), forDst_dueBy_eq_nil h]

/-- Other registers' results are due as without it. -/
theorem forDst_dueBy_pending_ne {dst : Dst} (h : p.dst ≠ dst) : forDst dst ((l.pending p).dueBy k) = forDst dst (l.dueBy k) := by
  by_cases hle : p.due ≤ k
  · rw [Lane.dueBy_pending_of_le hle]
    exact filter_insBy_of_false (by simpa using h) _
  · rw [Lane.dueBy_pending_of_lt (not_le.1 hle)]

end

/-- Settles O7: with no other result for the register the fold of the due results is this one's value, or the old. -/
theorem resultsBecomeVisibleAfterTheirLatency : Obligations.ResultsBecomeVisibleAfterTheirLatency := by
  intro x d lat val rk k hd hq hval y
  have hy : y = { x with ln := x.ln.pending (x.result (.d d) lat val rk) } := x.res_of_free _ _ _ _ (Lane.free_of_forall hq _)
  have hdue : forDst (.d d) (y.ln.dueBy k) = if x.k + lat ≤ k then [x.result (.d d) lat val rk] else [] := by
    rw [hy]
    exact forDst_dueBy_pending (p := x.result (.d d) lat val rk) hq
  have hread := y.ln.settle_d k d
  rw [hdue] at hread
  clear_value y
  subst hy
  refine ⟨rfl, rfl, rfl, rfl, rfl, rfl, rfl, fun hlt => ?_, fun hle => ?_, fun e he => ?_⟩
  · rw [if_neg (not_le.2 hlt)] at hread
    exact hread.trans (if_pos hd)
  · rw [if_pos hle, lastVal_single] at hread
    have hv := congrArg BitVec.toNat (hread.trans (if_pos hd))
    rwa [BitVec.toNat_ofNat, LaneCtx.result, Nat.mod_eq_of_lt hval] at hv
  · rw [Lane.settle_d, Lane.settle_d, forDst_dueBy_pending_ne]
    · rfl
    · simpa [LaneCtx.result] using he.symm

/-! ## Chain operations -/

theorem Lane.push_chain (l : Lane) (p : Pend) : (l.push p).1.chain = l.chain := by
  unfold Lane.push
  split
  · rfl
  · split <;> rfl

theorem LaneCtx.res_chain (x : LaneCtx) (dst : Dst) (lat val rank : Nat) : (x.res dst lat val rank).ln.chain = x.ln.chain := by
  unfold LaneCtx.res
  extract_lets r y
  split <;> exact Lane.push_chain _ _

/-- The first chain operation of an issue combines with the latest chain value. -/
theorem LaneCtx.chain_cur (x : LaneCtx) (a rk : Nat) (f : BitVec 72 → BitVec 72) (ha : a < x.ln.chain.length)
    (hiss : (x.ln.chain.getD a {}).iss ≠ some x.k) :
    (x.chain a rk f).ln.chain.getD a {} =
      { cur := f (x.ln.chain.getD a {}).cur, prev := (x.ln.chain.getD a {}).cur, iss := some x.k, rank := rk } := by
  rw [LaneCtx.chain, LaneCtx.res_chain]
  simp only [getD_updAt, ha, and_self, if_true, if_neg hiss, Chain.base]

/-- With no result pending for the accumulator a chain operation pends its value at latency 3. -/
theorem LaneCtx.chain_eq (x : LaneCtx) (a rk : Nat) (f : BitVec 72 → BitVec 72) (hq : ∀ q ∈ x.ln.pend, q.dst ≠ .a a)
    (hiss : (x.ln.chain.getD a {}).iss ≠ some x.k) : ∃ ch, x.chain a rk f =
      { x with ln := Lane.pending { x.ln with chain := ch } (x.result (.a a) 3 (f (x.ln.chain.getD a {}).cur).toNat rk) } := by
  have hb : (x.ln.chain.getD a {}).base x.k = (x.ln.chain.getD a {}).cur := if_neg hiss
  rw [LaneCtx.chain, hb]
  exact ⟨_, LaneCtx.res_of_free _ _ _ _ _ (Lane.free_of_forall hq _)⟩

/-- Settles O6: the chain value moves at once, its readers' accumulator when the pending result is due. -/
theorem chainForwarding : Obligations.ChainForwarding := by
  intro x a rk rk' f g ha hlc hla hk hk1 hq y v
  have hcur : y.ln.chain.getD a {} = _ := x.chain_cur a rk f (by omega) hk
  obtain ⟨ch, hy⟩ : ∃ ch, y = _ := x.chain_eq a rk f hq hk
  have hlen : y.ln.chain.length = 4 := by
    simp only [y, LaneCtx.chain, LaneCtx.res_chain, length_updAt, hlc]
  have hread : ∀ k, (y.ln.settle k).a.getD a 0 = if x.k + 3 ≤ k then v else x.ln.a.getD a 0 := by
    intro k
    have hdue : forDst (.a a) (y.ln.dueBy k) = if x.k + 3 ≤ k then [x.result (.a a) 3 v.toNat rk] else [] := by
      rw [hy]
      exact forDst_dueBy_pending (p := x.result (.a a) 3 v.toNat rk) hq
    have hla' : a < y.ln.a.length := by
      rw [hy]
      exact hla ▸ ha
    rw [Lane.settle_a, hdue, if_pos hla']
    split
    · simp [LaneCtx.result]
    · rw [hy]
      rfl
  refine ⟨by rw [hy], by rw [hy], by rw [hcur], ?_, ?_, ?_, ?_⟩
  · have hiss : (y.ln.chain.getD a {}).iss ≠ some (x.k + 1) := by
      rw [hcur]
      simp
    rw [LaneCtx.chain_cur _ a rk' g (hlen ▸ ha) hiss]
    simp only [hcur, v]
  · rw [hread, if_neg (by omega)]
  · rw [hread, if_neg (by omega)]
  · rw [hread, if_pos le_rfl]

end Sys2Proof.Machine
/-!
PROOFS. Loads and stores of the lanes (R51, R61, R86 to R90, R98), operations that are not valid (R101), and the issue a lane has reached (R49, R52,
R75).
-/
namespace Sys2Proof.Machine

/-! ## The buses -/

theorem cCheck_of_lt {n ptr : Nat} {wide : Bool} (h : ptr < 32768) (he : wide = true → ptr % 2 = 0) :
    cCheck n ptr wide = .ok (coefBase n + 4 * ptr) := by
  have hno : ¬(ptr ≥ 32768 ∨ (wide = true ∧ ptr % 2 = 1)) := by
    rintro (hge | ⟨hw, hodd⟩)
    · omega
    · have := he hw
      omega
  exact if_neg hno

theorem tCheck_of_lt {n ptr : Nat} {wide : Bool} (h : ptr < 16384) (he : wide = true → ptr % 2 = 0) :
    tCheck n ptr wide = .ok (stateBase n + 4 * ptr) := by
  have hno : ¬(ptr ≥ 16384 ∨ (wide = true ∧ ptr % 2 = 1)) := by
    rintro (hge | ⟨hw, hodd⟩)
    · omega
    · have := he hw
      omega
  exact if_neg hno

section
variable {x : LaneCtx} {ptr : Nat} (hecc : ∀ a, x.dev.eng.ecc2.contains a = false)
include hecc

/-- A word without a double-bit error is read. -/
theorem LaneCtx.readWord_of_clean (a : Nat) : x.readWord a = (x, x.mem.word a) := by simp only [LaneCtx.readWord, hecc, Bool.false_eq_true, if_false]

theorem LaneCtx.readAt_narrow (a : Nat) : x.readAt (.ok a) false = (x, x.mem.word a, 0) := by
  simp only [LaneCtx.readAt, LaneCtx.readWord_of_clean hecc, Bool.false_eq_true, if_false]

theorem LaneCtx.readAt_wide (a : Nat) : x.readAt (.ok a) true = (x, x.mem.word a, x.mem.word (a + 4)) := by
  simp only [LaneCtx.readAt, LaneCtx.readWord_of_clean hecc, if_true]

end

section
variable {x : LaneCtx} (hecc : ∀ a, x.dev.eng.ecc2.contains a = false) {d p : Nat} (hd : d < 16) (hp : p < 8)
include hecc hd hp

/-- LD of coefficient memory, mode 0b00. -/
theorem tLd_coef (hb : x.ln.cBusy = false) (hptr : (x.p p).toNat < 32768) :
    tLd { wide := false, d := d, bus := 1, reg := 0, p := p, mode := 0, imm := 0 } x =
      ({ x with ln := { x.ln with cBusy := true } } : LaneCtx).res (.d d) 2 (x.mem.word (coefBase x.n + 4 * (x.p p).toNat)).toNat rankT := by
  have hok : ldStOk { wide := false, d := d, bus := 1, reg := 0, p := p, mode := 0, imm := 0 } false = true := by simp [ldStOk, hd, hp]
  have hread := LaneCtx.readAt_narrow (x := { x with ln := { x.ln with cBusy := true } }) hecc
  have hchk := cCheck_of_lt (n := x.n) (wide := false) hptr (by simp)
  simp [tLd, hok, LaneCtx.mode, LaneCtx.cRead, hb, hchk, hread, LaneCtx.loadD, LaneCtx.modeAfter]

/-- LD of state memory, mode 0b00. -/
theorem tLd_state (hb : x.ln.trBusy = false) (hptr : (x.p p).toNat < 16384) :
    tLd { wide := false, d := d, bus := 2, reg := 0, p := p, mode := 0, imm := 0 } x =
      ({ x with ln := { x.ln with trBusy := true } } : LaneCtx).res (.d d) 2 (x.mem.word (stateBase x.n + 4 * (x.p p).toNat)).toNat rankT := by
  have hok : ldStOk { wide := false, d := d, bus := 2, reg := 0, p := p, mode := 0, imm := 0 } false = true := by simp [ldStOk, hd, hp]
  have hread := LaneCtx.readAt_narrow (x := { x with ln := { x.ln with trBusy := true } }) hecc
  have hchk := tCheck_of_lt (n := x.n) (wide := false) hptr (by simp)
  simp [tLd, hok, LaneCtx.mode, LaneCtx.tRead, hb, hchk, hread, LaneCtx.loadD, LaneCtx.modeAfter]

end

/-- A result moves no pointer and no modifier that operations of the present issue read. -/
theorem Lane.push_regs (l : Lane) (q : Pend) : (l.push q).1.p = l.p ∧ (l.push q).1.m = l.m := by
  unfold Lane.push
  split
  · exact ⟨rfl, rfl⟩
  · split <;> exact ⟨rfl, rfl⟩

theorem LaneCtx.p_res (x : LaneCtx) (dst : Dst) (lat val rank i : Nat) : (x.res dst lat val rank).p i = x.p i := by
  unfold LaneCtx.res
  extract_lets r y
  have h : r.1.p = x.ln.p := (Lane.push_regs _ _).1
  split <;> exact congrArg (fun l => l.getD i 0) h

theorem LaneCtx.m_res (x : LaneCtx) (dst : Dst) (lat val rank i : Nat) : (x.res dst lat val rank).m i = x.m i := by
  unfold LaneCtx.res
  extract_lets r y
  have h : r.1.m = x.ln.m := (Lane.push_regs _ _).2
  split <;> exact congrArg (fun l => l.getD i 0) h

/-- LDX with its coefficient access alone: the pair, then the pointer modified. -/
theorem tLdx_coef {x : LaneCtx} (hecc : ∀ a, x.dev.eng.ecc2.contains a = false) {p pr md : Nat} (hp : p < 8) (hpr : pr < 8) (hmd : md < 4)
    (hb : x.ln.cBusy = false) (hptr : (x.p p).toNat < 32768) (heven : (x.p p).toNat % 2 = 0) :
    tLdx {} { en := true, pr := pr, ptr := p, md := md } {} false x =
      ((({ x with ln := { x.ln with cBusy := true } } : LaneCtx).res (.d (2 * pr)) 2
        (x.mem.word (coefBase x.n + 4 * (x.p p).toNat)).toNat rankC).res (.d (2 * pr + 1)) 2
        (x.mem.word (coefBase x.n + 4 * (x.p p).toNat + 4)).toNat rankC).res (.p p) 1 (modifyPtr (x.p p) (x.m md)).toNat rankC := by
  have hok : ldxOk {} { en := true, pr := pr, ptr := p, md := md } {} false = true := by simp [ldxOk, hp, hpr, hmd]
  have hread := LaneCtx.readAt_wide (x := { x with ln := { x.ln with cBusy := true } }) hecc
  have hchk := cCheck_of_lt (n := x.n) (wide := true) hptr (fun _ => heven)
  simp only [tLdx, hok, LaneCtx.cRead, hb, hchk, hread, LaneCtx.loadD, LaneCtx.postMod, LaneCtx.p_res, LaneCtx.m_res, Bool.not_true,
    Bool.false_eq_true, if_false, if_true]
  rfl

/-- Settles O9: the check of the pointer gives the lane's own address, and the read its word. -/
theorem laneLoads : Obligations.LaneLoads := by
  intro z i s1 x d p pr md h hd hp hpr hmd ptr c t hecc
  exact ⟨fun hb hptr => h.exec_eq rfl (tLd_coef hecc hd hp hb hptr), fun hb hptr => h.exec_eq rfl (tLd_state hecc hd hp hb hptr),
    fun hb hptr heven => h.exec_eq rfl (tLdx_coef hecc hp hpr hmd hb hptr heven)⟩

/-! ## Stores -/

/-- A T-bus write with the write port free notes its stores for the close of the issue (R51). -/
theorem LaneCtx.tWrite_of_free {x : LaneCtx} (hf : x.ln.tw = none) {ptr : Nat} {wide : Bool} (hptr : ptr < 16384)
    (he : wide = true → ptr % 2 = 0) (w0 w1 : Word) (rank : Nat) : x.tWrite ptr wide w0 w1 rank = { x with
      ln := { x.ln with tw := some rank }
      dev := { x.dev with eng := { x.dev.eng with stores := x.dev.eng.stores ++
        { lane := x.n, addr := stateBase x.n + 4 * ptr, val := w0, sptr := none } ::
          if wide then [{ lane := x.n, addr := stateBase x.n + 4 * ptr + 4, val := w1, sptr := none }] else [] } } } := by
  simp [LaneCtx.tWrite, hf, tCheck_of_lt (n := x.n) hptr he, LaneCtx.storeAt]

/-- Settles O10: the store's checks pass, and it is noted for the close of the issue. -/
theorem laneStores : Obligations.LaneStores := by
  intro z i s1 x d p q h hd hp hq hf hptr a put
  refine ⟨h.exec_eq rfl ?_, fun heven => h.exec_eq rfl ?_⟩
  · have hok : ldStOk { wide := false, d := d, bus := 2, reg := 0, p := p, mode := 0, imm := 0 } true = true := by simp [ldStOk, hd, hp]
    simp [TOp.run, tSt, hok, LaneCtx.mode, LaneCtx.modeAfter, LaneCtx.tWrite_of_free hf (wide := false) hptr, a]
  · simp [TOp.run, tStx, hp, hq, LaneCtx.tWrite_of_free hf (wide := true) hptr (fun _ => heven), a]

/-! ## The lane of an issue -/

/-- Where a lane executes nothing, a command of one of its slots leaves the state as it is. -/
theorem State.lane_of_idle {z : State} {i : Issue} (h : z.sys.laneAt i.lane i.k = (z.sys, none)) {c : Instr} {sl : Slot} {op : TOp}
    (hc : exec c z = z.lane i sl op) : exec c z = .next z := by
  rw [hc]
  simp [State.lane, State.tickRow, State.act, Sys.laneOp, h]

theorem Sys.toIssue_of_le {s : Sys} {k : Nat} (h : k ≤ s.dev.eng.issue) : s.toIssue k = s := if_neg (not_lt.2 h)

/-- A lane that has reached an issue is there. -/
@[simp] theorem Lane.advance_zero (l : Lane) : l.advance 0 = l := rfl

/-- A lane that has ended moves on no further. -/
theorem Lane.advance_of_ended {l : Lane} (h : l.endC.isSome = true) (n : Nat) : l.advance n = l := by
  cases n with
  | zero => rfl
  | succ n => simp [Lane.advance, h]

theorem Sys.laneAt_of_not_runs {s : Sys} {n k : Nat} (h : s.dev.laneRuns n = false) : s.laneAt n k = (s, none) := by
  simp [Sys.laneAt, h]

/-- A lane that is past an issue, short of it or void there executes nothing at it. -/
theorem Sys.laneAt_of_not_reached {s : Sys} {n k : Nat} (hk : s.dev.eng.issue = k)
    (h : let r := (s.dev.eng.lanes.getD n {}).advance (k - (s.dev.eng.lanes.getD n {}).iss); r.iss ≠ k ∨ r.void = true) :
    s.laneAt n k = (s, none) := by
  unfold Sys.laneAt
  rw [Sys.toIssue_of_le hk.ge]
  extract_lets s1 c l r d1 x
  simp only [if_pos (show r.iss ≠ k ∨ r.void = true from h)]
  split
  · rfl
  · split <;> rfl

/-- Settles O13: the cases of `Sys.laneAt`. -/
theorem laneIssuesInOrder : Obligations.LaneIssuesInOrder := by
  intro z i hrun d l
  refine ⟨fun hr hk hiss hv hbad hwin => ⟨hrun, ?_⟩, fun hr sl x y dd s t sat => ?_, fun hr hk hiss hend hwin sl x y dd s t sat => ?_⟩
  · have hadv : l.advance (i.k - l.iss) = l := by rw [hiss, Nat.sub_self, Lane.advance_zero]
    have hrun' : ¬(!z.sys.dev.laneRuns i.lane || decide (i.k < z.sys.dev.eng.issue)) = true := by simp [hr, hk, d]
    have hcyc : ¬windowEnd ≤ i.k + z.sys.dev.eng.stalls := not_le.2 hwin
    have hreach : ¬(l.iss ≠ i.k ∨ l.void = true) := by simp [hiss, hv]
    have hgood : ¬(z.sys.dev.badBundles i.lane).contains l.pc = true := by simp [show z.sys.dev.badBundles i.lane = [] from hbad]
    simp only [Sys.laneAt, if_neg hrun', Sys.toIssue_of_le hk.ge, if_neg hcyc]
    change (if (l.advance (i.k - l.iss)).iss ≠ i.k ∨ _ then _ else _) = _
    rw [hadv, if_neg hreach, if_neg hgood]
  · have hidle := Sys.laneAt_of_not_runs (k := i.k) hr
    exact ⟨State.lane_of_idle hidle rfl, State.lane_of_idle hidle rfl, State.lane_of_idle hidle rfl, State.lane_of_idle hidle rfl,
      State.lane_of_idle hidle rfl⟩
  · have hidle : z.sys.laneAt i.lane i.k = (z.sys, none) := Sys.laneAt_of_not_reached hk (by
      rw [Lane.advance_of_ended hend]
      exact .inl hiss.ne)
    exact ⟨State.lane_of_idle hidle rfl, State.lane_of_idle hidle rfl, State.lane_of_idle hidle rfl, State.lane_of_idle hidle rfl,
      State.lane_of_idle hidle rfl⟩

/-! ## Operations that are not valid -/

/-- Results made visible leave the lane's place. -/
theorem Lane.settle_iss (l : Lane) (k : Nat) : (l.settle k).iss = l.iss := by
  have h : ∀ ps : List Pend, ∀ l : Lane, (ps.foldl Lane.apply l).iss = l.iss := by
    intro ps
    induction ps with
    | nil => exact fun _ => rfl
    | cons p t ih =>
      intro l
      rw [List.foldl_cons, ih, Lane.apply]
      split <;> rfl
  exact h _ _

theorem Sys.toIssue_issue {s : Sys} {k : Nat} (h : s.dev.eng.issue ≤ k) : (s.toIssue k).dev.eng.issue = k := by
  unfold Sys.toIssue
  split
  · rfl
  · omega

/-- The context of a lane that issues: its lane and its issue, which it and the engine have reached. -/
theorem Sys.laneAt_some {s s1 : Sys} {n k : Nat} {x : LaneCtx} (h : s.laneAt n k = (s1, some x)) :
    x.n = n ∧ x.k = k ∧ x.ln.iss = k ∧ x.dev.eng.issue = k := by
  unfold Sys.laneAt at h
  split at h
  · cases h
  · next hr =>
    have hk : s.dev.eng.issue ≤ k := by
      simp only [Bool.or_eq_true, decide_eq_true_eq, not_or, not_lt] at hr
      exact hr.2
    extract_lets s1' c l r d1 x' at h
    have hx : ∀ {u : Sys}, (u, (none : Option LaneCtx)) ≠ (s1, some x) := fun hu => nomatch congrArg Prod.snd hu
    split at h
    · exact absurd h hx
    · split at h
      · exact absurd h hx
      · next hreach =>
        split at h
        · exact absurd h hx
        · have hiss : r.iss = k := not_not.1 (not_or.1 hreach).1
          rw [← Option.some.inj (congrArg Prod.snd h)]
          exact ⟨rfl, rfl, (r.settle_iss k).trans hiss, Sys.toIssue_issue hk⟩

section
variable (x : LaneCtx)

theorem tRep_of_zero (len : Nat) : tRep 0 len x = x.void 3 := by simp [tRep]

theorem tRep_len_zero : tRep 1 0 x = x.void 3 := by simp [tRep]

theorem tLdx_of_none : tLdx {} {} {} false x = x.void 3 := rfl

theorem tGstep_same (gp s : Nat) : tGstep gp gp s x = x.void 3 := by simp [tGstep]

theorem tAadd_same (sl : Slot) (a : Nat) (sub : Bool) : tAadd sl a a sub x = x.void 3 := by simp [tAadd]

theorem tMac_of_disabled (sl : Slot) {f : MacF} (hf : f.en = 0) : tMac sl f x = x.void 3 := by simp [tMac, tMacOp, macOk, hf]

/-- A context put back: its lane in its place. -/
theorem LaneCtx.getD_back_lanes (s : Sys) (h : x.n < x.dev.eng.lanes.length) : (x.back s).dev.eng.lanes.getD x.n {} = x.ln := by
  simp only [LaneCtx.back, getD_updAt, h, and_self, if_true]

end

/-- Settles O12: the check of each fails, and the slots still to come meet a void lane. -/
theorem invalidTilthOperationIsALaneError : Obligations.InvalidTilthOperationIsALaneError := by
  intro z i s1 x gp s a len sl f sub h y t
  obtain ⟨hn, hk, hiss, hissue⟩ := Sys.laneAt_some h.2
  refine ⟨h.exec_eq rfl (tRep_of_zero x len), h.exec_eq rfl (tRep_len_zero x), h.exec_eq rfl (tLdx_of_none x),
    h.exec_eq rfl (tGstep_same x gp s), h.exec_eq rfl (tAadd_same x sl a sub), fun hf => h.exec_eq rfl (tMac_of_disabled x sl hf),
    rfl, rfl, rfl, rfl, rfl, rfl, rfl, rfl, rfl, rfl, fun hlen dd ss tt sat => ?_⟩
  have heng : y.dev.eng.issue = x.dev.eng.issue ∧ y.dev.eng.lanes = x.dev.eng.lanes := by simp [y, LaneCtx.void, LaneCtx.err]
  have hlane : t.sys.dev.eng.lanes.getD i.lane {} = y.ln := by
    have hyn : y.n = i.lane := hn
    rw [← hyn]
    exact LaneCtx.getD_back_lanes y s1 (by rwa [heng.2, hyn])
  have hidle : t.sys.laneAt i.lane i.k = (t.sys, none) := Sys.laneAt_of_not_reached (heng.1.trans hissue) (by
    have hyiss : y.ln.iss = i.k := hiss
    rw [hlane, hyiss, Nat.sub_self, Lane.advance_zero]
    exact .inr rfl)
  exact ⟨State.lane_of_idle hidle rfl, State.lane_of_idle hidle rfl, State.lane_of_idle hidle rfl⟩

end Sys2Proof.Machine

/-!
PROOFS. The state after a cold reset (R421).
-/
namespace Sys2Proof.Machine

/-- An entry of a list of equal items, past its end too. -/
theorem getD_replicate_self {α : Type} (n i : Nat) (x : α) : (List.replicate n x).getD i x = x := by
  rw [List.getD_eq_getElem?_getD, List.getElem?_replicate]
  split <;> rfl

/-- Settles O17: with no register written each reads its reset value. -/
theorem resetState : Obligations.ResetState := by
  have hlane : ∀ n, State.reset.sys.dev.eng.lanes.getD n {} = {} := fun n => getD_replicate_self 48 n ({} : Lane)
  refine ⟨rfl, rfl, rfl, rfl, rfl, fun off => ⟨rfl, rfl, rfl⟩, fun n k => ?_, rfl, rfl, by decide, by decide⟩
  rw [hlane]
  exact getD_replicate_self 16 k 0

end Sys2Proof.Machine
/-!
PROOFS. Bits of numbers, and fields merged under a mask (R7).
-/
namespace Sys2Proof.Machine

/-- Numbers without a common bit add bit by bit. -/
theorem add_eq_or_of_and_eq_zero (a b : Nat) (h : a &&& b = 0) : a + b = a ||| b := by
  obtain ⟨w, ha, hb⟩ : ∃ w, a < 2 ^ w ∧ b < 2 ^ w := ⟨max a b, Nat.lt_two_pow_self.trans_le (Nat.pow_le_pow_right two_pos (le_max_left a b)),
    Nat.lt_two_pow_self.trans_le (Nat.pow_le_pow_right two_pos (le_max_right a b))⟩
  have hw : 2 ^ (w + 1) = 2 ^ w + 2 ^ w := by omega
  have hx : BitVec.ofNat (w + 1) a &&& BitVec.ofNat (w + 1) b = 0#(w + 1) := by
    rw [← BitVec.ofNat_and, h]
  have hadd := congrArg BitVec.toNat (BitVec.add_eq_or_of_and_eq_zero _ _ hx)
  rw [BitVec.toNat_add, BitVec.toNat_or, BitVec.toNat_ofNat, BitVec.toNat_ofNat, Nat.mod_eq_of_lt (by omega : a < _),
    Nat.mod_eq_of_lt (by omega : b < _), Nat.mod_eq_of_lt (by omega)] at hadd
  exact hadd

/-- A number without the bits of a mask. -/
theorem sub_and_eq_xor (a m : Nat) : a - (a &&& m) = a ^^^ (a &&& m) := by
  have hdis : (a ^^^ (a &&& m)) &&& (a &&& m) = 0 := Nat.eq_of_testBit_eq (fun i => by
    cases ha : a.testBit i <;> cases hm : m.testBit i <;> simp [ha, hm])
  have hor : (a ^^^ (a &&& m)) ||| (a &&& m) = a := Nat.eq_of_testBit_eq (fun i => by
    cases ha : a.testBit i <;> cases hm : m.testBit i <;> simp [ha, hm])
  have hadd := add_eq_or_of_and_eq_zero _ _ hdis
  omega

theorem testBit_sub_and (a m i : Nat) : (a - (a &&& m)).testBit i = (a.testBit i && !m.testBit i) := by
  rw [sub_and_eq_xor]
  cases ha : a.testBit i <;> simp [ha]

theorem mergeBits_eq_or (o m v : Nat) : mergeBits o m v = (o - (o &&& m)) ||| (v &&& m) :=
  add_eq_or_of_and_eq_zero _ _ (Nat.eq_of_testBit_eq (fun i => by
    cases hm : m.testBit i <;> simp [testBit_sub_and, hm]))

/-- Merged under a mask: the new value's bits inside it, the old value's outside. -/
theorem testBit_mergeBits (o m v i : Nat) : (mergeBits o m v).testBit i = if m.testBit i then v.testBit i else o.testBit i := by
  rw [mergeBits_eq_or, Nat.testBit_or, testBit_sub_and, Nat.testBit_and]
  cases hm : m.testBit i <;> simp

/-- Inside the mask a merged value has the new bits. -/
theorem mergeBits_and_of_subset {o m v k : Nat} (hk : k &&& m = k) : mergeBits o m v &&& k = v &&& k :=
  Nat.eq_of_testBit_eq (fun i => by
    have hi : (k.testBit i && m.testBit i) = k.testBit i := by rw [← Nat.testBit_and, hk]
    rw [Nat.testBit_and, Nat.testBit_and, testBit_mergeBits]
    cases hb : k.testBit i
    · simp
    · simp_all)

@[simp] theorem mergeBits_zero (o v : Nat) : mergeBits o 0 v = o := by simp [mergeBits]

/-- A value that fits the mask's width, under a full mask. -/
theorem mergeBits_full {o v w : Nat} (ho : o < 2 ^ w) (hv : v < 2 ^ w) : mergeBits o (2 ^ w - 1) v = v := by
  simp [mergeBits, Nat.and_two_pow_sub_one_eq_mod, Nat.mod_eq_of_lt ho, Nat.mod_eq_of_lt hv]

theorem mergeBits_lt {o m v w : Nat} (ho : o < 2 ^ w) (hm : m < 2 ^ w) : mergeBits o m v < 2 ^ w :=
  mergeBits_eq_or o m v ▸ Nat.or_lt_two_pow ((Nat.sub_le _ _).trans_lt ho) (Nat.and_lt_two_pow v hm)

/-- Bit `i` as the model reads it. -/
theorem bit_eq_testBit (v i : Nat) : bit v i = v.testBit i := by
  simp [bit, Nat.testBit_eq_decide_div_mod_eq, beq_eq_decide]

end Sys2Proof.Machine
/-!
PROOFS. The bounds of the register table, and the boundary with the changes that it takes live (R15, R35).
-/
namespace Sys2Proof.Machine

/-! ## Registers are 32 bits wide -/

/-- The masks and the reset value of a row fit a register. -/
def RegRow.fits (r : RegRow) : Prop :=
  r.reset < 2 ^ 32 ∧ r.rw < 2 ^ 32 ∧ r.w1c < 2 ^ 32 ∧ r.ws < 2 ^ 32 ∧ r.wo < 2 ^ 32 ∧ r.tick < 2 ^ 32 ∧ r.commit < 2 ^ 32 ∧ r.crit < 2 ^ 32

theorem regRows_fit : ∀ b, b < 31 → ∀ r ∈ regRows b, r.fits := by
  unfold RegRow.fits
  decide

theorem regRows_eq_nil {b : Nat} (hb : 31 ≤ b) : regRows b = [] := by
  unfold regRows
  split
  case h_32 => rfl
  all_goals omega

theorem mem_of_findRow {l : List RegRow} {x : Nat} {r : RegRow} (h : findRow l x = some r) : r ∈ l := by
  induction l with
  | nil => cases h
  | cons q t ih =>
    unfold findRow at h
    split at h
    · cases h
      exact List.mem_cons_self
    · exact List.mem_cons_of_mem _ (ih h)

/-- A register's row is one of its block's, which is a block of the map. -/
theorem mem_of_rowAt {off : Nat} {r : RegRow} (h : rowAt off = some r) : off / 0x10000 < 31 ∧ r ∈ regRows (off / 0x10000) := by
  have hm := mem_of_findRow h
  refine ⟨?_, hm⟩
  by_contra hb
  rw [regRows_eq_nil (not_lt.1 hb)] at hm
  cases hm

theorem fits_of_rowAt {off : Nat} {r : RegRow} (h : rowAt off = some r) : r.fits :=
  regRows_fit _ (mem_of_rowAt h).1 r (mem_of_rowAt h).2

theorem resetVal_lt (off : Nat) : resetVal off < 2 ^ 32 := by
  unfold resetVal
  split
  · next r h => exact (fits_of_rowAt h).1
  · decide

theorem Dev.reg_lt (d : Dev) (off : Nat) : d.reg off < 2 ^ 32 := by
  unfold Dev.reg
  split
  · exact BitVec.isLt _
  · exact resetVal_lt off

theorem Dev.lv_lt (d : Dev) (off : Nat) : d.lv off < 2 ^ 32 := by
  unfold Dev.lv
  split
  · exact BitVec.isLt _
  · exact d.reg_lt off

@[simp] theorem Dev.reg_mod (d : Dev) (off : Nat) : d.reg off % 2 ^ 32 = d.reg off := Nat.mod_eq_of_lt (d.reg_lt off)

@[simp] theorem Dev.lv_mod (d : Dev) (off : Nat) : d.lv off % 2 ^ 32 = d.lv off := Nat.mod_eq_of_lt (d.lv_lt off)

/-! ## Changes that go live -/

/-- Registers and the changes that wait are the same. -/
def Dev.sameRegs (d e : Dev) : Prop := e.regs = d.regs ∧ e.live = d.live ∧ e.pendTick = d.pendTick

theorem Dev.sameRegs.reg {d e : Dev} (h : d.sameRegs e) (off : Nat) : e.reg off = d.reg off := by
  unfold Dev.reg
  rw [h.1]

theorem Dev.sameRegs.lv {d e : Dev} (h : d.sameRegs e) (off : Nat) : e.lv off = d.lv off := by
  unfold Dev.lv
  rw [h.2.1, h.reg off]

/-- A change without bits that set does nothing to registers when it acts, unless it is STEPACC's or a force of ENG. -/
theorem Dev.pendActs_sameRegs (d : Dev) (p : PendWr) (hs : p.sets = 0) (h1 : p.off ≠ R.timeStepacc) (h2 : p.off ≠ R.engForce) :
    d.sameRegs (d.pendActs p) := by
  unfold Dev.pendActs
  simp only [hs, if_neg h1, if_neg h2]
  split
  · exact ⟨rfl, rfl, rfl⟩
  · split
    · exact ⟨rfl, rfl, rfl⟩
    · simp [bit, Dev.sameRegs]

theorem Dev.pendLive_eq (d : Dev) {p : PendWr} {r : RegRow} (h : rowAt p.off = some r) :
    d.pendLive p = d.setBoth p.off (d.reg p.off) (mergeBits (d.lv p.off) (p.mask &&& r.rw) p.val) := by
  simp [Dev.pendLive, h]

/-- A lone change that is due goes live, and acts. -/
theorem Dev.tickApply_single (d : Dev) (p : PendWr) (t : Nat) (hp : d.pendTick = [p]) (hdue : p.due ≤ t) :
    (d.tickApply t).1 = (({ d with pendTick := [] } : Dev).pendLive p).pendActs p := by
  simp [Dev.tickApply, Dev.pendTake, hp, hdue, not_lt.2 hdue, each]

/-- Settles O22: the order is that of the boundary's definition; a lone change without bits that set leaves the registers as it made them. -/
theorem tickBoundary : Obligations.TickBoundary := by
  refine ⟨fun z i hrun => ?_, fun d h => ?_, fun d t p hp => ?_, fun d p r t hp hdue hrow hs h1 h2 => ?_⟩
  · obtain ⟨hrst, htick⟩ := hrun
    have hrow : exec (.tickBoundary i) z = z.tickRow (fun s => (s.tickBoundary i).replayBegin) := rfl
    rw [hrow]
    simp only [State.tickRow, State.act, State.put, hrst, htick, Sys.tickBoundary, Bool.not_true, Bool.or_false, Bool.false_eq_true, if_false]
  · simp [Dev.tickNext, h]
  · simpa using (List.mem_filter.1 hp).2
  · let e : Dev := { d with pendTick := [] }
    have hreg : ∀ off, e.reg off = d.reg off := fun _ => rfl
    have hlv : ∀ off, e.lv off = d.lv off := fun _ => rfl
    have hsame := (e.pendLive p).pendActs_sameRegs p hs h1 h2
    rw [d.tickApply_single p t hp hdue]
    change ((e.pendLive p).pendActs p).pendTick = [] ∧ _
    rw [e.pendLive_eq hrow] at hsame ⊢
    refine ⟨hsame.2.2, ?_, ?_, fun off hne => ⟨?_, ?_⟩⟩
    · rw [hsame.lv, Dev.lv_setBoth, hlv]
    · rw [hsame.reg, Dev.reg_setBoth, Dev.reg_mod, hreg]
    · rw [hsame.lv, Dev.lv_setBoth_ne _ _ _ _ _ hne, hlv]
    · rw [hsame.reg, Dev.reg_setBoth_ne _ _ _ _ _ hne, hreg]

end Sys2Proof.Machine

/-!
PROOFS. Commanded writes of TICK-class registers (R35, R41, R339): they wait for the next boundary.
-/
namespace Sys2Proof.Machine

/-! ## A command's write of one register -/

section
variable {s : Sys} {off mask data : Nat} {r : RegRow} (hrow : rowAt off = some r) (hr : s.dev.cmdReady) (hrst : off ≠ R.pwrRst)
  (hcom : off ≠ R.commit (off / 0x10000)) (hstop : r.stop = 0) (hc : r.commit = 0)
include hrow hr hrst hcom hstop hc

/-- A command's write of a register without STOP or COMMIT fields is admitted and not refused for a running block or a pending group (R38, R41). -/
theorem cmdWrite_admitted : ¬(off = R.pwrRst ∨ s.dev.role ≠ .active ∨ (!s.dev.bootOver) = true ∨ (!s.dev.ticking) = true) ∧
    (s.dev.atC 10048).immRefusal [{ off := off, mask := mask, data := data }] = (s.dev.atC 10048, none) := by
  obtain ⟨_, hrole, hboot, htick⟩ := hr
  exact ⟨by simp [hrst, hrole, hboot, htick], by simp [Dev.immRefusal, hrow, hstop, hc, hcom, List.range_succ]⟩

/-- It writes, unless a unit of a pair would sleep (R414). -/
theorem cmdWrite_of_pass (hon : s.dev.blockOn (off / 0x10000) = true) :
    s.cmdWrite off mask data = if s.dev.paired && (off == R.pwrSleep && bit (data &&& mask) 0) then { s with dev := s.dev.atC 10048 }
      else { s with dev := (s.dev.atC 10048).regWrite (.immediate (s.dev.tick + 1)) off data mask } := by
  obtain ⟨hgo, himm⟩ := cmdWrite_admitted (mask := mask) (data := data) hrow hr hrst hcom hstop hc
  have hdom : (s.dev.atC 10048).domainOff (.writes [{ off := off, mask := mask, data := data }]) = none := by
    have : (s.dev.atC 10048).blockOn (off / 0x10000) = true := hon
    simp [Dev.domainOff, List.range_succ, this]
  have hsleep : ((s.dev.atC 10048).sleepPaired (.writes [{ off := off, mask := mask, data := data }])).isSome =
      (s.dev.paired && (off == R.pwrSleep && bit (data &&& mask) 0)) := by
    have hp : (s.dev.atC 10048).paired = s.dev.paired := rfl
    unfold Dev.sleepPaired
    cases hpd : s.dev.paired
    · simp [hp, hpd]
    · cases hb : (off == R.pwrSleep && bit (data &&& mask) 0) <;> simp_all [List.range_succ]
  have hw : (s.dev.atC 10048).cmdWrites (.immediate (s.dev.tick + 1)) (s.dev.tick + 1) [{ off := off, mask := mask, data := data }] =
      (s.dev.atC 10048).regWrite (.immediate (s.dev.tick + 1)) off data mask := by
    simp [Dev.cmdWrites, hcom]
  unfold Sys.cmdWrite
  rw [if_neg hgo]
  simp only [himm, hdom, hsleep, Option.isSome_none, Bool.false_or, Bool.or_false, Dev.atC_tick, hw]

end

/-! ## A register of the TICK class -/

/-- A register's value stored, its value in use kept, and a change left for a boundary. -/
def Dev.waiting (d : Dev) (off v : Nat) (p : PendWr) : Dev := { d.setBoth off v (d.lv off) with pendTick := d.pendTick ++ [p] }

theorem Dev.waiting_leaves (d : Dev) (c off v : Nat) (p : PendWr) : let e := (d.atC c).waiting off v p
    d.regsOnly e ∧ e.lv off = d.lv off ∧ e.reg off = v % 2 ^ 32 ∧ d.keeps e [off] ∧ e.pendTick = d.pendTick ++ [p] := by
  refine ⟨rfl, (Dev.lv_setBoth d off v (d.lv off)).trans (d.lv_mod _), Dev.reg_setBoth d off v (d.lv off), fun o ho => ?_, rfl⟩
  have hne : o ≠ off := by simpa using ho
  exact ⟨Dev.reg_setBoth_ne d off o v (d.lv off) hne, Dev.lv_setBoth_ne d off o v (d.lv off) hne⟩

theorem or_and_self_right (a m : Nat) : (a ||| m) &&& m = m := Nat.eq_of_testBit_eq (fun i => by
  cases hm : m.testBit i <;> simp [hm])

theorem or_and_and_self (m a b : Nat) : (a ||| b) &&& m &&& a = m &&& a := Nat.eq_of_testBit_eq (fun i => by
  cases ha : a.testBit i <;> simp [ha])

/-- A register whose writable bits all take effect at a boundary, and which no rule of its own treats (R35). -/
structure Waits (off : Nat) (r : RegRow) : Prop where
  row : rowAt off = some r
  notRst : off ≠ R.pwrRst
  notStepacc : isStepacc off = false
  notFlt : ¬((faultSrcs (off / 0x10000)).length ≠ 0 ∧ off = R.fltstat (off / 0x10000))
  notInc : off ≠ R.timeInc
  notCommit : off ≠ R.commit (off / 0x10000)
  notRate : off ≠ R.evtRate
  w1c : r.w1c = 0
  wo : r.wo = 0
  frame : r.frame = 0
  commit : r.commit = 0
  stop : r.stop = 0
  rw : r.rw &&& r.tick = r.rw
  ws : r.ws &&& r.tick = r.ws
  stored : ∀ (d : Dev) (wm v : Nat), d.storedV off wm v = v
  side : ∀ (d : Dev) (data : Nat), d.writeSide off data = d

namespace Waits
variable {off : Nat} {r : RegRow} (h : Waits off r) (d : Dev) (data mask : Nat)
include h

theorem writable : r.writable = r.rw ||| r.ws := by simp [RegRow.writable, h.w1c, h.wo]

/-- The bits that wait: those of the RW fields under the mask, and the written ones of the fields that set. -/
theorem due_bits (m : Nat) : ((m &&& (r.rw ||| r.wo)) &&& r.tick) ||| (m &&& r.ws &&& r.tick &&& data) = (m &&& r.rw) ||| (m &&& r.ws &&& data) := by
  rw [h.wo, Nat.or_zero, Nat.and_assoc m r.rw, h.rw, Nat.and_assoc m r.ws, h.ws]

/-- What is stored of a write, and what waits: nothing is in use before the boundary. -/
theorem regStore_eq (w : WSrc) (m : Nat) (hm : (m &&& r.rw) ||| (m &&& r.ws &&& data) ≠ 0) :
    d.regStore w r off data m =
      let v := mergeBits (d.reg off) (m &&& r.rw) data
      d.waiting off v
        { off := off, mask := (m &&& r.rw) ||| (m &&& r.ws &&& data), val := v ||| (m &&& r.ws &&& data), due := d.dueOf w } := by
  unfold Dev.regStore
  extract_lets plain v w1 late now u d1 tk d2 fr cmdT f d3 v'
  have hplain : plain = m &&& r.rw := by rw [show plain = m &&& (r.rw ||| r.wo) from rfl, h.wo, Nat.or_zero]
  have hv : v = v' := by rw [show v = _ from h.stored _ _ _, hplain]
  have hw1 : w1 = 0 := by simp [w1, h.w1c]
  have hnow : now = 0 := by
    have : plain &&& late = plain := by rw [hplain, show late = r.tick ||| r.frame ||| r.commit from rfl, h.frame, h.commit, Nat.or_zero, Nat.or_zero,
      Nat.and_assoc, h.rw]
    rw [show now = plain - (plain &&& late) from rfl, this, Nat.sub_self]
  have hu : u = d.lv off := by rw [show u = mergeBits (d.lv off) now v from rfl, hnow, mergeBits_zero]
  have htk : tk = (m &&& r.rw) ||| (m &&& r.ws &&& data) := h.due_bits data m
  have hfr : fr = 0 := by rw [show fr = plain &&& r.frame from rfl, h.frame, Nat.and_zero]
  have hd3 : d3 = d2 := if_pos hfr
  have hd1 : d1 = d.setBoth off v' (d.lv off) := by
    rw [show d1 = d.setBoth off (v - (v &&& w1)) (u - (u &&& w1)) from rfl, hw1, hu, hv, Nat.and_zero, Nat.and_zero]
    rfl
  have hd2 : d2 = { d1 with pendTick := d1.pendTick ++
      [{ off := off, mask := tk, val := v ||| (m &&& r.ws &&& data), due := d.dueOf w }] } := if_neg (htk ▸ hm)
  rw [h.side, hd3, hd2, hd1, htk, hv]
  rfl

/-- The bits that such a write brings are among those it may write. -/
theorem writable_and_ne_zero (hm : (mask &&& r.rw) ||| (mask &&& r.ws &&& data) ≠ 0) : r.writable &&& mask ≠ 0 := by
  intro h0
  rw [h.writable, Nat.and_comm, Nat.and_or_distrib_left, Nat.or_eq_zero_iff] at h0
  simp [h0.1, h0.2] at hm

/-- A write by a command of such a register, its block being on. -/
theorem regWrite_eq (t : Nat) (hon : d.blockOn (off / 0x10000) = true) (hm : (mask &&& r.rw) ||| (mask &&& r.ws &&& data) ≠ 0) :
    d.regWrite (.immediate t) off data mask = d.regStore (.immediate t) r off data (r.writable &&& mask) := by
  have hwm := h.writable_and_ne_zero data mask hm
  have hdir : (WSrc.immediate t == WSrc.direct) = false := rfl
  have hrate : d.rateSettle off = d := if_pos h.notRate
  have hcom : ¬(hasCommon (off / 0x10000) = true ∧ off = R.commit (off / 0x10000)) := fun hc => h.notCommit hc.2
  simp only [Dev.regWrite, h.row, hon, h.notStepacc, hdir, if_neg hwm, if_neg h.notFlt, if_neg h.notInc, if_neg hcom, h.stop, h.commit, hrate,
    Nat.and_zero, Nat.zero_and, Nat.sub_zero, Bool.false_and, Bool.not_true, Bool.false_eq_true, if_false, if_true, bne_self_eq_false]

/-- A command's write of such a register passes the checks of CMD and is done (R38, R339). -/
theorem cmdWrite_eq (s : Sys) (hr : s.dev.cmdReady) (hon : s.dev.blockOn (off / 0x10000) = true)
    (hsl : s.dev.paired = true → off ≠ R.pwrSleep) (hm : (mask &&& r.rw) ||| (mask &&& r.ws &&& data) ≠ 0) :
    s.cmdWrite off mask data = { s with dev := (s.dev.atC 10048).regStore (.immediate (s.dev.tick + 1)) r off data (r.writable &&& mask) } := by
  have hno : (s.dev.paired && (off == R.pwrSleep && bit (data &&& mask) 0)) = false := by
    cases hp : s.dev.paired
    · rfl
    · simp [hsl hp]
  rw [cmdWrite_of_pass h.row hr h.notRst h.notCommit h.stop h.commit hon, hno]
  exact congrArg (fun e => ({ s with dev := e } : Sys)) (h.regWrite_eq (s.dev.atC 10048) data mask _ hon hm)

/-- What a command's write of such a register leaves (R41). -/
theorem cmdWrite_waiting (s : Sys) (hr : s.dev.cmdReady) (hon : s.dev.blockOn (off / 0x10000) = true)
    (hsl : s.dev.paired = true → off ≠ R.pwrSleep) (hm : (mask &&& r.rw) ||| (mask &&& r.ws &&& data) ≠ 0) :
    let v := mergeBits (s.dev.reg off) (mask &&& r.rw) data
    let p : PendWr :=
      { off := off, mask := (mask &&& r.rw) ||| (mask &&& r.ws &&& data), val := v ||| (mask &&& r.ws &&& data), due := s.dev.tick + 1 }
    s.cmdWrite off mask data = { s with dev := (s.dev.atC 10048).waiting off v p } := by
  have hrw : r.writable &&& mask &&& r.rw = mask &&& r.rw := by rw [h.writable, or_and_and_self]
  have hws : r.writable &&& mask &&& r.ws = mask &&& r.ws := by rw [h.writable, Nat.or_comm, or_and_and_self]
  rw [h.cmdWrite_eq data mask s hr hon hsl hm, h.regStore_eq _ _ _ _ (by rwa [hrw, hws]), hrw, hws]
  rfl

end Waits

/-- A row of a register write by a command. -/
theorem exec_regOp_cmd {z : State} {c : Instr} {v : RegVia} {off mask data : Nat} (hc : exec c z = z.runRow (fun s => s.regOp v off mask data))
    (hv : v.cmd = true) (hr : z.sys.dev.cmdReady) : exec c z = .next (z.put (z.sys.cmdWrite off mask data)) := by
  rw [hc]
  simp [State.runRow, State.act, State.put, hr.1, Sys.regOp, hv]

/-- A register of the TICK class with these RW bits and these bits that set. -/
def WaitsWith (off rw ws : Nat) : Prop := ∃ r, Waits off r ∧ r.rw = rw ∧ r.ws = ws

/-- A row of the table of the TICK class. -/
theorem WaitsWith.of {off rw ws : Nat} {r : RegRow} (hrow : rowAt off = some r)
    (hd : (off ≠ R.pwrRst ∧ isStepacc off = false ∧ ¬((faultSrcs (off / 0x10000)).length ≠ 0 ∧ off = R.fltstat (off / 0x10000)) ∧ off ≠ R.timeInc ∧
      off ≠ R.commit (off / 0x10000) ∧ off ≠ R.evtRate) ∧ (r.w1c = 0 ∧ r.wo = 0 ∧ r.frame = 0 ∧ r.commit = 0 ∧ r.stop = 0 ∧
      r.rw &&& r.tick = r.rw ∧ r.ws &&& r.tick = r.ws) ∧ r.rw = rw ∧ r.ws = ws)
    (hstored : ∀ (d : Dev) (wm v : Nat), d.storedV off wm v = v) (hside : ∀ (d : Dev) (data : Nat), d.writeSide off data = d) : WaitsWith off rw ws := by
  obtain ⟨⟨h1, h2, h3, h4, h5, h6⟩, ⟨k1, k2, k3, k4, k5, k6, k7⟩, hrw, hws⟩ := hd
  exact ⟨r, ⟨hrow, h1, h2, h3, h4, h5, h6, k1, k2, k3, k4, k5, k6, k7, hstored, hside⟩, hrw, hws⟩

theorem waits_engForce : WaitsWith R.engForce 0 7 := .of rfl (by decide) (fun _ _ _ => rfl) (fun _ _ => rfl)

theorem waits_clkForce : WaitsWith R.clkForce 15 0 := .of rfl (by decide) (fun _ _ _ => rfl) (fun _ _ => rfl)

theorem waits_pairForce : WaitsWith R.pairForce 1 6 := .of rfl (by decide) (fun _ _ _ => rfl) (fun _ _ => rfl)

theorem waits_snsForce : WaitsWith R.snsForce 0xFFFFFF 0 := .of rfl (by decide) (fun _ _ _ => rfl) (fun _ _ => rfl)

theorem waits_ddrForce : WaitsWith R.ddrForce 241 0 := .of rfl (by decide) (fun _ _ _ => rfl) (fun _ _ => rfl)

theorem waits_bbxFault : WaitsWith R.bbxFault 0 256 := .of rfl (by decide) (fun _ _ _ => rfl) (fun _ _ => rfl)

theorem waits_pwrTherm : WaitsWith R.pwrTherm 0 256 := .of rfl (by decide) (fun _ _ _ => rfl) (fun _ _ => rfl)

theorem waits_pwrSleep : WaitsWith R.pwrSleep 0 1 := .of rfl (by decide) (fun _ _ _ => rfl) (fun _ _ => rfl)

theorem waits_pwrDomctl : WaitsWith R.pwrDomctl 1720 0 := .of rfl (by decide) (fun _ _ _ => rfl) (fun _ _ => rfl)

theorem waits_modForce0 : WaitsWith R.modForce0 0xFFFFFFFF 0 := .of rfl (by decide) (fun _ _ _ => rfl) (fun _ _ => rfl)

theorem waits_modForce1 : WaitsWith R.modForce1 0xFFFF 0 := .of rfl (by decide) (fun _ _ _ => rfl) (fun _ _ => rfl)

theorem waits_modClear0 : WaitsWith R.modClear0 0 0xFFFFFFFF := .of rfl (by decide) (fun _ _ _ => rfl) (fun _ _ => rfl)

theorem waits_modClear1 : WaitsWith R.modClear1 0 0xFFFF := .of rfl (by decide) (fun _ _ _ => rfl) (fun _ _ => rfl)

theorem waits_macForce {p : Nat} (hp : p < 2) : WaitsWith (R.macForce (macBlk p)) 1 0 := by
  match p, hp with
  | 0, _ => exact .of rfl (by decide) (fun _ _ _ => rfl) (fun _ _ => rfl)
  | 1, _ => exact .of rfl (by decide) (fun _ _ _ => rfl) (fun _ _ => rfl)

/-- What a command's write that waits leaves: its change, its mask and its bits, with nothing else but the register's stored value. -/
def State.waitsFor (z : State) (r : Res) (off mask bits : Nat) : Prop :=
  ∃ t, r = .next t ∧ z.outside t ∧ z.sys.dev.regsOnly t.sys.dev ∧ z.sys.dev.pends t.sys.dev off mask bits ∧ z.sys.dev.keeps t.sys.dev [off] ∧
    t.sys.dev.lv off = z.sys.dev.lv off

/-- A device with a change left waiting is what such a write leaves. -/
theorem State.waitsFor_of_waiting {z : State} {r : Res} {s : Sys} {off v mask val bits : Nat} (h : r = .next (z.put s))
    (hs : s = { z.sys with dev := (z.sys.dev.atC 10048).waiting off v { off := off, mask := mask, val := val, due := z.sys.dev.tick + 1 } })
    (hval : val &&& mask = bits) : z.waitsFor r off mask bits := by
  obtain ⟨hregs, hlv, -, hkeep, hpend⟩ := z.sys.dev.waiting_leaves 10048 off v { off := off, mask := mask, val := val, due := z.sys.dev.tick + 1 }
  rw [hs] at h
  exact ⟨_, h, ⟨rfl, rfl, rfl⟩, hregs, ⟨_, hpend, rfl, rfl, rfl, hval⟩, hkeep, hlv⟩

section
variable {z : State} {c : Instr} {v : RegVia} {off mask data rw ws m bits : Nat} (h : WaitsWith off rw ws)
  (hc : exec c z = z.runRow (fun s => s.regOp v off mask data)) (hv : v.cmd = true) (hr : z.sys.dev.cmdReady)
  (hon : z.sys.dev.blockOn (off / 0x10000) = true) (hsl : z.sys.dev.paired = true → off ≠ R.pwrSleep)
include h hc hv hr hon hsl

/-- A command's write of RW fields waits with the bits it brings. -/
theorem waitsFor_of_rw (hm : mask &&& rw = m) (hm0 : m ≠ 0) (hws : mask &&& ws &&& data = 0) (hb : data &&& m = bits) :
    z.waitsFor (exec c z) off m bits := by
  obtain ⟨r, h, rfl, rfl⟩ := h
  have hw := h.cmdWrite_waiting data mask z.sys hr hon hsl (by rwa [hm, hws, Nat.or_zero])
  simp only [hm, hws, Nat.or_zero] at hw
  exact State.waitsFor_of_waiting (exec_regOp_cmd hc hv hr) hw ((mergeBits_and_of_subset (Nat.and_self m)).trans hb)

/-- A command's write of fields that set waits with the bits that it sets. -/
theorem waitsFor_of_ws (hm : mask &&& ws &&& data = m) (hm0 : m ≠ 0) (hrw : mask &&& rw = 0) : z.waitsFor (exec c z) off m m := by
  obtain ⟨r, h, rfl, rfl⟩ := h
  have hw := h.cmdWrite_waiting data mask z.sys hr hon hsl (by rwa [hm, hrw, Nat.zero_or])
  simp only [hm, hrw, Nat.zero_or, mergeBits_zero] at hw
  exact State.waitsFor_of_waiting (exec_regOp_cmd hc hv hr) hw (or_and_self_right _ m)

end

/-! ## The obligation -/

theorem full_and {v w : Nat} (h : v < 2 ^ w) : (2 ^ w - 1) &&& v = v := by
  rw [Nat.and_comm, Nat.and_two_pow_sub_one_of_lt_two_pow h]

/-- STEPACC is cleared at the boundary into the next tick (R181). -/
theorem regWrite_stepacc (d : Dev) (t data mask : Nat) (hon : d.blockOn (R.timeStepacc / 0x10000) = true) :
    d.regWrite (.immediate t) R.timeStepacc data mask =
      { d with pendTick := d.pendTick ++ [{ off := R.timeStepacc, mask := 0, val := 0, due := t }] } := by
  obtain ⟨r, hrow⟩ : ∃ r, rowAt R.timeStepacc = some r := ⟨_, rfl⟩
  have hacc : isStepacc R.timeStepacc = true := by decide
  have hdir : (WSrc.immediate t == WSrc.direct) = false := rfl
  simp only [Dev.regWrite, hrow, hon, hacc, hdir, Bool.not_true, Bool.false_eq_true, if_false, if_true]
  rfl

/-- A unit of a pair does not sleep (R414). -/
theorem cmdWrite_sleep_paired (s : Sys) (hr : s.dev.cmdReady) (hp : s.dev.paired = true) :
    s.cmdWrite R.pwrSleep 0xFFFFFFFF 1 = { s with dev := s.dev.atC 10048 } := by
  obtain ⟨r, hrow, hstop, hcom⟩ : ∃ r, rowAt R.pwrSleep = some r ∧ r.stop = 0 ∧ r.commit = 0 := ⟨_, rfl, rfl, rfl⟩
  obtain ⟨hgo, himm⟩ := cmdWrite_admitted (mask := 0xFFFFFFFF) (data := 1) hrow hr (by decide) (by decide) hstop hcom
  have hsleep : ((s.dev.atC 10048).sleepPaired (.writes [{ off := R.pwrSleep, mask := 0xFFFFFFFF, data := 1 }])).isSome = true := by
    have hp' : (s.dev.atC 10048).paired = true := hp
    simp only [Dev.sleepPaired, hp', if_true]
    rfl
  unfold Sys.cmdWrite
  rw [if_neg hgo]
  simp only [himm, hsleep, Bool.or_true, if_true]

/-- A change that waits leaves a device as ready for commands as it was. -/
theorem Dev.waiting_cmdReady {d : Dev} (hr : d.cmdReady) (c off v : Nat) (p : PendWr)
    (h : off ≠ R.pairStat ∧ off ≠ R.sysBootstat ∧ off ≠ R.synStat) : ((d.atC c).waiting off v p).cmdReady := by
  obtain ⟨hrst, hrole, hboot, htick⟩ := hr
  obtain ⟨h1, h2, h3⟩ := h
  have keep : ∀ o, o ≠ off → ((d.atC c).waiting off v p).reg o = d.reg o := fun o ho => Dev.reg_setBoth_ne d off o v (d.lv off) ho
  refine ⟨hrst, ?_, ?_, ?_⟩
  · simpa [Dev.role, Dev.rf, keep _ h1.symm] using hrole
  · simpa [Dev.bootOver, Dev.rf, keep _ h2.symm] using hboot
  · simpa [Dev.ticking, Dev.rf, keep _ h3.symm] using htick

/-- Two writes of one command row. -/
theorem exec_regOp_twice {z : State} {c : Instr} {v : RegVia} {o1 o2 m1 m2 d1 d2 : Nat}
    (hc : exec c z = z.runRow (fun s => (s.regOp v o1 m1 d1).regOp v o2 m2 d2)) (hv : v.cmd = true) (hr : z.sys.dev.cmdReady) :
    exec c z = .next (z.put ((z.sys.cmdWrite o1 m1 d1).cmdWrite o2 m2 d2)) := by
  rw [hc]
  simp [State.runRow, State.act, State.put, hr.1, Sys.regOp, hv]

/-- A command's writes of two registers of MOD leave a change for each (R39). -/
theorem cmdWrite_twice_waiting {s : Sys} (hr : s.dev.cmdReady) (hon : s.dev.blockOn Blk.mod = true) {o1 o2 d1 d2 : Nat} {r1 r2 : RegRow}
    (h1 : Waits o1 r1) (h2 : Waits o2 r2) (hb : o1 / 0x10000 = Blk.mod ∧ o2 / 0x10000 = Blk.mod) (hne : o2 ≠ o1)
    (hn1 : (0xFFFFFFFF &&& r1.rw) ||| (0xFFFFFFFF &&& r1.ws &&& d1) ≠ 0) (hn2 : (0xFFFFFFFF &&& r2.rw) ||| (0xFFFFFFFF &&& r2.ws &&& d2) ≠ 0) :
    let m1 := (0xFFFFFFFF &&& r1.rw) ||| (0xFFFFFFFF &&& r1.ws &&& d1)
    let m2 := (0xFFFFFFFF &&& r2.rw) ||| (0xFFFFFFFF &&& r2.ws &&& d2)
    let v1 := mergeBits (s.dev.reg o1) (0xFFFFFFFF &&& r1.rw) d1
    let v2 := mergeBits (s.dev.reg o2) (0xFFFFFFFF &&& r2.rw) d2
    ∃ e, (s.cmdWrite o1 0xFFFFFFFF d1).cmdWrite o2 0xFFFFFFFF d2 = { s with dev := e } ∧ s.dev.regsOnly e ∧
      e.pendTick = s.dev.pendTick ++ [{ off := o1, mask := m1, val := v1 ||| (0xFFFFFFFF &&& r1.ws &&& d1), due := s.dev.tick + 1 },
        { off := o2, mask := m2, val := v2 ||| (0xFFFFFFFF &&& r2.ws &&& d2), due := s.dev.tick + 1 }] ∧
      s.dev.keeps e [o1, o2] ∧ e.reg o1 = v1 % 2 ^ 32 ∧ e.reg o2 = v2 % 2 ^ 32 ∧ e.lv o1 = s.dev.lv o1 ∧ e.lv o2 = s.dev.lv o2 := by
  intro m1 m2 v1 v2
  have hsl : ∀ o, o / 0x10000 = Blk.mod → o ≠ R.pwrSleep := by
    rintro o ho rfl
    exact absurd ho (by decide)
  have hw1 := h1.cmdWrite_waiting d1 0xFFFFFFFF s hr (hb.1 ▸ hon) (fun _ => hsl _ hb.1) hn1
  let p1 : PendWr := { off := o1, mask := m1, val := v1 ||| (0xFFFFFFFF &&& r1.ws &&& d1), due := s.dev.tick + 1 }
  let e1 := (s.dev.atC 10048).waiting o1 v1 p1
  have hfar : ∀ o, o / 0x10000 = Blk.mod → o ≠ R.pairStat ∧ o ≠ R.sysBootstat ∧ o ≠ R.synStat ∧ o ≠ R.pwrDomstat := by
    intro o ho
    refine ⟨?_, ?_, ?_, ?_⟩
    all_goals
      rintro rfl
      exact absurd ho (by decide)
  obtain ⟨f1, f2, f3, f4⟩ := hfar o1 hb.1
  have hr1 : e1.cmdReady := Dev.waiting_cmdReady hr 10048 o1 v1 p1 ⟨f1, f2, f3⟩
  obtain ⟨hregs, hlv, hreg, hkeep, hpend⟩ := s.dev.waiting_leaves 10048 o1 v1 p1
  have hon1 : e1.blockOn (o2 / 0x10000) = true := by
    rw [hb.2, Dev.blockOn, Dev.domOn, (hkeep _ (by simpa using f4.symm)).1]
    exact hon
  have hw2 := h2.cmdWrite_waiting d2 0xFFFFFFFF { s with dev := e1 } hr1 hon1 (fun _ => hsl _ hb.2) hn2
  have hreg2 : e1.reg o2 = s.dev.reg o2 := (hkeep _ (by simpa using hne)).1
  simp only [hreg2] at hw2
  obtain ⟨hregs', hlv', hreg', hkeep', hpend'⟩ := e1.waiting_leaves 10048 o2 v2
    { off := o2, mask := m2, val := v2 ||| (0xFFFFFFFF &&& r2.ws &&& d2), due := s.dev.tick + 1 }
  refine ⟨(e1.atC 10048).waiting o2 v2 { off := o2, mask := m2, val := v2 ||| (0xFFFFFFFF &&& r2.ws &&& d2), due := s.dev.tick + 1 },
    (congrArg _ hw1).trans hw2, ?_, ?_, fun o ho => ?_, ?_, hreg', ?_, ?_⟩
  · exact hregs'
  · refine hpend'.trans ?_
    rw [show e1.pendTick = s.dev.pendTick ++ [p1] from hpend, List.append_assoc]
    rfl
  · simp only [List.mem_cons, List.not_mem_nil, or_false, not_or] at ho
    have k1 := hkeep o (by simpa using ho.1)
    have k2 := hkeep' o (by simpa using ho.2)
    exact ⟨k2.1.trans k1.1, k2.2.trans k1.2⟩
  · rw [(hkeep' o1 (by simpa using hne.symm)).1, hreg]
  · rw [(hkeep' o1 (by simpa using hne.symm)).2, hlv]
  · rw [hlv', (hkeep _ (by simpa using hne)).2]

/-- The bits that a waiting change of fields that set brings. -/
theorem PendWr.sets_eq {off m v due : Nat} {r : RegRow} (hrow : rowAt off = some r) (hm : m &&& r.ws = m) :
    ({ off := off, mask := m, val := v ||| m, due := due } : PendWr).sets = m := by
  simp only [PendWr.sets, hrow, hm]
  rw [Nat.and_comm, or_and_self_right]

theorem exec_forceLinkDown {z : State} {v : RegVia} {p : Nat} {on : Bool} (hp : p < 2) :
    exec (.forceLinkDown v p on) z = z.runRow (fun s => s.regOp v (R.macForce (macBlk p)) 1 (b2n on)) := by
  have hrow : exec (.forceLinkDown v p on) z = z.runRow (fun s => if p < 2 then s.regOp v (R.macForce (macBlk p)) 1 (b2n on) else s) := rfl
  simpa only [hp, if_true] using hrow

/-- Settles O32: each register is one of the TICK class, whose commanded write waits. -/
theorem commandedWritesWait : Obligations.CommandedWritesWait := by
  intro z v hv hr d wait
  have far : ∀ {off : Nat}, off ≠ R.pwrSleep → z.sys.dev.paired = true → off ≠ R.pwrSleep := fun h _ => h
  refine ⟨fun par h0 hpar hon => ?_, fun los hlos hon => ?_, fun on hon => ?_, fun dig h0 hdig hon => ?_, fun crc hcrc hon => ?_,
    fun m hm hon => ?_, fun p on hp hon => ?_, fun hon => ?_, fun hon => ?_, fun hp hon => ?_, fun hp => ?_, fun on hb hon => ?_, fun hon => ?_,
    fun ch hch hon => ⟨?_, fun h0 h1 => ?_⟩⟩
  · exact waitsFor_of_ws waits_engForce rfl hv hr hon (far (by decide)) (full_and (w := 3) hpar) h0.ne' rfl
  · exact waitsFor_of_rw waits_clkForce rfl hv hr hon (far (by decide)) rfl (by decide) (Nat.zero_and _) ((Nat.and_comm _ _).trans (full_and (w := 4) hlos))
  · exact waitsFor_of_rw waits_pairForce rfl hv hr hon (far (by decide)) rfl (by decide) (Nat.zero_and _) (by cases on <;> rfl)
  · have hdig' : 6 &&& 6 &&& 2 * dig = 2 * dig := by interval_cases dig <;> rfl
    exact waitsFor_of_ws waits_pairForce rfl hv hr hon (far (by decide)) hdig' (by omega) rfl
  · exact waitsFor_of_rw waits_snsForce rfl hv hr hon (far (by decide)) rfl (by decide) (Nat.zero_and _)
      ((Nat.and_comm _ _).trans (full_and (w := 24) hcrc))
  · have hm' : 1 + 16 * (m % 16) &&& 241 = 1 + 16 * m := by interval_cases m <;> rfl
    exact waitsFor_of_rw waits_ddrForce rfl hv hr hon (far (by decide)) rfl (by decide) (Nat.zero_and _) hm'
  · have hne : R.macForce (macBlk p) ≠ R.pwrSleep := by interval_cases p <;> decide
    exact waitsFor_of_rw (waits_macForce hp) (exec_forceLinkDown hp) hv hr hon (far hne) rfl (by decide) (Nat.zero_and _) (by cases on <;> rfl)
  · exact waitsFor_of_ws waits_bbxFault rfl hv hr hon (far (by decide)) rfl (by decide) rfl
  · exact waitsFor_of_ws waits_pwrTherm rfl hv hr hon (far (by decide)) rfl (by decide) rfl
  · exact waitsFor_of_ws waits_pwrSleep rfl hv hr hon (fun h => absurd (hp.symm.trans h) (by decide)) rfl (by decide) rfl
  · rw [exec_regOp_cmd (off := R.pwrSleep) (mask := 0xFFFFFFFF) (data := 1) rfl hv hr, cmdWrite_sleep_paired z.sys hr hp]
    rfl
  · exact waitsFor_of_rw waits_pwrDomctl rfl hv hr hon (far (by decide)) rfl (by decide) (Nat.zero_and _) rfl
  · obtain ⟨r, hrow, hstop, hcom⟩ : ∃ r, rowAt R.timeStepacc = some r ∧ r.stop = 0 ∧ r.commit = 0 := ⟨_, rfl, rfl, rfl⟩
    have hno : (z.sys.dev.paired && (R.timeStepacc == R.pwrSleep && bit (0 &&& 0xFFFFFFFF) 0)) = false := by simp
    have hw := cmdWrite_of_pass (mask := 0xFFFFFFFF) (data := 0) hrow hr (by decide) (by decide) hstop hcom hon
    rw [hno, regWrite_stepacc (z.sys.dev.atC 10048) _ _ _ hon] at hw
    have hexec := exec_regOp_cmd (c := .stepaccClear v) rfl hv hr
    rw [hw] at hexec
    exact ⟨_, hexec, ⟨rfl, rfl, rfl⟩, rfl, ⟨_, rfl, rfl, rfl, rfl, Nat.zero_and 0⟩, fun _ _ => ⟨rfl, rfl⟩, rfl⟩
  · obtain ⟨r1, h1, hrw1, hws1⟩ := waits_modForce0
    obtain ⟨r2, h2, hrw2, hws2⟩ := waits_modForce1
    have hlt : ch % 2 ^ 32 < 2 ^ 32 := Nat.mod_lt _ (by decide)
    have hlt' : ch / 2 ^ 32 < 2 ^ 16 := by omega
    obtain ⟨e, he, hregs, hpend, hkeep, -, -, -, -⟩ := cmdWrite_twice_waiting (d1 := ch % 2 ^ 32) (d2 := ch / 2 ^ 32) hr hon h1 h2
      ⟨rfl, rfl⟩ (by decide) (by simp [hrw1, hws1]) (by simp [hrw2, hws2])
    refine ⟨_, _, _, (exec_regOp_twice rfl hv hr).trans (congrArg (fun s => Host.Outcome.next (z.put s)) he), ⟨rfl, rfl, rfl⟩, hregs, hpend, rfl, ?_,
      ?_, rfl, rfl, ?_, ?_, rfl, hkeep⟩
    · simp [hrw1, hws1]
    · rw [hrw1, hws1]
      simpa using mergeBits_full (z.sys.dev.reg_lt _) hlt
    · simp [hrw2, hws2]
    · have hm : mergeBits (z.sys.dev.reg R.modForce1) 0xFFFF (ch / 2 ^ 32) &&& 0xFFFF = ch / 2 ^ 32 :=
        (mergeBits_and_of_subset (Nat.and_self _)).trans ((Nat.and_comm _ _).trans (full_and (w := 16) hlt'))
      simpa [hrw2, hws2] using hm
  · obtain ⟨r1, k1, hrw1, hws1⟩ := waits_modClear0
    obtain ⟨r2, k2, hrw2, hws2⟩ := waits_modClear1
    have hb1 : 0xFFFFFFFF &&& 0xFFFFFFFF &&& ch % 2 ^ 32 = ch % 2 ^ 32 := full_and (w := 32) (Nat.mod_lt _ (by decide))
    have hb2 : 0xFFFFFFFF &&& 0xFFFF &&& ch / 2 ^ 32 = ch / 2 ^ 32 := full_and (w := 16) (by omega)
    obtain ⟨e, he, hregs, hpend, hkeep, hreg1, hreg2, hlv1, hlv2⟩ := cmdWrite_twice_waiting (d1 := ch % 2 ^ 32) (d2 := ch / 2 ^ 32) hr hon k1 k2
      ⟨rfl, rfl⟩ (by decide) (by rw [hrw1, hws1, hb1]; simpa using h0) (by rw [hrw2, hws2, hb2]; simpa using h1)
    simp only [hrw1, hws1, hrw2, hws2, hb1, hb2, Nat.and_zero, Nat.zero_or, mergeBits_zero, Dev.reg_mod] at hpend hreg1 hreg2
    refine ⟨_, _, _, (exec_regOp_twice rfl hv hr).trans (congrArg (fun s => Host.Outcome.next (z.put s)) he), ⟨rfl, rfl, rfl⟩, hregs, hpend, rfl,
      PendWr.sets_eq k1.row (hws1 ▸ (Nat.and_comm _ _).trans hb1), rfl, rfl, PendWr.sets_eq k2.row (hws2 ▸ (Nat.and_comm _ _).trans hb2), rfl,
      fun o _ => ?_⟩
    by_cases ho1 : o = R.modClear0
    · exact ho1 ▸ ⟨hreg1, hlv1⟩
    · by_cases ho2 : o = R.modClear1
      · exact ho2 ▸ ⟨hreg2, hlv2⟩
      · exact hkeep o (by simp [ho1, ho2])

end Sys2Proof.Machine

/-!
PROOFS. Direct writes (R31, R43, R44, R347): where they go, and the refusal of critical ones.
-/
namespace Sys2Proof.Machine

/-! ## Registers kept -/

theorem Dev.keeps_refl (d : Dev) (l : List Nat) : d.keeps d l := fun _ _ => ⟨rfl, rfl⟩

theorem Dev.keeps.trans {d e f : Dev} {l : List Nat} (h : d.keeps e l) (k : e.keeps f l) : d.keeps f l :=
  fun off ho => ⟨(k off ho).1.trans (h off ho).1, (k off ho).2.trans (h off ho).2⟩

theorem Dev.keeps.mono {d e : Dev} {l m : List Nat} (h : d.keeps e l) (hlm : l ⊆ m) : d.keeps e m :=
  fun off ho => h off (fun hl => ho (hlm hl))

theorem Dev.keeps_setReg (d : Dev) (o v : Nat) {l : List Nat} (ho : o ∈ l) : d.keeps (d.setReg o v) l := fun off hoff =>
  have hne : off ≠ o := fun h => hoff (h ▸ ho)
  ⟨Dev.reg_setReg_ne d o off v hne, Dev.lv_setReg_ne d o off v hne⟩

theorem Dev.keeps_setBoth (d : Dev) (o v u : Nat) {l : List Nat} (ho : o ∈ l) : d.keeps (d.setBoth o v u) l := fun off hoff =>
  have hne : off ≠ o := fun h => hoff (h ▸ ho)
  ⟨Dev.reg_setBoth_ne d o off v u hne, Dev.lv_setBoth_ne d o off v u hne⟩

theorem Dev.keeps_setFld (d : Dev) (o lo w x : Nat) {l : List Nat} (ho : o ∈ l) : d.keeps (d.setFld o lo w x) l := Dev.keeps_setBoth d o _ _ ho

theorem Dev.keeps_raise (d : Dev) (b src d0 d1 d2 : Nat) {l : List Nat} (h1 : R.fltstat b ∈ l) (h2 : R.fltfirst b ∈ l) :
    d.keeps (d.raise b src d0 d1 d2) l := fun off hoff =>
  have hs : off ≠ R.fltstat b := fun h => hoff (h ▸ h1)
  have hf : off ≠ R.fltfirst b := fun h => hoff (h ▸ h2)
  ⟨Dev.reg_raise_ne d b src d0 d1 d2 off hs hf, Dev.lv_raise_ne d b src d0 d1 d2 off hs hf⟩

/-! ## A refusal (R43, R44) -/

theorem fltOff_lt (b : Nat) : fltOff b < 0xFFF0 := by
  unfold fltOff
  split <;> decide

/-- A field of a register's stored value. -/
theorem fld_mod_pow (y lo w n : Nat) (h : lo + w ≤ n) : fld (y % 2 ^ n) lo w = fld y lo w := by
  have e : 2 ^ n = 2 ^ lo * (2 ^ w * 2 ^ (n - (lo + w))) := by
    rw [← pow_add, ← pow_add]
    congr 1
    omega
  rw [fld, fld, e, Nat.mod_mul_right_div_self, Nat.mod_mul_right_mod]

/-- What a refusal for cause `k` leaves of the block `b`: its bit of CFGERR, nothing pending, and no register but those of the refusal. -/
def Dev.refusal (d e : Dev) (b k : Nat) : Prop :=
  e.rf (R.cfgerr b) k 1 = 1 ∧ e.pendTick = d.pendTick ∧ e.agenda = d.agenda ∧ e.bbx = d.bbx ∧
    d.keeps e [R.cfgerr b, R.cfgerraddr b, R.fltstat b, R.fltfirst b]

theorem Dev.cfgErr_refusal (d : Dev) (off k : Nat) (src : Option Nat) (hc : hasCommon (off / 0x10000) = true) (hk : k < 16) :
    d.refusal (d.cfgErr off k src) (off / 0x10000) k := by
  unfold Dev.cfgErr
  extract_lets b e x d1 d2
  rw [if_neg (by simp [b, hc])]
  have h1 : d1.pendTick = d.pendTick ∧ d1.agenda = d.agenda ∧ d1.bbx = d.bbx ∧
      d.keeps d1 [R.cfgerr b, R.cfgerraddr b, R.fltstat b, R.fltfirst b] := by
    simp only [d1]
    split
    · exact ⟨rfl, rfl, rfl, Dev.keeps_setReg _ _ _ (by simp)⟩
    · exact ⟨rfl, rfl, rfl, Dev.keeps_refl _ _⟩
  have hflag : d2.rf (R.cfgerr b) k 1 = 1 := by
    rw [Dev.rf, Dev.reg_setReg, fld_mod_pow _ _ _ _ (by omega), bitSet, fld_fldSet]
    rfl
  have h2 : d.refusal d2 b k := ⟨hflag, h1.1, h1.2.1, h1.2.2.1, h1.2.2.2.trans (Dev.keeps_setReg _ _ _ (by simp))⟩
  obtain ⟨-, hp, ha, hb, hkeep⟩ := h2
  cases src with
  | none => exact ⟨hflag, hp, ha, hb, hkeep⟩
  | some s =>
    have hlt := fltOff_lt b
    refine ⟨?_, ?_, ?_, ?_, hkeep.trans (Dev.keeps_raise _ _ _ _ _ _ (by simp) (by simp))⟩
    · rw [Dev.rf, Dev.reg_raise_ne _ _ _ _ _ _ _ (by simp only [R.cfgerr, R.fltstat]; omega) (by simp only [R.cfgerr, R.fltfirst]; omega)]
      exact hflag
    · rw [Dev.raise_pendTick, hp]
    · rw [Dev.raise_agenda, ha]
    · rw [Dev.raise_bbx, hb]

/-! ## Direct writes -/

/-- A register of the map that sets no unit to work by itself: a direct write of it is a write of its block's. -/
def plainTarget (off : Nat) : Prop := off < 0x1F0000 ∧ off ≠ R.sysBootdata ∧ off ≠ R.pwrRst

theorem plainTarget_of_row {off : Nat} {r : RegRow} (hrow : rowAt off = some r) (h1 : off ≠ R.sysBootdata) (h2 : off ≠ R.pwrRst) : plainTarget off := by
  have := (mem_of_rowAt hrow).1
  exact ⟨by omega, h1, h2⟩

theorem hostWrite_eq (s : Sys) {off : Nat} (data : Nat) (h : plainTarget off) (hcmd : off / 0x10000 ≠ Blk.cmd) :
    s.hostWrite off data = s.onDev (fun d => d.regWrite .direct off data 0xFFFFFFFF) := by
  obtain ⟨hlt, h1, h2⟩ := h
  have hb : ¬noBlock off = true := by simpa [noBlock] using hlt
  rw [Sys.hostWrite, if_neg hb, if_neg h1, if_neg h2, if_neg hcmd]

/-- A direct write of a register of a block other than CMD. -/
theorem regOp_direct (s : Sys) {v : RegVia} {off : Nat} (mask data : Nat) (hv : v.cmd = false) (h : plainTarget off) (hcmd : off / 0x10000 ≠ Blk.cmd) :
    s.regOp v off mask data = s.onDev (fun d => (d.atC v.c).regWrite .direct off (d.wordOf off mask data) 0xFFFFFFFF) := by
  simp only [Sys.regOp, hv, Bool.false_eq_true, if_false, hostWrite_eq _ _ h hcmd]
  rfl

/-- A row that acts unless the device is held in reset. -/
theorem exec_runRow {z : State} {c : Instr} {f : Sys → Sys} (hc : exec c z = z.runRow f) (hrst : z.sys.dev.inReset = false) :
    exec c z = .next (z.put (f z.sys)) := by
  rw [hc]
  simp only [State.runRow, State.act, hrst, Bool.false_eq_true, if_false]
  rfl

/-- A register that no direct write changes: its writable fields are all critical, or its block's plane is locked; STEPACC too (R43, R181, R347). -/
def Dev.barred (d : Dev) (off : Nat) (r : RegRow) : Prop :=
  isStepacc off = true ∨ (r.writable ≠ 0 ∧
    (r.writable &&& r.crit = r.writable ∨ (bit (d.reg R.cmdPolicy) 1 = true ∧ dataPlane.contains (off / 0x10000) = true)))

theorem writable_lt {off : Nat} {r : RegRow} (h : rowAt off = some r) : r.writable < 2 ^ 32 := by
  obtain ⟨-, hrw, hw1c, hws, hwo, -, -, -⟩ := fits_of_rowAt h
  exact Nat.or_lt_two_pow (Nat.or_lt_two_pow (Nat.or_lt_two_pow hrw hw1c) hws) hwo

/-- The status and the increment of the time counter have no critical field. -/
theorem crit_eq_zero_of_special : (∀ b, b < 31 → ((rowAt (R.fltstat b)).map (fun r => r.crit)).getD 0 = 0) ∧
    ((rowAt R.timeInc).map (fun r => r.crit)).getD 0 = 0 := by decide

/-- A direct write of such a register is refused (R31, R43). -/
theorem Dev.regWrite_barred (d : Dev) {off data : Nat} {r : RegRow} (hrow : rowAt off = some r) (hon : d.blockOn (off / 0x10000) = true)
    (h : d.barred off r) : d.regWrite .direct off data 0xFFFFFFFF = d.critRefuse off := by
  have hdir : (WSrc.direct == WSrc.direct) = true := rfl
  rcases h with hacc | ⟨hw, h⟩
  · simp only [Dev.regWrite, hrow, hon, hacc, hdir, Bool.not_true, Bool.false_eq_true, if_false, if_true]
  · have hwm : r.writable &&& 0xFFFFFFFF = r.writable := Nat.and_two_pow_sub_one_of_lt_two_pow (n := 32) (writable_lt hrow)
    cases hacc : isStepacc off
    case true => simp only [Dev.regWrite, hrow, hon, hacc, hdir, Bool.not_true, Bool.false_eq_true, if_false, if_true]
    cases hlock : bit (d.reg R.cmdPolicy) 1 && dataPlane.contains (off / 0x10000)
    case true =>
      have hlock' : (true && bit (d.reg R.cmdPolicy) 1 && dataPlane.contains (off / 0x10000)) = true := by rw [Bool.true_and]; exact hlock
      simp only [Dev.regWrite, hrow, hon, hacc, hdir, hwm, if_neg hw, hlock', Bool.not_true, Bool.false_eq_true, if_false, if_true]
    have hcrit : r.writable &&& r.crit = r.writable := h.resolve_right (fun hl => by
      rw [hl.1, hl.2] at hlock
      cases hlock)
    have hne : ∀ o, ((rowAt o).map (fun r => r.crit)).getD 0 = 0 → off ≠ o := by
      rintro o ho rfl
      simp only [hrow, Option.map_some, Option.getD_some] at ho
      exact hw (by rw [← hcrit, ho, Nat.and_zero])
    have hflt : ¬((faultSrcs (off / 0x10000)).length ≠ 0 ∧ off = R.fltstat (off / 0x10000)) := fun hf =>
      hne _ (crit_eq_zero_of_special.1 _ (mem_of_rowAt hrow).1) hf.2
    have hinc : off ≠ R.timeInc := hne _ crit_eq_zero_of_special.2
    have hlock' : (true && bit (d.reg R.cmdPolicy) 1 && dataPlane.contains (off / 0x10000)) = false := by rw [Bool.true_and]; exact hlock
    simp only [Dev.regWrite, hrow, hon, hacc, hdir, hwm, if_neg hw, hlock', if_neg hflt, if_neg hinc, hcrit, Nat.sub_self, Nat.zero_and,
      Bool.not_true, Bool.false_eq_true, if_false, if_true]

/-- The command answers a next state, memory, fuses and the queue are the same, and the write of `off` is refused there. -/
def State.refuses (z : State) (r : Res) (off : Nat) : Prop := z.leads r (fun e => z.sys.dev.refusal e (off / 0x10000) 3)

/-- A direct write of a barred register is refused, and nothing else happens (R31, R43). -/
theorem regOp_of_barred (s : Sys) {v : RegVia} {off : Nat} (mask data : Nat) {r : RegRow} (hv : v.cmd = false) (hrow : rowAt off = some r)
    (hcom : hasCommon (off / 0x10000) = true) (hne : off ≠ R.pwrRst) (hbar : s.dev.barred off r) (hon : s.dev.blockOn (off / 0x10000) = true) :
    ∃ e, s.regOp v off mask data = { s with dev := e } ∧ s.dev.refusal e (off / 0x10000) 3 := by
  have hblk : ∀ {o : Nat}, hasCommon (o / 0x10000) = false → off ≠ o := by
    rintro o ho rfl
    simp [hcom] at ho
  have hcmd : off / 0x10000 ≠ Blk.cmd := fun h => absurd hcom (by rw [h]; decide)
  have hw := (s.dev.atC v.c).regWrite_barred (data := s.dev.wordOf off mask data) hrow hon hbar
  refine ⟨_, regOp_direct s mask data hv (plainTarget_of_row hrow (hblk (by decide)) hne) hcmd, ?_⟩
  change s.dev.refusal ((s.dev.atC v.c).regWrite .direct off (s.dev.wordOf off mask data) 0xFFFFFFFF) _ _
  rw [hw]
  exact (s.dev.atC v.c).cfgErr_refusal off 3 _ hcom (by decide)

/-- A register whose writable fields are all critical, of a block with refusal registers. -/
def critReg (off : Nat) : Bool :=
  match rowAt off with
  | some r => hasCommon (off / 0x10000) && off != R.pwrRst && (isStepacc off || (r.writable != 0 && r.writable &&& r.crit == r.writable))
  | none => false

/-- A direct write of a critical register is refused (R31, R43). -/
theorem regOp_of_critReg (s : Sys) {v : RegVia} {off : Nat} (mask data : Nat) (hv : v.cmd = false) (h : critReg off = true)
    (hon : s.dev.blockOn (off / 0x10000) = true) :
    ∃ e, s.regOp v off mask data = { s with dev := e } ∧ s.dev.refusal e (off / 0x10000) 3 := by
  unfold critReg at h
  split at h
  · next r hrow =>
    simp only [Bool.and_eq_true, Bool.or_eq_true, bne_iff_ne, ne_eq, beq_iff_eq] at h
    obtain ⟨⟨hcom, hne⟩, hbar⟩ := h
    exact regOp_of_barred s mask data hv hrow hcom hne (hbar.imp_right (fun hb => ⟨hb.1, .inl hb.2⟩)) hon
  · cases h

/-- A row that makes the refused write. -/
theorem refuses_of_regOp {z : State} {c : Instr} {f : Sys → Sys} {off : Nat} (hc : exec c z = z.runRow f) (hrst : z.sys.dev.inReset = false)
    (h : ∃ e, f z.sys = { z.sys with dev := e } ∧ z.sys.dev.refusal e (off / 0x10000) 3) : z.refuses (exec c z) off := by
  obtain ⟨e, he, href⟩ := h
  refine ⟨_, exec_runRow hc hrst, ?_⟩
  rw [he]
  exact ⟨⟨rfl, rfl, rfl⟩, href⟩

/-- Refusals leave domains as they are. -/
theorem Dev.refusal.blockOn {d e : Dev} {b k : Nat} (h : d.refusal e b k) (hb : b ≠ Blk.pwr) (n : Nat) : e.blockOn n = d.blockOn n := by
  obtain ⟨-, -, -, -, hkeep⟩ := h
  have hlt := fltOff_lt b
  have hne : R.pwrDomstat ∉ [R.cfgerr b, R.cfgerraddr b, R.fltstat b, R.fltfirst b] := by
    simp only [List.mem_cons, List.not_mem_nil, or_false, R.cfgerr, R.cfgerraddr, R.fltstat, R.fltfirst, R.pwrDomstat, Blk.pwr] at hb ⊢
    omega
  rw [Dev.blockOn, Dev.domOn, (hkeep _ hne).1]
  rfl

/-- Two refused writes of one block. -/
theorem regOp_twice_of_critReg (s : Sys) {v : RegVia} {o1 o2 : Nat} (m1 m2 d1 d2 : Nat) (hv : v.cmd = false)
    (h1 : critReg o1 = true) (h2 : critReg o2 = true) (hb : o2 / 0x10000 = o1 / 0x10000) (hp : o1 / 0x10000 ≠ Blk.pwr)
    (hon : s.dev.blockOn (o1 / 0x10000) = true) :
    ∃ e, (s.regOp v o1 m1 d1).regOp v o2 m2 d2 = { s with dev := e } ∧ s.dev.refusal e (o1 / 0x10000) 3 := by
  obtain ⟨e, he, href⟩ := regOp_of_critReg s m1 d1 hv h1 hon
  have hon' : e.blockOn (o2 / 0x10000) = true := by rw [href.blockOn hp, hb, hon]
  obtain ⟨e', he', href'⟩ := regOp_of_critReg { s with dev := e } m2 d2 hv h2 hon'
  obtain ⟨-, hpd, hag, hbbx, hkeep⟩ := href
  obtain ⟨hflag', hpd', hag', hbbx', hkeep'⟩ := hb ▸ href'
  exact ⟨e', by rw [he, he'], hflag', hpd'.trans hpd, hag'.trans hag, hbbx'.trans hbbx, hkeep.trans hkeep'⟩

/-- Settles O33: each register is a critical one, and a direct write of such a one is refused. -/
theorem criticalDirectWritesAreRefused : Obligations.CriticalDirectWritesAreRefused := by
  intro z v hv hrst d refused
  have crit := fun (off : Nat) (c : Instr) (mask data : Nat) (h : critReg off = true)
    (hc : exec c z = z.runRow (fun s => s.regOp v off mask data)) (hon : d.blockOn (off / 0x10000) = true) =>
    refuses_of_regOp hc hrst (regOp_of_critReg z.sys mask data hv h hon)
  refine ⟨fun off mask data r hrow hcom hw hne hbar hon => ?_, fun par => ?_, fun los => ?_, fun on => ?_, fun dig => ?_, fun crc => ?_, fun m => ?_,
    fun p on hp => ?_, ?_, ?_, ?_, fun on => ?_, ?_, fun oc hon => ?_, fun ch hon => ?_, fun b g hb => ?_⟩
  · exact refuses_of_regOp rfl hrst (regOp_of_barred z.sys mask data hv hrow hcom hne (.inr ⟨hw, hbar⟩) hon)
  · exact crit R.engForce _ _ _ (by decide) rfl
  · exact crit R.clkForce _ _ _ (by decide) rfl
  · exact crit R.pairForce _ _ _ (by decide) rfl
  · exact crit R.pairForce _ _ _ (by decide) rfl
  · exact crit R.snsForce _ _ _ (by decide) rfl
  · exact crit R.ddrForce _ _ _ (by decide) rfl
  · have hcrit : critReg (R.macForce (macBlk p)) = true := by interval_cases p <;> decide
    exact crit _ _ _ _ hcrit (exec_forceLinkDown hp)
  · exact crit R.bbxFault _ _ _ (by decide) rfl
  · exact crit R.pwrTherm _ _ _ (by decide) rfl
  · exact crit R.pwrSleep _ _ _ (by decide) rfl
  · exact crit R.pwrDomctl _ _ _ (by decide) rfl
  · exact crit R.timeStepacc _ _ _ (by decide) rfl
  · exact refuses_of_regOp (c := .forceModOvercurrent v oc)
      (f := fun s => (s.regOp v R.modForce0 0xFFFFFFFF (oc % 2 ^ 32)).regOp v R.modForce1 0xFFFFFFFF (oc / 2 ^ 32)) rfl hrst
      (regOp_twice_of_critReg z.sys _ _ _ _ hv (by decide) (by decide) rfl (by decide) hon)
  · exact refuses_of_regOp (c := .modClear v ch)
      (f := fun s => (s.regOp v R.modClear0 0xFFFFFFFF (ch % 2 ^ 32)).regOp v R.modClear1 0xFFFFFFFF (ch / 2 ^ 32)) rfl hrst
      (regOp_twice_of_critReg z.sys _ _ _ _ hv (by decide) (by decide) rfl (by decide) hon)
  · have hcrit : critReg (R.commit b) = true := by
      revert b
      decide
    exact crit _ _ _ _ hcrit rfl

end Sys2Proof.Machine

/-!
PROOFS. Commit strobes (R37, R38): of a command, and of a direct write of a management-plane port.
-/
namespace Sys2Proof.Machine

@[simp] theorem Dev.domOn_atC (d : Dev) (k c : Nat) : (d.atC c).domOn k = d.domOn k := rfl

@[simp] theorem Dev.blockOn_atC (d : Dev) (b c : Nat) : (d.atC c).blockOn b = d.blockOn b := Dev.domOn_atC d (blockDomain b) c

/-- The row of a COMMIT register: strobes alone. -/
def RegRow.strobesOnly (r : RegRow) : Prop := r.rw = 0 ∧ r.w1c = 0 ∧ r.wo = 0 ∧ r.ws = 0xFFFF ∧ r.stop = 0 ∧ r.commit = 0

theorem commit_rows : ∀ b, b < 31 → commitGroups b ≠ 0 → hasCommon b = true ∧ ∃ r, rowAt (R.commit b) = some r ∧ r.strobesOnly := by
  unfold RegRow.strobesOnly
  decide

theorem commitGroups_eq_zero {b : Nat} (hb : 31 ≤ b) : commitGroups b = 0 := by
  unfold commitGroups
  split
  case h_8 => rfl
  all_goals omega

/-- A block with a commit group has a COMMIT register and the registers of a refusal. -/
theorem commit_row {b g : Nat} (hg : bit (commitGroups b) g = true) : hasCommon b = true ∧ ∃ r, rowAt (R.commit b) = some r ∧ r.strobesOnly := by
  have hne : commitGroups b ≠ 0 := by
    intro h0
    simp [h0, bit] at hg
  exact commit_rows b (by by_contra hb; exact hne (commitGroups_eq_zero (not_lt.1 hb))) hne

/-- The strobe of one group. -/
theorem strobes_two_pow {b g : Nat} (hg : g < 16) (hbit : bit (commitGroups b) g = true) : strobes b (2 ^ g) = [g] := by
  have hand : 2 ^ g &&& commitGroups b = 2 ^ g := by
    rw [bit_eq_testBit] at hbit
    rw [Nat.and_comm, Nat.and_two_pow, hbit]
    simp
  have hone : ∀ g, g < 16 → bitsOn 16 (2 ^ g) = [g] := by decide
  rw [strobes, hand, hone g hg]

theorem commit_block (b : Nat) : R.commit b / 0x10000 = b := by
  simp only [R.commit]
  omega

/-- No COMMIT register is one that a rule of its own treats. -/
theorem commit_ne (b : Nat) : R.commit b ≠ R.pwrRst ∧ R.commit b ≠ R.pwrSleep ∧ R.commit b ≠ R.sysBootdata ∧ R.commit b ≠ R.timeInc ∧
    isStepacc (R.commit b) = false ∧ R.commit b ≠ R.fltstat b := by
  have hlt := fltOff_lt b
  simp only [R.commit, R.pwrRst, R.pwrSleep, R.sysBootdata, R.timeInc, R.timeStepacc, R.fltstat, isStepacc, ne_eq, Bool.or_eq_false_iff, beq_eq_false_iff_ne]
  omega

theorem Dev.strobeRefuse_refusal (d : Dev) {b off : Nat} (hb : off / 0x10000 = b) (hc : hasCommon b = true) : d.refusal (d.strobeRefuse off) b 2 := by
  subst hb
  exact d.cfgErr_refusal off 2 (srcCfgBusy (off / 0x10000)) hc (by decide)

theorem bit_eq_fld (v i : Nat) : bit v i = (fld v i 1 == 1) := by simp [bit, fld]

/-! ## A command's strobe -/

/-- The changes that the copy of a group leaves for the boundary into tick `t`. -/
def Dev.groupChanges (d : Dev) (b g t : Nat) : List PendWr :=
  (groupRegs b g).filterMap (fun off => (rowAt off).map (fun r => ({ off := off, mask := r.commit, val := d.reg off, due := t } : PendWr)))

/-- A group is copied register by register; nothing else changes (R37). -/
theorem Dev.copyGroup_eq (d : Dev) (b g t : Nat) : d.copyGroup b g t = { d with pendTick := d.pendTick ++ d.groupChanges b g t } := by
  unfold Dev.copyGroup Dev.groupChanges
  generalize groupRegs b g = l
  induction l generalizing d with
  | nil => simp
  | cons off l ih =>
    rw [List.foldl_cons, ih]
    cases h : rowAt off with
    | none => simp [h]
    | some r => simp [h, Dev.reg]

section
variable {s : Sys} {b g mask data : Nat} (hr : s.dev.cmdReady) (hg : g < 16) (hbit : bit (commitGroups b) g = true) (hon : s.dev.blockOn b = true)
  (hmask : data &&& mask = 2 ^ g)
include hr hg hbit hon hmask

/-- What CMD decides of a strobe of one group by a command (R38). -/
theorem cmdWrite_commit : s.cmdWrite (R.commit b) mask data =
    s.onDev (fun d => if d.grpPend b g then (d.atC 10048).strobeRefuse (R.commit b) else (d.atC 10048).copyGroup b g (d.tick + 1)) := by
  obtain ⟨hcom, r, hrow, hrw, hw1c, hwo, hws, hstop, hc⟩ := commit_row hbit
  obtain ⟨hrst, hsl, -, -, -, -⟩ := commit_ne b
  obtain ⟨_, hrole, hboot, htick⟩ := hr
  have hblk := commit_block b
  generalize hoff : R.commit b = off at *
  have hgo : ¬(off = R.pwrRst ∨ s.dev.role ≠ .active ∨ (!s.dev.bootOver) = true ∨ (!s.dev.ticking) = true) := by
    simp [hrst, hrole, hboot, htick]
  have hstr : strobes b (data &&& mask) = [g] := by rw [hmask, strobes_two_pow hg hbit]
  have hpend : (s.dev.atC 10048).grpPend b g = s.dev.grpPend b g := rfl
  have himm : (s.dev.atC 10048).immRefusal [{ off := off, mask := mask, data := data }] =
      if s.dev.grpPend b g then ((s.dev.atC 10048).strobeRefuse (off), some (rsBusy, 0)) else (s.dev.atC 10048, none) := by
    have hstp : r.stop &&& mask &&& (s.dev.atC 10048).stopBlocked off = 0 := by rw [hstop, Nat.zero_and, Nat.zero_and]
    cases hp : s.dev.grpPend b g <;> simp [Dev.immRefusal, hoff, hrow, hstp, hblk, hcom, hstr, List.range_succ, hpend, hp]
  have hdom : (s.dev.atC 10048).domainOff (.writes [{ off := off, mask := mask, data := data }]) = none := by
    simp [Dev.domainOff, List.range_succ, hblk, hon]
  have hsleep : (s.dev.atC 10048).sleepPaired (.writes [{ off := off, mask := mask, data := data }]) = none := by
    simp [Dev.sleepPaired, List.range_succ, hsl]
  have hw : s.dev.grpPend b g = false → (s.dev.atC 10048).cmdWrites (.immediate (s.dev.tick + 1)) (s.dev.tick + 1)
      [{ off := off, mask := mask, data := data }] = (s.dev.atC 10048).copyGroup b g (s.dev.tick + 1) := by
    intro hp
    simp [Dev.cmdWrites, hoff, hblk, hcom, hon, hstr, hpend, hp, List.eraseDups_cons]
  unfold Sys.cmdWrite
  rw [if_neg hgo]
  simp only [himm, hdom, hsleep, Option.isSome_none, Bool.or_false, Dev.atC_tick, Sys.onDev]
  cases hp : s.dev.grpPend b g
  · simp only [Bool.false_eq_true, if_false, Option.isSome_none, hw hp]
  · simp only [if_true, Option.isSome_some]

end

/-- A command's strobe of one group, done. -/
theorem exec_commit_cmd {z : State} {v : RegVia} {b g : Nat} (hv : v.cmd = true) (hr : z.sys.dev.cmdReady) (hg : g < 16)
    (hbit : bit (commitGroups b) g = true) (hon : z.sys.dev.blockOn b = true) : exec (.commitStrobe v b (2 ^ g)) z =
      .next (z.onDev (fun d => if d.grpPend b g then (d.atC 10048).strobeRefuse (R.commit b) else (d.atC 10048).copyGroup b g (d.tick + 1))) := by
  have hmask : 2 ^ g &&& 0xFFFFFFFF = 2 ^ g := Nat.and_two_pow_sub_one_of_lt_two_pow (n := 32) (Nat.pow_lt_pow_right one_lt_two (by omega))
  rw [exec_regOp_cmd (off := R.commit b) (mask := 0xFFFFFFFF) (data := 2 ^ g) rfl hv hr, cmdWrite_commit hr hg hbit hon hmask]
  rfl

/-! ## A direct strobe -/

/-- The COMMIT registers of the management plane's ports: not critical, and with one group. -/
theorem mgmt_commit_row : ∀ b ∈ [Blk.macm, Blk.mact], dataPlane.contains b = false ∧ b ≠ Blk.cmd ∧ b < 31 ∧ bit (commitGroups b) 0 = true ∧
    ∃ r, rowAt (R.commit b) = some r ∧ r.writable = 0xFFFF ∧ r.crit = 0 ∧ r.stop = 0 := by decide

section
variable {b : Nat} (hb : b ∈ [Blk.macm, Blk.mact])
include hb

/-- A direct strobe of a port of the management plane (R37, R38). -/
theorem regWrite_commit_direct (d : Dev) {mask : Nat} (hm : 0xFFFF &&& mask = 0xFFFF) (hon : d.blockOn b = true) :
    d.regWrite .direct (R.commit b) 1 mask = if d.grpPend b 0 then d.strobeRefuse (R.commit b) else d.setFld (R.commitstat b) 0 1 1 := by
  obtain ⟨hplane, -, -, hbit, r, hrow, hw, hcrit, hstop⟩ := mgmt_commit_row b hb
  obtain ⟨-, -, -, hinc, hacc, hflt⟩ := commit_ne b
  have hcom := (commit_row hbit).1
  have hblk := commit_block b
  generalize hoff : R.commit b = off at *
  have hstr : strobes b 1 = [0] := strobes_two_pow (g := 0) (by decide) hbit
  have hdir : (WSrc.direct == WSrc.direct) = true := rfl
  have h1 : (1 : Nat) &&& 0xFFFF = 1 := rfl
  have hstp : 0 &&& d.stopBlocked off = 0 := Nat.zero_and _
  simp only [Dev.regWrite, hoff, hrow, hblk, hon, hacc, hdir, hw, hm, hplane, hflt, hinc, hcrit, hstop, hstp, hcom, Nat.and_zero, Nat.sub_zero,
    Bool.and_false, Bool.not_true, Bool.false_eq_true, and_false, true_and, if_false, if_true, h1, Dev.strobe, hstr, List.foldl_cons, List.foldl_nil]
  rfl

/-- A direct strobe of such a port, done. -/
theorem exec_commit_direct {z : State} {v : RegVia} (hv : v.cmd = false) (hrst : z.sys.dev.inReset = false) (hon : z.sys.dev.blockOn b = true) :
    exec (.commitStrobe v b 1) z =
      .next (z.onDev (fun d => if d.grpPend b 0 then (d.atC v.c).strobeRefuse (R.commit b) else (d.atC v.c).setFld (R.commitstat b) 0 1 1)) := by
  obtain ⟨-, hcmd, hlt, hbit, r, hrow, -, -, -⟩ := mgmt_commit_row b hb
  obtain ⟨hpr, -, hboot, -, -, -⟩ := commit_ne b
  have hword : z.sys.dev.wordOf (R.commit b) 0xFFFFFFFF 1 = 1 := by
    simp only [Dev.wordOf, hrow]
    exact mergeBits_full (w := 32) (Nat.and_le_left.trans_lt (z.sys.dev.reg_lt _)) (by decide)
  rw [exec_runRow (f := fun s => s.regOp v (R.commit b) 0xFFFFFFFF 1) rfl hrst,
    regOp_direct z.sys 0xFFFFFFFF 1 hv (plainTarget_of_row hrow hboot hpr) (by rwa [commit_block]), Sys.onDev, hword]
  exact congrArg (fun e => Host.Outcome.next (z.put { z.sys with dev := e })) (regWrite_commit_direct hb (z.sys.dev.atC v.c) rfl ((z.sys.dev.blockOn_atC b v.c).trans hon))

end

/-- A refused strobe leaves its group pending. -/
theorem Dev.refusal.grpPend {d e : Dev} {b k : Nat} (h : d.refusal e b k) (g : Nat) : e.grpPend b g = d.grpPend b g := by
  obtain ⟨-, -, -, -, hkeep⟩ := h
  have hlt := fltOff_lt b
  have hne : R.commitstat b ∉ [R.cfgerr b, R.cfgerraddr b, R.fltstat b, R.fltfirst b] := by
    simp only [List.mem_cons, List.not_mem_nil, or_false, R.cfgerr, R.cfgerraddr, R.fltstat, R.fltfirst, R.commitstat]
    omega
  rw [Dev.grpPend, (hkeep _ hne).1]
  rfl

/-- Settles O36: CMD copies the group or refuses the strobe, and so does the port. -/
theorem commitStrobes : Obligations.CommitStrobes := by
  refine ⟨fun z v b hv hrst hb hon => ?_, fun z v b g hv hr hg hbit hon => ?_⟩
  · have hmem : b ∈ [Blk.macm, Blk.mact] := by simpa using hb
    have hexec := exec_commit_direct hmem hv hrst hon
    have hcom := (commit_row (mgmt_commit_row b hmem).2.2.2.1).1
    refine ⟨fun hp => ⟨_, hexec, ⟨rfl, rfl, rfl⟩, ?_⟩, fun hp => ⟨_, hexec, ⟨rfl, rfl, rfl⟩, ?_⟩⟩
    · simp only [State.onDev, State.put, Sys.onDev, hp, Bool.false_eq_true, if_false]
      refine ⟨?_, rfl, Dev.keeps_setFld _ _ _ _ _ (by simp)⟩
      rw [Dev.grpPend, bit_eq_fld]
      exact beq_iff_eq.2 (Dev.rf_setFld _ _ _ _ _ (by decide))
    · simp only [State.onDev, State.put, Sys.onDev, hp, if_true]
      have href := (z.sys.dev.atC v.c).strobeRefuse_refusal (commit_block b) hcom
      exact ⟨href.1, (href.grpPend 0).trans hp, href.2.2.2.2⟩
  · have hexec := exec_commit_cmd hv hr hg hbit hon
    refine ⟨fun hp => ⟨_, hexec, ⟨rfl, rfl, rfl⟩, ?_⟩, fun hp => ⟨_, hexec, ⟨rfl, rfl, rfl⟩, ?_⟩⟩
    · simp only [State.onDev, State.put, Sys.onDev, hp, Bool.false_eq_true, if_false, Dev.copyGroup_eq]
      exact ⟨rfl, fun _ _ => ⟨rfl, rfl⟩, rfl⟩
    · simp only [State.onDev, State.put, Sys.onDev, hp, if_true]
      have href := (z.sys.dev.atC 10048).strobeRefuse_refusal (commit_block b) (commit_row hbit).1
      exact ⟨href.2.1, href.1, href.2.2.2.2⟩

end Sys2Proof.Machine

/-!
PROOFS. Direct writes that act at once (R7, R43): the registers without a take-effect class, and what their blocks do with them.
-/
namespace Sys2Proof.Machine

/-! ## A direct write of such a register -/

/-- A register whose RW and WS bits, and no others, every source may write at once, and which no rule of its own treats. -/
def atOnceReg (off rw ws : Nat) : Bool :=
  (rowAt off).any (fun r => r.rw == rw && r.ws == ws && r.w1c == 0 && r.wo == 0 && r.crit == 0 && r.stop == 0 && r.commit == 0 && r.tick == 0 && r.frame == 0) &&
    (rw ||| ws) != 0 && !isStepacc off && off != R.fltstat (off / 0x10000) && off != R.timeInc && off != R.commit (off / 0x10000) &&
    off != R.evtRate && off != R.sysBootdata && off != R.pwrRst

/-- The word `w` stored in the RW fields of a register, in use at once. -/
def Dev.written (d : Dev) (off rw w : Nat) : Dev :=
  d.setBoth off (d.storedV off rw (mergeBits (d.reg off) rw w)) (mergeBits (d.lv off) rw (d.storedV off rw (mergeBits (d.reg off) rw w)))

@[simp] theorem Dev.written_time (d : Dev) (off rw w : Nat) : (d.written off rw w).time = d.time := rfl
@[simp] theorem Dev.written_cycle (d : Dev) (off rw w : Nat) : (d.written off rw w).cycle = d.cycle := rfl
@[simp] theorem Dev.written_cmd (d : Dev) (off rw w : Nat) : (d.written off rw w).cmd = d.cmd := rfl

theorem Dev.written_keeps (d : Dev) (off rw w : Nat) : d.keeps (d.written off rw w) [off] := d.keeps_setBoth off _ _ (by simp)

/-- Without an RW field nothing is stored. -/
theorem Dev.written_keeps_all (d : Dev) {off : Nat} (w : Nat) (hst : ∀ v, d.storedV off 0 v = v) (l : List Nat) : d.keeps (d.written off 0 w) l := by
  intro o _
  by_cases ho : o = off
  · subst ho
    exact ⟨by rw [Dev.written, Dev.reg_setBoth, hst, mergeBits_zero, Dev.reg_mod],
      by rw [Dev.written, Dev.lv_setBoth, hst, mergeBits_zero, Dev.lv_mod]⟩
  · exact ⟨d.reg_setBoth_ne _ _ _ _ ho, d.lv_setBoth_ne _ _ _ _ ho⟩

theorem Dev.reg_written (d : Dev) {off rw w : Nat} (hst : ∀ v, d.storedV off rw v = v) (hrw : rw < 2 ^ 32) :
    (d.written off rw w).reg off = mergeBits (d.reg off) rw w := by
  rw [Dev.written, Dev.reg_setBoth, hst, Nat.mod_eq_of_lt (mergeBits_lt (d.reg_lt off) hrw)]

theorem Dev.lv_written (d : Dev) {off rw w : Nat} (hst : ∀ v, d.storedV off rw v = v) (hrw : rw < 2 ^ 32) :
    (d.written off rw w).lv off = mergeBits (d.lv off) rw (mergeBits (d.reg off) rw w) := by
  rw [Dev.written, Dev.lv_setBoth, hst, Nat.mod_eq_of_lt (mergeBits_lt (d.lv_lt off) hrw)]

/-- What is stored of such a write is in use at once. -/
theorem Dev.regStore_atOnce (d : Dev) (r : RegRow) {rw ws : Nat} (off data : Nat)
    (hr : r.rw = rw ∧ r.ws = ws ∧ r.w1c = 0 ∧ r.wo = 0 ∧ r.commit = 0 ∧ r.tick = 0 ∧ r.frame = 0) :
    d.regStore .direct r off data (rw ||| ws) = (d.written off rw data).writeSide off (data &&& (rw ||| ws)) := by
  obtain ⟨hrw, hws, hw1c, hwo, hcommit, htick, hframe⟩ := hr
  unfold Dev.regStore
  extract_lets plain v w1 late now u d1 tk d2 fr cmdT f d3
  have hplain : plain = rw := by
    rw [show plain = (rw ||| ws) &&& (r.rw ||| r.wo) from rfl, hrw, hwo, Nat.or_zero, Nat.or_comm, or_and_self_right]
  have hw1 : w1 = 0 := by rw [show w1 = (rw ||| ws) &&& r.w1c &&& data from rfl, hw1c, Nat.and_zero, Nat.zero_and]
  have hnow : now = rw := by
    rw [show now = plain - (plain &&& (r.tick ||| r.frame ||| r.commit)) from rfl, htick, hframe, hcommit, hplain,
      Nat.or_zero, Nat.or_zero, Nat.and_zero, Nat.sub_zero]
  have htk : tk = 0 := by
    rw [show tk = (plain &&& r.tick) ||| ((rw ||| ws) &&& r.ws &&& r.tick &&& data) from rfl, htick, Nat.and_zero, Nat.and_zero, Nat.zero_and]
    rfl
  have hfr : fr = 0 := by rw [show fr = plain &&& r.frame from rfl, hframe, Nat.and_zero]
  have hd1 : d1 = d.written off rw data := by
    rw [show d1 = d.setBoth off (v - (v &&& w1)) (mergeBits (d.lv off) now v - (u &&& w1)) from rfl, hw1, hnow, Nat.and_zero, Nat.and_zero, Nat.sub_zero,
      Nat.sub_zero, show v = d.storedV off plain (mergeBits (d.reg off) plain data) from rfl, hplain, Dev.written]
  rw [show d3 = d2 from if_pos hfr, show d2 = d1 from if_pos htk, hd1]

section
variable {off rw ws : Nat} (h : atOnceReg off rw ws = true)
include h

theorem atOnceReg_spec : (∃ r, rowAt off = some r ∧ r.rw = rw ∧ r.ws = ws ∧ r.w1c = 0 ∧ r.wo = 0 ∧ r.crit = 0 ∧ r.stop = 0 ∧ r.commit = 0 ∧ r.tick = 0 ∧
    r.frame = 0) ∧ rw ||| ws ≠ 0 ∧ isStepacc off = false ∧ off ≠ R.fltstat (off / 0x10000) ∧ off ≠ R.timeInc ∧ off ≠ R.commit (off / 0x10000) ∧
    off ≠ R.evtRate ∧ plainTarget off := by
  simp only [atOnceReg, Bool.and_eq_true, Option.any_eq_true_iff_get, beq_iff_eq, bne_iff_ne, Bool.not_eq_true'] at h
  obtain ⟨⟨⟨⟨⟨⟨⟨⟨⟨hs, hr⟩, h1⟩, h2⟩, h3⟩, h4⟩, h5⟩, h6⟩, h7⟩, h8⟩ := h
  have hrow := (Option.some_get hs).symm
  refine ⟨⟨_, hrow, ?_⟩, h1, h2, h3, h4, h5, h6, plainTarget_of_row hrow h7 h8⟩
  simpa only [and_assoc] using hr

/-- Its bits are stored and in use, and its block acts (R7, R35). -/
theorem regWrite_atOnce (d : Dev) (data : Nat) (hopen : d.open_ (off / 0x10000)) :
    d.regWrite .direct off data 0xFFFFFFFF = (d.written off rw data).writeSide off (data &&& (rw ||| ws)) := by
  obtain ⟨⟨r, hrow, hrw, hws, hw1c, hwo, hcrit, hstop, hcommit, htick, hframe⟩, hne, hacc, hflt, hinc, hcom, hrate, -⟩ := atOnceReg_spec h
  obtain ⟨hon, hlock⟩ := hopen
  have hw : r.writable &&& 0xFFFFFFFF = rw ||| ws := by
    have hsub : r.writable &&& 0xFFFFFFFF = r.writable := Nat.and_two_pow_sub_one_of_lt_two_pow (n := 32) (writable_lt hrow)
    rw [hsub, RegRow.writable, hrw, hws, hw1c, hwo, Nat.or_zero, Nat.or_zero]
  have hdir : (WSrc.direct == WSrc.direct) = true := rfl
  have hlock' : (true && bit (d.reg R.cmdPolicy) 1 && dataPlane.contains (off / 0x10000)) = false := by
    rw [Bool.true_and, Bool.and_eq_false_iff]
    exact hlock
  have hset : d.rateSettle off = d := if_pos hrate
  simp only [Dev.regWrite, hrow, hon, hacc, hdir, hw, if_neg hne, hlock', hflt, hinc, hcom, hcrit, hstop, hcommit, hset, Nat.and_zero, Nat.zero_and, Nat.sub_zero, and_false,
    Bool.false_and, Bool.not_true, Bool.false_eq_true, if_false, if_true, bne_self_eq_false]
  exact d.regStore_atOnce r off data ⟨hrw, hws, hw1c, hwo, hcommit, htick, hframe⟩

/-- A row that writes it directly. -/
theorem exec_atOnce {z : State} {c : Instr} {v : RegVia} {mask data w : Nat} (hw : mergeBits (z.sys.dev.reg off &&& rw) mask data = w) (hc : exec c z = z.runRow (fun s => s.regOp v off mask data))
    (hv : v.cmd = false) (hrst : z.sys.dev.inReset = false) (hcmd : off / 0x10000 ≠ Blk.cmd) (hopen : z.sys.dev.open_ (off / 0x10000)) :
    exec c z = .next (z.put { z.sys with dev := ((z.sys.dev.atC v.c).written off rw w).writeSide off (w &&& (rw ||| ws)) }) := by
  obtain ⟨⟨r, hrow, hrw, -⟩, -, -, -, -, -, -, hplain⟩ := atOnceReg_spec h
  have hopen' : (z.sys.dev.atC v.c).open_ (off / 0x10000) := hopen.imp_left (z.sys.dev.blockOn_atC _ v.c).trans
  have hword : z.sys.dev.wordOf off mask data = w := by simp only [Dev.wordOf, hrow, hrw, hw]
  rw [exec_runRow hc hrst, regOp_direct _ _ _ hv hplain hcmd, Sys.onDev, hword, regWrite_atOnce h _ _ hopen']

end


/-! ## What the blocks do -/

theorem cmpcfg_ne : ∀ k, k < 4 → R.timeCmpcfg k ≠ R.irqen Blk.time ∧ R.timeCmpcfg k ≠ R.evtCtrl ∧ R.timeCmpcfg k ≠ R.evtResend ∧
    R.timeCmpcfg k ≠ R.bbxCtrl ∧ R.timeCmpcfg k ≠ R.bbxWdkick ∧ R.timeCmpcfg k ≠ R.macMdiocmd 12 ∧ R.timeCmpcfg k ≠ R.glnRbctl := by decide

theorem cmpcfg_block {k : Nat} (hk : k < 4) : R.timeCmpcfg k / 0x10000 = Blk.time := by
  simp only [R.timeCmpcfg, Blk.time]
  omega

section
variable (d : Dev) {w : Nat} (h : bit w 31 = true)
include h

theorem writeSide_bbxCtrl : d.writeSide R.bbxCtrl w = d.bbxRearm := by
  rw [Dev.writeSide, if_neg (by decide), if_neg (by decide), if_neg (by decide), if_neg (by decide), if_pos ⟨rfl, h⟩]

theorem writeSide_mdiocmd : d.writeSide (R.macMdiocmd 12) w = d.mdioGo := by
  rw [Dev.writeSide, if_neg (by decide), if_neg (by decide), if_neg (by decide), if_neg (by decide), if_neg (fun hc => absurd hc.1 (by decide)),
    if_neg (fun hc => absurd hc.1 (by decide)), if_pos ⟨rfl, h⟩]

theorem writeSide_rbctl : d.writeSide R.glnRbctl w = d.readbackGo := by
  rw [Dev.writeSide, if_neg (by decide), if_neg (by decide), if_neg (by decide), if_neg (by decide), if_neg (fun hc => absurd hc.1 (by decide)),
    if_neg (fun hc => absurd hc.1 (by decide)), if_neg (fun hc => absurd hc.1 (by decide)), if_pos ⟨rfl, h⟩]

theorem writeSide_cmpcfg {k : Nat} (hk : k < 4) : d.writeSide (R.timeCmpcfg k) w = d.compareArm k := by
  have hx : R.timeCmpcfg k % 0x10000 = 0x204 + 16 * k := by
    simp only [R.timeCmpcfg]
    omega
  have hk' : (0x204 + 16 * k - 0x200) / 16 = k := by omega
  obtain ⟨h1, h2, h3, h4, h5, h6, h7⟩ := cmpcfg_ne k hk
  have hin : 0x200 ≤ 0x204 + 16 * k ∧ 0x204 + 16 * k < 0x240 ∧ (0x204 + 16 * k) % 16 = 4 := by omega
  simp only [Dev.writeSide, cmpcfg_block hk, hx, h1, h2, h3, h4, h5, h6, h7, hin, h, hk', show ¬(Blk.time = Blk.evt) by decide, and_false, false_and,
    false_or, if_false, if_true, true_and]

end

/-! ## The vectors sent again -/

theorem Dev.vecLines_congr {d e : Dev} (hk : d.keeps e []) (hflt : e.flt = d.flt) (hevt : e.evt = d.evt) : e.vecLines = d.vecLines := by
  have hreg : ∀ off, e.reg off = d.reg off := fun off => (hk off (by simp)).1
  simp only [Dev.vecLines, Dev.irqLine, Dev.routeVec, Dev.rf, Dev.fltOf, hreg, hflt, hevt]
  rfl

theorem Dev.msixGo_congr {d e : Dev} (hk : d.keeps e []) (hpcie : e.pcie = d.pcie) : e.msixGo = d.msixGo := by
  funext v
  simp only [Dev.msixGo, Dev.rf, (hk R.pcieStat (by simp)).1, hpcie]

theorem Dev.msixGo_msix (d : Dev) (v : Nat) : (d.msix v).msixGo = d.msixGo := by
  unfold Dev.msix
  cases d.msixGo v <;> rfl

/-- Of a list of vectors, those that can leave are sent. -/
theorem Dev.msix_fold_sent (l : List Nat) (d : Dev) : (l.foldl (fun d v => d.msix v) d).pcie.sent = d.pcie.sent ++ l.filter d.msixGo := by
  induction l generalizing d with
  | nil => simp
  | cons v l ih =>
    rw [List.foldl_cons, ih, Dev.msixGo_msix, List.filter_cons]
    cases hgo : d.msixGo v <;> simp [Dev.msix, Dev.onPcie, hgo]

/-! ## A direct write of a whole word -/

section
variable {z : State} {c : Instr} {v : RegVia} {off rw ws data : Nat} (h : atOnceReg off rw ws = true)
  (hc : exec c z = z.runRow (fun s => s.regOp v off 0xFFFFFFFF data)) (hv : v.cmd = false) (hrst : z.sys.dev.inReset = false)
  (hcmd : off / 0x10000 ≠ Blk.cmd) (hopen : z.sys.dev.open_ (off / 0x10000)) (hd : data < 2 ^ 32)
include h hc hv hrst hcmd hopen hd

theorem exec_atOnce_word : exec c z =
    .next (z.put { z.sys with dev := ((z.sys.dev.atC v.c).written off rw data).writeSide off (data &&& (rw ||| ws)) }) := by
  exact exec_atOnce h (mergeBits_full (w := 32) (Nat.and_le_left.trans_lt (z.sys.dev.reg_lt _)) hd) hc hv hrst hcmd hopen

end

/-! ## FLTSTAT, TIME.INC and LOCKNC -/

/-- How every direct write begins: the block is on, and the write not barred. -/
theorem Dev.open_not_locked {d : Dev} {b : Nat} (h : d.open_ b) : (true && bit (d.reg R.cmdPolicy) 1 && dataPlane.contains b) = false := by
  rw [Bool.true_and, Bool.and_eq_false_iff]
  exact h.2

theorem Dev.open_atC {d : Dev} {b : Nat} (h : d.open_ b) (c : Nat) : (d.atC c).open_ b := h.imp_left (d.blockOn_atC b c).trans

theorem fltstat_block {b : Nat} : R.fltstat b / 0x10000 = b := by
  have := fltOff_lt b
  simp only [R.fltstat]
  omega

/-- No status register is STEPACC or BOOTDATA, or takes a bit that is not cleared by a one. -/
theorem fltstat_row : ∀ b, b < 31 → isStepacc (R.fltstat b) = false ∧ R.fltstat b ≠ R.sysBootdata ∧ R.fltstat b ≠ R.pwrRst ∨ (faultSrcs b).length = 0 := by decide

section
variable {z : State} {v : RegVia} (hv : v.cmd = false) (hrst : z.sys.dev.inReset = false)
include hv hrst

/-- A write of FLTSTAT clears the bits it names (R43, R359). -/
theorem exec_fltstat_direct {b mask : Nat} {r : RegRow} (hrow : rowAt (R.fltstat b) = some r) (hsrc : (faultSrcs b).length ≠ 0) (hb : b ≠ Blk.cmd)
    (hw : r.writable &&& mask ≠ 0) (hm : mask < 2 ^ 32) (hopen : z.sys.dev.open_ b) : exec (.faultStatusClear v b mask) z =
      .next (z.put { z.sys with dev := (z.sys.dev.atC v.c).clearFlt b (mask &&& r.writable) }) := by
  have hlt : b < 31 := by
    have := (mem_of_rowAt hrow).1
    rwa [fltstat_block] at this
  obtain ⟨hacc, hboot, hpr⟩ := (fltstat_row b hlt).resolve_right hsrc
  obtain ⟨hon, hlock⟩ := Dev.open_atC hopen v.c
  have hlock' := Dev.open_not_locked (Dev.open_atC hopen v.c)
  have hfull : r.writable &&& 0xFFFFFFFF = r.writable := Nat.and_two_pow_sub_one_of_lt_two_pow (n := 32) (writable_lt hrow)
  have hw0 : r.writable ≠ 0 := by
    intro h0
    rw [h0, Nat.zero_and] at hw
    exact hw rfl
  have hword : z.sys.dev.wordOf (R.fltstat b) 0xFFFFFFFF mask = mask := by
    simp only [Dev.wordOf, hrow]
    exact mergeBits_full (w := 32) (Nat.and_le_left.trans_lt (z.sys.dev.reg_lt _)) hm
  have hdir : (WSrc.direct == WSrc.direct) = true := rfl
  have hwrite : (z.sys.dev.atC v.c).regWrite .direct (R.fltstat b) mask 0xFFFFFFFF = (z.sys.dev.atC v.c).clearFlt b (mask &&& r.writable) := by
    simp only [Dev.regWrite, hrow, fltstat_block, hon, hacc, hdir, hfull, hw0, hlock', hsrc, ne_eq, not_false_eq_true, and_self, Bool.not_true, Bool.false_eq_true,
      if_false, if_true]
  rw [exec_runRow (f := fun s => s.regOp v (R.fltstat b) 0xFFFFFFFF mask) rfl hrst,
    regOp_direct z.sys 0xFFFFFFFF mask hv (plainTarget_of_row hrow hboot hpr) (by rwa [fltstat_block]), Sys.onDev, hword, hwrite]

/-- A write of TIME.INC takes the fraction within its bounds (R178). -/
theorem exec_timeInc_direct {frac : Nat} (hf : frac < 2 ^ 32) (hopen : z.sys.dev.open_ Blk.time) : exec (.timeIncWrite v frac) z =
      .next (z.put { z.sys with dev := (z.sys.dev.atC v.c).writeInc frac }) := by
  obtain ⟨r, hrow, hr⟩ : ∃ r, rowAt R.timeInc = some r ∧ r.writable = 0xFFFFFFFF := ⟨_, rfl, rfl⟩
  obtain ⟨hon, hlock⟩ := Dev.open_atC hopen v.c
  have hlock' := Dev.open_not_locked (Dev.open_atC hopen v.c)
  have hword : z.sys.dev.wordOf R.timeInc 0xFFFFFFFF frac = frac := by
    simp only [Dev.wordOf, hrow]
    exact mergeBits_full (w := 32) (Nat.and_le_left.trans_lt (z.sys.dev.reg_lt _)) hf
  have hfull : mergeBits ((z.sys.dev.atC v.c).reg R.timeInc) 0xFFFFFFFF frac = frac := mergeBits_full (w := 32) (Dev.reg_lt _ _) hf
  have hdir : (WSrc.direct == WSrc.direct) = true := rfl
  have hblk : R.timeInc / 0x10000 = Blk.time := rfl
  have hand : (0xFFFFFFFF : Nat) &&& 0xFFFFFFFF = 0xFFFFFFFF := rfl
  have hwrite : (z.sys.dev.atC v.c).regWrite .direct R.timeInc frac 0xFFFFFFFF = (z.sys.dev.atC v.c).writeInc frac := by
    simp only [Dev.regWrite, hrow, hblk, hon, show isStepacc R.timeInc = false from rfl, hdir, hr, hand, hlock', show ¬(R.timeInc = R.fltstat Blk.time) by decide,
      hfull, and_false, Bool.not_true, Bool.false_eq_true, if_false, if_true, show ¬((0xFFFFFFFF : Nat) = 0) by decide]
  rw [exec_runRow (f := fun s => s.regOp v R.timeInc 0xFFFFFFFF frac) rfl hrst,
    regOp_direct z.sys 0xFFFFFFFF frac hv (plainTarget_of_row hrow (by decide) (by decide)) (by decide), Sys.onDev, hword, hwrite]

end

/-- With nothing owed and nothing queued, CMD does nothing. -/
theorem cmdRun_idle {s : Sys} (ho : s.dev.cmd.owed = []) (hq : s.dev.cmdQueued = 0) : s.cmdRun = s := by
  simp only [Sys.cmdRun, hq, Sys.cmdRunN, Sys.flush, ho, List.foldl_nil]
  rw [← ho]
  rfl


/-! ## What each row leaves -/

theorem Dev.keeps_of_regs {d e : Dev} (h : d.sameRegs e) (l : List Nat) : d.keeps e l := fun off _ => ⟨h.reg off, h.lv off⟩

theorem mod_and {m w : Nat} (a : Nat) (hm : m < 2 ^ w) : a % 2 ^ w &&& m = a &&& m := by
  rw [← Nat.and_two_pow_sub_one_eq_mod, Nat.and_assoc, Nat.and_comm (2 ^ w - 1), Nat.and_two_pow_sub_one_of_lt_two_pow hm]

/-- The GO bit of a word. -/
theorem go_bit {x m : Nat} (hx : x < 2 ^ 31) (hm : m.testBit 31 = true) : bit ((2 ^ 31 + x) &&& m) 31 = true := by
  rw [bit_eq_testBit, Nat.testBit_and, hm, Nat.testBit_two_pow_add_eq, Nat.testBit_lt_two_pow hx]
  rfl

/-- A transaction on MDIO begins with its word. -/
theorem Dev.mdioGo_out (d : Dev) (h : ¬d.rf (R.macMdiodata 12) 31 1 = 1) :
    d.mdioGo.out = { d.out with mdio := d.out.mdio ++ [d.reg (R.macMdiocmd 12)] } := by
  have hgo : d.mdioGo.out = { (d.setFld (R.macMdiodata 12) 31 1 1).out with
      mdio := (d.setFld (R.macMdiodata 12) 31 1 1).out.mdio ++ [d.reg (R.macMdiocmd 12)] } := by
    unfold Dev.mdioGo
    rw [if_neg h]
  rw [hgo, Dev.setFld_out]

/-- The registers change as BUSY is set. -/
theorem Dev.mdioGo_sameRegs (d : Dev) (h : ¬d.rf (R.macMdiodata 12) 31 1 = 1) : (d.setFld (R.macMdiodata 12) 31 1 1).sameRegs d.mdioGo := by
  refine ⟨?_, ?_, ?_⟩
  · unfold Dev.mdioGo
    rw [if_neg h]
  · unfold Dev.mdioGo
    rw [if_neg h]
  · unfold Dev.mdioGo
    rw [if_neg h]

section
variable {z : State} {v : RegVia} (hv : v.cmd = false) (hrst : z.sys.dev.inReset = false)
include hv hrst

/-- WDKICK restarts the watchdog (R371). -/
theorem wdogKick_direct (hopen : z.sys.dev.open_ Blk.bbx) : ∃ t, exec (.wdogKick v) z = .next t ∧ z.outside t ∧
    t.sys.dev.bbx = { z.sys.dev.bbx with wdMs := 0 } ∧ z.sys.dev.keeps t.sys.dev [] :=
  ⟨_, exec_atOnce_word (off := R.bbxWdkick) (rw := 0) (ws := 1) (by decide) rfl hv hrst (by decide) hopen (by decide), ⟨rfl, rfl, rfl⟩, rfl,
    (z.sys.dev.atC v.c).written_keeps_all 1 (fun _ => rfl) []⟩

/-- RESEND sends again the vectors it names whose lines are asserted (R405). -/
theorem vectorResend_direct {vec : Nat} (hvec : vec < 2 ^ 32) (hopen : z.sys.dev.open_ Blk.evt) : ∃ t, exec (.vectorResend v vec) z = .next t ∧ z.outside t ∧
    t.sys.dev.pcie.sent = z.sys.dev.pcie.sent ++ (bitsOn 32 (vec &&& z.sys.dev.vecLines)).filter z.sys.dev.msixGo ∧
    t.sys.dev.evt = z.sys.dev.evt ∧ z.sys.dev.keeps t.sys.dev [] := by
  refine ⟨_, exec_atOnce_word (off := R.evtResend) (rw := 0) (ws := 0xFFFFFFFF) (by decide) rfl hv hrst (by decide) hopen hvec, ⟨rfl, rfl, rfl⟩, ?_⟩
  have hk : z.sys.dev.keeps ((z.sys.dev.atC v.c).written R.evtResend 0 vec) [] := (z.sys.dev.atC v.c).written_keeps_all vec (fun _ => rfl) []
  have hword : vec &&& (0 ||| 0xFFFFFFFF) = vec := Nat.and_two_pow_sub_one_of_lt_two_pow (n := 32) hvec
  have hlines := Dev.vecLines_congr hk rfl rfl
  have hgo := Dev.msixGo_congr hk rfl
  rw [hword]
  change ((Dev.vectorResend _ vec).pcie.sent = _) ∧ (Dev.vectorResend _ vec).evt = _ ∧ z.sys.dev.keeps (Dev.vectorResend _ vec) []
  rw [Dev.vectorResend, hlines]
  obtain ⟨g, hg⟩ := Dev.msix_fold (bitsOn 32 (vec &&& z.sys.dev.vecLines)) ((z.sys.dev.atC v.c).written R.evtResend 0 vec)
  refine ⟨?_, by rw [hg]; rfl, by rw [hg]; exact hk⟩
  rw [Dev.msix_fold_sent, hgo]
  rfl

/-- GO starts a readback (R408). -/
theorem readbackGo_direct (count : Nat) (hopen : z.sys.dev.open_ Blk.gln) (hidle : z.sys.dev.rf R.glnRbstat 31 1 = 0) :
    ∃ t, exec (.readbackGo v count) z = .next t ∧ z.outside t ∧
      t.sys.dev.reg R.glnRbstat = 2 ^ 31 ∧ t.sys.dev.reg R.glnRbfirst = 0xFFFFFFFF ∧ t.sys.dev.rf R.glnRbctl 0 16 = count % 65536 ∧
      z.sys.dev.keeps t.sys.dev [R.glnRbctl, R.glnRbstat, R.glnRbfirst] := by
  refine ⟨_, exec_atOnce_word (off := R.glnRbctl) (rw := 65535) (ws := 2147483648) (by decide) rfl hv hrst (by decide) hopen (by omega), ⟨rfl, rfl, rfl⟩, ?_⟩
  rw [writeSide_rbctl _ (go_bit (by omega) (by decide))]
  set e := (z.sys.dev.atC v.c).written R.glnRbctl 65535 (2 ^ 31 + count % 65536) with he
  have hidle' : ¬e.rf R.glnRbstat 31 1 = 1 := by
    rw [Dev.rf, he, ((z.sys.dev.atC v.c).written_keeps R.glnRbctl _ _ R.glnRbstat (by decide)).1]
    exact fun h1 => absurd (hidle.symm.trans h1) (by decide)
  have hgo : e.readbackGo = (e.setReg R.glnRbstat (2 ^ 31)).setReg R.glnRbfirst 0xFFFFFFFF := if_neg hidle'
  have hke : z.sys.dev.keeps e [R.glnRbctl, R.glnRbstat, R.glnRbfirst] := ((z.sys.dev.atC v.c).written_keeps R.glnRbctl _ _).mono (by simp)
  have hk : e.keeps ((e.setReg R.glnRbstat (2 ^ 31)).setReg R.glnRbfirst 0xFFFFFFFF) [R.glnRbstat, R.glnRbfirst] :=
    (e.keeps_setReg R.glnRbstat _ (by simp)).trans (Dev.keeps_setReg _ R.glnRbfirst _ (by simp))
  have hct : e.reg R.glnRbctl &&& 65535 = (2 ^ 31 + count % 65536) &&& 65535 := by
    rw [he, Dev.reg_written _ (fun _ => rfl) (by decide)]
    exact mergeBits_and_of_subset (by decide)
  simp only [State.put, hgo]
  refine ⟨?_, ?_, ?_, hke.trans (hk.mono (by simp))⟩
  · exact (Dev.reg_setReg_ne _ _ _ _ (by decide)).trans (e.reg_setReg _ _)
  · exact Dev.reg_setReg _ _ _
  · rw [Dev.rf, (hk R.glnRbctl (by decide)).1]
    have h16 : fld (e.reg R.glnRbctl) 0 16 = e.reg R.glnRbctl &&& 65535 := by
      rw [fld, Nat.and_two_pow_sub_one_eq_mod (n := 16)]
      simp
    rw [h16, hct, Nat.and_two_pow_sub_one_eq_mod (n := 16)]
    omega

/-- GO starts an MDIO transaction (R189). -/
theorem mdioGo_direct (word : Nat) (hopen : z.sys.dev.open_ Blk.macm) (hidle : z.sys.dev.rf (R.macMdiodata 12) 31 1 = 0) :
    ∃ t w, exec (.mdioGo v word) z = .next t ∧ z.outside t ∧
      t.sys.dev.out = { z.sys.dev.out with mdio := z.sys.dev.out.mdio ++ [w] } ∧ w = t.sys.dev.reg (R.macMdiocmd 12) ∧ w &&& 2147287039 = word &&& 2147287039 ∧
      t.sys.dev.rf (R.macMdiodata 12) 31 1 = 1 ∧ z.sys.dev.keeps t.sys.dev [R.macMdiocmd 12, R.macMdiodata 12] := by
  refine ⟨_, ((z.sys.dev.atC v.c).written (R.macMdiocmd 12) 2147287039 (2 ^ 31 + word % 2 ^ 31)).reg (R.macMdiocmd 12),
    exec_atOnce_word (off := R.macMdiocmd 12) (rw := 2147287039) (ws := 2147483648) (by decide) rfl hv hrst (by decide) hopen (by omega),
    ⟨rfl, rfl, rfl⟩, ?_⟩
  rw [writeSide_mdiocmd _ (go_bit (by omega) (by decide))]
  set e := (z.sys.dev.atC v.c).written (R.macMdiocmd 12) 2147287039 (2 ^ 31 + word % 2 ^ 31) with he
  have hidle' : ¬e.rf (R.macMdiodata 12) 31 1 = 1 := by
    rw [Dev.rf, he, ((z.sys.dev.atC v.c).written_keeps (R.macMdiocmd 12) _ _ (R.macMdiodata 12) (by decide)).1]
    exact fun h1 => absurd (hidle.symm.trans h1) (by decide)
  have hke : z.sys.dev.keeps e [R.macMdiocmd 12, R.macMdiodata 12] := ((z.sys.dev.atC v.c).written_keeps (R.macMdiocmd 12) _ _).mono (by simp)
  have hkd : e.keeps (e.setFld (R.macMdiodata 12) 31 1 1) [R.macMdiodata 12] := e.keeps_setFld _ _ _ _ (by simp)
  have hw : e.reg (R.macMdiocmd 12) &&& 2147287039 = word &&& 2147287039 := by
    have hword : (2 ^ 31 + word % 2 ^ 31) &&& 2147287039 = word &&& 2147287039 := by
      rw [← mod_and (2 ^ 31 + word % 2 ^ 31) (w := 31) (by decide), Nat.add_mod_left, Nat.mod_mod, mod_and word (by decide)]
    rw [he, Dev.reg_written _ (fun _ => rfl) (by decide), ← hword]
    exact mergeBits_and_of_subset (by decide)
  have hsame := e.mdioGo_sameRegs hidle'
  have hkg : e.keeps e.mdioGo [R.macMdiodata 12] := hkd.trans (Dev.keeps_of_regs hsame _)
  have hbusy : e.mdioGo.rf (R.macMdiodata 12) 31 1 = (e.setFld (R.macMdiodata 12) 31 1 1).rf (R.macMdiodata 12) 31 1 := by
    rw [Dev.rf, Dev.sameRegs.reg hsame, Dev.rf]
  exact ⟨e.mdioGo_out hidle', (hkg (R.macMdiocmd 12) (by decide)).1.symm, hw, hbusy.trans (Dev.rf_setFld _ _ _ _ _ (by decide)), hke.trans (hkg.mono (by simp))⟩

end


/-! ## Bits of the words written -/

@[simp] theorem bit_bitSet_same (v i : Nat) (b : Bool) : bit (bitSet v i b) i = b := by
  rw [bit_eq_fld, bitSet, fld_fldSet]
  cases b <;> rfl

/-- A word that brings the RW fields as they are leaves them. -/
theorem mergeBits_outside {rw m : Nat} (o v : Nat) (h : rw &&& m = 0) : mergeBits o rw (mergeBits (o &&& rw) m v) = o := by
  refine Nat.eq_of_testBit_eq (fun i => ?_)
  have hi : ((rw &&& m).testBit i) = false := by rw [h, Nat.zero_testBit]
  rw [Nat.testBit_and] at hi
  rw [testBit_mergeBits, testBit_mergeBits, Nat.testBit_and]
  cases hr : rw.testBit i
  · rfl
  · rw [hr, Bool.true_and] at hi
    simp [hi]

/-- A word that sets a bit of the RW fields, and brings the others as they are. -/
theorem mergeBits_set {rw m : Nat} (o : Nat) (h : m &&& rw = m) : mergeBits o rw (mergeBits (o &&& rw) m m) = o ||| m := by
  refine Nat.eq_of_testBit_eq (fun i => ?_)
  have hi : (m &&& rw).testBit i = m.testBit i := by rw [h]
  rw [Nat.testBit_and] at hi
  rw [testBit_mergeBits, testBit_mergeBits, Nat.testBit_and, Nat.testBit_or]
  cases hm : m.testBit i
  · cases hr : rw.testBit i <;> simp
  · rw [hm, Bool.true_and] at hi
    simp [hi]

/-- The parts of BBX.STAT after REARM. -/
theorem rearm_parts {a b : Nat} (ha : a < 2 ^ 26) (hb : b < 2) : a + b * 2 ^ 29 < 2 ^ 32 ∧ fld (a + b * 2 ^ 29) 31 1 = 0 ∧ fld (a + b * 2 ^ 29) 26 3 = 0 ∧
    fld (a + b * 2 ^ 29) 30 1 = 0 ∧ fld (a + b * 2 ^ 29) 0 26 = a := by
  simp only [fld]
  omega

/-! ## REARM -/

/-- The registers that REARM writes, in turn. -/
def Dev.rearmed (d : Dev) : Dev :=
  (((d.setReg R.bbxStat (d.reg R.bbxStat % 2 ^ 26 + d.rf R.bbxStat 29 1 * 2 ^ 29)).setReg R.bbxTrig 0).setReg R.bbxTrigseq 0).setFld R.bbxDstat 30 1 0

theorem Dev.bbxRearm_sameRegs (d : Dev) : d.rearmed.sameRegs d.bbxRearm := by
  unfold Dev.rearmed Dev.bbxRearm Dev.sameRegs
  with_reducible exact ⟨rfl, rfl, rfl⟩

theorem Dev.rearmed_keeps (d : Dev) : d.keeps d.rearmed [R.bbxStat, R.bbxTrig, R.bbxTrigseq, R.bbxDstat] :=
  ((d.keeps_setReg R.bbxStat _ (by simp)).trans (Dev.keeps_setReg _ R.bbxTrig 0 (by simp))).trans
    ((Dev.keeps_setReg _ R.bbxTrigseq 0 (by simp)).trans (Dev.keeps_setFld _ R.bbxDstat 30 1 0 (by simp)))

theorem Dev.rearmed_regs (d : Dev) : d.rearmed.reg R.bbxStat = d.reg R.bbxStat % 2 ^ 26 + d.rf R.bbxStat 29 1 * 2 ^ 29 ∧ d.rearmed.reg R.bbxTrig = 0 ∧
    d.rearmed.reg R.bbxTrigseq = 0 ∧ d.rearmed.rf R.bbxDstat 30 1 = 0 := by
  have hlt := (rearm_parts (Nat.mod_lt (d.reg R.bbxStat) (by decide)) (b := d.rf R.bbxStat 29 1) (Nat.mod_lt _ (by decide))).1
  unfold Dev.rearmed
  refine ⟨?_, ?_, ?_, Dev.rf_setFld _ R.bbxDstat 30 1 0 (by decide)⟩
  · rw [Dev.reg_setFld_ne _ _ _ _ _ _ (by decide), Dev.reg_setReg_ne _ _ _ _ (by decide), Dev.reg_setReg_ne _ _ _ _ (by decide), Dev.reg_setReg,
      Nat.mod_eq_of_lt hlt]
  · rw [Dev.reg_setFld_ne _ _ _ _ _ _ (by decide), Dev.reg_setReg_ne _ _ _ _ (by decide), Dev.reg_setReg, Nat.zero_mod]
  · rw [Dev.reg_setFld_ne _ _ _ _ _ _ (by decide), Dev.reg_setReg, Nat.zero_mod]

/-! ## The time counter -/

/-- Bringing the counter to the cycle changes the time unit alone. -/
theorem Dev.timeNow_eq (d : Dev) : ∃ τ, d.timeNow = { d with time := τ } := by
  unfold Dev.timeNow Dev.timeTo
  split
  · exact ⟨_, rfl⟩
  · exact ⟨_, rfl⟩

/-- The counter depends on its increment, its validity and the cycle. -/
theorem Dev.timeNow_time_congr {d e : Dev} (ht : e.time = d.time) (hc : e.cycle = d.cycle) (hs : e.reg R.timeStat = d.reg R.timeStat)
    (hi : e.reg R.timeInc = d.reg R.timeInc) : e.timeNow.time = d.timeNow.time := by
  have hv : e.timeValid = d.timeValid := by rw [Dev.timeValid, Dev.rf, hs, Dev.timeValid, Dev.rf]
  have hn : e.timeInc = d.timeInc := by rw [Dev.timeInc, hi, Dev.timeInc]
  rw [Dev.timeNow, Dev.timeNow, hc, Dev.timeTo, Dev.timeTo, hv, hn, ht]
  cases d.timeValid
  · rfl
  · rfl

/-- A compare unit that is armed changes the time unit alone. -/
theorem Dev.compareArm_sameRegs (d : Dev) (k : Nat) : d.sameRegs (d.compareArm k) := by
  obtain ⟨τ, hτ⟩ := d.timeNow_eq
  unfold Dev.compareArm
  rw [hτ]
  exact ⟨rfl, rfl, rfl⟩

theorem Dev.compareArm_late (d : Dev) (k : Nat) : bit (d.compareArm k).time.late k = decide (d.timeNow.cmpDiff k ≤ 0) := bit_bitSet_same _ _ _

theorem Dev.cmpDiff_congr {d e : Dev} {k : Nat} (ht : e.time = d.time) (hr : e.reg (R.timeCmptgt k) = d.reg (R.timeCmptgt k)) : e.cmpDiff k = d.cmpDiff k := by
  rw [Dev.cmpDiff, hr, Dev.shortTime, Dev.timeNs, ht, Dev.cmpDiff, Dev.shortTime, Dev.timeNs]

theorem Dev.keeps_timeNow (d : Dev) (l : List Nat) : d.keeps d.timeNow l := by
  obtain ⟨τ, hτ⟩ := d.timeNow_eq
  rw [hτ]
  exact Dev.keeps_of_regs ⟨rfl, rfl, rfl⟩ l

/-- The increment as stored, with INC_CLAMP where it was out of bounds (R178). -/
theorem Dev.writeInc_leaves (d : Dev) (v : Nat) : (d.writeInc v).reg R.timeInc = incStored v ∧ (d.writeInc v).time = d.timeNow.time ∧
    (incStored v ≠ v → (d.writeInc v).rf R.timeStat 3 1 = 1 ∧ (d.writeInc v).rf (R.fltstat Blk.time) Src.timeIncClamp 1 = 1) ∧
    (incStored v = v → d.keeps (d.writeInc v) [R.timeInc]) := by
  have hs : incStored v < 2 ^ 32 := by
    unfold incStored clampN
    omega
  have hreg : (d.timeNow.setReg R.timeInc (incStored v)).reg R.timeInc = incStored v := (Dev.reg_setReg _ _ _).trans (Nat.mod_eq_of_lt hs)
  by_cases h : incStored v = v
  · have hw : d.writeInc v = d.timeNow.setReg R.timeInc (incStored v) := if_pos h
    rw [hw]
    exact ⟨hreg, rfl, fun hne => absurd h hne, fun _ => (d.keeps_timeNow _).trans (Dev.keeps_setReg _ _ _ (by simp))⟩
  · have hw : d.writeInc v = ((d.timeNow.setReg R.timeInc (incStored v)).setFld R.timeStat 3 1 1).raise Blk.time Src.timeIncClamp v (incStored v) 0 := if_neg h
    rw [hw]
    refine ⟨?_, ?_, fun _ => ⟨?_, ?_⟩, fun heq => absurd heq h⟩
    · rw [Dev.reg_raise_ne _ _ _ _ _ _ _ (by decide) (by decide), Dev.reg_setFld_ne _ _ _ _ _ _ (by decide), hreg]
    · rw [Dev.raise_time, Dev.setFld_time, Dev.setReg_time]
    · rw [Dev.rf, Dev.reg_raise_ne _ _ _ _ _ _ _ (by decide) (by decide)]
      exact Dev.rf_setFld _ _ _ _ _ (by decide)
    · rw [Dev.rf, Dev.reg_raise _ _ _ _ _ _ (by decide), fld_mod_pow _ _ _ _ (by decide), bitSet, fld_fldSet]
      rfl

/-! ## FLTSTAT -/

theorem Dev.keeps_irqUpdate (d : Dev) (l : List Nat) : d.keeps d.irqUpdate l := by
  obtain ⟨f, g, h⟩ := d.irqUpdate_eq
  rw [h]
  exact Dev.keeps_of_regs ⟨rfl, rfl, rfl⟩ l

@[simp] theorem Dev.fltOf_irqUpdate (d : Dev) (b : Nat) : d.irqUpdate.fltOf b = d.fltOf b := by
  obtain ⟨f, g, h⟩ := d.irqUpdate_eq
  rw [h]
  rfl

/-- What a clear of bits of FLTSTAT leaves (R359). -/
theorem Dev.clearFlt_leaves (d : Dev) (b mask : Nat) : (d.clearFlt b mask).reg (R.fltstat b) = d.reg (R.fltstat b) - (d.reg (R.fltstat b) &&& mask) ∧
    (∀ src, (d.fltOf b).first = some src → bit mask src = true → (d.clearFlt b mask).reg (R.fltfirst b) = 0 ∧ ((d.clearFlt b mask).fltOf b).first = none) ∧
    d.keeps (d.clearFlt b mask) [R.fltstat b, R.fltfirst b] := by
  have hne : R.fltstat b ≠ R.fltfirst b := by
    simp only [R.fltstat, R.fltfirst]
    omega
  have hlt : d.reg (R.fltstat b) - (d.reg (R.fltstat b) &&& mask) < 2 ^ 32 := (Nat.sub_le _ _).trans_lt (d.reg_lt _)
  have hstat := (d.reg_setReg (R.fltstat b) (d.reg (R.fltstat b) - (d.reg (R.fltstat b) &&& mask))).trans (Nat.mod_eq_of_lt hlt)
  have hk1 : d.keeps (d.setReg (R.fltstat b) (d.reg (R.fltstat b) - (d.reg (R.fltstat b) &&& mask))) [R.fltstat b, R.fltfirst b] :=
    d.keeps_setReg _ _ (by simp)
  set e := d.setReg (R.fltstat b) (d.reg (R.fltstat b) - (d.reg (R.fltstat b) &&& mask)) with he
  cases hf : (d.fltOf b).first with
  | none =>
    have hclear : d.clearFlt b mask = (e.onFlt b (fun f => { f with sev2 := f.sev2 - (f.sev2 &&& mask) })).irqUpdate := by simp only [Dev.clearFlt, hf, he]
    rw [hclear]
    refine ⟨((Dev.keeps_irqUpdate _ [] _ (by simp)).1).trans hstat, fun src h => (by cases h), hk1.trans (Dev.keeps_irqUpdate (e.onFlt b _) _)⟩
  | some src =>
    have hsrc : ∀ x, some src = some x → src = x := fun x h => Option.some.inj h
    cases hbit : bit mask src with
    | false =>
      have hclear : d.clearFlt b mask = (e.onFlt b (fun f => { f with sev2 := f.sev2 - (f.sev2 &&& mask) })).irqUpdate := by
        simp only [Dev.clearFlt, hf, hbit, he, Bool.false_eq_true, if_false]
      rw [hclear]
      refine ⟨((Dev.keeps_irqUpdate _ [] _ (by simp)).1).trans hstat, fun x h hx => ?_, hk1.trans (Dev.keeps_irqUpdate (e.onFlt b _) _)⟩
      rw [← hsrc x h, hbit] at hx
      cases hx
    | true =>
      have hclear : d.clearFlt b mask = ((e.setReg (R.fltfirst b) 0).onFlt b (fun f => { f with
          first := none
          sev2 := f.sev2 - (f.sev2 &&& mask)
          react := f.react.map (fun (r : Reaction) => { r with first := false }) })).irqUpdate := by
        simp only [Dev.clearFlt, hf, hbit, he, if_true]
      have hk2 : e.keeps (e.setReg (R.fltfirst b) 0) [R.fltstat b, R.fltfirst b] := e.keeps_setReg _ _ (by simp)
      rw [hclear]
      refine ⟨?_, fun x h hx => ⟨?_, ?_⟩, hk1.trans (hk2.trans (Dev.keeps_irqUpdate ((e.setReg (R.fltfirst b) 0).onFlt b _) _))⟩
      · exact (Dev.keeps_irqUpdate _ [] _ (by simp)).1.trans ((e.reg_setReg_ne _ _ _ hne).trans hstat)
      · exact (Dev.keeps_irqUpdate _ [] _ (by simp)).1.trans (e.reg_setReg _ _)
      · rw [Dev.fltOf_irqUpdate]
        have hlen : b < d.flt.length := by
          by_contra hb
          have hnil : d.flt[b]? = none := List.getElem?_eq_none (not_lt.1 hb)
          rw [Dev.fltOf, List.getD_eq_getElem?_getD, hnil] at hf
          cases hf
        rw [Dev.fltOf, Dev.onFlt, getD_updAt, if_pos ⟨rfl, hlen⟩]

section
variable {z : State} {v : RegVia} (hv : v.cmd = false) (hrst : z.sys.dev.inReset = false)
include hv hrst

/-- REARM clears what a trigger left (R385). -/
theorem bbxRearm_direct (hopen : z.sys.dev.open_ Blk.bbx) : ∃ t, exec (.bbxRearm v) z = .next t ∧ z.outside t ∧ t.sys.dev.rf R.bbxStat 31 1 = 0 ∧
    t.sys.dev.rf R.bbxStat 26 3 = 0 ∧ t.sys.dev.rf R.bbxStat 30 1 = 0 ∧ t.sys.dev.reg R.bbxTrig = 0 ∧ t.sys.dev.reg R.bbxTrigseq = 0 ∧
    t.sys.dev.rf R.bbxDstat 30 1 = 0 ∧ t.sys.dev.rf R.bbxStat 0 26 = z.sys.dev.rf R.bbxStat 0 26 ∧ t.sys.dev.reg R.bbxCtrl = z.sys.dev.reg R.bbxCtrl ∧
    z.sys.dev.keeps t.sys.dev [R.bbxCtrl, R.bbxStat, R.bbxTrig, R.bbxTrigseq, R.bbxDstat] := by
  have hexec := exec_atOnce (z := z) (c := .bbxRearm v) (off := R.bbxCtrl) (rw := 2) (ws := 2147483648) (mask := 2 ^ 31) (data := 2 ^ 31) (by decide) rfl rfl hv
    hrst (by decide) hopen
  set w := mergeBits (z.sys.dev.reg R.bbxCtrl &&& 2) (2 ^ 31) (2 ^ 31) with hw
  have hbit : bit (w &&& (2 ||| 2147483648)) 31 = true := by
    rw [bit_eq_testBit, Nat.testBit_and, hw, testBit_mergeBits, Nat.testBit_two_pow_self, if_pos rfl]
    rfl
  rw [writeSide_bbxCtrl _ hbit] at hexec
  set e := (z.sys.dev.atC v.c).written R.bbxCtrl 2 w with he
  have hke : z.sys.dev.keeps e [R.bbxCtrl] := (z.sys.dev.atC v.c).written_keeps R.bbxCtrl 2 w
  have hctrl : e.reg R.bbxCtrl = z.sys.dev.reg R.bbxCtrl := by
    rw [he, Dev.reg_written _ (fun _ => rfl) (by decide), Dev.reg_atC, hw, mergeBits_outside _ _ (by decide)]
  have hsame := e.bbxRearm_sameRegs
  have hreg : ∀ off, e.bbxRearm.reg off = e.rearmed.reg off := fun off => hsame.reg off
  have hk : e.keeps e.bbxRearm [R.bbxStat, R.bbxTrig, R.bbxTrigseq, R.bbxDstat] := e.rearmed_keeps.trans (Dev.keeps_of_regs hsame _)
  obtain ⟨hstat, htrig, hseq, hdstat⟩ := e.rearmed_regs
  obtain ⟨-, h31, h26, h30, hlow⟩ := rearm_parts (Nat.mod_lt (e.reg R.bbxStat) (by decide : 0 < 2 ^ 26)) (b := e.rf R.bbxStat 29 1) (Nat.mod_lt _ (by decide))
  rw [← hstat, ← hreg] at h31 h26 h30 hlow
  refine ⟨_, hexec, ⟨rfl, rfl, rfl⟩, h31, h26, h30, (hreg _).trans htrig, (hreg _).trans hseq, ?_, ?_, (hk _ (by decide)).1.trans hctrl,
    (hke.mono (by simp)).trans (hk.mono (by simp))⟩
  · simp only [State.put]
    rw [Dev.rf, hreg]
    exact hdstat
  · refine hlow.trans ?_
    rw [(hke R.bbxStat (by decide)).1, Dev.rf, fld, Nat.pow_zero, Nat.div_one]

/-- The fraction is taken within its bounds (R178, R179). -/
theorem timeInc_direct {frac : Nat} (hf : frac < 2 ^ 32) (hopen : z.sys.dev.open_ Blk.time) : ∃ t, exec (.timeIncWrite v frac) z = .next t ∧ z.outside t ∧
    t.sys.dev.reg R.timeInc = (if frac < 292902230 then 292902230 else if 299892736 < frac then 299892736 else frac) ∧
    t.sys.dev.time = ((z.sys.dev.atC v.c).timeNow).time ∧
    ((frac < 292902230 ∨ 299892736 < frac) → t.sys.dev.rf R.timeStat 3 1 = 1 ∧ t.sys.dev.rf (R.fltstat Blk.time) Src.timeIncClamp 1 = 1) ∧
    (292902230 ≤ frac → frac ≤ 299892736 → z.sys.dev.keeps t.sys.dev [R.timeInc]) := by
  obtain ⟨hreg, htime, hclamp, hkeep⟩ := (z.sys.dev.atC v.c).writeInc_leaves frac
  have hs : incStored frac = if frac < 292902230 then 292902230 else if 299892736 < frac then 299892736 else frac := by
    unfold incStored clampN
    split_ifs <;> omega
  refine ⟨_, exec_timeInc_direct hv hrst hf hopen, ⟨rfl, rfl, rfl⟩, hreg.trans hs, htime, fun h => hclamp ?_, fun h1 h2 => hkeep ?_⟩
  · unfold incStored clampN
    omega
  · unfold incStored clampN
    omega

/-- A compare unit is armed, late if its target has passed (R173). -/
theorem compareArm_direct {k : Nat} (period : Nat) (hk : k < 4) (hopen : z.sys.dev.open_ Blk.time) : ∃ t, exec (.compareArm v k period) z = .next t ∧ z.outside t ∧
    t.sys.dev.rf (R.timeCmpcfg k) 31 1 = 1 ∧ t.sys.dev.rf (R.timeCmpcfg k) 0 30 = period % 2 ^ 30 ∧
    bit t.sys.dev.time.late k = decide (((z.sys.dev.atC v.c).timeNow).cmpDiff k ≤ 0) ∧ z.sys.dev.keeps t.sys.dev [R.timeCmpcfg k] := by
  have hmem : R.timeCmpcfg k ∈ (List.range 4).map R.timeCmpcfg := List.mem_map_of_mem (List.mem_range.2 hk)
  have hat : atOnceReg (R.timeCmpcfg k) 3221225471 0 = true := (by decide : ∀ o ∈ (List.range 4).map R.timeCmpcfg, atOnceReg o 3221225471 0 = true) _ hmem
  have hblk := cmpcfg_block hk
  have hrow : exec (.compareArm v k period) z = z.runRow (fun s => s.regOp v (R.timeCmpcfg k) 0xFFFFFFFF (2 ^ 31 + period % 2 ^ 30)) := by
    simp only [exec, execCompareArm, if_pos hk]
  have hexec := exec_atOnce_word hat hrow hv hrst (by rw [hblk]; decide) (by rwa [hblk]) (by omega)
  rw [writeSide_cmpcfg _ (go_bit (by omega) (by decide)) hk] at hexec
  set e := (z.sys.dev.atC v.c).written (R.timeCmpcfg k) 3221225471 (2 ^ 31 + period % 2 ^ 30) with he
  have hst : ∀ x, (z.sys.dev.atC v.c).storedV (R.timeCmpcfg k) 3221225471 x = x := by
    interval_cases k <;> exact fun _ => rfl
  have hreg : e.reg (R.timeCmpcfg k) &&& 3221225471 = (2 ^ 31 + period % 2 ^ 30) &&& 3221225471 := by
    rw [he, Dev.reg_written _ hst (by decide)]
    exact mergeBits_and_of_subset (by decide)
  have hke : z.sys.dev.keeps e [R.timeCmpcfg k] := (z.sys.dev.atC v.c).written_keeps (R.timeCmpcfg k) _ _
  have hkc : e.keeps (e.compareArm k) [] := Dev.keeps_of_regs (e.compareArm_sameRegs k) []
  have hne : ∀ o ∈ [R.timeStat, R.timeInc, R.timeCmptgt k], o ∉ [R.timeCmpcfg k] := by
    simp only [R.timeStat, R.timeInc, R.timeCmptgt, R.timeCmpcfg, List.mem_cons, List.not_mem_nil, or_false]
    omega
  have htime : e.timeNow.time = (z.sys.dev.atC v.c).timeNow.time :=
    Dev.timeNow_time_congr (Dev.written_time _ _ _ _) (Dev.written_cycle _ _ _ _) (hke R.timeStat (hne _ (by simp))).1 (hke R.timeInc (hne _ (by simp))).1
  have hdiff : e.timeNow.cmpDiff k = (z.sys.dev.atC v.c).timeNow.cmpDiff k :=
    Dev.cmpDiff_congr htime (((e.keeps_timeNow [] _ (by simp)).1.trans (hke _ (hne _ (by simp))).1).trans
      ((z.sys.dev.atC v.c).keeps_timeNow [] _ (by simp)).1.symm)
  have hcfg : (e.compareArm k).reg (R.timeCmpcfg k) = e.reg (R.timeCmpcfg k) := (hkc _ (by simp)).1
  refine ⟨_, hexec, ⟨rfl, rfl, rfl⟩, ?_, ?_, (e.compareArm_late k).trans (by rw [hdiff]), hke.trans (hkc.mono (by simp))⟩
  · have hgo := go_bit (x := period % 2 ^ 30) (m := 3221225471) (by omega) (by decide)
    rw [← hreg, bit_eq_testBit, Nat.testBit_and, show (3221225471 : Nat).testBit 31 = true by decide, Bool.and_true, ← bit_eq_testBit, bit_eq_fld, beq_iff_eq] at hgo
    simp only [State.put]
    rw [Dev.rf, hcfg, hgo]
  · simp only [State.put]
    rw [Dev.rf, hcfg, fld, Nat.pow_zero, Nat.div_one, ← Nat.and_two_pow_sub_one_eq_mod]
    have hsub : ∀ a : Nat, a &&& (2 ^ 30 - 1) = a &&& 3221225471 &&& (2 ^ 30 - 1) := fun a => by
      rw [Nat.and_assoc]
      rfl
    rw [hsub, hreg, ← hsub, Nat.and_two_pow_sub_one_eq_mod]
    omega

/-- LOCKNC is set (R347). -/
theorem locknc_direct (hon : z.sys.dev.blockOn Blk.cmd = true) (ho : z.sys.dev.cmd.owed = []) (hq : z.sys.dev.cmdQueued = 0) :
    ∃ t, exec (.lockncSet v) z = .next t ∧ z.outside t ∧
      t.sys.dev.reg R.cmdPolicy = z.sys.dev.reg R.cmdPolicy ||| 2 ∧ z.sys.dev.keeps t.sys.dev [R.cmdPolicy] := by
  have hat : atOnceReg R.cmdPolicy 3 0 = true := by decide
  have hopen : (z.sys.dev.atC v.c).open_ Blk.cmd := Dev.open_atC ⟨hon, .inr (by decide)⟩ v.c
  set w := mergeBits (z.sys.dev.reg R.cmdPolicy &&& 3) 2 2 with hw
  set e := (z.sys.dev.atC v.c).written R.cmdPolicy 3 w with he
  have hwrite : (z.sys.dev.atC v.c).regWrite .direct R.cmdPolicy w 0xFFFFFFFF = e := regWrite_atOnce hat (z.sys.dev.atC v.c) w hopen
  have hword : z.sys.dev.wordOf R.cmdPolicy 2 2 = w := rfl
  have hke : z.sys.dev.keeps e [R.cmdPolicy] := (z.sys.dev.atC v.c).written_keeps R.cmdPolicy 3 w
  have hq' : e.cmdQueued = 0 := by
    simp only [Dev.cmdQueued, Dev.rf] at hq ⊢
    rw [(hke (R.cmdChead 0) (by decide)).1, (hke (R.cmdChead 1) (by decide)).1, (hke (R.cmdCtail 0) (by decide)).1, (hke (R.cmdCtail 1) (by decide)).1,
      (hke (R.cmdCsize 0) (by decide)).1, (hke (R.cmdCsize 1) (by decide)).1, he, Dev.written_cmd, Dev.atC_cmd]
    exact hq
  have hstored : ∀ x, (z.sys.dev.atC v.c).storedV R.cmdPolicy 3 x = x ||| (z.sys.dev.reg R.cmdPolicy &&& 2) := fun _ => rfl
  have hreg : e.reg R.cmdPolicy = z.sys.dev.reg R.cmdPolicy ||| 2 := by
    have hor : (z.sys.dev.reg R.cmdPolicy ||| 2) ||| (z.sys.dev.reg R.cmdPolicy &&& 2) = z.sys.dev.reg R.cmdPolicy ||| 2 := by
      refine Nat.eq_of_testBit_eq (fun i => ?_)
      rw [Nat.testBit_or, Nat.testBit_or, Nat.testBit_and]
      cases (z.sys.dev.reg R.cmdPolicy).testBit i <;> simp
    have hlt : z.sys.dev.reg R.cmdPolicy ||| 2 < 2 ^ 32 := Nat.or_lt_two_pow (z.sys.dev.reg_lt _) (by decide)
    rw [he, Dev.written, Dev.reg_setBoth, hstored, Dev.reg_atC, hw, mergeBits_set _ (by decide), hor, Nat.mod_eq_of_lt hlt]
  have hrun : z.sys.regOp v R.cmdPolicy 2 2 = { z.sys with dev := e } := by
    have hidle : ({ z.sys with dev := e } : Sys).cmdRun = { z.sys with dev := e } := cmdRun_idle ho hq'
    have hhost : (z.sys.onDev (fun d => d.atC v.c)).hostWrite R.cmdPolicy w =
        ({ z.sys with dev := (z.sys.dev.atC v.c).regWrite .direct R.cmdPolicy w 0xFFFFFFFF } : Sys).cmdRun := by
      rw [Sys.hostWrite, if_neg (by decide), if_neg (by decide), if_neg (by decide), if_pos (by decide)]
      rfl
    rw [Sys.regOp, hv, if_neg Bool.false_ne_true, hword, hhost, hwrite, hidle]
  refine ⟨_, exec_runRow (f := fun s => s.regOp v R.cmdPolicy 2 2) rfl hrst, ?_⟩
  rw [hrun]
  exact ⟨⟨rfl, rfl, rfl⟩, hreg, hke⟩

/-- Bits of FLTSTAT clear, and the first fault with its own (R359). -/
theorem faultStatusClear_direct {b mask : Nat} {r : RegRow} (hsrc : (faultSrcs b).length ≠ 0) (hb : b ≠ Blk.cmd) (hrow : rowAt (R.fltstat b) = some r)
    (hw : r.writable &&& mask ≠ 0) (hm : mask < 2 ^ 32) (hopen : z.sys.dev.open_ b) : ∃ t, exec (.faultStatusClear v b mask) z = .next t ∧ z.outside t ∧
    t.sys.dev.reg (R.fltstat b) = z.sys.dev.reg (R.fltstat b) - (z.sys.dev.reg (R.fltstat b) &&& (mask &&& r.writable)) ∧
    (∀ src, (z.sys.dev.fltOf b).first = some src → bit (mask &&& r.writable) src = true →
      t.sys.dev.reg (R.fltfirst b) = 0 ∧ (t.sys.dev.fltOf b).first = none) ∧
    z.sys.dev.keeps t.sys.dev [R.fltstat b, R.fltfirst b] :=
  ⟨_, exec_fltstat_direct hv hrst hrow hsrc hb hw hm hopen, ⟨rfl, rfl, rfl⟩, (z.sys.dev.atC v.c).clearFlt_leaves b (mask &&& r.writable)⟩

/-- GPIO.OUT takes its byte (R433). -/
theorem gpioOut_direct (mask data : Nat) (hon : z.sys.dev.blockOn Blk.gpio = true) : ∃ t, exec (.registerWrite v R.gpioOut mask data) z = .next t ∧ z.outside t ∧
    (∀ i, i < 8 → bit (t.sys.dev.reg R.gpioOut) i = if bit mask i then bit data i else bit (z.sys.dev.reg R.gpioOut) i) ∧
    t.sys.dev.lv R.gpioOut % 256 = t.sys.dev.reg R.gpioOut % 256 ∧ z.sys.dev.keeps t.sys.dev [R.gpioOut] := by
  refine ⟨_, exec_atOnce (off := R.gpioOut) (rw := 255) (ws := 0) (by decide) rfl rfl hv hrst (by decide) ⟨hon, .inr (by decide)⟩, ⟨rfl, rfl, rfl⟩, ?_⟩
  have hside : ∀ (d : Dev) (x : Nat), d.writeSide R.gpioOut x = d := fun _ _ => rfl
  rw [hside]
  set w := mergeBits (z.sys.dev.reg R.gpioOut &&& 255) mask data with hw
  have hreg := (z.sys.dev.atC v.c).reg_written (off := R.gpioOut) (rw := 255) (w := w) (fun _ => rfl) (by decide)
  have hlv := (z.sys.dev.atC v.c).lv_written (off := R.gpioOut) (rw := 255) (w := w) (fun _ => rfl) (by decide)
  have hbyte : ∀ i, i < 8 → (255 : Nat).testBit i = true := by decide
  refine ⟨fun i hi => ?_, ?_, (z.sys.dev.atC v.c).written_keeps R.gpioOut 255 w⟩
  · simp only [State.put]
    rw [hreg, bit_eq_testBit, bit_eq_testBit, bit_eq_testBit, bit_eq_testBit, testBit_mergeBits, hbyte i hi, if_pos rfl, hw, testBit_mergeBits, Nat.testBit_and,
      hbyte i hi, Bool.and_true]
  · simp only [State.put]
    have h256 : ∀ n : Nat, n % 256 = n &&& 255 := fun n => (Nat.and_two_pow_sub_one_eq_mod n 8).symm
    rw [h256, h256, hlv, mergeBits_and_of_subset (by decide), hreg]

end

/-- A ring's tail takes its index (R200). -/
theorem rxtail_direct {z : State} {c p : Nat} (hrst : z.sys.dev.inReset = false) (idx : Nat) (hp : p < 4) (hopen : z.sys.dev.open_ (macBlk p)) :
    ∃ t, exec (.ringTailWrite (R.macRxtail (macBlk p)) idx c) z = .next t ∧ z.outside t ∧
      t.sys.dev.rf (R.macRxtail (macBlk p)) 0 12 = idx % 4096 ∧ z.sys.dev.keeps t.sys.dev [R.macRxtail (macBlk p)] := by
  have hmem : R.macRxtail (macBlk p) ∈ (List.range 4).map (fun p => R.macRxtail (macBlk p)) := List.mem_map_of_mem (List.mem_range.2 hp)
  have hat : atOnceReg (R.macRxtail (macBlk p)) 4095 0 = true :=
    (by decide : ∀ o ∈ (List.range 4).map (fun p => R.macRxtail (macBlk p)), atOnceReg o 4095 0 = true) _ hmem
  have htail : tailReg (R.macRxtail (macBlk p)) = true :=
    (by decide : ∀ o ∈ (List.range 4).map (fun p => R.macRxtail (macBlk p)), tailReg o = true) _ hmem
  have hblk : R.macRxtail (macBlk p) / 0x10000 = macBlk p := by
    simp only [R.macRxtail]
    omega
  have hcmd : macBlk p ≠ Blk.cmd := by
    simp only [macBlk, Blk.cmd]
    omega
  have hst : ∀ x, (z.sys.dev.atC c).storedV (R.macRxtail (macBlk p)) 4095 x = x := by
    interval_cases p <;> exact fun _ => rfl
  have hside : ∀ (d : Dev) (x : Nat), d.writeSide (R.macRxtail (macBlk p)) x = d := by
    interval_cases p <;> exact fun _ _ => rfl
  have hplain := (atOnceReg_spec hat).2.2.2.2.2.2.2
  have hrun : (if tailReg (R.macRxtail (macBlk p)) then (z.sys.onDev (fun d => d.atC c)).hostWrite (R.macRxtail (macBlk p)) idx else z.sys) =
      { z.sys with dev := (z.sys.dev.atC c).written (R.macRxtail (macBlk p)) 4095 idx } := by
    rw [if_pos htail, hostWrite_eq _ _ hplain (by rwa [hblk])]
    exact congrArg (fun e => ({ z.sys with dev := e } : Sys))
      ((regWrite_atOnce hat (z.sys.dev.atC c) idx (by rw [hblk]; exact Dev.open_atC hopen c)).trans (hside _ _))
  refine ⟨_, exec_runRow (f := fun s => if tailReg (R.macRxtail (macBlk p)) then (s.onDev (fun d => d.atC c)).hostWrite (R.macRxtail (macBlk p)) idx else s)
    rfl hrst, ?_⟩
  rw [hrun]
  refine ⟨⟨rfl, rfl, rfl⟩, ?_, (z.sys.dev.atC c).written_keeps _ _ _⟩
  have hreg := Dev.reg_written (z.sys.dev.atC c) (off := R.macRxtail (macBlk p)) (rw := 4095) (w := idx) hst (by decide)
  have h12 : ∀ n : Nat, n % 2 ^ 12 = n &&& 4095 := fun n => (Nat.and_two_pow_sub_one_eq_mod n 12).symm
  simp only [State.put]
  rw [Dev.rf, hreg, fld, Nat.pow_zero, Nat.div_one, h12, mergeBits_and_of_subset (by decide)]
  exact (h12 idx).symm

/-- Settles O35: row by row. -/
theorem directWritesActAtOnce : Obligations.DirectWritesActAtOnce := fun _ _ hv hrst =>
  ⟨wdogKick_direct hv hrst, bbxRearm_direct hv hrst, fun _ hvec => vectorResend_direct hv hrst hvec, fun count => readbackGo_direct hv hrst count,
    fun word => mdioGo_direct hv hrst word, fun _ hf => timeInc_direct hv hrst hf, fun _ period hk => compareArm_direct hv hrst period hk, locknc_direct hv hrst,
    fun _ _ _ hsrc hb hrow hw hm => faultStatusClear_direct hv hrst hsrc hb hrow hw hm, fun mask data => gpioOut_direct hv hrst mask data,
    fun _ idx hp => rxtail_direct hrst idx hp⟩

end Sys2Proof.Machine

/-!
PROOFS. Register reads that clear, restart or latch (R6, R7, R187, R456).
-/
namespace Sys2Proof.Machine

/-! ## Latched words -/

@[simp] theorem Dev.latched_setLatch (d : Dev) (o v : Nat) : (d.setLatch o v).latched o = v % 2 ^ 32 := by
  unfold Dev.latched Dev.setLatch tabPut
  dsimp only
  by_cases h : v % 2 ^ 32 = 0
  · rw [if_pos h, tabGet_tabDel, h]
  · rw [if_neg h, tabGet_tabSet]
    exact BitVec.toNat_ofNat v 32

theorem Dev.latched_setLatch_ne (d : Dev) (o p v : Nat) (hne : p ≠ o) : (d.setLatch o v).latched p = d.latched p := by
  unfold Dev.latched Dev.setLatch
  simp only [tabGet_tabPut_ne _ _ _ _ _ hne]

theorem Dev.w64_lt (d : Dev) (off : Nat) : d.w64 off < 2 ^ 64 := by
  unfold Dev.w64
  split
  · exact BitVec.isLt _
  · decide

/-! ## A read that the row admits -/

/-- A read of a word, of a register that the row admits. -/
theorem exec_read {z : State} {c : Instr} {p : RegRow → Bool} {off cyc : Nat} {r : RegRow} (hc : exec c z = z.runRow (fun s => s.readIf p off cyc))
    (hrst : z.sys.dev.inReset = false) (hoff : off / 4 * 4 = off) (hrow : rowAt off = some r) (hp : p r = true) :
    exec c z = .next (z.put ((((z.sys.onDev (fun d => d.atC cyc)).regRead off).1).onDev
      (fun d => { d with rdata := [((z.sys.onDev (fun d => d.atC cyc)).regRead off).2] }))) := by
  rw [exec_runRow hc hrst]
  simp only [Sys.readIf, hoff, hrow, hp, if_true, Sys.hostRead]

/-- The data of a read, beside what it changed. -/
def Dev.giving (d : Dev) (v : Nat) : Dev := { d with rdata := [v] }

theorem Dev.giving_rdata (d : Dev) (v : Nat) : (d.giving v).rdata = [v] := rfl
theorem Dev.giving_w64 (d : Dev) (v o : Nat) : (d.giving v).w64 o = d.w64 o := rfl
theorem Dev.giving_latched (d : Dev) (v o : Nat) : (d.giving v).latched o = d.latched o := rfl
theorem Dev.giving_reg (d : Dev) (v o : Nat) : (d.giving v).reg o = d.reg o := rfl
theorem Dev.giving_rf (d : Dev) (v o lo w : Nat) : (d.giving v).rf o lo w = d.rf o lo w := rfl
theorem Dev.giving_time (d : Dev) (v : Nat) : (d.giving v).time = d.time := rfl
theorem Dev.keeps_giving {d e : Dev} {l : List Nat} (h : d.keeps e l) (v : Nat) : d.keeps (e.giving v) l := h

theorem exec_read_reads {z : State} {c : Instr} {p : RegRow → Bool} {off cyc v : Nat} {r : RegRow} {e : Dev}
    (hc : exec c z = z.runRow (fun s => s.readIf p off cyc)) (hrst : z.sys.dev.inReset = false) (hoff : off / 4 * 4 = off) (hrow : rowAt off = some r)
    (hp : p r = true) (hread : (z.sys.onDev (fun d => d.atC cyc)).regRead off = ({ z.sys with dev := e }, v)) :
    exec c z = .next (z.put { z.sys with dev := e.giving v }) := by
  rw [exec_read hc hrst hoff hrow hp, hread]
  rfl

section
variable {s : Sys} {off : Nat} {r : RegRow} (hrow : rowAt off = some r) (hon : s.dev.blockOn (off / 0x10000) = true)
include hrow hon

/-- The low word of a 64-bit counter (R7). -/
theorem regRead_wideRC (hk : r.kind = .wideRC) (hlow : off % 8 = r.base % 8) : s.regRead off =
    ({ s with dev := ((s.dev.setLatch (off + 4) (s.dev.wideView off / 2 ^ 32)).latchMore off).setW off 0 }, s.dev.wideView off % 2 ^ 32) := by
  simp only [Sys.regRead, hrow, hon, hk, hlow, beq_self_eq_true, Bool.not_true, Bool.false_eq_true, if_false, if_true,
    show (RegKind.wideRC == RegKind.wideRO) = false from rfl, Bool.false_and]

/-- The low word of a 64-bit value that is not a capture of the counter (R6). -/
theorem regRead_wideRO (hk : r.kind = .wideRO) (hlow : off % 8 = r.base % 8) (h1 : off ≠ R.timeCap) (h2 : off ≠ R.timeMapd) : s.regRead off =
    ({ s with dev := (s.dev.setLatch (off + 4) (s.dev.wideView off / 2 ^ 32)).latchMore off }, s.dev.wideView off % 2 ^ 32) := by
  have hc : (off == R.timeCap || off == R.timeMapd) = false := by simp [h1, h2]
  simp only [Sys.regRead, hrow, hon, hk, hlow, beq_self_eq_true, Bool.not_true, Bool.false_eq_true, if_false, Bool.and_false, hc,
    show (RegKind.wideRO == RegKind.wideRC) = false from rfl]

/-- A register of 32 bits without a latch, and with no bit that reads as zero. -/
theorem regRead_plain (hk : r.kind = .plain) (hws : r.ws = 0) (hwo : r.wo = 0) (h1 : off ≠ R.timeNowlo)
    (h2 : ¬(off = R.timeTsq 0 0 ∨ off = R.timeTsq 1 0 ∨ off = R.timeTsq 2 0)) : s.regRead off = ({ s with dev := s.dev.restart r off }, s.view off) := by
  simp only [Sys.regRead, hrow, hon, hk, hws, hwo, if_neg h1, if_neg h2, Bool.not_true, Bool.false_eq_true, if_false, Nat.or_zero, Nat.and_zero, Nat.sub_zero]

end

/-- Word 0 of a queue of time-stamps (R187). -/
theorem regRead_tsq {s : Sys} {p : Nat} (hp : p < 3) (hon : s.dev.blockOn Blk.time = true) :
    s.regRead (R.timeTsq p 0) = ({ s with dev := s.dev.tsqRead p }, (s.dev.tsqRead p).latched (R.timeTsq p 0)) := by
  have hrow : ∃ r, rowAt (R.timeTsq p 0) = some r ∧ r.kind = .plain := by
    interval_cases p <;> exact ⟨_, rfl, rfl⟩
  obtain ⟨r, hrow, hk⟩ := hrow
  have hblk : R.timeTsq p 0 / 0x10000 = Blk.time := by
    simp only [R.timeTsq, Blk.time]
    omega
  have hne : R.timeTsq p 0 ≠ R.timeNowlo := by
    simp only [R.timeTsq, R.timeNowlo]
    omega
  have hq : R.timeTsq p 0 = R.timeTsq 0 0 ∨ R.timeTsq p 0 = R.timeTsq 1 0 ∨ R.timeTsq p 0 = R.timeTsq 2 0 := by
    simp only [R.timeTsq]
    omega
  have hix : (R.timeTsq p 0 - R.timeTsq 0 0) / 16 = p := by
    simp only [R.timeTsq]
    omega
  simp only [Sys.regRead, hrow, hblk, hon, hk, if_neg hne, if_pos hq, hix, Bool.not_true, Bool.false_eq_true, if_false]

/-! ## What the reads leave -/

theorem timeMaptick_kind : (rowAt R.timeMaptick).map (fun r => r.kind) = some .wideRO ∧ (rowAt R.tickNum).map (fun r => r.kind) = some .wideRO ∧
    (rowAt R.tickAgnext).map (fun r => r.kind) = some .wideRO := by decide

section
variable {z : State} {c : Nat} (hrst : z.sys.dev.inReset = false)
include hrst

theorem counterRead_done {off : Nat} {r : RegRow} (hal : off % 4 = 0) (hrow : rowAt off = some r) (hk : r.kind = .wideRC) (hlow : off % 8 = r.base % 8)
    (hon : z.sys.dev.blockOn (off / 0x10000) = true) :
    ∃ t, exec (.counterRead off c) z = .next t ∧ z.outside t ∧ t.sys.dev.rdata = [z.sys.dev.w64 off % 2 ^ 32] ∧
      t.sys.dev.latched (off + 4) = z.sys.dev.w64 off / 2 ^ 32 ∧ t.sys.dev.w64 off = 0 ∧ (∀ o, o ≠ off → t.sys.dev.w64 o = z.sys.dev.w64 o) ∧
      z.sys.dev.keeps t.sys.dev [] := by
  have hne : ∀ o, (rowAt o).map (fun r => r.kind) = some .wideRO → off ≠ o := by
    rintro o ho rfl
    rw [hrow, Option.map_some, hk] at ho
    cases ho
  obtain ⟨h1, h2, h3⟩ := timeMaptick_kind
  have hview : (z.sys.dev.atC c).wideView off = z.sys.dev.w64 off := by
    rw [Dev.wideView, if_neg (hne _ h2), if_neg (hne _ h3)]
    rfl
  have hhigh : z.sys.dev.w64 off / 2 ^ 32 % 2 ^ 32 = z.sys.dev.w64 off / 2 ^ 32 := by
    have := z.sys.dev.w64_lt off
    omega
  set d1 := (z.sys.dev.atC c).setLatch (off + 4) (z.sys.dev.w64 off / 2 ^ 32) with hd1
  have hmore : (d1.latchMore off).latched (off + 4) = z.sys.dev.w64 off / 2 ^ 32 ∧ d1.sameRegs (d1.latchMore off) ∧ (d1.latchMore off).wide = d1.wide := by
    have hl : d1.latched (off + 4) = z.sys.dev.w64 off / 2 ^ 32 := by rw [hd1, Dev.latched_setLatch, hhigh]
    rw [Dev.latchMore, if_neg (hne _ h1)]
    split
    · exact ⟨(Dev.latched_setLatch_ne _ _ _ _ (by omega)).trans hl, ⟨rfl, rfl, rfl⟩, rfl⟩
    · exact ⟨hl, ⟨rfl, rfl, rfl⟩, rfl⟩
  obtain ⟨hlatch, hsame, hwide⟩ := hmore
  have hpred : (r.kind == .wideRC && off / 4 * 4 % 8 == r.base % 8) = true := by
    rw [show off / 4 * 4 = off by omega, hk, hlow]
    simp
  have hread := regRead_wideRC (s := z.sys.onDev (fun d => d.atC c)) hrow ((Dev.blockOn_atC _ _ _).trans hon) hk hlow
  rw [Sys.onDev_dev, hview] at hread
  refine ⟨_, exec_read_reads (p := fun r => r.kind == .wideRC && off / 4 * 4 % 8 == r.base % 8) rfl hrst (by omega) hrow hpred hread,
    ⟨rfl, rfl, rfl⟩, Dev.giving_rdata _ _, (Dev.giving_latched _ _ _).trans hlatch,
    (Dev.giving_w64 _ _ _).trans ((Dev.w64_setW _ _ _).trans (Nat.zero_mod _)), fun o ho => ?_, ?_⟩
  · refine (Dev.giving_w64 _ _ _).trans ((Dev.w64_setW_ne _ _ _ _ ho).trans ?_)
    exact congrArg (fun t => match tabGet t o with | some v => v.toNat | none => 0) hwide
  · exact Dev.keeps_giving (Dev.keeps_of_regs (d := z.sys.dev) hsame []) (z.sys.dev.w64 off % 2 ^ 32)

theorem agendaRead_done (hon : z.sys.dev.blockOn Blk.tick = true) : ∃ t, exec (.highWaterRead R.tickAgenda c) z = .next t ∧ z.outside t ∧
    t.sys.dev.rdata = [fldSet (z.sys.dev.reg R.tickAgenda) 0 9 z.sys.dev.agenda.length] ∧ t.sys.dev.rf R.tickAgenda 16 9 = z.sys.dev.agenda.length % 512 ∧
    z.sys.dev.keeps t.sys.dev [R.tickAgenda] := by
  have hread := regRead_plain (s := z.sys.onDev (fun d => d.atC c)) (off := R.tickAgenda) rfl ((Dev.blockOn_atC _ _ _).trans hon) rfl rfl rfl (by decide)
    (by decide)
  refine ⟨_, exec_read_reads (p := fun r => r.kind == .plain && r.rc != 0) rfl hrst rfl rfl rfl hread, ⟨rfl, rfl, rfl⟩, ?_, ?_, ?_⟩
  · rfl
  · exact (Dev.giving_rf _ _ _ _ _).trans (Dev.rf_setFld _ _ _ _ _ (by decide))
  · exact Dev.keeps_giving ((z.sys.dev.atC c).keeps_setFld _ _ _ _ (by simp)) _

theorem tjmaxRead_done (hon : z.sys.dev.blockOn Blk.thm = true) : ∃ t, exec (.highWaterRead R.thmTjmax c) z = .next t ∧ z.outside t ∧
    t.sys.dev.rdata = [z.sys.dev.reg R.thmTjmax] ∧ t.sys.dev.reg R.thmTjmax = z.sys.dev.reg R.thmTj ∧ z.sys.dev.keeps t.sys.dev [R.thmTjmax] := by
  have hread := regRead_plain (s := z.sys.onDev (fun d => d.atC c)) (off := R.thmTjmax) rfl ((Dev.blockOn_atC _ _ _).trans hon) rfl rfl rfl (by decide)
    (by decide)
  refine ⟨_, exec_read_reads (p := fun r => r.kind == .plain && r.rc != 0) rfl hrst rfl rfl rfl hread, ⟨rfl, rfl, rfl⟩, ?_, ?_, ?_⟩
  · rfl
  · exact (Dev.giving_reg _ _ _).trans (((z.sys.dev.atC c).reg_setReg _ _).trans (Dev.reg_mod _ _))
  · exact Dev.keeps_giving ((z.sys.dev.atC c).keeps_setReg _ _ (by simp)) _

theorem nowRead_done (hon : z.sys.dev.blockOn Blk.time = true) : let e := (z.sys.dev.atC c).timeNow
    ∃ t, exec (.latchingRead R.timeNowlo c) z = .next t ∧ z.outside t ∧ t.sys.dev.rdata = [e.timeNs % 2 ^ 32] ∧
      t.sys.dev.latched R.timeNowhi = e.timeNs / 2 ^ 32 % 2 ^ 32 ∧ t.sys.dev.latched R.timeNowfrac = e.time.cnt % 2 ^ 32 ∧ z.sys.dev.keeps t.sys.dev [] := by
  intro e
  have hon' : (z.sys.dev.atC c).blockOn Blk.time = true := (Dev.blockOn_atC _ _ _).trans hon
  obtain ⟨r, hrow, hk⟩ : ∃ r, rowAt R.timeNowlo = some r ∧ r.kind = .plain := ⟨_, rfl, rfl⟩
  have hread : (z.sys.onDev (fun d => d.atC c)).regRead R.timeNowlo =
      ({ z.sys with dev := (e.setLatch R.timeNowhi (e.timeNs / 2 ^ 32 % 2 ^ 32)).setLatch R.timeNowfrac (e.time.cnt % 2 ^ 32) }, e.timeNs % 2 ^ 32) := by
    simp only [Sys.regRead, hrow, hk, Sys.onDev_dev, show R.timeNowlo / 0x10000 = Blk.time from rfl, hon', Bool.not_true, Bool.false_eq_true, if_false, if_true]
    rfl
  refine ⟨_, exec_read_reads (p := fun r => (r.kind == .wideRO && R.timeNowlo / 4 * 4 % 8 == r.base % 8) || R.timeNowlo / 4 * 4 == R.timeNowlo) rfl hrst rfl hrow
    (by rw [show (R.timeNowlo / 4 * 4 == R.timeNowlo) = true from rfl, Bool.or_true]) hread, ⟨rfl, rfl, rfl⟩, rfl, ?_, ?_, ((z.sys.dev.atC c).keeps_timeNow []).trans (Dev.keeps_of_regs ⟨rfl, rfl, rfl⟩ [])⟩
  · exact (Dev.latched_setLatch_ne _ _ _ _ (by decide)).trans ((Dev.latched_setLatch _ _ _).trans (Nat.mod_mod _ _))
  · exact (Dev.latched_setLatch _ _ _).trans (Nat.mod_mod _ _)

theorem tickRead_done (hon : z.sys.dev.blockOn Blk.tick = true) : ∃ t, exec (.latchingRead R.tickNum c) z = .next t ∧ z.outside t ∧
    t.sys.dev.rdata = [z.sys.dev.tick % 2 ^ 32] ∧ t.sys.dev.latched (R.tickNum + 4) = z.sys.dev.tick / 2 ^ 32 % 2 ^ 16 ∧ z.sys.dev.keeps t.sys.dev [] := by
  have hread := regRead_wideRO (s := z.sys.onDev (fun d => d.atC c)) (off := R.tickNum) rfl ((Dev.blockOn_atC _ _ _).trans hon) rfl rfl (by decide) (by decide)
  refine ⟨_, exec_read_reads (p := fun r => (r.kind == .wideRO && R.tickNum / 4 * 4 % 8 == r.base % 8) || R.tickNum / 4 * 4 == R.timeNowlo) rfl hrst rfl rfl
    rfl hread, ⟨rfl, rfl, rfl⟩, ?_, ?_, Dev.keeps_of_regs ⟨rfl, rfl, rfl⟩ []⟩
  · exact congrArg (fun n => [n]) (show z.sys.dev.tick % 2 ^ 48 % 2 ^ 32 = z.sys.dev.tick % 2 ^ 32 by omega)
  · refine ((z.sys.dev.atC c).latched_setLatch (R.tickNum + 4) _).trans ?_
    change z.sys.dev.tick % 2 ^ 48 / 2 ^ 32 % 2 ^ 32 = _
    omega

theorem tsqRead_done {p : Nat} (hp : p < 3) (hon : z.sys.dev.blockOn Blk.time = true) :
    exec (.tsqRead p c) z = .next (z.put { z.sys with dev := ((z.sys.dev.atC c).tsqRead p).giving (((z.sys.dev.atC c).tsqRead p).latched (R.timeTsq p 0)) }) := by
  have hal : R.timeTsq p 0 / 4 * 4 = R.timeTsq p 0 := by
    simp only [R.timeTsq]
    omega
  have hread := regRead_tsq (s := z.sys.onDev (fun d => d.atC c)) hp ((Dev.blockOn_atC _ _ _).trans hon)
  rw [exec_runRow (f := fun s => if p < 3 then (s.onDev (fun d => d.atC c)).hostRead (R.timeTsq p 0) else s) rfl hrst, if_pos hp, Sys.hostRead, hal, hread]
  rfl

end

/-- The four words of a queue's latch. -/
theorem Dev.latched_four (d : Dev) (p a b e f : Nat) :
    let l := (((d.setLatch (R.timeTsq p 0) a).setLatch (R.timeTsq p 1) b).setLatch (R.timeTsq p 2) e).setLatch (R.timeTsq p 3) f
    l.latched (R.timeTsq p 0) = a % 2 ^ 32 ∧ l.latched (R.timeTsq p 1) = b % 2 ^ 32 ∧ l.latched (R.timeTsq p 2) = e % 2 ^ 32 ∧
      l.latched (R.timeTsq p 3) = f % 2 ^ 32 := by
  intro l
  have hne : ∀ i j, i ≠ j → R.timeTsq p i ≠ R.timeTsq p j := by
    intro i j hij
    simp only [R.timeTsq]
    omega
  refine ⟨?_, ?_, ?_, Dev.latched_setLatch _ _ _⟩
  · rw [Dev.latched_setLatch_ne _ _ _ _ (hne 0 3 (by decide)), Dev.latched_setLatch_ne _ _ _ _ (hne 0 2 (by decide)),
      Dev.latched_setLatch_ne _ _ _ _ (hne 0 1 (by decide)), Dev.latched_setLatch]
  · rw [Dev.latched_setLatch_ne _ _ _ _ (hne 1 3 (by decide)), Dev.latched_setLatch_ne _ _ _ _ (hne 1 2 (by decide)), Dev.latched_setLatch]
  · rw [Dev.latched_setLatch_ne _ _ _ _ (hne 2 3 (by decide)), Dev.latched_setLatch]

/-- A queue that is not empty gives its oldest entry (R187). -/
theorem Dev.tsqRead_cons (d : Dev) {p : Nat} {e : TsEntry} {rest : List TsEntry} (h : d.time.tsq.getD p [] = e :: rest) :
    (d.tsqRead p).latched (R.timeTsq p 0) = e.w0 % 2 ^ 32 ∧ (d.tsqRead p).latched (R.timeTsq p 1) = e.w1 % 2 ^ 32 ∧
      (d.tsqRead p).latched (R.timeTsq p 2) = e.w2 % 2 ^ 32 ∧ (d.tsqRead p).latched (R.timeTsq p 3) = e.w3 % 2 ^ 32 ∧
      (d.tsqRead p).time.tsq.getD p [] = rest ∧ (d.tsqRead p).rf (R.timeTsqstat p) 0 5 = rest.length % 32 ∧ d.keeps (d.tsqRead p) [R.timeTsqstat p] := by
  have hlen : p < d.time.tsq.length := by
    by_contra hp
    rw [List.getD_eq_getElem?_getD, List.getElem?_eq_none (not_lt.1 hp)] at h
    cases h
  set d1 : Dev := { d with time := { d.time with tsq := updAt d.time.tsq p (fun _ => rest) } } with hd1
  have hread : d.tsqRead p = ((((d1.setFld (R.timeTsqstat p) 0 5 rest.length).setLatch (R.timeTsq p 0) e.w0).setLatch (R.timeTsq p 1) e.w1).setLatch
      (R.timeTsq p 2) e.w2).setLatch (R.timeTsq p 3) e.w3 := by rw [Dev.tsqRead, h]
  obtain ⟨h0, h1, h2, h3⟩ := (d1.setFld (R.timeTsqstat p) 0 5 rest.length).latched_four p e.w0 e.w1 e.w2 e.w3
  rw [hread]
  refine ⟨h0, h1, h2, h3, ?_, d1.rf_setFld (R.timeTsqstat p) 0 5 rest.length (by decide), d1.keeps_setFld (R.timeTsqstat p) 0 5 rest.length (by simp)⟩
  simp only [Dev.setLatch_time, Dev.setFld_time, hd1]
  rw [getD_updAt, if_pos ⟨rfl, hlen⟩]

/-- An empty queue gives zeros (R187). -/
theorem Dev.tsqRead_nil (d : Dev) {p : Nat} (h : d.time.tsq.getD p [] = []) : (∀ k, k < 4 → (d.tsqRead p).latched (R.timeTsq p k) = 0) ∧
    (d.tsqRead p).time = d.time ∧ d.keeps (d.tsqRead p) [] := by
  have hread : d.tsqRead p = (((d.setLatch (R.timeTsq p 0) 0).setLatch (R.timeTsq p 1) 0).setLatch (R.timeTsq p 2) 0).setLatch (R.timeTsq p 3) 0 := by
    rw [Dev.tsqRead, h]
  obtain ⟨h0, h1, h2, h3⟩ := d.latched_four p 0 0 0 0
  rw [hread]
  refine ⟨fun k hk => ?_, rfl, Dev.keeps_of_regs ⟨rfl, rfl, rfl⟩ []⟩
  match k, hk with
  | 0, _ => exact h0
  | 1, _ => exact h1
  | 2, _ => exact h2
  | 3, _ => exact h3

/-- Settles O37: row by row. -/
theorem registerReads : Obligations.RegisterReads := by
  refine fun z c hrst => ⟨fun _ _ hal hrow hk hlow hon => counterRead_done hrst hal hrow hk hlow hon, agendaRead_done hrst, tjmaxRead_done hrst, nowRead_done hrst,
    tickRead_done hrst, fun p hp hon => ⟨fun e rest h => ?_, fun h => ?_⟩⟩
  · obtain ⟨h0, h1, h2, h3, hrest, hstat, hk⟩ := (z.sys.dev.atC c).tsqRead_cons h
    exact ⟨_, tsqRead_done hrst hp hon, ⟨rfl, rfl, rfl⟩, (Dev.giving_rdata _ _).trans (by rw [h0]), h1, h2, h3, hrest, hstat, hk⟩
  · obtain ⟨hz, htime, hk⟩ := (z.sys.dev.atC c).tsqRead_nil h
    exact ⟨_, tsqRead_done hrst hp hon, ⟨rfl, rfl, rfl⟩, (Dev.giving_rdata _ _).trans (by rw [hz 0 (by decide)]), hz, htime, hk⟩

end Sys2Proof.Machine

/-!
PROOFS. Compare units and the time PLL (R173, R175).
-/
namespace Sys2Proof.Machine

/-! ## Fields of a register -/

section
variable (d : Dev) (o lo w x lo' w' : Nat)

theorem Dev.rf_setFld_lo (h : lo' + w' ≤ lo) (h32 : lo' + w' ≤ 32) : (d.setFld o lo w x).rf o lo' w' = d.rf o lo' w' := by
  have hreg : (d.setFld o lo w x).reg o = fldSet (d.reg o) lo w x % 2 ^ 32 := d.reg_setBoth o _ _
  rw [Dev.rf, hreg, fld_mod_pow _ _ _ _ h32, fld_fldSet_lo _ _ _ _ _ _ h, Dev.rf]

theorem Dev.rf_setFld_hi (h : lo + w ≤ lo') (h32 : lo' + w' ≤ 32) : (d.setFld o lo w x).rf o lo' w' = d.rf o lo' w' := by
  have hreg : (d.setFld o lo w x).reg o = fldSet (d.reg o) lo w x % 2 ^ 32 := d.reg_setBoth o _ _
  rw [Dev.rf, hreg, fld_mod_pow _ _ _ _ h32, fld_fldSet_hi _ _ _ _ _ _ h, Dev.rf]

theorem Dev.rf_setFld_ne {p : Nat} (hne : p ≠ o) : (d.setFld o lo w x).rf p lo' w' = d.rf p lo' w' := by
  rw [Dev.rf, d.reg_setFld_ne _ _ _ _ _ hne, Dev.rf]

theorem Dev.rf_setReg_ne {p : Nat} (hne : p ≠ o) : (d.setReg o x).rf p lo' w' = d.rf p lo' w' := by
  rw [Dev.rf, d.reg_setReg_ne _ _ _ hne, Dev.rf]

theorem Dev.rf_setReg_same (h32 : lo' + w' ≤ 32) : (d.setReg o x).rf o lo' w' = fld x lo' w' := by
  rw [Dev.rf, d.reg_setReg, fld_mod_pow _ _ _ _ h32]

end

section
variable (d : Dev) (b src d0 d1 d2 : Nat)

/-- The bit of a fault in FLTSTAT. -/
theorem Dev.rf_raise_src (h : src < 32) : (d.raise b src d0 d1 d2).rf (R.fltstat b) src 1 = 1 := by
  have hne : R.fltstat b ≠ R.fltfirst b := by
    simp only [R.fltstat, R.fltfirst]
    omega
  rw [Dev.rf, Dev.reg_raise _ _ _ _ _ _ hne, fld_mod_pow _ _ _ _ (by omega), bitSet, fld_fldSet]
  rfl

theorem Dev.rf_raise_ne {o : Nat} (lo w : Nat) (h1 : o ≠ R.fltstat b) (h2 : o ≠ R.fltfirst b) : (d.raise b src d0 d1 d2).rf o lo w = d.rf o lo w := by
  rw [Dev.rf, Dev.reg_raise_ne _ _ _ _ _ _ _ h1 h2, Dev.rf]

end

theorem fld_bitSet_ne (v i lo w : Nat) (b : Bool) (h : lo + w ≤ i ∨ i + 1 ≤ lo) : fld (bitSet v i b) lo w = fld v lo w :=
  h.elim (fld_fldSet_lo v i 1 _ lo w) (fld_fldSet_hi v i 1 _ lo w)

theorem fld_bitSet_same (v i : Nat) : fld (bitSet v i true) i 1 = 1 := fld_fldSet v i 1 1

/-! ## Rows of a running tick -/

/-- A row that acts on the device of a running tick. -/
theorem exec_tickRow {z : State} {c : Instr} {f : Sys → Sys} (hc : exec c z = z.tickRow f) (hrun : z.Running) : exec c z = .next (z.put (f z.sys)) := by
  obtain ⟨hrst, htick⟩ := hrun
  rw [hc]
  simp only [State.tickRow, State.act, hrst, htick, Bool.or_self, Bool.not_true, Bool.false_eq_true, if_false]
  rfl

/-- A row of the device alone leaves what lies outside it. -/
theorem leads_of_tickRow {z : State} {c : Instr} {f : Dev → Dev} {P : Dev → Prop} (hc : exec c z = z.tickRow (fun s => s.onDev f)) (hrun : z.Running)
    (hP : P (f z.sys.dev)) : z.leads (exec c z) P := ⟨_, exec_tickRow hc hrun, ⟨rfl, rfl, rfl⟩, hP⟩

/-! ## The time PLL -/

theorem Dev.timeTo_cnt_of_invalid (d : Dev) (n : Nat) (h : d.timeValid = false) : (d.timeTo n).time.cnt = d.time.cnt := by
  rw [Dev.timeTo, h]
  rfl

theorem Dev.tpllUnlock_leaves (d0 : Dev) (c : Nat) : let d := (d0.atC c).timeNow
    let e := d0.tpllUnlock c
    e.timeValid = false ∧ e.rf R.timeStat 2 1 = 0 ∧ e.time = d.time ∧ e.rf (R.fltstat Blk.time) Src.timeTpllUnlock 1 = 1 ∧
      (∀ n, (e.timeTo n).time.cnt = e.time.cnt) ∧ d.keeps e [R.timeStat, R.fltstat Blk.time, R.fltfirst Blk.time] := by
  intro d e
  set f := (d.setFld R.timeStat 0 1 0).setFld R.timeStat 2 1 0 with hf
  have he : e = f.raise Blk.time Src.timeTpllUnlock d.tickLo d.tickHi 0 := rfl
  have hinv : e.timeValid = false := by
    rw [Dev.timeValid, he, Dev.rf_raise_ne _ _ _ _ _ _ _ _ (by decide) (by decide), hf, Dev.rf_setFld_lo _ _ _ _ _ _ _ (by decide) (by decide),
      Dev.rf_setFld _ _ _ _ _ (by decide)]
    rfl
  refine ⟨hinv, ?_, ?_, Dev.rf_raise_src _ _ _ _ _ _ (by decide), fun n => e.timeTo_cnt_of_invalid n hinv, ?_⟩
  · rw [he, Dev.rf_raise_ne _ _ _ _ _ _ _ _ (by decide) (by decide), hf, Dev.rf_setFld _ _ _ _ _ (by decide), Nat.zero_mod]
  · rw [he, Dev.raise_time, hf, Dev.setFld_time, Dev.setFld_time]
  · exact (d.keeps_setFld R.timeStat 0 1 0 (by simp)).trans ((Dev.keeps_setFld _ R.timeStat 2 1 0 (by simp)).trans
      (Dev.keeps_raise _ Blk.time _ _ _ _ (by simp) (by simp)))

theorem Dev.tpllRelock_leaves (d0 : Dev) (c : Nat) : let d := (d0.atC c).timeNow
    let e := d0.tpllRelock c
    e.timeValid = true ∧ e.rf R.timeStat 2 1 = 1 ∧ e.time = { d.time with first := true } ∧ d.keeps e [R.timeStat] := by
  intro d e
  set f := (d.setFld R.timeStat 0 1 1).setFld R.timeStat 2 1 1 with hf
  have he : e = { f with time := { f.time with first := true } } := rfl
  have hreg : ∀ lo w, e.rf R.timeStat lo w = f.rf R.timeStat lo w := fun _ _ => rfl
  refine ⟨?_, ?_, ?_, ?_⟩
  · rw [Dev.timeValid, hreg, hf, Dev.rf_setFld_lo _ _ _ _ _ _ _ (by decide) (by decide), Dev.rf_setFld _ _ _ _ _ (by decide)]
    rfl
  · exact (hreg 2 1).trans (Dev.rf_setFld _ _ _ _ _ (by decide))
  · rw [he, hf, Dev.setFld_time, Dev.setFld_time]
  · exact (d.keeps_setFld R.timeStat 0 1 1 (by simp)).trans (Dev.keeps_setFld _ R.timeStat 2 1 1 (by simp))

/-! ## Compare units -/

section
variable (d0 : Dev) (k c : Nat)

theorem Dev.compareFire_idle (h : ((d0.atC c).timeNow).rf (R.timeCmpcfg k) 31 1 = 0 ∨ 0 < ((d0.atC c).timeNow).cmpDiff k) :
    d0.compareFire k c = (d0.atC c).timeNow := by
  refine if_neg (fun hc => ?_)
  obtain ⟨-, h31, hle⟩ := hc
  omega

/-- What stands in STAT after a unit has fired. -/
theorem cmpstat_parts (v n : Nat) (late : Bool) (hn : n < 2 ^ 14) : let st := bitSet (fldSet v 0 14 n) 15 true
    let x := if late then bitSet st 14 true else st
    fld x 0 14 = n ∧ fld x 15 1 = 1 ∧ (late = true → fld x 14 1 = 1) := by
  intro st x
  have h0 : fld st 0 14 = n := by rw [fld_bitSet_ne _ _ _ _ _ (.inl (by decide)), fld_fldSet, Nat.mod_eq_of_lt hn]
  cases late
  · exact ⟨h0, fld_bitSet_same _ _, fun h => by cases h⟩
  · exact ⟨(fld_bitSet_ne _ _ _ _ _ (.inl (by decide))).trans h0, (fld_bitSet_ne _ _ _ _ _ (.inr (by decide))).trans (fld_bitSet_same _ _),
      fun _ => fld_bitSet_same _ _⟩

/-- The registers of a compare unit are four. -/
theorem cmp_regs_ne : R.timeCmpstat k ≠ R.timeCmptick k ∧ R.timeCmpcfg k ≠ R.timeCmptick k ∧ R.timeCmptgt k ≠ R.timeCmptick k ∧ R.timeCmpcfg k ≠ R.timeCmpstat k ∧
    R.timeCmptgt k ≠ R.timeCmpstat k ∧ R.timeCmptgt k ≠ R.timeCmpcfg k := by
  simp only [R.timeCmpstat, R.timeCmptick, R.timeCmpcfg, R.timeCmptgt]
  omega

theorem cmp_regs_ne_flt {k o : Nat} (hk : k < 4) (ho : o ∈ [R.timeCmptick k, R.timeCmpstat k, R.timeCmpcfg k, R.timeCmptgt k]) :
    o ≠ R.fltstat Blk.time ∧ o ≠ R.fltfirst Blk.time := by
  have hf : fltOff Blk.time = 0x300 := rfl
  simp only [R.timeCmpstat, R.timeCmptick, R.timeCmpcfg, R.timeCmptgt, List.mem_cons, List.not_mem_nil, or_false] at ho
  simp only [R.fltstat, R.fltfirst, hf, Blk.time]
  omega

/-- What a unit that fires leaves (R175). -/
theorem Dev.compareFire_leaves {d0 : Dev} {k c : Nat} (hk : k < 4) (hc : c < 10240) : let d := (d0.atC c).timeNow
    let e := d0.compareFire k c
    d.rf (R.timeCmpcfg k) 31 1 = 1 → d.cmpDiff k ≤ 0 → e.reg (R.timeCmptick k) = d.tick % 2 ^ 32 ∧ e.rf (R.timeCmpstat k) 0 14 = c ∧
      e.rf (R.timeCmpstat k) 15 1 = 1 ∧ (bit d.time.late k = true → e.rf (R.timeCmpstat k) 14 1 = 1) ∧ e.rf (R.fltstat Blk.time) Src.timeCmpFire 1 = 1 ∧
      (d.rf (R.timeCmpcfg k) 0 30 = 0 → e.rf (R.timeCmpcfg k) 31 1 = 0 ∧ e.reg (R.timeCmptgt k) = d.reg (R.timeCmptgt k)) ∧
      (d.rf (R.timeCmpcfg k) 0 30 ≠ 0 → e.rf (R.timeCmpcfg k) 31 1 = 1 ∧
        e.reg (R.timeCmptgt k) = (d.reg (R.timeCmptgt k) + d.rf (R.timeCmpcfg k) 0 30) % 2 ^ 32) ∧ e.time.cnt = d.time.cnt ∧
      d.keeps e [R.timeCmptick k, R.timeCmpstat k, R.timeCmpcfg k, R.timeCmptgt k, R.fltstat Blk.time, R.fltfirst Blk.time] := by
  intro d e harm hdue
  have hcyc : d.cycle = c := by
    obtain ⟨τ, hτ⟩ := (d0.atC c).timeNow_eq
    rw [show d = _ from hτ]
    rfl
  obtain ⟨hst, -, -, -, -, htc⟩ := cmp_regs_ne k
  set late := bit d.time.late k
  set per := d.rf (R.timeCmpcfg k) 0 30 with hper
  set st1 := bitSet (fldSet (d.reg (R.timeCmpstat k)) 0 14 d.cycle) 15 true with hst1
  obtain ⟨p0, p15, p14⟩ := cmpstat_parts (d.reg (R.timeCmpstat k)) d.cycle late (by omega)
  rw [← hst1] at p0 p15 p14
  set d1 := (d.setReg (R.timeCmptick k) d.tickLo).setReg (R.timeCmpstat k) (if late then bitSet st1 14 true else st1) with hd1
  set d2 := if per = 0 then d1.setFld (R.timeCmpcfg k) 31 1 0 else d1.setReg (R.timeCmptgt k) ((d1.reg (R.timeCmptgt k) + per) % 2 ^ 32) with hd2
  set d3 : Dev := { d2 with time := { d2.time with late := bitSet d2.time.late k false } } with hd3
  have he : e = d3.raise Blk.time Src.timeCmpFire k (b2n late) d.cycle := if_pos ⟨hk, harm, hdue⟩
  have hreg3 : ∀ o, d3.reg o = d2.reg o := fun _ => rfl
  have hrege : ∀ o ∈ [R.timeCmptick k, R.timeCmpstat k, R.timeCmpcfg k, R.timeCmptgt k], e.reg o = d2.reg o := fun o ho => by
    obtain ⟨h1, h2⟩ := cmp_regs_ne_flt hk ho
    rw [he, Dev.reg_raise_ne _ _ _ _ _ _ _ h1 h2, hreg3]
  have hk2 : d1.keeps d2 [R.timeCmpcfg k, R.timeCmptgt k] := by
    rw [hd2]
    split
    · exact d1.keeps_setFld _ _ _ _ (by simp)
    · exact d1.keeps_setReg _ _ (by simp)
  have hk1 : d.keeps d1 [R.timeCmptick k, R.timeCmpstat k] := (d.keeps_setReg _ _ (by simp)).trans (Dev.keeps_setReg _ _ _ (by simp))
  have hk3 : d2.keeps e [R.fltstat Blk.time, R.fltfirst Blk.time] := by
    rw [he]
    exact (Dev.keeps_of_regs ⟨rfl, rfl, rfl⟩ _).trans (d3.keeps_raise _ _ _ _ _ (by simp) (by simp))
  have hstat : ∀ lo w, lo + w ≤ 32 → e.rf (R.timeCmpstat k) lo w = fld (if late then bitSet st1 14 true else st1) lo w := fun lo w h32 => by
    rw [Dev.rf, hrege _ (by simp), (hk2 _ (by simp)).1, hd1, Dev.reg_setReg, fld_mod_pow _ _ _ _ h32]
  have htick : d1.reg (R.timeCmptick k) = d.tickLo := by
    rw [hd1, Dev.reg_setReg_ne _ _ _ _ hst.symm, Dev.reg_setReg]
    exact Nat.mod_mod _ _
  have hcfg1 : d1.reg (R.timeCmpcfg k) = d.reg (R.timeCmpcfg k) := (hk1 _ (by simp)).1
  have htgt1 : d1.reg (R.timeCmptgt k) = d.reg (R.timeCmptgt k) := (hk1 _ (by simp)).1
  refine ⟨?_, ?_, ?_, fun hl => ?_, ?_, fun h0 => ⟨?_, ?_⟩, fun h0 => ⟨?_, ?_⟩, ?_, ?_⟩
  · rw [hrege _ (by simp), (hk2 _ (by simp)).1, htick]
    rfl
  · rw [hstat 0 14 (by decide), p0, hcyc]
  · rw [hstat 15 1 (by decide), p15]
  · rw [hstat 14 1 (by decide), p14 hl]
  · rw [he]
    exact d3.rf_raise_src _ _ _ _ _ (by decide)
  · rw [Dev.rf, hrege _ (by simp), hd2, if_pos h0]
    exact d1.rf_setFld _ _ _ _ (by decide)
  · rw [hrege _ (by simp), hd2, if_pos h0, Dev.reg_setFld_ne _ _ _ _ _ _ htc, htgt1]
  · rw [Dev.rf, hrege _ (by simp), hd2, if_neg h0, Dev.reg_setReg_ne _ _ _ _ htc.symm, hcfg1]
    exact harm
  · rw [hrege _ (by simp), hd2, if_neg h0, Dev.reg_setReg, htgt1, Nat.mod_mod]
  · rw [he, Dev.raise_time]
    have ht2 : d2.time = d.time := by
      rw [hd2]
      split
      · rw [Dev.setFld_time, hd1, Dev.setReg_time, Dev.setReg_time]
      · rw [Dev.setReg_time, hd1, Dev.setReg_time, Dev.setReg_time]
    change d2.time.cnt = d.time.cnt
    rw [ht2]
  · exact (hk1.mono (by simp)).trans ((hk2.mono (by simp)).trans (hk3.mono (by simp)))

end

/-- Settles O49. -/
theorem compareUnitsAndTheTimePll : Obligations.CompareUnitsAndTheTimePll := by
  refine fun z c hrun => ⟨fun k hk hc harm hdue => ?_, fun k h => ?_, ?_, ?_⟩
  · exact leads_of_tickRow rfl hrun (Dev.compareFire_leaves hk hc harm hdue)
  · rw [exec_tickRow (f := fun s => s.onDev (fun d => d.compareFire k c)) rfl hrun]
    exact congrArg (fun e => Host.Outcome.next (z.put { z.sys with dev := e })) (z.sys.dev.compareFire_idle k c h)
  · exact leads_of_tickRow rfl hrun (z.sys.dev.tpllUnlock_leaves c)
  · exact leads_of_tickRow rfl hrun (z.sys.dev.tpllRelock_leaves c)

end Sys2Proof.Machine

/-!
PROOFS. The numbering of records: what EVT and the black box change when records are numbered (R369 to R378).
-/
namespace Sys2Proof.Machine

/-- The registers that the numbering of records writes. -/
def recRegs : List Nat := [R.evtSeq, R.bbxStat, R.bbxTrig, R.bbxTrigseq, R.bbxDstat]

/-- The device changes only as the numbering of records changes it: those registers, counters, EVT's state and the black box's counts from its trigger. -/
def Dev.records (d e : Dev) : Prop :=
  (∃ r l w v p q, e = { d with regs := r, live := l, wide := w, evt := v, bbx := { d.bbx with post := p, dpost := q } }) ∧ d.keeps e recRegs

namespace Dev.records

theorem refl (d : Dev) : d.records d := ⟨⟨_, _, _, _, _, _, rfl⟩, d.keeps_refl _⟩

theorem trans {d e f : Dev} (h : d.records e) (k : e.records f) : d.records f := by
  obtain ⟨⟨r, l, w, v, p, q, rfl⟩, hk⟩ := h
  obtain ⟨⟨r', l', w', v', p', q', rfl⟩, hk'⟩ := k
  exact ⟨⟨r', l', w', v', p', q', rfl⟩, hk.trans hk'⟩

theorem setReg (d : Dev) {o : Nat} (x : Nat) (ho : o ∈ recRegs) : d.records (d.setReg o x) := ⟨⟨_, _, _, _, _, _, rfl⟩, d.keeps_setReg o x ho⟩

theorem setFld (d : Dev) {o : Nat} (lo w x : Nat) (ho : o ∈ recRegs) : d.records (d.setFld o lo w x) := ⟨⟨_, _, _, _, _, _, rfl⟩, d.keeps_setFld o lo w x ho⟩

theorem bump (d : Dev) (o n : Nat) : d.records (d.bump o n) := ⟨⟨_, _, _, _, _, _, rfl⟩, Dev.keeps_of_regs ⟨rfl, rfl, rfl⟩ _⟩

theorem evt (d : Dev) (v : Evt) : d.records { d with evt := v } := ⟨⟨_, _, _, _, _, _, rfl⟩, Dev.keeps_of_regs ⟨rfl, rfl, rfl⟩ _⟩

theorem post (d : Dev) (p q : Option Nat) : d.records { d with bbx := { d.bbx with post := p, dpost := q } } :=
  ⟨⟨_, _, _, _, _, _, rfl⟩, Dev.keeps_of_regs ⟨rfl, rfl, rfl⟩ _⟩

section
variable {d e : Dev} (h : d.records e)
include h

theorem reg {o : Nat} (ho : o ∉ recRegs) : e.reg o = d.reg o := (h.2 o ho).1

theorem rf {o : Nat} (lo w : Nat) (ho : o ∉ recRegs) : e.rf o lo w = d.rf o lo w := by rw [Dev.rf, h.reg ho, Dev.rf]

/-- The state of the device beside records. -/
theorem fields : e.tick = d.tick ∧ e.outsZ = d.outsZ ∧ e.bbx.faultN = d.bbx.faultN ∧ e.time = d.time ∧ e.cmd = d.cmd ∧ e.pair = d.pair := by
  obtain ⟨⟨r, l, w, v, p, q, rfl⟩, -⟩ := h
  exact ⟨rfl, rfl, rfl, rfl, rfl, rfl⟩

end

/-! ## The black box -/

theorem makeRec (d : Dev) (b ty sev d0 d1 d2 : Nat) : d.records (d.makeRec b ty sev d0 d1 d2) := evt d _

theorem trigLost (d : Dev) (reason : Nat) : d.records (d.trigLost reason) := by
  unfold Dev.trigLost
  extract_lets d1
  have h1 : d.records d1 := bump d _ _
  split
  · exact h1.trans (makeRec _ _ _ _ _ _ _)
  · exact h1

theorem bbxS4 (d : Dev) (r : EvRec) : d.records (d.bbxS4 r) := by
  unfold Dev.bbxS4
  split
  · exact refl d
  · split
    · exact trigLost d 0
    · exact ((setFld d 30 1 1 (by decide)).trans (setFld _ 26 3 1 (by decide))).trans (bump _ _ _)

theorem lose (d : Dev) (b src cause : Nat) : d.records (d.lose b src cause) := evt d _

theorem token (d : Dev) (b src t : Nat) : d.records (d.token b src t).1 := evt d _

end Dev.records

/-- The same of the device, with the fuses as they are: numbering writes records to memory. -/
def Sys.records (s t : Sys) : Prop := s.dev.records t.dev ∧ t.otp = s.otp

namespace Sys.records

theorem refl (s : Sys) : s.records s := ⟨.refl _, rfl⟩

theorem trans {s t u : Sys} (h : s.records t) (k : t.records u) : s.records u := ⟨h.1.trans k.1, k.2.trans h.2⟩

theorem onDev (s : Sys) {f : Dev → Dev} (hf : s.dev.records (f s.dev)) : s.records (s.onDev f) := ⟨hf, rfl⟩

theorem each {α : Type} (l : List α) (f : α → Sys → Sys) (hf : ∀ x (s : Sys), s.records (f x s)) (s : Sys) : s.records (each l f s) := by
  induction l generalizing s with
  | nil => exact refl s
  | cons x l ih => exact (hf x s).trans (ih (f x s))

theorem extWrite (s : Sys) (r : EvRec) : s.records (s.extWrite r) := by
  unfold Sys.extWrite
  extract_lets d i d1 d2 later bb d3
  split
  · exact refl s
  · have h1 : s.dev.records d1 := (Dev.records.setFld _ _ _ _ (by decide)).trans (Dev.records.setFld _ _ _ _ (by decide))
    have h2 : d1.records d2 := by
      simp only [d2]
      split
      · exact .setFld _ _ _ _ (by decide)
      · exact .refl _
    have h3 : d2.records d3 := by
      simp only [d3]
      split
      · split
        · exact .refl _
        · rename_i n _ _
          have h4 : d2.records { d2 with bbx := { d2.bbx with dpost := some (n - 1) } } := .post d2 _ _
          split
          · exact h4.trans (.setFld _ _ _ _ (by decide))
          · exact h4
      · exact .refl _
    exact ⟨h1.trans (h2.trans h3), rfl⟩

theorem closeRec (s : Sys) (seq : Nat) : s.records (s.closeRec seq) := by
  unfold Sys.closeRec
  split
  · exact refl s
  · exact (onDev s (.evt _ _)).trans (extWrite _ _)

theorem closeAll (s : Sys) : s.records s.closeAll := each _ _ (fun q s => closeRec s q) s

theorem bbxStore (s : Sys) (r : EvRec) : s.records (s.bbxStore r) := by
  unfold Sys.bbxStore
  extract_lets trig d i d1 d2 e bb d3 s1
  have hd : s.dev.records d := .bbxS4 _ _
  split
  · exact ⟨hd, rfl⟩
  · have h1 : d.records d1 := .setFld _ _ _ _ (by decide)
    have h2 : d1.records d2 := by
      simp only [d2]
      split
      · exact .setFld _ _ _ _ (by decide)
      · exact .refl _
    have h3 : d2.records d3 := by
      simp only [d3]
      split
      · exact ((Dev.records.setFld _ _ _ _ (by decide)).trans (Dev.records.setReg _ _ (by decide))).trans (Dev.records.post e _ _)
      · exact .refl _
    have hs1 : s.records s1 := ⟨hd.trans (h1.trans (h2.trans h3)), rfl⟩
    split
    · exact hs1
    · extract_lets s2 s3
      have hs2 : s1.records s2 := onDev s1 ((Dev.records.post s1.dev _ _).trans (.setFld _ _ _ _ (by decide)))
      split
      · exact hs1.trans hs2
      · exact (hs1.trans hs2).trans ((onDev _ (.setFld _ _ _ _ (by decide))).trans (onDev _ (.makeRec _ _ _ _ _ _ _)))

theorem numberRec (s : Sys) (r0 : EvRec) (upto : Option Nat) : s.records (s.numberRec r0 upto) := by
  unfold Sys.numberRec
  extract_lets d r frozen i s1 s2 s3 froze s4
  have h1 : s.records s1 := onDev s ((Dev.records.setReg _ _ (by decide)).trans (.bump _ _ _))
  have h2 : s1.records s2 := bbxStore s1 r
  have h3 : s2.records s3 := onDev s2 (.evt _ _)
  have h4 : s3.records s4 := by
    simp only [s4]
    split
    · exact onDev s3 (.evt _ _)
    · exact closeRec _ _
  have h := h1.trans (h2.trans (h3.trans h4))
  split
  · exact h.trans (closeAll s4)
  · exact h

theorem drops (s : Sys) (p : Posting) : s.records (s.drops p) :=
  (onDev s (Dev.records.evt s.dev _)).trans (each _ _ (fun _ s => numberRec s _ _) _)

theorem fold (s : Sys) (o : OpenRec) : s.records (s.fold o) := by
  unfold Sys.fold
  extract_lets o1 r s1 s2
  have h1 : s.records s1 := onDev s ((Dev.records.evt s.dev _).trans (.bump _ _ _))
  have h2 : s1.records s2 := by
    simp only [s2]
    split
    · split
      · exact refl s1
      · exact ⟨.refl _, rfl⟩
    · exact refl s1
  split
  · exact (h1.trans h2).trans (closeRec _ _)
  · exact h1.trans h2

theorem numberNew (s : Sys) (p : Posting) : s.records (Sys.numberPosting.numberNew s p) := by
  unfold Sys.numberPosting.numberNew
  extract_lets low t s1 win
  have ht : s.dev.records t.1 := by
    simp only [t]
    split
    · exact .token _ _ _ _
    · exact .refl _
  have h1 : s.records s1 := ⟨ht, rfl⟩
  split
  · exact h1.trans (onDev s1 ((Dev.records.bump _ _ _).trans (.lose _ _ _ _)))
  · exact h1.trans ((drops s1 p).trans (numberRec _ _ _))

theorem numberPosting (s : Sys) (p : Posting) : s.records (s.numberPosting p) := by
  unfold Sys.numberPosting
  split
  · split
    · exact fold _ _
    · exact (closeRec _ _).trans (numberNew _ _)
  · exact numberNew _ _

theorem numberSession (s : Sys) : s.records s.numberSession :=
  (onDev s (Dev.records.evt s.dev _)).trans (each _ _ (fun _ s => numberRec s _ _) _)

theorem numberNow (s : Sys) : s.records s.numberNow := by
  unfold Sys.numberNow
  split
  · exact refl s
  · split
    · exact refl s
    · exact (onDev s (Dev.records.evt s.dev _)).trans ((numberSession _).trans (numberPosting _ _))

end Sys.records

/-! ## Loss of the clock (R164, R173) -/

theorem b2n_false_and (b : Bool) : b2n (false && b) = 0 := rfl

/-- Both lease pins low. -/
theorem Dev.setPins_low (d : Dev) : (d.setPins false false).rf R.pairStat 8 1 = 0 ∧ (d.setPins false false).rf R.pairStat 9 1 = 0 ∧
    (d.setPins false false).tick = d.tick ∧ d.keeps (d.setPins false false) [R.pairStat] := by
  unfold Dev.setPins
  refine ⟨?_, ?_, by rw [Dev.setFld_tick, Dev.setFld_tick], (d.keeps_setFld _ _ _ _ (by simp)).trans (Dev.keeps_setFld _ _ _ _ _ (by simp))⟩
  · rw [Dev.rf_setFld _ _ _ _ _ (by decide), b2n_false_and, Nat.zero_mod]
  · rw [Dev.rf_setFld_hi _ _ _ _ _ _ _ (by decide) (by decide), Dev.rf_setFld _ _ _ _ _ (by decide), b2n_false_and, Nat.zero_mod]

/-- A message of power management changes the endpoint and its status. -/
theorem Dev.pme_leaves (d : Dev) : d.keeps d.pme [R.pcieStat] ∧ d.pme.bbx = d.bbx ∧ d.pme.tick = d.tick ∧ d.pme.time = d.time := by
  unfold Dev.pme
  split
  · exact ⟨(Dev.keeps_of_regs (e := { d with pcie := _ }) ⟨rfl, rfl, rfl⟩ _).trans (Dev.keeps_setFld _ _ _ _ _ (by simp)), rfl, rfl, rfl⟩
  · exact ⟨d.keeps_refl _, rfl, rfl, rfl⟩

/-- The pin goes low, with the message of power management. -/
def Dev.faultPme (d : Dev) : Dev := ({ d with bbx := { d.bbx with faultN := true } } : Dev).pme

theorem Dev.faultN_pme_leaves (d : Dev) : let e := d.faultPme
    e.bbx.faultN = true ∧ e.tick = d.tick ∧ e.time = d.time ∧ d.keeps e [R.pcieStat] := by
  intro e
  obtain ⟨hk, hbbx, htick, htime⟩ := Dev.pme_leaves { d with bbx := { d.bbx with faultN := true } }
  exact ⟨congrArg Bbx.faultN hbbx, htick, htime, Dev.keeps.trans (Dev.keeps_of_regs ⟨rfl, rfl, rfl⟩ _) hk⟩

/-- FAULT_N is asserted. -/
theorem Dev.faultAssert_leaves (d : Dev) (b : Nat) : (d.faultAssert b).bbx.faultN = true ∧ (d.faultAssert b).tick = d.tick ∧ (d.faultAssert b).time = d.time ∧
    d.keeps (d.faultAssert b) [R.bbxFault, R.pcieStat] := by
  by_cases h : d.bbx.faultN = true
  · rw [show d.faultAssert b = d from if_pos h]
    exact ⟨h, rfl, rfl, d.keeps_refl _⟩
  · have h1 : d.keeps ((d.setFld R.bbxFault 31 1 1).setFld R.bbxFault 0 5 b) [R.bbxFault] :=
      (d.keeps_setFld _ _ _ _ (by simp)).trans (Dev.keeps_setFld _ _ _ _ _ (by simp))
    obtain ⟨hf, htick, htime, hk⟩ := Dev.faultN_pme_leaves ((d.setFld R.bbxFault 31 1 1).setFld R.bbxFault 0 5 b)
    rw [Dev.setFld_tick, Dev.setFld_tick] at htick
    rw [Dev.setFld_time, Dev.setFld_time] at htime
    rw [show d.faultAssert b = ((d.setFld R.bbxFault 31 1 1).setFld R.bbxFault 0 5 b).faultPme from if_neg h]
    exact ⟨hf, htick, htime, (h1.mono (by simp)).trans (hk.mono (by simp))⟩

/-- What the loss of the clock forces, whatever lost it. -/
theorem Sys.clockLost_leaves (s : Sys) {src : Nat} (hsrc : src < 32) : let t := s.clockLost src
    t.dev.ticking = false ∧ t.dev.rf R.pairStat 8 1 = 0 ∧ t.dev.rf R.pairStat 9 1 = 0 ∧ t.dev.outsZ = true ∧ t.dev.bbx.faultN = true ∧
      t.dev.rf (R.fltstat Blk.syn) src 1 = 1 ∧ t.dev.tick = s.dev.tick ∧ t.dev.rf R.synStat 0 1 = s.dev.rf R.synStat 0 1 ∧
      t.dev.timeValid = s.dev.timeValid ∧ t.otp = s.otp := by
  intro t
  set p := (s.dev.setFld R.synStat 1 1 0).setPins false false with hp
  set f := p.faultAssert Blk.syn with hf
  set e : Dev := { f with outsZ := true, bbx := { f.bbx with clkCond := true } } with he
  set r := e.raise Blk.syn src e.tickLo e.tickHi 0 with hr
  have ht : (s.onDev (fun _ => r)).records t := Sys.records.numberNow _
  obtain ⟨hpin8, hpin9, hptick, hkp⟩ := (s.dev.setFld R.synStat 1 1 0).setPins_low
  obtain ⟨hfault, hftick, -, hkf⟩ := p.faultAssert_leaves Blk.syn
  obtain ⟨htick, houts, hfn, -⟩ := ht.1.fields
  have hke : f.keeps e [] := Dev.keeps_of_regs ⟨rfl, rfl, rfl⟩ []
  have hkr : e.keeps r [R.fltstat Blk.syn, R.fltfirst Blk.syn] := e.keeps_raise _ _ _ _ _ (by simp) (by simp)
  have hreg : ∀ o, o ∉ R.fltstat Blk.syn :: R.fltfirst Blk.syn :: R.bbxFault :: R.pcieStat :: recRegs → t.dev.reg o = p.reg o := fun o ho => by
    simp only [List.mem_cons, not_or] at ho
    obtain ⟨h1, h2, h3, h4, h5⟩ := ho
    exact (ht.1.reg h5).trans ((hkr o (by simp [h1, h2])).1.trans ((hke o (by simp)).1.trans (hkf o (by simp [h3, h4])).1))
  have hsyn : t.dev.reg R.synStat = (s.dev.setFld R.synStat 1 1 0).reg R.synStat := (hreg _ (by decide)).trans (hkp _ (by decide)).1
  have hetick : e.tick = f.tick := rfl
  have hrtick : r.tick = s.dev.tick := by rw [hr, Dev.raise_tick, hetick, hftick, hptick, Dev.setFld_tick]
  refine ⟨?_, ?_, ?_, houts.trans (Dev.raise_outsZ _ _ _ _ _ _), ?_, ?_, htick.trans hrtick, ?_, ?_, ht.2⟩
  · rw [Dev.ticking, Dev.rf, hsyn, ← Dev.rf, Dev.rf_setFld _ _ _ _ _ (by decide)]
    rfl
  · rw [Dev.rf, hreg _ (by decide)]
    exact hpin8
  · rw [Dev.rf, hreg _ (by decide)]
    exact hpin9
  · refine hfn.trans ?_
    change r.bbx.faultN = true
    rw [hr, Dev.raise_bbx]
    exact hfault
  · rw [ht.1.rf _ _ (by decide)]
    exact e.rf_raise_src _ _ _ _ _ hsrc
  · rw [Dev.rf, hsyn, ← Dev.rf, Dev.rf_setFld_lo _ _ _ _ _ _ _ (by decide) (by decide)]
  · rw [Dev.timeValid, Dev.rf, hreg _ (by decide), (hkp _ (by decide)).1, Dev.reg_setFld_ne _ _ _ _ _ _ (by decide)]
    rfl

/-- Settles O48: what either loss forces, and that a loss that has been taken is not taken again. -/
theorem lossOfTheClock : Obligations.LossOfTheClock := by
  refine fun z c hrst => ⟨fun h1 => ?_, fun h0 => ?_, fun h1 => ?_, fun h0 => ?_⟩
  · set u := ((z.sys.dev.atC c).tpllUnlock c).setFld R.synStat 0 1 0 with hu
    have hx : z.sys.xoLoss c = (z.sys.onDev (fun _ => u)).clockLost Src.synXoLoss := if_neg (by rw [h1]; decide)
    obtain ⟨a1, a2, a3, a4, a5, a6, a7, a8, a9, a10⟩ := (z.sys.onDev (fun _ => u)).clockLost_leaves (src := Src.synXoLoss) (by decide)
    obtain ⟨hinv, -⟩ := (z.sys.dev.atC c).tpllUnlock_leaves c
    refine ⟨_, exec_runRow (f := fun s => s.xoLoss c) rfl hrst, ?_, rfl, ?_⟩
    · exact (congrArg Sys.otp hx).trans a10
    · rw [State.put, hx]
      refine ⟨⟨a1, a2, a3, a4, a5, a6, a7.trans ?_⟩, a8.trans ?_, a9.trans ?_⟩
      · change u.tick = z.sys.dev.tick
        rw [hu, Dev.setFld_tick, Dev.tpllUnlock, Dev.raise_tick, Dev.setFld_tick, Dev.setFld_tick]
        obtain ⟨τ, hτ⟩ := ((z.sys.dev.atC c).atC c).timeNow_eq
        rw [hτ]
        rfl
      · exact (Dev.rf_setFld _ _ _ _ _ (by decide)).trans (Nat.zero_mod _)
      · change u.timeValid = false
        rw [hu, Dev.timeValid, Dev.rf_setFld_ne _ _ _ _ _ _ _ (by decide)]
        exact hinv
  · rw [exec_runRow (f := fun s => s.xoLoss c) rfl hrst, Sys.xoLoss, if_pos h0]
    rfl
  · have hx : z.sys.mdllUnlock c = (z.sys.onDev (fun d => d.atC c)).clockLost Src.synMdllUnlock := if_neg (by rw [h1]; decide)
    obtain ⟨a1, a2, a3, a4, a5, a6, a7, a8, a9, a10⟩ := (z.sys.onDev (fun d => d.atC c)).clockLost_leaves (src := Src.synMdllUnlock) (by decide)
    refine ⟨_, exec_runRow (f := fun s => s.mdllUnlock c) rfl hrst, ?_, rfl, ?_⟩
    · exact (congrArg Sys.otp hx).trans a10
    · rw [State.put, hx]
      exact ⟨⟨a1, a2, a3, a4, a5, a6, a7⟩, a8⟩
  · rw [exec_runRow (f := fun s => s.mdllUnlock c) rfl hrst, Sys.mdllUnlock, if_pos h0]
    rfl

end Sys2Proof.Machine

/-!
PROOFS. What the changes of a TICK-class register do at their boundary (R35, R181, R285, R416, R430).
-/
namespace Sys2Proof.Machine

/-! ## Memory by addresses -/

/-- In the canonical form a read looks for its address alone. -/
theorem Memory.get_cons (k : Nat) (v : Byte) (t : Memory) (a : Nat) (h : Memory.wf ((k, v) :: t) = true) :
    Memory.get ((k, v) :: t) a = if k = a then v else Memory.get t a := by
  obtain ⟨-, hlt, -⟩ := (Memory.wf_cons k v t).1 h
  rw [Memory.get]
  by_cases hak : a < k
  · rw [if_pos hak, Memory.get_lt t a (fun p hp => hak.trans (hlt p hp))]
  · rw [if_neg hak]

/-- A part of memory chosen by addresses. -/
theorem Memory.get_filter (p : Nat → Bool) (m : Memory) (a : Nat) (h : m.wf = true) :
    Memory.get (m.filter (fun c => p c.1)) a = if p a then m.get a else Memory.blank := by
  induction m with
  | nil => simp [Memory.get]
  | cons q t ih =>
    obtain ⟨k, v⟩ := q
    have hf := Memory.filter_wf ((k, v) :: t) (fun c => p c.1) h
    have ih := ih ((Memory.wf_cons k v t).1 h).2.2
    rw [List.filter_cons] at hf ⊢
    rw [Memory.get_cons _ _ _ _ h]
    cases hp : p k
    · rw [if_neg (by simp), ih]
      by_cases hka : k = a
      · rw [← hka, hp]
        rfl
      · rw [if_neg hka]
    · rw [if_pos hp] at hf
      rw [if_pos rfl]
      rw [Memory.get_cons _ _ _ _ hf, ih]
      by_cases hka : k = a
      · rw [if_pos hka, if_pos hka, ← hka, hp]
        rfl
      · rw [if_neg hka, if_neg hka]

/-- What lasts in memory while every domain but AO is off. -/
theorem Memory.get_aoKept (m : Memory) (a : Nat) (h : m.wf = true) : m.aoKept.get a =
    if a < 0x200000000 ∨ (retainedBase ≤ a ∧ a < retainedBase + 0x40000) then m.get a else Memory.blank := by
  rw [Memory.aoKept, Memory.get_filter (fun a => decide (a < 0x200000000) || (decide (retainedBase ≤ a) && decide (a < retainedBase + 0x40000))) m a h]
  simp only [Bool.or_eq_true, Bool.and_eq_true, decide_eq_true_eq]

/-! ## Forces and clears -/

section
variable (d : Dev) (p : PendWr)

/-- The bits that such a change sets. -/
theorem PendWr.sets_of_row {r : RegRow} (h : rowAt p.off = some r) : p.sets = p.mask &&& r.ws &&& p.val := by rw [PendWr.sets, h]

theorem pendActs_engForce (h : p.off = R.engForce) : (d.pendActs p).eng.parReq = d.eng.parReq ||| (p.mask &&& 7 &&& p.val) := by
  have hs : p.sets = p.mask &&& 7 &&& p.val := p.sets_of_row (r := (rowAt R.engForce).get rfl) (by rw [h]; rfl)
  rw [Dev.pendActs]
  simp only [hs, h]
  rw [if_neg (by decide), if_neg (by decide), if_neg (by decide), if_neg (fun hc => absurd hc.1 (by decide)), if_neg (fun hc => absurd hc.1 (by decide)),
    if_pos trivial]

theorem pendActs_pairForce (h : p.off = R.pairForce) : (d.pendActs p).lv R.pairForce = (d.lv R.pairForce ||| (p.mask &&& 6 &&& p.val)) := by
  have hs : p.sets = p.mask &&& 6 &&& p.val := p.sets_of_row (r := (rowAt R.pairForce).get rfl) (by rw [h]; rfl)
  have hlt : p.mask &&& 6 &&& p.val < 2 ^ 32 := (Nat.and_le_left.trans Nat.and_le_right).trans_lt (by decide)
  rw [Dev.pendActs]
  simp only [hs, h]
  rw [if_neg (by decide), if_neg (by decide), if_neg (by decide), if_neg (fun hc => absurd hc.1 (by decide)), if_neg (fun hc => absurd hc.1 (by decide)),
    if_neg (by decide)]
  by_cases hw : p.mask &&& 6 &&& p.val = 0
  · rw [if_neg (fun hc => hc.2 hw), hw, Nat.or_zero]
  · rw [if_pos ⟨trivial, hw⟩, Dev.lv_setBoth, Nat.mod_eq_of_lt (Nat.or_lt_two_pow (d.lv_lt _) hlt)]

theorem pendActs_bbxFault (h : p.off = R.bbxFault) (hm : bit p.mask 8 = true) (hv : bit p.val 8 = true) : (d.pendActs p).bbx.clrReq = true := by
  have hs : p.sets = p.mask &&& 256 &&& p.val := p.sets_of_row (r := (rowAt R.bbxFault).get rfl) (by rw [h]; rfl)
  have hbit : bit p.sets 8 = true := by
    rw [bit_eq_testBit] at hm hv ⊢
    rw [hs, Nat.testBit_and, Nat.testBit_and, hm, hv]
    rfl
  rw [Dev.pendActs]
  simp only [hbit, h]
  rw [if_neg (by decide), if_neg (by decide), if_neg (by decide), if_neg (fun hc => absurd hc.1 (by decide)), if_pos ⟨trivial, trivial⟩]

theorem pendActs_pwrTherm (h : p.off = R.pwrTherm) (hm : bit p.mask 8 = true) (hv : bit p.val 8 = true) : d.pendActs p = d.thermClear := by
  have hs : p.sets = p.mask &&& 256 &&& p.val := p.sets_of_row (r := (rowAt R.pwrTherm).get rfl) (by rw [h]; rfl)
  have hbit : bit p.sets 8 = true := by
    rw [bit_eq_testBit] at hm hv ⊢
    rw [hs, Nat.testBit_and, Nat.testBit_and, hm, hv]
    rfl
  rw [Dev.pendActs]
  simp only [hbit, h]
  rw [if_neg (by decide), if_neg (by decide), if_neg (by decide), if_pos ⟨trivial, trivial⟩]

end

/-! ## STEPACC -/

theorem Dev.clearFlt_wide (d : Dev) (b mask : Nat) : (d.clearFlt b mask).wide = d.wide := by
  unfold Dev.clearFlt
  extract_lets d1 f d2
  rw [Dev.irqUpdate_wide]
  simp only [d2]
  split
  · split
    · rfl
    · rfl
  · rfl

/-- A new selection of a reference counts a switch, and no other 64-bit register changes. -/
theorem Dev.clkTake_w64 (d : Dev) (n : Nat) (build : Bool) {o : Nat} (ho : o ≠ R.clkSwitchcnt) : (d.clkTake n build).w64 o = d.w64 o := by
  unfold Dev.clkTake
  extract_lets old b d1 d2 c d3 d4
  have h2 : d2.w64 o = d.w64 o := by
    rw [Dev.w64_bump_ne _ _ _ _ ho, Dev.w64_setReg, Dev.w64_setReg, Dev.w64_setFld, Dev.w64_setFld, Dev.w64_setFld, Dev.w64_setFld]
  clear_value d2
  have h3 : d3.w64 o = d.w64 o := h2
  have h4 : d4.w64 o = d3.w64 o := by
    simp only [d4]
    split
    · rw [Dev.w64, Dev.clearFlt_wide]
      rfl
    · rfl
  rw [Dev.w64, Dev.raise_wide]
  exact h4.trans h3

theorem Dev.stepaccClear_w64 (d : Dev) : d.stepaccClear.w64 R.timeStepacc = 0 := by
  have h1 : (d.setW R.timeStepacc 0).w64 R.timeStepacc = 0 := (d.w64_setW _ _).trans (Nat.zero_mod _)
  unfold Dev.stepaccClear
  extract_lets d1
  split
  · exact (d1.clkTake_w64 2 false (by decide)).trans h1
  · exact h1

/-! ## The thermal latch -/

theorem Dev.keeps_forN {d : Dev} {l : List Nat} (n : Nat) (f : Nat → Dev → Dev) (hf : ∀ k e, k < n → Dev.keeps e (f k e) l) : d.keeps (forN n f d) l := by
  induction n with
  | zero => exact d.keeps_refl l
  | succ n ih => exact (ih (fun k e hk => hf k e (by omega))).trans (hf n _ (by omega))

/-- The shutdown of the modulators and of the clock outputs ends. -/
def Dev.shutEnd (d : Dev) : Dev := forN 4 (fun k (e : Dev) => e.setFld (R.synOutstat k) 1 1 0) { d with mod := { d.mod with shut := false } }

theorem Dev.shutEnd_keeps (d : Dev) : d.keeps d.shutEnd ((List.range 4).map R.synOutstat) := by
  have hout : ∀ k, k < 4 → R.synOutstat k ∈ (List.range 4).map R.synOutstat := fun k hk => List.mem_map_of_mem (List.mem_range.2 hk)
  exact Dev.keeps.trans (e := { d with mod := { d.mod with shut := false } }) (Dev.keeps_of_regs ⟨rfl, rfl, rfl⟩ _)
    (Dev.keeps_forN 4 _ (fun k e hk => e.keeps_setFld _ _ _ _ (hout k hk)))

/-- A clear at or above 150 degrees is ignored, below it the latch and the shutdown end (R430). -/
theorem Dev.thermClear_leaves (d : Dev) : (sgn 16 (d.reg R.thmTj) < 600 → d.thermClear.rf R.pwrTherm 0 1 = 0 ∧ d.thermClear.mod.shut = false) ∧
    (600 ≤ sgn 16 (d.reg R.thmTj) → d.thermClear.reg R.pwrTherm = d.reg R.pwrTherm ∧ d.thermClear.mod = d.mod) := by
  refine ⟨fun h => ?_, fun h => ?_⟩
  · set d1 := (d.setFld R.pwrTherm 0 1 0).setFld R.thmStat 31 1 0 with hd1
    have h1 : d1.rf R.pwrTherm 0 1 = 0 := by
      rw [hd1, Dev.rf_setFld_ne _ _ _ _ _ _ _ (by decide), Dev.rf_setFld _ _ _ _ _ (by decide), Nat.zero_mod]
    have hclear : d.thermClear = d1.shutEnd.raise Blk.pwr Src.pwrThermClr (d.reg R.thmTj) 1 d1.shutEnd.tickLo := if_pos h
    have hk : d1.keeps d1.shutEnd ((List.range 4).map R.synOutstat) := d1.shutEnd_keeps
    rw [hclear]
    refine ⟨?_, ?_⟩
    · rw [Dev.rf_raise_ne _ _ _ _ _ _ _ _ (by decide) (by decide), Dev.rf, (hk R.pwrTherm (by decide)).1]
      exact h1
    · rw [Dev.raise_mod]
      rfl
  · have hclear : d.thermClear = d.raise Blk.pwr Src.pwrThermClr (d.reg R.thmTj) 0 d.tickLo := if_neg (by omega)
    rw [hclear]
    exact ⟨Dev.reg_raise_ne _ _ _ _ _ _ _ (by decide) (by decide), Dev.raise_mod _ _ _ _ _ _⟩

/-! ## MOD.CLEAR -/

theorem bitsOn_mod_two_pow : ∀ ch, ch < 48 → bitsOn 48 (2 ^ ch) = [ch] := by decide

theorem Dev.modC_onCh (d : Dev) {ch : Nat} (f : ModCh → ModCh) (h : ch < d.mod.ch.length) (k : Nat) :
    (d.onCh ch f).modC k = if k = ch then f (d.modC k) else d.modC k := by
  rw [Dev.modC, Dev.onCh, getD_updAt]
  by_cases hk : k = ch
  · rw [if_pos ⟨hk.symm, hk ▸ h⟩, if_pos hk]
    rfl
  · rw [if_neg (fun hc => hk hc.1.symm), if_neg hk]
    rfl

/-- A clear of a latched or waiting channel of a group that has stopped (R285). -/
theorem Dev.modClear_stopped (d : Dev) {ch : Nat} (hch : ch < 48) (hlen : d.mod.ch.length = 48) (hrun : (d.modG (ch / 8)).run_ = false)
    (hst : (d.modC ch).st = 4 ∨ (d.modC ch).st = 5) : ((d.modClear (2 ^ ch)).modC ch).st = 0 ∧ ((d.modClear (2 ^ ch)).modC ch).core.retries = 0 ∧
      (∀ k, k ≠ ch → (d.modClear (2 ^ ch)).modC k = d.modC k) ∧ d.keeps (d.modClear (2 ^ ch)) [R.modChstat ch] := by
  have hclear : d.modClear (2 ^ ch) = (d.onCh ch (fun x => { x with st := 0, core := { x.core with retries := 0 } })).chStat ch := by
    simp only [Dev.modClear, bitsOn_mod_two_pow ch hch, List.foldl_cons, List.foldl_nil, if_pos hst, hrun, Bool.false_and, Bool.false_eq_true, if_false]
  have hmod : ∀ k, (d.modClear (2 ^ ch)).modC k = if k = ch then { d.modC k with st := 0, core := { (d.modC k).core with retries := 0 } } else d.modC k := by
    intro k
    rw [hclear]
    exact d.modC_onCh _ (by omega) k
  refine ⟨?_, ?_, fun k hk => ?_, ?_⟩
  · rw [hmod, if_pos rfl]
  · rw [hmod, if_pos rfl]
  · rw [hmod, if_neg hk]
  · rw [hclear]
    exact (Dev.keeps_of_regs (e := d.onCh ch _) ⟨rfl, rfl, rfl⟩ _).trans (Dev.keeps_setReg _ _ _ (by simp))

/-! ## Sleep -/

/-- What the device is asleep with (R416). -/
theorem Sys.sleep_leaves (s : Sys) : (s.dev.paired = true → s.sleep = s) ∧
    (s.dev.paired = false → s.sleep.mem = s.mem.aoKept ∧ s.sleep.dev.asleep = true ∧ s.sleep.otp = s.otp ∧
      (s.mem.wf = true → ∀ a, s.sleep.mem.get a = (if a < 0x200000000 ∨ (retainedBase ≤ a ∧ a < retainedBase + 0x40000) then s.mem.get a else Memory.blank))) := by
  refine ⟨fun h => if_pos h, fun h => ?_⟩
  have hs : s.sleep = { s with dev := s.dev.aoKept.setFld R.pwrDomstat 0 12 1, mem := s.mem.aoKept } := if_neg (by simp [h])
  rw [hs]
  refine ⟨rfl, ?_, rfl, fun hw a => Memory.get_aoKept s.mem a hw⟩
  exact beq_iff_eq.2 (Dev.rf_setFld _ _ _ _ _ (by decide))

/-- Settles O34: change by change. -/
theorem changesActAtTheirBoundary : Obligations.ChangesActAtTheirBoundary := by
  refine ⟨pendActs_engForce, pendActs_pairForce, fun d p h => ?_, pendActs_bbxFault, fun d p h hm hv => ?_, fun d ch hch hlen hrun hst => ?_, Sys.sleep_leaves⟩
  · rw [show d.pendActs p = d.stepaccClear from if_pos h]
    exact d.stepaccClear_w64
  · rw [pendActs_pwrTherm d p h hm hv]
    exact d.thermClear_leaves
  · exact d.modClear_stopped hch hlen hrun hst

end Sys2Proof.Machine

/-!
PROOFS. Plane resets (R28): a mirrored immediate write outlasts a reset of the control plane.
-/
namespace Sys2Proof.Machine

/-- An immediate write that a SHADOW has taken from its partner for the boundary into tick 1; the command itself waits in the partner. -/
def mirroredWrite : ImmCmd :=
  { tgt := 1, slot := 0, ctr := 1, writes := [{ off := R.clkForce, mask := 15, data := 15 }], cmd := none, wait := false }

/-- A SHADOW in a running tick that has taken one immediate write and nothing else. -/
def shadowWithWrite : State :=
  let d := (((({} : Dev).setReg R.synStat 3).setReg R.sysBootstat 8).setReg R.pairCtrl (2 ^ 31)).setReg R.pairStat 1
  { sys := { dev := { d with cmd := { d.cmd with imm := [mirroredWrite] } } } }

/-- The immediate writes that a reset of the control plane leaves there. -/
def immAfterCtrlReset : List ImmCmd :=
  match exec (.ctrlPlaneReset 0) shadowWithWrite with
  | .next t => t.sys.dev.cmd.imm
  | _ => []

theorem shadowWithWrite_role : shadowWithWrite.sys.dev.inReset = false ∧ shadowWithWrite.sys.dev.bootState ≠ 7 ∧ shadowWithWrite.sys.dev.role = .shadow := by
  decide +kernel

theorem immAfterCtrlReset_eq : immAfterCtrlReset = [mirroredWrite] := by decide +kernel

/-- Refutes O38: a reset of the control plane discards the commands not acknowledged, but a write mirrored by the partner is no command of this unit
and stays. -/
theorem not_planeResetsAndThePcieFunction : ¬ Obligations.PlaneResetsAndThePcieFunction := by
  intro h
  obtain ⟨hrst, hboot, -⟩ := shadowWithWrite_role
  obtain ⟨t, hexec, -, -, -, himm, -⟩ := (h shadowWithWrite 0 hrst).1 hboot
  have hleft := immAfterCtrlReset_eq
  simp only [immAfterCtrlReset, hexec, himm] at hleft
  cases hleft

end Sys2Proof.Machine

/-!
PROOFS. Commands over UDP (R333, R348): the counters of commands lie past those of the slots. The statements speak of the counter record
`R.cmdSeen k` for every `k`; from k = 64 on its address is that of a counter of CMD's own, which an answered command moves.
-/
namespace Sys2Proof.Machine

/-- The record `R.cmdSeen k` of no slot: its address is that of the acknowledged or of the refused commands' counter. -/
theorem cmdSeen_eq_cmdCnt (i : Nat) : R.cmdSeen (64 + i) = R.cmdCnt i := by
  simp only [R.cmdSeen, R.cmdCnt]
  omega

/-- A device whose boot is over, that admits commands over UDP and has a nonce; every key slot is empty. -/
def keyless : State :=
  { sys := { dev := (((({} : Dev).setReg R.synStat 3).setReg R.sysBootstat 8).setReg R.cmdPolicy 1).setReg R.cmdStat 1 } }

/-- A frame over UDP under slot 0, of a command without a target. -/
def plainFrame : CmdFrame := { src := 2, slot := 0, ctr := 1, tgt := 0, reqtag := 0, tag := 0, from_ := none, c := 0 }

theorem keyless_idle : keyless.sys.dev.cmdIdle := by
  unfold Dev.cmdIdle
  decide +kernel

theorem fits_plainFrame : fits plainFrame [] := by
  unfold fits
  decide

theorem keyless_counts_zero (i : Nat) : keyless.sys.dev.w64 (R.cmdCnt i) = 0 := rfl

/-- A 64-bit counter after a command. -/
def counterAfter (r : Res) (off : Nat) : Option Nat :=
  match r with
  | .next t => some (t.sys.dev.w64 off)
  | _ => none

theorem counterAfter_of_next {r : Res} {t : State} (off : Nat) (h : r = .next t) : counterAfter r off = some (t.sys.dev.w64 off) := by
  rw [h]; rfl

/-- A counter of CMD that shows 1 after a command of the idle device has not kept its value, as a record of its address would have. -/
theorem cmdCnt_moves {r : Res} {t : State} {i : Nat} (hexec : r = .next t) (hone : counterAfter r (R.cmdCnt i) = some 1) :
    t.sys.dev.w64 (R.cmdSeen (64 + i)) ≠ keyless.sys.dev.w64 (R.cmdSeen (64 + i)) := by
  rw [counterAfter_of_next _ hexec] at hone
  rw [cmdSeen_eq_cmdCnt, keyless_counts_zero, Option.some.inj hone]
  decide

/-- A HELLO is counted as an acknowledged command. -/
theorem hello_counts_acknowledged : counterAfter (exec (.hello plainFrame) keyless) (R.cmdCnt 0) = some 1 := by decide +kernel

/-- A command under an empty slot is counted as a refused one. -/
theorem emptySlot_counts_refused : counterAfter (exec (.pairDisable plainFrame) keyless) (R.cmdCnt 1) = some 1 := by decide +kernel

/-- Refutes O25: `R.cmdSeen 64` is the counter of acknowledged commands, which the HELLO moves. -/
theorem not_helloAndMalformed : ¬ Obligations.HelloAndMalformed := by
  intro h
  obtain ⟨t, hexec, -, -, -, -, -, -, hseen⟩ := h.1 keyless plainFrame keyless_idle fits_plainFrame (by decide)
  exact cmdCnt_moves hexec hello_counts_acknowledged (hseen (64 + 0))

/-- Refutes O26: `R.cmdSeen 65` is the counter of refused commands, which a command under an empty slot moves. -/
theorem not_unauthenticCommandsChangeNothing : ¬ Obligations.UnauthenticCommandsChangeNothing := by
  intro h
  have hrows := h keyless plainFrame 0 0 0 0 0 0 0 0 0 0 [] [] keyless_idle (by decide)
  obtain ⟨-, -, -, -, -, -, -, -, -, -, -, -, hdisable, -⟩ := hrows
  obtain ⟨t, hexec, -, -, -, -, -, -, -, -, hseen, -⟩ := hdisable fits_plainFrame (.inl (by decide))
  exact cmdCnt_moves hexec emptySlot_counts_refused (hseen (64 + 1)).1

end Sys2Proof.Machine

/-!
PROOFS. CMD's frames (R329, R335): the fields of a command and of a reply are those that were put into them.
-/
namespace Sys2Proof.Machine

/-! ## Fields of byte strings -/

@[simp] theorem length_leBytes (n v : Nat) : (leBytes n v).length = n := by
  induction n generalizing v with
  | zero => rfl
  | succ n ih => rw [leBytes, List.length_cons, ih]

@[simp] theorem length_beBytes (n v : Nat) : (beBytes n v).length = n := by
  rw [beBytes, List.length_reverse, length_leBytes]

/-- A slice past the first part of a string lies in the second. -/
theorem slice_append {α : Type} {i n : Nat} (a b : List α) (h : a.length ≤ i) : slice (a ++ b) i n = slice b (i - a.length) n := by
  rw [slice, slice, List.drop_append, List.drop_eq_nil_of_le h, List.nil_append]

/-- A slice of the whole first part. -/
theorem slice_append_self {α : Type} {n : Nat} (a b : List α) (h : a.length = n) : slice (a ++ b) 0 n = a := by
  rw [slice, List.drop_zero, ← h, List.take_left]

/-- A whole string as a slice of itself. -/
theorem slice_self {α : Type} {n : Nat} (a : List α) (h : a.length = n) : slice a 0 n = a := by
  rw [slice, List.drop_zero, ← h, List.take_length]

/-- The number at the head of a string that begins with the bytes of `v`. -/
theorem le_leBytes_append (n v : Nat) (b : List Byte) : le (leBytes n v ++ b) 0 n = v % 256 ^ n := by
  rw [le, slice_append_self _ _ (length_leBytes n v), leNat_leBytes]

theorem le_leBytes (n v : Nat) : le (leBytes n v) 0 n = v % 256 ^ n := by
  rw [le, slice_self _ (length_leBytes n v), leNat_leBytes]

theorem le_append {i n : Nat} (a b : List Byte) (h : a.length ≤ i) : le (a ++ b) i n = le b (i - a.length) n := by
  rw [le, le, slice_append a b h]

/-! ## The frame of a command -/

section
variable (op slot ctr tgt reqtag tag : Nat) (pay : List Byte)

/-- The header of a command, as one string in front of payload and tag. -/
theorem cmdBytes_eq : cmdBytes op slot ctr tgt reqtag pay tag =
    leBytes 4 0x4D435647 ++ (leBytes 1 1 ++ (leBytes 1 slot ++ (leBytes 2 op ++ (leBytes 8 ctr ++ (leBytes 6 tgt ++
      (leBytes 2 pay.length ++ (leBytes 4 reqtag ++ (leBytes 4 0 ++ (pay ++ leBytes 8 tag))))))))) := by
  simp only [cmdBytes, List.append_assoc]

theorem length_cmdBytes : (cmdBytes op slot ctr tgt reqtag pay tag).length = 40 + pay.length := by
  simp only [cmdBytes, List.length_append, length_leBytes]
  omega

theorem cmdBytes_magic : le (cmdBytes op slot ctr tgt reqtag pay tag) 0 4 = 0x4D435647 := by
  simp [cmdBytes_eq, le_leBytes_append]

theorem cmdBytes_version : le (cmdBytes op slot ctr tgt reqtag pay tag) 4 1 = 1 := by
  simp [cmdBytes_eq, le_append, le_leBytes_append]

theorem cmdBytes_slot : le (cmdBytes op slot ctr tgt reqtag pay tag) 5 1 = slot % 256 := by
  simp [cmdBytes_eq, le_append, le_leBytes_append]

theorem cmdBytes_op : le (cmdBytes op slot ctr tgt reqtag pay tag) 6 2 = op % 65536 := by
  simp [cmdBytes_eq, le_append, le_leBytes_append]

theorem cmdBytes_ctr : le (cmdBytes op slot ctr tgt reqtag pay tag) 8 8 = ctr % 2 ^ 64 := by
  simp [cmdBytes_eq, le_append, le_leBytes_append]

theorem cmdBytes_tgt : le (cmdBytes op slot ctr tgt reqtag pay tag) 16 6 = tgt % 2 ^ 48 := by
  simp [cmdBytes_eq, le_append, le_leBytes_append]

theorem cmdBytes_length : le (cmdBytes op slot ctr tgt reqtag pay tag) 22 2 = pay.length % 65536 := by
  simp [cmdBytes_eq, le_append, le_leBytes_append]

theorem cmdBytes_reserved : le (cmdBytes op slot ctr tgt reqtag pay tag) 28 4 = 0 := by
  simp [cmdBytes_eq, le_append, le_leBytes_append]

theorem slice_cmdBytes_pay {n : Nat} (hn : n = pay.length) : slice (cmdBytes op slot ctr tgt reqtag pay tag) 32 n = pay := by
  simp [cmdBytes_eq, slice_append, slice_append_self, hn]

end

/-! ## A command that fits its fields -/

theorem cmdOp_frameOf (f : CmdFrame) (pay : List Byte) {op : Nat} (hop : op < 65536) : cmdOp (frameOf f op pay) = op :=
  (cmdBytes_op ..).trans (Nat.mod_eq_of_lt hop)

section
variable {f : CmdFrame} {pay : List Byte} (h : fits f pay)
include h

theorem frameOk_frameOf (op : Nat) : frameOk (frameOf f op pay) = true := by
  obtain ⟨-, hslot, -, -, -, -, hmod, hlen⟩ := h
  have hn : pay.length % 65536 = pay.length := Nat.mod_eq_of_lt (by omega)
  have hs : f.slot % 256 = f.slot := Nat.mod_eq_of_lt (by omega)
  simp only [frameOk, frameOf, cmdBytes_magic, cmdBytes_version, cmdBytes_slot, cmdBytes_reserved, cmdBytes_length, length_cmdBytes, hn, hs]
  simp [hslot, hmod, hlen]

theorem cmdSlot_frameOf (op : Nat) : cmdSlot (frameOf f op pay) = f.slot := by
  obtain ⟨-, hslot, -⟩ := h
  rw [cmdSlot, frameOf, cmdBytes_slot]
  omega

theorem cmdCtr_frameOf (op : Nat) : cmdCtr (frameOf f op pay) = f.ctr := by
  obtain ⟨-, -, hctr, -⟩ := h
  exact (cmdBytes_ctr ..).trans (Nat.mod_eq_of_lt hctr)

theorem cmdTgt_frameOf (op : Nat) : cmdTgt (frameOf f op pay) = f.tgt := by
  obtain ⟨-, -, -, htgt, -⟩ := h
  exact (cmdBytes_tgt ..).trans (Nat.mod_eq_of_lt htgt)

theorem cmdPay_frameOf (op : Nat) : cmdPay (frameOf f op pay) = pay := by
  obtain ⟨-, -, -, -, -, -, -, hlen⟩ := h
  exact slice_cmdBytes_pay _ _ _ _ _ _ _ ((cmdBytes_length ..).trans (Nat.mod_eq_of_lt (by omega)))

end

/-! ## A reply -/

@[simp] theorem length_padTo (n : Nat) (l : List Byte) : (padTo n l).length = n := by
  rw [padTo, List.length_append, List.length_take, List.length_replicate]
  omega

section
variable (d : Dev) (bs : List Byte) (tick status detail : Nat) (pay : List Byte) (key : Option Nat)

/-- The reply with its header as one string in front of payload and tag. -/
theorem Dev.replyTo_eq : ∃ tl, d.replyTo bs tick status detail pay key =
    leBytes 4 0x50525647 ++ (padTo 12 (slice bs 4 12) ++ (leBytes 6 tick ++ (leBytes 2 pay.length ++ (padTo 4 (slice bs 24 4) ++
      (leBytes 1 status ++ (leBytes 1 detail ++ (leBytes 1 (b2n key.isNone) ++ (leBytes 1 (d.rf R.pairStat 0 3) ++ (pay ++ tl))))))))) := by
  unfold Dev.replyTo
  extract_lets hd
  have hsplit (tl : List Byte) : hd ++ pay ++ tl = leBytes 4 0x50525647 ++ (padTo 12 (slice bs 4 12) ++ (leBytes 6 tick ++
      (leBytes 2 pay.length ++ (padTo 4 (slice bs 24 4) ++ (leBytes 1 status ++ (leBytes 1 detail ++ (leBytes 1 (b2n key.isNone) ++
        (leBytes 1 (d.rf R.pairStat 0 3) ++ (pay ++ tl))))))))) := by
    simp only [hd, List.append_assoc]
  exact ⟨_, hsplit _⟩

theorem Dev.replyTo_magic : le (d.replyTo bs tick status detail pay key) 0 4 = 0x50525647 := by
  obtain ⟨tl, h⟩ := d.replyTo_eq bs tick status detail pay key
  simp [h, le_leBytes_append]

theorem Dev.replyTo_tick : le (d.replyTo bs tick status detail pay key) 16 6 = tick % 2 ^ 48 := by
  obtain ⟨tl, h⟩ := d.replyTo_eq bs tick status detail pay key
  simp [h, le_append, le_leBytes_append]

theorem Dev.replyTo_status : le (d.replyTo bs tick status detail pay key) 28 1 = status % 256 := by
  obtain ⟨tl, h⟩ := d.replyTo_eq bs tick status detail pay key
  simp [h, le_append, le_leBytes_append]

theorem Dev.replyTo_pay {n : Nat} (hn : pay.length = n) : slice (d.replyTo bs tick status detail pay key) 32 n = pay := by
  obtain ⟨tl, h⟩ := d.replyTo_eq bs tick status detail pay key
  simp [h, slice_append, slice_append_self, hn]

end

end Sys2Proof.Machine

/-!
PROOFS. CMD takes a command over UDP (R327, R333, R335): an idle CMD takes it at once, checks it, and sends one reply, which leaves the registers alone.
-/
namespace Sys2Proof.Machine

/-! ## An idle CMD takes what arrives -/

/-- An empty ring holds nothing, whatever its size. -/
theorem ringHeld_self (h size : Nat) : ringHeld h h size = 0 := by
  unfold ringHeld
  rcases Nat.eq_zero_or_pos size with rfl | hpos
  · simp [Nat.mod_one]
  · have hsplit := Nat.mod_add_div h size
    have hsum : h + size - h % size = size * (h / size + 1) := by
      rw [Nat.mul_add]
      omega
    rw [Nat.max_eq_right hpos, hsum, Nat.mul_mod_right]

/-- The device as CMD takes the command that waits. -/
def Dev.taking (d : Dev) (c : Nat) : Dev :=
  (d.atC c).onCmd (fun x => { x with
    wait := []
    turn := 0
    full := x.full.filter (fun j => j != 2) })

section
variable {s : Sys} (h : s.dev.cmdIdle) (c : Nat) (x : CmdIn)

/-- The device with a command that waits. -/
def Dev.queuing (d : Dev) (c : Nat) (x : CmdIn) : Dev := (d.atC c).onCmd (fun y => { y with wait := y.wait ++ [x] })

include h

theorem cmdIdle_ring {r : Nat} (hr : r < 2) : (s.dev.queuing c x).rf (R.cmdCtail r) 0 12 = (s.dev.queuing c x).rf (R.cmdChead r) 0 12 := by
  obtain ⟨-, -, -, -, -, -, -, -, -, -, hring⟩ := h
  exact (hring r hr).symm

theorem cmdIdle_wait : (s.dev.queuing c x).cmd.wait = [x] := by
  obtain ⟨-, -, -, -, -, -, hwait, -⟩ := h
  show s.dev.cmd.wait ++ [x] = [x]
  rw [hwait, List.nil_append]

theorem cmdIdle_cmdBlocked : (s.dev.queuing c x).cmdBlocked = false := by
  obtain ⟨-, hon, hrst, hboot, -, hfuse, -, -, himm, hawait, -⟩ := h
  have hon' : (s.dev.queuing c x).blockOn Blk.cmd = true := hon
  have hboot' : (s.dev.queuing c x).bootOver = true := hboot
  have hfuse' : (s.dev.queuing c x).cmd.fuse = false := hfuse
  have hrst' : (s.dev.queuing c x).ctrlRst = none := hrst
  have hflight : (s.dev.queuing c x).inflight = 0 := by
    show s.dev.cmd.await.length + (s.dev.cmd.imm.filter _).length = 0
    rw [himm, hawait]
    rfl
  simp [Dev.cmdBlocked, hfuse', hrst', hboot', hon', hflight]

theorem cmdIdle_cmdQueued : (s.dev.queuing c x).cmdQueued = 1 := by
  have h0 := cmdIdle_ring h c x (r := 0) (by decide)
  have h1 := cmdIdle_ring h c x (r := 1) (by decide)
  simp only [Dev.cmdQueued, h0, h1, ringHeld_self, cmdIdle_wait h]
  rfl

/-- Nothing is taken from a ring. -/
theorem takeFrom_ring (hx : x.src = 2) {k : Nat} (hk : k < 2) :
    (s.onDev (fun d => d.queuing c x)).takeFrom k = (s.onDev (fun d => d.queuing c x), false) := by
  have hnot : ([x].find? (fun y => y.src == k)) = none := by
    rw [List.find?_singleton, if_neg (by rw [hx, beq_iff_eq]; omega)]
  have hpeek : (s.onDev (fun d => d.queuing c x)).ringPeek k = none := by
    have hring := cmdIdle_ring h c x hk
    simp [Sys.ringPeek, Sys.onDev, hring]
  have hsrc : (s.onDev (fun d => d.queuing c x)).srcPeek k = none := by
    show (match (s.dev.queuing c x).cmd.wait.find? (fun y => y.src == k) with
      | some y => some y.bytes
      | none => if k < 2 then ((s.onDev (fun d => d.queuing c x)).ringPeek k).map (fun y => y.2) else none) = none
    rw [cmdIdle_wait h, hnot, if_pos hk, hpeek]
    rfl
  rw [Sys.takeFrom, hsrc]

/-- The command that waits is taken from the UDP queue. -/
theorem takeFrom_udp (hx : x.src = 2) :
    (s.onDev (fun d => d.queuing c x)).takeFrom 2 = ((s.onDev (fun d => d.taking c)).cmdTake x, true) := by
  have hthis : ([x].find? (fun y => y.src == 2)) = some x := by
    rw [List.find?_singleton, if_pos (by rw [hx]; rfl)]
  have hwait := cmdIdle_wait h c x
  obtain ⟨-, -, -, -, -, -, -, -, himm, -⟩ := h
  have hsrc : (s.onDev (fun d => d.queuing c x)).srcPeek 2 = some x.bytes := by
    show (match (s.dev.queuing c x).cmd.wait.find? (fun y => y.src == 2) with
      | some y => some y.bytes
      | none => none) = some x.bytes
    rw [hwait, hthis]
  have hheld : (s.onDev (fun d => d.queuing c x)).dev.slotHeld (cmdSlot x.bytes) = false := by
    show s.dev.cmd.imm.any _ = false
    rw [himm]
    rfl
  have hfetch : (s.onDev (fun d => d.queuing c x)).srcFetch 2 =
      ((s.onDev (fun d => d.queuing c x)).onDev (fun d => d.onCmd (fun y => { y with wait := y.wait.erase x })), some x) := by
    show (match (s.dev.queuing c x).cmd.wait.find? (fun y => y.src == 2) with
      | some y => ((s.onDev (fun d => d.queuing c x)).onDev (fun d => d.onCmd (fun z => { z with wait := z.wait.erase y })), some y)
      | none => (s.onDev (fun d => d.queuing c x), none)) = _
    rw [hwait, hthis]
  have herase : (s.dev.queuing c x).cmd.wait.erase x = [] := by
    rw [hwait, List.erase_cons_head]
  rw [Sys.takeFrom, hsrc]
  simp only [hheld, Bool.false_eq_true, if_false, hfetch]
  rw [if_neg (by omega)]
  simp only [Sys.onDev, Dev.onCmd, herase]
  rfl

/-- An idle CMD takes a command that arrives over UDP at once. -/
theorem cmdArrive_idle (bs : List Byte) (from_ : Option UdpFrom) :
    s.cmdArrive 2 bs from_ c = (s.onDev (fun d => d.taking c)).cmdTake { src := 2, bytes := bs, from_ := from_ } := by
  let x : CmdIn := { src := 2, bytes := bs, from_ := from_ }
  have hudp := takeFrom_udp h c x rfl
  have hring0 := takeFrom_ring h c x rfl (k := 0) (by decide)
  have hring1 := takeFrom_ring h c x rfl (k := 1) (by decide)
  have hqueued := cmdIdle_cmdQueued h c x
  have hblocked := cmdIdle_cmdBlocked h c x
  obtain ⟨-, hon, hrst, hboot, hpol, -, -, howed, -⟩ := h
  have harrive : s.cmdArrive 2 bs from_ c = (s.onDev (fun d => d.queuing c x)).cmdRun := by
    have hpol' : (s.dev.atC c).rf R.cmdPolicy 0 1 = 1 := hpol
    have hboot' : (s.dev.atC c).bootOver = true := hboot
    have hrst' : (s.dev.atC c).ctrlRst = none := hrst
    simp only [Sys.cmdArrive, Sys.onDev, hon, hpol', hboot', hrst']
    rfl
  have hflush : (s.onDev (fun d => d.queuing c x)).flush = s.onDev (fun d => d.queuing c x) := by
    have howed' : (s.onDev (fun d => d.queuing c x)).dev.cmd.owed = [] := howed
    rw [Sys.flush, howed', List.foldl_nil, ← howed']
    rfl
  have hone : (s.onDev (fun d => d.queuing c x)).takeOne = ((s.onDev (fun d => d.taking c)).cmdTake x, true) := by
    have hturn : s.dev.cmd.turn % 3 = 0 ∨ s.dev.cmd.turn % 3 = 1 ∨ s.dev.cmd.turn % 3 = 2 := by omega
    have hunfold : (s.onDev (fun d => d.queuing c x)).takeOne =
        (let a := (s.onDev (fun d => d.queuing c x)).takeFrom (s.dev.cmd.turn % 3)
         if a.2 then a
         else
          let b := a.1.takeFrom ((s.dev.cmd.turn + 1) % 3)
          if b.2 then b else b.1.takeFrom ((s.dev.cmd.turn + 2) % 3)) := rfl
    rw [hunfold]
    rcases hturn with ht | ht | ht
    · have ht1 : (s.dev.cmd.turn + 1) % 3 = 1 := by omega
      have ht2 : (s.dev.cmd.turn + 2) % 3 = 2 := by omega
      simp only [ht, ht1, ht2, hring0, hring1, hudp, Bool.false_eq_true, if_false]
    · have ht1 : (s.dev.cmd.turn + 1) % 3 = 2 := by omega
      simp only [ht, ht1, hring1, hudp, Bool.false_eq_true, if_false, if_true]
    · simp only [ht, hudp, if_true]
  have hq : (s.onDev (fun d => d.queuing c x)).dev.cmdQueued = 1 := hqueued
  have hb : (s.onDev (fun d => d.queuing c x)).dev.cmdBlocked = false := hblocked
  rw [harrive, Sys.cmdRun, hflush, hq]
  simp only [Sys.cmdRunN, hb, Bool.false_eq_true, if_false, hone, if_true]
  rfl

end

/-! ## A reply over UDP -/

/-- From `d` to `e` frames have left by the management port: its counters have moved, and nothing else differs. -/
def Dev.sends (d e : Dev) : Prop :=
  ∃ wide eth, e = { d with
      wide := wide
      out := { d.out with eth := eth } } ∧ ∀ off, off ≠ R.macCnt 12 2 → off ≠ R.macCnt 12 3 → e.w64 off = d.w64 off

theorem Dev.sends_refl (d : Dev) : d.sends d := ⟨_, _, rfl, fun _ _ _ => rfl⟩

theorem Dev.sends_trans {d e g : Dev} (hde : d.sends e) (heg : e.sends g) : d.sends g := by
  obtain ⟨wide, eth, rfl, hw⟩ := hde
  obtain ⟨wide', eth', rfl, hw'⟩ := heg
  exact ⟨wide', eth', rfl, fun off h2 h3 => (hw' off h2 h3).trans (hw off h2 h3)⟩

theorem Dev.sends_ethSend (d : Dev) (f : List Byte) : d.sends (d.ethSend 2 f) := by
  refine ⟨_, _, rfl, fun off h2 h3 => ?_⟩
  exact (Dev.w64_bump_ne _ _ _ _ h3).trans (Dev.w64_bump_ne _ _ _ _ h2)

theorem Dev.sends_each_ethSend (l : List (List Byte)) (d : Dev) : d.sends (each l (fun f d => d.ethSend 2 f) d) := by
  induction l generalizing d with
  | nil => exact d.sends_refl
  | cons f t ih => exact Dev.sends_trans (d.sends_ethSend f) (ih _)

/-- From `d` to `e` one reply over UDP has left, and nothing is owed any more: free values, the management port's counters, what has left and CMD's own
frames apart, nothing differs. -/
def Dev.answers (d e : Dev) (from_ : Option UdpFrom) (bs : List Byte) : Prop :=
  ∃ free wide out frames, e = { d with
      free := free
      wide := wide
      out := out
      cmd := { d.cmd with
        owed := []
        frames := frames } } ∧ out.replies = d.out.replies ++ [(2, from_, bs)] ∧
    ∀ off, off ≠ R.macCnt 12 2 → off ≠ R.macCnt 12 3 → e.w64 off = d.w64 off

/-- The device with the reply of a command put out. -/
def Dev.putReply (d : Dev) (from_ : Option UdpFrom) (bs : List Byte) : Dev :=
  { d with out := { d.out with replies := d.out.replies ++ [(2, from_, bs)] } }

/-- CMD's frames wait for the port, are lost, or are sent. -/
theorem Dev.replyFlush_frames (d : Dev) : ∃ e frames, d.sends e ∧ d.replyFlush = { e with cmd := { d.cmd with frames := frames } } := by
  unfold Dev.replyFlush
  split
  · exact ⟨d, d.cmd.frames, d.sends_refl, rfl⟩
  · extract_lets c1 d1
    split
    · obtain ⟨wide, eth, he, hw⟩ := d1.sends_each_ethSend d.cmd.frames
      refine ⟨{ d with wide := wide, out := { d.out with eth := eth } }, [], ⟨wide, eth, rfl, fun off h2 h3 => ?_⟩, he⟩
      exact (congrArg (fun g => g.w64 off) he).symm.trans (hw off h2 h3)
    · exact ⟨d, [], d.sends_refl, rfl⟩

/-- The device with a frame of a reply drawn up for the management port. -/
def Dev.queueFrame (d : Dev) (u : UdpFrom) (bs : List Byte) : Dev :=
  { d with
    free := d.free + 1
    cmd := { d.cmd with frames := d.cmd.frames ++ [d.replyFrame u (Config.free d.free) bs] } }

theorem Dev.replyUdp_eq (d : Dev) (u : UdpFrom) (bs : List Byte) : d.replyUdp u bs = (d.queueFrame u bs).replyFlush := rfl

/-- A reply that leaves by UDP, the list of the answers owed emptied. -/
theorem Dev.answers_replySend (d : Dev) (from_ : Option UdpFrom) (bs : List Byte) : d.answers
    ((match from_ with
      | some u => (d.putReply from_ bs).replyUdp u bs
      | none => d.putReply from_ bs).onCmd (fun c => { c with owed := [] })) from_ bs := by
  cases from_ with
  | none => exact ⟨d.free, d.wide, (d.putReply none bs).out, d.cmd.frames, rfl, rfl, fun _ _ _ => rfl⟩
  | some u =>
    obtain ⟨e, frames, ⟨wide, eth, rfl, hw⟩, hflush⟩ := ((d.putReply (some u) bs).queueFrame u bs).replyFlush_frames
    dsimp only
    rw [Dev.replyUdp_eq, hflush]
    exact ⟨d.free + 1, wide, { (d.putReply (some u) bs).out with eth := eth }, frames, rfl, rfl, hw⟩

/-- What is owed is the reply of one command: its answer sends it. -/
theorem answer_udp {s : Sys} {c : CmdIn} {from_ : Option UdpFrom} (ho : s.dev.cmd.owed = [{ num := c.num, src := 2, from_ := from_, reply := none }])
    (bs : List Byte) : ∃ e, s.answer c bs = { s with dev := e } ∧ s.dev.answers e from_ bs := by
  let d1 := s.dev.onCmd (fun x => { x with
    owed := x.owed.map (fun a => if a.num == c.num then { a with reply := some bs } else a) })
  have ho1 : d1.cmd.owed = [{ num := c.num, src := 2, from_ := from_, reply := some bs }] := by
    show s.dev.cmd.owed.map _ = _
    rw [ho, List.map_singleton]
    simp
  obtain ⟨free, wide, out, frames, he, hout, hw⟩ := d1.answers_replySend from_ bs
  refine ⟨_, ?_, free, wide, out, frames, he, hout, hw⟩
  have hflush : s.answer c bs = ({ s with dev := d1 } : Sys).flush := rfl
  rw [hflush, Sys.flush, show ({ s with dev := d1 } : Sys).dev.cmd.owed = _ from ho1]
  cases from_ <;> rfl

end Sys2Proof.Machine

/-!
PROOFS. Commands that are accepted (R333, R336): steps 1 to 7 passed, the command executes under its class; the commands of the pair (R302).
-/
namespace Sys2Proof.Machine

/-! ## Acknowledgement and refusal -/

/-- The command as CMD has taken it. -/
def udpInput (f : CmdFrame) (op : Nat) (pay : List Byte) (num key : Nat) : CmdIn :=
  { src := 2, bytes := frameOf f op pay, from_ := f.from_, num := num, key := key }

/-- The registers, the agenda, the pair, the loader and the rest of the device stay when a reply leaves. -/
theorem Dev.answers.same {d e : Dev} {from_ : Option UdpFrom} {bs : List Byte} (h : d.answers e from_ bs) :
    d.sameRegs e ∧ e.agenda = d.agenda ∧ e.pair = d.pair ∧ e.ldr = d.ldr ∧ e.eng = d.eng ∧ e.evt = d.evt ∧ e.tick = d.tick ∧
      e.cmd.slots = d.cmd.slots ∧ e.cmd.fuse = d.cmd.fuse ∧ e.cmd.imm = d.cmd.imm := by
  obtain ⟨free, wide, out, frames, rfl, -, -⟩ := h
  exact ⟨⟨rfl, rfl, rfl⟩, rfl, rfl, rfl, rfl, rfl, rfl, rfl, rfl, rfl⟩

theorem Dev.answers.w64_eq {d e : Dev} {from_ : Option UdpFrom} {bs : List Byte} (h : d.answers e from_ bs) {off : Nat} (hoff : off / 0x10000 ≠ 12) :
    e.w64 off = d.w64 off := by
  obtain ⟨free, wide, out, frames, he, -, hw⟩ := h
  have h2 : off ≠ R.macCnt 12 2 := by rintro rfl; exact hoff rfl
  have h3 : off ≠ R.macCnt 12 3 := by rintro rfl; exact hoff rfl
  exact hw off h2 h3

theorem Dev.answers.replies {d e : Dev} {from_ : Option UdpFrom} {bs : List Byte} (h : d.answers e from_ bs) :
    e.out.replies = d.out.replies ++ [(2, from_, bs)] := by
  obtain ⟨free, wide, out, frames, rfl, hout, -⟩ := h
  exact hout

/-- The state at a device from which the reply of a command leaves has replied. -/
theorem State.replied_of_answers {z : State} {f : CmdFrame} {d x e : Dev} {bs pay : List Byte} {tick status detail : Nat} {key : Option Nat}
    (h : d.answers e f.from_ (x.replyTo bs tick status detail pay key)) (hout : d.out.replies = z.sys.dev.out.replies) (hs : status < 256)
    (s : Sys) : z.replied (z.put { s with dev := e }) f tick status := by
  refine ⟨_, h.replies.trans (by rw [hout]), x.replyTo_magic .., x.replyTo_tick .., ?_⟩
  rw [x.replyTo_status, Nat.mod_eq_of_lt hs]

section
variable {s : Sys} {c : CmdIn} {from_ : Option UdpFrom} (ho : s.dev.cmd.owed = [{ num := c.num, src := 2, from_ := from_, reply := none }])
include ho

/-- An acknowledged command: counted, and its reply sent. -/
theorem cmdAck_udp (tick : Nat) (pay : List Byte) (key : Option Nat) : ∃ e, s.cmdAck c tick pay key = { s with dev := e } ∧
    (s.dev.bump (R.cmdCnt 0) 1).answers e from_ ((s.dev.bump (R.cmdCnt 0) 1).replyTo c.bytes tick 0 0 pay key) :=
  answer_udp (s := { s with dev := s.dev.bump (R.cmdCnt 0) 1 }) ho _

/-- A refusal by its condition, step 8 or 9 of R333: counted, logged, and its reply sent. -/
theorem cmdRefuse_udp (q : Refused) (key : Option Nat) (hq : q.1 ≠ rsBadframe) (hq' : q.1 ≠ rsTag) (hq'' : q.1 ≠ rsCounter) :
    let d1 := (s.dev.bump (R.cmdCnt 1) 1).raise Blk.cmd Src.cmdRefused (cmdOp c.bytes) q.1 q.2
    ∃ e, s.cmdRefuse c q key = { s with dev := e } ∧ d1.answers e from_ (d1.replyTo c.bytes d1.tick q.1 q.2 [] key) := by
  intro d1
  have ho1 : ({ s with dev := d1 } : Sys).dev.cmd.owed = [{ num := c.num, src := 2, from_ := from_, reply := none }] := by
    show d1.cmd.owed = _
    rw [show d1.cmd = s.dev.cmd from Dev.raise_cmd ..]
    exact ho
  obtain ⟨e, he, hans⟩ := answer_udp ho1 (d1.replyTo c.bytes d1.tick q.1 q.2 [] key)
  refine ⟨e, ?_, hans⟩
  rw [Sys.cmdRefuse, if_neg hq, if_neg hq', if_neg hq'']
  exact he

end

/-! ## Steps 1 to 7 -/

theorem taken_eq {d : Dev} (h : d.cmdIdle) (f : CmdFrame) :
    (d.taking f.c).onCmd (fun x => { x with
      taken := d.cmd.taken + 1
      owed := x.owed ++ [{ num := d.cmd.taken, src := 2, from_ := f.from_, reply := none }] }) = d.taken f := by
  obtain ⟨-, -, -, -, -, -, -, howed, -⟩ := h
  have howed' : (d.taking f.c).cmd.owed = [] := howed
  simp only [Dev.onCmd, howed', List.nil_append]
  rfl

/-- The system at which an accepted command executes. -/
def State.countedSys (z : State) (f : CmdFrame) : Sys := { z.sys with dev := z.sys.dev.counted f }

/-- What is owed there. -/
theorem State.countedSys_owed (z : State) (f : CmdFrame) (op : Nat) (pay : List Byte) (key : Nat) :
    (z.countedSys f).dev.cmd.owed = [{ num := (udpInput f op pay z.sys.dev.cmd.taken key).num, src := 2, from_ := f.from_, reply := none }] := rfl

/-- A command whose key is found and that passes steps 1 to 7 goes on to its class. -/
theorem cmdRow_taken {z : State} {f : CmdFrame} {op key : Nat} {pay : List Byte} (hidle : z.sys.dev.cmdIdle) (hfits : fits f pay)
    (hnonce : z.sys.dev.nonceOk = true) (hkey : ({ z.sys with dev := z.sys.dev.taken f } : Sys).cmdKey (frameOf f op pay) = .ok key)
    (hctr : ¬(f.ctr ≤ z.sys.dev.w64 (R.cmdSeen f.slot) ∨
      (((opClass op).isNone ∨ opClass op = some 1) ∧ f.ctr ≤ z.sys.dev.w64 (R.tickSlotcnt f.slot))))
    (hform : (z.sys.dev.counted f).cmdForm (frameOf f op pay) = .ok ()) (hop : op < 65536) (h1 : op ≠ 1)
    (hrole : opClass op = some 1 ∨ opClass op = some 2 → z.sys.dev.role = .active) :
    z.sys.cmdRow f op pay =
      if opClass op = some 1 then (z.countedSys f).cmdData (udpInput f op pay z.sys.dev.cmd.taken key)
      else (z.countedSys f).cmdNow (udpInput f op pay z.sys.dev.cmd.taken key) := by
  have hok := frameOk_frameOf hfits op
  have hcop : cmdOp (frameOf f op pay) = op := cmdOp_frameOf f pay hop
  have hcslot := cmdSlot_frameOf hfits op
  have hcctr := cmdCtr_frameOf hfits op
  have hsrc : f.src = 2 := hfits.1
  have hrow : z.sys.cmdRow f op pay = ({ z.sys with dev := z.sys.dev.taking f.c } : Sys).cmdTake
      { src := 2, bytes := frameOf f op pay, from_ := f.from_ } := by
    rw [Sys.cmdRow, hsrc]
    exact cmdArrive_idle hidle f.c _ _
  have htaken := taken_eq hidle f
  have hnonce' : (z.sys.dev.taken f).nonceOk = true := hnonce
  have hctr' : ¬(f.ctr ≤ (z.sys.dev.taken f).w64 (R.cmdSeen f.slot) ∨
      (((opClass op).isNone ∨ opClass op = some 1) ∧ f.ctr ≤ (z.sys.dev.taken f).w64 (R.tickSlotcnt f.slot))) := hctr
  have hrole' : ¬((opClass op = some 1 ∨ opClass op = some 2) ∧ (z.sys.dev.counted f).role ≠ .active) := fun hc => hc.2 (hrole hc.1)
  rw [hrow, Sys.cmdTake]
  simp only [Sys.onDev, hok, hcop, hcslot, hcctr]
  rw [show ({ z.sys with dev := z.sys.dev.taking f.c } : Sys).dev.cmd.taken = z.sys.dev.cmd.taken from rfl]
  rw [htaken]
  simp only [hnonce', hkey, Bool.not_true, Bool.false_eq_true, if_false, if_neg h1, if_neg hctr']
  rw [show ((z.sys.dev.taken f).setW (R.cmdSeen f.slot) f.ctr) = z.sys.dev.counted f from rfl]
  simp only [hform, if_neg hrole']
  rfl

/-- An accepted command goes on to its class. -/
theorem cmdRow_accepted {z : State} {f : CmdFrame} {op : Nat} {pay : List Byte} (h : z.accepts f op pay) (hop : op < 65536) (h1 : op ≠ 1)
    (h60 : op ≠ 0x60) (hrole : opClass op = some 1 ∨ opClass op = some 2 → z.sys.dev.role = .active) :
    ∃ key, z.sys.cmdRow f op pay =
      if opClass op = some 1 then (z.countedSys f).cmdData (udpInput f op pay z.sys.dev.cmd.taken key)
      else (z.countedSys f).cmdNow (udpInput f op pay z.sys.dev.cmd.taken key) := by
  obtain ⟨hidle, hfits, hnonce, ⟨k, hk, htag⟩, hseen, hslot, hform⟩ := h
  have hcop : cmdOp (frameOf f op pay) = op := cmdOp_frameOf f pay hop
  have hcslot := cmdSlot_frameOf hfits op
  have hkey : ({ z.sys with dev := z.sys.dev.taken f } : Sys).cmdKey (frameOf f op pay) = .ok k.key := by
    have hk' : (z.sys.dev.taken f).keySlot f.slot = some k := hk
    have htag' : (z.sys.dev.taken f).tagOk k.key (frameOf f op pay) = true := htag
    simp only [Sys.cmdKey, hcop, if_neg h60, hcslot, hk', htag', if_true]
  exact ⟨k.key, cmdRow_taken hidle hfits hnonce hkey (by omega) hform hop h1 hrole⟩

/-! ## A command that executes at once -/

section
variable {z : State} {f : CmdFrame} {op : Nat} {pay : List Byte} {r : Res}

/-- A command that executes at once and succeeds ends in its effect, counted, with its reply sent. -/
theorem exec_now_of_row {key : Nat} (hrst : z.sys.dev.inReset = false) (hr : r = z.runRow (fun s => s.cmdRow f op pay))
    (hrow : z.sys.cmdRow f op pay = (z.countedSys f).cmdNow (udpInput f op pay z.sys.dev.cmd.taken key)) {s : Sys} {pl : List Byte}
    (hnow : (z.countedSys f).execNow (frameOf f op pay) = .ok (s, pl)) (hos : s.dev.cmd.owed = (z.countedSys f).dev.cmd.owed) :
    ∃ e key, r = .next (z.put { s with dev := e }) ∧
      (s.dev.bump (R.cmdCnt 0) 1).answers e f.from_ ((s.dev.bump (R.cmdCnt 0) 1).replyTo (frameOf f op pay) s.dev.tick 0 0 pl key) := by
  obtain ⟨e, he, hans⟩ := cmdAck_udp (c := udpInput f op pay z.sys.dev.cmd.taken key) (hos.trans (z.countedSys_owed f op pay key)) s.dev.tick pl
    (some key)
  refine ⟨e, some key, ?_, hans⟩
  have hrun : z.sys.cmdRow f op pay = { s with dev := e } := by
    rw [hrow, Sys.cmdNow]
    show (match (z.countedSys f).execNow (frameOf f op pay) with
      | .error q => _
      | .ok r => _) = _
    rw [hnow]
    exact he
  rw [hr, State.runRow, State.act]
  simp only [hrst, Bool.false_eq_true, if_false, hrun]
  rfl

/-- An accepted command of class UNIT, HOLDER or PAIR that succeeds. -/
theorem exec_now_ok (h : z.accepts f op pay) (hr : r = z.runRow (fun s => s.cmdRow f op pay)) (hop : op < 65536) (h1 : op ≠ 1) (h60 : op ≠ 0x60)
    (hcls : opClass op ≠ some 1) (hrole : opClass op = some 2 → z.sys.dev.role = .active) {s : Sys} {pl : List Byte}
    (hnow : (z.countedSys f).execNow (frameOf f op pay) = .ok (s, pl))
    (hos : s.dev.cmd.owed = (z.countedSys f).dev.cmd.owed) :
    ∃ e key, r = .next (z.put { s with dev := e }) ∧
      (s.dev.bump (R.cmdCnt 0) 1).answers e f.from_ ((s.dev.bump (R.cmdCnt 0) 1).replyTo (frameOf f op pay) s.dev.tick 0 0 pl key) := by
  obtain ⟨key, hrow⟩ := cmdRow_accepted h hop h1 h60 (fun hc => hrole (hc.resolve_left hcls))
  rw [if_neg hcls] at hrow
  exact exec_now_of_row h.1.1 hr hrow hnow hos

/-- An accepted command of class UNIT, HOLDER or PAIR that its conditions refuse is counted, logged and answered, and changes nothing else. -/
theorem exec_now_error (h : z.accepts f op pay) (hr : r = z.runRow (fun s => s.cmdRow f op pay)) (hop : op < 65536) (h1 : op ≠ 1) (h60 : op ≠ 0x60)
    (hcls : opClass op ≠ some 1) (hrole : opClass op = some 2 → z.sys.dev.role = .active) {detail : Nat}
    (hnow : (z.countedSys f).execNow (frameOf f op pay) = .error (rsState, detail)) :
    let d1 := ((z.sys.dev.counted f).bump (R.cmdCnt 1) 1).raise Blk.cmd Src.cmdRefused op rsState detail
    ∃ e key, r = .next (z.put { z.sys with dev := e }) ∧
      d1.answers e f.from_ (d1.replyTo (frameOf f op pay) d1.tick rsState detail [] key) := by
  have hrst : z.sys.dev.inReset = false := h.1.1
  obtain ⟨key, hrow⟩ := cmdRow_accepted h hop h1 h60 (fun hc => hrole (hc.resolve_left hcls))
  rw [if_neg hcls] at hrow
  have hcop : cmdOp (udpInput f op pay z.sys.dev.cmd.taken key).bytes = op := cmdOp_frameOf f pay hop
  obtain ⟨e, he, hans⟩ := cmdRefuse_udp (c := udpInput f op pay z.sys.dev.cmd.taken key) (z.countedSys_owed f op pay key) (rsState, detail)
    (some key) (show rsState ≠ rsBadframe by decide) (show rsState ≠ rsTag by decide) (show rsState ≠ rsCounter by decide)
  rw [hcop] at hans
  refine ⟨e, some key, ?_, hans⟩
  have hrun : z.sys.cmdRow f op pay = { z.sys with dev := e } := by
    rw [hrow, Sys.cmdNow]
    show (match (z.countedSys f).execNow (frameOf f op pay) with
      | .error q => _
      | .ok r => _) = _
    rw [hnow]
    exact he
  rw [hr, State.runRow, State.act]
  simp only [hrst, Bool.false_eq_true, if_false, hrun]
  rfl

end

/-! ## The commands of the pair -/

/-- A command of the pair executes as `pairCommand`. -/
theorem execNow_pair {s : Sys} {bs : List Byte} (h : 0x70 ≤ cmdOp bs ∧ cmdOp bs ≤ 0x76) :
    s.execNow bs = (s.dev.pairCommand (cmdOp bs) (le (cmdPay bs) 0 4)).map (fun d => (({ s with dev := d } : Sys), ([] : List Byte))) := by
  obtain ⟨hlo, hhi⟩ := h
  unfold Sys.execNow
  extract_lets op p plain onD
  have hne : op ≠ 2 ∧ op ≠ 0x20 ∧ op ≠ 0x21 ∧ op ≠ 0x22 ∧ op ≠ 0x40 ∧ op ≠ 0x60 ∧ op ≠ 0x61 ∧ op ≠ 0x62 := by
    refine ⟨?_, ?_, ?_, ?_, ?_, ?_, ?_, ?_⟩ <;> omega
  obtain ⟨n1, n2, n3, n4, n5, n6, n7, n8⟩ := hne
  rw [if_neg n1, if_neg n2, if_neg n3, if_neg n4, if_neg n5, if_neg n6, if_neg n7, if_neg n8]

theorem opClass_pair {op : Nat} (h : 0x70 ≤ op ∧ op ≤ 0x76) : opClass op = some 3 := by
  obtain ⟨hlo, hhi⟩ := h
  rw [opClass, if_neg (by omega), if_neg (by omega), if_neg (by omega), if_pos ⟨hlo, hhi⟩]

/-- A command of the pair does `g` to the pair's state where its conditions hold. -/
def pairDoes (op arg : Nat) (g : Pair → Pair) : Prop :=
  ∀ d : Dev, d.pairCommand op arg = if d.pairRefusal op arg ≠ 0 then .error (rsState, d.pairRefusal op arg) else .ok (d.onPair g)

/-- What an accepted command of the pair comes to: admitted it leaves its choice with the pair and nothing else, refused it leaves the pair alone. -/
theorem pairRow {z : State} {f : CmdFrame} {op arg : Nat} {pay : List Byte} {r : Res} {g : Pair → Pair} (hr : r = z.runRow (fun s => s.cmdRow f op pay))
    (hop : 0x70 ≤ op ∧ op ≤ 0x76) (harg : le pay 0 4 = arg) (hdo : pairDoes op arg g) (h : z.accepts f op pay) :
    let no := (z.sys.dev.counted f).pairRefusal op arg
    (no = 0 → ∃ t, r = .next t ∧ z.outside t ∧ z.replied t f z.sys.dev.tick 0 ∧ t.sys.dev.pair = g z.sys.dev.pair ∧ t.sys.dev.agenda = z.sys.dev.agenda ∧
      z.sys.dev.keeps t.sys.dev []) ∧
    (no ≠ 0 → ∃ t, r = .next t ∧ z.outside t ∧ z.replied t f z.sys.dev.tick 0x0E ∧ t.sys.dev.pair = z.sys.dev.pair) := by
  intro no
  have hcop : cmdOp (frameOf f op pay) = op := cmdOp_frameOf f pay (by omega)
  have hcpay : cmdPay (frameOf f op pay) = pay := cmdPay_frameOf h.2.1 op
  have hclass := opClass_pair hop
  have hnot : opClass op ≠ some 1 ∧ opClass op ≠ some 2 := by rw [hclass]; decide
  have hnow : (z.countedSys f).execNow (frameOf f op pay) =
      ((z.sys.dev.counted f).pairCommand op arg).map (fun d => (({ z.sys with dev := d } : Sys), ([] : List Byte))) := by
    rw [execNow_pair (by rw [hcop]; exact hop), hcop, hcpay, harg]
    rfl
  rw [hdo] at hnow
  constructor
  · intro hno
    rw [if_neg (by rw [ne_eq, not_not]; exact hno)] at hnow
    obtain ⟨e, key, hnext, hans⟩ := exec_now_ok h hr (by omega) (by omega) (by omega) hnot.1 (fun hc => absurd hc hnot.2) hnow rfl
    obtain ⟨hregs, hagenda, hpair, -⟩ := hans.same
    exact ⟨_, hnext, ⟨rfl, rfl, rfl⟩, State.replied_of_answers hans rfl (by decide) z.sys, hpair, hagenda, Dev.keeps_of_regs hregs []⟩
  · intro hno
    rw [if_pos hno] at hnow
    obtain ⟨e, key, hnext, hans⟩ := exec_now_error h hr (by omega) (by omega) (by omega) hnot.1 (fun hc => absurd hc hnot.2) hnow
    obtain ⟨-, -, hpair, -⟩ := hans.same
    have htick : (((z.sys.dev.counted f).bump (R.cmdCnt 1) 1).raise Blk.cmd Src.cmdRefused op rsState no).tick = z.sys.dev.tick := Dev.raise_tick ..
    have hout : (((z.sys.dev.counted f).bump (R.cmdCnt 1) 1).raise Blk.cmd Src.cmdRefused op rsState no).out.replies = z.sys.dev.out.replies :=
      congrArg Outs.replies (Dev.raise_out ..)
    rw [htick] at hans
    exact ⟨_, hnext, ⟨rfl, rfl, rfl⟩, State.replied_of_answers hans hout (by decide) z.sys, hpair.trans (Dev.raise_pair ..)⟩

theorem le_leBytes_four {arg : Nat} (h : arg < 2 ^ 32) : le (leBytes 4 arg) 0 4 = arg := by
  rw [le_leBytes]
  exact Nat.mod_eq_of_lt h

/-- Settles O31: each pair command is one of `pairCommand`'s choices. -/
theorem pairCommandsChooseTheRole : Obligations.PairCommandsChooseTheRole := by
  intro z f row p
  refine ⟨fun arg harg => ?_, ?_, ?_, ?_, ?_, ?_, ?_⟩
  · exact pairRow (op := 0x70) (arg := arg) (pay := leBytes 4 arg) (g := fun p => { p with toRole := some (6 + arg, false) }) rfl (by decide) (le_leBytes_four (by omega)) (fun d => rfl)
  · exact pairRow (op := 0x71) (arg := 0) (pay := []) (g := fun p => { p with toRole := some (5, false) }) rfl (by decide) rfl (fun d => rfl)
  · exact pairRow (op := 0x72) (arg := 0) (pay := []) (g := fun p => { p with toRole := some (8, false) }) rfl (by decide) rfl (fun d => rfl)
  · exact pairRow (op := 0x73) (arg := 0) (pay := []) (g := fun p => { p with askRel := some 3 }) rfl (by decide) rfl (fun d => rfl)
  · exact pairRow (op := 0x74) (arg := 0) (pay := []) (g := fun p => { p with toRole := some (4, false) }) rfl (by decide) rfl (fun d => rfl)
  · exact pairRow (op := 0x75) (arg := 0) (pay := []) (g := fun p => { p with toRole := some (3, false) }) rfl (by decide) rfl (fun d => rfl)
  · exact pairRow (op := 0x76) (arg := 0) (pay := []) (g := fun p => { p with rs := { p.rs with asked := true } }) rfl (by decide) rfl (fun d => rfl)

end Sys2Proof.Machine

/-!
PROOFS. The commands of class UNIT that execute at once (R375, R340): READ, STORE_WRITE, BBX_TRIGGER.
-/
namespace Sys2Proof.Machine

/-! ## What a read of a register leaves -/

/-- From `d` to `e` nothing has left, CMD is as it was and the tick is the same. -/
def Dev.reads (d e : Dev) : Prop := e.out = d.out ∧ e.cmd = d.cmd ∧ e.tick = d.tick

theorem Dev.reads_trans {d e g : Dev} (hde : d.reads e) (heg : e.reads g) : d.reads g := by
  obtain ⟨hout, hcmd, htick⟩ := hde
  obtain ⟨hout', hcmd', htick'⟩ := heg
  exact ⟨hout'.trans hout, hcmd'.trans hcmd, htick'.trans htick⟩

theorem Dev.reads_refl (d : Dev) : d.reads d := ⟨rfl, rfl, rfl⟩
theorem Dev.reads_setLatch (d : Dev) (off v : Nat) : d.reads (d.setLatch off v) := ⟨rfl, rfl, rfl⟩
theorem Dev.reads_setFld (d : Dev) (off lo w x : Nat) : d.reads (d.setFld off lo w x) := ⟨rfl, rfl, rfl⟩
theorem Dev.reads_setReg (d : Dev) (off v : Nat) : d.reads (d.setReg off v) := ⟨rfl, rfl, rfl⟩
theorem Dev.reads_setW (d : Dev) (off v : Nat) : d.reads (d.setW off v) := ⟨rfl, rfl, rfl⟩

theorem Dev.reads_ite {d e g : Dev} {p : Prop} [Decidable p] (he : d.reads e) (hg : d.reads g) : d.reads (if p then e else g) := by
  split
  · exact he
  · exact hg

theorem Dev.reads_timeNow (d : Dev) : d.reads d.timeNow := by
  obtain ⟨τ, hτ⟩ := d.timeNow_eq
  rw [hτ]
  exact ⟨rfl, rfl, rfl⟩

theorem Dev.reads_intakeStat (d : Dev) : d.reads d.intakeStat := by
  unfold Dev.intakeStat
  extract_lets n d1
  have h1 : d.reads d1 := d.reads_setFld ..
  split
  · exact Dev.reads_trans h1 (d1.reads_setFld ..)
  · exact h1

theorem Dev.reads_restart (d : Dev) (r : RegRow) (off : Nat) : d.reads (d.restart r off) := by
  unfold Dev.restart
  split
  · exact d.reads_refl
  split
  · exact d.reads_setFld ..
  split
  · exact Dev.reads_trans d.reads_intakeStat (d.intakeStat.reads_setFld ..)
  split
  · exact d.reads_setReg ..
  · exact d.reads_setReg ..

theorem Dev.reads_tsqRead (d : Dev) (p : Nat) : d.reads (d.tsqRead p) := by
  unfold Dev.tsqRead
  split
  · exact ⟨rfl, rfl, rfl⟩
  · exact ⟨rfl, rfl, rfl⟩

theorem Dev.reads_latchMore (d : Dev) (off : Nat) : d.reads (d.latchMore off) := by
  unfold Dev.latchMore
  split
  · exact ⟨rfl, rfl, rfl⟩
  split
  · exact d.reads_setLatch ..
  · exact d.reads_refl

theorem Dev.reads_decErr (d : Dev) (a : Nat) (wr : Bool) : d.reads (d.decErr 9 a wr) :=
  ⟨Dev.raise_out .., Dev.raise_cmd .., Dev.raise_tick ..⟩

/-- A read of a register leaves memory, fuses, the outputs, CMD and the tick. -/
theorem regRead_reads (s : Sys) (off : Nat) : ∃ e, (s.regRead off).1 = { s with dev := e } ∧ s.dev.reads e := by
  unfold Sys.regRead
  extract_lets d
  split
  · exact ⟨_, rfl, d.reads_refl⟩
  split
  · exact ⟨_, rfl, d.reads_refl⟩
  split
  · split
    · exact ⟨_, rfl, Dev.reads_trans d.reads_timeNow (Dev.reads_trans (Dev.reads_setLatch ..) (Dev.reads_setLatch ..))⟩
    split
    · exact ⟨_, rfl, d.reads_tsqRead _⟩
    · exact ⟨_, rfl, d.reads_restart ..⟩
  · extract_lets low
    split
    · exact ⟨_, rfl, d.reads_refl⟩
    split
    · exact ⟨_, rfl, d.reads_refl⟩
    · have h1 := Dev.reads_trans (d.reads_setLatch (off + 4) (d.wideView off / 2 ^ 32)) (Dev.reads_latchMore _ off)
      exact ⟨_, rfl, Dev.reads_trans h1 (Dev.reads_ite (Dev.reads_setW ..) (Dev.reads_refl _))⟩

/-- A READ leaves what its single reads leave, and gives a word for each register. -/
theorem cmdRead_reads (n : Nat) (s : Sys) (off : Nat) :
    ∃ e, (s.cmdRead off n).1 = { s with dev := e } ∧ s.dev.reads e ∧ (s.cmdRead off n).2.length = 4 * n := by
  induction n generalizing s off with
  | zero => exact ⟨_, rfl, s.dev.reads_refl, rfl⟩
  | succ n ih =>
    have hone : ∃ e v, (if noBlock off then (s.onDev (fun d => d.decErr 9 (regBase + off) false), 0) else s.regRead off) = ({ s with dev := e }, v) ∧
        s.dev.reads e := by
      split
      · exact ⟨_, _, rfl, s.dev.reads_decErr ..⟩
      · obtain ⟨e, he, hreads⟩ := regRead_reads s off
        exact ⟨e, (s.regRead off).2, by rw [← he], hreads⟩
    obtain ⟨e, v, hv, hreads⟩ := hone
    obtain ⟨e', he', hreads', hlen⟩ := ih { s with dev := e } (off + 4)
    rw [Sys.cmdRead, hv]
    refine ⟨e', he', Dev.reads_trans hreads hreads', ?_⟩
    rw [List.length_append, length_leBytes, hlen]
    omega

/-! ## The commands -/

section
variable {z : State} {f : CmdFrame}

/-- The effect of an opcode below those of the pair. -/
theorem execNow_read (s : Sys) {bs : List Byte} (h : cmdOp bs = 2) : s.execNow bs = .ok (s.cmdRead (le (cmdPay bs) 0 4) (le (cmdPay bs) 4 4)) := by
  simp only [Sys.execNow, h, if_true]

theorem execNow_storeWrite (s : Sys) {bs : List Byte} (h : cmdOp bs = 0x20) :
    s.execNow bs = (s.storeWrite (le (cmdPay bs) 0 4) ((cmdPay bs).drop 4)).map (fun s => (s, ([] : List Byte))) := by
  simp [Sys.execNow, h]

theorem execNow_trigger (s : Sys) {bs : List Byte} (h : cmdOp bs = 0x40) :
    s.execNow bs = .ok (s.onDev (fun d => d.bbxTrigger 3 (le (cmdPay bs) 0 4)), []) := by
  simp [Sys.execNow, h]

theorem le_leBytes_four_append {v : Nat} (h : v < 2 ^ 32) (b : List Byte) : le (leBytes 4 v ++ b) 0 4 = v :=
  (le_leBytes_append 4 v b).trans (Nat.mod_eq_of_lt h)

theorem le_leBytes_four_second (u : Nat) {v : Nat} (h : v < 2 ^ 32) : le (leBytes 4 u ++ leBytes 4 v) 4 4 = v := by
  rw [le_append _ _ (by rw [length_leBytes]), length_leBytes]
  exact le_leBytes_four h

/-- READ. -/
theorem read_done {off n : Nat} (h : z.accepts f 0x02 (leBytes 4 off ++ leBytes 4 n)) (hoff : off < 2 ^ 32) (hn : n < 2 ^ 32) :
    ∃ t, exec (.read f off n) z = .next t ∧ z.outside t ∧ z.replied t f z.sys.dev.tick 0 ∧
      ∃ bs, t.sys.dev.out.replies = z.sys.dev.out.replies ++ [(2, f.from_, bs)] ∧ slice bs 32 (4 * n) = ((z.countedSys f).cmdRead off n).2 := by
  have hpay := cmdPay_frameOf h.2.1 0x02
  obtain ⟨e, he, ⟨hout, hcmd, htick⟩, hlen⟩ := cmdRead_reads n (z.countedSys f) off
  have hnow : (z.countedSys f).execNow (frameOf f 0x02 (leBytes 4 off ++ leBytes 4 n)) =
      .ok ({ z.countedSys f with dev := e }, ((z.countedSys f).cmdRead off n).2) := by
    rw [execNow_read _ (cmdOp_frameOf f _ (by decide)), hpay, le_leBytes_four_append hoff, le_leBytes_four_second off hn, ← he]
  obtain ⟨e', key, hnext, hans⟩ := exec_now_ok h (r := exec (.read f off n) z) rfl (by decide) (by decide) (by decide) (by decide)
    (fun hc => absurd hc (by decide)) hnow (congrArg Cmd.owed hcmd)
  have htick' : e.tick = z.sys.dev.tick := htick
  have hout' : (e.bump (R.cmdCnt 0) 1).out.replies = z.sys.dev.out.replies := congrArg Outs.replies hout
  rw [show ({ z.countedSys f with dev := e } : Sys).dev.tick = z.sys.dev.tick from htick'] at hans
  exact ⟨_, hnext, ⟨rfl, rfl, rfl⟩, State.replied_of_answers hans hout' (by decide) _, _, hans.replies.trans (by rw [hout']), Dev.replyTo_pay _ _ _ _ _ _ _ hlen⟩

/-- STORE_WRITE. -/
theorem storeWrite_done {off : Nat} {data : List Byte} (hinv : z.Inv) (h : z.accepts f 0x20 (leBytes 4 off ++ data)) (hfit : off + data.length ≤ 2 ^ 27)
    (hload : z.sys.dev.loadState ≠ 1) :
    let base := z.sys.dev.storeBase + off
    ∃ t, exec (.storeWrite f off data) z = .next t ∧ z.replied t f z.sys.dev.tick 0 ∧ t.sys.otp = z.sys.otp ∧
      t.sys.dev.w64 (R.cmdSeen f.slot) = f.ctr ∧ t.sys.mem.bytes base data.length = data ∧
      (∀ a, a < base ∨ base + data.length ≤ a → t.sys.mem.get a = z.sys.mem.get a) ∧ z.sys.dev.keeps t.sys.dev [] := by
  intro base
  have hwf : z.sys.mem.wf = true := hinv
  have hpay := cmdPay_frameOf h.2.1 0x20
  have hctr : f.ctr < 2 ^ 64 := h.2.1.2.2.1
  have hslot : f.slot < 8 := h.2.1.2.1
  have hdrop : (leBytes 4 off ++ data).drop 4 = data := List.drop_left' (length_leBytes 4 off)
  have hstore : (z.countedSys f).storeWrite off data = .ok ((z.countedSys f).onMem (fun m => m.putBytes base data)) := by
    have hload' : (z.countedSys f).dev.loadState ≠ 1 := hload
    have hsize : ¬storeSize < off + data.length := by
      rw [show storeSize = 2 ^ 27 from rfl]
      omega
    unfold Sys.storeWrite
    extract_lets d so
    rw [if_neg hsize, if_neg (fun hc => hload' hc.1)]
    rfl
  have hnow : (z.countedSys f).execNow (frameOf f 0x20 (leBytes 4 off ++ data)) = .ok ((z.countedSys f).onMem (fun m => m.putBytes base data), []) := by
    rw [execNow_storeWrite _ (cmdOp_frameOf f _ (by decide)), hpay, le_leBytes_four_append (by omega), hdrop, hstore]
    rfl
  obtain ⟨e, key, hnext, hans⟩ := exec_now_ok h (r := exec (.storeWrite f off data) z) rfl (by decide) (by decide) (by decide) (by decide)
    (fun hc => absurd hc (by decide)) hnow rfl
  obtain ⟨hregs, -⟩ := hans.same
  have hseen : e.w64 (R.cmdSeen f.slot) = f.ctr := by
    have hblk : R.cmdSeen f.slot / 0x10000 ≠ 12 := by
      simp only [R.cmdSeen]
      omega
    have hne : R.cmdSeen f.slot ≠ R.cmdCnt 0 := by
      simp only [R.cmdSeen, R.cmdCnt]
      omega
    rw [hans.w64_eq hblk]
    exact (Dev.w64_bump_ne _ _ _ _ hne).trans ((Dev.w64_setW ..).trans (Nat.mod_eq_of_lt hctr))
  refine ⟨_, hnext, State.replied_of_answers hans rfl (by decide) _, rfl, hseen, Memory.bytes_putBytes _ _ _ hwf,
    fun a ha => Memory.get_putBytes_ne _ _ _ _ ha hwf, Dev.keeps_of_regs hregs []⟩

theorem Dev.keeps_bump (d : Dev) (o n : Nat) (l : List Nat) : d.keeps (d.bump o n) l := fun _ _ => ⟨rfl, rfl⟩
theorem Dev.rf_bump (d : Dev) (o n off lo w : Nat) : (d.bump o n).rf off lo w = d.rf off lo w := rfl

/-- The black box's state as it is triggered. -/
def Dev.triggered (d : Dev) (cause : Nat) : Dev := ((d.setFld R.bbxStat 30 1 1).setFld R.bbxStat 26 3 cause).bump (R.bbxCnt 0) 1

theorem Dev.triggered_leaves (d : Dev) (cause : Nat) (hc : cause < 8) : let e := d.triggered cause
    e.rf R.bbxStat 30 1 = 1 ∧ e.rf R.bbxStat 26 3 = cause ∧ e.w64 (R.bbxCnt 0) = (d.w64 (R.bbxCnt 0) + 1) % 2 ^ 64 ∧ d.keeps e [R.bbxStat] ∧
      e.evt = d.evt ∧ e.out = d.out ∧ e.cmd = d.cmd ∧ e.tick = d.tick := by
  unfold Dev.triggered
  refine ⟨?_, ?_, ?_, ?_, ?_, ?_, ?_, ?_⟩
  · rw [Dev.rf_bump, Dev.rf_setFld_hi _ _ _ _ _ _ _ (by decide) (by decide), Dev.rf_setFld _ _ _ _ _ (by decide)]
    rfl
  · rw [Dev.rf_bump, Dev.rf_setFld _ _ _ _ _ (by decide)]
    exact Nat.mod_eq_of_lt hc
  · rw [Dev.w64_bump, Dev.w64_setFld, Dev.w64_setFld]
  · have hone := d.keeps_setFld R.bbxStat 30 1 1 (List.mem_singleton_self _)
    have htwo := (d.setFld R.bbxStat 30 1 1).keeps_setFld R.bbxStat 26 3 cause (List.mem_singleton_self _)
    exact (hone.trans htwo).trans (Dev.keeps_bump _ _ _ _)
  · rw [Dev.bump_evt, Dev.setFld_evt, Dev.setFld_evt]
  · rw [Dev.bump_out, Dev.setFld_out, Dev.setFld_out]
  · rw [Dev.bump_cmd, Dev.setFld_cmd, Dev.setFld_cmd]
  · rw [Dev.bump_tick, Dev.setFld_tick, Dev.setFld_tick]

/-- The TRIGGER record (R376). -/
def Dev.trigRec (d : Dev) (cause reason : Nat) : EvRec :=
  { seq := 0
    tick := d.tick
    cyc := d.cycle
    blk := Blk.bbx
    src := 0xFF
    sevm := 2
    epoch := d.evEpoch
    code := 4 * 256 + 8 * b2n d.testMode
    rep := 0
    d0 := cause % 2 ^ 32
    d1 := reason % 2 ^ 32
    d2 := 0 }

theorem Dev.makeRec_rf (d : Dev) (b ty sev d0 d1 d2 off lo w : Nat) : (d.makeRec b ty sev d0 d1 d2).rf off lo w = d.rf off lo w := rfl
theorem Dev.makeRec_w64 (d : Dev) (b ty sev d0 d1 d2 off : Nat) : (d.makeRec b ty sev d0 d1 d2).w64 off = d.w64 off := rfl
theorem Dev.keeps_makeRec (d : Dev) (b ty sev d0 d1 d2 : Nat) (l : List Nat) : d.keeps (d.makeRec b ty sev d0 d1 d2) l := fun _ _ => ⟨rfl, rfl⟩
theorem Dev.makeRec_out (d : Dev) (b ty sev d0 d1 d2 : Nat) : (d.makeRec b ty sev d0 d1 d2).out = d.out := rfl
theorem Dev.makeRec_cmd (d : Dev) (b ty sev d0 d1 d2 : Nat) : (d.makeRec b ty sev d0 d1 d2).cmd = d.cmd := rfl
theorem Dev.makeRec_tick (d : Dev) (b ty sev d0 d1 d2 : Nat) : (d.makeRec b ty sev d0 d1 d2).tick = d.tick := rfl
theorem Dev.makeRec_trigRec (d : Dev) (cause reason : Nat) : (d.makeRec Blk.bbx 4 2 cause reason 0).evt.made = d.evt.made ++ [d.trigRec cause reason] := rfl

/-- The black box triggered. -/
theorem Dev.bbxTrigger_leaves (d : Dev) (cause reason : Nat) (hc : cause < 8) (h : d.rf R.bbxStat 30 1 = 0) : ∃ r, let e := d.bbxTrigger cause reason
    e.rf R.bbxStat 30 1 = 1 ∧ e.rf R.bbxStat 26 3 = cause ∧ e.w64 (R.bbxCnt 0) = (d.w64 (R.bbxCnt 0) + 1) % 2 ^ 64 ∧ e.evt.made = d.evt.made ++ [r] ∧
      r.blk = Blk.bbx ∧ r.code / 256 = 4 ∧ r.d0 = cause ∧ r.d1 = reason % 2 ^ 32 ∧ d.keeps e [R.bbxStat] ∧ e.out = d.out ∧ e.cmd = d.cmd ∧ e.tick = d.tick := by
  have he : d.bbxTrigger cause reason = (d.triggered cause).makeRec Blk.bbx 4 2 cause reason 0 := by
    rw [Dev.bbxTrigger, if_neg (by omega), Dev.triggered]
  obtain ⟨htrig, hcause, hcnt, hkeep, hevt, hout, hcmd, htick⟩ := d.triggered_leaves cause hc
  generalize d.triggered cause = e1 at *
  have hcode : (4 * 256 + 8 * b2n e1.testMode) / 256 = 4 := by cases e1.testMode <;> rfl
  rw [he]
  dsimp only
  rw [Dev.makeRec_rf, Dev.makeRec_rf, Dev.makeRec_w64, Dev.makeRec_out, Dev.makeRec_cmd, Dev.makeRec_tick]
  exact ⟨e1.trigRec cause reason, htrig, hcause, hcnt, (e1.makeRec_trigRec ..).trans (by rw [hevt]), rfl, hcode, Nat.mod_eq_of_lt (by omega), rfl,
    hkeep.trans (e1.keeps_makeRec _ _ _ _ _ _ _), hout, hcmd, htick⟩

/-- BBX_TRIGGER. -/
theorem trigger_done {reason : Nat} (h : z.accepts f 0x40 (leBytes 4 reason)) (hreason : reason < 2 ^ 32) (hstat : z.sys.dev.rf R.bbxStat 30 1 = 0) :
    ∃ t r, exec (.bbxTrigger f reason) z = .next t ∧ z.outside t ∧ z.replied t f z.sys.dev.tick 0 ∧
      t.sys.dev.rf R.bbxStat 30 1 = 1 ∧ t.sys.dev.rf R.bbxStat 26 3 = 3 ∧ t.sys.dev.w64 (R.bbxCnt 0) = (z.sys.dev.w64 (R.bbxCnt 0) + 1) % 2 ^ 64 ∧
      t.sys.dev.evt.made = z.sys.dev.evt.made ++ [r] ∧ r.blk = Blk.bbx ∧ r.code / 256 = 4 ∧ r.d0 = 3 ∧ r.d1 = reason ∧
      z.sys.dev.keeps t.sys.dev [R.bbxStat] := by
  have hpay := cmdPay_frameOf h.2.1 0x40
  have hslot : f.slot < 8 := h.2.1.2.1
  obtain ⟨r, htrig, hcause, hcnt, hmade, hblk, hcode, hd0, hd1, hkeep, hout, hcmd, htick⟩ :=
    (z.sys.dev.counted f).bbxTrigger_leaves 3 reason (by decide) hstat
  let d1 := (z.sys.dev.counted f).bbxTrigger 3 reason
  have hnow : (z.countedSys f).execNow (frameOf f 0x40 (leBytes 4 reason)) = .ok ({ z.sys with dev := d1 }, []) := by
    rw [execNow_trigger _ (cmdOp_frameOf f _ (by decide)), hpay, le_leBytes_four hreason]
    rfl
  obtain ⟨e, key, hnext, hans⟩ := exec_now_ok h (r := exec (.bbxTrigger f reason) z) rfl (by decide) (by decide) (by decide) (by decide)
    (fun hc => absurd hc (by decide)) hnow (congrArg Cmd.owed hcmd)
  obtain ⟨hregs, -, -, -, -, hevt, -⟩ := hans.same
  have hout' : (d1.bump (R.cmdCnt 0) 1).out.replies = z.sys.dev.out.replies := congrArg Outs.replies hout
  rw [show ({ z.sys with dev := d1 } : Sys).dev.tick = z.sys.dev.tick from htick] at hans
  have hbbx : e.w64 (R.bbxCnt 0) = (z.sys.dev.w64 (R.bbxCnt 0) + 1) % 2 ^ 64 := by
    have hne : R.bbxCnt 0 ≠ R.cmdCnt 0 := by decide
    have hseen : R.bbxCnt 0 ≠ R.cmdSeen f.slot := by
      simp only [R.bbxCnt, R.cmdSeen]
      omega
    rw [hans.w64_eq (by decide), Dev.w64_bump_ne _ _ _ _ hne, hcnt, Dev.counted, Dev.w64_setW_ne _ _ _ _ hseen]
    rfl
  have hrf (lo w : Nat) : e.rf R.bbxStat lo w = d1.rf R.bbxStat lo w := congrArg (fun v => fld v lo w) (hregs.reg R.bbxStat)
  exact ⟨_, r, hnext, ⟨rfl, rfl, rfl⟩, State.replied_of_answers hans hout' (by decide) _, (hrf 30 1).trans htrig, (hrf 26 3).trans hcause, hbbx,
    (congrArg Evt.made hevt).trans hmade, hblk, hcode, hd0, hd1.trans (Nat.mod_eq_of_lt hreason), hkeep.trans (Dev.keeps_of_regs hregs _)⟩

end

/-- Settles O27: command by command. -/
theorem unitCommands : Obligations.UnitCommands :=
  ⟨fun _ _ _ _ h hoff hn => read_done h hoff hn, fun _ _ _ _ hinv h hfit hload => storeWrite_done hinv h hfit hload,
    fun _ _ _ h hreason hstat => trigger_done h hreason hstat⟩

end Sys2Proof.Machine

/-!
PROOFS. A frame for the operations that only keep status: registers, counters, free values, and what faults change beside them.
-/
namespace Sys2Proof.Machine

/-- From `d` to `e` only the 32-bit registers of `l`, the 64-bit registers of `w`, the free values, the fault state, EVT, the endpoint and what CVU has reported
differ. -/
def Dev.marks (d e : Dev) (l w : List Nat) : Prop :=
  (∃ regs live wide free flt evt pcie seen, e = { d with
      regs := regs
      live := live
      wide := wide
      free := free
      flt := flt
      evt := evt
      pcie := pcie
      cvuSeen := seen }) ∧ d.keeps e l ∧ ∀ off, off ∉ w → e.w64 off = d.w64 off

namespace Dev.marks

variable {l w : List Nat}

theorem refl (d : Dev) : d.marks d l w := ⟨⟨_, _, _, _, _, _, _, _, rfl⟩, d.keeps_refl l, fun _ _ => rfl⟩

theorem trans {d e g : Dev} (hde : d.marks e l w) (heg : e.marks g l w) : d.marks g l w := by
  obtain ⟨⟨regs, live, wide, free, flt, evt, pcie, seen, rfl⟩, hk, hw⟩ := hde
  obtain ⟨⟨regs', live', wide', free', flt', evt', pcie', seen', rfl⟩, hk', hw'⟩ := heg
  exact ⟨⟨regs', live', wide', free', flt', evt', pcie', seen', rfl⟩, hk.trans hk', fun off ho => (hw' off ho).trans (hw off ho)⟩

theorem mono {d e : Dev} {l' w' : List Nat} (h : d.marks e l w) (hl : l ⊆ l') (hw : w ⊆ w') : d.marks e l' w' :=
  ⟨h.1, h.2.1.mono hl, fun off ho => h.2.2 off (fun hc => ho (hw hc))⟩

theorem setReg (d : Dev) {o : Nat} (x : Nat) (ho : o ∈ l) : d.marks (d.setReg o x) l w :=
  ⟨⟨_, _, _, _, _, _, _, _, rfl⟩, d.keeps_setReg o x ho, fun _ _ => rfl⟩

theorem setBoth (d : Dev) {o : Nat} (x y : Nat) (ho : o ∈ l) : d.marks (d.setBoth o x y) l w :=
  ⟨⟨_, _, _, _, _, _, _, _, rfl⟩, d.keeps_setBoth o x y ho, fun _ _ => rfl⟩

theorem setFld (d : Dev) {o : Nat} (lo n x : Nat) (ho : o ∈ l) : d.marks (d.setFld o lo n x) l w :=
  ⟨⟨_, _, _, _, _, _, _, _, rfl⟩, d.keeps_setFld o lo n x ho, fun _ _ => rfl⟩

theorem setW (d : Dev) {o : Nat} (x : Nat) (ho : o ∈ w) : d.marks (d.setW o x) l w :=
  ⟨⟨_, _, _, _, _, _, _, _, rfl⟩, Dev.keeps_of_regs ⟨rfl, rfl, rfl⟩ l, fun _ h => d.w64_setW_ne _ _ _ (fun hc => h (hc ▸ ho))⟩

theorem bump (d : Dev) {o : Nat} (n : Nat) (ho : o ∈ w) : d.marks (d.bump o n) l w := setW d _ ho

theorem draw (d : Dev) : d.marks d.draw.1 l w := ⟨⟨_, _, _, _, _, _, _, _, rfl⟩, Dev.keeps_of_regs ⟨rfl, rfl, rfl⟩ l, fun _ _ => rfl⟩

theorem seen (d : Dev) (x : Nat) : d.marks { d with cvuSeen := x } l w :=
  ⟨⟨_, _, _, _, _, _, _, _, rfl⟩, Dev.keeps_of_regs ⟨rfl, rfl, rfl⟩ l, fun _ _ => rfl⟩

theorem raise (d : Dev) (b src d0 d1 d2 : Nat) (h1 : R.fltstat b ∈ l) (h2 : R.fltfirst b ∈ l) : d.marks (d.raise b src d0 d1 d2) l w := by
  refine ⟨?_, d.keeps_raise b src d0 d1 d2 h1 h2, fun off _ => by rw [Dev.w64, Dev.raise_wide, Dev.w64]⟩
  obtain ⟨ff, f, g, h, he⟩ := d.raise_eq b src d0 d1 d2
  exact ⟨_, _, _, _, _, _, _, d.cvuSeen, he⟩

theorem ite {d e g : Dev} {p : Prop} [Decidable p] (he : p → d.marks e l w) (hg : ¬p → d.marks g l w) : d.marks (if p then e else g) l w := by
  split
  · exact he ‹_›
  · exact hg ‹_›

theorem foldl {α : Type} (f : Dev → α → Dev) (xs : List α) (hf : ∀ x ∈ xs, ∀ d : Dev, d.marks (f d x) l w) (d : Dev) : d.marks (xs.foldl f d) l w := by
  induction xs generalizing d with
  | nil => exact refl d
  | cons x xs ih => exact (hf x List.mem_cons_self d).trans (ih (fun y hy => hf y (List.mem_cons_of_mem _ hy)) _)

theorem each {α : Type} (f : α → Dev → Dev) (xs : List α) (hf : ∀ x ∈ xs, ∀ d : Dev, d.marks (f x d) l w) (d : Dev) : d.marks (each xs f d) l w := by
  induction xs generalizing d with
  | nil => exact refl d
  | cons x xs ih => exact (hf x List.mem_cons_self d).trans (ih (fun y hy => hf y (List.mem_cons_of_mem _ hy)) _)

theorem forN (n : Nat) (f : Nat → Dev → Dev) (hf : ∀ k, k < n → ∀ d : Dev, d.marks (f k d) l w) (d : Dev) : d.marks (forN n f d) l w := by
  induction n with
  | zero => exact refl d
  | succ n ih => exact (ih (fun k hk => hf k (by omega))).trans (hf n (by omega) _)

section
variable {d e : Dev} (h : d.marks e l w)
include h

theorem keeps : d.keeps e l := h.2.1

theorem reg {o : Nat} (ho : o ∉ l) : e.reg o = d.reg o := (h.keeps o ho).1

theorem lv {o : Nat} (ho : o ∉ l) : e.lv o = d.lv o := (h.keeps o ho).2

theorem rf {o : Nat} (lo n : Nat) (ho : o ∉ l) : e.rf o lo n = d.rf o lo n := by rw [Dev.rf, h.reg ho, Dev.rf]

theorem w64 {o : Nat} (ho : o ∉ w) : e.w64 o = d.w64 o := h.2.2 o ho

theorem tick : e.tick = d.tick := by
  obtain ⟨⟨_, _, _, _, _, _, _, _, rfl⟩, -, -⟩ := h
  rfl

theorem cycle : e.cycle = d.cycle := by
  obtain ⟨⟨_, _, _, _, _, _, _, _, rfl⟩, -, -⟩ := h
  rfl

theorem cmd : e.cmd = d.cmd := by
  obtain ⟨⟨_, _, _, _, _, _, _, _, rfl⟩, -, -⟩ := h
  rfl

theorem pair : e.pair = d.pair := by
  obtain ⟨⟨_, _, _, _, _, _, _, _, rfl⟩, -, -⟩ := h
  rfl

theorem out : e.out = d.out := by
  obtain ⟨⟨_, _, _, _, _, _, _, _, rfl⟩, -, -⟩ := h
  rfl

theorem ldr : e.ldr = d.ldr := by
  obtain ⟨⟨_, _, _, _, _, _, _, _, rfl⟩, -, -⟩ := h
  rfl

theorem eng : e.eng = d.eng := by
  obtain ⟨⟨_, _, _, _, _, _, _, _, rfl⟩, -, -⟩ := h
  rfl

theorem agenda : e.agenda = d.agenda := by
  obtain ⟨⟨_, _, _, _, _, _, _, _, rfl⟩, -, -⟩ := h
  rfl

theorem pendTick : e.pendTick = d.pendTick := by
  obtain ⟨⟨_, _, _, _, _, _, _, _, rfl⟩, -, -⟩ := h
  rfl

theorem clk : e.clk = d.clk := by
  obtain ⟨⟨_, _, _, _, _, _, _, _, rfl⟩, -, -⟩ := h
  rfl

theorem mac : e.mac = d.mac := by
  obtain ⟨⟨_, _, _, _, _, _, _, _, rfl⟩, -, -⟩ := h
  rfl

theorem strm : e.strm = d.strm := by
  obtain ⟨⟨_, _, _, _, _, _, _, _, rfl⟩, -, -⟩ := h
  rfl

end

end Dev.marks

end Sys2Proof.Machine

/-!
PROOFS. The commands of the loader and of the key store (R117, R121, R343 to R346).
-/
namespace Sys2Proof.Machine

/-! ## The loader's state -/

/-- The device with another state of the loader. -/
def Dev.withLdr (d : Dev) (x : Ldr) : Dev := { d with ldr := x }

/-- The registers that hold the state of a load. -/
def loadRegs : List Nat := [R.loadStat, R.loadSrcoff, R.loadSrclen, R.loadProgress, R.loadFailinfo0, R.loadFailinfo1, R.loadFailinfo2, R.loadPendid,
  R.loadClass] ++ (List.range 8).map R.loadPendhash

theorem Dev.putHash_marks (d : Dev) (h : Nat) : d.marks (d.putHash R.loadPendhash h) ((List.range 8).map R.loadPendhash) [] :=
  Dev.marks.foldl _ _ (fun _ hi e => Dev.marks.setReg e _ (List.mem_map_of_mem hi)) d

/-- A load begins (R117). -/
theorem Dev.loadBegin_leaves (d : Dev) (off len : Nat) (peer : Bool) (hoff : off < 2 ^ 27) (hlen : len < 2 ^ 25) : ∃ x e, let g := d.loadBegin off len peer
    g = (e.withLdr { d.ldr with job := some x, pend := none }).bump R.loadLoadcnt 1 ∧ d.marks e loadRegs [] ∧ g.loadState = 1 ∧ g.reg R.loadSrcoff = off ∧
      g.reg R.loadSrclen = len := by
  let p := peer && !(!storeFits off len)
  let e1 := d.setReg R.loadStat (1 + 16 * (if p then 1 else 2))
  let e2 := (e1.setReg R.loadSrcoff (off % 2 ^ 27)).setReg R.loadSrclen (len % 2 ^ 25)
  let e := (((e2.setReg R.loadProgress 0).setReg R.loadFailinfo0 0).setReg R.loadFailinfo1 0).setReg R.loadFailinfo2 0
  have h1 : d.marks e1 loadRegs [] := Dev.marks.setReg d _ (by decide)
  have h2 : e1.marks e2 loadRegs [] := (Dev.marks.setReg e1 _ (by decide)).trans (Dev.marks.setReg _ _ (by decide))
  have h3 : e2.marks e loadRegs [] := (((Dev.marks.setReg e2 _ (by decide)).trans (Dev.marks.setReg _ _ (by decide))).trans
    (Dev.marks.setReg _ _ (by decide))).trans (Dev.marks.setReg _ _ (by decide))
  have hrest : e2.marks e [R.loadProgress, R.loadFailinfo0, R.loadFailinfo1, R.loadFailinfo2] [] :=
    (((Dev.marks.setReg e2 _ (by decide)).trans (Dev.marks.setReg _ _ (by decide))).trans (Dev.marks.setReg _ _ (by decide))).trans
      (Dev.marks.setReg _ _ (by decide))
  have hstat : e.loadState = 1 := by
    have hfld : fld (1 + 16 * (if p then 1 else 2)) 0 3 = 1 := by split <;> rfl
    rw [Dev.loadState, hrest.rf _ _ (by decide), Dev.rf_setReg_ne _ _ _ _ _ (by decide), Dev.rf_setReg_ne _ _ _ _ _ (by decide),
      Dev.rf_setReg_same _ _ _ _ _ (by decide), hfld]
  have hsrc : e.reg R.loadSrcoff = off := by
    rw [hrest.reg (by decide), Dev.reg_setReg_ne _ _ _ _ (by decide), Dev.reg_setReg]
    omega
  have hsrclen : e.reg R.loadSrclen = len := by
    rw [hrest.reg (by decide), Dev.reg_setReg]
    omega
  exact ⟨_, e, rfl, (h1.trans h2).trans h3, hstat, hsrc, hsrclen⟩

/-- The pending sheaf is gone (R121). -/
theorem Dev.loadEmpty_leaves (d : Dev) : ∃ e, d.loadEmpty = e.withLdr { d.ldr with pend := none, job := none } ∧ d.marks e loadRegs [] ∧
    e.loadState = 0 ∧ e.reg R.loadPendid = 0 := by
  let e1 := (d.setReg R.loadStat 0).setReg R.loadPendid 0
  let e2 := e1.setFld R.loadClass 2 2 0
  let e := e2.putHash R.loadPendhash 0
  have h1 : d.marks e1 loadRegs [] := (Dev.marks.setReg d _ (by decide)).trans (Dev.marks.setReg _ _ (by decide))
  have h2 : e1.marks e2 loadRegs [] := Dev.marks.setFld e1 _ _ _ (by decide)
  have hhash := e2.putHash_marks 0
  have h3 : e2.marks e loadRegs [] := hhash.mono (by decide) (by decide)
  have hstat : e.loadState = 0 := by
    rw [Dev.loadState, hhash.rf _ _ (by decide), Dev.rf_setFld_ne _ _ _ _ _ _ _ (by decide), Dev.rf_setReg_ne _ _ _ _ _ (by decide),
      Dev.rf_setReg_same _ _ _ _ _ (by decide)]
    rfl
  have hid : e.reg R.loadPendid = 0 := by
    rw [hhash.reg (by decide), Dev.reg_setFld_ne _ _ _ _ _ _ (by decide), Dev.reg_setReg]
    rfl
  have hldr : e.ldr = d.ldr := ((h1.trans h2).trans h3).ldr
  have heq : d.loadEmpty = e.withLdr { e.ldr with pend := none, job := none } := rfl
  exact ⟨e, heq.trans (by rw [hldr]), (h1.trans h2).trans h3, hstat, hid⟩

/-- A load ended by ABORT (R121). -/
theorem Dev.loadRefuse_aborted (d : Dev) : let g := d.loadRefuse { reason := 0x12, i0 := 1 }
    g.cmd = d.cmd ∧ g.out = d.out ∧ g.tick = d.tick ∧ g.loadState = 4 ∧ g.rf R.loadStat 8 8 = 0x12 ∧ g.ldr.job = none := by
  let e1 := d.setReg R.loadStat (4 + 256 * 0x12)
  let e2 := ((e1.setReg R.loadFailinfo0 1).setReg R.loadFailinfo1 0).setReg R.loadFailinfo2 0
  let e3 := e2.withLdr { e2.ldr with job := none, pend := none }
  let g := (e3.bump R.loadRefusecnt 1).raise Blk.load Src.loadLoadRefused 0x12 1 0
  have hg : d.loadRefuse { reason := 0x12, i0 := 1 } = g := rfl
  have h2 : e1.marks e2 [R.loadFailinfo0, R.loadFailinfo1, R.loadFailinfo2] [] :=
    ((Dev.marks.setReg e1 _ (by decide)).trans (Dev.marks.setReg _ _ (by decide))).trans (Dev.marks.setReg _ _ (by decide))
  have h3 : e3.marks g [R.fltstat Blk.load, R.fltfirst Blk.load] [R.loadRefusecnt] :=
    (Dev.marks.bump e3 1 (by decide)).trans (Dev.marks.raise _ _ _ _ _ _ (by decide) (by decide))
  have hstat (lo n : Nat) (hn : lo + n ≤ 32) : g.rf R.loadStat lo n = fld (4 + 256 * 0x12) lo n := by
    have he : e3.rf R.loadStat lo n = e2.rf R.loadStat lo n := rfl
    rw [h3.rf _ _ (by decide), he, h2.rf _ _ (by decide), Dev.rf_setReg_same _ _ _ _ _ hn]
  have hjob : g.ldr.job = none := congrArg Ldr.job h3.ldr
  intro g'
  rw [show g' = g from hg]
  exact ⟨h3.cmd.trans h2.cmd, h3.out.trans h2.out, h3.tick.trans h2.tick, hstat 0 3 (by decide), hstat 8 8 (by decide), hjob⟩

/-! ## LOAD and ABORT -/

theorem execNow_load (s : Sys) {bs : List Byte} (h : cmdOp bs = 0x21) :
    s.execNow bs = (s.dev.cmdLoad (le (cmdPay bs) 0 4) (le (cmdPay bs) 4 4)).map (fun d => (({ s with dev := d } : Sys), ([] : List Byte))) := by
  simp [Sys.execNow, h]

theorem execNow_abort (s : Sys) {bs : List Byte} (h : cmdOp bs = 0x22) :
    s.execNow bs = s.dev.cmdAbort.map (fun d => (({ s with dev := d } : Sys), ([] : List Byte))) := by
  simp [Sys.execNow, h]

section
variable {z : State} {f : CmdFrame} (hphase : z.sys.dev.phase = 0)
include hphase

/-- No resynchronisation forbids a command. -/
theorem counted_resyncForbids (frozen : Bool) : (z.sys.dev.counted f).resyncForbids frozen = false := by
  have hphase' : (z.sys.dev.counted f).phase = 0 := hphase
  rw [Dev.resyncForbids, hphase']
  simp

variable (hrole : z.sys.dev.role = .active)
include hrole

/-- LOAD. -/
theorem load_done {off len : Nat} (h : z.accepts f 0x21 (leBytes 4 off ++ leBytes 4 len)) (hoff : off < 2 ^ 27) (hlen : len < 2 ^ 25)
    (hload : z.sys.dev.loadState = 0 ∨ z.sys.dev.loadState = 4) :
    ∃ t, exec (.load f off len) z = .next t ∧ z.outside t ∧ z.replied t f z.sys.dev.tick 0 ∧ t.sys.dev.loadState = 1 ∧
      t.sys.dev.reg R.loadSrcoff = off ∧ t.sys.dev.reg R.loadSrclen = len ∧ t.sys.dev.ldr.pend = none ∧ t.sys.dev.ldr.act = z.sys.dev.ldr.act ∧
      t.sys.dev.w64 R.loadLoadcnt = (z.sys.dev.w64 R.loadLoadcnt + 1) % 2 ^ 64 := by
  have hpay := cmdPay_frameOf h.2.1 0x21
  have hslot : f.slot < 8 := h.2.1.2.1
  let d := z.sys.dev.counted f
  obtain ⟨x, e, hg, hmarks, hstat, hsrc, hsrclen⟩ := d.loadBegin_leaves off len d.hasShadow hoff hlen
  let g := d.loadBegin off len d.hasShadow
  have hcmd : d.cmdLoad off len = .ok g := by
    have hload' : d.loadState = 0 ∨ d.loadState = 4 := hload
    rw [Dev.cmdLoad, counted_resyncForbids hphase, if_neg Bool.false_ne_true, if_pos hload']
  have hnow : (z.countedSys f).execNow (frameOf f 0x21 (leBytes 4 off ++ leBytes 4 len)) = .ok ({ z.sys with dev := g }, []) := by
    rw [execNow_load _ (cmdOp_frameOf f _ (by decide)), hpay, le_leBytes_four_append (by omega), le_leBytes_four_second off (by omega)]
    rw [show (z.countedSys f).dev.cmdLoad off len = .ok g from hcmd]
    rfl
  have hcmdg : g.cmd = d.cmd := (congrArg Dev.cmd hg).trans hmarks.cmd
  have htick : g.tick = z.sys.dev.tick := (congrArg Dev.tick hg).trans hmarks.tick
  have hout : g.out = z.sys.dev.out := (congrArg Dev.out hg).trans hmarks.out
  have hldr : g.ldr = { d.ldr with job := some x, pend := none } := congrArg Dev.ldr hg
  have hcnt : g.w64 R.loadLoadcnt = (z.sys.dev.w64 R.loadLoadcnt + 1) % 2 ^ 64 := by
    have hseen : R.loadLoadcnt ≠ R.cmdSeen f.slot := by
      simp only [R.loadLoadcnt, R.cmdSeen]
      omega
    have he : e.w64 R.loadLoadcnt = z.sys.dev.w64 R.loadLoadcnt :=
      (hmarks.w64 List.not_mem_nil).trans (Dev.w64_setW_ne _ _ _ _ hseen)
    have hw : g.w64 R.loadLoadcnt = (e.w64 R.loadLoadcnt + 1) % 2 ^ 64 :=
      (congrArg (fun y => y.w64 R.loadLoadcnt) hg).trans (Dev.w64_bump (e.withLdr _) R.loadLoadcnt 1)
    rw [hw, he]
  have hstat' : g.loadState = 1 := hstat
  have hsrc' : g.reg R.loadSrcoff = off := hsrc
  have hsrclen' : g.reg R.loadSrclen = len := hsrclen
  clear_value g
  obtain ⟨e', key, hnext, hans⟩ := exec_now_ok h (r := exec (.load f off len) z) rfl (by decide) (by decide) (by decide) (by decide)
    (fun _ => hrole) hnow (congrArg Cmd.owed hcmdg)
  obtain ⟨hregs, -, -, hldr', -⟩ := hans.same
  rw [show ({ z.sys with dev := g } : Sys).dev.tick = z.sys.dev.tick from htick] at hans
  have hout' : (g.bump (R.cmdCnt 0) 1).out.replies = z.sys.dev.out.replies := congrArg Outs.replies hout
  have hldr'' : e'.ldr = { d.ldr with job := some x, pend := none } := hldr'.trans hldr
  have hpend : e'.ldr.pend = none := congrArg Ldr.pend hldr''
  have hact : e'.ldr.act = z.sys.dev.ldr.act := (congrArg Ldr.act hldr'' :)
  refine ⟨_, hnext, ⟨rfl, rfl, rfl⟩, State.replied_of_answers hans hout' (by decide) _, ?_, (hregs.reg _).trans hsrc', (hregs.reg _).trans hsrclen',
    hpend, hact, ?_⟩
  · exact (congrArg (fun v => fld v 0 3) (hregs.reg R.loadStat)).trans hstat'
  · exact (hans.w64_eq (by decide)).trans ((Dev.w64_bump_ne _ _ _ _ (by decide)).trans hcnt)

/-- ABORT with a sheaf that is ready. -/
theorem abort_ready (h : z.accepts f 0x22 []) (hload : z.sys.dev.loadState = 2) :
    ∃ t, exec (.abort f) z = .next t ∧ z.outside t ∧ z.replied t f z.sys.dev.tick 0 ∧ t.sys.dev.loadState = 0 ∧ t.sys.dev.ldr.pend = none ∧
      t.sys.dev.reg R.loadPendid = 0 ∧ t.sys.dev.ldr.act = z.sys.dev.ldr.act := by
  let d := z.sys.dev.counted f
  obtain ⟨e, hg, hmarks, hstat, hid⟩ := d.loadEmpty_leaves
  have hcmd : d.cmdAbort = .ok d.loadEmpty := by
    have hload' : d.loadState = 2 := hload
    rw [Dev.cmdAbort, counted_resyncForbids hphase, if_neg Bool.false_ne_true, Dev.loadAbort, hload']
    rfl
  have hnow : (z.countedSys f).execNow (frameOf f 0x22 []) = .ok ({ z.sys with dev := e.withLdr { d.ldr with pend := none, job := none } }, []) := by
    rw [execNow_abort _ (cmdOp_frameOf f _ (by decide)), show (z.countedSys f).dev.cmdAbort = .ok d.loadEmpty from hcmd, hg]
    rfl
  obtain ⟨e', key, hnext, hans⟩ := exec_now_ok h (r := exec (.abort f) z) rfl (by decide) (by decide) (by decide) (by decide)
    (fun _ => hrole) hnow (congrArg Cmd.owed hmarks.cmd)
  obtain ⟨hregs, -, -, hldr, -⟩ := hans.same
  have htick : (e.withLdr { d.ldr with pend := none, job := none }).tick = z.sys.dev.tick := hmarks.tick
  have hout : ((e.withLdr { d.ldr with pend := none, job := none }).bump (R.cmdCnt 0) 1).out.replies = z.sys.dev.out.replies :=
    congrArg Outs.replies hmarks.out
  have hact : e'.ldr.act = z.sys.dev.ldr.act := (congrArg Ldr.act hldr :)
  dsimp only at hans
  rw [htick] at hans
  exact ⟨_, hnext, ⟨rfl, rfl, rfl⟩, State.replied_of_answers hans hout (by decide) _,
    (congrArg (fun v => fld v 0 3) (hregs.reg R.loadStat)).trans hstat, congrArg Ldr.pend hldr, (hregs.reg _).trans hid, hact⟩

/-- ABORT of a load in progress. -/
theorem abort_loading (h : z.accepts f 0x22 []) (hload : z.sys.dev.loadState = 1) :
    ∃ t, exec (.abort f) z = .next t ∧ z.outside t ∧ z.replied t f z.sys.dev.tick 0 ∧ t.sys.dev.loadState = 4 ∧ t.sys.dev.rf R.loadStat 8 8 = 0x12 ∧
      t.sys.dev.ldr.job = none := by
  let d := z.sys.dev.counted f
  let g := d.loadRefuse { reason := 0x12, i0 := 1 }
  obtain ⟨hcmdg, hout, htick, hstat, hreason, hjob⟩ : g.cmd = d.cmd ∧ g.out = d.out ∧ g.tick = d.tick ∧ g.loadState = 4 ∧ g.rf R.loadStat 8 8 = 0x12 ∧
    g.ldr.job = none := d.loadRefuse_aborted
  have hcmd : d.cmdAbort = .ok g := by
    have hload' : d.loadState = 1 := hload
    rw [Dev.cmdAbort, counted_resyncForbids hphase, if_neg Bool.false_ne_true, Dev.loadAbort, hload']
    rfl
  have hnow : (z.countedSys f).execNow (frameOf f 0x22 []) = .ok ({ z.sys with dev := g }, []) := by
    rw [execNow_abort _ (cmdOp_frameOf f _ (by decide)), show (z.countedSys f).dev.cmdAbort = .ok g from hcmd]
    rfl
  clear_value g
  obtain ⟨e', key, hnext, hans⟩ := exec_now_ok h (r := exec (.abort f) z) rfl (by decide) (by decide) (by decide) (by decide)
    (fun _ => hrole) hnow (congrArg Cmd.owed hcmdg)
  obtain ⟨hregs, -, -, hldr, -⟩ := hans.same
  have htick' : ({ z.sys with dev := g } : Sys).dev.tick = z.sys.dev.tick := htick
  have hout' : (g.bump (R.cmdCnt 0) 1).out.replies = z.sys.dev.out.replies := congrArg Outs.replies hout
  rw [htick'] at hans
  have hrf (lo n : Nat) : e'.rf R.loadStat lo n = g.rf R.loadStat lo n := congrArg (fun v => fld v lo n) (hregs.reg R.loadStat)
  exact ⟨_, hnext, ⟨rfl, rfl, rfl⟩, State.replied_of_answers hans hout' (by decide) _, (hrf 0 3).trans hstat, (hrf 8 8).trans hreason,
    (congrArg Ldr.job hldr).trans hjob⟩

end

/-- Settles O29: LOAD, then the two cases of ABORT. -/
theorem loaderCommands : Obligations.LoaderCommands :=
  ⟨fun _ _ _ _ h hoff hlen hrole hphase hload => load_done hphase hrole h hoff hlen hload, fun _ _ h hrole hphase hload => abort_ready hphase hrole h hload,
    fun _ _ h hrole hphase hload => abort_loading hphase hrole h hload⟩

end Sys2Proof.Machine

/-!
PROOFS. The commands of the key store (R343 to R346): KEY_LOAD, KEY_RETIRE, SIGN_REVOKE.
-/
namespace Sys2Proof.Machine

/-! ## The slots -/

theorem getElem?_updAt {α : Type} (l : List α) (i j : Nat) (f : α → α) : (updAt l i f)[j]? = if j = i then (l[j]?).map f else l[j]? := by
  induction l generalizing i j with
  | nil => simp [updAt]
  | cons x t ih =>
    cases i with
    | zero => cases j <;> simp [updAt]
    | succ i =>
      cases j with
      | zero => simp [updAt]
      | succ j => simp [updAt, ih]

theorem Dev.keySlot_setSlot (d : Dev) {k : Nat} (x : Option KeySlot) (h : k < d.cmd.slots.length) : (d.setSlot k x).keySlot k = x := by
  have hslots : (d.setSlot k x).cmd.slots = updAt d.cmd.slots k (fun _ => x) := rfl
  rw [Dev.keySlot, hslots, getElem?_updAt, if_pos rfl, List.getElem?_eq_getElem h]
  rfl

theorem Dev.keySlot_setSlot_ne (d : Dev) {j k : Nat} (x : Option KeySlot) (h : j ≠ k) : (d.setSlot k x).keySlot j = d.keySlot j := by
  have hslots : (d.setSlot k x).cmd.slots = updAt d.cmd.slots k (fun _ => x) := rfl
  rw [Dev.keySlot, hslots, getElem?_updAt, if_neg h, Dev.keySlot]

theorem Dev.keySlot_congr {d e : Dev} (h : e.cmd.slots = d.cmd.slots) (k : Nat) : e.keySlot k = d.keySlot k := by rw [Dev.keySlot, h, Dev.keySlot]

/-- SLOTSTAT shows what a slot holds (R345). -/
theorem Dev.slotstat_setSlot (d : Dev) (k : Nat) (y : KeySlot) (hp : y.priv < 256) (hg : y.gen < 16) :
    (d.setSlot k (some y)).reg (R.keySlotstat k) = 2 ^ 31 + 256 * y.gen + y.priv := by
  have hreg : (d.setSlot k (some y)).reg (R.keySlotstat k) = (2 ^ 31 + 256 * (y.gen % 16) + y.priv % 256) % 2 ^ 32 := d.reg_setReg _ _
  rw [hreg]
  omega

theorem Dev.slotstat_setSlot_none (d : Dev) (k : Nat) : (d.setSlot k none).reg (R.keySlotstat k) = 0 := (d.reg_setReg _ _).trans rfl

/-- A fault of KEY leaves the slots' registers. -/
theorem Dev.slotstat_raise (d : Dev) {k : Nat} (hk : k < 8) (src d0 d1 d2 : Nat) :
    (d.raise Blk.key src d0 d1 d2).reg (R.keySlotstat k) = d.reg (R.keySlotstat k) := by
  have hstat : R.fltstat Blk.key = 0x60000 + fltOff Blk.key := rfl
  have hfirst : R.fltfirst Blk.key = 0x60000 + fltOff Blk.key + 4 := rfl
  have hoff : 32 ≤ fltOff Blk.key := by decide
  apply Dev.reg_raise_ne
  · rw [hstat, R.keySlotstat]
    omega
  · rw [hfirst, R.keySlotstat]
    omega

/-! ## The commands -/

section
variable {z : State} {f : CmdFrame}

theorem execNow_keyLoad (s : Sys) {bs : List Byte} (h : cmdOp bs = 0x60) : s.execNow bs = .ok (s.keyLoad bs, []) := by
  simp [Sys.execNow, h]

theorem execNow_keyRetire (s : Sys) {bs : List Byte} (h : cmdOp bs = 0x61) :
    s.execNow bs = (s.keyRetire (le (cmdPay bs) 0 1) (le (cmdPay bs) 1 1 == 1)).map (fun s => (s, ([] : List Byte))) := by
  simp [Sys.execNow, h]

theorem execNow_signRevoke (s : Sys) {bs : List Byte} (h : cmdOp bs = 0x62) :
    s.execNow bs = (s.signRevoke (le (cmdPay bs) 0 1) (le (cmdPay bs) 1 1) (slice (cmdPay bs) 4 8)).map (fun s => (s, ([] : List Byte))) := by
  simp [Sys.execNow, h]

/-- KEY_LOAD with 32 bytes and no target is well formed, whatever the slot holds. -/
theorem cmdForm_keyLoad (d : Dev) {blob : List Byte} (hfits : fits f blob) (hlen : blob.length = 32) (htgt : f.tgt = 0) :
    d.cmdForm (frameOf f 0x60 blob) = .ok () := by
  have hop : cmdOp (frameOf f 0x60 blob) = 0x60 := cmdOp_frameOf f blob (by decide)
  have htgt' : cmdTgt (frameOf f 0x60 blob) = 0 := (cmdTgt_frameOf hfits 0x60).trans htgt
  have hpay := cmdPay_frameOf hfits 0x60
  simp [Dev.cmdForm, hop, htgt', hpay, hlen, opClass, opPriv, opSize, payloadCheck]

/-- The device with a key put in a slot, and its event. -/
def Dev.keyLoaded (d : Dev) (k : Nat) (b : KeyBlob) : Dev :=
  (d.setSlot k (some { key := b.key, priv := b.priv, gen := b.gen })).raise Blk.key Src.keyKeyLoaded k b.gen b.priv

/-- KEY_LOAD. -/
theorem keyLoad_done {blob : List Byte} {b : KeyBlob} (hidle : z.sys.dev.cmdIdle) (hfits : fits f blob) (hnonce : z.sys.dev.nonceOk = true)
    (hlen : blob.length = 32) (htgt : f.tgt = 0) (hslots : z.sys.dev.cmd.slots.length = 8)
    (hcheck : ({ z.sys with dev := z.sys.dev.taken f } : Sys).keyLoadCheck (frameOf f 0x60 blob) = .ok b)
    (hctr : z.sys.dev.w64 (R.cmdSeen f.slot) < f.ctr) (hpriv : b.priv < 256) (hgen : b.gen < 16) :
    ∃ t, exec (.keyLoad f blob) z = .next t ∧ z.outside t ∧ z.replied t f z.sys.dev.tick 0 ∧
      t.sys.dev.keySlot f.slot = some { key := b.key, priv := b.priv, gen := b.gen } ∧
      t.sys.dev.reg (R.keySlotstat f.slot) = 2 ^ 31 + 256 * b.gen + b.priv ∧
      (∀ k, k ≠ f.slot → t.sys.dev.keySlot k = z.sys.dev.keySlot k) ∧ t.sys.dev.w64 (R.cmdSeen f.slot) = f.ctr := by
  have hslot : f.slot < 8 := hfits.2.1
  have hctr64 : f.ctr < 2 ^ 64 := hfits.2.2.1
  have hop : cmdOp (frameOf f 0x60 blob) = 0x60 := cmdOp_frameOf f blob (by decide)
  have hkey : ({ z.sys with dev := z.sys.dev.taken f } : Sys).cmdKey (frameOf f 0x60 blob) = .ok b.key := by
    rw [Sys.cmdKey, if_pos hop, hcheck]
  have hcls : opClass 0x60 = some 0 := rfl
  have hrow := cmdRow_taken hidle hfits hnonce hkey (by simp [hcls, hctr]) (cmdForm_keyLoad _ hfits hlen htgt) (by decide) (by decide)
    (fun hc => absurd hc (by decide))
  rw [if_neg (by decide)] at hrow
  let d := z.sys.dev.counted f
  have hcheck' : (z.countedSys f).keyLoadCheck (frameOf f 0x60 blob) = .ok b := hcheck
  have hnow : (z.countedSys f).execNow (frameOf f 0x60 blob) = .ok ({ z.sys with dev := d.keyLoaded f.slot b }, []) := by
    rw [execNow_keyLoad _ hop, Sys.keyLoad, hcheck', cmdSlot_frameOf hfits]
    rfl
  have hcmd : (d.keyLoaded f.slot b).cmd = (d.setSlot f.slot (some { key := b.key, priv := b.priv, gen := b.gen })).cmd := Dev.raise_cmd ..
  have hstat : (d.keyLoaded f.slot b).reg (R.keySlotstat f.slot) = 2 ^ 31 + 256 * b.gen + b.priv :=
    (Dev.slotstat_raise _ hslot _ _ _ _).trans (Dev.slotstat_setSlot _ _ _ hpriv hgen)
  have hseen : (d.keyLoaded f.slot b).w64 (R.cmdSeen f.slot) = f.ctr := by
    have hraise : (d.keyLoaded f.slot b).w64 (R.cmdSeen f.slot) = d.w64 (R.cmdSeen f.slot) := by
      rw [Dev.keyLoaded, Dev.w64, Dev.raise_wide]
      rfl
    rw [hraise]
    exact (Dev.w64_setW ..).trans (Nat.mod_eq_of_lt hctr64)
  have htick : (d.keyLoaded f.slot b).tick = z.sys.dev.tick := Dev.raise_tick ..
  have hout : (d.keyLoaded f.slot b).out = z.sys.dev.out := Dev.raise_out ..
  generalize d.keyLoaded f.slot b = g at hnow hcmd hstat hseen htick hout
  obtain ⟨e, key, hnext, hans⟩ := exec_now_of_row (r := exec (.keyLoad f blob) z) hidle.1 rfl hrow hnow (congrArg Cmd.owed hcmd :)
  obtain ⟨hregs, -, -, -, -, -, -, hslots', -⟩ := hans.same
  have hseen' : e.w64 (R.cmdSeen f.slot) = f.ctr := by
    have hblk : R.cmdSeen f.slot / 0x10000 ≠ 12 := by
      simp only [R.cmdSeen]
      omega
    have hne : R.cmdSeen f.slot ≠ R.cmdCnt 0 := by
      simp only [R.cmdSeen, R.cmdCnt]
      omega
    rw [hans.w64_eq hblk]
    exact (Dev.w64_bump_ne _ _ _ _ hne).trans hseen
  rw [show ({ z.sys with dev := g } : Sys).dev.tick = z.sys.dev.tick from htick] at hans
  have hout' : (g.bump (R.cmdCnt 0) 1).out.replies = z.sys.dev.out.replies := congrArg Outs.replies hout
  have hkeys (k : Nat) : e.keySlot k = (d.setSlot f.slot (some { key := b.key, priv := b.priv, gen := b.gen })).keySlot k :=
    Dev.keySlot_congr (hslots'.trans (congrArg Cmd.slots hcmd)) k
  have hlen8 : f.slot < d.cmd.slots.length := by
    rw [show d.cmd.slots = z.sys.dev.cmd.slots from rfl, hslots]
    exact hslot
  exact ⟨_, hnext, ⟨rfl, rfl, rfl⟩, State.replied_of_answers hans hout' (by decide) _, (hkeys _).trans (Dev.keySlot_setSlot _ _ hlen8),
    (hregs.reg _).trans hstat, fun k hk => (hkeys k).trans (Dev.keySlot_setSlot_ne _ _ hk), hseen'⟩

/-- The fields of KEY_RETIRE's payload. -/
theorem keyRetire_pay {k p : Nat} (hk : k < 256) (hp : p < 256) : le (leBytes 1 k ++ leBytes 1 p ++ leBytes 2 0) 0 1 = k ∧
    le (leBytes 1 k ++ leBytes 1 p ++ leBytes 2 0) 1 1 = p := by
  rw [List.append_assoc]
  refine ⟨(le_leBytes_append ..).trans (Nat.mod_eq_of_lt hk), ?_⟩
  rw [le_append _ _ (by rw [length_leBytes]), length_leBytes]
  exact (le_leBytes_append ..).trans (Nat.mod_eq_of_lt hp)

/-- The device with a slot emptied for good, its event, and the fuse operation. -/
def Dev.keyRetired (d : Dev) (k gen : Nat) : Dev :=
  ((d.setSlot k none).raise Blk.key Src.keyKeyRetired k 1 gen).onCmd (fun c => { c with fuse := c.fuse || true })

/-- KEY_RETIRE of a filled slot, for good. -/
theorem keyRetire_done {k : Nat} {y : KeySlot} (h : z.accepts f 0x61 (leBytes 1 k ++ leBytes 1 1 ++ leBytes 2 0)) (hk : k < 8)
    (hslots : z.sys.dev.cmd.slots.length = 8) (hfloors : z.sys.otp.floors.length = 8) (hy : z.sys.dev.keySlot k = some y)
    (hfloor : z.sys.otp.floors.getD k 0 ≤ y.gen) (hgen : y.gen < 15) :
    ∃ t, exec (.keyRetire f k 1) z = .next t ∧ t.sys.mem = z.sys.mem ∧ t.pending = z.pending ∧ z.replied t f z.sys.dev.tick 0 ∧
      t.sys.dev.keySlot k = none ∧ t.sys.dev.reg (R.keySlotstat k) = 0 ∧ t.sys.otp.floors.getD k 0 = y.gen + 1 ∧ t.sys.dev.cmd.fuse = true ∧
      (∀ j, j ≠ k → t.sys.dev.keySlot j = z.sys.dev.keySlot j ∧ t.sys.otp.floors.getD j 0 = z.sys.otp.floors.getD j 0) ∧
      t.sys.otp = { z.sys.otp with floors := t.sys.otp.floors } := by
  let d := z.sys.dev.counted f
  let o : Otp := { z.sys.otp with floors := updAt z.sys.otp.floors k (fun _ => y.gen + 1) }
  obtain ⟨hpk, hpp⟩ := keyRetire_pay (k := k) (p := 1) (by omega) (by decide)
  have hretire : (z.countedSys f).keyRetire k true = .ok { z.sys with dev := d.keyRetired k (y.gen + 1), otp := o } := by
    have hy' : (z.countedSys f).dev.keySlot k = some y := hy
    have hfl : (z.countedSys f).otp.floors.getD k 0 = z.sys.otp.floors.getD k 0 := rfl
    simp only [Sys.keyRetire, hy', hfl, if_true]
    rw [Nat.max_eq_right (show z.sys.otp.floors.getD k 0 ≤ y.gen + 1 by omega), if_neg (by omega)]
    rfl
  have hnow : (z.countedSys f).execNow (frameOf f 0x61 (leBytes 1 k ++ leBytes 1 1 ++ leBytes 2 0)) =
      .ok ({ z.sys with dev := d.keyRetired k (y.gen + 1), otp := o }, []) := by
    rw [execNow_keyRetire _ (cmdOp_frameOf f _ (by decide)), cmdPay_frameOf h.2.1, hpk, hpp, show ((1 : Nat) == 1) = true from rfl, hretire]
    rfl
  have hraise : ((d.setSlot k none).raise Blk.key Src.keyKeyRetired k 1 (y.gen + 1)).cmd = (d.setSlot k none).cmd := Dev.raise_cmd ..
  have hcmd : (d.keyRetired k (y.gen + 1)).cmd = { (d.setSlot k none).cmd with fuse := (d.setSlot k none).cmd.fuse || true } :=
    congrArg (fun c : Cmd => { c with fuse := c.fuse || true }) hraise
  have hstat : (d.keyRetired k (y.gen + 1)).reg (R.keySlotstat k) = 0 :=
    (Dev.slotstat_raise _ hk _ _ _ _).trans (Dev.slotstat_setSlot_none _ _)
  have htick : (d.keyRetired k (y.gen + 1)).tick = z.sys.dev.tick := Dev.raise_tick ..
  have hout : (d.keyRetired k (y.gen + 1)).out = z.sys.dev.out := Dev.raise_out ..
  generalize d.keyRetired k (y.gen + 1) = g at hnow hcmd hstat htick hout
  obtain ⟨e, key, hnext, hans⟩ := exec_now_ok h (r := exec (.keyRetire f k 1) z) rfl (by decide) (by decide) (by decide) (by decide)
    (fun hc => absurd hc (by decide)) hnow (congrArg Cmd.owed hcmd :)
  obtain ⟨hregs, -, -, -, -, -, -, hslots', hfuse, -⟩ := hans.same
  rw [show ({ z.sys with dev := g, otp := o } : Sys).dev.tick = z.sys.dev.tick from htick] at hans
  have hout' : (g.bump (R.cmdCnt 0) 1).out.replies = z.sys.dev.out.replies := congrArg Outs.replies hout
  have hkeys (j : Nat) : e.keySlot j = (d.setSlot k none).keySlot j := Dev.keySlot_congr (hslots'.trans (congrArg Cmd.slots hcmd :)) j
  have hlen8 : k < d.cmd.slots.length := by
    rw [show d.cmd.slots = z.sys.dev.cmd.slots from rfl, hslots]
    exact hk
  have hburn : o.floors.getD k 0 = y.gen + 1 := by
    show (updAt z.sys.otp.floors k (fun _ => y.gen + 1)).getD k 0 = _
    rw [getD_updAt, if_pos ⟨rfl, by omega⟩]
  have hstay (j : Nat) (hj : j ≠ k) : o.floors.getD j 0 = z.sys.otp.floors.getD j 0 := by
    show (updAt z.sys.otp.floors k (fun _ => y.gen + 1)).getD j 0 = _
    rw [getD_updAt, if_neg (fun hc => hj hc.1.symm)]
  exact ⟨_, hnext, rfl, rfl, State.replied_of_answers hans hout' (by decide) _, (hkeys k).trans (Dev.keySlot_setSlot _ _ hlen8), (hregs.reg _).trans hstat,
    hburn, hfuse.trans ((congrArg Cmd.fuse hcmd).trans (Bool.or_true _)), fun j hj => ⟨(hkeys j).trans (Dev.keySlot_setSlot_ne _ _ hj), hstay j hj⟩, rfl⟩

/-- The device after a revocation: its event, and a pending sheaf of that signer gone. -/
def Dev.signRevoked (d : Dev) (i : Nat) : Dev :=
  let d1 := d.raise Blk.key Src.keySignRevoked 0 i 0
  match d1.ldr.pend with
  | some sh => if d1.loadState = 2 ∧ sh.signer = i then d1.loadEmpty else d1
  | none => d1

theorem Dev.signRevoked_leaves (d : Dev) (i : Nat) : (d.signRevoked i).cmd = d.cmd ∧ (d.signRevoked i).tick = d.tick ∧ (d.signRevoked i).out = d.out := by
  have hraise : (d.raise Blk.key Src.keySignRevoked 0 i 0).cmd = d.cmd ∧ (d.raise Blk.key Src.keySignRevoked 0 i 0).tick = d.tick ∧
      (d.raise Blk.key Src.keySignRevoked 0 i 0).out = d.out := ⟨Dev.raise_cmd .., Dev.raise_tick .., Dev.raise_out ..⟩
  unfold Dev.signRevoked
  extract_lets d1
  obtain ⟨hcmd, htick, hout⟩ : d1.cmd = d.cmd ∧ d1.tick = d.tick ∧ d1.out = d.out := hraise
  split
  · split
    · obtain ⟨e, he, hmarks, -⟩ := d1.loadEmpty_leaves
      rw [he]
      exact ⟨hmarks.cmd.trans hcmd, hmarks.tick.trans htick, hmarks.out.trans hout⟩
    · exact ⟨hcmd, htick, hout⟩
  · exact ⟨hcmd, htick, hout⟩

/-- SIGN_REVOKE of a signing key. -/
theorem signRevoke_done {idx other : Nat} (h : z.accepts f 0x62 (leBytes 1 0 ++ leBytes 1 idx ++ leBytes 2 0 ++ (beBytes 32 (z.sys.otp.shash.getD idx 0)).take 8))
    (hidx : idx < 4) (hother : other < 4) (hne : other ≠ idx) (hv : bit z.sys.otp.svalid idx = true) (hr : bit z.sys.otp.srev idx = false)
    (hv' : bit z.sys.otp.svalid other = true) (hr' : bit z.sys.otp.srev other = false) :
    ∃ t, exec (.signRevoke f 0 idx ((beBytes 32 (z.sys.otp.shash.getD idx 0)).take 8)) z = .next t ∧ t.sys.mem = z.sys.mem ∧ t.pending = z.pending ∧
      z.replied t f z.sys.dev.tick 0 ∧ t.sys.otp = { z.sys.otp with srev := bitSet z.sys.otp.srev idx true } ∧ t.sys.dev.cmd.fuse = true := by
  let first := (beBytes 32 (z.sys.otp.shash.getD idx 0)).take 8
  let d := z.sys.dev.counted f
  let g := (d.signRevoked idx).onCmd (fun c => { c with fuse := true })
  let o : Otp := { z.sys.otp with srev := bitSet z.sys.otp.srev idx true }
  have hfirst : first.length = 8 := by
    rw [List.length_take, length_beBytes]
    rfl
  obtain ⟨hp0, hp1⟩ := keyRetire_pay (k := 0) (p := idx) (by decide) (by omega)
  have hpay0 : le (leBytes 1 0 ++ leBytes 1 idx ++ leBytes 2 0 ++ first) 0 1 = 0 := by
    simp only [List.append_assoc, le_leBytes_append]
    rfl
  have hpay1 : le (leBytes 1 0 ++ leBytes 1 idx ++ leBytes 2 0 ++ first) 1 1 = idx := by
    rw [List.append_assoc, List.append_assoc, le_append _ _ (by rw [length_leBytes]), length_leBytes, le_leBytes_append]
    omega
  have hpay4 : slice (leBytes 1 0 ++ leBytes 1 idx ++ leBytes 2 0 ++ first) 4 8 = first := by
    rw [slice_append _ _ (by simp), show 4 - (leBytes 1 0 ++ leBytes 1 idx ++ leBytes 2 0).length = 0 by simp, slice_self _ hfirst]
  have hany : (List.range 4).any (fun j => j != idx && bit z.sys.otp.svalid j && !bit z.sys.otp.srev j) = true := by
    rw [List.any_eq_true]
    refine ⟨other, List.mem_range.mpr hother, ?_⟩
    simp [hne, hv', hr']
  have hrevoke : (z.countedSys f).signRevoke 0 idx first = .ok { z.sys with dev := g, otp := o } := by
    have ho : (z.countedSys f).otp = z.sys.otp := rfl
    simp only [Sys.signRevoke, ho, if_true, hv, hr, hany, first, decide_true, Bool.and_true, Bool.not_true, Bool.false_eq_true, if_false, true_and]
    rfl
  have hnow : (z.countedSys f).execNow (frameOf f 0x62 (leBytes 1 0 ++ leBytes 1 idx ++ leBytes 2 0 ++ first)) = .ok ({ z.sys with dev := g, otp := o }, []) := by
    rw [execNow_signRevoke _ (cmdOp_frameOf f _ (by decide)), cmdPay_frameOf h.2.1, hpay0, hpay1, hpay4, hrevoke]
    rfl
  obtain ⟨hcmd, htick, hout⟩ := d.signRevoked_leaves idx
  have howed' : (d.signRevoked idx).cmd.owed = d.cmd.owed := congrArg Cmd.owed hcmd
  have howed : g.cmd.owed = (z.countedSys f).dev.cmd.owed := howed'
  have htick' : g.tick = z.sys.dev.tick := htick
  have hout' : (g.bump (R.cmdCnt 0) 1).out.replies = z.sys.dev.out.replies := congrArg Outs.replies hout
  have hfuse : g.cmd.fuse = true := rfl
  clear_value g
  obtain ⟨e, key, hnext, hans⟩ := exec_now_ok h (r := exec (.signRevoke f 0 idx first) z) rfl (by decide) (by decide) (by decide) (by decide)
    (fun hc => absurd hc (by decide)) hnow howed
  obtain ⟨-, -, -, -, -, -, -, -, hfuse', -⟩ := hans.same
  rw [show ({ z.sys with dev := g, otp := o } : Sys).dev.tick = z.sys.dev.tick from htick'] at hans
  exact ⟨_, hnext, rfl, rfl, State.replied_of_answers hans hout' (by decide) _, rfl, hfuse'.trans hfuse⟩

end

/-- Settles O28: command by command. -/
theorem keyCommands : Obligations.KeyCommands :=
  ⟨fun _ _ _ _ hidle hfits hnonce hlen htgt hslots hcheck hctr hpriv hgen => keyLoad_done hidle hfits hnonce hlen htgt hslots hcheck hctr hpriv hgen,
    fun _ _ _ _ h hk hslots hfloors hy hfloor hgen => keyRetire_done h hk hslots hfloors hy hfloor hgen,
    fun _ _ _ _ h hidx hother hne hv hr hv' hr' => signRevoke_done h hidx hother hne hv hr hv' hr'⟩

end Sys2Proof.Machine

/-!
PROOFS. Commands of class DATA of a standalone unit (R21 to R24, R330, R336): placed on the agenda, or held for their boundary.
-/
namespace Sys2Proof.Machine

/-! ## The check and the place -/

/-- A command that no condition refuses leaves the device to its placing. -/
theorem Dev.dataCheck_none (d : Dev) (a : AgAct) (imm : Bool) (t last : Nat) (h : (d.dataCheck a imm t last).2 = none) :
    d.dataCheck a imm t last = (d, none) := by
  revert h
  unfold Dev.dataCheck
  extract_lets sw ce r
  split
  · exact fun h => nomatch h
  split
  · exact fun h => nomatch h
  split
  · exact fun h => nomatch h
  split
  · exact fun h => nomatch h
  split
  · exact fun h => nomatch h
  split
  · exact fun h => nomatch h
  split
  · exact fun h => nomatch h
  split
  · exact fun h => nomatch h
  split
  · exact fun h => nomatch h
  split
  · split
    · exact fun h => nomatch h
    · exact fun _ => rfl
  · exact fun _ => rfl

/-- The device with one more entry on its agenda. -/
def Dev.agended (d : Dev) (e : AgEntry) : Dev := { d with agenda := d.agenda ++ [e] }

/-- An entry is placed: the high-water mark of the agenda and, for a swap, the loader's state follow it (R121). -/
theorem Dev.place_marks (d : Dev) (e : AgEntry) : (d.agended e).marks (d.place e) [R.tickAgenda, R.loadStat] [R.loadSwaptgt] := by
  unfold Dev.place
  extract_lets d1
  have h1 : (d.agended e).marks d1 [R.tickAgenda, R.loadStat] [R.loadSwaptgt] := by
    show (d.agended e).marks (d.agended e).agendaHigh _ _
    exact Dev.marks.ite (fun _ => Dev.marks.setFld _ _ _ _ (by decide)) (fun _ => Dev.marks.refl _)
  refine h1.trans (Dev.marks.ite (fun _ => ?_) (fun _ => Dev.marks.refl _))
  exact (Dev.marks.setFld _ _ _ _ (by decide)).trans (Dev.marks.setW _ _ (by decide))

/-- A swap on the agenda has armed the loader. -/
theorem Dev.place_swap (d : Dev) (e : AgEntry) (h : e.act = .swap) : (d.place e).loadState = 3 ∧ (d.place e).w64 R.loadSwaptgt = e.tgt % 2 ^ 64 := by
  unfold Dev.place
  extract_lets d1
  rw [if_pos h]
  exact ⟨d1.rf_setFld R.loadStat 0 3 3 (by decide), Dev.w64_setW ..⟩

/-- A command acknowledged is recorded for its slot (R23). -/
theorem Dev.slotRecord_newer (d : Dev) {slot ctr : Nat} (tgt : Nat) (h : d.w64 (R.tickSlotcnt slot) < ctr) :
    d.slotRecord slot ctr tgt = (d.setW (R.tickSlotcnt slot) ctr).setW (R.tickSlottgt slot) tgt := if_pos h

/-! ## Rows of class DATA -/

section
variable {z : State} {f : CmdFrame} {op : Nat} {pay : List Byte} {r : Res}

/-- With its device alone no command is mirrored. -/
theorem counted_alone (h : z.sys.dev.paired = false) : (z.sys.dev.counted f).hasShadow = false ∧ (z.sys.dev.counted f).mirrors = false := by
  have hp : (z.sys.dev.counted f).paired = false := h
  rw [Dev.mirrors, Dev.hasShadow, hp]
  exact ⟨rfl, rfl⟩

/-- The target that a command gives. -/
theorem cmdData_placed {key : Nat} (hfits : fits f pay) (hop : op < 65536) (hp : z.sys.dev.paired = false) (h0 : f.tgt ≠ 0) (has : f.tgt ≠ 0xFFFFFFFFFFFF)
    (hcheck : ((z.sys.dev.counted f).dataCheck (actOf op pay) false f.tgt ((z.sys.dev.counted f).lastTarget f.slot)).2 = none) :
    (z.countedSys f).cmdData (udpInput f op pay z.sys.dev.cmd.taken key) =
      ({ z.sys with dev := ((z.sys.dev.counted f).place { tgt := f.tgt, slot := f.slot, ctr := f.ctr, act := actOf op pay }).slotRecord f.slot f.ctr f.tgt } :
        Sys).cmdAck (udpInput f op pay z.sys.dev.cmd.taken key) f.tgt [] (some key) := by
  obtain ⟨hshadow, hmirrors⟩ := counted_alone (f := f) hp
  have hnone := Dev.dataCheck_none _ _ _ _ _ hcheck
  have hbytes : (udpInput f op pay z.sys.dev.cmd.taken key).bytes = frameOf f op pay := rfl
  have htgt := cmdTgt_frameOf hfits op
  have h0' : (f.tgt == 0) = false := beq_eq_false_iff_ne.mpr h0
  have has' : (f.tgt == asap) = false := beq_eq_false_iff_ne.mpr has
  have hdev : (z.countedSys f).dev = z.sys.dev.counted f := rfl
  unfold Sys.cmdData
  simp only [hbytes, cmdOp_frameOf f pay hop, cmdPay_frameOf hfits, cmdSlot_frameOf hfits, cmdCtr_frameOf hfits, htgt, h0', has', hdev, Bool.or_self,
    Bool.false_eq_true, if_false, hnone, hshadow, hmirrors]
  rfl

/-- An accepted DATA command with a target goes on the agenda. -/
theorem placed_done {a : AgAct} (hr : r = z.runRow (fun s => s.cmdRow f op pay)) (hop : op < 65536) (h1 : op ≠ 1) (h60 : op ≠ 0x60)
    (hcls : opClass op = some 1) (hact : actOf op pay = a) (hp : z.sys.dev.paired = false) (hrole : z.sys.dev.role = .active) (h0 : f.tgt ≠ 0)
    (has : f.tgt ≠ 0xFFFFFFFFFFFF) (h : z.accepts f op pay)
    (hcheck : ((z.sys.dev.counted f).dataCheck a false f.tgt ((z.sys.dev.counted f).lastTarget f.slot)).2 = none) :
    ∃ t, r = .next t ∧ z.outside t ∧ z.replied t f f.tgt 0 ∧
      t.sys.dev.agenda = z.sys.dev.agenda ++ [{ tgt := f.tgt, slot := f.slot, ctr := f.ctr, act := a }] ∧
      t.sys.dev.w64 (R.tickSlotcnt f.slot) = f.ctr ∧ t.sys.dev.w64 (R.tickSlottgt f.slot) = f.tgt ∧ t.sys.dev.pendTick = z.sys.dev.pendTick ∧
      t.sys.dev.eng = z.sys.dev.eng ∧ z.sys.dev.keeps t.sys.dev [R.tickAgenda, R.loadStat] ∧
      (a = .swap → t.sys.dev.loadState = 3 ∧ t.sys.dev.w64 R.loadSwaptgt = f.tgt) := by
  subst hact
  have hrst : z.sys.dev.inReset = false := h.1.1
  have hfits := h.2.1
  obtain ⟨-, -, -, -, -, hctr, -⟩ := id h
  obtain ⟨-, hslot, hctr64, htgt48, -⟩ := id hfits
  obtain ⟨key, hrow⟩ := cmdRow_accepted h hop h1 h60 (fun _ => hrole)
  rw [if_pos hcls, cmdData_placed hfits hop hp h0 has hcheck] at hrow
  let en : AgEntry := { tgt := f.tgt, slot := f.slot, ctr := f.ctr, act := actOf op pay }
  let d := z.sys.dev.counted f
  have hmarks := d.place_marks en
  have hswap := d.place_swap en
  have hcnt : (d.place en).w64 (R.tickSlotcnt f.slot) < f.ctr := by
    have hne : R.tickSlotcnt f.slot ∉ [R.loadSwaptgt] := by
      simp only [List.mem_singleton, R.tickSlotcnt, R.loadSwaptgt]
      omega
    have hne' : R.tickSlotcnt f.slot ≠ R.cmdSeen f.slot := by
      simp only [R.tickSlotcnt, R.cmdSeen]
      omega
    rw [hmarks.w64 hne]
    exact lt_of_eq_of_lt (Dev.w64_setW_ne _ _ _ _ hne') hctr
  have hrec := (d.place en).slotRecord_newer f.tgt hcnt
  let g := (d.place en).slotRecord f.slot f.ctr f.tgt
  have hg : g = ((d.place en).setW (R.tickSlotcnt f.slot) f.ctr).setW (R.tickSlottgt f.slot) f.tgt := hrec
  have hcmd : g.cmd = d.cmd := (congrArg Dev.cmd hg).trans hmarks.cmd
  have hout : g.out = z.sys.dev.out := (congrArg Dev.out hg).trans hmarks.out
  have hagenda : g.agenda = z.sys.dev.agenda ++ [en] := (congrArg Dev.agenda hg).trans hmarks.agenda
  have hpend : g.pendTick = z.sys.dev.pendTick := (congrArg Dev.pendTick hg).trans hmarks.pendTick
  have heng : g.eng = z.sys.dev.eng := (congrArg Dev.eng hg).trans hmarks.eng
  have hplace : (d.place en).sameRegs g := by
    rw [hg]
    exact ⟨rfl, rfl, rfl⟩
  have hkeeps : z.sys.dev.keeps g [R.tickAgenda, R.loadStat] := hmarks.keeps.trans (Dev.keeps_of_regs hplace _)
  have hwne (o : Nat) (h1 : o ≠ R.tickSlotcnt f.slot) (h2 : o ≠ R.tickSlottgt f.slot) : g.w64 o = (d.place en).w64 o := by
    rw [hg, Dev.w64_setW_ne _ _ _ _ h2, Dev.w64_setW_ne _ _ _ _ h1]
  have hslotcnt : g.w64 (R.tickSlotcnt f.slot) = f.ctr := by
    have hne : R.tickSlotcnt f.slot ≠ R.tickSlottgt f.slot := by
      simp only [R.tickSlotcnt, R.tickSlottgt]
      omega
    rw [hg, Dev.w64_setW_ne _ _ _ _ hne, Dev.w64_setW]
    exact Nat.mod_eq_of_lt hctr64
  have hslottgt : g.w64 (R.tickSlottgt f.slot) = f.tgt := by
    rw [hg, Dev.w64_setW]
    omega
  have hloadState : actOf op pay = .swap → g.loadState = 3 := fun ha =>
    (congrArg (fun v => fld v 0 3) (hplace.reg R.loadStat)).trans (hswap ha).1
  have hswaptgt : actOf op pay = .swap → g.w64 R.loadSwaptgt = f.tgt := fun ha => by
    have h1 : R.loadSwaptgt ≠ R.tickSlotcnt f.slot := by
      simp only [R.tickSlotcnt, R.loadSwaptgt]
      omega
    have h2 : R.loadSwaptgt ≠ R.tickSlottgt f.slot := by
      simp only [R.tickSlottgt, R.loadSwaptgt]
      omega
    rw [hwne _ h1 h2, (hswap ha).2]
    exact Nat.mod_eq_of_lt (show f.tgt < 2 ^ 64 by omega)
  have hrow' : z.sys.cmdRow f op pay = ({ z.sys with dev := g } : Sys).cmdAck (udpInput f op pay z.sys.dev.cmd.taken key) f.tgt [] (some key) := hrow
  clear_value g
  have howed : ({ z.sys with dev := g } : Sys).dev.cmd.owed =
      [{ num := (udpInput f op pay z.sys.dev.cmd.taken key).num, src := 2, from_ := f.from_, reply := none }] :=
    (congrArg Cmd.owed hcmd :).trans (z.countedSys_owed f op pay key)
  obtain ⟨e, he, hans⟩ := cmdAck_udp howed f.tgt [] (some key)
  obtain ⟨hregs, hagenda', -, -, heng', -⟩ := hans.same
  have hout' : (g.bump (R.cmdCnt 0) 1).out.replies = z.sys.dev.out.replies := congrArg Outs.replies hout
  have hw (o : Nat) (h12 : o / 0x10000 ≠ 12) (hne : o ≠ R.cmdCnt 0) : e.w64 o = g.w64 o := (hans.w64_eq h12).trans (Dev.w64_bump_ne _ _ _ _ hne)
  have hrun : r = .next (z.put { z.sys with dev := e }) := by
    rw [hr, State.runRow, State.act]
    simp only [hrst, Bool.false_eq_true, if_false, hrow', he]
    rfl
  refine ⟨_, hrun, ⟨rfl, rfl, rfl⟩, State.replied_of_answers hans hout' (by decide) _, hagenda'.trans hagenda, ?_, ?_, hregs.2.2.trans hpend,
    heng'.trans heng, hkeeps.trans (Dev.keeps_of_regs hregs _), fun ha => ⟨?_, ?_⟩⟩
  · exact (hw _ (by simp only [R.tickSlotcnt]; omega) (by simp only [R.tickSlotcnt, R.cmdCnt]; omega)).trans hslotcnt
  · exact (hw _ (by simp only [R.tickSlottgt]; omega) (by simp only [R.tickSlottgt, R.cmdCnt]; omega)).trans hslottgt
  · exact (congrArg (fun v => fld v 0 3) (hregs.reg R.loadStat)).trans (hloadState ha)
  · exact (hw _ (by decide) (by decide)).trans (hswaptgt ha)

end

/-! ## The payloads -/

theorem length_writePay (ws : List RegWr) : (writePay ws).length = 12 * ws.length := by
  induction ws with
  | nil => rfl
  | cons w ws ih =>
    have hcons : writePay (w :: ws) = (leBytes 4 w.off ++ leBytes 4 w.mask ++ leBytes 4 w.data) ++ writePay ws := rfl
    rw [hcons, List.length_append, ih, List.length_cons]
    simp only [List.length_append, length_leBytes]
    omega

/-- The entries of a WRITE are those that were put into it. -/
theorem entriesOf_writePay (ws : List RegWr) (h : ∀ w ∈ ws, w.off < 2 ^ 32 ∧ w.mask < 2 ^ 32 ∧ w.data < 2 ^ 32) :
    entriesOf ws.length (writePay ws) = ws := by
  induction ws with
  | nil => rfl
  | cons w ws ih =>
    obtain ⟨hoff, hmask, hdata⟩ := h w List.mem_cons_self
    have hcons : writePay (w :: ws) = leBytes 4 w.off ++ (leBytes 4 w.mask ++ (leBytes 4 w.data ++ writePay ws)) := by
      show (leBytes 4 w.off ++ leBytes 4 w.mask ++ leBytes 4 w.data) ++ writePay ws = _
      simp only [List.append_assoc]
    have hdrop : (writePay (w :: ws)).drop 12 = writePay ws :=
      List.drop_left' (l₁ := leBytes 4 w.off ++ leBytes 4 w.mask ++ leBytes 4 w.data) (by simp)
    have h0 : le (writePay (w :: ws)) 0 4 = w.off := by
      rw [hcons]
      exact le_leBytes_four_append hoff _
    have h4 : le (writePay (w :: ws)) 4 4 = w.mask := by
      rw [hcons, le_append _ _ (by rw [length_leBytes]), length_leBytes]
      exact le_leBytes_four_append hmask _
    have h8 : le (writePay (w :: ws)) 8 4 = w.data := by
      rw [hcons, le_append _ _ (by rw [length_leBytes]; omega), length_leBytes, le_append _ _ (by rw [length_leBytes]), length_leBytes]
      exact le_leBytes_four_append hdata _
    rw [List.length_cons, entriesOf, hdrop, h0, h4, h8, ih (fun v hv => h v (List.mem_cons_of_mem _ hv))]

theorem entriesOf_writePay_div (ws : List RegWr) (h : ∀ w ∈ ws, w.off < 2 ^ 32 ∧ w.mask < 2 ^ 32 ∧ w.data < 2 ^ 32) :
    entriesOf ((writePay ws).length / 12) (writePay ws) = ws := by
  rw [length_writePay, Nat.mul_div_cancel_left _ (by decide), entriesOf_writePay ws h]

theorem actOf_write (ws : List RegWr) (h : ∀ w ∈ ws, w.off < 2 ^ 32 ∧ w.mask < 2 ^ 32 ∧ w.data < 2 ^ 32) : actOf 0x10 (writePay ws) = .writes ws := by
  rw [actOf, if_pos rfl, entriesOf_writePay_div ws h]

theorem actOf_cell {key : Nat} (hkey : key < 2 ^ 32) (val : List Byte) : actOf 0x24 (leBytes 4 key ++ val) = .cell key val := by
  rw [actOf, if_neg (by decide), if_neg (by decide), if_pos rfl, le_leBytes_four_append hkey, List.drop_left' (length_leBytes 4 key)]

/-- A signed number as its bytes. -/
theorem sgn_wrapN {w : Nat} (hw : 0 < w) {x : Int} (h : -(2 ^ (w - 1) : Int) ≤ x) (h' : x < 2 ^ (w - 1)) : sgn w (wrapN w x) = x := by
  obtain ⟨n, rfl⟩ : ∃ n, w = n + 1 := ⟨w - 1, by omega⟩
  rw [Nat.add_sub_cancel] at h h'
  have hpow : ((2 ^ (n + 1) : Nat) : Int) = 2 * 2 ^ n := by
    push_cast
    ring
  have hnat : ((2 ^ n : Nat) : Int) = 2 ^ n := by push_cast; rfl
  have hdouble : 2 ^ (n + 1) = 2 * 2 ^ n := by ring
  simp only [sgn, wrapN, Nat.add_sub_cancel, hpow]
  rcases lt_or_ge x 0 with hneg | hpos
  · have hmod : x % (2 * 2 ^ n) = x + 2 * 2 ^ n := by
      rw [← Int.add_emod_right, Int.emod_eq_of_lt] <;> omega
    rw [hmod, Nat.mod_eq_of_lt (by omega), if_neg (by omega)]
    omega
  · have hmod : x % (2 * 2 ^ n) = x := Int.emod_eq_of_lt hpos (by omega)
    rw [hmod, Nat.mod_eq_of_lt (by omega), if_pos (by omega)]
    omega

theorem actOf_step {ofs : Int} (h : -(2 ^ 63 : Int) ≤ ofs) (h' : ofs < 2 ^ 63) : actOf 0x30 (leBytes 8 (wrapN 64 ofs)) = .step ofs := by
  have hlt : wrapN 64 ofs < 256 ^ 8 := by
    rw [wrapN]
    omega
  rw [actOf, if_neg (by decide), if_neg (by decide), if_neg (by decide), le_leBytes, Nat.mod_eq_of_lt hlt, sgn_wrapN (by decide) h h']

/-! ## An immediate WRITE -/

/-- An accepted immediate WRITE waits for its boundary. -/
theorem immediate_done {z : State} {f : CmdFrame} {ws : List RegWr} (hp : z.sys.dev.paired = false) (hrole : z.sys.dev.role = .active) (h0 : f.tgt = 0)
    (hws : ∀ w ∈ ws, w.off < 2 ^ 32 ∧ w.mask < 2 ^ 32 ∧ w.data < 2 ^ 32) (h : z.accepts f 0x10 (writePay ws))
    (hcheck : ((z.sys.dev.counted f).dataCheck (.writes ws) true ((z.sys.dev.counted f).openTick (.writes ws)) ((z.sys.dev.counted f).lastTarget f.slot)).2 = none) :
    ∃ t m, exec (.write f ws) z = .next t ∧ z.outside t ∧ t.sys.dev.out = z.sys.dev.out ∧ t.sys.dev.agenda = z.sys.dev.agenda ∧
      t.sys.dev.cmd.imm = [m] ∧ m.writes = ws ∧ m.slot = f.slot ∧ m.ctr = f.ctr ∧ m.wait = false ∧
      m.tgt = z.sys.dev.tick + (if f.c < 9984 then 1 else 2) := by
  have hrst : z.sys.dev.inReset = false := h.1.1
  have hfits := h.2.1
  have himm : z.sys.dev.cmd.imm = [] := by
    obtain ⟨-, -, -, -, -, -, -, -, himm, -⟩ := h.1
    exact himm
  obtain ⟨key, hrow⟩ := cmdRow_accepted h (by decide) (by decide) (by decide) (fun _ => hrole)
  rw [if_pos (by decide)] at hrow
  obtain ⟨hshadow, hmirrors⟩ := counted_alone (f := f) hp
  have hnone := Dev.dataCheck_none _ _ _ _ _ hcheck
  let m : ImmCmd :=
    { tgt := (z.sys.dev.counted f).openTick (.writes ws), slot := f.slot, ctr := f.ctr, writes := ws,
      cmd := some (udpInput f 0x10 (writePay ws) z.sys.dev.cmd.taken key), wait := false }
  let g := ((z.sys.dev.counted f).onCmd (fun x => { x with imm := x.imm ++ [m] })).inflightStat
  have hdata : (z.countedSys f).cmdData (udpInput f 0x10 (writePay ws) z.sys.dev.cmd.taken key) = { z.sys with dev := g } := by
    have hbytes : (udpInput f 0x10 (writePay ws) z.sys.dev.cmd.taken key).bytes = frameOf f 0x10 (writePay ws) := rfl
    have htgt := (cmdTgt_frameOf hfits 0x10).trans h0
    have hdev : (z.countedSys f).dev = z.sys.dev.counted f := rfl
    unfold Sys.cmdData
    simp only [hbytes, cmdOp_frameOf f (writePay ws) (show 0x10 < 65536 by decide), cmdPay_frameOf hfits, cmdSlot_frameOf hfits, cmdCtr_frameOf hfits, htgt, hdev,
      actOf_write ws hws, beq_self_eq_true, Bool.true_or, if_true, hnone, hshadow, hmirrors, Bool.false_eq_true, if_false, entriesOf_writePay_div ws hws]
    rfl
  have hrun : exec (.write f ws) z = .next (z.put { z.sys with dev := g }) := by
    show z.runRow (fun s => s.cmdRow f 0x10 (writePay ws)) = _
    rw [State.runRow, State.act]
    simp only [hrst, Bool.false_eq_true, if_false, hrow, hdata]
    rfl
  have htick : m.tgt = z.sys.dev.tick + (if f.c < 9984 then 1 else 2) := by
    show (z.sys.dev.counted f).openTick (.writes ws) = _
    have hcycle : (z.sys.dev.counted f).cycle = f.c := rfl
    have hnow : (z.sys.dev.counted f).tick = z.sys.dev.tick := rfl
    have hlead : (AgAct.writes ws).lead = 1 := rfl
    have heven : (AgAct.writes ws).even = false := rfl
    simp only [Dev.openTick, hshadow, hcycle, hnow, hlead, heven, windowEnd, Bool.false_and, Bool.false_eq_true, if_false]
    split_ifs <;> omega
  have hall : g.cmd.imm = [m] := by
    show z.sys.dev.cmd.imm ++ [m] = [m]
    rw [himm, List.nil_append]
  exact ⟨_, m, hrun, ⟨rfl, rfl, rfl⟩, rfl, rfl, hall, rfl, rfl, rfl, rfl, htick⟩

/-- Settles O30: the four kinds with a target, and the immediate WRITE. -/
theorem dataCommandsArePlaced : Obligations.DataCommandsArePlaced := by
  intro z f hp hrole h0 has placed
  refine ⟨fun ws _ hws => ?_, ?_, fun key val hkey => ?_, fun ofs h h' => ?_, fun ws _ hws h hcheck => ?_⟩
  · exact placed_done rfl (by decide) (by decide) (by decide) (by decide) (actOf_write ws hws) hp hrole h0 has
  · exact placed_done (op := 0x23) (pay := []) rfl (by decide) (by decide) (by decide) (by decide) rfl hp hrole h0 has
  · exact placed_done rfl (by decide) (by decide) (by decide) (by decide) (actOf_cell hkey val) hp hrole h0 has
  · exact placed_done rfl (by decide) (by decide) (by decide) (by decide) (actOf_step h h') hp hrole h0 has
  · exact immediate_done (f := { f with tgt := 0 }) hp hrole rfl hws h hcheck

end Sys2Proof.Machine

/-!
PROOFS. The mirror link (R322, R323): what a message sent, and the header of a frame that arrives, change.
-/
namespace Sys2Proof.Machine

/-! ## The snoop point -/

/-- The 32-bit registers of the check-value units that a snoop point moves. -/
def cvuRegs : List Nat := (List.range 16).map R.cvuStat ++ [R.fltstat Blk.cvu, R.fltfirst Blk.cvu]

/-- Their 64-bit registers, with the counters of what is sent. -/
def mirWide : List Nat := (List.range 16).map R.cvuResult ++ (List.range 16).map R.cvuUnits ++ (List.range 16).map R.cvuFail ++ [R.mirCnt 0, R.mirCnt 5]

theorem cvuRegs_blk {off : Nat} (h : off ∈ cvuRegs) : off / 0x10000 = Blk.cvu := by
  have hall : ∀ o ∈ cvuRegs, o / 0x10000 = Blk.cvu := by decide
  exact hall off h

/-- Registers outside CVU are not among them. -/
theorem not_mem_cvuRegs {off : Nat} (h : off / 0x10000 ≠ Blk.cvu) : off ∉ cvuRegs := fun hc => h (cvuRegs_blk hc)

theorem mirWide_blk {off : Nat} (h : off ∈ mirWide) : off / 0x10000 = Blk.cvu ∨ off / 0x10000 = Blk.mir := by
  have hall : ∀ o ∈ mirWide, o / 0x10000 = Blk.cvu ∨ o / 0x10000 = Blk.mir := by decide
  exact hall off h

/-- The marks for attribution, for MOD's rule, stay. -/
def Dev.errsKept (d e : Dev) : Prop := e.evt.errT = d.evt.errT ∧ e.evt.errR = d.evt.errR ∧ e.evt.modBad = d.evt.modBad

theorem mem_cvuStat {k : Nat} (hk : k < 16) : R.cvuStat k ∈ cvuRegs :=
  List.mem_append_left _ (List.mem_map_of_mem (List.mem_range.mpr hk))

theorem mem_cvuResult {k : Nat} (hk : k < 16) : R.cvuResult k ∈ mirWide :=
  List.mem_append_left _ (List.mem_append_left _ (List.mem_append_left _ (List.mem_map_of_mem (List.mem_range.mpr hk))))

theorem mem_cvuUnits {k : Nat} (hk : k < 16) : R.cvuUnits k ∈ mirWide :=
  List.mem_append_left _ (List.mem_append_left _ (List.mem_append_right _ (List.mem_map_of_mem (List.mem_range.mpr hk))))

theorem mem_cvuFail {k : Nat} (hk : k < 16) : R.cvuFail k ∈ mirWide :=
  List.mem_append_left _ (List.mem_append_right _ (List.mem_map_of_mem (List.mem_range.mpr hk)))

/-! ## What a fault marks -/

theorem Dev.irqUpdate_evt (d : Dev) : d.irqUpdate.evt = { d.evt with vecs := d.vecLines } := by
  obtain ⟨g, hg⟩ := Dev.msix_fold ((bitsOn 32 d.vecLines).filter (fun v => !bit d.evt.vecs v)) d
  exact congrArg (fun x => ({ x.evt with vecs := d.vecLines } : Evt)) hg

/-- A fault adds its attribution to the marks of the tick (R309, R313). -/
theorem Dev.raise_marksEvt (d : Dev) (b src d0 d1 d2 : Nat) : (d.raise b src d0 d1 d2).evt.errT = (d.evt.errT || d.attributing b src) ∧
    (d.raise b src d0 d1 d2).evt.errR = (d.evt.errR || d.attributing b src) ∧
    (d.raise b src d0 d1 d2).evt.modBad = (d.evt.modBad || (b == Blk.mod && (src == Src.modModDiverge || src == Src.modFwdMissing))) := by
  unfold Dev.raise Dev.raiseF
  extract_lets sev f stat first inWin recd old escal ff ff1 react yl hot f1 att p post mark
  rw [Dev.irqUpdate_evt]
  have hpost (e : Evt) : (post e).errT = e.errT ∧ (post e).errR = e.errR ∧ (post e).modBad = e.modBad := by
    simp only [post]
    split_ifs <;> exact ⟨rfl, rfl, rfl⟩
  obtain ⟨hT, hR, hM⟩ := hpost (mark d.evt)
  exact ⟨hT, hR, hM⟩

/-- The blocks of which some fault is an attributing event. -/
def attrBlks : List Nat := [Blk.pair, Blk.tick, Blk.eng, Blk.strm, Blk.tdm, Blk.pdm, Blk.dec, Blk.mod, Blk.sns, Blk.ddr, Blk.clk, Blk.syn]

/-- A fault of another block is no attributing event. -/
theorem Dev.errsKept_raise (d : Dev) {b : Nat} (src d0 d1 d2 : Nat) (h : b ∉ attrBlks) : d.errsKept (d.raise b src d0 d1 d2) := by
  have hne (x : Nat) (hx : x ∈ attrBlks) : (b == x) = false := beq_eq_false_iff_ne.mpr (fun hc => h (hc ▸ hx))
  have hatt : d.attributing b src = false := by
    have hlist : [Blk.tick, Blk.eng, Blk.strm, Blk.tdm, Blk.pdm, Blk.dec, Blk.mod, Blk.sns, Blk.ddr, Blk.clk, Blk.syn].contains b = false := by
      rw [← Bool.not_eq_true, List.contains_iff_mem]
      exact fun hc => h (List.mem_cons_of_mem _ hc)
    rw [Dev.attributing, hlist, hne Blk.eng (by decide), hne Blk.ddr (by decide), hne Blk.pair (by decide), hne Blk.mod (by decide)]
    simp only [Bool.false_and, Bool.and_false, Bool.or_self]
  obtain ⟨hT, hR, hM⟩ := d.raise_marksEvt b src d0 d1 d2
  refine ⟨hT.trans ?_, hR.trans ?_, hM.trans ?_⟩
  · rw [hatt, Bool.or_false]
  · rw [hatt, Bool.or_false]
  · rw [hne Blk.mod (by decide), Bool.false_and, Bool.or_false]

/-! ## The snoop point, and a message -/

/-- From `d` to `e` the units of a snoop point have moved. -/
def Dev.snoops (d e : Dev) : Prop := d.marks e cvuRegs mirWide ∧ d.errsKept e

theorem Dev.snoops_refl (d : Dev) : d.snoops d := ⟨.refl d, rfl, rfl, rfl⟩

theorem Dev.snoops_trans {d e f : Dev} (h : d.snoops e) (k : e.snoops f) : d.snoops f := by
  obtain ⟨hm, hT, hR, hM⟩ := h
  obtain ⟨km, kT, kR, kM⟩ := k
  exact ⟨hm.trans km, kT.trans hT, kR.trans hR, kM.trans hM⟩

theorem Dev.snoops_cvuLatch (d : Dev) {k : Nat} (hk : k < 16) (stream v : Nat) : d.snoops (d.cvuLatch k stream v) := by
  have hset := Dev.marks.setW (l := cvuRegs) d v (mem_cvuResult hk)
  have hvalid := Dev.marks.setFld (w := mirWide) (d.setW (R.cvuResult k) v) 16 1 1 (mem_cvuStat hk)
  have hstream := Dev.marks.setFld (w := mirWide) ((d.setW (R.cvuResult k) v).setFld (R.cvuStat k) 16 1 1) 0 4 stream (mem_cvuStat hk)
  exact ⟨((hset.trans hvalid).trans hstream).trans (Dev.marks.bump _ 1 (mem_cvuUnits hk)), rfl, rfl, rfl⟩

theorem Dev.snoops_cvuCompare (d : Dev) {k : Nat} (hk : k < 16) (stream v : Nat) : d.snoops (d.cvuCompare k stream v) := by
  unfold Dev.cvuCompare
  extract_lets e d1
  have h1 : d.snoops d1 :=
    ⟨(Dev.marks.setFld d 17 1 1 (mem_cvuStat hk)).trans (Dev.marks.bump _ 1 (mem_cvuFail hk)), rfl, rfl, rfl⟩
  split
  · split
    · exact h1
    · have hseen : d1.snoops { d1 with cvuSeen := bitSet d1.cvuSeen k true } := ⟨Dev.marks.seen d1 _, rfl, rfl, rfl⟩
      have hraise : Dev.snoops { d1 with cvuSeen := bitSet d1.cvuSeen k true }
          (Dev.raise { d1 with cvuSeen := bitSet d1.cvuSeen k true } Blk.cvu Src.cvuMonMismatch k (v % 2 ^ 32) stream) :=
        ⟨Dev.marks.raise _ _ _ _ _ _ (by decide) (by decide), Dev.errsKept_raise _ _ _ _ _ (by decide)⟩
      exact Dev.snoops_trans h1 (Dev.snoops_trans hseen hraise)
  · exact d.snoops_refl

theorem Dev.snoops_draw (d : Dev) : d.snoops d.draw.1 := ⟨Dev.marks.draw d, rfl, rfl, rfl⟩

theorem Dev.snoops_mirSnoop (d : Dev) {k : Nat} (hk : k < 16) : d.snoops (d.mirSnoop k) := by
  unfold Dev.mirSnoop
  extract_lets r d1
  have h1 : d.snoops d1 := Dev.snoops_trans d.snoops_draw (Dev.snoops_cvuLatch _ hk _ _)
  have hfold (l : List Nat) (hl : ∀ j ∈ l, j < 16) (e : Dev) : e.snoops (l.foldl (fun d j =>
      if d.lf (R.cvuCfg j) 31 1 = 1 ∧ d.lf (R.cvuCfg j) 24 4 = k then
        (d.draw.1.cvuLatch j 0 (d.draw.2.toNat % 2 ^ d.lf (R.cvuCfg j) 0 7)).cvuCompare j 0 (d.draw.2.toNat % 2 ^ d.lf (R.cvuCfg j) 0 7)
      else d) e) := by
    induction l generalizing e with
    | nil => exact e.snoops_refl
    | cons j l ih =>
      have hj := hl j List.mem_cons_self
      refine Dev.snoops_trans ?_ (ih (fun i hi => hl i (List.mem_cons_of_mem _ hi)) _)
      dsimp only
      split
      · exact Dev.snoops_trans e.snoops_draw (Dev.snoops_trans (Dev.snoops_cvuLatch _ hj _ _) (Dev.snoops_cvuCompare _ hj _ _))
      · exact e.snoops_refl
  exact Dev.snoops_trans h1 (hfold _ (by decide) d1)

/-- The device with its mirror traffic replaced. -/
def Dev.traffic (d : Dev) (mir : List MirFrame) (seq sent asked : Nat) (loc : Bool) (queued : List MirMsg) : Dev :=
  { d with
    out := { d.out with mir := mir }
    pair := { d.pair with
      seq := seq
      rtSent := sent
      rtAsked := asked
      rtLoc := loc
      queued := queued } }

/-- The device with the mirror traffic of another. -/
def Dev.trafficOf (e d : Dev) : Dev := e.traffic d.out.mir d.pair.seq d.pair.rtSent d.pair.rtAsked d.pair.rtLoc d.pair.queued

theorem Dev.snoops_traffic {d e : Dev} (h : d.snoops e) (mir : List MirFrame) (seq sent asked : Nat) (loc : Bool) (queued : List MirMsg) :
    (d.traffic mir seq sent asked loc queued).snoops (e.traffic mir seq sent asked loc queued) := by
  obtain ⟨⟨⟨_, _, _, _, _, _, _, _, rfl⟩, hk, hw⟩, hT, hR, hM⟩ := h
  exact ⟨⟨⟨_, _, _, _, _, _, _, _, rfl⟩, hk, hw⟩, hT, hR, hM⟩

theorem Dev.snoops_onPair {d e : Dev} (h : d.snoops e) (f : Pair → Pair) : (d.onPair f).snoops (e.onPair f) := by
  obtain ⟨⟨⟨_, _, _, _, _, _, _, _, rfl⟩, hk, hw⟩, hT, hR, hM⟩ := h
  exact ⟨⟨⟨_, _, _, _, _, _, _, _, rfl⟩, hk, hw⟩, hT, hR, hM⟩

/-- From `d` to `e` messages have been sent on the mirror or queued for it, after those before; else only a snoop point has moved. -/
def Dev.talks (d e : Dev) : Prop :=
  d.snoops (e.trafficOf d) ∧ (∃ said, e.out.mir = d.out.mir ++ said) ∧ ∃ waits, e.pair.queued = d.pair.queued ++ waits

theorem Dev.talks_of_snoops {d e : Dev} (h : d.snoops e) : d.talks e := by
  obtain ⟨hm, herr⟩ := h
  have hpair := hm.pair
  have hout := hm.out
  have hself : e.trafficOf d = e := by
    rw [Dev.trafficOf, ← hpair, ← hout]
    rfl
  exact ⟨hself.symm ▸ ⟨hm, herr⟩, ⟨[], by rw [hout, List.append_nil]⟩, ⟨[], by rw [hpair, List.append_nil]⟩⟩

theorem Dev.talks_refl (d : Dev) : d.talks d := Dev.talks_of_snoops d.snoops_refl

theorem Dev.talks_trans {d e f : Dev} (h : d.talks e) (k : e.talks f) : d.talks f := by
  obtain ⟨hs, ⟨said, hsaid⟩, waits, hwaits⟩ := h
  obtain ⟨ks, ⟨said', ksaid⟩, waits', kwaits⟩ := k
  have hcomp : (e.trafficOf d).snoops (f.trafficOf d) := Dev.snoops_traffic ks _ _ _ _ _ _
  exact ⟨Dev.snoops_trans hs hcomp, ⟨said ++ said', by rw [ksaid, hsaid, List.append_assoc]⟩, waits ++ waits', by rw [kwaits, hwaits, List.append_assoc]⟩

/-- The message put out. -/
theorem Dev.mirPut_snoops (d : Dev) (f : MirFrame) : ∃ x seq, d.snoops x ∧
    d.mirPut f = x.traffic (d.out.mir ++ [f]) seq d.pair.rtSent d.pair.rtAsked d.pair.rtLoc d.pair.queued := by
  have hcount : d.snoops ((d.bump (R.mirCnt 0) (max 1 ((f.len + 4095) / 4096))).bump (R.mirCnt 5) f.msg.bulkBytes) :=
    ⟨(Dev.marks.bump d _ (by decide)).trans (Dev.marks.bump _ _ (by decide)), rfl, rfl, rfl⟩
  have hsnoop := Dev.snoops_trans hcount (Dev.snoops_mirSnoop _ (show 2 < 16 by decide))
  refine ⟨_, if f.again then d.pair.seq else (d.pair.seq + max 1 ((f.len + 4095) / 4096)) % 65536, hsnoop, ?_⟩
  unfold Dev.mirPut
  extract_lets n d1
  have hsnoop' : d.snoops d1 := hsnoop
  show _ = d1.traffic _ _ _ _ _ _
  clear_value d1
  obtain ⟨⟨⟨_, _, _, _, _, _, _, _, rfl⟩, -, -⟩, -⟩ := hsnoop'
  rfl

/-- The real-time bytes a message asks for (R323). -/
def Dev.rtBytes (d : Dev) (n : Nat) (m : MirMsg) : Nat := if m.bulk then 0 else if m.type == 2 then (if d.pair.rtLoc then 0 else 1280) else n

/-- A frame whose bytes the cap allows leaves. -/
theorem Dev.mirFrame_sends (d : Dev) (again : Bool) (seq n : Nat) (m : MirMsg) (hcap : d.pair.rtSent + d.rtBytes n m ≤ rtCap) :
    d.talks (d.mirFrame again seq n m) ∧ (d.mirFrame again seq n m).out.mir = d.out.mir ++ [{ again := again, seq := seq, len := n, tick := d.tick, msg := m }] ∧
      (d.mirFrame again seq n m).pair.queued = d.pair.queued := by
  let y := d.traffic d.out.mir d.pair.seq (d.pair.rtSent + d.rtBytes n m) (d.pair.rtAsked + d.rtBytes n m) (d.pair.rtLoc || m.type == 2) d.pair.queued
  have heq : d.mirFrame again seq n m = y.mirPut { again := again, seq := seq, len := n, tick := d.tick, msg := m } := by
    have hcap' : ¬rtCap < d.pair.rtSent + (if m.bulk then 0 else if m.type == 2 then (if d.pair.rtLoc then 0 else 1280) else n) := by
      rw [Dev.rtBytes] at hcap
      omega
    unfold Dev.mirFrame
    extract_lets loc rt d1
    rw [if_neg hcap']
    rfl
  obtain ⟨x, sq, hx, hput⟩ := y.mirPut_snoops { again := again, seq := seq, len := n, tick := d.tick, msg := m }
  rw [heq, hput]
  have hback : d.snoops (x.trafficOf d) := Dev.snoops_traffic hx d.out.mir d.pair.seq d.pair.rtSent d.pair.rtAsked d.pair.rtLoc d.pair.queued
  exact ⟨⟨hback, ⟨_, rfl⟩, [], (List.append_nil _).symm⟩, rfl, rfl⟩

/-- One that the cap does not allow waits. -/
theorem Dev.mirFrame_waits (d : Dev) (again : Bool) (seq n : Nat) (m : MirMsg) (hcap : rtCap < d.pair.rtSent + d.rtBytes n m) :
    d.talks (d.mirFrame again seq n m) ∧ (d.mirFrame again seq n m).out.mir = d.out.mir ∧ (d.mirFrame again seq n m).pair.queued = d.pair.queued ++ [m] := by
  have heq : d.mirFrame again seq n m =
      d.traffic d.out.mir d.pair.seq d.pair.rtSent (d.pair.rtAsked + d.rtBytes n m) (d.pair.rtLoc || m.type == 2) (d.pair.queued ++ [m]) := by
    have hcap' : rtCap < d.pair.rtSent + (if m.bulk then 0 else if m.type == 2 then (if d.pair.rtLoc then 0 else 1280) else n) := hcap
    unfold Dev.mirFrame
    extract_lets loc rt d1
    rw [if_pos hcap']
    rfl
  rw [heq]
  exact ⟨⟨d.snoops_refl, ⟨[], (List.append_nil _).symm⟩, [m], rfl⟩, rfl, rfl⟩

/-- The length of a message draws at most a free value, and is within the bound of R323. -/
theorem Dev.msgLen_snoops (d : Dev) (m : MirMsg) : ((d.msgLen m).1 = d ∨ (d.msgLen m).1 = d.draw.1) ∧ (m.bulk = false → (d.msgLen m).2 ≤ 6144) := by
  unfold Dev.msgLen
  extract_lets upTo
  have hup (n : Nat) (hn : n ≤ 6144) : (upTo n).1 = d.draw.1 ∧ (upTo n).2 ≤ 6144 := by
    refine ⟨rfl, ?_⟩
    have hlt := Nat.mod_lt d.draw.2.toNat (show 0 < n + 1 by omega)
    show d.draw.2.toNat % (n + 1) ≤ 6144
    omega
  split
  · exact ⟨.inl rfl, fun _ => show 128 ≤ 6144 by decide⟩
  · exact ⟨.inl rfl, fun _ => le_refl 6144⟩
  · exact ⟨.inr rfl, fun _ => (hup 1280 (by decide)).2⟩
  · exact ⟨.inr rfl, fun _ => (hup 2048 (by decide)).2⟩
  · split
    · rename_i hb
      exact ⟨.inl rfl, fun hf => absurd hf (by rw [hb]; decide)⟩
    · exact ⟨.inr rfl, fun _ => (hup 4096 (by decide)).2⟩

theorem Dev.rtBytes_le (d : Dev) {n : Nat} {m : MirMsg} (h : m.bulk = false → n ≤ 6144) : d.rtBytes n m ≤ 6144 := by
  unfold Dev.rtBytes
  cases hb : m.bulk with
  | true => exact Nat.zero_le _
  | false =>
    have hn := h hb
    simp only [Bool.false_eq_true, if_false]
    split_ifs <;> omega

/-- A message sent changes the mirror's traffic and its snoop point alone. -/
theorem Dev.talks_mirSend (d : Dev) (m : MirMsg) : d.talks (d.mirSend m) := by
  unfold Dev.mirSend
  split
  · exact d.talks_refl
  · extract_lets y
    have hy : d.talks y.1 := by
      obtain ⟨hlen | hlen, -⟩ := d.msgLen_snoops m
      · rw [show y.1 = d from hlen]
        exact d.talks_refl
      · rw [show y.1 = d.draw.1 from hlen]
        exact Dev.talks_of_snoops d.snoops_draw
    refine Dev.talks_trans hy ?_
    rcases Nat.lt_or_ge rtCap (y.1.pair.rtSent + y.1.rtBytes y.2 m) with hcap | hcap
    · exact (y.1.mirFrame_waits _ _ _ _ hcap).1
    · exact (y.1.mirFrame_sends _ _ _ _ hcap).1

/-- A message goes out at once while the link is up and the cap has room. -/
theorem Dev.mirSend_ready (d : Dev) (m : MirMsg) (h : d.mirReady) : (d.mirSend m).told = d.told ++ [m] ∧ (d.mirSend m).pair.queued = d.pair.queued := by
  obtain ⟨hup, hrst, hroom⟩ := h
  have hlen := d.msgLen_snoops m
  have hsame : (d.msgLen m).1.pair = d.pair ∧ (d.msgLen m).1.out = d.out := by
    obtain ⟨h1 | h1, -⟩ := hlen
    · rw [h1]
      exact ⟨rfl, rfl⟩
    · rw [h1]
      exact ⟨rfl, rfl⟩
  have hcap : (d.msgLen m).1.pair.rtSent + (d.msgLen m).1.rtBytes (d.msgLen m).2 m ≤ rtCap := by
    have hle := (d.msgLen m).1.rtBytes_le hlen.2
    rw [hsame.1]
    omega
  obtain ⟨-, hmir, hqueued⟩ := (d.msgLen m).1.mirFrame_sends false (d.msgLen m).1.pair.seq (d.msgLen m).2 m hcap
  have hgo : d.mirSend m = (d.msgLen m).1.mirFrame false (d.msgLen m).1.pair.seq (d.msgLen m).2 m := by
    rw [Dev.mirSend, if_neg]
    rw [hup, hrst]
    simp
  rw [hgo]
  refine ⟨?_, hqueued.trans (by rw [hsame.1])⟩
  rw [Dev.told, hmir, hsame.2, List.map_append, Dev.told]
  rfl

/-- A message goes out or waits while the link is up. -/
theorem Dev.mirSend_speaks (d : Dev) (m : MirMsg) (hup : d.rf R.mirStat 0 1 = 1) (hrst : d.mgmtRst = none) : (d.mirSend m).speaks m := by
  have hgo : d.mirSend m = (d.msgLen m).1.mirFrame false (d.msgLen m).1.pair.seq (d.msgLen m).2 m := by
    rw [Dev.mirSend, if_neg]
    rw [hup, hrst]
    simp
  rw [hgo]
  rcases Nat.lt_or_ge rtCap ((d.msgLen m).1.pair.rtSent + (d.msgLen m).1.rtBytes (d.msgLen m).2 m) with hcap | hcap
  · obtain ⟨-, -, hqueued⟩ := (d.msgLen m).1.mirFrame_waits false (d.msgLen m).1.pair.seq (d.msgLen m).2 m hcap
    exact .inr (by rw [hqueued]; exact List.mem_append_right _ (List.mem_singleton_self m))
  · obtain ⟨-, hmir, -⟩ := (d.msgLen m).1.mirFrame_sends false (d.msgLen m).1.pair.seq (d.msgLen m).2 m hcap
    exact .inl (by rw [Dev.told, hmir, List.map_append]; exact List.mem_append_right _ (List.mem_singleton_self m))

/-- What has been said, or waits, stays so while more is said. -/
theorem Dev.talks.speaks {d e : Dev} (h : d.talks e) {m : MirMsg} (hm : d.speaks m) : e.speaks m := by
  obtain ⟨-, ⟨said, hsaid⟩, waits, hwaits⟩ := h
  rcases hm with hm | hm
  · exact .inl (by rw [Dev.told, hsaid, List.map_append]; exact List.mem_append_left _ hm)
  · exact .inr (by rw [hwaits]; exact List.mem_append_left _ hm)

/-! ## What stays while messages are sent -/

namespace Dev.talks

variable {d e : Dev} (h : d.talks e)
include h

theorem reg {off : Nat} (ho : off ∉ cvuRegs) : e.reg off = d.reg off := h.1.1.reg ho
theorem lv {off : Nat} (ho : off ∉ cvuRegs) : e.lv off = d.lv off := h.1.1.lv ho
theorem rf {off : Nat} (lo n : Nat) (ho : off ∉ cvuRegs) : e.rf off lo n = d.rf off lo n := h.1.1.rf lo n ho
theorem lf {off : Nat} (lo n : Nat) (ho : off ∉ cvuRegs) : e.lf off lo n = d.lf off lo n := by rw [Dev.lf, h.lv ho, Dev.lf]
theorem w64 {off : Nat} (ho : off ∉ mirWide) : e.w64 off = d.w64 off := h.1.1.w64 ho

theorem keepsOut : d.keepsOut e [Blk.cvu] := fun off ho => by
  have hoff : off ∉ cvuRegs := not_mem_cvuRegs (fun hc => ho (List.mem_singleton.mpr hc))
  exact ⟨h.reg hoff, h.lv hoff⟩

theorem errs : d.errsKept e := h.1.2

/-- The device differs from the one before as these say, and in nothing else. -/
theorem eq : e = { d with
    regs := e.regs
    live := e.live
    wide := e.wide
    free := e.free
    flt := e.flt
    evt := e.evt
    pcie := e.pcie
    cvuSeen := e.cvuSeen
    out := { d.out with mir := e.out.mir }
    pair := { d.pair with
      seq := e.pair.seq
      rtSent := e.pair.rtSent
      rtAsked := e.pair.rtAsked
      rtLoc := e.pair.rtLoc
      queued := e.pair.queued } } := by
  obtain ⟨⟨⟨⟨regs, live, wide, free, flt, evt, pcie, seen, hx⟩, -, -⟩, -⟩, -, -⟩ := h
  have hback : e = (e.trafficOf d).trafficOf e := rfl
  have hregs : e.regs = regs := congrArg Dev.regs hx
  have hlive : e.live = live := congrArg Dev.live hx
  have hwide : e.wide = wide := congrArg Dev.wide hx
  have hfree : e.free = free := congrArg Dev.free hx
  have hflt : e.flt = flt := congrArg Dev.flt hx
  have hevt : e.evt = evt := congrArg Dev.evt hx
  have hpcie : e.pcie = pcie := congrArg Dev.pcie hx
  have hseen : e.cvuSeen = seen := congrArg Dev.cvuSeen hx
  subst hregs hlive hwide hfree hflt hevt hpcie hseen
  exact hback.trans (congrArg (fun x => x.trafficOf e) hx)

end Dev.talks

/-! ## The header of a frame that arrives -/

/-- The device with a frame counted and its SEQ followed. -/
def Dev.received (d : Dev) (c : Nat) (rx : Option Nat) : Dev := ((d.atC c).bump (R.mirCnt 1) 1).onPair (fun p => { p with rxSeq := rx })

/-- The SEQ expected after a frame. -/
def Dev.nextSeq (d : Dev) (h : MirHdr) : Option Nat := if h.again then d.pair.rxSeq else some ((h.seq + 1) % 65536)

/-- A frame that arrives at a unit that takes part in mirror traffic. -/
theorem Dev.mirHead_live (d : Dev) (h : MirHdr) (hlive : d.mirLive = true) : let g := d.received h.c (d.nextSeq h)
    g.talks (d.mirHead h) ∧ (d.seqFits h = true → (d.mirHead h).told = d.told ∧ (d.mirHead h).pair = g.pair) ∧
      (d.seqFits h = false → d.mirReady → (d.mirHead h).told = d.told ++ [.retrans (d.pair.rxSeq.getD 0) ((h.seq + 65536 - d.pair.rxSeq.getD 0) % 65536)]) := by
  intro g
  have hin : ((d.atC h.c).bump (R.mirCnt 1) 1).snoops (d.mirIn h.c) := Dev.snoops_mirSnoop _ (by decide)
  have hpairIn : (d.mirIn h.c).pair = d.pair := hin.1.pair
  have houtIn : (d.mirIn h.c).out = d.out := hin.1.out
  let x := (d.mirIn h.c).onPair (fun p => { p with rxSeq := d.nextSeq h })
  have hx : g.snoops x := Dev.snoops_onPair hin _
  have hfits : (d.mirIn h.c).seqFits h = d.seqFits h := by rw [Dev.seqFits, hpairIn, Dev.seqFits]
  have hseqIn : d.mirHead h = if d.seqFits h then x else x.mirSend (.retrans (d.pair.rxSeq.getD 0) ((h.seq + 65536 - d.pair.rxSeq.getD 0) % 65536)) := by
    rw [Dev.mirHead, if_pos hlive, Dev.seqIn, hfits, hpairIn]
    have hnext : (if h.again then d.mirIn h.c else (d.mirIn h.c).onPair (fun p => { p with rxSeq := some ((h.seq + 1) % 65536) })) = x := by
      cases hag : h.again with
      | true =>
        have hsame : d.nextSeq h = (d.mirIn h.c).pair.rxSeq := by rw [Dev.nextSeq, hag, hpairIn]; rfl
        simp only [x, hsame]
        rfl
      | false =>
        have hset : d.nextSeq h = some ((h.seq + 1) % 65536) := by rw [Dev.nextSeq, hag]; rfl
        simp only [x, hset]
        rfl
    simp only [hnext]
  have hxpair : x.pair = g.pair := hx.1.pair
  have hxout : x.out = d.out := hx.1.out
  rw [hseqIn]
  cases hf : d.seqFits h with
  | true =>
    refine ⟨Dev.talks_of_snoops hx, fun _ => ⟨?_, hxpair⟩, fun hc => absurd hc (by decide)⟩
    rw [if_pos rfl, Dev.told, hxout, Dev.told]
  | false =>
    refine ⟨Dev.talks_trans (Dev.talks_of_snoops hx) (x.talks_mirSend _), fun hc => absurd hc (by decide), fun _ hready => ?_⟩
    have hready' : x.mirReady := by
      obtain ⟨hup, hrst, hroom⟩ := hready
      have hxrst : x.mgmtRst = d.mgmtRst := by
        obtain ⟨⟨⟨_, _, _, _, _, _, _, _, he⟩, -, -⟩, -⟩ := hx
        rw [he]
        rfl
      have hroom' : x.pair.rtSent + 6144 ≤ rtCap := by
        rw [hxpair]
        exact hroom
      exact ⟨(hx.1.rf _ _ (not_mem_cvuRegs (by decide))).trans hup, hxrst.trans hrst, hroom'⟩
    obtain ⟨htold, -⟩ := x.mirSend_ready (.retrans (d.pair.rxSeq.getD 0) ((h.seq + 65536 - d.pair.rxSeq.getD 0) % 65536)) hready'
    rw [if_neg Bool.false_ne_true, htold, Dev.told, hxout, Dev.told]

/-- From `d` to `e` at most the header of a frame has been taken. -/
def Dev.hears (d e : Dev) : Prop := ∃ g, (g = d ∨ ∃ c rx, g = d.received c rx) ∧ g.talks e

theorem Dev.hears_mirHead (d : Dev) (h : MirHdr) : d.hears (d.mirHead h) := by
  cases hlive : d.mirLive with
  | true => exact ⟨_, .inr ⟨_, _, rfl⟩, (d.mirHead_live h hlive).1⟩
  | false =>
    rw [Dev.mirHead, hlive, if_neg Bool.false_ne_true]
    exact ⟨d, .inl rfl, d.talks_refl⟩

/-- A frame at a unit that takes no part in mirror traffic. -/
theorem Dev.mirHead_dead (d : Dev) (h : MirHdr) (hlive : d.mirLive = false) : d.mirHead h = d := by
  rw [Dev.mirHead, hlive, if_neg Bool.false_ne_true]

namespace Dev.hears

variable {d e : Dev} (h : d.hears e)
include h

theorem reg {off : Nat} (ho : off ∉ cvuRegs) : e.reg off = d.reg off := by
  obtain ⟨g, rfl | ⟨c, rx, rfl⟩, ht⟩ := h
  · exact ht.reg ho
  · exact ht.reg ho

theorem lv {off : Nat} (ho : off ∉ cvuRegs) : e.lv off = d.lv off := by
  obtain ⟨g, rfl | ⟨c, rx, rfl⟩, ht⟩ := h
  · exact ht.lv ho
  · exact ht.lv ho

theorem rf {off : Nat} (lo n : Nat) (ho : off ∉ cvuRegs) : e.rf off lo n = d.rf off lo n := by rw [Dev.rf, h.reg ho, Dev.rf]

theorem lf {off : Nat} (lo n : Nat) (ho : off ∉ cvuRegs) : e.lf off lo n = d.lf off lo n := by rw [Dev.lf, h.lv ho, Dev.lf]

theorem w64 {off : Nat} (ho : off ∉ mirWide) (h1 : off ≠ R.mirCnt 1) : e.w64 off = d.w64 off := by
  obtain ⟨g, rfl | ⟨c, rx, rfl⟩, ht⟩ := h
  · exact ht.w64 ho
  · exact (ht.w64 ho).trans (Dev.w64_setW_ne _ _ _ _ h1)

theorem keepsOut : d.keepsOut e [Blk.cvu] := fun off ho => by
  have hoff : off ∉ cvuRegs := not_mem_cvuRegs (fun hc => ho (List.mem_singleton.mpr hc))
  exact ⟨h.reg hoff, h.lv hoff⟩

theorem errs : d.errsKept e := by
  obtain ⟨g, rfl | ⟨c, rx, rfl⟩, ht⟩ := h
  · exact ht.errs
  · exact ht.errs

/-- What a frame's header changes beside registers. -/
theorem eq : e = { d with
    cycle := e.cycle
    regs := e.regs
    live := e.live
    wide := e.wide
    free := e.free
    flt := e.flt
    evt := e.evt
    pcie := e.pcie
    cvuSeen := e.cvuSeen
    out := { d.out with mir := e.out.mir }
    pair := { d.pair with
      rxSeq := e.pair.rxSeq
      seq := e.pair.seq
      rtSent := e.pair.rtSent
      rtAsked := e.pair.rtAsked
      rtLoc := e.pair.rtLoc
      queued := e.pair.queued } } := by
  obtain ⟨g, hg, ht⟩ := h
  have heq := ht.eq
  have hcyc : e.cycle = g.cycle := (congrArg Dev.cycle heq :)
  have hrx : e.pair.rxSeq = g.pair.rxSeq := (congrArg (fun x => x.pair.rxSeq) heq :)
  rw [hcyc, hrx]
  obtain rfl | ⟨c, rx, rfl⟩ := hg
  · exact heq
  · exact heq

end Dev.hears

end Sys2Proof.Machine

/-!
PROOFS. Mirrored commands (R307, R337): a CANCEL under no slot. The statement speaks of the record of any slot; the address of such a record can be
that of a check-value unit's counter, which every frame of the mirror moves.
-/
namespace Sys2Proof.Machine

/-- A number past every slot, whose record has the address of the count of the unit at the mirror's snoop point. -/
def noSlot : Nat := 81919

theorem tickSlotcnt_noSlot : R.tickSlotcnt noSlot = R.cvuUnits 3 := rfl

/-- A SHADOW in a running tick. -/
def listener : State := { sys := { dev := ((({} : Dev).setReg R.synStat 3).setReg R.pairCtrl (2 ^ 31)).setReg R.pairStat 1 } }

/-- The header of the CANCEL. -/
def cancelHeader : MirHdr := { c := 0, seq := 0 }

theorem listener_running : listener.Running := by
  unfold State.Running
  decide +kernel

/-- The listener as the CANCEL is counted, before the snoop point. -/
def cancelCounted : Dev := ((listener.sys.dev.atC 0).bump (R.mirCnt 1) 1)

/-- The unit at the snoop point counts the frame. -/
theorem listener_cvuUnits : ((listener.sys.dev.mirHead cancelHeader).cancelReceive noSlot 0 0).w64 (R.cvuUnits 3) = 1 := by
  have hlatch : ((listener.sys.dev.mirHead cancelHeader).cancelReceive noSlot 0 0).w64 (R.cvuUnits 3) =
      (cancelCounted.draw.1.cvuLatch 3 0 (cancelCounted.draw.2.toNat % 2 ^ 32)).w64 (R.cvuUnits 3) := by rfl
  have hzero : cancelCounted.draw.1.w64 (R.cvuUnits 3) = 0 := by decide +kernel
  rw [hlatch, Dev.cvuLatch, Dev.w64_bump, Dev.w64_setFld, Dev.w64_setFld, Dev.w64_setW_ne _ _ _ _ (by decide), hzero]
  rfl

/-- Refutes O42: a CANCEL under no slot of CMD does not leave the word at its record's address. -/
theorem not_mirroredCommands : ¬ Obligations.MirroredCommands := by
  intro h
  obtain ⟨-, -, hcancel, -⟩ := h listener cancelHeader 0 listener_running
  obtain ⟨t, hexec, -, -, hrec⟩ := (hcancel (by decide +kernel) noSlot 0).1 rfl
  have hrow : exec (.cancelReceive noSlot 0 cancelHeader) listener =
      .next (listener.onDev (fun d => (d.mirHead cancelHeader).cancelReceive noSlot 0 0)) := rfl
  have hone : counterAfter (exec (.cancelReceive noSlot 0 cancelHeader) listener) (R.tickSlotcnt noSlot) = some 1 := by
    rw [hrow]
    exact congrArg some listener_cvuUnits
  have hzero : listener.sys.dev.w64 (R.tickSlotcnt noSlot) = 0 := by decide +kernel
  rw [counterAfter_of_next _ hexec, hrec, hzero] at hone
  cases hone

end Sys2Proof.Machine

/-!
PROOFS. References (R152 to R158): loss, activity, the checks of a second, the wait to restore, selection.
-/
namespace Sys2Proof.Machine

/-! ## Faults with a force, and the flags that stay -/

theorem Dev.marks.raiseF {l w : List Nat} (d : Dev) (b src : Nat) (forced : Bool) (d0 d1 d2 : Nat) (h1 : R.fltstat b ∈ l) (h2 : R.fltfirst b ∈ l) :
    d.marks (d.raiseF b src forced d0 d1 d2) l w := by
  obtain ⟨ff, f, g, h, he⟩ := d.raiseF_eq b src forced d0 d1 d2
  refine ⟨⟨_, _, _, _, _, _, _, d.cvuSeen, he⟩, ?_, fun off _ => by rw [Dev.w64, Dev.raiseF_wide, Dev.w64]⟩
  rw [he]
  have hset := (d.keeps_setReg (R.fltstat b) (bitSet (d.reg (R.fltstat b)) src true) h1).trans
    (Dev.keeps_setReg _ (R.fltfirst b) ff h2)
  exact hset

/-- The fault's flag after it. -/
theorem Dev.rf_raiseF (d : Dev) (b src : Nat) (forced : Bool) (d0 d1 d2 : Nat) {s : Nat} (hs : s < 32) :
    (d.raiseF b src forced d0 d1 d2).rf (R.fltstat b) s 1 = fld (bitSet (d.reg (R.fltstat b)) src true) s 1 := by
  obtain ⟨ff, f, g, h, he⟩ := d.raiseF_eq b src forced d0 d1 d2
  have hne : R.fltstat b ≠ R.fltfirst b := by
    show b * 0x10000 + fltOff b ≠ b * 0x10000 + fltOff b + 4
    omega
  have hreg : (d.raiseF b src forced d0 d1 d2).reg (R.fltstat b) = bitSet (d.reg (R.fltstat b)) src true % 2 ^ 32 := by
    rw [he]
    exact (Dev.reg_setReg_ne _ _ _ _ hne).trans (Dev.reg_setReg _ _ _)
  rw [Dev.rf, hreg, fld_mod_pow _ _ _ _ (by omega)]

theorem Dev.flag_raiseF (d : Dev) (b src : Nat) (forced : Bool) (d0 d1 d2 : Nat) (hs : src < 32) : (d.raiseF b src forced d0 d1 d2).flag b src :=
  (d.rf_raiseF b src forced d0 d1 d2 hs).trans (fld_bitSet_same _ _)

theorem Dev.flag_raise (d : Dev) (b src d0 d1 d2 : Nat) (hs : src < 32) : (d.raise b src d0 d1 d2).flag b src := d.flag_raiseF b src false d0 d1 d2 hs

/-- A flag that is set stays over a fault of its block. -/
theorem Dev.flag_stays_raiseF (d : Dev) {b s : Nat} (src : Nat) (forced : Bool) (d0 d1 d2 : Nat) (hs : s < 32) (h : d.flag b s) :
    (d.raiseF b src forced d0 d1 d2).flag b s := by
  rw [Dev.flag, d.rf_raiseF b src forced d0 d1 d2 hs]
  rcases eq_or_ne s src with rfl | hne
  · exact fld_bitSet_same _ _
  · rw [fld_bitSet_ne _ _ _ _ _ (by omega)]
    exact h

theorem Dev.flag_stays_raise (d : Dev) {b s : Nat} (src d0 d1 d2 : Nat) (hs : s < 32) (h : d.flag b s) : (d.raise b src d0 d1 d2).flag b s :=
  d.flag_stays_raiseF src false d0 d1 d2 hs h

/-- A flag outside what is marked stays. -/
theorem Dev.marks.flag {l w : List Nat} {d e : Dev} (h : d.marks e l w) {b s : Nat} (hb : R.fltstat b ∉ l) : e.flag b s ↔ d.flag b s := by
  rw [Dev.flag, Dev.flag, h.rf s 1 hb]

/-! ## A reference's own state -/

/-- The registers that the events of reference `n` write. -/
def refRegs (n : Nat) : List Nat := [R.clkRefstat n, R.clkReffreq n, R.clkRefwtr n, R.fltstat Blk.clk, R.fltfirst Blk.clk]

/-- The device with another state of CLK. -/
def Dev.withClk (d : Dev) (x : Clk) : Dev := { d with clk := x }

/-- From `d` to `e` an event of reference `n` has happened: its registers, CLK's faults and CLK's own state alone may differ, of the latter no other
reference's. -/
def Dev.refMoves (d e : Dev) (n : Nat) : Prop :=
  d.marks (e.withClk d.clk) (refRegs n) [] ∧ (∀ m, m ≠ n → e.refS m = d.refS m) ∧ e.clk.refs.length = d.clk.refs.length ∧
    ∀ s, s < 32 → d.flag Blk.clk s → e.flag Blk.clk s

namespace Dev.refMoves

variable {n : Nat}

theorem marks_withClk {d e : Dev} {l w : List Nat} (h : d.marks e l w) (x : Clk) : (d.withClk x).marks (e.withClk x) l w := by
  obtain ⟨⟨_, _, _, _, _, _, _, _, rfl⟩, hk, hw⟩ := h
  exact ⟨⟨_, _, _, _, _, _, _, _, rfl⟩, hk, hw⟩

theorem refl (d : Dev) : d.refMoves d n := ⟨.refl d, fun _ _ => rfl, rfl, fun _ _ h => h⟩

theorem trans {d e f : Dev} (h : d.refMoves e n) (k : e.refMoves f n) : d.refMoves f n := by
  obtain ⟨hm, hr, hl, hf⟩ := h
  obtain ⟨km, kr, kl, kf⟩ := k
  exact ⟨hm.trans (marks_withClk km d.clk), fun m hmn => (kr m hmn).trans (hr m hmn), kl.trans hl, fun s hs hd => kf s hs (hf s hs hd)⟩

/-- Operations on registers other than the faults. -/
theorem of_marks {d e : Dev} {l : List Nat} (h : d.marks e l []) (hl : l ⊆ refRegs n) (hno : R.fltstat Blk.clk ∉ l) : d.refMoves e n := by
  have hm := h.mono hl (List.Subset.refl _)
  have hself : e.withClk d.clk = e := by rw [Dev.withClk, ← h.clk]
  exact ⟨hself.symm ▸ hm, fun m _ => by rw [Dev.refS, h.clk, Dev.refS], by rw [h.clk], fun s _ hd => (h.flag hno).mpr hd⟩

theorem setStat (d : Dev) (x : Nat) (hn : n < 4) : d.refMoves (d.setReg (R.clkRefstat n) x) n := by
  refine of_marks (l := [R.clkRefstat n]) (.setReg d x (List.mem_singleton_self _)) (by simp [refRegs]) ?_
  interval_cases n <;> decide

theorem setFld (d : Dev) (lo w x : Nat) (hn : n < 4) : d.refMoves (d.setFld (R.clkRefstat n) lo w x) n := by
  refine of_marks (l := [R.clkRefstat n]) (.setFld d lo w x (List.mem_singleton_self _)) (by simp [refRegs]) ?_
  interval_cases n <;> decide

theorem setFreq (d : Dev) (x : Nat) (hn : n < 4) : d.refMoves (d.setReg (R.clkReffreq n) x) n := by
  refine of_marks (l := [R.clkReffreq n]) (.setReg d x (List.mem_singleton_self _)) (by simp [refRegs]) ?_
  interval_cases n <;> decide

theorem setWtr (d : Dev) (x : Nat) (hn : n < 4) : d.refMoves (d.setReg (R.clkRefwtr n) x) n := by
  refine of_marks (l := [R.clkRefwtr n]) (.setReg d x (List.mem_singleton_self _)) (by simp [refRegs]) ?_
  interval_cases n <;> decide

theorem raiseF (d : Dev) (src : Nat) (forced : Bool) (d0 d1 d2 : Nat) : d.refMoves (d.raiseF Blk.clk src forced d0 d1 d2) n := by
  have hm : d.marks (d.raiseF Blk.clk src forced d0 d1 d2) (refRegs n) [] := .raiseF d _ _ _ _ _ _ (by simp [refRegs]) (by simp [refRegs])
  have hself : (d.raiseF Blk.clk src forced d0 d1 d2).withClk d.clk = d.raiseF Blk.clk src forced d0 d1 d2 := by
    rw [Dev.withClk, ← hm.clk]
  exact ⟨hself.symm ▸ hm, fun m _ => by rw [Dev.refS, hm.clk, Dev.refS], by rw [hm.clk], fun s hs hd => d.flag_stays_raiseF src forced d0 d1 d2 hs hd⟩

theorem onRef (d : Dev) (f : ClkRef → ClkRef) : d.refMoves (d.onRef n f) n := by
  refine ⟨.refl d, fun m hm => ?_, length_updAt _ _ _, fun _ _ h => h⟩
  show (updAt d.clk.refs n f).getD m {} = d.clk.refs.getD m {}
  rw [getD_updAt, if_neg (fun hc => hm hc.1.symm)]

theorem clkWhy (d : Dev) (k cause : Nat) : d.refMoves (d.clkWhy k cause) n := by
  unfold Dev.clkWhy
  split
  · exact ⟨.refl d, fun _ _ => rfl, rfl, fun _ _ h => h⟩
  · exact refl d

section
variable {d e : Dev} (h : d.refMoves e n)
include h

theorem reg {o : Nat} (ho : o ∉ refRegs n) : e.reg o = d.reg o := h.1.reg (o := o) ho
theorem lv {o : Nat} (ho : o ∉ refRegs n) : e.lv o = d.lv o := h.1.lv (o := o) ho
theorem rf {o : Nat} (lo w : Nat) (ho : o ∉ refRegs n) : e.rf o lo w = d.rf o lo w := h.1.rf (o := o) lo w ho
theorem lf {o : Nat} (lo w : Nat) (ho : o ∉ refRegs n) : e.lf o lo w = d.lf o lo w := by rw [Dev.lf, h.lv ho, Dev.lf]

end

end Dev.refMoves

theorem Dev.refS_onRef (d : Dev) {n : Nat} (f : ClkRef → ClkRef) (h : n < d.clk.refs.length) : (d.onRef n f).refS n = f (d.refS n) := by
  show (updAt d.clk.refs n f).getD n {} = f (d.clk.refs.getD n {})
  rw [getD_updAt, if_pos ⟨rfl, h⟩]

theorem Dev.refS_clkWhy (d : Dev) (k cause n : Nat) : (d.clkWhy k cause).refS n = d.refS n := by
  unfold Dev.clkWhy
  split
  · rfl
  · rfl

theorem Dev.refState_of_reg {d e : Dev} {n : Nat} (h : e.reg (R.clkRefstat n) = d.reg (R.clkRefstat n)) : e.refState n = d.refState n := by
  rw [Dev.refState, Dev.rf, h, Dev.refState, Dev.rf]

theorem Dev.reg_clkWhy (d : Dev) (k cause o : Nat) : (d.clkWhy k cause).reg o = d.reg o := by
  unfold Dev.clkWhy
  split
  · rfl
  · rfl

/-- A fault of CLK leaves a reference's own registers. -/
theorem Dev.reg_raise_clk (d : Dev) (src : Nat) (forced : Bool) (d0 d1 d2 : Nat) {o : Nat} (h1 : o ≠ R.fltstat Blk.clk) (h2 : o ≠ R.fltfirst Blk.clk) :
    (d.raiseF Blk.clk src forced d0 d1 d2).reg o = d.reg o :=
  (Dev.marks.raiseF (l := [R.fltstat Blk.clk, R.fltfirst Blk.clk]) (w := []) d Blk.clk src forced d0 d1 d2 (by decide) (by decide)).reg
    (by simp only [List.mem_cons, List.not_mem_nil, or_false, not_or]; exact ⟨h1, h2⟩)

/-! ## Loss and disqualification -/

theorem refStat_ne {n : Nat} (hn : n < 4) : R.clkRefstat n ≠ R.fltstat Blk.clk ∧ R.clkRefstat n ≠ R.fltfirst Blk.clk ∧ R.clkRefwtr n ≠ R.fltstat Blk.clk ∧
    R.clkRefwtr n ≠ R.fltfirst Blk.clk ∧ R.clkReffreq n ≠ R.fltstat Blk.clk ∧ R.clkReffreq n ≠ R.fltfirst Blk.clk ∧ R.clkRefstat n ≠ R.clkRefwtr n ∧
    R.clkReffreq n ≠ R.clkRefwtr n ∧ R.clkReffreq n ≠ R.clkRefstat n := by
  interval_cases n <;> decide

theorem Dev.refLose_moves (d : Dev) {n : Nat} (hn : n < 4) : d.refMoves (d.refLose n) n := by
  unfold Dev.refLose
  extract_lets st d1
  have h1 : d.refMoves d1 n := (((Dev.refMoves.setStat d 1 hn).trans (.setWtr _ 0 hn)).trans (.onRef _ _))
  split
  · exact .refl d
  · exact (h1.trans (.raiseF _ _ _ _ _ _)).trans (.clkWhy _ _ _)

/-- A reference that loses its signal (R152, R154). -/
theorem Dev.refLose_leaves (d : Dev) {n : Nat} (hn : n < 4) (hlen : d.clk.refs.length = 4) (h : 2 ≤ d.refState n) : let e := d.refLose n
    e.refState n = 1 ∧ e.reg (R.clkRefwtr n) = 0 ∧ (e.refS n).offs = [] ∧ e.flag Blk.clk Src.clkRefLos := by
  obtain ⟨hs1, hs2, hw1, hw2, -, -, hsw, -⟩ := refStat_ne hn
  let d1 := ((d.setReg (R.clkRefstat n) 1).setReg (R.clkRefwtr n) 0).onRef n (fun r => { r with offs := [], good := 0 })
  have he : d.refLose n = (d1.raiseF Blk.clk Src.clkRefLos (bit (d.lv R.clkForce) n) n (d.refState n) 0).clkWhy n 1 := if_neg (by omega)
  have hstat : d1.reg (R.clkRefstat n) = 1 := (Dev.reg_setReg_ne _ _ _ _ hsw).trans (Dev.reg_setReg ..)
  have hwtr : d1.reg (R.clkRefwtr n) = 0 := Dev.reg_setReg ..
  have hoffs : (d1.refS n).offs = [] := congrArg ClkRef.offs (Dev.refS_onRef ((d.setReg (R.clkRefstat n) 1).setReg (R.clkRefwtr n) 0) _ (by
    show n < d.clk.refs.length
    omega))
  clear_value d1
  intro e
  rw [show e = _ from he]
  refine ⟨?_, ?_, ?_, ?_⟩
  · rw [Dev.refState, Dev.rf, Dev.reg_clkWhy, Dev.reg_raise_clk _ _ _ _ _ _ hs1 hs2, hstat]
    rfl
  · rw [Dev.reg_clkWhy, Dev.reg_raise_clk _ _ _ _ _ _ hw1 hw2, hwtr]
  · rw [Dev.refS_clkWhy, Dev.refS, Dev.raiseF_clk]
    exact hoffs
  · rw [Dev.flag, Dev.rf, Dev.reg_clkWhy]
    exact d1.flag_raiseF _ _ _ _ _ _ (by decide)

theorem Dev.refDisq_moves (d : Dev) {n : Nat} (cause : Nat) (off : Int) (hn : n < 4) : d.refMoves (d.refDisq n cause off) n := by
  unfold Dev.refDisq
  extract_lets d1 d2
  have h1 : d.refMoves d1 n := (Dev.refMoves.setFld d _ _ _ hn).trans (.setFld _ _ _ _ hn)
  have h2 : d1.refMoves d2 n := (Dev.refMoves.setWtr d1 0 hn).trans (.onRef _ _)
  exact ((h1.trans h2).trans (.raiseF _ _ _ _ _ _)).trans (.clkWhy _ _ _)

/-- A reference that fails a check (R155). -/
theorem Dev.refDisq_leaves (d : Dev) {n : Nat} (cause : Nat) (off : Int) (hn : n < 4) : let e := d.refDisq n cause off
    e.refState n = 4 ∧ e.reg (R.clkReffreq n) = d.reg (R.clkReffreq n) ∧ e.flag Blk.clk Src.clkRefDisq := by
  obtain ⟨hs1, hs2, -, -, hf1, hf2, hsw, hfw, hfs⟩ := refStat_ne hn
  unfold Dev.refDisq
  extract_lets d1 d2
  have hstate : d2.refState n = 4 := by
    have hd1 : d1.rf (R.clkRefstat n) 0 3 = 4 := by
      rw [Dev.rf_setFld_lo _ _ _ _ _ _ _ (by decide) (by decide)]
      exact Dev.rf_setFld _ _ _ _ _ (by decide)
    exact (Dev.rf_setReg_ne _ _ _ _ _ hsw).trans hd1
  have hfreq : d2.reg (R.clkReffreq n) = d.reg (R.clkReffreq n) :=
    (Dev.reg_setReg_ne _ _ _ _ hfw).trans ((Dev.reg_setFld_ne _ _ _ _ _ _ hfs).trans (Dev.reg_setFld_ne _ _ _ _ _ _ hfs))
  clear_value d2
  refine ⟨?_, ?_, ?_⟩
  · rw [Dev.refState, Dev.rf, Dev.reg_clkWhy, Dev.raise, Dev.reg_raise_clk _ _ _ _ _ _ hs1 hs2]
    exact hstate
  · rw [Dev.reg_clkWhy, Dev.raise, Dev.reg_raise_clk _ _ _ _ _ _ hf1 hf2, hfreq]
  · rw [Dev.flag, Dev.rf, Dev.reg_clkWhy]
    exact d2.flag_raise _ _ _ _ _ (by decide)

end Sys2Proof.Machine

/-!
PROOFS. References (R154 to R158): the checks of a second, the measurement of four references, the wait to restore, the reference selected.
-/
namespace Sys2Proof.Machine

/-! ## The checks of a second -/

/-- The fractional-frequency offset of reference `n` outside its soft window. -/
def Dev.softFails (d : Dev) (n : Nat) (off : Int) : Bool := decide ((d.lf (R.clkRefwin n) 16 16 : Int) * 1000 < (off.natAbs : Int))

/-- Outside its hard window. -/
def Dev.hardFails (d : Dev) (n : Nat) (off : Int) : Bool := decide ((d.lf (R.clkRefwin n) 0 16 : Int) * 1000 < (off.natAbs : Int))

/-- The offsets of reference `n` with one more. -/
def Dev.offsWith (d : Dev) (n : Nat) (off : Int) : List Int := (off :: (d.refS n).offs).take 64

/-- The device as an offset is recorded, before it is judged. -/
def Dev.checked (d : Dev) (n : Nat) (off : Int) : Dev :=
  let e := ((d.setS (R.clkReffreq n) off).onRef n (fun r => { r with offs := d.offsWith n off })).setFld (R.clkRefstat n) 3 1 (b2n (d.softFails n off))
  if d.softFails n off then e.raise Blk.clk Src.clkRefSoft n (wrapN 32 (off / 1000)) 0 else e

/-- What the checks make of a reference, by its state. -/
theorem Dev.refCheck_eq (d : Dev) (n : Nat) (off : Int) : d.refCheck n off =
    (match d.refState n with
    | 2 =>
      if d.hardFails n off then (d.checked n off).onRef n (fun r => { r with good := 0 })
      else if 1 ≤ (d.refS n).good then
        (((d.checked n off).setRefState n 5).setReg (R.clkRefwtr n) (d.lf (R.clkReftim n) 0 10)).onRef n (fun r => { r with good := 0 })
      else (d.checked n off).onRef n (fun r => { r with good := r.good + 1 })
    | 4 => if d.hardFails n off || driftFails (d.offsWith n off) d.driftWin (d.lf R.clkDrift 0 16) then d.checked n off else (d.checked n off).setRefState n 2
    | 3 =>
      if d.hardFails n off then (d.checked n off).refDisq n 1 off
      else if driftFails (d.offsWith n off) d.driftWin (d.lf R.clkDrift 0 16) then (d.checked n off).refDisq n 2 off else d.checked n off
    | 5 =>
      if d.hardFails n off then (d.checked n off).refDisq n 1 off
      else if driftFails (d.offsWith n off) d.driftWin (d.lf R.clkDrift 0 16) then (d.checked n off).refDisq n 2 off
      else (d.checked n off).setReg (R.clkRefwtr n) ((d.checked n off).reg (R.clkRefwtr n) - 1)
    | _ => d) := rfl

section
variable {d : Dev} {n : Nat} {off : Int}

theorem Dev.refCheck_qualifying (h : d.refState n = 2) : d.refCheck n off =
    if d.hardFails n off then (d.checked n off).onRef n (fun r => { r with good := 0 })
    else if 1 ≤ (d.refS n).good then
      (((d.checked n off).setRefState n 5).setReg (R.clkRefwtr n) (d.lf (R.clkReftim n) 0 10)).onRef n (fun r => { r with good := 0 })
    else (d.checked n off).onRef n (fun r => { r with good := r.good + 1 }) := by
  rw [Dev.refCheck_eq, h]
  rfl

theorem Dev.refCheck_disqualified (h : d.refState n = 4) : d.refCheck n off =
    if d.hardFails n off || driftFails (d.offsWith n off) d.driftWin (d.lf R.clkDrift 0 16) then d.checked n off else (d.checked n off).setRefState n 2 := by
  rw [Dev.refCheck_eq, h]
  rfl

theorem Dev.refCheck_qualified (h : d.refState n = 3) : d.refCheck n off =
    if d.hardFails n off then (d.checked n off).refDisq n 1 off
    else if driftFails (d.offsWith n off) d.driftWin (d.lf R.clkDrift 0 16) then (d.checked n off).refDisq n 2 off else d.checked n off := by
  rw [Dev.refCheck_eq, h]
  rfl

theorem Dev.refCheck_waiting (h : d.refState n = 5) : d.refCheck n off =
    if d.hardFails n off then (d.checked n off).refDisq n 1 off
    else if driftFails (d.offsWith n off) d.driftWin (d.lf R.clkDrift 0 16) then (d.checked n off).refDisq n 2 off
    else (d.checked n off).setReg (R.clkRefwtr n) ((d.checked n off).reg (R.clkRefwtr n) - 1) := by
  rw [Dev.refCheck_eq, h]
  rfl

end

section
variable {d : Dev} {n : Nat} {off : Int} (hn : n < 4)
include hn

theorem Dev.checked_moves : d.refMoves (d.checked n off) n := by
  unfold Dev.checked
  extract_lets e
  have he : d.refMoves e n := ((Dev.refMoves.setFreq d _ hn).trans (.onRef _ _)).trans (.setFld _ _ _ _ hn)
  split
  · exact he.trans (.raiseF _ _ _ _ _ _)
  · exact he

theorem Dev.refCheck_moves : d.refMoves (d.refCheck n off) n := by
  have hc : d.refMoves (d.checked n off) n := Dev.checked_moves hn
  rw [Dev.refCheck_eq]
  split
  · split
    · exact hc.trans (.onRef _ _)
    split
    · exact ((hc.trans (.setFld _ _ _ _ hn)).trans (.setWtr _ _ hn)).trans (.onRef _ _)
    · exact hc.trans (.onRef _ _)
  · split
    · exact hc
    · exact hc.trans (.setFld _ _ _ _ hn)
  · split
    · exact hc.trans (Dev.refDisq_moves _ _ _ hn)
    split
    · exact hc.trans (Dev.refDisq_moves _ _ _ hn)
    · exact hc
  · split
    · exact hc.trans (Dev.refDisq_moves _ _ _ hn)
    split
    · exact hc.trans (Dev.refDisq_moves _ _ _ hn)
    · exact hc.trans (.setWtr _ _ hn)
  · exact .refl d

/-- A recorded offset: the register shows it, and the state, the count of good seconds and the wait stay. -/
theorem Dev.checked_leaves (hlen : d.clk.refs.length = 4) (hoff : off.natAbs < 2 ^ 31) : let e := d.checked n off
    e.reg (R.clkReffreq n) = wrapN 32 off ∧ e.refState n = d.refState n ∧ (e.refS n).good = (d.refS n).good ∧ e.reg (R.clkRefwtr n) = d.reg (R.clkRefwtr n) ∧
      e.clk.refs.length = 4 := by
  obtain ⟨hs1, hs2, hw1, hw2, hf1, hf2, hsw, hfw, hfs⟩ := refStat_ne hn
  let x := ((d.setS (R.clkReffreq n) off).onRef n (fun r => { r with offs := d.offsWith n off })).setFld (R.clkRefstat n) 3 1 (b2n (d.softFails n off))
  have hfreq : x.reg (R.clkReffreq n) = wrapN 32 off := by
    have hset : (d.setS (R.clkReffreq n) off).reg (R.clkReffreq n) = wrapN 32 off := by
      have hclamp : clampI (-2147483648) 2147483647 off = off := by
        rw [clampI]
        omega
      rw [Dev.setS, hclamp, Dev.reg_setReg, Nat.mod_eq_of_lt]
      rw [wrapN]
      omega
    exact (Dev.reg_setFld_ne _ _ _ _ _ _ hfs).trans hset
  have hstate : x.refState n = d.refState n := by
    rw [Dev.refState, Dev.rf_setFld_lo _ _ _ _ _ _ _ (by decide) (by decide)]
    exact Dev.rf_setReg_ne _ _ _ _ _ hfs.symm
  have hgood : (x.refS n).good = (d.refS n).good := by
    have h1 := congrArg ClkRef.good (Dev.refS_onRef (d.setS (R.clkReffreq n) off) (n := n) (fun r => { r with offs := d.offsWith n off }) (by
      show n < d.clk.refs.length
      omega))
    exact h1
  have hwtr : x.reg (R.clkRefwtr n) = d.reg (R.clkRefwtr n) :=
    (Dev.reg_setFld_ne _ _ _ _ _ _ hsw.symm).trans (Dev.reg_setReg_ne _ _ _ _ hfw.symm)
  have hrefs : x.clk.refs.length = 4 := (length_updAt _ _ _).trans hlen
  have he : d.checked n off = if d.softFails n off then x.raise Blk.clk Src.clkRefSoft n (wrapN 32 (off / 1000)) 0 else x := rfl
  clear_value x
  intro e
  rw [show e = _ from he]
  split
  · have hclk : (x.raise Blk.clk Src.clkRefSoft n (wrapN 32 (off / 1000)) 0).clk = x.clk := Dev.raise_clk ..
    refine ⟨?_, ?_, ?_, ?_, ?_⟩
    · rw [Dev.raise, Dev.reg_raise_clk _ _ _ _ _ _ hf1 hf2, hfreq]
    · rw [Dev.refState, Dev.rf, Dev.raise, Dev.reg_raise_clk _ _ _ _ _ _ hs1 hs2]
      exact hstate
    · rw [Dev.refS, hclk]
      exact hgood
    · rw [Dev.raise, Dev.reg_raise_clk _ _ _ _ _ _ hw1 hw2, hwtr]
    · rw [hclk, hrefs]
  · exact ⟨hfreq, hstate, hgood, hwtr, hrefs⟩

end

/-! ## The measurement of four references -/

/-- One reference's turn in the measurements of a second. -/
def Dev.measureOne (all : List (Option Int)) (d : Dev) (k : Nat) : Dev :=
  match all.getD k none with
  | some o => if 2 ≤ d.refState k then d.refCheck k o else d
  | none => d

theorem Dev.measureOne_moves (all : List (Option Int)) (d : Dev) {k : Nat} (hk : k < 4) : d.refMoves (d.measureOne all k) k := by
  unfold Dev.measureOne
  split
  · split
    · exact Dev.refCheck_moves hk
    · exact .refl d
  · exact .refl d

/-- The device after the four turns. -/
def Dev.measureAll (all : List (Option Int)) (d : Dev) : Dev := (List.range 4).foldl (Dev.measureOne all) d

/-- From `d` to `e` only other references' events have happened. -/
def Dev.aside (d e : Dev) (n : Nat) : Prop :=
  e.refState n = d.refState n ∧ e.refS n = d.refS n ∧ e.reg (R.clkReffreq n) = d.reg (R.clkReffreq n) ∧ e.reg (R.clkRefwtr n) = d.reg (R.clkRefwtr n) ∧
    e.clk.refs.length = d.clk.refs.length ∧ (∀ o, o ∈ [R.clkRefwin n, R.clkReftim n, R.clkDrift] → e.lv o = d.lv o) ∧
    ∀ s, s < 32 → d.flag Blk.clk s → e.flag Blk.clk s

theorem Dev.aside_trans {d e f : Dev} {n : Nat} (h : d.aside e n) (k : e.aside f n) : d.aside f n := by
  obtain ⟨h1, h2, h3, h4, h5, h6, h7⟩ := h
  obtain ⟨k1, k2, k3, k4, k5, k6, k7⟩ := k
  exact ⟨k1.trans h1, k2.trans h2, k3.trans h3, k4.trans h4, k5.trans h5, fun o ho => (k6 o ho).trans (h6 o ho), fun s hs hd => k7 s hs (h7 s hs hd)⟩

theorem Dev.aside_refl (d : Dev) (n : Nat) : d.aside d n := ⟨rfl, rfl, rfl, rfl, rfl, fun _ _ => rfl, fun _ _ h => h⟩

/-- The registers of one reference are not another's. -/
theorem refRegs_other {n k : Nat} (hn : n < 4) (hk : k < 4) (hne : n ≠ k) : R.clkRefstat n ∉ refRegs k ∧ R.clkReffreq n ∉ refRegs k ∧ R.clkRefwtr n ∉ refRegs k ∧
    R.clkRefwin n ∉ refRegs k ∧ R.clkReftim n ∉ refRegs k ∧ R.clkDrift ∉ refRegs k := by
  have hstat : R.fltstat Blk.clk = 0x700D0 := rfl
  have hfirst : R.fltfirst Blk.clk = 0x700D4 := rfl
  simp only [refRegs, List.mem_cons, List.not_mem_nil, or_false, hstat, hfirst, R.clkRefstat, R.clkReffreq, R.clkRefwtr, R.clkRefwin, R.clkReftim, R.clkDrift]
  omega

theorem Dev.refMoves.aside {d e : Dev} {n k : Nat} (h : d.refMoves e k) (hn : n < 4) (hk : k < 4) (hne : n ≠ k) : d.aside e n := by
  obtain ⟨hs, hf, hw, hwin, htim, hdr⟩ := refRegs_other hn hk hne
  refine ⟨Dev.refState_of_reg (h.reg hs), h.2.1 n hne, h.reg hf, h.reg hw, h.2.2.1, fun o ho => ?_, h.2.2.2⟩
  simp only [List.mem_cons, List.not_mem_nil, or_false] at ho
  obtain rfl | rfl | rfl := ho
  · exact h.lv hwin
  · exact h.lv htim
  · exact h.lv hdr

/-- The turns of other references. -/
theorem Dev.measure_aside (all : List (Option Int)) {n : Nat} (hn : n < 4) (l : List Nat) (hl : ∀ k ∈ l, k < 4 ∧ n ≠ k) (d : Dev) :
    d.aside (l.foldl (Dev.measureOne all) d) n := by
  induction l generalizing d with
  | nil => exact d.aside_refl n
  | cons k l ih =>
    obtain ⟨hk, hne⟩ := hl k List.mem_cons_self
    exact Dev.aside_trans ((Dev.measureOne_moves all d hk).aside hn hk hne) (ih (fun j hj => hl j (List.mem_cons_of_mem _ hj)) _)

/-- The measurement of reference `n`: its turn, between those of others. -/
theorem Dev.measureAll_split (all : List (Option Int)) (d : Dev) {n : Nat} {o : Int} (hn : n < 4) (hall : all.getD n none = some o) (h2 : 2 ≤ d.refState n) :
    ∃ a, d.aside a n ∧ (a.refCheck n o).aside (d.measureAll all) n := by
  have hsplit : ∃ pre post, List.range 4 = pre ++ n :: post ∧ (∀ k ∈ pre, k < 4 ∧ n ≠ k) ∧ ∀ k ∈ post, k < 4 ∧ n ≠ k := by
    interval_cases n
    · exact ⟨[], [1, 2, 3], by decide, by decide, by decide⟩
    · exact ⟨[0], [2, 3], by decide, by decide, by decide⟩
    · exact ⟨[0, 1], [3], by decide, by decide, by decide⟩
    · exact ⟨[0, 1, 2], [], by decide, by decide, by decide⟩
  obtain ⟨pre, post, hrange, hpre, hpost⟩ := hsplit
  have ha := Dev.measure_aside all hn pre hpre d
  refine ⟨pre.foldl (Dev.measureOne all) d, ha, ?_⟩
  have hone : (pre.foldl (Dev.measureOne all) d).measureOne all n = (pre.foldl (Dev.measureOne all) d).refCheck n o := by
    have h2' : 2 ≤ (pre.foldl (Dev.measureOne all) d).refState n := by
      rw [ha.1]
      exact h2
    simp only [Dev.measureOne, hall, h2', if_true]
  rw [Dev.measureAll, hrange, List.foldl_append, List.foldl_cons, hone]
  exact Dev.measure_aside all hn post hpost _

end Sys2Proof.Machine

/-!
PROOFS. References (R152 to R158): what the checks of a second make of a reference, and which one is selected.
-/
namespace Sys2Proof.Machine

section
variable {z : State} {n c : Nat} (hn : n < 4)

/-- The measurements with an offset of reference `n` alone. -/
def onlyOff (n : Nat) (o : Int) : List (Option Int) := (List.range 4).map (fun k => if k = n then some o else none)

theorem getD_onlyOff (o : Int) (x : Option Int) (hn : n < 4) (hx : n = 2 → x = some o) : (updAt (onlyOff n o) 2 (fun _ => x)).getD n none = some o := by
  rw [getD_updAt]
  have hlen : (onlyOff n o).length = 4 := rfl
  split
  · rename_i h
    exact hx h.1.symm
  · rw [List.getD_eq_getElem?_getD, onlyOff, List.getElem?_map, List.getElem?_range hn]
    simp

/-- The device as the measurements have been taken. -/
def Dev.measured (b : Dev) : Dev := { b with clk := { b.clk with meas := true }, time := { b.time with cyc := 0, adv := 0 } }

theorem refMeasure_eq (offs : List (Option Int)) (d : Dev) : d.refMeasure offs c =
    (((d.atC c).timeNow).measureAll (updAt offs 2 (fun _ => ((d.atC c).timeNow).ptpOffset))).measured := rfl

include hn in
/-- What a second's measurement leaves of reference `n` is what its check leaves of a device that agrees with the one before. -/
theorem refMeasure_checks {d : Dev} {o : Int} (hlen : d.clk.refs.length = 4) (h2 : 2 ≤ d.refState n) (hptp : n = 2 → ((d.atC c).timeNow).ptpOffset = some o) :
    ∃ a, d.aside a n ∧ (a.refCheck n o).aside (d.refMeasure (onlyOff n o) c) n ∧ a.clk.refs.length = 4 := by
  have hnow : d.aside ((d.atC c).timeNow) n := by
    obtain ⟨τ, hτ⟩ := (d.atC c).timeNow_eq
    rw [hτ]
    exact ⟨rfl, rfl, rfl, rfl, rfl, fun _ _ => rfl, fun _ _ h => h⟩
  obtain ⟨a, ha, hb⟩ := Dev.measureAll_split _ ((d.atC c).timeNow) hn (getD_onlyOff o _ hn hptp) (by rw [hnow.1]; exact h2)
  have hlast (b : Dev) : b.aside b.measured n := ⟨rfl, rfl, rfl, rfl, rfl, fun _ _ => rfl, fun _ _ h => h⟩
  have hda := Dev.aside_trans hnow ha
  rw [refMeasure_eq]
  exact ⟨a, hda, Dev.aside_trans hb (hlast _), by rw [hda.2.2.2.2.1, hlen]⟩

theorem hardFails_aside {d a : Dev} (h : d.aside a n) (o : Int) : a.hardFails n o = decide (d.lf (R.clkRefwin n) 0 16 * 1000 < o.natAbs) := by
  have hlf : a.lf (R.clkRefwin n) 0 16 = d.lf (R.clkRefwin n) 0 16 := by
    rw [Dev.lf, h.2.2.2.2.2.1 _ (by simp), Dev.lf]
  rw [Dev.hardFails, hlf, decide_eq_decide]
  omega

theorem drift_aside {d a : Dev} (h : d.aside a n) (o : Int) : driftFails (a.offsWith n o) a.driftWin (a.lf R.clkDrift 0 16) =
    driftFails ((o :: (d.refS n).offs).take 64) d.driftWin (d.lf R.clkDrift 0 16) := by
  have hlv : a.lv R.clkDrift = d.lv R.clkDrift := h.2.2.2.2.2.1 _ (by simp)
  rw [Dev.offsWith, h.2.1, Dev.driftWin, Dev.lf, Dev.lf, hlv, Dev.driftWin, Dev.lf, Dev.lf]

/-- What the check of a second with offset `o` makes of reference `n`, from `d` to `e`, in the cases of R154 and R155. -/
structure Dev.secondChecked (d e : Dev) (n : Nat) (o : Int) : Prop where
  freq : d.refState n ∈ [2, 3, 4, 5] → e.reg (R.clkReffreq n) = wrapN 32 o
  first : d.refState n = 2 → d.hardFails n o = false → (d.refS n).good = 0 → e.refState n = 2 ∧ (e.refS n).good = 1
  second : d.refState n = 2 → d.hardFails n o = false → 1 ≤ (d.refS n).good → e.refState n = 5 ∧ e.reg (R.clkRefwtr n) = d.lf (R.clkReftim n) 0 10
  restart : d.refState n = 2 → d.hardFails n o = true → e.refState n = 2 ∧ (e.refS n).good = 0
  again : d.refState n = 4 → d.hardFails n o = false → driftFails (d.offsWith n o) d.driftWin (d.lf R.clkDrift 0 16) = false → e.refState n = 2
  remains : d.refState n = 4 → d.hardFails n o = true ∨ driftFails (d.offsWith n o) d.driftWin (d.lf R.clkDrift 0 16) = true → e.refState n = 4
  counts : d.refState n = 5 → d.hardFails n o = false → driftFails (d.offsWith n o) d.driftWin (d.lf R.clkDrift 0 16) = false →
    e.refState n = 5 ∧ e.reg (R.clkRefwtr n) = d.reg (R.clkRefwtr n) - 1
  fails : d.refState n = 3 → d.hardFails n o = true → e.refState n = 4 ∧ e.flag Blk.clk Src.clkRefDisq

/-- What other references' events leave between is no matter. -/
theorem secondChecked_aside {d a e b : Dev} {o : Int} (hda : d.aside a n) (h : a.secondChecked e n o) (heb : e.aside b n) : d.secondChecked b n o := by
  have hhard : a.hardFails n o = d.hardFails n o := by rw [hardFails_aside hda, hardFails_aside (Dev.aside_refl d n)]
  have hdrift := drift_aside hda o
  obtain ⟨hs, hr, -, hw, -, hl, -⟩ := hda
  obtain ⟨ks, kr, kf, kw, -, -, kg⟩ := heb
  have hlf : a.lf (R.clkReftim n) 0 10 = d.lf (R.clkReftim n) 0 10 := by rw [Dev.lf, hl _ (by simp), Dev.lf]
  obtain ⟨hfreq, hfirst, hsecond, hrestart, hagain, hremains, hcounts, hfails⟩ := h
  rw [hs] at hfreq hfirst hsecond hrestart hagain hremains hcounts hfails
  rw [hhard] at hfirst hsecond hrestart hagain hremains hcounts hfails
  rw [hdrift] at hagain hremains hcounts
  rw [hr, ← ks, ← kr] at hfirst
  rw [hr, hlf, ← ks, ← kw] at hsecond
  rw [hw, ← ks, ← kw] at hcounts
  rw [← ks, ← kr] at hrestart
  rw [← ks] at hagain hremains hfails
  exact ⟨fun h => kf.trans (hfreq h), hfirst, hsecond, hrestart, hagain, hremains, hcounts, fun h3 hh => (hfails h3 hh).imp_right (kg _ (by decide))⟩

include hn in
/-- The check records the offset as the reference's frequency in every state that measures. -/
theorem refCheck_freq {a : Dev} {o : Int} (hlen : a.clk.refs.length = 4) (ho : o.natAbs < 2 ^ 31) (hst : a.refState n ∈ [2, 3, 4, 5]) :
    (a.refCheck n o).reg (R.clkReffreq n) = wrapN 32 o := by
  obtain ⟨-, -, -, -, -, -, -, hfw, hfs⟩ := refStat_ne hn
  obtain ⟨hfreq, -⟩ := Dev.checked_leaves hn hlen ho
  have hdisq (cause : Nat) : ((a.checked n o).refDisq n cause o).reg (R.clkReffreq n) = wrapN 32 o := ((a.checked n o).refDisq_leaves cause o hn).2.1.trans hfreq
  simp only [List.mem_cons, List.not_mem_nil, or_false] at hst
  obtain h2 | h3 | h4 | h5 := hst
  · rw [Dev.refCheck_qualifying h2]
    split
    · exact hfreq
    split
    · exact (Dev.reg_setReg_ne _ _ _ _ hfw).trans ((Dev.reg_setFld_ne _ _ _ _ _ _ hfs).trans hfreq)
    · exact hfreq
  · rw [Dev.refCheck_qualified h3]
    split
    · exact hdisq 1
    split
    · exact hdisq 2
    · exact hfreq
  · rw [Dev.refCheck_disqualified h4]
    split
    · exact hfreq
    · exact (Dev.reg_setFld_ne _ _ _ _ _ _ hfs).trans hfreq
  · rw [Dev.refCheck_waiting h5]
    split
    · exact hdisq 1
    split
    · exact hdisq 2
    · exact (Dev.reg_setReg_ne _ _ _ _ hfw).trans hfreq

include hn in
/-- The check of a second on reference `n` does what R154 and R155 say. -/
theorem secondChecked_refCheck {a : Dev} {o : Int} (hlen : a.clk.refs.length = 4) (ho : o.natAbs < 2 ^ 31) : a.secondChecked (a.refCheck n o) n o := by
  obtain ⟨hs1, hs2, hw1, hw2, hf1, hf2, hsw, hfw, hfs⟩ := refStat_ne hn
  obtain ⟨hfreq, hstate, hgood, hwtr, hrefs⟩ := Dev.checked_leaves hn hlen ho
  refine ⟨refCheck_freq hn hlen ho, fun h2 hh hg => ?_, fun h2 hh hg => ?_, fun h2 hh => ?_, fun h4 hh hd => ?_, fun h4 hh => ?_, fun h5 hh hd => ?_, fun h3 hh => ?_⟩
  · rw [Dev.refCheck_qualifying h2, hh, if_neg (by decide), if_neg (by omega)]
    refine ⟨hstate.trans h2, ?_⟩
    rw [Dev.refS_onRef _ _ (by omega)]
    show ((a.checked n o).refS n).good + 1 = 1
    omega
  · rw [Dev.refCheck_qualifying h2, hh, if_neg (by decide), if_pos hg]
    refine ⟨(Dev.rf_setReg_ne _ _ _ _ _ hsw).trans (Dev.rf_setFld _ _ _ _ _ (by decide)), (Dev.reg_setReg ..).trans (Nat.mod_eq_of_lt ?_)⟩
    have hlt := Nat.mod_lt (a.lv (R.clkReftim n) / 2 ^ 0) (show 0 < 2 ^ 10 by decide)
    exact lt_trans hlt (by decide)
  · rw [Dev.refCheck_qualifying h2, if_pos hh]
    refine ⟨hstate.trans h2, ?_⟩
    rw [Dev.refS_onRef _ _ (by omega)]
  · rw [Dev.refCheck_disqualified h4, hh, hd, if_neg (by decide)]
    exact Dev.rf_setFld _ _ _ _ _ (by decide)
  · rw [Dev.refCheck_disqualified h4, if_pos ((Bool.or_eq_true ..).mpr hh)]
    exact hstate.trans h4
  · rw [Dev.refCheck_waiting h5, hh, hd, if_neg (by decide), if_neg (by decide)]
    refine ⟨(Dev.rf_setReg_ne _ _ _ _ _ hsw).trans (hstate.trans h5), ?_⟩
    have hlt := a.reg_lt (R.clkRefwtr n)
    rw [hwtr, Dev.reg_setReg, Nat.mod_eq_of_lt (by omega)]
  · rw [Dev.refCheck_qualified h3, if_pos hh]
    obtain ⟨h4, -, hflag⟩ := (a.checked n o).refDisq_leaves 1 o hn
    exact ⟨h4, hflag⟩

include hn in
/-- What a second's measurement of an offset makes of reference `n`. -/
theorem refMeasure_cases {d : Dev} {o : Int} (hlen : d.clk.refs.length = 4) (ho : o.natAbs < 2 ^ 31) (h2 : 2 ≤ d.refState n)
    (hptp : n = 2 → ((d.atC c).timeNow).ptpOffset = some o) : d.secondChecked (d.refMeasure (onlyOff n o) c) n o := by
  obtain ⟨a, ha, hb, hal⟩ := refMeasure_checks (c := c) hn hlen h2 hptp
  exact secondChecked_aside ha (secondChecked_refCheck hn hal ho) hb

end

/-! ## Selection -/

/-- What the choice of R158 gives is QUALIFIED, and one of the four. -/
theorem clkChoice_qualified (d : Dev) {m : Nat} (h : d.clkChoice = some m) : m < 4 ∧ d.refState m = 3 := by
  have hcand (l : List Nat) (hl : ∀ k ∈ l, k ∈ (List.range 3).filter (fun n => d.refState n == 3)) (hm : m ∈ l) : m < 4 ∧ d.refState m = 3 := by
    have hmem := List.mem_filter.mp (hl m hm)
    have hlt := List.mem_range.mp hmem.1
    exact ⟨by omega, beq_iff_eq.mp hmem.2⟩
  unfold Dev.clkChoice at h
  extract_lets follow ok cand cand' keep key at h
  split at h
  · rename_i hok
    obtain rfl := Option.some.inj h
    simp only [ok, Bool.and_eq_true, beq_iff_eq] at hok
    exact ⟨by decide, hok.2⟩
  split at h
  · exact absurd h (by simp)
  have hsub : ∀ k ∈ cand', k ∈ (List.range 3).filter (fun n => d.refState n == 3) := by
    intro k hk
    simp only [cand'] at hk
    split at hk
    · exact (List.mem_filter.mp hk).1
    · exact hk
  split at h
  · rename_i hkeep
    simp only [keep, h, Bool.and_eq_true] at hkeep
    exact hcand cand' hsub (List.contains_iff_mem.mp hkeep.1)
  · have hmem : m ∈ sortBy key cand' := List.mem_of_head? h
    exact hcand cand' hsub ((mem_sortBy key m cand').mp hmem)

/-- A change of the frequency word leaves other registers. -/
theorem Dev.reg_setFreq (d : Dev) (w : Int) {o : Nat} (ho : o ≠ R.clkFreq) : (d.setFreq w).reg o = d.reg o := by
  have hsyn : (d.synTo (4 * d.cycle / 5)).reg o = d.reg o := by
    unfold Dev.synTo
    extract_lets n w y d1
    split
    · rfl
    · rfl
  rw [Dev.setFreq, Dev.setS, Dev.reg_setReg_ne _ _ _ _ ho, hsyn]

theorem Dev.clkSel_congr {d e : Dev} (h : e.reg R.clkStat = d.reg R.clkStat) : e.clkSel = d.clkSel := by
  rw [Dev.clkSel, Dev.rf, Dev.rf, h, Dev.clkSel, Dev.rf, Dev.rf]

/-- With CLK.STAT's bit for a selection clear, none is selected. -/
theorem Dev.clkSel_none {d : Dev} (h : d.rf R.clkStat 6 1 = 0) : d.clkSel = none := by
  rw [Dev.clkSel, h, if_neg (by decide)]

/-- Entering holdover leaves no reference selected. -/
theorem Dev.holdEnter_clkSel (d : Dev) (cause : Nat) : (d.holdEnter cause).clkSel = none := by
  unfold Dev.holdEnter
  extract_lets guard base
  have hbase : base.rf R.clkStat 6 1 = 0 := by
    rw [Dev.rf_setReg_ne _ _ _ _ _ (by decide), Dev.rf_setFld_lo _ _ _ _ _ _ _ (by decide) (by decide), Dev.rf_setFld _ _ _ _ _ (by decide)]
    rfl
  clear_value base
  split
  · refine Dev.clkSel_none ?_
    rw [Dev.rf, Dev.reg_setFreq _ _ (by decide)]
    exact (Dev.rf_setFld_hi _ _ _ _ _ _ _ (by decide) (by decide)).trans hbase
  · rename_i f n _
    extract_lets short d1 src d2
    refine Dev.clkSel_none ?_
    have h1 : d1.rf R.clkStat 6 1 = 0 := by
      rw [Dev.rf, Dev.reg_setFreq _ _ (by decide), Dev.setS, Dev.reg_setReg_ne _ _ _ _ (by decide)]
      exact (Dev.rf_setFld_lo _ _ _ _ _ _ _ (by decide) (by decide)).trans ((Dev.rf_setFld_hi _ _ _ _ _ _ _ (by decide) (by decide)).trans hbase)
    have h2 : d2.rf R.clkStat 6 1 = 0 := h1
    clear_value d2
    rw [Dev.rf_raise_ne _ _ _ _ _ _ _ _ (by decide) (by decide), Dev.rf_bump]
    exact h2

/-- The device as a reference becomes the selected one, before its counters and events. -/
theorem Dev.clkTake_keeps (d : Dev) (m : Nat) (build : Bool) :
    let d1 := (((d.setFld R.clkStat 6 1 1).setFld R.clkStat 4 2 m).setFld R.clkStat 0 2 1).setFld R.clkStat 7 2 0
    d1.keeps (d.clkTake m build) [R.clkHoldtime, R.clkRefphoff m, R.fltstat Blk.clk, R.fltfirst Blk.clk] := by
  intro e1
  unfold Dev.clkTake
  extract_lets old b d2 c d3 d4
  clear_value e1
  have h2 : e1.keeps d2 [R.clkHoldtime, R.clkRefphoff m, R.fltstat Blk.clk, R.fltfirst Blk.clk] :=
    ((Dev.keeps_setReg e1 _ _ (by simp)).trans (Dev.keeps_setReg _ _ _ (by simp))).trans (Dev.keeps_bump _ _ _ _)
  have h3 : d2.keeps d3 [R.clkHoldtime, R.clkRefphoff m, R.fltstat Blk.clk, R.fltfirst Blk.clk] := Dev.keeps_of_regs ⟨rfl, rfl, rfl⟩ _
  have h4 : d3.keeps d4 [R.clkHoldtime, R.clkRefphoff m, R.fltstat Blk.clk, R.fltfirst Blk.clk] := by
    simp only [d4]
    split
    · exact (d3.clearFlt_leaves Blk.clk (2 ^ Src.clkHoldLimit)).2.2.mono (by simp)
    · exact Dev.keeps_refl _ _
  exact (h2.trans (h3.trans h4)).trans (Dev.keeps_raise _ _ _ _ _ _ (by simp) (by simp))

/-- A reference taken is the one selected, and its state is as it was. -/
theorem Dev.clkTake_clkSel (d : Dev) {m : Nat} (build : Bool) (hm : m < 4) :
    (d.clkTake m build).clkSel = some m ∧ (d.clkTake m build).refState m = d.refState m := by
  have hkeeps := d.clkTake_keeps m build
  have hstat : R.clkStat ∉ [R.clkHoldtime, R.clkRefphoff m, R.fltstat Blk.clk, R.fltfirst Blk.clk] := by interval_cases m <;> decide
  have href : R.clkRefstat m ∉ [R.clkHoldtime, R.clkRefphoff m, R.fltstat Blk.clk, R.fltfirst Blk.clk] := by interval_cases m <;> decide
  have hne : R.clkRefstat m ≠ R.clkStat := by interval_cases m <;> decide
  constructor
  · rw [Dev.clkSel_congr (hkeeps _ hstat).1, Dev.clkSel]
    have h6 : ((((d.setFld R.clkStat 6 1 1).setFld R.clkStat 4 2 m).setFld R.clkStat 0 2 1).setFld R.clkStat 7 2 0).rf R.clkStat 6 1 = 1 := by
      rw [Dev.rf_setFld_lo _ _ _ _ _ _ _ (by decide) (by decide), Dev.rf_setFld_hi _ _ _ _ _ _ _ (by decide) (by decide),
        Dev.rf_setFld_hi _ _ _ _ _ _ _ (by decide) (by decide), Dev.rf_setFld _ _ _ _ _ (by decide)]
      rfl
    have h4 : ((((d.setFld R.clkStat 6 1 1).setFld R.clkStat 4 2 m).setFld R.clkStat 0 2 1).setFld R.clkStat 7 2 0).rf R.clkStat 4 2 = m := by
      rw [Dev.rf_setFld_lo _ _ _ _ _ _ _ (by decide) (by decide), Dev.rf_setFld_hi _ _ _ _ _ _ _ (by decide) (by decide),
        Dev.rf_setFld _ _ _ _ _ (by decide)]
      exact Nat.mod_eq_of_lt hm
    rw [h6, h4, if_pos rfl]
  · refine Dev.refState_of_reg ((hkeeps _ href).1.trans ?_)
    rw [Dev.reg_setFld_ne _ _ _ _ _ _ hne, Dev.reg_setFld_ne _ _ _ _ _ _ hne, Dev.reg_setFld_ne _ _ _ _ _ _ hne, Dev.reg_setFld_ne _ _ _ _ _ _ hne]

/-- Once the selection has been made, the reference selected is QUALIFIED. -/
theorem Dev.clkSelect_qualified (d : Dev) (cause : Nat) (build : Bool) {m : Nat} (h : (d.clkSelect cause build).clkSel = some m) :
    (d.clkSelect cause build).refState m = 3 := by
  revert h
  unfold Dev.clkSelect
  simp only
  split
  · rename_i hsame
    split
    · intro h
      rw [Dev.holdEnter_clkSel] at h
      exact absurd h (by simp)
    · exact fun h => (clkChoice_qualified d (hsame.trans h)).2
  · cases hk : d.clkChoice with
    | none =>
      intro h
      rw [Dev.holdEnter_clkSel] at h
      exact absurd h (by simp)
    | some k =>
      intro h
      obtain ⟨hlt, hq⟩ := clkChoice_qualified d hk
      obtain ⟨hsel, hst⟩ := d.clkTake_clkSel build hlt
      obtain rfl : k = m := Option.some.inj (hsel.symm.trans h)
      exact hst.trans hq

/-! ## The rows -/

/-- A wait to restore that is over (R154). -/
theorem Dev.wtrDone_leaves (d : Dev) {n : Nat} (hn : n < 4) (h5 : d.refState n = 5) (h0 : d.reg (R.clkRefwtr n) = 0) :
    (d.wtrDone n).refState n = 3 ∧ (d.wtrDone n).flag Blk.clk Src.clkRestored := by
  obtain ⟨hs1, hs2, -⟩ := refStat_ne hn
  rw [Dev.wtrDone, if_pos ⟨hn, h5, h0⟩]
  refine ⟨?_, Dev.flag_raise _ _ _ _ _ _ (by decide)⟩
  rw [Dev.refState, Dev.rf, Dev.raise, Dev.reg_raise_clk _ _ _ _ _ _ hs1 hs2]
  exact Dev.rf_setFld _ _ _ _ _ (by decide)

/-- A row of the tick that only moves the cycle on. -/
theorem exec_tickRow_still {z : State} {i : Instr} {f : Dev → Dev} {k : Nat} (hi : exec i z = z.tickRow (fun s => s.onDev f)) (hrun : z.Running)
    (h : f z.sys.dev = z.sys.dev.atC k) : exec i z = .next (z.onDev (fun d => d.atC k)) := by
  rw [exec_tickRow hi hrun]
  show Host.Outcome.next (z.put { z.sys with dev := f z.sys.dev }) = _
  rw [h]
  rfl

/-- A reference in LOS or OFF loses nothing more. -/
theorem Dev.refLose_idle {d : Dev} {n : Nat} (h : d.refState n < 2) : d.refLose n = d := by
  rw [Dev.refLose, if_pos (by omega)]

/-- A configuration under a force, or of the PTP virtual reference without PTPOK, is a loss. -/
theorem Dev.refConfig_forced {d : Dev} {n : Nat} (hen : bit (d.lv (R.clkRefcfg n)) 7 = true) (h2 : 2 ≤ d.refState n)
    (h : bit (d.lv R.clkForce) n = true ∨ (n = 2 ∧ d.lf R.clkCtrl 8 1 = 0)) : d.refConfig n =
      (d.onRef n (fun r => { r with en := true, typ := d.lv (R.clkRefcfg n) % 8 })).refLose n := by
  have hforced : (bit (d.lv R.clkForce) n || (n == 2 && d.lf R.clkCtrl 8 1 == 0)) = true := by
    simp only [Bool.or_eq_true, Bool.and_eq_true, beq_iff_eq]
    exact h
  have hne : (d.refState n == 0) = false := beq_false_of_ne (by omega)
  simp [Dev.refConfig, hen, hne, hforced]

theorem Dev.refConfig_los {d : Dev} {n : Nat} (hn : n < 4) (hlen : d.clk.refs.length = 4) (hen : bit (d.lv (R.clkRefcfg n)) 7 = true) (h2 : 2 ≤ d.refState n)
    (h : bit (d.lv R.clkForce) n = true ∨ (n = 2 ∧ d.lf R.clkCtrl 8 1 = 0)) : (d.refConfig n).refState n = 1 := by
  rw [Dev.refConfig_forced hen h2 h]
  have hlen' (f : ClkRef → ClkRef) : (d.onRef n f).clk.refs.length = 4 := (length_updAt ..).trans hlen
  have h2' (f : ClkRef → ClkRef) : 2 ≤ (d.onRef n f).refState n := h2
  have hlose := Dev.refLose_leaves (d.onRef n (fun r => { r with en := true, typ := d.lv (R.clkRefcfg n) % 8 })) hn (hlen' _) (h2' _)
  simp only at hlose
  exact hlose.1

/-- Once an interval is evaluated, the reference selected is QUALIFIED. -/
theorem Dev.clkEval_qualified (d : Dev) {m : Nat} (h : d.clkEval.clkSel = some m) : d.clkEval.refState m = 3 := by
  unfold Dev.clkEval at h ⊢
  generalize (if (forN 4 (fun n d => d.wtrDone n) d).clk.meas then
    (refPairs.foldl Dev.refDisagree (forN 4 (fun n d => d.wtrDone n) d)).disagFlags else forN 4 (fun n d => d.wtrDone n) d) = e at h ⊢
  generalize (if e.clkRole.1.clk.why = 0 then 5 else 0) = cause at h ⊢
  exact Dev.clkSelect_qualified _ _ _ h

/-- Settles O46: row by row. -/
theorem referencesAreQualified : Obligations.ReferencesAreQualified := by
  intro z n c hrun hn hlen d
  have hlen' : (d.atC c).clk.refs.length = 4 := hlen
  refine ⟨fun h2 hptp => ?_, fun h => ?_, fun h1 hforce hptp hmir => ?_, fun h => ?_, fun o ho hptp => ?_, fun hen h2 hcond => ?_, fun m hm => ?_, fun h5 h0 => ?_,
    fun h => ?_⟩
  · refine leads_of_tickRow rfl hrun ?_
    have hcond : ¬(4 ≤ n ∨ (n = 2 ∧ (d.atC c).lf R.clkCtrl 8 1 = 1)) := fun hc => hc.elim (by omega) hptp
    rw [Dev.refLosDetect, if_neg hcond]
    exact (d.atC c).refLose_leaves hn hlen' h2
  · refine exec_tickRow_still rfl hrun ?_
    rw [Dev.refLosDetect]
    split
    · rfl
    · rename_i hcond
      exact Dev.refLose_idle (h.resolve_right (fun hc => hcond (.inr hc)))
  · have hcond : n < 4 ∧ (d.atC c).refState n = 1 ∧ bit ((d.atC c).lv R.clkForce) n = false ∧ ¬(n = 2 ∧ (d.atC c).lf R.clkCtrl 8 1 = 0)
        ∧ ¬(n = 3 ∧ (d.atC c).rf R.mirStat 0 1 = 0) :=
      ⟨hn, h1, hforce, fun hc => absurd ((hptp hc.1).symm.trans hc.2) (by decide), fun hc => absurd ((hmir hc.1).symm.trans hc.2) (by decide)⟩
    refine leads_of_tickRow rfl hrun ?_
    rw [Dev.refActivity, if_pos hcond]
    refine ⟨Dev.rf_setFld _ _ _ _ _ (by decide), ?_, ?_⟩
    · rw [Dev.refS_onRef _ _ (show n < ((d.atC c).setRefState n 2).clk.refs.length from hn.trans_eq hlen'.symm)]
    · exact Dev.keeps_setFld (d.atC c) _ _ _ _ (by simp)
  · refine exec_tickRow_still rfl hrun ?_
    rw [Dev.refActivity, if_neg ?_]
    rintro ⟨-, h1, h2, -⟩
    exact h.elim (fun hne => hne h1) (fun hb => Bool.false_ne_true (h2.symm.trans hb))
  · intro offs hard drift then_
    have hsoft (h : ¬hard) : d.hardFails n o = false := by
      rw [hardFails_aside (Dev.aside_refl d n)]
      exact decide_eq_false h
    have hhard (h : hard) : d.hardFails n o = true := by
      rw [hardFails_aside (Dev.aside_refl d n)]
      exact decide_eq_true h
    have hcase {k : Nat} (hk : d.refState n = k) (hmem : k ∈ [2, 3, 4, 5]) {p : Dev → Prop} (hp : d.secondChecked (d.refMeasure offs c) n o → p (d.refMeasure offs c)) :
        then_ p := by
      have h2 : 2 ≤ k := by fin_cases hmem <;> decide
      have hall := refMeasure_cases (c := c) hn hlen ho (hk ▸ h2) hptp
      exact leads_of_tickRow rfl hrun ⟨hall.freq (hk ▸ hmem), hp hall⟩
    exact ⟨fun h hh hg => hcase h (by decide) (fun k => k.first h (hsoft hh) hg),
      fun h hh hg => hcase h (by decide) (fun k => k.second h (hsoft hh) hg),
      fun h hh => hcase h (by decide) (fun k => k.restart h (hhard hh)),
      fun h hh hd => hcase h (by decide) (fun k => k.again h (hsoft hh) hd),
      fun h hh => hcase h (by decide) (fun k => k.remains h (hh.imp_left hhard)),
      fun h hh hd => hcase h (by decide) (fun k => k.counts h (hsoft hh) hd),
      fun h hh => hcase h (by decide) (fun k => k.fails h (hhard hh))⟩
  · exact Dev.refConfig_los hn hlen hen h2 hcond
  · exact d.clkEval_qualified hm
  · refine leads_of_tickRow rfl hrun ?_
    exact (d.atC c).wtrDone_leaves hn h5 h0
  · refine exec_tickRow_still rfl hrun ?_
    rw [Dev.wtrExpire, Dev.wtrDone, if_neg]
    rintro ⟨-, h5, h0⟩
    exact h.elim (fun hne => hne h5) (fun hne => hne h0)

end Sys2Proof.Machine

/-!
PROOFS. The DPLL's comparison, the oscillator's step, the frequency history and holdover (R148 to R162).
-/
namespace Sys2Proof.Machine

/-! ## The frequency word -/

theorem reg_setS (d : Dev) (o : Nat) (x : Int) : (d.setS o x).reg o = wrapN 32 (clampI (-2147483648) 2147483647 x) := by
  refine (Dev.reg_setReg ..).trans (Nat.mod_eq_of_lt ?_)
  rw [wrapN]
  omega

/-- Within the range of a signed word a signed register holds what is written. -/
theorem sreg_setS (d : Dev) (o : Nat) {x : Int} (h : -2147483648 ≤ x) (h' : x ≤ 2147483647) : (d.setS o x).sreg o = x := by
  have hclamp : clampI (-2147483648) 2147483647 x = x := by
    rw [clampI]
    omega
  rw [Dev.sreg, reg_setS, hclamp]
  exact sgn_wrapN (by decide) (by norm_num; omega) (by norm_num; omega)

/-- A new frequency word brings the oscillator to its cycle; of the loop's state nothing else moves. -/
theorem Dev.synTo_clk (d : Dev) (k : Nat) : ∃ y, (d.synTo k).clk = { d.clk with syn := y } := by
  unfold Dev.synTo
  extract_lets n w sy y sc d1
  have h1 : d1.clk = { d.clk with syn := y } := rfl
  clear_value d1
  split
  · exact ⟨_, h1⟩
  · exact ⟨_, (Dev.bump_clk ..).trans h1⟩

theorem Dev.setFreq_clk (d : Dev) (w : Int) : ∃ y, (d.setFreq w).clk = { d.clk with syn := y } := by
  rw [Dev.setFreq, Dev.setS, Dev.setReg_clk]
  exact d.synTo_clk _

theorem Dev.sreg_setFreq (d : Dev) {w : Int} (h : -2147483648 ≤ w) (h' : w ≤ 2147483647) : (d.setFreq w).sreg R.clkFreq = w := sreg_setS _ _ h h'

/-! ## A comparison -/

theorem Dev.reg_withClk (d : Dev) (x : Clk) (o : Nat) : (d.withClk x).reg o = d.reg o := rfl

theorem Dev.rf_withClk (d : Dev) (x : Clk) (o lo w : Nat) : (d.withClk x).rf o lo w = d.rf o lo w := rfl

theorem Dev.clk_withClk (d : Dev) (x : Clk) : (d.withClk x).clk = x := rfl

/-- The offset taken at the first comparison after a switch with build-out. -/
def Dev.offTaken (d : Dev) (n : Nat) (p : Int) : Dev :=
  if d.clk.takeOff then { d.setS (R.clkRefphoff n) p with clk := { (d.setS (R.clkRefphoff n) p).clk with takeOff := false } } else d

/-- The word of a comparison: the loop's with the pull-in term, within 200 ppm. -/
def Dev.loopWord (d a : Dev) (n : Nat) (err : Int) : Int :=
  clampI (-200000000) 200000000 (Config.dpllLoop (d.dpllBw n) err d.clk.loopF a.draw.2 + d.pullTerm n err)

/-- The device with the error and the word of a comparison. -/
def Dev.compared (d a : Dev) (n : Nat) (err : Int) : Dev := (a.draw.1.setS R.clkPherr err).setFreq (d.loopWord a n err)

/-- The counts of comparisons inside the window and far outside it, and the loop's sums. -/
def Clk.judge (x : Clk) (loop word : Int) (ins out : Bool) : Clk :=
  { x with
    loopF := loop
    sum := x.sum + word
    num := x.num + 1
    inside := min 256 (if ins then x.inside + 1 else 0)
    outside := min 4 (if out then x.outside + 1 else 0) }

/-- Whether the error is inside the window of the reference, and whether it is beyond four windows. -/
def Dev.insideWin (d : Dev) (n : Nat) (err : Int) : Bool := decide ((err.natAbs : Int) ≤ d.lf (R.clkReflock n) 0 16 * 1000)
def Dev.outsideWin (d : Dev) (n : Nat) (err : Int) : Bool := decide (4 * ((d.lf (R.clkReflock n) 0 16 : Int) * 1000) < (err.natAbs : Int))

/-- The device with the counts moved. -/
def Dev.judged (d a : Dev) (n : Nat) (err : Int) : Dev :=
  (d.compared a n err).withClk ((d.compared a n err).clk.judge (Config.dpllLoop (d.dpllBw n) err d.clk.loopF a.draw.2) (d.loopWord a n err)
    (d.insideWin n err) (d.outsideWin n err))

/-- The loop locks. -/
def Dev.lockGained (b : Dev) : Dev := ((b.setFld R.clkStat 0 2 2).setReg R.clkHoldpred 0).withClk { b.clk with outside := 0, sum := 0, num := 0, pull := false }

/-- The loop loses its lock. -/
def Dev.lockLost (b : Dev) (n : Nat) : Dev :=
  ((b.setFld R.clkStat 0 2 1).withClk { b.clk with inside := 0, outside := 0 }).raise Blk.clk Src.clkLockLost n (b.reg R.clkPherr) 0

/-- The runs of comparisons inside the window, and far outside it. -/
def Dev.insideRun (d a : Dev) (n : Nat) (err : Int) : Nat := if d.insideWin n err then (d.compared a n err).clk.inside + 1 else 0
def Dev.outsideRun (d a : Dev) (n : Nat) (err : Int) : Nat := if d.outsideWin n err then (d.compared a n err).clk.outside + 1 else 0

/-- A comparison of the selected reference, from the device with its offset taken. -/
def Dev.loopEnd (d a : Dev) (n : Nat) (err : Int) : Dev :=
  if d.clkMode = 1 ∧ max 1 (d.lf (R.clkReflock n) 16 8) ≤ d.insideRun a n err then (d.judged a n err).lockGained
  else if d.clkMode = 2 ∧ 4 ≤ d.outsideRun a n err then (d.judged a n err).lockLost n
  else d.judged a n err

theorem Dev.dpllCompare_eq {d0 : Dev} {n c : Nat} {ph : Int} (hsel : d0.clkSel = some n) (hst : d0.refState n = 3) (hmode : d0.clkMode = 1 ∨ d0.clkMode = 2) :
    d0.dpllCompare n ph c = (d0.atC c).loopEnd ((d0.atC c).offTaken n ((d0.atC c).refPhase n ph)) n
      ((d0.atC c).refPhase n ph - ((d0.atC c).offTaken n ((d0.atC c).refPhase n ph)).sreg (R.clkRefphoff n)) := by
  have hcond : (d0.atC c).clkSel = some n ∧ ((d0.atC c).clkMode = 1 ∨ (d0.atC c).clkMode = 2) ∧ (d0.atC c).refState n = 3 := ⟨hsel, hmode, hst⟩
  unfold Dev.dpllCompare
  simp only [if_pos hcond]
  simp only [Dev.loopEnd, Dev.insideRun, Dev.outsideRun, Dev.judged, Clk.judge, Dev.insideWin, Dev.outsideWin, decide_eq_true_eq]
  rfl

section
variable (d a : Dev) (n : Nat) (err : Int)

theorem loopWord_mem : -200000000 ≤ d.loopWord a n err ∧ d.loopWord a n err ≤ 200000000 := by
  rw [Dev.loopWord, clampI]
  omega

/-- What a comparison leaves: the error, the word, and the loop's state but for the oscillator's. -/
theorem compared_leaves : let b := d.compared a n err
    b.reg R.clkPherr = wrapN 32 (clampI (-2147483648) 2147483647 err) ∧ b.sreg R.clkFreq = d.loopWord a n err ∧
      (∀ o, o ≠ R.clkPherr → o ≠ R.clkFreq → b.reg o = a.reg o) ∧ ∃ y, b.clk = { a.clk with syn := y } := by
  obtain ⟨hlo, hhi⟩ := loopWord_mem d a n err
  refine ⟨?_, Dev.sreg_setFreq _ (by omega) (by omega), fun o h1 h2 => ?_, Dev.setFreq_clk _ _⟩
  · exact (Dev.reg_setFreq _ _ (by decide)).trans (reg_setS _ _ _)
  · exact (Dev.reg_setFreq _ _ h2).trans (Dev.reg_setReg_ne _ _ _ _ h1)

/-- The registers that neither a lock gained nor a lock lost moves. -/
theorem loopEnd_keeps {o : Nat} (ho : o ∉ [R.clkStat, R.clkHoldpred, R.fltstat Blk.clk, R.fltfirst Blk.clk]) :
    (d.loopEnd a n err).reg o = (d.compared a n err).reg o := by
  simp only [List.mem_cons, List.not_mem_nil, or_false, not_or] at ho
  obtain ⟨h1, h2, h3, h4⟩ := ho
  have hb : (d.judged a n err).reg o = (d.compared a n err).reg o := rfl
  rw [← hb, Dev.loopEnd]
  generalize d.judged a n err = b
  split
  · rw [Dev.lockGained, Dev.reg_withClk, Dev.reg_setReg_ne _ _ _ _ h2, Dev.reg_setFld_ne _ _ _ _ _ _ h1]
  split
  · rw [Dev.lockLost, Dev.raise, Dev.reg_raise_clk _ _ _ _ _ _ h3 h4, Dev.reg_withClk, Dev.reg_setFld_ne _ _ _ _ _ _ h1]
  · rfl

/-- The selection stays through a comparison, and a taken offset stays taken. -/
theorem loopEnd_stays : (d.loopEnd a n err).clkSel = a.clkSel ∧ (d.loopEnd a n err).clk.takeOff = a.clk.takeOff := by
  obtain ⟨-, -, hreg, y, hclk⟩ := compared_leaves d a n err
  have hstat : (d.judged a n err).reg R.clkStat = a.reg R.clkStat := hreg _ (by decide) (by decide)
  have htake : (d.judged a n err).clk.takeOff = a.clk.takeOff := by
    show (d.compared a n err).clk.takeOff = _
    rw [hclk]
  have h6 (x : Nat) : ((d.judged a n err).setFld R.clkStat 0 2 x).rf R.clkStat 6 1 = a.rf R.clkStat 6 1 := by
    rw [Dev.rf_setFld_hi _ _ _ _ _ _ _ (by decide) (by decide), Dev.rf, hstat, Dev.rf]
  have h4 (x : Nat) : ((d.judged a n err).setFld R.clkStat 0 2 x).rf R.clkStat 4 2 = a.rf R.clkStat 4 2 := by
    rw [Dev.rf_setFld_hi _ _ _ _ _ _ _ (by decide) (by decide), Dev.rf, hstat, Dev.rf]
  rw [Dev.loopEnd]
  generalize d.judged a n err = b at *
  split
  · refine ⟨?_, htake⟩
    rw [Dev.clkSel, Dev.lockGained, Dev.rf_withClk, Dev.rf_withClk, Dev.rf_setReg_ne _ _ _ _ _ (by decide), Dev.rf_setReg_ne _ _ _ _ _ (by decide), h6, h4, Dev.clkSel]
  split
  · constructor
    · rw [Dev.clkSel, Dev.lockLost, Dev.rf_raise_ne _ _ _ _ _ _ _ _ (by decide) (by decide), Dev.rf_raise_ne _ _ _ _ _ _ _ _ (by decide) (by decide),
        Dev.rf_withClk, Dev.rf_withClk, h6, h4, Dev.clkSel]
    · rw [Dev.lockLost, Dev.raise_clk, Dev.clk_withClk]
      exact htake
  · exact ⟨Dev.clkSel_congr hstat, htake⟩

/-- In ACQUIRE the last comparison of a run inside the window locks the loop. -/
theorem loopEnd_locks (hmode : d.clkMode = 1) (hin : d.insideWin n err = true) (hrun : max 1 (d.lf (R.clkReflock n) 16 8) ≤ a.clk.inside + 1) :
    (d.loopEnd a n err).clkMode = 2 := by
  obtain ⟨-, -, -, y, hclk⟩ := compared_leaves d a n err
  rw [Dev.loopEnd, if_pos ⟨hmode, by rw [Dev.insideRun, if_pos hin, hclk]; exact hrun⟩]
  rw [Dev.clkMode, Dev.lockGained, Dev.rf_withClk, Dev.rf_setReg_ne _ _ _ _ _ (by decide), Dev.rf_setFld _ _ _ _ _ (by decide)]
  rfl

/-- In ACQUIRE a comparison outside the window begins the run again. -/
theorem loopEnd_outside (hmode : d.clkMode = 1) (ha : a.clkMode = 1) (hin : d.insideWin n err = false) :
    (d.loopEnd a n err).clkMode = 1 ∧ (d.loopEnd a n err).clk.inside = 0 := by
  obtain ⟨-, -, hreg, -⟩ := compared_leaves d a n err
  have hmode' : (d.judged a n err).clkMode = 1 := by
    rw [← ha, Dev.clkMode, Dev.rf, show (d.judged a n err).reg R.clkStat = _ from hreg _ (by decide) (by decide), Dev.clkMode, Dev.rf]
  have hin' : (d.judged a n err).clk.inside = 0 := by
    show min 256 (if d.insideWin n err then _ else 0) = 0
    rw [hin]
    rfl
  rw [Dev.loopEnd, if_neg, if_neg]
  · exact ⟨hmode', hin'⟩
  · rintro ⟨h, -⟩
    exact absurd (hmode.symm.trans h) (by decide)
  · rintro ⟨-, h⟩
    rw [Dev.insideRun, hin, if_neg (by decide)] at h
    omega

/-- In LOCKED the fourth comparison beyond four windows loses the lock. -/
theorem loopEnd_loses (hmode : d.clkMode = 2) (hout : d.outsideWin n err = true) (hrun : 3 ≤ a.clk.outside) :
    (d.loopEnd a n err).clkMode = 1 ∧ (d.loopEnd a n err).flag Blk.clk Src.clkLockLost := by
  obtain ⟨-, -, -, y, hclk⟩ := compared_leaves d a n err
  rw [Dev.loopEnd, if_neg (fun h => absurd (hmode.symm.trans h.1) (by decide)), if_pos ⟨hmode, by rw [Dev.outsideRun, if_pos hout, hclk]; show 4 ≤ a.clk.outside + 1; omega⟩]
  generalize d.judged a n err = b
  refine ⟨?_, Dev.flag_raise _ _ _ _ _ _ (by decide)⟩
  rw [Dev.clkMode, Dev.lockLost, Dev.rf_raise_ne _ _ _ _ _ _ _ _ (by decide) (by decide), Dev.rf_withClk, Dev.rf_setFld _ _ _ _ _ (by decide)]
  rfl

/-- In LOCKED a comparison within four windows keeps the lock. -/
theorem loopEnd_keepsLock (hmode : d.clkMode = 2) (ha : a.clkMode = 2) (hout : d.outsideWin n err = false) :
    (d.loopEnd a n err).clkMode = 2 ∧ (d.loopEnd a n err).clk.outside = 0 := by
  obtain ⟨-, -, hreg, -⟩ := compared_leaves d a n err
  have hmode' : (d.judged a n err).clkMode = 2 := by
    rw [← ha, Dev.clkMode, Dev.rf, show (d.judged a n err).reg R.clkStat = _ from hreg _ (by decide) (by decide), Dev.clkMode, Dev.rf]
  have hout' : (d.judged a n err).clk.outside = 0 := by
    show min 4 (if d.outsideWin n err then _ else 0) = 0
    rw [hout]
    rfl
  rw [Dev.loopEnd, if_neg, if_neg]
  · exact ⟨hmode', hout'⟩
  · rintro ⟨-, h⟩
    rw [Dev.outsideRun, hout, if_neg (by decide)] at h
    omega
  · rintro ⟨h, -⟩
    exact absurd (hmode.symm.trans h) (by decide)

end

/-- The pull-in term is within PULLSLOPE, and there is none without a pull-in (R148). -/
theorem Dev.pullTerm_le (d : Dev) (n : Nat) (err : Int) :
    (d.pullTerm n err).natAbs ≤ max 1 (d.lf (R.clkReftim n) 16 8) * 1000000 ∧ (d.clk.pull = false → d.pullTerm n err = 0) := by
  rw [Dev.pullTerm]
  split
  · rename_i h
    refine ⟨?_, fun hf => absurd (h.symm.trans hf) (by decide)⟩
    rw [clampI]
    omega
  · exact ⟨by simp, fun _ => rfl⟩

/-! ## The oscillator -/

/-- A window that slides by one keeps no more steps than it held, with the new one. -/
theorem slide_count (go : Bool) (l : List Bool) : (((go :: l).take 24).filter (fun b => b)).length ≤ (l.filter (fun b => b)).length + b2n go := by
  have hsub : (((go :: l).take 24).filter (fun b => b)).length ≤ ((go :: l).filter (fun b => b)).length :=
    ((List.take_sublist 24 (go :: l)).filter _).length_le
  cases go with
  | false => exact hsub
  | true => exact hsub

/-- A cycle of the oscillator (R150): the remainder, and no more than eight steps in the window. -/
theorem synStep_leaves {w : Int} {y : Syn} (hw : w.natAbs ≤ 200000000) (h0 : 0 ≤ y.frac) (h1 : y.frac < 10 ^ 12) (h8 : (y.win.filter (fun b => b)).length ≤ 8) :
    (synStep w y).frac = (y.frac + 1280 * w) % 10 ^ 12 ∧ ((synStep w y).win.filter (fun b => b)).length ≤ 8 ∧
      ((y.win.filter (fun b => b)).length = 8 → (synStep w y).steps = y.steps) := by
  unfold synStep
  extract_lets a dir may go
  refine ⟨?_, ?_, fun hfull => ?_⟩
  · simp only [dir, a]
    split
    · omega
    split
    · omega
    · omega
  · have hle := slide_count go y.win
    cases hgo : go with
    | false =>
      rw [hgo] at hle
      exact hle.trans h8
    | true =>
      rw [hgo] at hle
      have hmay : (y.win.filter (fun b => b)).length < 8 := by
        simp only [go, Bool.and_eq_true] at hgo
        exact of_decide_eq_true hgo.2
      exact hle.trans hmay
  · have hgo : go = false := by
      simp only [go, may, hfull]
      simp
    simp [hgo]

/-! ## Holdover -/

/-- One more second of holdover: the prediction, and the limit when it is passed (R162). -/
theorem Dev.holdoverPredict_leaves (d : Dev) (c : Nat) (h : d.clkMode = 3) :
    let t := min (2 ^ 32 - 1) (d.reg R.clkHoldtime + 1)
    let k := xoClass (d.lf R.clkXoclass 0 2)
    let p5 := d.clk.e0 * 100 + (if d.clk.short then 4 * k.1 else k.1) * t + k.2 * t * t
    let e := d.holdoverPredict c
    e.reg R.clkHoldtime = t ∧ e.reg R.clkHoldpred = min (2 ^ 32 - 1) ((p5 + 50000) / 100000) ∧
      e.clkMode = 3 ∧ (d.lf R.clkHoldlim 0 24 * 100000 < p5 → e.rf R.clkStat 8 1 = 1) ∧
      (d.lf R.clkHoldlim 0 24 * 100000 < p5 → d.rf R.clkStat 8 1 = 0 → e.rf (R.fltstat Blk.clk) Src.clkHoldLimit 1 = 1) ∧
      d.keeps e [R.clkHoldtime, R.clkHoldpred, R.clkStat, R.fltstat Blk.clk, R.fltfirst Blk.clk] := by
  intro t k p5 e
  let p := min (2 ^ 32 - 1) ((p5 + 50000) / 100000)
  let d1 := ((d.atC c).setReg R.clkHoldtime t).setReg R.clkHoldpred p
  have he : e = if d.lf R.clkHoldlim 0 24 * 100000 < p5 ∧ d.rf R.clkStat 8 1 = 0 then (d1.setFld R.clkStat 8 1 1).raise Blk.clk Src.clkHoldLimit p t 0 else d1 :=
    if_pos h
  have ht : d1.reg R.clkHoldtime = t := (Dev.reg_setReg_ne _ _ _ _ (by decide)).trans ((Dev.reg_setReg ..).trans (Nat.mod_eq_of_lt (by omega)))
  have hp : d1.reg R.clkHoldpred = p := (Dev.reg_setReg ..).trans (Nat.mod_eq_of_lt (by omega))
  have hk : d.keeps d1 [R.clkHoldtime, R.clkHoldpred, R.clkStat, R.fltstat Blk.clk, R.fltfirst Blk.clk] :=
    (Dev.keeps_setReg (d.atC c) _ _ (by simp)).trans (Dev.keeps_setReg _ _ _ (by simp))
  have hstat : d1.reg R.clkStat = d.reg R.clkStat := (Dev.reg_setReg_ne _ _ _ _ (by decide)).trans (Dev.reg_setReg_ne _ _ _ _ (by decide))
  have hmode : d1.clkMode = 3 := by rw [← h, Dev.clkMode, Dev.rf, hstat, Dev.clkMode, Dev.rf]
  have hbit : d1.rf R.clkStat 8 1 = d.rf R.clkStat 8 1 := by rw [Dev.rf, hstat, Dev.rf]
  have hpv : p = min (2 ^ 32 - 1) ((p5 + 50000) / 100000) := rfl
  clear_value d1 p e
  rw [← hpv]
  subst he
  split
  · rename_i hlim
    refine ⟨?_, ?_, ?_, fun _ => ?_, fun _ _ => Dev.flag_raise _ _ _ _ _ _ (by decide), ?_⟩
    · exact (Dev.reg_raise_clk _ _ _ _ _ _ (by decide) (by decide)).trans ((Dev.reg_setFld_ne _ _ _ _ _ _ (by decide)).trans ht)
    · exact (Dev.reg_raise_clk _ _ _ _ _ _ (by decide) (by decide)).trans ((Dev.reg_setFld_ne _ _ _ _ _ _ (by decide)).trans hp)
    · exact (Dev.rf_raise_ne _ _ _ _ _ _ _ _ (by decide) (by decide)).trans ((Dev.rf_setFld_lo _ _ _ _ _ _ _ (by decide) (by decide)).trans hmode)
    · exact (Dev.rf_raise_ne _ _ _ _ _ _ _ _ (by decide) (by decide)).trans (Dev.rf_setFld _ _ _ _ _ (by decide))
    · exact (hk.trans (Dev.keeps_setFld _ _ _ _ _ (by simp))).trans (Dev.keeps_raise _ _ _ _ _ _ (by simp) (by simp))
  · rename_i hlim
    refine ⟨ht, hp, hmode, fun hlt => ?_, fun hlt h0 => absurd ⟨hlt, h0⟩ hlim, hk⟩
    have hne : d.rf R.clkStat 8 1 ≠ 0 := fun h0 => hlim ⟨hlt, h0⟩
    have hlt2 : d.rf R.clkStat 8 1 < 2 := Nat.mod_lt _ (by decide)
    omega

theorem Dev.historyRecord_leaves (d : Dev) (c : Nat) : (d.historyRecord c).clk = { d.clk with
      sum := 0
      num := 0
      ring := if d.clkMode = 2 ∧ 0 < d.clk.num then ((d.tick, roundDiv d.clk.sum d.clk.num) :: d.clk.ring).take 256 else d.clk.ring } ∧ d.keeps (d.historyRecord c) [] := by
  by_cases hcond : d.clkMode = 2 ∧ 0 < d.clk.num
  · have he : d.historyRecord c = (d.atC c).withClk { d.clk with sum := 0, num := 0, ring := ((d.tick, roundDiv d.clk.sum d.clk.num) :: d.clk.ring).take 256 } := if_pos hcond
    rw [he, if_pos hcond]
    exact ⟨rfl, fun _ _ => ⟨rfl, rfl⟩⟩
  · have he : d.historyRecord c = (d.atC c).withClk { d.clk with sum := 0, num := 0 } := if_neg hcond
    rw [he, if_neg hcond]
    exact ⟨rfl, fun _ _ => ⟨rfl, rfl⟩⟩

/-- What a comparison leaves of the error, the word and the selection. -/
theorem loopEnd_leaves (d a : Dev) (n : Nat) (err : Int) : let e := d.loopEnd a n err
    e.reg R.clkPherr = wrapN 32 (clampI (-2147483648) 2147483647 err) ∧ -200000000 ≤ e.sreg R.clkFreq ∧ e.sreg R.clkFreq ≤ 200000000 ∧ e.clkSel = a.clkSel := by
  obtain ⟨hph, hword, -, -⟩ := compared_leaves d a n err
  have hfreq : (d.loopEnd a n err).sreg R.clkFreq = d.loopWord a n err := by
    rw [Dev.sreg, loopEnd_keeps d a n err (by decide), ← hword, Dev.sreg]
  intro e
  rw [hfreq]
  exact ⟨(loopEnd_keeps d a n err (by decide)).trans hph, (loopWord_mem d a n err).1, (loopWord_mem d a n err).2, (loopEnd_stays d a n err).1⟩

/-- With build-out the first comparison after a switch takes the phase as the offset, and its error is zero (R158). -/
theorem loopEnd_takes (d : Dev) {n : Nat} {p : Int} (hsel : d.clkSel = some n) (htake : d.clk.takeOff = true) (hp : p.natAbs < 2 ^ 31) :
    let a := d.offTaken n p
    let e := d.loopEnd a n (p - a.sreg (R.clkRefphoff n))
    e.reg (R.clkRefphoff n) = wrapN 32 p ∧ e.reg R.clkPherr = 0 ∧ e.clk.takeOff = false := by
  have hn : n < 4 := by
    rw [Dev.clkSel] at hsel
    split at hsel
    · obtain rfl := Option.some.inj hsel
      exact Nat.mod_lt _ (by decide)
    · exact absurd hsel (by simp)
  have ha : d.offTaken n p = (d.setS (R.clkRefphoff n) p).withClk { (d.setS (R.clkRefphoff n) p).clk with takeOff := false } := if_pos htake
  have hreg : (d.offTaken n p).reg (R.clkRefphoff n) = wrapN 32 p := by
    rw [ha, Dev.reg_withClk, reg_setS, clampI]
    congr 1
    omega
  have hzero : p - (d.offTaken n p).sreg (R.clkRefphoff n) = 0 := by
    rw [Dev.sreg, hreg, sgn_wrapN (by decide) (by norm_num; omega) (by norm_num; omega)]
    omega
  have hoff : (d.offTaken n p).clk.takeOff = false := by rw [ha, Dev.clk_withClk]
  generalize d.offTaken n p = a at *
  intro b e
  have he : e = d.loopEnd a n 0 := by rw [← hzero]
  have hne : R.clkRefphoff n ∉ [R.clkStat, R.clkHoldpred, R.fltstat Blk.clk, R.fltfirst Blk.clk] ∧ R.clkRefphoff n ≠ R.clkPherr ∧ R.clkRefphoff n ≠ R.clkFreq := by
    interval_cases n <;> decide
  rw [he]
  obtain ⟨hph, -⟩ := loopEnd_leaves d a n 0
  obtain ⟨-, -, hkeep, -⟩ := compared_leaves d a n 0
  exact ⟨(loopEnd_keeps d a n 0 hne.1).trans ((hkeep _ hne.2.1 hne.2.2).trans hreg), hph, (loopEnd_stays d a n 0).2.trans hoff⟩

/-- Settles O47: row by row. -/
theorem dpllAndHoldover : Obligations.DpllAndHoldover := by
  intro z c hrun d
  refine ⟨fun n ph hsel hst hmode => ?_, fun n ph h => ?_, fun n err => d.pullTerm_le n err, fun w y hw h0 h1 h8 => synStep_leaves hw h0 h1 h8, ?_, fun h => ?_, fun h => ?_⟩
  · intro p
    refine ⟨fun htake => ?_, fun htake hp => ?_⟩
    · intro err win
      refine leads_of_tickRow rfl hrun ?_
      have ha : (d.atC c).offTaken n p = d.atC c := if_neg (by rw [show (d.atC c).clk.takeOff = false from htake]; decide)
      rw [Dev.dpllCompare_eq hsel hst hmode]
      rw [show (d.atC c).offTaken n ((d.atC c).refPhase n ph) = d.atC c from ha]
      obtain ⟨hph, hlo, hhi, hsel'⟩ := loopEnd_leaves (d.atC c) (d.atC c) n err
      refine ⟨hph, hlo, hhi, hsel'.trans hsel, fun h1 hin hlk => ?_, fun h1 hout => ?_, fun h2 hout h3 => ?_, fun h2 hin => ?_⟩
      · exact loopEnd_locks (d.atC c) (d.atC c) n err h1 (decide_eq_true (by exact_mod_cast hin)) hlk
      · exact loopEnd_outside (d.atC c) (d.atC c) n err h1 h1 (decide_eq_false (by exact_mod_cast not_le.mpr hout))
      · exact loopEnd_loses (d.atC c) (d.atC c) n err h2 (decide_eq_true (by exact_mod_cast hout)) h3
      · exact loopEnd_keepsLock (d.atC c) (d.atC c) n err h2 h2 (decide_eq_false (by exact_mod_cast not_lt.mpr hin))
    · refine leads_of_tickRow rfl hrun ?_
      rw [Dev.dpllCompare_eq hsel hst hmode]
      exact loopEnd_takes (d.atC c) hsel htake hp
  · refine exec_tickRow_still rfl hrun (if_neg ?_)
    rintro ⟨h1, h2, h3⟩
    obtain h | ⟨ha, hb⟩ | h := h
    · exact h h1
    · exact h2.elim ha hb
    · exact h h3
  · exact leads_of_tickRow rfl hrun (d.historyRecord_leaves c)
  · exact leads_of_tickRow rfl hrun (d.holdoverPredict_leaves c h)
  · exact exec_tickRow_still rfl hrun (if_neg h)

end Sys2Proof.Machine

/-!
PROOFS. PAUSE, links, MDIO and the array bus's PLCA (R190, R196, R203 to R205).
-/
namespace Sys2Proof.Machine

/-! ## Rules of a port's state -/

/-- The registers that a port's faults and status stand in are apart. -/
theorem macStat_ne {p : Nat} (hp : p ≤ 3) : R.macStat (macBlk p) ≠ R.fltstat (macBlk p) ∧ R.macStat (macBlk p) ≠ R.fltfirst (macBlk p) := by
  interval_cases p <;> decide

/-- A counter counts, and no other does. -/
theorem Dev.w64_macCount (d : Dev) (p k n : Nat) : (d.macCount p k n).w64 (R.macCnt (macBlk p) k) = (d.w64 (R.macCnt (macBlk p) k) + n) % 2 ^ 64 := Dev.w64_bump ..

theorem Dev.w64_macCount_ne (d : Dev) (p n : Nat) {j k : Nat} (h : j ≠ k) : (d.macCount p k n).w64 (R.macCnt (macBlk p) j) = d.w64 (R.macCnt (macBlk p) j) :=
  Dev.w64_bump_ne _ _ _ _ (by simp only [R.macCnt]; omega)

theorem Dev.w64_raise (d : Dev) (b src d0 d1 d2 o : Nat) : (d.raise b src d0 d1 d2).w64 o = d.w64 o := by
  rw [Dev.w64, Dev.raise_wide, Dev.w64]

theorem Dev.w64_raiseF (d : Dev) (b src : Nat) (forced : Bool) (d0 d1 d2 o : Nat) : (d.raiseF b src forced d0 d1 d2).w64 o = d.w64 o := by
  rw [Dev.w64, Dev.raiseF_wide, Dev.w64]

theorem Dev.rf_raiseF_ne (d : Dev) (b src : Nat) (forced : Bool) (d0 d1 d2 : Nat) {o : Nat} (lo w : Nat) (h1 : o ≠ R.fltstat b) (h2 : o ≠ R.fltfirst b) :
    (d.raiseF b src forced d0 d1 d2).rf o lo w = d.rf o lo w :=
  (Dev.marks.raiseF (l := [R.fltstat b, R.fltfirst b]) (w := []) d b src forced d0 d1 d2 (by simp) (by simp)).rf lo w (by simp [h1, h2])

theorem Dev.macP_onMac (d : Dev) {p : Nat} (f : MacPort → MacPort) (h : p < d.mac.length) : (d.onMac p f).macP p = f (d.macP p) := by
  rw [Dev.macP, Dev.onMac, getD_updAt, if_pos ⟨rfl, h⟩]
  rfl

/-! ## CMD's datagrams leave -/

/-- From `d` to `e` frames have left by the management port: its transmit counters, the frames waiting and the output alone differ. -/
structure Dev.flushes (d e : Dev) : Prop where
  regs : d.sameRegs e
  mac : e.mac = d.mac
  w64 : ∀ o, o ∉ [R.macCnt 12 2, R.macCnt 12 3] → e.w64 o = d.w64 o

namespace Dev.flushes

theorem refl (d : Dev) : d.flushes d := ⟨⟨rfl, rfl, rfl⟩, rfl, fun _ _ => rfl⟩

theorem trans {d e g : Dev} (h : d.flushes e) (k : e.flushes g) : d.flushes g :=
  ⟨⟨k.regs.1.trans h.regs.1, k.regs.2.1.trans h.regs.2.1, k.regs.2.2.trans h.regs.2.2⟩, k.mac.trans h.mac, fun o ho => (k.w64 o ho).trans (h.w64 o ho)⟩

theorem ethSend (d : Dev) (f : List Byte) : d.flushes (d.ethSend 2 f) := by
  refine ⟨⟨rfl, rfl, rfl⟩, rfl, fun o ho => ?_⟩
  simp only [List.mem_cons, List.not_mem_nil, or_false, not_or] at ho
  exact (Dev.w64_bump_ne _ _ _ _ ho.2).trans (Dev.w64_bump_ne _ _ _ _ ho.1)

theorem each (fs : List (List Byte)) (d : Dev) : d.flushes (each fs (fun f d => d.ethSend 2 f) d) := by
  induction fs generalizing d with
  | nil => exact refl d
  | cons f fs ih => exact (ethSend d f).trans (ih _)

theorem replyFlush (d : Dev) : d.flushes d.replyFlush := by
  rw [Dev.replyFlush]
  have h0 : d.flushes { d with cmd := { d.cmd with frames := [] } } := ⟨⟨rfl, rfl, rfl⟩, rfl, fun _ _ => rfl⟩
  split
  · exact refl d
  simp only
  split
  · exact h0.trans (each _ _)
  · exact h0

section
variable {d e : Dev} (h : d.flushes e)
include h

theorem keeps (l : List Nat) : d.keeps e l := Dev.keeps_of_regs h.regs l

theorem rf (o lo w : Nat) : e.rf o lo w = d.rf o lo w := by rw [Dev.rf, h.regs.reg o, Dev.rf]

theorem macP (p : Nat) : e.macP p = d.macP p := by rw [Dev.macP, h.mac, Dev.macP]

/-- The receive counters of a port are not the ones that the frames move. -/
theorem rxCnt {p k : Nat} (hk : k ≤ 30) (h2 : k ≠ 2) (h3 : k ≠ 3) : e.w64 (R.macCnt (macBlk p) k) = d.w64 (R.macCnt (macBlk p) k) := by
  refine h.w64 _ ?_
  simp only [List.mem_cons, List.not_mem_nil, or_false, R.macCnt, macBlk]
  omega

end
end Dev.flushes

/-! ## PAUSE -/

section
variable (d : Dev) {p : Nat} (hp : p ≤ 3) (hlen : d.mac.length = 4)

theorem Dev.sameRegs.trans {d e g : Dev} (h : d.sameRegs e) (k : e.sameRegs g) : d.sameRegs g := ⟨k.1.trans h.1, k.2.1.trans h.2.1, k.2.2.trans h.2.2⟩

theorem Dev.sameRegs_macCount (d : Dev) (p k n : Nat) : d.sameRegs (d.macCount p k n) := ⟨rfl, rfl, rfl⟩

/-- The device with a PAUSE frame counted. -/
def Dev.pauseCounted (d : Dev) (p : Nat) : Dev := ((d.macCount p 0 1).macCount p 1 64).macCount p 9 1

theorem pauseCounted_leaves (p : Nat) : let e := d.pauseCounted p
    e.w64 (R.macCnt (macBlk p) 0) = (d.w64 (R.macCnt (macBlk p) 0) + 1) % 2 ^ 64 ∧ e.w64 (R.macCnt (macBlk p) 1) = (d.w64 (R.macCnt (macBlk p) 1) + 64) % 2 ^ 64 ∧
      e.w64 (R.macCnt (macBlk p) 9) = (d.w64 (R.macCnt (macBlk p) 9) + 1) % 2 ^ 64 ∧ d.sameRegs e := by
  refine ⟨?_, ?_, ?_, ((d.sameRegs_macCount p 0 1).trans (Dev.sameRegs_macCount _ p 1 64)).trans (Dev.sameRegs_macCount _ p 9 1)⟩
  · rw [Dev.pauseCounted, Dev.w64_macCount_ne _ _ _ (by decide), Dev.w64_macCount_ne _ _ _ (by decide), Dev.w64_macCount]
  · rw [Dev.pauseCounted, Dev.w64_macCount_ne _ _ _ (by decide), Dev.w64_macCount, Dev.w64_macCount_ne _ _ _ (by decide)]
  · rw [Dev.pauseCounted, Dev.w64_macCount, Dev.w64_macCount_ne _ _ _ (by decide), Dev.w64_macCount_ne _ _ _ (by decide)]

/-- The event of a PAUSE frame; the array bus has none. -/
def Dev.pauseNoted (d : Dev) (p quanta : Nat) : Dev := if p = 3 then d else d.raise (macBlk p) Src.macPauseRx quanta 0 0

/-- The port paused, or no longer so, by a PAUSE frame. -/
def Dev.pauseSet (d : Dev) (p quanta at_ : Nat) : Dev :=
  (d.setFld (R.macStat (macBlk p)) 3 1 (if quanta = 0 then 0 else 1)).onMac p (fun x => { x with
    pauseAt := at_
    pauseQ := quanta })

theorem pauseNoted_marks (p quanta : Nat) : d.marks (d.pauseNoted p quanta) [R.fltstat (macBlk p), R.fltfirst (macBlk p)] [] :=
  .ite (fun _ => .refl d) (fun _ => .raise _ _ _ _ _ _ (by simp) (by simp))

theorem pauseNoted_flag {p : Nat} (quanta : Nat) (hp : p < 3) : (d.pauseNoted p quanta).flag (macBlk p) Src.macPauseRx := by
  rw [Dev.pauseNoted, if_neg (by omega)]
  exact Dev.flag_raise _ _ _ _ _ _ (by decide)

include hp hlen in
theorem pauseSet_leaves (quanta at_ : Nat) : let e := d.pauseSet p quanta at_
    e.macPaused p = decide (quanta ≠ 0) ∧ (e.macP p).pauseQ = quanta ∧ (e.macP p).pauseAt = at_ ∧ d.keeps e [R.macStat (macBlk p)] ∧
      (∀ o, e.w64 o = d.w64 o) ∧ e.flag (macBlk p) Src.macPauseRx = d.flag (macBlk p) Src.macPauseRx := by
  have hmac : (d.pauseSet p quanta at_).macP p = { d.macP p with pauseAt := at_, pauseQ := quanta } := Dev.macP_onMac _ _ (by
    show p < d.mac.length
    omega)
  refine ⟨?_, congrArg MacPort.pauseQ hmac, congrArg MacPort.pauseAt hmac, Dev.keeps_setFld d _ _ _ _ (by simp), fun o => rfl, ?_⟩
  · rw [Dev.macPaused, Dev.pauseSet]
    have hfld := Dev.rf_setFld d (R.macStat (macBlk p)) 3 1 (if quanta = 0 then 0 else 1) (by decide)
    show ((d.setFld (R.macStat (macBlk p)) 3 1 (if quanta = 0 then 0 else 1)).rf (R.macStat (macBlk p)) 3 1 == 1) = _
    rw [hfld]
    by_cases hq : quanta = 0
    · simp [hq]
    · simp [hq]
  · exact congrArg (· = 1) (Dev.rf_setFld_ne d (R.macStat (macBlk p)) 3 1 _ _ _ (macStat_ne hp).1.symm)

include hp in
theorem pauseFrame_eq (quanta c : Nat) (hrdy : d.rxReady p = true) (hen : d.lf (R.macCtrl (macBlk p)) 1 1 = 1) :
    d.pauseFrame p quanta c = ((((d.atC c).pauseCounted p).pauseNoted p quanta).pauseSet p quanta (d.tick * 10240 + c)).replyFlush :=
  (if_pos ⟨hp, hrdy⟩).trans (if_pos hen)

include hp hlen in
/-- A PAUSE frame that the port obeys (R196). -/
theorem pauseFrame_obeyed (quanta c : Nat) (hrdy : d.rxReady p = true) (hen : d.lf (R.macCtrl (macBlk p)) 1 1 = 1) : let e := d.pauseFrame p quanta c
    e.w64 (R.macCnt (macBlk p) 0) = (d.w64 (R.macCnt (macBlk p) 0) + 1) % 2 ^ 64 ∧ e.w64 (R.macCnt (macBlk p) 1) = (d.w64 (R.macCnt (macBlk p) 1) + 64) % 2 ^ 64 ∧
      e.w64 (R.macCnt (macBlk p) 9) = (d.w64 (R.macCnt (macBlk p) 9) + 1) % 2 ^ 64 ∧ e.macPaused p = decide (quanta ≠ 0) ∧ (e.macP p).pauseQ = quanta ∧
      (e.macP p).pauseAt = d.tick * 10240 + c ∧ (p < 3 → e.flag (macBlk p) Src.macPauseRx) ∧
      d.keeps e [R.macStat (macBlk p), R.fltstat (macBlk p), R.fltfirst (macBlk p)] := by
  let d1 := (d.atC c).pauseCounted p
  obtain ⟨h0, h1, h9, hregs⟩ := pauseCounted_leaves (d.atC c) p
  have hnote := pauseNoted_marks d1 p quanta
  have hlen2 : (d1.pauseNoted p quanta).mac.length = 4 := by
    rw [hnote.mac]
    exact hlen
  obtain ⟨hpaused, hq, hat, hkeep, hw, hflag⟩ := pauseSet_leaves (d1.pauseNoted p quanta) hp hlen2 quanta (d.tick * 10240 + c)
  have hflush := Dev.flushes.replyFlush ((d1.pauseNoted p quanta).pauseSet p quanta (d.tick * 10240 + c))
  have he : d.pauseFrame p quanta c = ((d1.pauseNoted p quanta).pauseSet p quanta (d.tick * 10240 + c)).replyFlush := pauseFrame_eq d hp quanta c hrdy hen
  have hcnt (k : Nat) (hk : k ≤ 30) (h2 : k ≠ 2) (h3 : k ≠ 3) : (d.pauseFrame p quanta c).w64 (R.macCnt (macBlk p) k) = d1.w64 (R.macCnt (macBlk p) k) := by
    rw [he, hflush.rxCnt hk h2 h3, hw, hnote.w64 (by simp)]
  have hreg1 : d.keeps d1 [] := Dev.keeps_of_regs hregs _
  refine ⟨(hcnt 0 (by decide) (by decide) (by decide)).trans h0, (hcnt 1 (by decide) (by decide) (by decide)).trans h1,
    (hcnt 9 (by decide) (by decide) (by decide)).trans h9, ?_, ?_, ?_, fun h3 => ?_, ?_⟩
  · rw [he, Dev.macPaused, hflush.rf]
    exact hpaused
  · rw [he, hflush.macP, hq]
  · rw [he, hflush.macP, hat]
  · rw [he, Dev.flag, hflush.rf]
    exact hflag.mpr (pauseNoted_flag d1 quanta h3)
  · rw [he]
    exact (((hreg1.mono (by simp)).trans (hnote.keeps.mono (by simp))).trans (hkeep.mono (by simp))).trans (hflush.keeps _)

include hp in
/-- A PAUSE frame that the port does not obey (R196). -/
theorem pauseFrame_ignored (quanta c : Nat) (hrdy : d.rxReady p = true) (hen : d.lf (R.macCtrl (macBlk p)) 1 1 = 0) : let e := d.pauseFrame p quanta c
    e.w64 (R.macCnt (macBlk p) 0) = (d.w64 (R.macCnt (macBlk p) 0) + 1) % 2 ^ 64 ∧
      e.w64 (R.macCnt (macBlk p) 9) = (d.w64 (R.macCnt (macBlk p) 9) + 1) % 2 ^ 64 ∧ d.keeps e [] := by
  obtain ⟨h0, -, h9, hregs⟩ := pauseCounted_leaves (d.atC c) p
  have hne : ¬d.lf (R.macCtrl (macBlk p)) 1 1 = 1 := by
    rw [hen]
    decide
  have he : d.pauseFrame p quanta c = (d.atC c).pauseCounted p := (if_pos ⟨hp, hrdy⟩).trans (if_neg hne)
  rw [he]
  exact ⟨h0, h9, Dev.keeps_of_regs hregs _⟩

include hp in
/-- The pause timer ends (R196). -/
theorem pauseExpire_leaves (c : Nat) (hpz : d.macPaused p = true) (hover : (d.atC c).pauseOver p = true) :
    (d.pauseExpire p c).macPaused p = false ∧ d.keeps (d.pauseExpire p c) [R.macStat (macBlk p)] := by
  have he : d.pauseExpire p c = ((d.atC c).setFld (R.macStat (macBlk p)) 3 1 0).replyFlush := if_pos ⟨hp, hpz, hover⟩
  have hflush := Dev.flushes.replyFlush ((d.atC c).setFld (R.macStat (macBlk p)) 3 1 0)
  rw [he]
  refine ⟨?_, (Dev.keeps_setFld (d.atC c) _ _ _ _ (by simp)).trans (hflush.keeps _)⟩
  rw [Dev.macPaused, hflush.rf, Dev.rf_setFld _ _ _ _ _ (by decide)]
  rfl

end

/-! ## Links -/

section
variable (d : Dev) {p : Nat} (hp : p ≤ 3)

include hp in
/-- LINK goes down (R203, R204). -/
theorem linkLost_leaves (forced : Nat) : let e := d.linkLost p forced
    e.macLink p = false ∧ e.w64 (R.macCnt (macBlk p) 15) = (d.w64 (R.macCnt (macBlk p) 15) + 1) % 2 ^ 64 ∧
      (p < 3 → e.flag (macBlk p) Src.macLinkDown) ∧
      d.marks e [R.macStat (macBlk p), R.fltstat (macBlk p), R.fltfirst (macBlk p)] [R.macCnt (macBlk p) 15] := by
  let d1 := (d.setFld (R.macStat (macBlk p)) 0 1 0).macCount p 15 1
  have hlink : d1.rf (R.macStat (macBlk p)) 0 1 = 0 := Dev.rf_setFld d _ _ _ _ (by decide)
  have hcnt : d1.w64 (R.macCnt (macBlk p) 15) = (d.w64 (R.macCnt (macBlk p) 15) + 1) % 2 ^ 64 := Dev.w64_macCount ..
  have hmarks : d.marks d1 [R.macStat (macBlk p), R.fltstat (macBlk p), R.fltfirst (macBlk p)] [R.macCnt (macBlk p) 15] :=
    (Dev.marks.setFld _ _ _ _ (by simp)).trans (.bump _ _ (by simp))
  have he : d.linkLost p forced = if p = 3 then d1 else d1.raiseF (macBlk p) Src.macLinkDown (forced == 1) forced (d1.tickLo) 0 := by
    rw [Dev.linkLost]
    rfl
  clear_value d1
  rw [he]
  by_cases h3 : p = 3
  · rw [if_pos h3]
    exact ⟨by rw [Dev.macLink, hlink]; rfl, hcnt, fun h => absurd h (by omega), hmarks⟩
  · rw [if_neg h3]
    refine ⟨?_, (Dev.w64_raiseF ..).trans hcnt, fun _ => Dev.flag_raiseF _ _ _ _ _ _ _ (by decide), hmarks.trans (.raiseF _ _ _ _ _ _ _ (by simp) (by simp))⟩
    rw [Dev.macLink, Dev.rf_raiseF_ne _ _ _ _ _ _ _ _ _ (macStat_ne hp).1 (macStat_ne hp).2, hlink]
    rfl

include hp in
/-- LINK comes up (R203, R204). -/
theorem linkMade_leaves : let e := d.linkMade p
    e.macLink p = true ∧ (∀ lo w, 1 ≤ lo → lo + w ≤ 32 → e.rf (R.macStat (macBlk p)) lo w = d.rf (R.macStat (macBlk p)) lo w) ∧
      (p < 3 → e.flag (macBlk p) Src.macLinkUp) ∧
      d.marks e [R.macStat (macBlk p), R.fltstat (macBlk p), R.fltfirst (macBlk p)] [] := by
  let d1 := d.setFld (R.macStat (macBlk p)) 0 1 1
  have hlink : d1.rf (R.macStat (macBlk p)) 0 1 = 1 := Dev.rf_setFld d _ _ _ _ (by decide)
  have hother (lo w : Nat) (h : 1 ≤ lo) (h32 : lo + w ≤ 32) : d1.rf (R.macStat (macBlk p)) lo w = d.rf (R.macStat (macBlk p)) lo w :=
    Dev.rf_setFld_hi _ _ _ _ _ _ _ (by omega) h32
  have hmarks : d.marks d1 [R.macStat (macBlk p), R.fltstat (macBlk p), R.fltfirst (macBlk p)] [] := .setFld _ _ _ _ (by simp)
  have he : d.linkMade p = if p = 3 then d1 else d1.raise (macBlk p) Src.macLinkUp (d.lf (R.macMode (macBlk p)) 0 3) d.tickLo 0 := rfl
  clear_value d1
  rw [he]
  by_cases h3 : p = 3
  · rw [if_pos h3]
    exact ⟨by rw [Dev.macLink, hlink]; rfl, hother, fun h => absurd h (by omega), hmarks⟩
  · rw [if_neg h3]
    have hrf (lo w : Nat) : (d1.raise (macBlk p) Src.macLinkUp (d.lf (R.macMode (macBlk p)) 0 3) d.tickLo 0).rf (R.macStat (macBlk p)) lo w =
        d1.rf (R.macStat (macBlk p)) lo w := Dev.rf_raise_ne _ _ _ _ _ _ _ _ (macStat_ne hp).1 (macStat_ne hp).2
    exact ⟨by rw [Dev.macLink, hrf, hlink]; rfl, fun lo w h h32 => (hrf lo w).trans (hother lo w h h32), fun _ => Dev.flag_raise _ _ _ _ _ _ (by decide),
      hmarks.trans (.raise _ _ _ _ _ _ (by simp) (by simp))⟩

end

/-- A line that goes down takes the link with it (R203, R204). -/
theorem linkDown_leaves (d : Dev) {p : Nat} (c : Nat) (hp : p ≤ 3) (hlen : d.mac.length = 4) (hup : d.macLink p = true) (hplca : p = 3 → d.plcaGood = false) :
    let e := d.linkDown p c
    e.macLink p = false ∧ e.w64 (R.macCnt (macBlk p) 15) = (d.w64 (R.macCnt (macBlk p) 15) + 1) % 2 ^ 64 ∧ (e.macP p).line = false ∧
      (p < 3 → e.flag (macBlk p) Src.macLinkDown) ∧ d.keeps e [R.macStat (macBlk p), R.fltstat (macBlk p), R.fltfirst (macBlk p)] := by
  let d1 := (d.atC c).onMac p (fun x => { x with line := false })
  let d2 := if p = 3 then d1 else d1.setFld (R.macStat (macBlk p)) 1 2 0
  have hmac : (d1.macP p).line = false := congrArg MacPort.line (Dev.macP_onMac (d.atC c) _ (show p < d.mac.length by omega))
  have hk1 : d.keeps d1 [] := Dev.keeps_of_regs ⟨rfl, rfl, rfl⟩ _
  have hw1 (o : Nat) : d1.w64 o = d.w64 o := rfl
  have h12 : d1.marks d2 [R.macStat (macBlk p)] [] := .ite (fun _ => .refl _) (fun _ => .setFld _ _ _ _ (by simp))
  have hcond : ((d.atC c).macLink p && !(p == 3 && (d.atC c).plcaGood)) = true := by
    rw [show (d.atC c).macLink p = true from hup]
    by_cases h3 : p = 3
    · rw [show (d.atC c).plcaGood = false from hplca h3, Bool.and_false]
      rfl
    · rw [beq_false_of_ne h3]
      rfl
  have he : d.linkDown p c = d2.linkLost p 0 := (if_neg (by omega)).trans (if_pos hcond)
  clear_value d2 d1
  obtain ⟨hlink, hcnt, hflag, hmarks⟩ := linkLost_leaves d2 hp 0
  rw [he]
  refine ⟨hlink, ?_, ?_, hflag, ?_⟩
  · rw [hcnt, h12.w64 (by simp), hw1]
  · rw [Dev.macP, hmarks.mac, h12.mac]
    exact hmac
  · exact ((hk1.mono (by simp)).trans (h12.keeps.mono (by simp))).trans (hmarks.keeps.mono (by simp))

/-- A port's status as its line comes up (R189). -/
def Dev.lineStat (d : Dev) (p speed : Nat) (an : Bool) : Dev :=
  let d2 := if p = 3 then d else (d.setFld (R.macStat (macBlk p)) 1 1 1).setFld (R.macStat (macBlk p)) 2 1 (b2n an)
  if p = 2 then d2.setFld (R.macStat 12) 4 2 (min 2 speed) else d2

theorem lineStat_leaves (d : Dev) {p : Nat} (speed : Nat) (an : Bool) (hp : p ≤ 3) : let e := d.lineStat p speed an
    d.marks e [R.macStat (macBlk p)] [] ∧ (p = 2 → e.rf (R.macStat 12) 4 2 = min 2 speed) ∧ (p < 3 → e.rf (R.macStat (macBlk p)) 2 1 = b2n an) := by
  have hbit (e : Dev) : (e.setFld (R.macStat (macBlk p)) 2 1 (b2n an)).rf (R.macStat (macBlk p)) 2 1 = b2n an := by
    rw [Dev.rf_setFld _ _ _ _ _ (by decide)]
    cases an <;> rfl
  by_cases h3 : p = 3
  · have he : d.lineStat p speed an = d := by
      rw [Dev.lineStat, if_pos h3, if_neg (by omega)]
    rw [he]
    exact ⟨.refl d, fun h => absurd h (by omega), fun h => absurd h (by omega)⟩
  have hm : d.marks ((d.setFld (R.macStat (macBlk p)) 1 1 1).setFld (R.macStat (macBlk p)) 2 1 (b2n an)) [R.macStat (macBlk p)] [] :=
    (Dev.marks.setFld _ _ _ _ (by simp)).trans (.setFld _ _ _ _ (by simp))
  have hb := hbit (d.setFld (R.macStat (macBlk p)) 1 1 1)
  by_cases h2 : p = 2
  · have he : d.lineStat p speed an = ((d.setFld (R.macStat (macBlk p)) 1 1 1).setFld (R.macStat (macBlk p)) 2 1 (b2n an)).setFld (R.macStat 12) 4 2 (min 2 speed) := by
      rw [Dev.lineStat, if_neg h3, if_pos h2]
    rw [he]
    generalize (d.setFld (R.macStat (macBlk p)) 1 1 1).setFld (R.macStat (macBlk p)) 2 1 (b2n an) = b at *
    subst h2
    refine ⟨hm.trans (.setFld _ _ _ _ (List.mem_cons_self ..)), fun _ => ?_, fun _ => ?_⟩
    · rw [Dev.rf_setFld _ _ _ _ _ (by decide)]
      exact Nat.mod_eq_of_lt (by omega)
    · exact (Dev.rf_setFld_lo b _ _ _ _ _ _ (by decide) (by decide)).trans hb
  · have he : d.lineStat p speed an = (d.setFld (R.macStat (macBlk p)) 1 1 1).setFld (R.macStat (macBlk p)) 2 1 (b2n an) := by
      rw [Dev.lineStat, if_neg h3, if_neg h2]
    rw [he]
    exact ⟨hm, fun h => absurd h h2, fun _ => hb⟩

/-- A line that comes up brings the link, unless a force holds it down (R203, R204). -/
theorem linkUp_leaves (d : Dev) {p : Nat} (speed : Nat) (an : Bool) (c : Nat) (hp : p ≤ 3) (hlen : d.mac.length = 4) (hdown : d.macLink p = false)
    (hforce : p < 2 → d.rf (R.macStat (macBlk p)) 6 1 = 0) : let e := d.linkUp p speed an c
    e.macLink p = true ∧ (e.macP p).line = true ∧ (p = 2 → e.rf (R.macStat 12) 4 2 = min 2 speed) ∧ (p < 3 → e.rf (R.macStat (macBlk p)) 2 1 = b2n (d.anDone p an)) ∧
      (p < 3 → e.flag (macBlk p) Src.macLinkUp) ∧ d.keeps e [R.macStat (macBlk p), R.fltstat (macBlk p), R.fltfirst (macBlk p)] := by
  let d1 := (d.atC c).onMac p (fun x => { x with line := true })
  have hmac : (d1.macP p).line = true := congrArg MacPort.line (Dev.macP_onMac (d.atC c) _ (show p < d.mac.length by omega))
  have hk1 : d.keeps d1 [] := Dev.keeps_of_regs ⟨rfl, rfl, rfl⟩ _
  obtain ⟨hstat, hspeed, hdone⟩ := lineStat_leaves d1 speed (d.anDone p an) hp
  have hcond : ¬((d.atC c).macLink p || (decide (p < 2) && (d.atC c).rf (R.macStat (macBlk p)) 6 1 == 1)) = true := by
    rw [show (d.atC c).macLink p = false from hdown, Bool.false_or, Bool.and_eq_true, decide_eq_true_eq, beq_iff_eq]
    rintro ⟨h2, h6⟩
    exact absurd ((hforce h2).symm.trans h6) (by decide)
  have he : d.linkUp p speed an c = (d1.lineStat p speed (d.anDone p an)).linkMade p := (if_neg (by omega)).trans (if_neg hcond)
  clear_value d1
  generalize d1.lineStat p speed (d.anDone p an) = d2 at *
  obtain ⟨hlink, hother, hflag, hmarks⟩ := linkMade_leaves d2 hp
  rw [he]
  refine ⟨hlink, ?_, fun h2 => ?_, fun h3 => ?_, hflag, ?_⟩
  · rw [Dev.macP, hmarks.mac, hstat.mac]
    exact hmac
  · have h42 := hother 4 2 (by decide) (by decide)
    have hb : R.macStat (macBlk p) = R.macStat 12 := by rw [h2, macBlk]
    rw [hb] at h42
    exact h42.trans (hspeed h2)
  · rw [hother 2 1 (by decide) (by decide), hdone h3]
  · exact ((hk1.mono (by simp)).trans (hstat.keeps.mono (by simp))).trans (hmarks.keeps.mono (by simp))

/-! ## MDIO -/

/-- A transaction that ends (R190). -/
theorem mdioDone_leaves (d : Dev) (data c : Nat) (hbusy : d.rf (R.macMdiodata 12) 31 1 = 1) : let e := d.mdioDone data c
    e.rf (R.macMdiodata 12) 31 1 = 0 ∧ e.rf (R.macMdiodata 12) 0 16 = (if d.mdioRd then data % 65536 else d.rf (R.macMdiodata 12) 0 16) ∧ d.keeps e [R.macMdiodata 12] := by
  let d1 := (d.atC c).setFld (R.macMdiodata 12) 31 1 0
  have h31 : d1.rf (R.macMdiodata 12) 31 1 = 0 := Dev.rf_setFld (d.atC c) _ _ _ _ (by decide)
  have h0 : d1.rf (R.macMdiodata 12) 0 16 = d.rf (R.macMdiodata 12) 0 16 := Dev.rf_setFld_lo (d.atC c) _ _ _ _ _ _ (by decide) (by decide)
  have hk : d.keeps d1 [R.macMdiodata 12] := Dev.keeps_setFld (d.atC c) _ _ _ _ (by simp)
  have he : d.mdioDone data c = if d.mdioRd then d1.setFld (R.macMdiodata 12) 0 16 data else d1 := if_pos hbusy
  clear_value d1
  rw [he]
  split
  · exact ⟨(Dev.rf_setFld_hi _ _ _ _ _ _ _ (by decide) (by decide)).trans h31, Dev.rf_setFld _ _ _ _ _ (by decide), hk.trans (Dev.keeps_setFld _ _ _ _ _ (by simp))⟩
  · exact ⟨h31, h0, hk⟩

/-! ## The array bus -/

section
variable (d : Dev) (c : Nat) (hon : d.plcaOn = true)
include hon

/-- A coordinator that hears a BEACON counts it as a foreign one's (R205). -/
theorem plcaBeacon_foreign (h0 : d.nodeId = 0) : let e := d.plcaBeacon c
    e.w64 (R.macCnt 13 22) = (d.w64 (R.macCnt 13 22) + 1) % 2 ^ 64 ∧ e.flag Blk.mact Src.mactForeignCoord ∧
      d.keeps e [R.fltstat Blk.mact, R.fltfirst Blk.mact] := by
  let d1 := (d.atC c).macCount 3 22 1
  have hw : d1.w64 (R.macCnt 13 22) = (d.w64 (R.macCnt 13 22) + 1) % 2 ^ 64 := Dev.w64_macCount (d.atC c) 3 22 1
  have hk : d.keeps d1 [R.fltstat Blk.mact, R.fltfirst Blk.mact] := Dev.keeps_bump (d.atC c) _ _ _
  have hno : ¬(!(d.atC c).plcaOn) = true := by
    rw [show (d.atC c).plcaOn = true from hon]
    decide
  have he : d.plcaBeacon c = d1.raise Blk.mact Src.mactForeignCoord d.tickLo 0 0 := (if_neg hno).trans (if_pos h0)
  clear_value d1
  rw [he]
  exact ⟨(Dev.w64_raise ..).trans hw, Dev.flag_raise _ _ _ _ _ _ (by decide), hk.trans (Dev.keeps_raise _ _ _ _ _ _ (by simp) (by simp))⟩

/-- A BEACON begins the next opportunity of a node, and restores its PLCA status (R205). -/
theorem plcaBeacon_node (h0 : d.nodeId ≠ 0) : let d1 := (d.atC c).onBus (fun x => { x with beacon := d.tick * 10240 + c, used := 0 })
    d.plcaBeacon c = if d.plcaGood then d1 else
      ((d1.setFld R.mactPlcastat 0 1 1).setFld (R.macStat 13) 0 1 1).raise Blk.mact Src.mactPlcaUp d.nodeId d.tickLo 0 := by
  have hno : ¬(!(d.atC c).plcaOn) = true := by
    rw [show (d.atC c).plcaOn = true from hon]
    decide
  exact (if_neg hno).trans (if_neg h0)

omit hon in
/-- A node's PLCA status restored. -/
theorem plcaUp_leaves (d : Dev) (a b : Nat) : let e := ((d.setFld R.mactPlcastat 0 1 1).setFld (R.macStat 13) 0 1 1).raise Blk.mact Src.mactPlcaUp a b 0
    e.plcaGood = true ∧ e.macLink 3 = true ∧ e.bus = d.bus ∧ e.flag Blk.mact Src.mactPlcaUp := by
  let d1 := (d.setFld R.mactPlcastat 0 1 1).setFld (R.macStat 13) 0 1 1
  have hlink : d1.rf (R.macStat 13) 0 1 = 1 := Dev.rf_setFld _ _ _ _ _ (by decide)
  have hgood : d1.rf R.mactPlcastat 0 1 = 1 := (Dev.rf_setFld_ne _ _ _ _ _ _ _ (by decide)).trans (Dev.rf_setFld d _ _ _ _ (by decide))
  have hbus : d1.bus = d.bus := rfl
  intro e
  have he : e = d1.raise Blk.mact Src.mactPlcaUp a b 0 := rfl
  clear_value d1 e
  subst he
  refine ⟨?_, ?_, ?_, Dev.flag_raise _ _ _ _ _ _ (by decide)⟩
  · rw [Dev.plcaGood, Dev.rf_raise_ne _ _ _ _ _ _ _ _ (by decide) (by decide), hgood]
    rfl
  · show ((d1.raise Blk.mact Src.mactPlcaUp a b 0).rf (R.macStat 13) 0 1 == 1) = true
    rw [Dev.rf_raise_ne _ _ _ _ _ _ _ _ (by decide) (by decide), hlink]
    rfl
  · rw [Dev.raise_bus, hbus]

/-- 4,000 bit times without a BEACON take the status of a node away (R205). -/
theorem plcaLost_leaves (h0 : d.nodeId ≠ 0) (hgood : d.plcaGood = true) (hlate : d.bus.beacon + busBits 4000 ≤ d.tick * 10240 + c) : let e := d.plcaLost c
    e.plcaGood = false ∧ e.w64 (R.macCnt 13 20) = (d.w64 (R.macCnt 13 20) + 1) % 2 ^ 64 ∧ e.macLink 3 = ((d.macP 3).line && d.macLink 3) ∧
      e.flag Blk.mact Src.mactPlcaLost := by
  let d1 := ((d.atC c).setFld R.mactPlcastat 0 1 0).macCount 3 20 1
  have hstat : d1.rf R.mactPlcastat 0 1 = 0 := Dev.rf_setFld (d.atC c) _ _ _ _ (by decide)
  have hcnt : d1.w64 (R.macCnt 13 20) = (d.w64 (R.macCnt 13 20) + 1) % 2 ^ 64 := Dev.w64_macCount _ 3 20 1
  have hlink : d1.macLink 3 = d.macLink 3 := by
    rw [Dev.macLink, show d1.rf (R.macStat (macBlk 3)) 0 1 = _ from Dev.rf_setFld_ne (d.atC c) _ _ _ _ _ _ (by decide), Dev.macLink]
    rfl
  have hcond : ¬(!(d.atC c).plcaOn || !(d.atC c).plcaGood || (d.atC c).nodeId == 0 || decide ((d.atC c).instant < (d.atC c).bus.beacon + busBits 4000)) = true := by
    rw [show (d.atC c).plcaOn = true from hon, show (d.atC c).plcaGood = true from hgood, beq_false_of_ne (show (d.atC c).nodeId ≠ 0 from h0),
      decide_eq_false (show ¬((d.atC c).instant < (d.atC c).bus.beacon + busBits 4000) from not_lt.mpr hlate)]
    decide
  have he : d.plcaLost c = (if (d.macP 3).line then d1 else d1.linkLost 3 0).raise Blk.mact Src.mactPlcaLost d.nodeId d.tickLo 0 := if_neg hcond
  clear_value d1
  rw [he]
  obtain ⟨hdown, -, -, hmarks⟩ := linkLost_leaves d1 (p := 3) (by decide) 0
  have hgood2 : (if (d.macP 3).line then d1 else d1.linkLost 3 0).rf R.mactPlcastat 0 1 = 0 := by
    split
    · exact hstat
    · exact (hmarks.rf 0 1 (by decide)).trans hstat
  have hcnt2 : (if (d.macP 3).line then d1 else d1.linkLost 3 0).w64 (R.macCnt 13 20) = (d.w64 (R.macCnt 13 20) + 1) % 2 ^ 64 := by
    split
    · exact hcnt
    · exact (hmarks.w64 (by decide)).trans hcnt
  have hlink2 : (if (d.macP 3).line then d1 else d1.linkLost 3 0).macLink 3 = ((d.macP 3).line && d.macLink 3) := by
    split
    · rename_i hline
      rw [hlink, hline, Bool.true_and]
    · rename_i hline
      rw [hdown, Bool.eq_false_of_not_eq_true hline]
      rfl
  generalize (if (d.macP 3).line then d1 else d1.linkLost 3 0) = b at *
  refine ⟨?_, (Dev.w64_raise ..).trans hcnt2, ?_, Dev.flag_raise _ _ _ _ _ _ (by decide)⟩
  · rw [Dev.plcaGood, Dev.rf_raise_ne _ _ _ _ _ _ _ _ (by decide) (by decide), hgood2]
    rfl
  · rw [Dev.macLink, Dev.rf_raise_ne _ _ _ _ _ _ _ _ (by decide) (by decide)]
    exact hlink2

end

/-- Settles O53: row by row. -/
theorem pausesLinksAndThePlca : Obligations.PausesLinksAndThePlca := by
  intro z p c hrun hp hlen d b cnt flts
  refine ⟨fun quanta hrdy => ⟨fun hen => ?_, fun hen => ?_⟩, fun hpz hover => ?_, fun h => ?_, fun hup hplca => ?_, fun speed an hdown hforce => ?_, fun data hbusy => ?_,
    fun data hidle => ?_, fun hon => ⟨fun h0 => ?_, fun h0 hbad => ?_, fun h0 hgood => ⟨?_, fun hearly => ?_, fun hlate => ?_⟩⟩⟩
  · exact leads_of_tickRow rfl hrun (pauseFrame_obeyed d hp hlen quanta c hrdy hen)
  · exact leads_of_tickRow rfl hrun (pauseFrame_ignored d hp quanta c hrdy hen)
  · exact leads_of_tickRow rfl hrun (pauseExpire_leaves d hp c hpz hover)
  · refine exec_tickRow_still rfl hrun (if_neg ?_)
    rintro ⟨-, h1, h2⟩
    exact h.elim (fun hf => Bool.false_ne_true (hf.symm.trans h1)) (fun hf => Bool.false_ne_true (hf.symm.trans h2))
  · exact leads_of_tickRow rfl hrun (linkDown_leaves d c hp hlen hup hplca)
  · exact leads_of_tickRow rfl hrun (linkUp_leaves d speed an c hp hlen hdown hforce)
  · exact leads_of_tickRow rfl hrun (mdioDone_leaves d data c hbusy)
  · refine exec_tickRow_still rfl hrun (if_neg ?_)
    intro h1
    exact absurd (hidle.symm.trans h1) (by decide)
  · exact leads_of_tickRow rfl hrun (plcaBeacon_foreign d c hon h0)
  · refine leads_of_tickRow rfl hrun ?_
    rw [plcaBeacon_node d c hon h0, if_neg (by rw [hbad]; decide)]
    obtain ⟨hgood, hlink, hbus, hflag⟩ := plcaUp_leaves ((d.atC c).onBus (fun x => { x with beacon := d.tick * 10240 + c, used := 0 })) d.nodeId d.tickLo
    exact ⟨hgood, hlink, congrArg ArrayBus.beacon hbus, hflag⟩
  · refine leads_of_tickRow rfl hrun ?_
    rw [plcaBeacon_node d c hon h0, if_pos hgood]
    exact ⟨rfl, rfl, fun _ _ => ⟨rfl, rfl⟩⟩
  · refine exec_tickRow_still rfl hrun (if_pos ?_)
    have hlt : decide ((d.atC c).instant < (d.atC c).bus.beacon + busBits 4000) = true := decide_eq_true hearly
    rw [hlt, Bool.or_true]
  · exact leads_of_tickRow rfl hrun (plcaLost_leaves d c hon h0 hgood hlate)

end Sys2Proof.Machine

/-!
PROOFS. The lease at its ends (R29, R296 to R302): the keeper, the lapse, the takeover and the bridge.
-/
namespace Sys2Proof.Machine

/-! ## What a change of role leaves of the loader -/

/-- The loader's registers, with those of its faults. -/
def loaderRegs : List Nat := [R.fltstat Blk.load, R.fltfirst Blk.load] ++ loadRegs

/-- From `d` to `e` the loader has moved: its state, its registers and its count of refusals. -/
def Dev.loadMoves (d e : Dev) : Prop := ∃ x, (d.withLdr x).marks e loaderRegs [R.loadRefusecnt]

theorem marks_withLdr {d e : Dev} {l w : List Nat} (h : d.marks e l w) (x : Ldr) : (d.withLdr x).marks (e.withLdr x) l w := by
  obtain ⟨⟨_, _, _, _, _, _, _, _, rfl⟩, hk, hw⟩ := h
  exact ⟨⟨_, _, _, _, _, _, _, _, rfl⟩, hk, hw⟩

theorem Dev.marks.mgmtRst {d e : Dev} {l w : List Nat} (h : d.marks e l w) : e.mgmtRst = d.mgmtRst := by
  obtain ⟨⟨_, _, _, _, _, _, _, _, rfl⟩, -, -⟩ := h
  rfl

theorem Dev.marks.testMode {d e : Dev} {l w : List Nat} (h : d.marks e l w) : e.testMode = d.testMode := by
  obtain ⟨⟨_, _, _, _, _, _, _, _, rfl⟩, -, -⟩ := h
  rfl

namespace Dev.loadMoves

theorem of_marks {d e : Dev} (h : d.marks e loaderRegs [R.loadRefusecnt]) : d.loadMoves e := ⟨d.ldr, h⟩

theorem refl (d : Dev) : d.loadMoves d := of_marks (.refl d)

theorem withLdr (d : Dev) (x : Ldr) : d.loadMoves (d.withLdr x) := ⟨x, .refl _⟩

theorem trans {d e g : Dev} (h : d.loadMoves e) (k : e.loadMoves g) : d.loadMoves g := by
  obtain ⟨x, hx⟩ := h
  obtain ⟨y, hy⟩ := k
  exact ⟨y, (marks_withLdr hx y).trans hy⟩

section
variable {d e : Dev} (h : d.loadMoves e)
include h

theorem reg {o : Nat} (ho : o ∉ loaderRegs) : e.reg o = d.reg o := by
  obtain ⟨x, hx⟩ := h
  exact hx.reg ho

theorem keeps : d.keeps e loaderRegs := by
  obtain ⟨x, hx⟩ := h
  exact hx.keeps

theorem rf {o : Nat} (lo w : Nat) (ho : o ∉ loaderRegs) : e.rf o lo w = d.rf o lo w := by rw [Dev.rf, h.reg ho, Dev.rf]

theorem w64 {o : Nat} (ho : o ≠ R.loadRefusecnt) : e.w64 o = d.w64 o := by
  obtain ⟨x, hx⟩ := h
  exact hx.w64 (by simpa using ho)

theorem pair : e.pair = d.pair := by
  obtain ⟨x, hx⟩ := h
  exact hx.pair

theorem tick : e.tick = d.tick := by
  obtain ⟨x, hx⟩ := h
  exact hx.tick

end
end Dev.loadMoves

theorem Dev.loadRefuse_moves (d : Dev) (f : LoadFail) : d.loadMoves (d.loadRefuse f) := by
  unfold Dev.loadRefuse
  extract_lets d1 src d2 d3 d4
  have h1 : d.loadMoves d1 := .of_marks ((((Dev.marks.setReg d _ (by decide)).trans (.setReg _ _ (by decide))).trans (.setReg _ _ (by decide))).trans (.setReg _ _ (by decide)))
  have h2 : d1.loadMoves d2 := (Dev.loadMoves.withLdr d1 _).trans (.of_marks (.bump _ _ (by decide)))
  have h3 : d2.loadMoves d3 := .of_marks (.ite (fun _ => .raise _ _ _ _ _ _ (by decide) (by decide)) (fun _ => .refl _))
  have h4 : d3.loadMoves d4 := .of_marks (.ite (fun _ => .raise _ _ _ _ _ _ (by decide) (by decide)) (fun _ => .refl _))
  exact (((h1.trans h2).trans h3).trans h4).trans (.of_marks (.raise _ _ _ _ _ _ (by decide) (by decide)))

/-- A change of role moves nothing but a load that awaits the partner (R120). -/
theorem Dev.loadRole_moves (d : Dev) (was : Role) : d.loadMoves (d.loadRole was) := by
  unfold Dev.loadRole
  split
  · rename_i j _
    split
    · exact .refl d
    split
    · extract_lets src d1
      have h1 : d.loadMoves d1 := .withLdr d _
      split
      · exact h1.trans (.of_marks ((Dev.marks.setFld _ _ _ _ (by decide)).trans (.setReg _ _ (by decide))))
      · exact h1
    split
    · exact d.loadRefuse_moves _
    · exact .refl d
  · exact .refl d

/-! ## Pins -/

/-- The pins as they are driven; the rest of PAIR.STAT stays. -/
theorem Dev.setPins_leaves (d : Dev) (own hold : Bool) : let e := d.setPins own hold
    e.rf R.pairStat 9 1 = b2n (own && !d.testMode) ∧ e.rf R.pairStat 8 1 = b2n (hold && !d.testMode) ∧
      (∀ lo w, lo + w ≤ 8 → e.rf R.pairStat lo w = d.rf R.pairStat lo w) ∧ (∀ lo w, 10 ≤ lo → lo + w ≤ 32 → e.rf R.pairStat lo w = d.rf R.pairStat lo w) ∧
      d.marks e [R.pairStat] [] := by
  have hb (b : Bool) : b2n b % 2 ^ 1 = b2n b := by cases b <;> rfl
  intro e
  have he : e = (d.setFld R.pairStat 9 1 (b2n (own && !d.testMode))).setFld R.pairStat 8 1 (b2n (hold && !d.testMode)) := rfl
  clear_value e
  subst he
  refine ⟨?_, ?_, fun lo w h => ?_, fun lo w h h32 => ?_, (Dev.marks.setFld _ _ _ _ (by simp)).trans (.setFld _ _ _ _ (by simp))⟩
  · rw [Dev.rf_setFld_hi _ _ _ _ _ _ _ (by decide) (by decide), Dev.rf_setFld _ _ _ _ _ (by decide), hb]
  · rw [Dev.rf_setFld _ _ _ _ _ (by decide), hb]
  · rw [Dev.rf_setFld_lo _ _ _ _ _ _ _ (by omega) (by omega), Dev.rf_setFld_lo _ _ _ _ _ _ _ (by omega) (by omega)]
  · rw [Dev.rf_setFld_hi _ _ _ _ _ _ _ (by omega) h32, Dev.rf_setFld_hi _ _ _ _ _ _ _ (by omega) h32]

/-- The role read from the same code is the same. -/
theorem Dev.role_congr {d e : Dev} (h : e.rf R.pairStat 0 3 = d.rf R.pairStat 0 3) : e.role = d.role := by rw [Dev.role, h, Dev.role]

theorem Dev.role_onPair (d : Dev) (f : Pair → Pair) : (d.onPair f).role = d.role := rfl

theorem Dev.rf_onPair (d : Dev) (f : Pair → Pair) (o lo w : Nat) : (d.onPair f).rf o lo w = d.rf o lo w := rfl

/-! ## The lease keeper -/

/-- An ACTIVE unit that enters FALLOW drives both pins low. -/
theorem Dev.enterRole_fallow (d : Dev) (cause : Nat) (h : d.role = .active) : (d.enterRole 3 cause).rf R.pairStat 8 1 = 0 ∧ (d.enterRole 3 cause).rf R.pairStat 9 1 = 0 := by
  unfold Dev.enterRole
  extract_lets was dA dB d1 e e1 eS d2 d3 d4
  rw [if_neg (by decide), if_neg (by simp only [was, h]; decide)]
  have hd2 : d2.rf R.pairStat 8 1 = 0 ∧ d2.rf R.pairStat 9 1 = 0 := by
    have hwas : (was == Role.active) = true := by
      simp only [was, h]
      decide
    have hlow (y : Dev) (f : Pair → Pair) : ((y.setPins false false).onPair f).rf R.pairStat 8 1 = 0 ∧ ((y.setPins false false).onPair f).rf R.pairStat 9 1 = 0 := by
      obtain ⟨h8, h9, -⟩ := y.setPins_low
      rw [Dev.rf_onPair, Dev.rf_onPair]
      exact ⟨h8, h9⟩
    have hd : ∃ f, d2 = ((e1.strmYield (3 == 1)).setPins false false).onPair f := ⟨_, (if_neg (by decide)).trans (if_pos hwas)⟩
    obtain ⟨f, hf⟩ := hd
    rw [hf]
    exact hlow _ f
  have hd3 : d3.rf R.pairStat 8 1 = 0 ∧ d3.rf R.pairStat 9 1 = 0 := by
    have hrf (lo w : Nat) : d3.rf R.pairStat lo w = d2.rf R.pairStat lo w := by
      simp only [d3, if_neg (show ¬(3 = 0) by decide)]
      exact Dev.rf_setReg_ne _ _ _ _ _ (by decide)
    rw [hrf, hrf]
    exact hd2
  have hload : d3.loadMoves d4 := Dev.loadRole_moves _ _
  rw [if_neg (by simp only [was, h]; decide), hload.rf 8 1 (by decide), hload.rf 9 1 (by decide)]
  exact hd3

/-- Three ticks without a renewal drive both pins low, and the lease is lost (R29, R295). -/
theorem Dev.leaseKeeper_leaves (d : Dev) (c : Nat) (hpins : d.rf R.pairStat 8 1 = 1 ∨ d.rf R.pairStat 9 1 = 1) (hbridge : d.rf R.pairStat 12 1 = 0)
    (hdue : d.pair.renew * 10240 + 9984 + 30720 ≤ d.tick * 10240 + c) : let e := d.leaseKeeper c
    e.rf R.pairStat 8 1 = 0 ∧ e.rf R.pairStat 9 1 = 0 ∧ (c ≠ 0 → d.keeps e [R.pairStat]) ∧
      (c ≠ 0 → d.role = .active → d.paired = true → d.mgmtRst = none → e.pair.toRole = some (3, false)) := by
  let d1 := (d.atC c).setPins false false
  have hlow' := (d.atC c).setPins_low
  rw [show (d.atC c).setPins false false = d1 from rfl] at hlow'
  obtain ⟨h8, h9, -, hk⟩ := hlow'
  obtain ⟨-, -, hlow, -, hmarks⟩ := (d.atC c).setPins_leaves false false
  have hrole : d1.role = d.role := Dev.role_congr (hlow 0 3 (by decide))
  have hpaired : d1.paired = d.paired := by
    rw [Dev.paired, hmarks.rf 31 1 (by decide), Dev.paired]
    rfl
  have hcyc : d1.cycle = c := hmarks.cycle
  have hmg : d1.mgmtRst = d.mgmtRst := hmarks.mgmtRst
  have hk' : d.keeps d1 [R.pairStat] := hk
  have hcond : (((d.atC c).holdOut || (d.atC c).rf R.pairStat 9 1 == 1) && (d.atC c).rf R.pairStat 12 1 == 0 &&
      decide ((d.atC c).pair.renew * 10240 + windowEnd + 30720 ≤ (d.atC c).instant)) = true := by
    have hp : ((d.atC c).holdOut || (d.atC c).rf R.pairStat 9 1 == 1) = true := by
      rw [Bool.or_eq_true]
      exact hpins.imp beq_iff_eq.mpr beq_iff_eq.mpr
    have hd : decide ((d.atC c).pair.renew * 10240 + windowEnd + 30720 ≤ (d.atC c).instant) = true := decide_eq_true hdue
    rw [hp, hd, beq_iff_eq.mpr (show (d.atC c).rf R.pairStat 12 1 = 0 from hbridge)]
    rfl
  intro e
  have he : e = if d1.role == .active && d1.paired && d1.mgmtRst.isNone then d1.roleNext 3 5 else d1 := if_pos hcond
  clear_value d1 e
  subst he
  split
  · rename_i hact
    have hact' : d1.role = .active := by
      simp only [Bool.and_eq_true, beq_iff_eq] at hact
      exact hact.1.1
    rw [Dev.roleNext, hcyc]
    split
    · rename_i h0
      obtain ⟨k8, k9⟩ := d1.enterRole_fallow 5 hact'
      exact ⟨k8, k9, fun hc => absurd h0 hc, fun hc => absurd h0 hc⟩
    · exact ⟨h8, h9, fun _ => hk', fun _ _ _ _ => rfl⟩
  · rename_i hact
    refine ⟨h8, h9, fun _ => hk', fun _ ha hp hm => absurd ?_ hact⟩
    rw [hrole, hpaired, hmg, ha, hp, hm]
    rfl

/-! ## A resynchronisation ends -/

/-- Messages sent move of PAIR's state only what the mirror keeps of them. -/
theorem Dev.talks.pair {d e : Dev} (h : d.talks e) : e.pair = { d.pair with
    seq := e.pair.seq
    rtSent := e.pair.rtSent
    rtAsked := e.pair.rtAsked
    rtLoc := e.pair.rtLoc
    queued := e.pair.queued } := (congrArg Dev.pair h.eq :)

theorem Dev.talks.tick {d e : Dev} (h : d.talks e) : e.tick = d.tick := (congrArg Dev.tick h.eq :)

/-- The device with its resynchronisation over, the next attempt after a second (R321). -/
theorem Dev.resyncStop_leaves (d : Dev) : let e := d.resyncStop
    e.phase = 0 ∧ e.rf R.pairStat 13 1 = 0 ∧ e.replayT = none ∧ (∀ o, e.w64 o = d.w64 o) ∧ d.keeps e [R.pairRsstat, R.pairStat] ∧
      e.pair = { d.pair with
        rs := d.pair.rs.idle (d.tick + 96000)
        toRole := if d.paired && d.role == .catchup then some (3, false) else d.pair.toRole } := by
  let d1 := (d.setFld R.pairRsstat 0 3 0).setFld R.pairStat 13 1 0
  have hm : d.marks d1 [R.pairRsstat, R.pairStat] [] := (Dev.marks.setFld _ _ _ _ (by simp)).trans (.setFld _ _ _ _ (by simp))
  have hphase : d1.rf R.pairRsstat 0 3 = 0 := (Dev.rf_setFld_ne _ _ _ _ _ _ _ (by decide)).trans (Dev.rf_setFld d _ _ _ _ (by decide))
  have hfreeze : d1.rf R.pairStat 13 1 = 0 := Dev.rf_setFld _ _ _ _ _ (by decide)
  have hrole : d1.role = d.role := Dev.role_congr ((Dev.rf_setFld_lo _ _ _ _ _ _ _ (by decide) (by decide)).trans (Dev.rf_setFld_ne d _ _ _ _ _ _ (by decide)))
  have hpaired : d1.paired = d.paired := by rw [Dev.paired, hm.rf 31 1 (by decide), Dev.paired]
  have he : d.resyncStop = { d1.onPair (fun p => { p with rs := p.rs.idle (d.tick + 96000), toRole := if d.paired && d.role == .catchup then some (3, false) else p.toRole }) with
      replayT := none } := by
    rw [Dev.resyncStop]
  clear_value d1
  rw [he]
  exact ⟨hphase, hfreeze, rfl, fun o => hm.w64 (o := o) (by simp), hm.keeps, by
    show ({ d1.pair with rs := _, toRole := _ } : Pair) = _
    rw [hm.pair]⟩

/-- An abort counts, is noted, told to the partner, and ends the resynchronisation (R321, R325). -/
theorem Dev.resyncAbort_leaves (d : Dev) (cause : Nat) : let e := d.resyncAbort cause
    e.phase = 0 ∧ e.rf R.pairStat 13 1 = 0 ∧ e.replayT = none ∧ e.w64 (R.pairCnt 5) = (d.w64 (R.pairCnt 5) + 1) % 2 ^ 64 ∧ e.pair.lapsed = d.pair.lapsed ∧
      e.pair.rs = d.pair.rs.idle (d.tick + 96000) ∧ (d.paired = true → d.role = .catchup → e.pair.toRole = some (3, false)) := by
  let d1 := (d.bump (R.pairCnt 5) 1).raise Blk.pair Src.pairResyncAbort cause d.tickLo 0
  have hm : d.marks d1 [R.fltstat Blk.pair, R.fltfirst Blk.pair] [R.pairCnt 5] := (Dev.marks.bump d 1 (by simp)).trans (.raise _ _ _ _ _ _ (by simp) (by simp))
  have hcnt : d1.w64 (R.pairCnt 5) = (d.w64 (R.pairCnt 5) + 1) % 2 ^ 64 := (Dev.w64_raise ..).trans (Dev.w64_bump ..)
  have he : d.resyncAbort cause = (d1.mirSend (.resync 3 d.tick)).resyncStop := rfl
  clear_value d1
  have ht := d1.talks_mirSend (.resync 3 d.tick)
  have htick := ht.tick
  have hlapsed : (d1.mirSend (.resync 3 d.tick)).pair.lapsed = d.pair.lapsed := by rw [ht.pair, hm.pair]
  have hrs : (d1.mirSend (.resync 3 d.tick)).pair.rs = d.pair.rs := by rw [ht.pair, hm.pair]
  generalize d1.mirSend (.resync 3 d.tick) = s at *
  obtain ⟨hphase, hfreeze, hreplay, hw, -, hp⟩ := s.resyncStop_leaves
  have htick' : s.tick = d.tick := htick.trans hm.tick
  have hpaired : s.paired = d.paired := by rw [Dev.paired, ht.rf 31 1 (by decide), hm.rf 31 1 (by decide), Dev.paired]
  have hrole : s.role = d.role := Dev.role_congr ((ht.rf 0 3 (by decide)).trans (hm.rf 0 3 (by decide)))
  rw [he]
  refine ⟨hphase, hfreeze, hreplay, ?_, ?_, ?_, fun h1 h2 => ?_⟩
  · rw [hw, ht.w64 (by decide), hcnt]
  · rw [hp]
    exact hlapsed
  · rw [hp, ← hrs, ← htick']
  · rw [hp]
    show (if s.paired && s.role == .catchup then some (3, false) else s.pair.toRole) = some (3, false)
    rw [hpaired, hrole, h1, h2]
    rfl

/-! ## The lapse -/

/-- Three ticks without a heartbeat end the partner's lease (R296). -/
theorem Dev.leaseLapse_eq {d : Dev} {n : Nat} (hhb : d.pair.lastHb = some n) (hlate : n + 4 ≤ d.tick) (hlap : d.pair.lapsed = false) (hpaired : d.paired = true)
    (hrole : d.role = .shadow ∨ d.role = .catchup ∨ d.role = .fallow) : let d1 := (d.atC 0).onPair (fun p => { p with lapsed := true })
    d.leaseLapse = if d.role == .catchup then d1.resyncAbort 4 else d1 := by
  have hr : ((d.atC 0).role == .shadow || (d.atC 0).role == .catchup || (d.atC 0).role == .fallow) = true := by
    rw [show (d.atC 0).role = d.role from rfl]
    rcases hrole with h | h | h <;> rw [h] <;> rfl
  have hcond : ((d.atC 0).paired && ((d.atC 0).role == .shadow || (d.atC 0).role == .catchup || (d.atC 0).role == .fallow) && decide (n + 4 ≤ (d.atC 0).tick) &&
      !(d.atC 0).pair.lapsed) = true := by
    rw [hr, show (d.atC 0).paired = true from hpaired, decide_eq_true (show n + 4 ≤ (d.atC 0).tick from hlate), show (d.atC 0).pair.lapsed = false from hlap]
    rfl
  unfold Dev.leaseLapse
  simp only [show (d.atC 0).pair.lastHb = some n from hhb, if_pos hcond]
  rfl

/-! ## The takeover -/

/-- A SHADOW that becomes ACTIVE, but for what its loader does. -/
def Dev.tookRole (d : Dev) : Dev :=
  (((d.setFld R.pairStat 0 3 0).setFld R.pairStat 12 1 0).setPins true true).onPair (fun p => { p with
    toRole := none
    renew := d.tick
    pinsUntil := 0
    lapsed := false
    bridgeEnd := false })

theorem Dev.enterRole_active {d : Dev} (h : d.role = .shadow) : d.enterRole 0 0 = d.tookRole.loadRole .shadow := by
  unfold Dev.enterRole
  extract_lets was dA dB d1 e e1 eS d2 d3 d4
  have hwas : was = .shadow := h
  have hA : dA = d := if_neg (by rw [hwas]; simp)
  rw [if_neg (by decide), if_neg (by rw [hwas]; decide), if_neg (by rw [hwas]; decide)]
  have h2 : d3 = d.tookRole := by
    simp only [d3, d2, d1, dB, hA]
    rfl
  show d3.loadRole was = _
  rw [h2, hwas]

theorem Dev.tookRole_leaves (d : Dev) : let e := d.tookRole
    e.role = .active ∧ e.rf R.pairStat 8 1 = b2n (!d.testMode) ∧ e.rf R.pairStat 9 1 = b2n (!d.testMode) ∧ e.pair.renew = d.tick ∧ d.keeps e [R.pairStat] ∧
      ∀ o, e.w64 o = d.w64 o := by
  let d1 := (d.setFld R.pairStat 0 3 0).setFld R.pairStat 12 1 0
  have hm : d.marks d1 [R.pairStat] [] := (Dev.marks.setFld _ _ _ _ (by simp)).trans (.setFld _ _ _ _ (by simp))
  have hrole : d1.rf R.pairStat 0 3 = 0 := (Dev.rf_setFld_lo _ _ _ _ _ _ _ (by decide) (by decide)).trans (Dev.rf_setFld d _ _ _ _ (by decide))
  have he : ∃ f : Pair → Pair, d.tookRole = (d1.setPins true true).onPair f ∧ ∀ p, (f p).renew = d.tick := ⟨_, rfl, fun _ => rfl⟩
  clear_value d1
  obtain ⟨f, he, hf⟩ := he
  obtain ⟨h9, h8, hlow, -, hpins⟩ := d1.setPins_leaves true true
  rw [Bool.true_and, hm.testMode] at h8 h9
  rw [he]
  refine ⟨?_, h8, h9, hf _, fun o ho => ?_, fun o => (hpins.w64 (o := o) (by simp)).trans (hm.w64 (by simp))⟩
  · rw [Dev.role_onPair, Dev.role, hlow 0 3 (by decide), hrole]
    rfl
  · exact (hm.keeps.trans hpins.keeps) o ho

/-- A SHADOW takes the lease with a new epoch (R297, R300, R302). -/
theorem Dev.takeLease_leaves (d : Dev) (cause epoch : Nat) (h : d.role = .shadow) : let e := d.takeLease cause epoch
    e.role = .active ∧ e.reg R.pairEpoch = epoch % 2 ^ 32 ∧ e.rf R.pairStat 8 1 = b2n (!d.testMode) ∧ e.rf R.pairStat 9 1 = b2n (!d.testMode) ∧
      e.w64 (R.pairCnt 0) = (d.w64 (R.pairCnt 0) + 1) % 2 ^ 64 ∧ e.flag Blk.pair Src.pairTakeover ∧ e.pair.renew = d.tick := by
  let d0 := d.setReg R.pairEpoch (epoch % 2 ^ 32)
  have hep : d0.reg R.pairEpoch = epoch % 2 ^ 32 := (Dev.reg_setReg ..).trans (Nat.mod_mod _ _)
  have hrole0 : d0.role = .shadow := (Dev.role_congr (Dev.rf_setReg_ne _ _ _ _ _ (by decide))).trans h
  have hw0 (o : Nat) : d0.w64 o = d.w64 o := rfl
  have htick0 : d0.tick = d.tick := rfl
  have htest0 : d0.testMode = d.testMode := rfl
  have he : d.takeLease cause epoch = ((d0.enterRole 0 0).bump (R.pairCnt 0) 1).raise Blk.pair Src.pairTakeover cause (epoch % 2 ^ 32) (d0.enterRole 0 0).tickLo := rfl
  clear_value d0
  obtain ⟨hrole, h8, h9, hrenew, hkeep, hw⟩ := d0.tookRole_leaves
  have hload := d0.tookRole.loadRole_moves .shadow
  rw [he, Dev.enterRole_active hrole0]
  generalize d0.tookRole = x at *
  generalize x.loadRole .shadow = y at *
  have hm : (y.bump (R.pairCnt 0) 1).marks ((y.bump (R.pairCnt 0) 1).raise Blk.pair Src.pairTakeover cause (epoch % 2 ^ 32) y.tickLo)
      [R.fltstat Blk.pair, R.fltfirst Blk.pair] [] := .raise _ _ _ _ _ _ (by simp) (by simp)
  have hstat (lo w : Nat) : ((y.bump (R.pairCnt 0) 1).raise Blk.pair Src.pairTakeover cause (epoch % 2 ^ 32) y.tickLo).rf R.pairStat lo w = x.rf R.pairStat lo w :=
    (hm.rf lo w (by decide)).trans (hload.rf lo w (by decide))
  refine ⟨(Dev.role_congr (hstat 0 3)).trans hrole, ?_, ?_, ?_, ?_, Dev.flag_raise _ _ _ _ _ _ (by decide), ?_⟩
  · exact (hm.reg (by decide)).trans ((hload.reg (by decide)).trans ((hkeep _ (by decide)).1.trans hep))
  · rw [hstat, h8, htest0]
  · rw [hstat, h9, htest0]
  · rw [Dev.w64_raise, Dev.w64_bump, hload.w64 (by decide), hw, hw0]
  · rw [hm.pair]
    exact (congrArg Pair.renew hload.pair).trans (hrenew.trans htick0)

/-! ## The bridge -/

theorem Dev.bridge_leaves (d : Dev) (c : Nat) (hpaired : d.paired = true) (hrole : d.role = .shadow) (hA : d.rf R.pairStat 5 1 = 0)
    (hno : d.rf R.pairStat 12 1 = 0) (hrst : d.mgmtRst = none) (hrel : d.relNow = none) : let e := d.bridge c
    e.rf R.pairStat 9 1 = b2n (!d.testMode) ∧ e.rf R.pairStat 8 1 = 0 ∧ e.rf R.pairStat 12 1 = 1 ∧ e.flag Blk.pair Src.pairBridge ∧ e.role = .shadow ∧
      d.keeps e [R.pairStat, R.fltstat Blk.pair, R.fltfirst Blk.pair] := by
  let d1 := ((d.atC c).setFld R.pairStat 6 1 0).setFld R.pairStat 7 1 0
  have hm : (d.atC c).marks d1 [R.pairStat] [] := (Dev.marks.setFld _ _ _ _ (by simp)).trans (.setFld _ _ _ _ (by simp))
  have hlo (lo w : Nat) (h : lo + w ≤ 6) : d1.rf R.pairStat lo w = d.rf R.pairStat lo w :=
    (Dev.rf_setFld_lo _ _ _ _ _ _ _ (by omega) (by omega)).trans (Dev.rf_setFld_lo (d.atC c) _ _ _ _ _ _ (by omega) (by omega))
  have h12 : d1.rf R.pairStat 12 1 = d.rf R.pairStat 12 1 :=
    (Dev.rf_setFld_hi _ _ _ _ _ _ _ (by decide) (by decide)).trans (Dev.rf_setFld_hi (d.atC c) _ _ _ _ _ _ (by decide) (by decide))
  have hrole1 : d1.role = .shadow := (Dev.role_congr (hlo 0 3 (by decide))).trans hrole
  have hpaired1 : d1.paired = true := by
    rw [Dev.paired, hm.rf 31 1 (by decide)]
    exact hpaired
  have hrel1 : d1.relNow = none := by
    rw [Dev.relNow, hm.pair, hm.tick]
    exact hrel
  have hrst1 : d1.mgmtRst = none := hm.mgmtRst.trans hrst
  have htest : d1.testMode = d.testMode := hm.testMode
  have hk : d.keeps d1 [R.pairStat, R.fltstat Blk.pair, R.fltfirst Blk.pair] := hm.keeps.mono (by simp)
  have hcond : (d1.paired && d1.role == .shadow && d1.rf R.pairStat 5 1 == 0 && d1.rf R.pairStat 12 1 == 0 && d1.mgmtRst.isNone && d1.relNow.isNone) = true := by
    rw [hpaired1, hrole1, hlo 5 1 (by decide), hA, h12, hno, hrst1, hrel1]
    rfl
  have he : d.bridge c = ((d1.setPins true false).setFld R.pairStat 12 1 1).raise Blk.pair Src.pairBridge d1.tickLo 0 0 := if_pos hcond
  clear_value d1
  obtain ⟨h9, h8, hlow, -, hpins⟩ := d1.setPins_leaves true false
  rw [he]
  have hstat (lo w : Nat) (h : lo + w ≤ 12) : (((d1.setPins true false).setFld R.pairStat 12 1 1).raise Blk.pair Src.pairBridge d1.tickLo 0 0).rf R.pairStat lo w =
      (d1.setPins true false).rf R.pairStat lo w :=
    (Dev.rf_raise_ne _ _ _ _ _ _ _ _ (by decide) (by decide)).trans (Dev.rf_setFld_lo _ _ _ _ _ _ _ (by omega) (by omega))
  refine ⟨?_, ?_, ?_, Dev.flag_raise _ _ _ _ _ _ (by decide), ?_, ?_⟩
  · rw [hstat 9 1 (by decide), h9, Bool.true_and, htest]
  · rw [hstat 8 1 (by decide), h8]
    rfl
  · exact (Dev.rf_raise_ne _ _ _ _ _ _ _ _ (by decide) (by decide)).trans (Dev.rf_setFld _ _ _ _ _ (by decide))
  · exact (Dev.role_congr ((hstat 0 3 (by decide)).trans (hlow 0 3 (by decide)))).trans hrole1
  · exact ((hk.trans (hpins.keeps.mono (by simp))).trans (Dev.keeps_setFld _ _ _ _ _ (by simp))).trans (Dev.keeps_raise _ _ _ _ _ _ (by simp) (by simp))

theorem Dev.takeover_eq {d : Dev} (hpaired : d.paired = true) (hrole : d.role = .shadow) (hrst : d.mgmtRst = none) (hold : Bool) : d.takeover hold =
    match d.relNow with
    | some (next, cause) =>
      if (cause == 1 && d.pair.joint) || hold then d.atC 256
      else (if d.pair.joint then (d.atC 256).raise Blk.pair Src.pairJointYield (d.atC 256).tickLo 0 0 else d.atC 256).takeLease 1 next
    | none =>
      if !d.pair.lapsed then d.atC 256
      else if hold then (d.atC 256).onPair (fun p => { p with toRole := some (3, false) })
      else (d.atC 256).takeLease 2 (d.reg R.pairEpoch + 1) := by
  have hcond : ¬(!(d.atC 256).paired || (d.atC 256).role != .shadow || (d.atC 256).mgmtRst.isSome) = true := by
    rw [show (d.atC 256).paired = true from hpaired, show (d.atC 256).role = .shadow from hrole, show (d.atC 256).mgmtRst = none from hrst]
    decide
  exact (if_neg hcond).trans rfl

/-- What an ended lease taken leaves (R297, R300). -/
def Dev.tookLease (d e : Dev) (epoch : Nat) : Prop :=
  e.role = .active ∧ e.reg R.pairEpoch = epoch % 2 ^ 32 ∧ e.rf R.pairStat 8 1 = b2n (!d.testMode) ∧ e.rf R.pairStat 9 1 = b2n (!d.testMode) ∧
    e.w64 (R.pairCnt 0) = (d.w64 (R.pairCnt 0) + 1) % 2 ^ 64 ∧ e.flag Blk.pair Src.pairTakeover ∧ e.pair.renew = d.tick

/-- A released lease is taken with the epoch it was given. -/
theorem Dev.takeover_released {d : Dev} (hpaired : d.paired = true) (hrole : d.role = .shadow) (hrst : d.mgmtRst = none) {next cause : Nat}
    (hrel : d.relNow = some (next, cause)) (hjoint : ¬(cause = 1 ∧ d.pair.joint = true)) : d.tookLease (d.takeover false) next := by
  have hgo : ¬((cause == 1 && d.pair.joint) || false) = true := by
    rw [Bool.or_false, Bool.and_eq_true, beq_iff_eq]
    exact hjoint
  rw [Dev.takeover_eq hpaired hrole hrst, hrel]
  simp only [if_neg hgo]
  have hm : (d.atC 256).marks (if d.pair.joint then (d.atC 256).raise Blk.pair Src.pairJointYield (d.atC 256).tickLo 0 0 else d.atC 256)
      [R.fltstat Blk.pair, R.fltfirst Blk.pair] [] := .ite (fun _ => .raise _ _ _ _ _ _ (by simp) (by simp)) (fun _ => .refl _)
  generalize (if d.pair.joint then (d.atC 256).raise Blk.pair Src.pairJointYield (d.atC 256).tickLo 0 0 else d.atC 256) = x at *
  have hrole' : x.role = .shadow := (Dev.role_congr (hm.rf 0 3 (by decide))).trans hrole
  have htook := x.takeLease_leaves 1 next hrole'
  simp only [hm.testMode, hm.w64 (o := R.pairCnt 0) (by simp), hm.tick] at htook
  exact htook

/-- A lapsed lease is taken with the next epoch. -/
theorem Dev.takeover_lapsed {d : Dev} (hpaired : d.paired = true) (hrole : d.role = .shadow) (hrst : d.mgmtRst = none) (hrel : d.relNow = none)
    (hlap : d.pair.lapsed = true) : d.tookLease (d.takeover false) (d.reg R.pairEpoch + 1) ∧
      d.takeover true = (d.atC 256).onPair (fun p => { p with toRole := some (3, false) }) := by
  rw [Dev.takeover_eq hpaired hrole hrst, Dev.takeover_eq hpaired hrole hrst, hrel, hlap]
  exact ⟨(d.atC 256).takeLease_leaves 2 _ hrole, rfl⟩

/-- A bridge is over once HOLD_IN is active and heartbeats arrive (R299). -/
theorem Dev.bridgeOver_leaves (d : Dev) (c : Nat) (hbr : d.rf R.pairStat 12 1 = 1) (hsil : d.silent = false) : let e := d.bridgeOver c
    e.pair = { d.pair with bridgeEnd := true } ∧ e.rf R.pairStat 6 1 = 1 ∧ d.keeps e [R.pairStat] := by
  let d1 := (d.atC c).setFld R.pairStat 6 1 1
  have hm : (d.atC c).marks d1 [R.pairStat] [] := .setFld _ _ _ _ (by simp)
  have h6 : d1.rf R.pairStat 6 1 = 1 := Dev.rf_setFld (d.atC c) _ _ _ _ (by decide)
  have h12 : d1.rf R.pairStat 12 1 = 1 := (Dev.rf_setFld_hi (d.atC c) _ _ _ _ _ _ (by decide) (by decide)).trans hbr
  have hsil1 : d1.silent = false := by
    rw [Dev.silent, hm.pair, hm.tick]
    exact hsil
  have hcond : (d1.rf R.pairStat 12 1 == 1 && !d1.silent) = true := by
    rw [h12, hsil1]
    rfl
  have he : d.bridgeOver c = d1.onPair (fun p => { p with bridgeEnd := true }) := if_pos hcond
  have hk : d.keeps d1 [R.pairStat] := hm.keeps
  have hp : d1.pair = d.pair := hm.pair
  clear_value d1
  rw [he]
  refine ⟨?_, h6, hk⟩
  show ({ d1.pair with bridgeEnd := true } : Pair) = _
  rw [hp]

/-- Settles O40: row by row. -/
theorem leaseEnds : Obligations.LeaseEnds := by
  refine ⟨fun z c => ?_, fun z c hrun => ?_⟩
  · intro d hpins hbridge hdue
    exact ⟨_, rfl, ⟨rfl, rfl, rfl⟩, z.sys.dev.leaseKeeper_leaves c hpins hbridge hdue⟩
  intro d
  refine ⟨fun n hhb hlate hlap hpaired => ⟨fun hrole => ?_, fun hrole => ?_⟩, fun hpaired hrole hrst => ?_, fun hpaired hrole hA hno hrst hrel => ?_, fun hbr hsil => ?_⟩
  · refine leads_of_tickRow rfl hrun ?_
    rw [Dev.leaseLapse_eq hhb hlate hlap hpaired (hrole.imp_right .inr)]
    have hne : ¬(z.sys.dev.role == .catchup) = true := by
      rcases hrole with h | h <;> rw [show z.sys.dev.role = _ from h] <;> decide
    rw [if_neg hne]
    exact ⟨rfl, fun _ _ => ⟨rfl, rfl⟩⟩
  · refine leads_of_tickRow rfl hrun ?_
    rw [Dev.leaseLapse_eq hhb hlate hlap hpaired (.inr (.inl hrole)), if_pos (beq_iff_eq.mpr hrole)]
    obtain ⟨hphase, -, -, hcnt, hlapsed, -, hto⟩ := ((d.atC 0).onPair (fun p => { p with lapsed := true })).resyncAbort_leaves 4
    exact ⟨hlapsed, hphase, hto hpaired hrole, hcnt⟩
  · intro took
    refine ⟨fun next cause hrel hjoint => ?_, fun next hrel hjoint => ?_, fun next cause hrel => ?_, fun hrel hlap => ⟨?_, ?_⟩, fun hrel hlap hold => ?_⟩
    · exact leads_of_tickRow rfl hrun (Dev.takeover_released hpaired hrole hrst hrel hjoint)
    · refine exec_tickRow_still rfl hrun ?_
      rw [Dev.takeover_eq hpaired hrole hrst, show z.sys.dev.relNow = _ from hrel]
      exact if_pos (by rw [show z.sys.dev.pair.joint = true from hjoint]; decide)
    · refine exec_tickRow_still rfl hrun ?_
      rw [Dev.takeover_eq hpaired hrole hrst, show z.sys.dev.relNow = _ from hrel]
      exact if_pos (Bool.or_true _)
    · exact leads_of_tickRow rfl hrun (Dev.takeover_lapsed hpaired hrole hrst hrel hlap).1
    · refine leads_of_tickRow rfl hrun ?_
      rw [(Dev.takeover_lapsed hpaired hrole hrst hrel hlap).2]
      exact ⟨rfl, fun _ _ => ⟨rfl, rfl⟩⟩
    · refine exec_tickRow_still rfl hrun ?_
      rw [Dev.takeover_eq hpaired hrole hrst, show z.sys.dev.relNow = _ from hrel]
      exact if_pos (by rw [show z.sys.dev.pair.lapsed = false from hlap]; decide)
  · exact leads_of_tickRow rfl hrun (d.bridge_leaves c hpaired hrole hA hno hrst hrel)
  · exact leads_of_tickRow rfl hrun (d.bridgeOver_leaves c hbr hsil)

end Sys2Proof.Machine

/-!
PROOFS. STATUS, tick adoption and identity (R14, R295, R296, R304).
-/
namespace Sys2Proof.Machine

/-! ## Rows of mirror frames -/

theorem exec_mirRow {z : State} {i : Instr} {h : MirHdr} {f : Sys → Sys} (hi : exec i z = z.mirRow h f) (hrun : z.Running) (hrst : z.sys.dev.mgmtRst = none) :
    exec i z = .next (z.put (f (z.sys.onDev (fun d => d.mirHead h)))) := by
  rw [exec_tickRow hi hrun, hrst]
  rfl

theorem leads_of_mirRow {z : State} {i : Instr} {h : MirHdr} {f : Dev → Dev} {P : Dev → Prop} (hi : exec i z = z.mirRow h (fun s => s.onDev f)) (hrun : z.Running)
    (hrst : z.sys.dev.mgmtRst = none) (hP : P (f (z.sys.dev.mirHead h))) : z.leads (exec i z) P :=
  ⟨_, exec_mirRow hi hrun hrst, ⟨rfl, rfl, rfl⟩, hP⟩

/-- What a unit takes part in traffic with. -/
theorem mirLive_iff {d : Dev} : d.mirLive = true ↔ d.paired = true ∧ d.role ≠ .isolated ∧ d.mgmtRst = none := by
  rw [Dev.mirLive, Bool.and_eq_true, Bool.and_eq_true, bne_iff_ne, Option.isNone_iff_eq_none]
  tauto

theorem mirLive_false_of_unpaired {d : Dev} (h : d.paired = false) : d.mirLive = false := by
  rw [Dev.mirLive, h, Bool.false_and, Bool.false_and]

/-! ## Sending -/

/-- The device that a message leaves from is the one before, but for the traffic: what is ready stays ready. -/
theorem mirReady_congr {d e : Dev} (hstat : e.rf R.mirStat 0 1 = d.rf R.mirStat 0 1) (hrst : e.mgmtRst = d.mgmtRst) (hsent : e.pair.rtSent = d.pair.rtSent) (h : d.mirReady) :
    e.mirReady := by
  obtain ⟨h1, h2, h3⟩ := h
  exact ⟨hstat.trans h1, hrst.trans h2, hsent ▸ h3⟩

/-- The unit's digests of the tick. -/
def Dev.digNow (d : Dev) : Nat × Nat :=
  match d.pair.digs.find? (fun r => r.tick == d.tick) with
  | some r => (r.ds, r.dt)
  | none => (0, 0)

/-- The device as its STATUS leaves. -/
def Dev.statusTaken (d : Dev) : Dev :=
  (d.statusWindow.onPair (fun p => { p with
    ownRel := d.relCause
    askRel := none })).setFld R.pairForce 1 2 0

theorem Dev.statusSend_eq {d : Dev} (h : d.mirLive = true) :
    d.statusSend = (d.atC 10048).statusTaken.mirSend (.status ((d.atC 10048).statusFrame (d.atC 10048).digNow.1 (d.atC 10048).digNow.2)) := by
  have hno : ¬(!(d.atC 10048).mirLive) = true := by
    rw [show (d.atC 10048).mirLive = true from h]
    decide
  exact if_neg hno

theorem Dev.lf_setFld (d : Dev) (o lo w x : Nat) (h : lo + w ≤ 32) : (d.setFld o lo w x).lf o lo w = x % 2 ^ w := by
  rw [Dev.lf, Dev.setFld, Dev.lv_setBoth, fld_mod_pow _ _ _ _ h, fld_fldSet]

theorem statusTaken_leaves (d : Dev) : let e := d.statusTaken
    e.out = d.out ∧ e.evt.errT = false ∧ e.pair.ownRel = d.relCause ∧ e.pair.askRel = none ∧ e.pair.rtSent = d.pair.rtSent ∧ e.mgmtRst = d.mgmtRst ∧
      e.lf R.pairForce 1 2 = 0 ∧ d.keeps e [R.pairForce] := by
  let d1 := d.statusWindow.onPair (fun p => { p with ownRel := d.relCause, askRel := none })
  have hfields : d1.out = d.out ∧ d1.evt.errT = false ∧ d1.pair.ownRel = d.relCause ∧ d1.pair.askRel = none ∧ d1.pair.rtSent = d.pair.rtSent ∧
      d1.mgmtRst = d.mgmtRst ∧ d.keeps d1 [] := ⟨rfl, rfl, rfl, rfl, rfl, rfl, fun _ _ => ⟨rfl, rfl⟩⟩
  have he : d.statusTaken = d1.setFld R.pairForce 1 2 0 := rfl
  clear_value d1
  obtain ⟨hout, herr, hown, hask, hsent, hrst, hk⟩ := hfields
  have hm : d1.marks (d1.setFld R.pairForce 1 2 0) [R.pairForce] [] := .setFld _ _ _ _ (by simp)
  rw [he]
  exact ⟨hm.out.trans hout, herr, by rw [hm.pair, hown], by rw [hm.pair, hask], by rw [hm.pair, hsent], hm.mgmtRst.trans hrst,
    Dev.lf_setFld _ _ _ _ _ (by decide), (hk.mono (by simp)).trans hm.keeps⟩

/-- A STATUS sent (R295, R308, R459). -/
theorem statusSend_leaves {d : Dev} (hlive : d.mirLive = true) (hready : d.mirReady) : let e := d.statusSend
    e.told = d.told ++ [.status ((d.atC 10048).statusFrame (d.atC 10048).digNow.1 (d.atC 10048).digNow.2)] ∧ e.evt.errT = false ∧ e.pair.ownRel = d.relCause ∧
      e.pair.askRel = none ∧ e.lf R.pairForce 1 2 = 0 ∧ d.keepsOut e [Blk.cvu, Blk.pair] := by
  obtain ⟨hout, herr, hown, hask, hsent, hrst, hforce, hk⟩ := statusTaken_leaves (d.atC 10048)
  rw [Dev.statusSend_eq hlive]
  generalize Dev.statusFrame _ _ _ = f
  generalize (d.atC 10048).statusTaken = x at *
  have hready' : x.mirReady := mirReady_congr (d := d) (by rw [Dev.rf, (hk _ (by decide)).1, Dev.rf]; rfl) hrst hsent hready
  obtain ⟨htold, -⟩ := x.mirSend_ready (.status f) hready'
  have ht := x.talks_mirSend (.status f)
  refine ⟨?_, ?_, ?_, ?_, ?_, fun o ho => ?_⟩
  · rw [htold, Dev.told, hout, Dev.told]
    rfl
  · exact ht.errs.1.trans herr
  · rw [ht.pair]
    exact hown
  · rw [ht.pair]
    exact hask
  · rw [ht.lf 1 2 (by decide), hforce]
  · have hblk : o ≠ R.pairForce := fun hc => ho (by rw [hc]; decide)
    have h1 := ht.keepsOut o (fun hc => ho (List.mem_cons.mpr (.inl (List.mem_singleton.mp hc))))
    have h2 := hk o (by simpa using hblk)
    exact ⟨h1.1.trans h2.1, h1.2.trans h2.2⟩

/-! ## A STATUS that arrives -/

/-- What PAIR has heard of the partner's lease, and TIME, are the same at `e` as at `d`. -/
structure Dev.statKept (d e : Dev) : Prop where
  peer : e.pair.peer = d.pair.peer
  peerAt : e.pair.peerAt = d.pair.peerAt
  inTime : e.pair.inTime = d.pair.inTime
  lastHb : e.pair.lastHb = d.pair.lastHb
  lapsed : e.pair.lapsed = d.pair.lapsed
  relRx : e.pair.relRx = d.pair.relRx
  time : e.time = d.time

namespace Dev.statKept

theorem refl (d : Dev) : d.statKept d := ⟨rfl, rfl, rfl, rfl, rfl, rfl, rfl⟩

theorem trans {d e g : Dev} (h : d.statKept e) (k : e.statKept g) : d.statKept g :=
  ⟨k.peer.trans h.peer, k.peerAt.trans h.peerAt, k.inTime.trans h.inTime, k.lastHb.trans h.lastHb, k.lapsed.trans h.lapsed, k.relRx.trans h.relRx, k.time.trans h.time⟩

theorem of_pair {d e : Dev} (hp : e.pair = d.pair) (ht : e.time = d.time) : d.statKept e := by
  constructor
  · rw [hp]
  · rw [hp]
  · rw [hp]
  · rw [hp]
  · rw [hp]
  · rw [hp]
  · exact ht

theorem of_marks {d e : Dev} {l w : List Nat} (h : d.marks e l w) : d.statKept e := by
  refine of_pair h.pair ?_
  obtain ⟨⟨_, _, _, _, _, _, _, _, rfl⟩, -, -⟩ := h
  rfl

theorem of_loadMoves {d e : Dev} (h : d.loadMoves e) : d.statKept e := by
  obtain ⟨x, hx⟩ := h
  have h0 : d.statKept (d.withLdr x) := ⟨rfl, rfl, rfl, rfl, rfl, rfl, rfl⟩
  exact h0.trans (of_marks hx)

theorem of_talks {d e : Dev} (h : d.talks e) : d.statKept e := by
  have hp := h.pair
  have ht : e.time = d.time := (congrArg Dev.time h.eq :)
  constructor
  · rw [hp]
  · rw [hp]
  · rw [hp]
  · rw [hp]
  · rw [hp]
  · rw [hp]
  · exact ht

/-- A change of PAIR's state beside what is heard. -/
theorem onPair (d : Dev) {f : Pair → Pair} (hf : ∀ p, (f p).peer = p.peer ∧ (f p).peerAt = p.peerAt ∧ (f p).inTime = p.inTime ∧ (f p).lastHb = p.lastHb ∧
    (f p).lapsed = p.lapsed ∧ (f p).relRx = p.relRx) : d.statKept (d.onPair f) := by
  obtain ⟨h1, h2, h3, h4, h5, h6⟩ := hf d.pair
  exact ⟨h1, h2, h3, h4, h5, h6, rfl⟩

theorem resyncStop (d : Dev) : d.statKept d.resyncStop := by
  have h1 : d.statKept ((d.setFld R.pairRsstat 0 3 0).setFld R.pairStat 13 1 0) :=
    of_marks ((Dev.marks.setFld (l := [R.pairRsstat, R.pairStat]) (w := []) d 0 3 0 (by simp)).trans (.setFld _ _ _ _ (by simp)))
  have h2 := onPair ((d.setFld R.pairRsstat 0 3 0).setFld R.pairStat 13 1 0) (f := fun p => { p with
    rs := p.rs.idle (d.tick + 96000)
    toRole := if d.paired && d.role == .catchup then some (3, false) else p.toRole }) (fun _ => ⟨rfl, rfl, rfl, rfl, rfl, rfl⟩)
  have h3 (x : Dev) : x.statKept { x with replayT := none } := ⟨rfl, rfl, rfl, rfl, rfl, rfl, rfl⟩
  rw [Dev.resyncStop]
  exact (h1.trans h2).trans (h3 _)

theorem resyncAbort (d : Dev) (cause : Nat) : d.statKept (d.resyncAbort cause) := by
  have hm : d.marks ((d.bump (R.pairCnt 5) 1).raise Blk.pair Src.pairResyncAbort cause d.tickLo 0) [R.fltstat Blk.pair, R.fltfirst Blk.pair] [R.pairCnt 5] :=
    (Dev.marks.bump d 1 (by simp)).trans (.raise _ _ _ _ _ _ (by simp) (by simp))
  rw [Dev.resyncAbort]
  exact ((of_marks hm).trans (of_talks (Dev.talks_mirSend _ _))).trans (resyncStop _)

theorem ringTick (d : Dev) (t add : Nat) (f : TickRec → TickRec) : d.statKept (d.ringTick t add f) := by
  unfold Dev.ringTick
  split
  · exact refl d
  extract_lets hit ring
  have h1 := onPair d (f := fun p => { p with rs := { p.rs with ring := ring } }) (fun _ => ⟨rfl, rfl, rfl, rfl, rfl, rfl⟩)
  refine h1.trans ?_
  generalize d.onPair (fun p => { p with rs := { p.rs with ring := ring } }) = x
  unfold Dev.ringGrow
  extract_lets n
  split
  · exact resyncAbort x 1
  · exact (onPair x (f := fun p => { p with rs := { p.rs with used := n } }) (fun _ => ⟨rfl, rfl, rfl, rfl, rfl, rfl⟩)).trans
      (of_marks (Dev.marks.setFld (l := [R.pairRsstat]) (w := []) _ _ _ _ (by simp)))

theorem statusDigest (d : Dev) (f : StatusF) : d.statKept (d.statusDigest f) := by
  unfold Dev.statusDigest
  split
  · exact onPair d (fun _ => ⟨rfl, rfl, rfl, rfl, rfl, rfl⟩)
  · exact refl d

theorem peerChanged (d : Dev) (f : StatusF) : d.statKept (d.peerChanged f) := by
  unfold Dev.peerChanged
  extract_lets d1
  have h1 : d.statKept d1 := by
    simp only [d1]
    split
    · exact of_loadMoves (d.loadRole_moves _)
    · exact refl d
  refine h1.trans ?_
  split
  · exact (of_marks (Dev.marks.setFld (l := [R.pairRsstat]) (w := []) d1 0 3 0 (by simp))).trans (onPair _ (fun _ => ⟨rfl, rfl, rfl, rfl, rfl, rfl⟩))
  · exact refl d1

theorem epochConflict (d : Dev) (f : StatusF) : d.statKept (d.epochConflict f) := by
  unfold Dev.epochConflict
  split
  · exact refl d
  extract_lets own d1
  have h1 : d.statKept d1 := of_marks (Dev.marks.raise (l := [R.fltstat Blk.pair, R.fltfirst Blk.pair]) (w := []) d _ _ _ _ _ (by simp) (by simp))
  split
  · exact h1.trans (onPair d1 (fun _ => ⟨rfl, rfl, rfl, rfl, rfl, rfl⟩))
  · exact h1

end Dev.statKept

/-- What a timely STATUS leaves of the lease (R296). -/
theorem statusLease_leaves (d : Dev) (f : StatusF) : let e := d.statusLease f
    (f.hb = true → e.pair.lastHb = some d.tick ∧ e.pair.lapsed = false) ∧ (∀ cause next, f.release = some (cause, next) → e.pair.relRx = some (f.tick, next, cause)) ∧
      e.pair.peer = d.pair.peer ∧ e.pair.peerAt = d.pair.peerAt ∧ e.pair.inTime = d.pair.inTime := by
  let d1 := if f.hb then (d.onPair (fun p => { p with lastHb := some d.tick, lapsed := false })).epochConflict f else d
  have h1 : (f.hb = true → d1.pair.lastHb = some d.tick ∧ d1.pair.lapsed = false) ∧ d1.pair.peer = d.pair.peer ∧ d1.pair.peerAt = d.pair.peerAt ∧ d1.pair.inTime = d.pair.inTime := by
    by_cases hb : f.hb = true
    · have hk := Dev.statKept.epochConflict (d.onPair (fun p => { p with lastHb := some d.tick, lapsed := false })) f
      simp only [d1, if_pos hb]
      exact ⟨fun _ => ⟨hk.lastHb, hk.lapsed⟩, hk.peer, hk.peerAt, hk.inTime⟩
    · rw [show d1 = d from if_neg hb]
      exact ⟨fun h => absurd h hb, rfl, rfl, rfl⟩
  have he : d.statusLease f = match f.release with
    | some (cause, next) => d1.onPair (fun p => { p with relRx := some (f.tick, next, cause) })
    | none => d1 := rfl
  clear_value d1
  obtain ⟨hhb, hp1, hp2, hp3⟩ := h1
  rw [he]
  split
  · rename_i cause next hrel
    refine ⟨hhb, fun cause' next' h => ?_, hp1, hp2, hp3⟩
    obtain ⟨rfl, rfl⟩ := Prod.mk.inj (Option.some.inj (hrel.symm.trans h))
    rfl
  · rename_i hrel
    exact ⟨hhb, fun _ _ h => absurd (hrel.symm.trans h) (by simp), hp1, hp2, hp3⟩

/-- A STATUS taken: what is heard of the partner (R296, R300, R308). -/
theorem statusReceive_leaves (d : Dev) (f : StatusF) (c : Nat) (hpaired : d.paired = true) (hrole : d.role ≠ .isolated) (hrst : d.mgmtRst = none) :
    let timely := f.tick = d.tick ∧ c ≤ 10175
    let e := d.statusReceive f c
    e.pair.peer = some f ∧ e.pair.peerAt = d.tick ∧ (e.pair.inTime = true ↔ timely) ∧ (timely → f.hb = true → e.pair.lastHb = some d.tick ∧ e.pair.lapsed = false) ∧
      (timely → ∀ cause next, f.release = some (cause, next) → e.pair.relRx = some (f.tick, next, cause)) ∧
      (timely → e.time.fwd = some (f.tick + 1, f.mapD, f.disc, f.creep)) ∧
      (¬timely → e.pair.lastHb = d.pair.lastHb ∧ e.pair.relRx = d.pair.relRx ∧ e.time = d.time) := by
  intro timely
  let tm := f.tick == d.tick && decide (c ≤ 10175)
  have htm : tm = true ↔ timely := by
    simp only [tm, timely, Bool.and_eq_true, beq_iff_eq, decide_eq_true_eq]
  let d0 := (d.atC c).onPair (fun p => { p with peer := some f, peerAt := d.tick, inTime := tm })
  let d1 := if tm then d0.statusLease f else d0
  let d2 := (d1.statusDigest f).peerChanged f
  let d3 := if tm then { d2 with time := { d2.time with fwd := some (f.tick + 1, f.mapD, f.disc, f.creep) } } else d2
  have he : d.statusReceive f c = (d3.ringTick (f.tick + 1) 0 (fun r => { r with map := some (f.mapD, f.disc, f.creep) })).ringTick f.tick 0
      (fun r => { r with digest := some (f.ds, f.dt, f.errmark) }) := by
    have h1 : ¬d.mgmtRst.isSome = true := by
      rw [hrst]
      decide
    have h2 : ¬(!d.paired) = true := by
      rw [hpaired]
      decide
    have h3 : ¬(d.role == .isolated) = true := fun h => hrole (beq_iff_eq.mp h)
    exact ((if_neg h1).trans (if_neg h2)).trans (if_neg h3)
  have h12 : d1.statKept d2 := (Dev.statKept.statusDigest d1 f).trans (Dev.statKept.peerChanged _ f)
  have h3e : d3.statKept (d.statusReceive f c) := he ▸ (Dev.statKept.ringTick d3 _ _ _).trans (Dev.statKept.ringTick _ _ _ _)
  obtain ⟨hhb, hrel, hp1, hp2, hp3⟩ := statusLease_leaves d0 f
  have hd0 : d0.pair.peer = some f ∧ d0.pair.peerAt = d.tick ∧ d0.pair.inTime = tm ∧ d0.tick = d.tick ∧ d0.pair.lastHb = d.pair.lastHb ∧ d0.pair.relRx = d.pair.relRx ∧
      d0.time = d.time := ⟨rfl, rfl, rfl, rfl, rfl, rfl, rfl⟩
  obtain ⟨hpeer, hat, hin, htick, hhb0, hrel0, htime0⟩ := hd0
  by_cases ht : tm = true
  · have hd1 : d1 = d0.statusLease f := if_pos ht
    have hd3 : d3 = { d2 with time := { d2.time with fwd := some (f.tick + 1, f.mapD, f.disc, f.creep) } } := if_pos ht
    have htl := htm.mp ht
    clear_value d0 d1 d2 d3
    subst hd1 hd3
    refine ⟨?_, ?_, ?_, fun _ hb => ⟨?_, ?_⟩, fun _ cause next hr => ?_, fun _ => ?_, fun hno => absurd htl hno⟩
    · exact h3e.peer.trans (h12.peer.trans (hp1.trans hpeer))
    · exact h3e.peerAt.trans (h12.peerAt.trans (hp2.trans hat))
    · rw [h3e.inTime.trans (h12.inTime.trans (hp3.trans hin))]
      exact htm
    · exact (h3e.lastHb.trans (h12.lastHb.trans (hhb hb).1)).trans (by rw [htick])
    · exact h3e.lapsed.trans (h12.lapsed.trans (hhb hb).2)
    · exact h3e.relRx.trans (h12.relRx.trans (hrel cause next hr))
    · rw [h3e.time]
  · have hd1 : d1 = d0 := if_neg ht
    have hd3 : d3 = d2 := if_neg ht
    have htl : ¬timely := fun h => ht (htm.mpr h)
    clear_value d0 d1 d2 d3
    subst hd1 hd3
    refine ⟨?_, ?_, ?_, fun h => absurd h htl, fun h => absurd h htl, fun h => absurd h htl, fun _ => ⟨?_, ?_, ?_⟩⟩
    · exact h3e.peer.trans (h12.peer.trans hpeer)
    · exact h3e.peerAt.trans (h12.peerAt.trans hat)
    · rw [h3e.inTime.trans (h12.inTime.trans hin)]
      exact htm
    · exact h3e.lastHb.trans (h12.lastHb.trans hhb0)
    · exact h3e.relRx.trans (h12.relRx.trans hrel0)
    · exact h3e.time.trans (h12.time.trans htime0)

/-! ## Tick adoption -/

/-- A FALLOW unit adopts the partner's tick (R304). -/
theorem tickAdopt_leaves (d : Dev) (c : Nat) {f : StatusF} (hpeer : d.pair.peer = some f) (hpaired : d.paired = true) (hrole : d.role = .fallow) (hmode : d.clkMode = 2)
    (hsel : d.clkSel = some 3) (hno : d.rf R.pairStat 10 1 = 0) : let e := d.tickAdopt c
    e.pair.adopt = some (f.tick + (d.tick - d.pair.peerAt) + 1) ∧ e.rf R.pairStat 10 1 = 1 ∧ d.keeps e [R.pairStat] := by
  let d1 := (d.atC c).onPair (fun p => { p with adopt := some (f.tick + (d.tick - d.pair.peerAt) + 1) })
  have hcond : ((d.atC c).paired && (d.atC c).role == .fallow && (d.atC c).clkMode == 2 && (d.atC c).clkSel == some 3 &&
      ((d.atC c).rf R.pairStat 10 1 == 0 || f.tick + ((d.atC c).tick - (d.atC c).pair.peerAt) != (d.atC c).tick)) = true := by
    rw [show (d.atC c).paired = true from hpaired, show (d.atC c).role = .fallow from hrole, show (d.atC c).clkMode = 2 from hmode,
      show (d.atC c).clkSel = some 3 from hsel, show (d.atC c).rf R.pairStat 10 1 = 0 from hno]
    rfl
  have he : d.tickAdopt c = d1.setFld R.pairStat 10 1 1 := by
    unfold Dev.tickAdopt
    simp only [show (d.atC c).pair.peer = some f from hpeer, if_pos hcond]
    rfl
  have hk : d.keeps d1 [R.pairStat] := fun _ _ => ⟨rfl, rfl⟩
  have hp : d1.pair.adopt = some (f.tick + (d.tick - d.pair.peerAt) + 1) := rfl
  clear_value d1
  have hm : d1.marks (d1.setFld R.pairStat 10 1 1) [R.pairStat] [] := .setFld _ _ _ _ (by simp)
  rw [he]
  exact ⟨by rw [hm.pair, hp], Dev.rf_setFld _ _ _ _ _ (by decide), hk.trans hm.keeps⟩

/-! ## Identity -/

/-- What kind of mismatch there is between the partner's identity and the unit's own: none is 0. -/
def Dev.mismatch (d : Dev) (sysid dram : Nat) : Nat := if sysid ≠ d.reg R.sysId then 1 else if dram % 2 ≠ d.lf R.ddrCfg 0 1 then 2 else 0

theorem mismatch_eq_zero {d : Dev} {sysid dram : Nat} : d.mismatch sysid dram = 0 ↔ sysid = d.reg R.sysId ∧ dram % 2 = d.lf R.ddrCfg 0 1 := by
  rw [Dev.mismatch]
  split_ifs with h1 h2
  · simp [h1]
  · simp [h2]
  · simpa using ⟨not_not.mp h1, not_not.mp h2⟩

theorem Dev.identityCheck_none {d : Dev} (h : d.pair.ident = none) : d.identityCheck = d := by
  unfold Dev.identityCheck
  rw [h]

/-- The unit whose identity agrees, the lease holder, and one that takes part in no traffic do nothing (R14). -/
theorem Dev.identityCheck_idle {d : Dev} {sysid dram : Nat} (hid : d.pair.ident = some (sysid, dram))
    (h : d.mismatch sysid dram = 0 ∨ d.role = .active ∨ d.mirLive = false) : d.identityCheck = d := by
  have hcond : d.mismatch sysid dram = 0 ∨ (d.role == .active) = true ∨ (!d.mirLive) = true :=
    h.imp_right (fun h => h.imp beq_iff_eq.mpr (fun h => by rw [h]; rfl))
  unfold Dev.identityCheck
  rw [hid]
  exact if_pos hcond

theorem Dev.identityCheck_mismatch {d : Dev} {sysid dram : Nat} (hid : d.pair.ident = some (sysid, dram)) (hmis : d.mismatch sysid dram ≠ 0) (hrole : d.role ≠ .active)
    (hlive : d.mirLive = true) : let e := d.identityCheck
    e.pair.toRole = some (4, false) ∧ e.pair.ident = some (sysid, dram) ∧ e.flag Blk.pair Src.pairPartnerMismatch := by
  have hcond : ¬(d.mismatch sysid dram = 0 ∨ (d.role == .active) = true ∨ (!d.mirLive) = true) := by
    rintro (h | h | h)
    · exact hmis h
    · exact hrole (beq_iff_eq.mp h)
    · rw [hlive] at h
      exact absurd h (by decide)
  have hraise : ∃ d0 d1 d2, d.identityCheck = (d.raise Blk.pair Src.pairPartnerMismatch d0 d1 d2).onPair (fun p => { p with toRole := some (4, false) }) := by
    rw [Dev.mismatch] at hcond
    unfold Dev.identityCheck
    rw [hid]
    simp only
    generalize (if sysid ≠ d.reg R.sysId then 1 else if dram % 2 ≠ d.lf R.ddrCfg 0 1 then 2 else 0) = kind at hcond ⊢
    rw [if_neg hcond]
    split
    · exact ⟨_, _, _, rfl⟩
    · exact ⟨_, _, _, rfl⟩
  obtain ⟨d0, d1, d2, he⟩ := hraise
  rw [he]
  have hpair : (d.raise Blk.pair Src.pairPartnerMismatch d0 d1 d2).pair = d.pair := Dev.raise_pair ..
  have hflag : (d.raise Blk.pair Src.pairPartnerMismatch d0 d1 d2).flag Blk.pair Src.pairPartnerMismatch := Dev.flag_raise _ _ _ _ _ _ (by decide)
  generalize d.raise Blk.pair Src.pairPartnerMismatch d0 d1 d2 = x at *
  exact ⟨rfl, (congrArg Pair.ident hpair).trans hid, hflag⟩

/-- The registers of a unit that becomes paired as the lead, but for its role. -/
def Dev.pairedUp (d : Dev) : Dev := ((d.setFld R.pairCtrl 31 1 1).setFld R.pairStat 10 1 0).setReg R.pairEpoch 1

theorem Dev.pairedUp_leaves (d : Dev) : d.pairedUp.rf R.pairCtrl 31 1 = 1 ∧ d.marks d.pairedUp [R.pairCtrl, R.pairStat, R.pairEpoch] [] := by
  constructor
  · rw [Dev.pairedUp, Dev.rf_setReg_ne _ _ _ _ _ (by decide), Dev.rf_setFld_ne _ _ _ _ _ _ _ (by decide), Dev.rf_setFld _ _ _ _ _ (by decide)]
    rfl
  · exact ((Dev.marks.setFld d _ _ _ (by simp)).trans (.setFld _ _ _ _ (by simp))).trans (.setReg _ _ (by simp))

/-- A unit that becomes paired as the lead, before it tells its identity. -/
def Dev.leading (d : Dev) : Dev :=
  ((d.pairedUp.setFld R.pairStat 0 3 0).setPins true true).onPair (fun p => { p with
    renew := d.tick
    pinsUntil := 0
    lapsed := false
    bridgeEnd := false })

theorem Dev.keeps_onPair (d : Dev) (f : Pair → Pair) (l : List Nat) : d.keeps (d.onPair f) l := fun _ _ => ⟨rfl, rfl⟩

theorem Dev.leading_leaves (d : Dev) : let e := d.leading
    e.paired = true ∧ e.role = .active ∧ e.mgmtRst = d.mgmtRst ∧ e.out = d.out ∧ e.pair.rtSent = d.pair.rtSent ∧ d.keeps e [R.pairCtrl, R.pairStat, R.pairEpoch] := by
  obtain ⟨hpaired, h1⟩ := d.pairedUp_leaves
  have h2 : d.pairedUp.marks (d.pairedUp.setFld R.pairStat 0 3 0) [R.pairStat] [] := .setFld _ _ _ _ (by simp)
  have hrole : (d.pairedUp.setFld R.pairStat 0 3 0).rf R.pairStat 0 3 = 0 := Dev.rf_setFld _ _ _ _ _ (by decide)
  have he : ∃ f : Pair → Pair, d.leading = ((d.pairedUp.setFld R.pairStat 0 3 0).setPins true true).onPair f ∧ ∀ p, (f p).rtSent = p.rtSent := ⟨_, rfl, fun _ => rfl⟩
  obtain ⟨f, he, hf⟩ := he
  rw [he]
  generalize d.pairedUp = d1 at *
  generalize d1.setFld R.pairStat 0 3 0 = d2 at *
  obtain ⟨-, -, hlow, -, h3⟩ := d2.setPins_leaves true true
  refine ⟨?_, ?_, ?_, ?_, ?_, fun o ho => ?_⟩
  · rw [Dev.paired, Dev.rf_onPair, h3.rf 31 1 (by decide), h2.rf 31 1 (by decide), hpaired]
    rfl
  · rw [Dev.role_onPair, Dev.role, hlow 0 3 (by decide), hrole]
    rfl
  · rw [Dev.onPair_mgmtRst, h3.mgmtRst, h2.mgmtRst, h1.mgmtRst]
  · rw [Dev.onPair_out, h3.out, h2.out, h1.out]
  · rw [Dev.onPair_pair, hf, h3.pair, h2.pair, h1.pair]
  · exact (((h1.keeps.trans (h2.keeps.mono (by simp))).trans (h3.keeps.mono (by simp))).trans (Dev.keeps_onPair _ f _)) o ho

/-- A unit that becomes paired as the lead tells its identity (R14). -/
theorem pairEnable_lead (d : Dev) (h : d.mirReady) : (d.pairEnable true).told = d.told ++ [.identity (d.reg R.sysId) (d.lv R.ddrCfg)] := by
  obtain ⟨hpaired, hrole, hrst, hout, hsent, hk⟩ := d.leading_leaves
  have he : d.pairEnable true = d.leading.identitySend.identityCheck := rfl
  rw [he]
  generalize d.leading = x at *
  have hready : x.mirReady := mirReady_congr (d := d) (by rw [Dev.rf, (hk _ (by decide)).1, Dev.rf]) hrst hsent h
  have hlive : x.mirLive = true := mirLive_iff.mpr ⟨hpaired, by rw [hrole]; decide, hrst.trans h.2.1⟩
  have hsend : x.identitySend = x.mirSend (.identity (d.reg R.sysId) (d.lv R.ddrCfg)) := by
    rw [Dev.identitySend, if_pos hlive, (hk R.sysId (by decide)).1, (hk R.ddrCfg (by decide)).2]
  have ht := x.talks_mirSend (.identity (d.reg R.sysId) (d.lv R.ddrCfg))
  obtain ⟨htold, -⟩ := x.mirSend_ready (.identity (d.reg R.sysId) (d.lv R.ddrCfg)) hready
  rw [hsend]
  generalize x.mirSend (.identity (d.reg R.sysId) (d.lv R.ddrCfg)) = s at *
  have hrole' : s.role = .active := (Dev.role_congr (ht.rf 0 3 (by decide))).trans hrole
  have hcheck : s.identityCheck = s := by
    cases hid : s.pair.ident with
    | none => exact Dev.identityCheck_none hid
    | some x => exact Dev.identityCheck_idle hid (.inr (.inl hrole'))
  rw [hcheck, htold, Dev.told, hout, Dev.told]

/-! ## What is heard through the header -/

theorem Dev.hears.mgmtRst {d e : Dev} (h : d.hears e) : e.mgmtRst = d.mgmtRst := by
  obtain ⟨g, rfl | ⟨c, rx, rfl⟩, ht⟩ := h
  · exact (congrArg Dev.mgmtRst ht.eq :)
  · exact (congrArg Dev.mgmtRst ht.eq :)

theorem Dev.hears.tick {d e : Dev} (h : d.hears e) : e.tick = d.tick := by
  obtain ⟨g, rfl | ⟨c, rx, rfl⟩, ht⟩ := h
  · exact ht.tick
  · exact ht.tick

theorem Dev.hears.statKept {d e : Dev} (h : d.hears e) : d.statKept e := by
  obtain ⟨g, rfl | ⟨c, rx, rfl⟩, ht⟩ := h
  · exact .of_talks ht
  · have h0 : d.statKept ((d.atC c).bump (R.mirCnt 1) 1) := ⟨rfl, rfl, rfl, rfl, rfl, rfl, rfl⟩
    have h1 := Dev.statKept.onPair ((d.atC c).bump (R.mirCnt 1) 1) (f := fun p => { p with rxSeq := rx }) (fun _ => ⟨rfl, rfl, rfl, rfl, rfl, rfl⟩)
    exact (h0.trans h1).trans (.of_talks ht)

theorem Dev.hears.paired {d e : Dev} (h : d.hears e) : e.paired = d.paired := by rw [Dev.paired, h.rf 31 1 (by decide), Dev.paired]

theorem Dev.hears.role {d e : Dev} (h : d.hears e) : e.role = d.role := Dev.role_congr (h.rf 0 3 (by decide))

theorem Dev.hears.mirLive {d e : Dev} (h : d.hears e) : e.mirLive = d.mirLive := by rw [Dev.mirLive, h.paired, h.role, h.mgmtRst, Dev.mirLive]

/-- The partner's identity as it arrives (R14). -/
theorem identityReceive_eq {d : Dev} (sysid dram c : Nat) (hrst : d.mgmtRst = none) :
    d.identityReceive sysid dram c = ((d.atC c).onPair (fun p => { p with ident := some (sysid, dram) })).identityCheck := by
  have hno : ¬d.mgmtRst.isSome = true := by
    rw [hrst]
    decide
  exact if_neg hno

/-- Settles O39: row by row. -/
theorem statusFrames : Obligations.StatusFrames := by
  intro z h c hrun d
  have hx := d.hears_mirHead h
  refine ⟨fun hlive hready => ⟨_, leads_of_tickRow rfl hrun (statusSend_leaves hlive hready), rfl, rfl, rfl, rfl, rfl, rfl⟩, fun hlive => ?_,
    fun f hpaired hrole hrst => ?_, fun f hpeer hpaired hrole hmode hsel hno => ?_, fun sysid dram hpaired hrst => ?_, fun e _ hready => pairEnable_lead e hready,
    fun sysid dram hlive => ⟨fun hmis hrole => ?_, fun hsame => ?_⟩⟩
  · refine exec_tickRow_still rfl hrun (if_pos ?_)
    rw [show (d.atC 10048).mirLive = false from hlive]
    rfl
  · intro timely
    refine leads_of_mirRow rfl hrun hrst ?_
    obtain ⟨hpeer, hat, hin, hhb, hrel, hfwd, hlate⟩ :=
      statusReceive_leaves (d.mirHead h) f h.c (hx.paired.trans hpaired) (by rw [hx.role]; exact hrole) (hx.mgmtRst.trans hrst)
    rw [hx.tick] at hat hin hhb hrel hfwd hlate
    refine ⟨hpeer, hat, hin, hhb, hrel, hfwd, fun hno => ?_⟩
    obtain ⟨h1, h2, h3⟩ := hlate hno
    exact ⟨h1.trans hx.statKept.lastHb, h2.trans hx.statKept.relRx, h3.trans hx.statKept.time⟩
  · exact leads_of_tickRow rfl hrun (tickAdopt_leaves d c hpeer hpaired hrole hmode hsel hno)
  · refine leads_of_mirRow rfl hrun hrst ?_
    have hdead := mirLive_false_of_unpaired hpaired
    rw [d.mirHead_dead h hdead, identityReceive_eq _ _ _ hrst,
      Dev.identityCheck_idle (d := (d.atC h.c).onPair (fun p => { p with ident := some (sysid, dram) })) rfl (.inr (.inr hdead))]
    exact ⟨rfl, fun _ _ => ⟨rfl, rfl⟩⟩
  · have hrst : d.mgmtRst = none := (mirLive_iff.mp hlive).2.2
    refine leads_of_mirRow rfl hrun hrst ?_
    rw [identityReceive_eq _ _ _ (hx.mgmtRst.trans hrst)]
    have hne : ((d.mirHead h).atC h.c).mismatch sysid dram ≠ 0 := by
      rw [Ne, mismatch_eq_zero, Dev.reg_atC, hx.reg (by decide), show ((d.mirHead h).atC h.c).lf R.ddrCfg 0 1 = d.lf R.ddrCfg 0 1 from hx.lf 0 1 (by decide)]
      rintro ⟨h1, h2⟩
      exact hmis.elim (fun k => k h1) (fun k => k h2)
    exact Dev.identityCheck_mismatch (d := ((d.mirHead h).atC h.c).onPair (fun p => { p with ident := some (sysid, dram) })) rfl hne (by rw [Dev.role_onPair]; exact hx.role.symm ▸ hrole)
      (hx.mirLive.trans hlive)
  · have hrst : d.mgmtRst = none := (mirLive_iff.mp hlive).2.2
    refine leads_of_mirRow rfl hrun hrst ?_
    rw [identityReceive_eq _ _ _ (hx.mgmtRst.trans hrst)]
    have hidle : ((d.mirHead h).atC h.c).mismatch sysid dram = 0 ∨ (d.mirHead h).role = .active := by
      rw [mismatch_eq_zero, Dev.reg_atC, hx.reg (by decide), show ((d.mirHead h).atC h.c).lf R.ddrCfg 0 1 = d.lf R.ddrCfg 0 1 from hx.lf 0 1 (by decide), hx.role]
      exact hsame
    rw [Dev.identityCheck_idle (d := ((d.mirHead h).atC h.c).onPair (fun p => { p with ident := some (sysid, dram) })) rfl (hidle.imp_right .inl)]
    rfl

end Sys2Proof.Machine

/-!
PROOFS. Forwarded local inputs, presence maps, packets and MOD blocks (R226, R287, R305, R306).
-/
namespace Sys2Proof.Machine

/-! ## Words written one after another -/

theorem Memory.bytes_congr {m n : Memory} (a k : Nat) (h : ∀ x, a ≤ x → x < a + k → m.get x = n.get x) : m.bytes a k = n.bytes a k := by
  induction k generalizing a with
  | zero => rfl
  | succ k ih =>
    rw [Memory.bytes, Memory.bytes, h a (le_refl a) (by omega), ih (a + 1) (fun x h1 h2 => h x (by omega) (by omega))]

theorem Memory.word_putWord_ne {m : Memory} (a b : Nat) (w : Word) (hw : m.wf = true) (h : b + 4 ≤ a ∨ a + 4 ≤ b) : (m.putWord b w).word a = m.word a := by
  rw [Memory.word, Memory.bytes_congr a 4 (fun x h1 h2 => Memory.get_putWord_ne m b x w (by omega) hw), Memory.word]

theorem storeWords_wf {m : Memory} (ws : List (Nat × Nat)) (hw : m.wf = true) :
    (ws.foldl (fun (m : Memory) w => m.putWord w.1 (BitVec.ofNat 32 w.2)) m).wf = true :=
  Memory.foldl_wf ws _ (fun m w h => Memory.putWord_wf m w.1 _ h) m hw

/-- Words stored leave every byte outside them. -/
theorem get_storeWords_ne {m : Memory} (ws : List (Nat × Nat)) (x : Nat) (hw : m.wf = true) (hx : ∀ w ∈ ws, x < w.1 ∨ w.1 + 4 ≤ x) :
    (ws.foldl (fun (m : Memory) w => m.putWord w.1 (BitVec.ofNat 32 w.2)) m).get x = m.get x := by
  induction ws generalizing m with
  | nil => rfl
  | cons w ws ih =>
    rw [List.foldl_cons, ih (Memory.putWord_wf m w.1 _ hw) (fun v hv => hx v (List.mem_cons_of_mem _ hv)),
      Memory.get_putWord_ne m w.1 x _ (hx w List.mem_cons_self) hw]

/-- A word apart from those stored keeps its value. -/
theorem word_storeWords_ne {m : Memory} (ws : List (Nat × Nat)) (a : Nat) (hw : m.wf = true) (ha : ∀ w ∈ ws, w.1 + 4 ≤ a ∨ a + 4 ≤ w.1) :
    (ws.foldl (fun (m : Memory) w => m.putWord w.1 (BitVec.ofNat 32 w.2)) m).word a = m.word a := by
  rw [Memory.word, Memory.bytes_congr a 4 (fun x h1 h2 => get_storeWords_ne ws x hw (fun w hwm => by
    have := ha w hwm
    omega)), Memory.word]

/-- Of words stored at places 4 bytes apart each has its value. -/
theorem word_storeWords {m : Memory} (base : Nat) (v : Nat → Word) (l : List Nat) (hl : l.Nodup) (hw : m.wf = true) {i : Nat} (hi : i ∈ l) :
    ((l.map (fun i => (base + 4 * i, (v i).toNat))).foldl (fun (m : Memory) w => m.putWord w.1 (BitVec.ofNat 32 w.2)) m).word (base + 4 * i) = v i := by
  induction l generalizing m with
  | nil => exact absurd hi (by simp)
  | cons j l ih =>
    obtain ⟨hj, hl'⟩ := List.nodup_cons.mp hl
    have hw' := Memory.putWord_wf m (base + 4 * j) (BitVec.ofNat 32 (v j).toNat) hw
    rw [List.map_cons, List.foldl_cons]
    by_cases hij : i = j
    · subst hij
      rw [word_storeWords_ne _ _ hw', Memory.word_putWord _ _ _ hw, BitVec.ofNat_toNat, BitVec.setWidth_eq]
      intro w hwm
      obtain ⟨k, hk, rfl⟩ := List.mem_map.mp hwm
      have hne : k ≠ i := fun hc => hj (hc ▸ hk)
      simp only
      omega
    · exact ih hl' hw' ((List.mem_cons.mp hi).resolve_left hij)

/-! ## What stays through the header -/

section
variable {d e : Dev} (h : d.hears e)
include h

theorem Dev.hears.strm : e.strm = d.strm := (congrArg Dev.strm h.eq :)

theorem Dev.hears.mod : e.mod = d.mod := (congrArg Dev.mod h.eq :)

theorem Dev.hears.engTick : e.engTick = d.engTick := by
  have h1 : e.replayT = d.replayT := (congrArg Dev.replayT h.eq :)
  rw [Dev.engTick, h1, h.tick, Dev.engTick]

theorem Dev.hears.phase : e.phase = d.phase := by rw [Dev.phase, h.rf 0 3 (by decide), Dev.phase]

theorem Dev.hears.lockstep : e.lockstep = d.lockstep := by rw [Dev.lockstep, h.paired, h.role, h.phase, Dev.lockstep]

theorem Dev.hears.recording : e.recording = d.recording := by rw [Dev.recording, h.paired, h.role, h.phase, Dev.recording]

theorem Dev.hears.strmPaired : e.strmPaired = d.strmPaired := by
  rw [Dev.strmPaired, h.paired, h.role, Dev.peerRole, h.statKept.peer, Dev.strmPaired, Dev.peerRole]

/-- The landing state and the words buffered stay. -/
theorem Dev.hears.landing : e.pair.landT = d.pair.landT ∧ e.pair.landed = d.pair.landed ∧ e.pair.fwdBuf = d.pair.fwdBuf := by
  have hp : e.pair = _ := (congrArg Dev.pair h.eq :)
  rw [hp]
  exact ⟨rfl, rfl, rfl⟩

end

/-- A unit in lockstep does not record for a replay. -/
theorem recording_of_lockstep {d : Dev} (h : d.lockstep = true) : d.recording = false := by
  rw [Dev.lockstep, Bool.and_eq_true, Bool.or_eq_true, Bool.and_eq_true, beq_iff_eq, beq_iff_eq, beq_iff_eq] at h
  obtain ⟨hp, hr | ⟨hr, hph⟩⟩ := h
  · rw [Dev.recording, hr, hp]
    rfl
  · rw [Dev.recording, hp, hr, hph]
    rfl

/-! ## Local inputs -/

/-- What is kept while each of a list acts is kept by all. -/
theorem each_keeps {α β : Type} (p : Dev → β) (f : α → Dev → Dev) (hf : ∀ x d, p (f x d) = p d) (l : List α) (d : Dev) : p (each l f d) = p d := by
  induction l generalizing d with
  | nil => rfl
  | cons x l ih => exact (ih (f x d)).trans (hf x d)

theorem Dev.tdmStat_pair (d : Dev) (p : Nat) : (d.tdmStat p).pair = d.pair := by
  unfold Dev.tdmStat
  extract_lets t f fad q st d1 d2
  have h1 : d1.pair = d.pair := Dev.setFld_pair ..
  have h2 : d2.pair = d1.pair := (Dev.setFld_pair ..).trans (Dev.setFld_pair ..)
  exact ((Dev.setFld_pair ..).trans h2).trans h1

/-- Slip decisions leave PAIR's state. -/
theorem Dev.decsIn_pair (d : Dev) (dest : Nat) (decs : List (Nat × Nat × Nat)) : (d.decsIn dest decs).pair = d.pair := by
  rw [Dev.decsIn]
  refine (each_keeps Dev.pair _ (fun y e => ?_) decs _).trans rfl
  split
  · rw [Dev.slipApply, Dev.tdmStat_pair, Dev.onTdm_pair, Dev.onTdm_pair]
  · rfl

/-- A word that lands (R305). -/
theorem landWords_leaves (s : Sys) (t i v : Nat) (hw : s.mem.wf = true) (hi : i ≤ 0x121) : let r := s.landWords t [(i, v)]
    s.stored r (fwdLand (t % 2) + 4 * i) (leBytes 4 (v % 2 ^ 32)) ∧ r.dev.pair.landT = t ∧ i ∈ r.dev.pair.landed ∧ r.otp = s.otp := by
  have hf : [(i, v)].filter (fun w => decide (w.1 ≤ 0x121)) = [(i, v)] := by
    rw [List.filter_cons, if_pos (decide_eq_true hi)]
    rfl
  have hlen : (leBytes 4 (v % 2 ^ 32)).length = 4 := length_leBytes ..
  have hmem : (s.landWords t [(i, v)]).mem = s.mem.putBytes (fwdLand (t % 2) + 4 * i) (leBytes 4 (v % 2 ^ 32)) := by
    rw [Sys.landWords]
    simp only [hf]
    show s.mem.putWord (fwdLand (t % 2) + 4 * i) (BitVec.ofNat 32 v) = _
    rw [Memory.putWord, BitVec.toNat_ofNat]
  refine ⟨⟨?_, fun x hx => ?_⟩, rfl, ?_, rfl⟩
  · rw [hmem]
    exact Memory.bytes_putBytes _ _ _ hw
  · rw [hmem]
    exact Memory.get_putBytes_ne _ _ _ _ hx hw
  · refine List.mem_append_right _ ?_
    rw [hf]
    exact List.mem_singleton_self i

/-- A forwarded word, in its window or before it (R305). -/
theorem localsReceive_eq {s : Sys} {dest c : Nat} {words : List (Nat × Nat)} {decs : List (Nat × Nat × Nat)} (hlive : s.dev.mirLive = true) (hlock : s.dev.lockstep = true) :
    let s1 := (s.onDev (fun d => d.atC c)).onDev (fun d => d.decsIn dest decs)
    s.localsReceive dest words decs c =
      if (s.dev.tick + 1 = dest ∧ windowEnd ≤ c) ∨ (s.dev.tick = dest ∧ c < 1024) then s1.landWords dest words
      else if s.dev.tick < dest then
        s1.onDev (fun d => d.onPair (fun p => { p with
          fwdBuf := tabSet p.fwdBuf dest ((tabGet p.fwdBuf dest).getD [] ++ words) }))
      else s1 := by
  have h1 : ¬(!s.dev.mirLive) = true := by
    rw [hlive]
    decide
  have h2 : ¬(s.dev.atC c).recording = true := by
    rw [show (s.dev.atC c).recording = s.dev.recording from rfl, recording_of_lockstep hlock]
    decide
  have h3 : ¬(!(s.dev.atC c).lockstep) = true := by
    rw [show (s.dev.atC c).lockstep = true from hlock]
    decide
  exact ((if_neg h1).trans (if_neg h2)).trans (if_neg h3)

/-! ## The words that are filled -/

/-- The words that have landed for the present tick. -/
def Dev.haveLanded (d : Dev) : List Nat := if d.pair.landT = d.tick then d.pair.landed else []

/-- The words that are missing. -/
def Dev.notLanded (d : Dev) : List Nat := (List.range 0x122).filter (fun i => !d.haveLanded.contains i)

theorem mem_notLanded {d : Dev} {i : Nat} : i ∈ d.notLanded ↔ i ≤ 0x121 ∧ ¬(d.pair.landT = d.tick ∧ i ∈ d.pair.landed) := by
  have hhave : i ∈ d.haveLanded ↔ d.pair.landT = d.tick ∧ i ∈ d.pair.landed := by
    rw [Dev.haveLanded]
    split
    · rename_i h
      simp [h]
    · rename_i h
      simp [h]
  rw [Dev.notLanded, List.mem_filter, List.mem_range, Bool.not_eq_true', ← Bool.not_eq_true, List.contains_iff_mem, hhave]
  exact and_congr (by omega) Iff.rfl

/-- At cycle 1,023 a missing word is filled from the unit's own local section (R305). -/
theorem landingFill_eq {s : Sys} (hlock : s.dev.lockstep = true) : let q := s.dev.tick % 2
    let s1 := (s.onDev (fun d => d.atC 1023)).storeWords (s.dev.notLanded.map (fun i => (fwdLand q + 4 * i, (s.mem.word (locSect q + 4 * i)).toNat)))
    s.landingFill = if s.dev.notLanded.isEmpty then s1 else s1.onDev (fun d => d.raise Blk.pair Src.pairFwdMiss 1 d.tickLo s.dev.notLanded.length) := by
  have h3 : ¬(!(s.dev.atC 1023).lockstep) = true := by
    rw [show (s.dev.atC 1023).lockstep = true from hlock]
    decide
  exact if_neg h3

theorem landingFill_none {s : Sys} (hlock : s.dev.lockstep = true) (h : s.dev.notLanded = []) : s.landingFill = s.onDev (fun d => d.atC 1023) := by
  rw [landingFill_eq hlock, h]
  rfl

theorem landingFill_leaves {s : Sys} (hlock : s.dev.lockstep = true) (hw : s.mem.wf = true) (h : s.dev.notLanded ≠ []) : let q := s.dev.tick % 2
    let r := s.landingFill
    (∀ i ∈ s.dev.notLanded, r.mem.word (fwdLand q + 4 * i) = s.mem.word (locSect q + 4 * i)) ∧
      (∀ a, (∀ i ∈ s.dev.notLanded, a < fwdLand q + 4 * i ∨ fwdLand q + 4 * i + 4 ≤ a) → r.mem.get a = s.mem.get a) ∧
      r.dev.flag Blk.pair Src.pairFwdMiss ∧ r.otp = s.otp := by
  have hne : ¬s.dev.notLanded.isEmpty = true := fun hc => h (List.isEmpty_iff.mp hc)
  intro q
  rw [landingFill_eq hlock, if_neg hne]
  refine ⟨fun i hi => ?_, fun a ha => ?_, Dev.flag_raise _ _ _ _ _ _ (by decide), rfl⟩
  · have hnd : s.dev.notLanded.Nodup := List.nodup_range.filter _
    exact word_storeWords (fwdLand q) (fun i => s.mem.word (locSect q + 4 * i)) _ hnd hw hi
  · refine get_storeWords_ne _ a hw (fun w hwm => ?_)
    obtain ⟨i, hi, rfl⟩ := List.mem_map.mp hwm
    exact ha i hi

/-! ## Presence maps and packets -/

/-- What a context of streams is asked about is the same in devices with the same streams, tick and configuration. -/
theorem rxDue_congr {d e : Dev} {k : Nat} (hs : e.strm = d.strm) (ht : e.engTick = d.engTick) (hl : e.lv (R.strmRxctl k) = d.lv (R.strmRxctl k)) : e.rxDue k = d.rxDue k := by
  rw [Dev.rxDue, Dev.rxC, hs, Dev.rx96, Dev.lf, hl, ht, Dev.rxDue, Dev.rxC, Dev.rx96, Dev.lf]

theorem strmRxctl_notMem {k : Nat} (hk : k < 256) : R.strmRxctl k ∉ cvuRegs := by
  refine not_mem_cvuRegs ?_
  simp only [R.strmRxctl, Blk.cvu]
  omega

/-- What is forwarded of context `k`. -/
def Dev.forwardOne (p : PresMap) (k : Nat) (d : Dev) : Dev :=
  match (if d.rxDue k then (d.rxC k).cut else none) with
  | some q =>
    if p.due.contains (k, q) then d
    else match (d.rxC k).pkts.find? (fun x => x.seq == q) with
      | some x => d.mirSend (.packet d.tick k q x.ts x.pay)
      | none => d
  | none => d

theorem forwardOne_talks (p : PresMap) (k : Nat) (d : Dev) : d.talks (d.forwardOne p k) := by
  unfold Dev.forwardOne
  split
  · split
    · exact d.talks_refl
    split
    · exact d.talks_mirSend _
    · exact d.talks_refl
  · exact d.talks_refl

theorem forwardAll_talks (p : PresMap) (l : List Nat) (d : Dev) : d.talks (each l (Dev.forwardOne p) d) := by
  induction l generalizing d with
  | nil => exact d.talks_refl
  | cons k l ih => exact Dev.talks_trans (forwardOne_talks p k d) (ih _)

section
variable {d e : Dev} (h : d.talks e)
include h

theorem Dev.talks.mgmtRst : e.mgmtRst = d.mgmtRst := (congrArg Dev.mgmtRst h.eq :)

theorem Dev.talks.strm : e.strm = d.strm := (congrArg Dev.strm h.eq :)

theorem Dev.talks.mod : e.mod = d.mod := (congrArg Dev.mod h.eq :)

theorem Dev.talks.engTick : e.engTick = d.engTick := by
  have h1 : e.replayT = d.replayT := (congrArg Dev.replayT h.eq :)
  rw [Dev.engTick, h1, h.tick, Dev.engTick]

end

/-- The packet that the device holds of context `k` and the map `p` lacks. -/
def Dev.lacks (d : Dev) (p : PresMap) (k q : Nat) (x : RxPkt) : Prop :=
  d.rxDue k = true ∧ (d.rxC k).cut = some q ∧ p.due.contains (k, q) = false ∧ (d.rxC k).pkts.find? (fun x => x.seq == q) = some x

theorem lacks_of_talks {d e : Dev} (h : d.talks e) {p : PresMap} {k q : Nat} {x : RxPkt} (hk : k < 256) (hl : d.lacks p k q x) : e.lacks p k q x := by
  obtain ⟨h1, h2, h3, h4⟩ := hl
  have hrx : e.rxC k = d.rxC k := by rw [Dev.rxC, h.strm, Dev.rxC]
  exact ⟨(rxDue_congr h.strm h.engTick (h.lv (strmRxctl_notMem hk))).trans h1, by rw [hrx, h2], h3, by rw [hrx, h4]⟩

theorem forwardOne_speaks {d : Dev} {p : PresMap} {k q : Nat} {x : RxPkt} (hl : d.lacks p k q x) (hup : d.rf R.mirStat 0 1 = 1) (hrst : d.mgmtRst = none) :
    (d.forwardOne p k).speaks (.packet d.tick k q x.ts x.pay) := by
  obtain ⟨h1, h2, h3, h4⟩ := hl
  have he : d.forwardOne p k = d.mirSend (.packet d.tick k q x.ts x.pay) := by
    unfold Dev.forwardOne
    rw [if_pos h1, h2]
    simp only [h3, h4]
    rfl
  rw [he]
  exact d.mirSend_speaks _ hup hrst

/-- Each packet that the map lacks is said, or waits (R306, R323). -/
theorem forwardAll_speaks {p : PresMap} {k q : Nat} {x : RxPkt} (l : List Nat) {d : Dev} (hk : k < 256) (hmem : k ∈ l) (hl : d.lacks p k q x)
    (hup : d.rf R.mirStat 0 1 = 1) (hrst : d.mgmtRst = none) : (each l (Dev.forwardOne p) d).speaks (.packet d.tick k q x.ts x.pay) := by
  induction l generalizing d with
  | nil => exact absurd hmem (by simp)
  | cons j l ih =>
    have ht := forwardOne_talks p j d
    by_cases hj : k = j
    · subst hj
      exact (forwardAll_talks p l _).speaks (forwardOne_speaks hl hup hrst)
    · have hrec := ih ((List.mem_cons.mp hmem).resolve_left hj) (lacks_of_talks ht hk hl) ((ht.rf 0 1 (by decide)).trans hup) (ht.mgmtRst.trans hrst)
      rw [ht.tick] at hrec
      exact hrec

/-- The streams as the partner's map is taken, its anchors and margins with it in lockstep. -/
def Dev.presTaken (d : Dev) (p : PresMap) : Dev :=
  let d1 := { d with strm := { d.strm with peer := some p } }
  if d1.lockstep then
    let e := each p.anchors (fun a d =>
      if (d.rxC a.1).fade.isSome then d
      else (((d.onRx a.1 (fun x => { x with fade := some { cause := a.2.1, dA := a.2.2, b := x.b }, ask := none })).rxStat
        a.1 7 1 1).rxState a.1).raise Blk.strm Src.strmRxReanchor a.1 a.2.1 a.2.2) d1
    each p.margins (fun m d => (d.setReg (R.strmRxmargin m.1) m.2.1).rxStat m.1 6 1 m.2.2) e
  else d1

theorem presTaken_peer (d : Dev) (p : PresMap) : (d.presTaken p).strm.peer = some p := by
  unfold Dev.presTaken
  extract_lets src d1 e
  have h1 : d1.strm.peer = some p := rfl
  split
  · have he : e.strm.peer = d1.strm.peer := by
      refine each_keeps (fun d => d.strm.peer) _ (fun a d => ?_) p.anchors d1
      split
      · rfl
      · rw [Dev.raise_strm, Dev.rxState, Dev.rxStat, Dev.setFld_strm, Dev.rxStat, Dev.setFld_strm]
        rfl
    refine (each_keeps (fun d => d.strm.peer) _ (fun m d => ?_) p.margins e).trans (he.trans h1)
    rw [Dev.rxStat, Dev.setFld_strm, Dev.setReg_strm]
  · exact h1

theorem presTaken_active {d : Dev} (p : PresMap) (h : d.role = .active) : d.presTaken p = { d with strm := { d.strm with peer := some p } } := by
  refine if_neg ?_
  show ¬(d.paired && (d.role == .shadow || (d.role == .catchup && d.phase == 5))) = true
  rw [h]
  simp

theorem presenceReceive_eq {d : Dev} {p : PresMap} {c : Nat} (hs : d.strmPaired = true) (ht : p.tick = d.tick) (hc : c ≤ 2200) :
    d.presenceReceive p c = if ((d.atC c).presTaken p).role == .catchup then (d.atC c).presTaken p else each (List.range 256) (Dev.forwardOne p) ((d.atC c).presTaken p) := by
  have hno : ¬(!(d.atC c).strmPaired || p.tick != (d.atC c).tick || decide (2200 < c)) = true := by
    rw [show (d.atC c).strmPaired = true from hs, show (d.atC c).tick = d.tick from rfl, ht, decide_eq_false (by omega)]
    simp
  unfold Dev.presenceReceive
  simp only [if_neg hno]
  rfl

theorem presenceReceive_late {d : Dev} {p : PresMap} {c : Nat} (hc : 2200 < c) : (d.presenceReceive p c).presenceRecord2 p c = d.atC c := by
  have h1 : d.presenceReceive p c = d.atC c := by
    unfold Dev.presenceReceive
    refine if_pos ?_
    rw [decide_eq_true hc, Bool.or_true]
  rw [h1, Dev.presenceRecord2]
  refine if_pos ?_
  rw [decide_eq_true hc, Bool.or_true]

/-! ## The replay ring leaves the streams -/

theorem Dev.resyncAbort_strm (d : Dev) (cause : Nat) : (d.resyncAbort cause).strm = d.strm := by
  rw [Dev.resyncAbort]
  have h1 : ((d.bump (R.pairCnt 5) 1).raise Blk.pair Src.pairResyncAbort cause d.tickLo 0).strm = d.strm := (Dev.raise_strm ..).trans (Dev.bump_strm ..)
  generalize (d.bump (R.pairCnt 5) 1).raise Blk.pair Src.pairResyncAbort cause d.tickLo 0 = x at *
  have h2 := (x.talks_mirSend (.resync 3 d.tick)).strm
  generalize x.mirSend (.resync 3 d.tick) = y at *
  have h3 : ((y.setFld R.pairRsstat 0 3 0).setFld R.pairStat 13 1 0).strm = y.strm := (Dev.setFld_strm ..).trans (Dev.setFld_strm ..)
  rw [Dev.resyncStop]
  exact h3.trans (h2.trans h1)

theorem Dev.ringTick_strm (d : Dev) (t add : Nat) (f : TickRec → TickRec) : (d.ringTick t add f).strm = d.strm := by
  unfold Dev.ringTick
  split
  · rfl
  extract_lets hit ring
  have h1 : (d.onPair (fun p => { p with rs := { p.rs with ring := ring } })).strm = d.strm := Dev.onPair_strm ..
  generalize d.onPair (fun p => { p with rs := { p.rs with ring := ring } }) = x at *
  unfold Dev.ringGrow
  extract_lets n
  split
  · rw [Dev.resyncAbort_strm, h1]
  · rw [Dev.setFld_strm, Dev.onPair_strm, h1]

theorem Dev.presenceRecord_peer (d : Dev) (m : PresMap) : (d.presenceRecord m).strm.peer = d.strm.peer := by
  have hpkt (t c : Nat) (p : RxPkt) (e : Dev) : (e.recordPkt t c p).strm.peer = e.strm.peer := by
    unfold Dev.recordPkt
    split
    · rfl
    · rw [Dev.ringTick_strm]
  unfold Dev.presenceRecord
  split
  · rfl
  extract_lets own d1
  have h1 : d1.strm.peer = d.strm.peer := each_keeps (fun d => d.strm.peer) _ (fun q e => hpkt m.tick q.1 q.2 e) own d
  split
  · exact h1
  · rw [Dev.ringTick_strm, h1]

/-- What a map taken in time leaves (R306). -/
theorem presence_leaves {d : Dev} {p : PresMap} {c : Nat} (hs : d.strmPaired = true) (ht : p.tick = d.tick) (hc : c ≤ 2200) (hrst : d.mgmtRst = none) :
    let e := (d.presenceReceive p c).presenceRecord2 p c
    e.strm.peer = some p ∧ (d.role = .active → d.rf R.mirStat 0 1 = 1 → ∀ k q x, k < 256 → d.lacks p k q x → e.speaks (.packet d.tick k q x.ts x.pay)) := by
  have hpeer : (d.presenceReceive p c).strm.peer = some p := by
    rw [presenceReceive_eq hs ht hc]
    split
    · exact presTaken_peer _ p
    · rw [(forwardAll_talks p _ _).strm]
      exact presTaken_peer _ p
  refine ⟨?_, fun hrole hup k q x hk hl => ?_⟩
  · rw [Dev.presenceRecord2]
    split
    · exact hpeer
    · rw [Dev.presenceRecord_peer, hpeer]
  · let d1 : Dev := { d.atC c with strm := { d.strm with peer := some p } }
    have h1 : d.presenceReceive p c = each (List.range 256) (Dev.forwardOne p) d1 := by
      rw [presenceReceive_eq hs ht hc, presTaken_active (d := d.atC c) p hrole]
      refine if_neg ?_
      show ¬(d.role == .catchup) = true
      rw [hrole]
      decide
    have hl1 : d1.lacks p k q x := hl
    have hup1 : d1.rf R.mirStat 0 1 = 1 := hup
    have hrst1 : d1.mgmtRst = none := hrst
    have htick1 : d1.tick = d.tick := rfl
    have hrole1 : d1.role = .active := hrole
    clear_value d1
    have htalk := forwardAll_talks p (List.range 256) d1
    have hsp := forwardAll_speaks (List.range 256) hk (List.mem_range.mpr hk) hl1 hup1 hrst1
    rw [h1]
    generalize each (List.range 256) (Dev.forwardOne p) d1 = e at *
    have hrec : e.recording = false := by
      have hr : e.role = .active := (Dev.role_congr (htalk.rf 0 3 (by decide))).trans hrole1
      rw [Dev.recording, hr]
      simp
    have he : e.presenceRecord2 p c = e := by
      rw [Dev.presenceRecord2, Dev.presenceRecord, hrec]
      simp
    rw [he, ← htick1]
    exact hsp

/-- A forwarded packet that is not held is held for its context (R306). -/
theorem packetReceive_leaves {d : Dev} {ctx seq ts c : Nat} {pay : List Byte} (hs : d.strmPaired = true) (hc : c ≤ 4095) (hcatch : ¬(d.role = .catchup ∧ d.phase ≠ 5))
    (hon : (d.rxC ctx).on = true) (hnew : (d.rxC ctx).pkts.any (fun p => p.seq == seq) = false) :
    let e := (d.packetReceive d.tick ctx seq ts pay c).packetRecord2 d.tick ctx seq c
    ∃ p, (e.rxC ctx).pkts = (d.rxC ctx).pkts ++ [p] ∧ p.seq = seq ∧ p.ts = ts ∧ p.pay = pay ∧ p.arr = d.tick * 10240 + c ∧ d.keepsOut e [] := by
  let q : RxPkt := { seq := seq, ts := ts, arr := (d.atC c).instant, t0 := (d.atC c).rxT0 ctx ts (d.atC c).tick, pay := pay }
  have hlt : ctx < d.strm.rx.length := by
    by_contra hge
    have hdef : d.rxC ctx = {} := by rw [Dev.rxC, List.getD_eq_getElem?_getD, List.getElem?_eq_none (by omega)]; rfl
    rw [hdef] at hon
    exact absurd hon (by decide)
  have hno : ¬(!(d.atC c).strmPaired || d.tick != (d.atC c).tick || decide (4095 < c)) = true := by
    rw [show (d.atC c).strmPaired = true from hs, show (d.atC c).tick = d.tick from rfl, decide_eq_false (by omega)]
    simp
  have hno2 : ¬((d.atC c).role == .catchup && (d.atC c).phase != 5) = true := by
    rw [Bool.and_eq_true, beq_iff_eq, bne_iff_ne]
    exact hcatch
  have hgo : (((d.atC c).rxC ctx).on && !(((d.atC c).rxC ctx).pkts.any (fun p => p.seq == seq))) = true := by
    rw [show (d.atC c).rxC ctx = d.rxC ctx from rfl, hon, hnew]
    rfl
  have h1 : d.packetReceive d.tick ctx seq ts pay c = (d.atC c).onRx ctx (fun x => { x with pkts := x.pkts ++ [q] }) := by
    unfold Dev.packetReceive
    simp only [if_neg hno, if_neg hno2]
    exact if_pos hgo
  have hrec : ((d.atC c).onRx ctx (fun x => { x with pkts := x.pkts ++ [q] })).recording = false := by
    show d.recording = false
    have hrole := hs
    rw [Dev.strmPaired, Bool.and_eq_true] at hrole
    rw [Dev.recording]
    cases hr : d.role with
    | active => simp
    | shadow => simp
    | isolated => simp
    | fallow =>
      rw [hr] at hrole
      exact absurd hrole.2 (by simp)
    | catchup =>
      have hph : d.phase = 5 := by
        by_contra hne
        exact hcatch ⟨hr, hne⟩
      rw [hph]
      simp
  have h2 : (d.packetReceive d.tick ctx seq ts pay c).packetRecord2 d.tick ctx seq c = (d.atC c).onRx ctx (fun x => { x with pkts := x.pkts ++ [q] }) := by
    rw [h1, Dev.packetRecord2, Dev.packetRecord, hrec]
    simp
  rw [h2]
  refine ⟨q, ?_, rfl, rfl, rfl, rfl, fun _ _ => ⟨rfl, rfl⟩⟩
  rw [Dev.rxC, Dev.onRx]
  show ((updAt d.strm.rx ctx _).getD ctx {}).pkts = _
  rw [getD_updAt, if_pos ⟨rfl, hlt⟩]
  rfl

/-! ## MOD blocks -/

theorem modBlockSend_eq {d : Dev} (hpaired : d.paired = true) (hrole : d.role = .active) : d.modBlockSend = (d.atC 2560).mirSend (.modBlock (d.atC 2560).modBlk) := by
  refine if_pos ?_
  rw [show (d.atC 2560).paired = true from hpaired, show (d.atC 2560).role = .active from hrole]
  rfl

theorem modBlockRecv_eq {d : Dev} (b : ModBlk) (c : Nat) (hpaired : d.paired = true) (hrole : d.role = .shadow) :
    d.modBlockRecv b c = if c < 3840 ∧ b.tick + 1 = d.tick then { d.atC c with mod := { d.mod with blk := some b } } else d.atC c := by
  have hcond : ((d.atC c).paired && (d.atC c).role == .shadow && decide (c < 3840) && b.tick + 1 == (d.atC c).tick) = true ↔ c < 3840 ∧ b.tick + 1 = d.tick := by
    rw [show (d.atC c).paired = true from hpaired, show (d.atC c).role = .shadow from hrole, show (d.atC c).tick = d.tick from rfl]
    simp
  exact if_congr hcond rfl rfl

theorem fwdMissing_eq {d : Dev} (hpaired : d.paired = true) (hrole : d.role = .shadow) :
    d.fwdMissing = if d.mod.blk.isNone then (d.atC 3840).raise Blk.mod Src.modFwdMissing (d.atC 3840).tickLo (d.atC 3840).tickHi 0 else d.atC 3840 := by
  have hcond : ((d.atC 3840).paired && (d.atC 3840).role == .shadow && (d.atC 3840).mod.blk.isNone) = true ↔ d.mod.blk.isNone = true := by
    rw [show (d.atC 3840).paired = true from hpaired, show (d.atC 3840).role = .shadow from hrole, show (d.atC 3840).mod = d.mod from rfl]
    simp
  exact if_congr hcond rfl rfl

theorem leadsSys_of_mirRow {z : State} {i : Instr} {h : MirHdr} {f : Sys → Sys} {P : Sys → Prop} (hi : exec i z = z.mirRow h f) (hrun : z.Running)
    (hrst : z.sys.dev.mgmtRst = none) (hotp : (f (z.sys.onDev (fun d => d.mirHead h))).otp = z.sys.otp) (hP : P (f (z.sys.onDev (fun d => d.mirHead h)))) :
    z.leadsSys (exec i z) P := ⟨_, exec_mirRow hi hrun hrst, hotp, rfl, hP⟩

theorem leads_of_mirRowSys {z : State} {i : Instr} {h : MirHdr} {f : Sys → Sys} {P : Dev → Prop} (hi : exec i z = z.mirRow h f) (hrun : z.Running)
    (hrst : z.sys.dev.mgmtRst = none) (hmem : (f (z.sys.onDev (fun d => d.mirHead h))).mem = z.sys.mem) (hotp : (f (z.sys.onDev (fun d => d.mirHead h))).otp = z.sys.otp)
    (hP : P (f (z.sys.onDev (fun d => d.mirHead h))).dev) : z.leads (exec i z) P := ⟨_, exec_mirRow hi hrun hrst, ⟨hmem, hotp, rfl⟩, hP⟩

/-- A word before its window is buffered, from the system that has heard its header. -/
theorem localsReceive_waits {s : Sys} {dest c : Nat} {words : List (Nat × Nat)} {decs : List (Nat × Nat × Nat)} (hlive : s.dev.mirLive = true)
    (hlock : s.dev.lockstep = true) (hnot : ¬((s.dev.tick + 1 = dest ∧ windowEnd ≤ c) ∨ (s.dev.tick = dest ∧ c < 1024))) (hlt : s.dev.tick < dest) :
    let r := s.localsReceive dest words decs c
    r.mem = s.mem ∧ r.otp = s.otp ∧ tabGet r.dev.pair.fwdBuf dest = some ((tabGet s.dev.pair.fwdBuf dest).getD [] ++ words) := by
  rw [localsReceive_eq hlive hlock, if_neg hnot, if_pos hlt]
  have hmem : ((s.onDev (fun d => d.atC c)).onDev (fun d => d.decsIn dest decs)).mem = s.mem := rfl
  have hotp : ((s.onDev (fun d => d.atC c)).onDev (fun d => d.decsIn dest decs)).otp = s.otp := rfl
  have hpair : ((s.onDev (fun d => d.atC c)).onDev (fun d => d.decsIn dest decs)).dev.pair = s.dev.pair := (Dev.decsIn_pair _ _ _).trans (Dev.atC_pair _ _)
  generalize (s.onDev (fun d => d.atC c)).onDev (fun d => d.decsIn dest decs) = s1 at *
  refine ⟨hmem, hotp, ?_⟩
  rw [← hpair]
  exact tabGet_tabSet ..

/-- A word in its window lands, from the system that has heard its header. -/
theorem localsReceive_lands {s : Sys} {dest i v c : Nat} {decs : List (Nat × Nat × Nat)} (hlive : s.dev.mirLive = true) (hlock : s.dev.lockstep = true) (hw : s.mem.wf = true)
    (hi : i ≤ 0x121) (hwin : (s.dev.tick + 1 = dest ∧ windowEnd ≤ c) ∨ (s.dev.tick = dest ∧ c < 1024)) : let r := s.localsReceive dest [(i, v)] decs c
    s.stored r (fwdLand (dest % 2) + 4 * i) (leBytes 4 (v % 2 ^ 32)) ∧ r.dev.pair.landT = dest ∧ i ∈ r.dev.pair.landed ∧ r.otp = s.otp := by
  rw [localsReceive_eq hlive hlock, if_pos hwin]
  have hmem : ((s.onDev (fun d => d.atC c)).onDev (fun d => d.decsIn dest decs)).mem = s.mem := rfl
  have hotp : ((s.onDev (fun d => d.atC c)).onDev (fun d => d.decsIn dest decs)).otp = s.otp := rfl
  generalize (s.onDev (fun d => d.atC c)).onDev (fun d => d.decsIn dest decs) = s1 at *
  obtain ⟨⟨h1, h2⟩, h3, h4, h5⟩ := landWords_leaves s1 dest i v (by rw [hmem, hw]) hi
  rw [hmem] at h2
  exact ⟨⟨h1, h2⟩, h3, h4, h5.trans hotp⟩

/-- Settles O41: row by row. -/
theorem forwardedInputs : Obligations.ForwardedInputs := by
  intro z h hrun hinv d c
  have hx := d.hears_mirHead h
  refine ⟨fun hlive hlock dest i v decs => ⟨fun hi hwin => ?_, fun hlt hnot => ?_⟩, fun hlock => ?_, fun p hs hrst ht hc => ?_, fun p hs hrst hc => ?_,
    fun ctx seq ts pay hs hrst hc hcatch hon hnew => ?_, fun hpaired hrole hready => ?_,
    fun hpaired hrole => ⟨fun b hrst hc ht => ?_, fun b hrst hno => ?_, fun hnone => ?_, fun hsome => ?_⟩⟩
  · have hwin' : ((d.mirHead h).tick + 1 = dest ∧ windowEnd ≤ c) ∨ ((d.mirHead h).tick = dest ∧ c < 1024) := by
      rw [hx.tick]
      exact hwin.imp (And.imp_left Eq.symm) (And.imp_left Eq.symm)
    obtain ⟨⟨h1, h2⟩, hT, hmem, hotp⟩ := localsReceive_lands (s := z.sys.onDev (fun d => d.mirHead h)) (v := v) (decs := decs) (hx.mirLive.trans hlive) (hx.lockstep.trans hlock)
      hinv hi hwin'
    exact leadsSys_of_mirRow rfl hrun (mirLive_iff.mp hlive).2.2 hotp ⟨⟨h1, h2⟩, hT, hmem⟩
  · have hnot' : ¬(((d.mirHead h).tick + 1 = dest ∧ windowEnd ≤ c) ∨ ((d.mirHead h).tick = dest ∧ c < 1024)) := by
      rw [hx.tick]
      rintro (⟨h1, h2⟩ | ⟨h1, -⟩)
      · exact hnot ⟨h1.symm, h2⟩
      · omega
    obtain ⟨hmem, hotp, hbuf⟩ := localsReceive_waits (s := z.sys.onDev (fun d => d.mirHead h)) (words := [(i, v)]) (decs := decs) (hx.mirLive.trans hlive) (hx.lockstep.trans hlock)
      hnot' (hx.tick.symm ▸ hlt)
    refine leads_of_mirRowSys rfl hrun (mirLive_iff.mp hlive).2.2 hmem hotp (hbuf.trans ?_)
    rw [show (z.sys.onDev (fun d => d.mirHead h)).dev.pair.fwdBuf = d.pair.fwdBuf from hx.landing.2.2]
  · intro has q
    have hhas (i : Nat) : i ∈ d.notLanded ↔ i ≤ 0x121 ∧ ¬has i := mem_notLanded
    refine ⟨fun hall => ?_, fun ⟨i, hi, hno⟩ => ?_⟩
    · have hnil : d.notLanded = [] := List.eq_nil_iff_forall_not_mem.mpr (fun i hi => ((hhas i).mp hi).2 (hall i ((hhas i).mp hi).1))
      rw [exec_tickRow (f := fun s => s.landingFill) rfl hrun, landingFill_none hlock hnil]
      rfl
    · obtain ⟨hword, hbyte, hflag, hotp⟩ := landingFill_leaves (s := z.sys) hlock hinv (List.ne_nil_of_mem ((hhas i).mpr ⟨hi, hno⟩))
      exact ⟨_, exec_tickRow rfl hrun, hotp, rfl, fun k hk hk' => hword k ((hhas k).mpr ⟨hk, hk'⟩),
        fun a ha => hbyte a (fun k hk => ha k ((hhas k).mp hk).1 ((hhas k).mp hk).2), hflag⟩
  · refine leads_of_mirRow rfl hrun hrst ?_
    obtain ⟨hpeer, hsay⟩ := presence_leaves (d := d.mirHead h) (p := p) (c := c) (hx.strmPaired.trans hs) (ht.trans hx.tick.symm) hc (hx.mgmtRst.trans hrst)
    rw [hx.tick] at hsay
    refine ⟨hpeer, fun hrole hup k q x hk hdue hcut hlack hfind => hsay (hx.role.trans hrole) ((hx.rf 0 1 (by decide)).trans hup) k q x hk ?_⟩
    have hrx : (d.mirHead h).rxC k = d.rxC k := by rw [Dev.rxC, hx.strm, Dev.rxC]
    exact ⟨(rxDue_congr hx.strm hx.engTick (hx.lv (strmRxctl_notMem hk))).trans hdue, by rw [hrx, hcut], hlack, by rw [hrx, hfind]⟩
  · refine leads_of_mirRow rfl hrun hrst ?_
    rw [presenceReceive_late hc]
    exact hx.strm
  · refine leads_of_mirRow rfl hrun hrst ?_
    have hrx : (d.mirHead h).rxC ctx = d.rxC ctx := by rw [Dev.rxC, hx.strm, Dev.rxC]
    obtain ⟨p, h1, h2, h3, h4, h5, h6⟩ := packetReceive_leaves (d := d.mirHead h) (ctx := ctx) (seq := seq) (ts := ts) (pay := pay) (hx.strmPaired.trans hs) hc
      (by rw [hx.role, hx.phase]; exact hcatch) (by rw [hrx, hon]) (by rw [hrx, hnew])
    rw [hx.tick] at h1 h5 h6
    rw [hrx] at h1
    refine ⟨p, h1, h2, h3, h4, h5, fun o ho => ?_⟩
    have hk := hx.keepsOut o ho
    have hk' := h6 o (by simp)
    exact ⟨hk'.1.trans hk.1, hk'.2.trans hk.2⟩
  · refine leads_of_tickRow rfl hrun ?_
    rw [modBlockSend_eq hpaired hrole]
    have hready' : (z.sys.dev.atC 2560).mirReady := hready
    refine ⟨(z.sys.dev.atC 2560).modBlk, ((z.sys.dev.atC 2560).mirSend_ready _ hready').1, rfl, ?_⟩
    exact ((z.sys.dev.atC 2560).talks_mirSend _).mod
  · refine leads_of_mirRow rfl hrun hrst ?_
    rw [modBlockRecv_eq b c (hx.paired.trans hpaired) (hx.role.trans hrole), if_pos ⟨hc, ht.trans hx.tick.symm⟩]
    exact ⟨by rw [← hx.mod], hx.keepsOut⟩
  · have hno' : ¬(c < 3840 ∧ b.tick + 1 = (d.mirHead h).tick) := by
      rw [hx.tick]
      rintro ⟨h1, h2⟩
      exact hno.elim (fun k => absurd h1 (not_lt.mpr k)) (fun k => k h2)
    rw [exec_mirRow (f := fun s => s.onDev (fun d => d.modBlockRecv b c)) rfl hrun hrst]
    show Host.Outcome.next (z.put { z.sys with dev := (d.mirHead h).modBlockRecv b c }) = _
    rw [modBlockRecv_eq b c (hx.paired.trans hpaired) (hx.role.trans hrole), if_neg hno']
    rfl
  · refine leads_of_tickRow rfl hrun ?_
    rw [fwdMissing_eq hpaired hrole, show z.sys.dev.mod.blk = none from hnone, Option.isNone_none, if_pos rfl]
    refine ⟨Dev.flag_raise _ _ _ _ _ _ (by decide), ?_, ?_⟩
    · rw [((z.sys.dev.atC 3840).raise_marksEvt Blk.mod Src.modFwdMissing _ _ 0).2.2]
      simp
    · exact Dev.keeps_raise (z.sys.dev.atC 3840) _ _ _ _ _ (by simp) (by simp)
  · refine exec_tickRow_still rfl hrun ?_
    rw [fwdMissing_eq hpaired hrole]
    refine if_neg ?_
    rw [Option.isNone_iff_eq_none]
    intro hn
    rw [show z.sys.dev.mod.blk = none from hn] at hsome
    exact absurd hsome (by decide)

end Sys2Proof.Machine

/-!
PROOFS. Lanes and link of the mirror, unknown and late frames (R304, R322 to R324, R458).
-/
namespace Sys2Proof.Machine

/-! ## What a change of the link keeps -/

/-- MIR's status and delay are the same at `e` as at `d`, and none of its fault bits is cleared. -/
structure Dev.linkKept (d e : Dev) : Prop where
  stat : e.reg R.mirStat = d.reg R.mirStat
  delay : e.reg R.mirDelay = d.reg R.mirDelay
  flags : ∀ s, s < 32 → d.flag Blk.mir s → e.flag Blk.mir s

namespace Dev.linkKept

theorem refl (d : Dev) : d.linkKept d := ⟨rfl, rfl, fun _ _ h => h⟩

theorem trans {d e g : Dev} (h : d.linkKept e) (k : e.linkKept g) : d.linkKept g :=
  ⟨k.stat.trans h.stat, k.delay.trans h.delay, fun s hs hf => k.flags s hs (h.flags s hs hf)⟩

/-- A change that leaves MIR's registers. -/
theorem of_regs {d e : Dev} (h : ∀ o, o ∈ [R.mirStat, R.mirDelay, R.fltstat Blk.mir] → e.reg o = d.reg o) : d.linkKept e :=
  ⟨h _ (by simp), h _ (by simp), fun s _ hf => by rw [Dev.flag, Dev.rf, h _ (by simp)]; exact hf⟩

theorem raise (d : Dev) (src d0 d1 d2 : Nat) : d.linkKept (d.raise Blk.mir src d0 d1 d2) :=
  ⟨Dev.reg_raise_ne _ _ _ _ _ _ _ (by decide) (by decide), Dev.reg_raise_ne _ _ _ _ _ _ _ (by decide) (by decide), fun _ hs hf => Dev.flag_stays_raise d src d0 d1 d2 hs hf⟩

theorem of_talks {d e : Dev} (h : d.talks e) : d.linkKept e := of_regs (fun o ho => h.reg (by
  simp only [List.mem_cons, List.not_mem_nil, or_false] at ho
  rcases ho with rfl | rfl | rfl <;> decide))

theorem of_loadMoves {d e : Dev} (h : d.loadMoves e) : d.linkKept e := of_regs (fun o ho => h.reg (by
  simp only [List.mem_cons, List.not_mem_nil, or_false] at ho
  rcases ho with rfl | rfl | rfl <;> decide))

theorem of_refMoves {d e : Dev} (h : d.refMoves e 3) : d.linkKept e := of_regs (fun o ho => h.reg (by
  simp only [List.mem_cons, List.not_mem_nil, or_false] at ho
  rcases ho with rfl | rfl | rfl <;> decide))

variable {d e : Dev} (h : d.linkKept e)
include h

theorem rf (lo w : Nat) : e.rf R.mirStat lo w = d.rf R.mirStat lo w := by rw [Dev.rf, h.stat, Dev.rf]

end Dev.linkKept

/-- The loss of the link moves nothing but a load that awaits the partner (R117, R120). -/
theorem Dev.loadLink_moves (d : Dev) : d.loadMoves d.loadLink := by
  unfold Dev.loadLink
  split
  · rename_i j _
    split
    · exact .refl d
    split
    · exact d.loadRefuse_moves _
    · exact .withLdr d _
  · exact .refl d

/-! ## The link follows its lanes -/

/-- The lanes that are up. -/
def Dev.lanesUp (d : Dev) : Nat := d.rf R.mirStat 4 1 + d.rf R.mirStat 5 1

/-- STAT.LINK and DEGRADED as the lanes have them, and the bit of PAIR.STAT. -/
def Dev.linkStat (d : Dev) : Dev :=
  ((d.setFld R.mirStat 0 1 (min 1 d.lanesUp)).setFld R.mirStat 1 1 (b2n (d.lanesUp == 1))).setFld R.pairStat 11 1 (min 1 d.lanesUp)

theorem linkStat_leaves (d : Dev) : let e := d.linkStat
    e.rf R.mirStat 0 1 = min 1 d.lanesUp ∧ e.rf R.mirStat 1 1 = b2n (d.lanesUp == 1) ∧ e.rf R.mirStat 4 1 = d.rf R.mirStat 4 1 ∧ e.rf R.mirStat 5 1 = d.rf R.mirStat 5 1 ∧
      e.reg R.mirDelay = d.reg R.mirDelay ∧ (∀ s, e.flag Blk.mir s ↔ d.flag Blk.mir s) ∧ (∀ lo w, lo + w ≤ 11 → e.rf R.pairStat lo w = d.rf R.pairStat lo w) ∧
      d.marks e [R.mirStat, R.pairStat] [] := by
  let d1 := d.setFld R.mirStat 0 1 (min 1 d.lanesUp)
  let d2 := d1.setFld R.mirStat 1 1 (b2n (d.lanesUp == 1))
  have h0 : d1.rf R.mirStat 0 1 = min 1 d.lanesUp % 2 ^ 1 := Dev.rf_setFld d _ _ _ _ (by decide)
  have hhi1 (lo w : Nat) (h : 1 ≤ lo) (h32 : lo + w ≤ 32) : d1.rf R.mirStat lo w = d.rf R.mirStat lo w := Dev.rf_setFld_hi d _ _ _ _ _ _ (by omega) h32
  have hb : d2.rf R.mirStat 1 1 = b2n (d.lanesUp == 1) % 2 ^ 1 := Dev.rf_setFld d1 _ _ _ _ (by decide)
  have hlo2 : d2.rf R.mirStat 0 1 = d1.rf R.mirStat 0 1 := Dev.rf_setFld_lo d1 _ _ _ _ _ _ (by decide) (by decide)
  have hhi2 (lo w : Nat) (h : 2 ≤ lo) (h32 : lo + w ≤ 32) : d2.rf R.mirStat lo w = d1.rf R.mirStat lo w := Dev.rf_setFld_hi d1 _ _ _ _ _ _ (by omega) h32
  have hm1 : d.marks d1 [R.mirStat, R.pairStat] [] := .setFld _ _ _ _ (by simp)
  have hm2 : d1.marks d2 [R.mirStat, R.pairStat] [] := .setFld _ _ _ _ (by simp)
  have hm3 : d2.marks d.linkStat [R.pairStat] [] := .setFld _ _ _ _ (by simp)
  have hlow : ∀ lo w, lo + w ≤ 11 → d.linkStat.rf R.pairStat lo w = d2.rf R.pairStat lo w := fun lo w h => Dev.rf_setFld_lo d2 _ _ _ _ _ _ h (by omega)
  have hps : d2.rf R.pairStat = d.rf R.pairStat := by
    funext lo w
    exact (Dev.rf_setFld_ne d1 _ _ _ _ _ _ (by decide)).trans (Dev.rf_setFld_ne d _ _ _ _ _ _ (by decide))
  generalize d.linkStat = e at *
  clear_value d2 d1
  have hm : d.marks e [R.mirStat, R.pairStat] [] := (hm1.trans hm2).trans (hm3.mono (by simp) (by simp))
  refine ⟨?_, ?_, ?_, ?_, hm.reg (by decide), fun s => by rw [Dev.flag, hm.rf s 1 (by decide), Dev.flag], fun lo w h => by rw [hlow lo w h, hps], hm⟩
  · rw [hm3.rf 0 1 (by decide), hlo2, h0]
    exact Nat.mod_eq_of_lt (by omega)
  · rw [hm3.rf 1 1 (by decide), hb]
    cases d.lanesUp == 1 <;> rfl
  · rw [hm3.rf 4 1 (by decide), hhi2 4 1 (by decide) (by decide), hhi1 4 1 (by decide) (by decide)]
  · rw [hm3.rf 5 1 (by decide), hhi2 5 1 (by decide) (by decide), hhi1 5 1 (by decide) (by decide)]

/-- The unit forgets its partner's identity and the link's traffic. -/
def Dev.linkGone (d : Dev) : Dev :=
  ((d.onPair (fun p => { p with ident := none, rxSeq := none, queued := [] })).raise Blk.mir Src.mirLinkDown d.tickLo d.tickHi 0).loadLink

theorem Dev.linkEval_eq (d : Dev) (ps : Nat) : d.linkEval ps =
    if d.rf R.mirStat 0 1 = 0 ∧ 0 < d.lanesUp then (d.linkStat.raise Blk.mir Src.mirLinkUp d.linkStat.tickLo ps 0).identitySend
    else if d.rf R.mirStat 0 1 = 1 ∧ d.lanesUp = 0 then
      (if d.linkStat.linkGone.refState 3 = 0 ∨ d.linkStat.linkGone.refState 3 = 1 then d.linkStat.linkGone else d.linkStat.linkGone.refLose 3)
    else d.linkStat := rfl

theorem identitySend_talks (d : Dev) : d.talks d.identitySend := by
  rw [Dev.identitySend]
  split
  · exact d.talks_mirSend _
  · exact d.talks_refl

theorem linkGone_leaves (d : Dev) : d.linkKept d.linkGone ∧ d.linkGone.flag Blk.mir Src.mirLinkDown := by
  have h1 : d.linkKept (d.onPair (fun p => { p with ident := none, rxSeq := none, queued := [] })) := .of_regs (fun _ _ => rfl)
  rw [Dev.linkGone]
  generalize d.onPair (fun p => { p with ident := none, rxSeq := none, queued := [] }) = x at *
  have h2 : x.linkKept (x.raise Blk.mir Src.mirLinkDown d.tickLo d.tickHi 0) := .raise _ _ _ _ _
  have hf : (x.raise Blk.mir Src.mirLinkDown d.tickLo d.tickHi 0).flag Blk.mir Src.mirLinkDown := Dev.flag_raise _ _ _ _ _ _ (by decide)
  generalize x.raise Blk.mir Src.mirLinkDown d.tickLo d.tickHi 0 = y at *
  have h3 := Dev.linkKept.of_loadMoves y.loadLink_moves
  exact ⟨(h1.trans h2).trans h3, h3.flags _ (by decide) hf⟩

/-- What the link does as its lanes have changed (R324). -/
theorem linkEval_leaves (d : Dev) (ps : Nat) : d.linkStat.linkKept (d.linkEval ps) ∧
    (d.rf R.mirStat 0 1 = 1 → d.lanesUp = 0 → (d.linkEval ps).flag Blk.mir Src.mirLinkDown) ∧
    (d.rf R.mirStat 0 1 = 0 → 0 < d.lanesUp → d.mirLive = true → (d.linkEval ps).speaks (.identity (d.reg R.sysId) (d.lv R.ddrCfg))) := by
  obtain ⟨hlink, -, -, -, -, -, hpair, hm⟩ := linkStat_leaves d
  rw [Dev.linkEval_eq]
  generalize d.linkStat = x at *
  split
  · rename_i hup
    obtain ⟨hwas, hlanes⟩ := hup
    have hk : x.linkKept (x.raise Blk.mir Src.mirLinkUp x.tickLo ps 0) := .raise _ _ _ _ _
    have hmr : x.marks (x.raise Blk.mir Src.mirLinkUp x.tickLo ps 0) [R.fltstat Blk.mir, R.fltfirst Blk.mir] [] := .raise _ _ _ _ _ _ (by simp) (by simp)
    generalize x.raise Blk.mir Src.mirLinkUp x.tickLo ps 0 = y at *
    refine ⟨hk.trans (.of_talks (identitySend_talks y)), fun h1 => absurd (hwas.symm.trans h1) (by decide), fun _ _ hlive => ?_⟩
    obtain ⟨hp, hr, hrst⟩ := mirLive_iff.mp hlive
    have hyr : y.role = d.role := Dev.role_congr ((hmr.rf 0 3 (by decide)).trans (hpair 0 3 (by decide)))
    have hyp : y.paired = d.paired := by rw [Dev.paired, hmr.rf 31 1 (by decide), hm.rf 31 1 (by decide), Dev.paired]
    have hyrst : y.mgmtRst = none := (hmr.mgmtRst.trans hm.mgmtRst).trans hrst
    have hylive : y.mirLive = true := mirLive_iff.mpr ⟨hyp.trans hp, by rw [hyr]; exact hr, hyrst⟩
    have hyup : y.rf R.mirStat 0 1 = 1 := by
      rw [hk.rf, hlink]
      omega
    rw [Dev.identitySend, if_pos hylive, ← hm.reg (o := R.sysId) (by decide), ← hmr.reg (o := R.sysId) (by decide), ← hm.lv (o := R.ddrCfg) (by decide),
      ← hmr.lv (o := R.ddrCfg) (by decide)]
    exact y.mirSend_speaks _ hyup hyrst
  · rename_i hup
    split
    · rename_i hdown
      obtain ⟨hk, hf⟩ := linkGone_leaves x
      have hlose := Dev.linkKept.of_refMoves (x.linkGone.refLose_moves (n := 3) (by decide))
      refine ⟨?_, fun _ _ => ?_, fun h0 hl => absurd ⟨h0, hl⟩ hup⟩
      · split
        · exact hk
        · exact hk.trans hlose
      · split
        · exact hf
        · exact hlose.flags _ (by decide) hf
    · rename_i hdown
      exact ⟨.refl x, fun h1 h0 => absurd ⟨h1, h0⟩ hdown, fun h0 hl => absurd ⟨h0, hl⟩ hup⟩

/-- The status that the link leaves, by its lanes. -/
theorem linkEval_stat (d : Dev) (ps : Nat) : let e := d.linkEval ps
    e.rf R.mirStat 0 1 = min 1 d.lanesUp ∧ e.rf R.mirStat 1 1 = b2n (d.lanesUp == 1) ∧ e.rf R.mirStat 4 1 = d.rf R.mirStat 4 1 ∧ e.rf R.mirStat 5 1 = d.rf R.mirStat 5 1 ∧
      e.reg R.mirDelay = d.reg R.mirDelay ∧ ∀ s, s < 32 → d.flag Blk.mir s → e.flag Blk.mir s := by
  obtain ⟨h0, h1, h4, h5, hdel, hfl, -⟩ := linkStat_leaves d
  obtain ⟨hk, -⟩ := linkEval_leaves d ps
  intro e
  exact ⟨(hk.rf 0 1).trans h0, (hk.rf 1 1).trans h1, (hk.rf 4 1).trans h4, (hk.rf 5 1).trans h5, hk.delay.trans hdel, fun s hs hf => hk.flags s hs ((hfl s).mpr hf)⟩

/-! ## Lanes -/

theorem rf_one_le (d : Dev) (o lo : Nat) : d.rf o lo 1 ≤ 1 := Nat.le_of_lt_succ (Nat.mod_lt _ (by decide))

/-- A lane's bit is apart from the other's. -/
theorem rf_otherLane (d : Dev) {n : Nat} (x : Nat) (hn : n < 2) : (d.setFld R.mirStat (4 + n) 1 x).rf R.mirStat (5 - n) 1 = d.rf R.mirStat (5 - n) 1 := by
  interval_cases n
  · exact Dev.rf_setFld_hi d _ _ _ _ _ _ (by decide) (by decide)
  · exact Dev.rf_setFld_lo d _ _ _ _ _ _ (by decide) (by decide)

/-- The device with the bit of lane `n` written and its event raised. -/
def Dev.laneSet (d : Dev) (n x src : Nat) : Dev := (d.setFld R.mirStat (4 + n) 1 x).raise Blk.mir src n d.tickLo 0

theorem laneSet_leaves (d : Dev) {n : Nat} (x src : Nat) (hn : n < 2) (hx : x ≤ 1) (hs : src < 32) : let e := d.laneSet n x src
    e.rf R.mirStat (4 + n) 1 = x ∧ e.rf R.mirStat (5 - n) 1 = d.rf R.mirStat (5 - n) 1 ∧ e.rf R.mirStat 0 1 = d.rf R.mirStat 0 1 ∧ e.flag Blk.mir src ∧
      e.lanesUp = x + d.rf R.mirStat (5 - n) 1 ∧ d.marks e [R.mirStat, R.fltstat Blk.mir, R.fltfirst Blk.mir] [] := by
  let d1 := d.setFld R.mirStat (4 + n) 1 x
  have hbit : d1.rf R.mirStat (4 + n) 1 = x := (Dev.rf_setFld d _ _ _ _ (by omega)).trans (Nat.mod_eq_of_lt (by omega))
  have hoth : d1.rf R.mirStat (5 - n) 1 = d.rf R.mirStat (5 - n) 1 := rf_otherLane d x hn
  have h0 : d1.rf R.mirStat 0 1 = d.rf R.mirStat 0 1 := Dev.rf_setFld_lo d _ _ _ _ _ _ (by omega) (by omega)
  have hm1 : d.marks d1 [R.mirStat, R.fltstat Blk.mir, R.fltfirst Blk.mir] [] := .setFld _ _ _ _ (by simp)
  have hk : d1.linkKept (d.laneSet n x src) := .raise _ _ _ _ _
  have hf : (d.laneSet n x src).flag Blk.mir src := Dev.flag_raise _ _ _ _ _ _ hs
  have hm2 : d1.marks (d.laneSet n x src) [R.mirStat, R.fltstat Blk.mir, R.fltfirst Blk.mir] [] := .raise _ _ _ _ _ _ (by simp) (by simp)
  clear_value d1
  generalize d.laneSet n x src = e at *
  refine ⟨(hk.rf _ _).trans hbit, (hk.rf _ _).trans hoth, (hk.rf _ _).trans h0, hf, ?_, hm1.trans hm2⟩
  have ha := (hk.rf (4 + n) 1).trans hbit
  have hb := (hk.rf (5 - n) 1).trans hoth
  rw [Dev.lanesUp]
  interval_cases n
  · rw [ha, hb]
  · rw [ha, hb, Nat.add_comm]

/-- A lane that goes down (R324). -/
theorem mirLaneDown_up {d : Dev} {n : Nat} (c : Nat) (hn : n < 2) (h : d.rf R.mirStat (4 + n) 1 = 1) :
    d.mirLaneDown n c = ((d.atC c).laneSet n 0 Src.mirLaneDown).linkEval 0 := if_pos ⟨hn, h⟩

theorem mirLaneDown_leaves (d : Dev) {n : Nat} (c : Nat) (hn : n < 2) (h : d.rf R.mirStat (4 + n) 1 = 1) : let e := d.mirLaneDown n c
    let other := d.rf R.mirStat (5 - n) 1
    e.rf R.mirStat (4 + n) 1 = 0 ∧ e.rf R.mirStat (5 - n) 1 = other ∧ e.rf R.mirStat 0 1 = other ∧ e.rf R.mirStat 1 1 = other ∧ e.flag Blk.mir Src.mirLaneDown ∧
      (d.rf R.mirStat 0 1 = 1 → other = 0 → e.flag Blk.mir Src.mirLinkDown) := by
  rw [mirLaneDown_up c hn h]
  obtain ⟨hbit, hoth, h0, hf, hup, -⟩ := laneSet_leaves (d.atC c) 0 Src.mirLaneDown hn (by decide) (by decide)
  generalize (d.atC c).laneSet n 0 Src.mirLaneDown = x at *
  obtain ⟨k0, k1, k4, k5, -, kf⟩ := linkEval_stat x 0
  obtain ⟨-, hdown, -⟩ := linkEval_leaves x 0
  have hother := rf_one_le d R.mirStat (5 - n)
  have hup' : x.lanesUp = d.rf R.mirStat (5 - n) 1 := hup.trans (Nat.zero_add _)
  have hlane (m : Nat) (hm : m = 4 ∨ m = 5) : (x.linkEval 0).rf R.mirStat m 1 = x.rf R.mirStat m 1 := by
    rcases hm with rfl | rfl
    · exact k4
    · exact k5
  intro e other
  refine ⟨(hlane _ (by omega)).trans hbit, (hlane _ (by omega)).trans hoth, ?_, ?_, kf _ (by decide) hf, fun hw h0' => ?_⟩
  · rw [k0, hup']
    exact Nat.min_eq_right hother
  · rw [k1, hup']
    show b2n (other == 1) = other
    have : other = 0 ∨ other = 1 := by omega
    rcases this with ho | ho <;> rw [ho] <;> rfl
  · exact hdown (h0.trans hw) (hup'.trans h0')

theorem mirLaneDown_idle {d : Dev} {n : Nat} (c : Nat) (h : d.rf R.mirStat (4 + n) 1 = 0) : d.mirLaneDown n c = d.atC c := by
  refine if_neg ?_
  rintro ⟨-, h1⟩
  exact absurd ((show d.rf R.mirStat (4 + n) 1 = 1 from h1).symm.trans h) (by decide)

/-- A lane that comes up (R304, R324). -/
theorem mirLaneUp_leaves (d : Dev) {n : Nat} (ps c : Nat) (hn : n < 2) (h : d.rf R.mirStat (4 + n) 1 = 0) (hen : bit (d.lv R.mirCtrl) n = true) : let e := d.mirLaneUp n ps c
    let other := d.rf R.mirStat (5 - n) 1
    e.rf R.mirStat (4 + n) 1 = 1 ∧ e.rf R.mirStat 0 1 = 1 ∧ e.rf R.mirStat 1 1 = 1 - other ∧ e.reg R.mirDelay = ps / 2 % 2 ^ 24 ∧ e.flag Blk.mir Src.mirLaneUp ∧
      (d.rf R.mirStat 0 1 = 0 → d.mirLive = true → e.speaks (.identity (d.reg R.sysId) (d.lv R.ddrCfg))) := by
  let d1 := ((d.atC c).setFld R.mirStat (4 + n) 1 1).setReg R.mirDelay (ps / 2 % 2 ^ 24)
  let x := d1.raise Blk.mir Src.mirLaneUp n (d.atC c).tickLo 0
  have he : d.mirLaneUp n ps c = x.linkEval ps := if_pos ⟨hn, h, hen⟩
  have hbit : d1.rf R.mirStat (4 + n) 1 = 1 := (Dev.rf_setReg_ne _ _ _ _ _ (by decide)).trans (Dev.rf_setFld (d.atC c) _ _ _ _ (by omega))
  have hoth : d1.rf R.mirStat (5 - n) 1 = d.rf R.mirStat (5 - n) 1 := (Dev.rf_setReg_ne _ _ _ _ _ (by decide)).trans (rf_otherLane (d.atC c) 1 hn)
  have h0 : d1.rf R.mirStat 0 1 = d.rf R.mirStat 0 1 := (Dev.rf_setReg_ne _ _ _ _ _ (by decide)).trans (Dev.rf_setFld_lo (d.atC c) _ _ _ _ _ _ (by omega) (by omega))
  have hdel : d1.reg R.mirDelay = ps / 2 % 2 ^ 24 :=
    (Dev.reg_setReg ..).trans (Nat.mod_eq_of_lt (lt_trans (Nat.mod_lt _ (show 0 < 2 ^ 24 by decide)) (by decide)))
  have hm1 : (d.atC c).marks d1 [R.mirStat, R.mirDelay, R.fltstat Blk.mir, R.fltfirst Blk.mir] [] := (Dev.marks.setFld _ _ _ _ (by simp)).trans (.setReg _ _ (by simp))
  have hm2 : d1.marks x [R.mirStat, R.mirDelay, R.fltstat Blk.mir, R.fltfirst Blk.mir] [] := .raise _ _ _ _ _ _ (by simp) (by simp)
  have hk : d1.linkKept x := .raise _ _ _ _ _
  have hf : x.flag Blk.mir Src.mirLaneUp := Dev.flag_raise _ _ _ _ _ _ (by decide)
  clear_value x d1
  have hm := hm1.trans hm2
  obtain ⟨k0, k1, k4, k5, kdel, kf⟩ := linkEval_stat x ps
  obtain ⟨-, -, hsay⟩ := linkEval_leaves x ps
  have hother := rf_one_le d R.mirStat (5 - n)
  have hb := (hk.rf (4 + n) 1).trans hbit
  have ho := (hk.rf (5 - n) 1).trans hoth
  have hup : x.lanesUp = 1 + d.rf R.mirStat (5 - n) 1 := by
    rw [Dev.lanesUp]
    interval_cases n
    · rw [hb, ho]
    · rw [hb, ho, Nat.add_comm]
  intro e other
  rw [show e = _ from he]
  refine ⟨?_, ?_, ?_, ?_, kf _ (by decide) hf, fun hw hlive => ?_⟩
  · have hlane : (x.linkEval ps).rf R.mirStat (4 + n) 1 = x.rf R.mirStat (4 + n) 1 := by
      interval_cases n
      · exact k4
      · exact k5
    exact hlane.trans hb
  · rw [k0, hup]
    omega
  · rw [k1, hup]
    show b2n (1 + other == 1) = 1 - other
    have : other = 0 ∨ other = 1 := by omega
    rcases this with ho | ho <;> rw [ho] <;> rfl
  · exact kdel.trans (hk.delay.trans hdel)
  · have hlive' : x.mirLive = true := by
      obtain ⟨hp, hr, hrst⟩ := mirLive_iff.mp hlive
      refine mirLive_iff.mpr ⟨?_, ?_, hm.mgmtRst.trans hrst⟩
      · rw [Dev.paired, hm.rf 31 1 (by decide)]
        exact hp
      · rw [show x.role = d.role from Dev.role_congr (hm.rf 0 3 (by decide))]
        exact hr
    have hs := hsay ((hk.rf 0 1).trans (h0.trans hw)) (by omega) hlive'
    rw [hm.reg (o := R.sysId) (by decide), hm.lv (o := R.ddrCfg) (by decide)] at hs
    exact hs

/-- With both lanes gone the link is down (R324). -/
theorem mirLinkDown_leaves (d : Dev) (c : Nat) (h : d.rf R.mirStat 4 1 = 1 ∨ d.rf R.mirStat 5 1 = 1) : let e := d.mirLinkDown c
    e.rf R.mirStat 4 1 = 0 ∧ e.rf R.mirStat 5 1 = 0 ∧ e.rf R.mirStat 0 1 = 0 ∧ (d.rf R.mirStat 0 1 = 1 → e.flag Blk.mir Src.mirLinkDown) := by
  have h4 := rf_one_le d R.mirStat 4
  have h5 := rf_one_le d R.mirStat 5
  have htwo (b : Nat) (hb : b ≤ 1) : b = 0 ∨ b = 1 := by omega
  rw [Dev.mirLinkDown]
  rcases htwo _ h5 with h5 | h5
  · have h4 := h.resolve_right (by omega)
    obtain ⟨k4, k5, k0, -, -, kf⟩ := mirLaneDown_leaves d c (show 0 < 2 by decide) h4
    rw [mirLaneDown_idle c (k5.trans h5)]
    exact ⟨k4, k5.trans h5, k0.trans h5, fun hw => kf hw h5⟩
  rcases htwo _ h4 with h4 | h4
  · rw [mirLaneDown_idle (n := 0) c h4]
    obtain ⟨k5, k4, k0, -, -, kf⟩ := mirLaneDown_leaves (d.atC c) c (show 1 < 2 by decide) h5
    exact ⟨k4.trans h4, k5, k0.trans h4, fun hw => kf hw h4⟩
  · obtain ⟨a4, a5, a0, -, -, -⟩ := mirLaneDown_leaves d c (show 0 < 2 by decide) h4
    obtain ⟨k5, k4, k0, -, -, kf⟩ := mirLaneDown_leaves (d.mirLaneDown 0 c) c (show 1 < 2 by decide) (a5.trans h5)
    exact ⟨k4.trans a4, k5, k0.trans a4, fun _ => kf (a0.trans h5) a4⟩

/-! ## Unknown and late frames -/

/-- A frame that is dropped and counted as a check failure. -/
def Dev.checkFailed (d : Dev) (ty seq lane c : Nat) : Dev := ((d.mirIn c).bump (R.mirCnt 2) 1).raise Blk.mir Src.mirCheckFail ty seq lane

theorem unknownFrame_eq {d : Dev} (ty seq lane c : Nat) (h : d.mirLive = true) :
    d.unknownFrame ty seq lane c = if listedType ty then (d.checkFailed ty seq lane c).mirSend (.retrans seq 1) else d.checkFailed ty seq lane c := by
  refine if_neg ?_
  rw [h]
  decide

theorem checkFailed_leaves (d : Dev) (ty seq lane c : Nat) : let e := d.checkFailed ty seq lane c
    e.w64 (R.mirCnt 2) = (d.w64 (R.mirCnt 2) + 1) % 2 ^ 64 ∧ e.flag Blk.mir Src.mirCheckFail ∧ d.keepsOut e [Blk.mir, Blk.cvu] ∧ e.pair = d.pair ∧ e.out = d.out ∧
      e.mgmtRst = d.mgmtRst ∧ e.rf R.mirStat 0 1 = d.rf R.mirStat 0 1 := by
  have hin : ((d.atC c).bump (R.mirCnt 1) 1).snoops (d.mirIn c) := Dev.snoops_mirSnoop _ (by decide)
  obtain ⟨hs, -⟩ := hin
  have h2 : (d.mirIn c).w64 (R.mirCnt 2) = d.w64 (R.mirCnt 2) := (hs.w64 (by decide)).trans (Dev.w64_bump_ne _ _ _ _ (by decide))
  have hpair : (d.mirIn c).pair = d.pair := hs.pair
  have hout : (d.mirIn c).out = d.out := hs.out
  have hrst : (d.mirIn c).mgmtRst = d.mgmtRst := hs.mgmtRst
  have hk : d.keepsOut (d.mirIn c) [Blk.mir, Blk.cvu] := fun o ho => by
    have hno : o ∉ cvuRegs := not_mem_cvuRegs (fun hc => ho (by rw [hc]; simp))
    exact ⟨hs.reg hno, hs.lv hno⟩
  have hup : (d.mirIn c).rf R.mirStat 0 1 = d.rf R.mirStat 0 1 := hs.rf 0 1 (by decide)
  rw [Dev.checkFailed]
  generalize d.mirIn c = x at *
  have hm : x.marks ((x.bump (R.mirCnt 2) 1).raise Blk.mir Src.mirCheckFail ty seq lane) [R.fltstat Blk.mir, R.fltfirst Blk.mir] [R.mirCnt 2] :=
    (Dev.marks.bump _ _ (by simp)).trans (.raise _ _ _ _ _ _ (by simp) (by simp))
  have hw : ((x.bump (R.mirCnt 2) 1).raise Blk.mir Src.mirCheckFail ty seq lane).w64 (R.mirCnt 2) = (d.w64 (R.mirCnt 2) + 1) % 2 ^ 64 := by
    rw [Dev.w64_raise, Dev.w64_bump, h2]
  have hf : ((x.bump (R.mirCnt 2) 1).raise Blk.mir Src.mirCheckFail ty seq lane).flag Blk.mir Src.mirCheckFail := Dev.flag_raise _ _ _ _ _ _ (by decide)
  refine ⟨hw, hf, fun o ho => ?_, hm.pair.trans hpair, hm.out.trans hout, hm.mgmtRst.trans hrst, (hm.rf 0 1 (by decide)).trans hup⟩
  have hno : o ∉ [R.fltstat Blk.mir, R.fltfirst Blk.mir] := by
    simp only [List.mem_cons, List.not_mem_nil, or_false, not_or]
    exact ⟨fun hc => ho (by rw [hc]; decide), fun hc => ho (by rw [hc]; decide)⟩
  exact ⟨(hm.reg hno).trans (hk o ho).1, (hm.lv hno).trans (hk o ho).2⟩

/-- A frame of a TYPE that is not listed, or one of a listed TYPE that failed its check (R322, R458). -/
theorem unknownFrame_leaves {d : Dev} (ty seq lane c : Nat) (hlive : d.mirLive = true) : let e := d.unknownFrame ty seq lane c
    e.w64 (R.mirCnt 2) = (d.w64 (R.mirCnt 2) + 1) % 2 ^ 64 ∧ e.flag Blk.mir Src.mirCheckFail ∧ d.keepsOut e [Blk.mir, Blk.cvu] ∧
      (ty = 0 ∨ 0x10 < ty → e.pair = d.pair ∧ e.told = d.told) ∧ (1 ≤ ty → ty ≤ 0x10 → d.mirReady → e.told = d.told ++ [.retrans seq 1]) := by
  obtain ⟨hw, hf, hk, hpair, hout, hrst, hup⟩ := checkFailed_leaves d ty seq lane c
  rw [unknownFrame_eq ty seq lane c hlive]
  generalize d.checkFailed ty seq lane c = x at *
  by_cases hty : 1 ≤ ty ∧ ty ≤ 0x10
  · rw [if_pos (show listedType ty = true from decide_eq_true hty)]
    have ht := x.talks_mirSend (.retrans seq 1)
    refine ⟨(ht.w64 (by decide)).trans hw, ?_, fun o ho => ?_, fun h => by omega, fun _ _ hready => ?_⟩
    · rw [Dev.flag, ht.rf _ _ (by decide)]
      exact hf
    · have h1 := ht.keepsOut o (fun hc => ho (List.mem_cons_of_mem _ hc))
      exact ⟨h1.1.trans (hk o ho).1, h1.2.trans (hk o ho).2⟩
    · rw [(x.mirSend_ready _ (mirReady_congr hup hrst (by rw [hpair]) hready)).1, Dev.told, hout, Dev.told]
  · rw [if_neg (show ¬listedType ty = true from fun h => hty (of_decide_eq_true h))]
    exact ⟨hw, hf, hk, fun _ => ⟨hpair, by rw [Dev.told, hout, Dev.told]⟩, fun h1 h2 => absurd ⟨h1, h2⟩ hty⟩

/-- A real-time frame past its deadline (R321 to R323). -/
def Dev.lateNoted (d : Dev) (ty seq : Nat) : Dev := (d.bump (R.mirCnt 4) 1).raise Blk.mir Src.mirFrameLate ty seq d.tickLo

theorem lateNoted_leaves (d : Dev) (ty seq : Nat) : let e := d.lateNoted ty seq
    e.w64 (R.mirCnt 4) = (d.w64 (R.mirCnt 4) + 1) % 2 ^ 64 ∧ e.flag Blk.mir Src.mirFrameLate ∧ d.marks e [R.fltstat Blk.mir, R.fltfirst Blk.mir] [R.mirCnt 4] := by
  refine ⟨?_, Dev.flag_raise _ _ _ _ _ _ (by decide), (Dev.marks.bump _ _ (by simp)).trans (.raise _ _ _ _ _ _ (by simp) (by simp))⟩
  rw [Dev.lateNoted, Dev.w64_raise, Dev.w64_bump]

theorem frameLate_eq {d : Dev} (ty seq c : Nat) (hlive : d.mirLive = true) : d.frameLate ty seq c =
    if 0x0D ≤ ty ∧ ty ≤ 0x0F then (if d.role == .catchup && d.phase != 0 then (d.atC c).resyncAbort 5 else d.atC c)
    else if ty = 0x0B then d.atC c
    else if ((d.atC c).lateNoted ty seq).role == .catchup && ((d.atC c).lateNoted ty seq).phase != 0 then ((d.atC c).lateNoted ty seq).resyncAbort 2
    else (d.atC c).lateNoted ty seq := by
  refine if_neg ?_
  rw [hlive]
  decide

/-- Settles O43: row by row. -/
theorem mirrorLanesAndFrames : Obligations.MirrorLanesAndFrames := by
  intro z c hrun d
  refine ⟨fun n hn => ?_, fun h => leads_of_tickRow rfl hrun (mirLinkDown_leaves d c h), fun hlive ty seq => ⟨fun lane => ?_, fun h => ?_, fun h1 h2 hrole => ?_, fun h1 hrole hph => ?_⟩,
    fun hlive h => ?_, fun hrst m => ?_, fun hup hrst hsent b => ?_⟩
  · intro other
    refine ⟨fun h => ?_, fun h => exec_tickRow_still rfl hrun (mirLaneDown_idle c h), fun h hen ps => leads_of_tickRow rfl hrun (mirLaneUp_leaves d ps c hn h hen)⟩
    obtain ⟨h1, h2, h3, h4, h5, -⟩ := mirLaneDown_leaves d c hn h
    exact leads_of_tickRow rfl hrun ⟨h1, h2, h3, h4, h5⟩
  · exact leads_of_tickRow rfl hrun (unknownFrame_leaves ty seq lane c hlive)
  · refine exec_tickRow_still rfl hrun ?_
    rw [frameLate_eq ty seq c hlive]
    rcases h with rfl | ⟨h1, h2, h3⟩
    · rfl
    · rw [if_pos ⟨h1, h2⟩, if_neg]
      rw [Bool.and_eq_true, beq_iff_eq, bne_iff_ne]
      rintro ⟨hr, hp⟩
      exact h3.elim (fun k => k hr) (fun k => hp k)
  · refine leads_of_tickRow rfl hrun ?_
    obtain ⟨hw, hf, hm⟩ := lateNoted_leaves (d.atC c) ty seq
    have hno : ¬(((d.atC c).lateNoted ty seq).role == .catchup && ((d.atC c).lateNoted ty seq).phase != 0) = true := by
      rw [show ((d.atC c).lateNoted ty seq).role = d.role from Dev.role_congr (hm.rf 0 3 (by decide)), Bool.and_eq_true, beq_iff_eq]
      exact fun hc => hrole hc.1
    rw [frameLate_eq ty seq c hlive, if_neg h2, if_neg h1, if_neg hno]
    exact ⟨hw, hf, hm.pair, hm.keeps⟩
  · refine leads_of_tickRow rfl hrun ?_
    have hpaired := (mirLive_iff.mp hlive).1
    rw [frameLate_eq ty seq c hlive]
    split
    · rw [if_pos (by rw [show z.sys.dev.role = .catchup from hrole, Bool.and_eq_true, bne_iff_ne]; exact ⟨rfl, hph⟩)]
      obtain ⟨k1, -, -, k4, -, -, k7⟩ := (d.atC c).resyncAbort_leaves 5
      exact ⟨k1, k7 hpaired hrole, k4⟩
    · obtain ⟨-, -, hm⟩ := lateNoted_leaves (d.atC c) ty seq
      have hr : ((d.atC c).lateNoted ty seq).role = .catchup := (Dev.role_congr (hm.rf 0 3 (by decide))).trans hrole
      have hp : ((d.atC c).lateNoted ty seq).phase = d.phase := hm.rf 0 3 (by decide)
      have hpr : ((d.atC c).lateNoted ty seq).paired = true := by
        rw [Dev.paired, hm.rf 31 1 (by decide)]
        exact hpaired
      rw [if_pos (by rw [hr, hp, Bool.and_eq_true, bne_iff_ne]; exact ⟨rfl, hph⟩)]
      obtain ⟨k1, -, -, k4, -, -, k7⟩ := ((d.atC c).lateNoted ty seq).resyncAbort_leaves 2
      rw [hm.w64 (by decide)] at k4
      exact ⟨k1, k7 hpr hr, k4⟩
  · intro e
    obtain ⟨ht, hfit, hgap⟩ := d.mirHead_live h hlive
    refine ⟨(ht.w64 (by decide)).trans (Dev.w64_bump ..), fun hag => ?_, fun hf => (hfit hf).1, fun n hready hag hrx hne => ?_⟩
    · have hp : (d.mirHead h).pair.rxSeq = (d.received h.c (d.nextSeq h)).pair.rxSeq := by rw [ht.pair]
      rw [show e.pair.rxSeq = _ from hp]
      show d.nextSeq h = _
      rw [Dev.nextSeq, hag]
      rfl
    · have hno : d.seqFits h = false := by
        rw [Dev.seqFits, hag, hrx]
        simp [hne]
      have hg := hgap hno hready
      rw [hrx] at hg
      exact hg
  · rw [Dev.mirSend, if_pos]
    rw [Option.ne_none_iff_isSome] at hrst
    simp [hrst]
  · have hno : ¬(d.rf R.mirStat 0 1 = 0 ∨ d.mgmtRst.isSome = true) := by
      rw [hup, hrst]
      decide
    have hgo : d.mirSend (.modBlock b) = d.mirFrame false d.pair.seq 6144 (.modBlock b) := if_neg hno
    have hcap : rtCap < d.pair.rtSent + d.rtBytes 6144 (.modBlock b) := by
      have hb : d.rtBytes 6144 (.modBlock b) = 6144 := rfl
      rw [hb, rtCap]
      omega
    obtain ⟨-, hmir, hq⟩ := d.mirFrame_waits false d.pair.seq 6144 (.modBlock b) hcap
    rw [hgo]
    exact ⟨by rw [Dev.told, hmir, Dev.told], hq⟩

end Sys2Proof.Machine

/-!
PROOFS. Resynchronisation: the start, the snapshot, the bulk frames (R120, R315 to R318).
-/
namespace Sys2Proof.Machine

/-! ## The start (R315) -/

/-- The device with a start at snapshot tick `t`, before it is told. -/
def Dev.snapChosen (d : Dev) (t : Nat) : Dev :=
  ((((d.setW R.pairSnap t).setFld R.pairRsstat 0 3 1).bump (R.pairCnt 4) 1).onPair (fun p => { p with rs := { p.rs with asked := false } })).raise Blk.pair Src.pairResync 1
    (t % 2 ^ 32) 0

theorem snapChosen_leaves (d : Dev) (t : Nat) : let e := d.snapChosen t
    e.phase = 1 ∧ e.w64 R.pairSnap = t % 2 ^ 64 ∧ e.w64 (R.pairCnt 4) = (d.w64 (R.pairCnt 4) + 1) % 2 ^ 64 ∧ e.flag Blk.pair Src.pairResync ∧ e.out = d.out ∧
      e.mgmtRst = d.mgmtRst ∧ e.pair.rtSent = d.pair.rtSent ∧ e.rf R.mirStat 0 1 = d.rf R.mirStat 0 1 := by
  let d1 := (d.setW R.pairSnap t).setFld R.pairRsstat 0 3 1
  have hphase : d1.phase = 1 := Dev.rf_setFld (d.setW R.pairSnap t) _ _ _ _ (by decide)
  have hsnap : d1.w64 R.pairSnap = t % 2 ^ 64 := Dev.w64_setW d _ _
  have hm1 : d.marks d1 [R.pairRsstat] [R.pairSnap] := (Dev.marks.setW d _ (by simp)).trans (.setFld _ _ _ _ (by simp))
  let d2 := d1.bump (R.pairCnt 4) 1
  have hcnt : d2.w64 (R.pairCnt 4) = (d1.w64 (R.pairCnt 4) + 1) % 2 ^ 64 := Dev.w64_bump ..
  have hm2 : d1.marks d2 [] [R.pairCnt 4] := .bump _ _ (by simp)
  have hfl : d.snapChosen t = (d2.onPair (fun p => { p with rs := { p.rs with asked := false } })).raise Blk.pair Src.pairResync 1 (t % 2 ^ 32) 0 := rfl
  clear_value d2 d1
  let x := d2.onPair (fun p => { p with rs := { p.rs with asked := false } })
  have hx : (∀ o, x.w64 o = d2.w64 o) ∧ (∀ o lo w, x.rf o lo w = d2.rf o lo w) ∧ x.out = d2.out ∧ x.mgmtRst = d2.mgmtRst ∧ x.pair.rtSent = d2.pair.rtSent :=
    ⟨fun _ => rfl, fun _ _ _ => rfl, rfl, rfl, rfl⟩
  rw [hfl]
  have hm3 : x.marks (x.raise Blk.pair Src.pairResync 1 (t % 2 ^ 32) 0) [R.fltstat Blk.pair, R.fltfirst Blk.pair] [] := .raise _ _ _ _ _ _ (by simp) (by simp)
  have hf : (x.raise Blk.pair Src.pairResync 1 (t % 2 ^ 32) 0).flag Blk.pair Src.pairResync := Dev.flag_raise _ _ _ _ _ _ (by decide)
  rw [show d2.onPair (fun p => { p with rs := { p.rs with asked := false } }) = x from rfl]
  clear_value x
  obtain ⟨hw, hrf, hout, hrst, hsent⟩ := hx
  refine ⟨?_, ?_, ?_, hf, ?_, ?_, ?_, ?_⟩
  · rw [Dev.phase, hm3.rf 0 3 (by decide), hrf, hm2.rf 0 3 (by decide)]
    exact hphase
  · rw [hm3.w64 (by decide), hw, hm2.w64 (by decide), hsnap]
  · rw [hm3.w64 (by decide), hw, hcnt, hm1.w64 (by decide)]
  · rw [hm3.out, hout, hm2.out, hm1.out]
  · rw [hm3.mgmtRst, hrst, hm2.mgmtRst, hm1.mgmtRst]
  · rw [hm3.pair, hsent, hm2.pair, hm1.pair]
  · rw [hm3.rf 0 1 (by decide), hrf, hm2.rf 0 1 (by decide), hm1.rf 0 1 (by decide)]

theorem resyncStart_idle {d : Dev} {c : Nat} (h : (d.atC c).resyncMay = false) : d.resyncStart c = d.atC c := by
  refine if_pos ?_
  rw [h]
  rfl

theorem resyncStart_fits {d : Dev} {c : Nat} (h : (d.atC c).resyncMay = true) (hfit : d.ringFits = true) : d.resyncStart c =
    ((d.atC c).snapChosen (d.tick + max 16 (d.lf R.pairCtrl 0 8))).mirSend (.resync 1 (d.tick + max 16 (d.lf R.pairCtrl 0 8))) := by
  have h1 : ¬(!(d.atC c).resyncMay) = true := by
    rw [h]
    decide
  have h2 : ¬(!(d.atC c).ringFits) = true := by
    rw [show (d.atC c).ringFits = true from hfit]
    decide
  exact (if_neg h1).trans (if_neg h2)

/-- A start that fits (R315). -/
theorem resyncStart_leaves {d : Dev} {c : Nat} (h : (d.atC c).resyncMay = true) (hfit : d.ringFits = true) : let e := d.resyncStart c
    e.phase = 1 ∧ e.w64 R.pairSnap = (d.tick + max 16 (d.lf R.pairCtrl 0 8)) % 2 ^ 64 ∧ e.w64 (R.pairCnt 4) = (d.w64 (R.pairCnt 4) + 1) % 2 ^ 64 ∧
      (d.mirReady → e.told = d.told ++ [.resync 1 (d.tick + max 16 (d.lf R.pairCtrl 0 8))]) ∧ e.flag Blk.pair Src.pairResync := by
  rw [resyncStart_fits h hfit]
  generalize d.tick + max 16 (d.lf R.pairCtrl 0 8) = t
  obtain ⟨hphase, hsnap, hcnt, hf, hout, hrst, hsent, hup⟩ := snapChosen_leaves (d.atC c) t
  generalize (d.atC c).snapChosen t = x at *
  have ht := x.talks_mirSend (.resync 1 t)
  refine ⟨?_, ?_, ?_, fun hready => ?_, ?_⟩
  · rw [Dev.phase, ht.rf 0 3 (by decide)]
    exact hphase
  · rw [ht.w64 (by decide), hsnap]
  · rw [ht.w64 (by decide), hcnt]
    rfl
  · rw [(x.mirSend_ready _ (mirReady_congr (d := d) hup hrst hsent hready)).1, Dev.told, hout, Dev.told]
    rfl
  · rw [Dev.flag, ht.rf _ _ (by decide)]
    exact hf

/-- A start that does not fit (R315). -/
theorem resyncStart_aborts {d : Dev} {c : Nat} (h : (d.atC c).resyncMay = true) (hfit : d.ringFits = false) : let e := d.resyncStart c
    e.phase = 0 ∧ e.pair.rs.retry = d.tick + 96000 ∧ e.w64 (R.pairCnt 5) = (d.w64 (R.pairCnt 5) + 1) % 2 ^ 64 := by
  have hphase : d.phase = 0 := by
    have hmay := h
    simp only [Dev.resyncMay, Bool.and_eq_true, beq_iff_eq] at hmay
    obtain ⟨⟨⟨⟨⟨⟨⟨⟨-, -⟩, hp⟩, -⟩, -⟩, -⟩, -⟩, -⟩, -⟩ := hmay
    exact hp
  have h1 : ¬(!(d.atC c).resyncMay) = true := by
    rw [h]
    decide
  have h2 : (!(d.atC c).ringFits) = true := by
    rw [show (d.atC c).ringFits = false from hfit]
    rfl
  have he : d.resyncStart c = (((d.atC c).bump (R.pairCnt 5) 1).raise Blk.pair Src.pairResyncAbort 6 (d.atC c).tickLo 0).onPair (fun p => { p with
      rs := { p.rs with asked := false, retry := d.tick + 96000 } }) := (if_neg h1).trans (if_pos h2)
  have hm : (d.atC c).marks (((d.atC c).bump (R.pairCnt 5) 1).raise Blk.pair Src.pairResyncAbort 6 (d.atC c).tickLo 0) [R.fltstat Blk.pair, R.fltfirst Blk.pair] [R.pairCnt 5] :=
    (Dev.marks.bump _ _ (by simp)).trans (.raise _ _ _ _ _ _ (by simp) (by simp))
  have hcnt : (((d.atC c).bump (R.pairCnt 5) 1).raise Blk.pair Src.pairResyncAbort 6 (d.atC c).tickLo 0).w64 (R.pairCnt 5) = (d.w64 (R.pairCnt 5) + 1) % 2 ^ 64 := by
    rw [Dev.w64_raise, Dev.w64_bump]
    rfl
  rw [he]
  generalize ((d.atC c).bump (R.pairCnt 5) 1).raise Blk.pair Src.pairResyncAbort 6 (d.atC c).tickLo 0 = x at *
  exact ⟨(hm.rf 0 3 (by decide)).trans hphase, rfl, hcnt⟩

/-! ## Control frames -/

theorem resyncControl_snap {d : Dev} (t c : Nat) (hlive : d.mirLive = true) (hrole : d.role = .fallow) (ht : t < 2 ^ 64) : let e := d.resyncControl 1 t c
    e.phase = 1 ∧ e.w64 R.pairSnap = t := by
  have h1 : ¬(!d.mirLive) = true := by
    rw [hlive]
    decide
  have h2 : 1 = 1 ∧ ((d.atC c).role == .fallow) = true := ⟨rfl, beq_iff_eq.mpr hrole⟩
  have he : d.resyncControl 1 t c = (((d.atC c).setW R.pairSnap t).setFld R.pairRsstat 0 3 1).onPair (fun p => { p with rs := p.rs.idle 0 }) := (if_neg h1).trans (if_pos h2)
  have hphase : (((d.atC c).setW R.pairSnap t).setFld R.pairRsstat 0 3 1).rf R.pairRsstat 0 3 = 1 := Dev.rf_setFld _ _ _ _ _ (by decide)
  have hsnap : (((d.atC c).setW R.pairSnap t).setFld R.pairRsstat 0 3 1).w64 R.pairSnap = t := (Dev.w64_setW ..).trans (Nat.mod_eq_of_lt ht)
  rw [he]
  generalize ((d.atC c).setW R.pairSnap t).setFld R.pairRsstat 0 3 1 = x at *
  exact ⟨hphase, hsnap⟩

theorem resyncControl_abort {d : Dev} (t c : Nat) (hlive : d.mirLive = true) (hph : d.phase ≠ 0) : let e := d.resyncControl 3 t c
    e.phase = 0 ∧ e.replayT = none := by
  have h1 : ¬(!d.mirLive) = true := by
    rw [hlive]
    decide
  have h2 : ¬(3 = 1 ∧ ((d.atC c).role == .fallow) = true) := fun hc => absurd hc.1 (by decide)
  have he : d.resyncControl 3 t c = (d.atC c).resyncStop := ((if_neg h1).trans (if_neg h2)).trans (if_pos ⟨rfl, hph⟩)
  obtain ⟨hphase, -, hrep, -⟩ := (d.atC c).resyncStop_leaves
  rw [he]
  exact ⟨hphase, hrep⟩

/-! ## The snapshot (R316) -/

theorem resyncFreeze_active {s : Sys} (hpaired : s.dev.paired = true) (hph : s.dev.phase = 1) (hsnap : s.dev.w64 R.pairSnap = s.dev.tick) (hrole : s.dev.role = .active) :
    s.resyncFreeze = (s.onDev (fun d => d.atC 0)).onDev (fun d => ((d.setFld R.pairStat 13 1 1).setFld R.pairRsstat 0 3 2).onPair (fun p => { p with rs := { p.rs with
      snap := s.mem
      blk := some d.blockState
      sent := 0
      copy := d.copyRegs } })) := by
  have h1 : ¬(!(s.dev.atC 0).paired || (s.dev.atC 0).phase != 1 || (s.dev.atC 0).w64 R.pairSnap != (s.dev.atC 0).tick) = true := by
    rw [show (s.dev.atC 0).paired = true from hpaired, show (s.dev.atC 0).phase = 1 from hph, show (s.dev.atC 0).w64 R.pairSnap = (s.dev.atC 0).tick from hsnap]
    simp
  exact (if_neg h1).trans (if_pos (beq_iff_eq.mpr hrole))

theorem resyncFreeze_fallow {s : Sys} (hpaired : s.dev.paired = true) (hph : s.dev.phase = 1) (hsnap : s.dev.w64 R.pairSnap = s.dev.tick) (hrole : s.dev.role = .fallow) :
    s.resyncFreeze = (s.onDev (fun d => d.atC 0)).onDev (fun d =>
      ((((d.setFld R.pairRsstat 0 3 2).setFld R.pairRsstat 3 17 0).setFld R.engStat 0 3 0).enterRole 2 0).ringTick d.tick 0 id) := by
  have h1 : ¬(!(s.dev.atC 0).paired || (s.dev.atC 0).phase != 1 || (s.dev.atC 0).w64 R.pairSnap != (s.dev.atC 0).tick) = true := by
    rw [show (s.dev.atC 0).paired = true from hpaired, show (s.dev.atC 0).phase = 1 from hph, show (s.dev.atC 0).w64 R.pairSnap = (s.dev.atC 0).tick from hsnap]
    simp
  have h2 : ¬((s.dev.atC 0).role == .active) = true := by
    rw [show (s.dev.atC 0).role = .fallow from hrole]
    decide
  exact ((if_neg h1).trans (if_neg h2)).trans (if_pos (beq_iff_eq.mpr hrole))

/-- A FALLOW unit that has entered CATCHUP, before its loader follows. -/
def Dev.catchupBegun (d : Dev) : Dev :=
  ((((((d.setFld R.pairStat 0 3 2).setFld R.pairStat 12 1 0).setPins false false).onPair (fun p => { p with
    bridgeEnd := false
    toRole := p.toRole })).strmYield false).setReg R.pairRecmax 0)

theorem Dev.enterRole_catchup {d : Dev} (h : d.role = .fallow) : d.enterRole 2 0 = d.catchupBegun.loadRole .fallow := by
  unfold Dev.enterRole
  extract_lets was dA dB d1 e e1 eS d2 d3 d4
  have hwas : was = .fallow := h
  have hA : dA = d := if_neg (by rw [hwas]; simp)
  rw [if_neg (by decide), if_neg (by rw [hwas]; decide), if_neg (by rw [hwas]; decide)]
  have h1 : d1 = (d.setFld R.pairStat 0 3 2).setFld R.pairStat 12 1 0 := by
    simp only [d1, dB, hA, if_neg (show ¬(2 = 4) by decide)]
  have h2 : d2 = (((d1.setPins false false).onPair (fun p => { p with bridgeEnd := false, toRole := p.toRole })).strmYield false) :=
    (if_neg (by decide)).trans ((if_neg (by rw [hwas]; decide)).trans (if_neg (by decide)))
  have h3 : d3 = d.catchupBegun := by
    simp only [d3, if_neg (show ¬(2 = 0) by decide)]
    rw [h2, h1]
    rfl
  show d3.loadRole was = _
  rw [h3, hwas]

theorem Dev.catchupBegun_leaves (d : Dev) : let e := d.catchupBegun
    e.role = .catchup ∧ e.phase = d.phase ∧ e.pair.rs = d.pair.rs := by
  let d1 := (d.setFld R.pairStat 0 3 2).setFld R.pairStat 12 1 0
  have hm : d.marks d1 [R.pairStat] [] := (Dev.marks.setFld _ _ _ _ (by simp)).trans (.setFld _ _ _ _ (by simp))
  have hcode : d1.rf R.pairStat 0 3 = 2 := (Dev.rf_setFld_lo _ _ _ _ _ _ _ (by decide) (by decide)).trans (Dev.rf_setFld d _ _ _ _ (by decide))
  have he : ∃ f : Pair → Pair, d.catchupBegun = (((d1.setPins false false).onPair f).strmYield false).setReg R.pairRecmax 0 ∧ ∀ p, (f p).rs = p.rs :=
    ⟨_, rfl, fun _ => rfl⟩
  clear_value d1
  obtain ⟨f, he, hf⟩ := he
  obtain ⟨-, -, hlow, -, hpins⟩ := d1.setPins_leaves false false
  rw [he]
  generalize d1.setPins false false = x at *
  let y := (x.onPair f).strmYield false
  have hy : (∀ o lo w, y.rf o lo w = x.rf o lo w) ∧ y.pair.rs = x.pair.rs := ⟨fun _ _ _ => rfl, hf _⟩
  rw [show (x.onPair f).strmYield false = y from rfl]
  clear_value y
  obtain ⟨hrf, hrs⟩ := hy
  have hrec : y.marks (y.setReg R.pairRecmax 0) [R.pairRecmax] [] := .setReg _ _ (by simp)
  refine ⟨?_, ?_, ?_⟩
  · rw [Dev.role, hrec.rf 0 3 (by decide), hrf, hlow 0 3 (by decide), hcode]
    rfl
  · rw [Dev.phase, hrec.rf 0 3 (by decide), hrf, hpins.rf 0 3 (by decide), hm.rf 0 3 (by decide), Dev.phase]
  · rw [hrec.pair, hrs, hpins.pair, hm.pair]

/-- The ring grows by a tick record that fits. -/
theorem ringTick_fits {d : Dev} (t : Nat) (hfit : d.pair.rs.used + 1472 ≤ ringBytes) :
    (d.ringTick t 0 id).phase = d.phase ∧ (d.ringTick t 0 id).role = d.role := by
  unfold Dev.ringTick
  split
  · exact ⟨rfl, rfl⟩
  extract_lets hit ring
  have h1 : (d.onPair (fun p => { p with rs := { p.rs with ring := ring } })).phase = d.phase ∧ (d.onPair (fun p => { p with rs := { p.rs with ring := ring } })).role = d.role ∧
      (d.onPair (fun p => { p with rs := { p.rs with ring := ring } })).pair.rs.used = d.pair.rs.used := ⟨rfl, rfl, rfl⟩
  generalize d.onPair (fun p => { p with rs := { p.rs with ring := ring } }) = x at *
  obtain ⟨hp, hr, hu⟩ := h1
  unfold Dev.ringGrow
  extract_lets n
  have hn : ¬ringBytes < n := by
    simp only [n, hu]
    split <;> omega
  rw [if_neg hn]
  have hk : ((x.onPair (fun p => { p with rs := { p.rs with used := n } })).setFld R.pairRsstat 20 12 (n / 2 ^ 20)).phase = x.phase :=
    Dev.rf_setFld_lo (x.onPair _) _ _ _ _ _ _ (by decide) (by decide)
  have hrl : ((x.onPair (fun p => { p with rs := { p.rs with used := n } })).setFld R.pairRsstat 20 12 (n / 2 ^ 20)).role = x.role :=
    Dev.role_congr (Dev.rf_setFld_ne (x.onPair _) _ _ _ _ _ _ (by decide))
  exact ⟨hk.trans hp, hrl.trans hr⟩

/-- The FALLOW unit becomes CATCHUP at the snapshot tick. -/
theorem catchupBegins_leaves {d : Dev} (hrole : d.role = .fallow) (hfit : d.pair.rs.used + 1472 ≤ ringBytes) :
    let e := ((((d.setFld R.pairRsstat 0 3 2).setFld R.pairRsstat 3 17 0).setFld R.engStat 0 3 0).enterRole 2 0).ringTick d.tick 0 id
    e.phase = 2 ∧ e.role = .catchup := by
  let d1 := ((d.setFld R.pairRsstat 0 3 2).setFld R.pairRsstat 3 17 0).setFld R.engStat 0 3 0
  have hm : d.marks d1 [R.pairRsstat, R.engStat] [] := ((Dev.marks.setFld _ _ _ _ (by simp)).trans (.setFld _ _ _ _ (by simp))).trans (.setFld _ _ _ _ (by simp))
  have hphase : d1.phase = 2 := (Dev.rf_setFld_ne _ _ _ _ _ _ _ (by decide)).trans
    ((Dev.rf_setFld_lo _ _ _ _ _ _ _ (by decide) (by decide)).trans (Dev.rf_setFld d _ _ _ _ (by decide)))
  have hr1 : d1.role = .fallow := (Dev.role_congr (hm.rf 0 3 (by decide))).trans hrole
  have hu1 : d1.pair.rs.used + 1472 ≤ ringBytes := by
    rw [hm.pair]
    exact hfit
  rw [show ((d.setFld R.pairRsstat 0 3 2).setFld R.pairRsstat 3 17 0).setFld R.engStat 0 3 0 = d1 from rfl]
  clear_value d1
  obtain ⟨hcatch, hp, hrs⟩ := d1.catchupBegun_leaves
  have hload := d1.catchupBegun.loadRole_moves .fallow
  rw [Dev.enterRole_catchup hr1]
  generalize d1.catchupBegun.loadRole .fallow = x at *
  obtain ⟨hp', hr'⟩ := ringTick_fits (d := x) d.tick (by rw [hload.pair, hrs]; exact hu1)
  exact ⟨hp'.trans ((hload.rf 0 3 (by decide)).trans (hp.trans hphase)), hr'.trans ((Dev.role_congr (hload.rf 0 3 (by decide))).trans hcatch)⟩

/-- The lease holder freezes its image. -/
theorem imageFrozen_leaves {d : Dev} {f : Pair → Pair} : let e := ((d.setFld R.pairStat 13 1 1).setFld R.pairRsstat 0 3 2).onPair f
    e.phase = 2 ∧ e.rf R.pairStat 13 1 = 1 ∧ e.pair = f d.pair ∧ e.eng = d.eng := by
  have hphase : ((d.setFld R.pairStat 13 1 1).setFld R.pairRsstat 0 3 2).rf R.pairRsstat 0 3 = 2 := Dev.rf_setFld _ _ _ _ _ (by decide)
  have hfreeze : ((d.setFld R.pairStat 13 1 1).setFld R.pairRsstat 0 3 2).rf R.pairStat 13 1 = 1 :=
    (Dev.rf_setFld_ne _ _ _ _ _ _ _ (by decide)).trans (Dev.rf_setFld d _ _ _ _ (by decide))
  have hm : d.marks ((d.setFld R.pairStat 13 1 1).setFld R.pairRsstat 0 3 2) [R.pairStat, R.pairRsstat] [] :=
    (Dev.marks.setFld _ _ _ _ (by simp)).trans (.setFld _ _ _ _ (by simp))
  generalize (d.setFld R.pairStat 13 1 1).setFld R.pairRsstat 0 3 2 = x at *
  exact ⟨hphase, hfreeze, congrArg f hm.pair, hm.eng⟩

/-! ## Bulk frames (R120, R317, R318) -/

/-- The loader and the resynchronisation's own state stay through a header. -/
theorem Dev.hears.bulk {d e : Dev} (h : d.hears e) : e.ldr = d.ldr ∧ e.pair.rs = d.pair.rs := by
  have hp : e.pair = _ := (congrArg Dev.pair h.eq :)
  have hl : e.ldr = d.ldr := (congrArg Dev.ldr h.eq :)
  rw [hp]
  exact ⟨hl, rfl⟩

theorem Dev.hears.dram8 {d e : Dev} (h : d.hears e) : e.dram8 = d.dram8 := by rw [Dev.dram8, h.lf 0 1 (by decide), Dev.dram8]

theorem Dev.hears.bases {d e : Dev} (h : d.hears e) : e.storeBase = d.storeBase ∧ e.replayBase = d.replayBase := by
  rw [Dev.storeBase, Dev.replayBase, h.dram8, Dev.storeBase, Dev.replayBase]
  exact ⟨rfl, rfl⟩

/-- A load that begins is LOADING, whatever its place and length. -/
theorem Dev.loadBegin_loading (d : Dev) (off len : Nat) (peer : Bool) : (d.loadBegin off len peer).loadState = 1 := by
  let v := 1 + 16 * (if peer && !!storeFits off len then 1 else 2)
  have hfld : fld v 0 3 = 1 := by
    simp only [v]
    split <;> rfl
  let e1 := d.setReg R.loadStat v
  let e := (((((e1.setReg R.loadSrcoff (off % 2 ^ 27)).setReg R.loadSrclen (len % 2 ^ 25)).setReg R.loadProgress 0).setReg R.loadFailinfo0 0).setReg R.loadFailinfo1 0).setReg
    R.loadFailinfo2 0
  have hm : e1.marks e [R.loadSrcoff, R.loadSrclen, R.loadProgress, R.loadFailinfo0, R.loadFailinfo1, R.loadFailinfo2] [] :=
    (((((Dev.marks.setReg e1 _ (by simp)).trans (.setReg _ _ (by simp))).trans (.setReg _ _ (by simp))).trans (.setReg _ _ (by simp))).trans
      (.setReg _ _ (by simp))).trans (.setReg _ _ (by simp))
  have he : (d.loadBegin off len peer).loadState = e.loadState := rfl
  rw [he, Dev.loadState, hm.rf 0 3 (by decide), Dev.rf_setReg_same _ _ _ _ _ (by decide), hfld]

/-- The bytes of a memory written at `a` are stored there. -/
theorem stored_putBytes {s t u : Sys} {a : Nat} {bs : List Byte} (hwf : s.mem.wf = true) (hs : u.mem = s.mem) (ht : t.mem = u.mem.putBytes a bs) : s.stored t a bs := by
  rw [Sys.stored, ht, hs]
  exact ⟨Memory.bytes_putBytes _ _ _ hwf, fun x hx => Memory.get_putBytes_ne _ _ _ _ hx hwf⟩

/-- The last byte of an image only moves the phase. -/
theorem imageDone_pair (x : Dev) : (if imageBytes ≤ x.pair.rs.imgRx then x.setFld R.pairRsstat 0 3 3 else x).pair = x.pair := by
  split
  · exact Dev.setFld_pair _ _ _ _ _
  · rfl

section
variable {s : Sys} (hlive : s.dev.mirLive = true)
include hlive

/-- A sheaf copy's frame that a SHADOW takes. -/
theorem sheafCopyReceive_eq {off c : Nat} {bs : List Byte} (load : Option (Nat × Nat)) (hrole : s.dev.role = .shadow) (hfit : off + bs.length ≤ 2 ^ 27) :
    s.sheafCopyReceive off bs load c =
      let s1 := (s.onDev (fun d => d.atC c)).onMem (fun m => m.putBytes (s.dev.storeBase + off) bs)
      match load with
      | some (o, l) => if s.dev.loadState = 0 ∨ s.dev.loadState = 4 then s1.onDev (fun d => (d.loadBegin o l true).setFld R.loadStat 4 3 2) else s1
      | none => s1 := by
  have h1 : ¬(!s.dev.mirLive) = true := by
    rw [hlive]
    decide
  have h2 : ¬((s.dev.atC c).role != .shadow || decide (storeSize < off + bs.length)) = true := by
    rw [show (s.dev.atC c).role = .shadow from hrole, Bool.or_eq_true, decide_eq_true_eq, storeSize]
    rintro (h | h)
    · exact absurd h (by decide)
    · omega
  exact (if_neg h1).trans (if_neg h2)

/-- A byte of the image that a CATCHUP unit takes (R318). -/
theorem imageReceive_leaves {off c : Nat} (b : Byte) (hrole : s.dev.role = .catchup) (hphase : s.dev.phase = 2) (hoff : off < imageMem) :
    let t := s.imageReceive off [b] none c
    t.mem = (s.mem.putBytes (s.dev.replayBase + off) [b]).put (imageAddr (s.dev.rf R.engStat 5 1) (s.dev.w64 R.pairSnap % 2) off) b ∧
      t.otp = s.otp ∧ t.dev.pair.rs.imgRx = s.dev.pair.rs.imgRx + 1 := by
  have h1 : ¬(!s.dev.mirLive) = true := by
    rw [hlive]
    decide
  have h2 : ¬((s.dev.atC c).role != .catchup || (s.dev.atC c).phase != 2) = true := by
    rw [show (s.dev.atC c).role = .catchup from hrole, show (s.dev.atC c).phase = 2 from hphase]
    decide
  have hbyte : ((List.range [b].length).zip [b]).filter (fun p => decide (off + p.1 < imageMem)) = [(0, b)] :=
    List.filter_eq_self.mpr (by simpa using hoff)
  have hword : [(0, b)].filter (fun p => (off + p.1) % 4 == 0 && decide (p.1 + 4 ≤ [b].length)) = [] := by
    simp
  have htake : [b].take (0x2000000 - off) = [b] := by
    refine List.take_of_length_le ?_
    rw [imageMem] at hoff
    simp only [List.length_singleton]
    omega
  intro t
  have ht : t = _ := (if_neg h1).trans (if_neg h2)
  rw [hbyte] at ht
  dsimp only at ht
  rw [hword, htake] at ht
  rw [ht]
  refine ⟨rfl, rfl, ?_⟩
  exact congrArg (fun p => p.rs.imgRx) (imageDone_pair _)

/-- Delay bytes that a CATCHUP unit takes (R317). -/
theorem delayReceive_leaves {a c : Nat} {bs : List Byte} (hrole : s.dev.role = .catchup) (hfit : a + bs.length ≤ 0x80000000) : let t := s.delayReceive [(a, bs)] c
    t.mem = s.mem.putBytes a bs ∧ t.otp = s.otp ∧ t.dev.pair.rs.delRx = s.dev.pair.rs.delRx + bs.length := by
  have h1 : ¬(!s.dev.mirLive) = true := by
    rw [hlive]
    decide
  have h2 : ¬((s.dev.atC c).role != .catchup) = true := by
    rw [show (s.dev.atC c).role = .catchup from hrole]
    decide
  have hok : [(a, bs)].filter (fun p => decide (p.1 + p.2.length ≤ delayEnd 1)) = [(a, bs)] :=
    List.filter_eq_self.mpr (by simpa [delayEnd] using hfit)
  intro t
  have ht : t = _ := (if_neg h1).trans (if_neg h2)
  rw [hok] at ht
  rw [ht]
  refine ⟨rfl, rfl, ?_⟩
  show s.dev.pair.rs.delRx + sumN [bs.length] = _
  simp [sumN]

end

/-- The freeze ends (R316). -/
theorem imageSent_leaves {d : Dev} (c : Nat) (hrole : d.role = .active) (hpaired : d.paired = true) (hfreeze : d.rf R.pairStat 13 1 = 1)
    (hsent : imageBytes ≤ d.pair.rs.sent) : let e := d.imageSent c
    e.rf R.pairStat 13 1 = 0 ∧ e.phase = 3 ∧ e.pair.rs.snap = [] ∧ e.eng = d.eng := by
  have hcond : ((d.atC c).role == .active && (d.atC c).paired && (d.atC c).rf R.pairStat 13 1 == 1 && decide (imageBytes ≤ (d.atC c).pair.rs.sent)) = true := by
    rw [show (d.atC c).role = .active from hrole, show (d.atC c).paired = true from hpaired, show (d.atC c).rf R.pairStat 13 1 = 1 from hfreeze,
      show (d.atC c).pair = d.pair from rfl, decide_eq_true hsent]
    rfl
  have he : d.imageSent c = (((d.atC c).setFld R.pairStat 13 1 0).setFld R.pairRsstat 0 3 3).onPair (fun p => { p with rs := { p.rs with snap := [], blk := none } }) :=
    if_pos hcond
  have hend : (((d.atC c).setFld R.pairStat 13 1 0).setFld R.pairRsstat 0 3 3).rf R.pairStat 13 1 = 0 :=
    (Dev.rf_setFld_ne _ _ _ _ _ _ _ (by decide)).trans (Dev.rf_setFld (d.atC c) _ _ _ _ (by decide))
  have hphase : (((d.atC c).setFld R.pairStat 13 1 0).setFld R.pairRsstat 0 3 3).rf R.pairRsstat 0 3 = 3 := Dev.rf_setFld _ _ _ _ _ (by decide)
  have heng : (((d.atC c).setFld R.pairStat 13 1 0).setFld R.pairRsstat 0 3 3).eng = d.eng := by
    rw [Dev.setFld_eng, Dev.setFld_eng]
    rfl
  rw [he]
  generalize ((d.atC c).setFld R.pairStat 13 1 0).setFld R.pairRsstat 0 3 3 = x at *
  exact ⟨hend, hphase, rfl, heng⟩

/-- Settles O44, by the rule of each step of a resynchronisation. -/
theorem resynchronisationStarts : Obligations.ResynchronisationStarts := by
  intro z h c hrun hinv d
  have hx := d.hears_mirHead h
  refine ⟨fun hmay hfit => leads_of_tickRow rfl hrun (resyncStart_leaves hmay hfit), fun hmay hfit => leads_of_tickRow rfl hrun (resyncStart_aborts hmay hfit),
    fun hmay => exec_tickRow_still rfl hrun (resyncStart_idle hmay), fun hlive => ?_, fun hpaired hph hsnap => ⟨fun hrole => ?_, fun hrole hfit => ?_⟩,
    fun hlive hrole off bs hfit => ?_, fun hlive hrole => ⟨fun off b hph hoff => ?_, fun a bs hfit => ?_⟩,
    fun hrole hpaired hfreeze hsent => leads_of_tickRow rfl hrun (imageSent_leaves c hrole hpaired hfreeze hsent)⟩
  · have hrst : d.mgmtRst = none := (mirLive_iff.mp hlive).2.2
    have hlive' : (d.mirHead h).mirLive = true := hx.mirLive.trans hlive
    exact ⟨fun t ht hrole => leads_of_mirRow rfl hrun hrst (resyncControl_snap t h.c hlive' (hx.role.trans hrole) ht),
      fun t hph => leads_of_mirRow rfl hrun hrst (resyncControl_abort t h.c hlive' (by rw [hx.phase]; exact hph))⟩
  · refine ⟨_, exec_tickRow rfl hrun, ?_⟩
    rw [resyncFreeze_active hpaired hph hsnap hrole]
    obtain ⟨h1, h2, h3, h4⟩ := imageFrozen_leaves (d := d.atC 0) (f := fun p => { p with rs := { p.rs with
      snap := z.sys.mem
      blk := some (d.atC 0).blockState
      sent := 0
      copy := (d.atC 0).copyRegs } })
    exact ⟨⟨rfl, rfl, rfl⟩, h1, h2, congrArg (fun p => p.rs.snap) h3, congrArg (fun p => p.rs.sent) h3, h4⟩
  · refine ⟨_, exec_tickRow rfl hrun, ?_⟩
    rw [resyncFreeze_fallow hpaired hph hsnap hrole]
    exact ⟨⟨rfl, rfl, rfl⟩, catchupBegins_leaves (d := d.atC 0) hrole hfit⟩
  · have hrst : d.mgmtRst = none := (mirLive_iff.mp hlive).2.2
    have hlive' : (d.mirHead h).mirLive = true := hx.mirLive.trans hlive
    have hat : (d.mirHead h).storeBase + off = d.storeBase + off := by rw [hx.bases.1]
    have heq := fun load => sheafCopyReceive_eq (s := z.sys.onDev (fun d => d.mirHead h)) (c := h.c) hlive' load (hx.role.trans hrole) hfit
    refine ⟨?_, fun o l hempty => ?_⟩
    · refine leadsSys_of_mirRow rfl hrun hrst ?_ ?_
      · rw [heq]
        rfl
      · rw [heq]
        exact ⟨stored_putBytes (u := z.sys) hinv rfl (congrArg (fun a => z.sys.mem.putBytes a bs) hat), hx.bulk.1⟩
    · have hempty' : (d.mirHead h).loadState = 0 ∨ (d.mirHead h).loadState = 4 := by
        rw [Dev.loadState, hx.rf 0 3 (by decide)]
        exact .inl hempty
      have heq' := (heq (some (o, l))).trans (if_pos hempty')
      refine leadsSys_of_mirRow rfl hrun hrst ?_ ?_
      · rw [heq']
        rfl
      · rw [heq']
        refine ⟨stored_putBytes (u := z.sys) hinv rfl (congrArg (fun a => z.sys.mem.putBytes a bs) hat), ?_⟩
        exact (Dev.rf_setFld_lo _ _ _ _ _ _ _ (by decide) (by decide)).trans (Dev.loadBegin_loading _ o l true)
  · have hrst : d.mgmtRst = none := (mirLive_iff.mp hlive).2.2
    obtain ⟨hmem, hotp, himg⟩ := imageReceive_leaves (s := z.sys.onDev (fun d => d.mirHead h)) (c := h.c) (hx.mirLive.trans hlive) b (hx.role.trans hrole)
      (hx.phase.trans hph) hoff
    rw [show (z.sys.onDev (fun d => d.mirHead h)).dev = d.mirHead h from rfl, hx.bases.2, hx.rf 5 1 (by decide), hx.w64 (off := R.pairSnap) (by decide) (by decide),
      show (z.sys.onDev (fun d => d.mirHead h)).mem = z.sys.mem from rfl] at hmem
    rw [show (z.sys.onDev (fun d => d.mirHead h)).dev = d.mirHead h from rfl, hx.bulk.2] at himg
    refine leadsSys_of_mirRow rfl hrun hrst hotp ?_
    have hwf : (z.sys.mem.putBytes (d.replayBase + off) [b]).wf = true := Memory.putBytes_wf _ _ _ hinv
    intro a
    rw [hmem]
    refine ⟨Memory.get_put _ _ _ hwf, ?_, fun x hxa hxb => ?_, himg⟩
    · by_cases hab : d.replayBase + off = a
      · rw [hab] at hwf ⊢
        exact Memory.get_put _ _ _ hwf
      · exact (Memory.get_put_ne _ _ _ _ hab hwf).trans (Memory.get_put _ _ _ hinv)
    · exact (Memory.get_put_ne _ _ _ _ hxa hwf).trans (Memory.get_put_ne _ _ _ _ hxb hinv)
  · have hrst : d.mgmtRst = none := (mirLive_iff.mp hlive).2.2
    obtain ⟨hmem, hotp, hdel⟩ := delayReceive_leaves (s := z.sys.onDev (fun d => d.mirHead h)) (c := h.c) (hx.mirLive.trans hlive) (hx.role.trans hrole) hfit
    have hdel' := hdel.trans (congrArg (fun r => r.delRx + bs.length) hx.bulk.2)
    exact ⟨leadsSys_of_mirRow rfl hrun hrst hotp ⟨stored_putBytes (u := z.sys) hinv rfl hmem, hdel'⟩,
      leadsSys_of_mirRow rfl hrun hrst hotp ⟨stored_putBytes (u := z.sys) hinv rfl hmem, hdel'⟩⟩

end Sys2Proof.Machine

/-!
PROOFS. A load's own pass over a memory that is not canonical (R106, R107, R116).
-/
namespace Sys2Proof.Machine

/-! ## A pass over a memory that is not canonical (O50)

The statement asks of a pass that every byte outside the pending banks reads as before, of every state, whether its memory is canonical or not.  In a
memory whose addresses do not rise, a byte of the pending bank hides the bytes listed behind it; the pass drops that byte, and what it hid shows. -/

/-- A directory entry of an image: its type, its place and its length; flags and check are 0. -/
def dirBytes (ty off len : Nat) : List Byte := leBytes 4 ty ++ leBytes 4 off ++ leBytes 4 len ++ leBytes 4 0

/-- The least image that the loader can read: no program, no block, no cell, no plan and no refresh slot; the sections one after the other. -/
def leastImage : List Byte :=
  leBytes 4 0x46535647 ++ leBytes 4 0x01000100 ++ leBytes 4 784 ++ leBytes 18 0 ++ leBytes 2 7 ++ leBytes 224 0 ++
    dirBytes 2 368 4 ++ dirBytes 3 384 0 ++ dirBytes 4 384 4 ++ dirBytes 5 400 16 ++ dirBytes 6 416 16 ++ dirBytes 7 432 96 ++ dirBytes 8 528 96 ++
    leBytes 416 0

/-- Memory with that image at the start of the sheaf store, and behind it, out of order, a byte of lane 0's bank B and one of sample memory. -/
def unorderedMemory : Memory :=
  ((List.range 784).zip leastImage).filterMap (fun p => if p.2 = 0 then none else some (0xD0000000 + p.1, p.2)) ++
    [(instrBase 0 1, 5), (sampleBase, 7)]

/-- A unit in the middle of a load from that memory. -/
def loadingState : State := { sys := { mem := unorderedMemory, dev := { regs := [(R.loadStat, 1), (R.loadSrclen, 784)], ldr := { job := some { peerCopy := false } } } } }

theorem loadingState_hidden : loadingState.sys.mem.get sampleBase = 0 := by decide +kernel

theorem loadingState_shown : ((loadingState.sys.onDev (fun d => d.atC 0)).ownPass { peerCopy := false } none).1.mem.get sampleBase = 7 := by decide +kernel

/-- Refutes O50: the frame of a load's pass is asked of memories that are not canonical too, and there a byte the pass drops lets a hidden one show
(`loadingState`: sample memory reads 0 before the pass and 7 after it). -/
theorem not_scrubbingAndTheEndOfALoad : ¬ Obligations.ScrubbingAndTheEndOfALoad := by
  intro h
  obtain ⟨-, -, hload⟩ := h loadingState 0
  obtain ⟨hframe, -⟩ := hload rfl none .none { peerCopy := false } (by decide) (by decide) rfl
  have hkept := hframe sampleBase (fun n hn => by simp only [instrBase, coefBase, stateBase, sampleBase]; omega)
  exact absurd (hkept.symm.trans loadingState_shown) (by rw [loadingState_hidden]; decide)

end Sys2Proof.Machine

/-!
PROOFS. Stream packets formed, sent and late (R228 to R233).
-/
namespace Sys2Proof.Machine

/-! ## The queues -/

/-- The order of a port's queue. -/
def TxPkt.order (q : TxPkt) : Nat := q.qt * 256 + q.ctx

/-- The queues with packets joined, each to the queue of its port. -/
def queued (pks : List TxPkt) (qs : List (List TxPkt)) : List (List TxPkt) :=
  each pks (fun k q => updAt q k.port (fun l => insBy TxPkt.order k l)) qs

theorem getD_queued_of_no_port {pks : List TxPkt} {p : Nat} (h : ∀ k ∈ pks, k.port ≠ p) (qs : List (List TxPkt)) : (queued pks qs).getD p [] = qs.getD p [] := by
  induction pks generalizing qs with
  | nil => rfl
  | cons k t ih =>
    rw [show queued (k :: t) qs = queued t (updAt qs k.port (fun l => insBy TxPkt.order k l)) from rfl, ih (fun j hj => h j (List.mem_cons_of_mem _ hj)),
      getD_updAt, if_neg (fun hc => h k List.mem_cons_self hc.1)]

theorem length_queued (pks : List TxPkt) (qs : List (List TxPkt)) : (queued pks qs).length = qs.length := by
  induction pks generalizing qs with
  | nil => rfl
  | cons k t ih =>
    rw [show queued (k :: t) qs = queued t (updAt qs k.port (fun l => insBy TxPkt.order k l)) from rfl, ih, length_updAt]

theorem mem_queued {pks : List TxPkt} {q : TxPkt} {p : Nat} {qs : List (List TxPkt)} (hp : p < qs.length) (h : q ∈ qs.getD p [] ∨ q ∈ pks ∧ q.port = p) :
    q ∈ (queued pks qs).getD p [] := by
  induction pks generalizing qs with
  | nil =>
    obtain h | ⟨h, -⟩ := h
    · exact h
    · cases h
  | cons k t ih =>
    refine ih (by rw [length_updAt]; exact hp) ?_
    rw [getD_updAt]
    obtain h | ⟨h, hq⟩ := h
    · refine .inl ?_
      split
      · exact (mem_insBy _ _ _ _).mpr (.inr h)
      · exact h
    · obtain rfl | h := List.mem_cons.mp h
      · rw [if_pos ⟨hq, hp⟩]
        exact .inl ((mem_insBy _ _ _ _).mpr (.inl rfl))
      · exact .inr ⟨h, hq⟩

/-! ## A packet is formed (R229, R233) -/

/-- The packet that context `k` forms for port `p`. -/
def Dev.packetOf (d : Dev) (k p : Nat) : TxPkt :=
  { ctx := k
    port := p
    seq := (d.lf (R.strmTxseq k) 0 16 + (d.txC k).k) % 65536
    qt := d.engTick
    limit := d.engTick + 2
    frame := d.txFrameOf k p ((d.lf (R.strmTxseq k) 0 16 + (d.txC k).k) % 65536) (wrapN 32 ((d.txC k).u0 + d.lv (R.strmTxrtpoff k))) (d.txC k).markP
      ((d.txC k).words.flatMap (fmtBytes (d.txWidth k))) }

/-- The context has moved on by one packet. -/
def Dev.packetFormed (d : Dev) (k : Nat) : Dev := ((d.atC 0).onTx k (fun x => { x with k := x.k + 1, words := [] })).txStat k

theorem Dev.txStat_leaves (d : Dev) (k : Nat) : d.marks (d.txStat k) [R.strmTxstat k] [] := by
  unfold Dev.txStat
  extract_lets x hold d1
  have h1 : d.marks d1 [R.strmTxstat k] [] := (Dev.marks.setFld _ _ _ _ (by simp)).trans (.setFld _ _ _ _ (by simp))
  exact .ite (fun _ => h1.trans (.setFld _ _ _ _ (by simp))) (fun _ => h1)

theorem lt_length_of_txOn {d : Dev} {k : Nat} (h : (d.txC k).on = true) : k < d.strm.tx.length := by
  by_contra hk
  rw [Dev.txC, List.getD_eq_default _ _ (by omega)] at h
  cases h

theorem Dev.packetFormed_leaves {d : Dev} {k : Nat} (hon : (d.txC k).on = true) : let e := d.packetFormed k
    (e.txC k).k = (d.txC k).k + 1 ∧ (e.txC k).words = [] ∧ e.strm.queue = d.strm.queue ∧ e.strm.held = d.strm.held ∧ d.keeps e [R.strmTxstat k] := by
  have hm := ((d.atC 0).onTx k (fun x => { x with k := x.k + 1, words := [] })).txStat_leaves k
  have hx : ((d.atC 0).onTx k (fun x => { x with k := x.k + 1, words := [] })).txC k = { d.txC k with k := (d.txC k).k + 1, words := [] } := by
    rw [Dev.txC, Dev.onTx, getD_updAt, if_pos ⟨rfl, lt_length_of_txOn hon⟩]
    rfl
  have hy : ((d.atC 0).onTx k (fun x => { x with k := x.k + 1, words := [] })).strm.queue = d.strm.queue ∧
      ((d.atC 0).onTx k (fun x => { x with k := x.k + 1, words := [] })).strm.held = d.strm.held := ⟨rfl, rfl⟩
  have hk : d.keeps ((d.atC 0).onTx k (fun x => { x with k := x.k + 1, words := [] })) [R.strmTxstat k] := Dev.keeps_of_regs ⟨rfl, rfl, rfl⟩ _
  intro e
  have he : e = ((d.atC 0).onTx k (fun x => { x with k := x.k + 1, words := [] })).txStat k := rfl
  clear_value e
  subst he
  generalize (d.atC 0).onTx k (fun x => { x with k := x.k + 1, words := [] }) = y at *
  obtain ⟨hq, hh⟩ := hy
  refine ⟨?_, ?_, ?_, ?_, hk.trans hm.keeps⟩
  · rw [Dev.txC, hm.strm, show y.strm.tx.getD k {} = y.txC k from rfl, hx]
  · rw [Dev.txC, hm.strm, show y.strm.tx.getD k {} = y.txC k from rfl, hx]
  · rw [hm.strm, hq]
  · rw [hm.strm, hh]

section
variable {d : Dev} {k : Nat} (hk : k < 256) (hon : (d.txC k).on = true) (hdue : d.engTick = (d.txC k).te + ((d.txC k).k + 1) * d.txP k)
include hk hon hdue

theorem not_idle_of_due : ¬(256 ≤ k ∨ (!((d.atC 0).txC k).on) = true ∨ (d.atC 0).engTick ≠ ((d.atC 0).txC k).te + (((d.atC 0).txC k).k + 1) * (d.atC 0).txP k) := by
  rintro (h | h | h)
  · omega
  · rw [show ((d.atC 0).txC k).on = true from hon] at h
    cases h
  · exact h hdue

theorem Dev.packetQueue_lease (hlease : d.paired = false ∨ d.role = .active) : d.packetQueue k =
    { d.packetFormed k with strm := { (d.packetFormed k).strm with queue := queued ((d.txPorts k).map (d.packetOf k)) (d.packetFormed k).strm.queue } } := by
  have hcond : (!(d.atC 0).paired || (d.atC 0).role == .active) = true := by
    obtain h | h := hlease
    · rw [show (d.atC 0).paired = false from h]
      rfl
    · rw [show (d.atC 0).role = .active from h]
      exact Bool.or_true _
  exact (if_neg (not_idle_of_due hk hon hdue)).trans (if_pos hcond)

theorem Dev.packetQueue_shadow (hpaired : d.paired = true) (hrole : d.role = .shadow) : d.packetQueue k =
    { d.packetFormed k with strm := { (d.packetFormed k).strm with held := (d.packetFormed k).strm.held ++ (d.txPorts k).map (d.packetOf k) } } := by
  have hcond : ¬(!(d.atC 0).paired || (d.atC 0).role == .active) = true := by
    rw [show (d.atC 0).paired = true from hpaired, show (d.atC 0).role = .shadow from hrole]
    decide
  exact (if_neg (not_idle_of_due hk hon hdue)).trans ((if_neg hcond).trans (if_pos (beq_iff_eq.mpr hrole)))

/-- A lease holder or standalone unit queues the packet on the context's ports, and on no other. -/
theorem Dev.packetQueue_lease_leaves {p : Nat} (hp : p < d.strm.queue.length) (hlease : d.paired = false ∨ d.role = .active) : let e := d.packetQueue k
    (e.txC k).k = (d.txC k).k + 1 ∧ (e.txC k).words = [] ∧ (p ∈ d.txPorts k → d.packetOf k p ∈ e.strm.queue.getD p []) ∧
      (p ∉ d.txPorts k → e.strm.queue.getD p [] = d.strm.queue.getD p []) ∧ d.keeps e [R.strmTxstat k] := by
  obtain ⟨h1, h2, hq, -, hkeep⟩ := Dev.packetFormed_leaves hon
  rw [Dev.packetQueue_lease hk hon hdue hlease]
  refine ⟨h1, h2, fun hin => ?_, fun hnot => ?_, hkeep⟩
  · exact mem_queued (by rw [hq]; exact hp) (.inr ⟨List.mem_map_of_mem hin, rfl⟩)
  · refine (getD_queued_of_no_port (fun q hq => ?_) _).trans (by rw [hq])
    obtain ⟨j, hj, rfl⟩ := List.mem_map.mp hq
    exact fun hc => hnot (hc ▸ hj)

/-- A SHADOW holds it. -/
theorem Dev.packetQueue_shadow_leaves {p : Nat} (hpaired : d.paired = true) (hrole : d.role = .shadow) : let e := d.packetQueue k
    e.strm.queue = d.strm.queue ∧ (p ∈ d.txPorts k → d.packetOf k p ∈ e.strm.held) := by
  obtain ⟨-, -, hq, -, -⟩ := Dev.packetFormed_leaves hon
  rw [Dev.packetQueue_shadow hk hon hdue hpaired hrole]
  exact ⟨hq, fun hin => List.mem_append_right _ (List.mem_map_of_mem hin)⟩

end

theorem Dev.packetQueue_idle {d : Dev} {k : Nat} (h : (d.txC k).on = false ∨ d.engTick ≠ (d.txC k).te + ((d.txC k).k + 1) * d.txP k) : d.packetQueue k = d.atC 0 := by
  refine if_pos (.inr (h.imp (fun hoff => ?_) id))
  rw [show ((d.atC 0).txC k).on = false from hoff]
  rfl

/-! ## A packet leaves (R231) -/

/-- The counters of the context are apart from those of the stream ports. -/
theorem strmTxcnt_ne_macCnt {p : Nat} (hp : p < 2) (i : Nat) {j : Nat} (hj : j < 8) : R.strmTxcnt i 0 ≠ R.macCnt (macBlk p) j := by
  simp only [R.strmTxcnt, R.macCnt, macBlk]
  omega

section
variable {d : Dev} {p : Nat} {q : TxPkt} {rest : List TxPkt} (hp : p < 2) (hlen : d.strm.queue.length = 2) (hq : d.strm.queue.getD p [] = q :: rest)
include hp hlen hq

/-- The packet at the head starts on the line. -/
theorem Dev.packetSend_leaves (c : Nat) (hen : d.macEn p = true) (hlink : d.macLink p = true) (hpause : d.macPaused p = false) (hlim : d.tick < q.limit) :
    let e := d.packetSend p c
    let g := q.frame ++ List.replicate (60 - q.frame.length) 0
    e.out = { d.out with eth := d.out.eth ++ [(p, g ++ ethFcs g)] } ∧ e.strm.queue.getD p [] = rest ∧
      e.w64 (R.strmTxcnt q.ctx 0) = (d.w64 (R.strmTxcnt q.ctx 0) + 1) % 2 ^ 64 ∧ (d.acksGo = true → e.strm.acks = d.strm.acks ++ [(q.ctx, p, q.seq)]) ∧
      d.keeps e [] := by
  have hgo : ¬(!d.macEn p || !d.macLink p || d.macPaused p || decide (q.limit ≤ d.tick)) = true := by
    rw [hen, hlink, hpause, decide_eq_false (by omega)]
    decide
  let d0 : Dev := { d.atC c with strm := { d.strm with queue := updAt d.strm.queue p (fun _ => rest) } }
  let d1 := (d0.ethSend p q.frame).bump (R.strmTxcnt q.ctx 0) 1
  have he : d.packetSend p c = if d.acksGo then { d1 with strm := { d1.strm with acks := d1.strm.acks ++ [(q.ctx, p, q.seq)] } } else d1 := by
    unfold Dev.packetSend
    simp only [show (d.atC c).strm.queue.getD p [] = q :: rest from hq]
    exact if_neg hgo
  have hout : d1.out = { d.out with eth := d.out.eth ++ [(p, (q.frame ++ List.replicate (60 - q.frame.length) 0) ++ ethFcs (q.frame ++ List.replicate (60 - q.frame.length) 0))] } := rfl
  have hstrm : d1.strm = { d.strm with queue := updAt d.strm.queue p (fun _ => rest) } := rfl
  have hcnt : d1.w64 (R.strmTxcnt q.ctx 0) = (d.w64 (R.strmTxcnt q.ctx 0) + 1) % 2 ^ 64 := by
    refine (Dev.w64_bump ..).trans (congrArg (fun x => (x + 1) % 2 ^ 64) ?_)
    exact (Dev.w64_bump_ne _ _ _ _ (strmTxcnt_ne_macCnt hp _ (by decide))).trans (Dev.w64_bump_ne d0 _ _ _ (strmTxcnt_ne_macCnt hp _ (by decide)))
  have hkeep : d.keeps d1 [] := Dev.keeps_of_regs ⟨rfl, rfl, rfl⟩ _
  have hqueue : (updAt d.strm.queue p (fun _ => rest)).getD p [] = rest := by rw [getD_updAt, if_pos ⟨rfl, by omega⟩]
  intro e g
  have he' : e = _ := he
  clear_value d1 e
  subst he'
  split
  · exact ⟨hout, by rw [hstrm]; exact hqueue, hcnt, fun _ => by rw [hstrm], hkeep⟩
  · next hno => exact ⟨hout, by rw [hstrm]; exact hqueue, hcnt, fun hack => absurd hack hno, hkeep⟩

omit hp hlen in
theorem Dev.packetSend_late (c : Nat) (hlim : q.limit ≤ d.tick) : d.packetSend p c = d.atC c := by
  unfold Dev.packetSend
  simp only [show (d.atC c).strm.queue.getD p [] = q :: rest from hq]
  refine if_pos ?_
  rw [show (d.atC c).tick = d.tick from rfl, decide_eq_true hlim, Bool.or_true]

/-- A late packet alone in its queue is dropped. -/
theorem Dev.txLate_leaves (hlim : q.limit ≤ d.tick) (hrest : rest = []) : let e := d.txLate p
    e.strm.queue.getD p [] = [] ∧ e.out = d.out ∧ e.w64 (R.strmTxcnt q.ctx 1) = (d.w64 (R.strmTxcnt q.ctx 1) + 1) % 2 ^ 64 ∧
      e.flag Blk.strm Src.strmTxLate := by
  subst hrest
  let d1 : Dev := { d.atC 0 with strm := { d.strm with queue := updAt d.strm.queue p (fun l => l.filter (fun k => decide (d.tick < k.limit))) } }
  have he : d.txLate p = (d1.bump (R.strmTxcnt q.ctx 1) 1).raise Blk.strm Src.strmTxLate q.ctx p q.seq := by
    unfold Dev.txLate
    simp only [show (d.atC 0).strm.queue.getD p [] = [q] from hq, List.filter_cons, show (d.atC 0).tick = d.tick from rfl, decide_eq_true hlim, if_true,
      List.filter_nil]
    rfl
  have hqueue : (updAt d.strm.queue p (fun l => l.filter (fun k => decide (d.tick < k.limit)))).getD p [] = [] := by
    rw [getD_updAt, if_pos ⟨rfl, by omega⟩, hq]
    simp only [List.filter_cons, List.filter_nil, decide_eq_false (show ¬d.tick < q.limit by omega)]
    rfl
  have hd1 : d1.out = d.out ∧ (∀ o, d1.w64 o = d.w64 o) := ⟨rfl, fun _ => rfl⟩
  have hs1 : d1.strm.queue = updAt d.strm.queue p (fun l => l.filter (fun k => decide (d.tick < k.limit))) := rfl
  intro e
  have he' : e = _ := he
  clear_value d1 e
  subst he'
  refine ⟨?_, ?_, ?_, Dev.flag_raise _ _ _ _ _ _ (by decide)⟩
  · rw [Dev.raise_strm, Dev.bump_strm, hs1]
    exact hqueue
  · rw [Dev.raise_out, Dev.bump_out, hd1.1]
  · rw [Dev.w64_raise, Dev.w64_bump, hd1.2]

end

/-- Settles O55, by the rule of each step of a packet: formed, sent, late. -/
theorem streamsAreSent : Obligations.StreamsAreSent := by
  intro z k p c hrun hoff hk hp hlen d x
  have hrow : exec (.streamPacketQueue k) z = .next (z.put (if z.sys.dev.engOff then z.sys else z.sys.onDev (fun d => d.packetQueue k))) :=
    exec_tickRow (f := fun s => if s.dev.engOff then s else s.onDev (fun d => d.packetQueue k)) rfl hrun
  rw [if_neg (by rw [hoff]; decide)] at hrow
  have hform {P : Dev → Prop} (hP : P (d.packetQueue k)) : z.leads (exec (.streamPacketQueue k) z) P :=
    ⟨_, hrow, ⟨rfl, rfl, rfl⟩, hP⟩
  refine ⟨fun hon hdue => ⟨fun hlease => hform ?_, fun hpaired hrole => hform ?_⟩, fun hidle => ?_, fun q rest hq =>
    ⟨fun hen hlink hpause hlim => leads_of_tickRow rfl hrun (Dev.packetSend_leaves hp hlen hq c hen hlink hpause hlim),
      fun hlim => exec_tickRow_still rfl hrun (Dev.packetSend_late hq c hlim),
      fun hlim hrest => leads_of_tickRow rfl hrun (Dev.txLate_leaves hp hlen hq hlim hrest)⟩⟩
  · obtain ⟨h1, h2, h3, h4, h5⟩ := Dev.packetQueue_lease_leaves hk hon hdue (p := p) (by rw [show d.strm.queue.length = 2 from hlen]; exact hp) hlease
    exact ⟨h1, h2, fun hin => ⟨_, h3 hin, rfl, rfl, rfl, rfl, rfl⟩, h4, h5⟩
  · obtain ⟨h1, h2⟩ := Dev.packetQueue_shadow_leaves hk hon hdue (p := p) hpaired hrole
    exact ⟨h1, fun hin => ⟨_, h2 hin, rfl, rfl⟩⟩
  · rw [hrow]
    show Host.Outcome.next (z.put { z.sys with dev := d.packetQueue k }) = _
    rw [Dev.packetQueue_idle hidle]
    rfl

end Sys2Proof.Machine

/-!
PROOFS. A received frame: its length and FCS, its class, its descriptor (R191 to R195, R200, R201).
-/
namespace Sys2Proof.Machine

/-! ## Fields of bytes in memory -/

theorem Memory.drop_bytes (m : Memory) (a n i : Nat) : (m.bytes a n).drop i = m.bytes (a + i) (n - i) := by
  induction n generalizing a i with
  | zero => simp [Memory.bytes]
  | succ n ih =>
    cases i with
    | zero => rfl
    | succ i =>
      rw [Memory.bytes, List.drop_succ_cons, ih, Nat.add_assoc, Nat.add_comm 1 i, Nat.succ_sub_succ]

theorem Memory.take_bytes (m : Memory) (a : Nat) {n k : Nat} (h : k ≤ n) : (m.bytes a n).take k = m.bytes a k := by
  induction n generalizing a k with
  | zero =>
    obtain rfl : k = 0 := by omega
    rfl
  | succ n ih =>
    cases k with
    | zero => rfl
    | succ k => rw [Memory.bytes, List.take_succ_cons, ih _ (by omega), Memory.bytes]

/-- A field of a run of bytes is read at its own address. -/
theorem le_bytes (m : Memory) (a : Nat) {n i k : Nat} (h : i + k ≤ n) : le (m.bytes a n) i k = le (m.bytes (a + i) k) 0 k := by
  rw [le, slice, Memory.drop_bytes, Memory.take_bytes _ _ (by omega), le, slice, List.drop_zero, Memory.take_bytes _ _ (Nat.le_refl k)]

/-- Bytes written first, read where later bytes do not reach. -/
theorem Memory.bytes_putBytes_ne {m : Memory} (a b k : Nat) (bs : List Byte) (hw : m.wf = true) (h : a + k ≤ b ∨ b + bs.length ≤ a) :
    (m.putBytes b bs).bytes a k = m.bytes a k :=
  Memory.bytes_congr _ _ (fun _ h1 h2 => Memory.get_putBytes_ne _ _ _ _ (by omega) hw)

/-! ## What counting leaves -/

/-- From `d` to `e` the cycle, counters and the array bus's state alone may differ. -/
def Dev.tallies (d e : Dev) : Prop := ∃ k b w, e = { d with cycle := k, bus := b, wide := w }

namespace Dev.tallies

theorem atC (d : Dev) (c : Nat) : d.tallies (d.atC c) := ⟨_, _, _, rfl⟩

theorem macCount {d e : Dev} (h : d.tallies e) (p k n : Nat) : d.tallies (e.macCount p k n) := by
  obtain ⟨_, _, _, rfl⟩ := h
  exact ⟨_, _, _, rfl⟩

theorem busPasses {d e : Dev} (h : d.tallies e) (n : Nat) : d.tallies (e.busPasses n) := by
  obtain ⟨_, _, _, rfl⟩ := h
  unfold Dev.busPasses
  split
  · exact ⟨_, _, _, rfl⟩
  · exact ⟨_, _, _, rfl⟩

section
variable {d e : Dev} (h : d.tallies e)
include h

theorem sameRegs : d.sameRegs e := by
  obtain ⟨_, _, _, rfl⟩ := h
  exact ⟨rfl, rfl, rfl⟩

theorem reg (o : Nat) : e.reg o = d.reg o := by
  obtain ⟨_, _, _, rfl⟩ := h
  rfl

theorem rf (o lo w : Nat) : e.rf o lo w = d.rf o lo w := by rw [Dev.rf, h.reg, Dev.rf]

theorem out : e.out = d.out := by
  obtain ⟨_, _, _, rfl⟩ := h
  rfl

theorem mac : e.mac = d.mac := by
  obtain ⟨_, _, _, rfl⟩ := h
  rfl

theorem macP (p : Nat) : e.macP p = d.macP p := by rw [Dev.macP, h.mac, Dev.macP]

theorem filterOf (p : Nat) (f : List Byte) : e.filterOf p f = d.filterOf p f := by
  obtain ⟨_, _, _, rfl⟩ := h
  rfl

theorem udpCommand (f : List Byte) : e.udpCommand f = d.udpCommand f := by
  obtain ⟨_, _, _, rfl⟩ := h
  rfl

theorem hostClass (p : Nat) (f : List Byte) : e.hostClass p f = d.hostClass p f := by
  obtain ⟨_, _, _, rfl⟩ := h
  rfl

theorem ringOk (base size : Nat) : e.ringOk base size = d.ringOk base size := by
  obtain ⟨_, _, _, rfl⟩ := h
  rfl

theorem macMaxlen (p : Nat) : e.macMaxlen p = d.macMaxlen p := by
  obtain ⟨_, _, _, rfl⟩ := h
  rfl

/-- A descriptor's read that is not forced is not after counting. -/
theorem descForced {p a : Nat} (hf : d.descForced p a = (d, false)) : e.descForced p a = (e, false) := by
  unfold Dev.descForced at hf ⊢
  split
  · next hp =>
    rw [if_pos hp] at hf
    have hno : ¬(d.lf R.ddrForce 0 1 = 1 ∧ d.lf R.ddrForce 4 4 = 8) := by
      intro hc
      rw [Dev.dramForced, if_pos hc] at hf
      exact Bool.noConfusion (congrArg Prod.snd hf)
    have hlf (lo w : Nat) : e.lf R.ddrForce lo w = d.lf R.ddrForce lo w := by
      obtain ⟨_, _, _, rfl⟩ := h
      rfl
    rw [Dev.dramForced, hlf, hlf, if_neg hno]
  · rfl

end

end Dev.tallies

/-! ## The treatment by length and FCS (R191) -/

/-- The device as a frame of `n` bytes arrives on port `p`. -/
def Dev.arrival (d : Dev) (p n c : Nat) : Dev := if p = 3 then (d.atC c).busPasses n else d.atC c

theorem Dev.tallies_arrival (d : Dev) (p n c : Nat) : d.tallies (d.arrival p n c) := by
  unfold Dev.arrival
  split
  · exact (Dev.tallies.atC d c).busPasses n
  · exact .atC d c

theorem Dev.w64_arrival (d : Dev) (p n c o : Nat) : (d.arrival p n c).w64 o = d.w64 o := by
  unfold Dev.arrival Dev.busPasses
  split
  · split
    · rfl
    · rfl
  · rfl

section
variable {s : Sys} {p c : Nat} {bytes : List Byte} (hp : p ≤ 3) (hready : s.dev.rxReady p = true)
include hp hready

theorem frameReceive_ready (rx : Bool) : s.frameReceive p bytes rx c =
    if p = 3 ∧ rx then s.onDev (fun d => (d.arrival p bytes.length c).macCount 3 21 1)
    else
      let r := (s.dev.arrival p bytes.length c).rxFilter p bytes
      match r.2 with
      | none => { s with dev := r.1 }
      | some x => ({ s with dev := r.1 } : Sys).classify p c x.2 x.1 := by
  refine if_neg ?_
  rw [hready]
  rintro (h | h)
  · omega
  · cases h

/-- A frame of at least 64 bytes, of a right FCS and within the greatest length is classified. -/
theorem frameReceive_accepted (hlen : 64 ≤ bytes.length) (hgood : fcsGood bytes = true) (hmax : bytes.length ≤ s.dev.macMaxlen p) :
    s.frameReceive p bytes false c =
      ({ s with dev := ((s.dev.arrival p bytes.length c).macCount p 0 1).macCount p 1 bytes.length } : Sys).classify p c false (bytes.take (bytes.length - 4)) := by
  have hr : (s.dev.arrival p bytes.length c).rxFilter p bytes =
      (((s.dev.arrival p bytes.length c).macCount p 0 1).macCount p 1 bytes.length, some (bytes.take (bytes.length - 4), false)) := by
    unfold Dev.rxFilter
    simp only [hgood, (s.dev.tallies_arrival p bytes.length c).macMaxlen, if_neg (show ¬bytes.length < 64 by omega), if_pos hmax]
    rfl
  rw [frameReceive_ready hp hready, if_neg (fun h => absurd h.2 (by decide)), hr]

end

/-- A frame that goes to no stream and to no command goes to a host class. -/
theorem classify_toHost {s t : Sys} {p c : Nat} {f : List Byte} (ht : s.dev.tallies t.dev) (htype : ethType f ≠ 0x8808) (hfil : p < 2 → s.dev.filterOf p f = none)
    (hudp : p = 2 → s.dev.udpCommand f = none) : t.classify p c false f = t.toHost p false f := by
  unfold Sys.classify
  rw [if_neg htype]
  by_cases h2 : p < 2
  · rw [if_pos h2, ht.filterOf, hfil h2]
  · rw [if_neg h2]
    split
    · next h => rw [ht.udpCommand, hudp h.1]
    · rfl

/-! ## What a frame leaves that no class takes -/

/-- The counter of a port, `n` on from `d`. -/
def Dev.tallied (d e : Dev) (p k n : Nat) : Prop := e.w64 (R.macCnt (macBlk p) k) = (d.w64 (R.macCnt (macBlk p) k) + n) % 2 ^ 64

theorem Dev.tallied_macCount {d e : Dev} {p : Nat} (k n : Nat) (h : e.w64 (R.macCnt (macBlk p) k) = d.w64 (R.macCnt (macBlk p) k)) : d.tallied (e.macCount p k n) p k n := by
  rw [Dev.tallied, Dev.w64_macCount, h]

/-- A frame under 64 bytes. -/
theorem rxFilter_short {d e : Dev} {p : Nat} {bytes : List Byte} (hd : d.tallies e) (hw : ∀ o, e.w64 o = d.w64 o) (hlen : bytes.length < 64) : ∃ x, e.rxFilter p bytes = (x, none) ∧
    d.tallied x p (if fcsGood bytes then 4 else 5) 1 ∧ x.flag (macBlk p) Src.macRuntFrag ∧ d.keeps x [R.fltstat (macBlk p), R.fltfirst (macBlk p)] := by
  refine ⟨(e.macCount p (if fcsGood bytes then 4 else 5) 1).raise (macBlk p) Src.macRuntFrag bytes.length (b2n (fcsGood bytes)) 0, if_pos hlen, ?_,
    Dev.flag_raise _ _ _ _ _ _ (by decide), ?_⟩
  · rw [Dev.tallied, Dev.w64_raise]
    exact Dev.tallied_macCount _ _ (hw _)
  · exact (Dev.keeps_of_regs (hd.macCount p _ 1).sameRegs _).trans (Dev.keeps_raise _ _ _ _ _ _ (by simp) (by simp))

/-- A longer frame with a wrong FCS. -/
theorem rxFilter_bad {d e : Dev} {p : Nat} {bytes : List Byte} (hd : d.tallies e) (hw : ∀ o, e.w64 o = d.w64 o) (hlen : 64 ≤ bytes.length) (hbad : fcsGood bytes = false) :
    ∃ x, e.rxFilter p bytes = (x, none) ∧ d.tallied x p 6 1 ∧ d.keeps x [] := by
  refine ⟨e.macCount p 6 1, ?_, Dev.tallied_macCount _ _ (hw _), Dev.keeps_of_regs (hd.macCount p 6 1).sameRegs _⟩
  unfold Dev.rxFilter
  simp only [hbad, if_neg (show ¬bytes.length < 64 by omega)]
  rfl

/-- A stranger. -/
theorem stranger_leaves {d e : Dev} {p : Nat} (hp : p ≤ 3) (f : List Byte) (hd : d.tallies e) (h8 : e.w64 (R.macCnt (macBlk p) 8) = d.w64 (R.macCnt (macBlk p) 8)) :
    let x := e.stranger p f
    (∀ k, k ≠ 8 → x.w64 (R.macCnt (macBlk p) k) = e.w64 (R.macCnt (macBlk p) k)) ∧ d.tallied x p 8 1 ∧ x.reg (R.macStrcap0 (macBlk p)) = ethDst f % 2 ^ 32 ∧
      x.flag (macBlk p) Src.macStranger ∧
      d.keeps x [R.macStrcap0 (macBlk p), R.macStrcap1 (macBlk p), R.fltstat (macBlk p), R.fltfirst (macBlk p)] := by
  let d1 := ((e.macCount p 8 1).setReg (R.macStrcap0 (macBlk p)) (ethDst f % 2 ^ 32)).setReg (R.macStrcap1 (macBlk p)) (ethType f * 65536 + ethDst f / 2 ^ 32)
  have hw (o : Nat) : d1.w64 o = (e.macCount p 8 1).w64 o := rfl
  have hcap : d1.reg (R.macStrcap0 (macBlk p)) = ethDst f % 2 ^ 32 := by
    rw [Dev.reg_setReg_ne _ _ _ _ (by simp [R.macStrcap0, R.macStrcap1]), Dev.reg_setReg]
    exact Nat.mod_mod _ _
  have hk : d.keeps d1 [R.macStrcap0 (macBlk p), R.macStrcap1 (macBlk p), R.fltstat (macBlk p), R.fltfirst (macBlk p)] :=
    ((Dev.keeps_of_regs (hd.macCount p 8 1).sameRegs _).trans (Dev.keeps_setReg _ _ _ (by simp))).trans (Dev.keeps_setReg _ _ _ (by simp))
  have he : e.stranger p f = d1.raise (macBlk p) Src.macStranger (d1.reg (R.macStrcap0 (macBlk p))) (d1.reg (R.macStrcap1 (macBlk p))) 0 := rfl
  have hne : R.macStrcap0 (macBlk p) ≠ R.fltstat (macBlk p) ∧ R.macStrcap0 (macBlk p) ≠ R.fltfirst (macBlk p) := by
    interval_cases p <;> decide
  intro x
  have hx : x = _ := he
  clear_value d1 x
  subst hx
  have hm : d1.marks (d1.raise (macBlk p) Src.macStranger (d1.reg (R.macStrcap0 (macBlk p))) (d1.reg (R.macStrcap1 (macBlk p))) 0)
      [R.fltstat (macBlk p), R.fltfirst (macBlk p)] [] := .raise _ _ _ _ _ _ (by simp) (by simp)
  refine ⟨fun k hk8 => ?_, ?_, ?_, Dev.flag_raise _ _ _ _ _ _ (by decide), hk.trans (hm.keeps.mono (by simp))⟩
  · rw [Dev.w64_raise, hw, Dev.w64_macCount_ne _ _ _ hk8]
  · rw [Dev.tallied, Dev.w64_raise, hw]
    exact Dev.tallied_macCount _ _ h8
  · rw [hm.reg (by rw [List.mem_pair]; exact not_or.mpr hne), hcap]

/-! ## The receive ring (R200, R201) -/

/-- Where the descriptor of port `p`'s next frame stands. -/
def Dev.rxDesc (d : Dev) (p : Nat) : Nat := d.ringAt (R.macRxbaselo (macBlk p)) (R.macRxbasehi (macBlk p)) + 32 * d.rf (R.macRxhead (macBlk p)) 0 12

/-- The fields of a descriptor that a delivery writes: length, flags and status, port, and the stamp if there is one. -/
def Memory.rxWritten (m : Memory) (a buf : Nat) (f : List Byte) (flags p : Nat) (stamp : Option (List Byte)) : Memory :=
  let m3 := ((m.putBytes buf f).putBytes (a + 10) (leBytes 2 f.length)).putBytes (a + 12) (leBytes 2 flags ++ leBytes 1 p)
  match stamp with
  | some bs => m3.putBytes (a + 16) bs
  | none => m3

section
variable {m : Memory} {a buf flags p : Nat} {f : List Byte} {stamp : Option (List Byte)} (hw : m.wf = true) (hapart : buf + f.length ≤ a ∨ a + 32 ≤ buf)
  (hstamp : ∀ bs, stamp = some bs → bs.length ≤ 16)
include hw hstamp

/-- The stamp leaves what lies before it and behind the descriptor. -/
theorem Memory.bytes_rxWritten (b k : Nat) (h : b + k ≤ a + 16 ∨ a + 32 ≤ b) : (m.rxWritten a buf f flags p stamp).bytes b k =
    (((m.putBytes buf f).putBytes (a + 10) (leBytes 2 f.length)).putBytes (a + 12) (leBytes 2 flags ++ leBytes 1 p)).bytes b k := by
  have hwf : (((m.putBytes buf f).putBytes (a + 10) (leBytes 2 f.length)).putBytes (a + 12) (leBytes 2 flags ++ leBytes 1 p)).wf = true :=
    Memory.putBytes_wf _ _ _ (Memory.putBytes_wf _ _ _ (Memory.putBytes_wf _ _ _ hw))
  cases stamp with
  | none => rfl
  | some bs =>
    have hlen := hstamp bs rfl
    exact Memory.bytes_putBytes_ne _ _ _ _ hwf (by omega)

theorem Memory.get_rxWritten (x : Nat) (h1 : x < buf ∨ buf + f.length ≤ x) (h2 : x < a + 10 ∨ a + 32 ≤ x) : (m.rxWritten a buf f flags p stamp).get x = m.get x := by
  have hw1 : (m.putBytes buf f).wf = true := Memory.putBytes_wf _ _ _ hw
  have hw2 : ((m.putBytes buf f).putBytes (a + 10) (leBytes 2 f.length)).wf = true := Memory.putBytes_wf _ _ _ hw1
  have h3 : (((m.putBytes buf f).putBytes (a + 10) (leBytes 2 f.length)).putBytes (a + 12) (leBytes 2 flags ++ leBytes 1 p)).get x = m.get x := by
    rw [Memory.get_putBytes_ne _ _ _ _ (by simp only [List.length_append, length_leBytes]; omega) hw2,
      Memory.get_putBytes_ne _ _ _ _ (by simp only [length_leBytes]; omega) hw1, Memory.get_putBytes_ne _ _ _ _ h1 hw]
  cases stamp with
  | none => exact h3
  | some bs =>
    have hlen := hstamp bs rfl
    exact (Memory.get_putBytes_ne _ _ _ _ (by omega) (Memory.putBytes_wf _ _ _ hw2)).trans h3

include hapart

theorem Memory.rxWritten_frame : (m.rxWritten a buf f flags p stamp).bytes buf f.length = f := by
  have hw1 : (m.putBytes buf f).wf = true := Memory.putBytes_wf _ _ _ hw
  rw [Memory.bytes_rxWritten hw hstamp _ _ (by omega),
    Memory.bytes_putBytes_ne _ _ _ _ (Memory.putBytes_wf _ _ _ hw1) (by simp only [List.length_append, length_leBytes]; omega),
    Memory.bytes_putBytes_ne _ _ _ _ hw1 (by simp only [length_leBytes]; omega), Memory.bytes_putBytes _ _ _ hw]

omit hapart in
theorem Memory.rxWritten_length : (m.rxWritten a buf f flags p stamp).bytes (a + 10) 2 = leBytes 2 f.length := by
  have hw1 : (m.putBytes buf f).wf = true := Memory.putBytes_wf _ _ _ hw
  rw [Memory.bytes_rxWritten hw hstamp _ _ (by omega),
    Memory.bytes_putBytes_ne _ _ _ _ (Memory.putBytes_wf _ _ _ hw1) (by simp only [List.length_append, length_leBytes]; omega)]
  exact Memory.bytes_putBytes (leBytes 2 f.length) _ _ hw1

omit hapart in
theorem Memory.rxWritten_flags : le ((m.rxWritten a buf f flags p stamp).bytes a 32) 12 2 = flags % 2 ^ 16 := by
  have hw2 : ((m.putBytes buf f).putBytes (a + 10) (leBytes 2 f.length)).wf = true := Memory.putBytes_wf _ _ _ (Memory.putBytes_wf _ _ _ hw)
  have h3 : (((m.putBytes buf f).putBytes (a + 10) (leBytes 2 f.length)).putBytes (a + 12) (leBytes 2 flags ++ leBytes 1 p)).bytes (a + 12) 3 =
      leBytes 2 flags ++ leBytes 1 p := Memory.bytes_putBytes (leBytes 2 flags ++ leBytes 1 p) _ _ hw2
  rw [le_bytes _ _ (by decide), Memory.bytes_rxWritten hw hstamp _ _ (by omega), ← Memory.take_bytes _ _ (show 2 ≤ 3 by decide), h3]
  exact le_leBytes 2 flags

end

/-- The flags of a delivered frame have OWN clear. -/
theorem Memory.rxWritten_own {m : Memory} {a buf flags p : Nat} {f : List Byte} {stamp : Option (List Byte)} (hw : m.wf = true)
    (hstamp : ∀ bs, stamp = some bs → bs.length ≤ 16) : bit (le ((m.rxWritten a buf f (2 * flags) p stamp).bytes a 32) 12 2) 0 = false := by
  rw [Memory.rxWritten_flags hw hstamp, bit, beq_eq_false_iff_ne]
  omega

/-- The head of a receive ring moves on. -/
theorem Dev.headMoved_leaves {d e : Dev} {b size head : Nat} (p : Nat) (g : MacPort → MacPort) (hd : d.tallies e) (hsize : 16 ≤ size ∧ size ≤ 4096) :
    let x := (e.setReg (R.macRxhead b) ((head + 1) % size)).onMac p g
    x.rf (R.macRxhead b) 0 12 = (head + 1) % size ∧ d.keeps x [R.macRxhead b] := by
  have hlt := Nat.mod_lt (head + 1) (show 0 < size by omega)
  have hrf : (e.setReg (R.macRxhead b) ((head + 1) % size)).rf (R.macRxhead b) 0 12 = (head + 1) % size := by
    rw [Dev.rf_setReg_same _ _ _ _ _ (by decide), fld]
    omega
  exact ⟨hrf, (Dev.keeps_of_regs hd.sameRegs _).trans (Dev.keeps_setReg _ _ _ (by simp))⟩

/-- A frame that its ring's next descriptor takes (R201). -/
theorem rxDeliver_owned {s : Sys} {p cls : Nat} {f : List Byte}
    (huse : (s.dev.ringOk (s.dev.ringAt (R.macRxbaselo (macBlk p)) (R.macRxbasehi (macBlk p))) (s.dev.rf (R.macRxsize (macBlk p)) 0 13) &&
      s.dev.rf (R.macRxhead (macBlk p)) 0 12 != s.dev.rf (R.macRxtail (macBlk p)) 0 12) = true)
    (hforce : s.dev.descForced p (s.dev.rxDesc p) = (s.dev, false)) (hown : bit (le (s.mem.bytes (s.dev.rxDesc p) 32) 12 2) 0 = true)
    (hfit : f.length ≤ le (s.mem.bytes (s.dev.rxDesc p) 32) 8 2) : ∃ flags stamp g, s.rxDeliver p cls false f =
      { s with
        mem := s.mem.rxWritten (s.dev.rxDesc p) (le (s.mem.bytes (s.dev.rxDesc p) 32) 0 5) f (2 * flags) p stamp
        dev := (s.dev.setReg (R.macRxhead (macBlk p)) ((s.dev.rf (R.macRxhead (macBlk p)) 0 12 + 1) % s.dev.rf (R.macRxsize (macBlk p)) 0 13)).onMac p g } ∧
      ∀ bs, stamp = some bs → bs.length ≤ 16 := by
  let ev := if p < 3 then ptpEvent f else none
  let stamp := if ev.isSome then
      some (leBytes 8 (s.dev.stamp p true / 2 ^ 32) ++ leBytes 2 (s.dev.stamp p true / 2 ^ 16) ++ leBytes 1 (s.dev.rf R.timeStat 4 2))
    else none
  refine ⟨2 * b2n ev.isSome + 4 * b2n (ethTagged f) + 8 * cls, stamp, fun x => { x with fresh := true, stops := x.stops.filter (fun q => q != 4) }, ?_, ?_⟩
  · have hfrc : (if (s.dev.ringOk (s.dev.ringAt (R.macRxbaselo (macBlk p)) (R.macRxbasehi (macBlk p))) (s.dev.rf (R.macRxsize (macBlk p)) 0 13) &&
        s.dev.rf (R.macRxhead (macBlk p)) 0 12 != s.dev.rf (R.macRxtail (macBlk p)) 0 12) = true then s.dev.descForced p (s.dev.rxDesc p) else (s.dev, false)) =
        (s.dev, false) := (if_pos huse).trans hforce
    have hflags : 2 * b2n false + 4 * b2n ev.isSome + 8 * b2n (ethTagged f) + 16 * cls = 2 * (2 * b2n ev.isSome + 4 * b2n (ethTagged f) + 8 * cls) := by
      rw [show b2n false = 0 from rfl]
      omega
    unfold Sys.rxDeliver
    extract_lets b base size head tail a inUse frc s1 d desc own owned stuck st flags m1 m2 m3 m4 d1 dc r d2 d3
    have h1 : frc = (s.dev, false) := hfrc
    have h2 : s1 = s := by simp only [s1, h1]
    have hd : d = s.dev := congrArg Sys.dev h2
    have hyes : owned = true := by
      simp only [owned, own, desc, h1, h2]
      rw [show inUse = true from huse, show bit (le (s.mem.bytes a 32) 12 2) 0 = true from hown]
      rfl
    have hdesc : desc = s.mem.bytes (s.dev.rxDesc p) 32 := by
      simp only [desc, h2]
      rfl
    have hm : m4 = s.mem.rxWritten (s.dev.rxDesc p) (le (s.mem.bytes (s.dev.rxDesc p) 32) 0 5) f (2 * (2 * b2n ev.isSome + 4 * b2n (ethTagged f) + 8 * cls)) p stamp := by
      simp only [m4, m3, m2, m1, flags, st, stamp, hdesc, hd, h2, hflags, Memory.rxWritten]
      by_cases hev : ev.isSome = true
      · simp only [hev, if_true]
        rfl
      · simp only [hev]
        rfl
    have hdev : d1 = (s.dev.setReg (R.macRxhead (macBlk p)) ((s.dev.rf (R.macRxhead (macBlk p)) 0 12 + 1) % s.dev.rf (R.macRxsize (macBlk p)) 0 13)).onMac p
        (fun x => { x with fresh := true, stops := x.stops.filter (fun q => q != 4) }) := by
      simp only [d1, hd]
      rfl
    rw [if_pos ⟨hyes, by rw [hdesc]; exact hfit⟩, h2, hm, hdev]
  · intro bs hbs
    simp only [stamp] at hbs
    split at hbs
    · obtain rfl := Option.some.inj hbs
      simp
    · cases hbs

/-- A frame dropped for want of a descriptor: counted, and the first one raised. -/
def Dev.rxDropped (d : Dev) (p : Nat) : Dev :=
  if !(d.macP p).fresh then d.macCount p 11 1
  else ((d.macCount p 11 1).onMac p (fun x => { x with fresh := false })).raise (macBlk p) Src.macRxRingFull (d.rf (R.macRxhead (macBlk p)) 0 12)
    (d.rf (R.macRxtail (macBlk p)) 0 12) 0

/-- A frame whose ring has no free descriptor is dropped (R201). -/
theorem rxDeliver_full {s : Sys} {p cls : Nat} {f : List Byte} (hfull : s.dev.rf (R.macRxhead (macBlk p)) 0 12 = s.dev.rf (R.macRxtail (macBlk p)) 0 12) :
    s.rxDeliver p cls false f = { s with dev := s.dev.rxDropped p } := by
  unfold Sys.rxDeliver
  extract_lets b base size head tail a inUse frc s1 d desc own owned stuck ev st flags m1 m2 m3 m4 d1 dc r d2 d3
  have huse : inUse = false := by
    simp only [inUse, show head = tail from hfull, bne_self_eq_false, Bool.and_false]
  have h1 : frc = (s.dev, false) := if_neg (by rw [huse]; decide)
  have h2 : s1 = s := by simp only [s1, h1]
  have hd : d = s.dev := congrArg Sys.dev h2
  have hno : ¬(owned = true ∧ f.length ≤ le desc 8 2) := by
    rw [show owned = false by simp only [owned, huse, Bool.false_and]]
    exact fun h => Bool.noConfusion h.1
  have hd2 : d2 = s.dev.macCount p 11 1 := by
    simp only [d2, stuck, huse, Bool.false_and, dc, hd]
    rfl
  rw [if_neg hno, h2]
  simp only [d3, hd2, hd]
  rfl

theorem Dev.rxDropped_leaves (d : Dev) (p : Nat) : let e := d.rxDropped p
    (∀ k, k ≠ 11 → e.w64 (R.macCnt (macBlk p) k) = d.w64 (R.macCnt (macBlk p) k)) ∧ e.w64 (R.macCnt (macBlk p) 11) = (d.w64 (R.macCnt (macBlk p) 11) + 1) % 2 ^ 64 ∧
      e.out = d.out ∧ ((d.macP p).fresh = true → e.flag (macBlk p) Src.macRxRingFull) ∧ d.keeps e [R.fltstat (macBlk p), R.fltfirst (macBlk p)] := by
  have hk : d.keeps (d.macCount p 11 1) [R.fltstat (macBlk p), R.fltfirst (macBlk p)] := Dev.keeps_of_regs ⟨rfl, rfl, rfl⟩ _
  unfold Dev.rxDropped
  split
  · next hold =>
    exact ⟨fun k hk11 => Dev.w64_macCount_ne _ _ _ hk11, Dev.w64_macCount _ _ _ _, rfl, fun hf => by simp [hf] at hold, hk⟩
  · let d1 := (d.macCount p 11 1).onMac p (fun x => { x with fresh := false })
    have hw (o : Nat) : d1.w64 o = (d.macCount p 11 1).w64 o := rfl
    have hk1 : d.keeps d1 [R.fltstat (macBlk p), R.fltfirst (macBlk p)] := Dev.keeps_of_regs ⟨rfl, rfl, rfl⟩ _
    have hout : d1.out = d.out := rfl
    rw [show (d.macCount p 11 1).onMac p (fun x => { x with fresh := false }) = d1 from rfl]
    clear_value d1
    exact ⟨fun k hk11 => by rw [Dev.w64_raise, hw, Dev.w64_macCount_ne _ _ _ hk11], by rw [Dev.w64_raise, hw, Dev.w64_macCount], by rw [Dev.raise_out, hout],
      fun _ => Dev.flag_raise _ _ _ _ _ _ (by decide), hk1.trans (Dev.keeps_raise _ _ _ _ _ _ (by simp) (by simp))⟩

/-! ## The obligation -/

theorem exec_frameReceive {z : State} {p c : Nat} {bytes : List Byte} (hrun : z.Running) (rx : Bool) :
    exec (.frameReceive p bytes rx c) z = .next (z.put (z.sys.frameReceive p bytes rx c)) := exec_tickRow rfl hrun

/-- Settles O51: each frame by its length, its FCS and its class. -/
theorem framesAreCheckedAndClassified : Obligations.FramesAreCheckedAndClassified := by
  intro z p c bytes hrun hp d b n f cnt
  have harr := d.tallies_arrival p n c
  have hwarr := d.w64_arrival p n c
  refine ⟨fun hnot rx => ?_, fun hready => ⟨fun h3 => ?_, fun hlen => ?_, fun hlen hbad => ?_, fun hlen hgood hmax htype hfil hudp => ?_⟩⟩
  · rw [exec_frameReceive hrun, Sys.frameReceive, if_pos (.inr (by rw [show z.sys.dev.rxReady p = false from hnot]; rfl))]
    rfl
  · have he := (frameReceive_ready (s := z.sys) (c := c) (bytes := bytes) hp hready true).trans (if_pos ⟨h3, rfl⟩)
    refine ⟨_, exec_frameReceive hrun true, ?_⟩
    rw [he]
    subst h3
    exact ⟨⟨rfl, rfl, rfl⟩, Dev.tallied_macCount (d := d) 21 1 (hwarr _), Dev.keeps_of_regs (harr.macCount 3 21 1).sameRegs _⟩
  · obtain ⟨x, hx, hcnt, hflag, hkeep⟩ := rxFilter_short (bytes := bytes) harr hwarr hlen
    refine ⟨_, exec_frameReceive hrun false, ?_⟩
    rw [frameReceive_ready hp hready, if_neg (fun h => absurd h.2 (by decide)), show (z.sys.dev.arrival p bytes.length c).rxFilter p bytes = (x, none) from hx]
    exact ⟨⟨rfl, rfl, rfl⟩, hcnt, hflag, hkeep⟩
  · obtain ⟨x, hx, hcnt, hkeep⟩ := rxFilter_bad (bytes := bytes) harr hwarr hlen hbad
    refine ⟨_, exec_frameReceive hrun false, ?_⟩
    rw [frameReceive_ready hp hready, if_neg (fun h => absurd h.2 (by decide)), show (z.sys.dev.arrival p bytes.length c).rxFilter p bytes = (x, none) from hx]
    exact ⟨⟨rfl, rfl, rfl⟩, hcnt, hkeep⟩
  · have hacc := frameReceive_accepted (s := z.sys) (c := c) hp hready hlen hgood hmax
    let y := ((d.arrival p n c).macCount p 0 1).macCount p 1 n
    have hy : d.tallies y := (harr.macCount p 0 1).macCount p 1 n
    have h0 : d.tallied y p 0 1 := by
      rw [Dev.tallied, Dev.w64_macCount_ne _ _ _ (by decide)]
      exact Dev.tallied_macCount _ _ (hwarr _)
    have h1 : d.tallied y p 1 n := Dev.tallied_macCount _ _ ((Dev.w64_macCount_ne _ _ _ (by decide)).trans (hwarr _))
    have hother (k : Nat) (hk0 : k ≠ 0) (hk1 : k ≠ 1) : y.w64 (R.macCnt (macBlk p) k) = d.w64 (R.macCnt (macBlk p) k) :=
      (Dev.w64_macCount_ne _ _ _ hk1).trans ((Dev.w64_macCount_ne _ _ _ hk0).trans (hwarr _))
    have hsys : z.sys.frameReceive p bytes false c = ({ z.sys with dev := y } : Sys).toHost p false f :=
      hacc.trans (classify_toHost (s := z.sys) (t := { z.sys with dev := y }) hy htype hfil hudp)
    clear_value y
    refine ⟨fun hcls => ?_, fun k hcls => ?_⟩
    · refine ⟨_, exec_frameReceive hrun false, ?_⟩
      have hhost : ({ z.sys with dev := y } : Sys).toHost p false f = { z.sys with dev := y.stranger p f } := by
        simp only [Sys.toHost, hy.hostClass, hcls]
        rfl
      obtain ⟨hkeepcnt, h8, hcap, hflag, hkeep⟩ := stranger_leaves hp f hy (hother 8 (by decide) (by decide))
      rw [hsys, hhost]
      exact ⟨⟨rfl, rfl, rfl⟩, (hkeepcnt 0 (by decide)).trans h0, (hkeepcnt 1 (by decide)).trans h1, h8, hcap, hflag, hkeep⟩
    · intro base size head a desc buf hring
      have hhost : ({ z.sys with dev := y } : Sys).toHost p false f = ({ z.sys with dev := y } : Sys).rxDeliver p k false f := by
        simp only [Sys.toHost, hy.hostClass, hcls]
      refine ⟨fun hroom hforce hown hfit hinv hapart => ?_, fun hfull => ?_⟩
      · have hdesc : y.rxDesc p = a := by rw [Dev.rxDesc, Dev.ringAt, hy.reg, hy.reg, hy.rf]; rfl
        have hsize : y.rf (R.macRxsize (macBlk p)) 0 13 = size := hy.rf _ _ _
        have hhead : y.rf (R.macRxhead (macBlk p)) 0 12 = head := hy.rf _ _ _
        have huse : (y.ringOk (y.ringAt (R.macRxbaselo (macBlk p)) (R.macRxbasehi (macBlk p))) (y.rf (R.macRxsize (macBlk p)) 0 13) &&
            y.rf (R.macRxhead (macBlk p)) 0 12 != y.rf (R.macRxtail (macBlk p)) 0 12) = true := by
          rw [Dev.ringAt, hy.reg, hy.reg, hy.ringOk, hsize, hhead, hy.rf (R.macRxtail (macBlk p)), bne_iff_ne.mpr hroom, Bool.and_true]
          exact hring
        obtain ⟨flags, stamp, g, ht, hstamp⟩ := rxDeliver_owned (s := { z.sys with dev := y }) (cls := k) huse (by rw [hdesc]; exact hy.descForced hforce)
          (by rw [hdesc]; exact hown) (by rw [hdesc]; exact hfit)
        rw [hdesc, hsize, hhead] at ht
        refine ⟨_, exec_frameReceive hrun false, ?_⟩
        rw [hsys, hhost, ht]
        have hsize' : 16 ≤ size ∧ size ≤ 4096 := by
          rw [Dev.ringOk, decide_eq_true_eq] at hring
          exact ⟨hring.1, hring.2.1⟩
        obtain ⟨hnew, hkeep⟩ := Dev.headMoved_leaves (b := b) (head := head) p g hy hsize'
        exact ⟨rfl, rfl, Memory.rxWritten_frame hinv hapart hstamp, Memory.rxWritten_length hinv hstamp, Memory.rxWritten_own hinv hstamp, hnew,
          fun x hx1 hx2 => Memory.get_rxWritten hinv hstamp x hx1 hx2, hkeep⟩
      · refine ⟨_, exec_frameReceive hrun false, ?_⟩
        rw [hsys, hhost, rxDeliver_full (by rw [hy.rf, hy.rf]; exact hfull)]
        obtain ⟨hkeepcnt, h11, hout, hflag, hkeep⟩ := y.rxDropped_leaves p
        exact ⟨⟨rfl, rfl, rfl⟩, (hkeepcnt 0 (by decide)).trans h0, h11.trans (by rw [hother 11 (by decide) (by decide)]), hout.trans hy.out,
          fun hf => hflag (by rw [hy.macP]; exact hf), (Dev.keeps_of_regs hy.sameRegs _).trans hkeep⟩

end Sys2Proof.Machine

/-!
PROOFS. Host frames, their completion, and collisions of the array bus (R198 to R200, R206).
-/
namespace Sys2Proof.Machine

/-! ## The transmit rings -/

/-- The registers of a port's faults. -/
def macFaults (p : Nat) : List Nat := [R.fltstat (macBlk p), R.fltfirst (macBlk p)]

/-- No register of a port's rings is one of its faults. -/
theorem not_mem_macFaults {p q : Nat} (hp : p ≤ 3) (hq : q < 4) : R.macTxbaselo (macBlk p) q ∉ macFaults p ∧ R.macTxbasehi (macBlk p) q ∉ macFaults p ∧
    R.macTxsize (macBlk p) q ∉ macFaults p ∧ R.macTxhead (macBlk p) q ∉ macFaults p ∧ R.macTxtail (macBlk p) q ∉ macFaults p ∧ R.ddrCfg ∉ macFaults p := by
  interval_cases p <;> interval_cases q <;> decide

theorem mem_txRings {p q : Nat} (h : q ∈ txRings p) : q < 4 := by
  have := List.mem_range.mp h
  split at this <;> omega

theorem Dev.keeps.rf {d e : Dev} {l : List Nat} (h : d.keeps e l) {o : Nat} (ho : o ∉ l) (lo w : Nat) : e.rf o lo w = d.rf o lo w := by
  rw [Dev.rf, (h o ho).1, Dev.rf]

section
variable {s t : Sys} {p : Nat} (hp : p ≤ 3) (hmem : t.mem = s.mem) (hk : s.dev.keeps t.dev (macFaults p))
include hp hmem hk

/-- The head of a ring is the same while memory and the ring's registers are. -/
theorem txHead_congr {q : Nat} (hq : q < 4) : t.txHead p q = s.txHead p q := by
  obtain ⟨h1, h2, h3, h4, h5, h6⟩ := not_mem_macFaults hp hq
  have hbase : t.dev.ringAt (R.macTxbaselo (macBlk p) q) (R.macTxbasehi (macBlk p) q) = s.dev.ringAt (R.macTxbaselo (macBlk p) q) (R.macTxbasehi (macBlk p) q) := by
    rw [Dev.ringAt, (hk _ h1).1, (hk _ h2).1, Dev.ringAt]
  have hring (b n : Nat) : t.dev.ringOk b n = s.dev.ringOk b n := by
    have h8 : t.dev.dram8 = s.dev.dram8 := by rw [Dev.dram8, Dev.lf, (hk _ h6).2, Dev.dram8, Dev.lf]
    rw [Dev.ringOk, Dev.ringBase, h8, Dev.ringOk, Dev.ringBase]
  simp only [Sys.txHead, hbase, hring, hk.rf h3, hk.rf h4, hk.rf h5, hmem]

theorem txOwned_congr {q : Nat} (hq : q < 4) : t.txOwned p q = s.txOwned p q := by rw [Sys.txOwned, txHead_congr hp hmem hk hq, Sys.txOwned]

end

/-- No ring has a frame to send exactly if the device owns none of their heads. -/
theorem txNext_eq_none {s : Sys} {p : Nat} : s.txNext p = none ↔ ∀ q ∈ txRings p, s.txOwned p q = false := by
  rw [Sys.txNext, List.head?_eq_none_iff, List.eq_nil_iff_forall_not_mem]
  simp only [mem_sortBy, List.mem_filter, not_and, Bool.not_eq_true]

/-- The ring whose turn it is is one of the port's, and the device owns its head. -/
theorem mem_of_txNext {s : Sys} {p q : Nat} (h : s.txNext p = some q) : q ∈ txRings p ∧ s.txOwned p q = true := by
  have hm := List.mem_of_mem_head? (h : _ = some q)
  rw [mem_sortBy, List.mem_filter] at hm
  exact hm

/-! ## A ring stops (R200) -/

/-- Ring `q` of port `p` stops now: it holds a descriptor the device does not own, and has not stopped yet. -/
def Sys.stopsAt (s : Sys) (p q : Nat) : Prop := (s.txHead p q).isSome = true ∧ s.txOwned p q = false ∧ q ∉ (s.dev.macP p).stops

/-- The device with the stop of a ring noted. -/
def Dev.ringStopped (d : Dev) (p q : Nat) : Dev :=
  (d.onMac p (fun x => { x with stops := q :: x.stops })).raise (macBlk p) Src.macTxErr (if p = 3 then 0 else q) 0xF (d.rf (R.macTxhead (macBlk p) q) 0 12)

theorem txStop_of_stops {s : Sys} {p q : Nat} (h : s.stopsAt p q) : s.txStop p q = s.onDev (fun d => d.ringStopped p q) := by
  obtain ⟨h1, h2, h3⟩ := h
  refine if_neg ?_
  rw [h2, Option.isNone_eq_false_iff.mpr h1]
  simpa using h3

theorem txStop_of_not {s : Sys} {p q : Nat} (h : ¬s.stopsAt p q) : s.txStop p q = s := by
  refine if_pos ?_
  by_contra hno
  simp only [Bool.or_eq_true, not_or, Bool.not_eq_true, List.contains_eq_mem, decide_eq_false_iff_not] at hno
  obtain ⟨⟨h1, h2⟩, h3⟩ := hno
  exact h ⟨Option.isNone_eq_false_iff.mp h1, h2, h3⟩

theorem each_txStop_of_none {s : Sys} {p : Nat} {l : List Nat} (h : ∀ k ∈ l, ¬s.stopsAt p k) : each l (fun q s => s.txStop p q) s = s := by
  induction l with
  | nil => rfl
  | cons k l ih =>
    rw [each, txStop_of_not (h k List.mem_cons_self)]
    exact ih (fun j hj => h j (List.mem_cons_of_mem _ hj))

theorem Dev.ringStopped_leaves {d : Dev} {p : Nat} (hp : p < d.mac.length) (q : Nat) : let e := d.ringStopped p q
    e.out = d.out ∧ (e.macP p).stops = q :: (d.macP p).stops ∧ e.flag (macBlk p) Src.macTxErr ∧ d.keeps e (macFaults p) := by
  have hx : (d.onMac p (fun x => { x with stops := q :: x.stops })).macP p = { d.macP p with stops := q :: (d.macP p).stops } := Dev.macP_onMac _ _ hp
  have hk : d.keeps (d.onMac p (fun x => { x with stops := q :: x.stops })) (macFaults p) := Dev.keeps_of_regs ⟨rfl, rfl, rfl⟩ _
  have hout : (d.onMac p (fun x => { x with stops := q :: x.stops })).out = d.out := rfl
  unfold Dev.ringStopped
  generalize d.onMac p (fun x => { x with stops := q :: x.stops }) = x at *
  refine ⟨?_, ?_, Dev.flag_raise _ _ _ _ _ _ (by decide), hk.trans (Dev.keeps_raise _ _ _ _ _ _ (by simp [macFaults]) (by simp [macFaults]))⟩
  · rw [Dev.raise_out, hout]
  · rw [Dev.macP, Dev.raise_mac, show x.mac.getD p {} = x.macP p from rfl, hx]

/-- One ring stops. -/
theorem each_txStop_of_one {s : Sys} {p q : Nat} {l : List Nat} (hp : p ≤ 3) (hlen : p < s.dev.mac.length) (hl : ∀ k ∈ l, k < 4) (hq : q ∈ l) (hstop : s.stopsAt p q)
    (hno : ∀ k ∈ l, k ≠ q → ¬s.stopsAt p k) : each l (fun q s => s.txStop p q) s = s.onDev (fun d => d.ringStopped p q) := by
  obtain ⟨-, hstops, -, hkeep⟩ := Dev.ringStopped_leaves hlen q
  have hrest (k : Nat) (hk : k < 4) (hk' : k ≠ q → ¬s.stopsAt p k) : ¬(s.onDev (fun d => d.ringStopped p q)).stopsAt p k := by
    rintro ⟨h1, h2, h3⟩
    rw [txHead_congr (s := s) (t := s.onDev (fun d => d.ringStopped p q)) hp rfl hkeep hk] at h1
    rw [txOwned_congr (s := s) (t := s.onDev (fun d => d.ringStopped p q)) hp rfl hkeep hk] at h2
    rw [show (s.onDev (fun d => d.ringStopped p q)).dev = s.dev.ringStopped p q from rfl, hstops, List.mem_cons, not_or] at h3
    exact hk' h3.1 ⟨h1, h2, h3.2⟩
  induction l with
  | nil => cases hq
  | cons k l ih =>
    have hlt (j : Nat) (hj : j ∈ l) := hl j (List.mem_cons_of_mem _ hj)
    have hnoj (j : Nat) (hj : j ∈ l) := hno j (List.mem_cons_of_mem _ hj)
    rw [each]
    by_cases hkq : k = q
    · rw [hkq, txStop_of_stops hstop]
      exact each_txStop_of_none (fun j hj => hrest j (hlt j hj) (hnoj j hj))
    · rw [txStop_of_not (hno k List.mem_cons_self hkq)]
      exact ih hlt ((List.mem_cons.mp hq).resolve_left (Ne.symm hkq)) hnoj

/-! ## A descriptor is completed (R199) -/

theorem ringOk_size {d : Dev} {base size : Nat} (h : d.ringOk base size = true) : 16 ≤ size ∧ size ≤ 4096 := by
  rw [Dev.ringOk, decide_eq_true_eq] at h
  exact ⟨h.1, h.2.1⟩

/-- What the head of a ring is. -/
theorem txHead_eq_some {s : Sys} {p q a : Nat} {desc : List Byte} (h : s.txHead p q = some (a, desc)) :
    a = s.dev.ringAt (R.macTxbaselo (macBlk p) q) (R.macTxbasehi (macBlk p) q) + 32 * s.dev.rf (R.macTxhead (macBlk p) q) 0 12 ∧ desc = s.mem.bytes a 32 ∧
      16 ≤ s.dev.rf (R.macTxsize (macBlk p) q) 0 13 ∧ s.dev.rf (R.macTxsize (macBlk p) q) 0 13 ≤ 4096 := by
  unfold Sys.txHead at h
  extract_lets d b base size head at h
  split at h
  · next hc =>
    obtain ⟨rfl, rfl⟩ := Prod.mk.inj (Option.some.inj h)
    exact ⟨rfl, rfl, ringOk_size hc.1⟩
  · cases h

/-- Frame `a`'s descriptor of ring `q` of port `p` completed with a status, from `d` and `m` to `s`. -/
structure Sys.completed (s : Sys) (d : Dev) (m : Memory) (p q a status : Nat) : Prop where
  status_ : fld (le (s.mem.bytes (a + 12) 2) 0 2) 8 4 = status
  own : bit (le (s.mem.bytes (a + 12) 2) 0 2) 0 = false
  head : s.dev.rf (R.macTxhead (macBlk p) q) 0 12 = (d.rf (R.macTxhead (macBlk p) q) 0 12 + 1) % d.rf (R.macTxsize (macBlk p) q) 0 13
  fault : status ≠ 0 → s.dev.w64 (R.macCnt (macBlk p) 12) = (d.w64 (R.macCnt (macBlk p) 12) + 1) % 2 ^ 64 ∧ s.dev.flag (macBlk p) Src.macTxErr
  rest : ∀ x, x < a + 12 ∨ a + 14 ≤ x → s.mem.get x = m.get x

/-- The head moved on and the port's attempts over. -/
def Dev.ringAdvanced (d : Dev) (p q : Nat) : Dev :=
  (d.setReg (R.macTxhead (macBlk p) q) ((d.rf (R.macTxhead (macBlk p) q) 0 12 + 1) % d.rf (R.macTxsize (macBlk p) q) 0 13)).onMac p (fun x => { x with
    tries := 0
    stops := x.stops.filter (fun k => k != q) })

theorem Dev.ringAdvanced_leaves {d : Dev} {p q : Nat} (hsize : 16 ≤ d.rf (R.macTxsize (macBlk p) q) 0 13 ∧ d.rf (R.macTxsize (macBlk p) q) 0 13 ≤ 4096) :
    let e := d.ringAdvanced p q
    e.rf (R.macTxhead (macBlk p) q) 0 12 = (d.rf (R.macTxhead (macBlk p) q) 0 12 + 1) % d.rf (R.macTxsize (macBlk p) q) 0 13 ∧ e.out = d.out ∧ (∀ o, e.w64 o = d.w64 o) ∧
      (p < d.mac.length → (e.macP p).tries = 0) ∧ d.keeps e [R.macTxhead (macBlk p) q] := by
  unfold Dev.ringAdvanced
  have hlt := Nat.mod_lt (d.rf (R.macTxhead (macBlk p) q) 0 12 + 1) (show 0 < d.rf (R.macTxsize (macBlk p) q) 0 13 by omega)
  generalize (d.rf (R.macTxhead (macBlk p) q) 0 12 + 1) % d.rf (R.macTxsize (macBlk p) q) 0 13 = n at *
  have hrf : (d.setReg (R.macTxhead (macBlk p) q) n).rf (R.macTxhead (macBlk p) q) 0 12 = n := by
    rw [Dev.rf_setReg_same _ _ _ _ _ (by decide), fld]
    omega
  have hk : d.keeps (d.setReg (R.macTxhead (macBlk p) q) n) [R.macTxhead (macBlk p) q] := Dev.keeps_setReg _ _ _ (by simp)
  have hx : (d.setReg (R.macTxhead (macBlk p) q) n).out = d.out ∧ (∀ o, (d.setReg (R.macTxhead (macBlk p) q) n).w64 o = d.w64 o) ∧
      (d.setReg (R.macTxhead (macBlk p) q) n).mac = d.mac := ⟨rfl, fun _ => rfl, rfl⟩
  generalize d.setReg (R.macTxhead (macBlk p) q) n = x at *
  obtain ⟨hout, hw, hmac⟩ := hx
  exact ⟨hrf, hout, hw, fun hp => congrArg MacPort.tries (Dev.macP_onMac x _ (by rw [hmac]; exact hp)), hk⟩

/-- The word of a completed descriptor. -/
theorem completed_word (fl status : Nat) (hs : status < 16) : fld (bitSet (fldSet fl 8 4 status) 0 false % 2 ^ 16) 8 4 = status ∧
    bit (bitSet (fldSet fl 8 4 status) 0 false % 2 ^ 16) 0 = false := by
  constructor
  · rw [fld_mod_pow _ _ _ _ (by decide), fld_bitSet_ne _ _ _ _ _ (by decide), fld_fldSet]
    omega
  · rw [bit_eq_fld, fld_mod_pow _ _ _ _ (by decide), ← bit_eq_fld, bit_bitSet_same]

/-- The device with a frame of ring `q` completed. -/
def Dev.txDone (d : Dev) (p q status : Nat) : Dev :=
  if status = 0 then d.ringAdvanced p q
  else ((d.ringAdvanced p q).macCount p 12 1).raise (macBlk p) Src.macTxErr (if p = 3 then 0 else q) status (d.rf (R.macTxhead (macBlk p) q) 0 12)

theorem Dev.txDone_leaves {d : Dev} {p q : Nat} (status : Nat) (hp : p ≤ 3) (hq : q < 4)
    (hsize : 16 ≤ d.rf (R.macTxsize (macBlk p) q) 0 13 ∧ d.rf (R.macTxsize (macBlk p) q) 0 13 ≤ 4096) : let e := d.txDone p q status
    e.rf (R.macTxhead (macBlk p) q) 0 12 = (d.rf (R.macTxhead (macBlk p) q) 0 12 + 1) % d.rf (R.macTxsize (macBlk p) q) 0 13 ∧ e.out = d.out ∧
      (status ≠ 0 → e.w64 (R.macCnt (macBlk p) 12) = (d.w64 (R.macCnt (macBlk p) 12) + 1) % 2 ^ 64 ∧ e.flag (macBlk p) Src.macTxErr) ∧
      (status = 0 → d.keeps e [R.macTxhead (macBlk p) q]) ∧ (p < d.mac.length → (e.macP p).tries = 0) ∧
      (∀ k, k ≠ 12 → e.w64 (R.macCnt (macBlk p) k) = d.w64 (R.macCnt (macBlk p) k)) ∧ (∀ n, n < 32 → d.flag (macBlk p) n → e.flag (macBlk p) n) := by
  obtain ⟨hnew, hout, hw, htries, hkeep⟩ := d.ringAdvanced_leaves hsize
  obtain ⟨-, -, -, h4, -, -⟩ := not_mem_macFaults hp hq
  have hflag (n : Nat) : (d.ringAdvanced p q).flag (macBlk p) n ↔ d.flag (macBlk p) n := by
    rw [Dev.flag, Dev.flag, hkeep.rf (fun hc => h4 (List.mem_singleton.mp hc ▸ List.mem_cons_self))]
  unfold Dev.txDone
  generalize d.ringAdvanced p q = x at *
  split
  · next h0 => exact ⟨hnew, hout, fun hc => absurd h0 hc, fun _ => hkeep, htries, fun _ _ => hw _, fun n _ hf => (hflag n).mpr hf⟩
  · next h0 =>
    have hm : (x.macCount p 12 1).marks ((x.macCount p 12 1).raise (macBlk p) Src.macTxErr (if p = 3 then 0 else q) status (d.rf (R.macTxhead (macBlk p) q) 0 12))
        (macFaults p) [] := .raise _ _ _ _ _ _ (by simp [macFaults]) (by simp [macFaults])
    refine ⟨?_, ?_, fun _ => ⟨?_, Dev.flag_raise _ _ _ _ _ _ (by decide)⟩, fun hc => absurd hc h0, fun hlen => ?_, fun k hk => ?_, fun n hn hf => ?_⟩
    · exact (hm.rf 0 12 h4).trans hnew
    · exact hm.out.trans hout
    · rw [Dev.w64_raise, Dev.w64_macCount, hw]
    · rw [Dev.macP, hm.mac]
      exact htries hlen
    · rw [Dev.w64_raise, Dev.w64_macCount_ne _ _ _ hk, hw]
    · exact Dev.flag_stays_raise _ _ _ _ _ hn ((hflag n).mpr hf)

/-- A completion (R199, R200). -/
theorem txComplete_leaves {s : Sys} {d : Dev} {p q a status : Nat} {desc : List Byte} (hp : p ≤ 3) (hq : q < 4) (hw : s.mem.wf = true)
    (hk : d.keeps s.dev (macFaults p)) (hhead : s.txHead p q = some (a, desc)) (hs : status < 16)
    (hcnt : s.dev.w64 (R.macCnt (macBlk p) 12) = d.w64 (R.macCnt (macBlk p) 12)) : let t := s.txComplete p q status
    t.otp = s.otp ∧ t.dev = s.dev.txDone p q status ∧ t.completed d s.mem p q a status := by
  obtain ⟨rfl, -, hsize⟩ := txHead_eq_some hhead
  obtain ⟨-, -, h3, h4, -, -⟩ := not_mem_macFaults hp hq
  obtain ⟨hnew, -, hfault, -⟩ := s.dev.txDone_leaves status hp hq hsize
  rw [hk.rf h3, hk.rf h4 0 12] at hnew
  rw [hcnt] at hfault
  have hdev : (s.txComplete p q status).dev = s.dev.txDone p q status := rfl
  let a := s.dev.ringAt (R.macTxbaselo (macBlk p) q) (R.macTxbasehi (macBlk p) q) + 32 * s.dev.rf (R.macTxhead (macBlk p) q) 0 12
  let v := bitSet (fldSet (le (s.mem.bytes a 32) 12 2) 8 4 status) 0 false
  have hmem : (s.txComplete p q status).mem = s.mem.putBytes (a + 12) (leBytes 2 v) := rfl
  have hbytes : (s.mem.putBytes (a + 12) (leBytes 2 v)).bytes (a + 12) 2 = leBytes 2 v := Memory.bytes_putBytes (leBytes 2 v) _ _ hw
  have hword : le ((s.txComplete p q status).mem.bytes (a + 12) 2) 0 2 = v % 2 ^ 16 := by
    rw [hmem, hbytes]
    exact le_leBytes 2 v
  obtain ⟨hw1, hw2⟩ := completed_word (le (s.mem.bytes a 32) 12 2) status hs
  refine ⟨rfl, hdev, hword ▸ hw1, hword ▸ hw2, hdev ▸ hnew, hdev ▸ hfault, fun x hx => ?_⟩
  rw [hmem]
  exact Memory.get_putBytes_ne _ _ _ _ (by simp only [length_leBytes]; omega) hw

/-! ## A host frame's turn -/

/-- The frame whose turn it is, once no ring stops. -/
theorem hostTransmit_eq {s : Sys} {p c q a : Nat} {desc : List Byte} (hp : p ≤ 3) (hen : s.dev.macEn p = true) (hno : ∀ k ∈ txRings p, ¬s.stopsAt p k)
    (hnext : s.txNext p = some q) (hhead : s.txHead p q = some (a, desc)) (hforce : s.dev.descForced p a = (s.dev, false)) : s.hostTransmit p c =
      let sA := s.onDev (fun d => d.atC c)
      if s.dev.macMaxlen p < le desc 8 2 + 4 then sA.txComplete p q 1
      else if s.dev.hostLinkDown p then sA.txComplete p q 2
      else if !(s.dev.atC c).lineFree p then sA
      else sA.hostSend p q desc := by
  have hgo : ¬(3 < p ∨ (!(s.onDev (fun d => d.atC c)).dev.macEn p) = true) := by
    rw [show (s.onDev (fun d => d.atC c)).dev.macEn p = true from hen]
    rintro (h | h)
    · omega
    · cases h
  have hstop : each (txRings p) (fun q s => s.txStop p q) (s.onDev (fun d => d.atC c)) = s.onDev (fun d => d.atC c) := each_txStop_of_none hno
  have hf : ((s.onDev (fun d => d.atC c)).dev.descForced p a).2 = false := congrArg Prod.snd ((Dev.tallies.atC s.dev c).descForced hforce)
  unfold Sys.hostTransmit
  simp only [if_neg hgo, hstop, show (s.onDev (fun d => d.atC c)).txNext p = some q from hnext, show (s.onDev (fun d => d.atC c)).txHead p q = some (a, desc) from hhead, hf]
  rfl

/-- The device with a host frame on the line. -/
def Dev.lineTakes (d : Dev) (p : Nat) (f : List Byte) : Dev := if p = 3 then (d.ethSend p f).busSent (max 64 (f.length + 4)) else d.ethSend p f

theorem Dev.ethSend_leaves (d : Dev) (p : Nat) (f : List Byte) : let e := d.ethSend p f
    let g := f ++ List.replicate (60 - f.length) 0
    e.out = { d.out with eth := d.out.eth ++ [(p, g ++ ethFcs g)] } ∧ d.sameRegs e ∧ e.mac = d.mac ∧
      ∀ k, 4 ≤ k → e.w64 (R.macCnt (macBlk p) k) = d.w64 (R.macCnt (macBlk p) k) :=
  ⟨rfl, ⟨rfl, rfl, rfl⟩, rfl, fun k hk => (Dev.w64_macCount_ne (d.macCount p 2 1) p _ (show k ≠ 3 by omega)).trans (Dev.w64_macCount_ne d p 1 (show k ≠ 2 by omega))⟩

theorem Dev.busPasses_eq (d : Dev) (n : Nat) : ∃ f, d.busPasses n = d.onBus f := by
  unfold Dev.busPasses
  split
  · exact ⟨_, rfl⟩
  · exact ⟨id, rfl⟩

theorem Dev.busSent_leaves (d : Dev) (n : Nat) : let e := d.busSent n
    e.out = d.out ∧ d.sameRegs e ∧ e.mac = d.mac ∧ ∀ o, e.w64 o = d.w64 o := by
  obtain ⟨f, hf⟩ := d.busPasses_eq n
  rw [Dev.busSent, hf]
  exact ⟨rfl, ⟨rfl, rfl, rfl⟩, rfl, fun _ => rfl⟩

theorem Dev.lineTakes_leaves (d : Dev) (p : Nat) (f : List Byte) : let e := d.lineTakes p f
    let g := f ++ List.replicate (60 - f.length) 0
    e.out = { d.out with eth := d.out.eth ++ [(p, g ++ ethFcs g)] } ∧ d.sameRegs e ∧ e.w64 (R.macCnt (macBlk p) 12) = d.w64 (R.macCnt (macBlk p) 12) := by
  obtain ⟨h1, h2, -, h4⟩ := d.ethSend_leaves p f
  unfold Dev.lineTakes
  split
  · obtain ⟨k1, k2, -, k4⟩ := (d.ethSend p f).busSent_leaves (max 64 (f.length + 4))
    exact ⟨k1.trans h1, h2.trans k2, (k4 _).trans (h4 12 (by decide))⟩
  · exact ⟨h1, h2, h4 12 (by decide)⟩

theorem hostSend_eq {s : Sys} {p q : Nat} {desc : List Byte} (hplain : bit (le desc 12 2) 1 = false) :
    s.hostSend p q desc = (s.onDev (fun d => d.lineTakes p (s.txFrame desc))).txComplete p q 0 := by
  unfold Sys.hostSend
  extract_lets f s1 s2
  have h2 : s2 = s1 := if_neg (fun h => Bool.noConfusion (hplain.symm.trans h.2))
  rw [h2]
  rfl

/-! ## Collisions (R206) -/

section
variable {s : Sys} {a bytes c : Nat} {desc : List Byte} (hen : s.dev.macEn 3 = true) (hhead : s.txHead 3 0 = some (a, desc)) (hown : bit (le desc 12 2) 0 = true)
include hen hhead hown

/-- The device as a collision is counted. -/
def Dev.collided (d : Dev) (c : Nat) : Dev := ((d.atC c).macCount 3 17 1).onMac 3 (fun x => { x with tries := x.tries + 1 })

omit hen hhead hown in
theorem Dev.collided_leaves (d : Dev) (c : Nat) (hmac : d.mac.length = 4) : let e := d.collided c
    e.w64 (R.macCnt 13 17) = (d.w64 (R.macCnt 13 17) + 1) % 2 ^ 64 ∧ (∀ k, k ≠ 17 → e.w64 (R.macCnt 13 k) = d.w64 (R.macCnt 13 k)) ∧
      (e.macP 3).tries = (d.macP 3).tries + 1 ∧ e.mac.length = 4 ∧ d.sameRegs e ∧ e.instant = d.tick * 10240 + c := by
  have htries : ((d.collided c).macP 3) = { d.macP 3 with tries := (d.macP 3).tries + 1 } := Dev.macP_onMac ((d.atC c).macCount 3 17 1) _ (by rw [show ((d.atC c).macCount 3 17 1).mac = d.mac from rfl, hmac]; decide)
  exact ⟨Dev.w64_macCount (d.atC c) 3 17 1, fun k hk => Dev.w64_macCount_ne (d.atC c) 3 1 hk, by rw [htries], (length_updAt _ _ _).trans hmac, ⟨rfl, rfl, rfl⟩, rfl⟩

theorem collision_eq : s.collision bytes c =
    let s1 := s.onDev (fun d => d.collided c)
    if 64 < bytes then (s1.onDev (fun d => (d.macCount 3 18 1).raise Blk.mact Src.mactLateColl (d.rf (R.macTxhead 13 0) 0 12) 0 0)).txComplete 3 0 4
    else if 16 ≤ (s1.dev.macP 3).tries then (s1.onDev (fun d => d.macCount 3 19 1)).txComplete 3 0 3
    else s1.onDev (fun d => d.backoffStart (d.macP 3).tries) := by
  refine if_neg ?_
  have howned : s.txOwned 3 0 = true := by rw [Sys.txOwned, hhead]; exact hown
  rw [show (s.onDev (fun d => d.atC c)).dev.macEn 3 = true from hen, show (s.onDev (fun d => d.atC c)).txOwned 3 0 = true from howned]
  decide

end

/-- The wait after a collision. -/
theorem Dev.backoffStart_leaves (d : Dev) (n : Nat) : let e := d.backoffStart n
    (e.macP 3).tries = (d.macP 3).tries ∧ (∃ k, k < 2 ^ min n 10 ∧ e.bus.backoff = d.instant + busBits (512 * k)) ∧ (∀ o, e.w64 o = d.w64 o) ∧ d.sameRegs e :=
  ⟨rfl, ⟨_, Nat.mod_lt _ (Nat.two_pow_pos _), rfl⟩, fun _ => rfl, ⟨rfl, rfl, rfl⟩⟩

/-! ## Whether the line is free -/

theorem hostLinkDown_eq_false {d : Dev} {p : Nat} : d.hostLinkDown p = false ↔ (p ≠ 3 → d.macLink p = true) := by
  rw [Dev.hostLinkDown, Bool.and_eq_false_iff, bne_eq_false_iff_eq, Bool.not_eq_false']
  tauto

theorem lineFree_iff {d : Dev} {p c : Nat} : (d.atC c).lineFree p = true ↔
    d.macPaused p = false ∧ (p < 2 → d.strm.queue.getD p [] = []) ∧ (p = 3 → (d.atC c).busMaySend = true) := by
  rw [Dev.lineFree, Bool.and_eq_true, Bool.and_eq_true, Bool.or_eq_true, Bool.or_eq_true, Bool.not_eq_true', bne_iff_ne, decide_eq_true_eq, List.isEmpty_iff,
    show (d.atC c).macPaused p = d.macPaused p from rfl, show (d.atC c).strm = d.strm from rfl]
  constructor
  · rintro ⟨⟨h1, h2⟩, h3⟩
    exact ⟨h1, fun hp => h3.resolve_left (by omega), fun hp => h2.resolve_left (fun hn => hn hp)⟩
  · rintro ⟨h1, h2, h3⟩
    exact ⟨⟨h1, (em (p = 3)).symm.imp_right h3⟩, (Nat.lt_or_ge p 2).symm.imp_right h2⟩

/-- A ring that stops, on a port with nothing to send. -/
theorem hostTransmit_stops {s : Sys} {p c q : Nat} (hp : p ≤ 3) (hen : s.dev.macEn p = true) (hmac : s.dev.mac.length = 4) (hnone : s.txNext p = none)
    (hq : q ∈ txRings p) (hstop : s.stopsAt p q) (hno : ∀ k ∈ txRings p, k ≠ q → ¬s.stopsAt p k) :
    s.hostTransmit p c = (s.onDev (fun d => d.atC c)).onDev (fun d => d.ringStopped p q) := by
  have hlen : p < (s.onDev (fun d => d.atC c)).dev.mac.length := by
    rw [show (s.onDev (fun d => d.atC c)).dev.mac = s.dev.mac from rfl, hmac]
    omega
  have hgo : ¬(3 < p ∨ (!(s.onDev (fun d => d.atC c)).dev.macEn p) = true) := by
    rw [show (s.onDev (fun d => d.atC c)).dev.macEn p = true from hen]
    rintro (h | h)
    · omega
    · cases h
  obtain ⟨-, -, -, hkeep⟩ := Dev.ringStopped_leaves hlen q
  have hnone' : ((s.onDev (fun d => d.atC c)).onDev (fun d => d.ringStopped p q)).txNext p = none := by
    rw [txNext_eq_none] at hnone ⊢
    exact fun k hk => (txOwned_congr (s := s.onDev (fun d => d.atC c)) (t := (s.onDev (fun d => d.atC c)).onDev (fun d => d.ringStopped p q)) hp rfl hkeep
      (mem_txRings hk)).trans (hnone k hk)
  have hloop : each (txRings p) (fun q s => s.txStop p q) (s.onDev (fun d => d.atC c)) = (s.onDev (fun d => d.atC c)).onDev (fun d => d.ringStopped p q) :=
    each_txStop_of_one (s := s.onDev (fun d => d.atC c)) hp hlen (fun k hk => mem_txRings hk) hq hstop hno
  unfold Sys.hostTransmit
  simp only [if_neg hgo, hloop, hnone']

theorem collision_idle {s : Sys} {bytes c : Nat} (h : s.txOwned 3 0 = false) : s.collision bytes c = s.onDev (fun d => d.atC c) := by
  refine if_pos ?_
  rw [show (s.onDev (fun d => d.atC c)).txOwned 3 0 = false from h]
  exact Bool.or_true _

/-! ## The obligation -/

theorem exec_hostFrameTransmit {z : State} {p c : Nat} (hrun : z.Running) : exec (.hostFrameTransmit p c) z = .next (z.put (z.sys.hostTransmit p c)) :=
  exec_tickRow rfl hrun

theorem exec_collision {z : State} {bytes c : Nat} (hrun : z.Running) : exec (.collision bytes c) z = .next (z.put (z.sys.collision bytes c)) := exec_tickRow rfl hrun

/-- Settles O52, by the rules of a ring, of a completion and of a collision. -/
theorem hostFramesAndCollisions : Obligations.HostFramesAndCollisions := by
  intro z p c q a desc hrun hinv hp hq hen d b fr g completed stops free
  have hkA : d.keeps (d.atC c) (macFaults p) := Dev.keeps_of_regs ⟨rfl, rfl, rfl⟩ _
  refine ⟨fun hno hnext hhead hforce => ?_, fun hmac hnone hq4 hstop hothers => ?_, fun h3 hown bytes => ?_, fun h3 hhead hown hmac bytes => ?_⟩
  · have heq := hostTransmit_eq (c := c) hp hen hno hnext hhead hforce
    have hdone (status : Nat) (hs : status < 16) := txComplete_leaves (s := z.sys.onDev (fun d => d.atC c)) (d := d) hp hq hinv hkA hhead hs rfl
    have hsize := (txHead_eq_some hhead).2.2
    have hdn (status : Nat) := (d.atC c).txDone_leaves status hp hq hsize
    refine ⟨fun hlen hfree hplain => ?_, fun hlong => ?_, fun hlen h3 hlink => ?_, fun hlen hlink hbusy => ?_⟩
    · obtain ⟨hlink, hpause, hqueue, hturn⟩ := hfree
      rw [if_neg (show ¬d.macMaxlen p < le desc 8 2 + 4 by omega), if_neg (by rw [hostLinkDown_eq_false.mpr hlink]; decide),
        if_neg (by rw [lineFree_iff.mpr ⟨hpause, hqueue, hturn⟩]; decide), hostSend_eq hplain] at heq
      obtain ⟨hline, hsame, hcnt⟩ := (d.atC c).lineTakes_leaves p fr
      have hk : d.keeps ((d.atC c).lineTakes p fr) (macFaults p) := Dev.keeps_of_regs (Dev.sameRegs.trans (e := d.atC c) ⟨rfl, rfl, rfl⟩ hsame) _
      let s1 : Sys := { z.sys with dev := (d.atC c).lineTakes p fr }
      have hhead1 : s1.txHead p q = some (a, desc) := (txHead_congr (s := z.sys) (t := s1) hp rfl hk hq).trans hhead
      obtain ⟨hotp, hdev, hc⟩ := txComplete_leaves (s := s1) (status := 0) hp hq hinv hk hhead1 (by decide) hcnt
      obtain ⟨-, hout, -, hkeep, -⟩ := s1.dev.txDone_leaves 0 hp hq (txHead_eq_some hhead1).2.2
      refine ⟨_, exec_hostFrameTransmit hrun, ?_⟩
      rw [heq]
      exact ⟨hotp, rfl, (congrArg Dev.out hdev).trans (hout.trans hline), ⟨hc.status_, hc.own, hc.head, hc.fault, hc.rest⟩,
        (Dev.keeps_of_regs (Dev.sameRegs.trans (e := d.atC c) ⟨rfl, rfl, rfl⟩ hsame) _).trans (hdev ▸ hkeep rfl)⟩
    · rw [if_pos hlong] at heq
      obtain ⟨hotp, hdev, hc⟩ := hdone 1 (by decide)
      obtain ⟨-, hout, -⟩ := hdn 1
      refine ⟨_, exec_hostFrameTransmit hrun, ?_⟩
      rw [heq]
      exact ⟨hotp, rfl, (congrArg Dev.out hdev).trans hout, hc.status_, hc.own, hc.head, hc.fault, hc.rest⟩
    · rw [if_neg (show ¬d.macMaxlen p < le desc 8 2 + 4 by omega), if_pos (show d.hostLinkDown p = true by
        rw [Dev.hostLinkDown, hlink, bne_iff_ne.mpr h3]; rfl)] at heq
      obtain ⟨hotp, hdev, hc⟩ := hdone 2 (by decide)
      obtain ⟨-, hout, -⟩ := hdn 2
      refine ⟨_, exec_hostFrameTransmit hrun, ?_⟩
      rw [heq]
      exact ⟨hotp, rfl, (congrArg Dev.out hdev).trans hout, hc.status_, hc.own, hc.head, hc.fault, hc.rest⟩
    · have hbusy' : (d.atC c).lineFree p = false := by
        rw [← Bool.not_eq_true]
        exact fun hc => hbusy ⟨hlink, lineFree_iff.mp hc⟩
      rw [if_neg (show ¬d.macMaxlen p < le desc 8 2 + 4 by omega), if_neg (by rw [hostLinkDown_eq_false.mpr hlink]; decide), if_pos (by rw [hbusy']; rfl)] at heq
      rw [exec_hostFrameTransmit hrun, heq]
      rfl
  · obtain ⟨hout, hstops, hflag, hkeep⟩ := Dev.ringStopped_leaves (d := d.atC c) (p := p) (by rw [show (d.atC c).mac = d.mac from rfl, hmac]; omega) q
    refine ⟨_, exec_hostFrameTransmit hrun, ?_⟩
    rw [hostTransmit_stops hp hen hmac hnone hq4 hstop hothers]
    exact ⟨⟨rfl, rfl, rfl⟩, hout, hstops ▸ List.mem_cons_self, hflag, hkeep⟩
  · subst h3
    rw [exec_collision hrun, collision_idle hown]
    rfl
  · subst h3
    have heq := collision_eq (bytes := bytes) (c := c) hen hhead hown
    obtain ⟨hcnt, hother, htries, hlen, hsame, hinst⟩ := d.collided_leaves c hmac
    refine ⟨fun hshort hfew => ?_, fun hshort hmany => ?_, fun hlate => ?_⟩
    · rw [if_neg (by omega), if_neg (show ¬16 ≤ ((z.sys.onDev (fun d => d.collided c)).dev.macP 3).tries by
        rw [show ((z.sys.onDev (fun d => d.collided c)).dev.macP 3).tries = (d.macP 3).tries + 1 from htries]; omega)] at heq
      obtain ⟨hmac', hwait, hw, hs⟩ := (d.collided c).backoffStart_leaves ((d.collided c).macP 3).tries
      rw [show (z.sys.onDev (fun d => d.collided c)).onDev (fun d => d.backoffStart (d.macP 3).tries) =
        { z.sys with dev := (d.collided c).backoffStart ((d.collided c).macP 3).tries } from rfl] at heq
      generalize (d.collided c).backoffStart ((d.collided c).macP 3).tries = e at *
      refine ⟨_, exec_collision hrun, ?_⟩
      rw [heq]
      rw [htries, hinst] at hwait
      exact ⟨⟨rfl, rfl, rfl⟩, hmac'.trans htries, hwait, (hw _).trans hcnt, Dev.keeps_of_regs (hsame.trans hs) _⟩
    · rw [if_neg (by omega), if_pos (show 16 ≤ ((z.sys.onDev (fun d => d.collided c)).dev.macP 3).tries by
        rw [show ((z.sys.onDev (fun d => d.collided c)).dev.macP 3).tries = (d.macP 3).tries + 1 from htries]; omega)] at heq
      let s1 : Sys := { z.sys with dev := (d.collided c).macCount 3 19 1 }
      have hk : d.keeps s1.dev (macFaults 3) := Dev.keeps_of_regs (hsame.trans ⟨rfl, rfl, rfl⟩) _
      have hhead1 : s1.txHead 3 0 = some (a, desc) := (txHead_congr (s := z.sys) (t := s1) hp rfl hk (by decide)).trans hhead
      obtain ⟨hotp, hdev, hc⟩ := txComplete_leaves (s := s1) (status := 3) hp (by decide) hinv hk hhead1 (by decide)
        ((Dev.w64_macCount_ne (d.collided c) 3 1 (show 12 ≠ 19 by decide)).trans (hother 12 (by decide)))
      obtain ⟨-, -, -, -, ht, hw, -⟩ := s1.dev.txDone_leaves 3 hp (by decide) (txHead_eq_some hhead1).2.2
      have h19 : s1.dev.w64 (R.macCnt 13 19) = (d.w64 (R.macCnt 13 19) + 1) % 2 ^ 64 := by
        rw [← hother 19 (by decide)]
        exact Dev.w64_macCount (d.collided c) 3 19 1
      refine ⟨_, exec_collision hrun, ?_⟩
      rw [heq]
      exact ⟨hotp, rfl, ⟨hc.status_, hc.own, hc.head, hc.fault, hc.rest⟩, hdev ▸ ht (by rw [show s1.dev.mac = (d.collided c).mac from rfl, hlen]; decide),
        hdev ▸ (hw 19 (by decide)).trans h19⟩
    · rw [if_pos hlate] at heq
      let x := (d.collided c).macCount 3 18 1
      have hx : d.sameRegs x ∧ x.mac = (d.collided c).mac := ⟨hsame.trans ⟨rfl, rfl, rfl⟩, rfl⟩
      have hx18 : x.w64 (R.macCnt 13 18) = (d.w64 (R.macCnt 13 18) + 1) % 2 ^ 64 := by
        rw [← hother 18 (by decide)]
        exact Dev.w64_macCount (d.collided c) 3 18 1
      have hx12 : x.w64 (R.macCnt 13 12) = d.w64 (R.macCnt 13 12) := (Dev.w64_macCount_ne (d.collided c) 3 1 (show 12 ≠ 18 by decide)).trans (hother 12 (by decide))
      rw [show (z.sys.onDev (fun d => d.collided c)).onDev (fun d => (d.macCount 3 18 1).raise Blk.mact Src.mactLateColl (d.rf (R.macTxhead 13 0) 0 12) 0 0) =
        { z.sys with dev := x.raise Blk.mact Src.mactLateColl ((d.collided c).rf (R.macTxhead 13 0) 0 12) 0 0 } from rfl] at heq
      clear_value x
      generalize (d.collided c).rf (R.macTxhead 13 0) 0 12 = n at heq
      let s1 : Sys := { z.sys with dev := x.raise Blk.mact Src.mactLateColl n 0 0 }
      have hk : d.keeps s1.dev (macFaults 3) := (Dev.keeps_of_regs hx.1 _).trans (Dev.keeps_raise _ _ _ _ _ _ (by decide) (by decide))
      have hhead1 : s1.txHead 3 0 = some (a, desc) := (txHead_congr (s := z.sys) (t := s1) hp rfl hk (by decide)).trans hhead
      obtain ⟨hotp, hdev, hc⟩ := txComplete_leaves (s := s1) (status := 4) hp (by decide) hinv hk hhead1 (by decide) ((Dev.w64_raise ..).trans hx12)
      obtain ⟨-, -, -, -, ht, hw, hf⟩ := s1.dev.txDone_leaves 4 hp (by decide) (txHead_eq_some hhead1).2.2
      refine ⟨_, exec_collision hrun, ?_⟩
      rw [heq]
      exact ⟨hotp, rfl, ⟨hc.status_, hc.own, hc.head, hc.fault, hc.rest⟩, hdev ▸ ht (by rw [Dev.raise_mac, hx.2, hlen]; decide),
        hdev ▸ (hw 18 (by decide)).trans ((Dev.w64_raise ..).trans hx18), hdev ▸ hf _ (by decide) (Dev.flag_raise _ _ _ _ _ _ (by decide))⟩

end Sys2Proof.Machine

/-!
PROOFS. The amplifier modulators: the frame of what their rows move, and the rows of one channel.
-/
namespace Sys2Proof.Machine

/-! ## The frame -/

/-- The device with other modulators and sense lanes. -/
def Dev.withMod (d : Dev) (m : Mod) (s : List SnsLane) : Dev :=
  { d with
    mod := m
    sns := s }

theorem Dev.marks.withMod {d e : Dev} {l w : List Nat} (h : d.marks e l w) (m : Mod) (s : List SnsLane) : (d.withMod m s).marks (e.withMod m s) l w := by
  obtain ⟨⟨_, _, _, _, _, _, _, _, rfl⟩, hk, hw⟩ := h
  exact ⟨⟨_, _, _, _, _, _, _, _, rfl⟩, hk, hw⟩

theorem Dev.marks.mod {d e : Dev} {l w : List Nat} (h : d.marks e l w) : e.mod = d.mod := by
  obtain ⟨⟨_, _, _, _, _, _, _, _, rfl⟩, -, -⟩ := h
  rfl

theorem Dev.marks.sns {d e : Dev} {l w : List Nat} (h : d.marks e l w) : e.sns = d.sns := by
  obtain ⟨⟨_, _, _, _, _, _, _, _, rfl⟩, -, -⟩ := h
  rfl

theorem Dev.marks.modC {d e : Dev} {l w : List Nat} (h : d.marks e l w) (k : Nat) : e.modC k = d.modC k := by rw [Dev.modC, h.mod, Dev.modC]

theorem Dev.marks.modG {d e : Dev} {l w : List Nat} (h : d.marks e l w) (g : Nat) : e.modG g = d.modG g := by rw [Dev.modG, h.mod, Dev.modG]

theorem Dev.marks.snsL {d e : Dev} {l w : List Nat} (h : d.marks e l w) (g : Nat) : e.snsL g = d.snsL g := by rw [Dev.snsL, h.sns, Dev.snsL]

/-- The fault registers of the modulators and of the sense lanes. -/
def modFlts : List Nat := [R.fltstat Blk.mod, R.fltfirst Blk.mod]
/-- The fault registers of the sense lanes. -/
def snsFlts : List Nat := [R.fltstat Blk.sns, R.fltfirst Blk.sns]

/-- From `d` to `e` the modulators, the sense lanes, and of the rest the registers of `l`, the counters of `w` and what faults change alone may differ; no
flag of the modulators or of the sense lanes falls. -/
def Dev.plays (d e : Dev) (l w : List Nat) : Prop :=
  (d.withMod e.mod e.sns).marks e l w ∧ ∀ b, b = Blk.mod ∨ b = Blk.sns → ∀ s, s < 32 → d.flag b s → e.flag b s

namespace Dev.plays

variable {l w : List Nat}

theorem refl (d : Dev) : d.plays d l w := ⟨.refl d, fun _ _ _ _ h => h⟩

theorem trans {d e g : Dev} (h : d.plays e l w) (k : e.plays g l w) : d.plays g l w :=
  ⟨(h.1.withMod g.mod g.sns).trans k.1, fun b hb s hs hf => k.2 b hb s hs (h.2 b hb s hs hf)⟩

theorem mono {d e : Dev} {l' w' : List Nat} (h : d.plays e l w) (hl : l ⊆ l') (hw : w ⊆ w') : d.plays e l' w' := ⟨h.1.mono hl hw, h.2⟩

theorem of_marks {d e : Dev} (h : d.marks e l w) (hm : R.fltstat Blk.mod ∉ l) (hs : R.fltstat Blk.sns ∉ l) : d.plays e l w := by
  refine ⟨?_, ?_⟩
  · rw [h.mod, h.sns]
    exact h
  · rintro b (rfl | rfl) s - hf
    · exact (h.flag hm).mpr hf
    · exact (h.flag hs).mpr hf

theorem setReg (d : Dev) {o : Nat} (x : Nat) (ho : o ∈ l) (hm : R.fltstat Blk.mod ≠ o) (hs : R.fltstat Blk.sns ≠ o) : d.plays (d.setReg o x) l w :=
  (of_marks (.setReg (l := [o]) d x (List.mem_singleton_self o)) (by simp [hm]) (by simp [hs])).mono (by simp [ho]) (List.nil_subset w)

theorem setFld (d : Dev) {o : Nat} (lo n x : Nat) (ho : o ∈ l) (hm : R.fltstat Blk.mod ≠ o) (hs : R.fltstat Blk.sns ≠ o) : d.plays (d.setFld o lo n x) l w :=
  (of_marks (.setFld (l := [o]) d lo n x (List.mem_singleton_self o)) (by simp [hm]) (by simp [hs])).mono (by simp [ho]) (List.nil_subset w)

theorem bump (d : Dev) {o : Nat} (n : Nat) (ho : o ∈ w) : d.plays (d.bump o n) l w :=
  (of_marks (.bump (l := []) d n ho) (List.not_mem_nil) (List.not_mem_nil)).mono (List.nil_subset l) (List.Subset.refl w)

theorem raiseF (d : Dev) {b : Nat} (src : Nat) (forced : Bool) (d0 d1 d2 : Nat) (hb : b = Blk.mod ∨ b = Blk.sns) (h1 : R.fltstat b ∈ l) (h2 : R.fltfirst b ∈ l) :
    d.plays (d.raiseF b src forced d0 d1 d2) l w := by
  have hm : d.marks (d.raiseF b src forced d0 d1 d2) [R.fltstat b, R.fltfirst b] [] := .raiseF d _ _ _ _ _ _ (by simp) (by simp)
  refine ⟨?_, fun b' hb' s hs hf => ?_⟩
  · rw [hm.mod, hm.sns]
    exact hm.mono (by simp [h1, h2]) (List.nil_subset w)
  · by_cases he : b' = b
    · subst he
      exact d.flag_stays_raiseF src forced d0 d1 d2 hs hf
    · refine (hm.flag ?_).mpr hf
      rcases hb with rfl | rfl
      · rw [hb'.resolve_left he]
        decide
      · rw [hb'.resolve_right he]
        decide

theorem raise (d : Dev) {b : Nat} (src d0 d1 d2 : Nat) (hb : b = Blk.mod ∨ b = Blk.sns) (h1 : R.fltstat b ∈ l) (h2 : R.fltfirst b ∈ l) :
    d.plays (d.raise b src d0 d1 d2) l w := raiseF d src false d0 d1 d2 hb h1 h2

theorem onCh (d : Dev) (c : Nat) (f : ModCh → ModCh) : d.plays (d.onCh c f) l w := ⟨.refl _, fun _ _ _ _ h => h⟩

theorem onGrp (d : Dev) (g : Nat) (f : ModGrp → ModGrp) : d.plays (d.onGrp g f) l w := ⟨.refl _, fun _ _ _ _ h => h⟩

theorem onSns (d : Dev) (g : Nat) (f : SnsLane → SnsLane) : d.plays (d.onSns g f) l w := ⟨.refl _, fun _ _ _ _ h => h⟩

theorem ite {d e g : Dev} {p : Prop} [Decidable p] (he : p → d.plays e l w) (hg : ¬p → d.plays g l w) : d.plays (if p then e else g) l w := by
  split
  · exact he ‹_›
  · exact hg ‹_›

theorem foldl {α : Type} (f : Dev → α → Dev) (xs : List α) (hf : ∀ x ∈ xs, ∀ d : Dev, d.plays (f d x) l w) (d : Dev) : d.plays (xs.foldl f d) l w := by
  induction xs generalizing d with
  | nil => exact refl d
  | cons x xs ih => exact (hf x List.mem_cons_self d).trans (ih (fun y hy => hf y (List.mem_cons_of_mem _ hy)) _)

section
variable {d e : Dev} (h : d.plays e l w)
include h

theorem keeps : d.keeps e l := h.1.keeps
theorem reg {o : Nat} (ho : o ∉ l) : e.reg o = d.reg o := h.1.reg (o := o) ho
theorem lv {o : Nat} (ho : o ∉ l) : e.lv o = d.lv o := h.1.lv (o := o) ho
theorem lf {o : Nat} (lo n : Nat) (ho : o ∉ l) : e.lf o lo n = d.lf o lo n := by rw [Dev.lf, h.lv ho, Dev.lf]
theorem w64 {o : Nat} (ho : o ∉ w) : e.w64 o = d.w64 o := h.1.w64 (o := o) ho
theorem tick : e.tick = d.tick := h.1.tick
theorem flag {b s : Nat} (hb : b = Blk.mod ∨ b = Blk.sns) (hs : s < 32) (hf : d.flag b s) : e.flag b s := h.2 b hb s hs hf

end

end Dev.plays

/-! ## Channels and groups -/

theorem Dev.modC_onCh_same (d : Dev) {c : Nat} (f : ModCh → ModCh) (hc : c < d.mod.ch.length) : (d.onCh c f).modC c = f (d.modC c) :=
  (d.modC_onCh f hc c).trans (if_pos rfl)

theorem Dev.modC_onCh_ne (d : Dev) {c k : Nat} (f : ModCh → ModCh) (hk : k ≠ c) : (d.onCh c f).modC k = d.modC k := by
  rw [Dev.modC, Dev.modC]
  exact (getD_updAt _ _ _ _ _).trans (if_neg (fun h => hk h.1.symm))

theorem Dev.modG_onGrp (d : Dev) {g : Nat} (f : ModGrp → ModGrp) (hg : g < d.mod.grp.length) : (d.onGrp g f).modG g = f (d.modG g) := by
  rw [Dev.modG, Dev.modG]
  exact (getD_updAt _ _ _ _ _).trans (if_pos ⟨rfl, hg⟩)

theorem Dev.modG_onGrp_ne (d : Dev) {g k : Nat} (f : ModGrp → ModGrp) (hk : k ≠ g) : (d.onGrp g f).modG k = d.modG k := by
  rw [Dev.modG, Dev.modG]
  exact (getD_updAt _ _ _ _ _).trans (if_neg (fun h => hk h.1.symm))

theorem mem_chansOf {g k : Nat} : k ∈ chansOf g ↔ k / 8 = g := by
  simp only [chansOf, rangeFrom, List.mem_map, List.mem_range]
  constructor
  · rintro ⟨a, ha, rfl⟩
    omega
  · intro h
    exact ⟨k % 8, by omega, by omega⟩

theorem nodup_chansOf (g : Nat) : (chansOf g).Nodup := List.nodup_range.map (fun _ _ h => Nat.add_left_cancel h)

theorem lt_of_mem_chansOf {g k : Nat} (hg : g < 6) (h : k ∈ chansOf g) : k < 48 := by
  have := mem_chansOf.mp h
  omega

/-- A pass over channels that changes each by `F` leaves the channels it does not visit. -/
theorem channels_foldl {σ : Type} (dev : σ → Dev) (step : σ → Nat → σ) (F : Nat → ModCh → ModCh) (I : σ → Prop)
    (hstep : ∀ a c, I a → c < 48 → I (step a c) ∧ (dev (step a c)).modC c = F c ((dev a).modC c) ∧ ∀ k, k ≠ c → (dev (step a c)).modC k = (dev a).modC k)
    (xs : List Nat) (hx : ∀ c ∈ xs, c < 48) (hn : xs.Nodup) (a : σ) (ha : I a) :
    I (xs.foldl step a) ∧ ∀ k, (dev (xs.foldl step a)).modC k = if k ∈ xs then F k ((dev a).modC k) else (dev a).modC k := by
  induction xs generalizing a with
  | nil => exact ⟨ha, fun k => rfl⟩
  | cons c xs ih =>
    obtain ⟨hI, hc, hne⟩ := hstep a c ha (hx c List.mem_cons_self)
    obtain ⟨hout, hn'⟩ := List.nodup_cons.mp hn
    obtain ⟨hI', hk⟩ := ih (fun y hy => hx y (List.mem_cons_of_mem _ hy)) hn' _ hI
    refine ⟨hI', fun k => (hk k).trans ?_⟩
    by_cases hkc : k = c
    · subst hkc
      rw [if_neg hout, hc, if_pos List.mem_cons_self]
    · rw [hne k hkc]
      simp only [List.mem_cons, hkc, false_or]

/-- A pass over channels of the device itself, each changed by `F`. -/
theorem channels_onCh (F : ModCh → ModCh) (step : Dev → Nat → Dev) (hstep : ∀ (d : Dev) c, step d c = d.onCh c F) (xs : List Nat) (hx : ∀ c ∈ xs, c < 48)
    (hn : xs.Nodup) (d : Dev) (hlen : d.mod.ch.length = 48) :
    ∀ k, (xs.foldl step d).modC k = if k ∈ xs then F (d.modC k) else d.modC k := by
  refine (channels_foldl id step (fun _ => F) (fun e => e.mod.ch.length = 48) (fun e c he hc => ?_) xs hx hn d hlen).2
  rw [hstep]
  exact ⟨(length_updAt _ _ _).trans he, e.modC_onCh_same F (hc.trans_eq he.symm), fun k hk => e.modC_onCh_ne F hk⟩

theorem modChstat_ne (ch : Nat) (h : ch < 48) : R.fltstat Blk.mod ≠ R.modChstat ch ∧ R.fltstat Blk.sns ≠ R.modChstat ch := by
  have hm : R.fltstat Blk.mod = 0x120800 := rfl
  have hs : R.fltstat Blk.sns = 0x130080 := rfl
  rw [hm, hs, R.modChstat]
  omega

theorem Dev.chStat_marks (d : Dev) (c : Nat) : d.marks (d.chStat c) [R.modChstat c] [] := .setReg d _ (by simp)

theorem Dev.chStat_plays (d : Dev) {c : Nat} (hc : c < 48) {l w : List Nat} (hl : R.modChstat c ∈ l) : d.plays (d.chStat c) l w :=
  .setReg d _ hl (modChstat_ne c hc).1 (modChstat_ne c hc).2

/-! ## A carrier period (R269, R270) -/

/-- Channel `x` as period `j` starts at step `beg` of a tick of parity `par`. -/
def ModCh.periodAt (x : ModCh) (j par beg : Nat) : ModCh :=
  let h := if x.st = 6 then 2560 else x.duty.getD j 2560
  let run := if x.limited then x.run else 0
  { x with
    per := j
    perPar := par
    beg := beg
    run := run
    runAt := if j = 0 then updAt x.runAt par (fun _ => run) else x.runAt
    limited := false
    force := none
    flags := updAt x.flags par (fun fl => updAt fl j (fun _ => false))
    pulse := if x.st = 4 ∨ x.st = 5 ∨ x.st = 0 then none else some ((5120 - h) / 2, (5120 - h) / 2 + h) }

section
variable (d : Dev) {ch j c : Nat}

theorem Dev.carrierPeriod_off (h : 48 ≤ ch ∨ 4 ≤ j ∨ c ≠ d.periodStart ch j / 2) : d.carrierPeriod ch j c = d.atC c := if_pos h

variable (hch : ch < 48) (hj : j < 4) (hc : c = d.periodStart ch j / 2) (hlen : d.mod.ch.length = 48)
include hch hj hc hlen

theorem Dev.carrierPeriod_rests (hon : (d.modLive && !d.mod.shut && d.mod.join == 0 && (d.modG (ch / 8)).run_ && !(d.modG (ch / 8)).drv) = false) :
    let e := d.carrierPeriod ch j c
    (e.modC ch).pulse = none ∧ (∀ k, k ≠ ch → e.modC k = d.modC k) ∧ d.keeps e [] := by
  have hcond : (!d.modLive || d.mod.shut || d.mod.join != 0 || !(d.modG (ch / 8)).run_ || (d.modG (ch / 8)).drv) = true := by
    rw [← Bool.not_eq_false', ← hon]
    simp [bne]
  have he : d.carrierPeriod ch j c = (d.atC c).onCh ch (fun x => { x with pulse := none, force := none, limited := false }) :=
    (if_neg (fun h => h.elim (by omega) (fun h => h.elim (by omega) (fun h => h hc)))).trans (if_pos hcond)
  rw [he]
  exact ⟨congrArg ModCh.pulse ((d.atC c).modC_onCh_same _ (hch.trans_eq hlen.symm)), fun k hk => (d.atC c).modC_onCh_ne _ hk,
    Dev.keeps_of_regs ⟨rfl, rfl, rfl⟩ _⟩

theorem Dev.carrierPeriod_starts (hon : (d.modLive && !d.mod.shut && d.mod.join == 0 && (d.modG (ch / 8)).run_ && !(d.modG (ch / 8)).drv) = true) :
    let e := d.carrierPeriod ch j c
    e.modC ch = (d.modC ch).periodAt j (d.tick % 2) (d.periodStart ch j) ∧ (∀ k, k ≠ ch → e.modC k = d.modC k) ∧ d.keeps e [R.modChstat ch] := by
  have hcond : ¬(!d.modLive || d.mod.shut || d.mod.join != 0 || !(d.modG (ch / 8)).run_ || (d.modG (ch / 8)).drv) = true := by
    rw [Bool.not_eq_true, ← Bool.not_eq_true', ← hon]
    simp [bne]
  obtain ⟨f, he, hf⟩ : ∃ f, d.carrierPeriod ch j c = ((d.atC c).onCh ch f).chStat ch ∧ f (d.modC ch) = (d.modC ch).periodAt j (d.tick % 2) (d.periodStart ch j) :=
    ⟨_, (if_neg (fun h => h.elim (by omega) (fun h => h.elim (by omega) (fun h => h hc)))).trans (if_neg hcond), rfl⟩
  have hstat := Dev.chStat_marks ((d.atC c).onCh ch f) ch
  rw [he]
  exact ⟨(hstat.modC ch).trans (((d.atC c).modC_onCh_same f (hch.trans_eq hlen.symm)).trans hf),
    fun k hk => (hstat.modC k).trans ((d.atC c).modC_onCh_ne f hk), hstat.keeps⟩

end

end Sys2Proof.Machine

/-!
PROOFS. The amplifier modulators: latch, retry and sense mute of a channel, the enables and faults of a group.
-/
namespace Sys2Proof.Machine

/-! ## The bits of GRPSTAT -/

/-- One bit per group, from the groups' own states. -/
def Dev.grpBits (d : Dev) (f : ModGrp → Bool) : Nat := d.mod.grp.zipIdx.foldl (fun acc x => bitSet acc x.2 (f x.1)) 0

theorem bit_bitSet_ne (v : Nat) {i k : Nat} (b : Bool) (h : k ≠ i) : bit (bitSet v i b) k = bit v k := by
  rw [bit_eq_fld, bit_eq_fld, fld_bitSet_ne _ _ _ _ _ (by omega)]

theorem bit_foldl_bitSet (f : ModGrp → Bool) (l : List ModGrp) (n v k : Nat) : bit ((l.zipIdx n).foldl (fun acc x => bitSet acc x.2 (f x.1)) v) k =
    if n ≤ k ∧ k < n + l.length then f (l.getD (k - n) {}) else bit v k := by
  induction l generalizing n v with
  | nil => exact (if_neg (fun h => by simp at h; omega)).symm
  | cons x t ih =>
    rw [List.zipIdx_cons, List.foldl_cons, ih]
    by_cases hk : k = n
    · subst hk
      rw [if_neg (by omega), bit_bitSet_same, if_pos ⟨le_refl k, by simp⟩, Nat.sub_self]
      rfl
    · rw [bit_bitSet_ne v _ hk]
      by_cases hin : n + 1 ≤ k ∧ k < n + 1 + t.length
      · rw [if_pos hin, if_pos (by simp; omega), show k - n = (k - (n + 1)) + 1 by omega]
        rfl
      · rw [if_neg hin, if_neg (by simp; omega)]

theorem bit_field (v i : Nat) {g : Nat} (hg : g < 6) : bit v (i + g) = bit (v / 2 ^ i % 2 ^ 6) g := by
  rw [bit_eq_testBit, bit_eq_testBit, Nat.testBit_mod_two_pow, Nat.testBit_div_two_pow, decide_eq_true hg, Bool.true_and, Nat.add_comm]

theorem Dev.bit_grpBits (d : Dev) (f : ModGrp → Bool) (hlen : d.mod.grp.length = 6) (k : Nat) : bit (d.grpBits f) k = (decide (k < 6) && f (d.modG k)) := by
  rw [Dev.grpBits, bit_foldl_bitSet, Nat.sub_zero, hlen]
  by_cases hk : k < 6
  · rw [if_pos ⟨Nat.zero_le k, by omega⟩, decide_eq_true hk]
    rfl
  · rw [if_neg (by omega), decide_eq_false hk]
    simp [bit]

theorem Dev.grpBits_lt (d : Dev) (f : ModGrp → Bool) (hlen : d.mod.grp.length = 6) : d.grpBits f < 2 ^ 6 := by
  refine Nat.lt_pow_two_of_testBit _ (fun k hk => ?_)
  rw [← bit_eq_testBit, d.bit_grpBits f hlen, decide_eq_false (by omega)]
  rfl

theorem Dev.reg_grpStat (d : Dev) (hlen : d.mod.grp.length = 6) : d.grpStat.reg R.modGrpstat =
    d.grpBits (fun g => g.amp) + 2 ^ 8 * d.grpBits (fun g => g.run_) + 2 ^ 16 * d.grpBits (fun g => g.drv) + 2 ^ 24 * b2n d.mod.shut := by
  have ha := d.grpBits_lt (fun g => g.amp) hlen
  have hr := d.grpBits_lt (fun g => g.run_) hlen
  have hd := d.grpBits_lt (fun g => g.drv) hlen
  have hs : b2n d.mod.shut ≤ 1 := by cases d.mod.shut <;> decide
  exact (Dev.reg_setReg d R.modGrpstat _).trans (Nat.mod_eq_of_lt (by simp only [Dev.grpBits] at *; omega))

/-- The fields of GRPSTAT, and what else GRPSTAT and the channels' status leave. -/
theorem Dev.grpStat_leaves (d : Dev) (hlen : d.mod.grp.length = 6) : let e := d.grpStat.chStats
    d.plays e (R.modGrpstat :: (List.range 48).map R.modChstat) [] ∧ e.mod = d.mod ∧
      ∀ g, g < 6 → bit (e.reg R.modGrpstat) g = (d.modG g).amp ∧ bit (e.reg R.modGrpstat) (8 + g) = (d.modG g).run_ ∧
        bit (e.reg R.modGrpstat) (16 + g) = (d.modG g).drv := by
  have hch : d.grpStat.marks d.grpStat.chStats ((List.range 48).map R.modChstat) [] :=
    .forN 48 _ (fun k hk e => .setReg e _ (List.mem_map_of_mem (List.mem_range.mpr hk))) _
  have hgrp : d.marks d.grpStat [R.modGrpstat] [] := .setReg d _ (by simp)
  have hall := (hgrp.mono (l' := R.modGrpstat :: (List.range 48).map R.modChstat) (by simp) (List.Subset.refl _)).trans
    (hch.mono (List.subset_cons_self _ _) (List.Subset.refl _))
  refine ⟨.of_marks hall (by decide) (by decide), hall.mod, fun g hg => ?_⟩
  rw [hch.reg (by decide), d.reg_grpStat hlen]
  have ha := d.grpBits_lt (fun g => g.amp) hlen
  have hr := d.grpBits_lt (fun g => g.run_) hlen
  have hd := d.grpBits_lt (fun g => g.drv) hlen
  have hba := d.bit_grpBits (fun g => g.amp) hlen g
  have hbr := d.bit_grpBits (fun g => g.run_) hlen g
  have hbd := d.bit_grpBits (fun g => g.drv) hlen g
  rw [decide_eq_true hg, Bool.true_and] at hba hbr hbd
  rw [← hba, ← hbr, ← hbd]
  generalize d.grpBits (fun g => g.amp) = a at *
  generalize d.grpBits (fun g => g.run_) = r at *
  generalize d.grpBits (fun g => g.drv) = v at *
  generalize b2n d.mod.shut = s
  refine ⟨(congrArg (bit _) (Nat.zero_add g).symm).trans ?_, ?_, ?_⟩
  · rw [bit_field _ _ hg, show (a + 2 ^ 8 * r + 2 ^ 16 * v + 2 ^ 24 * s) / 2 ^ 0 % 2 ^ 6 = a by omega]
  · rw [bit_field _ _ hg, show (a + 2 ^ 8 * r + 2 ^ 16 * v + 2 ^ 24 * s) / 2 ^ 8 % 2 ^ 6 = r by omega]
  · rw [bit_field _ _ hg, show (a + 2 ^ 8 * r + 2 ^ 16 * v + 2 ^ 24 * s) / 2 ^ 16 % 2 ^ 6 = v by omega]

/-! ## Latch, mute and retry (R280, R281) -/

/-- Channel `x` latched in tick `tick`, to wait for a retry or not. -/
def ModCh.latched (x : ModCh) (again : Bool) (at_ : Nat) : ModCh :=
  { x with
    st := if again then 5 else 4
    pulse := none
    force := none
    limited := false
    next := [2560, 2560, 2560, 2560]
    core := { x.core with
      sec := List.replicate 8 0
      rem := 0
      ramp := none
      retryAt := at_ } }

/-- The events of a latch. -/
def Dev.latchNoted (d : Dev) (ch per retries : Nat) (again forced : Bool) : Dev :=
  let d2 := (d.bump (R.modCnt 1) 1).raiseF Blk.mod Src.modShortLatch forced ch d.tickLo per
  (if again then d2 else d2.raiseF Blk.mod Src.modRetryExhausted forced ch retries d.tickLo).chStat ch

section
variable (d : Dev) {ch : Nat} (hch : ch < 48)
include hch

theorem Dev.latchNoted_leaves (per retries : Nat) (again forced : Bool) : let e := d.latchNoted ch per retries again forced
    d.marks e (R.modChstat ch :: modFlts) [R.modCnt 1] ∧ d.counts e (R.modCnt 1) 1 ∧ e.flag Blk.mod Src.modShortLatch ∧
      (again = false → e.flag Blk.mod Src.modRetryExhausted) := by
  let d2 := (d.bump (R.modCnt 1) 1).raiseF Blk.mod Src.modShortLatch forced ch d.tickLo per
  have h2 : d.marks d2 (R.modChstat ch :: modFlts) [R.modCnt 1] := (Dev.marks.bump d 1 (by simp)).trans (.raiseF _ _ _ _ _ _ _ (by simp [modFlts]) (by simp [modFlts]))
  have hcnt : d.counts d2 (R.modCnt 1) 1 := (Dev.w64_raiseF ..).trans (Dev.w64_bump ..)
  have hflag : d2.flag Blk.mod Src.modShortLatch := Dev.flag_raiseF _ _ _ _ _ _ _ (by decide)
  have he : d.latchNoted ch per retries again forced =
      (if again then d2 else d2.raiseF Blk.mod Src.modRetryExhausted forced ch retries d.tickLo).chStat ch := rfl
  clear_value d2
  rw [he]
  have hstat (e : Dev) {s : Nat} (h : e.flag Blk.mod s) : (e.chStat ch).flag Blk.mod s :=
    ((Dev.chStat_marks e ch).flag (by simp [(modChstat_ne ch hch).1])).mpr h
  have hst (e : Dev) : e.marks (e.chStat ch) (R.modChstat ch :: modFlts) [R.modCnt 1] := (Dev.chStat_marks e ch).mono (by simp) (by simp)
  cases again with
  | true => exact ⟨h2.trans (hst _), hcnt, hstat _ hflag, fun h => absurd h (by decide)⟩
  | false =>
    refine ⟨(h2.trans (.raiseF _ _ _ _ _ _ _ (by simp [modFlts]) (by simp [modFlts]))).trans (hst _), (Dev.w64_raiseF ..).trans hcnt,
      hstat _ (Dev.flag_stays_raiseF _ _ _ _ _ _ (by decide) hflag), fun _ => hstat _ (Dev.flag_raiseF _ _ _ _ _ _ _ (by decide))⟩

variable (hlen : d.mod.ch.length = 48)
include hlen

theorem Dev.shortLatch_latches {j c : Nat} (hst : (d.modC ch).st = 1) (hrun : d.latchN ≤ (d.modC ch).run) (hj : j < 4) (hc : c = d.periodStart ch j / 2) :
    let e := d.shortLatch ch c
    let again := decide ((d.modC ch).core.retries < d.retryMax)
    e.modC ch = (d.modC ch).latched again (d.tick + d.retryT) ∧ (∀ k, k ≠ ch → e.modC k = d.modC k) ∧ d.keeps e (R.modChstat ch :: modFlts) ∧
      d.counts e (R.modCnt 1) 1 ∧ e.flag Blk.mod Src.modShortLatch ∧ (again = false → e.flag Blk.mod Src.modRetryExhausted) := by
  intro e again
  obtain ⟨per, hper⟩ : ∃ per, (List.range 4).find? (fun j => c == (d.atC c).periodStart ch j / 2) = some per := by
    rw [← Option.isSome_iff_exists, List.find?_isSome]
    exact ⟨j, List.mem_range.mpr hj, beq_iff_eq.mpr hc⟩
  obtain ⟨f, he, hf⟩ : ∃ f, e = ((d.atC c).onCh ch f).latchNoted ch per (d.modC ch).core.retries again (d.ocForce ch) ∧
      f (d.modC ch) = (d.modC ch).latched again (d.tick + d.retryT) := by
    simp only [show e = d.shortLatch ch c from rfl, Dev.shortLatch, hper]
    exact ⟨_, if_pos ⟨hst, hrun⟩, rfl⟩
  obtain ⟨hm, hcnt, hflag, hex⟩ := ((d.atC c).onCh ch f).latchNoted_leaves hch per (d.modC ch).core.retries again (d.ocForce ch)
  rw [he]
  exact ⟨(hm.modC ch).trans (((d.atC c).modC_onCh_same f (hch.trans_eq hlen.symm)).trans hf), fun k hk => (hm.modC k).trans ((d.atC c).modC_onCh_ne f hk),
    hm.keeps, hcnt, hflag, hex⟩

omit hch hlen in
theorem Dev.shortLatch_off {c : Nat} (h : (d.modC ch).st ≠ 1 ∨ (d.modC ch).run < d.latchN ∨ ∀ j, j < 4 → c ≠ d.periodStart ch j / 2) :
    d.shortLatch ch c = d.atC c := by
  rw [Dev.shortLatch]
  cases hper : (List.range 4).find? (fun j => c == (d.atC c).periodStart ch j / 2) with
  | none => rfl
  | some per =>
    have hat := List.find?_some hper
    have hlt := List.mem_range.mp (List.mem_of_find?_eq_some hper)
    refine if_neg (fun hcond => ?_)
    obtain ⟨hst, hrun⟩ := hcond
    exact h.elim (fun h => h hst) (fun h => h.elim (fun h => absurd hrun (Nat.not_le.mpr h)) (fun h => h per hlt (beq_iff_eq.mp hat)))

end

/-- The running channels of a group are muted, and no others (R281). -/
theorem Dev.senseMute_leaves (d : Dev) {g : Nat} (hg : g < 6) (hlen : d.mod.ch.length = 48) : let e := d.senseMute g
    d.plays e modFlts [] ∧
      (∀ k, e.modC k = if k / 8 = g ∧ (d.modC k).st = 1 then { d.modC k with st := 6, limited := false } else d.modC k) ∧
      (∀ k, k / 8 = g → (d.modC k).st = 1 → e.flag Blk.mod Src.modSenseMute) := by
  intro e
  let hit := (chansOf g).filter (fun c => (d.modC c).st == 1)
  have hmem (k : Nat) : k ∈ hit ↔ k / 8 = g ∧ (d.modC k).st = 1 := by
    rw [List.mem_filter, mem_chansOf, beq_iff_eq]
  have he : e = if hit = [] then d
      else (hit.foldl (fun d c => d.onCh c (fun x => { x with st := 6, limited := false })) d).raise Blk.mod Src.modSenseMute g d.tickLo 0 := rfl
  rw [he]
  by_cases hnil : hit = []
  · rw [if_pos hnil]
    have hno (k : Nat) : ¬(k / 8 = g ∧ (d.modC k).st = 1) := fun h => by simpa [hnil] using (hmem k).mpr h
    exact ⟨.refl d, fun k => (if_neg (hno k)).symm, fun k hk hst => absurd ⟨hk, hst⟩ (hno k)⟩
  · rw [if_neg hnil]
    have hch := channels_onCh (fun x => { x with st := 6, limited := false }) (fun d c => d.onCh c (fun x => { x with st := 6, limited := false })) (fun _ _ => rfl) hit
      (fun c hc => lt_of_mem_chansOf hg (List.mem_of_mem_filter hc)) ((nodup_chansOf g).filter _) d hlen
    have hfold : d.plays (hit.foldl (fun d c => d.onCh c (fun x => { x with st := 6, limited := false })) d) modFlts [] := .foldl _ _ (fun c _ d => .onCh d c _) d
    generalize hit.foldl (fun d c => d.onCh c (fun x => { x with st := 6, limited := false })) d = d1 at *
    have hr : d1.marks (d1.raise Blk.mod Src.modSenseMute g d.tickLo 0) modFlts [] := .raise _ _ _ _ _ _ (by decide) (by decide)
    refine ⟨hfold.trans (.raise _ _ _ _ _ (.inl rfl) (by decide) (by decide)), fun k => (hr.modC k).trans ((hch k).trans (if_congr (hmem k) rfl rfl)),
      fun _ _ _ => Dev.flag_raise _ _ _ _ _ _ (by decide)⟩

/-- Channel `x` as it restarts with `n` retries made and a ramp. -/
def ModCh.restarted (x : ModCh) (n : Nat) (r : Option Ramp) : ModCh :=
  { x with
    st := 1
    run := 0
    limited := false
    duty := [2560, 2560, 2560, 2560]
    core := { x.core with
      sec := List.replicate 8 0
      rem := 0
      retries := n
      ramp := r } }

/-- A channel is due for its retry (R280). -/
def Dev.retryDue (d : Dev) (ch : Nat) : Prop :=
  (d.modC ch).st = 5 ∧ (d.modC ch).core.retryAt ≤ d.tick ∧ (d.modG (ch / 8)).run_ = true ∧ (d.modG (ch / 8)).fell = none ∧ (d.modG (ch / 8)).drv = false ∧
    d.modLive = true

theorem Dev.retry_cond (d : Dev) (ch : Nat) : ((d.modC ch).st = 5 ∧ (d.modC ch).core.retryAt ≤ d.tick ∧
    ((d.modG (ch / 8)).run_ && (d.modG (ch / 8)).fell.isNone && !(d.modG (ch / 8)).drv && d.modLive) = true) ↔ d.retryDue ch := by
  simp [Dev.retryDue, and_assoc]

theorem Dev.retry_off (d : Dev) {ch : Nat} (h : ¬d.retryDue ch) : d.retry ch = d.atC 0 := if_neg (fun hc => h ((d.retry_cond ch).mp hc))

/-- The device with a channel restarted, before a mute. -/
def Dev.reran (d : Dev) (ch : Nat) : Dev := (d.atC 0).onCh ch (fun x => x.restarted ((d.modC ch).core.retries + 1) (d.chRamp (ch / 8)))

theorem Dev.retry_eq (d : Dev) {ch : Nat} (h : d.retryDue ch) : d.retry ch =
    (((d.reran ch).muteDown (ch / 8)).raiseF Blk.mod Src.modRetry (d.ocForce ch) ch ((d.modC ch).core.retries + 1) d.tickLo).chStat ch :=
  if_pos ((d.retry_cond ch).mpr h)

section
variable (d : Dev) {ch : Nat} (hch : ch < 48) (hlen : d.mod.ch.length = 48)
include hch

theorem Dev.retryNoted_leaves (retries : Nat) (forced : Bool) (t : Nat) : let e := (d.raiseF Blk.mod Src.modRetry forced ch retries t).chStat ch
    d.plays e (R.modChstat ch :: modFlts) [] ∧ e.mod = d.mod ∧ e.flag Blk.mod Src.modRetry := by
  have hr : d.marks (d.raiseF Blk.mod Src.modRetry forced ch retries t) modFlts [] := .raiseF _ _ _ _ _ _ _ (by decide) (by decide)
  have hflag : (d.raiseF Blk.mod Src.modRetry forced ch retries t).flag Blk.mod Src.modRetry := Dev.flag_raiseF _ _ _ _ _ _ _ (by decide)
  have hp : d.plays (d.raiseF Blk.mod Src.modRetry forced ch retries t) (R.modChstat ch :: modFlts) [] :=
    .raiseF _ _ _ _ _ _ (.inl rfl) (List.mem_cons_of_mem _ (by decide)) (List.mem_cons_of_mem _ (by decide))
  generalize d.raiseF Blk.mod Src.modRetry forced ch retries t = e at *
  have hst := Dev.chStat_marks e ch
  exact ⟨hp.trans (e.chStat_plays hch (by simp)), hst.mod.trans hr.mod, (hst.flag (by simp [(modChstat_ne ch hch).1])).mpr hflag⟩

include hlen

theorem Dev.reran_modC : (d.reran ch).modC ch = (d.modC ch).restarted ((d.modC ch).core.retries + 1) (d.chRamp (ch / 8)) ∧
    ∀ k, k ≠ ch → (d.reran ch).modC k = d.modC k :=
  ⟨(d.atC 0).modC_onCh_same _ (hch.trans_eq hlen.symm), fun _ hk => (d.atC 0).modC_onCh_ne _ hk⟩

/-- A retry with the lane not DOWN (R280). -/
theorem Dev.retry_runs (h : d.retryDue ch) (hup : (d.snsL (ch / 8)).run.state ≠ 4) : let e := d.retry ch
    e.modC ch = (d.modC ch).restarted ((d.modC ch).core.retries + 1) (d.chRamp (ch / 8)) ∧ (∀ k, k ≠ ch → e.modC k = d.modC k) ∧
      d.keeps e (R.modChstat ch :: modFlts) ∧ e.flag Blk.mod Src.modRetry := by
  have hmute : (d.reran ch).muteDown (ch / 8) = d.reran ch := if_neg hup
  obtain ⟨hsame, hne⟩ := d.reran_modC hch hlen
  obtain ⟨hp, hmod, hflag⟩ := (d.reran ch).retryNoted_leaves hch ((d.modC ch).core.retries + 1) (d.ocForce ch) d.tickLo
  rw [d.retry_eq h, hmute]
  refine ⟨?_, fun k hk => ?_, ?_, hflag⟩
  · rw [Dev.modC, hmod]
    exact hsame
  · rw [Dev.modC, hmod]
    exact hne k hk
  · exact Dev.keeps.trans (e := d.reran ch) (Dev.keeps_of_regs ⟨rfl, rfl, rfl⟩ _) hp.keeps

/-- A retry with the lane DOWN is muted (R281). -/
theorem Dev.retry_muted (h : d.retryDue ch) (hdown : (d.snsL (ch / 8)).run.state = 4) : let e := d.retry ch
    (e.modC ch).st = 6 ∧ (e.modC ch).core.retries = (d.modC ch).core.retries + 1 ∧ e.flag Blk.mod Src.modRetry ∧ e.flag Blk.mod Src.modSenseMute ∧
      d.keeps e (R.modChstat ch :: modFlts) := by
  have hmute : (d.reran ch).muteDown (ch / 8) = (d.reran ch).senseMute (ch / 8) := if_pos hdown
  obtain ⟨hsame, -⟩ := d.reran_modC hch hlen
  have hst : ((d.reran ch).modC ch).st = 1 := congrArg ModCh.st hsame
  obtain ⟨hpm, hmod, hfm⟩ := (d.reran ch).senseMute_leaves (g := ch / 8) (by omega) ((length_updAt _ _ _).trans hlen)
  have hch6 := (hmod ch).trans (if_pos ⟨rfl, hst⟩)
  have hflagm := hfm ch rfl hst
  generalize hd2 : (d.reran ch).senseMute (ch / 8) = d2 at *
  obtain ⟨hp, hmod2, hflag⟩ := d2.retryNoted_leaves hch ((d.modC ch).core.retries + 1) (d.ocForce ch) d.tickLo
  rw [d.retry_eq h, hmute]
  have hx (k : Nat) : ((d2.raiseF Blk.mod Src.modRetry (d.ocForce ch) ch ((d.modC ch).core.retries + 1) d.tickLo).chStat ch).modC k = d2.modC k := by
    rw [Dev.modC, hmod2, Dev.modC]
  refine ⟨?_, ?_, hflag, hp.flag (.inl rfl) (by decide) hflagm, ?_⟩
  · rw [hx, hch6]
  · rw [hx, hch6, hsame]
    rfl
  · exact Dev.keeps.trans (e := d.reran ch) (Dev.keeps_of_regs ⟨rfl, rfl, rfl⟩ _) ((hpm.keeps.mono (List.subset_cons_self _ _)).trans hp.keeps)

end

end Sys2Proof.Machine

/-!
PROOFS. The amplifier modulators: the enables and faults of a group, and the loop of a tick.
-/
namespace Sys2Proof.Machine

theorem Dev.grp_congr {d e : Dev} (h : e.mod = d.mod) : (∀ k, e.modC k = d.modC k) ∧ ∀ g, e.modG g = d.modG g := by
  simp only [Dev.modC, Dev.modG, h, implies_true, and_self]

/-- A pass over channels leaves the groups. -/
theorem groups_foldl (step : Dev → Nat → Dev) (hstep : ∀ d c, (step d c).mod.grp = d.mod.grp ∧ (step d c).mod.shut = d.mod.shut) (xs : List Nat) (d : Dev) :
    (xs.foldl step d).mod.grp = d.mod.grp ∧ (xs.foldl step d).mod.shut = d.mod.shut := by
  induction xs generalizing d with
  | nil => exact ⟨rfl, rfl⟩
  | cons c xs ih => exact ⟨(ih _).1.trans (hstep d c).1, (ih _).2.trans (hstep d c).2⟩

/-! ## AMP_EN rises (R282) -/

/-- The amplifiers of a group may be enabled at the present boundary (R282). -/
def Dev.ampDue (d : Dev) (g : Nat) : Prop :=
  (d.modG g).run_ = true ∧ (d.modG g).amp = false ∧ (d.modG g).stop = false ∧ (d.modG g).fell = none ∧ (d.modG g).drv = false ∧ d.mod.shut = false ∧
    d.modLive = true ∧ (d.modG g).start + 16 ≤ d.tick ∧ (d.snsL g).run.state = 2

theorem Dev.ampDue_iff (d : Dev) (g : Nat) : ((d.modG g).run_ && !(d.modG g).amp && !(d.modG g).stop && (d.modG g).fell.isNone && !(d.modG g).drv && !d.mod.shut &&
    d.modLive && decide ((d.modG g).start + 16 ≤ d.tick) && (d.snsL g).run.state == 2) = true ↔ d.ampDue g := by
  simp [Dev.ampDue, and_assoc]

theorem Dev.ampEnRise_off (d : Dev) {g : Nat} (h : ¬d.ampDue g) : d.ampEnRise g = d.atC 0 := if_neg (fun hc => h ((d.ampDue_iff g).mp hc))

/-- A channel that runs without a ramp takes `r`. -/
def ModCh.ramped (x : ModCh) (r : Ramp) : ModCh := if x.st = 1 ∧ x.core.ramp = none then { x with core := { x.core with ramp := some r } } else x

theorem updAt_congr {α : Type} {f f' : α → α} {x : α} (l : List α) (i : Nat) (h : f (l.getD i x) = f' (l.getD i x)) : updAt l i f = updAt l i f' := by
  induction l generalizing i with
  | nil => rfl
  | cons y t ih =>
    cases i with
    | zero => exact congrArg (· :: t) h
    | succ i => exact congrArg (y :: ·) (ih i h)

theorem updAt_id {α : Type} (l : List α) (i : Nat) : updAt l i id = l := by
  induction l generalizing i with
  | nil => rfl
  | cons y t ih =>
    cases i with
    | zero => rfl
    | succ i => exact congrArg (y :: ·) (ih i)

theorem Dev.onCh_congr (d : Dev) (c : Nat) {f f' : ModCh → ModCh} (h : f (d.modC c) = f' (d.modC c)) : d.onCh c f = d.onCh c f' := by
  show ({ d with mod := { d.mod with ch := _ } } : Dev) = { d with mod := { d.mod with ch := _ } }
  rw [updAt_congr _ _ h]

theorem Dev.onCh_id (d : Dev) (c : Nat) : d.onCh c id = d := by
  show ({ d with mod := { d.mod with ch := _ } } : Dev) = d
  rw [updAt_id]

section
variable (d : Dev) {g : Nat} (hg : g < 6) (hch : d.mod.ch.length = 48) (hgrp : d.mod.grp.length = 6)
include hg hch hgrp

theorem Dev.ampEnRise_rises (h : d.ampDue g) : let e := d.ampEnRise g
    let r : Ramp := { t0 := d.tick + 16, n0 := 0, dir := 1 }
    e.modG g = { d.modG g with amp := true, ramp := some r } ∧ bit (e.reg R.modGrpstat) g = true ∧
      ∀ k ∈ chansOf g, (d.modC k).st = 1 → (d.modC k).core.ramp = none → (e.modC k).core.ramp = some r := by
  intro e r
  let d1 := (d.atC 0).onGrp g (fun x => { x with amp := true, ramp := some r })
  let step := fun (d : Dev) (c : Nat) =>
    if (d.modC c).st = 1 ∧ (d.modC c).core.ramp = none then d.onCh c (fun x => { x with core := { x.core with ramp := some r } }) else d
  have he : e = ((chansOf g).foldl step d1).grpStat.chStats := if_pos ((d.ampDue_iff g).mpr h)
  have hstep (d : Dev) (c : Nat) : step d c = d.onCh c (fun x => x.ramped r) := by
    by_cases hc : (d.modC c).st = 1 ∧ (d.modC c).core.ramp = none
    · exact (if_pos hc).trans (d.onCh_congr c (f' := fun x => x.ramped r) (if_pos hc).symm)
    · exact (if_neg hc).trans ((d.onCh_id c).symm.trans (d.onCh_congr c (f' := fun x => x.ramped r) (if_neg hc).symm))
  have hfold := channels_onCh (fun x => x.ramped r) step hstep (chansOf g) (fun c hc => lt_of_mem_chansOf hg hc) (nodup_chansOf g) d1 hch
  have hG := groups_foldl step (fun d c => by rw [hstep]; exact ⟨rfl, rfl⟩) (chansOf g) d1
  have hd1 : d1.modG g = { d.modG g with amp := true, ramp := some r } := (d.atC 0).modG_onGrp _ (hg.trans_eq hgrp.symm)
  have hlen1 : d1.mod.grp.length = 6 := (length_updAt _ _ _).trans hgrp
  have hch1 (k : Nat) : d1.modC k = d.modC k := rfl
  rw [he]
  clear_value d1
  generalize (chansOf g).foldl step d1 = d2 at *
  have hG2 : d2.modG g = { d.modG g with amp := true, ramp := some r } := by rw [Dev.modG, hG.1, ← Dev.modG, hd1]
  obtain ⟨-, hmod, hbits⟩ := d2.grpStat_leaves (by rw [hG.1, hlen1])
  obtain ⟨hC, hGr⟩ := Dev.grp_congr hmod
  refine ⟨(hGr g).trans hG2, (hbits g hg).1.trans (congrArg ModGrp.amp hG2), fun k hk hst hr => ?_⟩
  rw [hC, hfold k, if_pos hk, hch1, ModCh.ramped, if_pos ⟨hst, hr⟩]

/-! ## The end of a stop, and a driver fault (R282, R283) -/

/-- A channel at rest. -/
def ModCh.rested (x : ModCh) : ModCh :=
  { x with
    st := if x.st = 4 ∨ x.st = 5 ∨ x.st = 7 then x.st else 0
    pulse := none
    force := none
    limited := false }

theorem Dev.grpRest_leaves : let e := d.grpRest g
    e.modG g = { drv := (d.modG g).drv, stop := (d.modG g).drv && (d.modG g).stop } ∧ (∀ k, k ≠ g → e.modG k = d.modG k) ∧
      (∀ k, e.modC k = if k ∈ chansOf g then (d.modC k).rested else d.modC k) ∧ e.mod.ch.length = 48 ∧ e.mod.grp.length = 6 ∧ e.mod.shut = d.mod.shut := by
  let d1 := d.onGrp g (fun x => { drv := x.drv, stop := x.drv && x.stop })
  have hd1 : d1.modG g = _ := d.modG_onGrp _ (hg.trans_eq hgrp.symm)
  have hne (k : Nat) (hk : k ≠ g) : d1.modG k = d.modG k := d.modG_onGrp_ne _ hk
  have hlen1 : d1.mod.grp.length = 6 := (length_updAt _ _ _).trans hgrp
  have hfold := channels_foldl id (fun d c => d.onCh c ModCh.rested) (fun _ => ModCh.rested) (fun e => e.mod.ch.length = 48)
    (fun e c he hc => ⟨(length_updAt _ _ _).trans he, e.modC_onCh_same _ (hc.trans_eq he.symm), fun k hk => e.modC_onCh_ne _ hk⟩) (chansOf g)
    (fun c hc => lt_of_mem_chansOf hg hc) (nodup_chansOf g) d1 hch
  have hG := groups_foldl (fun d c => d.onCh c ModCh.rested) (fun _ _ => ⟨rfl, rfl⟩) (chansOf g) d1
  have he : d.grpRest g = (chansOf g).foldl (fun d c => d.onCh c ModCh.rested) d1 := rfl
  have hch1 (k : Nat) : d1.modC k = d.modC k := rfl
  have hshut : d1.mod.shut = d.mod.shut := rfl
  rw [he]
  clear_value d1
  generalize (chansOf g).foldl (fun d c => d.onCh c ModCh.rested) d1 = d2 at *
  have hall (k : Nat) : d2.modG k = d1.modG k := by rw [Dev.modG, hG.1, Dev.modG]
  exact ⟨(hall g).trans hd1, fun k hk => (hall k).trans (hne k hk), fun k => hch1 k ▸ hfold.2 k, hfold.1, by rw [hG.1, hlen1], hG.2.trans hshut⟩

theorem Dev.groupStop_stops {t : Nat} (hfell : (d.modG g).fell = some t) (ht : t + 16 ≤ d.tick) (hen : d.lf (R.modGrpctl g) 31 1 = 0) : let e := d.groupStop g
    (e.modG g).run_ = false ∧ (e.modG g).amp = false ∧ bit (e.reg R.modGrpstat) (8 + g) = false ∧ (∀ k ∈ chansOf g, (e.modC k).pulse = none) ∧
      ∀ g', g' ≠ g → e.modG g' = d.modG g' := by
  have he : d.groupStop g = ((d.atC 0).grpRest g).grpStat.chStats := by
    simp only [Dev.groupStop, show ((d.atC 0).modG g).fell = some t from hfell]
    exact if_pos ⟨ht, hen⟩
  obtain ⟨hsame, hne, hC, -, hlen, -⟩ := (d.atC 0).grpRest_leaves hg hch hgrp
  rw [he]
  generalize (d.atC 0).grpRest g = d2 at *
  obtain ⟨-, hmod, hbits⟩ := d2.grpStat_leaves hlen
  obtain ⟨hC2, hG2⟩ := Dev.grp_congr hmod
  refine ⟨?_, ?_, ?_, fun k hk => ?_, fun k hk => (hG2 k).trans (hne k hk)⟩
  · rw [hG2, hsame]
  · rw [hG2, hsame]
  · rw [(hbits g hg).2.1, hsame]
  · rw [hC2, hC, if_pos hk]
    rfl

omit hg hch hgrp in
theorem Dev.groupStop_off (h : (d.modG g).fell = none ∨ d.lf (R.modGrpctl g) 31 1 = 1) : d.groupStop g = d.atC 0 := by
  rw [Dev.groupStop]
  cases hfell : ((d.atC 0).modG g).fell with
  | none => rfl
  | some t =>
    refine if_neg (fun hc => ?_)
    rcases h with h | h
    · exact absurd (hfell.symm.trans h) (by simp)
    · exact absurd (hc.2.symm.trans h) (by decide)

/-- A channel whose driver has failed. -/
def ModCh.drvOff (x : ModCh) : ModCh :=
  { x with
    st := if x.st = 4 ∨ x.st = 5 then x.st else 7
    pulse := none
    force := none
    limited := false }

omit d hg hch hgrp in
theorem ModCh.drvOff_st (x : ModCh) : x.drvOff.st = 4 ∨ x.drvOff.st = 5 ∨ x.drvOff.st = 7 := by
  rw [show x.drvOff.st = if x.st = 4 ∨ x.st = 5 then x.st else 7 from rfl]
  split
  · rename_i h
    exact h.elim .inl (fun h => .inr (.inl h))
  · exact .inr (.inr rfl)

theorem Dev.drvFault_faults {c : Nat} (hamp : (d.modG g).amp = true) : let e := d.drvFault g c
    (e.modG g).amp = false ∧ (e.modG g).drv = true ∧ bit (e.reg R.modGrpstat) (16 + g) = true ∧ e.flag Blk.mod Src.modDrvFault ∧
      ∀ k ∈ chansOf g, (e.modC k).pulse = none ∧ ((e.modC k).st = 4 ∨ (e.modC k).st = 5 ∨ (e.modC k).st = 7) := by
  let d1 := (d.atC c).onGrp g (fun x => { x with amp := false, drv := true, stop := false, fell := none })
  have hd1 : d1.modG g = { d.modG g with amp := false, drv := true, stop := false, fell := none } := (d.atC c).modG_onGrp _ (hg.trans_eq hgrp.symm)
  have hlen1 : d1.mod.grp.length = 6 := (length_updAt _ _ _).trans hgrp
  have hfold := channels_onCh ModCh.drvOff (fun d c => d.onCh c ModCh.drvOff) (fun _ _ => rfl) (chansOf g) (fun c hc => lt_of_mem_chansOf hg hc) (nodup_chansOf g) d1 hch
  have hG := groups_foldl (fun d c => d.onCh c ModCh.drvOff) (fun _ _ => ⟨rfl, rfl⟩) (chansOf g) d1
  have he : d.drvFault g c =
      (((chansOf g).foldl (fun d c => d.onCh c ModCh.drvOff) d1).raise Blk.mod Src.modDrvFault g d.tickLo 0).grpStat.chStats := if_pos hamp
  rw [he]
  clear_value d1
  generalize (chansOf g).foldl (fun d c => d.onCh c ModCh.drvOff) d1 = d2 at *
  have hr : d2.marks (d2.raise Blk.mod Src.modDrvFault g d.tickLo 0) modFlts [] := .raise _ _ _ _ _ _ (by decide) (by decide)
  have hflag : (d2.raise Blk.mod Src.modDrvFault g d.tickLo 0).flag Blk.mod Src.modDrvFault := Dev.flag_raise _ _ _ _ _ _ (by decide)
  generalize d2.raise Blk.mod Src.modDrvFault g d.tickLo 0 = d3 at *
  obtain ⟨hp, hmod, hbits⟩ := d3.grpStat_leaves (by rw [hr.mod, hG.1, hlen1])
  obtain ⟨hC, hGr⟩ := Dev.grp_congr hmod
  have hG3 : d3.modG g = { d.modG g with amp := false, drv := true, stop := false, fell := none } := by rw [hr.modG, Dev.modG, hG.1, ← Dev.modG, hd1]
  refine ⟨?_, ?_, ?_, hp.flag (.inl rfl) (by decide) hflag, fun k hk => ?_⟩
  · rw [hGr, hG3]
  · rw [hGr, hG3]
  · rw [(hbits g hg).2.2, hG3]
  · rw [hC, hr.modC, hfold, if_pos hk]
    exact ⟨rfl, (d1.modC k).drvOff_st⟩

end

end Sys2Proof.Machine

/-!
PROOFS. The amplifier modulators: the loop of a tick.
-/
namespace Sys2Proof.Machine

/-- The quantiser keeps the high time between HMIN and 5,120 - HMIN (R270). -/
theorem quantise_within {hmin : Nat} (h : hmin ≤ 2560) (m rem : Int) : hmin ≤ (quantise hmin m rem).1 ∧ (quantise hmin m rem).1 ≤ 5120 - hmin := by
  unfold quantise
  extract_lets y x
  split
  · exact ⟨le_refl _, by show hmin ≤ 5120 - hmin; omega⟩
  split
  · exact ⟨by show hmin ≤ 5120 - hmin; omega, le_refl _⟩
  · constructor
    · show hmin ≤ x.toNat
      omega
    · show x.toNat ≤ 5120 - hmin
      omega

theorem foldl_invariant {α σ : Type} {step : σ → α → σ} {I : σ → Prop} (hI : ∀ a x, I a → I (step a x)) (xs : List α) {a : σ} (ha : I a) : I (xs.foldl step a) := by
  induction xs generalizing a with
  | nil => exact ha
  | cons x xs ih => exact ih (hI a x ha)

theorem Dev.loopCh_within (d : Dev) (hmin : d.hmin ≤ 2560) (c : Nat) (k : ModCore) (volts : List Int) (zeroE : Bool) :
    ∀ h ∈ (d.loopCh c k volts zeroE).2.1, d.hmin ≤ h ∧ h ≤ 5120 - d.hmin := by
  refine foldl_invariant (I := fun a : ModCore × List Nat × Nat => ∀ h ∈ a.2.1, d.hmin ≤ h ∧ h ≤ 5120 - d.hmin) ?_ _ ?_
  · intro a j ha h hh
    rcases List.mem_append.mp hh with hh | hh
    · exact ha h hh
    · rw [List.mem_singleton.mp hh]
      exact quantise_within hmin _ _
  · intro h hh
    exact absurd hh List.not_mem_nil

/-- Channel `k` after the loop of a tick, of unit `d` on its own data. -/
def Dev.looped (d : Dev) (k : Nat) (x : ModCh) : ModCh :=
  let par := (d.tick + 1) % 2
  let o := d.loopCh k x.core (((d.snsL (k / 8)).volts.getD par []).getD (k % 8) []) ((x.flags.getD par []).any (fun b => b))
  if x.st = 1 then
    { x with
      core := o.1
      kept := o.1
      next := o.2.1 }
  else
    { x with
      next := [2560, 2560, 2560, 2560]
      core := { x.core with gs := 0 :: x.core.gs.take 2 }
      kept := { x.core with gs := 0 :: x.core.gs.take 2 } }

theorem Dev.looped_within (d : Dev) (hmin : d.hmin ≤ 2560) (k : Nat) (x : ModCh) : ∀ h ∈ (d.looped k x).next, d.hmin ≤ h ∧ h ≤ 5120 - d.hmin := by
  by_cases hst : x.st = 1
  · rw [Dev.looped, if_pos hst]
    exact d.loopCh_within hmin _ _ _ _
  · rw [Dev.looped, if_neg hst]
    intro h hh
    have : h = 2560 := by simpa using hh
    omega

/-- The pass over one channel, with the channels that clipped and the clips so far. -/
def loopPass (par : Nat) (acc : Dev × List Nat × Nat) (c : Nat) : Dev × List Nat × Nat :=
  let d := acc.1
  let x := d.modC c
  if x.st = 1 then
    let o := d.loopCh c x.core (((d.snsL (c / 8)).volts.getD par []).getD (c % 8) []) ((x.flags.getD par []).any (fun b => b))
    (d.onCh c (fun x => { x with core := o.1, kept := o.1, next := o.2.1 }), if 0 < o.2.2 then acc.2.1 ++ [c] else acc.2.1, acc.2.2 + o.2.2)
  else (d.onCh c (fun x => { x with
      next := [2560, 2560, 2560, 2560]
      core := { x.core with gs := 0 :: x.core.gs.take 2 }
      kept := { x.core with gs := 0 :: x.core.gs.take 2 } }), acc.2.1, acc.2.2)

/-- The device with other channels. -/
def Dev.withCh (d : Dev) (ch : List ModCh) : Dev := { d with mod := { d.mod with ch := ch } }

section
variable (d : Dev)

theorem loopPass_step (a : Dev × List Nat × Nat) {c : Nat} (ha : ∃ ch, ch.length = 48 ∧ a.1 = d.withCh ch) (hc : c < 48) :
    (∃ ch, ch.length = 48 ∧ (loopPass ((d.tick + 1) % 2) a c).1 = d.withCh ch) ∧ (loopPass ((d.tick + 1) % 2) a c).1.modC c = d.looped c (a.1.modC c) ∧
      ∀ k, k ≠ c → (loopPass ((d.tick + 1) % 2) a c).1.modC k = a.1.modC k := by
  obtain ⟨ch, hlen, ha⟩ := ha
  obtain ⟨f, hf, hx⟩ : ∃ f, (loopPass ((d.tick + 1) % 2) a c).1 = a.1.onCh c f ∧ f (a.1.modC c) = d.looped c (a.1.modC c) := by
    rw [loopPass, ha]
    by_cases hst : ((d.withCh ch).modC c).st = 1
    · rw [if_pos hst, Dev.looped, if_pos hst]
      exact ⟨_, rfl, rfl⟩
    · rw [if_neg hst, Dev.looped, if_neg hst]
      exact ⟨_, rfl, rfl⟩
  have hlen' : a.1.mod.ch.length = 48 := by
    rw [ha]
    exact hlen
  refine ⟨⟨updAt ch c f, (length_updAt _ _ _).trans hlen, by rw [hf, ha]; rfl⟩, ?_, fun k hk => ?_⟩
  · rw [hf, Dev.modC_onCh_same _ _ (hc.trans_eq hlen'.symm), hx]
  · rw [hf, Dev.modC_onCh_ne _ _ hk]

/-- The end of the loop: what clipped is counted and raised. -/
def clipsNoted (r : Dev × List Nat × Nat) : Dev :=
  if r.2.2 = 0 then r.1
  else
    let mask := r.2.1.foldl (fun m c => bitSet m c true) 0
    (r.1.bump (R.modCnt 2) r.2.2).raise Blk.mod Src.modClip mask (mask / 2 ^ 32) r.1.tickLo

theorem clipsNoted_marks (r : Dev × List Nat × Nat) : r.1.marks (clipsNoted r) modFlts [R.modCnt 2] :=
  .ite (fun _ => .refl _) (fun _ => (Dev.marks.bump _ _ (by simp)).trans (.raise _ _ _ _ _ _ (by decide) (by decide)))

theorem Dev.loopCompute_eq (hlive : d.modLive = true) (hown : d.role ≠ .shadow ∨ d.paired = false) :
    d.loopCompute = clipsNoted ((List.range 48).foldl (loopPass ((d.tick + 1) % 2)) (d.atC 4096, [], 0)) := by
  have hblk : ¬(d.role == .shadow && d.paired) = true := by
    rcases hown with h | h
    · simp [h]
    · simp [h]
  have h1 : ¬(!(d.atC 4096).modLive) = true := by
    rw [show (d.atC 4096).modLive = true from hlive]
    decide
  have h2 : ¬((d.atC 4096).role == .shadow && (d.atC 4096).paired) = true := hblk
  rw [Dev.loopCompute, if_neg h1]
  simp only [if_neg h2]
  generalize List.range 48 = l
  rfl

/-- The loop of a tick in a unit that uses its own data (R278). -/
theorem Dev.loopCompute_leaves (hlive : d.modLive = true) (hown : d.role ≠ .shadow ∨ d.paired = false) (hlen : d.mod.ch.length = 48) : let e := d.loopCompute
    d.keeps e modFlts ∧ ∀ k, k < 48 → e.modC k = d.looped k (d.modC k) := by
  obtain ⟨⟨ch, -, hI⟩, hk⟩ := channels_foldl Prod.fst (loopPass ((d.tick + 1) % 2)) d.looped (fun a => ∃ ch, ch.length = 48 ∧ a.1 = (d.atC 4096).withCh ch)
    (fun a c ha hc => loopPass_step (d.atC 4096) a ha hc) (List.range 48) (fun c hc => List.mem_range.mp hc) List.nodup_range (d.atC 4096, [], 0)
    ⟨d.mod.ch, hlen, rfl⟩
  have hm := clipsNoted_marks ((List.range 48).foldl (loopPass ((d.tick + 1) % 2)) (d.atC 4096, [], 0))
  rw [d.loopCompute_eq hlive hown]
  refine ⟨?_, fun k hk48 => ?_⟩
  · refine Dev.keeps.trans ?_ hm.keeps
    rw [hI]
    exact Dev.keeps_of_regs ⟨rfl, rfl, rfl⟩ _
  · rw [hm.modC, hk, if_pos (List.mem_range.mpr hk48)]
    rfl

end

end Sys2Proof.Machine

/-!
PROOFS. The sense lanes: a superframe, stage by stage.
-/
namespace Sys2Proof.Machine

/-! ## The check value, the counters -/

theorem Dev.snoops_cvuSnoop (d : Dev) {k : Nat} (hk : k < 16) (stream : Nat) (bs : List Byte) : d.snoops (d.cvuSnoop k stream bs) := by
  have hfold (l : List Nat) (hl : ∀ j ∈ l, j < 16) (e : Dev) : e.snoops (l.foldl (fun d j =>
      if d.lf (R.cvuCfg j) 31 1 = 1 ∧ d.lf (R.cvuCfg j) 24 4 = k then
        (d.cvuLatch j stream (d.cvuValue j bs)).cvuCompare j stream (d.cvuValue j bs)
      else d) e) := by
    induction l generalizing e with
    | nil => exact e.snoops_refl
    | cons j l ih =>
      have hj := hl j List.mem_cons_self
      refine Dev.snoops_trans ?_ (ih (fun i hi => hl i (List.mem_cons_of_mem _ hi)) _)
      dsimp only
      split
      · exact Dev.snoops_trans (Dev.snoops_cvuLatch _ hj _ _) (Dev.snoops_cvuCompare _ hj _ _)
      · exact e.snoops_refl
  exact Dev.snoops_trans (Dev.snoops_cvuLatch d hk _ _) (hfold _ (by decide) _)

/-- The counters and faults of a superframe that was checked (R275, R276). -/
def Dev.sfCounted (d : Dev) (g : Nat) (good acq crcBad synBad arrBad forced : Bool) (want sfc arr tl : Nat) : Dev :=
  if good then d.bump (R.snsCnt g 0) 1
  else if acq then d
  else
    let e1 := if crcBad then (d.bump (R.snsCnt g 1) 1).raiseF Blk.sns Src.snsCrcErr forced g want tl else d
    let e2 := if synBad || arrBad then e1.bump (R.snsCnt g 2) 1 else e1
    let e3 := if synBad then e2.raiseF Blk.sns Src.snsSyncErr forced g sfc tl else e2
    if arrBad then e3.raiseF Blk.sns Src.snsAlign forced g arr 0 else e3

/-- The counters of a lane. -/
def snsCnts (g : Nat) : List Nat := [R.snsCnt g 0, R.snsCnt g 1, R.snsCnt g 2]

theorem Dev.sfCounted_marks (d : Dev) {g : Nat} (good acq crcBad synBad arrBad forced : Bool) (want sfc arr tl : Nat) :
    d.marks (d.sfCounted g good acq crcBad synBad arrBad forced want sfc arr tl) snsFlts (snsCnts g) := by
  have hraise (a : Dev) (src d0 d1 d2 : Nat) : a.marks (a.raiseF Blk.sns src forced d0 d1 d2) snsFlts (snsCnts g) := .raiseF _ _ _ _ _ _ _ (by decide) (by decide)
  have hif (a b : Dev) (p : Bool) (h : a.marks b snsFlts (snsCnts g)) : a.marks (if p then b else a) snsFlts (snsCnts g) := .ite (fun _ => h) (fun _ => .refl a)
  refine .ite (fun _ => .bump d 1 (by simp [snsCnts])) (fun _ => .ite (fun _ => .refl d) (fun _ => ?_))
  exact (((hif _ _ crcBad ((Dev.marks.bump d 1 (by simp [snsCnts])).trans (hraise _ _ _ _ _))).trans
    (hif _ _ (synBad || arrBad) (.bump _ 1 (by simp [snsCnts])))).trans (hif _ _ synBad (hraise _ _ _ _ _))).trans (hif _ _ arrBad (hraise _ _ _ _ _))

theorem Dev.sfCounted_leaves (d : Dev) {g : Nat} (good acq crcBad synBad arrBad forced : Bool) (want sfc arr tl : Nat) :
    let e := d.sfCounted g good acq crcBad synBad arrBad forced want sfc arr tl
    d.plays e snsFlts (snsCnts g) ∧ (good = true → d.counts e (R.snsCnt g 0) 1) ∧
      (good = false → acq = false → crcBad = true → d.counts e (R.snsCnt g 1) 1 ∧ e.flag Blk.sns Src.snsCrcErr) := by
  intro e
  have hraise (a : Dev) (src d0 d1 d2 : Nat) : a.plays (a.raiseF Blk.sns src forced d0 d1 d2) snsFlts [] :=
    .raiseF a src forced d0 d1 d2 (.inr rfl) (by decide) (by decide)
  have he : e = d.sfCounted g good acq crcBad synBad arrBad forced want sfc arr tl := rfl
  cases good with
  | true =>
    rw [he, Dev.sfCounted, if_pos rfl]
    exact ⟨.bump d 1 (by simp [snsCnts]), fun _ => Dev.w64_bump .., fun h => absurd h (by decide)⟩
  | false =>
    cases acq with
    | true =>
      rw [he, Dev.sfCounted, if_neg (by decide), if_pos rfl]
      exact ⟨.refl d, fun h => absurd h (by decide), fun _ h => absurd h (by decide)⟩
    | false =>
      rw [he, Dev.sfCounted, if_neg (by decide), if_neg (by decide)]
      let e1 := if crcBad then (d.bump (R.snsCnt g 1) 1).raiseF Blk.sns Src.snsCrcErr forced g want tl else d
      let e2 := if synBad || arrBad then e1.bump (R.snsCnt g 2) 1 else e1
      let e3 := if synBad then e2.raiseF Blk.sns Src.snsSyncErr forced g sfc tl else e2
      have h1 : d.plays e1 snsFlts (snsCnts g) :=
        .ite (fun _ => (Dev.plays.bump d 1 (by simp [snsCnts])).trans ((hraise _ _ _ _ _).mono (List.Subset.refl _) (List.nil_subset _))) (fun _ => .refl d)
      have hcrc (h : crcBad = true) : d.counts e1 (R.snsCnt g 1) 1 ∧ e1.flag Blk.sns Src.snsCrcErr := by
        have he1 : e1 = (d.bump (R.snsCnt g 1) 1).raiseF Blk.sns Src.snsCrcErr forced g want tl := if_pos h
        rw [he1]
        exact ⟨(Dev.w64_raiseF ..).trans (Dev.w64_bump ..), Dev.flag_raiseF _ _ _ _ _ _ _ (by decide)⟩
      have h2 : e1.plays e2 snsFlts [R.snsCnt g 2] := .ite (fun _ => .bump e1 1 (by simp)) (fun _ => .refl e1)
      have h3 : e2.plays e3 snsFlts [] := .ite (fun _ => hraise _ _ _ _ _) (fun _ => .refl e2)
      have h4 : e3.plays (if arrBad then e3.raiseF Blk.sns Src.snsAlign forced g arr 0 else e3) snsFlts [] := .ite (fun _ => hraise _ _ _ _ _) (fun _ => .refl e3)
      show d.plays (if arrBad then e3.raiseF Blk.sns Src.snsAlign forced g arr 0 else e3) _ _ ∧ _
      generalize (if arrBad then e3.raiseF Blk.sns Src.snsAlign forced g arr 0 else e3) = e4 at *
      clear_value e1 e2 e3
      have h14 : e1.plays e4 snsFlts [R.snsCnt g 2] := h2.trans ((h3.trans h4).mono (List.Subset.refl _) (List.nil_subset _))
      refine ⟨h1.trans (h14.mono (List.Subset.refl _) (by simp [snsCnts])), fun h => absurd h (by decide), fun _ _ h => ?_⟩
      obtain ⟨hc, hfl⟩ := hcrc h
      exact ⟨(h14.w64 (by simp [R.snsCnt])).trans hc, h14.flag (.inr rfl) (by decide) hfl⟩

/-! ## The lane, its faults, its status bits -/

/-- What a lane shows of its run and of the arrival. -/
def Dev.sfShown (d : Dev) (g arr : Nat) (r : LaneRun) : Dev :=
  ((d.setFld (R.snsLanestat g) 20 12 (min 4095 arr)).setFld (R.snsLanestat g) 8 4 r.bad).setFld (R.snsLanestat g) 0 3 r.state

/-- The change of a lane's state, with the mute of its channels (R276, R281). -/
def Dev.sfTurned (d : Dev) (g : Nat) (was now : LaneRun) (forced : Bool) (tl : Nat) : Dev :=
  if was.state != 4 && now.state == 4 then (d.raiseF Blk.sns Src.snsLaneDown forced g tl 0).senseMute g
  else if was.state == 4 && now.state == 2 then d.raise Blk.sns Src.snsLaneUp g tl 0
  else d

/-- The event of new status bits, once a tick. -/
def Dev.feNoted (d : Dev) (g st tl : Nat) : Dev := (d.onSns g (fun l => { l with feT := true })).raise Blk.sns Src.snsFeStatus g st tl

/-- The status bits of a good superframe (R274). -/
def Dev.sfStatus (d : Dev) (g st tl : Nat) (good news told : Bool) : Dev :=
  if !good then d
  else if news && !told then (d.setReg (R.snsFestat g) st).feNoted g st tl
  else d.setReg (R.snsFestat g) st

theorem snsStat_ne {g : Nat} (hg : g < 6) : R.fltstat Blk.mod ≠ R.snsLanestat g ∧ R.fltstat Blk.sns ≠ R.snsLanestat g ∧ R.fltstat Blk.mod ≠ R.snsFestat g ∧
    R.fltstat Blk.sns ≠ R.snsFestat g ∧ R.fltfirst Blk.sns ≠ R.snsFestat g ∧ R.snsLanestat g ≠ R.snsFestat g ∧ R.fltfirst Blk.mod ≠ R.snsFestat g := by
  have hm : R.fltstat Blk.mod = 0x120800 := rfl
  have hs : R.fltstat Blk.sns = 0x130080 := rfl
  have hf : R.fltfirst Blk.sns = 0x130084 := rfl
  have hmf : R.fltfirst Blk.mod = 0x120804 := rfl
  rw [hm, hs, hf, hmf, R.snsLanestat, R.snsFestat]
  omega

section
variable (d : Dev) {g : Nat} (hg : g < 6)
include hg

theorem Dev.sfShown_leaves (arr : Nat) (r : LaneRun) : d.plays (d.sfShown g arr r) [R.snsLanestat g] [] ∧ (d.sfShown g arr r).mod = d.mod ∧
    (d.sfShown g arr r).sns = d.sns := by
  have hf (a : Dev) (lo n x : Nat) : a.marks (a.setFld (R.snsLanestat g) lo n x) [R.snsLanestat g] [] := .setFld a lo n x (by simp)
  have hm : d.marks (d.sfShown g arr r) [R.snsLanestat g] [] := ((hf _ _ _ _).trans (hf _ _ _ _)).trans (hf _ _ _ _)
  exact ⟨.of_marks hm (by simp [(snsStat_ne hg).1]) (by simp [(snsStat_ne hg).2.1]), hm.mod, hm.sns⟩

omit d hg in
theorem Dev.senseMute_sns (e : Dev) : (e.senseMute g).sns = e.sns := by
  have hfold (xs : List Nat) (e : Dev) : (xs.foldl (fun d c => d.onCh c (fun x => { x with st := 6, limited := false })) e).sns = e.sns := by
    induction xs generalizing e with
    | nil => rfl
    | cons c xs ih => exact ih _
  unfold Dev.senseMute
  extract_lets hit
  split
  · rfl
  · exact (Dev.marks.raise (l := modFlts) (w := []) _ Blk.mod Src.modSenseMute _ _ _ (by decide) (by decide)).sns.trans (hfold hit e)

theorem Dev.sfTurned_leaves (hlen : d.mod.ch.length = 48) (was now : LaneRun) (forced : Bool) (tl : Nat) : let e := d.sfTurned g was now forced tl
    d.plays e (snsFlts ++ modFlts) [] ∧ e.sns = d.sns ∧
      (was.state ≠ 4 → now.state = 4 → e.flag Blk.sns Src.snsLaneDown ∧ ∀ k ∈ chansOf g, (d.modC k).st = 1 → (e.modC k).st = 6) := by
  have hr (src : Nat) (f : Bool) : d.marks (d.raiseF Blk.sns src f g tl 0) snsFlts [] := .raiseF _ _ _ _ _ _ _ (by decide) (by decide)
  have hp (src : Nat) (f : Bool) : d.plays (d.raiseF Blk.sns src f g tl 0) (snsFlts ++ modFlts) [] := .raiseF d src f _ _ _ (.inr rfl) (by decide) (by decide)
  intro e
  have he : e = d.sfTurned g was now forced tl := rfl
  rw [he, Dev.sfTurned]
  by_cases hdown : (was.state != 4 && now.state == 4) = true
  · rw [if_pos hdown]
    have hflag : (d.raiseF Blk.sns Src.snsLaneDown forced g tl 0).flag Blk.sns Src.snsLaneDown := Dev.flag_raiseF _ _ _ _ _ _ _ (by decide)
    have h1 := hr Src.snsLaneDown forced
    have h2 := hp Src.snsLaneDown forced
    generalize d.raiseF Blk.sns Src.snsLaneDown forced g tl 0 = d1 at *
    obtain ⟨hm, hmod, -⟩ := d1.senseMute_leaves hg (by rw [h1.mod, hlen])
    refine ⟨h2.trans (hm.mono (by simp) (List.Subset.refl _)), (Dev.senseMute_sns d1).trans h1.sns, fun _ _ =>
      ⟨hm.flag (.inr rfl) (by decide) hflag, fun k hk hst => ?_⟩⟩
    rw [hmod, if_pos ⟨mem_chansOf.mp hk, by rw [h1.modC, hst]⟩]
  · rw [if_neg hdown]
    have hno : was.state ≠ 4 → now.state ≠ 4 := fun h h' => hdown (by simp [h, h'])
    refine ⟨?_, ?_, fun h h' => absurd h' (hno h)⟩
    · exact .ite (fun _ => hp _ _) (fun _ => .refl d)
    · split
      · exact (hr _ _).sns
      · rfl

omit hg in
theorem Dev.feNoted_leaves (hsns : d.sns.length = 6) (st tl : Nat) : let e := d.feNoted g st tl
    d.plays e snsFlts [] ∧ e.mod = d.mod ∧ (e.snsL g).run = (d.snsL g).run ∧ e.sns.length = 6 := by
  let d1 := d.onSns g (fun l => { l with feT := true })
  have h1 : d.plays d1 snsFlts [] := .onSns d g _
  have hrun : (d1.snsL g).run = (d.snsL g).run := by
    rw [Dev.snsL, show d1.sns = updAt d.sns g _ from rfl, getD_updAt]
    split
    · rfl
    · rfl
  have hlen : d1.sns.length = 6 := (length_updAt _ _ _).trans hsns
  have hmod : d1.mod = d.mod := rfl
  have he : d.feNoted g st tl = d1.raise Blk.sns Src.snsFeStatus g st tl := rfl
  clear_value d1
  have hr : d1.marks (d1.raise Blk.sns Src.snsFeStatus g st tl) snsFlts [] := .raise _ _ _ _ _ _ (by decide) (by decide)
  rw [he]
  exact ⟨h1.trans (.raise _ _ _ _ _ (.inr rfl) (by decide) (by decide)), hr.mod.trans hmod, by rw [hr.snsL, hrun], by rw [hr.sns, hlen]⟩

theorem Dev.sfStatus_leaves (hsns : d.sns.length = 6) {st : Nat} (hst : st < 2 ^ 32) (tl : Nat) (good news told : Bool) : let e := d.sfStatus g st tl good news told
    d.plays e (R.snsFestat g :: snsFlts) [] ∧ e.mod = d.mod ∧ (e.snsL g).run = (d.snsL g).run ∧ e.sns.length = 6 ∧
      (good = true → e.reg (R.snsFestat g) = st) ∧ (good = false → e.reg (R.snsFestat g) = d.reg (R.snsFestat g)) := by
  intro e
  have he : e = d.sfStatus g st tl good news told := rfl
  rw [he, Dev.sfStatus]
  cases good with
  | false => exact ⟨.refl d, rfl, rfl, hsns, fun h => absurd h (by decide), fun _ => rfl⟩
  | true =>
    have hset : d.plays (d.setReg (R.snsFestat g) st) (R.snsFestat g :: snsFlts) [] := .setReg d st (by simp) (snsStat_ne hg).2.2.1 (snsStat_ne hg).2.2.2.1
    have hreg : (d.setReg (R.snsFestat g) st).reg (R.snsFestat g) = st := (Dev.reg_setReg ..).trans (Nat.mod_eq_of_lt hst)
    have hsm : (d.setReg (R.snsFestat g) st).mod = d.mod := rfl
    have hss : (d.setReg (R.snsFestat g) st).sns = d.sns := rfl
    have hsl : (d.setReg (R.snsFestat g) st).snsL g = d.snsL g := by rw [Dev.snsL, hss, Dev.snsL]
    rw [if_neg (by decide)]
    generalize d.setReg (R.snsFestat g) st = d1 at *
    by_cases hnews : (news && !told) = true
    · rw [if_pos hnews]
      obtain ⟨hp, hmod, hrun, hlen⟩ := d1.feNoted_leaves (g := g) (by rw [hss, hsns]) st tl
      obtain ⟨-, -, -, h1, h2, -⟩ := snsStat_ne hg
      exact ⟨hset.trans (hp.mono (List.subset_cons_self _ _) (List.Subset.refl _)), hmod.trans hsm, hrun.trans (congrArg SnsLane.run hsl), hlen,
        fun _ => (hp.reg (by simp [snsFlts, h1.symm, h2.symm])).trans hreg, fun h => absurd h (by decide)⟩
    · rw [if_neg hnews]
      exact ⟨hset, hsm, congrArg SnsLane.run hsl, by rw [hss, hsns], fun _ => hreg, fun h => absurd h (by decide)⟩

end

/-! ## The limiter, and the channels' status -/

theorem Dev.limiter_plays (d : Dev) (c : Nat) (f : Int) : d.plays (d.limiter c f) modFlts [R.modCnt 0] ∧ (d.limiter c f).sns = d.sns := by
  unfold Dev.limiter
  extract_lets x ilim hi lo d1
  have h1 : d.plays d1 modFlts [R.modCnt 0] := .onCh d c _
  have h1s : d1.sns = d.sns := rfl
  split
  · split
    · exact ⟨h1, h1s⟩
    · have h2 : d1.plays ((d1.onCh c (fun x => { x with
          limited := true
          run := min 255 (x.run + 1)
          flags := updAt x.flags x.perPar (fun fl => updAt fl x.per (fun _ => true)) })).bump (R.modCnt 0) 1) modFlts [R.modCnt 0] :=
        (Dev.plays.onCh d1 c _).trans (.bump _ 1 (by simp))
      exact ⟨(h1.trans h2).trans (.raise _ _ _ _ _ (.inl rfl) (by decide) (by decide)),
        (Dev.marks.raise (l := modFlts) (w := []) _ Blk.mod Src.modLimit _ _ _ (by decide) (by decide)).sns.trans h1s⟩
  · exact ⟨.refl d, rfl⟩

/-- The limiter of each channel of a lane leaves the lanes. -/
theorem Dev.limiters_plays (d : Dev) (g : Nat) (fast : List Int) (l : List Nat) : let e := l.foldl (fun d i => d.limiter (8 * g + i) (fast.getD i 0)) d
    d.plays e modFlts [R.modCnt 0] ∧ e.sns = d.sns :=
  foldl_invariant (I := fun e => d.plays e modFlts [R.modCnt 0] ∧ e.sns = d.sns)
    (fun e _ h => ⟨h.1.trans (e.limiter_plays _ _).1, (e.limiter_plays _ _).2.trans h.2⟩) l ⟨.refl d, rfl⟩

theorem Dev.chStats_plays (d : Dev) {g : Nat} (hg : g < 6) : d.plays ((chansOf g).foldl (fun d c => d.chStat c) d) ((chansOf g).map R.modChstat) [] :=
  .foldl _ _ (fun _ hc e => e.chStat_plays (lt_of_mem_chansOf hg hc) (List.mem_map_of_mem hc)) d

theorem Dev.chStats_marks (d : Dev) (g : Nat) : d.marks ((chansOf g).foldl (fun d c => d.chStat c) d) ((chansOf g).map R.modChstat) [] :=
  .foldl _ _ (fun _ hc e => .setReg e _ (List.mem_map_of_mem hc)) d

end Sys2Proof.Machine

/-!
PROOFS. A superframe that a lane receives, and the rows of the sense lanes and the modulators.
-/
namespace Sys2Proof.Machine

theorem sfField_lt (bits i n : Nat) : sfField bits i n < 2 ^ n := by
  have key (l : List Bool) (a : Nat) : l.foldl (fun a b => 2 * a + b2n b) a < (a + 1) * 2 ^ l.length := by
    induction l generalizing a with
    | nil => simp
    | cons b l ih =>
      refine lt_of_lt_of_le (ih _) ?_
      have hb : b2n b ≤ 1 := by cases b <;> decide
      rw [List.length_cons, pow_succ, Nat.mul_comm (2 ^ l.length) 2, ← Nat.mul_assoc]
      exact Nat.mul_le_mul_right _ (show 2 * a + b2n b + 1 ≤ (a + 1) * 2 by omega)
  have h := key ((List.range n).map (fun k => bit bits (i + k))) 0
  rw [List.length_map, List.length_range] at h
  simpa [sfField] using h

/-- The registers that a superframe of lane `g` moves before its status bits. -/
def sfLow (g : Nat) : List Nat := R.snsLanestat g :: (snsFlts ++ modFlts)

/-- The registers of the lane and its channels that a superframe moves. -/
def sfTail (g : Nat) : List Nat := R.snsFestat g :: (sfLow g ++ (chansOf g).map R.modChstat)

theorem sfLow_tail (g : Nat) : sfLow g ⊆ sfTail g := fun _ hx => List.mem_cons_of_mem _ (List.mem_append_left _ hx)
theorem modFlts_low (g : Nat) : modFlts ⊆ sfLow g := fun _ hx => List.mem_cons_of_mem _ (List.mem_append_right _ hx)
theorem snsFlts_low (g : Nat) : snsFlts ⊆ sfLow g := fun _ hx => List.mem_cons_of_mem _ (List.mem_append_left _ hx)

/-- The registers that a superframe of lane `g` moves. -/
def sfRegs (g : Nat) : List Nat := cvuRegs ++ sfTail g

theorem Dev.snsL_onSns (d : Dev) {g : Nat} (f : SnsLane → SnsLane) (hg : g < d.sns.length) : (d.onSns g f).snsL g = f (d.snsL g) := by
  rw [Dev.snsL, Dev.snsL]
  exact (getD_updAt _ _ _ _ _).trans (if_pos ⟨rfl, hg⟩)

/-- A superframe of an enabled lane without a forced error (R274 to R279). -/
theorem Dev.superframe_leaves (d : Dev) {g sf : Nat} (bits arr c : Nat) (hg : g < 6) (hsf : sf < 8) (hst : (d.snsL g).run.state ≠ 0)
    (hforce : d.lf R.snsForce (4 * g) 4 = 0) (hch : d.mod.ch.length = 48) (hsns : d.sns.length = 6) :
    let e := d.superframe g sf bits arr c
    let l := d.snsL g
    let want := sf + 8 * ((if 1280 * (sf + 1) ≤ c then d.tick else d.tick - 1) % 2)
    let crcBad := decide (d.cvuValue 1 (sfBytes bits) ≠ sfField bits 152 8)
    let good := !crcBad && sfField bits 0 8 == 0b11100010 && sfField bits 144 4 == want && decide (arr ≤ 1152)
    (e.snsL g).run = l.run.next good ∧ d.keeps e (sfRegs g) ∧
      (good = true → d.counts e (R.snsCnt g 0) 1 ∧ e.reg (R.snsFestat g) = sfField bits 136 16) ∧
      (good = false → e.reg (R.snsFestat g) = d.reg (R.snsFestat g)) ∧
      (crcBad = true → l.run.state ≠ 1 → d.counts e (R.snsCnt g 1) 1 ∧ e.flag Blk.sns Src.snsCrcErr) ∧
      (l.run.state ≠ 4 → (l.run.next good).state = 4 → e.flag Blk.sns Src.snsLaneDown ∧ ∀ k ∈ chansOf g, (d.modC k).st = 1 → (e.modC k).st = 6) := by
  intro e l want crcBad good
  have he : e = d.superframe g sf bits arr c := rfl
  clear_value e
  subst he
  unfold Dev.superframe
  extract_lets da la tk par want' frc v dA dB crcBad' sfc synBad arrBad good' acq dC e1 e2 e3 dD run' data dE dF dG st old news ee dH m strm hist pair fast volts dI dJ
  rw [if_neg (show ¬(6 ≤ g ∨ 8 ≤ sf ∨ la.run.state = 0) from fun h => h.elim (by omega) (fun h => h.elim (by omega) hst))]
  -- the checks
  have hfrc : frc = 0 := hforce
  have hA : dA = da := if_neg (by omega)
  have hB : da.plays dB cvuRegs mirWide := by
    rw [show dB = dA.cvuSnoop 1 g (sfBytes bits) from rfl, hA]
    exact .of_marks (da.snoops_cvuSnoop (by decide) g _).1 (by decide) (by decide)
  have hBm : dB.mod = da.mod := by
    rw [show dB = dA.cvuSnoop 1 g (sfBytes bits) from rfl, hA]
    exact (da.snoops_cvuSnoop (by decide) g _).1.mod
  have hBs : dB.sns = da.sns := by
    rw [show dB = dA.cvuSnoop 1 g (sfBytes bits) from rfl, hA]
    exact (da.snoops_cvuSnoop (by decide) g _).1.sns
  have hcrc : crcBad' = crcBad := by
    rw [show crcBad' = (decide (0 < frc) || da.cvuValue 1 (sfBytes bits) != sfField bits 152 8) from rfl, hfrc]
    show (decide (0 < 0) || da.cvuValue 1 (sfBytes bits) != sfField bits 152 8) = decide (d.cvuValue 1 (sfBytes bits) ≠ sfField bits 152 8)
    rw [decide_eq_false (by decide : ¬0 < 0), Bool.false_or, bne, Bool.beq_eq_decide_eq, ← decide_not]
    rfl
  have hgood : good' = good := by
    rw [show good' = !(crcBad' || synBad || arrBad) from rfl, hcrc]
    show (!(crcBad || (sfField bits 0 8 != 226 || sfc != want') || decide (1152 < arr))) =
      (!crcBad && sfField bits 0 8 == 0b11100010 && sfField bits 144 4 == want && decide (arr ≤ 1152))
    rw [show sfc = sfField bits 144 4 from rfl, show want' = want from rfl]
    simp only [bne, Bool.not_or, Bool.not_not, Bool.and_assoc, ← decide_not, not_lt]
  have hC : dB.plays dC cvuRegs mirWide := .ite (fun _ => .bump dB 1 (mem_cvuFail (by decide))) (fun _ => .refl dB)
  have hCm : dC.mod = dB.mod ∧ dC.sns = dB.sns := by
    rw [show dC = if crcBad' = true then dB.cvuFail 1 else dB from rfl]
    split
    · exact ⟨rfl, rfl⟩
    · exact ⟨rfl, rfl⟩
  have hhead : da.plays dC cvuRegs mirWide := hB.trans hC
  -- the counters
  have hD : dD = dC.sfCounted g good' acq crcBad' synBad arrBad (decide (0 < frc)) want' sfc arr da.tickLo := rfl
  obtain ⟨hDp, hDgood, hDcrc⟩ := dC.sfCounted_leaves (g := g) good' acq crcBad' synBad arrBad (decide (0 < frc)) want' sfc arr da.tickLo
  rw [← hD] at hDp hDgood hDcrc
  have hDmarks := dC.sfCounted_marks (g := g) good' acq crcBad' synBad arrBad (decide (0 < frc)) want' sfc arr da.tickLo
  rw [← hD] at hDmarks
  have hDm := hDmarks.mod
  have hDs : dD.sns = da.sns := hDmarks.sns.trans (hCm.2.trans hBs)
  -- the lane
  have hE : dD.plays dE [] [] := .onSns dD g _
  have hErun : (dE.snsL g).run = run' := congrArg SnsLane.run (dD.snsL_onSns _ (by rw [hDs]; exact hg.trans_eq hsns.symm))
  have hEs : dE.sns.length = 6 := (length_updAt _ _ _).trans (by rw [hDs]; exact hsns)
  have hEm : dE.mod = dD.mod := rfl
  have hF : dF = dE.sfShown g arr run' := rfl
  obtain ⟨hFp, hFm, hFs⟩ := dE.sfShown_leaves hg arr run'
  rw [← hF] at hFp hFm hFs
  have hFmod : dF.mod = d.mod := by
    rw [hFm, hEm, hDm, hCm.1, hBm]
    rfl
  have hG : dG = dF.sfTurned g la.run run' (decide (0 < frc)) da.tickLo := rfl
  obtain ⟨hGp, hGs, hGdown⟩ := dF.sfTurned_leaves hg (by rw [hFmod]; exact hch) la.run run' (decide (0 < frc)) da.tickLo
  rw [← hG] at hGp hGs hGdown
  -- the status bits
  have hH : dH = dG.sfStatus g st da.tickLo good' news la.feT := rfl
  obtain ⟨hHp, hHm, hHrun, hHs, hHreg, hHkeep⟩ := dG.sfStatus_leaves hg (by rw [hGs, hFs]; exact hEs) (st := st) (lt_trans (sfField_lt bits 136 16) (by decide))
    da.tickLo good' news la.feT
  rw [← hH] at hHp hHm hHrun hHs hHreg hHkeep
  -- the limiter
  have hI : dH.plays dI [] [] := .onSns dH g _
  have hIm : dI.mod = dH.mod := rfl
  have hIrun : (dI.snsL g).run = (dH.snsL g).run := by
    rw [show dI.snsL g = _ from dH.snsL_onSns _ (hg.trans_eq hHs.symm)]
  have hJ : dI.plays dJ modFlts [R.modCnt 0] ∧ dJ.sns = dI.sns := by
    rw [show dJ = if run'.state = 4 then dI else List.foldl (fun d i => d.limiter (8 * g + i) (fast.getD i 0)) dI (List.range 8) from rfl]
    split
    · exact ⟨.refl dI, rfl⟩
    · exact dI.limiters_plays g fast (List.range 8)
  obtain ⟨hJp, hJs⟩ := hJ
  have hJdown (h : run'.state = 4) : dJ = dI := if_pos h
  have hlast := dJ.chStats_marks g
  have hlastp := dJ.chStats_plays hg
  have hfest : R.snsFestat g ∉ (chansOf g).map R.modChstat := by
    intro h
    obtain ⟨k, hk, he⟩ := List.mem_map.mp h
    have := lt_of_mem_chansOf hg hk
    simp only [R.modChstat, R.snsFestat] at he
    omega
  generalize (chansOf g).foldl (fun d c => d.chStat c) dJ = e at *
  have hrun' : run' = l.run.next good := by rw [show run' = la.run.next good' from rfl, hgood]; rfl
  clear_value dJ dI dH dG dF dE dD dC dB dA
  -- the whole
  have hDF : dD.plays dG (sfLow g) [] := (hE.mono (List.nil_subset _) (List.Subset.refl _)).trans
    ((hFp.mono (List.cons_subset_cons _ (List.nil_subset _)) (List.Subset.refl _)).trans (hGp.mono (List.subset_cons_self _ _) (List.Subset.refl _)))
  have hGe : dG.plays e (sfTail g) [R.modCnt 0] :=
    (hHp.mono (List.cons_subset_cons _ (List.Subset.trans (snsFlts_low g) (List.subset_append_left _ _))) (List.nil_subset _)).trans
      ((hI.mono (List.nil_subset _) (List.nil_subset _)).trans ((hJp.mono (List.Subset.trans (modFlts_low g) (sfLow_tail g)) (List.Subset.refl _)).trans
        (hlastp.mono (fun x hx => List.mem_cons_of_mem _ (List.mem_append_right _ hx)) (List.nil_subset _))))
  have hDe : dD.plays e (sfTail g) [R.modCnt 0] := (hDF.mono (sfLow_tail g) (List.nil_subset _)).trans hGe
  have hcnt {k : Nat} (hk : k ≤ 2) : R.snsCnt g k ∉ mirWide ∧ R.snsCnt g k ∉ [R.modCnt 0] := by
    refine ⟨fun h => ?_, by simp only [List.mem_singleton, R.snsCnt, R.modCnt]; omega⟩
    have hb := mirWide_blk h
    simp only [R.snsCnt, Blk.cvu, Blk.mir] at hb
    omega
  have hcounts {k : Nat} (hk : k ≤ 2) (h : dC.counts dD (R.snsCnt g k) 1) : d.counts e (R.snsCnt g k) 1 := by
    show e.w64 _ = _
    rw [hDe.w64 (hcnt hk).2, h, hhead.w64 (hcnt hk).1]
    rfl
  obtain ⟨-, -, hn3, hn4, hn5, -, hn7⟩ := snsStat_ne hg
  have hfestLast : e.reg (R.snsFestat g) = dH.reg (R.snsFestat g) := by
    rw [hlast.reg hfest, hJp.reg (by simp [modFlts, hn3.symm, hn7.symm]), hI.reg List.not_mem_nil]
  refine ⟨?_, ?_, fun h => ⟨hcounts (by decide) (hDgood (hgood.trans h)), hfestLast.trans (hHreg (hgood.trans h))⟩, fun h => ?_, fun h h1 => ?_, fun h4 hd => ?_⟩
  · rw [hlast.snsL, Dev.snsL, hJs, ← Dev.snsL, hIrun, hHrun, Dev.snsL, hGs, hFs, ← Dev.snsL, hErun, hrun']
  · exact Dev.keeps.trans (e := dC) (hhead.keeps.mono (List.subset_append_left _ _))
      (((hDp.keeps.mono (List.Subset.trans (snsFlts_low g) (sfLow_tail g))).trans hDe.keeps).mono (List.subset_append_right _ _))
  · rw [hfestLast, hHkeep (hgood.trans h), hDF.reg (by simp [sfLow, snsFlts, modFlts, hn3.symm, hn4.symm, hn5.symm, hn7.symm]),
      hDp.reg (by simp [snsFlts, hn4.symm, hn5.symm]), hhead.reg (not_mem_cvuRegs (by simp only [R.snsFestat, Blk.cvu]; omega))]
    rfl
  · have hbad : good = false := by
      rw [show good = (!crcBad && sfField bits 0 8 == 0b11100010 && sfField bits 144 4 == want && decide (arr ≤ 1152)) from rfl, h]
      rfl
    obtain ⟨hc, hfl⟩ := hDcrc (hgood.trans hbad) (beq_false_of_ne h1) (hcrc.trans h)
    exact ⟨hcounts (by decide) hc, hDe.flag (.inr rfl) (by decide) hfl⟩
  · obtain ⟨hfl, hmute⟩ := hGdown h4 (by rw [hrun']; exact hd)
    refine ⟨hGe.flag (.inr rfl) (by decide) hfl, fun k hk hst1 => ?_⟩
    rw [hlast.modC, hJdown (by rw [hrun']; exact hd), Dev.modC, hIm, hHm, ← Dev.modC]
    refine hmute k hk ?_
    rw [Dev.modC, hFmod]
    exact hst1

theorem cvuSnsModRegs {g off : Nat} (hg : g < 6) (h : off ∈ sfRegs g) : off / 0x10000 ∈ [Blk.sns, Blk.mod, Blk.cvu] := by
  have hb : Blk.sns = 19 ∧ Blk.mod = 18 ∧ Blk.cvu = 22 := ⟨rfl, rfl, rfl⟩
  rcases List.mem_append.mp h with h | h
  · simp [cvuRegs_blk h]
  · simp only [sfTail, sfLow, snsFlts, modFlts, List.mem_cons, List.mem_append, List.mem_map, List.not_mem_nil, or_false] at h
    rcases h with rfl | (rfl | (rfl | rfl) | (rfl | rfl)) | ⟨k, hk, rfl⟩
    · simp only [R.snsFestat, List.mem_cons, List.not_mem_nil, or_false, hb]
      omega
    · simp only [R.snsLanestat, List.mem_cons, List.not_mem_nil, or_false, hb]
      omega
    · decide
    · decide
    · decide
    · decide
    · have := lt_of_mem_chansOf hg hk
      simp only [R.modChstat, List.mem_cons, List.not_mem_nil, or_false, hb]
      omega

theorem Dev.superframe_off (d : Dev) {g sf : Nat} (bits arr c : Nat) (h : 6 ≤ g ∨ 8 ≤ sf ∨ (d.snsL g).run.state = 0) : d.superframe g sf bits arr c = d.atC c := if_pos h

/-- Settles O57: each row of the sense lanes and the modulators, stage by stage, in the frame that says what they move. -/
theorem senseLanesAndModulators : Obligations.SenseLanesAndModulators := by
  intro z c hrun hch hgrp hsns d same flts others
  refine ⟨fun g sf bits arr => ⟨fun h => ?_, fun hg hsf hst hforce => ?_⟩, fun hlive => ?_, fun hlive hown => ?_, fun ch j => ⟨fun h => ?_, fun h48 hj hc hon => ?_, fun h48 hj hc hon => ?_⟩,
    fun ch h48 => ⟨fun hst hn hat => ?_, fun h => ?_, fun hready hup => ?_, fun hready hdown => ?_, fun hready => ?_⟩,
    fun g hg => ⟨⟨fun hready => ?_, fun hready => ?_⟩, fun t hfell ht hen => ?_, fun h => ?_, fun hamp => ?_, fun hamp => ?_⟩⟩
  · exact exec_tickRow_still rfl hrun (d.superframe_off bits arr c h)
  · intro want crcBad good
    refine leads_of_tickRow rfl hrun ?_
    obtain ⟨hrunL, hk, hgood, hbad, hcrc, hdown⟩ := d.superframe_leaves bits arr c hg hsf hst hforce hch hsns
    exact ⟨hrunL, fun off ho => hk off (fun hc => ho (cvuSnsModRegs hg hc)), hgood, hbad, hcrc, hdown⟩
  · refine exec_tickRow_still rfl hrun (if_pos ?_)
    rw [show (d.atC 4096).modLive = false from hlive]
    rfl
  · refine leads_of_tickRow rfl hrun ?_
    obtain ⟨hk, hC⟩ := d.loopCompute_leaves hlive hown hch
    refine ⟨hk, fun hmin k hk48 h hh => ?_, fun k hk48 => ⟨fun hst => ?_, fun hst => ?_⟩⟩
    · rw [hC k hk48] at hh
      exact d.looped_within hmin k _ h hh
    · rw [hC k hk48, Dev.looped, if_pos hst]
      exact ⟨rfl, rfl⟩
    · rw [hC k hk48, Dev.looped, if_neg hst]
  · exact exec_tickRow_still rfl hrun (d.carrierPeriod_off h)
  · exact leads_of_tickRow rfl hrun (d.carrierPeriod_rests h48 hj hc hch hon)
  · intro h
    refine leads_of_tickRow rfl hrun ?_
    obtain ⟨hC, hne, hk⟩ := d.carrierPeriod_starts h48 hj hc hch hon
    refine ⟨hne, hk, ?_⟩
    rw [hC]
    exact ⟨rfl, rfl, rfl, rfl⟩
  · obtain ⟨j, hj, hc⟩ := hat
    refine leads_of_tickRow rfl hrun ?_
    obtain ⟨hC, hne, hk, hcnt, hfl, hex⟩ := d.shortLatch_latches h48 hch hst hn hj hc
    refine ⟨?_, ?_, ?_, hcnt, hfl, fun h => hex (decide_eq_false (Nat.not_lt.mpr h)), hne, hk⟩
    · rw [hC]
      exact if_congr decide_eq_true_iff rfl rfl
    · rw [hC]
      rfl
    · rw [hC]
      rfl
  · exact exec_tickRow_still rfl hrun (d.shortLatch_off h)
  · refine leads_of_tickRow rfl hrun ?_
    obtain ⟨hC, hne, hk, hfl⟩ := d.retry_runs h48 hch hready hup
    rw [hC]
    refine ⟨rfl, rfl, rfl, fun r hr ht hstop => ?_, hfl, hne, hk⟩
    show d.chRamp (ch / 8) = _
    simp only [Dev.chRamp, show (d.modG (ch / 8)).ramp = some r from hr, if_neg (Nat.not_lt.mpr ht), show (d.modG (ch / 8)).stop = false from hstop]
    rfl
  · refine leads_of_tickRow rfl hrun ?_
    obtain ⟨hst, hn, hfl, hflm, hk⟩ := d.retry_muted h48 hch hready hdown
    exact ⟨hst, hn, hfl, hflm, hk⟩
  · exact exec_tickRow_still rfl hrun (d.retry_off hready)
  · exact leads_of_tickRow rfl hrun (d.ampEnRise_rises hg hch hgrp hready)
  · exact exec_tickRow_still rfl hrun (d.ampEnRise_off hready)
  · exact leads_of_tickRow rfl hrun (d.groupStop_stops hg hch hgrp hfell ht hen)
  · exact exec_tickRow_still rfl hrun (d.groupStop_off h)
  · exact leads_of_tickRow rfl hrun (d.drvFault_faults hg hch hgrp hamp)
  · refine exec_tickRow_still rfl hrun (if_neg ?_)
    rw [show ((d.atC c).modG g).amp = false from hamp]
    decide

end Sys2Proof.Machine

/-!
PROOFS. Postings and records: the intake, numbering, the black box.
-/
namespace Sys2Proof.Machine

/-- A row that changes nothing of the system. -/
theorem exec_tickRow_same {z : State} {i : Instr} {f : Sys → Sys} (hi : exec i z = z.tickRow f) (hrun : z.Running) (h : f z.sys = z.sys) : exec i z = .next z := by
  rw [exec_tickRow hi hrun, h]
  rfl

/-! ## The intake (R32, R371) -/

theorem raise_foldLast_length (b : Nat) (l : List Posting) : (Dev.raiseF.foldLast b l).length = l.length := by
  rw [Dev.raiseF.foldLast]
  split
  · exact length_updAt _ _ _
  · rfl

/-- A fault does not change how many postings the intake holds. -/
theorem Dev.raise_intake_length (d : Dev) (b src d0 d1 d2 : Nat) : (d.raise b src d0 d1 d2).evt.intake.length = d.evt.intake.length := by
  unfold Dev.raise Dev.raiseF
  extract_lets sev f stat first inWin recd old escal ff ff1 react yl hot f1 att p post mark
  rw [Dev.irqUpdate_evt]
  have hpost (e : Evt) : (post e).intake.length = e.intake.length := by
    simp only [post]
    split_ifs
    · rfl
    · rfl
    · exact raise_foldLast_length b e.intake
    · rfl
  exact hpost (mark d.evt)

theorem Dev.intakeStat_leaves (d : Dev) : d.marks d.intakeStat [R.evtStat] [] ∧ d.intakeStat.evt = d.evt := by
  unfold Dev.intakeStat
  extract_lets n d1
  have h1 : d.marks d1 [R.evtStat] [] := .setFld d _ _ _ (by simp)
  have h1e : d1.evt = d.evt := rfl
  split
  · exact ⟨h1.trans (.setFld d1 _ _ _ (by simp)), h1e⟩
  · exact ⟨h1, h1e⟩

/-- The posting as it enters the intake. -/
def Dev.stamped (d : Dev) (p : Posting) : Posting := if p.approx then { p with cyc := d.cycle } else p

theorem Dev.stamped_sev (d : Dev) (p : Posting) : (d.stamped p).sev = p.sev := by
  rw [Dev.stamped]
  split
  · rfl
  · rfl

section
variable (d : Dev) {p : Posting} {t : List Posting} (hpath : d.evt.path = p :: t)
include hpath

theorem Dev.postDeliver_admits (h : d.intakeNow < intakeLimit p.sev) : let e := d.postDeliver
    e.evt.path = t ∧ e.evt.intake = d.evt.intake ++ [d.stamped p] ∧ d.keeps e [R.evtStat] := by
  have he : d.postDeliver = ({ d with evt := { d.evt with path := t, intake := d.evt.intake ++ [d.stamped p] } } : Dev).intakeStat := by
    simp only [Dev.postDeliver, hpath]
    exact if_pos (lt_of_lt_of_eq h (congrArg intakeLimit (d.stamped_sev p).symm))
  obtain ⟨hm, hevt⟩ := Dev.intakeStat_leaves { d with evt := { d.evt with path := t, intake := d.evt.intake ++ [d.stamped p] } }
  rw [he]
  exact ⟨congrArg Evt.path hevt, congrArg Evt.intake hevt, Dev.keeps.trans (Dev.keeps_of_regs ⟨rfl, rfl, rfl⟩ _) hm.keeps⟩

theorem Dev.postDeliver_sheds (h : intakeLimit p.sev ≤ d.intakeNow) : let e := d.postDeliver
    d.counts e (R.evtCnt 1) 1 ∧ e.evt.intake.length = d.evt.intake.length ∧ (d.evt.shedT ≠ d.tick + 1 → e.flag Blk.evt Src.evtShedding) := by
  let d2 := (({ d with evt := { d.evt with path := t } } : Dev).bump (R.evtCnt 1) 1).lose (d.stamped p).blk (d.stamped p).src 2
  have he : d.postDeliver = if d2.evt.shedT = d2.tick + 1 then d2
      else ({ d2 with evt := { d2.evt with shedT := d2.tick + 1 } } : Dev).raise Blk.evt Src.evtShedding d2.tickLo d2.intakeNow 0 := by
    simp only [Dev.postDeliver, hpath]
    exact if_neg (Nat.not_lt.mpr (le_of_eq_of_le (congrArg intakeLimit (d.stamped_sev p)) h))
  have hcnt : d.counts d2 (R.evtCnt 1) 1 := Dev.w64_bump _ _ _
  have hlen : d2.evt.intake.length = d.evt.intake.length := rfl
  have hshed : d2.evt.shedT = d.evt.shedT ∧ d2.tick = d.tick := ⟨rfl, rfl⟩
  clear_value d2
  rw [he]
  by_cases hs : d2.evt.shedT = d2.tick + 1
  · rw [if_pos hs]
    exact ⟨hcnt, hlen, fun hne => absurd (hshed.1.symm.trans (hs.trans (congrArg (· + 1) hshed.2))) hne⟩
  · rw [if_neg hs]
    exact ⟨(Dev.w64_raise ..).trans hcnt, (Dev.raise_intake_length ..).trans hlen, fun _ => Dev.flag_raise _ _ _ _ _ _ (by decide)⟩

end

theorem Dev.postDrop_idle (d : Dev) (h : ∀ p ∈ d.evt.path, 3 ≤ p.sev) : d.postDrop = d := by
  have hnone : d.evt.path.find? (fun p => decide (p.sev ≤ 2)) = none := List.find?_eq_none.mpr (fun p hp => by
    have := h p hp
    simp only [decide_eq_true_eq]
    omega)
  rw [Dev.postDrop, hnone]

theorem Dev.postDrop_drops (d : Dev) (h : ∃ p ∈ d.evt.path, p.sev ≤ 2) : d.counts d.postDrop (R.evtCnt 5) 1 ∧ d.postDrop.flag Blk.evt Src.evtStatusDrop := by
  obtain ⟨p, hfind⟩ : ∃ p, d.evt.path.find? (fun p => decide (p.sev ≤ 2)) = some p := by
    rw [← Option.isSome_iff_exists, List.find?_isSome]
    obtain ⟨p, hp, hs⟩ := h
    exact ⟨p, hp, decide_eq_true hs⟩
  let d2 := (({ d with evt := { d.evt with path := d.evt.path.erase p } } : Dev).bump (R.evtCnt 5) 1).lose p.blk p.src 1
  obtain ⟨n, he⟩ : ∃ n, d.postDrop = d2.raise Blk.evt Src.evtStatusDrop p.blk n 0 := by
    rw [Dev.postDrop, hfind]
    exact ⟨_, rfl⟩
  have hcnt : d.counts d2 (R.evtCnt 5) 1 := Dev.w64_bump _ _ _
  clear_value d2
  rw [he]
  exact ⟨(Dev.w64_raise ..).trans hcnt, Dev.flag_raise _ _ _ _ _ _ (by decide)⟩

/-! ## The black box takes a record (R375) -/

/-- From `d` to `e` the black box has taken a record: its status, its trigger, its counters and the records made alone differ. -/
def Dev.stores (d e : Dev) : Prop :=
  d.keeps e [R.bbxStat, R.bbxTrig, R.bbxTrigseq] ∧ (∀ o, o ∉ [R.bbxCnt 0, R.bbxCnt 1] → e.w64 o = d.w64 o) ∧ ∃ m, e.evt = { d.evt with made := m }

namespace Dev.stores

theorem refl (d : Dev) : d.stores d := ⟨d.keeps_refl _, fun _ _ => rfl, _, rfl⟩

theorem trans {d e f : Dev} (h : d.stores e) (k : e.stores f) : d.stores f := by
  obtain ⟨hk, hw, m, hm⟩ := h
  obtain ⟨kk, kw, m', km⟩ := k
  exact ⟨hk.trans kk, fun o ho => (kw o ho).trans (hw o ho), m', by rw [km, hm]⟩

theorem setFld (d : Dev) {o : Nat} (lo w x : Nat) (ho : o ∈ [R.bbxStat, R.bbxTrig, R.bbxTrigseq]) : d.stores (d.setFld o lo w x) :=
  ⟨d.keeps_setFld _ _ _ _ ho, fun _ _ => rfl, d.evt.made, rfl⟩

theorem setReg (d : Dev) {o : Nat} (x : Nat) (ho : o ∈ [R.bbxStat, R.bbxTrig, R.bbxTrigseq]) : d.stores (d.setReg o x) :=
  ⟨d.keeps_setReg _ _ ho, fun _ _ => rfl, d.evt.made, rfl⟩

theorem bump (d : Dev) {o : Nat} (n : Nat) (ho : o ∈ [R.bbxCnt 0, R.bbxCnt 1]) : d.stores (d.bump o n) :=
  ⟨Dev.keeps_of_regs ⟨rfl, rfl, rfl⟩ _, fun _ h => d.w64_bump_ne _ _ _ (fun hc => h (hc ▸ ho)), d.evt.made, rfl⟩

theorem makeRec (d : Dev) (b ty sev d0 d1 d2 : Nat) : d.stores (d.makeRec b ty sev d0 d1 d2) :=
  ⟨Dev.keeps_of_regs ⟨rfl, rfl, rfl⟩ _, fun _ _ => rfl, _, rfl⟩

theorem onBbx (d : Dev) (b : Bbx) : d.stores { d with bbx := b } := ⟨Dev.keeps_of_regs ⟨rfl, rfl, rfl⟩ _, fun _ _ => rfl, d.evt.made, rfl⟩

end Dev.stores

/-- The index of the black box and its freeze are those of the status register. -/
theorem Dev.rf_bbxStat_setFld (d : Dev) (lo w x : Nat) (h : 13 ≤ lo) : (d.setFld R.bbxStat lo w x).rf R.bbxStat 0 13 = d.rf R.bbxStat 0 13 :=
  Dev.rf_setFld_lo _ _ _ _ _ _ _ (by omega) (by omega)

theorem Dev.bbxS4_leaves (d : Dev) (r : EvRec) : d.stores (d.bbxS4 r) ∧ (d.bbxS4 r).rf R.bbxStat 0 13 = d.rf R.bbxStat 0 13 ∧
    (d.bbxS4 r).rf R.bbxStat 31 1 = d.rf R.bbxStat 31 1 := by
  unfold Dev.bbxS4
  split
  · exact ⟨.refl d, rfl, rfl⟩
  split
  · rw [Dev.trigLost]
    have hb : d.stores (d.bump (R.bbxCnt 1) 1) := .bump d 1 (by simp)
    have hr (lo w : Nat) : (d.bump (R.bbxCnt 1) 1).rf R.bbxStat lo w = d.rf R.bbxStat lo w := rfl
    generalize d.bump (R.bbxCnt 1) 1 = d1 at *
    show d.stores (if d1.rf R.bbxStat 31 1 = 1 then d1.makeRec Blk.bbx 4 2 4 0 0 else d1) ∧ _
    split
    · exact ⟨hb.trans (.makeRec d1 _ _ _ _ _ _), hr _ _, hr _ _⟩
    · exact ⟨hb, hr _ _, hr _ _⟩
  · refine ⟨((Dev.stores.setFld d 30 1 1 (by simp)).trans (.setFld _ 26 3 1 (by simp))).trans (.bump _ 1 (by simp)), ?_, ?_⟩
    · rw [Dev.rf, Dev.reg, Dev.bump_regs, ← Dev.reg, ← Dev.rf, Dev.rf_bbxStat_setFld _ _ _ _ (by decide),
        Dev.rf_bbxStat_setFld _ _ _ _ (by decide)]
    · rw [Dev.rf, Dev.reg, Dev.bump_regs, ← Dev.reg, ← Dev.rf, Dev.rf_setFld_hi _ _ _ _ _ _ _ (by decide) (by decide), Dev.rf_setFld_hi _ _ _ _ _ _ _ (by decide) (by decide)]

/-- Operations on the black box that leave its index. -/
theorem Dev.rf_index_of_ne (d : Dev) {o : Nat} (lo w x : Nat) (h : R.bbxStat ≠ o) : (d.setFld o lo w x).rf R.bbxStat 0 13 = d.rf R.bbxStat 0 13 :=
  Dev.rf_setFld_ne _ _ _ _ _ _ _ h

/-- The index moves on, with its wrap. -/
def Dev.bbxNext (d : Dev) (i : Nat) : Dev :=
  let d1 := d.setFld R.bbxStat 0 13 ((i + 1) % 8192)
  if i + 1 = 8192 then d1.setFld R.bbxStat 29 1 1 else d1

theorem Dev.bbxNext_leaves (d : Dev) (i : Nat) : d.stores (d.bbxNext i) ∧ (d.bbxNext i).rf R.bbxStat 0 13 = (i + 1) % 8192 := by
  unfold Dev.bbxNext
  extract_lets d1
  have h1 : d.stores d1 := .setFld d _ _ _ (by simp)
  have hr : d1.rf R.bbxStat 0 13 = (i + 1) % 8192 := (Dev.rf_setFld _ _ _ _ _ (by decide)).trans (Nat.mod_eq_of_lt (Nat.mod_lt _ (by decide)))
  clear_value d1
  split
  · exact ⟨h1.trans (.setFld _ _ _ _ (by simp)), (Dev.rf_bbxStat_setFld _ _ _ _ (by decide)).trans hr⟩
  · exact ⟨h1, hr⟩

/-- The trigger record's index and number, and the count from it. -/
def Dev.bbxTriggered (d : Dev) (i seq : Nat) : Dev :=
  let e := (d.setFld R.bbxTrig 0 13 i).setReg R.bbxTrigseq seq
  { e with bbx := { e.bbx with
    post := some 0
    dpost := if e.rf R.bbxCtrl 1 1 = 1 then some (e.rf R.bbxDcfg 0 22) else none } }

theorem Dev.bbxTriggered_leaves (d : Dev) (i seq : Nat) : d.stores (d.bbxTriggered i seq) ∧ (d.bbxTriggered i seq).rf R.bbxStat 0 13 = d.rf R.bbxStat 0 13 := by
  unfold Dev.bbxTriggered
  extract_lets e
  have he : d.stores e := (Dev.stores.setFld d _ _ _ (by simp)).trans (.setReg _ _ (by simp))
  have hr : e.rf R.bbxStat 0 13 = d.rf R.bbxStat 0 13 := (Dev.rf_setReg_ne _ _ _ _ _ (by decide)).trans (Dev.rf_index_of_ne _ _ _ _ (by decide))
  clear_value e
  exact ⟨he.trans (.onBbx e _), hr⟩

/-- The device with a record counted from the trigger. -/
def Dev.postCounted (d : Dev) (n : Nat) : Dev := ({ d with bbx := { d.bbx with post := some (n + 1) } } : Dev).setFld R.bbxTrig 16 12 (n + 1)

theorem Dev.postCounted_leaves (d : Dev) (n : Nat) : d.stores (d.postCounted n) ∧ (d.postCounted n).rf R.bbxStat 0 13 = d.rf R.bbxStat 0 13 := by
  have h1 : d.stores { d with bbx := { d.bbx with post := some (n + 1) } } := .onBbx d _
  have hr : ({ d with bbx := { d.bbx with post := some (n + 1) } } : Dev).reg R.bbxStat = d.reg R.bbxStat :=
    (Dev.keeps_of_regs (e := { d with bbx := { d.bbx with post := some (n + 1) } }) ⟨rfl, rfl, rfl⟩ [] _ List.not_mem_nil).1
  rw [Dev.postCounted]
  generalize ({ d with bbx := { d.bbx with post := some (n + 1) } } : Dev) = d1 at *
  exact ⟨h1.trans (.setFld _ _ _ _ (by simp)), (Dev.rf_index_of_ne _ _ _ _ (by decide)).trans (by rw [Dev.rf, hr, Dev.rf])⟩

/-- The black box, not frozen, takes a record at its index (R375). -/
theorem Sys.bbxStore_leaves (s : Sys) (r : EvRec) (h : s.dev.rf R.bbxStat 31 1 = 0) : let t := s.bbxStore r
    let i := s.dev.rf R.bbxStat 0 13
    s.dev.stores t.dev ∧ t.otp = s.otp ∧ t.mem = s.mem.putBytes (retainedBase + 32 * i) r.bytes ∧ t.dev.rf R.bbxStat 0 13 = (i + 1) % 8192 := by
  intro t i
  have ht : t = s.bbxStore r := rfl
  clear_value t
  subst ht
  unfold Sys.bbxStore
  extract_lets trig d j d1 d2 e bb d3 s1
  obtain ⟨hd, hi, hf⟩ := s.dev.bbxS4_leaves r
  have hne : ¬d.rf R.bbxStat 31 1 = 1 := by
    rw [show d.rf R.bbxStat 31 1 = _ from hf, h]
    decide
  have hij : j = i := hi
  rw [if_neg hne]
  have hn : d.stores d2 ∧ d2.rf R.bbxStat 0 13 = (j + 1) % 8192 := d.bbxNext_leaves j
  have h3 : d2.stores d3 ∧ d3.rf R.bbxStat 0 13 = d2.rf R.bbxStat 0 13 := by
    simp only [d3]
    split
    · exact d2.bbxTriggered_leaves j r.seq
    · exact ⟨.refl d2, rfl⟩
  have hs1 : s.dev.stores s1.dev := (hd.trans hn.1).trans h3.1
  have hi1 : s1.dev.rf R.bbxStat 0 13 = (i + 1) % 8192 := h3.2.trans (hij ▸ hn.2)
  have hm1 : s1.mem = s.mem.putBytes (retainedBase + 32 * i) r.bytes := by
    simp only [s1]
    rw [hij]
  have ho1 : s1.otp = s.otp := rfl
  clear_value s1
  split
  · exact ⟨hs1, ho1, hm1, hi1⟩
  · rename_i n _
    extract_lets s2 s3
    obtain ⟨h2, hi2⟩ : s1.dev.stores s2.dev ∧ s2.dev.rf R.bbxStat 0 13 = s1.dev.rf R.bbxStat 0 13 := s1.dev.postCounted_leaves n
    have hm2 : s2.mem = s1.mem ∧ s2.otp = s1.otp := ⟨rfl, rfl⟩
    have h3 : s2.dev.stores s3.dev := .setFld _ _ _ _ (by simp)
    have hi3 : s3.dev.rf R.bbxStat 0 13 = s2.dev.rf R.bbxStat 0 13 := Dev.rf_bbxStat_setFld _ _ _ _ (by decide)
    have hm3 : s3.mem = s2.mem ∧ s3.otp = s2.otp := ⟨rfl, rfl⟩
    clear_value s3 s2
    split
    · exact ⟨hs1.trans h2, hm2.2.trans ho1, hm2.1.trans hm1, hi2.trans hi1⟩
    · exact ⟨((hs1.trans h2).trans h3).trans (.makeRec s3.dev _ _ _ _ _ _), hm3.2.trans (hm2.2.trans ho1), hm3.1.trans (hm2.1.trans hm1),
        (Dev.makeRec_rf s3.dev _ _ _ _ _ _ _ _ _).trans (hi3.trans (hi2.trans hi1))⟩

/-! ## Numbering (R370, R373) -/

/-- A record that stands in the queue alone closes, with the extension not in use (R373). -/
theorem Sys.closeRec_single (s : Sys) {r : EvRec} (hq : s.dev.evt.queue = [(r, false)]) (hddr : s.dev.rf R.ddrStat 0 1 = 0) : s.closeRec r.seq =
    s.onDev (fun d => { d with evt := { d.evt with
      queue := [(r, true)]
      opens := d.evt.opens.filter (fun o => o.recd.seq != r.seq) } }) := by
  have hfind : s.dev.evt.queue.find? (fun x => x.1.seq == r.seq && !x.2) = some (r, false) := by
    rw [hq]
    simp
  have hmap : s.dev.evt.queue.map (fun y => if y.1.seq == r.seq then (y.1, true) else y) = [(r, true)] := by
    rw [hq]
    simp
  rw [Sys.closeRec, hfind]
  refine (if_pos (Or.inl hddr)).trans ?_
  show s.onDev (fun d => { d with evt := { d.evt with queue := s.dev.evt.queue.map (fun y => if y.1.seq == r.seq then (y.1, true) else y), opens := _ } }) = _
  rw [hmap]
  rfl

/-- A record numbered at once, with the queue empty and no record open (R370). -/
theorem Sys.numberRec_alone (s : Sys) (r0 : EvRec) (hq : s.dev.evt.queue = []) (hopen : s.dev.evt.opens = []) (hfz : s.dev.rf R.bbxStat 31 1 = 0)
    (hddr : s.dev.rf R.ddrStat 0 1 = 0) : let t := s.numberRec r0 none
    let r : EvRec := { r0 with seq := s.dev.reg R.evtSeq }
    let i := s.dev.rf R.bbxStat 0 13
    t.dev.reg R.evtSeq = (s.dev.reg R.evtSeq + 1) % 2 ^ 32 ∧ s.dev.counts t.dev (R.evtCnt 0) 1 ∧ t.dev.evt.queue = [(r, true)] ∧
      t.dev.evt.intake = s.dev.evt.intake ∧ t.dev.rf R.bbxStat 0 13 = (i + 1) % 8192 ∧ t.otp = s.otp ∧ t.mem = s.mem.putBytes (retainedBase + 32 * i) r.bytes := by
  intro t r i
  let s1 := s.onDev (fun d => (d.setReg R.evtSeq ((r.seq + 1) % 2 ^ 32)).bump (R.evtCnt 0) 1)
  have hk1 : s.dev.keeps s1.dev [R.evtSeq] := Dev.keeps_setReg s.dev _ _ (by simp)
  have hseq1 : s1.dev.reg R.evtSeq = (s.dev.reg R.evtSeq + 1) % 2 ^ 32 := (Dev.reg_setReg s.dev _ _).trans (Nat.mod_mod _ _)
  have hcnt1 : s.dev.counts s1.dev (R.evtCnt 0) 1 := Dev.w64_bump _ _ _
  have hevt1 : s1.dev.evt = s.dev.evt := rfl
  have hmem1 : s1.mem = s.mem ∧ s1.otp = s.otp := ⟨rfl, rfl⟩
  have hrf1 {o : Nat} (lo w : Nat) (ho : o ≠ R.evtSeq) : s1.dev.rf o lo w = s.dev.rf o lo w := by rw [Dev.rf, (hk1 o (by simp [ho])).1, Dev.rf]
  obtain ⟨⟨hk2, hw2, m, hevt2⟩, ho2, hm2, hi2⟩ := s1.bbxStore_leaves r ((hrf1 _ _ (by decide)).trans hfz)
  let s3 := (s1.bbxStore r).onDev (fun d => { d with evt := { d.evt with queue := d.evt.queue ++ [(r, false)] } })
  have hq3 : s3.dev.evt.queue = [(r, false)] := by
    show (s1.bbxStore r).dev.evt.queue ++ _ = _
    rw [hevt2]
    show s1.dev.evt.queue ++ _ = _
    rw [hevt1, hq]
    rfl
  have hddr3 : s3.dev.rf R.ddrStat 0 1 = 0 := by
    show (s1.bbxStore r).dev.rf _ _ _ = 0
    rw [Dev.rf, (hk2 _ (by decide)).1, ← Dev.rf, hrf1 _ _ (by decide), hddr]
  have hclose := s3.closeRec_single hq3 hddr3
  have hopen4 : (s3.closeRec r.seq).dev.evt.opens = [] := by
    rw [hclose]
    show (s1.bbxStore r).dev.evt.opens.filter _ = []
    rw [hevt2]
    show s1.dev.evt.opens.filter _ = []
    rw [hevt1, hopen]
    rfl
  have he : t = s3.closeRec r.seq := by
    have hall : (s3.closeRec r.seq).closeAll = s3.closeRec r.seq := by
      rw [Sys.closeAll, hopen4]
      rfl
    show (if _ then (s3.closeRec r.seq).closeAll else s3.closeRec r.seq) = _
    rw [hall, ite_self]
  rw [he, hclose]
  refine ⟨?_, ?_, rfl, ?_, ?_, ho2.trans hmem1.2, ?_⟩
  · exact (hk2 _ (by decide)).1.trans hseq1
  · exact (hw2 _ (by decide)).trans hcnt1
  · exact (congrArg Evt.intake hevt2 :)
  · exact hi2.trans (by rw [hrf1 _ _ (by decide)])
  · rw [show (s3.onDev _).mem = (s1.bbxStore r).mem from rfl, hm2, hmem1.1, hrf1 _ _ (by decide)]

end Sys2Proof.Machine

/-!
PROOFS. Numbering of a tick's postings, the close of a window, the host event ring.
-/
namespace Sys2Proof.Machine

theorem EvRec.bytes_length (r : EvRec) : r.bytes.length = 32 := by
  simp only [EvRec.bytes, List.length_append, length_leBytes]

/-! ## EVT numbers what it holds (R370) -/

theorem Dev.evt_self (d : Dev) {l : List EvRec} (h : l = d.evt.made) : { d with evt := { d.evt with made := l } } = d := by rw [h]

theorem Sys.numberSession_none (s : Sys) (h : s.dev.evt.made = []) : s.numberSession = s := by
  have hmade : s.dev.evt.made.filter (fun r => !r.session) = s.dev.evt.made := by rw [h]; rfl
  rw [Sys.numberSession, h]
  show s.onDev (fun d => { d with evt := { d.evt with made := s.dev.evt.made.filter (fun r => !r.session) } }) = s
  rw [hmade]
  rfl

theorem Sys.drops_none (s : Sys) (p : Posting) (h : s.dev.evt.lost = []) : s.drops p = s := by
  have hlost : s.dev.evt.lost.filter (fun x => !(x.blk == p.blk && x.src == p.src)) = s.dev.evt.lost := by rw [h]; rfl
  rw [Sys.drops, h]
  show s.onDev (fun d => { d with evt := { d.evt with lost := s.dev.evt.lost.filter (fun x => !(x.blk == p.blk && x.src == p.src)) } }) = s
  rw [hlost]
  rfl

/-- The device with nothing left to number. -/
def Dev.numbered (d : Dev) : Dev := { d with evt := { d.evt with intake := [], made := [] } }

theorem Sys.numberTick_single (s : Sys) {p : Posting} (hi : s.dev.evt.intake = [p]) (hm : s.dev.evt.made = []) :
    s.numberTick p.tick = (s.onDev Dev.numbered).numberPosting p := by
  have hmine : s.dev.evt.intake.filter (fun q => q.tick == p.tick) = [p] := by simp [hi]
  have hrest : s.dev.evt.intake.filter (fun q => q.tick != p.tick) = [] := by simp [hi]
  rw [Sys.numberTick, hmine, hm]
  show Sys.numberPosting (s.onDev (fun d => { d with evt := { d.evt with
    intake := s.dev.evt.intake.filter (fun q => q.tick != p.tick)
    made := s.dev.evt.made.filter (fun r => r.tick != p.tick) } })) p = _
  rw [hrest, hm]
  rfl

/-- A lone posting of an earlier tick is numbered (R370). -/
theorem Sys.evtNumbering_single (s : Sys) {p : Posting} (hhold : s.dev.numberHold = false) (hi : s.dev.evt.intake = [p]) (hm : s.dev.evt.made = [])
    (ht : p.tick ≠ s.dev.tick) : s.evtNumbering = ((s.onDev Dev.numbered).numberPosting p).onDev (fun d => d.intakeStat) := by
  have hts : (sortBy id ((s.dev.evt.intake.map (·.tick) ++ s.dev.evt.made.map (·.tick)).filter (fun t => t != s.dev.tick))).eraseDups = [p.tick] := by
    rw [hi, hm]
    simp [ht, sortBy, insBy, List.eraseDups_cons]
  rw [Sys.evtNumbering, if_neg (by rw [hhold]; decide), s.numberSession_none hm]
  simp only [hts]
  exact congrArg (fun t => Sys.onDev t (fun d => d.intakeStat)) (s.numberTick_single hi hm)

section
variable (s : Sys) {p : Posting}

/-- A posting of S3 or S4 whose source has no open record is numbered (R372). -/
theorem Sys.numberPosting_high (hsev : 3 ≤ p.sev) (hopen : s.dev.evt.opens = []) (hlost : s.dev.evt.lost = []) : s.numberPosting p = s.numberRec p.toRec none := by
  have hof : s.dev.openOf p = none := by
    rw [Dev.openOf, hopen]
    rfl
  have hlow : decide (p.sev ≤ 2) = false := decide_eq_false (by omega)
  rw [Sys.numberPosting, hof]
  show Sys.numberPosting.numberNew s p = _
  rw [Sys.numberPosting.numberNew]
  simp only [hlow, Bool.false_and, Bool.false_eq_true, if_false, Bool.not_true]
  rw [show ({ s with dev := s.dev } : Sys) = s from rfl, s.drops_none p hlost]

/-- An open record with one more occurrence. -/
def OpenRec.again (o : OpenRec) : EvRec := { o.recd with rep := min 65535 (o.recd.rep + 1) }

/-- A posting that folds into an open record takes no number (R373). -/
theorem Sys.numberPosting_folds {o : OpenRec} (hof : s.dev.openOf p = some o) (hf : o.folds p = true) (hrep : o.recd.rep < 65534) : let t := s.numberPosting p
    t.dev.reg R.evtSeq = s.dev.reg R.evtSeq ∧ s.dev.counts t.dev (R.evtCnt 3) 1 ∧ t.dev.evt.queue.length = s.dev.evt.queue.length ∧ t.otp = s.otp := by
  intro t
  let s1 := s.onDev (fun d => ({ d with evt := { d.evt with
    opens := d.evt.opens.map (fun x => if x.recd.seq == o.again.seq then { x with recd := o.again } else x)
    queue := d.evt.queue.map (fun x => if x.1.seq == o.again.seq then (o.again, x.2) else x) } } : Dev).bump (R.evtCnt 3) 1)
  have hk : s.dev.keeps s1.dev [] := Dev.keeps_of_regs ⟨rfl, rfl, rfl⟩ _
  have hcnt : s.dev.counts s1.dev (R.evtCnt 3) 1 := Dev.w64_bump _ _ _
  have hq : s1.dev.evt.queue.length = s.dev.evt.queue.length := List.length_map ..
  have ho : s1.otp = s.otp := rfl
  obtain ⟨m, he⟩ : ∃ m, t = { s1 with mem := m } := by
    have hne : ¬o.again.rep = 65535 := by
      show ¬min 65535 (o.recd.rep + 1) = 65535
      omega
    show ∃ m, s.numberPosting p = _
    rw [Sys.numberPosting, hof]
    show ∃ m, (if o.folds p then s.fold o else _) = _
    rw [if_pos hf, Sys.fold]
    refine (exists_congr (fun m => iff_of_eq (congrArg (· = _) (if_neg hne)))).mpr ?_
    cases o.idx with
    | none => exact ⟨s1.mem, rfl⟩
    | some i =>
      by_cases hfz : s1.dev.rf R.bbxStat 31 1 = 1
      · exact ⟨s1.mem, if_pos hfz⟩
      · exact ⟨_, if_neg hfz⟩
  rw [he]
  exact ⟨(hk _ List.not_mem_nil).1, hcnt, hq, ho⟩

end

section
variable (s : Sys) {p : Posting} (hhold : s.dev.numberHold = false) (hi : s.dev.evt.intake = [p]) (hm : s.dev.evt.made = []) (ht : p.tick ≠ s.dev.tick)

theorem Dev.numbered_keeps (d : Dev) : d.keeps d.numbered [] ∧ ∀ o, d.numbered.w64 o = d.w64 o := ⟨Dev.keeps_of_regs ⟨rfl, rfl, rfl⟩ _, fun _ => rfl⟩

include hhold hi hm ht

theorem Sys.evtNumbering_high (hsev : 3 ≤ p.sev) (hopen : s.dev.evt.opens = []) (hq : s.dev.evt.queue = []) (hlost : s.dev.evt.lost = [])
    (hfz : s.dev.rf R.bbxStat 31 1 = 0) (hddr : s.dev.rf R.ddrStat 0 1 = 0) : let t := s.evtNumbering
    let r : EvRec := { p.toRec with seq := s.dev.reg R.evtSeq }
    let i := s.dev.rf R.bbxStat 0 13
    t.dev.reg R.evtSeq = (s.dev.reg R.evtSeq + 1) % 2 ^ 32 ∧ s.dev.counts t.dev (R.evtCnt 0) 1 ∧ t.dev.evt.queue = [(r, true)] ∧ t.dev.evt.intake = [] ∧
      t.dev.rf R.bbxStat 0 13 = (i + 1) % 8192 ∧ t.otp = s.otp ∧ t.mem = s.mem.putBytes (retainedBase + 32 * i) r.bytes := by
  intro t r i
  obtain ⟨hk, hw⟩ := s.dev.numbered_keeps
  have hw' (o : Nat) : (s.onDev Dev.numbered).dev.w64 o = s.dev.w64 o := hw o
  have hreg (o : Nat) : (s.onDev Dev.numbered).dev.reg o = s.dev.reg o := (hk o List.not_mem_nil).1
  have hrf (o lo w : Nat) : (s.onDev Dev.numbered).dev.rf o lo w = s.dev.rf o lo w := by rw [Dev.rf, hreg, Dev.rf]
  have he : t = ((s.onDev Dev.numbered).numberRec p.toRec none).onDev (fun d => d.intakeStat) := by
    rw [show t = s.evtNumbering from rfl, s.evtNumbering_single hhold hi hm ht, (s.onDev Dev.numbered).numberPosting_high hsev hopen hlost]
  obtain ⟨h1, h2, h3, h4, h5, h6, h7⟩ := (s.onDev Dev.numbered).numberRec_alone p.toRec hq hopen ((hrf _ _ _).trans hfz) ((hrf _ _ _).trans hddr)
  rw [he]
  rw [hreg] at h1 h3 h7
  rw [hrf] at h5 h7
  generalize (s.onDev Dev.numbered).numberRec p.toRec none = u at *
  obtain ⟨hm, hevt⟩ := u.dev.intakeStat_leaves
  refine ⟨(hm.reg (by decide)).trans h1, (hm.w64 List.not_mem_nil).trans (h2.trans (by rw [hw'])), ?_, ?_, (hm.rf _ _ (by decide)).trans h5, h6, h7⟩
  · exact (congrArg Evt.queue hevt).trans h3
  · exact (congrArg Evt.intake hevt).trans h4

theorem Sys.evtNumbering_folds {o : OpenRec} (hof : s.dev.openOf p = some o) (hf : o.folds p = true) (hrep : o.recd.rep < 65534) : let t := s.evtNumbering
    t.dev.reg R.evtSeq = s.dev.reg R.evtSeq ∧ s.dev.counts t.dev (R.evtCnt 3) 1 ∧ t.dev.evt.queue.length = s.dev.evt.queue.length ∧ t.otp = s.otp := by
  intro t
  obtain ⟨hk, hw⟩ := s.dev.numbered_keeps
  have hw' (o : Nat) : (s.onDev Dev.numbered).dev.w64 o = s.dev.w64 o := hw o
  have he : t = ((s.onDev Dev.numbered).numberPosting p).onDev (fun d => d.intakeStat) := s.evtNumbering_single hhold hi hm ht
  obtain ⟨h1, h2, h3, h4⟩ := (s.onDev Dev.numbered).numberPosting_folds hof hf hrep
  rw [he]
  generalize (s.onDev Dev.numbered).numberPosting p = u at *
  obtain ⟨hm, hevt⟩ := u.dev.intakeStat_leaves
  exact ⟨((hm.reg (by decide)).trans h1).trans (hk _ List.not_mem_nil).1, (hm.w64 List.not_mem_nil).trans (h2.trans (by rw [hw'])),
    (congrArg (fun e => e.queue.length) hevt).trans h3, h4⟩

end

/-! ## A window ends (R373) -/

theorem Sys.coalesceClose_none (s : Sys) (h : ∀ o ∈ s.dev.evt.opens, s.dev.tick < o.upto) : s.coalesceClose = s := by
  have hnone : s.dev.evt.opens.filter (fun o => decide (o.upto ≤ s.dev.tick)) = [] := List.filter_eq_nil_iff.mpr (fun o ho => by
    have := h o ho
    simp only [decide_eq_true_eq]
    omega)
  rw [Sys.coalesceClose, hnone]
  rfl

theorem Sys.coalesceClose_single (s : Sys) {o : OpenRec} (ho : s.dev.evt.opens = [o]) (hq : s.dev.evt.queue = [(o.recd, false)]) (hdue : o.upto ≤ s.dev.tick)
    (hddr : s.dev.rf R.ddrStat 0 1 = 0) : s.coalesceClose = s.onDev (fun d => { d with evt := { d.evt with queue := [(o.recd, true)], opens := [] } }) := by
  have hone : s.dev.evt.opens.filter (fun o => decide (o.upto ≤ s.dev.tick)) = [o] := by simp [ho, hdue]
  have hrest : s.dev.evt.opens.filter (fun x => x.recd.seq != o.recd.seq) = [] := by simp [ho]
  rw [Sys.coalesceClose, hone]
  show s.closeRec o.recd.seq = _
  rw [s.closeRec_single hq hddr]
  show s.onDev (fun d => { d with evt := { d.evt with queue := [(o.recd, true)], opens := s.dev.evt.opens.filter (fun x => x.recd.seq != o.recd.seq) } }) = _
  rw [hrest]

/-! ## The host ring (R374, R380) -/

theorem Dev.pme_evt (d : Dev) : d.pme.evt = d.evt := by
  unfold Dev.pme
  split
  · rfl
  · rfl

theorem Dev.notifyUpdate_leaves (d : Dev) : d.keeps d.notifyUpdate [R.pcieStat] ∧ d.notifyUpdate.evt.queue = d.evt.queue := by
  unfold Dev.notifyUpdate
  extract_lets u high on ev d1 d2
  have h1 : d.keeps d1 [R.pcieStat] ∧ d1.evt.queue = d.evt.queue := ⟨Dev.keeps_of_regs ⟨rfl, rfl, rfl⟩ _, rfl⟩
  have h2 : d1.keeps d2 [R.pcieStat] ∧ d2.evt.queue = d1.evt.queue := by
    simp only [d2]
    split
    · exact ⟨d1.pme_leaves.1, congrArg Evt.queue d1.pme_evt⟩
    · exact ⟨d1.keeps_refl _, rfl⟩
  clear_value d2 d1
  exact ⟨(h1.1.trans h2.1).trans (d2.keeps_irqUpdate _), (congrArg Evt.queue d2.irqUpdate_evt).trans (h2.2.trans h1.2)⟩

/-- A record of severity `sev` has been written: the index, and the notification raised anew. -/
def Dev.ringWrote (d : Dev) (idx sev : Nat) : Dev :=
  let d1 := d.setReg R.evtWridx idx
  let d2 : Dev := { d1 with evt := { d1.evt with high := d1.evt.high || decide (2 ≤ sev) } }
  let d3 : Dev := if 2 ≤ sev then
      let v := bitSet d2.evt.vecs (d2.routeVec R.evtNotifyroute)
        ((List.range 31).any (fun b => d2.irqLine b && d2.routeVec (R.evtIrqroute b) == d2.routeVec R.evtNotifyroute))
      { d2 with evt := { d2.evt with notify := false, vecs := v } }
    else d2
  d3.notifyUpdate

theorem Dev.ringWrote_leaves (d : Dev) {idx : Nat} (sev : Nat) (h : idx < 2 ^ 32) : (d.ringWrote idx sev).reg R.evtWridx = idx ∧
    (d.ringWrote idx sev).evt.queue = d.evt.queue := by
  unfold Dev.ringWrote
  extract_lets d1 ev d2 v ev2 d3
  have h1 : d1.reg R.evtWridx = idx := (Dev.reg_setReg ..).trans (Nat.mod_eq_of_lt h)
  have hq1 : d1.evt.queue = d.evt.queue := rfl
  have h2 : d1.keeps d2 [] ∧ d2.evt.queue = d1.evt.queue := ⟨Dev.keeps_of_regs ⟨rfl, rfl, rfl⟩ _, rfl⟩
  have h3 : d2.keeps d3 [] ∧ d3.evt.queue = d2.evt.queue := by
    simp only [d3]
    split
    · exact ⟨Dev.keeps_of_regs ⟨rfl, rfl, rfl⟩ _, rfl⟩
    · exact ⟨d2.keeps_refl _, rfl⟩
  clear_value d3 d2 d1
  obtain ⟨hk, hq⟩ := d3.notifyUpdate_leaves
  exact ⟨(hk _ (by decide)).1.trans ((h3.1 _ List.not_mem_nil).1.trans ((h2.1 _ List.not_mem_nil).1.trans h1)), hq.trans (h3.2.trans (h2.2.trans hq1))⟩

theorem Sys.hostRingWrite_idle (s : Sys) (hq : s.dev.evt.queue = []) (hgap : s.dev.evt.gapN = 0) : s.hostRingWrite = s := by
  rw [Sys.hostRingWrite, hgap]
  show (match s.dev.evt.queue with
    | [] => s
    | (r, closed) :: t => _) = s
  rw [hq]

section
variable (s : Sys) {r : EvRec} {t : List (EvRec × Bool)} (hq : s.dev.evt.queue = (r, true) :: t) (hgap : s.dev.evt.gapN = 0)
include hq hgap

/-- The device with the first record off the queue. -/
def Dev.unqueued (d : Dev) (t : List (EvRec × Bool)) : Dev := { d with evt := { d.evt with queue := t } }

theorem Sys.hostRingWrite_eq : s.hostRingWrite =
    if s.dev.evtRingOk && decide (s.dev.evtUnread + 2 ≤ s.dev.rf R.evtRsize 0 17) then
      { s with
        dev := (s.dev.unqueued t).ringWrote ((s.dev.rf R.evtWridx 0 16 % s.dev.rf R.evtRsize 0 17 + 1) % s.dev.rf R.evtRsize 0 17) r.sev
        mem := s.mem.putBytes (s.dev.reg R.evtRbaselo / 64 * 64 + 2 ^ 32 * (s.dev.reg R.evtRbasehi % 256) +
          32 * (s.dev.rf R.evtWridx 0 16 % s.dev.rf R.evtRsize 0 17)) r.bytes }
    else { s with dev := (s.dev.unqueued t).ringSkip r } := by
  have hcover : ¬(s.dev.evt.gapN != 0 && s.dev.evtRingOk && decide (s.dev.evtUnread + 3 ≤ s.dev.rf R.evtRsize 0 17)) = true := by simp [hgap]
  have hcond : (s.dev.evtRingOk && s.dev.evt.gapN == 0 && decide (s.dev.evtUnread + 2 ≤ s.dev.rf R.evtRsize 0 17)) =
      (s.dev.evtRingOk && decide (s.dev.evtUnread + 2 ≤ s.dev.rf R.evtRsize 0 17)) := by simp [hgap]
  rw [Sys.hostRingWrite]
  simp only [if_neg hcover, hq, Bool.not_true, Bool.false_eq_true, if_false, hcond]
  generalize r.bytes = bs
  split
  · rfl
  · rfl

/-- A record that finds a usable ring with room goes to its next entry (R374). -/
theorem Sys.hostRingWrite_writes (hok : s.dev.evtRingOk = true) (hroom : s.dev.evtUnread + 2 ≤ s.dev.rf R.evtRsize 0 17) : let u := s.hostRingWrite
    let n := s.dev.rf R.evtRsize 0 17
    let w := s.dev.rf R.evtWridx 0 16 % n
    u.dev.evt.queue = t ∧ u.dev.reg R.evtWridx = (w + 1) % n ∧ u.otp = s.otp ∧
      u.mem = s.mem.putBytes (s.dev.reg R.evtRbaselo / 64 * 64 + 2 ^ 32 * (s.dev.reg R.evtRbasehi % 256) + 32 * w) r.bytes := by
  intro u n w
  have hn : n < 2 ^ 17 := Nat.mod_lt _ (by decide)
  have hidx : (w + 1) % n < 2 ^ 32 := lt_trans (Nat.mod_lt _ (lt_of_lt_of_le (Nat.succ_pos _) hroom)) (lt_trans hn (by decide))
  have hcond : (s.dev.evtRingOk && decide (s.dev.evtUnread + 2 ≤ n)) = true := by
    rw [hok, decide_eq_true hroom]
    rfl
  obtain ⟨hw, hqe⟩ := (s.dev.unqueued t).ringWrote_leaves r.sev hidx
  have he := (s.hostRingWrite_eq hq hgap).trans (if_pos hcond)
  rw [show u = s.hostRingWrite from rfl]
  generalize r.bytes = bs at *
  rw [he]
  exact ⟨hqe, hw, rfl, rfl⟩

end

/-- A record is skipped where the ring is not usable (R374). -/
theorem Dev.ringSkip_leaves (d : Dev) (r : EvRec) (hgap : d.evt.gapN = 0) (hok : d.evtRingOk = false) : let e := d.ringSkip r
    e.evt.queue = d.evt.queue ∧ e.evt.gapN = 1 ∧ e.evt.gap1 = r.seq ∧ d.counts e (R.evtCnt 4) 1 ∧ d.keeps e [] := by
  let d1 := d.bump (R.evtCnt 4) 1
  have hcnt : d.counts d1 (R.evtCnt 4) 1 := Dev.w64_bump _ _ _
  have hk : d.keeps d1 [] := Dev.keeps_of_regs ⟨rfl, rfl, rfl⟩ _
  have hevt : d1.evt = d.evt := rfl
  obtain ⟨m, he⟩ : ∃ m, d.ringSkip r = { d1 with evt := { d1.evt with gapN := 1, gap1 := r.seq, gapMgmt := m } } := by
    have hnew : (d.evt.gapN == 0) = true := by rw [hgap]; rfl
    have hno : ¬(d.evt.gapN == 0 && d.evtRingOk) = true := by simp [hok]
    rw [Dev.ringSkip]
    refine ⟨d.mgmtRst.isSome || (d1.evt.gapMgmt && !(d.evt.gapN == 0)), (if_neg hno).trans ?_⟩
    show ({ d1 with evt := { d1.evt with gapN := d.evt.gapN + 1, gap1 := if d.evt.gapN == 0 then r.seq else d1.evt.gap1, gapMgmt := _ } } : Dev) = _
    rw [if_pos hnew, hgap]
  rw [he]
  clear_value d1
  exact ⟨(congrArg Evt.queue hevt :), rfl, rfl, hcnt, hk⟩

theorem Sys.hostRingWrite_skips (s : Sys) {r : EvRec} {t : List (EvRec × Bool)} (hq : s.dev.evt.queue = (r, true) :: t) (hgap : s.dev.evt.gapN = 0)
    (hok : s.dev.evtRingOk = false) : let u := s.hostRingWrite
    u.dev.evt.queue = t ∧ u.dev.evt.gapN = 1 ∧ u.dev.evt.gap1 = r.seq ∧ s.dev.counts u.dev (R.evtCnt 4) 1 ∧ s.dev.keeps u.dev [] ∧ u.otp = s.otp ∧ u.mem = s.mem := by
  intro u
  have hcond : ¬(s.dev.evtRingOk && decide (s.dev.evtUnread + 2 ≤ s.dev.rf R.evtRsize 0 17)) = true := by simp [hok]
  have hk : s.dev.keeps (s.dev.unqueued t) [] := Dev.keeps_of_regs ⟨rfl, rfl, rfl⟩ _
  have hw (o : Nat) : (s.dev.unqueued t).w64 o = s.dev.w64 o := rfl
  obtain ⟨h1, h2, h3, h4, h5⟩ := (s.dev.unqueued t).ringSkip_leaves r hgap hok
  rw [show u = s.hostRingWrite from rfl, (s.hostRingWrite_eq hq hgap).trans (if_neg hcond)]
  exact ⟨h1, h2, h3, h4.trans (by rw [hw]), hk.trans h5, rfl, rfl⟩

end Sys2Proof.Machine

/-!
PROOFS. The watchdog, the GPIO pins, the 160 degree comparator and the conversions of the temperature sensors.
-/
namespace Sys2Proof.Machine

/-! ## The watchdog (R379) -/

theorem Dev.bbx_makeRec (d : Dev) (b ty sev d0 d1 d2 : Nat) : (d.makeRec b ty sev d0 d1 d2).bbx = d.bbx := rfl

theorem Dev.trigLost_leaves (d : Dev) (reason : Nat) : d.keeps (d.trigLost reason) [] ∧ (d.trigLost reason).bbx = d.bbx := by
  have hk : d.keeps (d.bump (R.bbxCnt 1) 1) [] := Dev.keeps_bump _ _ _ _
  have hb : (d.bump (R.bbxCnt 1) 1).bbx = d.bbx := rfl
  have he : d.trigLost reason = if (d.bump (R.bbxCnt 1) 1).rf R.bbxStat 31 1 = 1 then (d.bump (R.bbxCnt 1) 1).makeRec Blk.bbx 4 2 4 reason 0
      else d.bump (R.bbxCnt 1) 1 := rfl
  rw [he]
  generalize d.bump (R.bbxCnt 1) 1 = d1 at *
  split
  · exact ⟨hk.trans (d1.keeps_makeRec _ _ _ _ _ _ _), (d1.bbx_makeRec ..).trans hb⟩
  · exact ⟨hk, hb⟩

theorem Dev.bbxTrigger_bbx (d : Dev) (cause reason : Nat) : (d.bbxTrigger cause reason).bbx = d.bbx := by
  rw [Dev.bbxTrigger]
  split
  · exact (d.trigLost_leaves reason).2
  · rw [Dev.bbx_makeRec, Dev.bump_bbx, Dev.setFld_bbx, Dev.setFld_bbx]

theorem Dev.bbxTrigger_marked (d : Dev) (cause reason : Nat) (hc : cause < 8) : (d.bbxTrigger cause reason).rf R.bbxStat 30 1 = 1 ∧
    d.keeps (d.bbxTrigger cause reason) [R.bbxStat] := by
  by_cases h : d.rf R.bbxStat 30 1 = 1
  · obtain ⟨hk, -⟩ := d.trigLost_leaves reason
    rw [Dev.bbxTrigger, if_pos h]
    exact ⟨(hk.rf (List.not_mem_nil) _ _).trans h, hk.mono (List.nil_subset _)⟩
  · have h0 : d.rf R.bbxStat 30 1 = 0 := by
      have hlt : d.rf R.bbxStat 30 1 < 2 := Nat.mod_lt _ (by decide)
      omega
    obtain ⟨r, hr, -, -, -, -, -, -, -, hk, -⟩ := d.bbxTrigger_leaves cause reason hc h0
    exact ⟨hr, hk⟩

/-- The watchdog has run out, or the clock is not locked, while it is enabled. -/
def Dev.wdogDue (d : Dev) : Prop := d.rf R.bbxWdcfg 31 1 = 1 ∧ (96 * max 1 (d.rf R.bbxWdcfg 0 16) ≤ d.bbx.wdMs ∨ d.rf R.synStat 1 1 = 0)

/-- The expiry's fault, with the time begun anew. -/
def Dev.wdogRaised (d : Dev) : Dev :=
  ({ d with bbx := { d.bbx with wdMs := 0 } } : Dev).raise Blk.bbx Src.bbxWdogExpired (max 1 (d.rf R.bbxWdcfg 0 16)) d.tickLo 0

theorem Dev.wdogRaised_leaves (d : Dev) : d.wdogRaised.bbx = { d.bbx with wdMs := 0 } ∧ d.wdogRaised.flag Blk.bbx Src.bbxWdogExpired ∧
    d.wdogRaised.reg R.bbxStat = d.reg R.bbxStat :=
  ⟨Dev.raise_bbx _ _ _ _ _ _, Dev.flag_raise _ _ _ _ _ _ (by decide),
    (Dev.keeps_raise _ _ _ _ _ _ (l := [R.fltstat Blk.bbx, R.fltfirst Blk.bbx]) (by simp) (by simp) _ (by decide)).1⟩

/-- The first expiry is remembered. -/
def Dev.wdogMarked (d : Dev) : Dev := { d with bbx := { d.bbx with wdFired := true } }

theorem Dev.wdogMarked_leaves (d : Dev) : d.wdogMarked.bbx = { d.bbx with wdFired := true } ∧ d.keeps d.wdogMarked [] :=
  ⟨rfl, Dev.keeps_of_regs ⟨rfl, rfl, rfl⟩ _⟩

theorem Dev.wdogExpire_fires (d : Dev) (c : Nat) (h : d.wdogDue) : let e := d.wdogExpire c
    e.bbx.wdMs = 0 ∧ e.bbx.wdFired = true ∧ e.flag Blk.bbx Src.bbxWdogExpired ∧
      (d.bbx.wdFired = false → e.rf R.bbxStat 30 1 = 1) ∧ (d.bbx.wdFired = true → e.reg R.bbxStat = d.reg R.bbxStat) := by
  have he : d.wdogExpire c = if (d.atC c).wdogRaised.bbx.wdFired then (d.atC c).wdogRaised
      else (d.atC c).wdogRaised.wdogMarked.bbxTrigger 2 0 := if_pos h
  obtain ⟨hb, hf, hr⟩ := (d.atC c).wdogRaised_leaves
  have hfired : (d.atC c).wdogRaised.bbx.wdFired = d.bbx.wdFired := by rw [hb]; rfl
  intro e
  rw [show e = _ from he, hfired]
  by_cases hw : d.bbx.wdFired = true
  · rw [if_pos hw]
    exact ⟨by rw [hb], hfired.trans hw, hf, fun h0 => absurd (hw.symm.trans h0) (by decide), fun _ => hr⟩
  · rw [if_neg hw]
    generalize (d.atC c).wdogRaised = d2 at *
    obtain ⟨hmb, hmk⟩ := d2.wdogMarked_leaves
    generalize d2.wdogMarked = d3 at *
    obtain ⟨htrig, hkeep⟩ := d3.bbxTrigger_marked 2 0 (by decide)
    have hbbx := d3.bbxTrigger_bbx 2 0
    refine ⟨by rw [hbbx, hmb, hb], by rw [hbbx, hmb], ?_, fun _ => htrig, fun h1 => absurd h1 hw⟩
    rw [Dev.flag, hkeep.rf (by decide), hmk.rf List.not_mem_nil]
    exact hf

/-! ## The GPIO pins (R433) -/

theorem bitSet_lt {v i n : Nat} (b : Bool) (hv : v < 2 ^ n) (hi : i < n) : bitSet v i b < 2 ^ n := by
  refine Nat.lt_pow_two_of_testBit _ (fun k hk => ?_)
  rw [← bit_eq_testBit, bit_bitSet_ne v b (by omega), bit_eq_testBit]
  exact Nat.testBit_lt_two_pow (lt_of_lt_of_le hv (Nat.pow_le_pow_right (by decide) hk))

theorem Dev.gpioPins_lt (d : Dev) (ext : Nat) : d.gpioPins ext < 2 ^ 8 := by
  have key (f : Nat → Bool) (l : List Nat) (hl : ∀ p ∈ l, p < 8) (a : Nat) (ha : a < 2 ^ 8) : l.foldl (fun m p => bitSet m p (f p)) a < 2 ^ 8 := by
    induction l generalizing a with
    | nil => exact ha
    | cons p l ih => exact ih (fun q hq => hl q (List.mem_cons_of_mem _ hq)) _ (bitSet_lt _ ha (hl p List.mem_cons_self))
  exact key _ _ (fun p hp => List.mem_range.mp hp) 0 (by decide)

/-- The registers in which an edge shows. -/
def edgeRegs : List Nat := R.gpioEdge :: (List.range 8).map R.gpioEdgetick

/-- An edge at pin `p`. -/
def Dev.edge (d : Dev) (p : Nat) : Dev := (d.setFld R.gpioEdge p 1 1).setReg (R.gpioEdgetick p) d.tickLo

theorem edgetick_ne {p q : Nat} (h : q ≠ p) : R.gpioEdgetick q ≠ R.gpioEdgetick p := by
  simp only [R.gpioEdgetick]
  omega

theorem edge_ne_edgetick (p : Nat) : R.gpioEdge ≠ R.gpioEdgetick p := by
  simp only [R.gpioEdge, R.gpioEdgetick]
  omega

theorem Dev.edge_marks (d : Dev) {p : Nat} (hp : p < 8) : d.marks (d.edge p) edgeRegs [] :=
  (Dev.marks.setFld d _ _ _ (List.mem_cons_self)).trans (.setReg _ _ (List.mem_cons_of_mem _ (List.mem_map_of_mem (List.mem_range.mpr hp))))

theorem Dev.edge_same (d : Dev) {p : Nat} (hp : p < 8) : bit ((d.edge p).reg R.gpioEdge) p = true ∧ (d.edge p).reg (R.gpioEdgetick p) = d.tickLo := by
  have hb : (d.edge p).rf R.gpioEdge p 1 = 1 := (Dev.rf_setReg_ne _ _ _ _ _ (edge_ne_edgetick p)).trans (Dev.rf_setFld _ _ _ _ _ (by omega))
  refine ⟨?_, (Dev.reg_setReg _ _ _).trans (Nat.mod_mod _ _)⟩
  rw [bit_eq_fld]
  exact beq_iff_eq.mpr hb

theorem Dev.edge_ne (d : Dev) {p q : Nat} (hq : q < 8) (h : q ≠ p) :
    bit ((d.edge p).reg R.gpioEdge) q = bit (d.reg R.gpioEdge) q ∧ (d.edge p).reg (R.gpioEdgetick q) = d.reg (R.gpioEdgetick q) := by
  refine ⟨?_, (Dev.reg_setReg_ne _ _ _ _ (edgetick_ne h)).trans (Dev.reg_setFld_ne _ _ _ _ _ _ (edge_ne_edgetick q).symm)⟩
  have hf : (d.edge p).rf R.gpioEdge q 1 = d.rf R.gpioEdge q 1 := by
    refine (Dev.rf_setReg_ne _ _ _ _ _ (edge_ne_edgetick p)).trans ?_
    rcases Nat.lt_or_gt_of_ne h with hlt | hgt
    · exact Dev.rf_setFld_lo _ _ _ _ _ _ _ (by omega) (by omega)
    · exact Dev.rf_setFld_hi _ _ _ _ _ _ _ (by omega) (by omega)
  rw [bit_eq_fld, bit_eq_fld]
  exact congrArg (· == 1) hf

/-- A pass over pins with an edge shows exactly those. -/
theorem Dev.edges_leaves (l : List Nat) (hl : ∀ p ∈ l, p < 8) (d : Dev) : let e := each l (fun p d => d.edge p) d
    d.marks e edgeRegs [] ∧ ∀ p, p < 8 → (p ∈ l → bit (e.reg R.gpioEdge) p = true ∧ e.reg (R.gpioEdgetick p) = d.tickLo) ∧
      (p ∉ l → bit (e.reg R.gpioEdge) p = bit (d.reg R.gpioEdge) p ∧ e.reg (R.gpioEdgetick p) = d.reg (R.gpioEdgetick p)) := by
  induction l generalizing d with
  | nil => exact ⟨.refl d, fun p _ => ⟨fun h => absurd h List.not_mem_nil, fun _ => ⟨rfl, rfl⟩⟩⟩
  | cons q l ih =>
    have hq := hl q List.mem_cons_self
    obtain ⟨hm, hall⟩ := ih (fun p hp => hl p (List.mem_cons_of_mem _ hp)) (d.edge q)
    have hm1 := d.edge_marks hq
    refine ⟨hm1.trans hm, fun p hp => ⟨fun hmem => ?_, fun hnot => ?_⟩⟩
    · by_cases hpl : p ∈ l
      · refine ⟨((hall p hp).1 hpl).1, ((hall p hp).1 hpl).2.trans ?_⟩
        rw [Dev.tickLo, hm1.tick, Dev.tickLo]
      · obtain rfl : p = q := (List.mem_cons.mp hmem).resolve_right hpl
        exact ⟨((hall p hp).2 hpl).1.trans (d.edge_same hp).1, ((hall p hp).2 hpl).2.trans (d.edge_same hp).2⟩
    · have hpq : p ≠ q := fun hc => hnot (hc ▸ List.mem_cons_self)
      have hpl : p ∉ l := fun hc => hnot (List.mem_cons_of_mem _ hc)
      exact ⟨((hall p hp).2 hpl).1.trans (d.edge_ne hp hpq).1, ((hall p hp).2 hpl).2.trans (d.edge_ne hp hpq).2⟩

/-- The pins at which the step from `old` to `new` is an edge that is configured. -/
def Dev.edgesAt (d : Dev) (new : Nat) : List Nat :=
  (List.range 8).filter (fun p => (!bit (d.reg R.gpioIn) p && bit new p && bit (d.rf R.gpioEdgecfg (2 * p) 2) 0) ||
    (bit (d.reg R.gpioIn) p && !bit new p && bit (d.rf R.gpioEdgecfg (2 * p) 2) 1))

theorem Dev.mem_edgesAt (d : Dev) (new : Nat) {p : Nat} (hp : p < 8) : p ∈ d.edgesAt new ↔
    (bit (d.reg R.gpioIn) p = false ∧ bit new p = true ∧ bit (d.rf R.gpioEdgecfg (2 * p) 2) 0 = true) ∨
      (bit (d.reg R.gpioIn) p = true ∧ bit new p = false ∧ bit (d.rf R.gpioEdgecfg (2 * p) 2) 1 = true) := by
  rw [Dev.edgesAt, List.mem_filter, List.mem_range]
  simp [hp, and_assoc]

theorem edgeRegs_blk {o : Nat} (h : o ∈ edgeRegs) : o / 0x10000 = Blk.gpio := by
  have hall : ∀ x ∈ edgeRegs, x / 0x10000 = Blk.gpio := by decide
  exact hall o h

theorem gpioFlt_blk {o : Nat} (h : o ∈ [R.fltstat Blk.gpio, R.fltfirst Blk.gpio]) : o / 0x10000 = Blk.gpio := by
  have hall : ∀ x ∈ [R.fltstat Blk.gpio, R.fltfirst Blk.gpio], x / 0x10000 = Blk.gpio := by decide
  exact hall o h

/-- What an edge's fault names: the pins with an edge now or earlier in the tick. -/
def Dev.edgeMask (d : Dev) (new : Nat) : Nat :=
  (d.edgesAt new ++ (List.range 8).filter (fun p => bit (d.reg R.gpioEdge) p && d.reg (R.gpioEdgetick p) == d.tickLo)).foldl (fun m p => bitSet m p true) 0

/-- The pins with `new` taken. -/
def Dev.pinsTaken (d : Dev) (new : Nat) : Dev :=
  let e := each (d.edgesAt new) (fun p d => d.edge p) (d.setReg R.gpioIn new)
  if (d.edgesAt new).isEmpty then e else e.raise Blk.gpio Src.gpioEdge (d.edgeMask new) new d.tickLo

theorem Dev.gpioEdge_eq (d : Dev) (ext c : Nat) : d.gpioEdge ext c = (d.atC c).pinsTaken ((d.atC c).gpioPins ext) := by
  rw [Dev.gpioEdge]
  generalize d.atC c = e
  generalize e.gpioPins ext = n
  rfl

/-- The edges of a change of the pins (R433). -/
theorem Dev.pinsTaken_leaves (d : Dev) {new : Nat} (hnew : new < 2 ^ 8) : let e := d.pinsTaken new
    e.reg R.gpioIn = new ∧ d.keepsOut e [Blk.gpio] ∧ ∀ p, p < 8 →
      (p ∈ d.edgesAt new → bit (e.reg R.gpioEdge) p = true ∧ e.reg (R.gpioEdgetick p) = d.tickLo ∧ e.flag Blk.gpio Src.gpioEdge) ∧
      (p ∉ d.edgesAt new → bit (e.reg R.gpioEdge) p = bit (d.reg R.gpioEdge) p ∧ e.reg (R.gpioEdgetick p) = d.reg (R.gpioEdgetick p)) := by
  intro e
  let d1 := d.setReg R.gpioIn new
  obtain ⟨hm2, hall⟩ := d1.edges_leaves (d.edgesAt new) (fun p hp => List.mem_range.mp (List.mem_filter.mp hp).1)
  have he : e = if (d.edgesAt new).isEmpty then each (d.edgesAt new) (fun p d => d.edge p) d1
      else (each (d.edgesAt new) (fun p d => d.edge p) d1).raise Blk.gpio Src.gpioEdge (d.edgeMask new) new
        d.tickLo := rfl
  generalize each (d.edgesAt new) (fun p d => d.edge p) d1 = d2 at *
  have hm1 : d.marks d1 [R.gpioIn] [] := .setReg _ _ (by simp)
  have hin : d1.reg R.gpioIn = new := (Dev.reg_setReg _ _ _).trans (Nat.mod_eq_of_lt (lt_trans hnew (by decide)))
  have htick : d1.tickLo = d.tickLo := by rw [Dev.tickLo, hm1.tick, Dev.tickLo]
  have hold {o : Nat} (ho : o ≠ R.gpioIn) : d1.reg o = d.reg o := hm1.reg (by simpa using ho)
  have hmE : d2.marks e [R.fltstat Blk.gpio, R.fltfirst Blk.gpio] [] := by
    rw [he]
    exact .ite (fun _ => .refl _) (fun _ => .raise _ _ _ _ _ _ (by simp) (by simp))
  have hflag : ¬(d.edgesAt new).isEmpty = true → e.flag Blk.gpio Src.gpioEdge := fun h => by
    rw [he, if_neg h]
    exact Dev.flag_raise _ _ _ _ _ _ (by decide)
  clear_value d1 e
  have hreg {o : Nat} (ho : o ∈ edgeRegs) : e.reg o = d2.reg o := hmE.reg (fun hc => by
    have hall : ∀ x ∈ edgeRegs, x ∉ [R.fltstat Blk.gpio, R.fltfirst Blk.gpio] := by decide
    exact hall o ho hc)
  have htk {p : Nat} (hp : p < 8) : R.gpioEdgetick p ∈ edgeRegs := List.mem_cons_of_mem _ (List.mem_map_of_mem (List.mem_range.mpr hp))
  have htin {p : Nat} : R.gpioEdgetick p ≠ R.gpioIn := by
    simp only [R.gpioEdgetick, R.gpioIn]
    omega
  refine ⟨(hmE.reg (by decide)).trans ((hm2.reg (by decide)).trans hin), fun o ho => ?_, fun p hp => ⟨fun hmem => ?_, fun hnot => ?_⟩⟩
  · have hno : o / 0x10000 ≠ Blk.gpio := fun hc => ho (by simp [hc])
    have h1 := hm1.keeps o (fun hc => hno (by rw [List.mem_singleton.mp hc]; rfl))
    have h2 := hm2.keeps o (fun hc => hno (edgeRegs_blk hc))
    have h3 := hmE.keeps o (fun hc => hno (gpioFlt_blk hc))
    exact ⟨h3.1.trans (h2.1.trans h1.1), h3.2.trans (h2.2.trans h1.2)⟩
  · obtain ⟨hb, ht⟩ := (hall p hp).1 hmem
    exact ⟨by rw [hreg List.mem_cons_self, hb], by rw [hreg (htk hp), ht, htick], hflag (fun hc => by
      rw [List.isEmpty_iff.mp hc] at hmem
      exact absurd hmem List.not_mem_nil)⟩
  · obtain ⟨hb, ht⟩ := (hall p hp).2 hnot
    exact ⟨by rw [hreg List.mem_cons_self, hb, hold (by decide)], by rw [hreg (htk hp), ht, hold htin]⟩

end Sys2Proof.Machine

/-!
PROOFS. The 160 degree comparator, the conversions of the temperature sensors, and the rows of events, temperature and pins.
-/
namespace Sys2Proof.Machine

/-! ## The comparator stops the groups and the clock outputs (R409, R410) -/

theorem Dev.grpStat_marks (d : Dev) : d.marks d.grpStat.chStats (R.modGrpstat :: (List.range 48).map R.modChstat) [] :=
  (Dev.marks.setReg (l := R.modGrpstat :: (List.range 48).map R.modChstat) d _ List.mem_cons_self).trans
    (.forN 48 _ (fun _ hk e => .setReg e _ (List.mem_cons_of_mem _ (List.mem_map_of_mem (List.mem_range.mpr hk)))) _)

theorem Dev.grpRest_plays (d : Dev) (g : Nat) : d.plays (d.grpRest g) [] [] :=
  (Dev.plays.onGrp d g _).trans (.foldl _ _ (fun c _ e => .onCh e c _) _)

/-- A rested group does not run, and the others are as they were. -/
theorem Dev.grpRest_groups (d : Dev) (g : Nat) : ((d.grpRest g).modG g).run_ = false ∧ ∀ k, k ≠ g → (d.grpRest g).modG k = d.modG k := by
  have hgrp : (d.grpRest g).mod.grp = updAt d.mod.grp g (fun x => { drv := x.drv, stop := x.drv && x.stop }) :=
    (groups_foldl (fun d c => d.onCh c ModCh.rested) (fun _ _ => ⟨rfl, rfl⟩) (chansOf g) _).1
  have hall (k : Nat) : (d.grpRest g).modG k = if g = k ∧ k < d.mod.grp.length then { drv := (d.modG k).drv, stop := (d.modG k).drv && (d.modG k).stop }
      else d.modG k := by
    rw [Dev.modG, hgrp]
    exact getD_updAt _ _ _ _ _
  refine ⟨?_, fun k hk => (hall k).trans (if_neg (fun h => hk h.1.symm))⟩
  rw [hall g]
  by_cases hg : g < d.mod.grp.length
  · rw [if_pos ⟨rfl, hg⟩]
  · rw [if_neg (fun h => hg h.2), Dev.modG, List.getD_eq_default _ _ (by omega)]

/-- A running group is put to rest. -/
def Dev.grpStop (g : Nat) (d : Dev) : Dev := if (d.modG g).run_ then d.grpRest g else d

theorem Dev.grpStop_plays (d : Dev) (g : Nat) : d.plays (d.grpStop g) [] [] := .ite (fun _ => d.grpRest_plays g) (fun _ => .refl d)

theorem Dev.grpStop_groups (d : Dev) (g : Nat) : ((d.grpStop g).modG g).run_ = false ∧ ∀ k, k ≠ g → (d.grpStop g).modG k = d.modG k := by
  by_cases h : (d.modG g).run_ = true
  · rw [Dev.grpStop, if_pos h]
    exact d.grpRest_groups g
  · rw [Dev.grpStop, if_neg h]
    exact ⟨Bool.not_eq_true _ ▸ h, fun _ _ => rfl⟩

theorem Dev.grpStops_leaves (n : Nat) (d : Dev) : d.plays (forN n Dev.grpStop d) [] [] ∧ ∀ g, g < n → ((forN n Dev.grpStop d).modG g).run_ = false := by
  induction n with
  | zero => exact ⟨.refl d, fun g hg => absurd hg (Nat.not_lt_zero g)⟩
  | succ n ih =>
    obtain ⟨hp, hall⟩ := ih
    have hg := (forN n Dev.grpStop d).grpStop_groups n
    have he : forN (n + 1) Dev.grpStop d = (forN n Dev.grpStop d).grpStop n := rfl
    rw [he]
    refine ⟨hp.trans (Dev.grpStop_plays _ n), fun g hgn => ?_⟩
    by_cases h : g = n
    · rw [h]
      exact hg.1
    · rw [hg.2 g h]
      exact hall g (by omega)

/-- The registers of the modulators that a shutdown moves. -/
def shutRegs : List Nat := modFlts ++ R.modGrpstat :: (List.range 48).map R.modChstat

theorem modFlts_shut : modFlts ⊆ shutRegs := List.subset_append_left modFlts (R.modGrpstat :: (List.range 48).map R.modChstat)

theorem chstats_shut : (R.modGrpstat :: (List.range 48).map R.modChstat) ⊆ shutRegs :=
  List.subset_append_right modFlts (R.modGrpstat :: (List.range 48).map R.modChstat)

/-- The modulators marked as shut. -/
def Dev.shutMarked (d : Dev) : Dev := { d with mod := { d.mod with shut := true } }

theorem Dev.modShut_eq (d : Dev) :
    d.modShut = ((forN 6 Dev.grpStop d).shutMarked.raise Blk.mod Src.modThermShut d.tickLo d.tickHi 0).grpStat.chStats := by
  have hstep : (fun g (d : Dev) => if (d.modG g).run_ then d.grpRest g else d) = Dev.grpStop := rfl
  rw [Dev.modShut, hstep]
  generalize forN 6 Dev.grpStop d = e
  rw [Dev.shutMarked]

theorem Dev.modShut_leaves (d : Dev) : d.keeps d.modShut shutRegs ∧ d.modShut.mod.shut = true ∧ ∀ g, g < 6 → (d.modShut.modG g).run_ = false := by
  obtain ⟨hp, hall⟩ := d.grpStops_leaves 6
  rw [d.modShut_eq]
  generalize forN 6 Dev.grpStop d = d1 at *
  have hk1 : d1.keeps d1.shutMarked [] := Dev.keeps_of_regs ⟨rfl, rfl, rfl⟩ _
  have hs1 : d1.shutMarked.mod.shut = true ∧ ∀ g, d1.shutMarked.modG g = d1.modG g := ⟨rfl, fun _ => rfl⟩
  generalize d1.shutMarked = d2 at *
  have hm3 : d2.marks (d2.raise Blk.mod Src.modThermShut d.tickLo d.tickHi 0) modFlts [] := .raise d2 _ _ _ _ _ (by simp [modFlts]) (by simp [modFlts])
  generalize d2.raise Blk.mod Src.modThermShut d.tickLo d.tickHi 0 = d3 at *
  have hm4 := d3.grpStat_marks
  have hk2 : d.keeps d2 shutRegs := (hp.keeps.trans hk1).mono (List.nil_subset shutRegs)
  have hk3 : d2.keeps d3 shutRegs := hm3.keeps.mono modFlts_shut
  have hk4 : d3.keeps d3.grpStat.chStats shutRegs := hm4.keeps.mono chstats_shut
  have hshut : d3.grpStat.chStats.mod.shut = true := by rw [hm4.mod, hm3.mod, hs1.1]
  have hrun : ∀ g, g < 6 → (d3.grpStat.chStats.modG g).run_ = false := fun g hg => by
    rw [hm4.modG, hm3.modG, hs1.2]
    exact hall g hg
  exact And.intro ((hk2.trans hk3).trans hk4) (And.intro hshut hrun)

/-- The registers of SYN that a shutdown of the clock outputs moves. -/
def clkoutRegs : List Nat := [R.fltstat Blk.syn, R.fltfirst Blk.syn] ++ (List.range 4).map R.synOutstat

/-- A clock output stops. -/
def Dev.outStop (k : Nat) (d : Dev) : Dev := (d.setFld (R.synOutstat k) 0 1 0).setFld (R.synOutstat k) 1 1 1

theorem Dev.outStop_leaves (d : Dev) (k : Nat) : d.marks (d.outStop k) [R.synOutstat k] [] ∧ (d.outStop k).rf (R.synOutstat k) 0 1 = 0 ∧
    (d.outStop k).rf (R.synOutstat k) 1 1 = 1 :=
  ⟨(Dev.marks.setFld d _ _ _ (by simp)).trans (.setFld _ _ _ _ (by simp)),
    (Dev.rf_setFld_lo _ _ _ _ _ _ _ (by decide) (by decide)).trans (Dev.rf_setFld _ _ _ _ _ (by decide)), Dev.rf_setFld _ _ _ _ _ (by decide)⟩

theorem Dev.outStops_leaves (n : Nat) (d : Dev) : d.marks (forN n Dev.outStop d) ((List.range n).map R.synOutstat) [] ∧
    ∀ k, k < n → (forN n Dev.outStop d).rf (R.synOutstat k) 0 1 = 0 ∧ (forN n Dev.outStop d).rf (R.synOutstat k) 1 1 = 1 := by
  induction n with
  | zero => exact ⟨.refl d, fun k hk => absurd hk (Nat.not_lt_zero k)⟩
  | succ n ih =>
    obtain ⟨hm, hall⟩ := ih
    obtain ⟨hs, h0, h1⟩ := (forN n Dev.outStop d).outStop_leaves n
    have he : forN (n + 1) Dev.outStop d = (forN n Dev.outStop d).outStop n := rfl
    rw [he, List.range_succ, List.map_append]
    refine ⟨(hm.mono (List.subset_append_left _ _) (List.Subset.refl _)).trans (hs.mono (List.subset_append_right _ _) (List.Subset.refl _)), fun k hk => ?_⟩
    by_cases h : k = n
    · rw [h]
      exact ⟨h0, h1⟩
    · have hne : R.synOutstat k ∉ [R.synOutstat n] := by
        simp only [List.mem_singleton, R.synOutstat]
        omega
      rw [hs.rf _ _ hne, hs.rf _ _ hne]
      exact hall k (by omega)

/-- No clock output has a divider. -/
def Dev.outsOff (d : Dev) : Dev := { d with clk := { d.clk with outs := List.replicate 4 none } }

theorem Dev.clkoutShut_leaves (d : Dev) : d.keeps d.clkoutShut clkoutRegs ∧ d.clkoutShut.mod = d.mod ∧
    ∀ k, k < 4 → d.clkoutShut.rf (R.synOutstat k) 0 1 = 0 ∧ d.clkoutShut.rf (R.synOutstat k) 1 1 = 1 := by
  obtain ⟨hm, hall⟩ := d.outStops_leaves 4
  obtain ⟨x, he⟩ : ∃ x, d.clkoutShut = (forN 4 Dev.outStop d).outsOff.raise Blk.syn Src.synThermShut x 0 0 := ⟨_, rfl⟩
  rw [he]
  generalize forN 4 Dev.outStop d = d1 at *
  have hk1 : d1.keeps d1.outsOff [] := Dev.keeps_of_regs ⟨rfl, rfl, rfl⟩ _
  have hmod : d1.outsOff.mod = d1.mod := rfl
  generalize d1.outsOff = d2 at *
  have hm3 : d2.marks (d2.raise Blk.syn Src.synThermShut x 0 0) [R.fltstat Blk.syn, R.fltfirst Blk.syn] [] := .raise d2 _ _ _ _ _ (by simp) (by simp)
  generalize d2.raise Blk.syn Src.synThermShut x 0 0 = d3 at *
  refine ⟨((hm.keeps.mono (List.subset_append_right _ _)).trans (hk1.mono (List.nil_subset _))).trans (hm3.keeps.mono (List.subset_append_left _ _)),
    by rw [hm3.mod, hmod, hm.mod], fun k hk => ?_⟩
  have hne : R.synOutstat k ∉ [R.fltstat Blk.syn, R.fltfirst Blk.syn] := by
    have hall : ∀ i < 4, R.synOutstat i ∉ [R.fltstat Blk.syn, R.fltfirst Blk.syn] := by decide
    exact hall k hk
  rw [hm3.rf _ _ hne, hm3.rf _ _ hne, hk1.rf List.not_mem_nil, hk1.rf List.not_mem_nil]
  exact hall k hk

theorem blk_of_shutRegs {o : Nat} (h : o ∈ shutRegs) : o / 0x10000 = Blk.mod := by
  have hall : ∀ x ∈ shutRegs, x / 0x10000 = Blk.mod := by decide
  exact hall o h

theorem blk_of_clkoutRegs {o : Nat} (h : o ∈ clkoutRegs) : o / 0x10000 = Blk.syn := by
  have hall : ∀ x ∈ clkoutRegs, x / 0x10000 = Blk.syn := by decide
  exact hall o h

theorem blk_of_thmFlts {o : Nat} (h : o ∈ [R.fltstat Blk.thm, R.fltfirst Blk.thm]) : o / 0x10000 = Blk.thm := by
  have hall : ∀ x ∈ [R.fltstat Blk.thm, R.fltfirst Blk.thm], x / 0x10000 = Blk.thm := by decide
  exact hall o h

/-- The latch of the thermal shutdown set. -/
def Dev.thermLatched (d : Dev) : Dev := (d.setFld R.pwrTherm 0 1 1).setFld R.thmStat 31 1 1

theorem Dev.thermLatched_leaves (d : Dev) : d.keeps d.thermLatched [R.pwrTherm, R.thmStat] ∧ d.thermLatched.rf R.pwrTherm 0 1 = 1 ∧
    d.thermLatched.rf R.thmStat 31 1 = 1 :=
  ⟨(d.keeps_setFld _ _ _ _ (by simp)).trans (Dev.keeps_setFld _ _ _ _ _ (by simp)),
    (Dev.rf_setFld_ne _ _ _ _ _ _ _ (by decide)).trans (Dev.rf_setFld _ _ _ _ _ (by decide)), Dev.rf_setFld _ _ _ _ _ (by decide)⟩

theorem Dev.thermShut_shuts (d : Dev) (c : Nat) (h : d.rf R.pwrTherm 0 1 = 0) : let e := d.thermShut c
    e.rf R.pwrTherm 0 1 = 1 ∧ e.rf R.thmStat 31 1 = 1 ∧ e.mod.shut = true ∧ (∀ g, g < 6 → (e.modG g).run_ = false) ∧
      (∀ k, k < 4 → e.rf (R.synOutstat k) 0 1 = 0 ∧ e.rf (R.synOutstat k) 1 1 = 1) ∧ e.flag Blk.thm Src.thmThermShut ∧
      d.keepsOut e [Blk.thm, Blk.pwr, Blk.mod, Blk.syn] := by
  have hne : ¬(d.atC c).rf R.pwrTherm 0 1 = 1 := by
    have h0 : (d.atC c).rf R.pwrTherm 0 1 = 0 := h
    omega
  have he : d.thermShut c = ((d.atC c).thermLatched.modShut.clkoutShut).raise Blk.thm Src.thmThermShut (d.atC c).tickLo (d.atC c).tickHi 0 := if_neg hne
  have hk0 : d.keeps (d.atC c) [] := Dev.keeps_of_regs ⟨rfl, rfl, rfl⟩ _
  intro e
  rw [show e = _ from he]
  generalize d.atC c = d0 at *
  obtain ⟨hk1, hp1, ht1⟩ := d0.thermLatched_leaves
  generalize d0.thermLatched = d1 at *
  obtain ⟨hk2, hs2, hg2⟩ := d1.modShut_leaves
  generalize d1.modShut = d2 at *
  obtain ⟨hk3, hm3, ho3⟩ := d2.clkoutShut_leaves
  generalize d2.clkoutShut = d3 at *
  have hm4 : d3.marks (d3.raise Blk.thm Src.thmThermShut d0.tickLo d0.tickHi 0) [R.fltstat Blk.thm, R.fltfirst Blk.thm] [] :=
    .raise d3 _ _ _ _ _ (by simp) (by simp)
  have hf4 : (d3.raise Blk.thm Src.thmThermShut d0.tickLo d0.tickHi 0).flag Blk.thm Src.thmThermShut := Dev.flag_raise _ _ _ _ _ _ (by decide)
  generalize d3.raise Blk.thm Src.thmThermShut d0.tickLo d0.tickHi 0 = d4 at *
  have hrf {o lo w : Nat} (h1 : o ∉ shutRegs) (h2 : o ∉ clkoutRegs) (h3 : o ∉ [R.fltstat Blk.thm, R.fltfirst Blk.thm]) : d4.rf o lo w = d1.rf o lo w := by
    rw [hm4.rf _ _ h3, hk3.rf h2, hk2.rf h1]
  refine ⟨(hrf (by decide) (by decide) (by decide)).trans hp1, (hrf (by decide) (by decide) (by decide)).trans ht1, by rw [hm4.mod, hm3, hs2],
    fun g hg => ?_, fun k hk => ?_, hf4, fun o ho => ?_⟩
  · rw [hm4.modG, Dev.modG, hm3]
    exact hg2 g hg
  · have hall : ∀ i < 4, R.synOutstat i ∉ [R.fltstat Blk.thm, R.fltfirst Blk.thm] := by decide
    rw [hm4.rf _ _ (hall k hk), hm4.rf _ _ (hall k hk)]
    exact ho3 k hk
  · have h0 := hk0 o List.not_mem_nil
    have h1 := hk1 o (fun hc => ho (by rcases List.mem_pair.mp hc with rfl | rfl <;> decide))
    have h2 := hk2 o (fun hc => ho (by simp [blk_of_shutRegs hc]))
    have h3 := hk3 o (fun hc => ho (by simp [blk_of_clkoutRegs hc]))
    have h4 := hm4.keeps o (fun hc => ho (by simp [blk_of_thmFlts hc]))
    exact ⟨h4.1.trans (h3.1.trans (h2.1.trans (h1.1.trans h0.1))), h4.2.trans (h3.2.trans (h2.2.trans (h1.2.trans h0.2)))⟩

end Sys2Proof.Machine

/-!
PROOFS. The conversions of the temperature sensors.
-/
namespace Sys2Proof.Machine

/-! ## The frame -/

/-- The device with other thermal marks. -/
def Dev.withThm (d : Dev) (t : Thm) : Dev := { d with thm := t }

/-- The registers that the hottest reading and its thresholds move. -/
def thmLow : List Nat := [R.thmStat, R.thmTj, R.thmTjmax, R.fltstat Blk.thm, R.fltfirst Blk.thm]

/-- The registers that a conversion moves. -/
def thmRegs : List Nat := thmLow ++ (List.range 6).map R.thmTemp

/-- From `d` to `e` the thermal marks, and of the rest the registers of `l` alone and what faults change may differ; no flag of the block falls. -/
def Dev.heats (d e : Dev) (l : List Nat) : Prop := (d.withThm e.thm).marks e l [] ∧ ∀ s, s < 32 → d.flag Blk.thm s → e.flag Blk.thm s

namespace Dev.heats

variable {l : List Nat}

theorem refl (d : Dev) : d.heats d l := ⟨.refl d, fun _ _ h => h⟩

theorem marks_withThm {d e : Dev} {w : List Nat} (h : d.marks e l w) (t : Thm) : (d.withThm t).marks (e.withThm t) l w := by
  obtain ⟨⟨_, _, _, _, _, _, _, _, rfl⟩, hk, hw⟩ := h
  exact ⟨⟨_, _, _, _, _, _, _, _, rfl⟩, hk, hw⟩

theorem trans {d e f : Dev} (h : d.heats e l) (k : e.heats f l) : d.heats f l :=
  ⟨(marks_withThm h.1 f.thm).trans k.1, fun s hs hf => k.2 s hs (h.2 s hs hf)⟩

theorem mono {d e : Dev} {l' : List Nat} (h : d.heats e l) (hl : l ⊆ l') : d.heats e l' := ⟨h.1.mono hl (List.Subset.refl _), h.2⟩

theorem setReg (d : Dev) {o : Nat} (x : Nat) (ho : o ∈ l) (hne : R.fltstat Blk.thm ≠ o) : d.heats (d.setReg o x) l :=
  ⟨.setReg d x ho, fun s _ hf => (Dev.rf_setReg_ne d o x s 1 hne).trans hf⟩

theorem setFld (d : Dev) {o : Nat} (lo w x : Nat) (ho : o ∈ l) (hne : R.fltstat Blk.thm ≠ o) : d.heats (d.setFld o lo w x) l :=
  ⟨.setFld d lo w x ho, fun s _ hf => (Dev.rf_setFld_ne d o lo w x s 1 hne).trans hf⟩

theorem raise (d : Dev) (src d0 d1 d2 : Nat) (h1 : R.fltstat Blk.thm ∈ l) (h2 : R.fltfirst Blk.thm ∈ l) :
    d.heats (d.raise Blk.thm src d0 d1 d2) l := by
  have hm : d.marks (d.raise Blk.thm src d0 d1 d2) l [] := .raise d _ _ _ _ _ h1 h2
  refine ⟨?_, fun s hs hf => d.flag_stays_raise src d0 d1 d2 hs hf⟩
  rw [Dev.raise_thm]
  exact hm

theorem onThm (d : Dev) (t : Thm) : d.heats (d.withThm t) l := ⟨.refl _, fun _ _ h => h⟩

theorem keeps {d e : Dev} (h : d.heats e l) : d.keeps e l := h.1.keeps

theorem keepsOut {d e : Dev} (h : d.heats e thmRegs) : d.keepsOut e [Blk.thm] := fun o ho => h.keeps o (fun hc => by
  have hall : ∀ x ∈ thmRegs, x / 0x10000 ∈ [Blk.thm] := by decide
  exact ho (hall o hc))

end Dev.heats

/-! ## The thresholds (R407, R408) -/

theorem Dev.reg_withThm (d : Dev) (t : Thm) (o : Nat) : (d.withThm t).reg o = d.reg o := rfl

theorem Dev.rf_withThm (d : Dev) (t : Thm) (o lo w : Nat) : (d.withThm t).rf o lo w = d.rf o lo w := by rw [Dev.rf, d.reg_withThm, Dev.rf]

/-- The warning's own mark set or cleared. -/
def Dev.warnMark (d : Dev) (b : Bool) : Dev := d.withThm { d.thm with warned := b }

section
variable (d : Dev) (tj : Int) (hot : Nat)

/-- The warning at its threshold `warn`, bit 29 being up to date. -/
def Dev.warnAt (warn : Int) : Dev :=
  if decide (warn ≤ tj) && !d.thm.warned then (d.warnMark true).raise Blk.thm Src.thmThermWarn (tempWord tj) hot d.tickLo
  else if tj ≤ warn - 20 then d.warnMark false else d

theorem Dev.warnAt_leaves (warn : Int) : let e := d.warnAt tj hot warn
    d.heats e thmLow ∧ e.thm.hot = d.thm.hot ∧ (∀ lo w, e.rf R.thmStat lo w = d.rf R.thmStat lo w) ∧ e.reg R.thmTj = d.reg R.thmTj ∧
      (warn ≤ tj → d.thm.warned = false → e.flag Blk.thm Src.thmThermWarn) := by
  intro e
  have he : e = if decide (warn ≤ tj) && !d.thm.warned then (d.warnMark true).raise Blk.thm Src.thmThermWarn (tempWord tj) hot d.tickLo
      else if tj ≤ warn - 20 then d.warnMark false else d := rfl
  have hh (b : Bool) : d.heats (d.warnMark b) thmLow := .onThm d _
  have hr (b : Bool) (lo w : Nat) : (d.warnMark b).rf R.thmStat lo w = d.rf R.thmStat lo w := d.rf_withThm _ _ _ _
  have hs (b : Bool) : (d.warnMark b).reg R.thmTj = d.reg R.thmTj := d.reg_withThm _ _
  have ht (b : Bool) : (d.warnMark b).thm.hot = d.thm.hot := rfl
  rw [he]
  by_cases hw : (decide (warn ≤ tj) && !d.thm.warned) = true
  · rw [if_pos hw]
    have hh := hh true
    have hr := hr true
    have hs := hs true
    have ht := ht true
    generalize d.warnMark true = d2 at *
    exact ⟨hh.trans (.raise d2 _ _ _ _ (by decide) (by decide)), by rw [Dev.raise_thm, ht],
      fun lo w => (Dev.rf_raise_ne _ _ _ _ _ _ _ _ (by decide) (by decide)).trans (hr lo w),
      (Dev.keeps_raise _ _ _ _ _ _ (l := [R.fltstat Blk.thm, R.fltfirst Blk.thm]) (by simp) (by simp) _ (by decide)).1.trans hs,
      fun _ _ => Dev.flag_raise _ _ _ _ _ _ (by decide)⟩
  · have hno : warn ≤ tj → d.thm.warned = false → False := fun h1 h2 => hw (by rw [h2, decide_eq_true h1]; rfl)
    rw [if_neg hw]
    split
    · exact ⟨hh false, ht false, hr false, hs false, fun h1 h2 => (hno h1 h2).elim⟩
    · exact ⟨.refl d, rfl, fun _ _ => rfl, rfl, fun h1 h2 => (hno h1 h2).elim⟩

/-- The yield at its threshold, in the second reading above it. -/
def Dev.yieldAt (was : Bool) : Dev :=
  if decide ((620 : Int) ≤ tj) && was && d.rf R.thmStat 30 1 == 0 then (d.setFld R.thmStat 30 1 1).raise Blk.thm Src.thmThermYield (tempWord tj) hot d.tickLo
  else if tj < 600 then d.setFld R.thmStat 30 1 0 else d

theorem Dev.yieldAt_leaves (was : Bool) : let e := d.yieldAt tj hot was
    d.heats e thmLow ∧ (∀ lo w, lo + w ≤ 30 → e.rf R.thmStat lo w = d.rf R.thmStat lo w) ∧ e.reg R.thmTj = d.reg R.thmTj ∧
      (620 ≤ tj → was = true → d.rf R.thmStat 30 1 = 0 → e.rf R.thmStat 30 1 = 1 ∧ e.flag Blk.thm Src.thmThermYield) ∧
      (tj < 600 → e.rf R.thmStat 30 1 = 0) := by
  intro e
  have he : e = if decide ((620 : Int) ≤ tj) && was && d.rf R.thmStat 30 1 == 0 then
        (d.setFld R.thmStat 30 1 1).raise Blk.thm Src.thmThermYield (tempWord tj) hot d.tickLo
      else if tj < 600 then d.setFld R.thmStat 30 1 0 else d := rfl
  have hlow (x lo w : Nat) (h : lo + w ≤ 30) : (d.setFld R.thmStat 30 1 x).rf R.thmStat lo w = d.rf R.thmStat lo w :=
    Dev.rf_setFld_lo _ _ _ _ _ _ _ h (by omega)
  have hset (x : Nat) : (d.setFld R.thmStat 30 1 x).rf R.thmStat 30 1 = x % 2 := Dev.rf_setFld _ _ _ _ _ (by decide)
  have hheat (x : Nat) : d.heats (d.setFld R.thmStat 30 1 x) thmLow := .setFld d _ _ _ (by decide) (by decide)
  have htj (x : Nat) : (d.setFld R.thmStat 30 1 x).reg R.thmTj = d.reg R.thmTj := Dev.reg_setFld_ne _ _ _ _ _ _ (by decide)
  rw [he]
  by_cases hy : (decide ((620 : Int) ≤ tj) && was && d.rf R.thmStat 30 1 == 0) = true
  · rw [if_pos hy]
    have h620 : 620 ≤ tj := by
      simp only [Bool.and_eq_true, decide_eq_true_eq] at hy
      exact hy.1.1
    have hheat := hheat 1
    have hlow := hlow 1
    have hset := hset 1
    have htj := htj 1
    generalize d.setFld R.thmStat 30 1 1 = d4 at *
    have hr (lo w : Nat) : (d4.raise Blk.thm Src.thmThermYield (tempWord tj) hot d.tickLo).rf R.thmStat lo w = d4.rf R.thmStat lo w :=
      Dev.rf_raise_ne _ _ _ _ _ _ _ _ (by decide) (by decide)
    exact ⟨hheat.trans (.raise d4 _ _ _ _ (by decide) (by decide)), fun lo w h => (hr lo w).trans (hlow lo w h),
      (Dev.keeps_raise _ _ _ _ _ _ (l := [R.fltstat Blk.thm, R.fltfirst Blk.thm]) (by simp) (by simp) _ (by decide)).1.trans htj,
      fun _ _ _ => ⟨(hr 30 1).trans hset, Dev.flag_raise _ _ _ _ _ _ (by decide)⟩, fun h => by omega⟩
  · have hno : 620 ≤ tj → was = true → d.rf R.thmStat 30 1 = 0 → False := fun h1 h2 h3 => hy (by rw [decide_eq_true h1, h2, h3]; rfl)
    rw [if_neg hy]
    by_cases hlt : tj < 600
    · rw [if_pos hlt]
      exact ⟨hheat 0, hlow 0, htj 0, fun h1 h2 h3 => (hno h1 h2 h3).elim, fun _ => hset 0⟩
    · rw [if_neg hlt]
      exact ⟨.refl d, fun _ _ _ => rfl, rfl, fun h1 h2 h3 => (hno h1 h2 h3).elim, fun h => absurd h hlt⟩

/-- The mark of a reading above the yield's threshold. -/
def Dev.hotMark : Dev := d.withThm { d.thm with hot := decide ((620 : Int) ≤ tj) }

theorem Dev.thmThresholds_eq : d.thmThresholds tj hot =
    (((d.setFld R.thmStat 29 1 (b2n (decide (4 * (d.rf R.thmCfg 0 8 : Int) ≤ tj)))).warnAt tj hot (4 * (d.rf R.thmCfg 0 8 : Int))).hotMark tj).yieldAt
      tj hot d.thm.hot := rfl

/-- What the thresholds leave. -/
theorem Dev.thmThresholds_leaves : let e := d.thmThresholds tj hot
    d.heats e thmLow ∧ (∀ lo w, lo + w ≤ 29 → e.rf R.thmStat lo w = d.rf R.thmStat lo w) ∧ e.reg R.thmTj = d.reg R.thmTj ∧
      e.rf R.thmStat 29 1 = b2n (decide (4 * (d.rf R.thmCfg 0 8 : Int) ≤ tj)) ∧
      (4 * (d.rf R.thmCfg 0 8 : Int) ≤ tj → d.thm.warned = false → e.flag Blk.thm Src.thmThermWarn) ∧
      (620 ≤ tj → d.thm.hot = true → d.rf R.thmStat 30 1 = 0 → e.rf R.thmStat 30 1 = 1 ∧ e.flag Blk.thm Src.thmThermYield) ∧
      (tj < 600 → e.rf R.thmStat 30 1 = 0) := by
  rw [d.thmThresholds_eq]
  generalize 4 * (d.rf R.thmCfg 0 8 : Int) = warn
  have hh1 : d.heats (d.setFld R.thmStat 29 1 (b2n (decide (warn ≤ tj)))) thmLow := .setFld d _ _ _ (by decide) (by decide)
  have ht1 : (d.setFld R.thmStat 29 1 (b2n (decide (warn ≤ tj)))).thm = d.thm := Dev.setFld_thm _ _ _ _ _
  have hl1 (lo w : Nat) (h : lo + w ≤ 29) : (d.setFld R.thmStat 29 1 (b2n (decide (warn ≤ tj)))).rf R.thmStat lo w = d.rf R.thmStat lo w :=
    Dev.rf_setFld_lo _ _ _ _ _ _ _ h (by omega)
  have h30 : (d.setFld R.thmStat 29 1 (b2n (decide (warn ≤ tj)))).rf R.thmStat 30 1 = d.rf R.thmStat 30 1 :=
    Dev.rf_setFld_hi _ _ _ _ _ _ _ (by decide) (by decide)
  have h29 : (d.setFld R.thmStat 29 1 (b2n (decide (warn ≤ tj)))).rf R.thmStat 29 1 = b2n (decide (warn ≤ tj)) :=
    (Dev.rf_setFld _ _ _ _ _ (by decide)).trans (Nat.mod_eq_of_lt (by cases decide (warn ≤ tj) <;> decide))
  have hj1 : (d.setFld R.thmStat 29 1 (b2n (decide (warn ≤ tj)))).reg R.thmTj = d.reg R.thmTj := Dev.reg_setFld_ne _ _ _ _ _ _ (by decide)
  generalize d.setFld R.thmStat 29 1 (b2n (decide (warn ≤ tj))) = d1 at *
  obtain ⟨hh2, -, hr2, hj2, hwarn⟩ := d1.warnAt_leaves tj hot warn
  generalize d1.warnAt tj hot warn = d2 at *
  have hh3 : d2.heats (d2.hotMark tj) thmLow := .onThm d2 _
  have hr3 (lo w : Nat) : (d2.hotMark tj).rf R.thmStat lo w = d2.rf R.thmStat lo w := d2.rf_withThm _ _ _ _
  have hj3 : (d2.hotMark tj).reg R.thmTj = d2.reg R.thmTj := d2.reg_withThm _ _
  generalize d2.hotMark tj = d3 at *
  obtain ⟨hh4, hr4, hj4, hy, hcold⟩ := d3.yieldAt_leaves tj hot d.thm.hot
  have hr (lo w : Nat) : d3.rf R.thmStat lo w = d1.rf R.thmStat lo w := (hr3 lo w).trans (hr2 lo w)
  exact ⟨(hh1.trans hh2).trans (hh3.trans hh4), fun lo w h => (hr4 lo w (by omega)).trans ((hr lo w).trans (hl1 lo w h)),
    hj4.trans (hj3.trans (hj2.trans hj1)), (hr4 29 1 (by decide)).trans ((hr 29 1).trans h29),
    fun h1 h2 => (hh3.trans hh4).2 _ (by decide) (hwarn h1 (by rw [ht1, h2])), fun h1 h2 h3 => hy h1 h2 ((hr 30 1).trans (h30.trans h3)), hcold⟩

end

/-! ## The readings (R406) -/

theorem tempWord_lt (x : Int) : tempWord x < 2 ^ 16 := by
  simp only [tempWord, wrapN]
  omega

/-- The readings taken over. -/
theorem Dev.temps_leaves (f : Nat → Int) (n : Nat) (hn : n ≤ 6) (d : Dev) : let e := forN n (fun i d => d.setReg (R.thmTemp i) (tempWord (f i))) d
    d.heats e thmRegs ∧ e.thm = d.thm ∧ (∀ i, i < n → e.reg (R.thmTemp i) = tempWord (f i)) ∧ e.reg R.thmStat = d.reg R.thmStat := by
  induction n with
  | zero => exact ⟨.refl d, rfl, fun i hi => absurd hi (Nat.not_lt_zero i), rfl⟩
  | succ n ih =>
    obtain ⟨hh, ht, hall, hst⟩ := ih (by omega)
    intro e
    have he : e = (forN n (fun i d => d.setReg (R.thmTemp i) (tempWord (f i))) d).setReg (R.thmTemp n) (tempWord (f n)) := rfl
    rw [he]
    generalize forN n (fun i d => d.setReg (R.thmTemp i) (tempWord (f i))) d = d1 at *
    have hmem : R.thmTemp n ∈ thmRegs := List.mem_append_right _ (List.mem_map_of_mem (List.mem_range.mpr (by omega)))
    refine ⟨hh.trans (.setReg d1 _ hmem ?_), (Dev.setReg_thm _ _ _).trans ht, fun i hi => ?_, (Dev.reg_setReg_ne _ _ _ _ ?_).trans hst⟩
    · have hall : ∀ i < 6, R.fltstat Blk.thm ≠ R.thmTemp i := by decide
      exact hall n (by omega)
    · by_cases h : i = n
      · rw [h]
        exact (Dev.reg_setReg _ _ _).trans (Nat.mod_eq_of_lt (lt_trans (tempWord_lt _) (by decide)))
      · refine (Dev.reg_setReg_ne _ _ _ _ ?_).trans (hall i (by omega))
        simp only [R.thmTemp]
        omega
    · simp only [R.thmStat, R.thmTemp]
      omega

theorem bit_mask (l : List Nat) (v i : Nat) : bit (l.foldl (fun m i => bitSet m i true) v) i = (decide (i ∈ l) || bit v i) := by
  induction l generalizing v with
  | nil => simp
  | cons k l ih =>
    rw [List.foldl_cons, ih]
    by_cases h : i = k
    · subst h
      simp [bit_bitSet_same]
    · rw [bit_bitSet_ne v _ h]
      simp [h]

/-- A sensor of the list shows as excluded. -/
theorem Dev.rf_excluded (d : Dev) {l : List Nat} {i : Nat} (hi : i < 6) (h : i ∈ l) :
    (d.setFld R.thmStat 8 6 (l.foldl (fun m i => bitSet m i true) 0)).rf R.thmStat (8 + i) 1 = 1 := by
  have hf : (d.setFld R.thmStat 8 6 (l.foldl (fun m i => bitSet m i true) 0)).rf R.thmStat 8 6 = l.foldl (fun m i => bitSet m i true) 0 % 2 ^ 6 :=
    Dev.rf_setFld _ _ _ _ _ (by decide)
  have hb : bit ((d.setFld R.thmStat 8 6 (l.foldl (fun m i => bitSet m i true) 0)).reg R.thmStat) (8 + i) = true := by
    rw [bit_field _ 8 hi]
    refine (congrArg (fun v => bit v i) hf).trans ?_
    show bit (_ % 2 ^ 6) i = true
    rw [bit_eq_testBit, Nat.testBit_mod_two_pow, decide_eq_true hi, Bool.true_and, ← bit_eq_testBit, bit_mask, decide_eq_true h, Bool.true_or]
  rw [bit_eq_fld] at hb
  exact beq_iff_eq.mp hb

/-- The faults of the sensors that are excluded. -/
theorem Dev.sensorFails_leaves (x y : Nat → Nat) (l : List Nat) (d : Dev) : let e := each l (fun i d => d.raise Blk.thm Src.thmSensorFail i (x i) (y i)) d
    d.heats e thmRegs ∧ e.thm = d.thm ∧ (l ≠ [] → e.flag Blk.thm Src.thmSensorFail) ∧ (∀ lo w, e.rf R.thmStat lo w = d.rf R.thmStat lo w) := by
  induction l generalizing d with
  | nil => exact ⟨.refl d, rfl, fun h => absurd rfl h, fun _ _ => rfl⟩
  | cons i l ih =>
    obtain ⟨hh, ht, -, hr⟩ := ih (d.raise Blk.thm Src.thmSensorFail i (x i) (y i))
    exact ⟨(Dev.heats.raise d _ _ _ _ (by decide) (by decide)).trans hh, ht.trans (Dev.raise_thm _ _ _ _ _ _), fun _ => hh.2 _ (by decide) (Dev.flag_raise _ _ _ _ _ _ (by decide)),
      fun lo w => (hr lo w).trans (Dev.rf_raise_ne _ _ _ _ _ _ _ _ (by decide) (by decide))⟩

/-- The sensors that are excluded. -/
def badSensors (l : List Int) : List Nat := (List.range 6).filter (sensorBad l)

/-- The readings taken over, with the sensors that are excluded. -/
def Dev.sensorsRead (l : List Int) (d : Dev) : Dev :=
  each (badSensors l) (fun i d => d.raise Blk.thm Src.thmSensorFail i (tempWord (l.getD i 0)) (tempWord (medianI (others l i))))
    ((forN 6 (fun i d => d.setReg (R.thmTemp i) (tempWord (l.getD i 0))) d).setFld R.thmStat 8 6 ((badSensors l).foldl (fun m i => bitSet m i true) 0))

theorem temp_notin {i : Nat} (hi : i < 6) : R.thmTemp i ∉ thmLow := by
  have hall : ∀ i < 6, R.thmTemp i ∉ thmLow := by decide
  exact hall i hi


/-- What the readings leave: each sensor's word, and the sensors that are excluded. -/
theorem Dev.sensorsRead_leaves (l : List Int) (d : Dev) : let e := d.sensorsRead l
    d.heats e thmRegs ∧ e.thm = d.thm ∧ (∀ i, i < 6 → e.reg (R.thmTemp i) = tempWord (l.getD i 0)) ∧
      (∀ i, i ∈ badSensors l → e.rf R.thmStat (8 + i) 1 = 1 ∧ e.flag Blk.thm Src.thmSensorFail) ∧ e.rf R.thmStat 30 1 = d.rf R.thmStat 30 1 := by
  obtain ⟨hh1, ht1, hall, hst⟩ := d.temps_leaves (fun i => l.getD i 0) 6 (le_refl 6)
  rw [Dev.sensorsRead]
  generalize forN 6 (fun i d => d.setReg (R.thmTemp i) (tempWord (l.getD i 0))) d = d1 at *
  have hx (i : Nat) (hi : i ∈ badSensors l) := d1.rf_excluded (List.mem_range.mp (List.mem_filter.mp hi).1) hi
  generalize (badSensors l).foldl (fun m i => bitSet m i true) 0 = m at *
  have hh2 : d1.heats (d1.setFld R.thmStat 8 6 m) thmRegs := .setFld d1 _ _ _ (by decide) (by decide)
  have ht2 : (d1.setFld R.thmStat 8 6 m).thm = d1.thm := Dev.setFld_thm _ _ _ _ _
  have hr2 (o : Nat) (h : o ≠ R.thmStat) : (d1.setFld R.thmStat 8 6 m).reg o = d1.reg o := Dev.reg_setFld_ne _ _ _ _ _ _ h
  have h30 : (d1.setFld R.thmStat 8 6 m).rf R.thmStat 30 1 = d.rf R.thmStat 30 1 :=
    (Dev.rf_setFld_hi _ _ _ _ _ _ _ (by decide) (by decide)).trans (by rw [Dev.rf, hst, Dev.rf])
  generalize d1.setFld R.thmStat 8 6 m = d2 at *
  obtain ⟨hh3, ht3, hf3, hr3⟩ := d2.sensorFails_leaves (fun i => tempWord (l.getD i 0)) (fun i => tempWord (medianI (others l i))) (badSensors l)
  have hk3 : ∀ xs : List Nat, ∀ d : Dev, d.marks (each xs (fun i d => d.raise Blk.thm Src.thmSensorFail i (tempWord (l.getD i 0)) (tempWord (medianI (others l i)))) d)
      [R.fltstat Blk.thm, R.fltfirst Blk.thm] [] := fun xs => .each _ xs (fun _ _ e => .raise e _ _ _ _ _ (by simp) (by simp))
  have hm3 := hk3 (badSensors l) d2
  refine ⟨(hh1.trans hh2).trans hh3, ht3.trans (ht2.trans ht1), fun i hi => ?_, fun i hi => ⟨(hr3 _ _).trans (hx i hi), hf3 (fun hc => ?_)⟩, (hr3 _ _).trans h30⟩
  · have hno := temp_notin hi
    simp only [thmLow, List.mem_cons, not_or] at hno
    obtain ⟨hn1, -, -, hn2, hn3, -⟩ := hno
    exact (hm3.reg (by simp [hn2, hn3])).trans ((hr2 _ hn1).trans (hall i hi))
  · rw [hc] at hi
    exact absurd hi List.not_mem_nil

/-- The hotter of the sensor found so far and sensor `i`. -/
def hotter (l : List Int) (m i : Nat) : Nat := if l.getD m 0 < l.getD i 0 then i else m

theorem hottest_le (l : List Int) (xs : List Nat) (m : Nat) : l.getD m 0 ≤ l.getD (xs.foldl (hotter l) m) 0 ∧
    (∀ i ∈ xs, l.getD i 0 ≤ l.getD (xs.foldl (hotter l) m) 0) ∧ (xs.foldl (hotter l) m = m ∨ xs.foldl (hotter l) m ∈ xs) := by
  induction xs generalizing m with
  | nil => exact ⟨le_refl _, fun i hi => absurd hi List.not_mem_nil, .inl rfl⟩
  | cons k xs ih =>
    obtain ⟨hm, hall, hmem⟩ := ih (hotter l m k)
    have hstep : l.getD m 0 ≤ l.getD (hotter l m k) 0 ∧ l.getD k 0 ≤ l.getD (hotter l m k) 0 ∧ (hotter l m k = m ∨ hotter l m k = k) := by
      rw [hotter]
      split
      · exact ⟨by omega, le_refl _, .inr rfl⟩
      · exact ⟨le_refl _, by omega, .inl rfl⟩
    rw [List.foldl_cons]
    refine ⟨hstep.1.trans hm, fun i hi => ?_, ?_⟩
    · rcases List.mem_cons.mp hi with rfl | hi
      · exact hstep.2.1.trans hm
      · exact hall i hi
    · rcases hmem with h | h
      · rw [h]
        exact hstep.2.2.imp_right (fun hk => List.mem_cons.mpr (.inl hk))
      · exact .inr (List.mem_cons_of_mem _ h)

/-- The sensors that are not excluded. -/
def goodSensors (l : List Int) : List Nat := (List.range 6).filter (fun i => !(badSensors l).contains i)

/-- The hottest reading taken over. -/
def Dev.hottestTaken (d : Dev) (tj : Int) (hot : Nat) : Dev :=
  let e := (d.setFld R.thmStat 0 3 hot).setReg R.thmTj (tempWord tj)
  if sgn 16 (e.reg R.thmTjmax) < tj then e.setReg R.thmTjmax (tempWord tj) else e

theorem Dev.hottestTaken_leaves (d : Dev) (tj : Int) (hot : Nat) : let e := d.hottestTaken tj hot
    d.heats e thmLow ∧ e.thm = d.thm ∧ e.reg R.thmTj = tempWord tj ∧
      (∀ lo w, 3 ≤ lo → lo + w ≤ 32 → e.rf R.thmStat lo w = d.rf R.thmStat lo w) := by
  intro e
  have he : e = if sgn 16 (((d.setFld R.thmStat 0 3 hot).setReg R.thmTj (tempWord tj)).reg R.thmTjmax) < tj
      then ((d.setFld R.thmStat 0 3 hot).setReg R.thmTj (tempWord tj)).setReg R.thmTjmax (tempWord tj)
      else (d.setFld R.thmStat 0 3 hot).setReg R.thmTj (tempWord tj) := rfl
  have hh1 : d.heats ((d.setFld R.thmStat 0 3 hot).setReg R.thmTj (tempWord tj)) thmLow :=
    (Dev.heats.setFld d _ _ _ (by decide) (by decide)).trans (.setReg _ _ (by decide) (by decide))
  have ht1 : ((d.setFld R.thmStat 0 3 hot).setReg R.thmTj (tempWord tj)).thm = d.thm := (Dev.setReg_thm _ _ _).trans (Dev.setFld_thm _ _ _ _ _)
  have hj1 : ((d.setFld R.thmStat 0 3 hot).setReg R.thmTj (tempWord tj)).reg R.thmTj = tempWord tj :=
    (Dev.reg_setReg _ _ _).trans (Nat.mod_eq_of_lt (lt_trans (tempWord_lt tj) (by decide)))
  have hr1 (lo w : Nat) (h : 3 ≤ lo) (hw : lo + w ≤ 32) : ((d.setFld R.thmStat 0 3 hot).setReg R.thmTj (tempWord tj)).rf R.thmStat lo w = d.rf R.thmStat lo w :=
    (Dev.rf_setReg_ne _ _ _ _ _ (by decide)).trans (Dev.rf_setFld_hi _ _ _ _ _ _ _ (by omega) hw)
  rw [he]
  generalize (d.setFld R.thmStat 0 3 hot).setReg R.thmTj (tempWord tj) = d1 at *
  split
  · exact ⟨hh1.trans (.setReg d1 _ (by decide) (by decide)), (Dev.setReg_thm _ _ _).trans ht1, (Dev.reg_setReg_ne _ _ _ _ (by decide)).trans hj1,
      fun lo w h hw => (Dev.rf_setReg_ne _ _ _ _ _ (by decide)).trans (hr1 lo w h hw)⟩
  · exact ⟨hh1, ht1, hj1, hr1⟩

/-- The readings of six sensors, those the block has. -/
def sixOf (rd : List Int) : List Int := (List.range 6).map (fun i => rd.getD i 0)

theorem getD_sixOf (rd : List Int) {i : Nat} (hi : i < 6) : (sixOf rd).getD i 0 = rd.getD i 0 := by
  simp [sixOf, List.getD_eq_getElem?_getD, hi]

/-- The rest of a conversion: the hottest of the good sensors against the thresholds. -/
def Dev.conversionEnd (l : List Int) (d : Dev) : Dev :=
  match goodSensors l with
  | [] => d
  | i0 :: _ =>
    let hot := (goodSensors l).foldl (hotter l) i0
    (d.hottestTaken (l.getD hot 0) hot).thmThresholds (l.getD hot 0) hot

theorem Dev.thmConversion_eq (d : Dev) (rd : List Int) (c : Nat) : d.thmConversion rd c = ((d.atC c).sensorsRead (sixOf rd)).conversionEnd (sixOf rd) := by
  rw [Dev.thmConversion, ← sixOf]
  generalize sixOf rd = l
  generalize d.atC c = e
  rw [Dev.sensorsRead, Dev.conversionEnd, goodSensors, badSensors]
  rfl

theorem thmLow_sub : thmLow ⊆ thmRegs := List.subset_append_left _ _

/-- A conversion of the six sensors (R406 to R408). -/
theorem Dev.conversion_leaves (l : List Int) (d : Dev) : let e := (d.sensorsRead l).conversionEnd l
    let x := fun i => l.getD i 0
    d.heats e thmRegs ∧ (∀ i, i < 6 → e.reg (R.thmTemp i) = tempWord (x i)) ∧
      (∀ i, i < 6 → sensorBad l i = true → e.rf R.thmStat (8 + i) 1 = 1 ∧ e.flag Blk.thm Src.thmSensorFail) ∧
      (∀ i, i < 6 → (∀ k, k < 6 → sensorBad l k = false ∧ x k ≤ x i) → e.reg R.thmTj = tempWord (x i) ∧
        e.rf R.thmStat 29 1 = b2n (decide (4 * (d.rf R.thmCfg 0 8 : Int) ≤ x i)) ∧
        (4 * (d.rf R.thmCfg 0 8 : Int) ≤ x i → d.thm.warned = false → e.flag Blk.thm Src.thmThermWarn) ∧
        (620 ≤ x i → d.thm.hot = true → d.rf R.thmStat 30 1 = 0 → e.rf R.thmStat 30 1 = 1 ∧ e.flag Blk.thm Src.thmThermYield) ∧
        (x i < 600 → e.rf R.thmStat 30 1 = 0)) := by
  intro e x
  obtain ⟨hh1, ht1, htemp, hbad, h30⟩ := d.sensorsRead_leaves l
  have he : e = (d.sensorsRead l).conversionEnd l := rfl
  rw [Dev.conversionEnd] at he
  generalize d.sensorsRead l = d1 at *
  clear_value e
  have hmem {i : Nat} (hi : i < 6) (h : sensorBad l i = true) : i ∈ badSensors l := List.mem_filter.mpr ⟨List.mem_range.mpr hi, h⟩
  split at he
  next hgood =>
    rw [he]
    refine ⟨hh1, htemp, fun i hi h => hbad i (hmem hi h), fun i hi h => ?_⟩
    have hin : i ∈ goodSensors l := List.mem_filter.mpr ⟨List.mem_range.mpr hi, by
      have hno : i ∉ badSensors l := fun hc => absurd (List.mem_filter.mp hc).2 (by simp [(h i hi).1])
      simp [hno]⟩
    rw [hgood] at hin
    exact absurd hin List.not_mem_nil
  next i0 rest hgood =>
    extract_lets hot at he
    have hhot : hot = (goodSensors l).foldl (hotter l) i0 := rfl
    clear_value hot
    obtain ⟨hh2, ht2, hj2, hr2⟩ := d1.hottestTaken_leaves (l.getD hot 0) hot
    generalize d1.hottestTaken (l.getD hot 0) hot = d2 at *
    obtain ⟨hh3, hr3, hj3, h29, hwarn, hy, hcold⟩ := d2.thmThresholds_leaves (l.getD hot 0) hot
    generalize d2.thmThresholds (l.getD hot 0) hot = d3 at *
    rw [he]
    have hh := (hh2.trans hh3)
    have hcfg : d2.rf R.thmCfg 0 8 = d.rf R.thmCfg 0 8 := (hh2.keeps.rf (by decide) _ _).trans (hh1.keeps.rf (by decide) _ _)
    refine ⟨hh1.trans (hh.mono thmLow_sub), fun i hi => (hh.keeps _ (temp_notin hi)).1.trans (htemp i hi), fun i hi h => ?_, fun i hi h => ?_⟩
    · obtain ⟨hb, hf⟩ := hbad i (hmem hi h)
      exact ⟨(hr3 _ _ (by omega)).trans ((hr2 _ _ (by omega) (by omega)).trans hb), hh.2 _ (by decide) hf⟩
    · have hlt {k : Nat} (hk : k ∈ goodSensors l) : k < 6 := List.mem_range.mp (List.mem_filter.mp hk).1
      have hin : i ∈ goodSensors l := List.mem_filter.mpr ⟨List.mem_range.mpr hi, by
        have hno : i ∉ badSensors l := fun hc => absurd (List.mem_filter.mp hc).2 (by simp [(h i hi).1])
        simp [hno]⟩
      obtain ⟨-, hle, hor⟩ := hottest_le l (goodSensors l) i0
      rw [← hhot] at hle hor
      have hot6 : hot < 6 := by
        rcases hor with h0 | h0
        · exact hlt (by rw [h0, hgood]; exact List.mem_cons_self)
        · exact hlt h0
      have hx : l.getD hot 0 = x i := le_antisymm (h hot hot6).2 (hle i hin)
      rw [hx, hcfg] at h29 hwarn
      rw [hx] at hj2 hy hcold
      exact ⟨hj3.trans hj2, h29, fun h1 h2 => hwarn h1 (by rw [ht2, ht1, h2]),
        fun h1 h2 h3 => hy h1 (by rw [ht2, ht1, h2]) ((hr2 _ _ (by decide) (by decide)).trans (h30.trans h3)), hcold⟩

end Sys2Proof.Machine

/-!
PROOFS. The rows of events, temperature and pins.
-/
namespace Sys2Proof.Machine

theorem leadsSys_of_tickRow {z : State} {i : Instr} {f : Sys → Sys} {P : Sys → Prop} (hi : exec i z = z.tickRow f) (hrun : z.Running)
    (hotp : (f z.sys).otp = z.sys.otp) (hP : P (f z.sys)) : z.leadsSys (exec i z) P := ⟨_, exec_tickRow hi hrun, hotp, rfl, hP⟩

theorem leads_of_runRow {z : State} {i : Instr} {f : Dev → Dev} {P : Dev → Prop} (hi : exec i z = z.runRow (fun s => s.onDev f)) (hrst : z.sys.dev.inReset = false)
    (hP : P (f z.sys.dev)) : z.leads (exec i z) P := ⟨_, exec_runRow hi hrst, ⟨rfl, rfl, rfl⟩, hP⟩

theorem exec_runRow_same {z : State} {i : Instr} {f : Dev → Dev} (hi : exec i z = z.runRow (fun s => s.onDev f)) (hrst : z.sys.dev.inReset = false)
    (h : f z.sys.dev = z.sys.dev) : exec i z = .next z := by
  have hs : z.sys.onDev f = z.sys := by rw [Sys.onDev, h]
  rw [exec_runRow hi hrst]
  rw [hs]
  rfl

theorem Dev.wdogExpire_idle (d : Dev) (c : Nat) (h : ¬d.wdogDue) : d.wdogExpire c = d := if_neg h

/-- The rows of the event path with a record that is numbered. -/
theorem exec_evtNumbering_high {z : State} {c : Nat} {p : Posting} (hrun : z.Running) (hinv : z.Inv) (hhold : z.sys.dev.numberHold = false)
    (hi : z.sys.dev.evt.intake = [p]) (hm : z.sys.dev.evt.made = []) (ht : p.tick ≠ z.sys.dev.tick) (hsev : 3 ≤ p.sev) (hopen : z.sys.dev.evt.opens = [])
    (hq : z.sys.dev.evt.queue = []) (hlost : z.sys.dev.evt.lost = []) (hfz : z.sys.dev.rf R.bbxStat 31 1 = 0) (hddr : z.sys.dev.rf R.ddrStat 0 1 = 0) :
    let d := z.sys.dev
    let r : EvRec := { p.toRec with seq := d.reg R.evtSeq }
    let i := d.rf R.bbxStat 0 13
    z.leadsSys (exec (.evtNumbering c) z) (fun s => s.dev.reg R.evtSeq = (d.reg R.evtSeq + 1) % 2 ^ 32 ∧ d.counts s.dev (R.evtCnt 0) 1 ∧
      s.dev.evt.queue = [(r, true)] ∧ s.dev.evt.intake = [] ∧ s.dev.rf R.bbxStat 0 13 = (i + 1) % 8192 ∧ z.sys.stored s (retainedBase + 32 * i) r.bytes) := by
  intro d r i
  obtain ⟨h1, h2, h3, h4, h5, hotp, hmem⟩ := (z.sys.onDev (fun d => d.atC c)).evtNumbering_high hhold hi hm ht hsev hopen hq hlost hfz hddr
  refine leadsSys_of_tickRow (f := fun s => (s.onDev (fun d => d.atC c)).evtNumbering) rfl hrun hotp ⟨h1, h2, h3, h4, h5, ?_⟩
  exact stored_putBytes (u := z.sys) hinv rfl hmem

theorem exec_hostRingWrite_writes {z : State} {c : Nat} {r : EvRec} {t : List (EvRec × Bool)} (hrun : z.Running) (hinv : z.Inv)
    (hq : z.sys.dev.evt.queue = (r, true) :: t) (hgap : z.sys.dev.evt.gapN = 0) (hok : z.sys.dev.evtRingOk = true)
    (hroom : z.sys.dev.evtUnread + 2 ≤ z.sys.dev.rf R.evtRsize 0 17) :
    let d := z.sys.dev
    let n := d.rf R.evtRsize 0 17
    let w := d.rf R.evtWridx 0 16 % n
    z.leadsSys (exec (.hostRingWrite c) z) (fun s => s.dev.evt.queue = t ∧ s.dev.reg R.evtWridx = (w + 1) % n ∧
      z.sys.stored s (d.reg R.evtRbaselo / 64 * 64 + 2 ^ 32 * (d.reg R.evtRbasehi % 256) + 32 * w) r.bytes) := by
  intro d n w
  obtain ⟨h1, h2, hotp, hmem⟩ := (z.sys.onDev (fun d => d.atC c)).hostRingWrite_writes hq hgap hok hroom
  refine leadsSys_of_tickRow (f := fun s => (s.onDev (fun d => d.atC c)).hostRingWrite) rfl hrun hotp ⟨h1, h2, ?_⟩
  exact stored_putBytes (u := z.sys) hinv rfl hmem

/-- Settles O58: each row of the event path, the sensors, the comparator, the watchdog and the pins, through the lemma that says what its operation leaves. -/
theorem eventsTemperatureAndPins : Obligations.EventsTemperatureAndPins := by
  refine ⟨fun z c hrun => ?_, fun z c hrst => ⟨fun h => ?_, fun h => ?_⟩⟩
  · intro d same
    refine ⟨fun hp => ?_, fun p0 t hp => ⟨fun h => ?_, fun h => ?_⟩, fun h => ?_, fun h => ?_, fun h => ?_,
      fun p hhold hi ht hm hddr hinv => ⟨fun hsev hopen hq hlost hfz => ?_, fun o hof hf hrep => ?_⟩, fun h => ?_, fun o ho hq hdue hddr => ?_,
      fun hq hgap => ?_, fun r t hq hgap => ⟨fun hok hroom hinv => ?_, fun hok => ?_⟩, fun rd => ?_, fun h => ?_, fun h => ?_, fun pins => ?_⟩
    · have hidle : d.postDeliver = d := by rw [Dev.postDeliver, hp]
      exact exec_tickRow_same (f := fun s => s.onDev (fun d => d.postDeliver)) rfl hrun (by rw [Sys.onDev, hidle])
    · exact leads_of_tickRow (f := fun d => d.postDeliver) rfl hrun (d.postDeliver_admits hp h)
    · exact leads_of_tickRow (f := fun d => d.postDeliver) rfl hrun (d.postDeliver_sheds hp h)
    · exact exec_tickRow_same (f := fun s => s.onDev (fun d => d.postDrop)) rfl hrun (by rw [Sys.onDev, d.postDrop_idle h])
    · exact leads_of_tickRow (f := fun d => d.postDrop) rfl hrun (d.postDrop_drops h)
    · have hidle : (z.sys.onDev (fun d => d.atC c)).evtNumbering = z.sys.onDev (fun d => d.atC c) := if_pos h
      exact (exec_tickRow (f := fun s => (s.onDev (fun d => d.atC c)).evtNumbering) rfl hrun).trans (by rw [hidle]; rfl)
    · exact exec_evtNumbering_high hrun hinv hhold hi hm ht hsev hopen hq hlost hfz hddr
    · obtain ⟨h1, h2, h3, hotp⟩ := (z.sys.onDev (fun d => d.atC c)).evtNumbering_folds hhold hi hm ht hof hf hrep
      exact leadsSys_of_tickRow (f := fun s => (s.onDev (fun d => d.atC c)).evtNumbering) rfl hrun hotp ⟨h1, h2, h3⟩
    · exact (exec_tickRow (f := fun s => (s.onDev (fun d => d.atC c)).coalesceClose) rfl hrun).trans
        (by rw [Sys.coalesceClose_none (z.sys.onDev (fun d => d.atC c)) h]; rfl)
    · have hone := (z.sys.onDev (fun d => d.atC c)).coalesceClose_single ho hq hdue hddr
      have he : exec (.coalesceClose c) z = .next (z.put ((z.sys.onDev (fun d => d.atC c)).onDev
          (fun d => { d with evt := { d.evt with queue := [(o.recd, true)], opens := [] } }))) := by
        rw [exec_tickRow (f := fun s => (s.onDev (fun d => d.atC c)).coalesceClose) rfl hrun, hone]
      exact ⟨_, he, ⟨rfl, rfl, rfl⟩, rfl, rfl, Dev.keeps_of_regs ⟨rfl, rfl, rfl⟩ _⟩
    · exact (exec_tickRow (f := fun s => (s.onDev (fun d => d.atC c)).hostRingWrite) rfl hrun).trans
        (by rw [(z.sys.onDev (fun d => d.atC c)).hostRingWrite_idle hq hgap]; rfl)
    · exact exec_hostRingWrite_writes hrun hinv hq hgap hok hroom
    · obtain ⟨h1, h2, h3, h4, h5, hotp, hmem⟩ := (z.sys.onDev (fun d => d.atC c)).hostRingWrite_skips hq hgap hok
      exact ⟨_, exec_tickRow (f := fun s => (s.onDev (fun d => d.atC c)).hostRingWrite) rfl hrun, ⟨hmem, hotp, rfl⟩, h1, h2, h3, h4, h5⟩
    · refine leads_of_tickRow (f := fun d => d.thmConversion rd c) rfl hrun ?_
      rw [Dev.thmConversion_eq]
      obtain ⟨hh, htemp, hbad, hhot⟩ := (d.atC c).conversion_leaves (sixOf rd)
      exact ⟨hh.keepsOut, fun i hi => (htemp i hi).trans (congrArg tempWord (getD_sixOf rd hi)), hbad, fun i hi hall => by
        have hx := hhot i hi (fun k hk => by
          show sensorBad (sixOf rd) k = false ∧ (sixOf rd).getD k 0 ≤ (sixOf rd).getD i 0
          rw [getD_sixOf rd hk, getD_sixOf rd hi]
          exact hall k hk)
        simp only [getD_sixOf rd hi] at hx
        exact hx⟩
    · exact exec_runRow_same (f := fun d => d.thermShut c) rfl hrun.1 (if_pos h)
    · exact leads_of_runRow (f := fun d => d.thermShut c) rfl hrun.1 (d.thermShut_shuts c h)
    · intro new old hit
      refine leads_of_runRow (f := fun d => d.gpioEdge pins c) rfl hrun.1 ?_
      rw [Dev.gpioEdge_eq]
      obtain ⟨hin, hk, hall⟩ := (d.atC c).pinsTaken_leaves ((d.atC c).gpioPins_lt pins)
      refine ⟨hin, hk, fun p hp => ⟨fun hit => ?_, fun hno => ?_⟩⟩
      · exact (hall p hp).1 (((d.atC c).mem_edgesAt _ hp).mpr hit)
      · exact (hall p hp).2 (fun hc => hno (((d.atC c).mem_edgesAt _ hp).mp hc))
  · exact leads_of_runRow (f := fun d => d.wdogExpire c) rfl hrst (z.sys.dev.wdogExpire_fires c h)
  · exact exec_runRow_same (f := fun d => d.wdogExpire c) rfl hrst (z.sys.dev.wdogExpire_idle c h)

end Sys2Proof.Machine

/-!
PROOFS. The serial audio ports: the frame of what their rows move, and the operations on one port.
-/
namespace Sys2Proof.Machine

/-! ## The frame -/

/-- The device with other serial ports and held writes. -/
def Dev.withPorts (d : Dev) (t : List TdmPort) (f : List FrameWr) : Dev :=
  { d with
    tdm := t
    frameWr := f }

theorem Dev.marks.withPorts {d e : Dev} {l w : List Nat} (h : d.marks e l w) (t : List TdmPort) (f : List FrameWr) :
    (d.withPorts t f).marks (e.withPorts t f) l w := by
  obtain ⟨⟨_, _, _, _, _, _, _, _, rfl⟩, hk, hw⟩ := h
  exact ⟨⟨_, _, _, _, _, _, _, _, rfl⟩, hk, hw⟩

theorem Dev.marks.ports {d e : Dev} {l w : List Nat} (h : d.marks e l w) : e.tdm = d.tdm ∧ e.frameWr = d.frameWr := by
  obtain ⟨⟨_, _, _, _, _, _, _, _, rfl⟩, -, -⟩ := h
  exact ⟨rfl, rfl⟩

/-- The fault registers of the serial ports. -/
def tdmFlts : List Nat := [R.fltstat Blk.tdm, R.fltfirst Blk.tdm]

/-- From `d` to `e` the serial ports with the writes held for them, and of the rest the registers of `l`, the counters of `w` and what faults change
alone may differ; no flag of the ports falls. -/
def Dev.serves (d e : Dev) (l w : List Nat) : Prop := (d.withPorts e.tdm e.frameWr).marks e l w ∧ ∀ s, s < 32 → d.flag Blk.tdm s → e.flag Blk.tdm s

namespace Dev.serves

variable {l w : List Nat}

theorem refl (d : Dev) : d.serves d l w := ⟨.refl d, fun _ _ h => h⟩

theorem trans {d e g : Dev} (h : d.serves e l w) (k : e.serves g l w) : d.serves g l w :=
  ⟨(h.1.withPorts g.tdm g.frameWr).trans k.1, fun s hs hf => k.2 s hs (h.2 s hs hf)⟩

theorem mono {d e : Dev} {l' w' : List Nat} (h : d.serves e l w) (hl : l ⊆ l') (hw : w ⊆ w') : d.serves e l' w' := ⟨h.1.mono hl hw, h.2⟩

theorem of_marks {d e : Dev} (h : d.marks e l w) (hm : R.fltstat Blk.tdm ∉ l) : d.serves e l w := by
  refine ⟨?_, fun s _ hf => (h.flag hm).mpr hf⟩
  rw [h.ports.1, h.ports.2]
  exact h

theorem setReg (d : Dev) {o : Nat} (x : Nat) (ho : o ∈ l) (hm : R.fltstat Blk.tdm ≠ o) : d.serves (d.setReg o x) l w :=
  (of_marks (.setReg (l := [o]) d x (List.mem_singleton_self o)) (by simp [hm])).mono (by simp [ho]) (List.nil_subset w)

theorem setFld (d : Dev) {o : Nat} (lo n x : Nat) (ho : o ∈ l) (hm : R.fltstat Blk.tdm ≠ o) : d.serves (d.setFld o lo n x) l w :=
  (of_marks (.setFld (l := [o]) d lo n x (List.mem_singleton_self o)) (by simp [hm])).mono (by simp [ho]) (List.nil_subset w)

theorem setBoth (d : Dev) {o : Nat} (x y : Nat) (ho : o ∈ l) (hm : R.fltstat Blk.tdm ≠ o) : d.serves (d.setBoth o x y) l w :=
  (of_marks (.setBoth (l := [o]) d x y (List.mem_singleton_self o)) (by simp [hm])).mono (by simp [ho]) (List.nil_subset w)

theorem bump (d : Dev) {o : Nat} (n : Nat) (ho : o ∈ w) : d.serves (d.bump o n) l w :=
  (of_marks (.bump (l := []) d n ho) List.not_mem_nil).mono (List.nil_subset l) (List.Subset.refl w)

theorem raise (d : Dev) (src d0 d1 d2 : Nat) (hl : tdmFlts ⊆ l) : d.serves (d.raise Blk.tdm src d0 d1 d2) l w := by
  have hm : d.marks (d.raise Blk.tdm src d0 d1 d2) tdmFlts [] := .raise d _ _ _ _ _ (by simp [tdmFlts]) (by simp [tdmFlts])
  refine ⟨?_, fun s hs hf => d.flag_stays_raise src d0 d1 d2 hs hf⟩
  rw [hm.ports.1, hm.ports.2]
  exact hm.mono hl (List.nil_subset w)

theorem onTdm (d : Dev) (p : Nat) (f : TdmPort → TdmPort) : d.serves (d.onTdm p f) l w := ⟨.refl _, fun _ _ h => h⟩

theorem held (d : Dev) (f : List FrameWr) : d.serves (d.withPorts d.tdm f) l w := ⟨.refl _, fun _ _ h => h⟩

theorem ite {d e g : Dev} {p : Prop} [Decidable p] (he : p → d.serves e l w) (hg : ¬p → d.serves g l w) : d.serves (if p then e else g) l w := by
  split
  · exact he ‹_›
  · exact hg ‹_›

theorem each {α : Type} (f : α → Dev → Dev) (xs : List α) (hf : ∀ x ∈ xs, ∀ d : Dev, d.serves (f x d) l w) (d : Dev) : d.serves (each xs f d) l w := by
  induction xs generalizing d with
  | nil => exact refl d
  | cons x xs ih => exact (hf x List.mem_cons_self d).trans (ih (fun y hy => hf y (List.mem_cons_of_mem _ hy)) _)

theorem foldl {α : Type} (f : Dev → α → Dev) (xs : List α) (hf : ∀ x ∈ xs, ∀ d : Dev, d.serves (f d x) l w) (d : Dev) : d.serves (xs.foldl f d) l w := by
  induction xs generalizing d with
  | nil => exact refl d
  | cons x xs ih => exact (hf x List.mem_cons_self d).trans (ih (fun y hy => hf y (List.mem_cons_of_mem _ hy)) _)

section
variable {d e : Dev} (h : d.serves e l w)
include h

theorem keeps : d.keeps e l := h.1.keeps
theorem reg {o : Nat} (ho : o ∉ l) : e.reg o = d.reg o := h.1.reg (o := o) ho
theorem lv {o : Nat} (ho : o ∉ l) : e.lv o = d.lv o := h.1.lv (o := o) ho
theorem lf {o : Nat} (lo n : Nat) (ho : o ∉ l) : e.lf o lo n = d.lf o lo n := by rw [Dev.lf, h.lv ho, Dev.lf]
theorem rf {o : Nat} (lo n : Nat) (ho : o ∉ l) : e.rf o lo n = d.rf o lo n := h.keeps.rf ho lo n
theorem w64 {o : Nat} (ho : o ∉ w) : e.w64 o = d.w64 o := h.1.w64 (o := o) ho
theorem tick : e.tick = d.tick := h.1.tick
theorem out : e.out = d.out := h.1.out
theorem pair : e.pair = d.pair := h.1.pair
theorem flag {s : Nat} (hs : s < 32) (hf : d.flag Blk.tdm s) : e.flag Blk.tdm s := h.2 s hs hf

end

end Dev.serves

/-! ## Registers of a port -/

theorem tdmFlts_ne {p : Nat} (hp : p < 8) {o : Nat} (h2 : o < 0xF0000 + 256 * p + 256) : o ∉ tdmFlts := by
  have hs : R.fltstat Blk.tdm = 0xF0810 := rfl
  have hf : R.fltfirst Blk.tdm = 0xF0814 := rfl
  rw [tdmFlts, hs, hf]
  simp only [List.mem_cons, List.not_mem_nil, or_false]
  omega

theorem fltstat_ne {p : Nat} (hp : p < 8) {o : Nat} (h2 : o < 0xF0000 + 256 * p + 256) : R.fltstat Blk.tdm ≠ o := fun hc =>
  tdmFlts_ne hp h2 (hc ▸ List.mem_cons_self)

theorem tdmStat_flt {p : Nat} (hp : p < 8) : R.fltstat Blk.tdm ≠ R.tdmStat p := fltstat_ne hp (by simp only [R.tdmStat]; omega)

/-! ## What a port reads of its configuration -/

section
variable {d e : Dev} {l w : List Nat} (h : d.serves e l w) {p : Nat}
include h

theorem Dev.serves.tdmMode (hc : R.tdmCtrl p ∉ l) : e.tdmMode p = d.tdmMode p := by rw [Dev.tdmMode, h.lf _ _ hc, Dev.tdmMode]
theorem Dev.serves.tdmF (hc : R.tdmCtrl p ∉ l) : e.tdmF p = d.tdmF p := by rw [Dev.tdmF, h.lf _ _ hc, Dev.tdmF]
theorem Dev.serves.tdmGanged (hc : R.tdmCtrl p ∉ l) : e.tdmGanged p = d.tdmGanged p := by rw [Dev.tdmGanged, h.lf _ _ hc, Dev.tdmGanged]
theorem Dev.serves.tdmLeader (hc : R.tdmCtrl p ∉ l) : e.tdmLeader p = d.tdmLeader p := by rw [Dev.tdmLeader, h.lf _ _ hc, h.tdmGanged hc, Dev.tdmLeader]
theorem Dev.serves.tdmSlots (hf : R.tdmFmt p ∉ l) : e.tdmSlots p = d.tdmSlots p := by rw [Dev.tdmSlots, h.lf _ _ hf, h.lf _ _ hf, Dev.tdmSlots]
theorem Dev.serves.tdmWidth (hf : R.tdmFmt p ∉ l) : e.tdmWidth p = d.tdmWidth p := by rw [Dev.tdmWidth, h.lf _ _ hf, Dev.tdmWidth]
theorem Dev.serves.tdmDelay (hf : R.tdmFmt p ∉ l) : e.tdmDelay p = d.tdmDelay p := by rw [Dev.tdmDelay, h.lf _ _ hf, h.lf _ _ hf, Dev.tdmDelay]
theorem Dev.serves.tdmHi (hf : R.tdmFmt p ∉ l) : e.tdmHi p = d.tdmHi p := by rw [Dev.tdmHi, h.lf _ _ hf, Dev.tdmHi]

end

/-! ## The operations on one port -/

theorem Dev.tdmP_onTdm (d : Dev) {p : Nat} (f : TdmPort → TdmPort) (hp : p < d.tdm.length) : (d.onTdm p f).tdmP p = f (d.tdmP p) := by
  rw [Dev.tdmP, Dev.tdmP]
  exact (getD_updAt _ _ _ _ _).trans (if_pos ⟨rfl, hp⟩)

theorem Dev.tdmP_onTdm_ne (d : Dev) {p k : Nat} (f : TdmPort → TdmPort) (hk : k ≠ p) : (d.onTdm p f).tdmP k = d.tdmP k := by
  rw [Dev.tdmP, Dev.tdmP]
  exact (getD_updAt _ _ _ _ _).trans (if_neg (fun h => hk h.1.symm))

theorem Dev.length_onTdm (d : Dev) (p : Nat) (f : TdmPort → TdmPort) : (d.onTdm p f).tdm.length = d.tdm.length := length_updAt _ _ _

theorem Dev.tdmP_congr {d e : Dev} (h : e.tdm = d.tdm) (p : Nat) : e.tdmP p = d.tdmP p := by rw [Dev.tdmP, h, Dev.tdmP]

/-- The state a port shows (R243). -/
def Dev.tdmShown (d : Dev) (p : Nat) : Nat :=
  let t := d.tdmP p
  if !t.started then 0
  else if t.rx.fading || t.tx.fading then (if min t.rx.q t.tx.q = 0 then 3 else 2)
  else if min t.rx.q t.tx.q < d.tdmF p then 4 else 1

theorem Dev.tdmShown_lt (d : Dev) (p : Nat) : d.tdmShown p < 2 ^ 3 := by
  unfold Dev.tdmShown
  extract_lets t
  split
  · decide
  split
  · split <;> decide
  split <;> decide

theorem Dev.tdmStat_leaves (d : Dev) {p : Nat} (hp : p < 8) : let e := d.tdmStat p
    d.serves e [R.tdmStat p] [] ∧ e.tdm = d.tdm ∧ e.rf (R.tdmStat p) 0 3 = d.tdmShown p := by
  intro e
  have he : e = (((d.setFld (R.tdmStat p) 0 3 (d.tdmShown p)).setFld (R.tdmStat p) 4 4 (d.tdmP p).rx.buf.length).setFld (R.tdmStat p) 8 4
      (d.tdmP p).tx.buf.length).setFld (R.tdmStat p) 12 1 (b2n ((d.tdmP p).started && d.tdmGanged p && !(d.tdmP p).out)) := rfl
  rw [he]
  have hs (d : Dev) (lo n x : Nat) : d.serves (d.setFld (R.tdmStat p) lo n x) [R.tdmStat p] [] := .setFld d lo n x (by simp) (tdmStat_flt hp)
  have ht (d : Dev) (lo n x : Nat) : (d.setFld (R.tdmStat p) lo n x).tdm = d.tdm := Dev.setFld_tdm _ _ _ _ _
  have hlow (d : Dev) (lo n x : Nat) (h : 3 ≤ lo) : (d.setFld (R.tdmStat p) lo n x).rf (R.tdmStat p) 0 3 = d.rf (R.tdmStat p) 0 3 :=
    Dev.rf_setFld_lo _ _ _ _ _ _ _ (by omega) (by decide)
  refine ⟨(((hs _ _ _ _).trans (hs _ _ _ _)).trans (hs _ _ _ _)).trans (hs _ _ _ _), by rw [ht, ht, ht, ht], ?_⟩
  rw [hlow _ _ _ _ (by decide), hlow _ _ _ _ (by decide), hlow _ _ _ _ (by decide)]
  exact (Dev.rf_setFld _ _ _ _ _ (by decide)).trans (Nat.mod_eq_of_lt (d.tdmShown_lt p))

theorem Dev.tdmCount_serves (d : Dev) (p k n : Nat) : d.serves (d.tdmCount p k n) [] [R.tdmCnt p k] ∧ (d.tdmCount p k n).tdm = d.tdm := by
  rw [Dev.tdmCount]
  split
  · exact ⟨.refl d, rfl⟩
  · exact ⟨.bump d n (by simp), rfl⟩

theorem Dev.tdmCount_one (d : Dev) (p k : Nat) : d.counts (d.tdmCount p k 1) (R.tdmCnt p k) 1 := Dev.w64_bump _ _ _

theorem Dev.tdmCount_none (d : Dev) (p k : Nat) : d.tdmCount p k 0 = d := if_pos rfl

/-- A raise of the serial ports' block. -/
theorem Dev.tdmRaise_leaves (d : Dev) (src d0 d1 d2 : Nat) (hs : src < 32) : let e := d.raise Blk.tdm src d0 d1 d2
    d.serves e tdmFlts [] ∧ e.tdm = d.tdm ∧ e.flag Blk.tdm src :=
  ⟨.raise d _ _ _ _ (List.Subset.refl _), Dev.raise_tdm _ _ _ _ _ _, Dev.flag_raise _ _ _ _ _ _ hs⟩

/-- The direction of a port with a fade begun. -/
def SlipDir.fades (x : SlipDir) (cause : Nat) : SlipDir := { x with
  fading := true
  underrun := cause != 1
  overrun := cause == 1 }

/-- A fade begins: counted and raised (R243, R244). -/
theorem Dev.tdmFadeStart_serves (d : Dev) {p : Nat} (dir cause : Nat) (hp : p < 8) : let e := d.tdmFadeStart p dir cause
    d.serves e (R.tdmStat p :: tdmFlts) [R.tdmCnt p 6] ∧ e.flag Blk.tdm Src.tdmFade ∧ d.counts e (R.tdmCnt p 6) 1 := by
  intro e
  have he : e = (((d.onTdm p (fun t => if dir = 0 then { t with rx := t.rx.fades cause } else { t with tx := t.tx.fades cause })).tdmCount p 6 1).raise
      Blk.tdm Src.tdmFade p dir cause).tdmStat p := rfl
  rw [he]
  have h1 : d.serves (d.onTdm p (fun t => if dir = 0 then { t with rx := t.rx.fades cause } else { t with tx := t.tx.fades cause })) [] [] := .onTdm d p _
  generalize d.onTdm p (fun t => if dir = 0 then { t with rx := t.rx.fades cause } else { t with tx := t.tx.fades cause }) = d1 at *
  obtain ⟨h2, -⟩ := d1.tdmCount_serves p 6 1
  have hc := d1.tdmCount_one p 6
  generalize d1.tdmCount p 6 1 = d2 at *
  obtain ⟨h3, -, hf⟩ := d2.tdmRaise_leaves Src.tdmFade p dir cause (by decide)
  generalize d2.raise Blk.tdm Src.tdmFade p dir cause = d3 at *
  obtain ⟨h4, -⟩ := d3.tdmStat_leaves hp
  refine ⟨(((h1.mono (List.nil_subset _) (List.nil_subset _)).trans (h2.mono (List.nil_subset _) (List.Subset.refl _))).trans
    (h3.mono (List.subset_cons_self _ _) (List.nil_subset _))).trans (h4.mono (by simp) (List.nil_subset _)), h4.flag (by decide) hf, ?_⟩
  rw [Dev.counts, h4.w64 List.not_mem_nil, h3.w64 List.not_mem_nil, hc, h1.w64 List.not_mem_nil]

theorem Dev.tdmFadeStart_rx (d : Dev) {p : Nat} (cause : Nat) (hp : p < 8) (hlen : p < d.tdm.length) : let e := d.tdmFadeStart p 0 cause
    e.tdmP p = { d.tdmP p with rx := (d.tdmP p).rx.fades cause } ∧ e.tdm.length = d.tdm.length ∧
      ((d.tdmP p).started = true → e.rf (R.tdmStat p) 0 3 = 2 ∨ e.rf (R.tdmStat p) 0 3 = 3) := by
  intro e
  have he : e = (((d.onTdm p (fun t => { t with rx := t.rx.fades cause })).tdmCount p 6 1).raise Blk.tdm Src.tdmFade p 0 cause).tdmStat p := rfl
  rw [he]
  have h1 := d.tdmP_onTdm (fun t => { t with rx := t.rx.fades cause }) hlen
  have hl1 := d.length_onTdm p (fun t => { t with rx := t.rx.fades cause })
  generalize d.onTdm p (fun t => { t with rx := t.rx.fades cause }) = d1 at *
  obtain ⟨-, h2⟩ := d1.tdmCount_serves p 6 1
  generalize d1.tdmCount p 6 1 = d2 at *
  obtain ⟨-, h3, -⟩ := d2.tdmRaise_leaves Src.tdmFade p 0 cause (by decide)
  generalize d2.raise Blk.tdm Src.tdmFade p 0 cause = d3 at *
  obtain ⟨-, h4, hst⟩ := d3.tdmStat_leaves hp
  have hP : d3.tdmP p = { d.tdmP p with rx := (d.tdmP p).rx.fades cause } := (Dev.tdmP_congr (h3.trans h2) p).trans h1
  refine ⟨(Dev.tdmP_congr h4 p).trans hP, by rw [h4, h3, h2, hl1], fun hon => ?_⟩
  rw [hst]
  have hshown : d3.tdmShown p = if min (d3.tdmP p).rx.q (d3.tdmP p).tx.q = 0 then 3 else 2 := by
    have hon3 : (d3.tdmP p).started = true := by rw [hP]; exact hon
    have hfad : ((d3.tdmP p).rx.fading || (d3.tdmP p).tx.fading) = true := by rw [hP]; rfl
    rw [Dev.tdmShown]
    simp only [hon3, hfad, Bool.not_true, Bool.false_eq_true, if_false, if_true]
  rw [hshown]
  split
  · exact .inr rfl
  · exact .inl rfl

end Sys2Proof.Machine

/-!
PROOFS. The serial audio ports: what capture writes, the filters of a frame, and a frame that comes whole.
-/
namespace Sys2Proof.Machine

/-! ## Slots in memory -/

/-- The words of slots with their addresses, from slot `n` on. -/
def slotWords (base n : Nat) (ws : List Nat) : List (Nat × Nat) := (ws.zipIdx n).map (fun w => (base + 4 * w.2, w.1))

theorem slotWords_addr {base n : Nat} {ws : List Nat} {w : Nat × Nat} (h : w ∈ slotWords base n ws) : base + 4 * n ≤ w.1 ∧ w.1 + 4 ≤ base + 4 * (n + ws.length) := by
  obtain ⟨v, hv, rfl⟩ := List.mem_map.mp h
  obtain ⟨h1, h2, -⟩ := List.mem_zipIdx hv
  simp only
  omega

/-- Slots stored leave every byte outside them. -/
theorem get_slotWords_ne {m : Memory} (base n : Nat) (ws : List Nat) (x : Nat) (hw : m.wf = true) (hx : x < base + 4 * n ∨ base + 4 * (n + ws.length) ≤ x) :
    ((slotWords base n ws).foldl (fun (m : Memory) w => m.putWord w.1 (BitVec.ofNat 32 w.2)) m).get x = m.get x :=
  get_storeWords_ne _ x hw (fun w h => by
    have := slotWords_addr h
    omega)

theorem Memory.bytes_putWord (m : Memory) (a v : Nat) (hw : m.wf = true) : (m.putWord a (BitVec.ofNat 32 v)).bytes a 4 = leBytes 4 (v % 2 ^ 32) := by
  have h := Memory.bytes_putBytes (leBytes 4 (v % 2 ^ 32)) m a hw
  rw [length_leBytes] at h
  rw [Memory.putWord, BitVec.toNat_ofNat]
  exact h

/-- Each slot stored has its word. -/
theorem bytes_slotWords {m : Memory} (base n : Nat) (ws : List Nat) (hw : m.wf = true) {i : Nat} (hi : i < ws.length) :
    ((slotWords base n ws).foldl (fun (m : Memory) w => m.putWord w.1 (BitVec.ofNat 32 w.2)) m).bytes (base + 4 * (n + i)) 4 = leBytes 4 (ws.getD i 0 % 2 ^ 32) := by
  induction ws generalizing m n i with
  | nil => exact absurd hi (Nat.not_lt_zero i)
  | cons v ws ih =>
    have hw' := Memory.putWord_wf m (base + 4 * n) (BitVec.ofNat 32 v) hw
    have hcons : slotWords base n (v :: ws) = (base + 4 * n, v) :: slotWords base (n + 1) ws := rfl
    rw [hcons, List.foldl_cons]
    match i with
    | 0 =>
      rw [Memory.bytes_congr _ 4 (fun x _ h2 => get_slotWords_ne base (n + 1) ws x hw' (by omega))]
      exact m.bytes_putWord _ v hw
    | i + 1 =>
      rw [show n + (i + 1) = (n + 1) + i by omega]
      exact ih (n + 1) hw' (by simpa using hi)

/-! ## Capture writes words of the local section (R238, R239, R305) -/

/-- The device with other error marks and glean values. -/
def Dev.withEng (d : Dev) (e : Eng) (g : Gln) : Dev :=
  { d with
    eng := e
    gln := g }

theorem eccCleans_eq (ws : List (Nat × Nat)) (d : Dev) : ∃ e, ws.foldl (fun d w => d.eccClean w.1 4) d = d.withEng e d.gln := by
  induction ws generalizing d with
  | nil => exact ⟨d.eng, rfl⟩
  | cons w ws ih =>
    obtain ⟨e, he⟩ := ih (d.eccClean w.1 4)
    exact ⟨e, he⟩

theorem gleanSee_eq (d : Dev) (vs : List (Nat × Nat)) : ∃ g, d.gleanSee vs = d.withEng d.eng g := by
  rw [Dev.gleanSee]
  split
  · exact ⟨_, rfl⟩
  · exact ⟨d.gln, rfl⟩

theorem Dev.withEng_keeps (d : Dev) (e : Eng) (g : Gln) : d.keeps (d.withEng e g) [] := Dev.keeps_of_regs ⟨rfl, rfl, rfl⟩ _

/-- The write of captured words: memory, and the device but for what a lease holder sends. -/
theorem Sys.locWrite_leaves (s : Sys) (ws : List (Nat × Nat)) (decs : List (Nat × Nat × Nat)) : let t := s.locWrite ws decs
    t.otp = s.otp ∧
      t.mem = (ws.map (fun w => (locSect ((s.dev.tick + 1) % 2) + 4 * w.1, w.2))).foldl (fun (m : Memory) w => m.putWord w.1 (BitVec.ofNat 32 w.2)) s.mem ∧
      ∃ e g, (s.dev.withEng e g).talks t.dev ∧ (s.dev.forwards = false → t.dev = s.dev.withEng e g) := by
  intro t
  let s0 := s.storeWords (ws.map (fun w => (locSect ((s.dev.tick + 1) % 2) + 4 * w.1, w.2)))
  have ht : t = if s.dev.forwards then (s0.onDev (fun d => d.gleanSee ws)).onDev (fun d => d.mirSend (.locals (d.tick + 1) ws decs))
      else s0.onDev (fun d => d.gleanSee ws) := rfl
  obtain ⟨e, he⟩ := eccCleans_eq (ws.map (fun w => (locSect ((s.dev.tick + 1) % 2) + 4 * w.1, w.2))) s.dev
  have hs0 : s0.dev = s.dev.withEng e s.dev.gln := he
  obtain ⟨g, hg⟩ := gleanSee_eq s0.dev ws
  have hdev : s0.dev.gleanSee ws = s.dev.withEng e g := by
    rw [hg, hs0]
    rfl
  have hmem : s0.mem = (ws.map (fun w => (locSect ((s.dev.tick + 1) % 2) + 4 * w.1, w.2))).foldl (fun (m : Memory) w => m.putWord w.1 (BitVec.ofNat 32 w.2)) s.mem := rfl
  have hotp : s0.otp = s.otp := rfl
  clear_value s0
  rw [ht]
  by_cases hf : s.dev.forwards = true
  · rw [if_pos hf]
    refine ⟨hotp, hmem, e, g, ?_, fun h => absurd (hf.symm.trans h) (by decide)⟩
    have hdev' : ((s0.onDev (fun d => d.gleanSee ws)).onDev (fun d => d.mirSend (.locals (d.tick + 1) ws decs))).dev =
        (s0.dev.gleanSee ws).mirSend (.locals ((s0.dev.gleanSee ws).tick + 1) ws decs) := rfl
    rw [hdev', hdev]
    exact Dev.talks_mirSend _ _
  · rw [if_neg hf]
    exact ⟨hotp, hmem, e, g, by rw [show (s0.onDev (fun d => d.gleanSee ws)).dev = s0.dev.gleanSee ws from rfl, hdev]; exact Dev.talks_refl _, fun _ => hdev⟩

/-- The write of a port's words. -/
theorem Sys.tdmWrite_leaves (s : Sys) (p : Nat) (decs : List (Nat × Nat × Nat)) : let t := s.tdmWrite p decs
    t.otp = s.otp ∧
      t.mem = (slotWords (locSect ((s.dev.tick + 1) % 2) + 128 * p) 0 (s.dev.tdmP p).last).foldl (fun (m : Memory) w => m.putWord w.1 (BitVec.ofNat 32 w.2)) s.mem ∧
      ∃ e g, (s.dev.withEng e g).talks t.dev ∧ (s.dev.forwards = false → t.dev = s.dev.withEng e g) := by
  intro t
  obtain ⟨hotp, hmem, hdev⟩ := s.locWrite_leaves ((s.dev.tdmP p).last.zipIdx.map (fun (w : Nat × Nat) => (p * 32 + w.2, w.1))) decs
  refine ⟨hotp, hmem.trans ?_, hdev⟩
  rw [slotWords, List.map_map]
  refine congrArg (fun l => List.foldl _ s.mem l) (List.map_congr_left (fun w _ => ?_))
  simp only [Function.comp_apply]
  rw [show locSect ((s.dev.tick + 1) % 2) + 4 * (p * 32 + w.2) = locSect ((s.dev.tick + 1) % 2) + 128 * p + 4 * w.2 by omega]

/-! ## The filters of a frame (R133, R238) -/

/-- One slot through its filter and the receive mask. -/
def Dev.slotStep (d : Dev) (p mask : Nat) (fr : List Nat) (sl : Nat) (t : TdmPort) : TdmPort :=
  if sl < d.tdmSlots p && bit mask sl then
    let r := (t.hpf.getD sl {}).step (d.tdmHpfSel p sl) (d.tdmHi p) (fr.getD sl 0)
    { t with
      hpf := updAt t.hpf sl (fun _ => r.1)
      last := updAt t.last sl (fun _ => r.2.1) }
  else { t with last := updAt t.last sl (fun _ => 0) }

theorem Hpf.step_off (h : Hpf) {sel : Nat} (r96 : Bool) (x : Nat) (hs : hpfCode sel = 0) : (h.step sel r96 x).2.1 = x := by
  have hc : (h.select (hpfCode sel)).code = 0 := hs
  rw [Hpf.step, if_pos hc]

theorem Dev.slotStep_leaves (d : Dev) (p mask : Nat) (fr : List Nat) (sl : Nat) (t : TdmPort) : ∃ h v, d.slotStep p mask fr sl t = { t with
      hpf := h
      last := updAt t.last sl (fun _ => v) } ∧ (sl < d.tdmSlots p → bit mask sl = true → hpfCode (d.tdmHpfSel p sl) = 0 → v = fr.getD sl 0) ∧
      (bit mask sl = false → v = 0) := by
  rw [Dev.slotStep]
  by_cases h : (decide (sl < d.tdmSlots p) && bit mask sl) = true
  · rw [if_pos h]
    have hb : bit mask sl = true := (Bool.and_eq_true_iff.mp h).2
    exact ⟨_, _, rfl, fun _ _ hc => Hpf.step_off _ _ _ hc, fun hf => absurd (hb.symm.trans hf) (by decide)⟩
  · rw [if_neg h]
    exact ⟨t.hpf, 0, rfl, fun h1 h2 _ => absurd (by rw [decide_eq_true h1, h2]; rfl) h, fun _ => rfl⟩

/-- The slots through their filters: only the filters and the filtered words move. -/
theorem Dev.slotSteps_leaves (d : Dev) (p mask : Nat) (fr : List Nat) (t : TdmPort) (n : Nat) (hn : n ≤ t.last.length) : ∃ h l,
    forN n (d.slotStep p mask fr) t = { t with
      hpf := h
      last := l } ∧ l.length = t.last.length ∧
      ∀ sl, sl < n → (sl < d.tdmSlots p → bit mask sl = true → hpfCode (d.tdmHpfSel p sl) = 0 → l.getD sl 0 = fr.getD sl 0) ∧ (bit mask sl = false → l.getD sl 0 = 0) := by
  induction n with
  | zero => exact ⟨t.hpf, t.last, rfl, rfl, fun sl h => absurd h (Nat.not_lt_zero sl)⟩
  | succ n ih =>
    obtain ⟨h, l, he, hl, hall⟩ := ih (by omega)
    have hstep : forN (n + 1) (d.slotStep p mask fr) t = d.slotStep p mask fr n (forN n (d.slotStep p mask fr) t) := rfl
    obtain ⟨h', v, he', hv1, hv0⟩ := d.slotStep_leaves p mask fr n (forN n (d.slotStep p mask fr) t)
    rw [he] at he'
    have hget (sl : Nat) : (updAt l n (fun _ => v)).getD sl 0 = if n = sl ∧ sl < l.length then v else l.getD sl 0 := getD_updAt _ _ _ _ _
    refine ⟨h', updAt l n (fun _ => v), by rw [hstep, he, he'], (length_updAt _ _ _).trans hl, fun sl hsl => ?_⟩
    rw [hget]
    by_cases hs : n = sl
    · subst hs
      rw [if_pos ⟨rfl, by omega⟩]
      exact ⟨hv1, hv0⟩
    · rw [if_neg (fun hc => hs hc.1)]
      exact hall sl (by omega)

theorem Dev.tdmFilter_eq (d : Dev) (p mask : Nat) (fr : List Nat) : d.tdmFilter p mask fr = d.onTdm p (forN 32 (d.slotStep p mask fr)) := rfl

end Sys2Proof.Machine

/-!
PROOFS. The serial audio ports: a frame that comes whole, one that is missing, and the row of a received frame.
-/
namespace Sys2Proof.Machine

/-! ## A frame that comes whole (R245, R247) -/

theorem Dev.frameApply_serves (d : Dev) (p off now : Nat) (hne : R.fltstat Blk.tdm ≠ off) : d.serves (d.frameApply p off now) [off] [] ∧ (d.frameApply p off now).tdm = d.tdm := by
  obtain ⟨f, v, he⟩ : ∃ f v, d.frameApply p off now = (d.withPorts d.tdm f).setBoth off ((d.withPorts d.tdm f).reg off) v := ⟨_, _, rfl⟩
  rw [he]
  exact ⟨(Dev.serves.held d f).trans (.setBoth _ _ _ (by simp) hne), Dev.setBoth_tdm _ _ _ _⟩

/-- Every port of a gang takes the gang's count. -/
theorem Dev.fcnts_leaves (l : List Nat) (hl : ∀ m ∈ l, m < 8) (n : Nat) (d : Dev) : let e := l.foldl (fun d m => d.setReg (R.tdmFcnt m) n) d
    d.serves e ((List.range 8).map R.tdmFcnt) [] ∧ e.tdm = d.tdm ∧ ∀ p, p ∈ l → e.reg (R.tdmFcnt p) = n % 2 ^ 32 := by
  induction l generalizing d with
  | nil => exact ⟨.refl d, rfl, fun p hp => absurd hp List.not_mem_nil⟩
  | cons m l ih =>
    have hm := hl m List.mem_cons_self
    obtain ⟨hs, ht, hall⟩ := ih (fun k hk => hl k (List.mem_cons_of_mem _ hk)) (d.setReg (R.tdmFcnt m) n)
    have h1 : d.serves (d.setReg (R.tdmFcnt m) n) ((List.range 8).map R.tdmFcnt) [] :=
      .setReg d n (List.mem_map_of_mem (List.mem_range.mpr hm)) (fltstat_ne hm (by simp only [R.tdmFcnt]; omega))
    refine ⟨h1.trans hs, ht.trans (Dev.setReg_tdm _ _ _), fun p hp => ?_⟩
    by_cases hpl : p ∈ l
    · exact hall p hpl
    · obtain rfl := (List.mem_cons.mp hp).resolve_right hpl
      have hrest : ∀ (l : List Nat) (d : Dev), p ∉ l → (l.foldl (fun d m => d.setReg (R.tdmFcnt m) n) d).reg (R.tdmFcnt p) = d.reg (R.tdmFcnt p) := fun l => by
        induction l with
        | nil => exact fun d _ => rfl
        | cons k l ih' =>
          intro d hno
          rw [List.foldl_cons, ih' _ (fun hc => hno (List.mem_cons_of_mem _ hc))]
          refine Dev.reg_setReg_ne _ _ _ _ (fun hc => hno ?_)
          have hpk : p = k := by
            simp only [R.tdmFcnt] at hc
            omega
          exact hpk ▸ List.mem_cons_self
      exact (hrest l _ hpl).trans (Dev.reg_setReg _ _ _)

/-- The ports of a gang are ports. -/
theorem Dev.lt_of_mem_gang {d : Dev} {p m : Nat} (h : m ∈ d.tdmGang p) : m < 8 := List.mem_range.mp (List.mem_filter.mp h).1

theorem Dev.mem_gang_self (d : Dev) {p : Nat} (hp : p < 8) (h : (d.tdmP p).started = true) : p ∈ d.tdmGang p :=
  List.mem_filter.mpr ⟨List.mem_range.mpr hp, by simp [h]⟩

/-- The registers that a frame that comes whole moves. -/
def frameRegs (p : Nat) : List Nat := R.tdmRxmask p :: (List.range 8).map R.tdmFcnt

/-- The port after a frame that has come. -/
def TdmPort.framed (t : TdmPort) (mask at_ : Nat) : TdmPort := { t with
  rxmF := mask
  fresh := false
  rxAt := at_ }

theorem Dev.tdmFrameIn_leaves (d : Dev) {p : Nat} (off : Int) (hp : p < 8) (hlen : p < d.tdm.length) : let r := d.tdmFrameIn p off
    d.serves r.1 (frameRegs p) [R.tdmCnt p 0] ∧ d.counts r.1 (R.tdmCnt p 0) 1 ∧ (∃ m n, r.1.tdmP p = (d.tdmP p).framed m n) ∧ r.1.tdm.length = d.tdm.length ∧
      ((d.tdmP p).fresh = false → r.2 = (d.tdmP p).rxmF) ∧
      (d.tdmLeader p = p → (d.tdmP p).started = true → r.1.reg (R.tdmFcnt p) = (d.reg (R.tdmFcnt p) + 1) % 2 ^ 32) := by
  have hfm : R.fltstat Blk.tdm ≠ R.tdmRxmask p := fltstat_ne hp (by simp only [R.tdmRxmask]; omega)
  have hmf (k : Nat) : R.tdmFcnt k ∉ [R.tdmRxmask p] := by
    simp only [List.mem_singleton, R.tdmFcnt, R.tdmRxmask]
    omega
  unfold Dev.tdmFrameIn
  extract_lets t n d1 d2 next d3 mask d4 r
  have hr1 : r.1 = d4.onTdm p (fun t => { t with rxmF := d4.lv (R.tdmRxmask p), fresh := false, rxAt := next }) := rfl
  have hr2 : r.2 = mask := rfl
  rw [hr1, hr2]
  clear_value r
  clear hr1 hr2
  have h1 : d.serves d1 ((List.range 8).map R.tdmFcnt) [] ∧ d1.tdm = d.tdm ∧
      (d.tdmLeader p = p → (d.tdmP p).started = true → d1.reg (R.tdmFcnt p) = (d.reg (R.tdmFcnt p) + 1) % 2 ^ 32) := by
    by_cases hl : d.tdmLeader p = p
    · have he : d1 = (d.tdmGang p).foldl (fun e m => e.setReg (R.tdmFcnt m) (d.reg (R.tdmFcnt p) + 1)) d := if_pos hl
      obtain ⟨hs, ht, hall⟩ := Dev.fcnts_leaves (d.tdmGang p) (fun m hm => Dev.lt_of_mem_gang hm) (d.reg (R.tdmFcnt p) + 1) d
      rw [he]
      exact ⟨hs, ht, fun _ hon => hall p (d.mem_gang_self hp hon)⟩
    · have he : d1 = d := if_neg hl
      rw [he]
      exact ⟨.refl d, rfl, fun h => absurd h hl⟩
  clear_value d1
  obtain ⟨h1, ht1, hf1⟩ := h1
  have h2 : d1.serves d2 [] [R.tdmCnt p 0] ∧ d2.tdm = d1.tdm := d1.tdmCount_serves p 0 1
  have hc2 : d1.counts d2 (R.tdmCnt p 0) 1 := d1.tdmCount_one p 0
  clear_value d2 next
  have h3 : d2.serves d3 [R.tdmRxmask p] [] ∧ d3.tdm = d2.tdm := by
    by_cases hfr : t.fresh = true
    · have he : d3 = d2.frameApply p (R.tdmRxmask p) (next - d.tdmPeriod p) := if_pos hfr
      rw [he]
      exact d2.frameApply_serves p _ _ hfm
    · have he : d3 = d2 := if_neg hfr
      rw [he]
      exact ⟨.refl d2, rfl⟩
  have hmask : t.fresh = false → mask = t.rxmF := fun h => if_neg (by rw [h]; decide)
  clear_value d3 mask
  have h4 : d3.serves d4 [R.tdmRxmask p] [] ∧ d4.tdm = d3.tdm := d3.frameApply_serves p _ _ hfm
  clear_value d4
  have ht4 : d4.tdm = d.tdm := by rw [h4.2, h3.2, h2.2, ht1]
  have hP := d4.tdmP_onTdm (fun t => { t with rxmF := d4.lv (R.tdmRxmask p), fresh := false, rxAt := next }) (p := p) (by rw [ht4]; exact hlen)
  have hs5 : d4.serves (d4.onTdm p (fun t => { t with rxmF := d4.lv (R.tdmRxmask p), fresh := false, rxAt := next })) [] [] := .onTdm d4 p _
  have hl5 := d4.length_onTdm p (fun t => { t with rxmF := d4.lv (R.tdmRxmask p), fresh := false, rxAt := next })
  have hsub : [R.tdmRxmask p] ⊆ frameRegs p := by simp [frameRegs]
  have hall : d2.serves _ [R.tdmRxmask p] [] := (h3.1.trans h4.1).trans (hs5.mono (List.nil_subset _) (List.Subset.refl _))
  generalize d4.onTdm p (fun t => { t with rxmF := d4.lv (R.tdmRxmask p), fresh := false, rxAt := next }) = d5 at *
  refine ⟨((h1.mono (List.subset_cons_self _ _) (List.nil_subset _)).trans (h2.1.mono (List.nil_subset _) (List.Subset.refl _))).trans
    (hall.mono hsub (List.nil_subset _)), ?_, ⟨d4.lv (R.tdmRxmask p), next, hP.trans (by rw [Dev.tdmP_congr ht4 p]; rfl)⟩, by rw [hl5, ht4], hmask, fun hl hon => ?_⟩
  · rw [Dev.counts, hall.w64 List.not_mem_nil, hc2, h1.w64 List.not_mem_nil]
  · rw [hall.reg (hmf p), h2.1.reg List.not_mem_nil]
    exact hf1 hl hon

/-! ## A missing frame (R244, R246) -/

/-- The registers that a missing frame may move. -/
def missRegs : List Nat := tdmFlts ++ (List.range 8).map R.tdmStat

/-- A port with its frame missing. -/
def Dev.missStep (p m : Nat) (d : Dev) : Dev :=
  let t := d.tdmP m
  let d2 := d.onTdm m (fun t => { t with
    good := if m = p ∨ d.tdmMode m = 1 then 0 else t.good
    fresh := t.fresh || m == p
    out := t.out || d.tdmMode m == 1 || (m == p && d.tdmLeader m != m) })
  if t.rx.fading then (d2.onTdm m (fun t => { t with rx := { t.rx with underrun := true } })).tdmStat m
  else d2.tdmFadeStart m 0 2

/-- The frame's count and fault. -/
def Dev.missed (d : Dev) (p bclks : Nat) : Dev := (d.tdmCount p 1 1).raise Blk.tdm Src.tdmFrameErr p bclks (d.reg (R.tdmFcnt p))

theorem Dev.tdmMissing_eq (d : Dev) (p bclks : Nat) :
    d.tdmMissing p bclks = each (if d.tdmLeader p = p then d.tdmGang p else [p]) (Dev.missStep p) (d.missed p bclks) := rfl

theorem Dev.missed_leaves (d : Dev) (p bclks : Nat) : let e := d.missed p bclks
    d.serves e tdmFlts [R.tdmCnt p 1] ∧ e.tdm = d.tdm ∧ e.flag Blk.tdm Src.tdmFrameErr ∧ d.counts e (R.tdmCnt p 1) 1 := by
  obtain ⟨h1, ht1⟩ := d.tdmCount_serves p 1 1
  have hc := d.tdmCount_one p 1
  rw [Dev.missed]
  generalize d.tdmCount p 1 1 = d1 at *
  obtain ⟨h2, ht2, hf⟩ := d1.tdmRaise_leaves Src.tdmFrameErr p bclks (d.reg (R.tdmFcnt p)) (by decide)
  exact ⟨(h1.mono (List.nil_subset _) (List.Subset.refl _)).trans (h2.mono (List.Subset.refl _) (List.nil_subset _)), ht2.trans ht1, hf,
    (h2.w64 List.not_mem_nil).trans hc⟩

theorem Dev.missStep_serves (d : Dev) (p : Nat) {m : Nat} (hm : m < 8) : d.serves (d.missStep p m) missRegs ((List.range 8).map (fun k => R.tdmCnt k 6)) := by
  have hs (d : Dev) (f : TdmPort → TdmPort) : d.serves (d.onTdm m f) missRegs ((List.range 8).map (fun k => R.tdmCnt k 6)) := .onTdm d m f
  have hstat : [R.tdmStat m] ⊆ missRegs := fun x hx => List.mem_append_right _ (List.mem_singleton.mp hx ▸ List.mem_map_of_mem (List.mem_range.mpr hm))
  rw [Dev.missStep]
  split
  · exact ((hs d _).trans (hs (d.onTdm m _) _)).trans ((Dev.tdmStat_leaves ((d.onTdm m _).onTdm m _) hm).1.mono hstat (List.nil_subset _))
  · refine (hs d _).trans ((Dev.tdmFadeStart_serves (d.onTdm m _) 0 2 hm).1.mono ?_ ?_)
    · exact List.cons_subset.mpr ⟨hstat List.mem_cons_self, List.subset_append_left _ _⟩
    · exact List.cons_subset.mpr ⟨List.mem_map_of_mem (List.mem_range.mpr hm), List.nil_subset _⟩

theorem cnt_six {p k : Nat} (hk : k < 6) : R.tdmCnt p k ∉ (List.range 8).map (fun m => R.tdmCnt m 6) := by
  simp only [List.mem_map, List.mem_range, R.tdmCnt, not_exists, not_and]
  omega

/-- A missing frame of any slave: counted and raised. -/
theorem Dev.tdmMissing_leaves (d : Dev) {p : Nat} (bclks : Nat) (hp : p < 8) : let e := d.tdmMissing p bclks
    d.serves e missRegs (R.tdmCnt p 1 :: (List.range 8).map (fun k => R.tdmCnt k 6)) ∧ e.flag Blk.tdm Src.tdmFrameErr ∧ d.counts e (R.tdmCnt p 1) 1 := by
  obtain ⟨h1, -, hf, hc⟩ := d.missed_leaves p bclks
  rw [d.tdmMissing_eq]
  generalize d.missed p bclks = d1 at *
  have h2 : d1.serves (each (if d.tdmLeader p = p then d.tdmGang p else [p]) (Dev.missStep p) d1) missRegs ((List.range 8).map (fun k => R.tdmCnt k 6)) :=
    .each _ _ (fun m hm e => e.missStep_serves p (by
      by_cases hl : d.tdmLeader p = p
      · rw [if_pos hl] at hm
        exact Dev.lt_of_mem_gang hm
      · rw [if_neg hl] at hm
        exact List.mem_singleton.mp hm ▸ hp)) d1
  generalize each (if d.tdmLeader p = p then d.tdmGang p else [p]) (Dev.missStep p) d1 = d2 at *
  exact ⟨(h1.mono (List.subset_append_left _ _) (by simp)).trans (h2.mono (List.Subset.refl _) (List.subset_cons_self _ _)), h2.flag (by decide) hf,
    (h2.w64 (cnt_six (by decide))).trans hc⟩

/-- A missing frame of a port on its own, not fading: its fade begins. -/
theorem Dev.tdmMissing_fades (d : Dev) {p : Nat} (bclks : Nat) (hp : p < 8) (hlen : p < d.tdm.length) (halone : d.tdmLeader p ≠ p ∨ d.tdmGang p = [p])
    (hfad : (d.tdmP p).rx.fading = false) (hon : (d.tdmP p).started = true) : let e := d.tdmMissing p bclks
    (e.tdmP p).rx.fading = true ∧ (e.tdmP p).good = 0 ∧ d.counts e (R.tdmCnt p 1) 1 ∧ d.counts e (R.tdmCnt p 6) 1 ∧ e.flag Blk.tdm Src.tdmFrameErr ∧
      e.flag Blk.tdm Src.tdmFade ∧ (e.rf (R.tdmStat p) 0 3 = 2 ∨ e.rf (R.tdmStat p) 0 3 = 3) ∧ d.keeps e (R.tdmStat p :: tdmFlts) := by
  have hit : (if d.tdmLeader p = p then d.tdmGang p else [p]) = [p] := by
    rcases halone with h | h
    · exact if_neg h
    · rw [h, ite_self]
  obtain ⟨h1, ht1, hf, hc⟩ := d.missed_leaves p bclks
  rw [d.tdmMissing_eq, hit]
  generalize d.missed p bclks = d1 at *
  have hP1 : d1.tdmP p = d.tdmP p := Dev.tdmP_congr ht1 p
  have hl1 : p < d1.tdm.length := by rw [ht1]; exact hlen
  have he : each [p] (Dev.missStep p) d1 = (d1.onTdm p (fun t => { t with
      good := if p = p ∨ d1.tdmMode p = 1 then 0 else t.good
      fresh := t.fresh || p == p
      out := t.out || d1.tdmMode p == 1 || (p == p && d1.tdmLeader p != p) })).tdmFadeStart p 0 2 := if_neg (by rw [hP1, hfad]; decide)
  rw [he]
  generalize hg : (fun t : TdmPort => { t with
      good := if p = p ∨ d1.tdmMode p = 1 then 0 else t.good
      fresh := t.fresh || p == p
      out := t.out || d1.tdmMode p == 1 || (p == p && d1.tdmLeader p != p) }) = g
  have hgood (t : TdmPort) : (g t).good = 0 ∧ (g t).started = t.started := by
    rw [← hg]
    exact ⟨if_pos (.inl rfl), rfl⟩
  have hP2 := d1.tdmP_onTdm g hl1
  have hs2 : d1.serves (d1.onTdm p g) [] [] := .onTdm d1 p g
  have hl2 : p < (d1.onTdm p g).tdm.length := lt_of_lt_of_eq hl1 (d1.length_onTdm p g).symm
  generalize d1.onTdm p g = d2 at *
  obtain ⟨hs3, hfade, hc6⟩ := d2.tdmFadeStart_serves 0 2 hp
  obtain ⟨hP3, -, hst⟩ := d2.tdmFadeStart_rx 2 hp hl2
  have hon2 : (d2.tdmP p).started = true := by rw [hP2, (hgood _).2, hP1, hon]
  generalize d2.tdmFadeStart p 0 2 = d3 at *
  have hw6 : R.tdmCnt p 6 ∉ [R.tdmCnt p 1] := by simp only [List.mem_singleton, R.tdmCnt]; omega
  have hw1 : R.tdmCnt p 1 ∉ [R.tdmCnt p 6] := by simp only [List.mem_singleton, R.tdmCnt]; omega
  refine ⟨by rw [hP3]; rfl, by rw [hP3, hP2]; exact (hgood _).1, ?_, ?_, hs3.flag (by decide) (hs2.flag (by decide) hf), hfade, hst hon2, ?_⟩
  · exact (hs3.w64 hw1).trans ((hs2.w64 List.not_mem_nil).trans hc)
  · rw [Dev.counts, hc6, hs2.w64 List.not_mem_nil, h1.w64 hw6]
  · exact ((h1.keeps.mono (List.subset_cons_self _ _)).trans (hs2.keeps.mono (List.nil_subset _))).trans hs3.keeps

end Sys2Proof.Machine

/-!
PROOFS. The serial audio ports: the row of a received frame.
-/
namespace Sys2Proof.Machine

/-- The row's condition for a port that takes the frame. -/
theorem Dev.rxLive {d : Dev} {p c : Nat} (hon : (d.tdmP p).started = true) (h : d.tdmMode p = 0 → c ≤ 512 ∧ d.tdmDue p = true) :
    ¬(!(d.tdmP p).started || (d.tdmMode p == 0 && !(decide (c ≤ capBy) && d.tdmDue p))) = true := by
  rw [hon]
  by_cases hm : d.tdmMode p = 0
  · obtain ⟨hc, hd⟩ := h hm
    rw [hd, decide_eq_true (show c ≤ capBy from hc)]
    simp
  · simp [hm]

/-- The words of a received frame as Q1.31 (R238). -/
def Dev.wordsIn (d : Dev) (p : Nat) (words : List Nat) : List Nat :=
  (List.range 32).map (fun i => if d.tdmWidth p = 16 then words.getD i 0 % 65536 * 65536 else words.getD i 0 % 2 ^ 32)

theorem Dev.wordsIn_wide (d : Dev) {p : Nat} (words : List Nat) (h : d.tdmWidth p = 32) : d.wordsIn p words = (List.range 32).map (fun i => words.getD i 0 % 2 ^ 32) := by
  rw [Dev.wordsIn, h]
  rfl

theorem Dev.getD_wordsIn (d : Dev) {p : Nat} (words : List Nat) {i : Nat} (hi : i < 32) (h : d.tdmWidth p = 32) : (d.wordsIn p words).getD i 0 = words.getD i 0 % 2 ^ 32 := by
  rw [d.wordsIn_wide words h]
  simp [List.getD_eq_getElem?_getD, hi]

theorem Dev.tdmSlots_le (d : Dev) (p : Nat) : d.tdmSlots p ≤ 32 := by
  have hlt : d.lf (R.tdmFmt p) 16 5 < 2 ^ 5 := Nat.mod_lt _ (by decide)
  rw [Dev.tdmSlots]
  split
  · decide
  · omega

theorem frameScale_full (fr : List Nat) (f : Nat) : frameScale fr f f = fr := by
  have hg (x : Nat) : gainScale x f f = x := if_pos (le_refl f)
  rw [frameScale, List.map_congr_left (fun x _ => hg x)]
  exact List.map_id fr

/-- The port that has taken a frame at gain position `q`. -/
def TdmPort.takes (t : TdmPort) (good : Nat) (late : Bool) (q : Nat) (fr : List Nat) : TdmPort := { t with
  good := good
  hold := late
  rx := { t.rx with
    q := q
    held := fr } }

/-- The registers that a received frame moves. -/
def takenRegs (p : Nat) : List Nat := R.tdmFsoff p :: R.tdmStat p :: frameRegs p

section
variable (d : Dev) (p : Nat) (off : Int)

/-- The start of the frame against the nearest boundary; a master's own is at it. -/
def Dev.rxStart : Int := if d.tdmMode p = 0 then 0 else off

/-- A synchronous slave's frame outside its window. -/
def Dev.rxBad : Bool := d.tdmMode p == 1 && (decide (2048 < d.rxStart p off) || decide (d.rxStart p off < -2048))

/-- The offset of the frame recorded. -/
def Dev.rxOffset : Dev :=
  let dA := d.setReg (R.tdmFsoff p) (wrapN 16 (clampI (-32768) 32767 (d.rxStart p off)))
  if d.tdmMode p = 1 then dA.setFld (R.tdmStat p) 3 1 (b2n (d.rxBad p off)) else dA

/-- The frame is not taken. -/
def Dev.rxMissed (bclks : Nat) : Dev :=
  let dM := (d.rxOffset p off).tdmMissing p bclks
  if d.rxBad p off then dM.raise Blk.tdm Src.tdmAlign p (wrapN 32 (d.rxStart p off)) 0 else dM

/-- The frame starts with its leader's. -/
def Dev.rxAligned (near : Bool) : Bool := near || d.tdmMode p == 0 || d.tdmLeader p == p

/-- The aligned frames so far. -/
def Dev.rxGood (near : Bool) : Nat := if d.rxAligned p near then (d.tdmP p).good + 1 else 0

/-- A buffer with one more frame, of which it keeps the 8 newest (R242). -/
def SlipDir.push (x : SlipDir) (g : SlipFrame) : SlipDir :=
  let b := x.buf ++ [g]
  { x with buf := b.drop (b.length - 8) }

/-- The frame goes into the slip buffer of a foreign-clock port. -/
def Dev.rxBuffered (words : List Nat) (near : Bool) : Dev :=
  let r := (d.rxOffset p off).tdmFrameIn p (d.rxStart p off)
  let g : SlipFrame := { n := r.1.reg (R.tdmFcnt (d.tdmLeader p)), mask := r.2, words := d.wordsIn p words }
  (r.1.onTdm p (fun t => { t with rx := if d.rxAligned p near then t.rx.push g else t.rx, good := d.rxGood p near })).tdmStat p

/-- The frame goes through the filters of a master or a synchronous slave. -/
def Dev.rxFiltered (words : List Nat) (near : Bool) (c : Nat) : Dev :=
  let r := (d.rxOffset p off).tdmFrameIn p (d.rxStart p off)
  let q := min ((d.tdmP p).rx.q + 1) (d.tdmF p)
  ((r.1.onTdm p (fun t => t.takes (d.rxGood p near) (decide (5120 < c)) q (d.wordsIn p words))).tdmFilter p r.2
    (frameScale (d.wordsIn p words) q (d.tdmF p))).tdmStat p

end

/-- The row of a received frame, by what becomes of the frame. -/
theorem Sys.tdmRx_eq (s0 : Sys) (p : Nat) (words : List Nat) (bclks : Nat) (off : Int) (near : Bool) (c : Nat) : s0.tdmRx p words bclks off near c =
    let s := s0.onDev (fun d => d.atC c)
    if !(s.dev.tdmP p).started || (s.dev.tdmMode p == 0 && !(decide (c ≤ capBy) && s.dev.tdmDue p)) then s
    else if s.dev.rxBad p off || (s.dev.tdmMode p != 0 && bclks != s.dev.tdmBits p) then { s with dev := s.dev.rxMissed p off bclks }
    else if s.dev.tdmMode p = 1 ∧ s.dev.tdmNear p c = false then s
    else if s.dev.tdmMode p = 2 then { s with dev := s.dev.rxBuffered p off words near }
    else if (s.dev.tdmP p).out || !s.dev.rxAligned p near then
      { s with dev := (((s.dev.rxOffset p off).tdmFrameIn p (s.dev.rxStart p off)).1).onTdm p (fun t => { t with good := s.dev.rxGood p near }) }
    else if decide (5120 < c) then { s with dev := s.dev.rxFiltered p off words near c }
    else ({ s with dev := s.dev.rxFiltered p off words near c } : Sys).tdmWrite p [] := rfl

theorem Sys.tdmRx_idle (s : Sys) {p : Nat} (words : List Nat) (bclks : Nat) (off : Int) (near : Bool) (c : Nat)
    (h : (s.dev.tdmP p).started = false ∨ s.dev.tdmMode p = 0 ∧ (512 < c ∨ s.dev.tdmDue p = false)) : s.tdmRx p words bclks off near c = s.onDev (fun d => d.atC c) := by
  have hcond : (!(s.dev.tdmP p).started || (s.dev.tdmMode p == 0 && !(decide (c ≤ capBy) && s.dev.tdmDue p))) = true := by
    rw [show capBy = 512 from rfl]
    rcases h with h | ⟨hm, h | h⟩
    · rw [h]
      rfl
    · rw [hm, decide_eq_false (by omega)]
      simp
    · rw [hm, h]
      simp
  rw [Sys.tdmRx_eq]
  exact if_pos hcond

/-! ## The offset, and a frame that is not taken -/

section
variable (d : Dev) {p : Nat} (off : Int) (hp : p < 8)
include hp

theorem Dev.rxOffset_leaves : let e := d.rxOffset p off
    d.serves e [R.tdmFsoff p, R.tdmStat p] [] ∧ e.tdm = d.tdm ∧ e.reg (R.tdmFsoff p) = wrapN 16 (clampI (-32768) 32767 (d.rxStart p off)) := by
  intro e
  let dA := d.setReg (R.tdmFsoff p) (wrapN 16 (clampI (-32768) 32767 (d.rxStart p off)))
  have he : e = if d.tdmMode p = 1 then dA.setFld (R.tdmStat p) 3 1 (b2n (d.rxBad p off)) else dA := rfl
  have hlt : wrapN 16 (clampI (-32768) 32767 (d.rxStart p off)) < 2 ^ 32 := by
    simp only [wrapN]
    omega
  have hA : d.serves dA [R.tdmFsoff p, R.tdmStat p] [] := .setReg d _ (by simp) (fltstat_ne hp (by simp only [R.tdmFsoff]; omega))
  have ht : dA.tdm = d.tdm := Dev.setReg_tdm _ _ _
  have hr : dA.reg (R.tdmFsoff p) = wrapN 16 (clampI (-32768) 32767 (d.rxStart p off)) := (Dev.reg_setReg _ _ _).trans (Nat.mod_eq_of_lt hlt)
  rw [he]
  clear_value dA
  split
  · refine ⟨hA.trans (.setFld dA _ _ _ (by simp) (tdmStat_flt hp)), (Dev.setFld_tdm _ _ _ _ _).trans ht, (Dev.reg_setFld_ne _ _ _ _ _ _ ?_).trans hr⟩
    simp only [R.tdmFsoff, R.tdmStat]
    omega
  · exact ⟨hA, ht, hr⟩

theorem fsoff_notin_miss : R.tdmFsoff p ∉ missRegs := by
  have hno := tdmFlts_ne hp (o := R.tdmFsoff p) (by simp only [R.tdmFsoff]; omega)
  intro hc
  rcases List.mem_append.mp hc with h | h
  · exact hno h
  · obtain ⟨k, -, hk⟩ := List.mem_map.mp h
    simp only [R.tdmFsoff, R.tdmStat] at hk
    omega

/-- A frame of a slave that is not taken: counted and raised as missing, and with ALIGN outside its window (R241, R244). -/
theorem Dev.rxMissed_leaves (bclks : Nat) : let e := d.rxMissed p off bclks
    e.flag Blk.tdm Src.tdmFrameErr ∧ d.counts e (R.tdmCnt p 1) 1 ∧ e.reg (R.tdmFsoff p) = wrapN 16 (clampI (-32768) 32767 (d.rxStart p off)) ∧
      (d.rxBad p off = true → e.flag Blk.tdm Src.tdmAlign) := by
  intro e
  obtain ⟨h1, -, hr⟩ := d.rxOffset_leaves off hp
  have he : e = if d.rxBad p off then ((d.rxOffset p off).tdmMissing p bclks).raise Blk.tdm Src.tdmAlign p (wrapN 32 (d.rxStart p off)) 0
      else (d.rxOffset p off).tdmMissing p bclks := rfl
  rw [he]
  generalize d.rxOffset p off = d1 at *
  obtain ⟨h2, hf, hc⟩ := d1.tdmMissing_leaves bclks hp
  have hr2 := (h2.reg (fsoff_notin_miss hp)).trans hr
  have hc2 : d.counts (d1.tdmMissing p bclks) (R.tdmCnt p 1) 1 := hc.trans (by rw [h1.w64 List.not_mem_nil])
  generalize d1.tdmMissing p bclks = d2 at *
  by_cases hb : d.rxBad p off = true
  · rw [if_pos hb]
    obtain ⟨h3, -, hf3⟩ := d2.tdmRaise_leaves Src.tdmAlign p (wrapN 32 (d.rxStart p off)) 0 (by decide)
    exact ⟨h3.flag (by decide) hf, (h3.w64 List.not_mem_nil).trans hc2, (h3.reg (tdmFlts_ne hp (by simp only [R.tdmFsoff]; omega))).trans hr2, fun _ => hf3⟩
  · rw [if_neg hb]
    exact ⟨hf, hc2, hr2, fun h => absurd h hb⟩

end

/-- A slave's frame that is not taken. -/
theorem Sys.tdmRx_missed (s : Sys) {p : Nat} (words : List Nat) (bclks : Nat) (off : Int) (near : Bool) (c : Nat) (hon : (s.dev.tdmP p).started = true)
    (hm : s.dev.tdmMode p ≠ 0) (h : s.dev.rxBad p off = true ∨ bclks ≠ s.dev.tdmBits p) :
    s.tdmRx p words bclks off near c = s.onDev (fun d => (d.atC c).rxMissed p off bclks) := by
  have hlive : ¬(!(s.dev.tdmP p).started || (s.dev.tdmMode p == 0 && !(decide (c ≤ capBy) && s.dev.tdmDue p))) = true := Dev.rxLive hon (fun h0 => absurd h0 hm)
  have hbad : (s.dev.rxBad p off || (s.dev.tdmMode p != 0 && bclks != s.dev.tdmBits p)) = true := by
    rcases h with h | h
    · rw [h]
      rfl
    · simp [h, hm]
  rw [Sys.tdmRx_eq]
  exact (if_neg hlive).trans (if_pos hbad)

/-! ## A frame that is taken -/

theorem tdmCtrl_offset (p : Nat) : R.tdmCtrl p ∉ [R.tdmFsoff p, R.tdmStat p] := by
  simp only [List.mem_cons, List.not_mem_nil, or_false, R.tdmCtrl, R.tdmFsoff, R.tdmStat]
  omega

theorem takenRegs_off {p k : Nat} (h : k < 8 ∨ 16 ≤ k ∧ k < 32) : 0xF0000 + 256 * p + k ∉ takenRegs p := by
  simp only [takenRegs, frameRegs, List.mem_cons, List.mem_map, List.mem_range, R.tdmFsoff, R.tdmStat, R.tdmRxmask, R.tdmFcnt, not_or, not_exists, not_and]
  refine ⟨by omega, by omega, by omega, fun x hx => ?_⟩
  omega

theorem Dev.serves.tdmHpfSel {d e : Dev} {p : Nat} {w : List Nat} (h : d.serves e (takenRegs p) w) {sl : Nat} (hs : sl < 32) :
    e.tdmHpfSel p sl = d.tdmHpfSel p sl := by
  have hno : R.tdmHpf p (sl / 8) ∉ takenRegs p := by
    have := takenRegs_off (p := p) (k := 16 + 4 * (sl / 8)) (.inr ⟨by omega, by omega⟩)
    rwa [show 0xF0000 + 256 * p + (16 + 4 * (sl / 8)) = R.tdmHpf p (sl / 8) by simp only [R.tdmHpf]; omega] at this
  rw [Dev.tdmHpfSel, h.lf _ _ hno, Dev.tdmHpfSel]

theorem tdmFmt_rx (p : Nat) : R.tdmFmt p ∉ takenRegs p := by
  have := takenRegs_off (p := p) (k := 4) (.inl (by decide))
  rwa [show 0xF0000 + 256 * p + 4 = R.tdmFmt p by simp only [R.tdmFmt]; omega] at this

section
variable (d : Dev) {p : Nat} (words : List Nat) (off : Int) (near : Bool) (hp : p < 8) (hlen : p < d.tdm.length)
include hp hlen

/-- A frame of a foreign clock goes into the slip buffer under its leader's count (R242, R245). -/
theorem Dev.rxBuffered_leaves (hnear : near = true) (hroom : (d.tdmP p).rx.buf.length < 8) : let e := d.rxBuffered p off words near
    d.counts e (R.tdmCnt p 0) 1 ∧ (e.tdmP p).good = (d.tdmP p).good + 1 ∧
      ∃ g : SlipFrame, (e.tdmP p).rx.buf = (d.tdmP p).rx.buf ++ [g] ∧ g.words = d.wordsIn p words ∧ g.n = e.reg (R.tdmFcnt (d.tdmLeader p)) := by
  have hal : d.rxAligned p near = true := by rw [Dev.rxAligned, hnear]; rfl
  have hgood : d.rxGood p near = (d.tdmP p).good + 1 := if_pos hal
  obtain ⟨h1, ht1, -⟩ := d.rxOffset_leaves off hp
  rw [Dev.rxBuffered, hal, hgood]
  generalize d.rxOffset p off = d1 at *
  obtain ⟨h2, hc2, ⟨m, n, hP2⟩, hl2, -, -⟩ := d1.tdmFrameIn_leaves (d.rxStart p off) hp (by rw [ht1]; exact hlen)
  generalize d1.tdmFrameIn p (d.rxStart p off) = r at *
  dsimp only
  generalize hg : ({ n := r.1.reg (R.tdmFcnt (d.tdmLeader p)), mask := r.2, words := d.wordsIn p words } : SlipFrame) = g
  have hgn : g.n = r.1.reg (R.tdmFcnt (d.tdmLeader p)) ∧ g.words = d.wordsIn p words := by
    rw [← hg]
    exact ⟨rfl, rfl⟩
  have hP3 := r.1.tdmP_onTdm (p := p) (fun t => { t with rx := if true = true then t.rx.push g else t.rx, good := (d.tdmP p).good + 1 }) (by
    rw [hl2, ht1]
    exact hlen)
  have h3 : r.1.serves (r.1.onTdm p (fun t => { t with rx := if true = true then t.rx.push g else t.rx, good := (d.tdmP p).good + 1 })) [] [] := .onTdm r.1 p _
  generalize r.1.onTdm p (fun t => { t with rx := if true = true then t.rx.push g else t.rx, good := (d.tdmP p).good + 1 }) = d3 at *
  obtain ⟨h4, ht4, -⟩ := d3.tdmStat_leaves hp
  have hP : (d3.tdmStat p).tdmP p = { r.1.tdmP p with rx := (r.1.tdmP p).rx.push g, good := (d.tdmP p).good + 1 } := (Dev.tdmP_congr ht4 p).trans hP3
  have hrx : (r.1.tdmP p).rx = (d.tdmP p).rx := by rw [hP2, Dev.tdmP_congr ht1 p]; rfl
  refine ⟨(h4.w64 List.not_mem_nil).trans ((h3.w64 List.not_mem_nil).trans (hc2.trans (by rw [h1.w64 List.not_mem_nil]))), by rw [hP], g, ?_, hgn.2, ?_⟩
  · rw [hP, hrx]
    show ((d.tdmP p).rx.buf ++ [g]).drop _ = _
    rw [List.length_append, List.length_singleton, show (d.tdmP p).rx.buf.length + 1 - 8 = 0 by omega, List.drop_zero]
  · have hne : R.tdmFcnt (d.tdmLeader p) ∉ [R.tdmStat p] := by
      simp only [List.mem_singleton, R.tdmFcnt, R.tdmStat]
      omega
    rw [hgn.1, h4.reg hne, h3.reg List.not_mem_nil]

/-- A frame goes through the filters of its slots (R238, R239). -/
theorem Dev.rxFiltered_leaves {c : Nat} (hlead : d.tdmLeader p = p) (hon : (d.tdmP p).started = true)
    (hfresh : (d.tdmP p).fresh = false) (hlast : (d.tdmP p).last.length = 32) (hq : d.tdmF p ≤ (d.tdmP p).rx.q + 1) : let e := d.rxFiltered p off words near c
    d.counts e (R.tdmCnt p 0) 1 ∧ e.reg (R.tdmFcnt p) = (d.reg (R.tdmFcnt p) + 1) % 2 ^ 32 ∧ (e.tdmP p).rx.q = d.tdmF p ∧ (e.tdmP p).last.length = 32 ∧ e.tick = d.tick ∧
      ∀ sl, sl < 32 → (sl < d.tdmSlots p → bit (d.tdmP p).rxmF sl = true → hpfCode (d.tdmHpfSel p sl) = 0 → (e.tdmP p).last.getD sl 0 = (d.wordsIn p words).getD sl 0) ∧
        (bit (d.tdmP p).rxmF sl = false → (e.tdmP p).last.getD sl 0 = 0) := by
  obtain ⟨h1, ht1, -⟩ := d.rxOffset_leaves off hp
  have hP1 := Dev.tdmP_congr ht1 p
  have hmin : min ((d.tdmP p).rx.q + 1) (d.tdmF p) = d.tdmF p := Nat.min_eq_right hq
  have hlead1 : (d.rxOffset p off).tdmLeader p = p := (h1.tdmLeader (tdmCtrl_offset p)).trans hlead
  rw [Dev.rxFiltered, hmin, frameScale_full]
  generalize d.rxOffset p off = d1 at *
  obtain ⟨h2, hc2, ⟨m, n, hP2⟩, hl2, hmask, hcnt⟩ := d1.tdmFrameIn_leaves (d.rxStart p off) hp (by rw [ht1]; exact hlen)
  rw [hP1] at hP2 hmask hcnt
  generalize d1.tdmFrameIn p (d.rxStart p off) = r at *
  dsimp only
  have hs3 : r.1.serves (r.1.onTdm p (fun t => t.takes (d.rxGood p near) (decide (5120 < c)) (d.tdmF p) (d.wordsIn p words))) [] [] := .onTdm r.1 p _
  have hP3 := r.1.tdmP_onTdm (p := p) (fun t => t.takes (d.rxGood p near) (decide (5120 < c)) (d.tdmF p) (d.wordsIn p words)) (by
    rw [hl2, ht1]
    exact hlen)
  have hl3 := r.1.length_onTdm p (fun t => t.takes (d.rxGood p near) (decide (5120 < c)) (d.tdmF p) (d.wordsIn p words))
  generalize r.1.onTdm p (fun t => t.takes (d.rxGood p near) (decide (5120 < c)) (d.tdmF p) (d.wordsIn p words)) = d3 at *
  have hlast3 : (d3.tdmP p).last = (d.tdmP p).last := by rw [hP3, hP2]; rfl
  obtain ⟨hh, l, hfil, hll, hslots⟩ := d3.slotSteps_leaves p r.2 (d.wordsIn p words) (d3.tdmP p) 32 (by rw [hlast3, hlast])
  have hP4 := d3.tdmP_onTdm (p := p) (forN 32 (d3.slotStep p r.2 (d.wordsIn p words))) (by
    rw [hl3, hl2, ht1]
    exact hlen)
  have hs4 : d3.serves (d3.onTdm p (forN 32 (d3.slotStep p r.2 (d.wordsIn p words)))) [] [] := .onTdm d3 p _
  rw [hfil] at hP4
  rw [Dev.tdmFilter_eq]
  generalize d3.onTdm p (forN 32 (d3.slotStep p r.2 (d.wordsIn p words))) = d4 at *
  obtain ⟨h5, ht5, -⟩ := d4.tdmStat_leaves hp
  have hP5 := (Dev.tdmP_congr ht5 p).trans hP4
  generalize d4.tdmStat p = d5 at *
  have h34 : r.1.serves d5 [R.tdmStat p] [] := ((hs3.trans hs4).mono (List.nil_subset _) (List.Subset.refl _)).trans h5
  have hconf : d.serves d3 (takenRegs p) [R.tdmCnt p 0] :=
    ((h1.mono (List.subset_append_left [R.tdmFsoff p, R.tdmStat p] (frameRegs p)) (List.nil_subset _)).trans (h2.mono (fun x hx => List.mem_cons_of_mem _ (List.mem_cons_of_mem _ hx)) (List.Subset.refl _))).trans (hs3.mono (List.nil_subset _) (List.nil_subset _))
  have hfcnt : R.tdmFcnt p ∉ [R.tdmFsoff p, R.tdmStat p] := by
    simp only [List.mem_cons, List.not_mem_nil, or_false, R.tdmFcnt, R.tdmFsoff, R.tdmStat]
    omega
  refine ⟨(h34.w64 List.not_mem_nil).trans (hc2.trans (by rw [h1.w64 List.not_mem_nil])), ?_, ?_, ?_, (h34.tick.trans h2.tick).trans h1.tick, fun sl hsl => ?_⟩
  · rw [h34.reg (fun hc => hfcnt (List.mem_cons_of_mem _ hc)), hcnt hlead1 hon, h1.reg hfcnt]
  · rw [hP5, hP3]
    rfl
  · rw [hP5]
    exact hll.trans (by rw [hlast3, hlast])
  · obtain ⟨hin, hout⟩ := hslots sl hsl
    rw [hP5]
    rw [hmask hfresh] at hin hout
    rw [hconf.tdmSlots (tdmFmt_rx p), hconf.tdmHpfSel hsl] at hin
    exact ⟨hin, hout⟩

end

end Sys2Proof.Machine

/-!
PROOFS. The serial audio ports: frames taken, sent and missing.
-/
namespace Sys2Proof.Machine

theorem leBytes_mod (n v : Nat) : leBytes n (v % 256 ^ n) = leBytes n v := by
  induction n generalizing v with
  | zero => rfl
  | succ n ih =>
    have htail : v % 256 ^ (n + 1) / 256 = v / 256 % 256 ^ n := by rw [Nat.pow_succ, Nat.mul_comm, Nat.mod_mul_right_div_self]
    have hhead : BitVec.ofNat 8 (v % 256 ^ (n + 1)) = BitVec.ofNat 8 v := by
      refine BitVec.eq_of_toNat_eq ?_
      rw [BitVec.toNat_ofNat, BitVec.toNat_ofNat, Nat.pow_succ]
      exact Nat.mod_mod_of_dvd _ (Dvd.intro_left _ rfl)
    rw [leBytes, leBytes, htail, ih, hhead]

/-! ## A master's frame stands in the local section -/

section
variable (s : Sys) {p : Nat} (words : List Nat) (bclks : Nat) (off : Int) (near : Bool) {c : Nat} (hp : p < 8) (hlen : p < s.dev.tdm.length)
  (hon : (s.dev.tdmP p).started = true)
include hp hlen hon

theorem Sys.tdmRx_master (hm : s.dev.tdmMode p = 0) (hc : c ≤ 512) (hdue : s.dev.tdmDue p = true) (hlead : s.dev.tdmLeader p = p) (hout : (s.dev.tdmP p).out = false)
    (hfresh : (s.dev.tdmP p).fresh = false) (hlast : (s.dev.tdmP p).last.length = 32) (hq : s.dev.tdmF p ≤ (s.dev.tdmP p).rx.q + 1) (hwf : s.mem.wf = true) :
    let t := s.tdmRx p words bclks off near c
    let base := locSect ((s.dev.tick + 1) % 2) + 128 * p
    t.otp = s.otp ∧ s.dev.counts t.dev (R.tdmCnt p 0) 1 ∧ t.dev.reg (R.tdmFcnt p) = (s.dev.reg (R.tdmFcnt p) + 1) % 2 ^ 32 ∧ (t.dev.tdmP p).rx.q = s.dev.tdmF p ∧
      (∀ a, a < base ∨ base + 128 ≤ a → t.mem.get a = s.mem.get a) ∧
      (∀ sl, sl < s.dev.tdmSlots p → bit (s.dev.tdmP p).rxmF sl = true → hpfCode (s.dev.tdmHpfSel p sl) = 0 → s.dev.tdmWidth p = 32 →
        t.mem.bytes (base + 4 * sl) 4 = leBytes 4 (words.getD sl 0)) ∧
      ∀ sl, sl < 32 → bit (s.dev.tdmP p).rxmF sl = false → t.mem.bytes (base + 4 * sl) 4 = leBytes 4 0 := by
  intro t base
  have hlive : ¬(!((s.dev.atC c).tdmP p).started || ((s.dev.atC c).tdmMode p == 0 && !(decide (c ≤ capBy) && (s.dev.atC c).tdmDue p))) = true :=
    Dev.rxLive hon (fun _ => ⟨hc, hdue⟩)
  have hm' : (s.dev.atC c).tdmMode p = 0 := hm
  have hbad : ¬((s.dev.atC c).rxBad p off || ((s.dev.atC c).tdmMode p != 0 && bclks != (s.dev.atC c).tdmBits p)) = true := by
    rw [Dev.rxBad, hm']
    exact Bool.false_ne_true
  have hal : ¬(((s.dev.atC c).tdmP p).out || !(s.dev.atC c).rxAligned p near) = true := by
    have hout' : ((s.dev.atC c).tdmP p).out = false := hout
    rw [hout', Dev.rxAligned, hm']
    simp
  have ht : t = ({ s with dev := (s.dev.atC c).rxFiltered p off words near c } : Sys).tdmWrite p [] := by
    have he := s.tdmRx_eq p words bclks off near c
    exact he.trans ((if_neg hlive).trans ((if_neg hbad).trans ((if_neg (fun h => absurd (hm'.symm.trans h.1) (by decide))).trans
      ((if_neg (fun h => absurd (hm'.symm.trans h) (by decide))).trans ((if_neg hal).trans (if_neg (by simp; omega)))))))
  obtain ⟨hcnt, hfcnt, hqq, hl, htick, hslots⟩ := (s.dev.atC c).rxFiltered_leaves (c := c) words off near hp hlen hlead hon hfresh hlast hq
  rw [ht]
  have hin (sl : Nat) (hs : sl < 32) := (s.dev.atC c).getD_wordsIn (p := p) words hs
  generalize (s.dev.atC c).rxFiltered p off words near c = d at *
  obtain ⟨hotp, hmem, e, g, htalk, -⟩ := ({ s with dev := d } : Sys).tdmWrite_leaves p []
  generalize ({ s with dev := d } : Sys).tdmWrite p [] = u at *
  have hbase : locSect ((d.tick + 1) % 2) + 128 * p = base := by rw [htick]; rfl
  have hmem' : u.mem = (slotWords base 0 (d.tdmP p).last).foldl (fun (m : Memory) w => m.putWord w.1 (BitVec.ofNat 32 w.2)) s.mem := hbase ▸ hmem
  have htdm : u.dev.tdm = d.tdm := htalk.1.1.ports.1
  have hw : R.tdmCnt p 0 ∉ mirWide := fun hc => by
    have := mirWide_blk hc
    rw [show Blk.cvu = 22 from rfl, show Blk.mir = 21 from rfl, R.tdmCnt] at this
    omega
  have hr : R.tdmFcnt p ∉ cvuRegs := fun hc => by
    have := cvuRegs_blk hc
    rw [show Blk.cvu = 22 from rfl, R.tdmFcnt] at this
    omega
  have hword {sl v : Nat} (hs : sl < 32) (hv : (d.tdmP p).last.getD sl 0 = v) : u.mem.bytes (base + 4 * sl) 4 = leBytes 4 (v % 2 ^ 32) := by
    have hb := bytes_slotWords (m := s.mem) base 0 (d.tdmP p).last hwf (i := sl) (by rw [hl]; exact hs)
    rw [Nat.zero_add, hv] at hb
    rw [hmem']
    exact hb
  refine ⟨hotp, (htalk.w64 hw).trans hcnt, (htalk.reg hr).trans hfcnt, by rw [Dev.tdmP_congr htdm]; exact hqq, fun a ha => ?_, fun sl hs hb hcode hwid => ?_,
    fun sl hs hb => ?_⟩
  · rw [hmem']
    exact get_slotWords_ne base 0 _ a hwf (by rw [hl]; omega)
  · have h32 : sl < 32 := lt_of_lt_of_le hs (s.dev.tdmSlots_le p)
    rw [hword h32 (((hslots sl h32).1 hs hb hcode).trans (hin sl h32 hwid)), Nat.mod_mod]
    exact leBytes_mod 4 _
  · exact hword hs ((hslots sl hs).2 hb)

end

/-- A frame of a foreign clock goes into the slip buffer. -/
theorem Sys.tdmRx_buffered (s : Sys) {p : Nat} (words : List Nat) (bclks : Nat) (off : Int) (near : Bool) (c : Nat) (hon : (s.dev.tdmP p).started = true)
    (hm : s.dev.tdmMode p = 2) (hb : bclks = s.dev.tdmBits p) :
    s.tdmRx p words bclks off near c = s.onDev (fun d => (d.atC c).rxBuffered p off words near) := by
  have hm' : (s.dev.atC c).tdmMode p = 2 := hm
  have hlive : ¬(!((s.dev.atC c).tdmP p).started || ((s.dev.atC c).tdmMode p == 0 && !(decide (c ≤ capBy) && (s.dev.atC c).tdmDue p))) = true :=
    Dev.rxLive hon (fun h0 => absurd (hm.symm.trans h0) (by decide))
  have hbits : bclks = (s.dev.atC c).tdmBits p := hb
  have hbad : ¬((s.dev.atC c).rxBad p off || ((s.dev.atC c).tdmMode p != 0 && bclks != (s.dev.atC c).tdmBits p)) = true := by
    rw [Dev.rxBad, hm', hbits]
    simp
  have he := s.tdmRx_eq p words bclks off near c
  exact he.trans ((if_neg hlive).trans ((if_neg hbad).trans ((if_neg (fun h => absurd (hm'.symm.trans h.1) (by decide))).trans (if_pos hm'))))

end Sys2Proof.Machine

/-!
PROOFS. The serial audio ports: a frame that is sent.
-/
namespace Sys2Proof.Machine

/-! ## Writes held for a frame (R36) -/

/-- With no write held for the port a frame start changes no value in use. -/
theorem Dev.frameApply_none (d : Dev) {p : Nat} (off now : Nat) (h : ∀ w ∈ d.frameWr, w.port ≠ p) : (d.frameApply p off now).lv off = d.lv off := by
  have hnone : d.frameWr.filter (fun w => w.port == p && w.off == off && d.frameReady now w) = [] := List.filter_eq_nil_iff.mpr (fun w hw => by simp [h w hw])
  obtain ⟨f, he⟩ : ∃ f, d.frameApply p off now = (d.withPorts d.tdm f).setBoth off ((d.withPorts d.tdm f).reg off)
      ((d.frameWr.filter (fun w => w.port == p && w.off == off && d.frameReady now w)).foldl (fun v w => mergeBits v w.mask w.val) (d.lv off)) := ⟨_, rfl⟩
  rw [he, hnone]
  exact (Dev.lv_setBoth _ _ _ _).trans (d.lv_mod off)

/-! ## The stages of a frame that is sent -/

section
variable (d : Dev) (p c : Nat)

/-- The instant at which the frame starts in the gang's counter. -/
def Dev.frameAt : Nat := if d.tdmLeader p = p then d.instant else (d.tdmP (d.tdmLeader p)).txAt

/-- The masks held for the frame in use. -/
def Dev.txHeld : Dev := (d.onTdm p (fun t => { t with txAt := d.frameAt p })).frameApply p (R.tdmSlotmask p) (d.frameAt p)

/-- The port with the first frame of its buffer as the one it sends. -/
def TdmPort.popped (t : TdmPort) : TdmPort :=
  match t.tx.buf with
  | [] => t
  | fr :: rest => { t with tx := { t.tx with buf := rest }, sent := fr.words }

/-- The frame of a master or a synchronous slave. -/
def Dev.txTaken (b : Nat) : Dev := ((d.tdmTake p b).onTdm p (fun t => { t with sent := t.frame, sentB := some b })).tdmStale p

/-- The frame goes to the pins. -/
def Dev.txDriven : Dev :=
  let ws := d.tdmDrive p (d.tdmP p).sent
  (({ d with out := { d.out with tdm := d.out.tdm ++ [(p, ws)] } } : Dev).tdmPins p ws).tdmStat p

theorem Dev.tdmTx_eq : d.tdmTx p c =
    if !((d.atC c).tdmP p).started || !(d.atC c).tdmMayStart p c then d.atC c
    else (if (d.atC c).tdmMode p = 2 then ((d.atC c).txHeld p).onTdm p TdmPort.popped
      else ((d.atC c).txHeld p).txTaken p ((d.atC c).tdmBoundaryOf c)).txDriven p := rfl

end

/-- What the port drives depends on its mask and its configuration alone. -/
theorem Dev.serves.tdmDrive {d e : Dev} {l w : List Nat} (h : d.serves e l w) {p : Nat} (hc : R.tdmCtrl p ∉ l) (hf : R.tdmFmt p ∉ l)
    (hm : e.lv (R.tdmSlotmask p) = d.lv (R.tdmSlotmask p)) (fr : List Nat) : e.tdmDrive p fr = d.tdmDrive p fr := by
  rw [Dev.tdmDrive, hm, h.tdmSlots hf, h.tdmWidth hf, h.lf _ _ hc, Dev.tdmDrive]

theorem Dev.serves.tdmBitsOf {d e : Dev} {l w : List Nat} (h : d.serves e l w) {p : Nat} (hf : R.tdmFmt p ∉ l) (ws : List (Option Nat)) :
    e.tdmBitsOf p ws = d.tdmBitsOf p ws := by
  rw [Dev.tdmBitsOf, h.tdmWidth hf, Dev.tdmBitsOf]

/-- The bits on the wire: with the data delay, behind the last one of the frame before. -/
def Dev.wired (d : Dev) (p : Nat) (bits : List (Option Bool)) : List (Option Bool) := if d.tdmDelay p then (d.tdmP p).tail :: bits.dropLast else bits

theorem txRegs_off {p : Nat} (k : Nat) (h : k < 8) : 0xF0000 + 256 * p + k ∉ [R.tdmStat p, R.tdmSlotmask p] := by
  simp only [List.mem_cons, List.not_mem_nil, or_false, R.tdmStat, R.tdmSlotmask]
  omega

section
variable (d : Dev) {p : Nat} (hp : p < 8) (hlen : p < d.tdm.length)
include hp hlen

/-- The device with one more frame sent. -/
def Dev.outTdm (d : Dev) (x : Nat × List (Option Nat)) : Dev := { d with out := { d.out with tdm := d.out.tdm ++ [x] } }

theorem Dev.txDriven_leaves : let e := d.txDriven p
    let ws := d.tdmDrive p (d.tdmP p).sent
    d.keeps e [R.tdmStat p] ∧ e.out = { d.out with tdm := d.out.tdm ++ [(p, ws)] } ∧ (e.tdmP p).tx = (d.tdmP p).tx ∧ (e.tdmP p).wire.bits = d.wired p (d.tdmBitsOf p ws) := by
  intro e ws
  obtain ⟨g, he, hg⟩ : ∃ g : TdmPort → TdmPort, e = ((d.outTdm (p, ws)).onTdm p g).tdmStat p ∧
      ∀ t, (g t).tx = t.tx ∧ (g t).wire.bits = if (d.outTdm (p, ws)).tdmDelay p then t.tail :: ((d.outTdm (p, ws)).tdmBitsOf p ws).dropLast
        else (d.outTdm (p, ws)).tdmBitsOf p ws := ⟨_, rfl, fun _ => ⟨rfl, rfl⟩⟩
  have hk1 : d.keeps (d.outTdm (p, ws)) [] := Dev.keeps_of_regs ⟨rfl, rfl, rfl⟩ _
  have ho1 : (d.outTdm (p, ws)).out = { d.out with tdm := d.out.tdm ++ [(p, ws)] } := rfl
  have ht1 : (d.outTdm (p, ws)).tdm = d.tdm := rfl
  rw [he]
  generalize d.outTdm (p, ws) = d1 at *
  have hlf (o lo n : Nat) : d1.lf o lo n = d.lf o lo n := by rw [Dev.lf, (hk1 o List.not_mem_nil).2, Dev.lf]
  have hdelay : d1.tdmDelay p = d.tdmDelay p := by rw [Dev.tdmDelay, hlf, hlf, Dev.tdmDelay]
  have hbits : d1.tdmBitsOf p ws = d.tdmBitsOf p ws := by rw [Dev.tdmBitsOf, Dev.tdmWidth, hlf, Dev.tdmBitsOf, Dev.tdmWidth]
  have hP2 := d1.tdmP_onTdm g (by rw [ht1]; exact hlen)
  have h2 : d1.serves (d1.onTdm p g) [R.tdmStat p] [] := .onTdm d1 p g
  generalize d1.onTdm p g = d2 at *
  obtain ⟨h3, ht3, -⟩ := d2.tdmStat_leaves hp
  have hP3 := (Dev.tdmP_congr ht3 p).trans hP2
  have hP1 := Dev.tdmP_congr ht1 p
  refine ⟨(hk1.mono (List.nil_subset _)).trans (h2.trans h3).keeps, (h2.trans h3).out.trans ho1, by rw [hP3, (hg _).1, hP1], ?_⟩
  rw [hP3, (hg _).2, hP1, hdelay, hbits, Dev.wired]

/-- The masks held are in use, and the rest of the port is as it was. -/
theorem Dev.txHeld_leaves (hw : ∀ w ∈ d.frameWr, w.port ≠ p) : let e := d.txHeld p
    d.serves e [R.tdmSlotmask p] [] ∧ e.lv (R.tdmSlotmask p) = d.lv (R.tdmSlotmask p) ∧ e.tdm.length = d.tdm.length ∧ ∃ n, e.tdmP p = { d.tdmP p with txAt := n } := by
  rw [Dev.txHeld]
  generalize d.frameAt p = n
  have h1 : d.serves (d.onTdm p (fun t => { t with txAt := n })) [] [] := .onTdm d p _
  have hP1 := d.tdmP_onTdm (fun t => { t with txAt := n }) hlen
  have hl1 := d.length_onTdm p (fun t => { t with txAt := n })
  have hw1 : (d.onTdm p (fun t => { t with txAt := n })).frameWr = d.frameWr := rfl
  generalize d.onTdm p (fun t => { t with txAt := n }) = d1 at *
  obtain ⟨h2, ht2⟩ := d1.frameApply_serves p (R.tdmSlotmask p) n (fltstat_ne hp (by simp only [R.tdmSlotmask]; omega))
  have hlv := d1.frameApply_none (R.tdmSlotmask p) n (by rw [hw1]; exact hw)
  exact ⟨(h1.mono (List.nil_subset _) (List.Subset.refl _)).trans h2, hlv.trans (h1.lv List.not_mem_nil), by rw [ht2, hl1], n, (Dev.tdmP_congr ht2 p).trans hP1⟩

omit hp in
theorem Dev.txTaken_leaves {b : Nat} (hb : (d.tdmP p).taken = b) (h0 : b ≠ 0) : let e := d.txTaken p b
    d.serves e [] [R.tdmCnt p 7] ∧ e.tdm.length = d.tdm.length ∧ (e.tdmP p).sent = (d.tdmP p).frame ∧ (e.tdmP p).tail = (d.tdmP p).tail := by
  have htake : d.tdmTake p b = d := if_pos ⟨hb, h0⟩
  rw [Dev.txTaken, htake]
  have h1 : d.serves (d.onTdm p (fun t => { t with sent := t.frame, sentB := some b })) [] [] := .onTdm d p _
  have hP1 := d.tdmP_onTdm (fun t => { t with sent := t.frame, sentB := some b }) hlen
  have hl1 := d.length_onTdm p (fun t => { t with sent := t.frame, sentB := some b })
  generalize d.onTdm p (fun t => { t with sent := t.frame, sentB := some b }) = d1 at *
  rw [Dev.tdmStale]
  obtain ⟨h2, ht2⟩ := d1.tdmCount_serves p 7 (((List.range (d1.tdmSlots p)).filter (fun sl => bit (d1.lv (R.tdmSlotmask p)) sl && !(d1.tdmP p).new.getD sl false)).length)
  refine ⟨(h1.mono (List.Subset.refl _) (List.nil_subset _)).trans h2, by rw [ht2, hl1], ?_, ?_⟩
  · rw [Dev.tdmP_congr ht2, hP1]
  · rw [Dev.tdmP_congr ht2, hP1]

end

/-- What a frame of words leaves once it has been sent. -/
def Dev.frameSent (d e : Dev) (p : Nat) (fr : List Nat) : Prop :=
  e.out = { d.out with tdm := d.out.tdm ++ [(p, d.tdmDrive p fr)] } ∧ (e.tdmP p).wire.bits = d.wired p (d.tdmBitsOf p (d.tdmDrive p fr)) ∧
    d.keeps e [R.tdmStat p, R.tdmSlotmask p]

theorem Dev.txDriven_sent {d d2 : Dev} {p : Nat} {w : List Nat} {fr : List Nat} (hp : p < 8) (h : d.serves d2 [R.tdmSlotmask p] w) (hlen : p < d2.tdm.length)
    (hm : d2.lv (R.tdmSlotmask p) = d.lv (R.tdmSlotmask p)) (hs : (d2.tdmP p).sent = fr) (ht : (d2.tdmP p).tail = (d.tdmP p).tail) : d.frameSent (d2.txDriven p) p fr := by
  have hc : R.tdmCtrl p ∉ [R.tdmSlotmask p] := fun hx => txRegs_off (p := p) 0 (by decide) (List.mem_cons_of_mem _ hx)
  have hf : R.tdmFmt p ∉ [R.tdmSlotmask p] := by
    intro hx
    have := List.mem_singleton.mp hx
    simp only [R.tdmFmt, R.tdmSlotmask] at this
    omega
  obtain ⟨hk, hout, -, hwire⟩ := d2.txDriven_leaves hp hlen
  rw [hs, h.tdmDrive hc hf hm] at hout hwire
  have hwired (bits : List (Option Bool)) : d2.wired p bits = d.wired p bits := by rw [Dev.wired, h.tdmDelay hf, ht, Dev.wired]
  refine ⟨hout.trans (by rw [h.out]), by rw [hwire, hwired, h.tdmBitsOf hf], ?_⟩
  exact (h.keeps.mono (by simp)).trans (hk.mono (by simp))

section
variable (d : Dev) {p : Nat} (c : Nat) (hp : p < 8) (hlen : p < d.tdm.length)

theorem Dev.tdmTx_idle (h : (d.tdmP p).started = false ∨ d.tdmMayStart p c = false) : d.tdmTx p c = d.atC c := by
  have hcond : (!((d.atC c).tdmP p).started || !(d.atC c).tdmMayStart p c) = true := by
    show (!(d.tdmP p).started || !d.tdmMayStart p c) = true
    rcases h with h | h <;> simp [h]
  rw [Dev.tdmTx_eq, if_pos hcond]

include hp hlen

/-- A master or a synchronous slave sends the words taken for the frame's boundary. -/
theorem Dev.tdmTx_taken (hon : (d.tdmP p).started = true) (hw : ∀ w ∈ d.frameWr, w.port ≠ p) (hm : d.tdmMode p ≠ 2) (hmay : d.tdmMayStart p c = true)
    (hb : (d.tdmP p).taken = d.tdmBoundaryOf c) (h0 : (d.tdmP p).taken ≠ 0) : d.frameSent (d.tdmTx p c) p (d.tdmP p).frame := by
  have hcond : ¬(!((d.atC c).tdmP p).started || !(d.atC c).tdmMayStart p c) = true := by
    show ¬(!(d.tdmP p).started || !d.tdmMayStart p c) = true
    simp [hon, hmay]
  have hm' : (d.atC c).tdmMode p ≠ 2 := hm
  have hbb : (d.atC c).tdmBoundaryOf c = d.tdmBoundaryOf c := rfl
  rw [Dev.tdmTx_eq, if_neg hcond, if_neg hm', hbb]
  obtain ⟨h1, hlv1, hl1, n, hP1⟩ := (d.atC c).txHeld_leaves hp hlen hw
  generalize (d.atC c).txHeld p = d1 at *
  obtain ⟨h2, hl2, hsent, htail⟩ := d1.txTaken_leaves (by rw [hl1]; exact hlen) (b := d.tdmBoundaryOf c) (by rw [hP1]; exact hb) (hb ▸ h0)
  generalize d1.txTaken p (d.tdmBoundaryOf c) = d2 at *
  have hs : (d.atC c).serves d2 [R.tdmSlotmask p] [R.tdmCnt p 7] := (h1.mono (List.Subset.refl _) (List.nil_subset _)).trans (h2.mono (List.nil_subset _) (List.Subset.refl _))
  exact Dev.txDriven_sent (d := d.atC c) hp hs (by rw [hl2, hl1]; exact hlen) ((h2.lv List.not_mem_nil).trans hlv1) (by rw [hsent, hP1]; rfl) (by rw [htail, hP1])

/-- A foreign-clock port sends the next frame of its buffer. -/
theorem Dev.tdmTx_popped {fr : SlipFrame} {rest : List SlipFrame} (hon : (d.tdmP p).started = true) (hw : ∀ w ∈ d.frameWr, w.port ≠ p) (hm : d.tdmMode p = 2)
    (hbuf : (d.tdmP p).tx.buf = fr :: rest) : ((d.tdmTx p c).tdmP p).tx.buf = rest ∧ d.frameSent (d.tdmTx p c) p fr.words := by
  have hmay : (d.atC c).tdmMayStart p c = true := by
    have hm' : (d.atC c).tdmMode p = 2 := hm
    rw [Dev.tdmMayStart, hm']
    rfl
  have hcond : ¬(!((d.atC c).tdmP p).started || !(d.atC c).tdmMayStart p c) = true := by
    rw [hmay, show ((d.atC c).tdmP p).started = true from hon]
    decide
  have hm' : (d.atC c).tdmMode p = 2 := hm
  rw [Dev.tdmTx_eq, if_neg hcond, if_pos hm']
  obtain ⟨h1, hlv1, hl1, n, hP1⟩ := (d.atC c).txHeld_leaves hp hlen hw
  generalize (d.atC c).txHeld p = d1 at *
  have hlen1 : p < d1.tdm.length := by rw [hl1]; exact hlen
  have hP2 := d1.tdmP_onTdm TdmPort.popped hlen1
  have h2 : d1.serves (d1.onTdm p TdmPort.popped) [] [] := .onTdm d1 p _
  have hlen2 : p < (d1.onTdm p TdmPort.popped).tdm.length := lt_of_lt_of_eq hlen1 (d1.length_onTdm p _).symm
  generalize d1.onTdm p TdmPort.popped = d2 at *
  have hpop : d2.tdmP p = { d1.tdmP p with tx := { (d1.tdmP p).tx with buf := rest }, sent := fr.words } := by
    have hb1 : (d1.tdmP p).tx.buf = fr :: rest := by rw [hP1]; exact hbuf
    rw [hP2, TdmPort.popped, hb1]
  obtain ⟨-, -, htx, -⟩ := d2.txDriven_leaves hp hlen2
  exact ⟨by rw [htx, hpop], Dev.txDriven_sent (d := d.atC c) hp (h1.trans (h2.mono (List.nil_subset _) (List.Subset.refl _))) hlen2
    ((h2.lv List.not_mem_nil).trans hlv1) (by rw [hpop]) (by rw [hpop, hP1])⟩

end

end Sys2Proof.Machine

/-!
PROOFS. The serial audio ports: the accesses of the tick side to the slip buffers, and returns to service.
-/
namespace Sys2Proof.Machine

/-! ## The transmit side -/

/-- What the leader's buffer decides for a write: its cause of a fade and its slip. -/
def Dev.txCheck (d : Dev) (p : Nat) : Option Nat × Option Nat := slipCheck (d.tdmP p).tx.fading (d.tdmP p).tx.buf.length (d.tdmP p).tx.since

/-- The fades that a write begins. -/
def Dev.txFades (d : Dev) (p : Nat) : Dev :=
  match (d.txCheck p).1 with
  | some cause => each (d.tdmGang p) (fun m d => if (d.tdmP m).tx.fading then d else d.tdmFadeStart m 1 cause) d
  | none => d

/-- The tick of the access noted. -/
def Dev.txMark (m : Nat) (d : Dev) : Dev := d.onTdm m (fun t => { t with tx := { t.tx with acc := some d.tick } })

/-- The write of one member's buffer. -/
def Dev.txStep (slip : Option Nat) (push : Nat) (over_ : Bool) (m : Nat) (d : Dev) : Dev :=
  let y := (d.tdmP m).tx
  let dec := (push, if y.fading then y.q - 1 else min (y.q + 1) (d.tdmF m))
  let z := y.write (d.tdmF m) (d.tdmP m).frame dec
  let d2 := d.onTdm m (fun t => { t with tx := { z with
    fading := y.fading && !over_
    since := if slip.isSome then 0 else min 64 (y.since + 1) } })
  let d3 := d2.slipEvents m 1 slip (push - 1) (b2n (push == 0)) (y.fading && over_)
  if d3.forwards then d3.mirSend (.locals (d3.tick + 1) [] [(m, dec.1, dec.2)]) else d3

theorem Dev.slipTx_eq (d0 : Dev) (p c : Nat) : d0.slipTx p c =
    let d := d0.atC c
    let d1 := d.txFades p
    let x := (d1.tdmP p).tx
    let push := (slipWrite (d1.tdmF p) (d.txCheck p).2 x).1
    let after := (x.write (d1.tdmF p) (d1.tdmP p).frame (push, 0)).buf.length
    if d.role == .shadow || d.role == .catchup then each (d.tdmGang p) Dev.txMark (each (d.tdmGang p) (fun m d => d.slipFollow m) d)
    else each (d.tdmGang p) Dev.txMark (each (d.tdmGang p) (Dev.txStep (d.txCheck p).2 push (x.fading && x.q - 1 == 0 && decide (4 ≤ after))) d1) := rfl

/-- A lease holder's forwarding depends on the pair alone. -/
theorem Dev.serves.forwards {d e : Dev} {l w : List Nat} (h : d.serves e l w) (h1 : R.pairCtrl ∉ l) (h2 : R.pairStat ∉ l) (h3 : R.pairRsstat ∉ l)
    (hw : R.pairSnap ∉ w) : e.forwards = d.forwards := by
  rw [Dev.forwards, Dev.paired, h.rf _ _ h1, Dev.role, h.rf _ _ h2, Dev.peerRole, h.pair, Dev.phase, h.rf _ _ h3, h.w64 hw, h.tick, Dev.forwards, Dev.paired,
    Dev.role, Dev.peerRole, Dev.phase]

theorem pairs_off {p : Nat} (hp : p < 8) {o : Nat} (h : o / 0x10000 ≠ 15) : o ∉ R.tdmStat p :: tdmFlts := by
  have hs : R.fltstat Blk.tdm = 0xF0810 := rfl
  have hf : R.fltfirst Blk.tdm = 0xF0814 := rfl
  rw [tdmFlts, hs, hf]
  simp only [R.tdmStat, List.mem_cons, List.not_mem_nil, or_false, not_or]
  omega

theorem pairSnap_off (p : Nat) {k : Nat} (hk : k < 8) : R.pairSnap ∉ [R.tdmCnt p k] := by
  simp only [List.mem_singleton, R.pairSnap, R.tdmCnt]
  omega

/-- The events of an access without a slip, a repeat, a drop or a return. -/
theorem Dev.slipEvents_calm (d : Dev) (p dir : Nat) : d.slipEvents p dir none 0 0 false = d.tdmStat p := by
  rw [Dev.slipEvents, Dev.tdmCount_none, Dev.tdmCount_none]
  rfl

/-- A direction in the middle of its buffer after a frame has been written. -/
def SlipDir.written (x : SlipDir) (fr : List Nat) (f : Nat) : SlipDir := { x with
  buf := x.buf ++ [{ words := frameScale fr (min (x.q + 1) f) f }]
  q := min (x.q + 1) f
  held := fr
  since := min 64 (x.since + 1)
  fading := false }

theorem SlipDir.write_one (x : SlipDir) (fr : List Nat) (f : Nat) (h : x.buf.length ≤ 5) : ({ x.write f fr (1, min (x.q + 1) f) with
    fading := false
    since := min 64 (x.since + 1) } : SlipDir) = x.written fr f := by
  have htake : (x.buf ++ [({ words := frameScale fr (min (x.q + 1) f) f } : SlipFrame)]).take 8 = x.buf ++ [{ words := frameScale fr (min (x.q + 1) f) f }] :=
    List.take_of_length_le (by
      rw [List.length_append, List.length_singleton]
      omega)
  rw [SlipDir.write, SlipDir.written]
  simp only [Nat.one_ne_zero, if_false, Nat.sub_self, List.replicate_zero, List.nil_append, List.map_cons, List.map_nil, htake]

section
variable (d : Dev) {p : Nat} (hp : p < 8) (hlen : p < d.tdm.length) (hfwd : d.forwards = false) (hfad : (d.tdmP p).tx.fading = false)
  (h5 : (d.tdmP p).tx.buf.length ≤ 5)
include hp hlen hfwd hfad h5

/-- The write of one member in the middle of its buffer. -/
theorem Dev.txStep_calm (b : Bool) : let e := d.txStep none 1 b p
    (e.tdmP p).tx = (d.tdmP p).tx.written (d.tdmP p).frame (d.tdmF p) ∧ d.serves e [R.tdmStat p] [] ∧ e.tdm.length = d.tdm.length := by
  intro e
  obtain ⟨g, m, hg, he⟩ : ∃ (g : TdmPort → TdmPort) (m : MirMsg), (∀ t, (g t).tx = { (d.tdmP p).tx.write (d.tdmF p) (d.tdmP p).frame
        (1, if (d.tdmP p).tx.fading then (d.tdmP p).tx.q - 1 else min ((d.tdmP p).tx.q + 1) (d.tdmF p)) with
          fading := (d.tdmP p).tx.fading && !b
          since := min 64 ((d.tdmP p).tx.since + 1) }) ∧
      e = if ((d.onTdm p g).slipEvents p 1 none 0 0 ((d.tdmP p).tx.fading && b)).forwards
        then ((d.onTdm p g).slipEvents p 1 none 0 0 ((d.tdmP p).tx.fading && b)).mirSend m
        else (d.onTdm p g).slipEvents p 1 none 0 0 ((d.tdmP p).tx.fading && b) := ⟨_, _, fun _ => rfl, rfl⟩
  have hg' (t : TdmPort) : (g t).tx = (d.tdmP p).tx.written (d.tdmP p).frame (d.tdmF p) := by
    rw [hg, hfad]
    exact SlipDir.write_one _ _ _ h5
  have hP1 := d.tdmP_onTdm g hlen
  have h1 : d.serves (d.onTdm p g) [R.tdmStat p] [] := .onTdm d p g
  have hl1 := d.length_onTdm p g
  rw [he, hfad, Bool.false_and, Dev.slipEvents_calm]
  generalize d.onTdm p g = d1 at *
  obtain ⟨h2, ht2, -⟩ := d1.tdmStat_leaves hp
  generalize d1.tdmStat p = d2 at *
  have hs := h1.trans h2
  have hoff {o : Nat} (h : o / 0x10000 ≠ 15) : o ∉ [R.tdmStat p] := fun hc => pairs_off hp h (List.mem_singleton.mp hc ▸ List.mem_cons_self)
  have hno : d2.forwards = false := (hs.forwards (hoff (by decide)) (hoff (by decide)) (hoff (by decide)) List.not_mem_nil).trans hfwd
  rw [hno, if_neg (by decide)]
  exact ⟨by rw [Dev.tdmP_congr ht2, hP1, hg'], hs, by rw [ht2, hl1]⟩

/-- A write in the middle of the buffer: the frame stands behind the others, at the gain's next position (R242, R243). -/
theorem Dev.slipTx_calm {c : Nat} (halone : d.tdmGang p = [p]) (hrole : d.role = .active) (h3 : 3 ≤ (d.tdmP p).tx.buf.length) : let e := d.slipTx p c
    (e.tdmP p).tx = { (d.tdmP p).tx.written (d.tdmP p).frame (d.tdmF p) with acc := some d.tick } ∧ d.keeps e [R.tdmStat p] := by
  intro e
  have hcheck : (d.atC c).txCheck p = (none, none) := by
    show slipCheck (d.tdmP p).tx.fading (d.tdmP p).tx.buf.length (d.tdmP p).tx.since = (none, none)
    rw [hfad, slipCheck, if_neg (by decide), if_neg (by omega), if_neg (by omega), if_neg (by omega), if_neg (by omega)]
  have hfades : (d.atC c).txFades p = d.atC c := by rw [Dev.txFades, hcheck]
  have hpush : (slipWrite ((d.atC c).tdmF p) none ((d.atC c).tdmP p).tx).1 = 1 := by
    have hx : ((d.atC c).tdmP p).tx.fading = false := hfad
    rw [slipWrite, hx]
    rfl
  have hgang : (d.atC c).tdmGang p = [p] := halone
  have hnot : ¬((d.atC c).role == .shadow || (d.atC c).role == .catchup) = true := by
    have hr : (d.atC c).role = .active := hrole
    rw [hr]
    decide
  obtain ⟨b, he⟩ : ∃ b, e = Dev.txMark p (Dev.txStep none 1 b p (d.atC c)) := by
    have h0 := d.slipTx_eq p c
    dsimp only at h0
    rw [hcheck, hfades, hpush, hgang, if_neg hnot] at h0
    exact ⟨_, h0⟩
  obtain ⟨htx, hs, hl⟩ := (d.atC c).txStep_calm hp hlen hfwd hfad h5 b
  rw [he]
  generalize Dev.txStep none 1 b p (d.atC c) = d1 at *
  have hP := d1.tdmP_onTdm (p := p) (fun t => { t with tx := { t.tx with acc := some d1.tick } }) (by rw [hl]; exact hlen)
  have hk : d1.serves (d1.onTdm p (fun t => { t with tx := { t.tx with acc := some d1.tick } })) [R.tdmStat p] [] := .onTdm d1 p _
  rw [Dev.txMark]
  refine ⟨?_, (hs.trans hk).keeps⟩
  rw [hP]
  show { (d1.tdmP p).tx with acc := some d1.tick } = _
  rw [htx, hs.tick]
  rfl

end

end Sys2Proof.Machine

/-!
PROOFS. The serial audio ports: the receive side of the slip buffers, and returns to service.
-/
namespace Sys2Proof.Machine

/-! ## The receive side -/

/-- What the leader's buffer decides for a read: its cause of a fade and its slip. -/
def Dev.rxCheck (d : Dev) (p : Nat) : Option Nat × Option Nat := slipCheck (d.tdmP p).rx.fading (d.tdmP p).rx.buf.length (d.tdmP p).rx.since

/-- The fades that a read begins. -/
def Dev.rxFades (d : Dev) (p : Nat) : Dev :=
  match (d.rxCheck p).1 with
  | some cause => each (d.tdmGang p) (fun m d => if (d.tdmP m).out || (d.tdmP m).rx.fading then d else d.tdmFadeStart m 0 cause) d
  | none => d

/-- The decision a member applies: its own while it is out of service. -/
def Dev.rxMine (d : Dev) (dec : SlipDec) (m : Nat) : SlipDec :=
  if (d.tdmP m).out then { slipDecide none { (d.tdmP m).rx with fading := true } with fading := true } else dec

/-- The read of one member's buffer, with the words through the filters. -/
def Dev.rxRead (d : Dev) (dec : SlipDec) (tick m : Nat) : Dev :=
  let r := (d.tdmP m).rx.read (d.tdmF m) (d.rxMine dec m)
  (d.onTdm m (fun t => { t with rx := { r.dir with acc := some tick } })).tdmFilter m r.dir.heldM r.out

/-- The read of one member's buffer with its events. -/
def Dev.rxStep (d : Dev) (slip : Option Nat) (dec : SlipDec) (tick m : Nat) : Dev :=
  (d.rxRead dec tick m).slipEvents m 0 (if (d.tdmP m).out then none else slip) ((d.tdmP m).rx.read (d.tdmF m) (d.rxMine dec m)).rep (d.rxMine dec m).drop
    ((d.tdmP m).rx.fading && !(d.rxMine dec m).fading)

theorem Sys.slipRx_eq (s0 : Sys) (p c : Nat) : s0.slipRx p c =
    let s := s0.onDev (fun d => d.atC c)
    let s1 := s.onDev (fun _ => s.dev.rxFades p)
    each (s.dev.tdmGang p) (fun m s' => ({ s' with dev := s'.dev.rxStep (s.dev.rxCheck p).2 (slipDecide (s.dev.rxCheck p).2 (s1.dev.tdmP p).rx) s.dev.tick m } : Sys).tdmWrite m []) s1 := rfl

theorem Sys.slipRx_alone (s : Sys) {p : Nat} (c : Nat) (halone : s.dev.tdmGang p = [p]) : s.slipRx p c =
    ({ s with dev := ((s.dev.atC c).rxFades p).rxStep (s.dev.rxCheck p).2 (slipDecide (s.dev.rxCheck p).2 (((s.dev.atC c).rxFades p).tdmP p).rx) s.dev.tick p } : Sys).tdmWrite p [] := by
  rw [Sys.slipRx_eq]
  dsimp only
  rw [show (s.onDev (fun d => d.atC c)).dev.tdmGang p = [p] from halone]
  rfl

/-! ## What a decision reads (R243) -/

section
variable (x : SlipDir) (f : Nat)

/-- The direction after its first frame `g` has been taken. -/
def SlipDir.taken (g : SlipFrame) (rest : List SlipFrame) : SlipDir := { x with
  buf := rest
  held := g.words
  heldM := g.mask
  q := min (x.q + 1) f
  since := min 64 (x.since + 1)
  fading := false }

/-- In the middle of the buffer the first frame is taken. -/
theorem SlipDir.read_middle {g : SlipFrame} {rest : List SlipFrame} (hb : x.buf = g :: rest) (hfad : x.fading = false) :
    x.read f (slipDecide none x) = ⟨x.taken f g rest, frameScale g.words (min (x.q + 1) f) f, 0⟩ ∧ (slipDecide none x).drop = 0 ∧ (slipDecide none x).fading = false := by
  have hdec : slipDecide none x = { num := some g.n, front := rest.head?.map (fun g => g.n), drop := 0, slip := false, fading := false } := by
    simp [slipDecide, hfad, hb, b2n]
  have hdrop : (g :: rest).dropWhile (fun y => y.n != g.n) = g :: rest := List.dropWhile_cons_of_neg (by simp)
  rw [hdec]
  refine ⟨?_, rfl, rfl⟩
  cases rest with
  | nil => simp [SlipDir.read, SlipDir.taken, hfad, hb]
  | cons h rest =>
    have hdrop' : (h :: rest).dropWhile (fun y => y.n != h.n) = h :: rest := List.dropWhile_cons_of_neg (by simp)
    simp [SlipDir.read, SlipDir.taken, hfad, hb]

/-- A repeat uses the held words again. -/
theorem SlipDir.read_repeat {g : SlipFrame} {rest : List SlipFrame} (hb : x.buf = g :: rest) (hfad : x.fading = false) :
    (x.read f (slipDecide (some 0) x)).dir.buf = x.buf ∧ (x.read f (slipDecide (some 0) x)).dir.since = 0 ∧ (x.read f (slipDecide (some 0) x)).rep = 1 ∧
      (slipDecide (some 0) x).drop = 0 := by
  have hdec : slipDecide (some 0) x = { num := none, front := some g.n, drop := 0, slip := true, fading := false } := by
    simp [slipDecide, hfad, hb, b2n]
  rw [hdec]
  simp [SlipDir.read, hfad, hb]

/-- A fade by an empty buffer goes on. -/
theorem SlipDir.read_fades (h1 : x.buf.length ≤ 1) (hfad : x.fading = true) (hover : x.overrun = false) :
    (x.read f (slipDecide none x)).dir.fading = true ∧ (slipDecide none x).drop = 0 := by
  have hdec : (slipDecide none x).fading = true ∧ (slipDecide none x).drop = 0 := by
    rw [slipDecide, if_pos hfad]
    extract_lets q num b cut b1
    have hcut : cut = 0 := if_neg (by simp [hover])
    have hb : b.length ≤ 1 := by
      by_cases hn : num.isSome = true
      · rw [show b = x.buf.drop 1 from if_pos hn, List.length_drop]
        omega
      · rw [show b = x.buf from if_neg hn]
        exact h1
    have hb1 : b1.length ≤ 1 := by
      rw [show b1 = b.drop cut from rfl, List.length_drop]
      omega
    have h4 : decide (4 ≤ b1.length) = false := decide_eq_false (by omega)
    exact ⟨by simp [h4], hcut⟩
  exact ⟨hdec.1, hdec.2⟩

end

/-! ## The read of one member -/

theorem Dev.slotSteps_rest (d : Dev) (p mask : Nat) (fr : List Nat) (t : TdmPort) (n : Nat) : ∃ h l, forN n (d.slotStep p mask fr) t = { t with
    hpf := h
    last := l } := by
  induction n with
  | zero => exact ⟨t.hpf, t.last, rfl⟩
  | succ n ih =>
    obtain ⟨h, l, he⟩ := ih
    obtain ⟨h', v, he', -⟩ := d.slotStep_leaves p mask fr n (forN n (d.slotStep p mask fr) t)
    rw [he] at he'
    exact ⟨h', updAt l n (fun _ => v), (show forN (n + 1) (d.slotStep p mask fr) t = d.slotStep p mask fr n (forN n (d.slotStep p mask fr) t) from rfl).trans (by rw [he, he'])⟩

section
variable (d : Dev) {p : Nat} (dec : SlipDec) (tick : Nat)

theorem Dev.rxRead_leaves (hlen : p < d.tdm.length) : let e := d.rxRead dec tick p
    d.serves e [] [] ∧ (e.tdmP p).rx = { ((d.tdmP p).rx.read (d.tdmF p) (d.rxMine dec p)).dir with acc := some tick } ∧ e.tdm.length = d.tdm.length := by
  rw [Dev.rxRead]
  generalize (d.tdmP p).rx.read (d.tdmF p) (d.rxMine dec p) = r
  have h1 : d.serves (d.onTdm p (fun t => { t with rx := { r.dir with acc := some tick } })) [] [] := .onTdm d p _
  have hP1 := d.tdmP_onTdm (fun t => { t with rx := { r.dir with acc := some tick } }) hlen
  have hl1 := d.length_onTdm p (fun t => { t with rx := { r.dir with acc := some tick } })
  dsimp only
  generalize d.onTdm p (fun t => { t with rx := { r.dir with acc := some tick } }) = d1 at *
  rw [Dev.tdmFilter_eq]
  obtain ⟨h, l, he⟩ := d1.slotSteps_rest p r.dir.heldM r.out (d1.tdmP p) 32
  have hP2 := d1.tdmP_onTdm (forN 32 (d1.slotStep p r.dir.heldM r.out)) (p := p) (by rw [hl1]; exact hlen)
  rw [he] at hP2
  exact ⟨h1.trans (.onTdm d1 p _), by rw [hP2, hP1], (d1.length_onTdm p _).trans hl1⟩

/-- The events of a repeat (R243). -/
theorem Dev.slipEvents_repeat (hp : p < 8) : let e := d.slipEvents p 0 (some 0) 1 0 false
    d.serves e (R.tdmStat p :: tdmFlts) [R.tdmCnt p 2] ∧ e.tdm = d.tdm ∧ d.counts e (R.tdmCnt p 2) 1 ∧ e.flag Blk.tdm Src.tdmSlip := by
  have he : d.slipEvents p 0 (some 0) 1 0 false = ((d.tdmCount p 2 1).raise Blk.tdm Src.tdmSlip p 0 0).tdmStat p := rfl
  rw [he]
  obtain ⟨h1, ht1⟩ := d.tdmCount_serves p 2 1
  have hc := d.tdmCount_one p 2
  generalize d.tdmCount p 2 1 = d1 at *
  obtain ⟨h2, ht2, hf⟩ := d1.tdmRaise_leaves Src.tdmSlip p 0 0 (by decide)
  generalize d1.raise Blk.tdm Src.tdmSlip p 0 0 = d2 at *
  obtain ⟨h3, ht3, -⟩ := d2.tdmStat_leaves hp
  refine ⟨((h1.mono (List.nil_subset _) (List.Subset.refl _)).trans (h2.mono (List.subset_cons_self _ _) (List.nil_subset _))).trans
    (h3.mono (by simp) (List.nil_subset _)), by rw [ht3, ht2, ht1], ?_, h3.flag (by decide) hf⟩
  rw [Dev.counts, h3.w64 List.not_mem_nil, h2.w64 List.not_mem_nil, hc]

/-- The events of an access that only repeats. -/
theorem Dev.slipEvents_reps (n : Nat) (hp : p < 8) : let e := d.slipEvents p 0 none n 0 false
    d.serves e [R.tdmStat p] [R.tdmCnt p 2] ∧ e.tdm = d.tdm := by
  have he : d.slipEvents p 0 none n 0 false = ((d.tdmCount p 2 n).tdmCount p 3 0).tdmStat p := rfl
  rw [he, Dev.tdmCount_none]
  obtain ⟨h1, ht1⟩ := d.tdmCount_serves p 2 n
  generalize d.tdmCount p 2 n = d1 at *
  obtain ⟨h3, ht3, -⟩ := d1.tdmStat_leaves hp
  exact ⟨(h1.mono (List.nil_subset _) (List.Subset.refl _)).trans (h3.mono (List.Subset.refl _) (List.nil_subset _)), by rw [ht3, ht1]⟩

end

/-! ## An access of the receive side -/

/-- The write of a port's words in a unit that forwards nothing. -/
theorem Sys.tdmWrite_alone (s : Sys) (p : Nat) (hfwd : s.dev.forwards = false) : let t := s.tdmWrite p []
    t.otp = s.otp ∧ t.dev.tdm = s.dev.tdm ∧ s.dev.keeps t.dev [] ∧ ∀ o, t.dev.w64 o = s.dev.w64 o := by
  obtain ⟨hotp, -, e, g, -, hdev⟩ := s.tdmWrite_leaves p []
  refine ⟨hotp, ?_⟩
  rw [hdev hfwd]
  exact ⟨rfl, s.dev.withEng_keeps e g, fun _ => rfl⟩

/-- What an access of the receive side leaves: the read of the buffer, and its events on top of the fades it begins. -/
theorem Sys.slipRx_leaves (s : Sys) {p : Nat} (c : Nat) (hp : p < 8) (hfwd : s.dev.forwards = false) (halone : s.dev.tdmGang p = [p]) {d : Dev} {w : List Nat}
    (he : ((s.dev.atC c).rxFades p).rxStep (s.dev.rxCheck p).2 (slipDecide (s.dev.rxCheck p).2 (((s.dev.atC c).rxFades p).tdmP p).rx) s.dev.tick p = d)
    (h : (s.dev.atC c).serves d (R.tdmStat p :: tdmFlts) w) (hw : R.pairSnap ∉ w) : let t := s.slipRx p c
    t.otp = s.otp ∧ t.dev.tdmP p = d.tdmP p ∧ d.keeps t.dev [] ∧ ∀ o, t.dev.w64 o = d.w64 o := by
  have hno : d.forwards = false := (h.forwards (pairs_off hp (by decide)) (pairs_off hp (by decide)) (pairs_off hp (by decide)) hw).trans hfwd
  intro t
  have ht : t = ({ s with dev := d } : Sys).tdmWrite p [] := by
    rw [show t = s.slipRx p c from rfl, s.slipRx_alone c halone, he]
  obtain ⟨hotp, htdm, hk, hw64⟩ := ({ s with dev := d } : Sys).tdmWrite_alone p hno
  rw [ht]
  exact ⟨hotp, Dev.tdmP_congr htdm p, hk, hw64⟩

section
variable (s : Sys) {p : Nat} (c : Nat) (hp : p < 8) (hlen : p < s.dev.tdm.length) (halone : s.dev.tdmGang p = [p]) (hfwd : s.dev.forwards = false)
  (hout : (s.dev.tdmP p).out = false)
include hp hlen halone hfwd hout

/-- A read in the middle of the buffer takes its first frame. -/
theorem Sys.slipRx_middle {g : SlipFrame} {rest : List SlipFrame} (hfad : (s.dev.tdmP p).rx.fading = false) (hb : (s.dev.tdmP p).rx.buf = g :: rest)
    (h2 : 2 ≤ rest.length) (h4 : rest.length ≤ 4) : let t := s.slipRx p c
    t.otp = s.otp ∧ (t.dev.tdmP p).rx.buf = rest ∧ (t.dev.tdmP p).rx.held = g.words ∧ (t.dev.tdmP p).rx.q = min ((s.dev.tdmP p).rx.q + 1) (s.dev.tdmF p) ∧
      s.dev.keeps t.dev [R.tdmStat p] := by
  have hlen' : (s.dev.tdmP p).rx.buf.length = rest.length + 1 := by rw [hb, List.length_cons]
  have hcheck : s.dev.rxCheck p = (none, none) := by
    rw [Dev.rxCheck, hfad, slipCheck, if_neg (by decide), if_neg (by omega), if_neg (by omega), if_neg (by omega), if_neg (by omega)]
  have hcheck' : (s.dev.atC c).rxCheck p = (none, none) := hcheck
  have hfades : (s.dev.atC c).rxFades p = s.dev.atC c := by rw [Dev.rxFades, hcheck']
  obtain ⟨hread, hdrop, hfade⟩ := (s.dev.tdmP p).rx.read_middle (s.dev.tdmF p) hb hfad
  have hmine : (s.dev.atC c).rxMine (slipDecide none (s.dev.tdmP p).rx) p = slipDecide none (s.dev.tdmP p).rx := if_neg (by
    rw [show ((s.dev.atC c).tdmP p).out = false from hout]
    decide)
  have hstep : (s.dev.atC c).rxStep none (slipDecide none (s.dev.tdmP p).rx) s.dev.tick p =
      ((s.dev.atC c).rxRead (slipDecide none (s.dev.tdmP p).rx) s.dev.tick p).tdmStat p := by
    rw [Dev.rxStep, hmine, show (s.dev.atC c).tdmP p = s.dev.tdmP p from rfl, show (s.dev.atC c).tdmF p = s.dev.tdmF p from rfl, hread, hdrop, hfad, hout]
    exact Dev.slipEvents_calm _ p 0
  obtain ⟨h1, hrx, hl1⟩ := (s.dev.atC c).rxRead_leaves (slipDecide none (s.dev.tdmP p).rx) s.dev.tick hlen
  rw [hmine, show (s.dev.atC c).tdmP p = s.dev.tdmP p from rfl, show (s.dev.atC c).tdmF p = s.dev.tdmF p from rfl, hread] at hrx
  generalize hd : (s.dev.atC c).rxRead (slipDecide none (s.dev.tdmP p).rx) s.dev.tick p = d1 at *
  obtain ⟨h2', ht2, -⟩ := d1.tdmStat_leaves hp
  have hall : (s.dev.atC c).serves (d1.tdmStat p) [R.tdmStat p] [] := (h1.mono (List.nil_subset _) (List.Subset.refl _)).trans h2'
  have hkeep : s.dev.keeps (d1.tdmStat p) [R.tdmStat p] := hall.keeps
  obtain ⟨hotp, hP, hk, -⟩ := s.slipRx_leaves c hp hfwd halone (by
    rw [hfades, hcheck]
    exact hstep) (hall.mono (by simp) (List.Subset.refl _)) List.not_mem_nil
  have hPd : (d1.tdmStat p).tdmP p = d1.tdmP p := Dev.tdmP_congr ht2 p
  rw [hPd] at hP
  exact ⟨hotp, by rw [hP, hrx]; rfl, by rw [hP, hrx]; rfl, by rw [hP, hrx]; rfl, hkeep.trans (hk.mono (List.nil_subset _))⟩

/-- A read at two frames, 64 after the last slip, repeats. -/
theorem Sys.slipRx_repeats (hfad : (s.dev.tdmP p).rx.fading = false) (hb : (s.dev.tdmP p).rx.buf.length = 2) (hsince : 64 ≤ (s.dev.tdmP p).rx.since) :
    let t := s.slipRx p c
    t.otp = s.otp ∧ (t.dev.tdmP p).rx.buf = (s.dev.tdmP p).rx.buf ∧ (t.dev.tdmP p).rx.since = 0 ∧ s.dev.counts t.dev (R.tdmCnt p 2) 1 ∧
      t.dev.flag Blk.tdm Src.tdmSlip ∧ s.dev.keeps t.dev (R.tdmStat p :: tdmFlts) := by
  have hcheck : s.dev.rxCheck p = (none, some 0) := by
    rw [Dev.rxCheck, hfad, slipCheck, if_neg (by decide), if_neg (by omega), if_neg (by omega), if_pos (by omega)]
  have hcheck' : (s.dev.atC c).rxCheck p = (none, some 0) := hcheck
  have hfades : (s.dev.atC c).rxFades p = s.dev.atC c := by rw [Dev.rxFades, hcheck']
  obtain ⟨g, rest, hgr⟩ : ∃ g rest, (s.dev.tdmP p).rx.buf = g :: rest := List.exists_cons_of_length_pos (by omega)
  obtain ⟨hbuf, hzero, hrep, hdrop⟩ := (s.dev.tdmP p).rx.read_repeat (s.dev.tdmF p) hgr hfad
  have hmine : (s.dev.atC c).rxMine (slipDecide (some 0) (s.dev.tdmP p).rx) p = slipDecide (some 0) (s.dev.tdmP p).rx := if_neg (by
    rw [show ((s.dev.atC c).tdmP p).out = false from hout]
    decide)
  have hstep : (s.dev.atC c).rxStep (some 0) (slipDecide (some 0) (s.dev.tdmP p).rx) s.dev.tick p =
      ((s.dev.atC c).rxRead (slipDecide (some 0) (s.dev.tdmP p).rx) s.dev.tick p).slipEvents p 0 (some 0) 1 0 false := by
    rw [Dev.rxStep, hmine, show (s.dev.atC c).tdmP p = s.dev.tdmP p from rfl, show (s.dev.atC c).tdmF p = s.dev.tdmF p from rfl, hrep, hdrop, hfad, hout]
    rfl
  obtain ⟨h1, hrx, hl1⟩ := (s.dev.atC c).rxRead_leaves (slipDecide (some 0) (s.dev.tdmP p).rx) s.dev.tick hlen
  rw [hmine, show (s.dev.atC c).tdmP p = s.dev.tdmP p from rfl, show (s.dev.atC c).tdmF p = s.dev.tdmF p from rfl] at hrx
  generalize (s.dev.atC c).rxRead (slipDecide (some 0) (s.dev.tdmP p).rx) s.dev.tick p = d1 at *
  obtain ⟨h2, ht2, hc2, hf2⟩ := d1.slipEvents_repeat hp
  generalize d1.slipEvents p 0 (some 0) 1 0 false = d2 at *
  have hall : (s.dev.atC c).serves d2 (R.tdmStat p :: tdmFlts) [R.tdmCnt p 2] := (h1.mono (List.nil_subset _) (List.nil_subset _)).trans h2
  have hkeep : s.dev.keeps d2 (R.tdmStat p :: tdmFlts) := hall.keeps
  have hcnt : s.dev.counts d2 (R.tdmCnt p 2) 1 := hc2.trans (by rw [h1.w64 List.not_mem_nil]; rfl)
  obtain ⟨hotp, hP, hk, hw64⟩ := s.slipRx_leaves c hp hfwd halone (by
    rw [hfades, hcheck]
    exact hstep) hall (pairSnap_off p (by decide))
  rw [Dev.tdmP_congr ht2] at hP
  refine ⟨hotp, ?_, ?_, (hw64 _).trans hcnt, (hk.rf List.not_mem_nil _ _).trans hf2, hkeep.trans (hk.mono (List.nil_subset _))⟩
  · rw [hP, hrx]
    exact hbuf
  · rw [hP, hrx]
    exact hzero

/-- A read at one frame or none begins a fade. -/
theorem Sys.slipRx_fades (hfad : (s.dev.tdmP p).rx.fading = false) (hb : (s.dev.tdmP p).rx.buf.length ≤ 1) : let t := s.slipRx p c
    t.otp = s.otp ∧ (t.dev.tdmP p).rx.fading = true ∧ s.dev.counts t.dev (R.tdmCnt p 6) 1 ∧ t.dev.flag Blk.tdm Src.tdmFade ∧
      s.dev.keeps t.dev (R.tdmStat p :: tdmFlts) := by
  have hcheck : s.dev.rxCheck p = (some 0, none) := by rw [Dev.rxCheck, hfad, slipCheck, if_neg (by decide), if_pos hb]
  have hcheck' : (s.dev.atC c).rxCheck p = (some 0, none) := hcheck
  have hgang : (s.dev.atC c).tdmGang p = [p] := halone
  have hfades : (s.dev.atC c).rxFades p = (s.dev.atC c).tdmFadeStart p 0 0 := by
    have hno : ¬(((s.dev.atC c).tdmP p).out || ((s.dev.atC c).tdmP p).rx.fading) = true := by
      show ¬((s.dev.tdmP p).out || (s.dev.tdmP p).rx.fading) = true
      rw [hout, hfad]
      decide
    rw [Dev.rxFades, hcheck', hgang]
    exact if_neg hno
  obtain ⟨h1, hf1, hc1⟩ := (s.dev.atC c).tdmFadeStart_serves 0 0 hp
  obtain ⟨hP1, hl1, -⟩ := (s.dev.atC c).tdmFadeStart_rx 0 hp hlen
  have hc1' : s.dev.counts ((s.dev.atC c).tdmFadeStart p 0 0) (R.tdmCnt p 6) 1 := hc1
  generalize (s.dev.atC c).tdmFadeStart p 0 0 = d1 at *
  have hout1 : (d1.tdmP p).out = false := by rw [hP1]; exact hout
  have hrx1 : (d1.tdmP p).rx = (s.dev.tdmP p).rx.fades 0 := by rw [hP1]; rfl
  obtain ⟨hfade, hdrop⟩ := (d1.tdmP p).rx.read_fades (d1.tdmF p) (by rw [hrx1]; exact hb) (by rw [hrx1]; rfl) (by rw [hrx1]; rfl)
  have hmine : d1.rxMine (slipDecide none (d1.tdmP p).rx) p = slipDecide none (d1.tdmP p).rx := if_neg (by
    rw [hout1]
    decide)
  have hdfade : (slipDecide none (d1.tdmP p).rx).fading = true := hfade
  have hstep : d1.rxStep none (slipDecide none (d1.tdmP p).rx) s.dev.tick p = (d1.rxRead (slipDecide none (d1.tdmP p).rx) s.dev.tick p).slipEvents p 0 none
      ((d1.tdmP p).rx.read (d1.tdmF p) (slipDecide none (d1.tdmP p).rx)).rep 0 false := by
    rw [Dev.rxStep, hmine, hdrop, hdfade, hout1, Bool.not_true, Bool.and_false]
    rfl
  obtain ⟨h2, hrx, hl2⟩ := d1.rxRead_leaves (slipDecide none (d1.tdmP p).rx) s.dev.tick (p := p) (by rw [hl1]; exact hlen)
  rw [hmine] at hrx
  generalize d1.rxRead (slipDecide none (d1.tdmP p).rx) s.dev.tick p = d2 at *
  obtain ⟨h3, ht3⟩ := d2.slipEvents_reps ((d1.tdmP p).rx.read (d1.tdmF p) (slipDecide none (d1.tdmP p).rx)).rep hp
  generalize d2.slipEvents p 0 none ((d1.tdmP p).rx.read (d1.tdmF p) (slipDecide none (d1.tdmP p).rx)).rep 0 false = d3 at *
  have h23 : d1.serves d3 [R.tdmStat p] [R.tdmCnt p 2] := (h2.mono (List.nil_subset _) (List.nil_subset _)).trans h3
  have hall : (s.dev.atC c).serves d3 (R.tdmStat p :: tdmFlts) [R.tdmCnt p 6, R.tdmCnt p 2] := (h1.mono (List.Subset.refl _) (by simp)).trans (h23.mono (by simp) (by simp))
  have hkeep : s.dev.keeps d3 (R.tdmStat p :: tdmFlts) := hall.keeps
  have h6 : R.tdmCnt p 6 ∉ [R.tdmCnt p 2] := by
    simp only [List.mem_singleton, R.tdmCnt]
    omega
  obtain ⟨hotp, hP, hk, hw64⟩ := s.slipRx_leaves c hp hfwd halone (by
    rw [hfades, hcheck]
    exact hstep) hall (by
      have h6 := pairSnap_off p (k := 6) (by decide)
      have h2 := pairSnap_off p (k := 2) (by decide)
      simp only [List.mem_singleton] at h6 h2
      simp [h6, h2])
  rw [Dev.tdmP_congr ht3] at hP
  refine ⟨hotp, by rw [hP, hrx]; exact hfade, (hw64 _).trans ((h23.w64 h6).trans hc1'), (hk.rf List.not_mem_nil _ _).trans (h23.flag (by decide) hf1),
    hkeep.trans (hk.mono (List.nil_subset _))⟩

end

/-! ## Returns to service (R241, R246) -/

section
variable (d : Dev) {p : Nat} (c : Nat) (hp : p < 8) (hlen : p < d.tdm.length)

theorem Dev.tdmAlignReturn_idle (h : (d.tdmP p).started = false ∨ d.tdmMode p ≠ 1 ∨ (d.tdmP p).out = false ∨ (d.tdmP p).good < 16) :
    d.tdmAlignReturn p c = d.atC c := by
  have hno : ¬((d.tdmP p).started && d.tdmMode p == 1 && (d.tdmP p).out && decide (16 ≤ (d.tdmP p).good)) = true := by
    simp only [Bool.and_eq_true, beq_iff_eq, decide_eq_true_eq]
    rintro ⟨⟨⟨h1, h2⟩, h3⟩, h4⟩
    rcases h with h | h | h | h
    · exact absurd (h1.symm.trans h) (by decide)
    · exact h h2
    · exact absurd (h3.symm.trans h) (by decide)
    · omega
  exact if_neg hno

theorem Dev.tdmGangRejoin_idle (h : (d.tdmP p).started = false ∨ d.tdmGanged p = false ∨ d.tdmLeader p = p ∨ (d.tdmP p).out = false ∨ (d.tdmP p).good < 16) :
    d.tdmGangRejoin p c = d.atC c := by
  have hno : ¬((d.tdmP p).started && d.tdmGanged p && d.tdmLeader p != p && (d.tdmP p).out && decide (16 ≤ (d.tdmP p).good)) = true := by
    simp only [Bool.and_eq_true, bne_iff_ne, ne_eq, decide_eq_true_eq]
    rintro ⟨⟨⟨⟨h1, h2⟩, h3⟩, h4⟩, h5⟩
    rcases h with h | h | h | h | h
    · exact absurd (h1.symm.trans h) (by decide)
    · exact absurd (h2.symm.trans h) (by decide)
    · exact h3 h
    · exact absurd (h4.symm.trans h) (by decide)
    · omega
  exact if_neg hno

include hp hlen

theorem Dev.tdmAlignReturn_returns (hon : (d.tdmP p).started = true) (hm : d.tdmMode p = 1) (hout : (d.tdmP p).out = true) (h16 : 16 ≤ (d.tdmP p).good) :
    let e := d.tdmAlignReturn p c
    (e.tdmP p).out = false ∧ (e.tdmP p).rx.fading = false ∧ e.flag Blk.tdm Src.tdmRampback ∧ d.keeps e (R.tdmStat p :: tdmFlts) := by
  have hyes : ((d.tdmP p).started && d.tdmMode p == 1 && (d.tdmP p).out && decide (16 ≤ (d.tdmP p).good)) = true := by simp [hon, hm, hout, h16]
  have he : d.tdmAlignReturn p c = (((d.atC c).onTdm p (fun t => { t with out := false, rx := { t.rx with fading := false } })).tdmBack p 0).tdmStat p := if_pos hyes
  rw [he]
  have hP1 := (d.atC c).tdmP_onTdm (fun t => { t with out := false, rx := { t.rx with fading := false } }) hlen
  have h1 : (d.atC c).serves ((d.atC c).onTdm p (fun t => { t with out := false, rx := { t.rx with fading := false } })) (R.tdmStat p :: tdmFlts) [] := .onTdm _ p _
  generalize (d.atC c).onTdm p (fun t => { t with out := false, rx := { t.rx with fading := false } }) = d1 at *
  obtain ⟨h2, ht2, hf⟩ := d1.tdmRaise_leaves Src.tdmRampback p 0 (d1.reg (R.tdmFcnt p)) (by decide)
  rw [Dev.tdmBack]
  generalize d1.raise Blk.tdm Src.tdmRampback p 0 (d1.reg (R.tdmFcnt p)) = d2 at *
  obtain ⟨h3, ht3, -⟩ := d2.tdmStat_leaves hp
  have hP := (Dev.tdmP_congr ht3 p).trans ((Dev.tdmP_congr ht2 p).trans hP1)
  have hall := (h1.trans (h2.mono (List.subset_cons_self _ _) (List.Subset.refl _))).trans (h3.mono (by simp) (List.Subset.refl _))
  have hk : d.keeps (d2.tdmStat p) (R.tdmStat p :: tdmFlts) := hall.keeps
  exact ⟨by rw [hP], by rw [hP], h3.flag (by decide) hf, hk⟩

/-- The member back in service. -/
def TdmPort.rejoined (lead : SlipDir) (t : TdmPort) : TdmPort := { t with
  out := false
  rx := { t.rx with
    fading := lead.fading
    buf := t.rx.buf.filter (fun g => lead.buf.any (fun k => k.n == g.n)) } }

theorem Dev.tdmGangRejoin_rejoins (hon : (d.tdmP p).started = true) (hg : d.tdmGanged p = true) (hl : d.tdmLeader p ≠ p) (hout : (d.tdmP p).out = true)
    (h16 : 16 ≤ (d.tdmP p).good) : let e := d.tdmGangRejoin p c
    (e.tdmP p).out = false ∧ e.reg (R.tdmFcnt p) = d.reg (R.tdmFcnt (d.tdmLeader p)) % 2 ^ 32 ∧ e.flag Blk.tdm Src.tdmGangRejoin ∧ e.flag Blk.tdm Src.tdmRampback ∧
      d.keeps e (R.tdmFcnt p :: R.tdmStat p :: tdmFlts) := by
  have hyes : ((d.tdmP p).started && d.tdmGanged p && d.tdmLeader p != p && (d.tdmP p).out && decide (16 ≤ (d.tdmP p).good)) = true := by
    simp [hon, hg, hl, hout, h16]
  obtain ⟨x, he⟩ : ∃ x, d.tdmGangRejoin p c = (((((d.atC c).onTdm p (TdmPort.rejoined ((d.atC c).tdmP ((d.atC c).tdmLeader p)).rx)).setReg (R.tdmFcnt p)
      (((d.atC c).onTdm p (TdmPort.rejoined ((d.atC c).tdmP ((d.atC c).tdmLeader p)).rx)).reg (R.tdmFcnt (d.tdmLeader p)))).raise Blk.tdm Src.tdmGangRejoin p
        (d.tdmLeader p) x).tdmBack p 0).tdmStat p := ⟨_, if_pos hyes⟩
  rw [he]
  have hout' (t : TdmPort) : (TdmPort.rejoined ((d.atC c).tdmP ((d.atC c).tdmLeader p)).rx t).out = false := rfl
  generalize TdmPort.rejoined ((d.atC c).tdmP ((d.atC c).tdmLeader p)).rx = g at *
  have hP1 := (d.atC c).tdmP_onTdm g hlen
  have h1 : (d.atC c).serves ((d.atC c).onTdm p g) (R.tdmFcnt p :: R.tdmStat p :: tdmFlts) [] := .onTdm _ p _
  have hn : ((d.atC c).onTdm p g).reg (R.tdmFcnt (d.tdmLeader p)) = d.reg (R.tdmFcnt (d.tdmLeader p)) := rfl
  rw [hn]
  generalize (d.atC c).onTdm p g = d1 at *
  generalize d.reg (R.tdmFcnt (d.tdmLeader p)) = n at *
  have h2 : d1.serves (d1.setReg (R.tdmFcnt p) n) (R.tdmFcnt p :: R.tdmStat p :: tdmFlts) [] :=
    .setReg d1 n (by simp) (fltstat_ne hp (by simp only [R.tdmFcnt]; omega))
  have hr2 : (d1.setReg (R.tdmFcnt p) n).reg (R.tdmFcnt p) = n % 2 ^ 32 := Dev.reg_setReg _ _ _
  have ht2 : (d1.setReg (R.tdmFcnt p) n).tdm = d1.tdm := Dev.setReg_tdm _ _ _
  generalize d1.setReg (R.tdmFcnt p) n = d2 at *
  have hflt : tdmFlts ⊆ R.tdmFcnt p :: R.tdmStat p :: tdmFlts := fun _ hx => List.mem_cons_of_mem _ (List.mem_cons_of_mem _ hx)
  have hno : R.tdmFcnt p ∉ tdmFlts := tdmFlts_ne hp (by simp only [R.tdmFcnt]; omega)
  obtain ⟨h3, ht3, hf3⟩ := d2.tdmRaise_leaves Src.tdmGangRejoin p (d.tdmLeader p) x (by decide)
  generalize d2.raise Blk.tdm Src.tdmGangRejoin p (d.tdmLeader p) x = d3 at *
  obtain ⟨h4, ht4, hf4⟩ := d3.tdmRaise_leaves Src.tdmRampback p 0 (d3.reg (R.tdmFcnt p)) (by decide)
  rw [Dev.tdmBack]
  generalize d3.raise Blk.tdm Src.tdmRampback p 0 (d3.reg (R.tdmFcnt p)) = d4 at *
  obtain ⟨h5, ht5, -⟩ := d4.tdmStat_leaves hp
  have hP : (d4.tdmStat p).tdmP p = g (d.tdmP p) := (Dev.tdmP_congr (ht5.trans (ht4.trans (ht3.trans ht2))) p).trans hP1
  have hst : R.tdmFcnt p ∉ [R.tdmStat p] := by
    simp only [List.mem_singleton, R.tdmFcnt, R.tdmStat]
    omega
  have hall := ((h1.trans h2).trans ((h3.trans h4).mono hflt (List.Subset.refl _))).trans (h5.mono (by simp) (List.Subset.refl _))
  have hk : d.keeps (d4.tdmStat p) (R.tdmFcnt p :: R.tdmStat p :: tdmFlts) := hall.keeps
  exact ⟨by rw [hP, hout'], by rw [h5.reg hst, h4.reg hno, h3.reg hno, hr2], h5.flag (by decide) (h4.flag (by decide) hf3), h5.flag (by decide) hf4, hk⟩

end

end Sys2Proof.Machine

/-!
PROOFS. The decimators' rows, and the rows of the serial ports and the decimators.
-/
namespace Sys2Proof.Machine

/-! ## Bits of a channel (R253) -/

section
variable (x : DecCh) (b : Bool)

theorem DecCh.bitSeen_same (h : x.lastB = b) : (x.bitSeen b).hit = (if decide (4096 ≤ min 4096 (x.same + 1)) && !x.stuck then some b else x.hit) ∧
    (x.bitSeen b).stuck = (x.stuck || (decide (4096 ≤ min 4096 (x.same + 1)) && !x.stuck)) := by
  simp only [DecCh.bitSeen, if_pos h, and_self]

/-- The 4,096th equal bit of a run is noticed, once. -/
theorem DecCh.bitSeen_hit (h : x.lastB = b) (hn : 4095 ≤ x.same) (hs : x.stuck = false) : (x.bitSeen b).hit = some b ∧ (x.bitSeen b).stuck = true := by
  obtain ⟨h1, h2⟩ := x.bitSeen_same b h
  have hd : decide (4096 ≤ min 4096 (x.same + 1)) = true := decide_eq_true (by omega)
  rw [h1, h2, hd, hs]
  exact ⟨rfl, rfl⟩

theorem DecCh.bitSeen_quiet (h : x.lastB = b) (hn : x.same < 4095 ∨ x.stuck = true) : (x.bitSeen b).hit = x.hit := by
  rw [(x.bitSeen_same b h).1]
  rcases hn with hn | hn
  · rw [decide_eq_false (by omega), Bool.false_and]
    rfl
  · rw [hn, Bool.not_true, Bool.and_false]
    rfl

theorem DecCh.bitSeen_other (h : x.lastB ≠ b) : (x.bitSeen b).same = 1 ∧ (x.bitSeen b).stuck = false ∧ (x.bitSeen b).hit = x.hit := by
  simp only [DecCh.bitSeen, if_neg h]
  exact ⟨trivial, rfl, rfl⟩

end

theorem Dev.decC_onDec (d : Dev) {ch : Nat} (f : DecCh → DecCh) (h : ch < d.dec.length) : (d.onDec ch f).decC ch = f (d.decC ch) := by
  rw [Dev.decC, Dev.decC]
  exact (getD_updAt _ _ _ _ _).trans (if_pos ⟨rfl, h⟩)

section
variable (d : Dev) {ch : Nat} (c : Nat)

theorem Dev.pdmStuckRow_idle (h : (d.decC ch).hit = none) : d.pdmStuckRow ch c = d.atC c := by
  have h' : ((d.atC c).decC ch).hit = none := h
  rw [Dev.pdmStuckRow]
  rw [h']

theorem Dev.pdmStuckRow_raises (hch : ch < 32) (hlen : ch < d.dec.length) {b : Bool} (h : (d.decC ch).hit = some b) : let e := d.pdmStuckRow ch c
    (e.decC ch).hit = none ∧ bit (e.reg R.pdmStuck) ch = true ∧ e.flag Blk.pdm Src.pdmStuck ∧ d.keeps e [R.pdmStuck, R.fltstat Blk.pdm, R.fltfirst Blk.pdm] := by
  have h' : ((d.atC c).decC ch).hit = some b := h
  have he : d.pdmStuckRow ch c = (((d.atC c).onDec ch (fun x => { x with hit := none })).setReg R.pdmStuck (bitSet ((d.atC c).reg R.pdmStuck) ch true)).raise
      Blk.pdm Src.pdmStuck ch (b2n b) (d.atC c).tickLo := by
    rw [Dev.pdmStuckRow]
    rw [h']
  rw [he]
  have hlt : bitSet ((d.atC c).reg R.pdmStuck) ch true < 2 ^ 32 := bitSet_lt true (Dev.reg_lt _ _) hch
  have hD := (d.atC c).decC_onDec (fun x => { x with hit := none }) hlen
  have hk0 : d.keeps ((d.atC c).onDec ch (fun x => { x with hit := none })) [] := Dev.keeps_of_regs ⟨rfl, rfl, rfl⟩ _
  generalize (d.atC c).onDec ch (fun x => { x with hit := none }) = d1 at *
  generalize hv : bitSet ((d.atC c).reg R.pdmStuck) ch true = v at *
  have hbit : bit v ch = true := by rw [← hv, bit_bitSet_same]
  have hr2 : (d1.setReg R.pdmStuck v).reg R.pdmStuck = v := (Dev.reg_setReg _ _ _).trans (Nat.mod_eq_of_lt hlt)
  have hd2 : (d1.setReg R.pdmStuck v).dec = d1.dec := Dev.setReg_dec _ _ _
  have hk2 : d1.keeps (d1.setReg R.pdmStuck v) [R.pdmStuck, R.fltstat Blk.pdm, R.fltfirst Blk.pdm] := d1.keeps_setReg _ _ (by simp)
  generalize d1.setReg R.pdmStuck v = d2 at *
  have hm3 : d2.marks (d2.raise Blk.pdm Src.pdmStuck ch (b2n b) (d.atC c).tickLo) [R.fltstat Blk.pdm, R.fltfirst Blk.pdm] [] := .raise d2 _ _ _ _ _ (by simp) (by simp)
  have hd3 : (d2.raise Blk.pdm Src.pdmStuck ch (b2n b) (d.atC c).tickLo).dec = d2.dec := Dev.raise_dec _ _ _ _ _ _
  refine ⟨?_, ?_, Dev.flag_raise _ _ _ _ _ _ (by decide), ((hk0.mono (List.nil_subset _)).trans hk2).trans (hm3.keeps.mono (by simp))⟩
  · rw [Dev.decC, hd3, hd2, ← Dev.decC, hD]
  · rw [hm3.reg (by decide), hr2, hbit]

theorem Dev.decSettled_idle (h : (d.decC ch).runs = false ∨ d.decState ch ≠ 1 ∨ (d.decC ch).setB = false) : d.decSettled ch c = d.atC c := by
  have hno : ¬((d.decC ch).runs && d.decState ch == 1 && (d.decC ch).setB) = true := by
    simp only [Bool.and_eq_true, beq_iff_eq]
    rintro ⟨⟨h1, h2⟩, h3⟩
    rcases h with h | h | h
    · exact absurd (h1.symm.trans h) (by decide)
    · exact h h2
    · exact absurd (h3.symm.trans h) (by decide)
  exact if_neg hno

theorem Dev.decSettled_settles (hch : ch < 32) (hr : (d.decC ch).runs = true) (hs : d.decState ch = 1) (hb : (d.decC ch).setB = true) : let e := d.decSettled ch c
    e.decState ch = 2 ∧ e.flag Blk.dec Src.decSettled ∧ e.dec = d.dec ∧ d.keeps e [R.decStat ch, R.fltstat Blk.dec, R.fltfirst Blk.dec] := by
  have hyes : ((d.decC ch).runs && d.decState ch == 1 && (d.decC ch).setB) = true := by simp [hr, hs, hb]
  have he : d.decSettled ch c = ((d.atC c).setFld (R.decStat ch) 0 3 2).raise Blk.dec Src.decSettled ch (d.atC c).tickLo 0 := if_pos hyes
  rw [he]
  have hne : R.decStat ch ≠ R.fltstat Blk.dec ∧ R.decStat ch ≠ R.fltfirst Blk.dec := by
    have hall : ∀ k < 32, R.decStat k ≠ R.fltstat Blk.dec ∧ R.decStat k ≠ R.fltfirst Blk.dec := by decide
    exact hall ch hch
  have hk1 : d.keeps ((d.atC c).setFld (R.decStat ch) 0 3 2) [R.decStat ch, R.fltstat Blk.dec, R.fltfirst Blk.dec] := (d.atC c).keeps_setFld _ _ _ _ (by simp)
  have hr1 : ((d.atC c).setFld (R.decStat ch) 0 3 2).rf (R.decStat ch) 0 3 = 2 := Dev.rf_setFld _ _ _ _ _ (by decide)
  have hd1 : ((d.atC c).setFld (R.decStat ch) 0 3 2).dec = d.dec := Dev.setFld_dec _ _ _ _ _
  generalize (d.atC c).setFld (R.decStat ch) 0 3 2 = d1 at *
  have hm2 : d1.marks (d1.raise Blk.dec Src.decSettled ch (d.atC c).tickLo 0) [R.fltstat Blk.dec, R.fltfirst Blk.dec] [] := .raise d1 _ _ _ _ _ (by simp) (by simp)
  exact ⟨(hm2.rf _ _ (by simp [hne])).trans hr1, Dev.flag_raise _ _ _ _ _ _ (by decide), (Dev.raise_dec _ _ _ _ _ _).trans hd1, hk1.trans (hm2.keeps.mono (by simp))⟩

end

/-! ## Accesses and frames that do not come -/

/-- An access of a foreign-clock port is due. -/
def Dev.slipDue (d : Dev) (p c : Nat) (x : SlipDir) : Prop := d.tdmDue p = true ∧ c ≤ 512 ∧ x.acc ≠ some d.tick

section
variable (s : Sys) {p : Nat} (dir : Nat) (c : Nat)

theorem Sys.slipAccess_cond : ((s.dev.tdmP p).started && s.dev.tdmMode p == 2 && s.dev.tdmLeader p == p && s.dev.tdmDue p && decide (c ≤ capBy) &&
      (if dir = 0 then (s.dev.tdmP p).rx else (s.dev.tdmP p).tx).acc != some s.dev.tick) = true ↔
    (s.dev.tdmP p).started = true ∧ s.dev.tdmMode p = 2 ∧ s.dev.tdmLeader p = p ∧ s.dev.slipDue p c (if dir = 0 then (s.dev.tdmP p).rx else (s.dev.tdmP p).tx) := by
  rw [Dev.slipDue, show capBy = 512 from rfl]
  simp only [Bool.and_eq_true, beq_iff_eq, bne_iff_ne, ne_eq, decide_eq_true_eq, and_assoc]

theorem Sys.slipAccess_idle (h : ¬((s.dev.tdmP p).started = true ∧ s.dev.tdmMode p = 2 ∧ s.dev.tdmLeader p = p ∧
    s.dev.slipDue p c (if dir = 0 then (s.dev.tdmP p).rx else (s.dev.tdmP p).tx))) : s.slipAccess p dir c = s.onDev (fun d => d.atC c) :=
  if_neg (fun hc => h ((s.slipAccess_cond dir c).mp hc))

theorem Sys.slipAccess_read (hon : (s.dev.tdmP p).started = true) (hm : s.dev.tdmMode p = 2) (hl : s.dev.tdmLeader p = p) (hdue : s.dev.slipDue p c (s.dev.tdmP p).rx) :
    s.slipAccess p 0 c = s.slipRx p c := if_pos ((s.slipAccess_cond 0 c).mpr ⟨hon, hm, hl, hdue⟩)

theorem Sys.slipAccess_write (hon : (s.dev.tdmP p).started = true) (hm : s.dev.tdmMode p = 2) (hl : s.dev.tdmLeader p = p) (hdue : s.dev.slipDue p c (s.dev.tdmP p).tx) :
    s.slipAccess p 1 c = s.onDev (fun d => d.slipTx p c) := if_pos ((s.slipAccess_cond 1 c).mpr ⟨hon, hm, hl, hdue⟩)

end

theorem Dev.tdmMissingFrame_idle (d : Dev) {p : Nat} (bclks c : Nat) (h : (d.tdmP p).started = false ∨ d.tdmMode p = 0) : d.tdmMissingFrame p bclks c = d.atC c :=
  if_neg (fun hc : (d.tdmP p).started = true ∧ d.tdmMode p ≠ 0 => by
    rcases h with h | h
    · exact absurd (hc.1.symm.trans h) (by decide)
    · exact hc.2 h)

theorem Dev.tdmMissingFrame_counts (d : Dev) {p : Nat} (bclks c : Nat) (hon : (d.tdmP p).started = true) (hm : d.tdmMode p ≠ 0) :
    d.tdmMissingFrame p bclks c = (d.atC c).tdmMissing p bclks := if_pos (show (d.tdmP p).started = true ∧ d.tdmMode p ≠ 0 from ⟨hon, hm⟩)

/-- What a port drives in a slot (R240). -/
theorem Dev.tdmDrive_slot (d : Dev) (p : Nat) (fr : List Nat) {sl : Nat} (h : sl < d.tdmSlots p) : (d.tdmDrive p fr)[sl]? = some (if bit (d.lv (R.tdmSlotmask p)) sl = true then
    some (if d.tdmWidth p = 16 then fr.getD sl 0 / 65536 else fr.getD sl 0) else if d.lf (R.tdmCtrl p) 0 1 = 1 then none else some 0) := by
  rw [Dev.tdmDrive]
  simp only [List.getElem?_map, List.getElem?_range h, Option.map_some]

end Sys2Proof.Machine

/-!
PROOFS. The rows of the serial ports and the decimators.
-/
namespace Sys2Proof.Machine

theorem exec_tickRow_at {z : State} {i : Instr} {f : Sys → Sys} {c : Nat} (hi : exec i z = z.tickRow f) (hrun : z.Running)
    (h : f z.sys = z.sys.onDev (fun d => d.atC c)) : exec i z = .next (z.onDev (fun d => d.atC c)) := by
  rw [exec_tickRow hi hrun, h]
  rfl

/-- Settles O56: each row of the serial ports and the decimators, through the lemma that says what its operation leaves. -/
theorem serialPortsAndDecimators : Obligations.SerialPortsAndDecimators := by
  intro z p c hrun hp htdm hdec d t f same flts alone wired due
  have hlen : p < z.sys.dev.tdm.length := lt_of_lt_of_eq hp htdm.symm
  have hrx (words : List Nat) (bclks : Nat) (off : Int) (near : Bool) :
      exec (.tdmFrameRx p words bclks off near c) z = z.tickRow (fun s => s.tdmRx p words bclks off near c) := rfl
  have hacc (dir : Nat) : exec (.slipAccess p dir c) z = z.tickRow (fun s => s.slipAccess p dir c) := rfl
  refine ⟨fun hoff => ⟨fun words bclks off near => ?_, ?_, fun bclks => ?_, fun dir => ?_, ?_, ?_⟩, fun hon => ⟨fun words bclks off near => ⟨fun hm h => ?_, ?_, ?_, ?_, ?_⟩,
    fun h => ?_, fun hw => ⟨fun hm hmay hb h0 => ?_, fun fr rest hm hbuf => ?_⟩, fun fr sl hsl => d.tdmDrive_slot p fr hsl,
    fun bclks => ⟨fun hm => ?_, fun hm hal hfad => ?_⟩, fun h dir => ?_, fun h => ?_, fun h => ?_,
    fun hm hl hal hrole hfwd => ⟨fun hdue hfad h3 h5 => ?_, fun g rest hdue hout hfad hb h2 h4 => ?_, fun hdue hout hfad hb hs => ?_, fun hdue hout hfad hb => ?_⟩,
    fun hm hout h16 => ?_, fun h => ?_, fun hg hl hout h16 => ?_, fun h => ?_⟩, fun ch hch => ?_⟩
  · exact exec_tickRow_at (hrx ..) hrun (z.sys.tdmRx_idle words bclks off near c (.inl hoff))
  · exact exec_tickRow_still (f := fun d => d.tdmTx p c) rfl hrun (d.tdmTx_idle c (.inl hoff))
  · exact exec_tickRow_still (f := fun d => d.tdmMissingFrame p bclks c) rfl hrun (d.tdmMissingFrame_idle bclks c (.inl hoff))
  · exact exec_tickRow_at (hacc dir) hrun (z.sys.slipAccess_idle dir c (fun h => absurd (h.1.symm.trans hoff) (by decide)))
  · exact exec_tickRow_still (f := fun d => d.tdmAlignReturn p c) rfl hrun (d.tdmAlignReturn_idle c (.inl hoff))
  · exact exec_tickRow_still (f := fun d => d.tdmGangRejoin p c) rfl hrun (d.tdmGangRejoin_idle c (.inl hoff))
  · exact exec_tickRow_at (hrx ..) hrun (z.sys.tdmRx_idle words bclks off near c (.inr ⟨hm, h⟩))
  · intro hm hc hdue hl hout hfresh hlast hq hinv base
    obtain ⟨hotp, hcnt, hfcnt, hqq, hmem, hslot, hmask⟩ := z.sys.tdmRx_master words bclks off near hp hlen hon hm hc hdue hl hout hfresh hlast hq hinv
    exact leadsSys_of_tickRow (hrx ..) hrun hotp ⟨hcnt, hfcnt, hqq, hmem, hslot, fun sl h32 _ => hmask sl h32⟩
  · intro hm hoff
    have hbad : d.rxBad p off = true := by
      have hs : d.rxStart p off = off := if_neg (by omega)
      rw [Dev.rxBad, hs, hm]
      rcases hoff with h | h
      · rw [decide_eq_true h]
        rfl
      · rw [decide_eq_true h, Bool.or_true]
        rfl
    have he := z.sys.tdmRx_missed words bclks off near c hon (show d.tdmMode p ≠ 0 by omega) (.inl hbad)
    obtain ⟨hf, hcnt, hfs, hal⟩ := (d.atC c).rxMissed_leaves off hp bclks
    refine ⟨_, exec_tickRow (hrx ..) hrun, by rw [he]; exact ⟨rfl, rfl, rfl⟩, ?_⟩
    rw [he]
    refine ⟨hal hbad, hf, hcnt, fun hr => hfs.trans ?_⟩
    have hs : (d.atC c).rxStart p off = off := if_neg (show ¬d.tdmMode p = 0 by omega)
    rw [hs, clampI]
    congr 1
    omega
  · intro hm hb
    have he := z.sys.tdmRx_missed words bclks off near c hon hm (.inr hb)
    obtain ⟨hf, hcnt, -⟩ := (d.atC c).rxMissed_leaves off hp bclks
    refine ⟨_, exec_tickRow (hrx ..) hrun, by rw [he]; exact ⟨rfl, rfl, rfl⟩, ?_⟩
    rw [he]
    exact ⟨hf, hcnt⟩
  · intro hm hb hwid hnear hroom
    have he := z.sys.tdmRx_buffered words bclks off near c hon hm hb
    obtain ⟨hcnt, hgood, g, hbuf, hwords, hn⟩ := (d.atC c).rxBuffered_leaves words off near hp hlen hnear hroom
    refine ⟨_, exec_tickRow (hrx ..) hrun, by rw [he]; exact ⟨rfl, rfl, rfl⟩, ?_⟩
    rw [he]
    exact ⟨hcnt, hgood, g, hbuf, hwords.trans ((d.atC c).wordsIn_wide words hwid), hn⟩
  · exact exec_tickRow_still (f := fun d => d.tdmTx p c) rfl hrun (d.tdmTx_idle c (.inr h))
  · obtain ⟨hout, hwire, hk⟩ := d.tdmTx_taken c hp hlen hon hw hm hmay hb h0
    exact leads_of_tickRow (f := fun d => d.tdmTx p c) rfl hrun ⟨hout, hwire, hk⟩
  · obtain ⟨hbuf', hout, hwire, hk⟩ := d.tdmTx_popped c hp hlen hon hw hm hbuf
    exact leads_of_tickRow (f := fun d => d.tdmTx p c) rfl hrun ⟨hbuf', hout, hwire, hk⟩
  · exact exec_tickRow_still (f := fun d => d.tdmMissingFrame p bclks c) rfl hrun (d.tdmMissingFrame_idle bclks c (.inr hm))
  · refine leads_of_tickRow (f := fun d => d.tdmMissingFrame p bclks c) rfl hrun ?_
    rw [d.tdmMissingFrame_counts bclks c hon hm]
    obtain ⟨h1, h2, h3, h4, h5, h6, h7, h8⟩ := (d.atC c).tdmMissing_fades bclks hp hlen hal hfad hon
    exact ⟨h1, h2, h3, h4, h5, h6, h7, h8⟩
  · exact exec_tickRow_at (hacc dir) hrun (z.sys.slipAccess_idle dir c (fun hc => h.elim (fun h => h hc.2.1) (fun h => h hc.2.2.1)))
  · exact exec_tickRow_at (hacc 0) hrun (z.sys.slipAccess_idle 0 c (fun hc => h hc.2.2.2))
  · exact exec_tickRow_at (hacc 1) hrun (z.sys.slipAccess_idle 1 c (fun hc => h hc.2.2.2))
  · have he := z.sys.slipAccess_write c hon hm hl hdue
    refine ⟨_, exec_tickRow (hacc 1) hrun, by rw [he]; exact ⟨rfl, rfl, rfl⟩, ?_⟩
    rw [he]
    exact d.slipTx_calm hp hlen hfwd hfad h5 hal hrole h3
  · have he := z.sys.slipAccess_read c hon hm hl hdue
    obtain ⟨hotp, hbuf, hheld, hq, hk⟩ := z.sys.slipRx_middle c hp hlen hal hfwd hout hfad hb h2 h4
    rw [← he] at hotp hbuf hheld hq hk
    exact leadsSys_of_tickRow (hacc 0) hrun hotp ⟨hbuf, hheld, hq, hk⟩
  · have he := z.sys.slipAccess_read c hon hm hl hdue
    obtain ⟨hotp, hbuf, hsince, hcnt, hf, hk⟩ := z.sys.slipRx_repeats c hp hlen hal hfwd hout hfad hb hs
    rw [← he] at hotp hbuf hsince hcnt hf hk
    exact leadsSys_of_tickRow (hacc 0) hrun hotp ⟨hbuf, hsince, hcnt, hf, hk⟩
  · have he := z.sys.slipAccess_read c hon hm hl hdue
    obtain ⟨hotp, hfade, hcnt, hf, hk⟩ := z.sys.slipRx_fades c hp hlen hal hfwd hout hfad hb
    rw [← he] at hotp hfade hcnt hf hk
    exact leadsSys_of_tickRow (hacc 0) hrun hotp ⟨hfade, hcnt, hf, hk⟩
  · exact leads_of_tickRow (f := fun d => d.tdmAlignReturn p c) rfl hrun (d.tdmAlignReturn_returns c hp hlen hon hm hout h16)
  · exact exec_tickRow_still (f := fun d => d.tdmAlignReturn p c) rfl hrun (d.tdmAlignReturn_idle c (.inr h))
  · exact leads_of_tickRow (f := fun d => d.tdmGangRejoin p c) rfl hrun (d.tdmGangRejoin_rejoins c hp hlen hon hg hl hout h16)
  · exact exec_tickRow_still (f := fun d => d.tdmGangRejoin p c) rfl hrun (d.tdmGangRejoin_idle c (.inr h))
  · intro x
    have hlenC : ch < d.dec.length := lt_of_lt_of_eq hch hdec.symm
    refine ⟨fun b => ⟨x.bitSeen_hit b, x.bitSeen_quiet b, x.bitSeen_other b⟩, fun b hb => ?_, fun h => ?_, fun hr hs hset => ?_, fun h => ?_⟩
    · exact leads_of_tickRow (f := fun d => d.pdmStuckRow ch c) rfl hrun (d.pdmStuckRow_raises c hch hlenC hb)
    · exact exec_tickRow_still (f := fun d => d.pdmStuckRow ch c) rfl hrun (d.pdmStuckRow_idle c h)
    · exact leads_of_tickRow (f := fun d => d.decSettled ch c) rfl hrun (d.decSettled_settles c hch hr hs hset)
    · exact exec_tickRow_still (f := fun d => d.decSettled ch c) rfl hrun (d.decSettled_idle c h)

end Sys2Proof.Machine

/-!
PROOFS. The endpoint: its link, PERST_N, and the closing of an issue as the endpoint's registers see it.
-/
namespace Sys2Proof.Machine

namespace Dev.marks
variable {l w : List Nat}

theorem onPcie (d : Dev) (f : Pcie → Pcie) : d.marks (d.onPcie f) l w :=
  ⟨⟨_, _, _, _, _, _, _, _, rfl⟩, Dev.keeps_of_regs ⟨rfl, rfl, rfl⟩ l, fun _ _ => rfl⟩

theorem msixFlush (d : Dev) : d.marks d.msixFlush l w :=
  .foldl _ _ (fun v _ e => .ite (fun _ => onPcie e (fun p => { p with msixPend := bitSet p.msixPend v false, sent := p.sent ++ [v] })) (fun _ => .refl e)) d

end Dev.marks

/-- The registers of the fault path of the endpoint. -/
def pcieFlts : List Nat := [R.fltstat Blk.pcie, R.fltfirst Blk.pcie]

section
variable (d : Dev)

/-! ## The link -/

theorem Dev.pcieLinkUp_idle {width speed c : Nat}
    (h : ¬(d.rf R.pcieStat 0 1 = 0 ∧ d.pcie.clkreq = true ∧ (1 ≤ width ∧ width ≤ 2) ∧ (1 ≤ speed ∧ speed ≤ 3))) : d.pcieLinkUp width speed c = d := by
  refine if_pos ?_
  have hbit : d.rf R.pcieStat 0 1 < 2 := Nat.mod_lt _ (by decide)
  by_contra hc
  refine h ?_
  simp only [not_or, Bool.not_eq_true, Bool.not_eq_false', decide_eq_true_eq, Bool.decide_and, Bool.and_eq_true] at hc
  obtain ⟨h1, h2, h3, h4⟩ := hc
  exact ⟨by omega, h2, h3, h4⟩

theorem Dev.pcieLinkUp_leaves {width speed : Nat} (c : Nat) (hdown : d.rf R.pcieStat 0 1 = 0) (hclk : d.pcie.clkreq = true) (hw : 1 ≤ width ∧ width ≤ 2)
    (hs : 1 ≤ speed ∧ speed ≤ 3) : let e := d.pcieLinkUp width speed c
    e.rf R.pcieStat 0 1 = 1 ∧ e.rf R.pcieStat 2 2 = width ∧ e.rf R.pcieStat 4 2 = speed ∧ e.flag Blk.pcie Src.pcieLinkUp := by
  have he : d.pcieLinkUp width speed c = (((((d.atC c).setFld R.pcieStat 0 1 1).setFld R.pcieStat 2 2 width).setFld R.pcieStat 4 2 speed).raise Blk.pcie
      Src.pcieLinkUp width speed d.tickLo).msixFlush := if_neg (by simp [hdown, hclk, hw, hs])
  have h0 : ((((d.atC c).setFld R.pcieStat 0 1 1).setFld R.pcieStat 2 2 width).setFld R.pcieStat 4 2 speed).rf R.pcieStat 0 1 = 1 := by
    rw [Dev.rf_setFld_lo (h := by decide) (h32 := by decide), Dev.rf_setFld_lo (h := by decide) (h32 := by decide), Dev.rf_setFld _ _ _ _ _ (by decide)]
    rfl
  have h2 : ((((d.atC c).setFld R.pcieStat 0 1 1).setFld R.pcieStat 2 2 width).setFld R.pcieStat 4 2 speed).rf R.pcieStat 2 2 = width := by
    rw [Dev.rf_setFld_lo (h := by decide) (h32 := by decide), Dev.rf_setFld _ _ _ _ _ (by decide), Nat.mod_eq_of_lt (by omega)]
  have h4 : ((((d.atC c).setFld R.pcieStat 0 1 1).setFld R.pcieStat 2 2 width).setFld R.pcieStat 4 2 speed).rf R.pcieStat 4 2 = speed := by
    rw [Dev.rf_setFld _ _ _ _ _ (by decide), Nat.mod_eq_of_lt (by omega)]
  generalize ((((d.atC c).setFld R.pcieStat 0 1 1).setFld R.pcieStat 2 2 width).setFld R.pcieStat 4 2 speed) = d1 at *
  have hflag := d1.flag_raise Blk.pcie Src.pcieLinkUp width speed d.tickLo (by decide)
  have hm : d1.marks (d1.raise Blk.pcie Src.pcieLinkUp width speed d.tickLo) pcieFlts [] := .raise _ _ _ _ _ _ (by decide) (by decide)
  generalize d1.raise Blk.pcie Src.pcieLinkUp width speed d.tickLo = d2 at *
  have hf : d2.marks d2.msixFlush [] [] := .msixFlush d2
  have hno : R.pcieStat ∉ pcieFlts := by decide
  have hst (lo n : Nat) : d2.msixFlush.rf R.pcieStat lo n = d1.rf R.pcieStat lo n := (hf.rf lo n (by decide)).trans (hm.rf lo n hno)
  rw [he]
  exact ⟨(hst 0 1).trans h0, (hst 2 2).trans h2, (hst 4 2).trans h4, (hf.flag (by decide)).mpr hflag⟩

/-- The link is lost: what stays of the endpoint's registers, and that the link is down afterwards. -/
theorem Dev.pcieLinkLost_leaves : d.marks d.pcieLinkLost (R.pcieStat :: pcieFlts) [R.pcieCnt 4] ∧ d.pcieLinkLost.rf R.pcieStat 0 1 = 0 ∧
    (d.rf R.pcieStat 0 1 = 1 → d.counts d.pcieLinkLost (R.pcieCnt 4) 1 ∧ d.pcieLinkLost.flag Blk.pcie Src.pcieLinkDown) := by
  by_cases h0 : d.rf R.pcieStat 0 1 = 0
  · have he : d.pcieLinkLost = d := if_pos h0
    rw [he]
    exact ⟨.refl d, h0, fun h => absurd (h0.symm.trans h) (by decide)⟩
  · have he : d.pcieLinkLost = ((((d.setFld R.pcieStat 0 1 0).setFld R.pcieStat 2 2 0).setFld R.pcieStat 4 2 0).bump (R.pcieCnt 4) 1).raise Blk.pcie
        Src.pcieLinkDown d.tickLo (d.rf R.pcieStat 2 2) (d.rf R.pcieStat 4 2) := if_neg h0
    have hm : d.marks (((d.setFld R.pcieStat 0 1 0).setFld R.pcieStat 2 2 0).setFld R.pcieStat 4 2 0) (R.pcieStat :: pcieFlts) [R.pcieCnt 4] :=
      ((Dev.marks.setFld d 0 1 0 (by decide)).trans (.setFld _ 2 2 0 (by decide))).trans (.setFld _ 4 2 0 (by decide))
    have hst : (((d.setFld R.pcieStat 0 1 0).setFld R.pcieStat 2 2 0).setFld R.pcieStat 4 2 0).rf R.pcieStat 0 1 = 0 := by
      rw [Dev.rf_setFld_lo (h := by decide) (h32 := by decide), Dev.rf_setFld_lo (h := by decide) (h32 := by decide), Dev.rf_setFld _ _ _ _ _ (by decide)]
      rfl
    have hw : (((d.setFld R.pcieStat 0 1 0).setFld R.pcieStat 2 2 0).setFld R.pcieStat 4 2 0).w64 (R.pcieCnt 4) = d.w64 (R.pcieCnt 4) := rfl
    rw [he]
    generalize (((d.setFld R.pcieStat 0 1 0).setFld R.pcieStat 2 2 0).setFld R.pcieStat 4 2 0) = d1 at *
    have hb : d1.marks (d1.bump (R.pcieCnt 4) 1) (R.pcieStat :: pcieFlts) [R.pcieCnt 4] := .bump d1 1 (by decide)
    have hbst : (d1.bump (R.pcieCnt 4) 1).rf R.pcieStat 0 1 = 0 := (Dev.rf_bump ..).trans hst
    have hcnt : (d1.bump (R.pcieCnt 4) 1).w64 (R.pcieCnt 4) = (d.w64 (R.pcieCnt 4) + 1) % 2 ^ 64 := by rw [Dev.w64_bump, hw]
    generalize d1.bump (R.pcieCnt 4) 1 = d2 at *
    refine ⟨(hm.trans hb).trans (.raise _ _ _ _ _ _ (by decide) (by decide)), ?_, fun _ => ⟨?_, ?_⟩⟩
    · rw [Dev.rf_raise_ne (h1 := by decide) (h2 := by decide)]
      exact hbst
    · exact (Dev.w64_raise ..).trans hcnt
    · exact Dev.flag_raise _ _ _ _ _ _ (by decide)

/-! ## PERST_N -/

/-- The registers of one ring. -/
def oneRingRegs (r : Nat) : List Nat := [R.cmdCbaselo r, R.cmdCbasehi r, R.cmdCsize r, R.cmdChead r, R.cmdCtail r, R.cmdRbaselo r, R.cmdRbasehi r, R.cmdRsize r,
  R.cmdRhead r, R.cmdRtail r]

/-- The registers of both rings. -/
def ringRegs : List Nat := oneRingRegs 0 ++ oneRingRegs 1

/-- One ring's registers at reset. -/
def Dev.ringReset (r : Nat) (d : Dev) : Dev := (oneRingRegs r).foldl (fun d o => d.setReg o 0) d

theorem Dev.ringRegsReset_eq : d.ringRegsReset = (d.ringReset 0).ringReset 1 := rfl

theorem Dev.clearRegs_leaves (l : List Nat) : d.marks (l.foldl (fun d o => d.setReg o 0) d) l [] ∧ ∀ o ∈ l, (l.foldl (fun d o => d.setReg o 0) d).reg o = 0 := by
  induction l generalizing d with
  | nil => exact ⟨.refl d, fun o ho => absurd ho (by simp)⟩
  | cons a l ih =>
    obtain ⟨hm, hz⟩ := ih (d.setReg a 0)
    refine ⟨(Dev.marks.setReg d 0 List.mem_cons_self).trans (hm.mono (List.subset_cons_self a l) (List.Subset.refl _)), fun o ho => ?_⟩
    by_cases hin : o ∈ l
    · exact hz o hin
    · have hoa : o = a := (List.mem_cons.mp ho).resolve_right hin
      exact (hm.reg hin).trans (hoa ▸ (d.reg_setReg a 0).trans rfl)

theorem Dev.ringRegsReset_leaves : d.marks d.ringRegsReset ringRegs [] ∧ ∀ o ∈ ringRegs, d.ringRegsReset.reg o = 0 := by
  obtain ⟨h0, hz0⟩ := d.clearRegs_leaves (oneRingRegs 0)
  obtain ⟨h1, hz1⟩ := (d.ringReset 0).clearRegs_leaves (oneRingRegs 1)
  refine ⟨(h0.mono (List.subset_append_left _ _) (List.Subset.refl _)).trans (h1.mono (List.subset_append_right _ _) (List.Subset.refl _)), fun o ho => ?_⟩
  by_cases hin : o ∈ oneRingRegs 1
  · exact hz1 o hin
  · exact (h1.reg hin).trans (hz0 o ((List.mem_append.mp ho).resolve_right hin))

theorem Dev.pcieConfigReset_leaves : d.marks d.pcieConfigReset [R.pcieStat] [] ∧ d.pcieConfigReset.rf R.pcieStat 0 1 = d.rf R.pcieStat 0 1 := by
  have hp : d.marks (d.onPcie (fun p => { sent := p.sent, pmeMsgs := p.pmeMsgs, clkreq := p.clkreq })) [R.pcieStat] [] := .onPcie d _
  have hr : (d.onPcie (fun p => { sent := p.sent, pmeMsgs := p.pmeMsgs, clkreq := p.clkreq })).rf R.pcieStat 0 1 = d.rf R.pcieStat 0 1 := rfl
  rw [Dev.pcieConfigReset]
  generalize d.onPcie (fun p => { sent := p.sent, pmeMsgs := p.pmeMsgs, clkreq := p.clkreq }) = d1 at *
  refine ⟨(hp.trans (.setFld d1 8 2 0 (by decide))).trans (.setFld _ 1 1 0 (by decide)), ?_⟩
  rw [Dev.rf_setFld_lo (h := by decide) (h32 := by decide), Dev.rf_setFld_lo (h := by decide) (h32 := by decide), hr]

/-- PERST_N is asserted. -/
theorem Dev.perst_low (c : Nat) : let e := d.perst true c
    e.pcie.clkreq = false ∧ e.eng = d.eng ∧ e.agenda = d.agenda ∧ e.rf R.pcieStat 0 1 = 0 ∧ e.rf R.sysRstcause 4 1 = 1 ∧ ∀ o ∈ ringRegs, e.reg o = 0 := by
  have he : d.perst true c = ((((d.atC c).pcieLinkLost.pcieConfigReset).ringRegsReset).setFld R.sysRstcause 4 1 1).onPcie (fun p => { p with clkreq := false }) := rfl
  obtain ⟨h1, hst1, -⟩ := (d.atC c).pcieLinkLost_leaves
  have heng : (d.atC c).eng = d.eng := rfl
  have hag : (d.atC c).agenda = d.agenda := rfl
  rw [he]
  generalize d.atC c = dc at *
  generalize dc.pcieLinkLost = d1 at *
  obtain ⟨h2, hst2⟩ := d1.pcieConfigReset_leaves
  generalize d1.pcieConfigReset = d2 at *
  obtain ⟨h3, hz⟩ := d2.ringRegsReset_leaves
  generalize d2.ringRegsReset = d3 at *
  have h4 : d3.marks (d3.setFld R.sysRstcause 4 1 1) [R.sysRstcause] [] := .setFld d3 4 1 1 (by decide)
  have hc : (d3.setFld R.sysRstcause 4 1 1).rf R.sysRstcause 4 1 = 1 := Dev.rf_setFld _ _ _ _ _ (by decide)
  generalize d3.setFld R.sysRstcause 4 1 1 = d4 at *
  have h5 : d4.marks (d4.onPcie (fun p => { p with clkreq := false })) [] [] := .onPcie d4 _
  refine ⟨rfl, ?_, ?_, ?_, (h5.rf 4 1 (by decide)).trans hc, fun o ho => ?_⟩
  · rw [h5.eng, h4.eng, h3.eng, h2.eng, h1.eng, heng]
  · rw [h5.agenda, h4.agenda, h3.agenda, h2.agenda, h1.agenda, hag]
  · rw [h5.rf 0 1 (by decide), h4.rf 0 1 (by decide), h3.rf 0 1 (by decide), hst2, hst1]
  · have hne : o ∉ [R.sysRstcause] := fun h => absurd (List.mem_singleton.mp h ▸ ho) (by decide)
    rw [h5.reg (by simp), h4.reg hne, hz o ho]

end

end Sys2Proof.Machine

/-!
PROOFS. The bus matrix: an issue that closes leaves the endpoint's state register, requests of the internal masters are served, wait, or are decode errors.
-/
namespace Sys2Proof.Machine

/-! ## The close of an issue leaves the registers of other blocks -/

/-- A register that an issue's close does not write. -/
def asideEng (o : Nat) : Prop := o ≠ R.fltstat Blk.eng ∧ o ≠ R.fltfirst Blk.eng ∧ ∀ n, n < 48 → o ≠ R.engLanestat n

section
variable {o : Nat} (ho : asideEng o)
include ho

theorem Dev.reg_raise_eng (d : Dev) (src d0 d1 d2 : Nat) : (d.raise Blk.eng src d0 d1 d2).reg o = d.reg o := by
  have hm : d.marks (d.raise Blk.eng src d0 d1 d2) [R.fltstat Blk.eng, R.fltfirst Blk.eng] [] := .raise _ _ _ _ _ _ (by simp) (by simp)
  exact hm.reg (by simp [ho.1, ho.2.1])

theorem Dev.reg_laneErr (d : Dev) {n : Nat} (kind bundle c : Nat) (hn : n < 48) : (d.laneErr n kind bundle c).reg o = d.reg o := by
  have hr : (((d.atC c).raise Blk.eng Src.engLaneErr n kind bundle).atC d.cycle).reg o = d.reg o := by
    rw [Dev.reg_atC, Dev.reg_raise_eng ho, Dev.reg_atC]
  rw [Dev.laneErr]
  generalize ((d.atC c).raise Blk.eng Src.engLaneErr n kind bundle).atC d.cycle = d1 at *
  have hs : (if windowEnd ≤ c then d1.setFld (R.engLanestat n) 18 1 1 else d1).reg o = d1.reg o := by
    split
    · exact (Dev.marks.setFld (l := [R.engLanestat n]) (w := []) d1 18 1 1 (by simp)).reg (by simp [ho.2.2 n hn])
    · rfl
  refine Eq.trans ?_ (hs.trans hr)
  generalize (if windowEnd ≤ c then d1.setFld (R.engLanestat n) 18 1 1 else d1) = d2
  rfl

theorem Dev.reg_raiseAll_eng (d : Dev) (fs : List Flt) : (d.raiseAll Blk.eng fs).reg o = d.reg o := by
  rw [Dev.raiseAll]
  generalize sortBy _ fs = l
  induction l generalizing d with
  | nil => rfl
  | cons f l ih => exact (ih _).trans (d.reg_raise_eng ho ..)

theorem Dev.reg_laneOut (d : Dev) {n : Nat} (j c : Nat) (hn : n < 48) : (d.laneOut n j c).reg o = d.reg o := by
  have h1 : (d.laneErr n 3 8191 c).reg o = d.reg o := d.reg_laneErr ho _ _ _ hn
  rw [Dev.laneOut]
  generalize d.laneErr n 3 8191 c = d1 at *
  have h2 : (((d1.atC c).raiseAll Blk.eng (d1.endFaults n c)).atC d.cycle).reg o = d.reg o := by
    rw [Dev.reg_atC, Dev.reg_raiseAll_eng ho, Dev.reg_atC, h1]
  generalize ((d1.atC c).raiseAll Blk.eng (d1.endFaults n c)).atC d.cycle = d2 at *
  exact h2

omit ho in
theorem Dev.reg_each {α : Type} (f : α → Dev → Dev) (l : List α) (h : ∀ x ∈ l, ∀ d : Dev, (f x d).reg o = d.reg o) (d : Dev) : (each l f d).reg o = d.reg o := by
  induction l generalizing d with
  | nil => rfl
  | cons x l ih => exact (ih (fun y hy => h y (List.mem_cons_of_mem _ hy)) _).trans (h x List.mem_cons_self d)

theorem Dev.reg_lanePass (d : Dev) (i0 st k : Nat) {n : Nat} (hn : n < 48) : (d.lanePass i0 st k n).reg o = d.reg o := by
  unfold Dev.lanePass
  extract_lets l cyc bad d1
  have h1 : d1.reg o = d.reg o := by
    simp only [d1]
    split
    · rfl
    · exact Dev.reg_each _ _ (fun p _ e => e.reg_laneErr ho _ _ _ hn) d
  split
  · exact (d1.reg_laneOut ho _ _ hn).trans h1
  · exact h1

theorem Dev.reg_collisions (l : List (Nat × Nat × Nat)) (d : Dev) : (l.foldl (fun d c => d.raise Blk.eng Src.engWrCollide c.1 c.2.1 c.2.2) d).reg o = d.reg o := by
  induction l generalizing d with
  | nil => rfl
  | cons f l ih => exact (ih _).trans (d.reg_raise_eng ho ..)

omit ho in
theorem Dev.reg_eccCleans (l : List StoreReq) (d : Dev) : (l.foldl (fun d r => d.eccClean r.addr 4) d).reg o = d.reg o := by
  induction l generalizing d with
  | nil => rfl
  | cons f l ih => exact ih _

theorem Sys.reg_closeIssue (s : Sys) : s.closeIssue.dev.reg o = s.dev.reg o := by
  unfold Sys.closeIssue
  extract_lets e sts mem k src d0 d1 d2 e2
  have h0 : d0.reg o = s.dev.reg o := rfl
  have h1 : d1.reg o = d0.reg o := Dev.reg_collisions ho _ _
  have h2 : d2.reg o = d1.reg o := Dev.reg_eccCleans _ _
  clear_value d1 d2 e2 k
  refine Eq.trans ?_ (h2.trans (h1.trans h0))
  have he : d2.sameRegs (({ d2 with eng := e2 } : Dev).bump R.engStallcnt k) := ⟨rfl, rfl, rfl⟩
  exact he.reg o

theorem Sys.reg_toCycle (s : Sys) (c : Nat) : (s.toCycle c).dev.reg o = s.dev.reg o := by
  have hpass (k : Sys → Nat) : (s.passTo k).dev.reg o = s.dev.reg o := by
    rw [Sys.passTo]
    have h1 := s.reg_closeIssue ho
    generalize s.closeIssue = s1 at *
    have hl : ∀ n ∈ (List.range 48).filter s1.dev.laneRuns, n < 48 := fun n hn => List.mem_range.mp (List.mem_filter.mp hn).1
    exact (Dev.reg_each _ _ (fun n hn e => e.reg_lanePass ho _ _ _ (hl n hn)) s1.dev).trans h1
  rw [Sys.toCycle]
  split
  · rfl
  · rw [Sys.toIssue]
    split
    · exact hpass _
    · rfl

end

theorem asideEng_pcieStat : asideEng R.pcieStat := ⟨by decide, by decide, by decide⟩

theorem Sys.toCycle_closed {s : Sys} (c : Nat) (hst : s.dev.eng.stores = []) (hrq : s.dev.eng.sreqs = []) : s.toCycle c = s := by
  rw [Sys.toCycle, hst, hrq]
  rfl

/-! ## Requests -/

/-- A request of another master than the internal ones does nothing with the link down. -/
theorem Sys.busRequest_linkless (s : Sys) (wr : Nat → Nat → Sys → Sys) {q : BusReq} (c : Nat) (hv : q.via ≠ .internal) (hdown : s.dev.rf R.pcieStat 0 1 = 0) :
    s.busRequest wr q c = s := by
  have hA : ((s.toCycle c).onDev (fun d => d.atC c)).dev.rf R.pcieStat 0 1 = 0 := by
    have h := s.reg_toCycle asideEng_pcieStat c
    rw [Dev.rf, ← h] at hdown
    exact hdown
  rw [Sys.busRequest]
  generalize (s.toCycle c).onDev (fun d => d.atC c) = sA at *
  simp only [hA, or_true, if_true, hv, if_false]

theorem Sys.busRequest_internal (s : Sys) (wr : Nat → Nat → Sys → Sys) {q : BusReq} (c : Nat) (hv : q.via = .internal) (hm : q.master < 10) (h7 : q.master ≠ 7)
    (hst : s.dev.eng.stores = []) (hrq : s.dev.eng.sreqs = []) : s.busRequest wr q c = (s.onDev (fun d => d.atC c)).serve wr q q.addr := by
  rw [Sys.busRequest, Sys.toCycle_closed c hst hrq]
  simp only [hv, true_or, or_true, if_true, hm, h7, and_self, ne_eq, not_false_eq_true]

/-- An internal master's request has a path, a length, and one target throughout that is open to it. -/
def Dev.busMay (d : Dev) (q : BusReq) : Bool :=
  (masterPaths q.master).contains (d.target q.addr) && !(q.bytes.length == 0) &&
    (d.target (q.addr + q.bytes.length - 1) == d.target q.addr && !(d.target q.addr == 1 && d.exClosed q.addr q.bytes.length))

/-- What a decode error leaves in a read. -/
def Sys.answeredZeros (s : Sys) (q : BusReq) : Sys :=
  let s1 := s.onDev (fun d => d.decErr q.master q.addr q.write)
  if q.write then s1 else s1.onDev (fun d => { d with rdata := List.replicate q.bytes.length 0 })

section
variable (s : Sys) (wr : Nat → Nat → Sys → Sys) (q : BusReq)

theorem Sys.serve_refused (h7 : q.master ≠ 7) (h3 : s.dev.target q.addr ≠ 3 ∨ (masterPaths q.master).contains (s.dev.target q.addr) = false) (hno : s.dev.busMay q = false) :
    s.serve wr q q.addr = s.answeredZeros q := by
  unfold Sys.serve
  extract_lets d n t may
  have hmay : may = false := by
    simp only [may]
    by_cases hpath : (!(masterPaths q.master).contains t || n == 0) = true
    · rw [if_pos hpath]
    · have ht3 : t ≠ 3 := h3.resolve_right (fun hc => hpath (by rw [show (masterPaths q.master).contains t = false from hc]; rfl))
      rw [if_neg hpath, if_neg ht3, if_neg h7]
      rw [Bool.or_eq_true, not_or, Bool.not_eq_true', Bool.not_eq_false, Bool.not_eq_true] at hpath
      obtain ⟨hp, hn⟩ := hpath
      have h := hno
      rw [Dev.busMay, show (masterPaths q.master).contains (s.dev.target q.addr) = true from hp, show (q.bytes.length == 0) = false from hn] at h
      exact h
  rw [hmay]
  rfl

theorem Sys.serve_granted (h7 : q.master ≠ 7) (h3 : s.dev.target q.addr ≠ 3) (hmay : s.dev.busMay q = true) : s.serve wr q q.addr =
    (if s.dev.busGrant (s.dev.target q.addr) q.last (q.master :: q.rivals) ≠ q.master then s
    else if s.dev.target q.addr = 1 ∧ (rangeFrom q.addr q.bytes.length).any (fun x => s.dev.ownsNot q.master x q.write) = true then
      s.onDev (fun d => d.raise Blk.eng Src.engXbarOwn q.master (q.addr % 2 ^ 32) d.cycle)
    else if q.write then
      if s.dev.target q.addr = 2 then s.loadPort q.addr q.bytes else if s.dev.target q.addr = 1 then s.portStore q.addr q.bytes
      else s.onMem (fun m => m.putEn q.addr q.bytes)
    else
      (if s.dev.target q.addr = 0 then s.dramRead q.master q.addr q.ecc else s).onDev
        (fun d => { d with rdata := ((s.memSeen d.cycle).bytes q.addr q.bytes.length).map (fun b => b.toNat) })) := by
  unfold Sys.serve
  extract_lets d n t may
  have hm : may = true := by
    rw [Dev.busMay, Bool.and_eq_true, Bool.and_eq_true] at hmay
    obtain ⟨⟨hp, hn⟩, hrest⟩ := hmay
    have hpath : (!(masterPaths q.master).contains t || n == 0) = false := by
      rw [show (masterPaths q.master).contains t = true from hp, show (n == 0) = false from Bool.not_eq_true' _ ▸ hn]
      rfl
    simp only [may]
    rw [hpath, if_neg (show t ≠ 3 from h3), if_neg h7]
    exact hrest
  rw [hm, if_neg (by decide), if_neg (show t ≠ 3 from h3)]

end

theorem Dev.busMay_iff (d : Dev) (q : BusReq) : d.busMay q = true ↔ (masterPaths q.master).contains (d.target q.addr) = true ∧ 0 < q.bytes.length ∧
    d.target (q.addr + q.bytes.length - 1) = d.target q.addr ∧ (d.target q.addr = 1 → d.exClosed q.addr q.bytes.length = false) := by
  rw [Dev.busMay]
  simp only [Bool.and_eq_true, Bool.not_eq_true', beq_eq_false_iff_ne, beq_iff_eq, Bool.and_eq_false_iff, Nat.pos_iff_ne_zero]
  tauto

/-- A master that alone requests a target is granted it. -/
theorem Dev.busGrant_alone (d : Dev) {t m : Nat} (last : Nat) (h : (masterPaths m).contains t = true) : d.busGrant t last [m] = m := by
  rw [Dev.busGrant]
  simp only [List.filter_cons, h, if_true, List.filter_nil]
  rfl

theorem Memory.putEn_some (bs : List Byte) (m : Memory) (a : Nat) : m.putEn a (bs.map some) = m.putBytes a bs := by
  induction bs generalizing m a with
  | nil => rfl
  | cons b bs ih => exact ih _ _

/-- A decode error of an internal master: recorded and counted. -/
theorem Dev.decErr_leaves (d : Dev) {m : Nat} (a : Nat) (wr : Bool) (h10 : m < 10) (h7 : m ≠ 7) : let e := d.decErr m a wr
    d.counts e (R.bmxCnt 0) 1 ∧ e.reg R.bmxDecerr = d.target a * 256 + 16 * b2n wr + m ∧ e.w64 R.bmxDecaddr = a % 2 ^ 40 ∧ e.flag Blk.bmx Src.bmxDecerr ∧
    d.keeps e [R.bmxDecerr, R.fltstat Blk.bmx, R.fltfirst Blk.bmx] := by
  have ht : d.target a ≤ 15 := by
    rw [Dev.target]
    split_ifs <;> decide
  have hb : b2n wr ≤ 1 := by cases wr <;> decide
  have he : d.decErr m a wr = (((d.setReg R.bmxDecerr (d.target a * 256 + 16 * b2n wr + m)).setW R.bmxDecaddr (a % 2 ^ 40)).bump (R.bmxCnt 0) 1).raise Blk.bmx
      Src.bmxDecerr (m + 16 * d.target a) (a % 2 ^ 32) (a / 2 ^ 32 % 256) := if_neg h7
  have hr : (d.setReg R.bmxDecerr (d.target a * 256 + 16 * b2n wr + m)).reg R.bmxDecerr = d.target a * 256 + 16 * b2n wr + m := by
    rw [Dev.reg_setReg, Nat.mod_eq_of_lt (by omega)]
  have h1 : d.marks (d.setReg R.bmxDecerr (d.target a * 256 + 16 * b2n wr + m)) [R.bmxDecerr] [] := .setReg d _ (by simp)
  rw [he]
  generalize d.setReg R.bmxDecerr (d.target a * 256 + 16 * b2n wr + m) = d1 at *
  have h2 : d1.marks (d1.setW R.bmxDecaddr (a % 2 ^ 40)) [] [R.bmxDecaddr] := .setW d1 _ (by simp)
  have hw : (d1.setW R.bmxDecaddr (a % 2 ^ 40)).w64 R.bmxDecaddr = a % 2 ^ 40 := by rw [Dev.w64_setW, Nat.mod_eq_of_lt (by omega)]
  generalize d1.setW R.bmxDecaddr (a % 2 ^ 40) = d2 at *
  have h3 : d2.marks (d2.bump (R.bmxCnt 0) 1) [] [R.bmxCnt 0] := .bump d2 1 (by simp)
  have hc : (d2.bump (R.bmxCnt 0) 1).w64 (R.bmxCnt 0) = (d.w64 (R.bmxCnt 0) + 1) % 2 ^ 64 := by
    rw [Dev.w64_bump, h2.w64 (by decide), h1.w64 (by decide)]
  generalize d2.bump (R.bmxCnt 0) 1 = d3 at *
  have h4 : d3.marks (d3.raise Blk.bmx Src.bmxDecerr (m + 16 * d.target a) (a % 2 ^ 32) (a / 2 ^ 32 % 256)) [R.fltstat Blk.bmx, R.fltfirst Blk.bmx] [] :=
    .raise _ _ _ _ _ _ (by simp) (by simp)
  have hf : (d3.raise Blk.bmx Src.bmxDecerr (m + 16 * d.target a) (a % 2 ^ 32) (a / 2 ^ 32 % 256)).flag Blk.bmx Src.bmxDecerr := Dev.flag_raise _ _ _ _ _ _ (by decide)
  generalize d3.raise Blk.bmx Src.bmxDecerr (m + 16 * d.target a) (a % 2 ^ 32) (a / 2 ^ 32 % 256) = d4 at *
  refine ⟨?_, ?_, ?_, hf, ?_⟩
  · exact (h4.w64 (by decide)).trans hc
  · rw [h4.reg (by decide), h3.reg (by decide), h2.reg (by decide), hr]
  · rw [h4.w64 (by decide), h3.w64 (by decide), hw]
  · exact ((h1.keeps.mono (by simp)).trans (h2.keeps.mono (by simp))).trans ((h3.keeps.mono (by simp)).trans (h4.keeps.mono (by simp)))

/-- A read of DRAM that meets no error. -/
theorem Sys.dramRead_clean {s : Sys} (m a : Nat) (h : s.dev.lf R.ddrForce 0 1 = 0) : s.dramRead m a 0 = s := by
  have hf : s.dev.dramForced m a = (s.dev, false) := if_neg (fun hc => absurd (h.symm.trans hc.1) (by decide))
  rw [Sys.dramRead, hf]
  simp

theorem Sys.memSeen_now {s : Sys} {c : Nat} (h : s.dev.eng.oldC ≠ c ∨ s.dev.eng.olds = []) : s.memSeen c = s.mem := by
  rw [Sys.memSeen]
  split
  · rw [h.resolve_left (fun hc => hc ‹_›)]
    rfl
  · rfl

end Sys2Proof.Machine

/-!
PROOFS. Refresh of the DRAM, the glean buffer and its readback.
-/
namespace Sys2Proof.Machine

/-! ## Refresh -/

/-- The registers of the fault path of DDR. -/
def ddrFlts : List Nat := [R.fltstat Blk.ddr, R.fltfirst Blk.ddr]

/-- The device with its refresh state replaced. -/
def Dev.withDdr (d : Dev) (x : Ddr) : Dev := { d with ddr := x }

theorem Dev.keeps_withDdr (d : Dev) (x : Ddr) (l : List Nat) : d.keeps (d.withDdr x) l := Dev.keeps_of_regs ⟨rfl, rfl, rfl⟩ l

theorem Dev.rf_withDdr (d : Dev) (x : Ddr) (o lo w : Nat) : (d.withDdr x).rf o lo w = d.rf o lo w := rfl

theorem Dev.w64_withDdr (d : Dev) (x : Ddr) (o : Nat) : (d.withDdr x).w64 o = d.w64 o := rfl

section
variable (d : Dev)

/-- The registers of a new class. -/
def Dev.reclassed (k : Nat) : Dev := ((d.setFld R.ddrTemp 16 2 k).setFld R.ddrTemp 18 1 (b2n (k == 3))).setFld R.loadClass 4 2 k

theorem Dev.reclassed_leaves {k : Nat} (hk : k ≤ 3) : (d.reclassed k).dramClass = k ∧ ∀ lo w, lo + w ≤ 16 → (d.reclassed k).rf R.ddrTemp lo w = d.rf R.ddrTemp lo w := by
  constructor
  · rw [Dev.dramClass, Dev.reclassed, Dev.rf_setFld_ne _ _ _ _ _ _ _ (by decide), Dev.rf_setFld_lo (h := by decide) (h32 := by decide), Dev.rf_setFld _ _ _ _ _ (by decide),
      Nat.mod_eq_of_lt (by omega)]
  · intro lo w h
    rw [Dev.reclassed, Dev.rf_setFld_ne _ _ _ _ _ _ _ (by decide), Dev.rf_setFld_lo (h := by omega) (h32 := by omega), Dev.rf_setFld_lo (h := by omega) (h32 := by omega)]

/-- The new class is told, and a class beyond the rates (R403). -/
def Dev.classTold (k old t : Nat) : Dev :=
  let d3 := d.raise Blk.ddr Src.ddrClassChange old k t
  if k = 3 then d3.raise Blk.ddr Src.ddrDramHot (d3.rf R.ddrTemp 0 8) (d3.rf R.ddrTemp 8 8) t else d3

theorem Dev.classTold_leaves (k old t : Nat) : d.marks (d.classTold k old t) ddrFlts [] ∧ (d.classTold k old t).flag Blk.ddr Src.ddrClassChange ∧
    (k = 3 → (d.classTold k old t).flag Blk.ddr Src.ddrDramHot) := by
  have hm : d.marks (d.raise Blk.ddr Src.ddrClassChange old k t) ddrFlts [] := .raise _ _ _ _ _ _ (by decide) (by decide)
  have hf := d.flag_raise Blk.ddr Src.ddrClassChange old k t (by decide)
  rw [Dev.classTold]
  generalize d.raise Blk.ddr Src.ddrClassChange old k t = d3 at *
  by_cases h3 : k = 3
  · rw [if_pos h3]
    exact ⟨hm.trans (.raise _ _ _ _ _ _ (by decide) (by decide)), d3.flag_stays_raise _ _ _ _ (by decide) hf, fun _ => d3.flag_raise _ _ _ _ _ (by decide)⟩
  · rw [if_neg h3]
    exact ⟨hm, hf, fun h => absurd h h3⟩

theorem Dev.setClass_eq (k : Nat) : d.setClass k =
    if k = d.dramClass then d else ((d.reclassed k).withDdr { (d.reclassed k).ddr with thin := false, below := 0 }).classTold k d.dramClass d.tickLo := rfl

/-- A change of class: the class, the sensors' readings, and what is raised. -/
theorem Dev.setClass_leaves {k : Nat} (hk : k ≤ 3) : (d.setClass k).dramClass = k ∧ (∀ lo w, lo + w ≤ 16 → (d.setClass k).rf R.ddrTemp lo w = d.rf R.ddrTemp lo w) ∧
    (k ≠ d.dramClass → (d.setClass k).flag Blk.ddr Src.ddrClassChange ∧ (k = 3 → (d.setClass k).flag Blk.ddr Src.ddrDramHot)) := by
  rw [Dev.setClass_eq]
  by_cases hsame : k = d.dramClass
  · rw [if_pos hsame]
    exact ⟨hsame.symm, fun _ _ _ => rfl, fun h => absurd hsame h⟩
  · obtain ⟨hc, hr⟩ := d.reclassed_leaves hk
    rw [if_neg hsame]
    generalize d.reclassed k = d1 at *
    have hw (lo w : Nat) : (d1.withDdr { d1.ddr with thin := false, below := 0 }).rf R.ddrTemp lo w = d1.rf R.ddrTemp lo w := Dev.rf_withDdr ..
    generalize d1.withDdr { d1.ddr with thin := false, below := 0 } = d2 at *
    obtain ⟨hm, hchange, hhot⟩ := d2.classTold_leaves k d.dramClass d.tickLo
    have h3 (lo w : Nat) : (d2.classTold k d.dramClass d.tickLo).rf R.ddrTemp lo w = d1.rf R.ddrTemp lo w := (hm.rf lo w (by decide)).trans (hw lo w)
    exact ⟨(h3 16 2).trans hc, fun lo w h => (h3 lo w).trans (hr lo w h), fun _ => ⟨hchange, hhot⟩⟩

/-- The readings of mode register 4 stored. -/
def Dev.mr4Stored (v0 v1 : Nat) : Dev := (d.setFld R.ddrTemp 0 8 v0).setFld R.ddrTemp 8 8 v1

theorem Dev.mr4Stored_leaves (v0 v1 : Nat) : (d.mr4Stored v0 v1).rf R.ddrTemp 0 8 = v0 % 256 ∧ (d.mr4Stored v0 v1).rf R.ddrTemp 8 8 = v1 % 256 ∧
    (d.mr4Stored v0 v1).dramClass = d.dramClass ∧ (d.mr4Stored v0 v1).ddr = d.ddr := by
  refine ⟨?_, Dev.rf_setFld _ _ _ _ _ (by decide), ?_, ?_⟩
  · rw [Dev.mr4Stored, Dev.rf_setFld_lo (h := by decide) (h32 := by decide)]
    exact Dev.rf_setFld _ _ _ _ _ (by decide)
  · rw [Dev.mr4Stored, Dev.dramClass, Dev.rf_setFld_hi (h := by decide) (h32 := by decide), Dev.rf_setFld_hi (h := by decide) (h32 := by decide), Dev.dramClass]
  · rw [Dev.mr4Stored, Dev.setFld_ddr, Dev.setFld_ddr]

theorem Dev.mr4Read_idle (v0 k0 v1 k1 : Nat) (h : d.refreshSheaf = none ∨ d.tick % 2 = 1) : d.mr4Read v0 k0 v1 k1 = d := by
  rw [Dev.mr4Read]
  cases hs : d.refreshSheaf with
  | none => rfl
  | some sh => exact if_pos (h.resolve_left (fun hn => absurd (hn.symm.trans hs) (by simp)))

/-- What a read of mode register 4 does to the class (R403). -/
def Dev.classed (k low below old : Nat) : Dev :=
  if old < k then d.setClass k
  else if k < old then
    if low = k ∧ 63 ≤ below then d.setClass k
    else d.withDdr { d.ddr with below := if low = k then d.ddr.below + 1 else 1, low := k }
  else d.withDdr { d.ddr with below := 0 }

theorem Dev.mr4Read_eq (v0 k0 v1 k1 : Nat) {sh : Sheaf} (hs : d.refreshSheaf = some sh) (he : d.tick % 2 = 0) :
    d.mr4Read v0 k0 v1 k1 = ((d.atC sh.tslot).mr4Stored v0 v1).classed (min 3 (max k0 k1)) d.ddr.low d.ddr.below d.dramClass := by
  rw [Dev.mr4Read, hs]
  dsimp only
  rw [if_neg (by omega)]
  rfl

theorem Dev.mr4Read_leaves (v0 k0 v1 k1 : Nat) {sh : Sheaf} (hs : d.refreshSheaf = some sh) (ht : d.tick % 2 = 0) :
    let k := min 3 (max k0 k1)
    let e := d.mr4Read v0 k0 v1 k1
    e.rf R.ddrTemp 0 8 = v0 % 256 ∧ e.rf R.ddrTemp 8 8 = v1 % 256 ∧
      (d.dramClass < k → e.dramClass = k ∧ e.flag Blk.ddr Src.ddrClassChange ∧ (k = 3 → e.flag Blk.ddr Src.ddrDramHot)) ∧
      (k < d.dramClass → d.ddr.low = k → 63 ≤ d.ddr.below → e.dramClass = k) ∧
      (k < d.dramClass → (d.ddr.low ≠ k ∨ d.ddr.below < 63) → e.dramClass = d.dramClass ∧ e.ddr.low = k ∧
        e.ddr.below = (if d.ddr.low = k then d.ddr.below + 1 else 1)) ∧
      (k = d.dramClass → e.dramClass = k ∧ e.ddr.below = 0) := by
  intro k e
  have hk : k ≤ 3 := Nat.min_le_left _ _
  have he : e = ((d.atC sh.tslot).mr4Stored v0 v1).classed k d.ddr.low d.ddr.below d.dramClass := d.mr4Read_eq v0 k0 v1 k1 hs ht
  obtain ⟨h0, h8, hc, hd⟩ := (d.atC sh.tslot).mr4Stored_leaves v0 v1
  have hc' : ((d.atC sh.tslot).mr4Stored v0 v1).dramClass = d.dramClass := hc
  have hd' : ((d.atC sh.tslot).mr4Stored v0 v1).ddr = d.ddr := hd
  clear_value e k
  rw [he]
  generalize (d.atC sh.tslot).mr4Stored v0 v1 = d1 at *
  obtain ⟨hk1, hk2, hk3⟩ := d1.setClass_leaves hk
  rcases Nat.lt_trichotomy d.dramClass k with hlt | heq | hgt
  · have hcl : d1.classed k d.ddr.low d.ddr.below d.dramClass = d1.setClass k := if_pos hlt
    rw [hcl]
    refine ⟨(hk2 0 8 (by decide)).trans h0, (hk2 8 8 (by decide)).trans h8, fun _ => ⟨hk1, hk3 (by omega)⟩, fun h => ?_, fun h => ?_, fun h => ?_⟩ <;> omega
  · have hcl : d1.classed k d.ddr.low d.ddr.below d.dramClass = d1.withDdr { d1.ddr with below := 0 } := by
      rw [Dev.classed, if_neg (by omega), if_neg (by omega)]
    rw [hcl]
    refine ⟨h0, h8, fun h => ?_, fun h => ?_, fun h => ?_, fun _ => ⟨hc'.trans heq, rfl⟩⟩ <;> omega
  · by_cases hlow : d.ddr.low = k ∧ 63 ≤ d.ddr.below
    · have hcl : d1.classed k d.ddr.low d.ddr.below d.dramClass = d1.setClass k := by
        rw [Dev.classed, if_neg (by omega), if_pos hgt, if_pos hlow]
      rw [hcl]
      refine ⟨(hk2 0 8 (by decide)).trans h0, (hk2 8 8 (by decide)).trans h8, fun h => ?_, fun _ _ _ => hk1, fun _ h => ?_, fun h => ?_⟩ <;> omega
    · have hcl : d1.classed k d.ddr.low d.ddr.below d.dramClass =
          d1.withDdr { d1.ddr with below := if d.ddr.low = k then d1.ddr.below + 1 else 1, low := k } := by
        rw [Dev.classed, if_neg (by omega), if_pos hgt, if_neg hlow]
      rw [hcl]
      refine ⟨h0, h8, fun h => ?_, fun _ h1 h2 => absurd ⟨h1, h2⟩ hlow, fun _ _ => ⟨hc', rfl, ?_⟩, fun h => ?_⟩
      · omega
      · rw [← hd']
        rfl
      · omega

section
variable {sh : Sheaf} (hs : d.refreshSheaf = some sh) {ch : Nat} (c : Nat) (hch : ch ≤ 1)
include hs

theorem Dev.refreshSlot_other (h : (sh.refresh.getD (2 * ch + d.tick % 2) []).contains c = false) : d.refreshSlot ch c = d := by
  rw [Dev.refreshSlot, hs]
  dsimp only
  rw [h]
  rfl

include hch

theorem Dev.refreshSlot_planned (h : (sh.refresh.getD (2 * ch + d.tick % 2) []).contains c = true) (hact : d.dramClass ≤ d.rf R.loadClass 0 2) :
    d.refreshSlot ch c = d.atC c := by
  rw [Dev.refreshSlot, hs]
  dsimp only
  rw [h, if_neg (by simp [hch])]
  exact if_pos hact

/-- A refresh slot above the planned class. -/
theorem Dev.refreshSlot_extra (h : (sh.refresh.getD (2 * ch + d.tick % 2) []).contains c = true) (hact : d.rf R.loadClass 0 2 < d.dramClass) (h2 : d.dramClass ≤ 2) :
    let e := d.refreshSlot ch c
    d.counts e (R.ddrCnt 3) (2 ^ (d.dramClass - d.rf R.loadClass 0 2) - 1) ∧ e.ddr.thin = true ∧ (d.ddr.thin = false → e.flag Blk.ddr Src.ddrRefreshThin) ∧
      d.keeps e [R.fltstat Blk.ddr, R.fltfirst Blk.ddr] := by
  intro e
  have hrate : ∀ k, k ≤ 2 → classRate k = some (2 ^ k) := by decide
  have he : e = (let d1 := (d.atC c).bump (R.ddrCnt 3) (2 ^ d.dramClass / 2 ^ d.rf R.loadClass 0 2 - 1)
      if d1.ddr.thin then d1 else (d1.withDdr { d1.ddr with thin := true }).raise Blk.ddr Src.ddrRefreshThin d.dramClass (d.rf R.loadClass 0 2) d.tickLo) := by
    have hcl : (d.atC c).dramClass = d.dramClass := rfl
    have hac : (d.atC c).rf R.loadClass 0 2 = d.rf R.loadClass 0 2 := rfl
    simp only [e]
    rw [Dev.refreshSlot, hs]
    dsimp only
    rw [h, if_neg (by simp [hch]), hcl, hac, if_neg (by omega), hrate _ h2, hrate _ (by omega)]
    rfl
  have hpow : 2 ^ d.dramClass / 2 ^ d.rf R.loadClass 0 2 = 2 ^ (d.dramClass - d.rf R.loadClass 0 2) := Nat.pow_div (by omega) (by decide)
  have hb : (d.atC c).marks ((d.atC c).bump (R.ddrCnt 3) (2 ^ d.dramClass / 2 ^ d.rf R.loadClass 0 2 - 1)) [] [R.ddrCnt 3] := .bump _ _ (by simp)
  have hcnt : ((d.atC c).bump (R.ddrCnt 3) (2 ^ d.dramClass / 2 ^ d.rf R.loadClass 0 2 - 1)).w64 (R.ddrCnt 3) =
      (d.w64 (R.ddrCnt 3) + (2 ^ (d.dramClass - d.rf R.loadClass 0 2) - 1)) % 2 ^ 64 := by
    rw [Dev.w64_bump, hpow]
    rfl
  have hddr : ((d.atC c).bump (R.ddrCnt 3) (2 ^ d.dramClass / 2 ^ d.rf R.loadClass 0 2 - 1)).ddr = d.ddr := rfl
  have hk : d.keeps ((d.atC c).bump (R.ddrCnt 3) (2 ^ d.dramClass / 2 ^ d.rf R.loadClass 0 2 - 1)) [R.fltstat Blk.ddr, R.fltfirst Blk.ddr] := hb.keeps.mono (by simp)
  clear_value e
  rw [he]
  dsimp only
  generalize (d.atC c).bump (R.ddrCnt 3) (2 ^ d.dramClass / 2 ^ d.rf R.loadClass 0 2 - 1) = d1 at *
  by_cases hthin : d1.ddr.thin = true
  · rw [if_pos hthin]
    exact ⟨hcnt, hthin, fun h0 => absurd (hthin.symm.trans ((congrArg Ddr.thin hddr).trans h0)) (by decide), hk⟩
  · rw [if_neg hthin]
    have hk2 : d1.keeps (d1.withDdr { d1.ddr with thin := true }) [R.fltstat Blk.ddr, R.fltfirst Blk.ddr] := d1.keeps_withDdr _ _
    have hw : (d1.withDdr { d1.ddr with thin := true }).w64 (R.ddrCnt 3) = d1.w64 (R.ddrCnt 3) := rfl
    have ht : (d1.withDdr { d1.ddr with thin := true }).ddr.thin = true := rfl
    generalize d1.withDdr { d1.ddr with thin := true } = d2 at *
    refine ⟨(Dev.w64_raise ..).trans (hw.trans hcnt), ?_, fun _ => d2.flag_raise _ _ _ _ _ (by decide), hk.trans (hk2.trans (d2.keeps_raise _ _ _ _ _ (by simp) (by simp)))⟩
    rw [Dev.raise_ddr]
    exact ht

end

end

end Sys2Proof.Machine

/-!
PROOFS. The glean buffer: samples, the block that is written, the readback.
-/
namespace Sys2Proof.Machine

/-- The registers of the fault path of GLN. -/
def glnFlts : List Nat := [R.fltstat Blk.gln, R.fltfirst Blk.gln]

/-- The device with the state of GLN replaced. -/
def Dev.withGln (d : Dev) (x : Gln) : Dev := { d with gln := x }

theorem Dev.marks_withGln {d e : Dev} {l w : List Nat} (h : d.marks e l w) (x : Gln) : (d.withGln x).marks (e.withGln x) l w := by
  obtain ⟨⟨_, _, _, _, _, _, _, _, rfl⟩, hk, hw⟩ := h
  exact ⟨⟨_, _, _, _, _, _, _, _, rfl⟩, hk, hw⟩

theorem Dev.marks.gln {d e : Dev} {l w : List Nat} (h : d.marks e l w) : e.gln = d.gln := by
  obtain ⟨⟨_, _, _, _, _, _, _, _, rfl⟩, -, -⟩ := h
  rfl

theorem Dev.rf_withGln (d : Dev) (x : Gln) (o lo w : Nat) : (d.withGln x).rf o lo w = d.rf o lo w := rfl

theorem Dev.gleanFifo_marks (d : Dev) : d.marks d.gleanFifo [R.glnStat] [] := .setFld d _ _ _ (by simp)

theorem Dev.gleanFifo_state (d : Dev) : d.gleanFifo.gleanState = d.gleanState := Dev.rf_setFld_lo (h := by decide) (h32 := by decide) ..

section
variable (d : Dev) (c : Nat)

/-! ## Samples -/

/-- The frame of this tick (R407). -/
def Dev.gleanFrame : List Byte := (List.range (max 1 (d.lf R.glnCfg 0 10))).flatMap (fun i => beBytes 3 (d.gleanValue i))

/-- The frame put into the partial block. -/
def Dev.gleanAdd : Dev := d.withGln { d.gln with
  part := d.gln.part ++ d.gleanFrame
  frames := d.gln.frames + 1 }

/-- Glean has stopped on an overrun. -/
def Dev.gleanOver : Dev :=
  (((d.setFld R.glnStat 0 2 2).raise Blk.gln Src.glnOverrun (d.w64 R.glnWmark) d.tickLo 0)).onGln (fun g => { g with
    part := []
    stopAt := false })

/-- The partial block is full. -/
def Dev.gleanFull (all : List Byte) : Dev := ((d.onGln (fun g => { g with part := all.drop 4096 })).gleanForm (all.take 4096)).gleanFifo

theorem Dev.gleanSample_idle (h : d.gleanState ≠ 1 ∨ d.tick % 2 = 0) : d.gleanSample c = d := if_pos h

theorem Dev.gleanSample_eq (h1 : d.gleanState = 1) (ht : d.tick % 2 = 1) : d.gleanSample c =
    (let a := d.atC c
    if 0x40000 < a.gln.bytes + a.gleanFrame.length then a.gleanOver
    else if (a.gln.part ++ a.gleanFrame).length < 4096 then a.gleanAdd.gleanFifo else a.gleanAdd.gleanFull (a.gln.part ++ a.gleanFrame)) :=
  if_neg (by omega)

theorem Dev.gleanOver_leaves : d.gleanOver.gleanState = 2 ∧ d.gleanOver.flag Blk.gln Src.glnOverrun := by
  have hs : (d.setFld R.glnStat 0 2 2).rf R.glnStat 0 2 = 2 := Dev.rf_setFld _ _ _ _ _ (by decide)
  have hr : ((d.setFld R.glnStat 0 2 2).raise Blk.gln Src.glnOverrun (d.w64 R.glnWmark) d.tickLo 0).rf R.glnStat 0 2 = 2 := by
    rw [Dev.rf_raise_ne (h1 := by decide) (h2 := by decide), hs]
  have hf := (d.setFld R.glnStat 0 2 2).flag_raise Blk.gln Src.glnOverrun (d.w64 R.glnWmark) d.tickLo 0 (by decide)
  rw [Dev.gleanOver]
  generalize (d.setFld R.glnStat 0 2 2).raise Blk.gln Src.glnOverrun (d.w64 R.glnWmark) d.tickLo 0 = d1 at *
  exact ⟨hr, hf⟩

theorem Dev.gleanForm_leaves (bs : List Byte) : let e := d.gleanForm bs
    e.gln.part = d.gln.part ∧ e.gln.next = d.gln.next + 1 ∧ e.gln.pend.length = d.gln.pend.length + 1 ∧ e.gleanState = d.gleanState := by
  intro e
  obtain ⟨p, hp⟩ : ∃ p, p = (d.gln.next, bs, gleanFirst d.gleanFs d.gln.next d.gln.frames) := ⟨_, rfl⟩
  have hm : (d.withGln { d.gln with
      pend := d.gln.pend ++ [p]
      next := d.gln.next + 1 }).marks e [] [R.glnOldest] := by
    have he : e = (let d1 := d.withGln { d.gln with
        pend := d.gln.pend ++ [p]
        next := d.gln.next + 1 }
      if d.gleanB ≤ d.gln.next then d1.setW R.glnOldest (ceilDiv ((d.gln.next - d.gleanB + 1) * 4096) d.gleanFs) else d1) := by
      rw [hp]
      rfl
    rw [he]
    exact .ite (fun _ => .setW _ _ (by simp)) (fun _ => .refl _)
  have hg := hm.gln
  have hst := hm.rf (o := R.glnStat) 0 2 (by simp)
  rw [hg]
  exact ⟨rfl, rfl, List.length_append, hst⟩

theorem Dev.gleanFull_leaves (all : List Byte) : let e := d.gleanFull all
    e.gln.part = all.drop 4096 ∧ e.gln.next = d.gln.next + 1 ∧ e.gln.pend.length = d.gln.pend.length + 1 ∧ e.gleanState = d.gleanState := by
  obtain ⟨h1, h2, h3, h4⟩ := (d.onGln (fun g => { g with part := all.drop 4096 })).gleanForm_leaves (all.take 4096)
  have hs : (d.onGln (fun g => { g with part := all.drop 4096 })).gleanState = d.gleanState := rfl
  have hn : (d.onGln (fun g => { g with part := all.drop 4096 })).gln = { d.gln with part := all.drop 4096 } := rfl
  intro e
  have he : e = ((d.onGln (fun g => { g with part := all.drop 4096 })).gleanForm (all.take 4096)).gleanFifo := rfl
  clear_value e
  rw [he]
  generalize d.onGln (fun g => { g with part := all.drop 4096 }) = d1 at *
  generalize d1.gleanForm (all.take 4096) = d2 at *
  have hg := d2.gleanFifo_marks.gln
  rw [hg, h1, h2, h3, d2.gleanFifo_state, h4, hn, hs]
  exact ⟨rfl, rfl, rfl, rfl⟩

/-- A frame that enters the FIFO without filling its block. -/
theorem Dev.gleanAdd_leaves : d.gleanAdd.gleanFifo.gln = { d.gln with
    part := d.gln.part ++ d.gleanFrame
    frames := d.gln.frames + 1 } ∧ d.keeps d.gleanAdd.gleanFifo [R.glnStat] := by
  have hk : d.keeps d.gleanAdd [R.glnStat] := Dev.keeps_of_regs ⟨rfl, rfl, rfl⟩ _
  have hg : d.gleanAdd.gln = { d.gln with
    part := d.gln.part ++ d.gleanFrame
    frames := d.gln.frames + 1 } := rfl
  generalize d.gleanAdd = d1 at *
  exact ⟨d1.gleanFifo_marks.gln.trans hg, hk.trans d1.gleanFifo_marks.keeps⟩

theorem Dev.gleanSample_leaves (h1 : d.gleanState = 1) (ht : d.tick % 2 = 1) : let e := d.gleanSample c
    let fr := d.gleanFrame
    (0x40000 < d.gln.bytes + fr.length → e.gleanState = 2 ∧ e.flag Blk.gln Src.glnOverrun) ∧
    (d.gln.bytes + fr.length ≤ 0x40000 → d.gln.part.length + fr.length < 4096 → e.gln = { d.gln with
      part := d.gln.part ++ fr
      frames := d.gln.frames + 1 } ∧ d.keeps e [R.glnStat]) ∧
    (d.gln.bytes + fr.length ≤ 0x40000 → 4096 ≤ d.gln.part.length + fr.length →
      e.gln.part = (d.gln.part ++ fr).drop 4096 ∧ e.gln.next = d.gln.next + 1 ∧ e.gln.pend.length = d.gln.pend.length + 1 ∧ e.gleanState = 1) := by
  intro e fr
  have he : e = _ := d.gleanSample_eq c h1 ht
  have hfr : (d.atC c).gleanFrame = fr := rfl
  have hg : (d.atC c).gln = d.gln := rfl
  have hst : (d.atC c).gleanState = 1 := h1
  have hk : d.keeps (d.atC c) [R.glnStat] := Dev.keeps_of_regs ⟨rfl, rfl, rfl⟩ _
  clear_value e fr
  rw [he]
  generalize d.atC c = a at *
  dsimp only
  rw [hfr, hg, List.length_append]
  refine ⟨fun h => ?_, fun h hlt => ?_, fun h hge => ?_⟩
  · rw [if_pos h]
    exact a.gleanOver_leaves
  · rw [if_neg (by omega), if_pos hlt]
    obtain ⟨h2, h3⟩ := a.gleanAdd_leaves
    rw [hg, hfr] at h2
    exact ⟨h2, hk.trans h3⟩
  · rw [if_neg (by omega), if_neg (by omega)]
    obtain ⟨h2, h3, h4, h5⟩ := a.gleanAdd.gleanFull_leaves (d.gln.part ++ fr)
    have hadd : a.gleanAdd.gln = { a.gln with
      part := a.gln.part ++ a.gleanFrame
      frames := a.gln.frames + 1 } := rfl
    have hadds : a.gleanAdd.gleanState = a.gleanState := rfl
    rw [h2, h3, h4, h5, hadd, hg, hadds, hst]
    exact ⟨rfl, rfl, rfl, rfl⟩

/-! ## A block is written -/

/-- What a written block moves of the device: the check units, the counter, BSEQ and the watermark. -/
def Dev.gleanWritten (n : Nat) (bs : List Byte) (rest : List (Nat × List Byte × Nat)) : Dev :=
  let d1 := ((d.cvuSnoop 6 0 bs).bump (R.glnCnt 0) 1).setW R.glnBseq (n + 1)
  let w := min d1.gln.frames ((n + 1) * 4096 / d1.gleanFs)
  ((d1.setW R.glnWmark (max w (d1.w64 R.glnWmark))).onGln (fun g => { g with pend := rest })).gleanFifo

theorem Dev.gleanWritten_leaves (n : Nat) (bs : List Byte) (rest : List (Nat × List Byte × Nat)) : let e := d.gleanWritten n bs rest
    e.w64 R.glnBseq = (n + 1) % 2 ^ 64 ∧ d.counts e (R.glnCnt 0) 1 ∧ e.gln.pend = rest := by
  obtain ⟨hs, -⟩ := d.snoops_cvuSnoop (k := 6) (by decide) 0 bs
  have hb := Dev.w64_bump (d.cvuSnoop 6 0 bs) (R.glnCnt 0) 1
  rw [hs.w64 (o := R.glnCnt 0) (by decide)] at hb
  intro e
  have he : e = d.gleanWritten n bs rest := rfl
  clear_value e
  rw [Dev.gleanWritten] at he
  generalize (d.cvuSnoop 6 0 bs).bump (R.glnCnt 0) 1 = d1 at *
  have h1 : (d1.setW R.glnBseq (n + 1)).w64 R.glnBseq = (n + 1) % 2 ^ 64 := Dev.w64_setW ..
  have h2 : (d1.setW R.glnBseq (n + 1)).w64 (R.glnCnt 0) = d1.w64 (R.glnCnt 0) := Dev.w64_setW_ne _ _ _ _ (by decide)
  generalize d1.setW R.glnBseq (n + 1) = d2 at *
  generalize hx : max (min d2.gln.frames ((n + 1) * 4096 / d2.gleanFs)) (d2.w64 R.glnWmark) = x at he
  have h3 : d2.marks (d2.setW R.glnWmark x) [] [R.glnWmark] := .setW d2 x (by simp)
  generalize d2.setW R.glnWmark x = d3 at *
  have h4 : (d3.onGln (fun g => { g with pend := rest })).marks e [R.glnStat] [] := he ▸ Dev.gleanFifo_marks _
  have h5 (o : Nat) : (d3.onGln (fun g => { g with pend := rest })).w64 o = d3.w64 o := by rw [Dev.w64, Dev.onGln_wide, Dev.w64]
  refine ⟨?_, ?_, ?_⟩
  · rw [h4.w64 (by simp), h5, h3.w64 (by decide), h1]
  · rw [Dev.counts, h4.w64 (by simp), h5, h3.w64 (by decide), h2, hb]
  · rw [h4.gln, Dev.onGln_gln]

/-- The check entry of a block (R408). -/
def Dev.gleanEntry (n : Nat) (bs : List Byte) (first : Nat) : List Byte := leBytes 4 (d.cvuValue 6 bs) ++ leBytes 8 n ++ leBytes 4 first

theorem Dev.gleanEntry_length (n : Nat) (bs : List Byte) (first : Nat) : (d.gleanEntry n bs first).length = 16 := by
  rw [Dev.gleanEntry, List.length_append, List.length_append, length_leBytes, length_leBytes, length_leBytes]

theorem Dev.gleanB_pos : 0 < d.gleanB := by
  rw [Dev.gleanB]
  split <;> decide

/-- The table of check entries lies past the blocks. -/
theorem Dev.gleanTable_past : d.gleanBase + 4096 * d.gleanB ≤ d.gleanTable := by
  rw [Dev.gleanBase, Dev.gleanB, Dev.gleanTable]
  split <;> decide

end

section
variable (s : Sys) (c : Nat)

theorem Sys.gleanBlockDone_idle (h : s.dev.gln.pend = []) : s.gleanBlockDone c = s := by
  rw [Sys.gleanBlockDone, h]

/-- Where the blocks of glean lie does not depend on the cycle. -/
theorem Dev.glean_atC (d : Dev) (k : Nat) : (d.atC k).gleanBase = d.gleanBase ∧ (d.atC k).gleanB = d.gleanB ∧ (d.atC k).gleanTable = d.gleanTable ∧
    (d.atC k).gleanEntry = d.gleanEntry := by
  have h8 : (d.atC k).dram8 = d.dram8 := rfl
  have hv : (d.atC k).cvuValue = d.cvuValue := rfl
  refine ⟨?_, ?_, ?_, ?_⟩
  · rw [Dev.gleanBase, h8, Dev.gleanBase]
  · rw [Dev.gleanB, h8, Dev.gleanB]
  · rw [Dev.gleanTable, h8, Dev.gleanTable]
  · funext n bs first
    rw [Dev.gleanEntry, hv, Dev.gleanEntry]

theorem Sys.gleanBlockDone_eq {n : Nat} {bs : List Byte} {first : Nat} {rest : List (Nat × List Byte × Nat)} (h : s.dev.gln.pend = (n, bs, first) :: rest) :
    s.gleanBlockDone c = { s with
      mem := (s.mem.putBytes (s.dev.gleanBase + 4096 * (n % s.dev.gleanB)) bs).putBytes (s.dev.gleanTable + 16 * (n % s.dev.gleanB)) (s.dev.gleanEntry n bs first)
      dev := (s.dev.atC c).gleanWritten n bs rest } := by
  obtain ⟨hbase, hB, htab, hentry⟩ := s.dev.glean_atC c
  rw [← hbase, ← hB, ← htab, ← hentry, Sys.gleanBlockDone, h]
  rfl

theorem Sys.gleanBlockDone_leaves {n : Nat} {bs : List Byte} {first : Nat} {rest : List (Nat × List Byte × Nat)} (h : s.dev.gln.pend = (n, bs, first) :: rest)
    (hlen : bs.length = 4096) (hwf : s.mem.wf = true) : let j := n % s.dev.gleanB
    let t := s.gleanBlockDone c
    t.mem.bytes (s.dev.gleanBase + 4096 * j) 4096 = bs ∧ t.mem.bytes (s.dev.gleanTable + 16 * j) 16 = s.dev.gleanEntry n bs first ∧
    ∀ a, a < s.dev.gleanBase + 4096 * j ∨ s.dev.gleanBase + 4096 * j + 4096 ≤ a → a < s.dev.gleanTable + 16 * j ∨ s.dev.gleanTable + 16 * j + 16 ≤ a →
      t.mem.get a = s.mem.get a := by
  intro j t
  have hm : t.mem = (s.mem.putBytes (s.dev.gleanBase + 4096 * j) bs).putBytes (s.dev.gleanTable + 16 * j) (s.dev.gleanEntry n bs first) := by
    rw [show t = _ from s.gleanBlockDone_eq c h]
  have hj : j < s.dev.gleanB := Nat.mod_lt _ s.dev.gleanB_pos
  have hpast := s.dev.gleanTable_past
  have hel := s.dev.gleanEntry_length n bs first
  clear_value j t
  generalize s.dev.gleanEntry n bs first = entry at *
  have hwf1 : (s.mem.putBytes (s.dev.gleanBase + 4096 * j) bs).wf = true := Memory.putBytes_wf _ _ _ hwf
  have hb1 : (s.mem.putBytes (s.dev.gleanBase + 4096 * j) bs).bytes (s.dev.gleanBase + 4096 * j) 4096 = bs := hlen ▸ Memory.bytes_putBytes _ _ _ hwf
  have hg1 (a : Nat) (ha : a < s.dev.gleanBase + 4096 * j ∨ s.dev.gleanBase + 4096 * j + 4096 ≤ a) :
      (s.mem.putBytes (s.dev.gleanBase + 4096 * j) bs).get a = s.mem.get a := Memory.get_putBytes_ne _ _ _ _ (hlen ▸ ha) hwf
  generalize s.mem.putBytes (s.dev.gleanBase + 4096 * j) bs = m1 at *
  rw [hm]
  refine ⟨?_, ?_, fun a ha hb => ?_⟩
  · rw [Memory.bytes_putBytes_ne _ _ _ _ hwf1 (by omega), hb1]
  · have hb := Memory.bytes_putBytes entry m1 (s.dev.gleanTable + 16 * j) hwf1
    rwa [hel] at hb
  · rw [Memory.get_putBytes_ne _ _ _ _ (by omega) hwf1, hg1 a ha]

/-! ## The readback -/

/-- A block of the readback fails. -/
def Sys.blockBad (d : Dev) (j : Nat) : Bool :=
  d.cvuValue 6 (s.mem.bytes (d.gleanBase + 4096 * j) 4096) != le (s.mem.bytes (d.gleanTable + 16 * j) 16) 0 4

/-- The step of a readback's pass over its blocks. -/
def Sys.readbackStep (x : Dev × List Nat) (j : Nat) : Dev × List Nat :=
  let q := s.readbackBlock x.1 j
  (q.1, if q.2 then x.2 ++ [j] else x.2)

theorem Dev.marks.lf {d e : Dev} {l w : List Nat} (h : d.marks e l w) {o : Nat} (lo n : Nat) (ho : o ∉ l) : e.lf o lo n = d.lf o lo n := by
  rw [Dev.lf, h.lv ho, Dev.lf]

theorem Sys.readbackBlock_leaves (d : Dev) (j : Nat) (h : d.lf R.ddrForce 0 1 = 0) :
    d.marks (s.readbackBlock d j).1 [] [R.glnCnt 1, R.cvuFail 6] ∧ (s.readbackBlock d j).2 = s.blockBad d j := by
  have hf : d.dramForced 5 (d.gleanBase + 4096 * j) = (d, false) := if_neg (fun hc => absurd (h.symm.trans hc.1) (by decide))
  rw [Sys.readbackBlock, hf]
  exact ⟨.ite (fun _ => (Dev.marks.bump d 1 (by simp)).trans (.bump _ 1 (by simp))) (fun _ => .refl d), rfl⟩

theorem Sys.blockBad_congr {d e : Dev} {w : List Nat} (h : d.marks e [] w) (j : Nat) : s.blockBad e j = s.blockBad d j := by
  have hlv (o : Nat) : e.lv o = d.lv o := h.lv (by simp)
  have hv : e.cvuValue 6 = d.cvuValue 6 := by
    funext bs
    rw [Dev.cvuValue, Dev.cvuValue, Dev.crcPar, Dev.crcPar]
    simp only [hlv]
  have h8 : e.dram8 = d.dram8 := by rw [Dev.dram8, Dev.dram8, h.lf 0 1 (by simp)]
  rw [Sys.blockBad, Sys.blockBad, hv, Dev.gleanBase, Dev.gleanTable, h8]
  rfl

theorem Sys.readback_fold (l : List Nat) (d : Dev) (acc : List Nat) (h : d.lf R.ddrForce 0 1 = 0) :
    d.marks (l.foldl s.readbackStep (d, acc)).1 [] [R.glnCnt 1, R.cvuFail 6] ∧ (l.foldl s.readbackStep (d, acc)).2 = acc ++ l.filter (s.blockBad d) := by
  induction l generalizing d acc with
  | nil => exact ⟨.refl d, (List.append_nil acc).symm⟩
  | cons j l ih =>
    obtain ⟨hm, hb⟩ := s.readbackBlock_leaves d j h
    obtain ⟨hm2, hb2⟩ := ih (s.readbackBlock d j).1 (if (s.readbackBlock d j).2 then acc ++ [j] else acc) ((hm.lf 0 1 (by simp)).trans h)
    refine ⟨hm.trans hm2, hb2.trans ?_⟩
    rw [hb, List.filter_cons, funext (s.blockBad_congr hm)]
    by_cases hbad : s.blockBad d j = true
    · rw [if_pos hbad, if_pos hbad, List.append_assoc]
      rfl
    · rw [if_neg hbad, if_neg hbad]

theorem Sys.readbackDone_idle (h : s.dev.rf R.glnRbstat 31 1 = 0) : s.readbackDone c = s := if_pos h

/-- The blocks of a readback. -/
def Dev.readbackBlocks (d : Dev) : List Nat := (List.range (max 1 (d.rf R.glnRbctl 0 16))).map (fun i => (d.rf R.glnRbblock 0 21 + i) % d.gleanB)

/-- The result of a readback with the failing blocks `bad`. -/
def Dev.readbackSays (d : Dev) (bad : List Nat) : Dev :=
  let d1 := d.setReg R.glnRbstat (min 65535 bad.length)
  match bad with
  | [] => d1
  | f :: _ => (d1.setReg R.glnRbfirst f).raise Blk.gln Src.glnRbFail f (min 65535 bad.length) 0

theorem Sys.readbackDone_eq (h : s.dev.rf R.glnRbstat 31 1 = 1) : s.readbackDone c =
    (let r := (s.dev.atC c).readbackBlocks.foldl s.readbackStep (s.dev.atC c, [])
    { s with dev := r.1.readbackSays r.2 }) := by
  rw [Sys.readbackDone, if_neg (by omega)]
  change (let r := (s.dev.atC c).readbackBlocks.foldl s.readbackStep (s.dev.atC c, [])
    let d1 := r.1.setReg R.glnRbstat (min 65535 r.2.length)
    match r.2 with
    | [] => { s with dev := d1 }
    | f :: _ => { s with dev := (d1.setReg R.glnRbfirst f).raise Blk.gln Src.glnRbFail f (min 65535 r.2.length) 0 }) = _
  generalize (s.dev.atC c).readbackBlocks.foldl s.readbackStep (s.dev.atC c, []) = r
  obtain ⟨e, bad⟩ := r
  cases bad with
  | nil => rfl
  | cons f t => rfl

theorem Dev.readbackSays_leaves (d : Dev) (bad : List Nat) (hlt : ∀ j ∈ bad, j < 2 ^ 32) : (d.readbackSays bad).reg R.glnRbstat = min 65535 bad.length ∧
    (∀ f t, bad = f :: t → (d.readbackSays bad).reg R.glnRbfirst = f ∧ (d.readbackSays bad).flag Blk.gln Src.glnRbFail) ∧
    (bad = [] → d.keeps (d.readbackSays bad) [R.glnRbstat]) := by
  have h1 : (d.setReg R.glnRbstat (min 65535 bad.length)).reg R.glnRbstat = min 65535 bad.length := by
    rw [Dev.reg_setReg, Nat.mod_eq_of_lt (by omega)]
  have hm : d.marks (d.setReg R.glnRbstat (min 65535 bad.length)) [R.glnRbstat] [] := .setReg d _ (by simp)
  cases bad with
  | nil => exact ⟨h1, fun f t h => absurd h (by simp), fun _ => hm.keeps⟩
  | cons f t =>
    have he : d.readbackSays (f :: t) = ((d.setReg R.glnRbstat (min 65535 (f :: t).length)).setReg R.glnRbfirst f).raise Blk.gln Src.glnRbFail f
        (min 65535 (f :: t).length) 0 := rfl
    rw [he]
    generalize d.setReg R.glnRbstat (min 65535 (f :: t).length) = d1 at *
    have h2 : (d1.setReg R.glnRbfirst f).reg R.glnRbfirst = f := by rw [Dev.reg_setReg, Nat.mod_eq_of_lt (hlt f List.mem_cons_self)]
    have hm2 : d1.marks (d1.setReg R.glnRbfirst f) [R.glnRbfirst] [] := .setReg d1 _ (by simp)
    generalize d1.setReg R.glnRbfirst f = d2 at *
    have hm3 : d2.marks (d2.raise Blk.gln Src.glnRbFail f (min 65535 (f :: t).length) 0) glnFlts [] := .raise _ _ _ _ _ _ (by decide) (by decide)
    refine ⟨?_, fun g u hg => ⟨?_, d2.flag_raise _ _ _ _ _ (by decide)⟩, fun h => absurd h (by simp)⟩
    · rw [hm3.reg (by decide), hm2.reg (by decide), h1]
    · rw [hm3.reg (by decide), h2]
      exact (List.cons.inj hg).1

theorem Sys.readbackDone_leaves (h : s.dev.rf R.glnRbstat 31 1 = 1) (hforce : s.dev.lf R.ddrForce 0 1 = 0) :
    let bad := s.dev.readbackBlocks.filter (s.blockBad s.dev)
    ∃ e, s.readbackDone c = { s with dev := e } ∧ e.reg R.glnRbstat = min 65535 bad.length ∧
      (∀ f t, bad = f :: t → e.reg R.glnRbfirst = f ∧ e.flag Blk.gln Src.glnRbFail) ∧ (bad = [] → s.dev.keeps e [R.glnRbstat]) := by
  intro bad
  obtain ⟨hm, hb⟩ := s.readback_fold (s.dev.atC c).readbackBlocks (s.dev.atC c) [] hforce
  have he := s.readbackDone_eq c h
  have hbad : ((s.dev.atC c).readbackBlocks.foldl s.readbackStep (s.dev.atC c, [])).2 = bad := hb
  have hk : s.dev.keeps (s.dev.atC c) [R.glnRbstat] := Dev.keeps_of_regs ⟨rfl, rfl, rfl⟩ _
  have hlt : ∀ j ∈ bad, j < 2 ^ 32 := by
    intro j hj
    obtain ⟨i, -, rfl⟩ := List.mem_map.mp (List.mem_filter.mp hj).1
    have hB : s.dev.gleanB ≤ 2 ^ 32 := by
      rw [Dev.gleanB]
      split <;> decide
    exact lt_of_lt_of_le (Nat.mod_lt _ s.dev.gleanB_pos) hB
  generalize (s.dev.atC c).readbackBlocks.foldl s.readbackStep (s.dev.atC c, []) = r at *
  generalize s.dev.atC c = a at *
  clear_value bad
  obtain ⟨e, b⟩ := r
  have hb' : b = bad := hbad
  subst hb'
  obtain ⟨h1, h2, h3⟩ := e.readbackSays_leaves b hlt
  exact ⟨_, he, h1, h2, fun hn => (hk.trans (hm.keeps.mono (by simp))).trans (h3 hn)⟩

end

end Sys2Proof.Machine

/-!
PROOFS. The rows of the bus, the memory and the host link.
-/
namespace Sys2Proof.Machine

section
variable {z : State} {c : Nat} (hrun : z.Running) {q : BusReq} (hv : q.via = .internal) (hm : q.master < 10) (h7 : q.master ≠ 7)
  (hst : z.sys.dev.eng.stores = []) (hrq : z.sys.dev.eng.sreqs = [])
include hrun hv hm h7 hst hrq

/-- An internal master's request, with nothing of an issue open, is served at its cycle. -/
theorem exec_busRequest_internal : exec (.busRequest q c) z = .next (z.put ((z.sys.onDev (fun d => d.atC c)).serve Sys.hostWrite q q.addr)) := by
  rw [exec_runRow (f := fun s => s.busRequest Sys.hostWrite q c) rfl hrun.1]
  rw [z.sys.busRequest_internal Sys.hostWrite c hv hm h7 hst hrq]

/-- A request that no path or no open target answers is a decode error. -/
theorem exec_busRequest_refused (hno : z.sys.dev.busMay q = false)
    (h3 : z.sys.dev.target q.addr ≠ 3 ∨ (masterPaths q.master).contains (z.sys.dev.target q.addr) = false) :
    let d := z.sys.dev
    z.leads (exec (.busRequest q c) z) (fun e => d.counts e (R.bmxCnt 0) 1 ∧ e.reg R.bmxDecerr = d.target q.addr * 256 + 16 * b2n q.write + q.master ∧
      e.w64 R.bmxDecaddr = q.addr % 2 ^ 40 ∧ e.flag Blk.bmx Src.bmxDecerr ∧ (q.write = false → e.rdata = List.replicate q.bytes.length 0) ∧
      d.keeps e [R.bmxDecerr, R.fltstat Blk.bmx, R.fltfirst Blk.bmx]) := by
  intro d
  have hserve := (z.sys.onDev (fun d => d.atC c)).serve_refused Sys.hostWrite q h7 h3 hno
  obtain ⟨hcnt, herr, haddr, hf, hk⟩ := (d.atC c).decErr_leaves q.addr q.write hm h7
  have hk0 : d.keeps (d.atC c) [R.bmxDecerr, R.fltstat Blk.bmx, R.fltfirst Blk.bmx] := Dev.keeps_of_regs ⟨rfl, rfl, rfl⟩ _
  refine ⟨_, exec_busRequest_internal hrun hv hm h7 hst hrq, ?_⟩
  rw [hserve, Sys.answeredZeros]
  have hdev : ((z.sys.onDev (fun d => d.atC c)).onDev (fun d => d.decErr q.master q.addr q.write)).dev = (d.atC c).decErr q.master q.addr q.write := rfl
  have hout : ((z.sys.onDev (fun d => d.atC c)).onDev (fun d => d.decErr q.master q.addr q.write)).mem = z.sys.mem ∧
      ((z.sys.onDev (fun d => d.atC c)).onDev (fun d => d.decErr q.master q.addr q.write)).otp = z.sys.otp := ⟨rfl, rfl⟩
  generalize (z.sys.onDev (fun d => d.atC c)).onDev (fun d => d.decErr q.master q.addr q.write) = s1 at *
  rw [← hdev] at hcnt herr haddr hf hk
  have hall := hk0.trans hk
  dsimp only
  cases hw : q.write with
  | true => exact ⟨⟨hout.1, hout.2, rfl⟩, hcnt, by rw [hw] at herr; exact herr, haddr, hf, fun h => absurd h (by decide), hall⟩
  | false => exact ⟨⟨hout.1, hout.2, rfl⟩, hcnt, by rw [hw] at herr; exact herr, haddr, hf, fun _ => rfl, hall⟩

section
variable (hmay : z.sys.dev.busMay q = true) (h3 : z.sys.dev.target q.addr ≠ 3)
include hmay h3

theorem exec_busRequest_waits (hother : z.sys.dev.busGrant (z.sys.dev.target q.addr) q.last (q.master :: q.rivals) ≠ q.master) :
    exec (.busRequest q c) z = .next (z.onDev (fun d => d.atC c)) := by
  rw [exec_busRequest_internal hrun hv hm h7 hst hrq, (z.sys.onDev (fun d => d.atC c)).serve_granted Sys.hostWrite q h7 h3 hmay]
  rw [if_pos (show (z.sys.onDev (fun d => d.atC c)).dev.busGrant ((z.sys.onDev (fun d => d.atC c)).dev.target q.addr) q.last (q.master :: q.rivals) ≠ q.master from hother)]
  rfl

variable (hriv : q.rivals = [])
include hriv

/-- A request without a rival at a memory other than the sample memory is served. -/
theorem exec_busRequest_alone (h1 : z.sys.dev.target q.addr ≠ 1) (h2 : z.sys.dev.target q.addr ≠ 2) :
    let s := z.sys.onDev (fun d => d.atC c)
    exec (.busRequest q c) z = .next (z.put (if q.write then s.onMem (fun m => m.putEn q.addr q.bytes)
      else (if s.dev.target q.addr = 0 then s.dramRead q.master q.addr q.ecc else s).onDev
        (fun d => { d with rdata := ((s.memSeen d.cycle).bytes q.addr q.bytes.length).map (fun b => b.toNat) }))) := by
  intro s
  have hpath := ((z.sys.dev.busMay_iff q).mp hmay).1
  have hg : s.dev.busGrant (s.dev.target q.addr) q.last (q.master :: q.rivals) = q.master := by
    rw [hriv]
    exact Dev.busGrant_alone _ _ hpath
  rw [exec_busRequest_internal hrun hv hm h7 hst hrq, (z.sys.onDev (fun d => d.atC c)).serve_granted Sys.hostWrite q h7 h3 hmay, if_neg (not_not.mpr hg), if_neg (fun h => h1 h.1), if_neg (show s.dev.target q.addr ≠ 2 from h2),
    if_neg (show s.dev.target q.addr ≠ 1 from h1)]

theorem exec_busRequest_reads (h0 : z.sys.dev.target q.addr = 0) (hw : q.write = false) (hecc : q.ecc = 0) (hforce : z.sys.dev.lf R.ddrForce 0 1 = 0)
    (hold : z.sys.dev.eng.oldC ≠ c ∨ z.sys.dev.eng.olds = []) : z.leads (exec (.busRequest q c) z) (fun e =>
      e.rdata = (z.sys.mem.bytes q.addr q.bytes.length).map (fun b => b.toNat) ∧ z.sys.dev.keeps e []) := by
  refine ⟨_, exec_busRequest_alone hrun hv hm h7 hst hrq hmay h3 hriv (by omega) (by omega), ?_⟩
  rw [hw, hecc, Sys.dramRead_clean q.master q.addr (s := z.sys.onDev (fun d => d.atC c)) hforce]
  have hseen : (z.sys.onDev (fun d => d.atC c)).memSeen c = z.sys.mem := Sys.memSeen_now (s := z.sys.onDev (fun d => d.atC c)) hold
  rw [if_neg (by decide), ite_self]
  refine ⟨⟨rfl, rfl, rfl⟩, ?_, Dev.keeps_of_regs ⟨rfl, rfl, rfl⟩ _⟩
  rw [← hseen]
  rfl

theorem exec_busRequest_writes {bs : List Byte} (ht : z.sys.dev.target q.addr = 0 ∨ z.sys.dev.target q.addr = 4 ∨ z.sys.dev.target q.addr = 5) (hw : q.write = true)
    (hbs : q.bytes = bs.map some) (hinv : z.Inv) : z.leadsSys (exec (.busRequest q c) z) (fun s => z.sys.stored s q.addr bs ∧ s.dev = z.sys.dev.atC c) := by
  refine ⟨_, exec_busRequest_alone hrun hv hm h7 hst hrq hmay h3 hriv (by omega) (by omega), ?_⟩
  rw [hw, hbs, if_pos rfl]
  refine ⟨rfl, rfl, stored_putBytes (u := z.sys) hinv rfl (Memory.putEn_some bs z.sys.mem q.addr), rfl⟩

end

end

theorem exec_heldRequestRelease {z : State} {c : Nat} (n : Nat) (hrun : z.Running) : z.leads (exec (.heldRequestRelease n c) z) (fun e =>
    z.sys.dev.counts e (R.bmxCnt 1) n ∧ z.sys.dev.keeps e []) :=
  leads_of_runRow (f := fun d => d.heldRelease n c) rfl hrun.1 ⟨Dev.w64_bump _ _ _, Dev.keeps_of_regs ⟨rfl, rfl, rfl⟩ _⟩

theorem exec_gleanBlockDone {z : State} {c n : Nat} {bs : List Byte} {first : Nat} {rest : List (Nat × List Byte × Nat)} (hrun : z.Running)
    (hp : z.sys.dev.gln.pend = (n, bs, first) :: rest) (hlen : bs.length = 4096) (hinv : z.Inv) :
    let d := z.sys.dev
    let j := n % d.gleanB
    z.leadsSys (exec (.gleanBlockDone c) z) (fun s =>
      s.mem.bytes (d.gleanBase + 4096 * j) 4096 = bs ∧ s.mem.bytes (d.gleanTable + 16 * j) 16 = d.gleanEntry n bs first ∧
      (∀ a, a < d.gleanBase + 4096 * j ∨ d.gleanBase + 4096 * j + 4096 ≤ a → a < d.gleanTable + 16 * j ∨ d.gleanTable + 16 * j + 16 ≤ a →
        s.mem.get a = z.sys.mem.get a) ∧
      s.dev.w64 R.glnBseq = (n + 1) % 2 ^ 64 ∧ d.counts s.dev (R.glnCnt 0) 1 ∧ s.dev.gln.pend = rest) := by
  intro d j
  have hotp : (z.sys.gleanBlockDone c).otp = z.sys.otp := by rw [z.sys.gleanBlockDone_eq c hp]
  have hdev : (z.sys.gleanBlockDone c).dev = (d.atC c).gleanWritten n bs rest := by rw [z.sys.gleanBlockDone_eq c hp]
  obtain ⟨hb, he, hg⟩ := z.sys.gleanBlockDone_leaves c hp hlen hinv
  obtain ⟨hseq, hcnt, hpend⟩ := (d.atC c).gleanWritten_leaves n bs rest
  rw [← hdev] at hseq hcnt hpend
  exact leadsSys_of_tickRow (f := fun s => s.gleanBlockDone c) rfl hrun hotp ⟨hb, he, hg, hseq, hcnt, hpend⟩

theorem exec_perst_leads {z : State} {c : Nat} (low : Bool) {P : Dev → Prop} (h : P (z.sys.dev.perst low c)) : z.leads (exec (.perst low c) z) P :=
  ⟨_, rfl, ⟨rfl, rfl, rfl⟩, h⟩

/-- An internal master's request: a decode error, a wait, a read, or a write. -/
theorem busRequest_rows {z : State} {c : Nat} (hrun : z.Running) {q : BusReq} (hv : q.via = .internal) (hm : q.master < 10) (h7 : q.master ≠ 7)
    (hst : z.sys.dev.eng.stores = []) (hrq : z.sys.dev.eng.sreqs = []) :
    let d := z.sys.dev
    let n := q.bytes.length
    let t := d.target q.addr
    let may := (masterPaths q.master).contains t = true ∧ 0 < n ∧ t ≠ 3 ∧ d.target (q.addr + n - 1) = t ∧ (t = 1 → d.exClosed q.addr n = false)
    ((masterPaths q.master).contains t = false ∨ (t = 1 ∧ d.exClosed q.addr n = true) → z.leads (exec (.busRequest q c) z) (fun e => d.counts e (R.bmxCnt 0) 1 ∧
      e.reg R.bmxDecerr = t * 256 + 16 * b2n q.write + q.master ∧ e.w64 R.bmxDecaddr = q.addr % 2 ^ 40 ∧ e.flag Blk.bmx Src.bmxDecerr ∧
      (q.write = false → e.rdata = List.replicate n 0) ∧ d.keeps e [R.bmxDecerr, R.fltstat Blk.bmx, R.fltfirst Blk.bmx])) ∧
    (may → d.busGrant t q.last (q.master :: q.rivals) ≠ q.master → exec (.busRequest q c) z = .next (z.onDev (fun d => d.atC c))) ∧
    (may → q.rivals = [] → t = 0 → q.write = false → q.ecc = 0 → d.lf R.ddrForce 0 1 = 0 → d.eng.oldC ≠ c ∨ d.eng.olds = [] →
      z.leads (exec (.busRequest q c) z) (fun e => e.rdata = (z.sys.mem.bytes q.addr n).map (fun b => b.toNat) ∧ d.keeps e [])) ∧
    (∀ bs, may → q.rivals = [] → t = 0 ∨ t = 4 ∨ t = 5 → q.write = true → q.bytes = bs.map some → z.Inv → z.leadsSys (exec (.busRequest q c) z) (fun s =>
      z.sys.stored s q.addr bs ∧ s.dev = d.atC c)) := by
  intro d n t may
  refine ⟨fun h => ?_, fun hmay hother => ?_, fun hmay hriv h0 hw hecc hforce hold => ?_, fun bs hmay hriv ht hw hbs hinv => ?_⟩
  · have hno : d.busMay q = false := by
      rw [Bool.eq_false_iff, ne_eq, d.busMay_iff]
      rintro ⟨hp, -, -, hx⟩
      rcases h with h | ⟨ht, h⟩
      · exact absurd (h.symm.trans hp) (by decide)
      · exact absurd (h.symm.trans (hx ht)) (by decide)
    exact exec_busRequest_refused hrun hv hm h7 hst hrq hno (h.symm.imp (fun h3 => by rw [show d.target q.addr = 1 from h3.1]; decide) id)
  · obtain ⟨hp, hn, h3, ht, hx⟩ := hmay
    exact exec_busRequest_waits hrun hv hm h7 hst hrq ((d.busMay_iff q).mpr ⟨hp, hn, ht, hx⟩) h3 hother
  · obtain ⟨hp, hn, h3, ht, hx⟩ := hmay
    exact exec_busRequest_reads hrun hv hm h7 hst hrq ((d.busMay_iff q).mpr ⟨hp, hn, ht, hx⟩) h3 hriv h0 hw hecc hforce hold
  · obtain ⟨hp, hn, h3, hend, hx⟩ := hmay
    exact exec_busRequest_writes hrun hv hm h7 hst hrq ((d.busMay_iff q).mpr ⟨hp, hn, hend, hx⟩) h3 hriv ht hw hbs hinv

/-- Settles O59: each row of the bus, refresh, glean and the endpoint, through the lemma that says what its operation leaves. -/
theorem busMemoryAndTheHostLink : Obligations.BusMemoryAndTheHostLink := by
  intro z c hrun d same
  have hsame {i : Instr} {f : Sys → Sys} (hi : exec i z = z.tickRow f) (h : f z.sys = z.sys) : exec i z = .next z := exec_tickRow_same hi hrun h
  have hdevSame {i : Instr} {f : Dev → Dev} (hi : exec i z = z.tickRow (fun s => s.onDev f)) (h : f d = d) : exec i z = .next z :=
    hsame hi (by rw [Sys.onDev, h])
  refine ⟨fun q hv hm h7 hst hrq => ?_, fun q hv hdown => ?_, fun n => exec_heldRequestRelease n hrun, fun hs => ⟨fun ch => ?_, fun v0 k0 v1 k1 => ?_⟩,
    fun sh hs => ⟨fun ch hch => ⟨fun h => ?_, fun h hact => ?_, fun h hact h2 => ?_⟩, fun v0 k0 v1 k1 => ⟨fun ho => ?_, fun he => ?_⟩⟩,
    fun h => ?_, fun h1 ht => ?_, fun h => ?_, fun n bs first rest hp hlen hinv => exec_gleanBlockDone hrun hp hlen hinv, fun h => ?_, fun h hforce => ?_,
    fun low => ?_, fun width speed => ⟨fun h => ?_, fun h => ?_⟩, fun h => ?_, fun h => ?_⟩
  · exact busRequest_rows hrun hv hm h7 hst hrq
  · rw [exec_runRow (f := fun s => s.busRequest Sys.hostWrite q c) rfl hrun.1, z.sys.busRequest_linkless Sys.hostWrite c hv hdown]
    rfl
  · refine hdevSame (f := fun d => d.refreshSlot ch c) rfl ?_
    rw [Dev.refreshSlot, hs]
  · exact hdevSame (f := fun d => d.mr4Read v0 k0 v1 k1) rfl (d.mr4Read_idle v0 k0 v1 k1 (.inl hs))
  · exact hdevSame (f := fun d => d.refreshSlot ch c) rfl (d.refreshSlot_other hs c h)
  · exact exec_tickRow_still (f := fun d => d.refreshSlot ch c) rfl hrun (d.refreshSlot_planned hs c hch h hact)
  · exact leads_of_tickRow (f := fun d => d.refreshSlot ch c) rfl hrun (d.refreshSlot_extra hs c hch h hact h2)
  · exact hdevSame (f := fun d => d.mr4Read v0 k0 v1 k1) rfl (d.mr4Read_idle v0 k0 v1 k1 (.inr ho))
  · exact leads_of_tickRow (f := fun d => d.mr4Read v0 k0 v1 k1) rfl hrun (d.mr4Read_leaves v0 k0 v1 k1 hs he)
  · exact hdevSame (f := fun d => d.gleanSample c) rfl (d.gleanSample_idle c h)
  · obtain ⟨hover, hpart, hfull⟩ := d.gleanSample_leaves c h1 ht
    exact ⟨fun h => leads_of_tickRow (f := fun d => d.gleanSample c) rfl hrun (hover h), fun h hl => leads_of_tickRow (f := fun d => d.gleanSample c) rfl hrun (hpart h hl),
      fun h hl => leads_of_tickRow (f := fun d => d.gleanSample c) rfl hrun (hfull h hl)⟩
  · exact hsame (f := fun s => s.gleanBlockDone c) rfl (z.sys.gleanBlockDone_idle c h)
  · exact hsame (f := fun s => s.readbackDone c) rfl (z.sys.readbackDone_idle c h)
  · obtain ⟨e, he, hreg, hfirst, hk⟩ := z.sys.readbackDone_leaves c h hforce
    refine ⟨_, exec_tickRow (f := fun s => s.readbackDone c) rfl hrun, ?_⟩
    rw [he]
    exact ⟨⟨rfl, rfl, rfl⟩, hreg, hfirst, hk⟩
  · refine exec_perst_leads low ?_
    cases low with
    | true =>
      obtain ⟨hclk, heng, hag, hst, hcause, hring⟩ := d.perst_low c
      have hr : ∀ r, r < 2 → R.cmdChead r ∈ ringRegs ∧ R.cmdCtail r ∈ ringRegs := by decide
      exact ⟨hclk, heng, hag, fun _ => ⟨hst, hcause, fun r h => ⟨hring _ (hr r h).1, hring _ (hr r h).2⟩⟩, fun h => absurd h (by decide)⟩
    | false => exact ⟨rfl, rfl, rfl, fun h => absurd h (by decide), fun _ => Dev.keeps_of_regs ⟨rfl, rfl, rfl⟩ _⟩
  · obtain ⟨hdown, hclk, hw, hs⟩ := h
    exact leads_of_runRow (f := fun d => d.pcieLinkUp width speed c) rfl hrun.1 (d.pcieLinkUp_leaves c hdown hclk hw hs)
  · exact exec_runRow_same (f := fun d => d.pcieLinkUp width speed c) rfl hrun.1 (d.pcieLinkUp_idle h)
  · have he : d.pcieLinkDown c = d.atC c := if_pos h
    rw [exec_runRow (f := fun s => s.onDev (fun d => d.pcieLinkDown c)) rfl hrun.1]
    exact congrArg (fun e => Host.Outcome.next (z.put { z.sys with dev := e })) he
  · obtain ⟨hm, hst, hrest⟩ := (d.atC c).pcieLinkLost_leaves
    obtain ⟨hcnt, hf⟩ := hrest h
    have hk0 : d.keeps (d.atC c) [R.pcieStat, R.fltstat Blk.pcie, R.fltfirst Blk.pcie] := Dev.keeps_of_regs ⟨rfl, rfl, rfl⟩ _
    exact leads_of_runRow (f := fun d => d.pcieLinkDown c) rfl hrun.1 ⟨hst, hcnt, hf, hm.eng, hm.agenda, hk0.trans hm.keeps⟩

end Sys2Proof.Machine

/-!
PROOFS. The resets POR_N and RESET_N: what the straps set, what the always-on domain keeps.
-/
namespace Sys2Proof.Machine

/-! ## A table of registers of which a part is kept -/

theorem tabGet_filter {α : Type} (p : Nat → Bool) (t : List (Nat × α)) (k : Nat) : tabGet (t.filter (fun r => p r.1)) k = if p k then tabGet t k else none := by
  induction t with
  | nil => exact (ite_self none).symm
  | cons a t ih =>
    obtain ⟨j, v⟩ := a
    rw [List.filter_cons, tabGet]
    by_cases hp : p j = true
    · rw [if_pos hp, tabGet]
      by_cases hj : j = k
      · rw [if_pos hj, if_pos hj, if_pos (hj ▸ hp)]
      · rw [if_neg hj, if_neg hj, ih]
    · rw [if_neg hp, ih]
      by_cases hj : j = k
      · rw [if_neg (hj ▸ hp), if_neg (hj ▸ hp)]
      · rw [if_neg hj]

/-- A register where only those with `p` are kept. -/
theorem Dev.reg_of_filter {d e : Dev} {p : Nat → Bool} (h : e.regs = d.regs.filter (fun r => p r.1)) (o : Nat) :
    e.reg o = if p o then d.reg o else resetVal o := by
  rw [Dev.reg, h, tabGet_filter]
  by_cases hp : p o = true
  · rw [if_pos hp, if_pos hp, Dev.reg]
  · rw [if_neg hp, if_neg hp]

/-! ## The straps -/

/-- The registers of the straps and of the boot state. -/
def strapRegs : List Nat := [R.sysBootcfg, R.sysBootstat, R.pairStat]

theorem Dev.straps_leaves (d : Dev) (bootsel : Nat) (pairId testmode : Bool) : let e := d.straps bootsel pairId testmode
    d.marks e strapRegs [] ∧ e.reg R.sysBootcfg = bootsel % 4 + 4 * b2n pairId + 8 * b2n testmode ∧ e.bootState = 1 := by
  have hb (b : Bool) : b2n b ≤ 1 := by cases b <;> decide
  have h1 := hb pairId
  have h2 := hb testmode
  have hcfg : (d.setReg R.sysBootcfg (bootsel % 4 + 4 * b2n pairId + 8 * b2n testmode)).reg R.sysBootcfg = bootsel % 4 + 4 * b2n pairId + 8 * b2n testmode := by
    rw [Dev.reg_setReg, Nat.mod_eq_of_lt (by omega)]
  have hm : d.marks (d.setReg R.sysBootcfg (bootsel % 4 + 4 * b2n pairId + 8 * b2n testmode)) strapRegs [] := .setReg d _ (by decide)
  intro e
  have he : e = ((d.setReg R.sysBootcfg (bootsel % 4 + 4 * b2n pairId + 8 * b2n testmode)).setFld R.pairStat 5 1 (b2n pairId)).setReg R.sysBootstat 1 := rfl
  clear_value e
  rw [he]
  generalize d.setReg R.sysBootcfg (bootsel % 4 + 4 * b2n pairId + 8 * b2n testmode) = d1 at *
  have hm2 : d1.marks (d1.setFld R.pairStat 5 1 (b2n pairId)) [R.pairStat] [] := .setFld d1 _ _ _ (by simp)
  generalize d1.setFld R.pairStat 5 1 (b2n pairId) = d2 at *
  have hm3 : d2.marks (d2.setReg R.sysBootstat 1) [R.sysBootstat] [] := .setReg d2 _ (by simp)
  refine ⟨hm.trans ((hm2.mono (by decide) (by simp)).trans (hm3.mono (by decide) (by simp))), ?_, ?_⟩
  · rw [hm3.reg (by decide), hm2.reg (by decide), hcfg]
  · rw [Dev.bootState, Dev.rf, Dev.reg_setReg]
    rfl

/-! ## POR_N -/

theorem Dev.marks.inReset {d e : Dev} {l w : List Nat} (h : d.marks e l w) : e.inReset = d.inReset := by
  obtain ⟨⟨_, _, _, _, _, _, _, _, rfl⟩, -, -⟩ := h
  rfl

/-- The device that POR_N leaves before its straps are taken. -/
def Dev.blank (o : Dev) (testmode : Bool) : Dev :=
  { testMode := o.testMode && testmode
    free := o.free
    cmd := { draw := [0], fails := o.cmd.fails }
    out := o.out }

/-- Factory test mode, where it lasts, keeps FAULT_N asserted. -/
def Dev.porTest (d o : Dev) : Dev := if d.testMode then d.faultAssert (o.rf R.bbxFault 0 5) else d

theorem Sys.powerOnReset_eq (s : Sys) (bootsel : Nat) (pairId testmode : Bool) (h : s.dev.testMode = false) :
    s.powerOnReset bootsel pairId testmode = { dev := (s.dev.blank testmode).straps bootsel pairId testmode, mem := [], otp := s.otp } := by
  have ht : ((s.dev.blank testmode).straps bootsel pairId testmode).testMode = false := by
    obtain ⟨hm, -, -⟩ := (s.dev.blank testmode).straps_leaves bootsel pairId testmode
    rw [hm.testMode]
    exact (congrArg (· && testmode) h).trans rfl
  have he : s.powerOnReset bootsel pairId testmode = { dev := ((s.dev.blank testmode).straps bootsel pairId testmode).porTest s.dev, mem := [], otp := s.otp } := rfl
  rw [he, Dev.porTest, ht]
  rfl

theorem exec_powerOnReset {z : State} (bootsel : Nat) (pairId testmode : Bool) (h : z.sys.dev.testMode = false) :
    z.leadsSys (exec (.powerOnReset bootsel pairId testmode) z) (fun s => s.mem = [] ∧ s.dev.tick = 0 ∧ s.dev.agenda = [] ∧
      s.dev.eng = {} ∧ s.dev.bootState = 1 ∧ s.dev.inReset = false ∧ s.dev.reg R.sysBootcfg = bootsel % 4 + 4 * b2n pairId + 8 * b2n testmode ∧
      ∀ off, off ∉ [R.sysBootcfg, R.sysBootstat, R.pairStat] → s.dev.reg off = resetVal off ∧ s.dev.w64 off = 0) := by
  obtain ⟨hm, hcfg, hboot⟩ := (z.sys.dev.blank testmode).straps_leaves bootsel pairId testmode
  have hreg (o : Nat) : (z.sys.dev.blank testmode).reg o = resetVal o := rfl
  have hw (o : Nat) : (z.sys.dev.blank testmode).w64 o = 0 := rfl
  refine ⟨z.put (z.sys.powerOnReset bootsel pairId testmode), rfl, ?_⟩
  rw [z.sys.powerOnReset_eq bootsel pairId testmode h]
  exact ⟨rfl, rfl, rfl, hm.tick, hm.agenda, hm.eng, hboot, hm.inReset, hcfg, fun o ho => ⟨(hm.reg ho).trans (hreg o), (hm.w64 (by simp)).trans (hw o)⟩⟩

/-! ## RESET_N -/

/-- What the always-on domain holds, with the rest at its reset values. -/
def Dev.aoBare (d : Dev) : Dev := {
    regs := d.regs.filter (fun r => aoReg r.1)
    wide := d.wide.filter (fun r => aoReg r.1)
    latch := d.latch.filter (fun r => aoReg r.1)
    flt := (List.range 31).map (fun b => if aoBlock b then { d.fltOf b with react := none, yieldL := false, hot := 0 } else {})
    evt := { made := d.evt.made.filter EvRec.session }
    bbx := { d.bbx with clkCond := false, clrReq := false }
    pcie := { sent := d.pcie.sent, pmeMsgs := d.pcie.pmeMsgs, clkreq := d.pcie.clkreq }
    testMode := d.testMode
    mod := { shut := d.rf R.pwrTherm 0 1 == 1 }
    free := d.free
    cmd := { fuse := d.cmd.fuse, draw := d.cmd.draw, fails := d.cmd.fails }
    rdata := d.rdata
    out := d.out }

/-- The values that AO keeps for other blocks, put back. -/
def Dev.aoRest (n d : Dev) : Dev :=
  let n1 := n.setReg R.pwrDomctl (d.lv R.pwrDomctl)
  let n2 := if d.paired then n1.setFld R.pairCtrl 31 1 1 else n1
  ((n2.setReg R.synStat (d.rf R.synStat 0 1)).setFld R.pairStat 5 1 (d.rf R.pairStat 5 1)).setFld R.keyTrngstat 0 1 0

theorem Dev.aoKept_eq (d : Dev) (h : d.rf R.pwrTherm 0 1 = 0) : d.aoKept = d.aoBare.aoRest d := by
  have hs : (d.rf R.pwrTherm 0 1 == 1) = false := by
    rw [h]
    rfl
  rw [Dev.aoKept]
  simp only [hs, Bool.false_eq_true, if_false]
  rw [Dev.aoBare, hs]
  rfl

/-- The registers that are put back. -/
def aoRestRegs : List Nat := [R.pwrDomctl, R.pairCtrl, R.synStat, R.pairStat, R.keyTrngstat]

theorem Dev.aoRest_leaves (n d : Dev) : n.marks (n.aoRest d) aoRestRegs [] ∧ (n.aoRest d).rf R.synStat 0 1 = d.rf R.synStat 0 1 ∧ (n.aoRest d).rf R.synStat 1 1 = 0 := by
  have h1 : n.marks (n.setReg R.pwrDomctl (d.lv R.pwrDomctl)) aoRestRegs [] := .setReg n _ (by decide)
  rw [Dev.aoRest]
  generalize n.setReg R.pwrDomctl (d.lv R.pwrDomctl) = n1 at *
  have h2 : n1.marks (if d.paired then n1.setFld R.pairCtrl 31 1 1 else n1) aoRestRegs [] := .ite (fun _ => .setFld _ _ _ _ (by decide)) (fun _ => .refl _)
  generalize (if d.paired then n1.setFld R.pairCtrl 31 1 1 else n1) = n2 at *
  have hlt : d.rf R.synStat 0 1 < 2 := Nat.mod_lt _ (by decide)
  have h3 : n2.marks (n2.setReg R.synStat (d.rf R.synStat 0 1)) aoRestRegs [] := .setReg n2 _ (by decide)
  have hs : (n2.setReg R.synStat (d.rf R.synStat 0 1)).reg R.synStat = d.rf R.synStat 0 1 := by rw [Dev.reg_setReg, Nat.mod_eq_of_lt (by omega)]
  generalize n2.setReg R.synStat (d.rf R.synStat 0 1) = n3 at *
  have h4 : n3.marks ((n3.setFld R.pairStat 5 1 (d.rf R.pairStat 5 1)).setFld R.keyTrngstat 0 1 0) [R.pairStat, R.keyTrngstat] [] :=
    (Dev.marks.setFld n3 _ _ _ (by decide)).trans (.setFld _ _ _ _ (by decide))
  generalize (n3.setFld R.pairStat 5 1 (d.rf R.pairStat 5 1)).setFld R.keyTrngstat 0 1 0 = n4 at *
  refine ⟨((h1.trans h2).trans h3).trans (h4.mono (by decide) (by simp)), ?_, ?_⟩
  · rw [h4.rf 0 1 (by decide), Dev.rf, hs, fld, Nat.pow_zero, Nat.div_one, Nat.mod_eq_of_lt (by omega)]
  · rw [h4.rf 1 1 (by decide), Dev.rf, hs, fld, Nat.div_eq_of_lt (by omega)]
    rfl

/-- The device as RESET_N leaves it before the straps, `k` being what AO kept. -/
def Dev.warmBare (k : Dev) : Dev := { k with
    regs := k.regs.filter (fun r => !gpioDrive r.1)
    inReset := k.rf R.synStat 0 1 == 0
    cmd := { k.cmd with draw := if k.cmd.draw.contains 0 then k.cmd.draw else k.cmd.draw ++ [1] } }

/-- The straps, the cause, the domains and the DRAM. -/
def Dev.warmRest (k1 : Dev) (bootsel : Nat) (pairId testmode : Bool) : Dev :=
  let k2 := ((k1.straps bootsel pairId testmode).setFld R.sysRstcause 1 1 1).setFld R.pwrDomstat 0 12 (k1.lv R.pwrDomctl)
  let k3 := k2.setFld R.ddrStat 0 2 2
  if k3.paired then k3.setFld R.pairStat 0 3 3 else k3

theorem Dev.cancelUnresolved_none (d : Dev) (ha : d.cmd.await = []) (hi : d.cmd.imm = []) : d.cancelUnresolved = d := by
  rw [Dev.cancelUnresolved, ha, hi]
  rfl

theorem Sys.warmReset_eq (s : Sys) (bootsel : Nat) (pairId testmode : Bool) (ha : s.dev.cmd.await = []) (hi : s.dev.cmd.imm = [])
    (h : s.dev.rf R.pwrTherm 0 1 = 0) : s.warmReset bootsel pairId testmode =
      { s with dev := (s.dev.aoBare.aoRest s.dev).warmBare.warmRest bootsel pairId testmode, mem := s.mem.aoKept } := by
  rw [Sys.warmReset, s.dev.cancelUnresolved_none ha hi, s.dev.aoKept_eq h]
  rfl

/-- The registers that RESET_N sets. -/
def warmRegs : List Nat := R.sysRstcause :: R.pwrDomstat :: R.ddrStat :: strapRegs

theorem Dev.warmRest_leaves (k1 : Dev) (bootsel : Nat) (pairId testmode : Bool) : let e := k1.warmRest bootsel pairId testmode
    k1.marks e warmRegs [] ∧ e.bootState = 1 ∧ e.rf R.sysRstcause 1 1 = 1 := by
  obtain ⟨hm, -, hb⟩ := k1.straps_leaves bootsel pairId testmode
  intro e
  have he : e = k1.warmRest bootsel pairId testmode := rfl
  clear_value e
  rw [Dev.warmRest] at he
  generalize k1.straps bootsel pairId testmode = d1 at *
  have hc : (d1.setFld R.sysRstcause 1 1 1).rf R.sysRstcause 1 1 = 1 := Dev.rf_setFld _ _ _ _ _ (by decide)
  have h2 : d1.marks (d1.setFld R.sysRstcause 1 1 1) [R.sysRstcause] [] := .setFld d1 _ _ _ (by decide)
  generalize d1.setFld R.sysRstcause 1 1 1 = d2 at *
  have h3 : d2.marks ((d2.setFld R.pwrDomstat 0 12 (k1.lv R.pwrDomctl)).setFld R.ddrStat 0 2 2) [R.pwrDomstat, R.ddrStat] [] :=
    (Dev.marks.setFld d2 _ _ _ (by decide)).trans (.setFld _ _ _ _ (by decide))
  generalize (d2.setFld R.pwrDomstat 0 12 (k1.lv R.pwrDomctl)).setFld R.ddrStat 0 2 2 = d3 at *
  have h4 : d3.marks e [R.pairStat] [] := by
    rw [he]
    exact .ite (fun _ => .setFld _ _ _ _ (by decide)) (fun _ => .refl _)
  refine ⟨(hm.mono (by decide) (by simp)).trans ((h2.mono (by decide) (by simp)).trans ((h3.mono (by decide) (by simp)).trans (h4.mono (by decide) (by simp)))), ?_, ?_⟩
  · rw [Dev.bootState, h4.rf 0 4 (by decide), h3.rf 0 4 (by decide), h2.rf 0 4 (by decide)]
    exact hb
  · rw [h4.rf 1 1 (by decide), h3.rf 1 1 (by decide), hc]

theorem exec_warmReset {z : State} (bootsel : Nat) (pairId testmode : Bool) (ha : z.sys.dev.cmd.await = []) (hi : z.sys.dev.cmd.imm = [])
    (h : z.sys.dev.rf R.pwrTherm 0 1 = 0) (hinv : z.Inv) : let d := z.sys.dev
    z.leadsSys (exec (.warmReset bootsel pairId testmode) z) (fun s =>
        s.dev.bootState = 1 ∧ s.dev.inReset = (d.rf R.synStat 0 1 == 0) ∧ s.dev.rf R.sysRstcause 1 1 = 1 ∧ s.dev.tick = 0 ∧ s.dev.eng = {} ∧
        s.dev.agenda = [] ∧ s.dev.reg R.evtSeq = d.reg R.evtSeq ∧ s.dev.reg R.pairEpoch = d.reg R.pairEpoch ∧ s.dev.ticking = false ∧
        (∀ off, aoReg off = false → off ∉ [R.sysBootcfg, R.sysBootstat, R.synStat, R.pairCtrl, R.pairStat, R.keyTrngstat, R.ddrStat] →
          s.dev.reg off = resetVal off) ∧
        ∀ a, s.mem.get a = if a < 0x200000000 ∨ (retainedBase ≤ a ∧ a < retainedBase + 0x40000) then z.sys.mem.get a else Memory.blank) := by
  intro d
  refine ⟨z.put (z.sys.warmReset bootsel pairId testmode), rfl, ?_⟩
  rw [z.sys.warmReset_eq bootsel pairId testmode ha hi h]
  obtain ⟨hk, hxo, hmdll⟩ := d.aoBare.aoRest_leaves d
  have hbare (o : Nat) : d.aoBare.reg o = if aoReg o then d.reg o else resetVal o := Dev.reg_of_filter rfl o
  have hat : d.aoBare.tick = 0 := rfl
  have hae : d.aoBare.eng = {} := rfl
  have haa : d.aoBare.agenda = [] := rfl
  show _ ∧ _ ∧ _
  have hd : z.sys.dev = d := rfl
  rw [hd]
  clear_value d
  generalize d.aoBare = n at *
  generalize n.aoRest d = k at *
  have hfilt (o : Nat) : k.warmBare.reg o = if !gpioDrive o then k.reg o else resetVal o := Dev.reg_of_filter (p := fun o => !gpioDrive o) rfl o
  have hin : k.warmBare.inReset = (k.rf R.synStat 0 1 == 0) := rfl
  have hwt : k.warmBare.tick = k.tick := rfl
  have hwe : k.warmBare.eng = k.eng := rfl
  have hwa : k.warmBare.agenda = k.agenda := rfl
  obtain ⟨hm, hboot, hcause⟩ := k.warmBare.warmRest_leaves bootsel pairId testmode
  generalize k.warmBare = k1 at *
  generalize k1.warmRest bootsel pairId testmode = e at *
  have hkeep (o : Nat) (h1 : o ∉ warmRegs) (h2 : gpioDrive o = false) (h3 : o ∉ aoRestRegs) (h4 : aoReg o = true) : e.reg o = d.reg o := by
    rw [hm.reg h1, hfilt, h2, hk.reg h3, hbare, if_pos h4]
    rfl
  have hsyn : e.rf R.synStat 1 1 = 0 := by
    rw [hm.rf 1 1 (by decide), Dev.rf, hfilt, show gpioDrive R.synStat = false from by decide]
    exact hmdll
  refine ⟨rfl, rfl, hboot, ?_, hcause, ?_, ?_, ?_, hkeep _ (by decide) (by decide) (by decide) (by decide), hkeep _ (by decide) (by decide) (by decide) (by decide), ?_,
    fun o hao hno => ?_, fun a => Memory.get_aoKept _ a hinv⟩
  · exact hm.inReset.trans (hin.trans (by rw [hxo]))
  · exact hm.tick.trans (hwt.trans (hk.tick.trans hat))
  · exact hm.eng.trans (hwe.trans (hk.eng.trans hae))
  · exact hm.agenda.trans (hwa.trans (hk.agenda.trans haa))
  · exact beq_eq_false_iff_ne.mpr (fun hc => absurd (hsyn.symm.trans hc) (by decide))
  · have hne : ∀ x ∈ R.pwrDomctl :: [R.sysRstcause, R.pwrDomstat], o ≠ x := by
      have hall : ∀ x ∈ R.pwrDomctl :: [R.sysRstcause, R.pwrDomstat], aoReg x = true := by decide
      intro x hx hox
      exact absurd (hao.symm.trans (hox ▸ hall x hx)) (by decide)
    simp only [List.mem_cons, List.not_mem_nil, or_false, not_or] at hno
    obtain ⟨n1, n2, n3, n4, n5, n6, n7⟩ := hno
    have h1 : o ∉ warmRegs := by simp [warmRegs, strapRegs, hne R.sysRstcause (by simp), hne R.pwrDomstat (by simp), n1, n2, n5, n7]
    have h3 : o ∉ aoRestRegs := by simp [aoRestRegs, hne R.pwrDomctl (by simp), n3, n4, n5, n6]
    refine (hm.reg h1).trans ?_
    rw [hfilt, hk.reg h3, hbare, hao]
    exact ite_self _

end Sys2Proof.Machine

/-!
PROOFS. The boot sequence, with nothing waiting in CMD.
-/
namespace Sys2Proof.Machine

/-! ## CMD with nothing to take -/

theorem ringHeld_same (h size : Nat) : ringHeld h h size = 0 := by
  rw [ringHeld]
  have hm : h % max 1 size ≤ h := Nat.mod_le _ _
  have hd := Nat.div_add_mod h (max 1 size)
  rcases Nat.eq_zero_or_pos size with h0 | hpos
  · subst h0
    exact Nat.mod_one _
  · have hmax : max 1 size = size := by omega
    rw [hmax] at hm hd ⊢
    have he : h + size - h % size = size * (h / size + 1) := by
      rw [Nat.mul_add, Nat.mul_one]
      omega
    rw [he]
    exact Nat.mul_mod_right _ _

theorem Dev.cmdQueued_quiet {d : Dev} (h : d.cmdQuiet) : d.cmdQueued = 0 := by
  obtain ⟨hw, -, hr⟩ := h
  rw [Dev.cmdQueued, hw]
  dsimp only
  rw [hr 0 (by decide), hr 1 (by decide), ringHeld_same, ringHeld_same]
  rfl

theorem cmdRun_quiet {s : Sys} (h : s.dev.cmdQuiet) : s.cmdRun = s := cmdRun_idle h.2.1 (Dev.cmdQueued_quiet h)

/-- The rings' indices. -/
def ringIdx : List Nat := [R.cmdChead 0, R.cmdCtail 0, R.cmdChead 1, R.cmdCtail 1]

theorem Dev.cmdQuiet_of {d e : Dev} (h : d.cmdQuiet) (hw : e.cmd.wait = d.cmd.wait) (ho : e.cmd.owed = d.cmd.owed) (hr : ∀ o ∈ ringIdx, e.reg o = d.reg o) : e.cmdQuiet := by
  obtain ⟨h1, h2, h3⟩ := h
  have hidx : ∀ r, r < 2 → R.cmdChead r ∈ ringIdx ∧ R.cmdCtail r ∈ ringIdx := by decide
  refine ⟨hw.trans h1, ho.trans h2, fun r hlt => ?_⟩
  rw [Dev.rf, Dev.rf, hr _ (hidx r hlt).1, hr _ (hidx r hlt).2]
  exact h3 r hlt

theorem Dev.cmdQuiet_atC {d : Dev} (h : d.cmdQuiet) (c : Nat) : (d.atC c).cmdQuiet := Dev.cmdQuiet_of h rfl rfl (fun _ _ => rfl)

theorem Dev.marks.quiet {d e : Dev} {l w : List Nat} (h : d.marks e l w) (hl : ∀ o ∈ ringIdx, o ∉ l) (hq : d.cmdQuiet) : e.cmdQuiet :=
  Dev.cmdQuiet_of hq (congrArg Cmd.wait h.cmd) (congrArg Cmd.owed h.cmd) (fun o ho => h.reg (hl o ho))

/-! ## A boot that fails -/

/-- The registers of a failed boot. -/
def bootFailRegs : List Nat := [R.sysBootstat, R.fltstat Blk.sys, R.fltfirst Blk.sys]

/-- The boot sequence has stopped with a code. -/
def Dev.bootFailed (code : Nat) (e : Dev) : Prop := e.bootState = 15 ∧ e.rf R.sysBootstat 4 4 = code ∧ e.flag Blk.sys Src.sysBootFail

theorem Dev.bootFail_leaves (d : Dev) {code : Nat} (detail : Nat) (hc : code < 16) : d.marks (d.bootFail code detail) bootFailRegs [] ∧ (d.bootFail code detail).bootFailed code := by
  have h0 : (((d.setFld R.sysBootstat 0 4 15).setFld R.sysBootstat 4 4 code).setFld R.sysBootstat 8 12 detail).rf R.sysBootstat 0 4 = 15 := by
    rw [Dev.rf_setFld_lo (h := by decide) (h32 := by decide), Dev.rf_setFld_lo (h := by decide) (h32 := by decide), Dev.rf_setFld _ _ _ _ _ (by decide)]
    rfl
  have h4 : (((d.setFld R.sysBootstat 0 4 15).setFld R.sysBootstat 4 4 code).setFld R.sysBootstat 8 12 detail).rf R.sysBootstat 4 4 = code := by
    rw [Dev.rf_setFld_lo (h := by decide) (h32 := by decide), Dev.rf_setFld _ _ _ _ _ (by decide), Nat.mod_eq_of_lt (by omega)]
  have hm : d.marks (((d.setFld R.sysBootstat 0 4 15).setFld R.sysBootstat 4 4 code).setFld R.sysBootstat 8 12 detail) bootFailRegs [] :=
    ((Dev.marks.setFld d _ _ _ (by decide)).trans (.setFld _ _ _ _ (by decide))).trans (.setFld _ _ _ _ (by decide))
  have he : d.bootFail code detail = (((d.setFld R.sysBootstat 0 4 15).setFld R.sysBootstat 4 4 code).setFld R.sysBootstat 8 12 detail).raise Blk.sys Src.sysBootFail
      code detail d.bootState := rfl
  rw [he]
  generalize ((d.setFld R.sysBootstat 0 4 15).setFld R.sysBootstat 4 4 code).setFld R.sysBootstat 8 12 detail = d1 at *
  refine ⟨hm.trans (.raise _ _ _ _ _ _ (by decide) (by decide)), ?_, ?_, d1.flag_raise _ _ _ _ _ (by decide)⟩
  · rw [Dev.bootState, Dev.rf_raise_ne (h1 := by decide) (h2 := by decide)]
    exact h0
  · rw [Dev.rf_raise_ne (h1 := by decide) (h2 := by decide)]
    exact h4

/-- CMD runs after a failed boot, with nothing to take. -/
theorem bootFail_run (s : Sys) {code : Nat} (detail : Nat) (hc : code < 16) (hq : s.dev.cmdQuiet) :
    (s.onDev (fun d => d.bootFail code detail)).cmdRun = s.onDev (fun d => d.bootFail code detail) :=
  cmdRun_quiet ((s.dev.bootFail_leaves detail hc).1.quiet (by decide) hq)

/-! ## The sequence -/

/-- Two steps of the device in one. -/
theorem Sys.onDev_onDev (s : Sys) (f g : Dev → Dev) : (s.onDev f).onDev g = s.onDev (fun d => g (f d)) := rfl

section
variable (s : Sys) (slot0 slot1 : Option (List Byte)) (sheaf : List Byte) (train : Bool) (c : Nat)

/-- The device as the boot sequencer begins. -/
def Sys.booting : Sys := s.onDev (fun d => (d.atC c).setFld R.sysBootstat 0 4 2)

theorem Sys.booting_marks : (s.dev.atC c).marks (s.booting c).dev [R.sysBootstat] [] := .setFld _ _ _ _ (by simp)

theorem Sys.booting_reg {o : Nat} (ho : o ≠ R.sysBootstat) : (s.booting c).dev.reg o = s.dev.reg o := by
  rw [(s.booting_marks c).reg (by simpa using ho), Dev.reg_atC]

theorem Sys.booting_sel : (s.booting c).dev.rf R.sysBootcfg 0 2 = s.dev.rf R.sysBootcfg 0 2 := by rw [Dev.rf, s.booting_reg c (by decide), Dev.rf]

theorem Sys.booting_quiet (h : s.dev.cmdQuiet) : (s.booting c).dev.cmdQuiet := (s.booting_marks c).quiet (by decide) (Dev.cmdQuiet_atC h c)

theorem Sys.bootCheck_booting (x : Option (List Byte)) : (s.booting c).bootCheck x = s.bootCheck x := by
  have hid := s.booting_reg c (o := R.sysId) (by decide)
  have ht : (s.booting c).dev.testMode = s.dev.testMode := (s.booting_marks c).testMode
  have hotp : (s.booting c).otp = s.otp := rfl
  generalize s.booting c = b at *
  cases x with
  | none => rfl
  | some bs =>
    simp only [Sys.bootCheck]
    rw [hid, ht, hotp]

theorem Sys.boot_idle (h : s.dev.bootState ≠ 1 ∨ s.dev.rf R.synStat 1 1 = 0) : s.boot slot0 slot1 sheaf train c = s := by
  refine if_pos ?_
  rw [Bool.or_eq_true, Bool.or_eq_true, bne_iff_ne, beq_iff_eq]
  exact h.imp_left Or.inr

variable (hrst : s.dev.inReset = false) (hst : s.dev.bootState = 1) (hmdll : s.dev.rf R.synStat 1 1 = 1)
include hrst hst hmdll

theorem Sys.boot_begins : s.boot slot0 slot1 sheaf train c =
    (let b := s.booting c
    if b.dev.rf R.sysBootcfg 0 2 = 1 then b.onDev (fun d => d.bootWait)
    else
      let p := b.bootCheck slot0
      if p.1 = 0 then b.bootApply (slot0.getD []) train sheaf
      else
        let q := b.bootCheck slot1
        if q.1 = 0 then (b.onDev (fun d => d.setFld R.sysBootstat 30 1 1)).bootApply (slot1.getD []) train sheaf
        else if b.dev.rf R.sysBootcfg 0 2 = 2 ∧ 3 ≤ p.2 ∧ 3 ≤ q.2 then b.onDev (fun d => d.bootWait)
        else
          let x := if q.1 = 1 ∧ p.1 ≠ 1 then p else q
          (b.onDev (fun d => (d.setFld R.sysBootstat 0 4 x.2).bootFail x.1 0)).cmdRun) := by
  refine if_neg ?_
  rw [hrst, hst, hmdll]
  decide

theorem Sys.boot_waits (hsel : s.dev.rf R.sysBootcfg 0 2 = 1) : s.boot slot0 slot1 sheaf train c = (s.booting c).onDev (fun d => d.bootWait) := by
  rw [s.boot_begins slot0 slot1 sheaf train c hrst hst hmdll]
  exact if_pos ((s.booting_sel c).trans hsel)

theorem Sys.boot_unread (hsel : s.dev.rf R.sysBootcfg 0 2 ≠ 1) : s.boot none none sheaf train c =
    (((s.booting c).onDev (fun d => d.setFld R.sysBootstat 0 4 2)).onDev (fun d => d.bootFail 8 0)).cmdRun := by
  rw [s.boot_begins none none sheaf train c hrst hst hmdll]
  have hb : (s.booting c).dev.rf R.sysBootcfg 0 2 ≠ 1 := fun h => hsel ((s.booting_sel c).symm.trans h)
  have hnone : (s.booting c).bootCheck none = (8, 2) := rfl
  generalize s.booting c = b at *
  dsimp only
  rw [if_neg hb, hnone, if_neg (by decide), if_neg (by decide), if_neg (fun h => absurd h.2.1 (by decide)), if_neg (fun h => absurd h.1 (by decide)),
    Sys.onDev_onDev]

theorem Sys.boot_applies {bs : List Byte} (hsel : s.dev.rf R.sysBootcfg 0 2 ≠ 1) (h0 : s.bootCheck (some bs) = (0, 0)) : s.boot (some bs) slot1 sheaf train c =
    (s.booting c).bootApply bs train sheaf := by
  rw [s.boot_begins (some bs) slot1 sheaf train c hrst hst hmdll]
  have hb : (s.booting c).dev.rf R.sysBootcfg 0 2 ≠ 1 := fun h => hsel ((s.booting_sel c).symm.trans h)
  have hc := (s.bootCheck_booting c (some bs)).trans h0
  generalize s.booting c = b at *
  dsimp only
  rw [if_neg hb, hc, if_pos rfl]
  rfl

end

/-! ## The image's steps -/

section
variable (s : Sys) (bs sheaf : List Byte)

theorem Sys.bootApply_untrained : s.bootApply bs false sheaf = ((s.onDev (fun d => d.setFld R.sysBootstat 0 4 5)).onDev (fun d => d.bootFail 6 0)).cmdRun := rfl

/-- The configuration of the DRAM that an image asks for, and that it is up. -/
def Dev.bootTrained (d : Dev) (fl : Nat) : Dev :=
  ((((d.setFld R.sysBootstat 0 4 5).setFld R.ddrCfg 0 1 (fld fl 2 1)).setFld R.ddrCfg 4 1 (fld fl 1 1)).setFld R.ddrStat 0 2 1).setFld R.sysBootstat 0 4 6

/-- The device with what the boot keeps replaced. -/
def Dev.withBoot (d : Dev) (x : Boot) : Dev := { d with boot := x }

theorem Dev.rf_withBoot (d : Dev) (x : Boot) (o lo w : Nat) : (d.withBoot x).rf o lo w = d.rf o lo w := rfl

theorem Dev.keeps_withBoot (d : Dev) (x : Boot) (l : List Nat) : d.keeps (d.withBoot x) l := Dev.keeps_of_regs ⟨rfl, rfl, rfl⟩ l

/-- The boot has ended. -/
def Dev.bootEnded (d : Dev) : Dev := (d.setFld R.sysBootstat 0 4 8).setReg R.sysBoottick d.tickLo

/-- The steps of an image once the DRAM is up. -/
def Sys.bootTail (s2 : Sys) (bs sheaf : List Byte) : Sys :=
  let w := s2.dev.bootWriteList 0 (bootWrites bs)
  match w.2 with
  | some i => ({ s2 with dev := w.1.bootFail 7 i } : Sys).cmdRun
  | none =>
    let s3 : Sys := { s2 with dev := w.1.withBoot { w.1.boot with autoswap := bit (le bs 6 2) 0 } }
    if le bs 0x18 4 = 0 then s3.bootDone
    else
      let off := le bs 0x20 4
      let len := le bs 0x1C 4
      let s4 := if storeFits off len then s3.onMem (fun m => m.putBytes (s3.dev.storeBase + off) (sheaf.take len)) else s3
      s4.onDev (fun d => (d.setFld R.sysBootstat 0 4 7).loadBegin off len false)

theorem Sys.bootApply_trained : s.bootApply bs true sheaf = (s.onDev (fun d => d.bootTrained (le bs 6 2))).bootTail bs sheaf := rfl

/-- An image without writes and without a sheaf ends the boot. -/
theorem Sys.bootTail_plain (hw : bootWrites bs = []) (hs : le bs 0x18 4 = 0) : s.bootTail bs sheaf =
    (s.onDev (fun d => (d.withBoot { d.boot with autoswap := bit (le bs 6 2) 0 }).bootEnded)).cmdRun := by
  rw [Sys.bootTail, hw]
  exact if_pos hs

theorem Dev.bootTrained_leaves (d : Dev) (fl : Nat) : d.marks (d.bootTrained fl) [R.sysBootstat, R.ddrCfg, R.ddrStat] [] ∧ (d.bootTrained fl).rf R.ddrStat 0 2 = 1 := by
  have hm : d.marks (((d.setFld R.sysBootstat 0 4 5).setFld R.ddrCfg 0 1 (fld fl 2 1)).setFld R.ddrCfg 4 1 (fld fl 1 1)) [R.sysBootstat, R.ddrCfg, R.ddrStat] [] :=
    ((Dev.marks.setFld d _ _ _ (by decide)).trans (.setFld _ _ _ _ (by decide))).trans (.setFld _ _ _ _ (by decide))
  rw [Dev.bootTrained]
  generalize ((d.setFld R.sysBootstat 0 4 5).setFld R.ddrCfg 0 1 (fld fl 2 1)).setFld R.ddrCfg 4 1 (fld fl 1 1) = d1 at *
  have hd : (d1.setFld R.ddrStat 0 2 1).rf R.ddrStat 0 2 = 1 := Dev.rf_setFld _ _ _ _ _ (by decide)
  have hm2 : d1.marks (d1.setFld R.ddrStat 0 2 1) [R.sysBootstat, R.ddrCfg, R.ddrStat] [] := .setFld _ _ _ _ (by decide)
  generalize d1.setFld R.ddrStat 0 2 1 = d2 at *
  have hm3 : d2.marks (d2.setFld R.sysBootstat 0 4 6) [R.sysBootstat] [] := .setFld _ _ _ _ (by simp)
  exact ⟨(hm.trans hm2).trans (hm3.mono (by decide) (by simp)), (hm3.rf 0 2 (by decide)).trans hd⟩

theorem Dev.bootEnded_leaves (d : Dev) : d.marks d.bootEnded [R.sysBootstat, R.sysBoottick] [] ∧ d.bootEnded.bootState = 8 ∧ d.bootEnded.reg R.sysBoottick = d.tickLo := by
  have hs : (d.setFld R.sysBootstat 0 4 8).rf R.sysBootstat 0 4 = 8 := Dev.rf_setFld _ _ _ _ _ (by decide)
  have hm : d.marks (d.setFld R.sysBootstat 0 4 8) [R.sysBootstat, R.sysBoottick] [] := .setFld _ _ _ _ (by decide)
  rw [Dev.bootEnded]
  generalize d.setFld R.sysBootstat 0 4 8 = d1 at *
  have hm2 : d1.marks (d1.setReg R.sysBoottick d.tickLo) [R.sysBoottick] [] := .setReg _ _ (by simp)
  have hr : (d1.setReg R.sysBoottick d.tickLo).reg R.sysBoottick = d.tickLo := by rw [Dev.reg_setReg, Dev.tickLo, Nat.mod_mod]
  exact ⟨hm.trans (hm2.mono (by decide) (by simp)), (hm2.rf 0 4 (by decide)).trans hs, hr⟩

end

theorem Dev.bootWait_leaves (d : Dev) : d.bootWait.bootState = 9 ∧ d.bootWait.boot.image = [] ∧ d.keeps d.bootWait [R.sysBootstat] := by
  have hs : ((d.setFld R.sysBootstat 0 4 9).setFld R.sysBootstat 29 1 1).rf R.sysBootstat 0 4 = 9 := by
    rw [Dev.rf_setFld_lo (h := by decide) (h32 := by decide), Dev.rf_setFld _ _ _ _ _ (by decide)]
    rfl
  have hk : d.keeps ((d.setFld R.sysBootstat 0 4 9).setFld R.sysBootstat 29 1 1) [R.sysBootstat] := (d.keeps_setFld _ _ _ _ (by simp)).trans (Dev.keeps_setFld _ _ _ _ _ (by simp))
  have he : d.bootWait = ((d.setFld R.sysBootstat 0 4 9).setFld R.sysBootstat 29 1 1).withBoot {} := rfl
  rw [he]
  generalize (d.setFld R.sysBootstat 0 4 9).setFld R.sysBootstat 29 1 1 = d1 at *
  exact ⟨(d1.rf_withBoot {} _ _ _).trans hs, rfl, hk.trans (d1.keeps_withBoot {} _)⟩

end Sys2Proof.Machine

/-!
PROOFS. The end of a reset of the management plane: a paired unit enters FALLOW, and CMD has nothing to take.
-/
namespace Sys2Proof.Machine

/-- From `d` to `e` CMD's own state, the rings' indices, the resets and the role have stayed. -/
def Dev.rests (d e : Dev) : Prop :=
  e.cmd = d.cmd ∧ e.mgmtRst = d.mgmtRst ∧ (∀ o ∈ ringIdx, e.reg o = d.reg o) ∧ e.rf R.pairStat 0 3 = d.rf R.pairStat 0 3

namespace Dev.rests

theorem refl (d : Dev) : d.rests d := ⟨rfl, rfl, fun _ _ => rfl, rfl⟩

theorem trans {d e g : Dev} (h : d.rests e) (k : e.rests g) : d.rests g := by
  obtain ⟨h1, h2, h3, h4⟩ := h
  obtain ⟨k1, k2, k3, k4⟩ := k
  exact ⟨k1.trans h1, k2.trans h2, fun o ho => (k3 o ho).trans (h3 o ho), k4.trans h4⟩

theorem of_marks {d e : Dev} {l w : List Nat} (h : d.marks e l w) (hl : ∀ o ∈ R.pairStat :: ringIdx, o ∉ l) : d.rests e :=
  ⟨h.cmd, h.mgmtRst, fun o ho => h.reg (hl o (List.mem_cons_of_mem _ ho)), h.rf 0 3 (hl _ List.mem_cons_self)⟩

theorem onPair (d : Dev) (f : Pair → Pair) : d.rests (d.onPair f) := ⟨rfl, rfl, fun _ _ => rfl, d.rf_onPair f _ _ _⟩

theorem strmYield (d : Dev) (b : Bool) : d.rests (d.strmYield b) := ⟨rfl, rfl, fun _ _ => rfl, rfl⟩

theorem of_talks {d e : Dev} (h : d.talks e) : d.rests e := by
  have hring : ∀ o ∈ ringIdx, o ∉ cvuRegs := by decide
  have hcmd : e.cmd = d.cmd := (congrArg Dev.cmd h.eq :)
  have hrst : e.mgmtRst = d.mgmtRst := (congrArg Dev.mgmtRst h.eq :)
  exact ⟨hcmd, hrst, fun o ho => h.reg (hring o ho), h.rf 0 3 (by decide)⟩

theorem of_loadMoves {d e : Dev} (h : d.loadMoves e) : d.rests e := by
  have hring : ∀ o ∈ ringIdx, o ∉ loaderRegs := by decide
  have hreg := fun o ho => h.reg (hring o ho)
  have hrole := h.rf 0 3 (o := R.pairStat) (by decide)
  obtain ⟨x, hx⟩ := h
  exact ⟨hx.cmd, hx.mgmtRst, hreg, hrole⟩

theorem setPins (d : Dev) (own hold : Bool) : d.rests (d.setPins own hold) := by
  obtain ⟨-, -, hlow, -, hm⟩ := d.setPins_leaves own hold
  have hring : ∀ o ∈ ringIdx, o ∉ [R.pairStat] := by decide
  exact ⟨hm.cmd, hm.mgmtRst, fun o ho => hm.reg (hring o ho), hlow 0 3 (by decide)⟩

/-- The device without a tick to replay. -/
theorem noReplay (d : Dev) : d.rests { d with replayT := none } := ⟨rfl, rfl, fun _ _ => rfl, rfl⟩

theorem resyncStop (d : Dev) : d.rests d.resyncStop := by
  have hm : d.marks ((d.setFld R.pairRsstat 0 3 0).setFld R.pairStat 13 1 0) [R.pairRsstat, R.pairStat] [] :=
    (Dev.marks.setFld _ _ _ _ (by simp)).trans (.setFld _ _ _ _ (by simp))
  have hring : ∀ o ∈ ringIdx, o ∉ [R.pairRsstat, R.pairStat] := by decide
  have hrole : ((d.setFld R.pairRsstat 0 3 0).setFld R.pairStat 13 1 0).rf R.pairStat 0 3 = d.rf R.pairStat 0 3 :=
    (Dev.rf_setFld_lo _ _ _ _ _ _ _ (by decide) (by decide)).trans (Dev.rf_setFld_ne d _ _ _ _ _ _ (by decide))
  have h1 : d.rests ((d.setFld R.pairRsstat 0 3 0).setFld R.pairStat 13 1 0) := ⟨hm.cmd, hm.mgmtRst, fun o ho => hm.reg (hring o ho), hrole⟩
  rw [Dev.resyncStop]
  generalize (d.setFld R.pairRsstat 0 3 0).setFld R.pairStat 13 1 0 = d1 at *
  exact h1.trans ((onPair d1 _).trans (noReplay _))

theorem resyncAbort (d : Dev) (cause : Nat) : d.rests (d.resyncAbort cause) := by
  have hm : d.marks ((d.bump (R.pairCnt 5) 1).raise Blk.pair Src.pairResyncAbort cause d.tickLo 0) [R.fltstat Blk.pair, R.fltfirst Blk.pair] [R.pairCnt 5] :=
    (Dev.marks.bump d 1 (by simp)).trans (.raise _ _ _ _ _ _ (by simp) (by simp))
  have h1 : d.rests ((d.bump (R.pairCnt 5) 1).raise Blk.pair Src.pairResyncAbort cause d.tickLo 0) := .of_marks hm (by decide)
  rw [Dev.resyncAbort]
  generalize (d.bump (R.pairCnt 5) 1).raise Blk.pair Src.pairResyncAbort cause d.tickLo 0 = d1 at *
  exact h1.trans ((of_talks (d1.talks_mirSend _)).trans (resyncStop _))

theorem quiet {d e : Dev} (h : d.rests e) (hq : d.cmdQuiet) : e.cmdQuiet :=
  Dev.cmdQuiet_of hq (congrArg Cmd.wait h.1) (congrArg Cmd.owed h.1) h.2.2.1

end Dev.rests

/-! ## FALLOW -/

/-- The device in FALLOW, but for what that stops. -/
def Dev.fallen (d : Dev) : Dev := (d.setFld R.pairStat 0 3 3).setFld R.pairStat 12 1 0

theorem Dev.fallen_leaves (d : Dev) : d.fallen.rf R.pairStat 0 3 = 3 ∧ d.fallen.cmd = d.cmd ∧ d.fallen.mgmtRst = d.mgmtRst ∧ ∀ o ∈ ringIdx, d.fallen.reg o = d.reg o := by
  have hm : d.marks d.fallen [R.pairStat] [] := (Dev.marks.setFld _ _ _ _ (by simp)).trans (.setFld _ _ _ _ (by simp))
  have hring : ∀ o ∈ ringIdx, o ∉ [R.pairStat] := by decide
  exact ⟨(Dev.rf_setFld_lo _ _ _ _ _ _ _ (by decide) (by decide)).trans (Dev.rf_setFld d _ _ _ _ (by decide)), hm.cmd, hm.mgmtRst, fun o ho => hm.reg (hring o ho)⟩

/-- A unit that is not in FALLOW, nor ISOLATED, enters it. -/
theorem Dev.enterRole_falls (d : Dev) (h3 : d.role ≠ .fallow) (h4 : d.role ≠ .isolated) : d.fallen.rests (d.enterRole 3 5) := by
  unfold Dev.enterRole
  extract_lets was dA dB d1 e e1 eS d2 d3 d4
  have hcode : ¬(3 = was.code) := by
    intro hc
    simp only [was] at hc
    revert hc h3
    cases d.role <;> decide
  have hwas : (was == Role.isolated) = false := beq_eq_false_iff_ne.mpr h4
  have hA : dA = d := if_neg (by simp)
  have hB : d1 = d.fallen := by
    simp only [d1, dB, hA]
    rfl
  rw [if_neg (by decide), if_neg hcode, hwas, if_neg Bool.false_ne_true]
  have h2 : d1.rests d2 := by
    simp only [d2, if_neg (show ¬(3 = 0) by decide)]
    split
    · have he : d1.rests e := by
        have hm : d1.marks e [R.fltstat Blk.pair, R.fltfirst Blk.pair] [] := .ite (fun _ => .refl _) (fun _ => .raise _ _ _ _ _ _ (by simp) (by simp))
        exact .of_marks hm (by decide)
      have he1 : e.rests e1 := by
        simp only [e1]
        split
        · exact .refl e
        · exact .resyncAbort e 4
      exact (he.trans he1).trans ((Dev.rests.strmYield e1 _).trans ((Dev.rests.setPins _ _ _).trans (.onPair _ _)))
    · exact ((Dev.rests.setPins d1 _ _).trans (.onPair _ _)).trans (.strmYield _ _)
  have h23 : d2.rests d3 := .of_marks (l := [R.pairRecmax]) (w := []) (.ite (fun _ => .refl _) (fun _ => .setReg _ _ (by simp))) (by decide)
  rw [← hB]
  exact (h2.trans h23).trans (.of_loadMoves (Dev.loadRole_moves _ _))

/-- The unit after the reset of its management plane: in FALLOW, with CMD's state as it was. -/
theorem Dev.enterRole_afterReset (d : Dev) (h4 : d.role ≠ .isolated) : let e := (d.enterRole 3 5).identitySend
    e.role = .fallow ∧ e.mgmtRst = d.mgmtRst ∧ (d.cmdQuiet → e.cmdQuiet) := by
  intro e
  have ht := Dev.rests.of_talks (identitySend_talks (d.enterRole 3 5))
  by_cases h3 : d.role = .fallow
  · have hsame : d.enterRole 3 5 = d := by
      unfold Dev.enterRole
      extract_lets was dA dB d1 e e1 eS d2 d3 d4
      have hcode : 3 = was.code := by
        simp only [was, h3]
        rfl
      rw [if_neg (by decide), if_pos hcode]
    rw [hsame] at ht
    have he : e = d.identitySend := by
      simp only [e]
      rw [hsame]
    rw [he]
    exact ⟨(Dev.role_congr ht.2.2.2).trans h3, ht.2.1, ht.quiet⟩
  · have hf := (d.enterRole_falls h3 h4).trans ht
    obtain ⟨hrole, hcmd, hrst, hreg⟩ := d.fallen_leaves
    refine ⟨?_, hf.2.1.trans hrst, fun hq => hf.quiet (Dev.cmdQuiet_of hq (congrArg Cmd.wait hcmd) (congrArg Cmd.owed hcmd) hreg)⟩
    rw [Dev.role, hf.2.2.2, hrole]
    rfl

/-! ## The end of the 8 ticks -/

/-- The ticks of a reset have passed. -/
def rstOver (t : Nat) (r : Option Nat) : Bool :=
  match r with
  | some u => decide (u ≤ t)
  | none => false

/-- The reset of the control plane is over. -/
def Dev.ctrlOver (d : Dev) : Dev := { d with ctrlRst := none }

/-- The reset of the management plane is over, but for the role. -/
def Dev.mgmtFree (d : Dev) : Dev := { d with mgmtRst := none }

/-- The reset of the management plane is over. -/
def Dev.mgmtOver (d : Dev) : Dev := if d.mgmtFree.paired && d.mgmtFree.role != .isolated then (d.mgmtFree.enterRole 3 5).identitySend else d.mgmtFree

/-- The end of a control-plane reset at tick `t`. -/
def Sys.ctrlStage (s : Sys) (t : Nat) : Sys := if rstOver t s.dev.ctrlRst then s.onDev Dev.ctrlOver else s

/-- The end of a management-plane reset at tick `t`. -/
def Sys.mgmtStage (s : Sys) (t : Nat) : Sys := if rstOver t s.dev.mgmtRst then s.onDev Dev.mgmtOver else s

theorem Sys.planeResetEnd_eq (s : Sys) (c : Nat) : s.planeResetEnd c = (((s.onDev (fun d => d.atC c)).ctrlStage s.dev.tick).mgmtStage s.dev.tick).cmdRun := rfl

section
variable {s : Sys} {t u : Nat}

theorem Sys.ctrlStage_none (h : s.dev.ctrlRst = none) : s.ctrlStage t = s := by
  rw [Sys.ctrlStage, h]
  rfl

theorem Sys.mgmtStage_none (h : s.dev.mgmtRst = none) : s.mgmtStage t = s := by
  rw [Sys.mgmtStage, h]
  rfl

theorem Sys.ctrlStage_over (h : s.dev.ctrlRst = some u) (hle : u ≤ t) : s.ctrlStage t = s.onDev Dev.ctrlOver := by
  rw [Sys.ctrlStage, h]
  exact if_pos (decide_eq_true hle)

theorem Sys.mgmtStage_over (h : s.dev.mgmtRst = some u) (hle : u ≤ t) : s.mgmtStage t = s.onDev Dev.mgmtOver := by
  rw [Sys.mgmtStage, h]
  exact if_pos (decide_eq_true hle)

end

section
variable {s : Sys} (c : Nat) (hq : s.dev.cmdQuiet)
include hq

theorem Sys.planeResetEnd_none (h1 : s.dev.ctrlRst = none) (h2 : s.dev.mgmtRst = none) : s.planeResetEnd c = s.onDev (fun d => d.atC c) := by
  rw [Sys.planeResetEnd_eq, Sys.ctrlStage_none (s := s.onDev (fun d => d.atC c)) h1, Sys.mgmtStage_none (s := s.onDev (fun d => d.atC c)) h2]
  exact cmdRun_quiet (Dev.cmdQuiet_atC hq c)

theorem Sys.planeResetEnd_ctrl {u : Nat} (h1 : s.dev.ctrlRst = some u) (hle : u ≤ s.dev.tick) (h2 : s.dev.mgmtRst = none) :
    s.planeResetEnd c = s.onDev (fun d => (d.atC c).ctrlOver) := by
  have hqc : ((s.onDev (fun d => d.atC c)).onDev Dev.ctrlOver).dev.cmdQuiet := Dev.cmdQuiet_of hq rfl rfl (fun _ _ => rfl)
  rw [Sys.planeResetEnd_eq, Sys.ctrlStage_over (s := s.onDev (fun d => d.atC c)) h1 hle,
    Sys.mgmtStage_none (s := (s.onDev (fun d => d.atC c)).onDev Dev.ctrlOver) h2, cmdRun_quiet hqc]
  rfl

theorem Sys.planeResetEnd_mgmt {u : Nat} (h1 : s.dev.ctrlRst = none) (h2 : s.dev.mgmtRst = some u) (hle : u ≤ s.dev.tick) :
    s.planeResetEnd c = s.onDev (fun d => (d.atC c).mgmtOver) := by
  have hqf : (s.dev.atC c).mgmtFree.cmdQuiet := Dev.cmdQuiet_of hq rfl rfl (fun _ _ => rfl)
  have hqc : ((s.onDev (fun d => d.atC c)).onDev Dev.mgmtOver).dev.cmdQuiet := by
    show (s.dev.atC c).mgmtOver.cmdQuiet
    rw [Dev.mgmtOver]
    generalize (s.dev.atC c).mgmtFree = d at *
    split
    · rename_i h
      rw [Bool.and_eq_true, bne_iff_ne] at h
      exact (d.enterRole_afterReset h.2).2.2 hqf
    · exact hqf
  rw [Sys.planeResetEnd_eq, Sys.ctrlStage_none (s := s.onDev (fun d => d.atC c)) h1, Sys.mgmtStage_over (s := s.onDev (fun d => d.atC c)) h2 hle, cmdRun_quiet hqc]
  rfl

end

theorem Dev.mgmtOver_alone {d : Dev} (h : d.paired = false) : d.mgmtOver = d.mgmtFree := if_neg (by
  rw [show d.mgmtFree.paired = false from h]
  simp)

theorem Dev.mgmtOver_paired {d : Dev} (h : d.paired = true) (h4 : d.role ≠ .isolated) : d.mgmtOver.mgmtRst = none ∧ d.mgmtOver.role = .fallow := by
  have hrole : d.mgmtFree.role ≠ .isolated := h4
  have he : d.mgmtOver = (d.mgmtFree.enterRole 3 5).identitySend := if_pos (by
    rw [show d.mgmtFree.paired = true from h, Bool.true_and, bne_iff_ne]
    exact hrole)
  have hn : d.mgmtFree.mgmtRst = none := rfl
  rw [he]
  generalize d.mgmtFree = e at *
  obtain ⟨h1, h2, -⟩ := e.enterRole_afterReset hrole
  exact ⟨h2.trans hn, h1⟩

end Sys2Proof.Machine

/-!
PROOFS. The entropy source, fuses, domains, the clock's return, the factory unlock, and the rows of resets and boot.
-/
namespace Sys2Proof.Machine

section
variable (d : Dev)

/-! ## The nonce -/

theorem Dev.nonceDraw_idle (v : Nat) (h : d.cmd.draw = [] ∨ d.cmd.fails ≠ 0) : d.nonceDraw v = d := by
  refine if_pos ?_
  rcases h with h | h
  · rw [h]
    rfl
  · rw [Bool.or_eq_true, bne_iff_ne]
    exact .inr h

theorem Dev.resetRec_leaves (kind : Nat) : d.keeps (d.resetRec kind) [] ∧ (d.resetRec kind).cmd = d.cmd ∧ (d.resetRec kind).evt.made.length = d.evt.made.length + 1 := by
  have h (ty sev d0 d1 d2 : Nat) : d.keeps (d.makeRec Blk.evt ty sev d0 d1 d2) [] ∧ (d.makeRec Blk.evt ty sev d0 d1 d2).cmd = d.cmd ∧
      (d.makeRec Blk.evt ty sev d0 d1 d2).evt.made.length = d.evt.made.length + 1 := ⟨d.keeps_makeRec _ _ _ _ _ _ _, d.makeRec_cmd .., List.length_append⟩
  rw [Dev.resetRec]
  split
  · exact h _ _ _ _ _
  · exact h _ _ _ _ _

theorem Dev.resetRecs_leaves (l : List Nat) : d.keeps (each l (fun k d => d.resetRec k) d) [] ∧ (each l (fun k d => d.resetRec k) d).cmd = d.cmd ∧
    (each l (fun k d => d.resetRec k) d).evt.made.length = d.evt.made.length + l.length := by
  induction l generalizing d with
  | nil => exact ⟨d.keeps_refl _, rfl, rfl⟩
  | cons k l ih =>
    obtain ⟨hk, hc, hn⟩ := d.resetRec_leaves k
    obtain ⟨hk2, hc2, hn2⟩ := ih (d.resetRec k)
    have he : each (k :: l) (fun k d => d.resetRec k) d = each l (fun k d => d.resetRec k) (d.resetRec k) := rfl
    rw [he]
    exact ⟨hk.trans hk2, hc2.trans hc, by rw [hn2, hn, List.length_cons]; omega⟩

/-- The nonce drawn, its records not yet made. -/
def Dev.nonceSet (v : Nat) : Dev :=
  ((((d.setReg R.cmdNoncelo (v % 2 ^ 32)).setReg R.cmdNoncehi (v / 2 ^ 32 % 2 ^ 32)).setFld R.cmdStat 0 1 1).setFld R.keyTrngstat 0 1 1).onCmd
    (fun c => { c with draw := [] })

/-- The registers of the nonce. -/
def nonceRegs : List Nat := [R.cmdNoncelo, R.cmdNoncehi, R.cmdStat, R.keyTrngstat]

theorem Dev.nonceSet_leaves (v : Nat) : (d.nonceSet v).reg R.cmdNoncelo = v % 2 ^ 32 ∧ (d.nonceSet v).reg R.cmdNoncehi = v / 2 ^ 32 % 2 ^ 32 ∧
    (d.nonceSet v).rf R.cmdStat 0 1 = 1 ∧ (d.nonceSet v).cmd.draw = [] ∧ (d.nonceSet v).evt = d.evt ∧ d.keeps (d.nonceSet v) nonceRegs := by
  have h1 : (d.setReg R.cmdNoncelo (v % 2 ^ 32)).reg R.cmdNoncelo = v % 2 ^ 32 := by rw [Dev.reg_setReg, Nat.mod_mod]
  have m1 : d.marks (d.setReg R.cmdNoncelo (v % 2 ^ 32)) nonceRegs [] := .setReg d _ (by decide)
  have e1 : (d.setReg R.cmdNoncelo (v % 2 ^ 32)).evt = d.evt := rfl
  rw [Dev.nonceSet]
  generalize d.setReg R.cmdNoncelo (v % 2 ^ 32) = d1 at *
  have h2 : (d1.setReg R.cmdNoncehi (v / 2 ^ 32 % 2 ^ 32)).reg R.cmdNoncehi = v / 2 ^ 32 % 2 ^ 32 := by rw [Dev.reg_setReg, Nat.mod_mod]
  have m2 : d1.marks (d1.setReg R.cmdNoncehi (v / 2 ^ 32 % 2 ^ 32)) [R.cmdNoncehi] [] := .setReg d1 _ (by decide)
  have e2 : (d1.setReg R.cmdNoncehi (v / 2 ^ 32 % 2 ^ 32)).evt = d1.evt := rfl
  generalize d1.setReg R.cmdNoncehi (v / 2 ^ 32 % 2 ^ 32) = d2 at *
  have h3 : (d2.setFld R.cmdStat 0 1 1).rf R.cmdStat 0 1 = 1 := Dev.rf_setFld _ _ _ _ _ (by decide)
  have m3 : d2.marks (d2.setFld R.cmdStat 0 1 1) [R.cmdStat] [] := .setFld d2 _ _ _ (by decide)
  have e3 : (d2.setFld R.cmdStat 0 1 1).evt = d2.evt := rfl
  generalize d2.setFld R.cmdStat 0 1 1 = d3 at *
  have m4 : d3.marks (d3.setFld R.keyTrngstat 0 1 1) [R.keyTrngstat] [] := .setFld d3 _ _ _ (by decide)
  have e4 : (d3.setFld R.keyTrngstat 0 1 1).evt = d3.evt := rfl
  generalize d3.setFld R.keyTrngstat 0 1 1 = d4 at *
  have hreg (o : Nat) : (d4.onCmd (fun c => { c with draw := [] })).reg o = d4.reg o := rfl
  have hrf (o lo w : Nat) : (d4.onCmd (fun c => { c with draw := [] })).rf o lo w = d4.rf o lo w := rfl
  have hk : d4.keeps (d4.onCmd (fun c => { c with draw := [] })) nonceRegs := Dev.keeps_of_regs ⟨rfl, rfl, rfl⟩ _
  have hc : (d4.onCmd (fun c => { c with draw := [] })).cmd.draw = [] := rfl
  have he : (d4.onCmd (fun c => { c with draw := [] })).evt = d4.evt := rfl
  generalize d4.onCmd (fun c => { c with draw := [] }) = d5 at *
  refine ⟨?_, ?_, ?_, hc, ?_, ?_⟩
  · rw [hreg, m4.reg (by decide), m3.reg (by decide), m2.reg (by decide), h1]
  · rw [hreg, m4.reg (by decide), m3.reg (by decide), h2]
  · rw [hrf, m4.rf 0 1 (by decide), h3]
  · rw [he, e4, e3, e2, e1]
  · exact ((m1.keeps.trans (m2.keeps.mono (by decide))).trans ((m3.keeps.mono (by decide)).trans (m4.keeps.mono (by decide)))).trans hk

theorem Dev.nonceDraw_draws (v : Nat) (h : d.cmd.draw ≠ []) (hf : d.cmd.fails = 0) : let e := d.nonceDraw v
    e.nonce = v % 2 ^ 64 ∧ e.nonceOk = true ∧ e.cmd.draw = [] ∧ e.evt.made.length = d.evt.made.length + d.cmd.draw.length ∧ d.keeps e nonceRegs := by
  have he : d.nonceDraw v = each d.cmd.draw (fun k d => d.resetRec k) (d.nonceSet v) := if_neg (by simp [h, hf])
  obtain ⟨hlo, hhi, hst, hdr, hevt, hk⟩ := d.nonceSet_leaves v
  rw [he]
  generalize d.nonceSet v = d1 at *
  obtain ⟨hk2, hc, hn⟩ := d1.resetRecs_leaves d.cmd.draw
  generalize each d.cmd.draw (fun k d => d.resetRec k) d1 = e at *
  have hreg (o : Nat) : e.reg o = d1.reg o := (hk2 o (by simp)).1
  refine ⟨?_, ?_, (congrArg Cmd.draw hc).trans hdr, by rw [hn, hevt], hk.trans (hk2.mono (by simp))⟩
  · rw [Dev.nonce, hreg, hreg, hlo, hhi]
    omega
  · rw [Dev.nonceOk, Dev.rf, hreg]
    exact beq_iff_eq.mpr hst

/-! ## The source's tests -/

theorem Dev.trngFail_idle (test : Nat) (h : ¬(test = 1 ∨ test = 2)) : d.trngFail test = d := if_pos (by simpa using h)

theorem bitSet_ne_zero (v i : Nat) : bitSet v i true ≠ 0 := by
  intro h
  have hb := bit_bitSet_same v i true
  rw [h, bit_eq_testBit, Nat.zero_testBit] at hb
  exact absurd hb (by decide)

theorem Dev.trngFail_fails {test : Nat} (h : test = 1 ∨ test = 2) : let e := d.trngFail test
    e.rf R.keyTrngstat test 1 = 1 ∧ e.rf R.keyTrngstat 0 1 = 0 ∧ e.cmd.fails ≠ 0 ∧ e.flag Blk.key Src.keyTrngHealth ∧
      d.keeps e [R.keyTrngstat, R.fltstat Blk.key, R.fltfirst Blk.key] := by
  have h1 : ((d.setFld R.keyTrngstat test 1 1).setFld R.keyTrngstat 0 1 0).rf R.keyTrngstat test 1 = 1 :=
    (Dev.rf_setFld_hi _ _ _ _ _ _ _ (by omega) (by omega)).trans (Dev.rf_setFld _ _ _ _ _ (by omega))
  have h0 : ((d.setFld R.keyTrngstat test 1 1).setFld R.keyTrngstat 0 1 0).rf R.keyTrngstat 0 1 = 0 := Dev.rf_setFld _ _ _ _ _ (by decide)
  have hm : d.marks ((d.setFld R.keyTrngstat test 1 1).setFld R.keyTrngstat 0 1 0) [R.keyTrngstat, R.fltstat Blk.key, R.fltfirst Blk.key] [] :=
    (Dev.marks.setFld d _ _ _ (by simp)).trans (.setFld _ _ _ _ (by simp))
  have he : d.trngFail test = (((d.setFld R.keyTrngstat test 1 1).setFld R.keyTrngstat 0 1 0).onCmd (fun c => { c with fails := bitSet c.fails test true })).raise Blk.key
      Src.keyTrngHealth ((((d.setFld R.keyTrngstat test 1 1).setFld R.keyTrngstat 0 1 0).onCmd (fun c => { c with fails := bitSet c.fails test true })).reg R.keyTrngstat)
      (((d.setFld R.keyTrngstat test 1 1).setFld R.keyTrngstat 0 1 0).onCmd (fun c => { c with fails := bitSet c.fails test true })).tickLo 0 := if_neg (by simp [h])
  rw [he]
  generalize (d.setFld R.keyTrngstat test 1 1).setFld R.keyTrngstat 0 1 0 = d1 at *
  have hrf (lo w : Nat) : (d1.onCmd (fun c => { c with fails := bitSet c.fails test true })).rf R.keyTrngstat lo w = d1.rf R.keyTrngstat lo w := rfl
  have hf : (d1.onCmd (fun c => { c with fails := bitSet c.fails test true })).cmd.fails ≠ 0 := bitSet_ne_zero _ _
  have hk : d1.keeps (d1.onCmd (fun c => { c with fails := bitSet c.fails test true })) [R.keyTrngstat, R.fltstat Blk.key, R.fltfirst Blk.key] :=
    Dev.keeps_of_regs ⟨rfl, rfl, rfl⟩ _
  generalize d1.onCmd (fun c => { c with fails := bitSet c.fails test true }) = d2 at *
  have hr : d2.marks (d2.raise Blk.key Src.keyTrngHealth (d2.reg R.keyTrngstat) d2.tickLo 0) [R.fltstat Blk.key, R.fltfirst Blk.key] [] :=
    .raise _ _ _ _ _ _ (by simp) (by simp)
  refine ⟨?_, ?_, ?_, d2.flag_raise _ _ _ _ _ (by decide), (hm.keeps.trans hk).trans (hr.keeps.mono (by simp))⟩
  · rw [hr.rf test 1 (by decide), hrf, h1]
  · rw [hr.rf 0 1 (by decide), hrf, h0]
  · rw [hr.cmd]
    exact hf

theorem Dev.trngPass_leaves : d.trngPass.rf R.keyTrngstat 0 1 = 1 ∧ d.trngPass.cmd = { d.cmd with fails := 0 } ∧ d.keeps d.trngPass [R.keyTrngstat] := by
  have h1 : (d.setFld R.keyTrngstat 0 1 1).rf R.keyTrngstat 0 1 = 1 := Dev.rf_setFld _ _ _ _ _ (by decide)
  have hm : d.marks (d.setFld R.keyTrngstat 0 1 1) [R.keyTrngstat] [] := .setFld d _ _ _ (by simp)
  have hc := hm.cmd
  rw [Dev.trngPass]
  generalize d.setFld R.keyTrngstat 0 1 1 = d1 at *
  have hrf : (d1.onCmd (fun c => { c with fails := 0 })).rf R.keyTrngstat 0 1 = d1.rf R.keyTrngstat 0 1 := rfl
  have hcm : (d1.onCmd (fun c => { c with fails := 0 })).cmd = { d1.cmd with fails := 0 } := rfl
  have hk : d1.keeps (d1.onCmd (fun c => { c with fails := 0 })) [R.keyTrngstat] := Dev.keeps_of_regs ⟨rfl, rfl, rfl⟩ _
  exact ⟨hrf.trans h1, by rw [hcm, hc], hm.keeps.trans hk⟩

/-! ## Fuses and domains -/

theorem Dev.fuseDone_idle (err : Option Nat) (h : d.cmd.fuse = false) : d.fuseDone err = d := if_pos (by simp [h])

theorem Dev.fuseDone_ends (err : Option Nat) (h : d.cmd.fuse = true) : let e := d.fuseDone err
    e.cmd = { d.cmd with fuse := false } ∧ (err ≠ none → e.flag Blk.key Src.keyOtpErr) ∧ d.keeps e [R.fltstat Blk.key, R.fltfirst Blk.key] := by
  have he : d.fuseDone err = (match err with
      | some a => (d.onCmd (fun c => { c with fuse := false })).raise Blk.key Src.keyOtpErr a 0 0
      | none => d.onCmd (fun c => { c with fuse := false })) := if_neg (by simp [h])
  have hc : (d.onCmd (fun c => { c with fuse := false })).cmd = { d.cmd with fuse := false } := rfl
  have hk : d.keeps (d.onCmd (fun c => { c with fuse := false })) [R.fltstat Blk.key, R.fltfirst Blk.key] := Dev.keeps_of_regs ⟨rfl, rfl, rfl⟩ _
  rw [he]
  generalize d.onCmd (fun c => { c with fuse := false }) = d1 at *
  cases err with
  | none => exact ⟨hc, fun h => absurd rfl h, hk⟩
  | some a =>
    have hr : d1.marks (d1.raise Blk.key Src.keyOtpErr a 0 0) [R.fltstat Blk.key, R.fltfirst Blk.key] [] := .raise _ _ _ _ _ _ (by simp) (by simp)
    exact ⟨hr.cmd.trans hc, fun _ => d1.flag_raise _ _ _ _ _ (by decide), hk.trans hr.keeps⟩

theorem Dev.domReady_idle (k c : Nat) (h : ¬(k ∈ switchable ∧ bit (d.lv R.pwrDomctl) k = true ∧ d.domOn k = false)) : d.domReady k c = d := by
  refine if_neg (fun hc => h ?_)
  simp only [Bool.and_eq_true, List.contains_iff_mem, Bool.not_eq_true'] at hc
  exact ⟨hc.1.1, hc.1.2, hc.2⟩

theorem Dev.domReady_ready {k : Nat} (c : Nat) (h1 : k ∈ switchable) (h2 : bit (d.lv R.pwrDomctl) k = true) (h3 : d.domOn k = false) :
    (d.domReady k c).domOn k = true ∧ d.keeps (d.domReady k c) [R.pwrDomstat] := by
  have hlt : ∀ k ∈ switchable, k + 1 ≤ 32 := by decide
  have he : d.domReady k c = (d.atC c).setFld R.pwrDomstat k 1 1 := if_pos (by simp [h1, h2, h3])
  have hr := Dev.rf_setFld (d.atC c) R.pwrDomstat k 1 1 (hlt k h1)
  rw [he]
  refine ⟨?_, Dev.keeps.trans (Dev.keeps_of_regs (e := d.atC c) ⟨rfl, rfl, rfl⟩ _) (Dev.keeps_setFld _ _ _ _ _ (by simp))⟩
  rw [Dev.domOn, bit_eq_fld]
  exact beq_iff_eq.mpr hr

/-! ## The clock -/

theorem Dev.xoReturn_running (h : d.inReset = false) : d.xoReturn = d.setFld R.synStat 0 1 1 := by
  refine if_neg ?_
  rw [Dev.setFld_inReset, h]
  decide

/-- The device released from its reset. -/
def Dev.released : Dev := { d with inReset := false }

theorem Dev.xoReturn_held (h : d.inReset = true) : d.xoReturn = ((d.setFld R.synStat 0 1 1).released).setFld R.sysBootstat 0 4 1 := by
  refine if_pos ?_
  rw [Dev.setFld_inReset, h]

theorem Dev.xoReturn_leaves : d.xoReturn.rf R.synStat 0 1 = 1 ∧ d.xoReturn.inReset = false ∧ (d.inReset = false → d.keeps d.xoReturn [R.synStat]) ∧
    (d.inReset = true → d.xoReturn.bootState = 1) := by
  have h1 : (d.setFld R.synStat 0 1 1).rf R.synStat 0 1 = 1 := Dev.rf_setFld _ _ _ _ _ (by decide)
  cases h : d.inReset with
  | false =>
    rw [d.xoReturn_running h]
    exact ⟨h1, by rw [Dev.setFld_inReset, h], fun _ => d.keeps_setFld _ _ _ _ (by simp), fun h => absurd h (by decide)⟩
  | true =>
    rw [d.xoReturn_held h]
    generalize d.setFld R.synStat 0 1 1 = d1 at *
    have hr : d1.released.rf R.synStat 0 1 = d1.rf R.synStat 0 1 := rfl
    have hi : d1.released.inReset = false := rfl
    generalize d1.released = d2 at *
    refine ⟨?_, by rw [Dev.setFld_inReset, hi], fun h => absurd h (by decide), fun _ => Dev.rf_setFld _ _ _ _ _ (by decide)⟩
    rw [Dev.rf_setFld_ne _ _ _ _ _ _ _ (by decide), hr, h1]

/-- The MDLL may begin the tick. -/
def Dev.mdllMay : Prop := d.bbx.clkCond = false ∧ d.rf R.synStat 1 1 = 0 ∧ d.bootState ≤ 1 ∧ d.asleep = false

theorem Dev.mdllLock_idle (h : ¬d.mdllMay) : d.mdllLock = d := by
  refine if_pos ?_
  by_contra hc
  refine h ?_
  have hlt : d.rf R.synStat 1 1 < 2 := Nat.mod_lt _ (by decide)
  simp only [Bool.or_eq_true, not_or, Bool.not_eq_true, beq_eq_false_iff_ne, decide_eq_false_iff_not] at hc
  obtain ⟨⟨⟨⟨-, h1⟩, h2⟩, h3⟩, h4⟩ := hc
  exact ⟨h1, by omega, by rw [Dev.bootState]; omega, h4⟩

/-- The device at tick 0. -/
def Dev.tickZero : Dev := { d with tick := 0, cycle := 0 }

theorem Dev.mdllLock_begins (hrst : d.inReset = false) (h : d.mdllMay) : d.mdllLock.ticking = true ∧ d.mdllLock.tick = 0 ∧ d.mdllLock.cycle = 0 ∧ d.mdllLock.bootState = 1 ∧
    d.keeps d.mdllLock [R.synStat, R.sysBootstat] := by
  obtain ⟨h1, h2, h3, h4⟩ := h
  have he : d.mdllLock = ((d.setFld R.synStat 0 2 3).setFld R.sysBootstat 0 4 1).tickZero := by
    refine if_neg ?_
    rw [Dev.bootState] at h3
    rw [hrst, h1, h2, h4, decide_eq_false (by omega)]
    decide
  have hb : ((d.setFld R.synStat 0 2 3).setFld R.sysBootstat 0 4 1).rf R.sysBootstat 0 4 = 1 := Dev.rf_setFld _ _ _ _ _ (by decide)
  have hs : ((d.setFld R.synStat 0 2 3).setFld R.sysBootstat 0 4 1).rf R.synStat 0 2 = 3 :=
    (Dev.rf_setFld_ne _ _ _ _ _ _ _ (by decide)).trans (Dev.rf_setFld _ _ _ _ _ (by decide))
  have hm : d.marks ((d.setFld R.synStat 0 2 3).setFld R.sysBootstat 0 4 1) [R.synStat, R.sysBootstat] [] :=
    (Dev.marks.setFld d _ _ _ (by simp)).trans (.setFld _ _ _ _ (by simp))
  rw [he]
  generalize (d.setFld R.synStat 0 2 3).setFld R.sysBootstat 0 4 1 = d1 at *
  have hrf (o lo w : Nat) : d1.tickZero.rf o lo w = d1.rf o lo w := rfl
  have hk : d1.keeps d1.tickZero [R.synStat, R.sysBootstat] := Dev.keeps_of_regs ⟨rfl, rfl, rfl⟩ _
  refine ⟨?_, rfl, rfl, (hrf _ _ _).trans hb, hm.keeps.trans hk⟩
  have h1 : d1.rf R.synStat 1 1 = 1 := by
    rw [Dev.rf, fld] at hs ⊢
    omega
  rw [Dev.ticking, hrf, h1]
  rfl

/-! ## Factory test mode -/

/-- The device in factory test mode. -/
def Dev.tested : Dev := { d with testMode := true }

theorem Dev.factoryUnlock_idle (c : Nat) (h : d.testMode = true ∨ d.rf R.sysBootcfg 3 1 = 0) : d.factoryUnlock c = d := by
  refine if_pos ?_
  rw [Bool.or_eq_true, beq_iff_eq]
  exact h

theorem Dev.pme_rest : d.pme.mod = d.mod ∧ d.pme.testMode = d.testMode := by
  rw [Dev.pme]
  split
  · exact ⟨Dev.setFld_mod .., Dev.setFld_testMode ..⟩
  · exact ⟨rfl, rfl⟩

theorem Dev.faultPme_rest : d.faultPme.mod = d.mod ∧ d.faultPme.testMode = d.testMode := Dev.pme_rest _

theorem Dev.faultAssert_rest (b : Nat) : (d.faultAssert b).mod = d.mod ∧ (d.faultAssert b).testMode = d.testMode := by
  by_cases h : d.bbx.faultN = true
  · rw [show d.faultAssert b = d from if_pos h]
    exact ⟨rfl, rfl⟩
  · rw [show d.faultAssert b = ((d.setFld R.bbxFault 31 1 1).setFld R.bbxFault 0 5 b).faultPme from if_neg h]
    obtain ⟨hm, ht⟩ := ((d.setFld R.bbxFault 31 1 1).setFld R.bbxFault 0 5 b).faultPme_rest
    rw [hm, ht, Dev.setFld_mod, Dev.setFld_mod, Dev.setFld_testMode, Dev.setFld_testMode]
    exact ⟨rfl, rfl⟩

theorem Dev.factoryUnlock_eq (c : Nat) (ht : d.testMode = false) (hb : d.rf R.sysBootcfg 3 1 = 1) : d.factoryUnlock c =
    (let r := ((((forN 6 Dev.grpStop (d.atC c).tested).grpStat.chStats).setPins false false)).draw
    r.1.faultAssert (r.2.toNat % 32)) := by
  refine if_neg ?_
  rw [ht, hb]
  decide

theorem Dev.plays.testMode {d e : Dev} {l w : List Nat} (h : d.plays e l w) : e.testMode = d.testMode := (h.1.testMode :)

theorem Dev.factoryUnlock_leaves (c : Nat) (ht : d.testMode = false) (hb : d.rf R.sysBootcfg 3 1 = 1) : let e := d.factoryUnlock c
    e.testMode = true ∧ e.bbx.faultN = true ∧ e.rf R.pairStat 8 1 = 0 ∧ e.rf R.pairStat 9 1 = 0 ∧ ∀ g, g < 6 → (e.modG g).run_ = false := by
  have h0 : (d.atC c).tested.testMode = true := rfl
  rw [d.factoryUnlock_eq c ht hb]
  generalize (d.atC c).tested = d0 at *
  obtain ⟨hp, hrun⟩ := d0.grpStops_leaves 6
  generalize forN 6 Dev.grpStop d0 = d1 at *
  have hm := d1.grpStat_marks
  generalize d1.grpStat.chStats = d2 at *
  obtain ⟨h8, h9, -⟩ := d2.setPins_low
  obtain ⟨-, -, -, -, hpins⟩ := d2.setPins_leaves false false
  generalize d2.setPins false false = d3 at *
  have hd : d3.marks d3.draw.1 [] [] := .draw d3
  dsimp only
  generalize d3.draw = r at *
  obtain ⟨hf, -, -, hk⟩ := r.1.faultAssert_leaves (r.2.toNat % 32)
  obtain ⟨hmod, htm⟩ := r.1.faultAssert_rest (r.2.toNat % 32)
  generalize r.1.faultAssert (r.2.toNat % 32) = e at *
  have hpin (lo : Nat) : e.rf R.pairStat lo 1 = d3.rf R.pairStat lo 1 := by
    rw [Dev.rf, (hk R.pairStat (by decide)).1, hd.reg (by simp), Dev.rf]
  refine ⟨?_, hf, (hpin 8).trans h8, (hpin 9).trans h9, fun g hg => ?_⟩
  · rw [htm, hd.testMode, hpins.testMode, hm.testMode, hp.testMode, h0]
  · have hg' : e.modG g = d1.modG g := by
      rw [Dev.modG, hmod, ← Dev.modG, hd.modG, hpins.modG, hm.modG]
    rw [hg']
    exact hrun g hg

end

end Sys2Proof.Machine

/-!
PROOFS. The rows of the resets, the boot sequence and the entropy source.
-/
namespace Sys2Proof.Machine

/-- A row that leads to a system with the memory and the fuses as before. -/
theorem leads_put {z : State} {i : Instr} {s : Sys} {e : Dev} {P : Dev → Prop} (hi : exec i z = .next (z.put s)) (hm : s.mem = z.sys.mem) (ho : s.otp = z.sys.otp)
    (hd : s.dev = e) (hP : P e) : z.leads (exec i z) P := ⟨_, hi, ⟨hm, ho, rfl⟩, hd.symm ▸ hP⟩

/-- A step that ends in a failed boot, with nothing waiting. -/
theorem leads_bootFailed {z : State} {i : Instr} {f : Sys → Sys} (hi : exec i z = z.runRow f) (hrst : z.sys.dev.inReset = false) {code detail : Nat} (hc : code < 16)
    {s1 : Sys} (hf : f z.sys = (s1.onDev (fun d => d.bootFail code detail)).cmdRun) (hm : s1.mem = z.sys.mem) (ho : s1.otp = z.sys.otp) (hq : s1.dev.cmdQuiet) :
    z.leads (exec i z) (Dev.bootFailed code) := by
  rw [bootFail_run s1 detail hc hq] at hf
  exact leads_put (s := s1.onDev (fun d => d.bootFail code detail)) ((exec_runRow hi hrst).trans (by rw [hf])) hm ho rfl (s1.dev.bootFail_leaves detail hc).2

section
variable {z : State} {c : Nat} (hrst : z.sys.dev.inReset = false) (hq : z.sys.dev.cmdQuiet)
include hrst hq

/-! ## Boot -/

theorem exec_boot_ends {bs sheaf : List Byte} {slot1 : Option (List Byte)} (hst : z.sys.dev.bootState = 1) (hmdll : z.sys.dev.rf R.synStat 1 1 = 1)
    (hsel : z.sys.dev.rf R.sysBootcfg 0 2 ≠ 1) (hchk : z.sys.bootCheck (some bs) = (0, 0)) (hw : bootWrites bs = []) (hs : le bs 0x18 4 = 0) :
    let d := z.sys.dev
    z.leads (exec (.boot (some bs) slot1 sheaf true c) z) (fun e => e.bootState = 8 ∧ e.reg R.sysBoottick = d.tickLo ∧ e.rf R.ddrStat 0 2 = 1 ∧
      d.keeps e [R.sysBootstat, R.sysBoottick, R.ddrCfg, R.ddrStat]) := by
  intro d
  have hb := z.sys.booting_marks c
  have hqb := z.sys.booting_quiet c hq
  have hrow : exec (.boot (some bs) slot1 sheaf true c) z = _ := exec_runRow (f := fun s => s.boot (some bs) slot1 sheaf true c) rfl hrst
  rw [z.sys.boot_applies slot1 sheaf true c hrst hst hmdll hsel hchk, Sys.bootApply_trained, Sys.bootTail_plain _ bs sheaf hw hs] at hrow
  have hdev : (z.sys.booting c).mem = z.sys.mem ∧ (z.sys.booting c).otp = z.sys.otp := ⟨Sys.onDev_mem .., Sys.onDev_otp ..⟩
  have hk0 : d.keeps (d.atC c) [R.sysBootstat, R.sysBoottick, R.ddrCfg, R.ddrStat] := Dev.keeps_of_regs ⟨rfl, rfl, rfl⟩ _
  have ht0 : (d.atC c).tick = d.tick := rfl
  have hb' : (d.atC c).marks (z.sys.booting c).dev [R.sysBootstat] [] := hb
  generalize d.atC c = d0 at *
  generalize z.sys.booting c = s0 at *
  obtain ⟨hm1, hddr⟩ := s0.dev.bootTrained_leaves (le bs 6 2)
  have hq1 := hm1.quiet (by decide) hqb
  have hout : (s0.onDev (fun d => d.bootTrained (le bs 6 2))).mem = s0.mem ∧ (s0.onDev (fun d => d.bootTrained (le bs 6 2))).otp = s0.otp ∧
      (s0.onDev (fun d => d.bootTrained (le bs 6 2))).dev = s0.dev.bootTrained (le bs 6 2) := ⟨Sys.onDev_mem .., Sys.onDev_otp .., Sys.onDev_dev ..⟩
  generalize s0.onDev (fun d => d.bootTrained (le bs 6 2)) = s1 at *
  obtain ⟨hmem, hotp, hd1⟩ := hout
  rw [← hd1] at hm1 hddr hq1
  obtain ⟨x, hx⟩ : ∃ x, x = { s1.dev.boot with autoswap := bit (le bs 6 2) 0 } := ⟨_, rfl⟩
  have hwb : s1.dev.keeps (s1.dev.withBoot x) [] := s1.dev.keeps_withBoot x _
  have hwt : (s1.dev.withBoot x).tick = s1.dev.tick := rfl
  have hq2 : (s1.dev.withBoot x).cmdQuiet := Dev.cmdQuiet_of hq1 rfl rfl (fun _ _ => rfl)
  have hs2 : s1.onDev (fun d => (d.withBoot { d.boot with autoswap := bit (le bs 6 2) 0 }).bootEnded) = { s1 with dev := (s1.dev.withBoot x).bootEnded } := by
    rw [hx]
    rfl
  rw [hs2] at hrow
  generalize s1.dev.withBoot x = d2 at *
  obtain ⟨hm2, h8, htick⟩ := d2.bootEnded_leaves
  rw [cmdRun_quiet (s := { s1 with dev := d2.bootEnded }) (hm2.quiet (by decide) hq2)] at hrow
  have htl : d2.tickLo = d.tickLo := by rw [Dev.tickLo, hwt, hm1.tick, hb'.tick, ht0, ← Dev.tickLo]
  have hdd : d2.bootEnded.rf R.ddrStat 0 2 = 1 := by
    rw [hm2.rf 0 2 (by decide), Dev.rf, (hwb R.ddrStat (by simp)).1]
    exact hddr
  have hkk : d.keeps d2.bootEnded [R.sysBootstat, R.sysBoottick, R.ddrCfg, R.ddrStat] :=
    ((hk0.trans (hb'.keeps.mono (by simp))).trans (hm1.keeps.mono (by decide))).trans ((hwb.mono (by simp)).trans (hm2.keeps.mono (by decide)))
  generalize d2.bootEnded = e at *
  exact leads_put hrow (hmem.trans hdev.1) (hotp.trans hdev.2) rfl ⟨h8, htick.trans htl, hdd, hkk⟩

omit hq in
theorem exec_boot_waits {slot0 slot1 : Option (List Byte)} {sheaf : List Byte} {train : Bool} (hst : z.sys.dev.bootState = 1) (hmdll : z.sys.dev.rf R.synStat 1 1 = 1)
    (hsel : z.sys.dev.rf R.sysBootcfg 0 2 = 1) : z.leads (exec (.boot slot0 slot1 sheaf train c) z) (fun e => e.bootState = 9 ∧ e.boot.image = [] ∧
      z.sys.dev.keeps e [R.sysBootstat]) := by
  have hrow : exec (.boot slot0 slot1 sheaf train c) z = _ := exec_runRow (f := fun s => s.boot slot0 slot1 sheaf train c) rfl hrst
  rw [z.sys.boot_waits slot0 slot1 sheaf train c hrst hst hmdll hsel] at hrow
  have hb := (z.sys.booting_marks c).keeps
  have hk0 : z.sys.dev.keeps (z.sys.dev.atC c) [R.sysBootstat] := Dev.keeps_of_regs ⟨rfl, rfl, rfl⟩ _
  have hout : (z.sys.booting c).mem = z.sys.mem ∧ (z.sys.booting c).otp = z.sys.otp := ⟨Sys.onDev_mem .., Sys.onDev_otp ..⟩
  generalize z.sys.booting c = s0 at *
  obtain ⟨h9, himg, hk⟩ := s0.dev.bootWait_leaves
  exact leads_put hrow ((Sys.onDev_mem ..).trans hout.1) ((Sys.onDev_otp ..).trans hout.2) (Sys.onDev_dev ..) ⟨h9, himg, (hk0.trans hb).trans hk⟩

/-- A step of the boot sequencer with the clock locked. -/
theorem boot_rows (slot0 slot1 : Option (List Byte)) (sheaf : List Byte) (train : Bool) :
    let d := z.sys.dev
    (d.bootState ≠ 1 ∨ d.rf R.synStat 1 1 = 0 → exec (.boot slot0 slot1 sheaf train c) z = .next z) ∧
    (d.bootState = 1 → d.rf R.synStat 1 1 = 1 →
      (d.rf R.sysBootcfg 0 2 = 1 → z.leads (exec (.boot slot0 slot1 sheaf train c) z) (fun e => e.bootState = 9 ∧ e.boot.image = [] ∧
        d.keeps e [R.sysBootstat])) ∧
      (d.rf R.sysBootcfg 0 2 ≠ 1 →
        (slot0 = none → slot1 = none → z.leads (exec (.boot slot0 slot1 sheaf train c) z) (Dev.bootFailed 8)) ∧
        (∀ bs, slot0 = some bs → z.sys.bootCheck slot0 = (0, 0) → train = false → z.leads (exec (.boot slot0 slot1 sheaf train c) z) (Dev.bootFailed 6)) ∧
        (∀ bs, slot0 = some bs → z.sys.bootCheck slot0 = (0, 0) → train = true → bootWrites bs = [] → le bs 0x18 4 = 0 →
          z.leads (exec (.boot slot0 slot1 sheaf train c) z) (fun e => e.bootState = 8 ∧ e.reg R.sysBoottick = d.tickLo ∧ e.rf R.ddrStat 0 2 = 1 ∧
            d.keeps e [R.sysBootstat, R.sysBoottick, R.ddrCfg, R.ddrStat])))) := by
  refine ⟨fun h => ?_, fun hst hmdll => ⟨fun hsel => exec_boot_waits hrst hst hmdll hsel, fun hsel => ⟨fun h0 h1 => ?_, fun bs h0 hchk ht => ?_,
    fun bs h0 hchk ht hw hs => ?_⟩⟩⟩
  · rw [exec_runRow (f := fun s => s.boot slot0 slot1 sheaf train c) rfl hrst, z.sys.boot_idle slot0 slot1 sheaf train c h]
    rfl
  · subst h0 h1
    have hgq : ((z.sys.booting c).onDev (fun d => d.setFld R.sysBootstat 0 4 2)).dev.cmdQuiet :=
      (Dev.marks.setFld (l := [R.sysBootstat]) (w := []) (z.sys.booting c).dev 0 4 2 (by simp)).quiet (by decide) (z.sys.booting_quiet c hq)
    exact leads_bootFailed (f := fun s => s.boot none none sheaf train c) rfl hrst (by decide) (z.sys.boot_unread sheaf train c hrst hst hmdll hsel) rfl rfl hgq
  · subst h0 ht
    have hgq : ((z.sys.booting c).onDev (fun d => d.setFld R.sysBootstat 0 4 5)).dev.cmdQuiet :=
      (Dev.marks.setFld (l := [R.sysBootstat]) (w := []) (z.sys.booting c).dev 0 4 5 (by simp)).quiet (by decide) (z.sys.booting_quiet c hq)
    exact leads_bootFailed (f := fun s => s.boot (some bs) slot1 sheaf false c) rfl hrst (by decide)
      ((z.sys.boot_applies slot1 sheaf false c hrst hst hmdll hsel hchk).trans (Sys.bootApply_untrained _ bs sheaf)) rfl rfl hgq
  · subst h0 ht
    exact exec_boot_ends hrst hq hst hmdll hsel hchk hw hs

theorem bootTimeout_rows : let d := z.sys.dev
    (d.bootState ≠ 9 → exec (.bootPcieTimeout c) z = .next z) ∧ (d.bootState = 9 → z.leads (exec (.bootPcieTimeout c) z) (Dev.bootFailed 1)) := by
  refine ⟨fun h => ?_, fun h => ?_⟩
  · rw [exec_runRow (f := fun s => s.bootTimeout c) rfl hrst, show z.sys.bootTimeout c = z.sys from if_pos h]
    rfl
  · exact leads_bootFailed (f := fun s => s.bootTimeout c) rfl hrst (by decide) (if_neg (not_not.mpr h)) rfl rfl (Dev.cmdQuiet_atC hq c)

/-! ## Fuses and plane resets -/

omit hrst in
theorem fuseDone_rows (err : Option Nat) : let d := z.sys.dev
    (d.cmd.fuse = false → exec (.fuseDone err c) z = .next (z.onDev (fun d => d.atC c))) ∧
    (d.cmd.fuse = true → z.leads (exec (.fuseDone err c) z) (fun e => e.cmd = { d.cmd with fuse := false } ∧ (err ≠ none → e.flag Blk.key Src.keyOtpErr) ∧
      d.keeps e [R.fltstat Blk.key, R.fltfirst Blk.key])) := by
  intro d
  have hrow : exec (.fuseDone err c) z = .next (z.put ((z.sys.onDev (fun d => (d.atC c).fuseDone err)).cmdRun)) := rfl
  refine ⟨fun h => ?_, fun h => ?_⟩
  · have he : (d.atC c).fuseDone err = d.atC c := (d.atC c).fuseDone_idle err h
    have hs : z.sys.onDev (fun d => (d.atC c).fuseDone err) = z.sys.onDev (fun d => d.atC c) := congrArg (fun e => { z.sys with dev := e }) he
    rw [hrow, hs, cmdRun_quiet (s := z.sys.onDev (fun d => d.atC c)) (Dev.cmdQuiet_atC hq c)]
    rfl
  · obtain ⟨hc, hf, hk⟩ := (d.atC c).fuseDone_ends err h
    have hk0 : d.keeps (d.atC c) [R.fltstat Blk.key, R.fltfirst Blk.key] := Dev.keeps_of_regs ⟨rfl, rfl, rfl⟩ _
    have hring : ∀ o ∈ ringIdx, o ∉ [R.fltstat Blk.key, R.fltfirst Blk.key] := by decide
    have hqe : ((d.atC c).fuseDone err).cmdQuiet :=
      Dev.cmdQuiet_of (Dev.cmdQuiet_atC hq c) (by rw [hc]) (by rw [hc]) (fun o ho => (hk o (hring o ho)).1)
    rw [cmdRun_quiet (s := z.sys.onDev (fun d => (d.atC c).fuseDone err)) hqe] at hrow
    exact leads_put hrow rfl rfl (e := (d.atC c).fuseDone err) rfl ⟨hc, hf, hk0.trans hk⟩

theorem planeResetEnd_rows (htick : z.sys.dev.ticking = true) : let d := z.sys.dev
    (d.ctrlRst = none → d.mgmtRst = none → exec (.planeResetEnd c) z = .next (z.onDev (fun d => d.atC c))) ∧
    (∀ t, d.ctrlRst = some t → t ≤ d.tick → d.mgmtRst = none → z.leads (exec (.planeResetEnd c) z) (fun e => e.ctrlRst = none ∧ d.keeps e [])) ∧
    (∀ t, d.ctrlRst = none → d.mgmtRst = some t → t ≤ d.tick →
      (d.paired = false → z.leads (exec (.planeResetEnd c) z) (fun e => e.mgmtRst = none ∧ d.keeps e [])) ∧
      (d.paired = true → d.role ≠ .isolated → ∃ s, exec (.planeResetEnd c) z = .next s ∧ s.sys.dev.mgmtRst = none ∧ s.sys.dev.role = .fallow)) := by
  have hrow := exec_tickRow (f := fun s => s.planeResetEnd c) (c := .planeResetEnd c) rfl (z := z) ⟨hrst, htick⟩
  refine ⟨fun h1 h2 => ?_, fun t h1 hle h2 => ?_, fun t h1 h2 hle => ⟨fun hp => ?_, fun hp h4 => ?_⟩⟩
  · rw [hrow, Sys.planeResetEnd_none c hq h1 h2]
    rfl
  · refine ⟨_, hrow, ?_⟩
    rw [Sys.planeResetEnd_ctrl c hq h1 hle h2]
    exact ⟨⟨rfl, rfl, rfl⟩, rfl, Dev.keeps_of_regs ⟨rfl, rfl, rfl⟩ _⟩
  · refine ⟨_, hrow, ?_⟩
    rw [Sys.planeResetEnd_mgmt c hq h1 h2 hle]
    have he : (z.sys.dev.atC c).mgmtOver = (z.sys.dev.atC c).mgmtFree := Dev.mgmtOver_alone hp
    have hs : z.sys.onDev (fun d => (d.atC c).mgmtOver) = z.sys.onDev (fun d => (d.atC c).mgmtFree) := congrArg (fun e => { z.sys with dev := e }) he
    rw [hs]
    exact ⟨⟨rfl, rfl, rfl⟩, rfl, Dev.keeps_of_regs ⟨rfl, rfl, rfl⟩ _⟩
  · refine ⟨_, hrow, ?_⟩
    rw [Sys.planeResetEnd_mgmt c hq h1 h2 hle]
    exact Dev.mgmtOver_paired (d := z.sys.dev.atC c) hp h4

end

/-! ## The rows together -/

/-- The rows of a device that runs, with nothing waiting in CMD. -/
theorem entropy_rows {z : State} {c : Nat} (hrst : z.sys.dev.inReset = false) :
    let d := z.sys.dev
    let same := Host.Outcome.next (z.onDev (fun d => d.atC c))
    (∀ nonce, (d.cmd.draw = [] ∨ d.cmd.fails ≠ 0 → exec (.nonceDraw nonce c) z = same) ∧
      (d.cmd.draw ≠ [] → d.cmd.fails = 0 → z.leads (exec (.nonceDraw nonce c) z) (fun e => e.nonce = nonce % 2 ^ 64 ∧ e.nonceOk = true ∧
        e.cmd.draw = [] ∧ e.evt.made.length = d.evt.made.length + d.cmd.draw.length ∧ d.keeps e nonceRegs))) ∧
    (∀ test, (test = 1 ∨ test = 2 → z.leads (exec (.trngHealth test c) z) (fun e => e.rf R.keyTrngstat test 1 = 1 ∧ e.rf R.keyTrngstat 0 1 = 0 ∧
        e.cmd.fails ≠ 0 ∧ e.flag Blk.key Src.keyTrngHealth ∧ d.keeps e [R.keyTrngstat, R.fltstat Blk.key, R.fltfirst Blk.key])) ∧
      (¬(test = 1 ∨ test = 2) → exec (.trngHealth test c) z = same)) ∧
    z.leads (exec (.trngSourcePassesAgain c) z) (fun e => e.rf R.keyTrngstat 0 1 = 1 ∧ e.cmd = { d.cmd with fails := 0 } ∧ d.keeps e [R.keyTrngstat]) := by
  intro d same
  have hk0 (l : List Nat) : d.keeps (d.atC c) l := Dev.keeps_of_regs ⟨rfl, rfl, rfl⟩ _
  have hsame {i : Instr} {f : Dev → Dev} (hi : exec i z = z.runRow (fun s => s.onDev f)) (h : f d = d.atC c) : exec i z = same := by
    rw [exec_runRow hi hrst]
    exact congrArg (fun e => Host.Outcome.next (z.put { z.sys with dev := e })) h
  refine ⟨fun nonce => ⟨fun h => ?_, fun h hf => ?_⟩, fun test => ⟨fun h => ?_, fun h => ?_⟩, ?_⟩
  · exact hsame (f := fun d => (d.atC c).nonceDraw nonce) rfl ((d.atC c).nonceDraw_idle nonce h)
  · obtain ⟨h1, h2, h3, h4, h5⟩ := (d.atC c).nonceDraw_draws nonce h hf
    exact leads_of_runRow (f := fun d => (d.atC c).nonceDraw nonce) rfl hrst ⟨h1, h2, h3, h4, (hk0 _).trans h5⟩
  · obtain ⟨h1, h2, h3, h4, h5⟩ := (d.atC c).trngFail_fails h
    exact leads_of_runRow (f := fun d => (d.atC c).trngFail test) rfl hrst ⟨h1, h2, h3, h4, (hk0 _).trans h5⟩
  · exact hsame (f := fun d => (d.atC c).trngFail test) rfl ((d.atC c).trngFail_idle test h)
  · obtain ⟨h1, h2, h3⟩ := (d.atC c).trngPass_leaves
    exact leads_of_runRow (f := fun d => (d.atC c).trngPass) rfl hrst ⟨h1, h2, (hk0 _).trans h3⟩

/-- Settles O60: the resets by what AO keeps, then each row of boot, entropy, fuses, domains and plane resets through the lemma that says what it leaves. -/
theorem resetsBootAndEntropy : Obligations.ResetsBootAndEntropy := by
  refine ⟨fun z bootsel pairId testmode => ⟨fun h => exec_powerOnReset bootsel pairId testmode h, fun ha hi h hinv => exec_warmReset bootsel pairId testmode ha hi h hinv⟩,
    fun z c hrst hq => ?_, fun z hrst => ?_⟩
  · intro d same failed
    obtain ⟨hidle9, hfail9⟩ := bootTimeout_rows (c := c) hrst hq
    obtain ⟨hnonce, htrng, hpass⟩ := entropy_rows (c := c) hrst
    refine ⟨fun slot0 slot1 sheaf train => boot_rows hrst hq slot0 slot1 sheaf train, hidle9, hfail9, ⟨fun h => ?_, fun h => ?_⟩, hnonce, htrng, hpass,
      fun err => fuseDone_rows hq err, fun k => ⟨fun h => ?_, fun h => ?_⟩, ?_, fun ht => planeResetEnd_rows hrst hq ht, fun h => ?_, fun ht hb => ?_⟩
    · exact leads_of_runRow (f := fun d => d.mdllLock) rfl hrst (d.mdllLock_begins hrst h)
    · exact exec_runRow_same (f := fun d => d.mdllLock) rfl hrst (d.mdllLock_idle h)
    · exact leads_of_runRow (f := fun d => d.domReady k c) rfl hrst (d.domReady_ready c h.1 h.2.1 h.2.2)
    · exact exec_runRow_same (f := fun d => d.domReady k c) rfl hrst (d.domReady_idle k c h)
    · obtain ⟨h1, h2, h3, -⟩ := d.xoReturn_leaves
      exact ⟨_, rfl, ⟨rfl, rfl, rfl⟩, h1, h2, h3 hrst⟩
    · exact exec_runRow_same (f := fun d => d.factoryUnlock c) rfl hrst (d.factoryUnlock_idle c h)
    · exact leads_of_runRow (f := fun d => d.factoryUnlock c) rfl hrst (d.factoryUnlock_leaves c ht hb)
  · obtain ⟨h1, h2, -, h4⟩ := z.sys.dev.xoReturn_leaves
    exact ⟨_, rfl, ⟨rfl, rfl, rfl⟩, h2, h4 hrst, h1⟩

end Sys2Proof.Machine

/-!
PROOFS. The receive contexts of streams: the registers of one, and a frame for what an operation on one context leaves.
-/
namespace Sys2Proof.Machine

/-! ## The registers that a receive context writes -/

/-- The status registers of context `k` and the fault registers of STRM. -/
def rxRegs (k : Nat) : List Nat :=
  [R.strmRxstat k, R.strmRxanchor k, R.strmRxmargin k, R.strmRxskew k, R.fltstat Blk.strm, R.fltfirst Blk.strm]

/-- The registers that a context reads are none of them. -/
theorem not_mem_rxRegs {k o : Nat} (h : o % 64 < 32) : o ∉ rxRegs k := by
  have h1 : R.fltstat Blk.strm = 0xE0020 := by decide
  have h2 : R.fltfirst Blk.strm = 0xE0024 := by decide
  intro hc
  simp only [rxRegs, List.mem_cons, List.not_mem_nil, or_false, h1, h2, R.strmRxstat, R.strmRxanchor, R.strmRxmargin, R.strmRxskew] at hc
  omega

theorem strmRxstat_mem (k : Nat) : R.strmRxstat k ∈ rxRegs k := by simp [rxRegs]

theorem strmRxmargin_mem (k : Nat) : R.strmRxmargin k ∈ rxRegs k := by simp [rxRegs]

theorem strmRxskew_mem (k : Nat) : R.strmRxskew k ∈ rxRegs k := by simp [rxRegs]

theorem Dev.marks.raiseRx (d : Dev) (k src d0 d1 d2 : Nat) (w : List Nat) : d.marks (d.raise Blk.strm src d0 d1 d2) (rxRegs k) w :=
  .raise d _ _ _ _ _ (by simp [rxRegs]) (by simp [rxRegs])

/-! ## One context changed -/

theorem updAt_updAt {α : Type} (l : List α) (i : Nat) (f g : α → α) : updAt (updAt l i f) i g = updAt l i (g ∘ f) := by
  induction l generalizing i with
  | nil => rfl
  | cons y t ih =>
    cases i with
    | zero => rfl
    | succ i => exact congrArg (y :: ·) (ih i)

theorem map_updAt {α β : Type} (v : α → β) (l : List α) (i : Nat) {f : α → α} (h : ∀ x, v (f x) = v x) : (updAt l i f).map v = l.map v := by
  induction l generalizing i with
  | nil => rfl
  | cons y t ih =>
    cases i with
    | zero => exact congrArg (· :: t.map v) (h y)
    | succ i => exact congrArg (v y :: ·) (ih i)

theorem Dev.rxC_onRx_ne (d : Dev) {k j : Nat} (f : RxCtx → RxCtx) (h : j ≠ k) : (d.onRx k f).rxC j = d.rxC j := by
  rw [Dev.rxC, Dev.onRx, getD_updAt, if_neg (fun hc => h hc.1.symm), Dev.rxC]

theorem Dev.rxC_onRx {d : Dev} {k : Nat} (f : RxCtx → RxCtx) (h : k < d.strm.rx.length) : (d.onRx k f).rxC k = f (d.rxC k) := by
  rw [Dev.rxC, Dev.onRx, getD_updAt, if_pos ⟨rfl, h⟩, Dev.rxC]

theorem lt_length_of_rxOn {d : Dev} {k : Nat} (h : (d.rxC k).on = true) : k < d.strm.rx.length := by
  by_contra hk
  rw [Dev.rxC, List.getD_eq_default _ _ (by omega)] at h
  cases h

/-- The device with other state of the pair and of GLN. -/
def Dev.beside (d : Dev) (p : Pair) (g : Gln) : Dev :=
  { d with
    pair := p
    gln := g }

theorem Dev.change_change (d : Dev) (p p' : Pair) (g g' : Gln) (k : Nat) (f f' : RxCtx → RxCtx) :
    (((d.beside p g).onRx k f).beside p' g').onRx k f' = (d.beside p' g').onRx k (f' ∘ f) := by
  simp only [Dev.onRx, Dev.beside, updAt_updAt]

theorem Dev.marks_change {d e : Dev} {l w : List Nat} (h : d.marks e l w) (p : Pair) (g : Gln) (k : Nat) (f : RxCtx → RxCtx) :
    ((d.beside p g).onRx k f).marks ((e.beside p g).onRx k f) l w := by
  obtain ⟨⟨_, _, _, _, _, _, _, _, rfl⟩, hk, hw⟩ := h
  exact ⟨⟨_, _, _, _, _, _, _, _, rfl⟩, hk, hw⟩

/-- From `d` to `e` context `k` alone of the streams may differ, and its view `v` does not; of the rest its status registers, counters of `w`, and the state
of the pair and of GLN may. -/
def Dev.edits {α : Type} (d e : Dev) (k : Nat) (v : RxCtx → α) (w : List Nat) : Prop :=
  ∃ p g f, (∀ x, v (f x) = v x) ∧ ((d.beside p g).onRx k f).marks e (rxRegs k) w

namespace Dev.edits

variable {α : Type} {k : Nat} {v : RxCtx → α} {w : List Nat}

theorem refl (d : Dev) : d.edits d k v w := by
  refine ⟨d.pair, d.gln, id, fun _ => rfl, ?_⟩
  have h : (d.beside d.pair d.gln).onRx k id = d := by
    rw [Dev.onRx, updAt_id]
    rfl
  rw [h]
  exact .refl d

theorem trans {d e g : Dev} (hde : d.edits e k v w) (heg : e.edits g k v w) : d.edits g k v w := by
  obtain ⟨p1, g1, f1, hv1, hm1⟩ := hde
  obtain ⟨p2, g2, f2, hv2, hm2⟩ := heg
  refine ⟨p2, g2, f2 ∘ f1, fun x => (hv2 _).trans (hv1 x), ?_⟩
  have h := (Dev.marks_change hm1 p2 g2 k f2).trans hm2
  rwa [Dev.change_change] at h

theorem of_marks {d e : Dev} (h : d.marks e (rxRegs k) w) : d.edits e k v w := by
  refine ⟨d.pair, d.gln, id, fun _ => rfl, ?_⟩
  have h1 : (d.beside d.pair d.gln).onRx k id = d := by
    rw [Dev.onRx, updAt_id]
    rfl
  rw [h1]
  exact h

theorem onRx (d : Dev) {f : RxCtx → RxCtx} (h : ∀ x, v (f x) = v x) : d.edits (d.onRx k f) k v w := ⟨d.pair, d.gln, f, h, .refl _⟩

theorem beside (d : Dev) (p : Pair) (g : Gln) : d.edits (d.beside p g) k v w := by
  refine ⟨p, g, id, fun _ => rfl, ?_⟩
  have h : (d.beside p g).onRx k id = d.beside p g := by
    rw [Dev.onRx, updAt_id]
  rw [h]
  exact .refl _

theorem raise (d : Dev) (src d0 d1 d2 : Nat) : d.edits (d.raise Blk.strm src d0 d1 d2) k v w := of_marks (.raiseRx d k src d0 d1 d2 w)

theorem mono {β : Type} {v' : RxCtx → β} {w' : List Nat} {d e : Dev} (h : d.edits e k v w) (hv : ∀ x y, v x = v y → v' x = v' y) (hw : w ⊆ w') :
    d.edits e k v' w' := by
  obtain ⟨p, g, f, hf, hm⟩ := h
  exact ⟨p, g, f, fun x => hv _ _ (hf x), hm.mono (List.Subset.refl _) hw⟩

section
variable {d e : Dev} (h : d.edits e k v w)
include h

theorem rxC_ne {j : Nat} (hj : j ≠ k) : e.rxC j = d.rxC j := by
  obtain ⟨p, g, f, -, hm⟩ := h
  have h1 : e.rxC j = ((d.beside p g).onRx k f).rxC j := by rw [Dev.rxC, hm.strm, Dev.rxC]
  rw [h1, Dev.rxC_onRx_ne _ _ hj]
  rfl

theorem length : e.strm.rx.length = d.strm.rx.length := by
  obtain ⟨p, g, f, -, hm⟩ := h
  rw [hm.strm]
  exact length_updAt _ _ _

theorem view : v (e.rxC k) = v (d.rxC k) := by
  obtain ⟨p, g, f, hv, hm⟩ := h
  have h1 : e.rxC k = ((d.beside p g).onRx k f).rxC k := by rw [Dev.rxC, hm.strm, Dev.rxC]
  rw [h1]
  by_cases hk : k < d.strm.rx.length
  · rw [Dev.rxC_onRx f (show k < (d.beside p g).strm.rx.length from hk), hv]
    rfl
  · rw [Dev.rxC, Dev.onRx, getD_updAt, if_neg (fun hc => hk hc.2)]
    rfl

theorem keeps : d.keeps e (rxRegs k) := by
  obtain ⟨p, g, f, -, hm⟩ := h
  exact (Dev.keeps_of_regs (e := (d.beside p g).onRx k f) ⟨rfl, rfl, rfl⟩ _).trans hm.keeps

theorem lv {o : Nat} (ho : o % 64 < 32) : e.lv o = d.lv o := (h.keeps o (not_mem_rxRegs ho)).2

theorem lf {o : Nat} (lo n : Nat) (ho : o % 64 < 32) : e.lf o lo n = d.lf o lo n := by rw [Dev.lf, h.lv ho, Dev.lf]

theorem rf {o : Nat} (lo n : Nat) (ho : o ∉ rxRegs k) : e.rf o lo n = d.rf o lo n := by rw [Dev.rf, (h.keeps o ho).1, Dev.rf]

theorem w64 {o : Nat} (ho : o ∉ w) : e.w64 o = d.w64 o := by
  obtain ⟨p, g, f, -, hm⟩ := h
  exact hm.w64 ho

theorem tick : e.tick = d.tick := by
  obtain ⟨p, g, f, -, hm⟩ := h
  exact hm.tick

theorem cycle : e.cycle = d.cycle := by
  obtain ⟨p, g, f, -, hm⟩ := h
  exact hm.cycle

theorem eng : e.eng = d.eng := by
  obtain ⟨p, g, f, -, hm⟩ := h
  exact hm.eng

theorem time : e.time = d.time := by
  obtain ⟨p, g, f, -, ⟨⟨_, _, _, _, _, _, _, _, rfl⟩, -, -⟩⟩ := h
  rfl

theorem engTick : e.engTick = d.engTick := by
  obtain ⟨p, g, f, -, ⟨⟨_, _, _, _, _, _, _, _, rfl⟩, -, -⟩⟩ := h
  rfl

theorem instant : e.instant = d.instant := by rw [Dev.instant, h.tick, h.cycle, Dev.instant]

theorem inbox : e.strm.inbox = d.strm.inbox := by
  obtain ⟨p, g, f, -, hm⟩ := h
  rw [hm.strm]
  rfl

theorem follows : e.rxFollows = d.rxFollows := by
  have hs (lo n : Nat) : e.rf R.pairStat lo n = d.rf R.pairStat lo n := h.rf lo n (not_mem_rxRegs (by decide))
  have hc (lo n : Nat) : e.rf R.pairCtrl lo n = d.rf R.pairCtrl lo n := h.rf lo n (not_mem_rxRegs (by decide))
  rw [Dev.rxFollows, Dev.paired, Dev.role, hs, hc, Dev.rxFollows, Dev.paired, Dev.role]

/-! What a context computes from its configuration. -/

theorem rx96 (j : Nat) : e.rx96 j = d.rx96 j := by rw [Dev.rx96, h.lf 19 1 (by simp only [R.strmRxctl]; omega), Dev.rx96]

theorem rxCh (j : Nat) : e.rxCh j = d.rxCh j := by rw [Dev.rxCh, h.lf 0 7 (by simp only [R.strmRxctl]; omega), Dev.rxCh]

theorem rxWidth (j : Nat) : e.rxWidth j = d.rxWidth j := by rw [Dev.rxWidth, h.lf 20 2 (by simp only [R.strmRxctl]; omega), Dev.rxWidth]

theorem rxSample (j i : Nat) (pay : List Byte) : e.rxSample j i pay = d.rxSample j i pay := by
  simp only [Dev.rxSample, h.rxWidth, h.rxCh]

theorem rxTs (j : Nat) (u : Int) : e.rxTs j u = d.rxTs j u := by rw [Dev.rxTs, h.lv (by simp only [R.strmRxrtpoff]; omega), Dev.rxTs]

theorem rxDue_ne {j : Nat} (hj : j ≠ k) : e.rxDue j = d.rxDue j := by rw [Dev.rxDue, h.rxC_ne hj, h.rx96, h.engTick, Dev.rxDue]

theorem rxRegion (j : Nat) : e.rxRegion j = d.rxRegion j := by
  have hkey : e.rxKey j = d.rxKey j := by
    rw [Dev.rxKey, h.lv (by simp only [R.strmRxrkeylo]; omega), h.lv (by simp only [R.strmRxrkeyhi]; omega), Dev.rxKey]
  rw [Dev.rxRegion, h.eng, hkey, h.rx96, h.rxCh, h.lf 0 12 (by simp only [R.strmRxdch]; omega), Dev.rxRegion]

theorem rxFrameAt (r : Region) : e.rxFrameAt r = d.rxFrameAt r := by
  simp only [Dev.rxFrameAt, Dev.tapFrame, Dev.wpOf, h.eng, h.engTick]

end

end Dev.edits

/-- What the admission of a packet asks of a context. -/
def RxCtx.held (x : RxCtx) : List RxPkt × List Nat × Nat × Nat := (x.pkts, x.rel, x.dA, x.b)

theorem Dev.edits.heldBytes {d e : Dev} {k : Nat} {w : List Nat} (h : d.edits e k RxCtx.held w) : e.heldBytes = d.heldBytes := by
  obtain ⟨p, g, f, hv, hm⟩ := h
  have hp (x : RxCtx) : (f x).pkts = x.pkts := congrArg Prod.fst (hv x)
  have hx : ((d.beside p g).onRx k f).strm.rx.map (fun x => sumN (x.pkts.map (fun q => q.pay.length))) =
      d.strm.rx.map (fun x => sumN (x.pkts.map (fun q => q.pay.length))) := map_updAt _ _ _ (fun x => by rw [hp])
  rw [Dev.heldBytes, hm.strm, hx]
  rfl

theorem Dev.edits.rxT0 {d e : Dev} {k : Nat} {w : List Nat} (h : d.edits e k RxCtx.held w) (ts n : Nat) : e.rxT0 k ts n = d.rxT0 k ts n := by
  have hA : (e.rxC k).dA = (d.rxC k).dA := congrArg (fun y => y.2.2.1) h.view
  have hB : (e.rxC k).b = (d.rxC k).b := congrArg (fun y => y.2.2.2) h.view
  have hU (t : Nat) : e.rxU k t = d.rxU k t := by simp only [Dev.rxU, Dev.rxR, hA, hB, h.time, h.rx96]
  simp only [Dev.rxT0, Dev.rxR, hU, hA, hB, h.time, h.rx96, h.rxTs]
  rfl

end Sys2Proof.Machine

/-!
PROOFS. A packet of a stream: the checks of R214, its admission (R218), and the context that holds it.
-/
namespace Sys2Proof.Machine

/-! ## What the arrival of a packet leaves -/

theorem Dev.marks_rxStat (d : Dev) (k lo n x : Nat) (w : List Nat) : d.marks (d.rxStat k lo n x) (rxRegs k) w := .setFld d lo n x (strmRxstat_mem k)

section
variable (d : Dev) (k leg seq : Nat)

theorem Dev.legIn_edits {w : List Nat} : d.edits (d.legIn k leg) k RxCtx.held w := by
  have h0 (f : RxCtx → RxCtx) (hf : ∀ x, (f x).held = x.held) : d.edits ((d.onRx k f).rxStat k (4 + leg) 1 1) k RxCtx.held w :=
    (Dev.edits.onRx d hf).trans (.of_marks (Dev.marks_rxStat ..))
  unfold Dev.legIn
  extract_lets d1
  have h1 : d.edits d1 k RxCtx.held w := h0 _ (fun _ => rfl)
  split
  · exact h1.trans (.raise _ _ _ _ _)
  · exact h1

theorem Dev.skewIn_edits {w : List Nat} : d.edits (d.skewIn k leg seq) k RxCtx.held w := by
  have h1 : d.edits (d.onRx k (fun x => { x with arrs := ((seq, leg, d.instant) :: x.arrs).take 1024 })) k RxCtx.held w := .onRx d (fun _ => rfl)
  rw [Dev.skewIn]
  split
  · exact h1.trans (.of_marks (.setReg _ _ (strmRxskew_mem k)))
  · exact h1

theorem Dev.marginIn_edits (t0 : Int) {w : List Nat} : d.edits (d.marginIn k t0) k RxCtx.held w := by
  unfold Dev.marginIn
  extract_lets m n d1
  have h1 : d.edits d1 k RxCtx.held w := .onRx d (fun _ => rfl)
  split
  · exact .refl d
  split
  · exact h1
  · exact h1.trans (.of_marks (.setFld _ _ _ _ (strmRxmargin_mem k)))

end

/-! ## Admission and holding (R218) -/

/-- A packet of `n` bytes that context `k` is to hold: not too far ahead, neither held nor released before, with room. -/
structure Dev.admits (d : Dev) (k seq ts n : Nat) : Prop where
  near : d.rxT0 k ts d.tick ≤ d.tick + 768
  unheld : (d.rxC k).pkts.any (fun q => q.seq == seq) = false
  unreleased : (d.rxC k).rel.contains seq = false
  room : d.heldBytes + n ≤ holdRoom

theorem Dev.rxAdmit_of {d : Dev} {k seq ts n : Nat} (h : d.admits k seq ts n) : d.rxAdmit k seq ts n (d.rxC k).pkts = (d, true) := by
  have hfind : (d.rxC k).pkts.find? (fun q => q.seq == seq) = none := by
    rw [List.find?_eq_none]
    intro q hq hc
    exact Bool.noConfusion ((List.any_eq_true.mpr ⟨q, hq, hc⟩).symm.trans h.unheld)
  have hrel : ¬(d.rxC k).rel.contains seq = true := by
    rw [h.unreleased]
    exact Bool.false_ne_true
  rw [Dev.rxAdmit, if_neg (not_lt.mpr h.near), hfind]
  show (if (d.rxC k).rel.contains seq = true then _ else _) = _
  rw [if_neg hrel, if_neg (not_lt.mpr h.room)]

theorem Dev.admits.of_edits {d e : Dev} {k seq ts n : Nat} {w : List Nat} (h : d.edits e k RxCtx.held w) (ha : d.admits k seq ts n) : e.admits k seq ts n := by
  have hp : (e.rxC k).pkts = (d.rxC k).pkts := congrArg Prod.fst h.view
  have hr : (e.rxC k).rel = (d.rxC k).rel := congrArg (fun y => y.2.1) h.view
  exact ⟨by rw [h.tick, h.rxT0]; exact ha.near, by rw [hp]; exact ha.unheld, by rw [hr]; exact ha.unreleased, by rw [h.heldBytes]; exact ha.room⟩

/-- An admitted packet is held. -/
theorem Dev.rxHold_leaves {d : Dev} {k seq ts : Nat} (leg : Nat) {pay : List Byte} (hk : k < d.strm.rx.length) (ha : d.admits k seq ts pay.length) :
    (∃ q, ((d.rxHold k leg seq ts pay).rxC k).pkts = (d.rxC k).pkts ++ [q] ∧ q.seq = seq ∧ q.ts = ts ∧ q.pay = pay ∧ q.arr = d.instant ∧
      q.t0 = d.rxT0 k ts d.tick) ∧ ∀ o, (d.rxHold k leg seq ts pay).w64 o = d.w64 o := by
  have h0 : d.edits ((d.legIn k leg).skewIn k leg seq) k RxCtx.held [] := (d.legIn_edits k leg).trans (Dev.skewIn_edits _ k leg seq)
  unfold Dev.rxHold
  extract_lets d0 r t0 pk
  replace h0 : d.edits d0 k RxCtx.held [] := h0
  clear_value d0
  have hr : r = (d0, true) := Dev.rxAdmit_of (ha.of_edits h0)
  have ht0 : t0 = d.rxT0 k ts d.tick := by
    simp only [t0, hr]
    rw [h0.tick, h0.rxT0]
  have hno : ¬(!r.2) = true := by
    rw [hr]
    exact Bool.false_ne_true
  rw [if_neg hno]
  have h1 : d.edits (r.1.marginIn k t0) k RxCtx.held [] := h0.trans (by rw [hr]; exact d0.marginIn_edits k t0)
  generalize r.1.marginIn k t0 = d1 at *
  have hp : (d1.rxC k).pkts = (d.rxC k).pkts := congrArg Prod.fst h1.view
  refine ⟨⟨pk, ?_, rfl, rfl, rfl, h0.instant, ht0⟩, fun o => h1.w64 List.not_mem_nil⟩
  rw [Dev.rxC_onRx _ (h1.length.symm ▸ hk), hp]

/-! ## The checks (R214) -/

/-- A frame of filter entry `e` that context `k` is to take as the packet of these fields. -/
structure Dev.takes (d : Dev) (e k : Nat) (f : List Byte) (pt seq ts ssrc : Nat) (pay : List Byte) : Prop where
  ctx : d.lf (R.strmFctl e) 0 8 = k
  ip : ip4Good (ethPay f) = true
  udp : udpGood (ethPay f) = true
  rtp : rtpOf ((slice (ethPay f) (ip4Len (ethPay f)) (be (ethPay f) 2 2 - ip4Len (ethPay f))).drop 8) = some (pt, seq, ts, ssrc, pay)
  en : d.rxEn k = true
  on : (d.rxC k).on = true
  cap : (d.rxC k).nocap = false
  role : d.role ≠ .catchup
  type : bit (d.lv (R.strmRxctl k)) 29 = true → pt = fld (d.lv (R.strmRxctl k)) 22 7
  source : bit (d.lv (R.strmRxctl k)) 30 = true → ssrc = d.lv (R.strmRxssrc k)
  size : pay.length = d.rxCh k * d.rxSpp k * d.rxWidth k

/-- Such a frame is counted and its packet goes to the context. -/
theorem Dev.streamFrame_of {d : Dev} {e k pt seq ts ssrc : Nat} {f pay : List Byte} (p : Nat) (h : d.takes e k f pt seq ts ssrc pay) :
    d.streamFrame p e f false = ((d.bump (R.strmCnt 0) 1).rxCnt k p 1).rxHold k p seq ts pay := by
  obtain ⟨rfl, hip, hudp, hrtp, hen, hon, hcap, hrole, htype, hsource, hsize⟩ := h
  have hcatch : (d.paired && d.role == .catchup && !d.lockstep) = false := by
    rw [beq_eq_false_iff_ne.mpr hrole, Bool.and_false, Bool.false_and]
  unfold Dev.streamFrame
  extract_lets c ip fail w n catchup d1
  have h1 : ¬(!ip4Good ip) = true := by simp [ip, hip]
  have h2 : ¬(!udpGood ip) = true := by simp [ip, hudp]
  have h3 : ¬(!d.rxEn c || (d.rxC c).nocap) = true := by
    rw [show d.rxEn c = true from hen, show (d.rxC c).nocap = false from hcap]
    decide
  have h4 : ¬((bit w 29 ∧ pt ≠ fld w 22 7) ∨ (bit w 30 ∧ ssrc ≠ d.lv (R.strmRxssrc c)) ∨ pay.length ≠ d.rxCh c * d.rxSpp c * d.rxWidth c) := by
    rintro (hc | hc | hc)
    · exact hc.2 (htype hc.1)
    · exact hc.2 (hsource hc.1)
    · exact hc hsize
  rw [if_neg Bool.false_ne_true, if_neg h1, if_neg h2, hrtp]
  simp only [if_neg h3, if_neg h4]
  rw [if_neg (show ¬catchup = true by rw [show catchup = false from hcatch]; exact Bool.false_ne_true)]
  exact if_pos hon

/-! ## A frame that carries a packet -/

theorem Dev.tallies.bump {d e : Dev} (h : d.tallies e) (o n : Nat) : d.tallies (e.bump o n) := by
  obtain ⟨_, _, _, rfl⟩ := h
  exact ⟨_, _, _, rfl⟩

theorem Dev.takes.of_tallies {d y : Dev} {e k pt seq ts ssrc : Nat} {f pay : List Byte} (hy : d.tallies y) (h : d.takes e k f pt seq ts ssrc pay) :
    y.takes e k f pt seq ts ssrc pay := by
  obtain ⟨_, _, _, rfl⟩ := hy
  exact ⟨h.ctx, h.ip, h.udp, h.rtp, h.en, h.on, h.cap, h.role, h.type, h.source, h.size⟩

theorem Dev.admits.of_tallies {d y : Dev} {k seq ts n : Nat} (hy : d.tallies y) (h : d.admits k seq ts n) : y.admits k seq ts n := by
  obtain ⟨_, _, _, rfl⟩ := hy
  exact ⟨h.near, h.unheld, h.unreleased, h.room⟩

/-- The packet of a frame of port `p` is held by context `k`, and counted (R214, R218). -/
theorem Dev.streamFrame_leaves {d y : Dev} {p e k pt seq ts ssrc : Nat} {f pay : List Byte} (hy : d.tallies y) (h : d.takes e k f pt seq ts ssrc pay)
    (ha : d.admits k seq ts pay.length) : let x := y.streamFrame p e f false
    (∃ q, (x.rxC k).pkts = (d.rxC k).pkts ++ [q] ∧ q.seq = seq ∧ q.ts = ts ∧ q.pay = pay ∧ q.arr = d.tick * 10240 + y.cycle ∧ q.t0 = d.rxT0 k ts d.tick) ∧
      x.w64 (R.strmCnt 0) = (y.w64 (R.strmCnt 0) + 1) % 2 ^ 64 ∧ x.w64 (R.strmRxcnt k p) = (y.w64 (R.strmRxcnt k p) + 1) % 2 ^ 64 := by
  have hne : R.strmCnt 0 ≠ R.strmRxcnt k p := by
    simp only [R.strmCnt, R.strmRxcnt]
    omega
  have hg : d.tallies ((y.bump (R.strmCnt 0) 1).bump (R.strmRxcnt k p) 1) := (hy.bump _ 1).bump _ 1
  have hon : ((y.bump (R.strmCnt 0) 1).rxCnt k p 1) = (y.bump (R.strmCnt 0) 1).bump (R.strmRxcnt k p) 1 := if_neg (by decide)
  have hcyc : ((y.bump (R.strmCnt 0) 1).bump (R.strmRxcnt k p) 1).cycle = y.cycle := rfl
  have hw0 : ((y.bump (R.strmCnt 0) 1).bump (R.strmRxcnt k p) 1).w64 (R.strmCnt 0) = (y.w64 (R.strmCnt 0) + 1) % 2 ^ 64 := by
    rw [Dev.w64_bump_ne _ _ _ _ hne, Dev.w64_bump]
  have hw1 : ((y.bump (R.strmCnt 0) 1).bump (R.strmRxcnt k p) 1).w64 (R.strmRxcnt k p) = (y.w64 (R.strmRxcnt k p) + 1) % 2 ^ 64 := by
    rw [Dev.w64_bump, Dev.w64_bump_ne _ _ _ _ hne.symm]
  rw [Dev.streamFrame_of p (h.of_tallies hy), hon]
  generalize (y.bump (R.strmCnt 0) 1).bump (R.strmRxcnt k p) 1 = g at *
  have hlen : k < g.strm.rx.length := lt_length_of_rxOn (h.of_tallies hg).on
  obtain ⟨⟨q, hq, hseq, hts, hpay, harr, ht0⟩, hw⟩ := Dev.rxHold_leaves p hlen (ha.of_tallies hg)
  have hrx : g.rxC k = d.rxC k := by
    obtain ⟨_, _, _, rfl⟩ := hg
    rfl
  have htick : g.tick = d.tick := by
    obtain ⟨_, _, _, rfl⟩ := hg
    rfl
  have hT (n : Nat) : g.rxT0 k ts n = d.rxT0 k ts n := by
    obtain ⟨_, _, _, rfl⟩ := hg
    rfl
  refine ⟨⟨q, by rw [hq, hrx], hseq, hts, hpay, ?_, by rw [ht0, hT, htick]⟩, (hw _).trans hw0, (hw _).trans hw1⟩
  rw [harr, Dev.instant, htick, hcyc]

/-- The row: a frame of a filter entry goes to its stream. -/
theorem frameReceive_stream {s : Sys} {p c e : Nat} {bytes : List Byte} (hp : p < 2) (hready : s.dev.rxReady p = true) (hlen : 64 ≤ bytes.length)
    (hgood : fcsGood bytes = true) (hmax : bytes.length ≤ s.dev.macMaxlen p) (htype : ethType (bytes.take (bytes.length - 4)) ≠ 0x8808)
    (hfil : s.dev.filterOf p (bytes.take (bytes.length - 4)) = some e) : s.frameReceive p bytes false c =
      { s with dev := ((((s.dev.atC c).macCount p 0 1).macCount p 1 bytes.length).macCount p 16 1).streamFrame p e (bytes.take (bytes.length - 4)) false } := by
  have harr : s.dev.arrival p bytes.length c = s.dev.atC c := if_neg (by omega)
  have hf : (((s.dev.atC c).macCount p 0 1).macCount p 1 bytes.length).filterOf p (bytes.take (bytes.length - 4)) = some e :=
    ((((Dev.tallies.atC s.dev c).macCount p 0 1).macCount p 1 bytes.length).filterOf p _).trans hfil
  rw [frameReceive_accepted (by omega) hready hlen hgood hmax, harr]
  unfold Sys.classify
  rw [if_neg htype, if_pos hp, hf]
  rfl

end Sys2Proof.Machine

/-!
PROOFS. The release of a stream context: the words it writes, its stages, and the pass over all contexts.
-/
namespace Sys2Proof.Machine

/-! ## The words of a release (R216) -/

theorem each_eq_foldl {σ α : Type} (l : List α) (f : α → σ → σ) (s : σ) : each l f s = l.foldl (fun s x => f x s) s := by
  induction l generalizing s with
  | nil => rfl
  | cons x l ih => exact ih (f x s)

/-- The words of a release, stored in the order of its channels. -/
theorem each_putWord_eq (a dch : Nat) (words : List Int) (m : Memory) :
    each ((List.range words.length).zip words) (fun w m => m.putWord (a + 4 * (dch + w.1)) (BitVec.ofNat 32 (wrapN 32 w.2))) m =
      (slotWords (a + 4 * dch) 0 (words.map (wrapN 32))).foldl (fun (m : Memory) w => m.putWord w.1 (BitVec.ofNat 32 w.2)) m := by
  have hz : (List.range words.length).zip words = words.zipIdx.map Prod.swap := by
    rw [List.zipIdx_eq_zip_range', ← List.range_eq_range', List.zip_swap]
  rw [each_eq_foldl, hz, List.foldl_map, slotWords, List.zipIdx_map, List.map_map, List.foldl_map]
  refine congrArg (fun g => List.foldl g m words.zipIdx) (funext fun m => funext fun w => ?_)
  have ha : a + 4 * (dch + w.2) = a + 4 * dch + 4 * w.2 := by omega
  exact congrArg (fun y => m.putWord y (BitVec.ofNat 32 (wrapN 32 w.1))) ha

theorem word_slotWords {m : Memory} (base : Nat) (ws : List Nat) (hw : m.wf = true) {i : Nat} (hi : i < ws.length) :
    ((slotWords base 0 ws).foldl (fun (m : Memory) w => m.putWord w.1 (BitVec.ofNat 32 w.2)) m).word (base + 4 * i) = BitVec.ofNat 32 (ws.getD i 0) := by
  have h := bytes_slotWords (m := m) base 0 ws hw hi
  rw [Nat.zero_add] at h
  rw [Memory.word, h, leNat_leBytes]
  exact BitVec.eq_of_toNat_eq (by simp)

/-- The words `l`, faded, stand from `place` on, and every other byte of `t` is that of `s`. -/
def Sys.released (s t : Sys) (place q f : Nat) (l : List Int) : Prop :=
  (∀ j v, l[j]? = some v → t.mem.word (place + 4 * j) = BitVec.ofNat 32 (wrapN 32 (fadeVal q f v))) ∧
    ∀ y, y < place ∨ place + 4 * l.length ≤ y → t.mem.get y = s.mem.get y

/-- A release writes its words, and glean sees them. -/
theorem Sys.rxWrite_leaves {s : Sys} {k a : Nat} {r : Region} (hw : s.mem.wf = true) (hr : s.dev.rxRegion k = .ok r) (ha : s.dev.rxFrameAt r = some a)
    (q f : Nat) (l : List Int) : let t := s.rxWrite k (l.map (fadeVal q f))
    t.otp = s.otp ∧ s.released t (a + 4 * s.dev.lf (R.strmRxdch k) 0 12) q f l ∧ ∃ g, t.dev = s.dev.beside s.dev.pair g := by
  let words := l.map (fadeVal q f)
  let place := a + 4 * s.dev.lf (R.strmRxdch k) 0 12
  let ws := words.map (wrapN 32)
  obtain ⟨g, hg⟩ := gleanSee_eq s.dev (((List.range words.length).zip words).map (fun w => (0x10000 + 64 * k + w.1, wrapN 32 w.2)))
  have ht : s.rxWrite k words = { s with
      mem := (slotWords place 0 ws).foldl (fun (m : Memory) w => m.putWord w.1 (BitVec.ofNat 32 w.2)) s.mem
      dev := s.dev.beside s.dev.pair g } := by
    have hd : s.dev.beside s.dev.pair g = s.dev.gleanSee (((List.range words.length).zip words).map (fun w => (0x10000 + 64 * k + w.1, wrapN 32 w.2))) := hg.symm
    rw [hd, ← each_putWord_eq]
    unfold Sys.rxWrite
    rw [hr]
    simp only [ha]
    rfl
  have hlen : ws.length = l.length := by simp only [ws, words, List.length_map]
  intro t
  have ht' : t = _ := ht
  rw [ht']
  refine ⟨rfl, ⟨fun j v hj => ?_, fun y hy => ?_⟩, g, rfl⟩
  · obtain ⟨hjl, rfl⟩ := List.getElem?_eq_some_iff.mp hj
    have hv : ws.getD j 0 = wrapN 32 (fadeVal q f l[j]) := by
      simp [ws, words, List.getD_eq_getElem?_getD, hjl]
    exact (word_slotWords place ws hw (by omega)).trans (by rw [hv])
  · exact get_slotWords_ne place 0 ws y hw (by rw [hlen]; omega)

/-! ## The stages of a release -/

/-- The counters of context `k` that a release may move beside CONCEALED. -/
def rxCnts (k : Nat) : List Nat := [R.strmRxcnt k 2, R.strmRxcnt k 3, R.strmRxcnt k 6]

theorem edits_ite {α : Type} {d e g : Dev} {k : Nat} {v : RxCtx → α} {w : List Nat} {c : Prop} [Decidable c] (he : d.edits e k v w) (hg : d.edits g k v w) :
    d.edits (if c then e else g) k v w := by
  split
  · exact he
  · exact hg

section
variable (d : Dev) (k : Nat)

theorem Dev.rxCnt_marks {i : Nat} (n : Nat) {w : List Nat} (h : R.strmRxcnt k i ∈ w) : d.marks (d.rxCnt k i n) (rxRegs k) w := by
  unfold Dev.rxCnt
  split
  · exact .refl d
  · exact .bump d n h

theorem Dev.rxState_edits {α : Type} {v : RxCtx → α} {w : List Nat} : d.edits (d.rxState k) k v w := .of_marks (Dev.marks_rxStat ..)

theorem Dev.rxFree_edits (t : Nat) {w : List Nat} : d.edits (d.rxFree k t) k RxCtx.q w := by
  have h (f : RxCtx → RxCtx) (hf : ∀ x, (f x).q = x.q) : d.edits (d.onRx k f) k RxCtx.q w := .onRx d hf
  unfold Dev.rxFree
  refine h _ ?_
  exact fun _ => rfl

theorem Dev.rxLateRun_edits {w : List Nat} : d.edits (d.rxLateRun k) k RxCtx.q w := by
  have h (f : RxCtx → RxCtx) (hf : ∀ x, (f x).q = x.q) : d.edits (d.onRx k f) k RxCtx.q w := .onRx d hf
  unfold Dev.rxLateRun
  extract_lets x n nd
  refine edits_ite (.refl d) (edits_ite ?_ ?_)
  · refine (h _ ?_).trans (.raise _ _ _ _ _)
    exact fun _ => rfl
  · refine h _ ?_
    exact fun _ => rfl

theorem Dev.recCount_edits (n : Nat) {α : Type} {v : RxCtx → α} {w : List Nat} : d.edits (d.recCount n) k v w := by
  unfold Dev.recCount
  split
  · exact .beside d _ _
  · exact .refl d

/-- No part of a context in particular. -/
def RxCtx.any (_ : RxCtx) : Unit := ()

theorem Dev.rxBegin_edits (t : Nat) (p : RxPkt) : d.edits (d.rxBegin k t p) k RxCtx.any (rxCnts k) := by
  have hany (e : Dev) (f : RxCtx → RxCtx) : e.edits (e.onRx k f) k RxCtx.any (rxCnts k) := .onRx e (fun _ => rfl)
  unfold Dev.rxBegin
  extract_lets x d0 gap late d1 d2 d3
  have h1 : d.edits d1 k RxCtx.any (rxCnts k) := (d.recCount_edits k _).trans (.of_marks (Dev.rxCnt_marks _ _ _ (by simp [rxCnts])))
  have h2 : d.edits d2 k RxCtx.any (rxCnts k) := (h1.trans (.of_marks (Dev.marks_rxStat ..))).trans (hany _ _)
  split
  · exact .refl d
  split
  · have h3 : d.edits d3 k RxCtx.any (rxCnts k) :=
      (h2.trans (.of_marks (Dev.rxCnt_marks _ _ _ (by simp [rxCnts])))).trans (.raise _ _ _ _ _)
    exact h3.trans (hany _ _)
  · exact h2.trans (hany _ _)

end

/-! ## One release (R217 to R221) -/

/-- What a release of context `k` ends in: its words, its fade and what it leaves of the device. -/
structure Sys.releases (s t : Sys) (k place q f : Nat) (l : List Int) (w : List Nat) : Prop where
  otp : t.otp = s.otp
  mem : s.released t place q f l
  fade : (t.dev.rxC k).q = q
  dev : s.dev.edits t.dev k RxCtx.any w

/-- The words written between the stages before and behind. -/
theorem Sys.releases_of {s : Sys} {k a q : Nat} {r : Region} {d2 : Dev} {w : List Nat} {F : Dev → Dev} (f : Nat) (l : List Int) (hw : s.mem.wf = true)
    (hr : s.dev.rxRegion k = .ok r) (ha : s.dev.rxFrameAt r = some a) (h2 : s.dev.edits d2 k RxCtx.any w) (hq : (d2.rxC k).q = q)
    (hF : ∀ d : Dev, d.edits (F d) k RxCtx.q []) : let t := (({ s with dev := d2 } : Sys).rxWrite k (l.map (fadeVal q f))).onDev F
    s.releases t k (a + 4 * s.dev.lf (R.strmRxdch k) 0 12) q f l w ∧ ∀ o, t.dev.w64 o = d2.w64 o := by
  obtain ⟨hotp, hmem, g, hdev⟩ := Sys.rxWrite_leaves (s := ({ s with dev := d2 } : Sys)) hw ((h2.rxRegion k).trans hr) ((h2.rxFrameAt r).trans ha) q f l
  have hdch : d2.lf (R.strmRxdch k) 0 12 = s.dev.lf (R.strmRxdch k) 0 12 := h2.lf 0 12 (by simp only [R.strmRxdch]; omega)
  generalize ({ s with dev := d2 } : Sys).rxWrite k (l.map (fadeVal q f)) = s1 at *
  have h3 : d2.edits (F s1.dev) k RxCtx.q [] := by
    refine .trans ?_ (hF s1.dev)
    rw [hdev]
    exact .beside d2 _ _
  refine ⟨⟨hotp, ?_, h3.view.trans hq, h2.trans (h3.mono (fun _ _ _ => rfl) (List.nil_subset _))⟩, fun o => h3.w64 List.not_mem_nil⟩
  rw [← hdch]
  exact hmem

section
variable {s : Sys} {k a : Nat} {r : Region} (hk : k < s.dev.strm.rx.length) (hw : s.mem.wf = true) (hr : s.dev.rxRegion k = .ok r) (ha : s.dev.rxFrameAt r = some a)
include hk hw hr ha

/-- The packet present is released, its fade up a step. -/
theorem Sys.rxRelease_present (p : RxPkt) (hfade : (s.dev.rxC k).fade = none) :
    s.releases (s.rxRelease k (some p)) k (a + 4 * s.dev.lf (R.strmRxdch k) 0 12) (min ((s.dev.rxC k).q + 1) (s.dev.rxF k)) (s.dev.rxF k)
      (s.dev.rxSample k ((s.dev.rxTs k (s.dev.rxU k s.dev.engTick) + 2 ^ 32 - p.ts) % 2 ^ 32) p.pay) (rxCnts k) := by
  unfold Sys.rxRelease
  extract_lets d t u x f slip d0 forced q
  have hforced : ¬forced = true := by
    simp only [forced, x]
    rw [show (d.rxC k).fade = none from hfade]
    exact Bool.false_ne_true
  have hq : q = min (x.q + 1) f := if_neg (by
    rw [show x.fade = none from hfade]
    exact Bool.false_ne_true)
  rw [if_neg hforced]
  split
  case h_2 hno => cases hno
  case h_1 p' hp =>
  obtain rfl := Option.some.inj hp
  extract_lets d1 xs d2 s1
  have h1 : d.edits d1 k RxCtx.any (rxCnts k) :=
    (Dev.edits.of_marks (d.rxCnt_marks k _ (by simp [rxCnts]))).trans (d0.rxBegin_edits k t p)
  have h2 : d1.edits d2 k RxCtx.any (rxCnts k) := .onRx d1 (fun _ => rfl)
  have hq2 : (d2.rxC k).q = q := congrArg RxCtx.q (Dev.rxC_onRx _ (h1.length.symm ▸ hk))
  have hxs : xs = d.rxSample k ((d.rxTs k u + 2 ^ 32 - p.ts) % 2 ^ 32) p.pay := by
    simp only [xs]
    rw [h1.rxSample, h1.rxTs]
  obtain ⟨h, -⟩ := Sys.releases_of f xs hw hr ha (h1.trans h2) hq2 (F := fun d => ((d.rxLateRun k).rxFree k t).rxState k)
    (fun e => ((e.rxLateRun_edits k).trans ((e.rxLateRun k).rxFree_edits k t)).trans (Dev.rxState_edits _ k))
  rw [← hxs, ← hq]
  exact h

/-- Without a packet the held sample is released, its fade down a step, and counted. -/
theorem Sys.rxRelease_absent :
    s.releases (s.rxRelease k none) k (a + 4 * s.dev.lf (R.strmRxdch k) 0 12) ((s.dev.rxC k).q - 1) (s.dev.rxF k) (s.dev.rxC k).h
        (R.strmRxcnt k 5 :: rxCnts k) ∧
      (s.rxRelease k none).dev.w64 (R.strmRxcnt k 5) = (s.dev.w64 (R.strmRxcnt k 5) + 1) % 2 ^ 64 := by
  unfold Sys.rxRelease
  extract_lets d t u x f slip d0 forced q0 q d1 d2 s1
  rw [ite_self]
  split
  case h_1 p' hp => cases hp
  case h_2 =>
  have h0 : d.edits d0 k RxCtx.any (R.strmRxcnt k 5 :: rxCnts k) := .of_marks (d.rxCnt_marks k _ (by simp [rxCnts]))
  have h1 : d.edits d1 k RxCtx.any (R.strmRxcnt k 5 :: rxCnts k) :=
    (h0.trans (.of_marks (d0.rxCnt_marks k _ (by simp)))).trans (.onRx _ (fun _ => rfl))
  have h2 : d1.edits d2 k RxCtx.q [] := edits_ite (.raise _ _ _ _ _) (.refl _)
  have hw0 : d0.w64 (R.strmRxcnt k 5) = d.w64 (R.strmRxcnt k 5) :=
    (d.rxCnt_marks k (w := [R.strmRxcnt k 6]) _ (by simp)).w64 (by simp [R.strmRxcnt])
  have hlen : k < (d0.rxCnt k 5 1).strm.rx.length := h0.length.symm ▸ hk
  have hq1 : (d1.rxC k).q = q := congrArg RxCtx.q (Dev.rxC_onRx _ hlen)
  have hw1 : d1.w64 (R.strmRxcnt k 5) = (d.w64 (R.strmRxcnt k 5) + 1) % 2 ^ 64 := (d0.w64_bump _ _).trans (by rw [hw0])
  obtain ⟨h, hw64⟩ := Sys.releases_of f x.h hw hr ha (h1.trans (h2.mono (fun _ _ _ => rfl) (List.nil_subset _))) (h2.view.trans hq1)
    (F := fun d => (d.rxFree k t).rxState k) (fun e => (e.rxFree_edits k t).trans (Dev.rxState_edits _ k))
  exact ⟨h, ((hw64 _).trans (h2.w64 List.not_mem_nil)).trans hw1⟩

end

end Sys2Proof.Machine

/-!
PROOFS. The release and the cutoff over all stream contexts (R216).
-/
namespace Sys2Proof.Machine

/-! ## A pass in which one context acts -/

theorem each_still {σ α : Type} {f : α → σ → σ} {l : List α} {a : σ} (h : ∀ x ∈ l, f x a = a) : each l f a = a := by
  induction l with
  | nil => rfl
  | cons x l ih =>
    have hx : each (x :: l) f a = each l f (f x a) := rfl
    rw [hx, h x List.mem_cons_self]
    exact ih (fun y hy => h y (List.mem_cons_of_mem _ hy))

/-- Where `k` alone acts, before it and behind it nothing does. -/
theorem each_one {σ α : Type} {f : α → σ → σ} {l : List α} {k : α} {a : σ} (hl : l.Nodup) (hk : k ∈ l) (h1 : ∀ x ∈ l, x ≠ k → f x a = a)
    (h2 : ∀ x ∈ l, x ≠ k → f x (f k a) = f k a) : each l f a = f k a := by
  induction l with
  | nil => exact absurd hk List.not_mem_nil
  | cons x l ih =>
    obtain ⟨hx, hl'⟩ := List.nodup_cons.mp hl
    have hstep : each (x :: l) f a = each l f (f x a) := rfl
    rw [hstep]
    by_cases hxk : x = k
    · subst hxk
      exact each_still (fun y hy => h2 y (List.mem_cons_of_mem _ hy) (fun hc => hx (hc ▸ hy)))
    · rw [h1 x List.mem_cons_self hxk]
      exact ih hl' ((List.mem_cons.mp hk).resolve_left (fun hc => hxk hc.symm)) (fun y hy => h1 y (List.mem_cons_of_mem _ hy))
        (fun y hy => h2 y (List.mem_cons_of_mem _ hy))

/-! ## The release at cycle 4,096 -/

/-- The release of context `c`, with the agreed packets that were missing so far. -/
def Sys.releaseStep (c : Nat) (acc : Sys × Nat) : Sys × Nat :=
  let s := acc.1
  if (s.dev.rxC c).nocap then
    ((if s.dev.rx96 c || s.dev.engTick % 2 == 1 then s.rxWrite c (List.replicate (s.dev.rxCh c) 0) else s), acc.2)
  else if !s.dev.rxDue c then acc
  else if (s.dev.rxC c).noreg ≠ 0 then (s.onDev (fun d => d.rxFree c d.engTick), acc.2)
  else
    let a := s.dev.rxAgreed c
    match a.1 with
    | some p =>
      let f := if p.spill then s.dev.dramForced 1 s.dev.spillBase else (s.dev, false)
      if f.2 then
        let d1 := (f.1.rxCnt c 3 1).onRx c (fun x => { x with pkts := x.pkts.filter (fun k => k.seq != p.seq) })
        (({ s with dev := d1 } : Sys).rxRelease c none, acc.2)
      else (s.rxRelease c a.1, acc.2)
    | none => (s.rxRelease c none, acc.2 + b2n a.2)

theorem Sys.streamRelease_eq (s : Sys) (h : s.dev.engHeld = false) : s.streamRelease =
    let r := each (List.range 256) Sys.releaseStep (s.onDev (fun d => d.atC 4096), 0)
    if r.2 = 0 then r.1 else r.1.onDev (fun d => d.raise Blk.pair Src.pairFwdMiss 2 d.tickLo r.2) := by
  have hh : ¬(s.onDev (fun d => d.atC 4096)).dev.engHeld = true := fun hc => Bool.noConfusion (h.symm.trans hc)
  unfold Sys.streamRelease
  exact if_neg hh

section
variable {s : Sys} {k n : Nat}

theorem releaseStep_idle (hcap : (s.dev.rxC k).nocap = false) (hdue : s.dev.rxDue k = false) : Sys.releaseStep k (s, n) = (s, n) := by
  unfold Sys.releaseStep
  simp only [hcap, hdue]
  rfl

variable (hcap : (s.dev.rxC k).nocap = false) (hdue : s.dev.rxDue k = true) (hreg : (s.dev.rxC k).noreg = 0)
include hcap hdue hreg

theorem releaseStep_present {p : RxPkt} (hp : s.dev.rxAgreed k = (some p, false)) (hspill : p.spill = false) :
    Sys.releaseStep k (s, n) = (s.rxRelease k (some p), n) := by
  unfold Sys.releaseStep
  simp only [hcap, hdue, hreg, hp, hspill]
  rfl

theorem releaseStep_absent (hp : s.dev.rxAgreed k = (none, false)) : Sys.releaseStep k (s, n) = (s.rxRelease k none, n) := by
  unfold Sys.releaseStep
  simp only [hcap, hdue, hreg, hp]
  rfl

end

/-- No context releases: nothing moves but the cycle. -/
theorem streamRelease_idle {s : Sys} (hheld : s.dev.engHeld = false) (h : ∀ j, j < 256 → s.dev.rxDue j = false ∧ (s.dev.rxC j).nocap = false) :
    s.streamRelease = s.onDev (fun d => d.atC 4096) := by
  have hpass : each (List.range 256) Sys.releaseStep (s.onDev (fun d => d.atC 4096), 0) = (s.onDev (fun d => d.atC 4096), 0) :=
    each_still (fun j hj => releaseStep_idle (h j (List.mem_range.mp hj)).2 (h j (List.mem_range.mp hj)).1)
  rw [Sys.streamRelease_eq s hheld, hpass]
  rfl

/-- Context `k` alone releases: its release is the row's. -/
theorem streamRelease_one {s t : Sys} {k place q f : Nat} {l : List Int} {w : List Nat} (hheld : s.dev.engHeld = false) (hk : k < 256)
    (hcap : ∀ j, j < 256 → (s.dev.rxC j).nocap = false) (hdue : ∀ j, j < 256 → j ≠ k → s.dev.rxDue j = false)
    (hstep : Sys.releaseStep k (s.onDev (fun d => d.atC 4096), 0) = (t, 0)) (ht : (s.onDev (fun d => d.atC 4096)).releases t k place q f l w) :
    s.streamRelease = t := by
  have hpass : each (List.range 256) Sys.releaseStep (s.onDev (fun d => d.atC 4096), 0) = (t, 0) := by
    rw [each_one List.nodup_range (List.mem_range.mpr hk), hstep]
    · exact fun j hj hjk => releaseStep_idle (hcap j (List.mem_range.mp hj)) (hdue j (List.mem_range.mp hj) hjk)
    · intro j hj hjk
      rw [hstep]
      refine releaseStep_idle ?_ ((ht.dev.rxDue_ne hjk).trans (hdue j (List.mem_range.mp hj) hjk))
      rw [ht.dev.rxC_ne hjk]
      exact hcap j (List.mem_range.mp hj)
  rw [Sys.streamRelease_eq s hheld, hpass]
  rfl

/-! ## The cutoff at cycle 2,048 -/

/-- The presence of context `k`, where no fade begins or ends. -/
theorem Dev.rxCut_eq {d : Dev} {k : Nat} (hfade : (d.rxC k).fade = none) (hask : (d.rxC k).ask = none) :
    d.rxCut k = if d.rxDue k then d.onRx k (fun x => { x with cut := d.rxPresent k d.engTick }) else d := by
  have ha : d.rxAnchor k = d := by
    unfold Dev.rxAnchor
    simp only [hfade, hask]
  unfold Dev.rxCut
  rw [ha]
  cases d.rxDue k <;> rfl

/-- What the presence of a context depends on. -/
def RxCtx.cutView (x : RxCtx) : Bool × List RxPkt × Option Fade × Option (Nat × Nat) × Nat × Nat := (x.on, x.pkts, x.fade, x.ask, x.dA, x.b)

/-- The device with other receive contexts. -/
def Dev.withRx (d : Dev) (rx : List RxCtx) : Dev := { d with strm := { d.strm with rx := rx } }

/-- From `d`, receive contexts alone differ in `e`, and those only in their presence. -/
def Dev.cuts (d e : Dev) : Prop :=
  ∃ rx, e = d.withRx rx ∧ rx.length = d.strm.rx.length ∧ ∀ j, (rx.getD j {}).cutView = (d.rxC j).cutView

namespace Dev.cuts

theorem refl (d : Dev) : d.cuts d := ⟨d.strm.rx, rfl, rfl, fun _ => rfl⟩

theorem trans {d e g : Dev} (h : d.cuts e) (h' : e.cuts g) : d.cuts g := by
  obtain ⟨rx, rfl, hlen, hv⟩ := h
  obtain ⟨rx', rfl, hlen', hv'⟩ := h'
  exact ⟨rx', rfl, hlen'.trans hlen, fun j => (hv' j).trans (hv j)⟩

section
variable {d e : Dev} (h : d.cuts e)
include h

theorem view (j : Nat) : (e.rxC j).cutView = (d.rxC j).cutView := by
  obtain ⟨rx, rfl, -, hv⟩ := h
  exact hv j

theorem engTick : e.engTick = d.engTick := by
  obtain ⟨rx, rfl, -, -⟩ := h
  rfl

theorem length : e.strm.rx.length = d.strm.rx.length := by
  obtain ⟨rx, rfl, hlen, -⟩ := h
  exact hlen

theorem pkts (j : Nat) : (e.rxC j).pkts = (d.rxC j).pkts := congrArg (fun y => y.2.1) (h.view j)

theorem settled {j : Nat} (hj : (d.rxC j).fade = none ∧ (d.rxC j).ask = none) : (e.rxC j).fade = none ∧ (e.rxC j).ask = none :=
  ⟨(congrArg (fun y => y.2.2.1) (h.view j)).trans hj.1, (congrArg (fun y => y.2.2.2.1) (h.view j)).trans hj.2⟩

theorem rxDue (j : Nat) : e.rxDue j = d.rxDue j := by
  have hon : (e.rxC j).on = (d.rxC j).on := congrArg Prod.fst (h.view j)
  rw [Dev.rxDue, hon, h.engTick, Dev.rxDue]
  obtain ⟨rx, rfl, -, -⟩ := h
  rfl

theorem rxPresent (j t : Nat) : e.rxPresent j t = d.rxPresent j t := by
  have hA : (e.rxC j).dA = (d.rxC j).dA := congrArg (fun y => y.2.2.2.2.1) (h.view j)
  have hB : (e.rxC j).b = (d.rxC j).b := congrArg (fun y => y.2.2.2.2.2) (h.view j)
  simp only [Dev.rxPresent, Dev.rxU, hA, hB, h.pkts]
  obtain ⟨rx, rfl, -, -⟩ := h
  rfl

end

end Dev.cuts

theorem rxCut_leaves {d : Dev} {k : Nat} (hk : k < d.strm.rx.length) (hset : (d.rxC k).fade = none ∧ (d.rxC k).ask = none) :
    d.cuts (d.rxCut k) ∧ (d.rxDue k = true → ((d.rxCut k).rxC k).cut = d.rxPresent k d.engTick) ∧ ∀ j, j ≠ k → (d.rxCut k).rxC j = d.rxC j := by
  rw [Dev.rxCut_eq hset.1 hset.2]
  by_cases hdue : d.rxDue k = true
  · rw [if_pos hdue]
    refine ⟨⟨_, rfl, length_updAt _ _ _, fun j => ?_⟩, fun _ => by rw [Dev.rxC_onRx _ hk], fun j hj => d.rxC_onRx_ne _ hj⟩
    rw [getD_updAt]
    split
    · rfl
    · rfl
  · rw [if_neg hdue]
    exact ⟨.refl d, fun h => absurd h hdue, fun _ _ => rfl⟩

/-- The pass of the cutoff: the presence of each context that is due is fixed. -/
theorem rxCuts_leaves {d : Dev} {l : List Nat} (hl : l.Nodup) (hk : ∀ k ∈ l, k < d.strm.rx.length)
    (hset : ∀ k ∈ l, (d.rxC k).fade = none ∧ (d.rxC k).ask = none) : let e := each l (fun c d => d.rxCut c) d
    d.cuts e ∧ (∀ k ∈ l, d.rxDue k = true → (e.rxC k).cut = d.rxPresent k d.engTick) ∧ ∀ j, j ∉ l → e.rxC j = d.rxC j := by
  induction l generalizing d with
  | nil => exact ⟨.refl d, fun k hk => absurd hk List.not_mem_nil, fun _ _ => rfl⟩
  | cons k l ih =>
    obtain ⟨hkl, hl'⟩ := List.nodup_cons.mp hl
    obtain ⟨h1, hcut, hne⟩ := rxCut_leaves (hk k List.mem_cons_self) (hset k List.mem_cons_self)
    have hstep : each (k :: l) (fun c d => d.rxCut c) d = each l (fun c d => d.rxCut c) (d.rxCut k) := rfl
    intro e
    have he : e = _ := hstep
    clear_value e
    subst he
    generalize d.rxCut k = d1 at *
    obtain ⟨h2, hcuts, hrest⟩ := ih hl' (fun j hj => h1.length.symm ▸ hk j (List.mem_cons_of_mem _ hj)) (fun j hj => h1.settled (hset j (List.mem_cons_of_mem _ hj)))
    refine ⟨h1.trans h2, fun j hj hdue => ?_, fun j hj => ?_⟩
    · rcases List.mem_cons.mp hj with rfl | hj
      · rw [hrest j hkl]
        exact hcut hdue
      · rw [hcuts j hj ((h1.rxDue j).trans hdue), h1.engTick, h1.rxPresent]
    · rw [hrest j (fun hc => hj (List.mem_cons_of_mem _ hc)), hne j (fun hc => hj (hc ▸ List.mem_cons_self))]

/-- The device at the cutoff's cycle, no fade begun. -/
def Dev.cutoffStart (d : Dev) : Dev := { d.atC 2048 with strm := { d.strm with starts := [] } }

/-- The cutoff of a unit that agrees with no partner. -/
theorem streamCutoff_eq {d : Dev} (hheld : d.engHeld = false) (hset : ∀ j, j < 256 → (d.rxC j).fade = none ∧ (d.rxC j).ask = none)
    (hlen : d.strm.rx.length = 256) (hp : d.strmPaired = false) :
    d.streamCutoff = each (List.range 256) (fun c d => d.rxCut c) d.cutoffStart := by
  have hcuts := (rxCuts_leaves (d := d.cutoffStart) List.nodup_range (fun k hk => (List.mem_range.mp hk).trans_eq hlen.symm) (fun k hk => hset k (List.mem_range.mp hk))).1
  have hno : ¬(each (List.range 256) (fun c d => d.rxCut c) d.cutoffStart).strmPaired = true := by
    obtain ⟨rx, hrx, -, -⟩ := hcuts
    rw [hrx]
    exact fun hc => Bool.noConfusion (hp.symm.trans hc)
  have hh : ¬(d.atC 2048).engHeld = true := fun hc => Bool.noConfusion (hheld.symm.trans hc)
  unfold Dev.streamCutoff
  extract_lets y st y1 y2
  have hy2 : y2 = each (List.range 256) (fun c d => d.rxCut c) d.cutoffStart := if_neg hh
  rw [hy2]
  exact if_neg hno

end Sys2Proof.Machine

/-!
PROOFS. The windows and the legs of streams (R222, R224, R227), and the obligation about their reception.
-/
namespace Sys2Proof.Machine

/-! ## The end of a window -/

/-- The window's minimum jumped against the one before by more than the limit of context `k`. -/
def Dev.jumped (d : Dev) (k : Nat) : Prop :=
  ∃ m m', (d.rxC k).win = some m ∧ (d.rxC k).winPrev = some m' ∧ d.rxFollows = false ∧ d.lf (R.strmRxarr k) 0 16 * 98304 < (max m m' - min m m') * 100

/-- ARRJUMP stands, in the context's status and as an event. -/
def Dev.jumpShown (d : Dev) (k : Nat) : Prop := d.rf (R.strmRxstat k) 6 1 = 1 ∧ d.flag Blk.strm Src.strmRxArrjump

/-- The windows of a context and its packets. -/
def RxCtx.winView (x : RxCtx) : Option Nat × Option Nat × List RxPkt := (x.win, x.winPrev, x.pkts)

theorem strmRxstat_ne_flt (k : Nat) : R.strmRxstat k ≠ R.fltstat Blk.strm ∧ R.strmRxstat k ≠ R.fltfirst Blk.strm := by
  have h1 : R.fltstat Blk.strm = 0xE0020 := by decide
  have h2 : R.fltfirst Blk.strm = 0xE0024 := by decide
  rw [h1, h2]
  simp only [R.strmRxstat]
  omega

theorem strmRxstat_not_mem {j k : Nat} (h : k ≠ j) : R.strmRxstat k ∉ rxRegs j := by
  obtain ⟨h1, h2⟩ := strmRxstat_ne_flt k
  intro hc
  simp only [rxRegs, List.mem_cons, List.not_mem_nil, or_false, h1, h2, R.strmRxstat, R.strmRxanchor, R.strmRxmargin, R.strmRxskew] at hc
  omega

/-- A window that ends in context `k`: what it leaves of the device, of the context, and whether a jump shows. -/
theorem Dev.rxWindowEnd_leaves {d : Dev} {k : Nat} (hon : (d.rxC k).on = true) : let e := d.rxWindowEnd k
    d.edits e k RxCtx.any [] ∧ (∀ s, s < 32 → d.flag Blk.strm s → e.flag Blk.strm s) ∧ (d.jumped k → e.jumpShown k) ∧
      (e.rxC k).winPrev = (d.rxC k).win ∧ (e.rxC k).win = none ∧ (e.rxC k).pkts = (d.rxC k).pkts := by
  intro e0
  have he0 : e0 = d.rxWindowEnd k := rfl
  clear_value e0
  have hset (y : Dev) (f : RxCtx → RxCtx) (hf : ∀ x, (f x).winView = x.winView) : y.edits (y.onRx k f) k RxCtx.winView [] := .onRx y hf
  unfold Dev.rxWindowEnd at he0
  extract_lets x jump d1 shrink m nd d2 r reg at he0
  have hno : ¬(!x.on) = true := by
    rw [show x.on = true from hon]
    exact Bool.false_ne_true
  have h1 : d.marks d1 (rxRegs k) [] := .ite (fun _ => (Dev.marks_rxStat ..).trans (.raiseRx ..)) (fun _ => .refl d)
  have hflag1 (s : Nat) (hs : s < 32) (h : d.flag Blk.strm s) : d1.flag Blk.strm s := by
    simp only [d1]
    split
    · refine Dev.flag_stays_raise _ _ _ _ _ hs ?_
      exact ((Dev.marks.setFld (l := [R.strmRxstat k]) (w := []) d 6 1 1 (by simp)).flag
        (by rw [List.mem_singleton]; exact (strmRxstat_ne_flt k).1.symm)).mpr h
    · exact h
  have hjump1 (h : d.jumped k) : d1.jumpShown k := by
    obtain ⟨a, b, ha, hb, hf, hlt⟩ := h
    have hj : (jump && !d.rxFollows) = true := by
      simp only [jump, x, ha, hb, hf, decide_eq_true hlt]
      rfl
    have hd1 : d1 = (d.rxStat k 6 1 1).raise Blk.strm Src.strmRxArrjump k (x.winPrev.getD 0 / 64) (x.win.getD 0 / 64) := if_pos hj
    rw [hd1]
    refine ⟨?_, Dev.flag_raise _ _ _ _ _ _ (by decide)⟩
    rw [Dev.rf_raise_ne (h1 := (strmRxstat_ne_flt k).1) (h2 := (strmRxstat_ne_flt k).2)]
    exact Dev.rf_setFld _ _ _ _ _ (by decide)
  have h2 : d1.edits d2 k RxCtx.winView [] := by
    refine edits_ite (hset d1 _ ?_) (.refl d1)
    exact fun _ => rfl
  have hk2 : d1.keeps d2 [R.strmRxmargin k] := by
    simp only [d2]
    split
    · exact Dev.keeps_of_regs ⟨rfl, rfl, rfl⟩ _
    · exact d1.keeps_refl _
  have h3 : d2.marks (r.1.setReg (R.strmRxmargin k) reg) [R.strmRxmargin k] [] := (Dev.marks.draw d2).trans (.setReg _ _ (by simp))
  rw [if_neg hno] at he0
  generalize hg : (if d.rxFollows = true then d2 else r.1.setReg (R.strmRxmargin k) reg) = g
  have h23 : d2.marks g [R.strmRxmargin k] [] := hg ▸ .ite (fun _ => .refl d2) (fun _ => h3)
  have he : (if d.rxFollows = true then d2.onRx k (fun x => { x with winPrev := x.win, win := none })
      else (r.1.setReg (R.strmRxmargin k) reg).onRx k (fun x => { x with winPrev := x.win, win := none })) =
      g.onRx k (fun x => { x with winPrev := x.win, win := none }) := by
    rw [← hg]
    exact (apply_ite (fun y : Dev => y.onRx k (fun x => { x with winPrev := x.win, win := none })) _ _ _).symm
  have hdg : d.edits g k RxCtx.winView [] :=
    ((Dev.edits.of_marks h1).trans h2).trans (.of_marks (h23.mono (List.cons_subset.mpr ⟨strmRxmargin_mem k, List.nil_subset _⟩) (List.Subset.refl _)))
  have hkeep : d1.keeps (g.onRx k (fun x => { x with winPrev := x.win, win := none })) [R.strmRxmargin k] :=
    (hk2.trans h23.keeps).trans (Dev.keeps_of_regs ⟨rfl, rfl, rfl⟩ _)
  have hlen : k < g.strm.rx.length := hdg.length.symm ▸ lt_length_of_rxOn hon
  have hx := Dev.rxC_onRx (fun x => { x with winPrev := x.win, win := none }) hlen
  have hview := hdg.view
  have hedits : d.edits (g.onRx k (fun x => { x with winPrev := x.win, win := none })) k RxCtx.any [] :=
    (hdg.mono (fun _ _ _ => rfl) (List.Subset.refl _)).trans (.onRx g (fun _ => rfl))
  obtain rfl := he0.trans he
  generalize g.onRx k (fun x => { x with winPrev := x.win, win := none }) = e at *
  have hfe : R.fltstat Blk.strm ∉ [R.strmRxmargin k] := by
    rw [List.mem_singleton, show R.fltstat Blk.strm = 0xE0020 by decide]
    simp only [R.strmRxmargin]
    omega
  have hse : R.strmRxstat k ∉ [R.strmRxmargin k] := by
    rw [List.mem_singleton]
    simp [R.strmRxstat, R.strmRxmargin]
  refine ⟨hedits, fun s hs h => (hkeep.rf hfe _ _).trans (hflag1 s hs h), fun h => ?_, ?_, ?_, ?_⟩
  · exact ⟨(hkeep.rf hse _ _).trans (hjump1 h).1, (hkeep.rf hfe _ _).trans (hjump1 h).2⟩
  · rw [hx]
    exact congrArg Prod.fst hview
  · rw [hx]
  · rw [hx]
    exact congrArg (fun y => y.2.2) hview

/-- From `d` to `e` nothing of context `k` and of its last window differs, and no event of STRM is lost. -/
structure Dev.spares (d e : Dev) (k : Nat) : Prop where
  ctx : e.rxC k = d.rxC k
  limit : e.lf (R.strmRxarr k) 0 16 = d.lf (R.strmRxarr k) 0 16
  follows : e.rxFollows = d.rxFollows
  status : e.rf (R.strmRxstat k) 6 1 = d.rf (R.strmRxstat k) 6 1
  flags : ∀ s, s < 32 → d.flag Blk.strm s → e.flag Blk.strm s

namespace Dev.spares

variable {k : Nat}

theorem refl (d : Dev) : d.spares d k := ⟨rfl, rfl, rfl, rfl, fun _ _ h => h⟩

theorem trans {d e g : Dev} (h : d.spares e k) (h' : e.spares g k) : d.spares g k :=
  ⟨h'.ctx.trans h.ctx, h'.limit.trans h.limit, h'.follows.trans h.follows, h'.status.trans h.status, fun s hs hf => h'.flags s hs (h.flags s hs hf)⟩

theorem jumped {d e : Dev} (h : d.spares e k) (hj : d.jumped k) : e.jumped k := by
  obtain ⟨m, m', h1, h2, h3, h4⟩ := hj
  exact ⟨m, m', by rw [h.ctx, h1], by rw [h.ctx, h2], by rw [h.follows, h3], by rw [h.limit]; exact h4⟩

theorem jumpShown {d e : Dev} (h : d.spares e k) (hj : d.jumpShown k) : e.jumpShown k :=
  ⟨h.status.trans hj.1, h.flags _ (by decide) hj.2⟩

/-- Another context's window. -/
theorem rxWindowEnd (d : Dev) {j : Nat} (hj : k ≠ j) : d.spares (d.rxWindowEnd j) k := by
  by_cases hon : (d.rxC j).on = true
  · obtain ⟨h, hflags, -⟩ := Dev.rxWindowEnd_leaves hon
    exact ⟨h.rxC_ne hj, h.lf 0 16 (by simp only [R.strmRxarr]; omega), h.follows, h.rf _ _ (strmRxstat_not_mem hj), hflags⟩
  · have he : d.rxWindowEnd j = d := by
      unfold Dev.rxWindowEnd
      exact if_pos (by rw [Bool.not_eq_true] at hon; rw [hon]; rfl)
    rw [he]
    exact refl d

theorem windows {l : List Nat} (hl : k ∉ l) (d : Dev) : d.spares (each l (fun c d => d.rxWindowEnd c) d) k := by
  induction l generalizing d with
  | nil => exact refl d
  | cons j l ih =>
    have hj : k ≠ j := fun hc => hl (hc ▸ List.mem_cons_self)
    exact (rxWindowEnd d hj).trans (ih (fun hc => hl (List.mem_cons_of_mem _ hc)) _)

end Dev.spares

theorem each_append {σ α : Type} (l l' : List α) (f : α → σ → σ) (s : σ) : each (l ++ l') f s = each l' f (each l f s) := by
  simp only [each_eq_foldl, List.foldl_append]

/-- The windows of all contexts end, that of context `k` among them (R222, R224). -/
theorem arrivalWindow_leaves {d : Dev} {k : Nat} (hk : k < 256) (h : d.tick % 9600 = 0) (hon : (d.rxC k).on = true) : let e := d.arrivalWindow
    (e.rxC k).winPrev = (d.rxC k).win ∧ (e.rxC k).win = none ∧ (e.rxC k).pkts = (d.rxC k).pkts ∧ (d.jumped k → e.jumpShown k) := by
  obtain ⟨l, l', hl⟩ := List.append_of_mem (List.mem_range.mpr hk)
  have hnd : (l ++ k :: l').Nodup := hl ▸ List.nodup_range
  obtain ⟨-, hnd', hdis⟩ := List.nodup_append.mp hnd
  have hkl : k ∉ l := fun hc => hdis k hc k List.mem_cons_self rfl
  have hkl' : k ∉ l' := (List.nodup_cons.mp hnd').1
  have he : d.arrivalWindow = each l' (fun c d => d.rxWindowEnd c) ((each l (fun c d => d.rxWindowEnd c) (d.atC 0)).rxWindowEnd k) := by
    have h1 : d.arrivalWindow = each (List.range 256) (fun c d => d.rxWindowEnd c) (d.atC 0) := if_pos h
    rw [h1, hl, each_append]
    rfl
  have hb := Dev.spares.windows hkl (d.atC 0)
  have h0 : (d.atC 0).rxC k = d.rxC k := rfl
  have hj0 (hj : d.jumped k) : (d.atC 0).jumped k := hj
  rw [he]
  generalize each l (fun c d => d.rxWindowEnd c) (d.atC 0) = d1 at *
  have hx1 : d1.rxC k = d.rxC k := hb.ctx.trans h0
  obtain ⟨-, -, hjump, hprev, hwin, hpkts⟩ := Dev.rxWindowEnd_leaves (d := d1) (k := k) (by rw [hx1, hon])
  have ha := Dev.spares.windows hkl' (d1.rxWindowEnd k)
  generalize d1.rxWindowEnd k = d2 at *
  intro e
  refine ⟨?_, ?_, ?_, fun hj => ha.jumpShown (hjump (hb.jumped (hj0 hj)))⟩
  · rw [ha.ctx, hprev, hx1]
  · rw [ha.ctx, hwin]
  · rw [ha.ctx, hpkts, hx1]

/-! ## Legs (R227) -/

/-- A leg that is marked down. -/
theorem legDown_leaves {d : Dev} {k leg c : Nat} (hk : k < 256) (hleg : leg < 2) (hon : (d.rxC k).on = true) (hfed : d.legFed k leg = true)
    (hup : (d.rxC k).legDn.getD leg false = false) (hdue : (d.rxC k).legT.getD leg 0 + 9830400 ≤ d.tick * 10240 + c) : let e := d.legDown k leg c
    e.rf (R.strmRxstat k) (4 + leg) 1 = 0 ∧ e.flag Blk.strm Src.strmRxLegdown ∧ d.keeps e [R.strmRxstat k, R.fltstat Blk.strm, R.fltfirst Blk.strm] := by
  let d1 := ((d.atC c).rxStat k (4 + leg) 1 0).onRx k (fun x => { x with legDn := updAt x.legDn leg (fun _ => true) })
  have he : d.legDown k leg c = d1.raise Blk.strm Src.strmRxLegdown k leg 0 := if_pos ⟨hk, hleg, hon, hfed, hup, hdue⟩
  have hrf : d1.rf (R.strmRxstat k) (4 + leg) 1 = 0 := (d.atC c).rf_setFld (R.strmRxstat k) (4 + leg) 1 0 (by omega)
  have hk1 : d.keeps d1 [R.strmRxstat k, R.fltstat Blk.strm, R.fltfirst Blk.strm] :=
    (Dev.keeps_of_regs (e := d.atC c) ⟨rfl, rfl, rfl⟩ _).trans (((d.atC c).keeps_setFld _ _ _ _ (by simp)).trans (Dev.keeps_of_regs ⟨rfl, rfl, rfl⟩ _))
  rw [he]
  clear_value d1
  refine ⟨?_, Dev.flag_raise _ _ _ _ _ _ (by decide), hk1.trans (Dev.keeps_raise _ _ _ _ _ _ (by simp) (by simp))⟩
  rw [Dev.rf_raise_ne (h1 := (strmRxstat_ne_flt k).1) (h2 := (strmRxstat_ne_flt k).2), hrf]

theorem legDown_early {d : Dev} {k leg c : Nat} (h : d.tick * 10240 + c < (d.rxC k).legT.getD leg 0 + 9830400) : d.legDown k leg c = d.atC c := by
  refine if_neg (fun hc => ?_)
  obtain ⟨-, -, -, -, -, hdue⟩ := hc
  have hdue' : (d.rxC k).legT.getD leg 0 + 9830400 ≤ d.tick * 10240 + c := hdue
  omega

end Sys2Proof.Machine

/-!
PROOFS. The reception of streams: the rows together (R214 to R227).
-/
namespace Sys2Proof.Machine

/-- A frame of a stream on a port: its packet is held, and counted. -/
theorem exec_frameReceive_stream {z : State} {p c e k pt seq ts ssrc : Nat} {bytes pay : List Byte} (hrun : z.Running) (hp : p < 2)
    (hready : z.sys.dev.rxReady p = true) (hlen : 64 ≤ bytes.length) (hmax : bytes.length ≤ z.sys.dev.macMaxlen p) (hgood : fcsGood bytes = true)
    (htype : ethType (bytes.take (bytes.length - 4)) ≠ 0x8808) (hfil : z.sys.dev.filterOf p (bytes.take (bytes.length - 4)) = some e)
    (ht : z.sys.dev.takes e k (bytes.take (bytes.length - 4)) pt seq ts ssrc pay) (ha : z.sys.dev.admits k seq ts pay.length) :
    z.leads (exec (.frameReceive p bytes false c) z) (fun e => (∃ q, (e.rxC k).pkts = (z.sys.dev.rxC k).pkts ++ [q] ∧ q.seq = seq ∧ q.ts = ts ∧ q.pay = pay ∧
        q.arr = z.sys.dev.tick * 10240 + c ∧ q.t0 = z.sys.dev.rxT0 k ts z.sys.dev.tick) ∧
      e.w64 (R.strmCnt 0) = (z.sys.dev.w64 (R.strmCnt 0) + 1) % 2 ^ 64 ∧ e.w64 (R.strmRxcnt k p) = (z.sys.dev.w64 (R.strmRxcnt k p) + 1) % 2 ^ 64) := by
  have hy : z.sys.dev.tallies ((((z.sys.dev.atC c).macCount p 0 1).macCount p 1 bytes.length).macCount p 16 1) :=
    (((Dev.tallies.atC z.sys.dev c).macCount p 0 1).macCount p 1 bytes.length).macCount p 16 1
  have hcyc : ((((z.sys.dev.atC c).macCount p 0 1).macCount p 1 bytes.length).macCount p 16 1).cycle = c := rfl
  have hw (o : Nat) (ho : 0xE0000 ≤ o) : ((((z.sys.dev.atC c).macCount p 0 1).macCount p 1 bytes.length).macCount p 16 1).w64 o = z.sys.dev.w64 o := by
    have hne (i : Nat) (hi : i ≤ 16) : o ≠ R.macCnt (macBlk p) i := by
      simp only [R.macCnt, macBlk]
      omega
    rw [Dev.macCount, Dev.w64_bump_ne _ _ _ _ (hne 16 (by omega)), Dev.macCount, Dev.w64_bump_ne _ _ _ _ (hne 1 (by omega)), Dev.macCount,
      Dev.w64_bump_ne _ _ _ _ (hne 0 (by omega)), Dev.w64_atC]
  have hrow : exec (.frameReceive p bytes false c) z =
      .next (z.put { z.sys with dev := ((((z.sys.dev.atC c).macCount p 0 1).macCount p 1 bytes.length).macCount p 16 1).streamFrame p e (bytes.take (bytes.length - 4)) false }) := by
    rw [exec_frameReceive hrun, frameReceive_stream hp hready hlen hgood hmax htype hfil]
  have hl := Dev.streamFrame_leaves (p := p) hy ht ha
  rw [hcyc, hw _ (by simp only [R.strmCnt]; omega), hw _ (by simp only [R.strmRxcnt]; omega)] at hl
  exact ⟨_, hrow, ⟨rfl, rfl, rfl⟩, hl⟩

/-- The row of the cutoff. -/
theorem exec_streamCutoff_leads {z : State} (hrun : z.Running) (hoff : z.sys.dev.engOff = false) (hheld : z.sys.dev.engHeld = false)
    (hp : z.sys.dev.strmPaired = false) (hlen : z.sys.dev.strm.rx.length = 256)
    (hset : ∀ j, j < 256 → (z.sys.dev.rxC j).fade = none ∧ (z.sys.dev.rxC j).ask = none) :
    z.leads (exec .streamCutoff z) (fun e => e.strm.starts = [] ∧
      (∀ j, j < 256 → z.sys.dev.rxDue j = true → (e.rxC j).cut = z.sys.dev.rxPresent j z.sys.dev.engTick) ∧
      (∀ j, (e.rxC j).pkts = (z.sys.dev.rxC j).pkts) ∧ z.sys.dev.keeps e []) := by
  refine leads_of_tickRow (f := Dev.cutoffRow) rfl hrun ?_
  have hrow : z.sys.dev.cutoffRow = z.sys.dev.streamCutoff := if_neg (by rw [hoff]; exact Bool.false_ne_true)
  generalize z.sys.dev = d at *
  rw [hrow, streamCutoff_eq hheld hset hlen hp]
  have hk0 : d.keeps d.cutoffStart [] := Dev.keeps_of_regs ⟨rfl, rfl, rfl⟩ _
  have hdue0 (j : Nat) (h : d.rxDue j = true) : d.cutoffStart.rxDue j = true := h
  have hpres0 (j : Nat) : d.cutoffStart.rxPresent j d.cutoffStart.engTick = d.rxPresent j d.engTick := rfl
  have hpk0 (j : Nat) : (d.cutoffStart.rxC j).pkts = (d.rxC j).pkts := rfl
  have hs0 : d.cutoffStart.strm.starts = [] := rfl
  have hset0 (j : Nat) (h : j < 256) : (d.cutoffStart.rxC j).fade = none ∧ (d.cutoffStart.rxC j).ask = none := hset j h
  have hlen0 : d.cutoffStart.strm.rx.length = 256 := hlen
  generalize d.cutoffStart = d1 at *
  obtain ⟨hcuts, hcut, -⟩ := rxCuts_leaves (d := d1) (List.nodup_range (n := 256)) (fun k hk => (List.mem_range.mp hk).trans_eq hlen0.symm)
    (fun k hk => hset0 k (List.mem_range.mp hk))
  generalize each (List.range 256) (fun c d => d.rxCut c) d1 = e at *
  refine ⟨?_, fun j hj hdue => (hcut j (List.mem_range.mpr hj) (hdue0 j hdue)).trans (hpres0 j), fun j => (hcuts.pkts j).trans (hpk0 j), hk0.trans ?_⟩
  · obtain ⟨rx, rfl, -, -⟩ := hcuts
    exact hs0
  · obtain ⟨rx, rfl, -, -⟩ := hcuts
    exact Dev.keeps_of_regs ⟨rfl, rfl, rfl⟩ _

section
variable (d : Dev) (c k : Nat)

/-! The stages of a release look at the same device at the row's cycle. -/

theorem Dev.rxSample_atC (i : Nat) (pay : List Byte) : (d.atC c).rxSample k i pay = d.rxSample k i pay := rfl

theorem Dev.rxPhase_atC : (d.atC c).rxTs k ((d.atC c).rxU k (d.atC c).engTick) = d.rxTs k (d.rxU k d.engTick) := rfl

theorem Dev.rxF_atC : (d.atC c).rxF k = d.rxF k := rfl

theorem Dev.rxC_atC : (d.atC c).rxC k = d.rxC k := rfl

theorem Dev.lf_atC (o lo n : Nat) : (d.atC c).lf o lo n = d.lf o lo n := rfl

theorem Dev.rxRegion_atC : (d.atC c).rxRegion k = d.rxRegion k := rfl

theorem Dev.rxFrameAt_atC (r : Region) : (d.atC c).rxFrameAt r = d.rxFrameAt r := rfl

theorem Dev.rxDue_atC : (d.atC c).rxDue k = d.rxDue k := rfl

theorem Dev.rxAgreed_atC : (d.atC c).rxAgreed k = d.rxAgreed k := rfl
end

section
variable {z : State} (hrun : z.Running) (hoff : z.sys.dev.engOff = false) (hheld : z.sys.dev.engHeld = false)
include hrun hoff hheld

omit hheld in
/-- The row of the release is the release. -/
theorem exec_streamRelease : exec .streamRelease z = .next (z.put z.sys.streamRelease) := by
  have h := exec_tickRow (c := .streamRelease) (f := fun s => if s.dev.engOff then s.onDev (fun d => d.atC 4096) else s.streamRelease) rfl hrun
  rw [h]
  exact congrArg (fun s => Host.Outcome.next (z.put s)) (if_neg (by rw [hoff]; exact Bool.false_ne_true))

/-- A release in which context `k` alone takes part. -/
theorem exec_streamRelease_one {k place q f : Nat} {l : List Int} {w : List Nat} {t : Sys} {P : Sys → Prop} (hk : k < 256)
    (hother : ∀ j, j < 256 → (z.sys.dev.rxC j).nocap = false ∧ (j ≠ k → z.sys.dev.rxDue j = false))
    (hstep : Sys.releaseStep k (z.sys.onDev (fun d => d.atC 4096), 0) = (t, 0))
    (ht : (z.sys.onDev (fun d => d.atC 4096)).releases t k place q f l w) (hP : P t) : z.leadsSys (exec .streamRelease z) P := by
  have hone := streamRelease_one hheld hk (fun j hj => (hother j hj).1) (fun j hj => (hother j hj).2) hstep ht
  rw [exec_streamRelease hrun hoff, hone]
  exact ⟨_, rfl, ht.otp, rfl, hP⟩

variable {k a : Nat} {r : Region} (hk : k < 256) (hother : ∀ j, j < 256 → (z.sys.dev.rxC j).nocap = false ∧ (j ≠ k → z.sys.dev.rxDue j = false))
  (hdue : z.sys.dev.rxDue k = true) (hreg : (z.sys.dev.rxC k).noreg = 0) (hinv : z.Inv) (hr : z.sys.dev.rxRegion k = .ok r) (ha : z.sys.dev.rxFrameAt r = some a)
include hk hother hdue hreg hinv hr ha

/-- The row where the packet of context `k` is present. -/
theorem exec_streamRelease_present {p : RxPkt} (hp : z.sys.dev.rxAgreed k = (some p, false)) (hspill : p.spill = false) (hfade : (z.sys.dev.rxC k).fade = none) :
    z.leadsSys (exec .streamRelease z) (fun t =>
      z.sys.released t (a + 4 * z.sys.dev.lf (R.strmRxdch k) 0 12) (min ((z.sys.dev.rxC k).q + 1) (z.sys.dev.rxF k)) (z.sys.dev.rxF k)
        (z.sys.dev.rxSample k ((z.sys.dev.rxTs k (z.sys.dev.rxU k z.sys.dev.engTick) + 2 ^ 32 - p.ts) % 2 ^ 32) p.pay) ∧
      (t.dev.rxC k).q = min ((z.sys.dev.rxC k).q + 1) (z.sys.dev.rxF k)) := by
  obtain ⟨s, hs⟩ : ∃ s, s = z.sys.onDev (fun d => d.atC 4096) := ⟨_, rfl⟩
  have hdev : s.dev = z.sys.dev.atC 4096 := by rw [hs, Sys.onDev_dev]
  have hmem : s.mem = z.sys.mem := by rw [hs, Sys.onDev_mem]
  have hon : ((z.sys.dev.atC 4096).rxC k).on = true := (Bool.and_eq_true_iff.mp hdue).1
  have hrel := Sys.rxRelease_present (s := s) (k := k) (a := a) (r := r) (by rw [hdev]; exact lt_length_of_rxOn hon) (by rw [hmem]; exact hinv)
    (by rw [hdev, Dev.rxRegion_atC, hr]) (by rw [hdev, Dev.rxFrameAt_atC, ha]) p (by rw [hdev, Dev.rxC_atC, hfade])
  rw [hdev, Dev.rxC_atC, Dev.rxF_atC, Dev.rxPhase_atC, Dev.rxSample_atC, Dev.lf_atC] at hrel
  have hstep := releaseStep_present (s := s) (k := k) (n := 0) (p := p) (by rw [hdev, Dev.rxC_atC]; exact (hother k hk).1) (by rw [hdev, Dev.rxDue_atC, hdue])
    (by rw [hdev, Dev.rxC_atC, hreg]) (by rw [hdev, Dev.rxAgreed_atC, hp]) hspill
  have hP := And.intro hrel.mem hrel.fade
  rw [Sys.released, hmem] at hP
  rw [hs] at hrel hstep
  exact exec_streamRelease_one hrun hoff hheld hk hother hstep hrel (hs ▸ hP)

/-- The row where context `k` has no packet. -/
theorem exec_streamRelease_absent (hp : z.sys.dev.rxAgreed k = (none, false)) :
    z.leadsSys (exec .streamRelease z) (fun t =>
      (z.sys.released t (a + 4 * z.sys.dev.lf (R.strmRxdch k) 0 12) ((z.sys.dev.rxC k).q - 1) (z.sys.dev.rxF k) (z.sys.dev.rxC k).h ∧
        (t.dev.rxC k).q = (z.sys.dev.rxC k).q - 1) ∧
      t.dev.w64 (R.strmRxcnt k 5) = (z.sys.dev.w64 (R.strmRxcnt k 5) + 1) % 2 ^ 64) := by
  obtain ⟨s, hs⟩ : ∃ s, s = z.sys.onDev (fun d => d.atC 4096) := ⟨_, rfl⟩
  have hdev : s.dev = z.sys.dev.atC 4096 := by rw [hs, Sys.onDev_dev]
  have hmem : s.mem = z.sys.mem := by rw [hs, Sys.onDev_mem]
  have hon : ((z.sys.dev.atC 4096).rxC k).on = true := (Bool.and_eq_true_iff.mp hdue).1
  obtain ⟨hrel, hcnt⟩ := Sys.rxRelease_absent (s := s) (k := k) (a := a) (r := r) (by rw [hdev]; exact lt_length_of_rxOn hon) (by rw [hmem]; exact hinv)
    (by rw [hdev, Dev.rxRegion_atC, hr]) (by rw [hdev, Dev.rxFrameAt_atC, ha])
  rw [hdev, Dev.rxC_atC, Dev.rxF_atC, Dev.lf_atC] at hrel
  rw [hdev, Dev.w64_atC] at hcnt
  have hstep := releaseStep_absent (s := s) (k := k) (n := 0) (by rw [hdev, Dev.rxC_atC]; exact (hother k hk).1) (by rw [hdev, Dev.rxDue_atC, hdue])
    (by rw [hdev, Dev.rxC_atC, hreg]) (by rw [hdev, Dev.rxAgreed_atC, hp])
  have hP := And.intro (And.intro hrel.mem hrel.fade) hcnt
  rw [Sys.released, hmem] at hP
  rw [hs] at hrel hstep
  exact exec_streamRelease_one hrun hoff hheld hk hother hstep hrel (hs ▸ hP)

end

/-- Settles O54: stream packets from the frame to the region, their windows and legs. -/
theorem streamsAreReceived : Obligations.StreamsAreReceived := by
  intro z k hrun hoff hheld hk d x
  refine ⟨?_, exec_streamCutoff_leads hrun hoff hheld, fun h => ?_, ?_, fun htick => ?_, fun htick hon => ?_, fun leg c hleg hon hfed hup => ⟨fun hdue => ?_, fun hdue => ?_⟩⟩
  · intro p c e pt seq ts ssrc bytes pay n f ip w hp hready hlen hmax hgood htype hfil hctx hip hudp hrtp hen hon hcap hrole hpt hssrc hsize hnear hnew hrel hroom
    exact exec_frameReceive_stream hrun hp hready hlen hmax hgood htype hfil ⟨hctx, hip, hudp, hrtp, hen, hon, hcap, hrole, hpt, hssrc, hsize⟩
      ⟨hnear, hnew, hrel, hroom⟩
  · rw [exec_streamRelease hrun hoff, streamRelease_idle hheld h]
    rfl
  · intro r a hother hdue hreg hinv hr ha place f wrote
    refine ⟨fun p hp hspill hfade => ?_, fun hp => ?_⟩
    · obtain ⟨t, ht, hotp, hpend, ⟨hin, hout⟩, hq⟩ := exec_streamRelease_present hrun hoff hheld hk hother hdue hreg hinv hr ha hp hspill hfade
      exact ⟨t, ht, hotp, hpend, hin, hout, hq⟩
    · obtain ⟨t, ht, hotp, hpend, ⟨⟨hin, hout⟩, hq⟩, hcnt⟩ := exec_streamRelease_absent hrun hoff hheld hk hother hdue hreg hinv hr ha hp
      exact ⟨t, ht, hotp, hpend, ⟨hin, hout, hq⟩, hcnt⟩
  · exact exec_tickRow_still rfl hrun (if_neg htick)
  · obtain ⟨hprev, hwin, hpkts, hjump⟩ := arrivalWindow_leaves hk htick hon
    exact leads_of_tickRow rfl hrun ⟨hprev, hwin, hpkts, fun m m' h1 h2 h3 h4 => hjump ⟨m, m', h1, h2, h3, h4⟩⟩
  · exact leads_of_tickRow rfl hrun (legDown_leaves hk hleg hon hfed hup hdue)
  · exact exec_tickRow_still rfl hrun (legDown_early hdue)

end Sys2Proof.Machine
